-- ==== Sys2Proof/Word.lean ====
section
/-! DEFINITION. The words of the device: the 32-bit register word (R10), the byte of a memory stack or of a
plane frame, and the sparse table in which the machine holds anything it numbers. -/

namespace Sys2Proof

/-- A register word (R10). -/
abbrev Word := BitVec 32

/-- A byte of memory, of a plane frame or of a state image. -/
abbrev Byte := BitVec 8

/-- A sparse table: keys strictly rising (`Machine.Tbl.wf`), an unlisted key holds what the table's reader says. -/
abbrev Tbl (V : Type) := List (Nat × V)

end Sys2Proof
end

