-- ==== Sys2Proof/Syntax.lean ====
section
/-! DEFINITION. The commands: one constructor for each row of spec/opcode_table.json, with the row's operands.
A measured quantity (a count, a temperature, a time), a choice of the world outside (did a link train, did a signature
burn) and the data of an arriving packet are operands; what the device itself holds is read from the state. -/

namespace Sys2Proof

/-- The two dies (R15). -/
inductive Half where
  | east | west
  deriving DecidableEq, Repr

/-- A master that reaches register pages, commands crews or issues requests (R404): a host function by its number
(0 = the physical function), a partition of the leader's cox, or one of the follower's cox. -/
inductive Master where
  | fn (n : BitVec 8)
  | coxNs
  | coxS
  | coxF (secure : Bool)
  deriving DecidableEq, Repr

/-- A command port (R156, R440): the port of a half's page, written by a master that reaches the page, or the port of
a virtual function's own page. -/
inductive Port where
  | page (h : Half) (m : Master)
  | vf (n : BitVec 8)
  deriving DecidableEq, Repr

/-- Where a register access goes: a BAR0 byte offset (R446), or an offset in the issuing virtual function's page
(R440). -/
inductive RegAddr where
  | bar0 (off : Nat)
  | vf (off : BitVec 12)
  deriving DecidableEq, Repr

/-- A PCI Express configuration request (R443): a read of a 32-bit register, a write of Bus Master Enable, a write of VF Enable with a
number of virtual functions, a write that enables MSI-X with no function mask or does the opposite. -/
inductive CfgReq where
  | read (reg : BitVec 10)
  | busMaster (on : Bool)
  | vfEnable (count : BitVec 8)
  | msixEnable (on : Bool)
  /-- The mask bit of a vector in the function's MSI-X table, which the host writes through BAR2 (R441, R204).
  DESIGN CHOICE, safe: notes/assumptions/10. -/
  | vectorMask (vector : BitVec 11) (on : Bool)
  deriving DecidableEq, Repr

/-- The six dual-rail input pairs of a cell: wires T and F of input n are bits n of `t` and `f` (R46); `req` holds the
bundled requests of bundled-data mode (R55). With PAIR set the same four wires are a 1-of-4 group, W0 = F of 2k, W1 = T of
2k, W2 = F of 2k+1, W3 = T of 2k+1. DESIGN CHOICE, unsafe: notes/assumptions/42. -/
structure Wires where
  t   : BitVec 6
  f   : BitVec 6
  req : BitVec 6
  deriving DecidableEq, Repr

/-- A stage of a room's fabric: a cell, a doorway channel, or the port of a hard block (cupboard ports 0 to 7, oars 8 to
15, memory window 16, hatch port 17). -/
inductive Stage where
  | cell (n : BitVec 11)
  | door (n : BitVec 7)
  | block (n : BitVec 5)
  deriving DecidableEq, Repr

/-- The kind of a stage, as a command names it. -/
inductive StageKind where
  | cell | door | block
  deriving DecidableEq, Repr

/-- A cupboard request token at a port (R64): shape and width follow from the port's configuration. -/
structure CupReq where
  portB : Bool
  write : Bool
  addr  : BitVec 12
  data  : BitVec 36
  lanes : BitVec 4
  deriving DecidableEq, Repr

/-- An oar's operand token without its OP (Table 2.10). -/
structure OarTok where
  a    : BitVec 27
  b    : BitVec 27
  sa   : Bool
  sb   : Bool
  emit : Bool
  deriving DecidableEq, Repr

/-- A Course link flit (Table 7.1). -/
structure Flit where
  seq     : BitVec 10
  ack     : BitVec 10
  cred    : BitVec 8
  typ     : BitVec 4
  payload : List Byte
  crc     : Word
  deriving DecidableEq, Repr

/-- A Course segment: the header fields of Table 7.4 and its words as bytes. -/
structure Segment where
  dst      : BitVec 10
  bcast    : Bool
  src      : BitVec 10
  typ      : BitVec 8
  ringB    : Bool
  world    : Bool
  last     : Bool
  tag      : BitVec 16
  tagHeat  : BitVec 4
  hops     : BitVec 10
  age      : BitVec 16
  crew     : BitVec 16
  crewHeat : BitVec 4
  code     : BitVec 4
  rhatch   : BitVec 16
  len      : BitVec 16
  seg      : BitVec 16
  seglen   : BitVec 8
  crc      : Word
  words    : List Byte
  deriving DecidableEq, Repr

/-- A push or a pop that reaches a hatch in the cycle of a HATCH_PUSH (R201): a HATCH_RETURN of COUNT 1, another room's push, a
HATCH_SEND. -/
inductive SamePush where
  | pop (fn : BitVec 8)
  | room (pos : BitVec 6) (len : BitVec 16) (bytes : List Byte)
  | send (fn : BitVec 8) (len : BitVec 16)
  deriving DecidableEq, Repr

/-- A record of an image's payload (Table 8.7): its header's reserved bytes and BODY_LEN, and its body. -/
structure Rec where
  resv    : BitVec 24
  bodyLen : Nat
  body    : List Byte
  deriving DecidableEq, Repr

/-- Word 0 of a chain packet (Table 8.12) and the stream bytes that follow it. -/
structure ChainPkt where
  pkt    : Word
  nbytes : Nat
  start  : Bool
  taken  : Bool
  eos    : Bool
  bytes  : List Byte
  deriving DecidableEq, Repr

/-- A member of the map of positions (R224): ring ID, position, die serial. -/
structure Member where
  id     : Nat
  pos    : Nat
  serial : Nat
  deriving DecidableEq, Repr

/-- A write that lands at a GPIO register in one SCLK cycle (R427). -/
inductive GpioWrite where
  | hostOut (q : BitVec 2) (v : BitVec 16)
  | hostSet (q : BitVec 2) (v : BitVec 16)
  | hostClr (q : BitVec 2) (v : BitVec 16)
  | hostOe  (q : BitVec 2) (v : BitVec 16)
  | coxOut  (q : BitVec 2) (v : BitVec 16)
  | coxOe   (q : BitVec 2) (v : BitVec 16)
  | sdwData (q : BitVec 2) (mask v : BitVec 16)
  | sdwSet  (q : BitVec 2) (mask : BitVec 16)
  | sdwClr  (q : BitVec 2) (mask : BitVec 16)
  | sdwOe   (q : BitVec 2) (mask v : BitVec 16)
  deriving DecidableEq, Repr

/-- A write to the G2 register file that lands in the SCLK cycle of another access (R308): through G2C.REGn, or to a USER register
by the G2 design. -/
inductive G2Also where
  | reg  (m : Master) (addr : BitVec 6) (v : Byte)
  | user (n : BitVec 4) (v : Byte)
  deriving DecidableEq, Repr

/-- The clock sources of a half that qualify (R328): the six of CLK.SRC_STAT, a porch PLL by its local index, and the
crystal of the Cellar. -/
inductive ClockSrc where
  | irc | refH | refC | pllA | pllB | svc
  | porch (n : BitVec 4)
  | crystal
  deriving DecidableEq, Repr

/-- A block that CLK.GATE gates (Table 10.9). -/
inductive Gated where
  | fmc | bst | scr | att | g2c
  deriving DecidableEq, Repr

/-- A clock multiplexer (R331): a half's hall or service multiplexer, or the tick multiplexer of the Cellar. -/
inductive Mux where
  | hall (h : Half)
  | service (h : Half)
  | tick
  deriving DecidableEq, Repr

/-- The commands. -/
inductive Instr where
  /-- ALWAYS_ON_SUPPLY_VALID (R29). The always-on supply becomes valid in OFF, which starts ALW qualification. -/
  | alwaysOnSupplyValid
  /-- ALW_QUALIFIED (R29). ALW completes its 64-cycle qualification and the device enters CELLAR, resetting every group. -/
  | alwQualified
  /-- ALWAYS_ON_SUPPLY_LOST (R29). Loss of the always-on supply takes the device to OFF from any mode. -/
  | alwaysOnSupplyLost
  /-- PWRGD_RISE (R367). PWRGD rises in CELLAR, resetting every group except Always-on and starting BOOT. -/
  | pwrgdRise
  /-- PWRGD_FALL (R29). PWRGD falls and the device goes to CELLAR from any mode. -/
  | pwrgdFall
  /-- CORE_RAIL_LOW (R464). A VHALL or VFAB monitor falls below its reset threshold and acts on both halves as PWRGD low, closing the Course switches. -/
  | coreRailLow (h : Half) (fab : Bool)
  /-- RST_N_ASSERT (R369). RST_N held low for at least 1 µs puts every group except Always-on into reset and closes the Course switches. -/
  | rstNAssert
  /-- RST_N_RELEASE (R369). RST_N is released and the release-from-reset sequence starts with IRC in each hall. -/
  | rstNRelease
  /-- GALLERY_UP (R369). The Gallery link trains at BOOT. -/
  | galleryUp
  /-- GALLERY_TRAIN_TIMEOUT (R17). The Gallery has not trained within 1 ms at BOOT and both halves enter HALT with GALLERY_TRAIN. -/
  | galleryTrainTimeout
  /-- ROM_SELF_CHECK_DONE (R369). The cox ROM self-check ends, the halls switch to OP4 and the wing groups are released for stack training, or BOOT fails with ROM_CHECK. -/
  | romSelfCheckDone (eastOk westOk : Bool)
  /-- BOOT_STACKS_TRAINED (R369). Every stack has trained at BOOT and the device enters LOAD-LOCAL or TEST as Table 1.6 gives. -/
  | bootStacksTrained (repairs0 repairs1 repairs2 repairs3 : Byte)
  /-- STACK_TRAIN_TIMEOUT (R369). A stack has not trained within 20 ms at BOOT and the device enters HALT with STACK_TRAIN. -/
  | stackTrainTimeout (stack : BitVec 2)
  /-- HALF_HALT_MESSAGE (R34). A half learns over the Gallery that the other half entered HALT and enters HALT with HALF_HALT. -/
  | halfHaltMessage (h : Half)
  /-- ERR_N_WATCH_EXPIRY (R377). A follower sees ERR_N asserted by another driver for 100 µs and enters HALT with HALF_HALT. -/
  | errNWatchExpiry (h : Half)
  /-- THERMAL_SAMPLE (R474). The junction sensors and stack temperatures are sampled every 100 µs against the trip limits. -/
  | thermalSample (readings : List Int)
  /-- THERMAL_COMPARATOR_FIRE (R474). A Cellar comparator at 115 °C fires in STANDBY, wakes the device and takes it to HALT with THERMAL_TRIP. -/
  | thermalComparatorFire (h : Half)
  /-- MODE_TRANSITION_MESSAGE (R30). The follower receives a mode transition from the leader over the Gallery, changes its mode first and acknowledges. -/
  | modeTransitionMessage
  /-- MODE_TRANSITION_ACK (R30). The leader receives the follower's acknowledgement, changes its own SYS.MODE and clears TRANSIT. -/
  | modeTransitionAck
  /-- MODE_REQ_STANDBY (R39). GO with TARGET STANDBY is accepted or refused within 2 µs, and on acceptance STANDBY entry is scheduled 100 µs later. -/
  | modeReqStandby (m : Master) (h : Half)
  /-- MODE_REQ_BOOT (R39). GO with TARGET BOOT is accepted or refused, and on acceptance the device resets every group except Always-on and enters BOOT. -/
  | modeReqBoot (m : Master) (h : Half)
  /-- MODE_REQ_TEST (R39). GO with TARGET TEST is accepted in MFG or RMA from a run mode, ending every crew and starting TEST, or refused. -/
  | modeReqTest (m : Master) (h : Half)
  /-- MODE_REQ_HALT (R39). GO with TARGET HALT is accepted or refused, and on acceptance the device enters HALT with REQUESTED. -/
  | modeReqHalt (m : Master) (h : Half)
  /-- MODE_REQ_INVALID_TARGET (R39). GO with a TARGET other than STANDBY, BOOT, TEST or HALT is refused with BAD_TARGET. -/
  | modeReqInvalidTarget (m : Master) (h : Half) (target : BitVec 4)
  /-- STANDBY_ENTRY_START (R32). 100 µs after acceptance each Steward drains swappable crews, quiesces pinned crews in place and completes hatch transfers. -/
  | standbyEntryStart
  /-- STANDBY_POWER_DOWN (R325). Once the Steward steps end, the stacks enter self-refresh, VFAB and VHALL drop to retention, the PLLs and IRC stop and the mode becomes STANDBY. -/
  | standbyPowerDown
  /-- STANDBY_ENTRY_TIMEOUT (R33). The Steward steps have not ended 10 ms after entry began and the entry is abandoned. -/
  | standbyEntryTimeout
  /-- STANDBY_WAKE (R326). An enabled wake source in STANDBY records WAKE_CAUSE and runs the wake sequence back to the run mode in PREV. -/
  | standbyWake (sources : BitVec 4) (lines : BitVec 16) (pllReady : Bool)
  /-- WAKE_PLL_TIMEOUT (R326). The HCLK PLL is not READY within 1 ms of a wake, so the hall stays on IRC and the device enters its run mode. -/
  | wakePllTimeout
  /-- TEST_COMPLETE (R387). TEST work ends, the summary is written to the Attic and BST.TEST_SUM, and the device enters BOOT. -/
  | testComplete (failedRooms : List (BitVec 12)) (badFrames : List (BitVec 16)) (hallFail stackFail : Bool)
  /-- LEASE_RENEWAL (R373). Every 100 µs the leader sends a lease renewal with its epoch over the Gallery. -/
  | leaseRenewal
  /-- LEASE_ACK (R373). The leader receives the follower's acknowledgement of a renewal and resets the lease age. -/
  | leaseAck
  /-- FOLLOWER_LEASE_LAPSE (R376). The follower sees 300 µs without a renewal, clears LEASE_OK, counts a lapse and enters ORPHAN. -/
  | followerLeaseLapse
  /-- LEADER_LEASE_LAPSE (R376). The leader sees 300 µs without an acknowledgement, clears LEASE_OK, counts a lapse and raises GALLERY_DOWN. -/
  | leaderLeaseLapse
  /-- LEAD_CONFLICT (R375). A half holding LEADER receives a renewal; the lower-serial half yields and both set LEAD_CONFLICT. -/
  | leadConflict (h : Half)
  /-- GALLERY_LINK_FAIL (R376). The Gallery link fails and both ends retrain, staying down after three failed retrains. -/
  | galleryLinkFail (retrained : Bool)
  /-- GALLERY_RETRY (R376). Every 1 ms while down, both Gallery ends try to train the link again. -/
  | galleryRetry (trained : Bool)
  /-- BAR0_NARROW_ACCESS (R10). An 8-bit or 16-bit BAR0 access completes with Unsupported Request and has no effect. -/
  | bar0NarrowAccess (m : Master) (off : Nat) (w : Option (BitVec 16))
  /-- BAR0_OUT_OF_RANGE_ACCESS (R447). A BAR0 access at offset 0x12_0000 or above completes with Unsupported Request. -/
  | bar0OutOfRangeAccess (m : Master) (off : Nat) (w : Option Word)
  /-- UNDEFINED_OFFSET_ACCESS (R447). An access to an undefined offset of a page reads 0, writes nothing and records RSVD_OFFSET. -/
  | undefinedOffsetAccess (m : Master) (off : Nat) (w : Option Word)
  /-- PAGE_WORLD_VIOLATION (R405). A non-secure master accesses a secure page; the access has no effect and the master is frozen. -/
  | pageWorldViolation (m : Master) (off : Nat) (w : Option Word)
  /-- CLOSED_PAGE_ACCESS (R341). An allowed access to a closed block's page reads zeros or is discarded and counts in CLK.GHOST. -/
  | closedPageAccess (m : Master) (off : Nat) (w : Option Word)
  /-- UNREACHABLE_HALF_ACCESS (R22). A host access to a page of the half beyond a down Gallery reads all-ones or is dropped and counts in LOST_ACCESS. -/
  | unreachableHalfAccess (m : Master) (off : Nat) (w : Option Word)
  /-- REGISTER_WRITE (R11). A write to a register with no behaviour of its own stores, sets, clears or ignores each field by its access code, clearing count fields. -/
  | registerWrite (m : Master) (a : RegAddr) (v : Word) (high : Option Word := none)
  /-- BAR4_READ (R441). A host read through BAR4 is translated by HLK.WINn, checked against the regions and served by the owning memory controller. -/
  | bar4Read (fn : BitVec 8) (off : BitVec 40) (len : BitVec 13)
  /-- BAR4_WRITE (R441). A host write through BAR4 is translated, region-checked and written, as a read-modify-write if partial. -/
  | bar4Write (fn : BitVec 8) (off : BitVec 40) (bytes : List Byte)
  /-- CONFIG_REQUEST (R443). A PCI Express configuration request is served, retried or refused according to the mode. -/
  | configRequest (fn : BitVec 8) (r : CfgReq)
  /-- PERST_ASSERT (R444). PERST_N resets the host link, closes every hatch with a HOST end and clears VF Enable. -/
  | perstAssert
  /-- FUNCTION_LEVEL_RESET (R444). A Function Level Reset closes the function's HOST hatches, resets its ports and MSI-X state and writes HLK.FLR_LAST. -/
  | functionLevelReset (fn : BitVec 8)
  /-- HOST_LINK_DL_UP (R244). The host link Data Link Layer comes up, raising LINK_CHANGE and starting the LOAD-HOST deadline where it applies. -/
  | hostLinkDlUp (speed : BitVec 4) (width : BitVec 5)
  /-- HOST_LINK_DL_DOWN (R445). The host link Data Link Layer goes down and LINK_CHANGE is raised. -/
  | hostLinkDlDown
  /-- DOORBELL_RUN (R147). A RUN doorbell is routed by ID, checked by R148 and acts as the RUN command. -/
  | doorbellRun (fn : BitVec 8) (id : BitVec 16) (heat : BitVec 4)
  /-- DOORBELL_HINT (R147). A HINT doorbell is routed by ID, checked by R148 and acts as the HINT command. -/
  | doorbellHint (fn : BitVec 8) (id : BitVec 16) (heat : BitVec 4)
  /-- DOORBELL_PARK (R147). A PARK doorbell is routed by ID, checked by R148 and acts as the PARK command. -/
  | doorbellPark (fn : BitVec 8) (id : BitVec 16) (heat : BitVec 4)
  /-- DOORBELL_INVALID_OP (R148). A doorbell with an undefined OP is dropped and counted in STW.DB_DROP after the earlier checks. -/
  | doorbellInvalidOp (fn : BitVec 8) (id : BitVec 16) (heat : BitVec 4) (op : BitVec 4)
  /-- CREATE (R157). CREATE allocates or refuses an ID, advances its heat and makes the crew PARKED, READY or BOARDING at ANCHOR. -/
  | create (p : Port)
  /-- QUERY (R157). QUERY copies the crew's descriptor into the command window. -/
  | query (p : Port)
  /-- UPDATE (R131). UPDATE changes the permitted descriptor fields of a crew, or refuses with BAD_STATE or BAD_DESC. -/
  | update (p : Port) (image : Bool)
  /-- RUN (R135). RUN makes a PARKED crew READY, sets WAKE_PENDING or turns a DRAINING target PARKED into READY. -/
  | run (p : Port)
  /-- PARK (R134). PARK takes a crew to PARKED, changing a DRAINING target or taking effect at step 7 of a boarding. -/
  | park (p : Port)
  /-- RESUME (R153). RESUME returns a FAULTED crew to PARKED, or a pinned crew to PINNED in place, where its fault code allows. -/
  | resume (p : Port)
  /-- RESTART (R133). RESTART discards saved state so the crew restarts from FIRST_STATE, reconfiguring a pinned crew in place. -/
  | restart (p : Port)
  /-- RECONFIG (R149). RECONFIG reconfigures a PINNED crew in place from PLANES and FIRST_STATE. -/
  | reconfig (p : Port)
  /-- DESTROY (R133). DESTROY takes a crew to EMPTY, releasing its ID and, for a pinned crew, quiescing and forcing its suite. -/
  | destroy (p : Port)
  /-- HINT (R144). HINT preloads a PARKED or READY crew's planes and stages its state in the hint's wing. -/
  | hint (p : Port)
  /-- STW_BAD_OP (R157). A Steward command with OP 0x0 or 0xB to 0xF is refused with BAD_OP. -/
  | stwBadOp (p : Port) (op : BitVec 4)
  /-- SLICE_EXPIRY (R143). A RUNNING crew's slice expires and it is evicted or given a new slice at the decision that follows. -/
  | sliceExpiry (id : BitVec 16)
  /-- CREW_IDLE (R145). A RUNNING crew raises IDLE and is parked or treated as at slice expiry. -/
  | crewIdle (id : BitVec 16)
  /-- AGEING_PERIOD (R138). A READY crew's wait reaches another full AGE period and its effective priority rises by one. -/
  | ageingPeriod (id : BitVec 16)
  /-- SWAP_SAVE (R98). Once every room reports QUIET, the loader copies each room's state image and code-error flag to the crew store. -/
  | swapSave (wing : BitVec 4) (now : Nat) (cycles : Nat)
  /-- SWAP_LOAD (R98). After the save, the loader writes each incoming plane into the shadow slot from memory, the landing cache or a preload. -/
  | swapLoad (wing : BitVec 4) (cycles : Nat)
  /-- SWAP_FLIP (R84). With every shadow slot complete, every room of the suite flips its planes at once. -/
  | swapFlip (wing : BitVec 4)
  /-- SWAP_RESTORE (R98). After the flip, the loader writes each incoming state image and the window loads its RETRY mask. -/
  | swapRestore (wing : BitVec 4) (cycles : Nat)
  /-- SWAP_REOPEN (R98). The Steward sets edge modes, lowers quiesce, updates the room map and writes WNG.SWAP_LAST. -/
  | swapReopen (wing : BitVec 4) (cycles : Nat)
  /-- QUIESCE_LIMIT_EXPIRY (R107). QUIET_LIMIT or QUIET_LIMIT_P expires before every room is QUIET, abandoning the swap or forcing the crew out. -/
  | quiesceLimitExpiry (wing : BitVec 4) (pinned : Bool) (now : Nat) (cycles : Nat)
  /-- FAULT_NOTICE_RELEASE (R155). Credit returns to a fault hatch and the Steward pushes the notice it held. -/
  | faultNoticeRelease (id : BitVec 16)
  /-- HEAT_COPY_UPDATE (R207). A hall receives a heat change from the other Steward and updates its copy of that crew's heat. -/
  | heatCopyUpdate (hall : Half) (id : BitVec 16)
  /-- ID_COOLING_EXPIRY (R152). An ID's 512 µs release time and 8 ms heat window pass and CREATE may allocate it again. -/
  | idCoolingExpiry (id : BitVec 16)
  /-- ROOM_RETIRE (R118). STW.ROOM_RETIRE GO retires, evicts and retires, waits on a swap or refuses the named room. -/
  | roomRetire (m : Master) (h : Half) (room : BitVec 12)
  /-- LC_FLUSH (R122). A write of 1 to LC_FLUSH empties the wing's landing cache after planes in flight finish. -/
  | lcFlush (m : Master) (wing : BitVec 4)
  /-- ILLEGAL_CODE (R47). A cell with CODE_CHK sees an illegal code, withholds its acknowledge and sets the room's code-error flag. -/
  | illegalCode (room : BitVec 12) (cell : BitVec 11) (ins : Wires)
  /-- CUPBOARD_READ (R64). A cupboard port takes a read request token and returns one response token with the data. -/
  | cupboardRead (room : BitVec 12) (cup : BitVec 2) (r : CupReq) (collide : Option CupReq)
  /-- CUPBOARD_WRITE (R64). A cupboard port takes a write request token, writes the enabled lanes and returns a zero response. -/
  | cupboardWrite (room : BitVec 12) (cup : BitVec 2) (r : CupReq) (collide : Option CupReq)
  /-- MUL (R68). The oar sets ACC to the product and clears OVF and OPERR. -/
  | oarMul (room : BitVec 12) (oar : BitVec 3) (t : OarTok)
  /-- MAC (R68). The oar adds the product to ACC modulo 2^64, setting OVF on signed overflow. -/
  | oarMac (room : BitVec 12) (oar : BitVec 3) (t : OarTok)
  /-- MSUB (R68). The oar subtracts the product from ACC modulo 2^64, setting OVF on signed overflow. -/
  | oarMsub (room : BitVec 12) (oar : BitVec 3) (t : OarTok)
  /-- LOAD (R68). The oar loads {A, B} extended into ACC and clears OVF and OPERR. -/
  | oarLoad (room : BitVec 12) (oar : BitVec 3) (t : OarTok)
  /-- CLEAR (R68). The oar sets ACC to 0 and clears OVF and OPERR. -/
  | oarClear (room : BitVec 12) (oar : BitVec 3) (t : OarTok)
  /-- EMIT (R68). The oar leaves ACC unchanged and emits a result token. -/
  | oarEmit (room : BitVec 12) (oar : BitVec 3) (t : OarTok)
  /-- OAR_RESERVED_OP (R68). A reserved oar OP leaves ACC unchanged, sets OPERR and emits only if EMIT = 1. -/
  | oarReservedOp (room : BitVec 12) (oar : BitVec 3) (t : OarTok)
  /-- ROSC_WINDOW_END (R77). A rating-oscillator window ends and the wing writes COUNT, sets VALID and advances SEQ. -/
  | roscWindowEnd (wing : BitVec 4) (band : BitVec 2) (count : BitVec 24)
  /-- ROSC_CTRL_WRITE (R77). A write to WNG.ROSC_CTRL starts or stops windows and clears VALID of disabled oscillators. -/
  | roscCtrlWrite (m : Master) (wing : BitVec 4) (v : Word)
  /-- WINDOW_READ (R177). A crew's memory-window read is translated, walked on a miss, and issued to the owning controller. -/
  | windowRead (id : BitVec 16) (pos : BitVec 6) (tag : BitVec 4) (va : BitVec 40) (len : BitVec 8)
  /-- WINDOW_WRITE (R177). A crew's memory-window write is translated and posted in issue order. -/
  | windowWrite (id : BitVec 16) (pos : BitVec 6) (va : BitVec 40) (bytes : List Byte)
  /-- MEMORY_COMPLETION (R178). A memory-window completion is delivered to its crew or, if the heat has changed, dropped and counted in STALE.MEM. -/
  | memoryCompletion (id : BitVec 16) (heat : BitVec 4) (tag : Option (BitVec 10))
  /-- PATROL_READ (R167). The patrol scrub reads the next codeword and writes back a corrected one. -/
  | patrolRead (stack : BitVec 2)
  /-- ZEROING_FRAME_DONE (R183). The zeroing engine finishes a frame and adds it to a world's zeroed pool. -/
  | zeroingFrameDone (h : Half)
  /-- RECLAIM_WALK (R184). After DESTROY the allocator walks the crew's tables and returns each ALLOC frame to its free list. -/
  | reclaimWalk (h : Half)
  /-- FRAME_TAKE (R187). FRAME_TAKE grants a zeroed frame of the world from the chosen stack, or refuses. -/
  | frameTake (p : Port)
  /-- FRAME_GIVE (R187). FRAME_GIVE returns a frame to the free list, or refuses with BAD_ARG or NOT_TAKEN. -/
  | frameGive (p : Port)
  /-- GRAN_TAKE (R174). GRAN_TAKE takes a contiguous run of crew-store granules. -/
  | granTake (p : Port)
  /-- GRAN_GIVE (R174). GRAN_GIVE frees a run of granules, or refuses with NOT_TAKEN. -/
  | granGive (p : Port)
  /-- INVAL_CREW (R181). INVAL_CREW removes the crew's cached translations in every wing of the half. -/
  | invalCrew (p : Port)
  /-- INVAL_PAGE (R181). INVAL_PAGE removes one page's cached translation of the crew. -/
  | invalPage (p : Port)
  /-- INVAL_ALL (R181). INVAL_ALL removes every cached translation of the half. -/
  | invalAll (p : Port)
  /-- INVAL_COMPLETE (R181). Every walk and access through removed entries has finished and the INVAL command completes. -/
  | invalComplete (p : Port)
  /-- PGT_BAD_OP (R187). A PGT command with OP 0x0 or 0x8 to 0xF is refused with BAD_OP. -/
  | pgtBadOp (p : Port) (op : BitVec 4)
  /-- HATCH_PUSH (R198). A crew push is admitted in one cycle, reserving a slot and credit, or refused with a code. -/
  | hatchPush (id : BitVec 16) (pos : BitVec 6) (hatch : BitVec 16) (len : BitVec 16) (bytes : List Byte) (also : List SamePush := [])
  /-- HATCH_SEND (R209). A host HATCH_SEND presents a packet already written through BAR4 for admission. -/
  | hatchSend (fn : BitVec 8) (hatch : BitVec 16) (len : BitVec 16)
  /-- NOTICE_POST (R200). The cycle after a packet's last word, the hall posts its notice, poppable once earlier packets have posted. -/
  | noticePost (hatch : BitVec 16) (number : Word)
  /-- HATCH_DELIVERY (R203). The hatch port delivers the head packet word by word, popping it when the last word is acknowledged. -/
  | hatchDelivery (hatch : BitVec 16) (words : BitVec 17)
  /-- HOST_COPY (R204). The hall copies a packet to the host area, writes its notice and sends MSI-X. -/
  | hostCopy (hatch : BitVec 16)
  /-- HATCH_RETURN (R209). HATCH_RETURN performs COUNT pops, each beyond READY returning UNDERFLOW. -/
  | hatchReturn (fn : BitVec 8) (hatch : BitVec 16) (count : BitVec 16)
  /-- RING_HANDOFF (R230). A packet of a RING-consumer hatch enters the egress store when there is room, gets a tag and is emitted. -/
  | ringHandoff (hatch : BitVec 16)
  /-- HATCH_OPEN (R210). OPEN checks the descriptor and ends, opens the hatch and zeroes its notice rings. -/
  | hatchOpen (p : Port)
  /-- HATCH_QUERY (R210). QUERY copies the hatch descriptor into the window. -/
  | hatchQuery (p : Port)
  /-- HATCH_CLOSE (R210). CLOSE refuses further pushes and waits for admitted and in-flight transfers to finish. -/
  | hatchClose (p : Port)
  /-- HATCH_CLOSE_COMPLETE (R210). In-flight transfers of a closing hatch finish, every held packet is discarded and CLOSE completes. -/
  | hatchCloseComplete (hatch : BitVec 16)
  /-- HAT_BAD_OP (R210). A HAT command with OP 0x0 or 0x4 to 0xF is refused with BAD_OP. -/
  | hatBadOp (p : Port) (op : BitVec 4)
  /-- LINK_FLIT (R217). A Course flit is received, CRC and SEQ checked, and accepted or answered with NAK. -/
  | linkFlit (westPort : Bool) (f : Flit)
  /-- LINK_NAK (R217). A NAK is received and the sender replays from the flit after ACK. -/
  | linkNak (westPort : Bool) (ack : BitVec 10)
  /-- LINK_RETRAIN (R219). Eight NAKs for one SEQ or loss of lane lock retrains the Course link. -/
  | linkRetrain (westPort : Bool)
  /-- LINK_TRAIN_RETRY (R219). After three failed retrains within 1 s the port attempts training once every 1 ms. -/
  | linkTrainRetry (westPort : Bool)
  /-- COURSE_LINK_TRAINED (R219). A Course link trains and comes up, resuming replay or broadcasting HEAL if it was DOWN. -/
  | courseLinkTrained (westPort : Bool) (lanes : BitVec 2) (serial : Nat)
  /-- LINK_DOWN (R241). A link not up for BREAK_HOLD becomes DOWN and the members on each side broadcast BREAK. -/
  | linkDown (westPort : Bool)
  /-- BREAK (R241). A member receives BREAK and records the DOWN link for ring choice. -/
  | breakLink (pos : BitVec 10)
  /-- HEAL (R241). A member receives HEAL and removes the link from its DOWN set. -/
  | heal (pos : BitVec 10)
  /-- SEGMENT_FORWARD (R229). A member forwards a segment, adding HOPS and AGE and dropping aged or undeliverable segments. -/
  | segmentForward (s : Segment) (residence : BitVec 16)
  /-- SEGMENT_ARRIVAL (R233). A segment for this device is reassembled in the ingress store, reserving space or answering BUSY. -/
  | segmentArrival (s : Segment)
  /-- COURSE_REPRESENT (R234). A message waiting after a transient refusal is presented again at a pop or after 1 µs. -/
  | courseRepresent (src : BitVec 10) (tag : BitVec 16)
  /-- INGRESS_AGE_EXPIRY (R233). A message at the destination reaches age 8,000, is freed and may be refused EXPIRED. -/
  | ingressAgeExpiry (src : BitVec 10) (tag : BitVec 16)
  /-- ACCEPT (R230). The source receives ACCEPT and releases the message and its tag. -/
  | accept (s : Segment)
  /-- REFUSE (R230). The source receives REFUSE, writes REFUSE0 and REFUSE1 and discards the message. -/
  | refuse (s : Segment)
  /-- BUSY (R233). The source receives BUSY and schedules the message to be emitted again after RETRY_GAP. -/
  | busy (s : Segment)
  /-- BUSY_RESEND (R233). RETRY_GAP expires and the source emits the message again with its original age and tag. -/
  | busyResend (tag : BitVec 16)
  /-- MESSAGE_EXPIRY (R230). A held message reaches 512 µs without a reply and is recorded EXPIRED and discarded. -/
  | messageExpiry (tag : BitVec 16)
  /-- ENUM (R224). A device receives the ENUM token, takes the counter as its ID and position, and forwards it. -/
  | enum (counter : BitVec 11) (serial : Nat) (dist : BitVec 10) (ringB : Bool) (taken : List Nat := [])
  /-- MAP (R226). A device receives a MAP beacon and updates its map of positions, becoming MEMBER. -/
  | mapBeaconIn (members : List Member)
  /-- MAP_WAIT_EXPIRY (R223). A bow in RELAY sees no MAP beacon within 200 µs and enumerates the ring. -/
  | mapWaitExpiry
  /-- ENUM_TIMEOUT (R224). No ENUM token returns within 10 ms; the bow records ENUM_FAILED and clears IDs. -/
  | enumTimeout
  /-- ENUM_RETRY (R224). 100 ms after a failed enumeration the bow tries again. -/
  | enumRetry
  /-- MAP_BEACON (R226). Every 100 µs the acting bow broadcasts a MAP beacon on both rings. -/
  | mapBeacon
  /-- JOIN (R238). The acting bow receives JOIN, gives an ID and broadcasts the new map. -/
  | join (serial : Nat) (pos : BitVec 10)
  /-- LEAVE (R240). The acting bow receives LEAVE, removes the member from the map and holds its ID. -/
  | leave (id : BitVec 10)
  /-- REQ_LEAVE (R239). CRS.REQ OP LEAVE broadcasts LEAVE, stops new traffic and waits for the egress store to drain. -/
  | reqLeave (m : Master)
  /-- REQ_JOIN (R239). CRS.REQ OP JOIN after a leave reopens the switches and runs the join steps. -/
  | reqJoin (m : Master)
  /-- LEAVE_DRAIN_END (R239). The egress store empties or 512 µs pass, the device forwards its flits, closes the switches and reports DONE. -/
  | leaveDrainEnd
  /-- RING_ID_HOLD_EXPIRY (R227). A released ring ID's hold ends and the bow may give it again. -/
  | ringIdHoldExpiry (id : BitVec 10) (bar : Bool := false)
  /-- IMAGE_HEADER (R254). The loader checks an image header in order, taking, skipping or failing on it. -/
  | imageHeader (bytes : List Byte)
  /-- FRAME_RECORD (R260). A FRAME record writes its frame data at a checked address in slot P0. -/
  | frameRecord (r : Rec)
  /-- REPEAT_RECORD (R258). A REPEAT record writes one frame's data to each listed address in order. -/
  | repeatRecord (r : Rec)
  /-- ZERO_RECORD (R259). A ZERO record writes zeros over a frame range in a room range, skipping invalid and RETIRED rooms. -/
  | zeroRecord (r : Rec)
  /-- ESSENTIAL_RECORD (R264). An ESSENTIAL record writes a crew position's essential-bit map. -/
  | essentialRecord (r : Rec)
  /-- CREW_RECORD (R261). A CREW record creates a crew as issuer 0x1FF, takes its granules and writes its image data. -/
  | crewRecord (r : Rec)
  /-- HALL_RECORD (R265). A HALL record's register writes are checked at record time and kept for END. -/
  | hallRecord (r : Rec)
  /-- END_RECORD (R266). END checks CRC, count and claims, copies ADOPT images, boards pinned crews, applies HALL writes and enters STARTUP. -/
  | endRecord (r : Rec)
  /-- GCM_SEGMENT (R269). An encrypted segment's tag is checked and its records act, or the load fails with BAD_CHECK. -/
  | gcmSegment (cipher tag : List Byte)
  /-- LOAD_DEADLINE_EXPIRY (R245). The load deadline expires before END and the load fails with TRUNCATED. -/
  | loadDeadlineExpiry
  /-- LOAD_CLEANUP_DONE (R273). The failed load's rooms, crews and granules are cleared and the next source starts with a new deadline. -/
  | loadCleanupDone
  /-- CHAIN_PACKET (R277). A chain packet arrives at hatch 0x8FFF and is taken, forwarded or dropped as duplicate. -/
  | chainPacket (p : ChainPkt)
  /-- CHAIN_RESEND (R276). After a refusal or expiry the sender sends the same chain packet again after RETRY_GAP. -/
  | chainResend
  /-- CHAIN_STALL_EXPIRY (R279). The chain stream stalls for CHAIN_DS × 100 ms and deferred failures act. -/
  | chainStallExpiry
  /-- DMA_CHUNK (R281). CFG.DMA_CTRL GO starts reading a host chunk, or is refused with a REASON. -/
  | dmaChunk (m : Master)
  /-- DMA_CHUNK_DONE (R281). A chunk read ends, setting DONE and DMA_DONE, or failing the load with HOST_READ. -/
  | dmaChunkDone (ok : Bool) (bytes : List Byte)
  /-- CFG_DEADLINE_WRITE (R280). A write to CFG.DEADLINE sets the LOAD-HOST deadline until the first GO. -/
  | cfgDeadlineWrite (m : Master) (ms : BitVec 16)
  /-- ATT_BOOT_WRITE (R247). A write to ATT.BOOT updates the Attic boot record within 50 µs, acting from the next BOOT. -/
  | attBootWrite (m : Master) (v : Word)
  /-- ATTIC_PROG (R249). ATT.PROG GO starts copying units from memory to the Attic, or is refused. -/
  | atticProg (m : Master)
  /-- ATTIC_PROG_DONE (R249). An Attic copy ends with its code and sets PROG_DONE. -/
  | atticProgDone (written : BitVec 16) (verified : Bool)
  /-- REC_CLEAR_ROOMS (R121). ATT.REC_CLEAR with WHICH 0b01 erases the record of rooms retired in service. -/
  | recClearRooms (m : Master)
  /-- REC_CLEAR_FRAMES (R121). ATT.REC_CLEAR with WHICH 0b10 erases the record of retired frames. -/
  | recClearFrames (m : Master)
  /-- REC_CLEAR_BOTH (R121). ATT.REC_CLEAR with WHICH 0b11 erases both records. -/
  | recClearBoth (m : Master)
  /-- REC_CLEAR_DONE (R121). An accepted clear's Attic erase ends DONE or REFUSED with ATTIC_ERR and sets REC_DONE. -/
  | recClearDone (ok : Bool)
  /-- LOCK_STEP (R282). The LOCK start-up step waits until every PLL and oscillator the HALL writes started reports READY. -/
  | lockStep
  /-- LOCK_TIMEOUT (R284). LOCK reaches its 1 ms limit and the device enters HALT with STARTUP_FAILED. -/
  | lockTimeout
  /-- IO_STEP (R283). User I/O and porches leave high impedance and service pins take their functions. -/
  | ioStep
  /-- GSR_STEP (R70). Every hold element of every configured room takes its Hn_INIT state and tokens may move. -/
  | gsrStep
  /-- WE_STEP (R66). Cupboards begin to acknowledge writes. -/
  | weStep
  /-- RUN_MODE_ENTRY (R285). The last start-up step ends and the device enters RUN-G2 or RUN-NATIVE. -/
  | runModeEntry
  /-- PROG_N_LOW (R297). PROG_N low takes the G2 configuration to CLEARING, aborting a load in progress. -/
  | progNLow
  /-- G2_PROG (R297). A write of 1 to G2C.CTRL.PROG acts as a PROG_N pulse. -/
  | g2Prog (m : Master)
  /-- G2_CLEAR_DONE (R297). With PROG_N high and the G2 store cleared, the state becomes WAIT, or RECEIVING from the Attic. -/
  | g2ClearDone
  /-- G2_SYNC (R297). SYNC is recognised on DIN in WAIT and the state becomes RECEIVING. -/
  | g2Sync
  /-- G2_STREAM_HEADER (R296). The G2 stream header is checked for DEV_ID, FMT, NFRAMES and reserved bytes. -/
  | g2StreamHeader (devId fmt : Byte) (nframes : BitVec 16) (resv : Word)
  /-- G2_FRAME (R295). A G2 frame is checked and translated into its tile's plane and state image. -/
  | g2Frame (faddr : BitVec 16) (data : List Byte)
  /-- G2_CRC (R300). The G2 CRC passes on its last bit, DOUT starts following DIN and the state becomes STARTING. -/
  | g2Crc (crc : BitVec 16)
  /-- G2_START_DONE (R302). The G2 start writes planes, flips, restores state, drives porches, releases the design and reaches CONFIGURED. -/
  | g2StartDone
  /-- G2_CALIBRATION (R305). Every 10 ms, or before a G2 start, the engine counts the band 0 oscillator against REFCLK_H. -/
  | g2Calibration
  /-- G2_CALIBRATION_DONE (R305). Calibration sets the delay scaler, or reports OUT_OF_RANGE, and writes G2C.CAL. -/
  | g2CalibrationDone (count : Nat)
  /-- G2_HOST_READ (R307). A G2 host-port read samples twice, drives D and pulls STB low. -/
  | g2HostRead (addr : BitVec 6) (also : List G2Also := [])
  /-- G2_HOST_WRITE (R307). A G2 host-port write samples twice, stores the register and pulls STB low. -/
  | g2HostWrite (addr : BitVec 6) (v : Byte) (also : List G2Also := [])
  /-- G2C_REG_WRITE (R308). A BAR0 write to G2C.REGn passes the register-file arbiter after any host-port access. -/
  | g2cRegWrite (m : Master) (addr : BitVec 6) (v : Byte) (also : List G2Also := [])
  /-- G2_USER_WRITE (R308). The G2 design writes a USER register, going last in the arbiter. -/
  | g2UserWrite (n : BitVec 4) (v : Byte)
  /-- G2_SLEEP (R310). PWR.MODE SLEEP gates the FAB group by holding every bundled request low. -/
  | g2Sleep (m : Option Master)
  /-- G2_DEEP_SLEEP (R310). PWR.MODE DEEP_SLEEP gates the FAB and USR groups. -/
  | g2DeepSleep (m : Option Master)
  /-- G2_RUN (R310). PWR.MODE RUN ungates the G2 groups. -/
  | g2Run (m : Option Master)
  /-- G2_TIMER_EXPIRY (R312). The G2 wake timer reaches zero, sets INT_STAT and with WAKE_EN[0] sets PWR.MODE to RUN. -/
  | g2TimerExpiry
  /-- CEL_TIMER_EXPIRY (R324). CEL.TIMER reaches 0 and wakes the device in STANDBY or sets TIMER. -/
  | celTimerExpiry
  /-- CEL_TIMER_WRITE (R324). A write to CEL.TIMER loads a new count or stops the timer. -/
  | celTimerWrite (m : Master) (v : Word)
  /-- TICK_SWITCH (R331). A write to CEL.CTRL.TICK requests a tick multiplexer switch, refused unless the target is READY. -/
  | tickSwitch (m : Master) (crystal : Bool)
  /-- XTAL_START (R328). A write of XTAL_EN = 1 starts the crystal oscillator and its qualification. -/
  | xtalStart (m : Master)
  /-- SOURCE_READY (R329). A clock source completes its qualification count and its READY flag becomes 1. -/
  | sourceReady (h : Half) (c : ClockSrc)
  /-- HALL_MUX_SWITCH (R331). CLK.SW GO with MUX hall switches HCLK to PLL A, PLL B or IRC, or refuses. -/
  | hallMuxSwitch (m : Master) (h : Half) (target : BitVec 2)
  /-- SERVICE_MUX_SWITCH (R331). CLK.SW GO with MUX service switches SCLK to the service PLL or IRC ÷ 4, or refuses. -/
  | serviceMuxSwitch (m : Master) (h : Half) (target : BitVec 2)
  /-- SWITCH_ESCAPE (R331). The old source gives no edge for 64 ALW cycles and the switch completes by the escape path. -/
  | switchEscape (x : Mux)
  /-- MONITOR_WINDOW (R334). A clock-monitor window ends and each source's count is compared with its expected count. -/
  | monitorWindow (h : Half) (counts : List (ClockSrc × Nat))
  /-- GATE_CLOSE (R340). A write of close to a CLK.GATE field starts the engine stage of the close. -/
  | gateClose (m : Master) (h : Half) (b : Gated)
  /-- GATE_ENGINE_DONE (R340). The block's engine operation ends and the bus-port stage begins. -/
  | gateEngineDone (h : Half) (b : Gated)
  /-- GATE_PORT_IDLE (R340). The block's bus port completes its access in flight and the gate closes. -/
  | gatePortIdle (h : Half) (b : Gated)
  /-- GATE_FORCED (R340). The port is not idle 256 HCLK cycles into the bus-port stage and the gate closes anyway, recording GATE_FORCED. -/
  | gateForced (h : Half) (b : Gated) (off : BitVec 12)
  /-- GATE_OPEN (R342). A write of open reopens a closed block or cancels a close in progress. -/
  | gateOpen (m : Master) (h : Half) (b : Gated)
  /-- OP_CHANGE (R345). PWR.OP_REQ GO starts an operating-point change through the idle HCLK PLL, or is refused. -/
  | opChange (m : Master) (h : Half) (target : BitVec 3)
  /-- OP_PLL_TIMEOUT (R345). The PLL is not READY within 1 ms and the change ends REFUSED with PLL_TIMEOUT. -/
  | opPllTimeout (h : Half)
  /-- OP_VOLTAGE_SETTLED (R347). The voltage slew and settle time elapses and the change proceeds to its next step. -/
  | opVoltageSettled (h : Half)
  /-- AVS_TRANSACTION (R346). An AVSBus transaction completes with CRC checked, repeated up to three times or counted as an error. -/
  | avsTransaction (h : Half) (crcOk : List Bool)
  /-- VFAB_TARGET_WRITE (R349). A write to PWR.VFAB.TARGET_MV is clamped and moves VFAB by AVSBus. -/
  | vfabTargetWrite (m : Master) (h : Half) (mv : BitVec 16)
  /-- VFAB_STEP (R349). With bundled-data rooms active, the next 12.5 mV VFAB step is taken when the 10 ms window allows. -/
  | vfabStep (h : Half)
  /-- GOVERNOR_SAMPLE (R350). Every 100 µs the governor reads rail currents and updates POWER_W and the over-cap state. -/
  | governorSample (h : Half) (halfWatts : BitVec 11) (hottest : Int)
  /-- GOVERNOR_ACTION (R351). Every 1 ms while over cap the governor takes the next available action, or sets AT_FLOOR. -/
  | governorAction (h : Half)
  /-- GOVERNOR_UNDO (R351). After 10 ms below CAP_W − HYST_W the governor undoes its last action. -/
  | governorUndo (h : Half)
  /-- FMC_MEASURE (R356). FMC.CTRL GO starts a measurement, setting BUSY and advancing SEQ. -/
  | fmcMeasure (m : Master) (h : Half)
  /-- FMC_MEASUREMENT_END (R356). After 2^REF_LOG reference cycles the FMC writes COUNT and STAT and sets VALID and DONE. -/
  | fmcMeasurementEnd (h : Half) (edges : Nat)
  /-- FMC_REF_LOST (R356). The reference gives no edge for 64 ALW cycles and the measurement ends with REF_LOST. -/
  | fmcRefLost (h : Half) (edges : Nat)
  /-- PULSE_ARRIVAL (R364). A pulse reaches a pulse crossing and starts a handshake, counts in PENDING or sets LOST. -/
  | pulseArrival (h : Half) (kind : BitVec 4) (index : Byte)
  /-- PULSE_HANDSHAKE_COMPLETE (R363). A toggle handshake completes, delivering one pulse, and a pending pulse may start the next. -/
  | pulseHandshakeComplete (h : Half) (kind : BitVec 4) (index : Byte)
  /-- CROSSING_SIDE_RESET (R370). One side of a class U crossing resets, dropping words and pulses in flight and setting NOT_READY. -/
  | crossingSideReset (h : Half) (kind : BitVec 4) (index : Byte) (inFlight : BitVec 4)
  /-- CROSSING_RESYNC (R370). Both sides are out of reset, exchange pointers, clear NOT_READY and resume transfers. -/
  | crossingResync (h : Half) (kind : BitVec 4) (index : Byte)
  /-- SOFT_RESET (R368). PG_CTRL[1] resets the page's block within the limits of R368. -/
  | softReset (m : Master) (page : BitVec 9)
  /-- SLICE_START (R380). The self-test engine takes a room, marks it LENT and runs the slice steps. -/
  | sliceStart (h : Half)
  /-- SLICE_REPORT (R382). A slice ends, writes RESULT0 and RESULT1 and returns the room to FREE or retires it. -/
  | sliceReport (room : BitVec 12) (failed : BitVec 4) (duration : BitVec 32)
  /-- BST_REQ (R386). BST.REQ GO queues a slice on a named room, evicting a swappable crew with EVICT, or refuses. -/
  | bstReq (m : Master) (h : Half) (arg : BitVec 16)
  /-- SCRUB_PASS_START (R390). A scrub pass begins, paced to end PASS_MS later or at once after an overrun. -/
  | scrubPassStart (h : Half) (lastMs : BitVec 16)
  /-- SCRUB_FRAME (R391). The scrubber reads an active-slot frame, compares its CRC and repairs it from the image or logs it. -/
  | scrubFrame (room : BitVec 12) (frame : Byte) (upsets : List (BitVec 9 × Byte))
  /-- COX_RESTART (R397). SYS.COX_UPD GO with UPDATE = 0 restarts the half's cox on its present firmware. -/
  | coxRestart (m : Master) (h : Half) (arg : BitVec 16)
  /-- COX_FIRMWARE_UPDATE (R397). SYS.COX_UPD GO with UPDATE = 1 checks the signed image and restarts the cox on it. -/
  | coxFirmwareUpdate (m : Master) (h : Half) (arg : BitVec 16)
  /-- COX_RESTART_DONE (R397). The cox restart sequence ends, persisting or handing back as selected, and reports DONE. -/
  | coxRestartDone (h : Half)
  /-- MEM_RETRAIN (R398). MEM.RETRAIN GO without MIGRATE takes the stack out of service for training. -/
  | memRetrain (m : Master) (stack : BitVec 2)
  /-- MEM_RETRAIN_MIGRATE (R398). MEM.RETRAIN GO with MIGRATE moves granted pages to other stacks before training. -/
  | memRetrainMigrate (m : Master) (stack : BitVec 2)
  /-- STACK_RETRAIN_DONE (R398). Training ends, the stack returns to service with old values restored on failure, and waiting accesses complete. -/
  | stackRetrainDone (stack : BitVec 2) (trained : Bool) (repairs : Byte)
  /-- COURSE_LANE_RETRAIN (R399). CRS.LANE GO retrains a Course port on the chosen lanes. -/
  | courseLaneRetrain (m : Master) (arg : BitVec 16)
  /-- HOST_LINK_RECOVERY (R400). HLK.REEQ with EQ = 0 directs the host link into Recovery and back to L0. -/
  | hostLinkRecovery (m : Master)
  /-- HOST_LINK_REEQ (R400). HLK.REEQ with EQ = 1 sets the Link Equalization Request bit for the host to redo equalisation. -/
  | hostLinkReeq (m : Master)
  /-- REEQ_TIMEOUT (R400). The link has not returned to L0 at 32.0 GT/s within 100 ms, so the bit is cleared and the operation fails. -/
  | reeqTimeout
  /-- UNFREEZE (R409). SEC.UNFREEZE GO releases a frozen master, or refuses with BAD_ARG, NOT_FROZEN or ORPHANED. -/
  | unfreeze (m : Master) (kind : BitVec 3) (id : BitVec 16)
  /-- LCS_REQ_PROD (R412). LCS.REQ with TARGET PROD burns the fuses for DEV to PROD from the next BOOT. -/
  | lcsReqProd (m : Master)
  /-- LCS_REQ_RMA (R413). LCS.REQ with TARGET RMA checks the certificate, zeroises keys and burns the RMA fuses. -/
  | lcsReqRma (m : Master)
  /-- LCS_REQ_END (R412). LCS.REQ with TARGET END zeroises keys and burns the END fuses. -/
  | lcsReqEnd (m : Master)
  /-- LCS_REQ_INVALID (R412). LCS.REQ with a target Table 13.7 does not allow, or while one is pending, is refused. -/
  | lcsReqInvalid (m : Master) (target : BitVec 4)
  /-- LCS_REQ_DONE (R412). A life-cycle request's fuse burn ends, setting PENDING and REQ_DONE or FAILED. -/
  | lcsReqDone (burnt : Bool)
  /-- FUSE_ENC_REQUIRED (R414). A W1S of LCS.FUSE.ENC_REQUIRED burns that fuse in DEV or PROD. -/
  | fuseEncRequired (m : Master)
  /-- FUSE_FALLBACK_EN (R414). A W1S of LCS.FUSE.FALLBACK_EN burns that fuse in DEV. -/
  | fuseFallbackEn (m : Master)
  /-- KEY_PROGRAM (R415). SEC.KEY_CTRL OP PROGRAM stores the key from KEY_DATA in a slot, clearing KEY_DATA. -/
  | keyProgram (m : Master) (vbat : Bool) (index : BitVec 2) (vbatGood : Bool)
  /-- KEY_ZEROISE (R416). SEC.KEY_CTRL OP ZEROISE makes a slot permanently or VBAT-wise unusable. -/
  | keyZeroise (m : Master) (vbat : Bool) (index : BitVec 2)
  /-- KEY_CHECK (R418). SEC.KEY_CTRL OP CHECK computes a VALID slot's key check value into KEY_STAT. -/
  | keyCheck (m : Master) (vbat : Bool) (index : BitVec 2)
  /-- KEY_OP_DONE (R415). An eFuse PROGRAM or ZEROISE ends, verifying the burnt key, and sets KEY_DONE. -/
  | keyOpDone (burnt : BitVec 256)
  /-- VBAT_LOSS (R417). VBAT falls below 1.8 V and every VBAT slot that held a key reads LOST. -/
  | vbatLoss
  /-- TAP_BYPASS (R419). The TAP executes BYPASS. -/
  | tapBypass
  /-- TAP_IDCODE (R419). The TAP shifts out IDCODE 0x1C63_00A7. -/
  | tapIdcode
  /-- TAP_SAMPLE_PRELOAD (R419). The TAP executes SAMPLE/PRELOAD on the boundary register. -/
  | tapSamplePreload (bsr : List Bool)
  /-- TAP_EXTEST (R420). EXTEST drives pins from the boundary register where allowed, else acts as BYPASS and sets BSCAN_BLOCKED. -/
  | tapExtest
  /-- TAP_CLAMP (R420). CLAMP holds pins from the boundary register where allowed, else acts as BYPASS. -/
  | tapClamp
  /-- TAP_HIGHZ (R420). HIGHZ puts pins at high impedance where allowed, else acts as BYPASS. -/
  | tapHighz
  /-- PIN_FUNCTION_SWITCH (R425). A change of a pin's PMX.FUNCm field starts a break-before-make window with its driver disabled. -/
  | pinFunctionSwitch (m : Master) (pin : BitVec 6) (f : BitVec 4)
  /-- FUNCTION_SWITCH_WINDOW_END (R425). The third SCLK cycle of the window gives the pin to the new function and unmasks its interrupt line. -/
  | functionSwitchWindowEnd (pin : BitVec 6)
  /-- PIN_OUT_WRITE (R427). A host write to PIN.OUTq asks to set and clear all 16 bits in its landing cycle. -/
  | pinOutWrite (m : Master) (h : Half) (q : BitVec 2) (v : BitVec 16) (also : List GpioWrite)
  /-- PIN_SET_WRITE (R427). A host write to PIN.SETq sets the written bits of OUTq. -/
  | pinSetWrite (m : Master) (h : Half) (q : BitVec 2) (v : BitVec 16) (also : List GpioWrite)
  /-- PIN_CLR_WRITE (R427). A host write to PIN.CLRq clears the written bits of OUTq. -/
  | pinClrWrite (m : Master) (h : Half) (q : BitVec 2) (v : BitVec 16) (also : List GpioWrite)
  /-- PIN_OE_WRITE (R427). A host write to PIN.OEq sets and clears the GPIO output enables. -/
  | pinOeWrite (m : Master) (h : Half) (q : BitVec 2) (v : BitVec 16) (also : List GpioWrite)
  /-- COX_GPIO_WRITE (R427). A cox plain-data write to a GPIO register takes precedence in its SCLK cycle. -/
  | coxGpioWrite (oe : Bool) (q : BitVec 2) (v : BitVec 16) (also : List GpioWrite)
  /-- SDW_DATA (R428). A service-doorway DATA command writes the masked bits of PIN.OUTq from VALUE. -/
  | sdwData (h : Half) (q : BitVec 2) (mask v : BitVec 16) (also : List GpioWrite)
  /-- SDW_SET (R428). A service-doorway SET command sets the masked bits of PIN.OUTq. -/
  | sdwSet (h : Half) (q : BitVec 2) (mask : BitVec 16) (also : List GpioWrite)
  /-- SDW_CLR (R428). A service-doorway CLR command clears the masked bits of PIN.OUTq. -/
  | sdwClr (h : Half) (q : BitVec 2) (mask : BitVec 16) (also : List GpioWrite)
  /-- SDW_OE (R428). A service-doorway OE command writes the masked bits of PIN.OEq from VALUE. -/
  | sdwOe (h : Half) (q : BitVec 2) (mask v : BitVec 16) (also : List GpioWrite)
  /-- PIN_INPUT_CHANGE (R429). A service pin's sampled level changes and feeds its interrupt lines and doorway snapshots. -/
  | pinInputChange (pin : BitVec 6) (level : Bool)
  /-- PORCH_TOKEN_BOUNDARY (R432). At each porch token boundary outbound tokens are taken and inbound tokens presented, counting underruns and overruns. -/
  | porchTokenBoundary (h : Half) (j : BitVec 4) (seen : BitVec 16) (ins : List Byte) (acked : BitVec 16)
  /-- SMBUS_BLOCK_READ (R436). The Cellar answers an SMBus Block Read of a supported command code with four bytes. -/
  | smbusBlockRead (code : Byte) (addr : BitVec 7 := 0x5A) (pec : Bool := false)
  /-- PAGE_FREEZE (R450). A write to PG_CTRL.FREEZE holds or releases the page's counts and result words. -/
  | pageFreeze (m : Master) (page : BitVec 9) (on : Bool)
  /-- IRQ_FORCE (R451). A write to PG_IRQ_FORCE sets RAW bits as the events would, outside PROD and END. -/
  | irqForce (m : Master) (page : BitVec 9) (v : Word)
  /-- IRQ_ENABLE_WRITE (R451). A write to PG_IRQ_EN that sets a bit whose RAW bit is 1 sends the message once. -/
  | irqEnableWrite (m : Master) (page : BitVec 9) (v : Word)
  /-- PG_IRQ_RAW_CLEAR (R451). A W1C of PG_IRQ_RAW clears events, and an active level-mode line pulses again. -/
  | pgIrqRawClear (m : Master) (page : BitVec 9) (v : Word)
  /-- PG_ERR_CLEAR (R452). Writing 1 to PG_ERR.VALID clears the record and any LOST bits of the page's crossings. -/
  | pgErrClear (m : Master) (page : BitVec 9)
  /-- PG_WORLD_WRITE (R403). A secure write to PG_WORLD.WORLD sets the page's world while unlocked. -/
  | pgWorldWrite (m : Master) (page : BitVec 9) (secure : Bool)
  /-- PG_WORLD_LOCK (R12). A secure W1S of PG_WORLD.LOCK locks the page's RWL fields and world. -/
  | pgWorldLock (m : Master) (page : BitVec 9)
  /-- MB_SEND (R457). SYS.MB_CTRL SEND passes a message to the cox, or ends at once with BAD_LEN or CLOSED. -/
  | mbSend (m : Master) (page : BitVec 9) (len : BitVec 9)
  /-- MB_REPLY (R457). The cox replies, MB_OUT, RLEN and CODE are written and VALID and REPLY are set. -/
  | mbReply (page : BitVec 9) (words : List Word)
  /-- TOKEN_THROUGH_STAGE (R48). A token passes one fabric stage by the four-phase handshake: the half evaluates, the hold element captures and acknowledges, and the spacer follows. -/
  | tokenThroughStage (wing : BitVec 4) (room : BitVec 8) (kind : StageKind) (n : BitVec 11)
  /-- CRYSTAL_CHECK_WINDOW (R334). The Cellar ends a window of 64 crystal cycles, compares the ALW count with TOL, and on failure switches the tick to ALW ÷ 122 and raises XTAL_FAIL. -/
  | crystalCheckWindow (alw : Nat)
  /-- STACK_TEMPERATURE_READ (R189). Every 1 ms the cox reads each stack's temperature through the IEEE 1500 port into MEM.STAT.TEMP. -/
  | stackTemperatureRead (stack : BitVec 2) (t : Byte)
  /-- RING_TAG_COOLING_EXPIRY (R230). A released ring message tag passes its 512 µs and 8 ms heat windows, so the source may give it again. -/
  | ringTagCoolingExpiry (tag : BitVec 16)
  /-- CORE_RAIL_RESTORED (R464). A VHALL or VFAB rail that fell below its reset threshold returns above it while PWRGD is high, releasing the PWRGD-low condition so that BOOT can start. -/
  | coreRailRestored (h : Half) (fab : Bool)
  /-- CCLK_FALLING_EDGE (R300). On each falling edge of CCLK in STARTING or CONFIGURED, DOUT takes the value of DIN. -/
  | cclkFallingEdge (din : Bool)
  /-- HOST_LINK_RETURN_TO_L0 (R400). The host link returns to L0 at 32.0 GT/s after Recovery or host-driven re-equalisation, and HLK.REEQ ends DONE. -/
  | hostLinkReturnToL0
  /-- COURSE_RETRAIN_FAIL (R219). A Course link retrain fails, counting toward the limit of three failures in 1 s, and CRS.LANE ends REFUSED with FAILED. -/
  | courseRetrainFail (westPort : Bool) (now : BitVec 64 := 0)
  /-- DESIGN_INTERRUPT_REQUEST (R306). The G2 design raises an interrupt request that sets its bit of INT_STAT [7:1], which may pull INT_N low. -/
  | designInterruptRequest (bits : BitVec 7)
  deriving DecidableEq, Repr

end Sys2Proof
end

