-- ==== Sys2Proof/Decode.lean ====
section
/-! DEFINITION. The command that a word spells by the bits of spec/opcode_table.json. -/

namespace Sys2Proof

/-- No row of the table gives a command any bits (every row's list of fields is empty), so no word spells one
(notes/assumptions 5). DESIGN CHOICE, safe: notes/assumptions/5. -/
def decodeTableWord (_nbits _w : Nat) : Option Instr := none

end Sys2Proof
end

