-- ==== Sys2Proof/Config.lean ====
section
/-! DEFINITION. What the spec leaves open (a value nothing in it fixes) and what it takes from another standard.
Every constant here is OPAQUE: no proof can see a value of it, so a theorem holds whatever the value is. -/

namespace Sys2Proof.Config

/-- A value the spec leaves open, one for each draw: the machine applies it to its counter `State.draws`, which every
draw advances (which frame an allocator takes of a stack, R182 and R187; which access an arbiter orders first, R65;
the microseconds a crew has run, a quantity of time this model does not count). -/
opaque freeNat : Nat → Nat

/-- What the controller makes of a codeword of three or more bad bytes (R163): nothing for an uncorrectable report, else
the 32 data bytes it delivers as corrected, and whether it counts the correction as one of two bytes. -/
opaque rsDecode : List Byte → Option (Bool × List Byte)

/-- The Tilyth plane bytes and state-image bytes that a G2 tile translates to (R295): the encoding of routing fields
is unpublished (R87). Takes the tile's G2 bytes and answers the byte at an offset into plane then state image. -/
opaque g2Translate : Tbl Byte → Nat → Byte

/-- Whether the bytes at hand are a firmware image or an RMA certificate that Avnar signed with ECDSA over P-384
with SHA-384 as FIPS 186-5 defines (R397, R413). -/
opaque ecdsaSigned : List Byte → Bool

/-- The die serial that a validly signed RMA certificate names (R413); its format is not published. -/
opaque certSerial : List Byte → Nat

/-- Whether a signed firmware image's header gives a length of at most 1 MiB (R397); its format is not published. -/
opaque firmwareLength : List Byte → Nat

/-- The 2-bit SHAPE of a cupboard's port A or B in the cupboard's 32 configuration bytes (R62): the encoding of that
field is not published (R87). -/
opaque cupShape : List Byte → Bool → Nat

/-- The room-routing source that an input track's 8-bit selection names (R58): the switch box of its cluster, the cluster
and the selection give a number among the tracks that reach the cluster. The encoding is not published (R87). -/
opaque roomSource : List Byte → Nat → Nat → Nat

/-- What an output track of a cluster carries and drives (R58): the output drivers and the switch box give one of the 32
cell outputs and a number among the tracks that leave the cluster. The encoding is not published (R87). -/
opaque outputDriver : List Byte → List Byte → Nat → Nat × Nat

/-- 64-byte receive buffers of a Course link's end (R217, R218): the number is not given. -/
opaque courseBuffers : Nat

/-- Bytes of the payload of a ring control message (R228): internal to the Course logic. Takes TYPE, what the payload says,
and the place of the byte. -/
opaque ctlByte : Nat → List Nat → Nat → BitVec 8

/-- The fused PCI Express Vendor ID (R438). -/
opaque vendorId : Nat

/-- Whether a service pin's signal is driven, and its level, where the manual does not give it: functions 1 to 4 (R423), the trace
stream and the clock-out (R426). Takes the draw counter, the pin, and the function, 16 for the overlay. -/
opaque pinSignal : Nat → Nat → Nat → Bool × Bool

/-- What a G2 design puts on user I/O pin 16 × bank + pin, by the planes and live state of the fabric: nothing, or a level
(R291, R293). DESIGN CHOICE, safe: notes/assumptions/31. -/
opaque g2Io : List (Nat × Byte) → Nat → Option Bool

end Sys2Proof.Config
end

