-- ==== Sys2Proof/Machine/RegMap.lean ====
section
/-! DEFINITION. The register map: pages of BAR0 (Table 15.1), the common header (Table 15.2), and every register
field of the device as one constant, its name PAGE_REGISTER_FIELD, with the bits, access code and reset value that
the page's table gives. Where a table names a fuse, a strap or the Attic as the reset value, the constant holds 0 here
and the boot sequence writes the field when it reads the source (R369). -/

namespace Sys2Proof.Machine

/-- Access codes (Table 0.4); `cnt` is a count field, which any write clears (R11). -/
inductive Acc where
  | rw | ro | wo | w1c | w1s | rwl | cnt
  deriving DecidableEq, Repr

/-- A field of a register: offset in its page, top and bottom bit, access code, reset value. -/
structure Fld where
  off : Nat
  hi  : Nat
  lo  : Nat
  acc : Acc
  rst : Nat
  deriving DecidableEq, Repr

/-- The field of entry `i` of a register array with the given stride in bytes. -/
def Fld.at (f : Fld) (stride i : Nat) : Fld := { f with off := f.off + stride * i }

/-- What FREEZE does with a register (R450): a result word is held, a register with a GO or SEND field and a port's
result never are, and of a plain register only the count fields are held. -/
inductive RegKind where
  | plain | result | goReg | portReg
  deriving DecidableEq, Repr

/-- A register, or an array of them: offset, number of entries, stride in bytes, kind, fields. -/
structure RegRow where
  off    : Nat
  n      : Nat
  stride : Nat
  kind   : RegKind
  fields : List Fld
  deriving DecidableEq, Repr

/-- The page types of Table 15.1, and the page of a virtual function (Table 14.12). -/
inductive PageKind where
  | sys | cel | sec | lcs | cfg | att | hlk | crs | g2c | gal | clk | pwr | fmc | bst | scr | pin | pmx | pint
  | stw | pgt | hat | mem | wng | mbs | mbx | cwn | hwn | vfp
  deriving DecidableEq, Repr

/-- TYPE of a page (Table 15.1); a virtual function's page has no header. -/
def PageKind.type : PageKind → Nat
  | .sys => 0x0001 | .cel => 0x0002 | .sec => 0x0016 | .lcs => 0x0017 | .cfg => 0x000E | .att => 0x000F
  | .hlk => 0x0006 | .crs => 0x0007 | .g2c => 0x0010 | .gal => 0x0008 | .clk => 0x0003 | .pwr => 0x0004
  | .fmc => 0x0005 | .bst => 0x0014 | .scr => 0x0015 | .pin => 0x0011 | .pmx => 0x0012 | .pint => 0x0013
  | .stw => 0x0009 | .pgt => 0x000C | .hat => 0x000D | .mem => 0x000B | .wng => 0x000A | .mbs => 0x0018
  | .mbx => 0x0019 | .cwn => 0x001A | .hwn => 0x001B | .vfp => 0

/-- The number of BAR0 pages (R446); the page of virtual function `n` follows as number `288 + n`. -/
def numPages : Nat := 288

/-- 0 for East, 1 for West: the order in which Table 15.1 lists the pages of a block that serves one half. -/
def halfBit : Half → Nat
  | .east => 0
  | .west => 1

/-- The half that a bit names (R6, R7). -/
def halfOf (b : Nat) : Half := if b = 0 then .east else .west

/-- The other half. -/
def other : Half → Half
  | .east => .west
  | .west => .east

/-! Page numbers (Table 15.1). -/

def pgSys (h : Half) : Nat := halfBit h
def pgCel : Nat := 2
def pgSec : Nat := 3
def pgLcs : Nat := 4
def pgCfg : Nat := 5
def pgAtt : Nat := 6
def pgHlk : Nat := 7
def pgCrs : Nat := 8
def pgG2c : Nat := 9
def pgGal (h : Half) : Nat := 10 + halfBit h
def pgClk (h : Half) : Nat := 12 + halfBit h
def pgPwr (h : Half) : Nat := 14 + halfBit h
def pgFmc (h : Half) : Nat := 16 + halfBit h
def pgBst (h : Half) : Nat := 18 + halfBit h
def pgScr (h : Half) : Nat := 20 + halfBit h
def pgPin (h : Half) : Nat := 22 + halfBit h
def pgPmx (h : Half) : Nat := 24 + halfBit h
def pgPint (h : Half) : Nat := 26 + halfBit h
def pgStw (h : Half) : Nat := 28 + halfBit h
def pgPgt (h : Half) : Nat := 30 + halfBit h
def pgHat (h : Half) : Nat := 32 + halfBit h
/-- The page of stack 0 to 3. -/
def pgMem (stack : Nat) : Nat := 34 + stack
/-- The page of wing 0 to 15: East 0 to 7, West 8 to 15. -/
def pgWng (wing : Nat) : Nat := 38 + wing
def pgMbs (h : Half) : Nat := 54 + 21 * halfBit h
/-- The page of mailbox `n` of a half. -/
def pgMbx (h : Half) (n : Nat) : Nat := 55 + 21 * halfBit h + n
/-- The page of virtual function `n` (Table 14.12). -/
def pgVf (n : Nat) : Nat := numPages + n

/-- The type of a page by its number (Table 15.1). -/
def pageKind (p : Nat) : PageKind :=
  if p < 2 then .sys
  else if p < 10 then
    match p with
    | 2 => .cel | 3 => .sec | 4 => .lcs | 5 => .cfg | 6 => .att | 7 => .hlk | 8 => .crs | _ => .g2c
  else if p < 34 then
    match (p - 10) / 2 with
    | 0 => .gal | 1 => .clk | 2 => .pwr | 3 => .fmc | 4 => .bst | 5 => .scr | 6 => .pin | 7 => .pmx | 8 => .pint
    | 9 => .stw | 10 => .pgt | _ => .hat
  else if p < 38 then .mem
  else if p < 54 then .wng
  else if p = 54 ∨ p = 75 then .mbs
  else if p < 96 then .mbx
  else if p < 224 then .cwn
  else if p < numPages then .hwn
  else .vfp

/-- PG_ID[15:8], the INSTANCE of Table 15.1. -/
def pageInstance (p : Nat) : Nat :=
  match pageKind p with
  | .sys | .gal | .clk | .pwr | .fmc | .bst | .scr | .pin | .pmx | .pint | .stw | .pgt | .hat => p % 2 * 0x80
  | .mem => (p - 34) % 2 + (p - 34) / 2 * 0x80
  | .wng => (p - 38) % 8 + (p - 38) / 8 * 0x80
  | .mbs => (p - 54) / 21 * 0x80
  | .mbx => (p - 55) % 21 + (p - 55) / 21 * 0x80
  | .cwn => (p - 96) % 64 + (p - 96) / 64 * 0x80
  | .hwn => (p - 224) % 32 + (p - 224) / 32 * 0x80
  | .cel | .sec | .lcs | .cfg | .att | .hlk | .crs | .g2c | .vfp => 0

/-! The common header (Table 15.2). -/

def PG_CTRL_FREEZE : Fld := ⟨0x008, 2, 2, .rw, 0⟩
def PG_CTRL_SRST : Fld := ⟨0x008, 1, 1, .wo, 0⟩
def PG_CTRL_EN : Fld := ⟨0x008, 0, 0, .rw, 1⟩
def PG_STAT_LOCKED : Fld := ⟨0x00C, 3, 3, .ro, 0⟩
def PG_STAT_HELD : Fld := ⟨0x00C, 2, 2, .ro, 0⟩
def PG_STAT_RESETTING : Fld := ⟨0x00C, 1, 1, .ro, 0⟩
def PG_STAT_BUSY : Fld := ⟨0x00C, 0, 0, .ro, 0⟩
def PG_IRQ_RAW : Fld := ⟨0x010, 31, 0, .w1c, 0⟩
def PG_IRQ_EN : Fld := ⟨0x014, 31, 0, .rw, 0⟩
def PG_IRQ_FORCE : Fld := ⟨0x018, 31, 0, .wo, 0⟩
def PG_WORLD_LOCK : Fld := ⟨0x01C, 1, 1, .w1s, 0⟩
def PG_WORLD_WORLD : Fld := ⟨0x01C, 0, 0, .rwl, 0⟩
def PG_ERR_VALID : Fld := ⟨0x020, 31, 31, .w1c, 0⟩
def PG_ERR_MORE : Fld := ⟨0x020, 30, 30, .ro, 0⟩
def PG_ERR_CODE : Fld := ⟨0x020, 7, 0, .ro, 0⟩
def PG_ERR_ADDR : Fld := ⟨0x024, 31, 0, .ro, 0⟩

/-- The header's registers. PG_ID and PG_REV hold constants (`headReset`). -/
def headRows : List RegRow :=
  [⟨0x000, 1, 4, .plain, []⟩, ⟨0x004, 1, 4, .plain, []⟩,
   ⟨0x008, 1, 4, .plain, [PG_CTRL_FREEZE, PG_CTRL_SRST, PG_CTRL_EN]⟩,
   ⟨0x00C, 1, 4, .plain, [PG_STAT_LOCKED, PG_STAT_HELD, PG_STAT_RESETTING, PG_STAT_BUSY]⟩,
   ⟨0x010, 1, 4, .plain, [PG_IRQ_RAW]⟩, ⟨0x014, 1, 4, .plain, [PG_IRQ_EN]⟩, ⟨0x018, 1, 4, .plain, [PG_IRQ_FORCE]⟩,
   ⟨0x01C, 1, 4, .plain, [PG_WORLD_LOCK, PG_WORLD_WORLD]⟩,
   ⟨0x020, 1, 4, .plain, [PG_ERR_VALID, PG_ERR_MORE, PG_ERR_CODE]⟩, ⟨0x024, 1, 4, .plain, [PG_ERR_ADDR]⟩]

/-- PG_WORLD as fixed on the pages of R448: 0b11 for SEC, LCS and mailboxes 16 to 19, 0b10 for the other pages of types
0x0018 to 0x001B; nothing for a page whose PG_WORLD can be written. DEDUCED, unsafe: notes/assumptions/21. -/
def worldFixed (p : Nat) : Option Nat :=
  match pageKind p with
  | .sec | .lcs => some 3
  | .mbx => if 16 ≤ (p - 55) % 21 then some 3 else some 2
  | .mbs | .cwn | .hwn => some 2
  | .sys | .cel | .cfg | .att | .hlk | .crs | .g2c | .gal | .clk | .pwr | .fmc | .bst | .scr | .pin | .pmx | .pint
  | .stw | .pgt | .hat | .mem | .wng | .vfp => none

/-! The SYS page (Tables 15.5, 1.7 to 1.11, 11.3, 11.9, 12.6). -/

def SYS_IDCODE : Fld := ⟨0x040, 31, 0, .ro, 0x1C6300A7⟩
def SYS_PART_GRADE : Fld := ⟨0x044, 1, 0, .ro, 0x0⟩
def SYS_SERIAL_LO_SERIAL : Fld := ⟨0x048, 31, 0, .ro, 0x0⟩
def SYS_SERIAL_HI_SERIAL : Fld := ⟨0x04C, 31, 0, .ro, 0x0⟩
def SYS_MODE_PREV : Fld := ⟨0x050, 23, 20, .ro, 0x1⟩
def SYS_MODE_SVC_HOLD : Fld := ⟨0x050, 15, 8, .ro, 0x0⟩
def SYS_MODE_TRANSIT : Fld := ⟨0x050, 5, 5, .ro, 0x0⟩
def SYS_MODE_ORPHAN : Fld := ⟨0x050, 4, 4, .ro, 0x0⟩
def SYS_MODE_MODE : Fld := ⟨0x050, 3, 0, .ro, 0x3⟩
def SYS_MODE_REQ_STATUS : Fld := ⟨0x054, 17, 16, .ro, 0x0⟩
def SYS_MODE_REQ_REASON : Fld := ⟨0x054, 11, 8, .ro, 0x0⟩
def SYS_MODE_REQ_GO : Fld := ⟨0x054, 7, 7, .wo, 0x0⟩
def SYS_MODE_REQ_TARGET : Fld := ⟨0x054, 3, 0, .rw, 0x0⟩
def SYS_ERR_LAST : Fld := ⟨0x058, 15, 8, .ro, 0x0⟩
def SYS_ERR_CODE : Fld := ⟨0x058, 7, 0, .ro, 0x0⟩
def SYS_ROLE_LOST_ACCESS : Fld := ⟨0x05C, 31, 24, .ro, 0x0⟩
def SYS_ROLE_LAPSES : Fld := ⟨0x05C, 15, 8, .ro, 0x0⟩
def SYS_ROLE_LEAD_CONFLICT : Fld := ⟨0x05C, 4, 4, .w1c, 0x0⟩
def SYS_ROLE_LEASE_OK : Fld := ⟨0x05C, 3, 3, .ro, 0x0⟩
def SYS_ROLE_HALF : Fld := ⟨0x05C, 2, 2, .ro, 0x0⟩
def SYS_ROLE_LEAD_SEL : Fld := ⟨0x05C, 1, 1, .ro, 0x0⟩
def SYS_ROLE_LEADER : Fld := ⟨0x05C, 0, 0, .ro, 0x0⟩
def SYS_LEASE_EPOCH : Fld := ⟨0x060, 31, 16, .ro, 0x0⟩
def SYS_LEASE_AGE : Fld := ⟨0x060, 9, 0, .ro, 0x3FF⟩
def SYS_XSEL_KIND : Fld := ⟨0x070, 11, 8, .rw, 0x0⟩
def SYS_XSEL_INDEX : Fld := ⟨0x070, 7, 0, .rw, 0x0⟩
def SYS_XSTAT_NOT_READY : Fld := ⟨0x074, 31, 31, .ro, 0x0⟩
def SYS_XSTAT_LOST : Fld := ⟨0x074, 30, 30, .w1c, 0x0⟩
def SYS_XSTAT_PENDING : Fld := ⟨0x074, 27, 24, .ro, 0x0⟩
def SYS_XSTAT_DROP : Fld := ⟨0x074, 15, 0, .cnt, 0x0⟩
def SYS_COX_IMG_DPA : Fld := ⟨0x090, 24, 0, .rw, 0x0⟩
def SYS_COX_UPD_GO : Fld := ⟨0x094, 31, 31, .wo, 0x0⟩
def SYS_COX_UPD_STATUS : Fld := ⟨0x094, 29, 28, .ro, 0x0⟩
def SYS_COX_UPD_SEQ : Fld := ⟨0x094, 27, 24, .ro, 0x0⟩
def SYS_COX_UPD_REASON : Fld := ⟨0x094, 23, 20, .ro, 0x0⟩
def SYS_COX_UPD_ARG : Fld := ⟨0x094, 15, 0, .rw, 0x0⟩

/-! The CEL page (Tables 10.3). -/

def CEL_CTRL_XTAL_EN : Fld := ⟨0x040, 2, 2, .rw, 0x0⟩
def CEL_CTRL_TICK : Fld := ⟨0x040, 1, 1, .rw, 0x0⟩
def CEL_CTRL_BOOT_TEST : Fld := ⟨0x040, 0, 0, .rw, 0x0⟩
def CEL_STAT_NO_CLOCK : Fld := ⟨0x044, 5, 5, .ro, 0x0⟩
def CEL_STAT_TICK_NOW : Fld := ⟨0x044, 4, 4, .ro, 0x0⟩
def CEL_STAT_TICK_ESCAPED : Fld := ⟨0x044, 3, 3, .ro, 0x0⟩
def CEL_STAT_TICK_REFUSED : Fld := ⟨0x044, 2, 2, .ro, 0x0⟩
def CEL_STAT_XTAL_READY : Fld := ⟨0x044, 1, 1, .ro, 0x0⟩
def CEL_STAT_ALW_READY : Fld := ⟨0x044, 0, 0, .ro, 0x1⟩
def CEL_WAKE_EN_EN : Fld := ⟨0x048, 3, 0, .rw, 0x6⟩
def CEL_WAKE_CAUSE_VALID : Fld := ⟨0x04C, 31, 31, .ro, 0x0⟩
def CEL_WAKE_CAUSE_SEQ : Fld := ⟨0x04C, 27, 24, .ro, 0x0⟩
def CEL_WAKE_CAUSE_CAUSE : Fld := ⟨0x04C, 3, 0, .ro, 0x0⟩
def CEL_TIMER_COUNT : Fld := ⟨0x050, 31, 0, .rw, 0x0⟩
def CEL_SCRATCH_DATA : Fld := ⟨0x080, 31, 0, .rw, 0x0⟩

/-! The SEC page (Tables 13.5, 13.9). -/

def SEC_FN_WORLD_WORLD : Fld := ⟨0x040, 31, 0, .rwl, 0x0⟩
def SEC_FREEZE_LAST_VALID : Fld := ⟨0x060, 31, 31, .ro, 0x0⟩
def SEC_FREEZE_LAST_SEQ : Fld := ⟨0x060, 27, 24, .ro, 0x0⟩
def SEC_FREEZE_LAST_KIND : Fld := ⟨0x060, 23, 21, .ro, 0x0⟩
def SEC_FREEZE_LAST_CAUSE : Fld := ⟨0x060, 20, 16, .ro, 0x0⟩
def SEC_FREEZE_LAST_ID : Fld := ⟨0x060, 15, 0, .ro, 0x0⟩
def SEC_UNFREEZE_GO : Fld := ⟨0x064, 31, 31, .wo, 0x0⟩
def SEC_UNFREEZE_STATUS : Fld := ⟨0x064, 29, 28, .ro, 0x0⟩
def SEC_UNFREEZE_SEQ : Fld := ⟨0x064, 27, 24, .ro, 0x0⟩
def SEC_UNFREEZE_REASON : Fld := ⟨0x064, 23, 20, .ro, 0x0⟩
def SEC_UNFREEZE_KIND : Fld := ⟨0x064, 18, 16, .rw, 0x0⟩
def SEC_UNFREEZE_ID : Fld := ⟨0x064, 15, 0, .rw, 0x0⟩
def SEC_DBG_BSCAN_BLOCKED : Fld := ⟨0x070, 1, 1, .w1c, 0x0⟩
def SEC_DBG_NS_DEBUG : Fld := ⟨0x070, 0, 0, .rwl, 0x0⟩
def SEC_KEY_DATA_DATA : Fld := ⟨0x080, 31, 0, .wo, 0x0⟩
def SEC_KEY_CTRL_GO : Fld := ⟨0x0A0, 31, 31, .wo, 0x0⟩
def SEC_KEY_CTRL_STATUS : Fld := ⟨0x0A0, 29, 28, .ro, 0x0⟩
def SEC_KEY_CTRL_SEQ : Fld := ⟨0x0A0, 27, 24, .ro, 0x0⟩
def SEC_KEY_CTRL_REASON : Fld := ⟨0x0A0, 23, 20, .ro, 0x0⟩
def SEC_KEY_CTRL_OP : Fld := ⟨0x0A0, 19, 18, .rw, 0x0⟩
def SEC_KEY_CTRL_BANK : Fld := ⟨0x0A0, 17, 17, .rw, 0x0⟩
def SEC_KEY_CTRL_INDEX : Fld := ⟨0x0A0, 15, 14, .rw, 0x0⟩
def SEC_KEY_STAT_KCV : Fld := ⟨0x0A4, 31, 16, .ro, 0x0⟩
def SEC_KEY_STAT_SLOTS : Fld := ⟨0x0A4, 11, 0, .ro, 0x0⟩

/-! The LCS page (Tables 13.8). -/

def LCS_STATE_PENDING : Fld := ⟨0x040, 19, 16, .ro, 0x0⟩
def LCS_STATE_STATE : Fld := ⟨0x040, 3, 0, .ro, 0x0⟩
def LCS_REQ_GO : Fld := ⟨0x044, 31, 31, .wo, 0x0⟩
def LCS_REQ_STATUS : Fld := ⟨0x044, 29, 28, .ro, 0x0⟩
def LCS_REQ_SEQ : Fld := ⟨0x044, 27, 24, .ro, 0x0⟩
def LCS_REQ_REASON : Fld := ⟨0x044, 23, 20, .ro, 0x0⟩
def LCS_REQ_TARGET : Fld := ⟨0x044, 3, 0, .rw, 0x0⟩
def LCS_CERT_DPA : Fld := ⟨0x048, 24, 0, .rw, 0x0⟩
def LCS_FUSE_ENC_REQUIRED : Fld := ⟨0x04C, 1, 1, .w1s, 0x0⟩
def LCS_FUSE_FALLBACK_EN : Fld := ⟨0x04C, 0, 0, .w1s, 0x0⟩

/-! The CFG page (Tables 8.15). -/

def CFG_STAT_SOURCE : Fld := ⟨0x040, 23, 20, .ro, 0x0⟩
def CFG_STAT_PHASE : Fld := ⟨0x040, 19, 16, .ro, 0x0⟩
def CFG_STAT_STEPS : Fld := ⟨0x040, 11, 8, .ro, 0x0⟩
def CFG_STAT_ORDER : Fld := ⟨0x040, 7, 0, .ro, 0x0⟩
def CFG_ERR_FIRST : Fld := ⟨0x044, 31, 24, .ro, 0x0⟩
def CFG_ERR_RECORD : Fld := ⟨0x044, 23, 16, .ro, 0x0⟩
def CFG_ERR_DETAIL : Fld := ⟨0x044, 15, 8, .ro, 0x0⟩
def CFG_ERR_CODE : Fld := ⟨0x044, 7, 0, .ro, 0x0⟩
def CFG_ERR_POS_POS : Fld := ⟨0x048, 31, 0, .ro, 0xFFFFFFFF⟩
def CFG_DEADLINE_MS : Fld := ⟨0x04C, 15, 0, .rw, 0x7D0⟩
def CFG_DMA_LO_ADDR : Fld := ⟨0x050, 31, 3, .rw, 0x0⟩
def CFG_DMA_HI_ADDR : Fld := ⟨0x054, 31, 0, .rw, 0x0⟩
def CFG_DMA_LEN_LEN : Fld := ⟨0x058, 27, 0, .rw, 0x0⟩
def CFG_DMA_CTRL_GO : Fld := ⟨0x05C, 31, 31, .wo, 0x0⟩
def CFG_DMA_CTRL_SEQ : Fld := ⟨0x05C, 27, 24, .ro, 0x0⟩
def CFG_DMA_CTRL_STATUS : Fld := ⟨0x05C, 17, 16, .ro, 0x0⟩
def CFG_DMA_CTRL_REASON : Fld := ⟨0x05C, 7, 0, .ro, 0x0⟩
def CFG_PROGRESS_BYTES : Fld := ⟨0x060, 31, 0, .ro, 0x0⟩
def CFG_FRAMES_WRITES : Fld := ⟨0x064, 31, 0, .ro, 0x0⟩
def CFG_BUILD_LO_BUILD : Fld := ⟨0x068, 31, 0, .ro, 0x0⟩
def CFG_BUILD_HI_BUILD : Fld := ⟨0x06C, 31, 0, .ro, 0x0⟩
def CFG_CHAIN_FORWARDING : Fld := ⟨0x070, 16, 16, .ro, 0x0⟩
def CFG_CHAIN_UNCLAIMED : Fld := ⟨0x070, 15, 8, .ro, 0x0⟩
def CFG_CHAIN_DUPS : Fld := ⟨0x070, 7, 0, .ro, 0x0⟩

/-! The ATT page (Tables 8.3, 8.4, 3.22). -/

def ATT_BOOT_CHAIN_DS : Fld := ⟨0x040, 23, 16, .rw, 0x14⟩
def ATT_BOOT_ATTIC_MS : Fld := ⟨0x040, 15, 8, .rw, 0xC8⟩
def ATT_BOOT_TRY_BOTH : Fld := ⟨0x040, 3, 3, .rw, 0x0⟩
def ATT_BOOT_SRC : Fld := ⟨0x040, 2, 1, .rw, 0x0⟩
def ATT_BOOT_PRIMARY : Fld := ⟨0x040, 0, 0, .rw, 0x0⟩
def ATT_PROG_SRC_DPA : Fld := ⟨0x050, 24, 0, .rw, 0x0⟩
def ATT_PROG_DST_OFFSET : Fld := ⟨0x054, 15, 0, .rw, 0x0⟩
def ATT_PROG_LEN_LEN : Fld := ⟨0x058, 15, 0, .rw, 0x0⟩
def ATT_PROG_CTRL_GO : Fld := ⟨0x05C, 31, 31, .wo, 0x0⟩
def ATT_PROG_CTRL_BUSY : Fld := ⟨0x05C, 30, 30, .ro, 0x0⟩
def ATT_PROG_CTRL_SEQ : Fld := ⟨0x05C, 27, 24, .ro, 0x0⟩
def ATT_PROG_CTRL_CODE : Fld := ⟨0x05C, 23, 20, .ro, 0x0⟩
def ATT_PROG_CTRL_DONE : Fld := ⟨0x05C, 15, 0, .ro, 0x0⟩
def ATT_REC_CLEAR_GO : Fld := ⟨0x060, 31, 31, .wo, 0x0⟩
def ATT_REC_CLEAR_STATUS : Fld := ⟨0x060, 29, 28, .ro, 0x0⟩
def ATT_REC_CLEAR_SEQ : Fld := ⟨0x060, 27, 24, .ro, 0x0⟩
def ATT_REC_CLEAR_REASON : Fld := ⟨0x060, 23, 20, .ro, 0x0⟩
def ATT_REC_CLEAR_WHICH : Fld := ⟨0x060, 1, 0, .rw, 0x0⟩

/-! The HLK page (Tables 14.14, 12.6). -/

def HLK_LINK_SPEED : Fld := ⟨0x040, 27, 24, .ro, 0x0⟩
def HLK_LINK_WIDTH : Fld := ⟨0x040, 20, 16, .ro, 0x0⟩
def HLK_LINK_L1 : Fld := ⟨0x040, 1, 1, .ro, 0x0⟩
def HLK_LINK_DL_UP : Fld := ⟨0x040, 0, 0, .ro, 0x0⟩
def HLK_CNT_REPLAYS : Fld := ⟨0x044, 31, 16, .cnt, 0x0⟩
def HLK_CNT_CORR : Fld := ⟨0x044, 15, 0, .cnt, 0x0⟩
def HLK_FLR_LAST_VALID : Fld := ⟨0x048, 31, 31, .ro, 0x0⟩
def HLK_FLR_LAST_SEQ : Fld := ⟨0x048, 27, 24, .ro, 0x0⟩
def HLK_FLR_LAST_FUNC : Fld := ⟨0x048, 8, 0, .ro, 0x0⟩
def HLK_REEQ_GO : Fld := ⟨0x200, 31, 31, .wo, 0x0⟩
def HLK_REEQ_STATUS : Fld := ⟨0x200, 29, 28, .ro, 0x0⟩
def HLK_REEQ_SEQ : Fld := ⟨0x200, 27, 24, .ro, 0x0⟩
def HLK_REEQ_REASON : Fld := ⟨0x200, 23, 20, .ro, 0x0⟩
def HLK_REEQ_ARG : Fld := ⟨0x200, 15, 0, .rw, 0x0⟩
def HLK_WIN_BASE : Fld := ⟨0x400, 6, 0, .rwl, 0x0⟩

/-! The CRS page (Tables 7.7, 12.6). -/

def CRS_ID_VALID : Fld := ⟨0x040, 31, 31, .ro, 0x0⟩
def CRS_ID_BOW : Fld := ⟨0x040, 30, 30, .ro, 0x0⟩
def CRS_ID_ACTING : Fld := ⟨0x040, 29, 29, .ro, 0x0⟩
def CRS_ID_RING_ID : Fld := ⟨0x040, 9, 0, .ro, 0x0⟩
def CRS_PORT_STATE : Fld := ⟨0x044, 10, 8, .ro, 0x0⟩
def CRS_PORT_E_LINK : Fld := ⟨0x044, 7, 6, .ro, 0x0⟩
def CRS_PORT_E_LANES : Fld := ⟨0x044, 5, 4, .ro, 0x0⟩
def CRS_PORT_W_LINK : Fld := ⟨0x044, 3, 2, .ro, 0x0⟩
def CRS_PORT_W_LANES : Fld := ⟨0x044, 1, 0, .ro, 0x0⟩
def CRS_RING_SIZE : Fld := ⟨0x048, 26, 16, .ro, 0x0⟩
def CRS_RING_BREAKS : Fld := ⟨0x048, 3, 0, .ro, 0x0⟩
def CRS_CFG_HOLD : Fld := ⟨0x04C, 31, 24, .rw, 0x64⟩
def CRS_CFG_BREAK_HOLD : Fld := ⟨0x04C, 23, 16, .rw, 0x32⟩
def CRS_CFG_RETRY_GAP : Fld := ⟨0x04C, 15, 8, .rw, 0x4⟩
def CRS_CFG_INJECT : Fld := ⟨0x04C, 3, 0, .rw, 0x8⟩
def CRS_LINK_E_RETRAINS : Fld := ⟨0x050, 31, 24, .cnt, 0x0⟩
def CRS_LINK_E_REPLAYS : Fld := ⟨0x050, 15, 0, .cnt, 0x0⟩
def CRS_LINK_W_RETRAINS : Fld := ⟨0x054, 31, 24, .cnt, 0x0⟩
def CRS_LINK_W_REPLAYS : Fld := ⟨0x054, 15, 0, .cnt, 0x0⟩
def CRS_DROPS_AGED : Fld := ⟨0x058, 31, 24, .cnt, 0x0⟩
def CRS_DROPS_NO_DEST : Fld := ⟨0x058, 23, 16, .cnt, 0x0⟩
def CRS_DROPS_FROZEN : Fld := ⟨0x058, 15, 8, .cnt, 0x0⟩
def CRS_DROPS_STALE : Fld := ⟨0x058, 7, 0, .cnt, 0x0⟩
def CRS_REFUSE0_VALID : Fld := ⟨0x05C, 31, 31, .ro, 0x0⟩
def CRS_REFUSE0_SEQ : Fld := ⟨0x05C, 27, 24, .ro, 0x0⟩
def CRS_REFUSE0_CODE : Fld := ⟨0x05C, 23, 20, .ro, 0x0⟩
def CRS_REFUSE0_DST : Fld := ⟨0x05C, 9, 0, .ro, 0x0⟩
def CRS_REFUSE1_VALID : Fld := ⟨0x060, 31, 31, .ro, 0x0⟩
def CRS_REFUSE1_SEQ : Fld := ⟨0x060, 27, 24, .ro, 0x0⟩
def CRS_REFUSE1_HEAT : Fld := ⟨0x060, 23, 20, .ro, 0x0⟩
def CRS_REFUSE1_CREW : Fld := ⟨0x060, 15, 0, .ro, 0x0⟩
def CRS_PEER_SEL_ID : Fld := ⟨0x064, 9, 0, .rw, 0x0⟩
def CRS_PEER_PRESENT : Fld := ⟨0x068, 31, 31, .ro, 0x0⟩
def CRS_PEER_FROZEN : Fld := ⟨0x068, 30, 30, .ro, 0x0⟩
def CRS_PEER_POSITION : Fld := ⟨0x068, 25, 16, .ro, 0x0⟩
def CRS_PEER_UNREACH : Fld := ⟨0x068, 11, 11, .ro, 0x0⟩
def CRS_PEER_RING : Fld := ⟨0x068, 10, 10, .ro, 0x0⟩
def CRS_PEER_DIST : Fld := ⟨0x068, 9, 0, .ro, 0x0⟩
def CRS_REQ_GO : Fld := ⟨0x06C, 31, 31, .wo, 0x0⟩
def CRS_REQ_STATUS : Fld := ⟨0x06C, 17, 16, .ro, 0x0⟩
def CRS_REQ_OP : Fld := ⟨0x06C, 3, 0, .rw, 0x0⟩
def CRS_LANE_GO : Fld := ⟨0x080, 31, 31, .wo, 0x0⟩
def CRS_LANE_STATUS : Fld := ⟨0x080, 29, 28, .ro, 0x0⟩
def CRS_LANE_SEQ : Fld := ⟨0x080, 27, 24, .ro, 0x0⟩
def CRS_LANE_REASON : Fld := ⟨0x080, 23, 20, .ro, 0x0⟩
def CRS_LANE_ARG : Fld := ⟨0x080, 15, 0, .rw, 0x0⟩

/-! The G2C page (Tables 9.12, 9.9). -/

def G2C_CTRL_RECAL_EN : Fld := ⟨0x040, 8, 8, .rw, 0x1⟩
def G2C_CTRL_PROG : Fld := ⟨0x040, 4, 4, .wo, 0x0⟩
def G2C_CTRL_SRC : Fld := ⟨0x040, 1, 1, .rwl, 0x0⟩
def G2C_CTRL_EN : Fld := ⟨0x040, 0, 0, .rwl, 0x0⟩
def G2C_STAT_BLOCKED : Fld := ⟨0x044, 11, 8, .ro, 0x0⟩
def G2C_STAT_STATE : Fld := ⟨0x044, 6, 4, .ro, 0x0⟩
def G2C_STAT_PWR : Fld := ⟨0x044, 1, 0, .ro, 0x0⟩
def G2C_LOAD_VALID : Fld := ⟨0x048, 31, 31, .ro, 0x0⟩
def G2C_LOAD_SEQ : Fld := ⟨0x048, 27, 24, .ro, 0x0⟩
def G2C_LOAD_CODE : Fld := ⟨0x048, 23, 20, .ro, 0x0⟩
def G2C_LOAD_FRAMES : Fld := ⟨0x048, 15, 0, .ro, 0x0⟩
def G2C_CAL_VALID : Fld := ⟨0x04C, 31, 31, .ro, 0x0⟩
def G2C_CAL_SEQ : Fld := ⟨0x04C, 27, 24, .ro, 0x0⟩
def G2C_CAL_STATUS : Fld := ⟨0x04C, 23, 22, .ro, 0x0⟩
def G2C_CAL_STEP : Fld := ⟨0x04C, 15, 0, .ro, 0x0⟩
def G2C_UPSETS_COUNT : Fld := ⟨0x050, 15, 0, .cnt, 0x0⟩
def G2C_REG_VALUE : Fld := ⟨0x100, 7, 0, .rw, 0x0⟩

/-! The GAL page (Tables 15.6). -/

def GAL_LINK_RETRAINS : Fld := ⟨0x040, 31, 16, .cnt, 0x0⟩
def GAL_LINK_STATE : Fld := ⟨0x040, 1, 0, .ro, 0x0⟩
def GAL_REPLAY_REPLAYS : Fld := ⟨0x044, 15, 0, .cnt, 0x0⟩
def GAL_EGRESS_HELD_WRITES : Fld := ⟨0x048, 31, 16, .ro, 0x0⟩
def GAL_EGRESS_USED_KIB : Fld := ⟨0x048, 15, 0, .ro, 0x0⟩

/-! The CLK page (Tables 10.5, 10.7, 10.8, 10.10). -/

def CLK_SRC_STAT_FAIL : Fld := ⟨0x044, 21, 16, .w1c, 0x0⟩
def CLK_SRC_STAT_SVC_SEL : Fld := ⟨0x044, 13, 12, .ro, 0x0⟩
def CLK_SRC_STAT_HALL_SEL : Fld := ⟨0x044, 11, 10, .ro, 0x2⟩
def CLK_SRC_STAT_READY : Fld := ⟨0x044, 5, 0, .ro, 0x0⟩
def CLK_SW_GO : Fld := ⟨0x048, 31, 31, .wo, 0x0⟩
def CLK_SW_STATUS : Fld := ⟨0x048, 29, 28, .ro, 0x0⟩
def CLK_SW_SEQ : Fld := ⟨0x048, 27, 24, .ro, 0x0⟩
def CLK_SW_REASON : Fld := ⟨0x048, 23, 20, .ro, 0x0⟩
def CLK_SW_SW_ESCAPED : Fld := ⟨0x048, 8, 8, .ro, 0x0⟩
def CLK_SW_MUX : Fld := ⟨0x048, 4, 4, .rw, 0x0⟩
def CLK_SW_TARGET : Fld := ⟨0x048, 1, 0, .rw, 0x0⟩
def CLK_MON_WINDOW : Fld := ⟨0x04C, 15, 8, .rw, 0x3⟩
def CLK_MON_TOL : Fld := ⟨0x04C, 1, 0, .rw, 0x1⟩
def CLK_GATE_G2C : Fld := ⟨0x060, 9, 8, .rw, 0x0⟩
def CLK_GATE_ATT : Fld := ⟨0x060, 7, 6, .rw, 0x0⟩
def CLK_GATE_SCR : Fld := ⟨0x060, 5, 4, .rw, 0x0⟩
def CLK_GATE_BST : Fld := ⟨0x060, 3, 2, .rw, 0x0⟩
def CLK_GATE_FMC : Fld := ⟨0x060, 1, 0, .rw, 0x0⟩
def CLK_GHOST_COUNT : Fld := ⟨0x064, 31, 16, .cnt, 0x0⟩
def CLK_GHOST_PAGE : Fld := ⟨0x064, 8, 0, .ro, 0x0⟩
def CLK_PPLL_EN : Fld := ⟨0x100, 31, 31, .rw, 0x0⟩
def CLK_PPLL_READY : Fld := ⟨0x100, 30, 30, .ro, 0x0⟩
def CLK_PPLL_REF : Fld := ⟨0x100, 29, 29, .rw, 0x0⟩
def CLK_PPLL_M : Fld := ⟨0x100, 23, 16, .rw, 0x0⟩
def CLK_PPLL_D : Fld := ⟨0x100, 13, 8, .rw, 0x0⟩

/-! The PWR page (Tables 10.15). -/

def PWR_OP_REQ_GO : Fld := ⟨0x040, 31, 31, .wo, 0x0⟩
def PWR_OP_REQ_STATUS : Fld := ⟨0x040, 29, 28, .ro, 0x0⟩
def PWR_OP_REQ_SEQ : Fld := ⟨0x040, 27, 24, .ro, 0x0⟩
def PWR_OP_REQ_REASON : Fld := ⟨0x040, 23, 20, .ro, 0x0⟩
def PWR_OP_REQ_TARGET : Fld := ⟨0x040, 2, 0, .rw, 0x4⟩
def PWR_OP_STAT_VHALL_MV : Fld := ⟨0x044, 31, 16, .ro, 0x0⟩
def PWR_OP_STAT_ON_IRC : Fld := ⟨0x044, 4, 4, .ro, 0x1⟩
def PWR_OP_STAT_OP : Fld := ⟨0x044, 2, 0, .ro, 0x4⟩
def PWR_VFAB_NOW_MV : Fld := ⟨0x048, 31, 16, .ro, 0x2EE⟩
def PWR_VFAB_TARGET_MV : Fld := ⟨0x048, 15, 0, .rw, 0x2EE⟩
def PWR_GOV_CFG_TJ_LIMIT : Fld := ⟨0x04C, 31, 24, .rw, 0x5F⟩
def PWR_GOV_CFG_OP_MIN : Fld := ⟨0x04C, 18, 16, .rw, 0x0⟩
def PWR_GOV_CFG_VFAB_FLOOR_MV : Fld := ⟨0x04C, 9, 0, .rw, 0x258⟩
def PWR_CAP_CAP_W : Fld := ⟨0x050, 25, 16, .rwl, 0x15E⟩
def PWR_CAP_HYST_W : Fld := ⟨0x050, 5, 0, .rw, 0xA⟩
def PWR_GOV_STAT_POWER_W : Fld := ⟨0x054, 31, 22, .ro, 0x0⟩
def PWR_GOV_STAT_AT_FLOOR : Fld := ⟨0x054, 15, 15, .ro, 0x0⟩
def PWR_GOV_STAT_VFAB_STEPS : Fld := ⟨0x054, 12, 8, .ro, 0x0⟩
def PWR_GOV_STAT_OP_STEPS : Fld := ⟨0x054, 7, 5, .ro, 0x0⟩
def PWR_GOV_STAT_PACING : Fld := ⟨0x054, 4, 4, .ro, 0x0⟩
def PWR_GOV_STAT_SCRUB_SLOW : Fld := ⟨0x054, 3, 3, .ro, 0x0⟩
def PWR_GOV_STAT_SLICES_HELD : Fld := ⟨0x054, 2, 2, .ro, 0x0⟩
def PWR_GOV_STAT_TJ_OVER : Fld := ⟨0x054, 0, 0, .ro, 0x0⟩
def PWR_AVS_ERRS : Fld := ⟨0x058, 31, 16, .cnt, 0x0⟩
def PWR_AVS_SETTLE : Fld := ⟨0x058, 15, 8, .rw, 0x14⟩
def PWR_AVS_SLEW : Fld := ⟨0x058, 7, 0, .rw, 0xA⟩
def PWR_VHALL_OP_MV : Fld := ⟨0x080, 9, 0, .rwl, 0x0⟩

/-! The FMC page (Tables 10.17). -/

def FMC_CFG_REF_LOG : Fld := ⟨0x040, 28, 24, .rw, 0xE⟩
def FMC_CFG_SUBSEL : Fld := ⟨0x040, 20, 16, .rw, 0x0⟩
def FMC_CFG_REF_SRC : Fld := ⟨0x040, 7, 4, .rw, 0x3⟩
def FMC_CFG_MEAS_SRC : Fld := ⟨0x040, 3, 0, .rw, 0x5⟩
def FMC_CTRL_GO : Fld := ⟨0x044, 31, 31, .wo, 0x0⟩
def FMC_RESULT_VALID : Fld := ⟨0x048, 31, 31, .ro, 0x0⟩
def FMC_RESULT_BUSY : Fld := ⟨0x048, 30, 30, .ro, 0x0⟩
def FMC_RESULT_STAT : Fld := ⟨0x048, 29, 28, .ro, 0x0⟩
def FMC_RESULT_SEQ : Fld := ⟨0x048, 27, 24, .ro, 0x0⟩
def FMC_RESULT_COUNT : Fld := ⟨0x048, 23, 0, .ro, 0x0⟩

/-! The BST page (Tables 12.3, 12.6). -/

def BST_CTRL_INTERVAL : Fld := ⟨0x040, 23, 16, .rw, 0x7F⟩
def BST_CTRL_MAX_SLICES : Fld := ⟨0x040, 11, 8, .rw, 0x4⟩
def BST_CTRL_PARTS : Fld := ⟨0x040, 7, 4, .rw, 0xF⟩
def BST_CTRL_PERIODIC : Fld := ⟨0x040, 0, 0, .rw, 0x0⟩
def BST_REQ_GO : Fld := ⟨0x044, 31, 31, .wo, 0x0⟩
def BST_REQ_STATUS : Fld := ⟨0x044, 29, 28, .ro, 0x0⟩
def BST_REQ_SEQ : Fld := ⟨0x044, 27, 24, .ro, 0x0⟩
def BST_REQ_REASON : Fld := ⟨0x044, 23, 20, .ro, 0x0⟩
def BST_REQ_ARG : Fld := ⟨0x044, 15, 0, .rw, 0x0⟩
def BST_RESULT0_VALID : Fld := ⟨0x048, 31, 31, .ro, 0x0⟩
def BST_RESULT0_PASS : Fld := ⟨0x048, 30, 30, .ro, 0x0⟩
def BST_RESULT0_SEQ : Fld := ⟨0x048, 27, 24, .ro, 0x0⟩
def BST_RESULT0_COVER : Fld := ⟨0x048, 23, 20, .ro, 0x0⟩
def BST_RESULT0_FAILED : Fld := ⟨0x048, 19, 16, .ro, 0x0⟩
def BST_RESULT0_ROOM : Fld := ⟨0x048, 11, 0, .ro, 0x0⟩
def BST_RESULT1_VALID : Fld := ⟨0x04C, 31, 31, .ro, 0x0⟩
def BST_RESULT1_SEQ : Fld := ⟨0x04C, 27, 24, .ro, 0x0⟩
def BST_RESULT1_DURATION : Fld := ⟨0x04C, 15, 0, .ro, 0x0⟩
def BST_ROUND_TESTED : Fld := ⟨0x050, 31, 20, .ro, 0x0⟩
def BST_ROUND_SKIPPED : Fld := ⟨0x050, 19, 8, .ro, 0x0⟩
def BST_ROUND_ROUNDS : Fld := ⟨0x050, 7, 0, .ro, 0x0⟩
def BST_TEST_SUM_VALID : Fld := ⟨0x054, 31, 31, .ro, 0x0⟩
def BST_TEST_SUM_PASS : Fld := ⟨0x054, 30, 30, .ro, 0x0⟩
def BST_TEST_SUM_HALL_FAIL : Fld := ⟨0x054, 29, 29, .ro, 0x0⟩
def BST_TEST_SUM_STACK_FAIL : Fld := ⟨0x054, 28, 28, .ro, 0x0⟩
def BST_TEST_SUM_SEQ : Fld := ⟨0x054, 27, 24, .ro, 0x0⟩
def BST_TEST_SUM_FAILED_ROOMS : Fld := ⟨0x054, 23, 12, .ro, 0x0⟩
def BST_TEST_SUM_TESTED_ROOMS : Fld := ⟨0x054, 11, 0, .ro, 0x0⟩

/-! The SCR page (Tables 12.4). -/

def SCR_CFG_EN : Fld := ⟨0x040, 16, 16, .rw, 0x1⟩
def SCR_CFG_PASS_MS : Fld := ⟨0x040, 15, 0, .rw, 0x28⟩
def SCR_COUNTS_REPAIRED : Fld := ⟨0x044, 31, 16, .cnt, 0x0⟩
def SCR_COUNTS_ESSENTIAL : Fld := ⟨0x044, 15, 8, .cnt, 0x0⟩
def SCR_COUNTS_UNREPAIRED : Fld := ⟨0x044, 7, 0, .cnt, 0x0⟩
def SCR_LOG_VALID : Fld := ⟨0x048, 31, 31, .ro, 0x0⟩
def SCR_LOG_ESSENTIAL : Fld := ⟨0x048, 30, 30, .ro, 0x0⟩
def SCR_LOG_UNREPAIRED : Fld := ⟨0x048, 29, 29, .ro, 0x0⟩
def SCR_LOG_SEQ : Fld := ⟨0x048, 27, 24, .ro, 0x0⟩
def SCR_LOG_BITS : Fld := ⟨0x048, 23, 20, .ro, 0x0⟩
def SCR_LOG_ROOM : Fld := ⟨0x048, 19, 8, .ro, 0x0⟩
def SCR_LOG_FRAME : Fld := ⟨0x048, 7, 0, .ro, 0x0⟩
def SCR_PASS_PASSES : Fld := ⟨0x04C, 31, 16, .ro, 0x0⟩
def SCR_PASS_LAST_MS : Fld := ⟨0x04C, 15, 0, .ro, 0x0⟩

/-! The PIN page (Tables 14.5, 14.8). -/

def PIN_OUT_DATA : Fld := ⟨0x040, 15, 0, .rw, 0x0⟩
def PIN_SET_DATA : Fld := ⟨0x044, 15, 0, .w1s, 0x0⟩
def PIN_CLR_DATA : Fld := ⟨0x048, 15, 0, .w1c, 0x0⟩
def PIN_OE_EN : Fld := ⟨0x04C, 15, 0, .rw, 0x0⟩
def PIN_IN_LEVEL : Fld := ⟨0x080, 15, 0, .ro, 0x0⟩
def PIN_SDW_OWNER : Fld := ⟨0x090, 31, 16, .rwl, 0x0⟩
def PIN_SDW_ATTACHED : Fld := ⟨0x090, 15, 15, .ro, 0x0⟩
def PIN_SDW_PORTS : Fld := ⟨0x090, 3, 0, .rw, 0x0⟩
def PIN_PORCH_OWNER : Fld := ⟨0x100, 31, 16, .ro, 0x0⟩
def PIN_PORCH_ATTACHED : Fld := ⟨0x100, 15, 15, .ro, 0x0⟩
def PIN_PORCH_DRIVE : Fld := ⟨0x100, 11, 10, .rw, 0x1⟩
def PIN_PORCH_PULL : Fld := ⟨0x100, 9, 8, .rw, 0x0⟩
def PIN_PORCH_GEAR : Fld := ⟨0x100, 5, 4, .rw, 0x0⟩
def PIN_PORCH_PARK : Fld := ⟨0x100, 1, 0, .rw, 0x3⟩
def PIN_PDIR_OUT : Fld := ⟨0x140, 15, 0, .rw, 0x0⟩
def PIN_PSTAT_UNDERRUN : Fld := ⟨0x180, 31, 16, .cnt, 0x0⟩
def PIN_PSTAT_OVERRUN : Fld := ⟨0x180, 15, 0, .cnt, 0x0⟩

/-! The PMX page (Tables 14.5). -/

def PMX_FUNC_F : Fld := ⟨0x040, 31, 0, .rw, 0x0⟩
def PMX_OVL_O : Fld := ⟨0x060, 31, 0, .rw, 0x0⟩
def PMX_CLKOUT_DIV : Fld := ⟨0x070, 31, 24, .rw, 0x0⟩
def PMX_CLKOUT_SUBSEL : Fld := ⟨0x070, 20, 16, .rw, 0x0⟩
def PMX_CLKOUT_SRC : Fld := ⟨0x070, 3, 0, .rw, 0x3⟩

/-! The PINT page (Tables 14.6). -/

def PINT_CFG_WAKE : Fld := ⟨0x040, 7, 7, .rw, 0x0⟩
def PINT_CFG_PORT : Fld := ⟨0x040, 5, 4, .rw, 0x0⟩
def PINT_CFG_MODE : Fld := ⟨0x040, 2, 0, .rw, 0x0⟩

/-! The STW page (Tables 3.11, 3.14, 4.11, 4.12, 4.14). -/

def STW_CMD_GO : Fld := ⟨0x040, 31, 31, .wo, 0x0⟩
def STW_CMD_IMAGE : Fld := ⟨0x040, 4, 4, .wo, 0x0⟩
def STW_CMD_OP : Fld := ⟨0x040, 3, 0, .wo, 0x0⟩
def STW_CMD_ARG_ID : Fld := ⟨0x044, 31, 16, .rw, 0x0⟩
def STW_CMD_ARG_HEAT : Fld := ⟨0x044, 15, 12, .rw, 0x0⟩
def STW_CMD_RESULT_VALID : Fld := ⟨0x048, 31, 31, .ro, 0x0⟩
def STW_CMD_RESULT_BUSY : Fld := ⟨0x048, 30, 30, .ro, 0x0⟩
def STW_CMD_RESULT_SEQ : Fld := ⟨0x048, 27, 24, .ro, 0x0⟩
def STW_CMD_RESULT_HEAT : Fld := ⟨0x048, 23, 20, .ro, 0x0⟩
def STW_CMD_RESULT_CODE : Fld := ⟨0x048, 19, 16, .ro, 0x0⟩
def STW_CMD_RESULT_ID : Fld := ⟨0x048, 15, 0, .ro, 0x0⟩
def STW_CMD_DESC_WORD : Fld := ⟨0x080, 31, 0, .rw, 0x0⟩
def STW_SCHED_AGE : Fld := ⟨0x0C0, 15, 8, .rw, 0x0⟩
def STW_SCHED_AUTO_HINT : Fld := ⟨0x0C0, 0, 0, .rw, 0x1⟩
def STW_POP_ALLOCATED : Fld := ⟨0x0C4, 31, 16, .ro, 0x0⟩
def STW_POP_READY : Fld := ⟨0x0C4, 15, 0, .ro, 0x0⟩
def STW_STALE_HATCH : Fld := ⟨0x0C8, 31, 24, .cnt, 0x0⟩
def STW_STALE_RING : Fld := ⟨0x0C8, 23, 16, .cnt, 0x0⟩
def STW_STALE_MEM : Fld := ⟨0x0C8, 15, 8, .cnt, 0x0⟩
def STW_STALE_DB : Fld := ⟨0x0C8, 7, 0, .cnt, 0x0⟩
def STW_DB_DROP_LOST_NOTICE : Fld := ⟨0x0CC, 31, 16, .cnt, 0x0⟩
def STW_DB_DROP_DROPPED : Fld := ⟨0x0CC, 15, 0, .cnt, 0x0⟩
def STW_FAULT_LAST_VALID : Fld := ⟨0x0D0, 31, 31, .ro, 0x0⟩
def STW_FAULT_LAST_SEQ : Fld := ⟨0x0D0, 27, 24, .ro, 0x0⟩
def STW_FAULT_LAST_HEAT : Fld := ⟨0x0D0, 23, 20, .ro, 0x0⟩
def STW_FAULT_LAST_FAULT : Fld := ⟨0x0D0, 19, 16, .ro, 0x0⟩
def STW_FAULT_LAST_ID : Fld := ⟨0x0D0, 15, 0, .ro, 0x0⟩
def STW_ROOM_MAP_BASE : Fld := ⟨0x400, 22, 0, .ro, 0x0⟩
def STW_ROOM_RETIRE_GO : Fld := ⟨0x404, 31, 31, .wo, 0x0⟩
def STW_ROOM_RETIRE_REASON : Fld := ⟨0x404, 23, 20, .ro, 0x0⟩
def STW_ROOM_RETIRE_STATUS : Fld := ⟨0x404, 19, 18, .ro, 0x0⟩
def STW_ROOM_RETIRE_ROOM : Fld := ⟨0x404, 11, 0, .rw, 0x0⟩

/-! The PGT page (Tables 5.8, 5.13). -/

def PGT_CMD_GO : Fld := ⟨0x040, 31, 31, .wo, 0x0⟩
def PGT_CMD_OP : Fld := ⟨0x040, 3, 0, .wo, 0x0⟩
def PGT_ARG0_ARG : Fld := ⟨0x044, 31, 0, .rw, 0x0⟩
def PGT_ARG1_ARG : Fld := ⟨0x048, 31, 0, .rw, 0x0⟩
def PGT_RESULT_VALID : Fld := ⟨0x04C, 31, 31, .ro, 0x0⟩
def PGT_RESULT_BUSY : Fld := ⟨0x04C, 30, 30, .ro, 0x0⟩
def PGT_RESULT_SEQ : Fld := ⟨0x04C, 29, 26, .ro, 0x0⟩
def PGT_RESULT_CODE : Fld := ⟨0x04C, 25, 22, .ro, 0x0⟩
def PGT_RESULT_VALUE : Fld := ⟨0x04C, 20, 0, .ro, 0x0⟩
def PGT_CS_BASE_BASE : Fld := ⟨0x060, 20, 0, .rwl, 0x0⟩
def PGT_CS_LEN_LEN : Fld := ⟨0x064, 20, 0, .rwl, 0x20000⟩
def PGT_ALOC_CFG_ZPOOL : Fld := ⟨0x070, 23, 16, .rw, 0x20⟩
def PGT_ALOC_CFG_REMOTE : Fld := ⟨0x070, 8, 8, .rw, 0x1⟩
def PGT_ALOC_CFG_LOW_MARK : Fld := ⟨0x070, 7, 0, .rw, 0x10⟩
def PGT_POOL_NS_ZEROED : Fld := ⟨0x074, 31, 24, .ro, 0x0⟩
def PGT_POOL_NS_RECLAIMING : Fld := ⟨0x074, 23, 16, .ro, 0x0⟩
def PGT_POOL_NS_FREE : Fld := ⟨0x074, 15, 0, .ro, 0x0⟩
def PGT_POOL_S_ZEROED : Fld := ⟨0x078, 31, 24, .ro, 0x0⟩
def PGT_POOL_S_RECLAIMING : Fld := ⟨0x078, 23, 16, .ro, 0x0⟩
def PGT_POOL_S_FREE : Fld := ⟨0x078, 15, 0, .ro, 0x0⟩
def PGT_WALK_LAST_VALID : Fld := ⟨0x080, 31, 31, .ro, 0x0⟩
def PGT_WALK_LAST_SEQ : Fld := ⟨0x080, 27, 24, .ro, 0x0⟩
def PGT_WALK_LAST_CAUSE : Fld := ⟨0x080, 23, 20, .ro, 0x0⟩
def PGT_WALK_LAST_HEAT : Fld := ⟨0x080, 19, 16, .ro, 0x0⟩
def PGT_WALK_LAST_ID : Fld := ⟨0x080, 15, 0, .ro, 0x0⟩

/-! The HAT page (Tables 6.8, 6.10). -/

def HAT_CMD_GO : Fld := ⟨0x040, 31, 31, .wo, 0x0⟩
def HAT_CMD_OP : Fld := ⟨0x040, 3, 0, .wo, 0x0⟩
def HAT_ARG_HATCH : Fld := ⟨0x044, 31, 16, .rw, 0x0⟩
def HAT_RESULT_VALID : Fld := ⟨0x048, 31, 31, .ro, 0x0⟩
def HAT_RESULT_BUSY : Fld := ⟨0x048, 30, 30, .ro, 0x0⟩
def HAT_RESULT_SEQ : Fld := ⟨0x048, 27, 24, .ro, 0x0⟩
def HAT_RESULT_CODE : Fld := ⟨0x048, 19, 16, .ro, 0x0⟩
def HAT_RESULT_HATCH : Fld := ⟨0x048, 15, 0, .ro, 0x0⟩
def HAT_DESC_WORD : Fld := ⟨0x060, 31, 0, .rw, 0x0⟩
def HAT_HSEL_HATCH : Fld := ⟨0x080, 15, 0, .rw, 0x0⟩
def HAT_HEAD0_VALID : Fld := ⟨0x084, 31, 31, .ro, 0x0⟩
def HAT_HEAD0_SEQ : Fld := ⟨0x084, 27, 24, .ro, 0x0⟩
def HAT_HEAD0_KIND : Fld := ⟨0x084, 23, 20, .ro, 0x0⟩
def HAT_HEAD0_LEN : Fld := ⟨0x084, 15, 0, .ro, 0x0⟩
def HAT_HEAD1_VALID : Fld := ⟨0x088, 31, 31, .ro, 0x0⟩
def HAT_HEAD1_SEQ : Fld := ⟨0x088, 27, 24, .ro, 0x0⟩
def HAT_HEAD1_HEAT : Fld := ⟨0x088, 23, 20, .ro, 0x0⟩
def HAT_HEAD1_SRC : Fld := ⟨0x088, 15, 0, .ro, 0x0⟩
def HAT_LEVEL_HELD : Fld := ⟨0x08C, 31, 21, .ro, 0x0⟩
def HAT_LEVEL_CREDIT : Fld := ⟨0x08C, 16, 0, .ro, 0x0⟩
def HAT_PTR_TAIL : Fld := ⟨0x090, 31, 16, .ro, 0x0⟩
def HAT_PTR_HEADW : Fld := ⟨0x090, 15, 0, .ro, 0x0⟩
def HAT_REJECTS_BAD_LEN : Fld := ⟨0x0A0, 31, 24, .cnt, 0x0⟩
def HAT_REJECTS_TOO_LONG : Fld := ⟨0x0A0, 23, 16, .cnt, 0x0⟩
def HAT_REJECTS_FULL : Fld := ⟨0x0A0, 15, 8, .cnt, 0x0⟩
def HAT_REJECTS_OTHER : Fld := ⟨0x0A0, 7, 0, .cnt, 0x0⟩
def HAT_UNDERFLOW_COUNT : Fld := ⟨0x0A4, 15, 0, .cnt, 0x0⟩

/-! The MEM page (Tables 5.4, 5.5, 5.14, 12.6). -/

def MEM_STAT_TEMP : Fld := ⟨0x040, 31, 24, .ro, 0x0⟩
def MEM_STAT_LANE_REPAIRS : Fld := ⟨0x040, 15, 8, .ro, 0x0⟩
def MEM_STAT_SELF_REFRESH : Fld := ⟨0x040, 1, 1, .ro, 0x0⟩
def MEM_STAT_TRAINED : Fld := ⟨0x040, 0, 0, .ro, 0x0⟩
def MEM_ECC_CNT_CE2 : Fld := ⟨0x044, 31, 16, .cnt, 0x0⟩
def MEM_ECC_CNT_CE1 : Fld := ⟨0x044, 15, 0, .cnt, 0x0⟩
def MEM_UE_VALID : Fld := ⟨0x048, 31, 31, .ro, 0x0⟩
def MEM_UE_SEQ : Fld := ⟨0x048, 27, 24, .ro, 0x0⟩
def MEM_UE_SOURCE : Fld := ⟨0x048, 23, 20, .ro, 0x0⟩
def MEM_UE_ADDR_SECTOR : Fld := ⟨0x04C, 31, 0, .ro, 0x0⟩
def MEM_PATROL_HOURS : Fld := ⟨0x050, 23, 16, .rw, 0x18⟩
def MEM_PATROL_PASSES : Fld := ⟨0x050, 15, 0, .ro, 0x0⟩
def MEM_RETRAIN_GO : Fld := ⟨0x060, 31, 31, .wo, 0x0⟩
def MEM_RETRAIN_STATUS : Fld := ⟨0x060, 29, 28, .ro, 0x0⟩
def MEM_RETRAIN_SEQ : Fld := ⟨0x060, 27, 24, .ro, 0x0⟩
def MEM_RETRAIN_REASON : Fld := ⟨0x060, 23, 20, .ro, 0x0⟩
def MEM_RETRAIN_ARG : Fld := ⟨0x060, 15, 0, .rw, 0x0⟩
def MEM_RGN_BASE_LIMIT : Fld := ⟨0x100, 31, 16, .rwl, 0x0⟩
def MEM_RGN_BASE_BASE : Fld := ⟨0x100, 15, 0, .rwl, 0x0⟩
def MEM_RGN_CTRL_VALID : Fld := ⟨0x104, 31, 31, .rwl, 0x0⟩
def MEM_RGN_CTRL_WORLD : Fld := ⟨0x104, 30, 30, .rwl, 0x0⟩
def MEM_RGN_CTRL_SHARED : Fld := ⟨0x104, 29, 29, .rwl, 0x0⟩
def MEM_RGN_CTRL_KIND : Fld := ⟨0x104, 28, 26, .rwl, 0x0⟩
def MEM_RGN_CTRL_HOSTACC : Fld := ⟨0x104, 25, 24, .rwl, 0x0⟩
def MEM_RGN_CTRL_ANYFUNC : Fld := ⟨0x104, 9, 9, .rwl, 0x0⟩
def MEM_RGN_CTRL_FUNC : Fld := ⟨0x104, 8, 0, .rwl, 0x0⟩

/-! The WNG page (Tables 2.15, 2.16, 3.15 to 3.18). -/

def WNG_LDR_CFG_LC_FLUSH : Fld := ⟨0x100, 17, 17, .wo, 0x0⟩
def WNG_LDR_CFG_LC_EN : Fld := ⟨0x100, 16, 16, .rw, 0x1⟩
def WNG_LDR_CFG_QUIET_LIMIT_P : Fld := ⟨0x100, 15, 8, .rw, 0xF⟩
def WNG_LDR_CFG_QUIET_LIMIT : Fld := ⟨0x100, 7, 0, .rw, 0xF⟩
def WNG_SWAP_LAST_VALID : Fld := ⟨0x140, 31, 31, .ro, 0x0⟩
def WNG_SWAP_LAST_OUTCOME : Fld := ⟨0x140, 30, 28, .ro, 0x0⟩
def WNG_SWAP_LAST_SEQ : Fld := ⟨0x140, 27, 24, .ro, 0x0⟩
def WNG_SWAP_LAST_DURATION : Fld := ⟨0x140, 23, 0, .ro, 0x0⟩
def WNG_SWAP_COUNT_COUNT : Fld := ⟨0x144, 31, 0, .ro, 0x0⟩
def WNG_SWAP_ERRS_LOAD : Fld := ⟨0x148, 31, 24, .cnt, 0x0⟩
def WNG_SWAP_ERRS_CODE : Fld := ⟨0x148, 23, 16, .cnt, 0x0⟩
def WNG_SWAP_ERRS_QUIET : Fld := ⟨0x148, 15, 8, .cnt, 0x0⟩
def WNG_SWAP_ERRS_DISCARD : Fld := ⟨0x148, 7, 0, .cnt, 0x0⟩
def WNG_LC_HITS_COUNT : Fld := ⟨0x200, 31, 0, .ro, 0x0⟩
def WNG_LC_MISSES_COUNT : Fld := ⟨0x204, 31, 0, .ro, 0x0⟩
def WNG_LC_FILL_PLANES : Fld := ⟨0x208, 24, 16, .ro, 0x0⟩
def WNG_LC_FILL_USED_KIB : Fld := ⟨0x208, 12, 0, .ro, 0x0⟩
def WNG_ROSC_CTRL_WINDOW : Fld := ⟨0x300, 15, 8, .rw, 0x3⟩
def WNG_ROSC_CTRL_EN : Fld := ⟨0x300, 3, 0, .rw, 0x0⟩
def WNG_ROSC_COUNT_VALID : Fld := ⟨0x310, 31, 31, .ro, 0x0⟩
def WNG_ROSC_COUNT_SEQ : Fld := ⟨0x310, 27, 24, .ro, 0x0⟩
def WNG_ROSC_COUNT_COUNT : Fld := ⟨0x310, 23, 0, .ro, 0x0⟩

/-! The MBS page (Tables 15.7). -/

def MBS_MB_SUM_VALID : Fld := ⟨0x040, 19, 0, .ro, 0x0⟩

/-! The MBX page (Tables 15.7). -/

def MBX_MB_CTRL_SEND : Fld := ⟨0x040, 31, 31, .wo, 0x0⟩
def MBX_MB_CTRL_LEN : Fld := ⟨0x040, 8, 0, .rw, 0x0⟩
def MBX_MB_STAT_VALID : Fld := ⟨0x044, 31, 31, .ro, 0x0⟩
def MBX_MB_STAT_BUSY : Fld := ⟨0x044, 30, 30, .ro, 0x0⟩
def MBX_MB_STAT_SEQ : Fld := ⟨0x044, 27, 24, .ro, 0x0⟩
def MBX_MB_STAT_CODE : Fld := ⟨0x044, 23, 20, .ro, 0x0⟩
def MBX_MB_STAT_RLEN : Fld := ⟨0x044, 8, 0, .ro, 0x0⟩
def MBX_MB_IN_DATA : Fld := ⟨0x400, 31, 0, .rw, 0x0⟩
def MBX_MB_OUT_DATA : Fld := ⟨0x800, 31, 0, .ro, 0x0⟩

/-! The CWN page (Tables 4.1). -/

def CWN_CREW_WORD : Fld := ⟨0x040, 31, 0, .ro, 0x0⟩

/-! The HWN page (Tables 6.10). -/

def HWN_HATCH_WORD : Fld := ⟨0x040, 31, 0, .ro, 0x0⟩

/-! The VFP page (Tables 14.12). -/

def VFP_CREW_CMD_GO : Fld := ⟨0x040, 31, 31, .wo, 0x0⟩
def VFP_CREW_CMD_IMAGE : Fld := ⟨0x040, 4, 4, .wo, 0x0⟩
def VFP_CREW_CMD_OP : Fld := ⟨0x040, 3, 0, .wo, 0x0⟩
def VFP_CREW_ARG_ID : Fld := ⟨0x044, 31, 16, .rw, 0x0⟩
def VFP_CREW_ARG_HEAT : Fld := ⟨0x044, 15, 12, .rw, 0x0⟩
def VFP_CREW_RESULT_VALID : Fld := ⟨0x048, 31, 31, .ro, 0x0⟩
def VFP_CREW_RESULT_BUSY : Fld := ⟨0x048, 30, 30, .ro, 0x0⟩
def VFP_CREW_RESULT_SEQ : Fld := ⟨0x048, 27, 24, .ro, 0x0⟩
def VFP_CREW_RESULT_HEAT : Fld := ⟨0x048, 23, 20, .ro, 0x0⟩
def VFP_CREW_RESULT_CODE : Fld := ⟨0x048, 19, 16, .ro, 0x0⟩
def VFP_CREW_RESULT_ID : Fld := ⟨0x048, 15, 0, .ro, 0x0⟩
def VFP_CREW_DESC_WORD : Fld := ⟨0x080, 31, 0, .rw, 0x0⟩
def VFP_HAT_CMD_GO : Fld := ⟨0x100, 31, 31, .wo, 0x0⟩
def VFP_HAT_CMD_OP : Fld := ⟨0x100, 3, 0, .wo, 0x0⟩
def VFP_HAT_ARG_HATCH : Fld := ⟨0x104, 31, 16, .rw, 0x0⟩
def VFP_HAT_RESULT_VALID : Fld := ⟨0x108, 31, 31, .ro, 0x0⟩
def VFP_HAT_RESULT_BUSY : Fld := ⟨0x108, 30, 30, .ro, 0x0⟩
def VFP_HAT_RESULT_SEQ : Fld := ⟨0x108, 27, 24, .ro, 0x0⟩
def VFP_HAT_RESULT_CODE : Fld := ⟨0x108, 19, 16, .ro, 0x0⟩
def VFP_HAT_RESULT_HATCH : Fld := ⟨0x108, 15, 0, .ro, 0x0⟩
def VFP_HAT_DESC_WORD : Fld := ⟨0x120, 31, 0, .rw, 0x0⟩
def VFP_PGT_CMD_GO : Fld := ⟨0x200, 31, 31, .wo, 0x0⟩
def VFP_PGT_CMD_OP : Fld := ⟨0x200, 3, 0, .wo, 0x0⟩
def VFP_PGT_ARG0_ARG : Fld := ⟨0x204, 31, 0, .rw, 0x0⟩
def VFP_PGT_ARG1_ARG : Fld := ⟨0x208, 31, 0, .rw, 0x0⟩
def VFP_PGT_RESULT_VALID : Fld := ⟨0x20C, 31, 31, .ro, 0x0⟩
def VFP_PGT_RESULT_BUSY : Fld := ⟨0x20C, 30, 30, .ro, 0x0⟩
def VFP_PGT_RESULT_SEQ : Fld := ⟨0x20C, 29, 26, .ro, 0x0⟩
def VFP_PGT_RESULT_CODE : Fld := ⟨0x20C, 25, 22, .ro, 0x0⟩
def VFP_PGT_RESULT_VALUE : Fld := ⟨0x20C, 20, 0, .ro, 0x0⟩
def VFP_VF_IRQ_IRQ : Fld := ⟨0x300, 2, 0, .w1c, 0x0⟩
def VFP_VF_IRQ_EN_EN : Fld := ⟨0x304, 2, 0, .rw, 0x0⟩

/-- The defined registers of each page type beyond the common header. -/
def regRows : PageKind → List RegRow
  | .sys =>
    [⟨0x040, 1, 4, .plain, [SYS_IDCODE]⟩,
     ⟨0x044, 1, 4, .plain, [SYS_PART_GRADE]⟩,
     ⟨0x048, 1, 4, .plain, [SYS_SERIAL_LO_SERIAL]⟩,
     ⟨0x04C, 1, 4, .plain, [SYS_SERIAL_HI_SERIAL]⟩,
     ⟨0x050, 1, 4, .plain, [SYS_MODE_PREV, SYS_MODE_SVC_HOLD, SYS_MODE_TRANSIT, SYS_MODE_ORPHAN, SYS_MODE_MODE]⟩,
     ⟨0x054, 1, 4, .goReg, [SYS_MODE_REQ_STATUS, SYS_MODE_REQ_REASON, SYS_MODE_REQ_GO, SYS_MODE_REQ_TARGET]⟩,
     ⟨0x058, 1, 4, .plain, [SYS_ERR_LAST, SYS_ERR_CODE]⟩,
     ⟨0x05C, 1, 4, .plain, [SYS_ROLE_LOST_ACCESS, SYS_ROLE_LAPSES, SYS_ROLE_LEAD_CONFLICT, SYS_ROLE_LEASE_OK, SYS_ROLE_HALF, SYS_ROLE_LEAD_SEL, SYS_ROLE_LEADER]⟩,
     ⟨0x060, 1, 4, .plain, [SYS_LEASE_EPOCH, SYS_LEASE_AGE]⟩,
     ⟨0x070, 1, 4, .plain, [SYS_XSEL_KIND, SYS_XSEL_INDEX]⟩,
     ⟨0x074, 1, 4, .plain, [SYS_XSTAT_NOT_READY, SYS_XSTAT_LOST, SYS_XSTAT_PENDING, SYS_XSTAT_DROP]⟩,
     ⟨0x090, 1, 4, .plain, [SYS_COX_IMG_DPA]⟩,
     ⟨0x094, 1, 4, .goReg, [SYS_COX_UPD_GO, SYS_COX_UPD_STATUS, SYS_COX_UPD_SEQ, SYS_COX_UPD_REASON, SYS_COX_UPD_ARG]⟩]
  | .cel =>
    [⟨0x040, 1, 4, .plain, [CEL_CTRL_XTAL_EN, CEL_CTRL_TICK, CEL_CTRL_BOOT_TEST]⟩,
     ⟨0x044, 1, 4, .plain, [CEL_STAT_NO_CLOCK, CEL_STAT_TICK_NOW, CEL_STAT_TICK_ESCAPED, CEL_STAT_TICK_REFUSED, CEL_STAT_XTAL_READY, CEL_STAT_ALW_READY]⟩,
     ⟨0x048, 1, 4, .plain, [CEL_WAKE_EN_EN]⟩,
     ⟨0x04C, 1, 4, .result, [CEL_WAKE_CAUSE_VALID, CEL_WAKE_CAUSE_SEQ, CEL_WAKE_CAUSE_CAUSE]⟩,
     ⟨0x050, 1, 4, .plain, [CEL_TIMER_COUNT]⟩,
     ⟨0x080, 8, 4, .plain, [CEL_SCRATCH_DATA]⟩]
  | .sec =>
    [⟨0x040, 8, 4, .plain, [SEC_FN_WORLD_WORLD]⟩,
     ⟨0x060, 1, 4, .result, [SEC_FREEZE_LAST_VALID, SEC_FREEZE_LAST_SEQ, SEC_FREEZE_LAST_KIND, SEC_FREEZE_LAST_CAUSE, SEC_FREEZE_LAST_ID]⟩,
     ⟨0x064, 1, 4, .goReg, [SEC_UNFREEZE_GO, SEC_UNFREEZE_STATUS, SEC_UNFREEZE_SEQ, SEC_UNFREEZE_REASON, SEC_UNFREEZE_KIND, SEC_UNFREEZE_ID]⟩,
     ⟨0x070, 1, 4, .plain, [SEC_DBG_BSCAN_BLOCKED, SEC_DBG_NS_DEBUG]⟩,
     ⟨0x080, 8, 4, .plain, [SEC_KEY_DATA_DATA]⟩,
     ⟨0x0A0, 1, 4, .goReg, [SEC_KEY_CTRL_GO, SEC_KEY_CTRL_STATUS, SEC_KEY_CTRL_SEQ, SEC_KEY_CTRL_REASON, SEC_KEY_CTRL_OP, SEC_KEY_CTRL_BANK, SEC_KEY_CTRL_INDEX]⟩,
     ⟨0x0A4, 1, 4, .portReg, [SEC_KEY_STAT_KCV, SEC_KEY_STAT_SLOTS]⟩]
  | .lcs =>
    [⟨0x040, 1, 4, .plain, [LCS_STATE_PENDING, LCS_STATE_STATE]⟩,
     ⟨0x044, 1, 4, .goReg, [LCS_REQ_GO, LCS_REQ_STATUS, LCS_REQ_SEQ, LCS_REQ_REASON, LCS_REQ_TARGET]⟩,
     ⟨0x048, 1, 4, .plain, [LCS_CERT_DPA]⟩,
     ⟨0x04C, 1, 4, .plain, [LCS_FUSE_ENC_REQUIRED, LCS_FUSE_FALLBACK_EN]⟩]
  | .cfg =>
    [⟨0x040, 1, 4, .plain, [CFG_STAT_SOURCE, CFG_STAT_PHASE, CFG_STAT_STEPS, CFG_STAT_ORDER]⟩,
     ⟨0x044, 1, 4, .plain, [CFG_ERR_FIRST, CFG_ERR_RECORD, CFG_ERR_DETAIL, CFG_ERR_CODE]⟩,
     ⟨0x048, 1, 4, .plain, [CFG_ERR_POS_POS]⟩,
     ⟨0x04C, 1, 4, .plain, [CFG_DEADLINE_MS]⟩,
     ⟨0x050, 1, 4, .plain, [CFG_DMA_LO_ADDR]⟩,
     ⟨0x054, 1, 4, .plain, [CFG_DMA_HI_ADDR]⟩,
     ⟨0x058, 1, 4, .plain, [CFG_DMA_LEN_LEN]⟩,
     ⟨0x05C, 1, 4, .goReg, [CFG_DMA_CTRL_GO, CFG_DMA_CTRL_SEQ, CFG_DMA_CTRL_STATUS, CFG_DMA_CTRL_REASON]⟩,
     ⟨0x060, 1, 4, .plain, [CFG_PROGRESS_BYTES]⟩,
     ⟨0x064, 1, 4, .plain, [CFG_FRAMES_WRITES]⟩,
     ⟨0x068, 1, 4, .plain, [CFG_BUILD_LO_BUILD]⟩,
     ⟨0x06C, 1, 4, .plain, [CFG_BUILD_HI_BUILD]⟩,
     ⟨0x070, 1, 4, .plain, [CFG_CHAIN_FORWARDING, CFG_CHAIN_UNCLAIMED, CFG_CHAIN_DUPS]⟩]
  | .att =>
    [⟨0x040, 1, 4, .plain, [ATT_BOOT_CHAIN_DS, ATT_BOOT_ATTIC_MS, ATT_BOOT_TRY_BOTH, ATT_BOOT_SRC, ATT_BOOT_PRIMARY]⟩,
     ⟨0x050, 1, 4, .plain, [ATT_PROG_SRC_DPA]⟩,
     ⟨0x054, 1, 4, .plain, [ATT_PROG_DST_OFFSET]⟩,
     ⟨0x058, 1, 4, .plain, [ATT_PROG_LEN_LEN]⟩,
     ⟨0x05C, 1, 4, .goReg, [ATT_PROG_CTRL_GO, ATT_PROG_CTRL_BUSY, ATT_PROG_CTRL_SEQ, ATT_PROG_CTRL_CODE, ATT_PROG_CTRL_DONE]⟩,
     ⟨0x060, 1, 4, .goReg, [ATT_REC_CLEAR_GO, ATT_REC_CLEAR_STATUS, ATT_REC_CLEAR_SEQ, ATT_REC_CLEAR_REASON, ATT_REC_CLEAR_WHICH]⟩]
  | .hlk =>
    [⟨0x040, 1, 4, .plain, [HLK_LINK_SPEED, HLK_LINK_WIDTH, HLK_LINK_L1, HLK_LINK_DL_UP]⟩,
     ⟨0x044, 1, 4, .plain, [HLK_CNT_REPLAYS, HLK_CNT_CORR]⟩,
     ⟨0x048, 1, 4, .result, [HLK_FLR_LAST_VALID, HLK_FLR_LAST_SEQ, HLK_FLR_LAST_FUNC]⟩,
     ⟨0x200, 1, 4, .goReg, [HLK_REEQ_GO, HLK_REEQ_STATUS, HLK_REEQ_SEQ, HLK_REEQ_REASON, HLK_REEQ_ARG]⟩,
     ⟨0x400, 256, 4, .plain, [HLK_WIN_BASE]⟩]
  | .crs =>
    [⟨0x040, 1, 4, .plain, [CRS_ID_VALID, CRS_ID_BOW, CRS_ID_ACTING, CRS_ID_RING_ID]⟩,
     ⟨0x044, 1, 4, .plain, [CRS_PORT_STATE, CRS_PORT_E_LINK, CRS_PORT_E_LANES, CRS_PORT_W_LINK, CRS_PORT_W_LANES]⟩,
     ⟨0x048, 1, 4, .plain, [CRS_RING_SIZE, CRS_RING_BREAKS]⟩,
     ⟨0x04C, 1, 4, .plain, [CRS_CFG_HOLD, CRS_CFG_BREAK_HOLD, CRS_CFG_RETRY_GAP, CRS_CFG_INJECT]⟩,
     ⟨0x050, 1, 4, .plain, [CRS_LINK_E_RETRAINS, CRS_LINK_E_REPLAYS]⟩,
     ⟨0x054, 1, 4, .plain, [CRS_LINK_W_RETRAINS, CRS_LINK_W_REPLAYS]⟩,
     ⟨0x058, 1, 4, .plain, [CRS_DROPS_AGED, CRS_DROPS_NO_DEST, CRS_DROPS_FROZEN, CRS_DROPS_STALE]⟩,
     ⟨0x05C, 1, 4, .result, [CRS_REFUSE0_VALID, CRS_REFUSE0_SEQ, CRS_REFUSE0_CODE, CRS_REFUSE0_DST]⟩,
     ⟨0x060, 1, 4, .result, [CRS_REFUSE1_VALID, CRS_REFUSE1_SEQ, CRS_REFUSE1_HEAT, CRS_REFUSE1_CREW]⟩,
     ⟨0x064, 1, 4, .plain, [CRS_PEER_SEL_ID]⟩,
     ⟨0x068, 1, 4, .plain, [CRS_PEER_PRESENT, CRS_PEER_FROZEN, CRS_PEER_POSITION, CRS_PEER_UNREACH, CRS_PEER_RING, CRS_PEER_DIST]⟩,
     ⟨0x06C, 1, 4, .goReg, [CRS_REQ_GO, CRS_REQ_STATUS, CRS_REQ_OP]⟩,
     ⟨0x080, 1, 4, .goReg, [CRS_LANE_GO, CRS_LANE_STATUS, CRS_LANE_SEQ, CRS_LANE_REASON, CRS_LANE_ARG]⟩]
  | .g2c =>
    [⟨0x040, 1, 4, .plain, [G2C_CTRL_RECAL_EN, G2C_CTRL_PROG, G2C_CTRL_SRC, G2C_CTRL_EN]⟩,
     ⟨0x044, 1, 4, .plain, [G2C_STAT_BLOCKED, G2C_STAT_STATE, G2C_STAT_PWR]⟩,
     ⟨0x048, 1, 4, .result, [G2C_LOAD_VALID, G2C_LOAD_SEQ, G2C_LOAD_CODE, G2C_LOAD_FRAMES]⟩,
     ⟨0x04C, 1, 4, .result, [G2C_CAL_VALID, G2C_CAL_SEQ, G2C_CAL_STATUS, G2C_CAL_STEP]⟩,
     ⟨0x050, 1, 4, .plain, [G2C_UPSETS_COUNT]⟩,
     ⟨0x100, 64, 4, .plain, [G2C_REG_VALUE]⟩]
  | .gal =>
    [⟨0x040, 1, 4, .plain, [GAL_LINK_RETRAINS, GAL_LINK_STATE]⟩,
     ⟨0x044, 1, 4, .plain, [GAL_REPLAY_REPLAYS]⟩,
     ⟨0x048, 1, 4, .plain, [GAL_EGRESS_HELD_WRITES, GAL_EGRESS_USED_KIB]⟩]
  | .clk =>
    [⟨0x044, 1, 4, .plain, [CLK_SRC_STAT_FAIL, CLK_SRC_STAT_SVC_SEL, CLK_SRC_STAT_HALL_SEL, CLK_SRC_STAT_READY]⟩,
     ⟨0x048, 1, 4, .goReg, [CLK_SW_GO, CLK_SW_STATUS, CLK_SW_SEQ, CLK_SW_REASON, CLK_SW_SW_ESCAPED, CLK_SW_MUX, CLK_SW_TARGET]⟩,
     ⟨0x04C, 1, 4, .plain, [CLK_MON_WINDOW, CLK_MON_TOL]⟩,
     ⟨0x060, 1, 4, .plain, [CLK_GATE_G2C, CLK_GATE_ATT, CLK_GATE_SCR, CLK_GATE_BST, CLK_GATE_FMC]⟩,
     ⟨0x064, 1, 4, .plain, [CLK_GHOST_COUNT, CLK_GHOST_PAGE]⟩,
     ⟨0x100, 12, 4, .plain, [CLK_PPLL_EN, CLK_PPLL_READY, CLK_PPLL_REF, CLK_PPLL_M, CLK_PPLL_D]⟩]
  | .pwr =>
    [⟨0x040, 1, 4, .goReg, [PWR_OP_REQ_GO, PWR_OP_REQ_STATUS, PWR_OP_REQ_SEQ, PWR_OP_REQ_REASON, PWR_OP_REQ_TARGET]⟩,
     ⟨0x044, 1, 4, .plain, [PWR_OP_STAT_VHALL_MV, PWR_OP_STAT_ON_IRC, PWR_OP_STAT_OP]⟩,
     ⟨0x048, 1, 4, .plain, [PWR_VFAB_NOW_MV, PWR_VFAB_TARGET_MV]⟩,
     ⟨0x04C, 1, 4, .plain, [PWR_GOV_CFG_TJ_LIMIT, PWR_GOV_CFG_OP_MIN, PWR_GOV_CFG_VFAB_FLOOR_MV]⟩,
     ⟨0x050, 1, 4, .plain, [PWR_CAP_CAP_W, PWR_CAP_HYST_W]⟩,
     ⟨0x054, 1, 4, .plain, [PWR_GOV_STAT_POWER_W, PWR_GOV_STAT_AT_FLOOR, PWR_GOV_STAT_VFAB_STEPS, PWR_GOV_STAT_OP_STEPS, PWR_GOV_STAT_PACING, PWR_GOV_STAT_SCRUB_SLOW, PWR_GOV_STAT_SLICES_HELD, PWR_GOV_STAT_TJ_OVER]⟩,
     ⟨0x058, 1, 4, .plain, [PWR_AVS_ERRS, PWR_AVS_SETTLE, PWR_AVS_SLEW]⟩,
     ⟨0x080, 8, 4, .plain, [PWR_VHALL_OP_MV]⟩]
  | .fmc =>
    [⟨0x040, 1, 4, .plain, [FMC_CFG_REF_LOG, FMC_CFG_SUBSEL, FMC_CFG_REF_SRC, FMC_CFG_MEAS_SRC]⟩,
     ⟨0x044, 1, 4, .goReg, [FMC_CTRL_GO]⟩,
     ⟨0x048, 1, 4, .portReg, [FMC_RESULT_VALID, FMC_RESULT_BUSY, FMC_RESULT_STAT, FMC_RESULT_SEQ, FMC_RESULT_COUNT]⟩]
  | .bst =>
    [⟨0x040, 1, 4, .plain, [BST_CTRL_INTERVAL, BST_CTRL_MAX_SLICES, BST_CTRL_PARTS, BST_CTRL_PERIODIC]⟩,
     ⟨0x044, 1, 4, .goReg, [BST_REQ_GO, BST_REQ_STATUS, BST_REQ_SEQ, BST_REQ_REASON, BST_REQ_ARG]⟩,
     ⟨0x048, 1, 4, .result, [BST_RESULT0_VALID, BST_RESULT0_PASS, BST_RESULT0_SEQ, BST_RESULT0_COVER, BST_RESULT0_FAILED, BST_RESULT0_ROOM]⟩,
     ⟨0x04C, 1, 4, .result, [BST_RESULT1_VALID, BST_RESULT1_SEQ, BST_RESULT1_DURATION]⟩,
     ⟨0x050, 1, 4, .plain, [BST_ROUND_TESTED, BST_ROUND_SKIPPED, BST_ROUND_ROUNDS]⟩,
     ⟨0x054, 1, 4, .plain, [BST_TEST_SUM_VALID, BST_TEST_SUM_PASS, BST_TEST_SUM_HALL_FAIL, BST_TEST_SUM_STACK_FAIL, BST_TEST_SUM_SEQ, BST_TEST_SUM_FAILED_ROOMS, BST_TEST_SUM_TESTED_ROOMS]⟩]
  | .scr =>
    [⟨0x040, 1, 4, .plain, [SCR_CFG_EN, SCR_CFG_PASS_MS]⟩,
     ⟨0x044, 1, 4, .plain, [SCR_COUNTS_REPAIRED, SCR_COUNTS_ESSENTIAL, SCR_COUNTS_UNREPAIRED]⟩,
     ⟨0x048, 1, 4, .result, [SCR_LOG_VALID, SCR_LOG_ESSENTIAL, SCR_LOG_UNREPAIRED, SCR_LOG_SEQ, SCR_LOG_BITS, SCR_LOG_ROOM, SCR_LOG_FRAME]⟩,
     ⟨0x04C, 1, 4, .plain, [SCR_PASS_PASSES, SCR_PASS_LAST_MS]⟩]
  | .pin =>
    [⟨0x040, 4, 16, .plain, [PIN_OUT_DATA]⟩,
     ⟨0x044, 4, 16, .plain, [PIN_SET_DATA]⟩,
     ⟨0x048, 4, 16, .plain, [PIN_CLR_DATA]⟩,
     ⟨0x04C, 4, 16, .plain, [PIN_OE_EN]⟩,
     ⟨0x080, 4, 4, .plain, [PIN_IN_LEVEL]⟩,
     ⟨0x090, 1, 4, .plain, [PIN_SDW_OWNER, PIN_SDW_ATTACHED, PIN_SDW_PORTS]⟩,
     ⟨0x100, 12, 4, .plain, [PIN_PORCH_OWNER, PIN_PORCH_ATTACHED, PIN_PORCH_DRIVE, PIN_PORCH_PULL, PIN_PORCH_GEAR, PIN_PORCH_PARK]⟩,
     ⟨0x140, 12, 4, .plain, [PIN_PDIR_OUT]⟩,
     ⟨0x180, 12, 4, .plain, [PIN_PSTAT_UNDERRUN, PIN_PSTAT_OVERRUN]⟩]
  | .pmx =>
    [⟨0x040, 8, 4, .plain, [PMX_FUNC_F]⟩,
     ⟨0x060, 4, 4, .plain, [PMX_OVL_O]⟩,
     ⟨0x070, 1, 4, .plain, [PMX_CLKOUT_DIV, PMX_CLKOUT_SUBSEL, PMX_CLKOUT_SRC]⟩]
  | .pint =>
    [⟨0x040, 16, 4, .plain, [PINT_CFG_WAKE, PINT_CFG_PORT, PINT_CFG_MODE]⟩]
  | .stw =>
    [⟨0x040, 1, 4, .goReg, [STW_CMD_GO, STW_CMD_IMAGE, STW_CMD_OP]⟩,
     ⟨0x044, 1, 4, .plain, [STW_CMD_ARG_ID, STW_CMD_ARG_HEAT]⟩,
     ⟨0x048, 1, 4, .portReg, [STW_CMD_RESULT_VALID, STW_CMD_RESULT_BUSY, STW_CMD_RESULT_SEQ, STW_CMD_RESULT_HEAT, STW_CMD_RESULT_CODE, STW_CMD_RESULT_ID]⟩,
     ⟨0x080, 16, 4, .plain, [STW_CMD_DESC_WORD]⟩,
     ⟨0x0C0, 1, 4, .plain, [STW_SCHED_AGE, STW_SCHED_AUTO_HINT]⟩,
     ⟨0x0C4, 1, 4, .plain, [STW_POP_ALLOCATED, STW_POP_READY]⟩,
     ⟨0x0C8, 1, 4, .plain, [STW_STALE_HATCH, STW_STALE_RING, STW_STALE_MEM, STW_STALE_DB]⟩,
     ⟨0x0CC, 1, 4, .plain, [STW_DB_DROP_LOST_NOTICE, STW_DB_DROP_DROPPED]⟩,
     ⟨0x0D0, 1, 4, .result, [STW_FAULT_LAST_VALID, STW_FAULT_LAST_SEQ, STW_FAULT_LAST_HEAT, STW_FAULT_LAST_FAULT, STW_FAULT_LAST_ID]⟩,
     ⟨0x400, 1, 4, .plain, [STW_ROOM_MAP_BASE]⟩,
     ⟨0x404, 1, 4, .goReg, [STW_ROOM_RETIRE_GO, STW_ROOM_RETIRE_REASON, STW_ROOM_RETIRE_STATUS, STW_ROOM_RETIRE_ROOM]⟩]
  | .pgt =>
    [⟨0x040, 1, 4, .goReg, [PGT_CMD_GO, PGT_CMD_OP]⟩,
     ⟨0x044, 1, 4, .plain, [PGT_ARG0_ARG]⟩,
     ⟨0x048, 1, 4, .plain, [PGT_ARG1_ARG]⟩,
     ⟨0x04C, 1, 4, .portReg, [PGT_RESULT_VALID, PGT_RESULT_BUSY, PGT_RESULT_SEQ, PGT_RESULT_CODE, PGT_RESULT_VALUE]⟩,
     ⟨0x060, 1, 4, .plain, [PGT_CS_BASE_BASE]⟩,
     ⟨0x064, 1, 4, .plain, [PGT_CS_LEN_LEN]⟩,
     ⟨0x070, 1, 4, .plain, [PGT_ALOC_CFG_ZPOOL, PGT_ALOC_CFG_REMOTE, PGT_ALOC_CFG_LOW_MARK]⟩,
     ⟨0x074, 1, 4, .plain, [PGT_POOL_NS_ZEROED, PGT_POOL_NS_RECLAIMING, PGT_POOL_NS_FREE]⟩,
     ⟨0x078, 1, 4, .plain, [PGT_POOL_S_ZEROED, PGT_POOL_S_RECLAIMING, PGT_POOL_S_FREE]⟩,
     ⟨0x080, 1, 4, .result, [PGT_WALK_LAST_VALID, PGT_WALK_LAST_SEQ, PGT_WALK_LAST_CAUSE, PGT_WALK_LAST_HEAT, PGT_WALK_LAST_ID]⟩]
  | .hat =>
    [⟨0x040, 1, 4, .goReg, [HAT_CMD_GO, HAT_CMD_OP]⟩,
     ⟨0x044, 1, 4, .plain, [HAT_ARG_HATCH]⟩,
     ⟨0x048, 1, 4, .portReg, [HAT_RESULT_VALID, HAT_RESULT_BUSY, HAT_RESULT_SEQ, HAT_RESULT_CODE, HAT_RESULT_HATCH]⟩,
     ⟨0x060, 8, 4, .plain, [HAT_DESC_WORD]⟩,
     ⟨0x080, 1, 4, .plain, [HAT_HSEL_HATCH]⟩,
     ⟨0x084, 1, 4, .result, [HAT_HEAD0_VALID, HAT_HEAD0_SEQ, HAT_HEAD0_KIND, HAT_HEAD0_LEN]⟩,
     ⟨0x088, 1, 4, .result, [HAT_HEAD1_VALID, HAT_HEAD1_SEQ, HAT_HEAD1_HEAT, HAT_HEAD1_SRC]⟩,
     ⟨0x08C, 1, 4, .plain, [HAT_LEVEL_HELD, HAT_LEVEL_CREDIT]⟩,
     ⟨0x090, 1, 4, .plain, [HAT_PTR_TAIL, HAT_PTR_HEADW]⟩,
     ⟨0x0A0, 1, 4, .plain, [HAT_REJECTS_BAD_LEN, HAT_REJECTS_TOO_LONG, HAT_REJECTS_FULL, HAT_REJECTS_OTHER]⟩,
     ⟨0x0A4, 1, 4, .plain, [HAT_UNDERFLOW_COUNT]⟩]
  | .mem =>
    [⟨0x040, 1, 4, .plain, [MEM_STAT_TEMP, MEM_STAT_LANE_REPAIRS, MEM_STAT_SELF_REFRESH, MEM_STAT_TRAINED]⟩,
     ⟨0x044, 1, 4, .plain, [MEM_ECC_CNT_CE2, MEM_ECC_CNT_CE1]⟩,
     ⟨0x048, 1, 4, .result, [MEM_UE_VALID, MEM_UE_SEQ, MEM_UE_SOURCE]⟩,
     ⟨0x04C, 1, 4, .result, [MEM_UE_ADDR_SECTOR]⟩,
     ⟨0x050, 1, 4, .plain, [MEM_PATROL_HOURS, MEM_PATROL_PASSES]⟩,
     ⟨0x060, 1, 4, .goReg, [MEM_RETRAIN_GO, MEM_RETRAIN_STATUS, MEM_RETRAIN_SEQ, MEM_RETRAIN_REASON, MEM_RETRAIN_ARG]⟩,
     ⟨0x100, 16, 8, .plain, [MEM_RGN_BASE_LIMIT, MEM_RGN_BASE_BASE]⟩,
     ⟨0x104, 16, 8, .plain, [MEM_RGN_CTRL_VALID, MEM_RGN_CTRL_WORLD, MEM_RGN_CTRL_SHARED, MEM_RGN_CTRL_KIND, MEM_RGN_CTRL_HOSTACC, MEM_RGN_CTRL_ANYFUNC, MEM_RGN_CTRL_FUNC]⟩]
  | .wng =>
    [⟨0x100, 1, 4, .plain, [WNG_LDR_CFG_LC_FLUSH, WNG_LDR_CFG_LC_EN, WNG_LDR_CFG_QUIET_LIMIT_P, WNG_LDR_CFG_QUIET_LIMIT]⟩,
     ⟨0x140, 1, 4, .result, [WNG_SWAP_LAST_VALID, WNG_SWAP_LAST_OUTCOME, WNG_SWAP_LAST_SEQ, WNG_SWAP_LAST_DURATION]⟩,
     ⟨0x144, 1, 4, .plain, [WNG_SWAP_COUNT_COUNT]⟩,
     ⟨0x148, 1, 4, .plain, [WNG_SWAP_ERRS_LOAD, WNG_SWAP_ERRS_CODE, WNG_SWAP_ERRS_QUIET, WNG_SWAP_ERRS_DISCARD]⟩,
     ⟨0x200, 1, 4, .plain, [WNG_LC_HITS_COUNT]⟩,
     ⟨0x204, 1, 4, .plain, [WNG_LC_MISSES_COUNT]⟩,
     ⟨0x208, 1, 4, .plain, [WNG_LC_FILL_PLANES, WNG_LC_FILL_USED_KIB]⟩,
     ⟨0x300, 1, 4, .plain, [WNG_ROSC_CTRL_WINDOW, WNG_ROSC_CTRL_EN]⟩,
     ⟨0x310, 4, 4, .result, [WNG_ROSC_COUNT_VALID, WNG_ROSC_COUNT_SEQ, WNG_ROSC_COUNT_COUNT]⟩]
  | .mbs =>
    [⟨0x040, 1, 4, .plain, [MBS_MB_SUM_VALID]⟩]
  | .mbx =>
    [⟨0x040, 1, 4, .goReg, [MBX_MB_CTRL_SEND, MBX_MB_CTRL_LEN]⟩,
     ⟨0x044, 1, 4, .portReg, [MBX_MB_STAT_VALID, MBX_MB_STAT_BUSY, MBX_MB_STAT_SEQ, MBX_MB_STAT_CODE, MBX_MB_STAT_RLEN]⟩,
     ⟨0x400, 256, 4, .plain, [MBX_MB_IN_DATA]⟩,
     ⟨0x800, 256, 4, .plain, [MBX_MB_OUT_DATA]⟩]
  | .cwn =>
    [⟨0x040, 512, 4, .plain, [CWN_CREW_WORD]⟩]
  | .hwn =>
    [⟨0x040, 512, 4, .plain, [HWN_HATCH_WORD]⟩]
  | .vfp =>
    [⟨0x040, 1, 4, .goReg, [VFP_CREW_CMD_GO, VFP_CREW_CMD_IMAGE, VFP_CREW_CMD_OP]⟩,
     ⟨0x044, 1, 4, .plain, [VFP_CREW_ARG_ID, VFP_CREW_ARG_HEAT]⟩,
     ⟨0x048, 1, 4, .portReg, [VFP_CREW_RESULT_VALID, VFP_CREW_RESULT_BUSY, VFP_CREW_RESULT_SEQ, VFP_CREW_RESULT_HEAT, VFP_CREW_RESULT_CODE, VFP_CREW_RESULT_ID]⟩,
     ⟨0x080, 16, 4, .plain, [VFP_CREW_DESC_WORD]⟩,
     ⟨0x100, 1, 4, .goReg, [VFP_HAT_CMD_GO, VFP_HAT_CMD_OP]⟩,
     ⟨0x104, 1, 4, .plain, [VFP_HAT_ARG_HATCH]⟩,
     ⟨0x108, 1, 4, .portReg, [VFP_HAT_RESULT_VALID, VFP_HAT_RESULT_BUSY, VFP_HAT_RESULT_SEQ, VFP_HAT_RESULT_CODE, VFP_HAT_RESULT_HATCH]⟩,
     ⟨0x120, 8, 4, .plain, [VFP_HAT_DESC_WORD]⟩,
     ⟨0x200, 1, 4, .goReg, [VFP_PGT_CMD_GO, VFP_PGT_CMD_OP]⟩,
     ⟨0x204, 1, 4, .plain, [VFP_PGT_ARG0_ARG]⟩,
     ⟨0x208, 1, 4, .plain, [VFP_PGT_ARG1_ARG]⟩,
     ⟨0x20C, 1, 4, .portReg, [VFP_PGT_RESULT_VALID, VFP_PGT_RESULT_BUSY, VFP_PGT_RESULT_SEQ, VFP_PGT_RESULT_CODE, VFP_PGT_RESULT_VALUE]⟩,
     ⟨0x300, 1, 4, .plain, [VFP_VF_IRQ_IRQ]⟩,
     ⟨0x304, 1, 4, .plain, [VFP_VF_IRQ_EN_EN]⟩]

/-- The entry of a list of registers that holds an offset. -/
def rowAt (o : Nat) (rows : List RegRow) : Option RegRow :=
  rows.find? fun r => r.off ≤ o && (o - r.off) % r.stride == 0 && (o - r.off) / r.stride < r.n

/-- The register at an offset of a page, header or body (R447: nothing where none is defined). -/
def regAt (p o : Nat) : Option RegRow :=
  match pageKind p with
  | .vfp => rowAt o (regRows .vfp)
  | k => if o < 0x40 then rowAt o headRows else rowAt o (regRows k)

/-- The reset word of a register: its fields' reset values in place. -/
def RegRow.resetWord (r : RegRow) : Nat := r.fields.foldl (fun a f => a + f.rst <<< f.lo) 0

/-- MEM.RGN_BASEn or MEM.RGN_CTRLn of a stack at reset (Table 5.6). -/
def rgnReset (stack n : Nat) (ctrl : Bool) : Nat :=
  let base := 0x4000 * stack
  let word (b l c : Nat) : Nat := if ctrl then c else (base + l) <<< 16 + (base + b)
  if stack % 2 = 0 then
    match n with
    | 0 => word 0x0000 0x0007 0xC4000000
    | 1 => word 0x0008 0x1007 0x88000000
    | 2 => word 0x1008 0x3FFF 0x8C000000
    | _ => 0
  else
    match n with
    | 0 => word 0x0000 0x3FFF 0x8C000000
    | _ => 0

/-- A register's reset value (Tables 15.2, 5.6, 5.8 and each page's table; SYS.ROLE.HALF is fused at package assembly,
R15). `a` is the BAR0 byte offset of the word. DESIGN CHOICE, unsafe: notes/assumptions/6. -/
def regReset (a : Nat) : Word :=
  let p := a / 0x1000
  let o := a % 0x1000
  BitVec.ofNat 32 <|
    match pageKind p with
    | .vfp => (rowAt o (regRows .vfp)).elim 0 RegRow.resetWord
    | k =>
      if o = 0 then k.type <<< 16 + pageInstance p <<< 8 + 1
      else if o = 4 then 0x0100
      else if o = 0x14 ∧ k = .clk then 1
      else if o = 0x1C then (worldFixed p).getD 0
      else if o < 0x40 then (rowAt o headRows).elim 0 RegRow.resetWord
      else if p = 1 ∧ o = 0x5C then 0x4
      else if k = .pgt ∧ o = 0x60 then (if p % 2 = 0 then 0x00100 else 0x100100)
      else if k = .mem ∧ 0x100 ≤ o ∧ o < 0x180 then rgnReset (p - 34) ((o - 0x100) / 8) (o % 8 = 4)
      else (rowAt o (regRows k)).elim 0 RegRow.resetWord

end Sys2Proof.Machine
end

