-- ==== Sys2Proof/Machine/Tbl.lean ====
section
/-! DEFINITION. Sparse tables in one canonical form: keys strictly rising. A store that takes a default drops the
entry that would hold it, so that equal tables are equal data. -/

namespace Sys2Proof.Machine.Tbl

variable {V : Type}

/-- What a table holds at a key. -/
def find : Tbl V → Nat → Option V
  | [], _ => none
  | (j, v) :: t, k => if j = k then some v else find t k

/-- Set the entry of a key. -/
def put : Tbl V → Nat → V → Tbl V
  | [], k, x => [(k, x)]
  | (j, v) :: t, k, x => if j = k then (k, x) :: t else if k < j then (k, x) :: (j, v) :: t else (j, v) :: put t k x

/-- Remove the entry of a key. -/
def del : Tbl V → Nat → Tbl V
  | [], _ => []
  | (j, v) :: t, k => if j = k then del t k else (j, v) :: del t k

/-- The value at a key, `d` where the table lists none. DESIGN CHOICE, unsafe: notes/assumptions/9. -/
def get (t : Tbl V) (d : V) (k : Nat) : V := (find t k).getD d

/-- Set a key, eliding the default. -/
def store [DecidableEq V] (t : Tbl V) (d : V) (k : Nat) (x : V) : Tbl V := if x = d then del t k else put t k x

/-- Change the entry of a key, if it is listed. -/
def mod (t : Tbl V) (k : Nat) (f : V → V) : Tbl V :=
  match find t k with
  | some v => put t k (f v)
  | none => t

/-- Keep the entries whose key and value pass. -/
def keep (t : Tbl V) (p : Nat → V → Bool) : Tbl V := t.filter fun e => p e.1 e.2

/-- Change every entry. -/
def mapAll (t : Tbl V) (f : Nat → V → V) : Tbl V := t.map fun e => (e.1, f e.1 e.2)

/-- Every key lies above `b`, and the keys rise. -/
def above : Nat → Tbl V → Bool
  | _, [] => true
  | b, (k, _) :: t => decide (b < k) && above k t

/-- The canonical form: keys strictly rising. -/
def wf : Tbl V → Bool
  | [] => true
  | (k, _) :: t => above k t

end Sys2Proof.Machine.Tbl
end

