-- ==== Sys2Proof/Machine/Bits.lean ====
section
/-! DEFINITION. Bit fields of words, little-endian bytes, and runs of bytes in a sparse table. -/

namespace Sys2Proof.Machine

/-- The value of a field in a word. -/
def Fld.get (f : Fld) (w : Word) : Nat := w.toNat / 2 ^ f.lo % 2 ^ (f.hi - f.lo + 1)

/-- The word with a field set to the low bits of a value. -/
def Fld.put (f : Fld) (v : Nat) (w : Word) : Word :=
  BitVec.ofNat 32
    (w.toNat % 2 ^ f.lo + v % 2 ^ (f.hi - f.lo + 1) * 2 ^ f.lo + w.toNat / 2 ^ (f.hi + 1) * 2 ^ (f.hi + 1))

/-- The greatest value a field holds. -/
def Fld.max (f : Fld) : Nat := 2 ^ (f.hi - f.lo + 1) - 1

/-- Bits `hi` to `lo` of a number. -/
def bits (n hi lo : Nat) : Nat := n / 2 ^ lo % 2 ^ (hi - lo + 1)

/-- A Boolean as a bit. -/
def bit (b : Bool) : Nat := if b then 1 else 0

/-- A number with one bit set or cleared. -/
def setBit (n i : Nat) (b : Bool) : Nat :=
  if n.testBit i then (if b then n else n - 2 ^ i) else (if b then n + 2 ^ i else n)

/-- The number that bytes spell, least significant byte first. -/
def leNat : List Byte → Nat
  | [] => 0
  | b :: bs => b.toNat + 256 * leNat bs

/-- The `n` bytes of a number, least significant first. -/
def leBytes : Nat → Nat → List Byte
  | 0, _ => []
  | n + 1, v => BitVec.ofNat 8 v :: leBytes n (v / 256)

/-- Byte `i` of a list, 0 beyond its end. -/
def byteAt (bs : List Byte) (i : Nat) : Byte := bs.getD i 0

/-- The little-endian number in `n` bytes from offset `i` of a list. -/
def leAt (bs : List Byte) (i n : Nat) : Nat := leNat ((bs.drop i).take n)

/-- One byte through CRC-16: polynomial 0x1021, no reflection, no final inversion (R294, R389). -/
def crc16Byte (c : Nat) (b : Byte) : Nat :=
  (List.range 8).foldl (fun c _ => if c.testBit 15 then c * 2 % 0x10000 ^^^ 0x1021 else c * 2) (c ^^^ b.toNat * 256)

/-- CRC-16 of bytes, initial value 0xFFFF. -/
def crc16 (bs : List Byte) : Nat := bs.foldl crc16Byte 0xFFFF

namespace Tbl

variable {V : Type}

/-- The entries of `n` keys from `a`, renumbered from 0. -/
def slice (t : Tbl V) (a n : Nat) : Tbl V :=
  (t.filter fun e => a ≤ e.1 && e.1 < a + n).map fun e => (e.1 - a, e.2)

/-- The table with the `n` keys from `a` replaced by the entries of `src` below `n`, renumbered from `a`. -/
def splice (t : Tbl V) (a n : Nat) (src : Tbl V) : Tbl V :=
  (t.filter fun e => e.1 < a) ++ ((src.filter fun e => e.1 < n).map fun e => (e.1 + a, e.2)) ++
    t.filter fun e => a + n ≤ e.1

/-- The canonical form of a table of bytes: keys strictly rising, no byte of 0. -/
def norm (t : Tbl Byte) : Tbl Byte := t.foldr (fun e r => store r 0 e.1 e.2) []

/-- Bytes from a key, unlisted bytes 0. -/
def bytes (t : Tbl Byte) (a : Nat) : Nat → List Byte
  | 0 => []
  | n + 1 => get t 0 a :: bytes t (a + 1) n

/-- Bytes stored from a key, 0 elided. -/
def putBytes (t : Tbl Byte) (a : Nat) : List Byte → Tbl Byte
  | [] => t
  | b :: bs => store (putBytes t (a + 1) bs) 0 a b

end Tbl

/-- The CRC-8 of SMBus (x^8 + x^2 + x + 1), which its Packet Error Code is. PRESUMED, unsafe: notes/assumptions/30. -/
def crc8 (l : List Byte) : Byte :=
  l.foldl (fun c b => (List.range 8).foldl (fun (x : Byte) _ => if x.getLsbD 7 then (x <<< 1) ^^^ 7#8 else x <<< 1) (c ^^^ b)) 0

end Sys2Proof.Machine
end

