-- ==== Sys2Proof/Machine/State.lean ====
section
/-! DEFINITION. The state of the block, as plain data: every register, table, buffer, counter, mode and pin that the
spec gives the device, the queue of commands that wait, and three fields of the model's own (`pending`, `out` and
`draws`; notes/assumptions 1 to 3). -/

namespace Sys2Proof.Machine

/-- Why the block stops. Nothing the spec gives stops it: no meaning answers with this constructor, and a theorem
that says so is safe. DESIGN CHOICE, unsafe: notes/assumptions/4. -/
inductive Fault where
  /-- Raised by no command: every command of the table has an effect (notes/assumptions 4). Safe. -/
  | noEffectGiven
  deriving DecidableEq, Repr

/-- Why a command has no meaning. -/
inductive Refusal where
  /-- A command that has no meaning yet, by its mnemonic; raised by an arm of `exec` alone. Safe. -/
  | notModelled (mnemonic : String)
  deriving DecidableEq, Repr

/-- One value for each half. -/
structure Both (α : Type) where
  east : α
  west : α
  deriving DecidableEq, Repr

def Both.get {α : Type} (b : Both α) : Half → α
  | .east => b.east
  | .west => b.west

def Both.set {α : Type} (b : Both α) (h : Half) (x : α) : Both α :=
  match h with
  | .east => { b with east := x }
  | .west => { b with west := x }

/-- How a request of a host or master ends: data, a plain completion, Unsupported Request, Request Retry Status. -/
inductive Reply where
  | data (bytes : List Byte)
  | word (w : Word)
  | done
  | unsupported
  | retry
  | poisoned
  deriving DecidableEq, Repr

/-- What the block sends to the outside (the model's own record, newest first; notes/assumptions 2).
DESIGN CHOICE, safe: notes/assumptions/2. -/
inductive Emission where
  /-- A completion of a request of a host function or of a cox. -/
  | completion (dest : Master) (r : Reply)
  /-- An MSI-X message of a function; a page's vector is its page number (R442). -/
  | msix (fn vector : Nat)
  /-- An event delivered to the cox of a half: page and PG_IRQ_RAW bit (R451). -/
  | coxEvent (h : Half) (page bit : Nat)
  /-- A non-maskable event of a half's cox (R335). -/
  | coxNmi (h : Half)
  /-- An event that the freezing of a master raises to the leader's secure cox (R407). -/
  | secureEvent (kind cause id : Nat)
  /-- A message handed to a cox by MB_SEND: page and words (R457). -/
  | coxMessage (page : Nat) (words : List Word)
  /-- A write to host memory (R197, R204). -/
  | hostWrite (fn addr : Nat) (bytes : List Byte) (poison : Bool)
  /-- A read of host memory (R281). -/
  | hostRead (addr len : Nat)
  /-- A token that the fabric or a user channel receives: room, port, bits. -/
  | token (room port : Nat) (bits : Nat)
  /-- A response of a memory window: crew, tag, bytes. -/
  | windowData (crew tag : Nat) (bytes : List Byte)
  /-- A RETRY response of a memory window: crew, suite position, window tag (R103). -/
  | windowRetry (crew pos tag : Nat)
  /-- A notice that a hatch port presents to its crew (R203). -/
  | hatchNotice (hatch : Nat) (bytes : List Byte)
  /-- A word that a hatch port delivers to its crew. -/
  | hatchWord (hatch : Nat) (bytes : List Byte)
  /-- The answer to a push (Table 6.4): crew, hatch, code. -/
  | pushCode (crew hatch code : Nat)
  /-- A flit sent on a Course link, west port or east. -/
  | flit (westPort : Bool) (f : Flit)
  /-- A segment put on a ring. -/
  | segment (s : Segment)
  /-- A ring control message: type (Table 7.2), ring B, payload. -/
  | ringCtl (typ : Nat) (ringB : Bool) (payload : List Nat)
  /-- A message between the halves: kind and contents. -/
  | gallery (frm : Half) (kind : Nat) (payload : List Nat)
  /-- An AVSBus voltage write: rail 0 for VHALL, 1 for VFAB, millivolts (R346). -/
  | avs (h : Half) (rail mv : Nat)
  /-- An SMBus reply; nothing is a NACK (R436). -/
  | smbus (reply : Option (List Byte))
  /-- What the TAP shifts out or does to the pins (R419, R420). -/
  | tap (what : Nat) (bits : List Bool)
  /-- A byte token presented to the fabric by a porch, or driven on its pins (R432). -/
  | porch (index : Nat) (toFabric : Bool) (token : Nat)
  /-- A 64-bit snapshot of the service pins presented on a service doorway (R428). -/
  | snapshot (h : Half) (bits : Nat)
  /-- The G2 host port strobes: whether the overlay of PB2 pulls STB low (R292), and the byte that the port drives on D for a
  read (R307). -/
  | g2Strobe (stb : Bool) (d : Option Byte)
  deriving DecidableEq, Repr

/-! ## What stays without power, or is set outside -/

/-- A key slot's state (Table 13.9, KEY_STAT.SLOTS). -/
inductive KeyState where
  | empty | valid | zeroised | lost
  deriving DecidableEq, Repr

/-- A key slot (R415 to R418). No master can read the key. -/
structure KeySlot where
  state : KeyState
  key   : BitVec 256
  deriving DecidableEq, Repr

/-- The fuses (R5, R344, R412, R414, R454): read into the halves at BOOT step 2 (R369).
DESIGN CHOICE, unsafe: notes/assumptions/6. -/
structure Fuses where
  /-- SYS.PART.GRADE. -/
  grade        : Nat
  /-- The die serial of each half. -/
  serial       : Both Nat
  /-- The rooms that failed factory test. -/
  retired      : List Nat
  /-- The life-cycle state in the fuses, Table 13.6. -/
  lifeCycle    : Nat
  fallbackEn   : Bool
  encRequired  : Bool
  /-- PWR.VHALL_OPn of each half, in mV. -/
  vhall        : Both (List Nat)
  /-- Whether the fuse read at BOOT step 2 fails its check in a half. -/
  readFails    : Bool
  deriving DecidableEq, Repr

/-- The pins whose level is set outside the device: PWRGD, RST_N, the straps.
DESIGN CHOICE, unsafe: notes/assumptions/7. -/
structure Straps where
  pwrgd   : Bool
  /-- RST_N is held low. -/
  rstLow  : Bool
  leadSel : Both Bool
  /-- COURSE_BOW (R214). -/
  bow     : Bool
  /-- The SMBus address strap (R435). -/
  smbAddr : Nat
  /-- Porches whose VCCIO supply is absent (R467). -/
  unpowered : List Nat
  deriving DecidableEq, Repr

/-! ## Power, clocks, boot and modes -/

/-- An AVSBus voltage write that waits for its transaction (R346): rail, millivolts, whether the operating-point
sequencer asked for it. -/
structure AvsWrite where
  rail : Nat
  half2 : Nat
  forOp : Bool
  deriving DecidableEq, Repr

/-- An operating-point change under way (Table 10.12). -/
structure OpChange where
  target   : Nat
  /-- The governor makes it (R351): PWR.OP_REQ does not show it. -/
  byGov    : Bool
  raise    : Bool
  /-- The hall PLL that it starts: 0 for A, 1 for B. -/
  pll      : Nat
  pllReady : Bool
  /-- The voltage time has elapsed (or, when lowering, is not yet due). -/
  voltDone : Bool
  /-- The hall runs on the new PLL: only the voltage of a lowering is left. -/
  switched : Bool
  deriving DecidableEq, Repr

/-- A governor action (Table 10.13). -/
inductive GovAct where
  | holdSlices | slowScrub | paceSwaps | lowerVfab | lowerOp
  deriving DecidableEq, Repr

/-- The bus-port or engine stage of a gate that closes (R340). -/
inductive GateStage where
  | engine | port
  deriving DecidableEq, Repr

/-- Clocks and power of one half (chapter 10). -/
structure HalfPower where
  /-- A hall or service switch that waits for an edge of the old source: target, and whether CLK.SW asked for it. -/
  hallPend : Option (Nat × Bool)
  svcPend  : Option (Nat × Bool)
  /-- Gates that are CLOSING, with their stage. -/
  closing  : List (Gated × GateStage)
  avs      : List AvsWrite
  op       : Option OpChange
  /-- VHALL and VFAB last committed, and the level that VFAB moves to, in half millivolts (12.5 mV steps, R349). -/
  vhall2   : Nat
  vfab2    : Nat
  vgoal2   : Nat
  /-- Governor actions in force, last taken first (R351). -/
  gov      : List GovAct
  /-- The device (or, in ORPHAN, this half) is over cap (R350). -/
  overCap  : Bool
  /-- The governor's power totals of the last 1 ms in half watts, newest first: one every 100 µs (R350). -/
  samples  : List Nat
  deriving DecidableEq, Repr

/-- The Cellar beside its page (R320): supplies and the tick multiplexer. -/
structure Cellar where
  alwaysOn  : Bool
  alwQual   : Bool
  /-- VHALL or VFAB below its reset threshold: half and rail (R464). -/
  railLow   : List (Half × Bool)
  tickPend  : Option Bool
  /-- Each half's NO_CLOCK condition (R337). -/
  noClock   : Both Bool
  /-- The hottest junction of the last sample, in °C (R436, R474, R475). -/
  hottest   : Int
  /-- For each junction sensor, the samples in a row at or above the trip point (R474). -/
  hot       : List Nat
  deriving DecidableEq, Repr

/-- Where STANDBY stands (R32, R39, R325, R326). -/
inductive StandbyPhase where
  | none | accepted | entering | asleep | waking
  deriving DecidableEq, Repr

/-- The mode sequencer: the release sequence, a transition under way and STANDBY. -/
structure Sequencer where
  /-- The step of Table 11.7 that is under way, 0 once BOOT has ended. -/
  boot     : Nat
  /-- Each cox's ROM self-check has passed (BOOT step 5), and the stacks have trained (step 6). -/
  romOk    : Bool
  /-- The GSR and WE steps of STARTUP have run since BOOT (R66, R70). -/
  gsr      : Bool
  we       : Bool
  /-- The mode that a transition goes to, and whether the follower has changed (R30). -/
  txn      : Option (Nat × Bool)
  standby  : StandbyPhase
  /-- Wake sources that arrived during STANDBY entry (R31), Table 10.1. -/
  wakePend : Nat
  /-- Swappable crews that STANDBY entry took out. -/
  drained  : List Nat
  /-- Re-adoption runs: the halves reach each other while ORPHAN still shows (Table 11.11, steps 3 and 4). -/
  adopting : Bool
  deriving DecidableEq, Repr

/-- A class U crossing with status (Tables 11.3 and 11.4). -/
structure Cross where
  notReady : Bool
  lost     : Bool
  pending  : Nat
  isOpen   : Bool
  drop     : Nat
  /-- The crew of each IDLE pulse under way and pending, oldest first (R145); 0xFFFF names none. -/
  carries  : List Nat
  deriving DecidableEq, Repr

/-! ## Worlds, life cycle, keys and the test access port -/

/-- An eFuse key operation under way (R415, R416): slot, and the key to burn for a PROGRAM. -/
structure KeyBurn where
  slot : Nat
  key  : Option (BitVec 256)
  deriving DecidableEq, Repr

/-- Security state (chapter 13). -/
structure Security where
  /-- Frozen masters by kind (Table 13.4): crews, host functions, each cox's non-secure partition, ring peers. -/
  crews    : List Nat
  fns      : List Nat
  cox      : Both Bool
  peers    : List Nat
  /-- FREEZE_LAST records of an ORPHAN follower that wait for re-adoption (R408): kind, cause, ID; first recorded first. -/
  waiting  : List (Nat × Nat × Nat)
  /-- The six key slots: eFuse 0 to 3, VBAT 0 and 1. -/
  keys     : List KeySlot
  burning  : Option KeyBurn
  /-- A life-cycle request under way (R412). -/
  lcsBurn  : Option Nat
  /-- Fuses burnt that act from the next BOOT (R412, R414): life cycle, ENC_REQUIRED, FALLBACK_EN. -/
  nextLc   : Nat
  nextEnc  : Bool
  nextFall : Bool
  deriving DecidableEq, Repr

/-- The instruction in the TAP, of those that take the pins (R420). -/
inductive TapInstr where
  | other | extest | clamp | highz
  deriving DecidableEq, Repr

/-! ## Pins and the host link -/

/-- A break-before-make window on a service pin (Table 14.3), and what a line last sampled. -/
structure PinState where
  /-- Sampled levels of PA0 to PD15, bit n for pin n. -/
  levels  : Nat
  /-- Pins in a window. -/
  windows : List Nat
  /-- The IO step of STARTUP has run (R424). -/
  ioDone  : Bool
  /-- A wake event that the Cellar recorded for a pin-interrupt line, by line (R430). -/
  wakeLines : Nat
  tap     : TapInstr
  bsr     : List Bool
  deriving DecidableEq, Repr

/-- A service doorway (R428): the edge it is attached to, a snapshot that waits for its acknowledgement, and whether a
snapshot still has to be presented (R102). -/
structure Doorway where
  /-- Room number and edge (N, E, S, W = 0 to 3). -/
  edge    : Option (Nat × Nat)
  waiting : Option Nat
  late    : Bool
  deriving DecidableEq, Repr

/-- A porch (R431 to R434). -/
structure Porch where
  claimed : Bool
  edge    : Option (Nat × Nat)
  /-- A token has left since the porch was attached. -/
  started : Bool
  /-- GEAR, DRIVE, PULL and PDIR in force (R434). -/
  gear    : Nat
  drive   : Nat
  pull    : Nat
  dir     : Nat
  /-- The park level in force while the porch is parked; nothing while it is not. -/
  park    : Option Nat
  /-- The last bit of each output pin. -/
  last    : Nat
  /-- Tokens in the outbound crossing, oldest first: pin and bits (R432). -/
  fifo    : List (Nat × Byte)
  deriving DecidableEq, Repr

/-- A porch that was never claimed. -/
def Porch.fresh : Porch :=
  { claimed := false, edge := none, started := false, gear := 0, drive := 1, pull := 0, dir := 0, park := none, last := 0,
    fifo := [] }

/-- The host link beside its page (R437 to R445). DESIGN CHOICE, unsafe: notes/assumptions/10. -/
structure HostLink where
  /-- Functions whose Bus Master Enable is set. -/
  bme     : List Nat
  /-- VF Enable: the number of virtual functions enabled, 0 for none. -/
  vfs     : Nat
  /-- Functions whose MSI-X is enabled and not masked, and the pending bits of messages that wait: function, vector. -/
  msix    : List Nat
  pba     : List (Nat × Nat)
  /-- Vectors whose mask bit is clear: function, vector. PRESUMED from PCI Express, where every mask bit is 1 after reset;
  unsafe: notes/assumptions/10. -/
  open_   : List (Nat × Nat)
  /-- A Link Equalization Request or Recovery that HLK.REEQ started (R400). -/
  reeq    : Option Bool
  deriving DecidableEq, Repr

/-! ## Rooms -/

/-- STATE of a room map entry (Table 3.12). -/
inductive RoomState where
  | free | occupied | swapping | lent | g2 | retired | withdrawn
  deriving DecidableEq, Repr

/-- The mode of a room edge (R92). -/
inductive Edge where
  | isolate | through | hall
  deriving DecidableEq, Repr

/-- A room: its map entry (Tables 3.12 and 3.13) and what the hall holds at its border. -/
structure Room where
  crew    : Nat
  heat    : Nat
  pos     : Nat
  state   : RoomState
  screw   : Nat
  sheat   : Nat
  spos    : Nat
  svalid  : Bool
  /-- The active slot is P1. -/
  active  : Bool
  codeErr : Bool
  retire  : Nat
  /-- The code-error flag (R47), and the times in µs of the last swaps that showed it (R109). -/
  codeFlag  : Bool
  codeTimes : List Nat
  /-- The quiesce request is raised (R78), and every acknowledge is stopped (R108). -/
  quiesce : Bool
  stopped : Bool
  /-- Its state has been saved, written anew or given up since quiesce was raised: nothing in it moves until the reopening
  (R78, R102). -/
  still   : Bool
  /-- The modes of the edges N, E, S, W. -/
  edgeN   : Edge
  edgeE   : Edge
  edgeS   : Edge
  edgeW   : Edge
  /-- The memory window's RETRY mask (R102), and the reads issued and not yet delivered, bit t for tag t. -/
  retry   : Nat
  issued  : Nat
  /-- RETIRE if a slice fails in this WITHDRAWN room (R119). -/
  failAs  : Nat
  deriving DecidableEq, Repr

/-! ### What the wires of a room show (R48 to R60) -/

/-- The wires of a cell beside its four state bits: the outputs of halves A and B, nothing at the spacer (R52), and the
acknowledge to its inputs (R53). A doorway channel uses the acknowledge alone: its sender's token has been captured and
the sender has not yet returned to the spacer. -/
structure Sig where
  a   : Option Bool
  b   : Option Bool
  ack : Bool
  deriving DecidableEq, Repr

/-- A request token at a cupboard port, or an operand token of an oar with its OP. -/
inductive BlockReq where
  | cup (q : CupReq)
  | oar (op : Nat) (t : OarTok)
  deriving DecidableEq, Repr

/-- The channels of a hard block's port (R64, R67, R69): the request token that it has not taken, the acknowledge of the
last one taken, the operations accepted and not yet ended, oldest first, each with the token that it sends, and whether
the result channel is between two tokens. -/
structure Block where
  waiting : Option BlockReq
  ack     : Bool
  flight  : List (Option Nat)
  gap     : Bool
  deriving DecidableEq, Repr

def Block.fresh : Block := { waiting := none, ack := false, flight := [], gap := false }

/-- A room after BOOT (R82): free, P0 active, both slots blank. -/
def Room.fresh : Room :=
  { crew := 0, heat := 0, pos := 0, state := .free, screw := 0, sheat := 0, spos := 0, svalid := false,
    active := false, codeErr := false, retire := 0, codeFlag := false, codeTimes := [], quiesce := false,
    stopped := false, still := false, edgeN := .isolate, edgeE := .isolate, edgeS := .isolate, edgeW := .isolate, retry := 0,
    issued := 0, failAs := 2 }

/-! ## Crews -/

/-- A crew's state (Table 4.5); EMPTY is a crew that the crew table does not list. -/
inductive CrewState where
  | parked | ready | boarding | running | draining | pinned | faulted
  deriving DecidableEq, Repr

/-- The target of a DRAINING crew (R133). -/
inductive Target where
  | ready | parked | faulted | empty
  deriving DecidableEq, Repr

/-- A fault with what its notice carries (Table 4.10): code, room (0xFFFF for none) and bytes 8 to 15. -/
structure FaultInfo where
  code : Nat
  room : Nat
  info : Nat
  deriving DecidableEq, Repr

/-- A crew: the fields of its descriptor (Tables 4.1 to 4.4) by name, and what its Steward keeps beside them. -/
structure Crew where
  heat         : Nat
  state        : CrewState
  wakePending  : Bool
  fault        : Nat
  /-- KIND = 1. -/
  isPinned     : Bool
  world        : Bool
  parkOnIdle   : Bool
  wakeOnNotice : Bool
  autoReset    : Bool
  start        : Bool
  prio         : Nat
  slice        : Nat
  wingMask     : Nat
  w            : Nat
  h            : Nat
  anchor       : Nat
  drain        : Nat
  planes       : Nat
  firstState   : Nat
  savedState   : Nat
  emap         : Nat
  root         : Nat
  growLimit    : Nat
  frames       : Nat
  faultHatch   : Nat
  porches      : Nat
  owner        : Nat
  boardings    : Nat
  lastAnchor   : Nat
  qto          : Nat
  /-- The target while DRAINING. -/
  target       : Target
  /-- The rooms it holds or boards into, in suite position order. -/
  suite        : List Nat
  /-- The next boarding uses FIRST_STATE. -/
  useFirst     : Bool
  /-- The image was rewritten since the planes of the rooms it holds were loaded (R96): they are no copy of it any more. -/
  rewritten    : Bool
  /-- A PARK (R134) or a fault that arrived while BOARDING, or the fault that a DRAINING crew takes. -/
  pendPark     : Bool
  pendFault    : Option FaultInfo
  /-- Order of entry into its READY queue, and levels gained by ageing (R138). -/
  stamp        : Nat
  aged         : Nat
  /-- Its slice has expired (R140). -/
  expired      : Bool
  /-- A fault notice that waits for credit (R155). -/
  held         : Option (List Byte)
  /-- Posted writes that memory has not acknowledged, oldest first (R104): VA[39:21] and order of issue. -/
  posted       : List (Nat × Nat)
  /-- RUN_US (Table 4.4). -/
  runUs        : Nat
  /-- Its image, or its WING_MASK, has been updated since it entered FAULTED (Table 4.8). -/
  newImage     : Bool
  newMask      : Bool
  /-- An access waits for a frame of the other half (R37), or a write to a shared region is held (R35). -/
  waiting      : Bool
  deriving DecidableEq, Repr

/-- An ID that has been allocated since BOOT (R127, R128, R152): its heat, the order of its last release (0 while it
is allocated), whether the reuse rules still hold it back, and words 1 to 15 of its descriptor at its last release, which
nothing changes until CREATE writes it anew (R129; notes/assumptions/20). -/
structure IdRec where
  heat     : Nat
  released : Nat
  cooling  : Bool
  last     : List Word
  deriving DecidableEq, Repr

/-! ## Wings -/

/-- What a wing's Steward sequence does: a swap, a pinned crew reconfigured in place (R149), a pinned crew destroyed
(R154), crews taken out for STANDBY (R32). -/
inductive SwapKind where
  | swap | reconfig | destroy | standby
  deriving DecidableEq, Repr

/-- A swap or in-place sequence under way in a wing. `step` is the step of Table 3.8 that comes next. -/
structure Swap where
  kind     : SwapKind
  step     : Nat
  /-- Outgoing crews, and every room in SWAPPING. -/
  outs     : List Nat
  rooms    : List Nat
  /-- The incoming crew with its heat, and its suite in position order. -/
  inc      : Option (Nat × Nat)
  suite    : List Nat
  anyMem   : Bool
  anyCache : Bool
  /-- A room of the suite showed its code-error flag at step 3. -/
  codeErr  : Bool
  /-- The incoming crew was destroyed or re-heated (R113). -/
  lost     : Bool
  deriving DecidableEq, Repr

/-- A plane in a landing cache (R95) and the bytes it holds. -/
structure Cached where
  crew : Nat
  heat : Nat
  pos  : Nat
  data : Tbl Byte
  deriving DecidableEq, Repr

/-- A cached translation of a page (R179). -/
structure Trans where
  id     : Nat
  heat   : Nat
  page   : Nat
  frame  : Nat
  r      : Bool
  w      : Bool
  shared : Bool
  deriving DecidableEq, Repr

/-- A cached first-level entry (R179): the crew, its heat, VA[39:31], the entry. -/
structure FirstLevel where
  id    : Nat
  heat  : Nat
  index : Nat
  entry : Nat
  deriving DecidableEq, Repr

/-- A wing: its landing cache (most recently used first), its state staging buffers (staged last first), its
translation cache and first-level cache, the sequence under way, and the in-place sequences that wait for it. -/
structure Wing where
  cache  : List Cached
  staged : List Cached
  tlb    : List Trans
  first  : List FirstLevel
  swap   : Option Swap
  waits  : List (SwapKind × Nat)
  deriving DecidableEq, Repr

def Wing.fresh : Wing := { cache := [], staged := [], tlb := [], first := [], swap := none, waits := [] }

/-! ## Command ports -/

/-- The block that a command port belongs to (R156, R187, R210). -/
inductive PortBlock where
  | stw | pgt | hat
  deriving DecidableEq, Repr

/-- A command whose completion waits (Table 4.13, R181, R210): port, block, OP, crew or hatch, heat. -/
structure PortOp where
  port  : Port
  block : PortBlock
  op    : Nat
  id    : Nat
  heat  : Nat
  /-- A Function Level Reset came meanwhile: the result is discarded (R444). -/
  discard : Bool
  /-- The window as it stood at GO, for a hatch command that waits for its turn (R156, R210); `op` is then 16 more. -/
  words   : List Word
  /-- An INVAL waits for accesses up to this order of issue, of this VA[39:21] alone if one is named (R181). -/
  upto    : Nat
  page    : Option Nat
  deriving DecidableEq, Repr

/-! ## Memory, allocators and the Attic -/

/-- A frame that is not simply free (R168, R182 to R184): zeroed and ready, granted, retired, or held back until the
next BOOT. -/
inductive FrameSt where
  | zeroed | taken | retired | stuck
  deriving DecidableEq, Repr

/-- A crew whose frames are being reclaimed (R184): its first-level table and world. -/
structure Reclaim where
  root  : Nat
  world : Bool
  deriving DecidableEq, Repr

/-- The allocator of a half (R174, R182 to R184): runs of granules taken (first, count), crews to reclaim (first come
first), the world whose pool the zeroing engine fills next. -/
structure Alloc where
  grans   : List (Nat × Nat)
  reclaim : List Reclaim
  turn    : Bool
  deriving DecidableEq, Repr

/-- A memory-window read that has been issued and not yet completed (R102, R178): crew, heat, suite position, window
tag, VA[39:21], order of issue, data, whether quiesce discarded it, whether its response waits for a reopen in place (R105), whether its data has come
and is kept for it. -/
structure ReadOut where
  id      : Nat
  heat    : Nat
  pos     : Nat
  tag     : Nat
  page    : Nat
  stamp   : Nat
  data    : List Byte
  discard : Bool
  kept    : Bool
  arrived : Bool
  deriving DecidableEq, Repr

/-- A memory-window access that waits at its window while the other half cannot be reached (R35, R37). -/
structure WinAcc where
  id    : Nat
  heat  : Nat
  pos   : Nat
  va    : Nat
  /-- The tag and length of a read, or the bytes of a write. -/
  read  : Option (Nat × Nat)
  bytes : List Byte
  stamp : Nat
  deriving DecidableEq, Repr

/-- The stacks beside their pages: sectors found uncorrectable once (R168), frames to retire at their release, the next
codeword of each patrol (R167), stacks out of service for training, and stacks with a MEM.RETRAIN under way (R398). -/
structure Stacks where
  ueOnce    : List Nat
  retireDue : List Nat
  patrol    : List Nat
  away      : List Nat
  retrain   : List Nat
  deriving DecidableEq, Repr

/-- The Attic (R246 to R249): what stays without power.
DESIGN CHOICE, unsafe: notes/assumptions/7. DESIGN CHOICE, unsafe: notes/assumptions/41. -/
structure Attic where
  /-- Slots A and B and the G2 image area by Attic offset: bytes other than 0 (Table 8.2). -/
  data     : Tbl Byte
  /-- Offsets of bytes that the Attic's own code cannot correct (R246). -/
  lost     : List Nat
  /-- Rooms retired in service, with their RETIRE code (R120), and frames retired (R168). -/
  rooms    : List (Nat × Nat)
  frames   : List Nat
  /-- The boot record (R247), the summary of the last TEST (R387), the two copies of cox firmware, newer first (R397). -/
  boot     : Word
  testSum  : Word
  /-- The boot record as it was before the last write of ATT.BOOT, which a loss of power within 50 µs keeps (R247). -/
  bootOld  : Option Word
  firmware : List (List Byte)
  deriving DecidableEq, Repr

/-- A copy of ATT.PROG under way (R249): source address, Attic offset in units of 4 KiB, units, issuer (R130). -/
structure Prog where
  src   : Nat
  dst   : Nat
  len   : Nat
  owner : Nat
  deriving DecidableEq, Repr

/-! ## The personality loader (chapter 8) -/

/-- The fields of an image header (Table 8.5). -/
structure ImgHdr where
  compressed : Bool
  encrypted  : Bool
  chain      : Bool
  target     : Nat
  order      : Nat
  keySlot    : Nat
  frameCount : Nat
  payloadLen : Nat
  bytes      : List Byte
  deriving DecidableEq, Repr

/-- A CREW record that the load has accepted (R261 to R263): its crew, the two bits, and the positions that an ESSENTIAL
record has given a map. -/
structure LoadCrew where
  id    : Nat
  adopt : Bool
  data  : Bool
  maps  : List Nat
  deriving DecidableEq, Repr

/-- Where a failed local load goes once its cleanup ends (R272, R273). -/
inductive LoadNext where
  | otherSlot | host
  deriving DecidableEq, Repr

/-- The loader beside the CFG page. -/
structure Loader where
  /-- The boot record as it stood at BOOT (R247). -/
  boot     : Word
  /-- The second slot of the local load is in hand (R248). -/
  second   : Bool
  /-- Offset of the image header in the slot; stream bytes received and not yet taken; bytes of a skipped image that
  are still to come. -/
  base     : Nat
  stream   : List Byte
  skip     : Nat
  /-- The image taken: header, next plaintext byte from the header, plaintext of segments that have passed, next
  segment, running CRC over header and records (R266, R268). -/
  hdr      : Option ImgHdr
  pos      : Nat
  plain    : List Byte
  seg      : Nat
  crc      : Word
  /-- What the records have made: crews in record order, HALL writes, rooms that frames were written to, granules. -/
  crews    : List LoadCrew
  hall     : List (Nat × Word)
  written  : List Nat
  grans    : List (Half × Nat × Nat)
  /-- END has been accepted; the first DMA GO has been given (R280, R281). -/
  done     : Bool
  fixed    : Bool
  /-- A failure waits for the chain (R279); the cleanup of a failed load runs (R273). -/
  deferred : Bool
  cleaning : Option LoadNext
  /-- The start-up step in hand, 0 to 3, 4 when all are done (R282). -/
  stage    : Nat
  deriving DecidableEq, Repr

/-- The loader after BOOT. -/
def Loader.fresh (boot : Word) : Loader :=
  { boot := boot, second := false, base := 0, stream := [], skip := 0, hdr := none, pos := 0, plain := [], seg := 0,
    crc := 0, crews := [], hall := [], written := [], grans := [], done := false, fixed := false, deferred := false,
    cleaning := none, stage := 0 }

/-- The Course chain (R275 to R279). -/
structure Chain where
  /-- PKT of the last packet received, packets that wait to be sent on, packets sent, and the packet outstanding with
  the tag of its message. -/
  got      : Option Nat
  out      : List ChainPkt
  sent     : Nat
  sending  : Option (Nat × ChainPkt)
  /-- The packet outstanding was refused or expired and waits for RETRY_GAP. -/
  again    : Bool
  /-- The image in hand: this device takes it, withholds it; it has taken an image of the stream; the last device has
  rejected an image. -/
  taking   : Bool
  withhold : Bool
  took     : Bool
  rejected : Bool
  /-- Bytes of the image taken that have not come yet. -/
  need     : Nat
  /-- The bow streams its primary slot: Attic offset of the next byte, bytes left of the image in hand, another image
  follows. -/
  feed     : Option (Nat × Nat × Bool)
  /-- END_OF_STREAM has been sent on, or the stream has stalled (R276, R279). -/
  ended    : Bool
  deriving DecidableEq, Repr

def Chain.fresh : Chain :=
  { got := none, out := [], sent := 0, sending := none, again := false, taking := false, withhold := false,
    took := false, rejected := false, need := 0, feed := none, ended := false }

/-! ## G2 compatibility mode (chapter 9) -/

/-- The G2 engine beside the G2C page. -/
structure G2 where
  /-- First granule of the G2 store while it is taken (R289). -/
  store   : Option Nat
  /-- Bytes of the frames received, by tile × 24,576 + frame × 192 + byte. -/
  tiles   : Tbl Byte
  /-- NFRAMES, frames accepted, running CRC-16, and whether the stream's header has passed. -/
  nframes : Nat
  frames  : Nat
  crc     : Nat
  header  : Bool
  /-- A PROG arrived while STARTING (Table 9.6); a calibration runs, before a start or by itself (R305). -/
  progDue : Bool
  calRun  : Bool
  /-- The count that gave the delay-line step in force, 40 ps × REF ÷ COUNT (R305), and REF, the factory count for a 40 ps step
  (a fuse). -/
  count   : Nat
  ref     : Nat
  /-- The count last written to the wake timer, which RELOAD starts again from (R312). -/
  reload  : Nat
  /-- DOUT (R300). -/
  dout    : Bool
  /-- SRC as latched, and the next byte of the Attic's stream from the start of its area (R299, R318). -/
  src     : Bool
  pos     : Nat
  /-- The requests of the block wait for the calibration after a wake (R326). -/
  held    : Bool
  deriving DecidableEq, Repr

/-! ## Self-test, scrubbing, upkeep (chapter 12) -/

/-- A slice under way (R379): room, parts, the RETIRE code of a failure, whether BST.REQ asked for it and evicted. -/
structure Slice where
  room   : Nat
  parts  : Nat
  code   : Nat
  req    : Bool
  evict  : Bool
  deriving DecidableEq, Repr

/-- A half's self-test engine. DESIGN CHOICE, unsafe: notes/assumptions/24. -/
structure SelfTest where
  slices  : List Slice
  /-- The next room of the periodic round, and the rooms tested and skipped in it (R385). -/
  next    : Nat
  tested  : Nat
  skipped : Nat
  /-- The room of a pending BST.REQ, and whether it evicts (R386). -/
  req     : Option (Nat × Bool)
  /-- The place of the half's scrubber in its pass: 180 times the room and the frame from which it goes on (R390). -/
  scrubAt : Nat
  deriving DecidableEq, Repr

def SelfTest.fresh : SelfTest := { slices := [], next := 0, tested := 0, skipped := 0, req := none, scrubAt := 0 }

/-- A half's cox as the hall sees it (R397). -/
structure Cox where
  /-- A restart under way: ARG, whether leadership was handed over, the new image. -/
  op    : Option (Nat × Bool × List Byte)
  /-- Events held for the cox while it restarts. -/
  held  : List Emission
  /-- The firmware that it runs, as an image; nothing before BOOT step 5. -/
  image : List Byte
  deriving DecidableEq, Repr

/-! ## Hatches -/

/-- A packet that a hatch holds (R195, R196): first word, length, source, source heat, KIND, NUMBER; whether its notice
has been posted, how many of its words have been delivered, whether it has been copied to the host, whether it was
found stale in a host's copy order (R207). -/
structure Packet where
  start  : Nat
  /-- The hatch port has presented its notice to the crew (R203). -/
  shown  : Bool
  len    : Nat
  src    : Nat
  heat   : Nat
  kind   : Nat
  number : Nat
  posted : Bool
  words  : Nat
  copied : Bool
  dropped : Bool
  deriving DecidableEq, Repr

/-- A hatch: its descriptor (Table 6.2) and its queue. -/
structure Hatch where
  isOpen   : Bool
  world    : Bool
  srcKind  : Nat
  dstKind  : Nat
  depth    : Nat
  nslots   : Nat
  lastErr  : Nat
  src      : Nat
  srcHeat  : Nat
  dst      : Nat
  dstHeat  : Nat
  vector   : Nat
  rhatch   : Nat
  buf      : Nat
  iova     : Nat
  packets  : List Packet
  tail     : Nat
  /-- Packets admitted since OPEN, notices written to the host since OPEN, packets that have left the head. -/
  admitted : Nat
  toHost   : Nat
  left     : Nat
  closing  : Bool
  deriving DecidableEq, Repr

/-- A hatch after the hall's reset. -/
def Hatch.fresh : Hatch :=
  { isOpen := false, world := false, srcKind := 0, dstKind := 0, depth := 0, nslots := 0, lastErr := 0, src := 0,
    srcHeat := 0, dst := 0, dstHeat := 0, vector := 0, rhatch := 0, buf := 0, iova := 0, packets := [], tail := 0,
    admitted := 0, toHost := 0, left := 0, closing := false }

/-- Who presents a push to a hatch (R198): a crew with its heat, a host function, a ring ID with source crew and heat,
the Steward with a fault notice. -/
inductive Pusher where
  | crew (id heat : Nat)
  | host (fn : Nat)
  | ring (peer crew heat : Nat) (world : Bool)
  | steward (world : Bool)
  deriving DecidableEq, Repr

/-- What a half holds in its Gallery egress buffer for the other half (R35, R37, R205). -/
inductive Egress where
  | push (by_ : Pusher) (hatch : Nat) (world : Bool) (bytes : List Byte)
  | ring (hatch : Nat) (bytes : List Byte)
  deriving DecidableEq, Repr

/-- The Gallery beside its pages: failed retrains in a row, what each half holds for the other and what stalls behind a
full buffer, the window accesses that wait (first come first), and the rooms and frames that an ORPHAN follower has retired
and the leader has not yet recorded in the Attic (R21). -/
structure Gallery where
  fails   : Nat
  egress  : Both (List Egress)
  stalled : Both (List Egress)
  winAcc  : Both (List WinAcc)
  rooms   : List (Nat × Nat)
  frames  : List Nat
  deriving DecidableEq, Repr

/-! ## The Course (chapter 7) -/

/-- One link of the Course port (R216 to R219). -/
structure CLink where
  /-- The die serial of the last neighbour. -/
  neighbour : Option Nat
  /-- The lanes that the port offers (R399), coded as E_LANES. -/
  offers    : Nat
  /-- SEQ of the next flit, the last good SEQ received, receive buffers that hold a flit, buffers freed since the last flit
  sent, credits held. -/
  txSeq     : Nat
  rxSeq     : Nat
  held      : Nat
  freed     : Nat
  credit    : Nat
  /-- Flits sent and not yet acknowledged. -/
  replay    : List Flit
  /-- The payloads left of the segment that is being sent, and whether it is through traffic. -/
  queue     : List (List Byte)
  isThru    : Bool
  /-- Segments that wait, as payloads, through traffic and the device's own, and the through segments sent since an own one
  (R220). -/
  thru      : List (List (List Byte))
  own       : List (List (List Byte))
  since     : Nat
  /-- The last SEQ that a NAK named, and how many NAKs in a row named it. -/
  nakAck    : Nat
  nakRun    : Nat
  /-- When retrains failed, in µs, in the last second; three have failed within 1 s, so training is tried once every 1 ms until
  it succeeds (R219). -/
  fails     : List Nat
  slow      : Bool
  deriving DecidableEq, Repr

/-- A link before it has ever trained. DEDUCED, unsafe: notes/assumptions/12. -/
def CLink.fresh : CLink :=
  { neighbour := none, offers := 3, txSeq := 0, rxSeq := 1023, held := 0, freed := 0, credit := 0, replay := [],
    queue := [], isThru := false, thru := [], own := [], since := 0, nakAck := 0, nakRun := 0, fails := [], slow := false }

/-- A message in the egress store (R230). -/
structure OutMsg where
  tag    : Nat
  heat   : Nat
  dst    : Nat
  ringB  : Bool
  world  : Bool
  crew   : Nat
  cheat  : Nat
  rhatch : Nat
  len    : Nat
  bytes  : List Byte
  age    : Nat
  /-- BUSY was answered and RETRY_GAP runs (R233). -/
  busy   : Bool
  deriving DecidableEq, Repr

/-- A message in the ingress store (R233): its first segment, the segments that have come, their words. -/
structure InMsg where
  first : Segment
  segs  : Nat
  bytes : List Byte
  deriving DecidableEq, Repr

/-- The heat of a ring message tag, and whether R152 still holds the tag back (R230). -/
structure TagRec where
  heat    : Nat
  cooling : Bool
  deriving DecidableEq, Repr

/-- A released ring ID that the acting bow holds (R227): its die serial, whether 512 µs have yet to pass, and whether
CRS.CFG.HOLD has. -/
structure HeldId where
  id     : Nat
  serial : Nat
  barred : Bool
  kept   : Bool
  deriving DecidableEq, Repr

/-- The Course beside the CRS page. -/
structure Course where
  east    : CLink
  west    : CLink
  /-- A LEAVE is under way; the device is in BYPASS after one; a CRS.REQ JOIN is under way (R239). -/
  leaving : Bool
  left    : Bool
  joining : Bool
  /-- The map of positions, and the DOWN links by position (R226, R241). -/
  map     : List Member
  down    : List Nat
  /-- The ring chosen for each member: true for B, nothing while no ring reaches it (R215). -/
  ways    : List (Nat × Option Bool)
  /-- The ring and distance that an ENUM token gave, until a MAP gives the position (R224, steps 2 and 4). -/
  place   : Option (Bool × Nat)
  /-- The bow's enumeration: 0 none, 1 token on ring A, 2 token on ring B, and the counter that the second began with. -/
  enum    : Nat
  enumMid : Nat
  /-- An enumeration failed and waits to be tried again; two bows were found (R225); a MAP beacon has been seen. -/
  failed  : Bool
  twoBows : Bool
  sawMap  : Bool
  /-- The die serials of the devices that the ENUM tokens numbered, by ID from 1, as the bow learns them. -/
  taken   : List Nat
  heldIds : List HeldId
  /-- The port that CRS.LANE retrains (R399): true for West. -/
  lane    : Option Bool
  egress  : List OutMsg
  ingress : List InMsg
  tags    : Tbl TagRec
  deriving DecidableEq, Repr

/-- The Course after a reset. -/
def Course.fresh : Course :=
  { east := CLink.fresh, west := CLink.fresh, leaving := false, left := false, joining := false, map := [], down := [],
    ways := [], taken := [],
    place := none, enum := 0, enumMid := 0, failed := false, twoBows := false, sawMap := false, heldIds := [], lane := none,
    egress := [], ingress := [], tags := [] }

/-! ## The state -/

/-- The block. -/
structure State where
  /-- The commands that wait, first in, first out (the model's own). -/
  pending  : List Instr
  /-- Every register that does not hold its reset value, by BAR0 byte offset; virtual function `n` has page
  `288 + n`. -/
  regs     : Tbl Word
  /-- What the pages in FREEZE show instead (R450): the words held when FREEZE was set. -/
  held     : Tbl Word
  /-- What the block has sent, newest first (the model's own). -/
  out      : List Emission
  /-- How many open values the machine has drawn (the model's own). -/
  draws    : Nat
  fuses    : Fuses
  straps   : Straps
  cellar   : Cellar
  seq      : Sequencer
  power    : Both HalfPower
  /-- Class U crossings that are not idle, by half, KIND and INDEX. -/
  cross    : Tbl Cross
  security : Security
  pins     : PinState
  doorway  : Both Doorway
  /-- Porches 0 to 23. -/
  porches  : Tbl Porch
  host     : HostLink
  /-- Rooms that differ from a fresh room, by global room number. -/
  rooms    : Tbl Room
  /-- Plane and state-image bytes other than 0, by frame address × 512 + byte (R85). -/
  fabric   : Tbl Byte
  /-- Reference CRC-16s by plane frame address; a frame that is not listed has that of a frame of zeros (R389). -/
  refs     : Tbl Nat
  /-- The wires of cells and doorway channels that are not at rest, by room × 4096 + cell, or + 2048 + channel. -/
  sigs     : Tbl Sig
  /-- The ports of cupboards (0 to 7), oars (8 to 15), memory window (16) and hatch port (17) that are not at rest, by
  room × 32 + port. -/
  blocks   : Tbl Block
  /-- The steps of each matched delay line whose request is high (R56), by room × 1024 + cluster × 8 + line. -/
  lines    : Tbl Nat
  /-- Crews by ID; an ID that is not listed is EMPTY. -/
  crews    : Tbl Crew
  ids      : Tbl IdRec
  /-- Each hall's copy of the heats of the other half's crews, 0 where it lists none (R207). -/
  heatCopy : Both (Tbl Nat)
  /-- A count of the Steward's queue entries and releases and of window accesses, for order (R128, R138, R181). -/
  stamps   : Nat
  /-- Wings 0 to 15 (East 0 to 7) that differ from a fresh wing. -/
  wings    : Tbl Wing
  /-- Commands whose completion waits. -/
  portOps  : List PortOp
  /-- The memory stacks by device physical address: bytes other than 0. -/
  mem      : List Host.Cell
  /-- Bytes of codewords that are in error, by sector × 36 + byte of the codeword (R162): what is added to them. -/
  bad      : Tbl Byte
  stackCtl   : Stacks
  /-- Frames that are not simply free, by frame number. -/
  frames   : Tbl FrameSt
  alloc    : Both Alloc
  reads    : List ReadOut
  attic    : Attic
  /-- A copy of ATT.PROG and an erase of ATT.REC_CLEAR under way (R121, R249). -/
  prog     : Option Prog
  recClear : Option Nat
  /-- The room of each half's STW.ROOM_RETIRE under way (R118), and the length of the chunk being read (R281). -/
  retiring : Both (Option Nat)
  chunk    : Nat
  loader   : Loader
  chain    : Chain
  g2       : G2
  selfTest : Both SelfTest
  cox      : Both Cox
  /-- Hatches that differ from a fresh one, by hatch number. -/
  hatches  : Tbl Hatch
  gallery  : Gallery
  course   : Course
  deriving DecidableEq, Repr

/-- Clocks and power of a half after reset: no switch or change under way, VHALL at the fused voltage of OP4 and VFAB at
0.75 V (Table 10.15). -/
def HalfPower.reset : HalfPower :=
  { hallPend := none, svcPend := none, closing := [], avs := [], op := none, vhall2 := 1500, vfab2 := 1500, vgoal2 := 1500, gov := [],
    overCap := false, samples := [] }

/-- The device just after PWRGD has risen from CELLAR: BOOT, step 1 of Table 11.7, every register at its reset value,
nothing in memory. What the spec leaves to fuses, straps and the Attic holds the values that notes/assumptions 6 and 7
name. -/
def State.reset : State :=
  { pending := [], regs := [], held := [], out := [], draws := 0,
    fuses := { grade := 0, serial := ⟨1, 2⟩, retired := [], lifeCycle := 2, fallbackEn := false, encRequired := false,
               vhall := ⟨[650, 670, 690, 720, 750, 780, 810, 850], [650, 670, 690, 720, 750, 780, 810, 850]⟩,
               readFails := false },
    straps := { pwrgd := true, rstLow := false, leadSel := ⟨false, false⟩, bow := false, smbAddr := 0, unpowered := [] },
    cellar := { alwaysOn := true, alwQual := true, railLow := [], tickPend := none, noClock := ⟨false, false⟩, hottest := 25, hot := [] },
    seq := { boot := 1, romOk := false, gsr := false, we := false, txn := none, standby := .none, wakePend := 0, drained := [], adopting := false },
    power := ⟨HalfPower.reset, HalfPower.reset⟩, cross := [],
    security := { crews := [], fns := [], cox := ⟨false, false⟩, peers := [], waiting := [],
                  keys := List.replicate 6 ⟨.empty, 0⟩, burning := none, lcsBurn := none, nextLc := 2, nextEnc := false,
                  nextFall := false },
    pins := { levels := 0, windows := [], ioDone := false, wakeLines := 0, tap := .other, bsr := [] },
    doorway := ⟨⟨none, none, false⟩, ⟨none, none, false⟩⟩, porches := [],
    host := { bme := [], vfs := 0, msix := [], pba := [], open_ := [], reeq := none },
    rooms := [], fabric := [], refs := [], sigs := [], blocks := [], lines := [], crews := [], ids := [], heatCopy := ⟨[], []⟩, stamps := 0, wings := [], portOps := [], mem := [], bad := [],
    stackCtl := { ueOnce := [], retireDue := [], patrol := [0, 0, 0, 0], away := [], retrain := [] }, frames := [],
    alloc := ⟨⟨[], [], false⟩, ⟨[], [], false⟩⟩, reads := [], attic := { data := [], lost := [], rooms := [], frames := [], boot := 0x0014C800#32, testSum := 0, bootOld := none, firmware := [] },
    prog := none, recClear := none, retiring := ⟨none, none⟩, chunk := 0, loader := Loader.fresh 0x0014C800#32, chain := Chain.fresh,
    g2 := { store := none, tiles := [], nframes := 0, frames := 0, crc := 0, header := false, progDue := false,
            calRun := false, count := 20480, ref := 20480, reload := 0, dout := true, src := false, pos := 0, held := false },
    selfTest := ⟨SelfTest.fresh, SelfTest.fresh⟩, cox := ⟨⟨none, [], []⟩, ⟨none, [], []⟩⟩, hatches := [],
    gallery := { fails := 0, egress := ⟨[], []⟩, stalled := ⟨[], []⟩, winAcc := ⟨[], []⟩, rooms := [], frames := [] },
    course := Course.fresh }

end Sys2Proof.Machine
end

