-- ==== Sys2Proof/Machine/Ops.lean ====
section
/-! DEFINITION. The named operations over registers, events, page errors, emissions, roles and modes, through which
every meaning reads and writes them. -/

namespace Sys2Proof.Machine

namespace State

/-! ## Registers -/

/-- The word of a register by its BAR0 byte offset: what is stored, else its reset value. -/
def reg (s : State) (a : Nat) : Word := (Tbl.find s.regs a).getD (regReset a)

/-- Store a register; a word equal to the reset value is not listed. -/
def setReg (s : State) (a : Nat) (w : Word) : State := { s with regs := Tbl.store s.regs (regReset a) a w }

/-- A field of a page. -/
def rd (s : State) (p : Nat) (f : Fld) : Nat := f.get (s.reg (p * 0x1000 + f.off))

/-- Set a field of a page. -/
def wr (s : State) (p : Nat) (f : Fld) (v : Nat) : State :=
  s.setReg (p * 0x1000 + f.off) (f.put v (s.reg (p * 0x1000 + f.off)))

/-- A one-bit field as a Boolean. -/
def on (s : State) (p : Nat) (f : Fld) : Bool := s.rd p f == 1

/-- Set several fields of a page, in order. -/
def wrs (s : State) (p : Nat) (l : List (Fld × Nat)) : State := l.foldl (fun s e => s.wr p e.1 e.2) s

/-- Advance a count field, which saturates at its greatest value (R11). -/
def bump (s : State) (p : Nat) (f : Fld) (n : Nat := 1) : State := s.wr p f (min f.max (s.rd p f + n))

/-- Advance a field that wraps: a SEQ, an epoch, a wrapping count (R14). -/
def step1 (s : State) (p : Nat) (f : Fld) : State := s.wr p f (s.rd p f + 1)

/-! ## What leaves the block, and open values -/

/-- Send something. DESIGN CHOICE, safe: notes/assumptions/2. -/
def emit (s : State) (e : Emission) : State := { s with out := e :: s.out }

/-- A function's MSI-X is on and neither the function nor the vector is masked. -/
def vectorOpen (s : State) (fn vector : Nat) : Bool := s.host.msix.contains fn && s.host.open_.contains (fn, vector)

/-- Send an MSI-X message; while MSI-X is off, or the function or the vector masked, its pending bit is set (R204). -/
def msix (s : State) (fn vector : Nat) : State :=
  if s.vectorOpen fn vector then s.emit (.msix fn vector)
  else { s with host := { s.host with pba := (fn, vector) :: s.host.pba.erase (fn, vector) } }

/-- The next open value below `n` (a value the spec leaves open). DESIGN CHOICE, safe: notes/assumptions/3. -/
def drawn (s : State) (n : Nat) : Nat := Config.freeNat s.draws % n

/-- The state once that value has been drawn. -/
def drew (s : State) : State := { s with draws := s.draws + 1 }

/-- A read of the Attic returns data that its code cannot correct (R246). DESIGN CHOICE, unsafe: notes/assumptions/41. -/
def atticLost (s : State) (off n : Nat) : Bool := s.attic.lost.any fun a => off ≤ a && a < off + n

/-! ## Roles and modes (R16, R17, R27, R30) -/

/-- The mode of a half (Table 1.4). -/
def mode (s : State) (h : Half) : Nat := s.rd (pgSys h) SYS_MODE_MODE

/-- The leader: the half that holds LEADER, before the leader check the half that the sampled LEAD_SEL names. -/
def leader (s : State) : Half :=
  if s.on (pgSys .east) SYS_ROLE_LEADER then .east
  else if s.on (pgSys .west) SYS_ROLE_LEADER then .west
  else if s.on (pgSys .east) SYS_ROLE_LEAD_SEL then .west
  else .east

def follower (s : State) : Half := other s.leader

/-- The mode of the device: its leader's. -/
def devMode (s : State) : Nat := s.mode s.leader

/-- The Gallery link is up (Table 15.6). -/
def galleryUp (s : State) : Bool := s.rd (pgGal .east) GAL_LINK_STATE == 2

/-- A half is in ORPHAN (R35). -/
def orphan (s : State) (h : Half) : Bool := s.on (pgSys h) SYS_MODE_ORPHAN

/-- The lease has lapsed for a half: LEASE_OK is 0 (R373). -/
def lapsed (s : State) (h : Half) : Bool := !s.on (pgSys h) SYS_ROLE_LEASE_OK

end State

/-- The wing (0 to 15) of a global room number (R6). -/
def wingOf (r : Nat) : Nat := r / 256

/-- The half of a global room number. -/
def roomHalf (r : Nat) : Half := halfOf (r / 2048)

/-- The home half of a crew ID, and the half of a hatch number (R7, R192). -/
def idHalf (id : Nat) : Half := halfOf (id / 32768)

/-- The fields of a register that takes a GO: STATUS, SEQ and REASON. -/
structure GoFlds where
  status : Fld
  seq    : Fld
  reason : Fld

/-! The modes of Table 1.4. -/

abbrev mOff : Nat := 0
abbrev mCellar : Nat := 1
abbrev mStandby : Nat := 2
abbrev mBoot : Nat := 3
abbrev mLoadLocal : Nat := 4
abbrev mLoadHost : Nat := 5
abbrev mStartup : Nat := 6
abbrev mRunNative : Nat := 7
abbrev mRunG2 : Nat := 8
abbrev mService : Nat := 9
abbrev mTest : Nat := 10
abbrev mHalt : Nat := 11

/-- RUN-NATIVE or RUN-G2. -/
def isRun (m : Nat) : Bool := m == mRunNative || m == mRunG2

/-- A mode in which the fabric is in user service (Table 1.5). -/
def inService (m : Nat) : Bool := isRun m || m == mService

namespace State

/-- The half that serves a page (R16, R446). -/
def serves (s : State) (p : Nat) : Half :=
  match pageKind p with
  | .cel | .sec | .lcs | .cfg | .att => s.leader
  | .crs => s.follower
  | .g2c | .hlk => .east
  | .mem => halfOf ((p - 34) / 2)
  | .wng => halfOf ((p - 38) / 8)
  | .mbs | .mbx => halfOf ((p - 54) / 21)
  | .cwn => halfOf ((p - 96) / 64)
  | .hwn => halfOf ((p - 224) / 32)
  | .sys | .gal | .clk | .pwr | .fmc | .bst | .scr | .pin | .pmx | .pint | .stw | .pgt | .hat => halfOf (p % 2)
  | .vfp => .east

/-- The run mode of a half: in SERVICE and STANDBY the mode in PREV (R29, Table 1.7). -/
def runMode (s : State) (h : Half) : Nat :=
  if s.mode h == mService || s.mode h == mStandby then s.rd (pgSys h) SYS_MODE_PREV else s.mode h

/-- A G2 design runs in the G2 block: RUN-G2, or SERVICE entered from it (R29). -/
def g2Mode (s : State) : Bool := s.runMode .east == mRunG2

/-! ## Events (R451) and page errors (R452) -/

/-- PG_IRQ_EN of a page; CLK_FAIL is always enabled (R335). -/
def irqEn (s : State) (p : Nat) : Nat :=
  let e := s.rd p PG_IRQ_EN
  if pageKind p == .clk && !e.testBit 0 then e + 1 else e

/-- Deliver an event to a half's cox, or hold it while the cox restarts (R397). -/
def toCox (s : State) (h : Half) (e : Emission) : State :=
  let c := s.cox.get h
  if c.op.isSome then { s with cox := s.cox.set h { c with held := c.held ++ [e] } } else s.emit e

/-- A page's event: its PG_IRQ_RAW bit rises, and with its enable set the page's MSI-X message goes once to the host
and the event to the cox of the half that serves the page. -/
def raise (s : State) (p b : Nat) : State :=
  let raw := s.rd p PG_IRQ_RAW
  if raw.testBit b then s
  else
    let s := s.wr p PG_IRQ_RAW (raw + 2 ^ b)
    if (s.irqEn p).testBit b then (s.msix 0 p).toCox (s.serves p) (.coxEvent (s.serves p) p b) else s

/-- An event of a SYS page that the device also delivers to the cox of the half that records it, whatever PG_IRQ_EN says (R374):
EN enables the MSI-X message alone. DEDUCED, unsafe: notes/assumptions/45. -/
def raiseCox (s : State) (h : Half) (b : Nat) : State :=
  let told := !(s.rd (pgSys h) PG_IRQ_RAW).testBit b && (s.irqEn (pgSys h)).testBit b
  let s := s.raise (pgSys h) b
  if told then s else s.toCox h (.coxEvent h (pgSys h) b)

/-- A page error: the first since the last clear is recorded, a later one sets MORE. -/
def pgErr (s : State) (p code addr : Nat) : State :=
  if s.on p PG_ERR_VALID then s.wr p PG_ERR_MORE 1
  else s.wrs p [(PG_ERR_VALID, 1), (PG_ERR_CODE, code), (PG_ERR_ADDR, addr)]

/-! ## The upkeep control words of Table 12.6 and the other GO registers -/

/-- A GO is taken: SEQ advances, STATUS is BUSY, REASON none. -/
def goBusy (s : State) (p : Nat) (g : GoFlds) : State :=
  (s.step1 p g.seq).wrs p [(g.status, 1), (g.reason, 0)]

/-- An operation ends DONE. DEDUCED, unsafe: notes/assumptions/14. -/
def goDone (s : State) (p : Nat) (g : GoFlds) : State := s.wrs p [(g.status, 2), (g.reason, 0)]

/-- An operation ends REFUSED. -/
def goRefused (s : State) (p : Nat) (g : GoFlds) (reason : Nat) : State :=
  s.wrs p [(g.status, 3), (g.reason, reason)]

/-! ## Tables of rooms, crews and wings -/

/-- A room; an entry at an invalid index reads RETIRED with RETIRE = 0 (R116). -/
def room (s : State) (r : Nat) : Room :=
  if r % 256 < 192 then Tbl.get s.rooms Room.fresh r else { Room.fresh with state := .retired }

def setRoom (s : State) (r : Nat) (x : Room) : State :=
  if r % 256 < 192 then { s with rooms := Tbl.store s.rooms Room.fresh r x } else s

def modRoom (s : State) (r : Nat) (f : Room → Room) : State := s.setRoom r (f (s.room r))

/-- Change every room of a list. -/
def modRooms (s : State) (rs : List Nat) (f : Room → Room) : State := rs.foldl (fun s r => s.modRoom r f) s

def crew (s : State) (id : Nat) : Option Crew := Tbl.find s.crews id

def setCrew (s : State) (id : Nat) (c : Crew) : State := { s with crews := Tbl.put s.crews id c }

def modCrew (s : State) (id : Nat) (f : Crew → Crew) : State := { s with crews := Tbl.mod s.crews id f }

def wing (s : State) (w : Nat) : Wing := Tbl.get s.wings Wing.fresh w

def setWing (s : State) (w : Nat) (x : Wing) : State := { s with wings := Tbl.store s.wings Wing.fresh w x }

def modWing (s : State) (w : Nat) (f : Wing → Wing) : State := s.setWing w (f (s.wing w))



/-- Half of clocks and power. -/
def pow (s : State) (h : Half) : HalfPower := s.power.get h

def modPow (s : State) (h : Half) (f : HalfPower → HalfPower) : State :=
  { s with power := s.power.set h (f (s.power.get h)) }

end State

end Sys2Proof.Machine
end

