-- ==== Sys2Proof/Machine/CrossOps.lean ====
section
/-! DEFINITION. Class U crossings with status (R361 to R365, R370, R371): pulses, loss, a reset of one side,
resynchronisation. -/

namespace Sys2Proof.Machine

/-! Kinds of Table 11.4. -/

abbrev xkPorchOut : Nat := 1
abbrev xkPorchIn : Nat := 2
abbrev xkDoorway : Nat := 3
abbrev xkLine : Nat := 4
abbrev xkIdle : Nat := 5
abbrev xkCellar : Nat := 6

/-- An idle crossing. -/
def Cross.fresh : Cross := ⟨false, false, 0, false, 0, []⟩

/-- The key of a crossing in `State.cross`. -/
def crossKey (h : Half) (kind index : Nat) : Nat := halfBit h * 4096 + kind * 256 + index

/-- KIND and INDEX name a crossing of the half; the West half has no pin-interrupt lines (Table 14.6). -/
def crossOk (h : Half) (kind index : Nat) : Bool :=
  ((kind == xkPorchOut || kind == xkPorchIn) && index < 12) || (kind == xkDoorway && index == 0) ||
    (kind == xkLine && index < 16 && h == .east) || (kind == xkIdle && index < 8) || (kind == xkCellar && index == 0)

/-- The page that owns a crossing. -/
def crossPage (h : Half) (kind index : Nat) : Nat :=
  if kind = xkLine then pgPint h
  else if kind = xkIdle then pgWng (8 * halfBit h + index)
  else if kind = xkCellar then pgCel
  else pgPin h

/-- The crossing carries pulses. -/
def crossPulse (kind : Nat) : Bool := kind == xkLine || kind == xkIdle || kind == xkCellar

namespace State

def crossing (s : State) (h : Half) (kind index : Nat) : Cross := Tbl.get s.cross Cross.fresh (crossKey h kind index)

def setCross (s : State) (h : Half) (kind index : Nat) (x : Cross) : State :=
  { s with cross := Tbl.store s.cross Cross.fresh (crossKey h kind index) x }

/-- A pulse is not counted: LOST shows in XSTAT and in the owning page's PG_ERR (R364). -/
def crossLose (s : State) (h : Half) (kind index : Nat) : State :=
  (s.setCross h kind index { s.crossing h kind index with lost := true }).pgErr (crossPage h kind index) 3
    (kind * 256 + index)

/-- A pulse arrives at a crossing (R364), for a crew where it is an IDLE pulse; while the crossing is not ready its source holds
the pulse (R370). DESIGN CHOICE, unsafe: notes/assumptions/30. -/
def pulseFor (s : State) (h : Half) (kind index id : Nat) : State :=
  if !crossOk h kind index || !crossPulse kind then s
  else
    let x := s.crossing h kind index
    let l := if kind = xkIdle then x.carries ++ [id] else []
    if !x.isOpen && !x.notReady then s.setCross h kind index { x with isOpen := true, carries := l }
    else if x.pending < 15 then s.setCross h kind index { x with pending := x.pending + 1, carries := l }
    else s.crossLose h kind index

def pulseIn (s : State) (h : Half) (kind index : Nat) : State := s.pulseFor h kind index 0xFFFF

/-- The next handshake starts if a pulse is pending. -/
def pulseNext (x : Cross) : Cross :=
  if 0 < x.pending ∧ !x.notReady then { x with isOpen := true, pending := x.pending - 1 } else { x with isOpen := false }

/-- A handshake completes, so that its pulse is delivered and the next starts (R363, R364). -/
def pulseAway (s : State) (h : Half) (kind index : Nat) : State :=
  let x := s.crossing h kind index
  s.setCross h kind index (pulseNext { x with carries := x.carries.tail })

/-- A pulse of a pin-interrupt line: one that finds its crossing idle and ready crosses at once; another waits for the
handshake under way, or for the crossing (R363, R364, R429). -/
def linePulse (s : State) (n : Nat) : State :=
  let x := s.crossing .east xkLine n
  if !x.isOpen && !x.notReady && crossOk .east xkLine n then s.raise (pgPint .east) n else s.pulseIn .east xkLine n

/-- One side of a crossing resets alone: what is in flight drops (R370). -/
def sideReset (s : State) (h : Half) (kind index inFlight : Nat) : State :=
  let x := s.crossing h kind index
  if !crossOk h kind index || x.notReady then s
  else
    let n := x.pending + if crossPulse kind then bit x.isOpen else inFlight
    s.setCross h kind index { x with notReady := true, isOpen := false, pending := 0, carries := [], drop := min 0xFFFF (x.drop + n) }

/-- The same where the state does not tell how many words are in flight: an open value of at most the four tokens that a
direction holds (R432). DESIGN CHOICE, safe: notes/assumptions/3. -/
def sideDrop (s : State) (h : Half) (kind index : Nat) : State :=
  (s.sideReset h kind index (s.drawn 5)).drew

/-- Both sides are out of reset and have exchanged their pointers. -/
def resync (s : State) (h : Half) (kind index : Nat) : State :=
  let x := s.crossing h kind index
  if !crossOk h kind index || !x.notReady then s
  else s.setCross h kind index (pulseNext { x with notReady := false })

/-- Clear LOST of a crossing (R364). -/
def crossFound (s : State) (h : Half) (kind index : Nat) : State :=
  if (s.crossing h kind index).lost then s.setCross h kind index { s.crossing h kind index with lost := false } else s

/-- XSTAT of the crossing that XSEL names, 0 where it names none (Table 11.3). -/
def xstat (s : State) (h : Half) : Word :=
  let kind := s.rd (pgSys h) SYS_XSEL_KIND
  let index := s.rd (pgSys h) SYS_XSEL_INDEX
  if crossOk h kind index then
    let x := s.crossing h kind index
    BitVec.ofNat 32 (bit x.notReady * 2 ^ 31 + bit x.lost * 2 ^ 30 + x.pending * 2 ^ 24 + x.drop)
  else 0

end State

end Sys2Proof.Machine
end

