-- ==== Sys2Proof/Machine/Fabric.lean ====
section
/-! DEFINITION. What a room's fabric holds (chapter 2): planes and live state, the configuration and the logic of cells,
cupboards, oars, rating oscillators. A room's live state is held in the layout of its state image (Table 3.6) and its
planes in theirs (Table 3.2). -/

namespace Sys2Proof.Machine

/-! ## Where a room's bytes are (R85, R86, R89) -/

/-- The frame address of a plane frame. -/
def planeFrame (p1 : Bool) (room frame : Nat) : Nat := bit p1 * 2 ^ 29 + room * 2 ^ 12 + frame

/-- The frame address of a frame of a room's live state. -/
def stateFrame (room frame : Nat) : Nat := 2 ^ 30 + room * 2 ^ 12 + frame

/-- The key of a frame's first byte in the fabric's table. -/
def frameKey (addr : Nat) : Nat := addr * 512

/-- Bytes in a plane and in a state image. -/
def planeBytes : Nat := 92160
def imageBytes : Nat := 20480

namespace State

/-- Bytes of the plane in a slot of a room, from an offset in the plane. -/
def plane (s : State) (p1 : Bool) (room off n : Nat) : List Byte :=
  Tbl.bytes s.fabric (frameKey (planeFrame p1 room 0) + off) n

/-- Bytes of a room's live state, from an offset in the state image. -/
def live (s : State) (room off n : Nat) : List Byte := Tbl.bytes s.fabric (frameKey (stateFrame room 0) + off) n

def setLive (s : State) (room off : Nat) (bs : List Byte) : State :=
  { s with fabric := Tbl.putBytes s.fabric (frameKey (stateFrame room 0) + off) bs }

/-- Keep the reference CRC-16 of a frame of a plane that a loader has just written (R389). -/
def keepRef (s : State) (addr : Nat) : State :=
  let t := Tbl.slice s.fabric (frameKey addr) 512
  { s with refs := if t.isEmpty then Tbl.del s.refs addr else Tbl.put s.refs addr (crc16 (Tbl.bytes t 0 512)) }

/-- The reference of a frame. -/
def refOf (s : State) (addr : Nat) : Nat := (Tbl.find s.refs addr).getD (crc16 (List.replicate 512 0))

/-- Write the first `n` bytes of a plane, whole frames, into a slot. -/
def putPlane (s : State) (p1 : Bool) (room n : Nat) (t : Tbl Byte) : State :=
  (List.range (n / 512)).foldl (fun s f => s.keepRef (planeFrame p1 room f))
    { s with fabric := Tbl.splice s.fabric (frameKey (planeFrame p1 room 0)) n (Tbl.norm t) }

/-- Write a room's whole live state. -/
def putState (s : State) (room : Nat) (t : Tbl Byte) : State :=
  { s with fabric := Tbl.splice s.fabric (frameKey (stateFrame room 0)) imageBytes (Tbl.norm t) }

/-- The wires of rooms are at rest: they take the state that the rooms' memory cells hold. What hard blocks had in hand and
what delay lines were held to is gone. -/
def clearWires (s : State) (rooms : List Nat) : State :=
  { s with sigs := s.sigs.filter fun e => !rooms.contains (e.1 / 4096), blocks := s.blocks.filter fun e => !rooms.contains (e.1 / 32)
           lines := s.lines.filter fun e => !rooms.contains (e.1 / 1024) }

/-- Return a room to the blank plane in both slots, with zero state (R82, R273, R379). -/
def blankRoom (s : State) (room : Nat) : State :=
  (((s.putPlane false room planeBytes []).putPlane true room planeBytes []).putState room []).clearWires [room]

/-- The room control word of the plane in a slot (Table 3.5: frame 179, offset 0x080). -/
def control (s : State) (p1 : Bool) (room : Nat) : Nat := leNat (s.plane p1 room (179 * 512 + 0x80) 4)

/-- A room runs in bundled-data mode: BD_MODE of its active plane, in the G2 block in RUN-G2 alone (R54). -/
def bundled (s : State) (r : Nat) : Bool :=
  r < 0x30 && s.g2Mode && (s.control (s.room r).active r).testBit 0

/-- The requests of the G2 block are held: outside CONFIGURED, in SLEEP and DEEP_SLEEP (R310), and after a wake until
its calibration (R326). -/
def g2Gated (s : State) : Bool :=
  let m := s.rd pgG2c G2C_STAT_PWR
  s.rd pgG2c G2C_STAT_STATE != 5 || m == 1 || m == 2 || s.g2.held

/-- Tokens move in a room: GSR has run (R70), the mode serves the fabric (Table 1.5) and the half has a clock (R28), no
acknowledge is stopped (R108) and no state is being exchanged (R98), and a bundled-data room is not gated (R310). -/
def tokensMove (s : State) (r : Nat) : Bool :=
  s.seq.gsr && (inService (s.mode (roomHalf r)) || s.mode (roomHalf r) == mStartup) && !s.cellar.noClock.get (roomHalf r) &&
    !(s.room r).stopped && !(s.room r).still && !(s.bundled r && s.g2Gated)

end State

/-! ## Cells (R43 to R55) -/

/-- The configuration of a cell: truth tables and cell word (Tables 2.1, 3.3, 3.4). -/
structure CellCfg where
  ttA  : Nat
  ttB  : Nat
  word : Nat
  deriving DecidableEq, Repr

/-- The configuration of cell `cluster × 16 + n` in a room's active plane (Tables 3.2 and 3.3). -/
def State.cellCfg (s : State) (r cell : Nat) : CellCfg :=
  let off := cell / 128 * (11 * 512) + cell / 16 % 8 * 704 + cell % 16 * 24
  let bs := s.plane (s.room r).active r off 24
  ⟨leAt bs 0 8, leAt bs 8 8, leAt bs 16 8⟩

/-- Whether inputs 2k and 2k+1 form a 1-of-4 group. -/
def CellCfg.paired (c : CellCfg) (n : Nat) : Bool := (c.word / 2 ^ 48).testBit (n / 2)

/-- The number that the high wires of group `k` form, W0 lowest (R46). Which of the four is which R46 does not say: W0 = F of
input 2k, W1 = T of 2k, W2 = F of 2k+1, W3 = T of 2k+1. DESIGN CHOICE, unsafe: notes/assumptions/42. -/
def group (w : Wires) (k : Nat) : Nat :=
  bit (w.f.getLsbD (2 * k)) + 2 * bit (w.t.getLsbD (2 * k)) + 4 * bit (w.f.getLsbD (2 * k + 1)) +
    8 * bit (w.t.getLsbD (2 * k + 1))

/-- The value of input `n`, nothing at the spacer. An illegal code counts as 1 in dual rail and as its highest wire in
1-of-4, as a cell with CODE_CHK = 0 takes it (R46, R47). In bundled-data mode the T wire carries the bit, once the request
that goes with it is high; F and PAIR are ignored (R55). -/
def inputVal (c : CellCfg) (bd : Bool) (w : Wires) (n : Nat) : Option Bool :=
  if bd then (if w.req.getLsbD n then some (w.t.getLsbD n) else none)
  else if c.paired n then
    match group w (n / 2) with
    | 0 => none
    | g => some (if n % 2 = 0 then g.log2 % 2 == 1 else g.log2 / 2 == 1)
  else
    match w.t.getLsbD n, w.f.getLsbD n with
    | false, false => none
    | t, _ => some t

/-- The code on input `n` is illegal (Table 2.2). -/
def inputIllegal (c : CellCfg) (w : Wires) (n : Nat) : Bool :=
  if c.paired n then
    let g := group w (n / 2)
    g != 0 && g != 2 ^ g.log2
  else w.t.getLsbD n && w.f.getLsbD n

/-- Input `n` is used by a half. -/
def CellCfg.uses (c : CellCfg) (n : Nat) : Bool := (c.word / 2 ^ 36).testBit n || (c.word / 2 ^ 42).testBit n

/-- A cell with CODE_CHK = 1 sees an illegal code on a used input (R47); bundled-data mode ignores CODE_CHK (R55). -/
def CellCfg.seesIllegal (c : CellCfg) (bd : Bool) (w : Wires) : Bool :=
  !bd && c.word.testBit 60 && (List.range 6).any fun n => c.uses n && inputIllegal c w n

/-- The output that a half computes once every input it uses holds a value (R52); an unused input enters the index as 0
(R43). A half that uses no input stays at the spacer, as in the blank plane (R82). DEDUCED, unsafe: notes/assumptions/42. -/
def halfOut (c : CellCfg) (bd : Bool) (w : Wires) (tt use : Nat) : Option Bool :=
  if use = 0 then none
  else
    (List.range 6).foldl
      (fun acc n => acc.bind fun i => if use.testBit n then (inputVal c bd w n).map fun v => i + bit v * 2 ^ n else some i)
      (some 0)
    |>.map tt.testBit

/-- Every input that a half uses is at the spacer (R52). -/
def halfNull (c : CellCfg) (bd : Bool) (w : Wires) (use : Nat) : Bool :=
  (List.range 6).all fun n => !use.testBit n || (inputVal c bd w n).isNone

/-- USE_A and USE_B; with OUT_PAIR the cell completes its output only when both halves have completed, so each waits for
the inputs of both (chapter 2, Encodings). -/
def CellCfg.useA (c : CellCfg) : Nat := bits c.word 41 36
def CellCfg.useB (c : CellCfg) : Nat := bits c.word 47 42
def CellCfg.pairs (c : CellCfg) (bd : Bool) : Bool := !bd && c.word.testBit 59

/-- Both halves' outputs for the wires at hand: each leaves the spacer when its inputs are complete, returns to it when they
have all returned, and keeps its value in between (R52). -/
def cellOuts (c : CellCfg) (bd : Bool) (w : Wires) (a b : Option Bool) : Option Bool × Option Bool :=
  let a' := if a.isNone then halfOut c bd w c.ttA c.useA else if halfNull c bd w c.useA then none else a
  let b' := if b.isNone then halfOut c bd w c.ttB c.useB else if halfNull c bd w c.useB then none else b
  if c.pairs bd && a'.isSome != b'.isSome then (a, b) else (a', b')

/-- What the receivers of an output answer (R48, R51): every acknowledge high, every one low, some of each, or there is no
receiver. -/
inductive Acked where
  | high | low | mixed | alone
  deriving DecidableEq, Repr

/-- An output without a receiver acknowledges itself. DESIGN CHOICE, unsafe: notes/assumptions/42. -/
def Acked.rose (x : Acked) (shows : Bool) : Bool := x == .high || (x == .alone && shows)
def Acked.fell (x : Acked) (shows : Bool) : Bool := x == .low || (x == .alone && !shows)

/-- A cell as it stands: the halves' outputs, the acknowledge to its inputs, and VALUE and PHASE of H0 and H1. -/
structure CellNow where
  sig : Sig
  v0  : Bool
  p0  : Bool
  v1  : Bool
  p1  : Bool
  deriving DecidableEq, Repr

/-- One hold element (R45, R48, R49): mode, whether an easy-all gate is shut (R78), the half's output, the receivers'
acknowledge, VALUE and PHASE. An empty element captures a complete value while the receivers' acknowledge is low, and then
presents it; a full one empties once its half is at the spacer and the receivers have acknowledged. A bypassed element keeps
both bits at 0. -/
def hold (mode : Nat) (shut : Bool) (out : Option Bool) (up : Acked) (v p : Bool) : Bool × Bool :=
  if mode = 0 then (false, false)
  else if p then (v, !(out.isNone && up.rose true))
  else
    match out with
    | some b => if up.fell false && !(mode == 2 && shut) then (b, true) else (v, false)
    | none => (v, false)

/-- Modes of the hold elements (Table 2.4; 0b11 counts as 0b01). -/
def CellCfg.mode0 (c : CellCfg) : Nat := if bits c.word 52 51 = 3 then 1 else bits c.word 52 51
def CellCfg.mode1 (c : CellCfg) : Nat := if bits c.word 54 53 = 3 then 1 else bits c.word 54 53

/-- A half has done its part of the acknowledge's rise, or of its fall: a latch has captured, or emptied; a bypassed half's
receivers have acknowledged, or lowered their acknowledge (R49, R53). A half that uses no input takes no part. -/
def sideUp (use mode : Nat) (out : Option Bool) (up : Acked) (p : Bool) : Bool :=
  use == 0 || (if mode = 0 then out.isSome && up.rose true else p)
def sideDown (use mode : Nat) (out : Option Bool) (up : Acked) (p : Bool) : Bool :=
  use == 0 || (if mode = 0 then out.isNone && up.fell false else !p)

/-- The cell's next transitions, for the wires at its inputs and the acknowledges of its two outputs' receivers. A cell that
sees an illegal code keeps its outputs and its acknowledge (R47). -/
def CellCfg.next (c : CellCfg) (bd shut : Bool) (w : Wires) (up0 up1 : Acked) (x : CellNow) : CellNow :=
  if c.seesIllegal bd w then x
  else
    let o := cellOuts c bd w x.sig.a x.sig.b
    let h0 := hold c.mode0 shut o.1 up0 x.v0 x.p0
    let h1 := hold c.mode1 shut o.2 up1 x.v1 x.p1
    let up := sideUp c.useA c.mode0 o.1 up0 h0.2 && sideUp c.useB c.mode1 o.2 up1 h1.2
    let down := sideDown c.useA c.mode0 o.1 up0 h0.2 && sideDown c.useB c.mode1 o.2 up1 h1.2
    let ack := if c.useA = 0 ∧ c.useB = 0 ∨ down then false else if up then true else x.sig.ack
    ⟨⟨o.1, o.2, ack⟩, h0.1, h0.2, h1.1, h1.2⟩

/-- What a cell's half sends (R49): the token that its latch holds, or in bypass the half's output. -/
def sent (mode : Nat) (out : Option Bool) (v p : Bool) : Option Bool := if mode = 0 then out else if p then some v else none

namespace State

/-- The four state bits of a cell (Table 3.6). -/
def cellBits (s : State) (r cell : Nat) : Nat :=
  (byteAt (s.live r (cell / 2) 1) 0).toNat / 16 ^ (cell % 2) % 16

def setCellBits (s : State) (r cell v : Nat) : State :=
  let b := (byteAt (s.live r (cell / 2) 1) 0).toNat
  let b := if cell % 2 = 0 then b / 16 * 16 + v % 16 else b % 16 + v % 16 * 16
  s.setLive r (cell / 2) [BitVec.ofNat 8 b]

/-- The state bits of two cells in a byte, as their modes let them stand: a bypassed element keeps both bits at 0 (R45). -/
def heldBits (s : State) (r i : Nat) (b : Byte) : Byte :=
  let one (cell v : Nat) : Nat :=
    let c := s.cellCfg r cell
    (if c.mode0 = 0 then 0 else v % 4) + (if c.mode1 = 0 then 0 else v / 4 % 4 * 4)
  BitVec.ofNat 8 (one (2 * i) (b.toNat % 16) + 16 * one (2 * i + 1) (b.toNat / 16))

/-- A room takes live state: a bypassed element keeps its bits at 0 (R45), every latch is empty until GSR (R70), and the
wires follow. -/
def enterState (s : State) (r : Nat) (t : Tbl Byte) : State :=
  let t := Tbl.mapAll t fun k b => if 1024 ≤ k then b else if s.seq.gsr then s.heldBits r k b else 0
  (s.putState r t).clearWires [r]

/-- A cell's cluster sets the room's code-error flag (R47), where the plane enables it (CODE_EN, Table 3.5). -/
def codeError (s : State) (r : Nat) : State :=
  if (s.control (s.room r).active r).testBit 5 then s.modRoom r fun x => { x with codeFlag := true } else s

/-! ## Cupboards (R62 to R66) -/

/-- A 36-bit word of a cupboard. -/
def cupWord (s : State) (r cup w : Nat) : Nat :=
  leNat (s.live r ((2 + 9 * cup) * 512 + 36 * w / 8) 5) / 2 ^ (36 * w % 8) % 2 ^ 36

def setCupWord (s : State) (r cup w v : Nat) : State :=
  let off := (2 + 9 * cup) * 512 + 36 * w / 8
  let old := leNat (s.live r off 5)
  let sh := 36 * w % 8
  s.setLive r off (leBytes 5 (old % 2 ^ sh + v % 2 ^ 36 * 2 ^ sh + old / 2 ^ (36 + sh) * 2 ^ (36 + sh)))

/-- SHAPE of a cupboard's port (Table 2.8); 0b11 counts as 0b00. -/
def cupShape (s : State) (r cup : Nat) (portB : Bool) : Nat :=
  let n := Config.cupShape (s.plane (s.room r).active r (178 * 512 + 32 * cup) 32) portB % 4
  if n = 3 then 0 else n

end State

/-- The word, first lane and number of lanes that a port address of a shape reaches (R63). -/
def cupReach (shape a : Nat) : Nat × Nat × Nat :=
  match shape with
  | 1 => (a % 2048 / 2, 2 * (a % 2), 2)
  | 2 => (a % 4096 / 4, a % 4, 1)
  | _ => (a % 1024, 0, 4)

/-- A word after a write of the enabled lanes (R63, R64). A ×9 port has no lane enables. -/
def cupMerge (old lane n lanes data : Nat) : Nat :=
  (List.range n).foldl
    (fun w i =>
      if n = 1 ∨ lanes.testBit i then
        let sh := 9 * (lane + i)
        w - bits w (sh + 8) sh * 2 ^ sh + bits data (9 * i + 8) (9 * i) * 2 ^ sh
      else w)
    old

namespace State

/-- A request that a cupboard port takes (R64): its effect, and the response token. -/
def cupOne (s : State) (r cup : Nat) (q : CupReq) : Nat × State :=
  let (w, lane, n) := cupReach (s.cupShape r cup q.portB) q.addr.toNat
  let old := s.cupWord r cup w
  if q.write then (0, s.setCupWord r cup w (cupMerge old lane n q.lanes.toNat q.data.toNat))
  else (bits old (9 * (lane + n) - 1) (9 * lane), s)

/-- The word that a request reaches. -/
def cupTarget (s : State) (r cup : Nat) (q : CupReq) : Nat := (cupReach (s.cupShape r cup q.portB) q.addr.toNat).1

end State

/-! ## Oars (R67 to R69) -/

/-- An oar's accumulator as a signed number, OVF and OPERR. -/
structure Oar where
  acc   : Int
  ovf   : Bool
  operr : Bool
  deriving DecidableEq, Repr

/-- The 64-bit two's-complement value of an integer. -/
def wrap64 (x : Int) : Int := (BitVec.ofInt 64 x).toInt

/-- An operand of the signedness that its flag gives. -/
def operand (x : BitVec 27) (signed : Bool) : Int := if signed then x.toInt else x.toNat

/-- The exact product of an operand token (R68). -/
def product (t : OarTok) : Int := operand t.a t.sa * operand t.b t.sb

/-- The accumulator after adding an integer, with OVF set where the true sum leaves the signed range (R68). -/
def Oar.add (o : Oar) (x : Int) : Oar :=
  { o with acc := wrap64 (o.acc + x), ovf := o.ovf || wrap64 (o.acc + x) != o.acc + x }

/-- The operations of Table 2.11. -/
def Oar.mul (_o : Oar) (t : OarTok) : Oar := ⟨wrap64 (product t), false, false⟩
def Oar.mac (o : Oar) (t : OarTok) : Oar := o.add (product t)
def Oar.msub (o : Oar) (t : OarTok) : Oar := o.add (-(product t))
def Oar.load (_o : Oar) (t : OarTok) : Oar :=
  ⟨if t.sa then (t.a ++ t.b).toInt else (t.a ++ t.b).toNat, false, false⟩
def Oar.clear (_o : Oar) (_t : OarTok) : Oar := ⟨0, false, false⟩
def Oar.emitOp (o : Oar) (_t : OarTok) : Oar := o
def Oar.reserved (o : Oar) (_t : OarTok) : Oar := { o with operr := true }

namespace State

/-- An oar of a room (Table 3.6, frame 38). -/
def oar (s : State) (r n : Nat) : Oar :=
  let bs := s.live r (38 * 512 + 16 * n) 9
  ⟨(BitVec.ofNat 64 (leAt bs 0 8)).toInt, (byteAt bs 8).getLsbD 0, (byteAt bs 8).getLsbD 1⟩

def setOar (s : State) (r n : Nat) (o : Oar) : State :=
  s.setLive r (38 * 512 + 16 * n) (leBytes 8 (BitVec.ofInt 64 o.acc).toNat ++ [BitVec.ofNat 8 (bit o.ovf + 2 * bit o.operr)])

end State

/-- The operation of an OP (Table 2.11). -/
def oarFn : Nat → Oar → OarTok → Oar
  | 0 => Oar.mul
  | 1 => Oar.mac
  | 2 => Oar.msub
  | 3 => Oar.load
  | 4 => Oar.clear
  | 5 => Oar.emitOp
  | _ => Oar.reserved

/-- The 66 bits of a result token (Table 2.10). -/
def Oar.token (o : Oar) : Nat := (BitVec.ofInt 64 o.acc).toNat + bit o.ovf * 2 ^ 64 + bit o.operr * 2 ^ 65

/-- An oar accepts an operand token (R67): its effect, and the result token where the token or the operation asks for one. -/
def State.oarOne (s : State) (r n op : Nat) (t : OarTok) : Option Nat × State :=
  let o := oarFn op (s.oar r n) t
  (if t.emit || op == 5 then some o.token else none, s.setOar r n o)

/-- A room number that exists (R6). -/
def roomOk (r : Nat) : Bool := r < 4096 && r % 256 < 192

/-- ROSC_WINDOW_END (R77): a window of an enabled oscillator writes its count. -/
def execRoscWindowEnd (wing : BitVec 4) (band : BitVec 2) (count : BitVec 24) (s : State) :
    Host.Outcome State Fault Refusal :=
  let p := pgWng wing.toNat
  let b := band.toNat
  .next <|
    if (s.rd p WNG_ROSC_CTRL_EN).testBit b then
      (((s.step1 p (WNG_ROSC_COUNT_SEQ.at 4 b)).wrs p
        [(WNG_ROSC_COUNT_COUNT.at 4 b, count.toNat), (WNG_ROSC_COUNT_VALID.at 4 b, 1)]).raise p 1)
    else s

/-- A write to WNG.ROSC_CTRL (R76, R77): an oscillator that is turned off loses VALID and keeps COUNT and SEQ; in RUN-G2
bit 0 of wing E0 stays 1. -/
def State.roscCtrl (s : State) (wing v : Nat) : State :=
  let p := pgWng wing
  let en := if wing = 0 ∧ s.g2Mode then setBit (v % 16) 0 true else v % 16
  let s := s.wrs p [(WNG_ROSC_CTRL_WINDOW, v / 256), (WNG_ROSC_CTRL_EN, en)]
  (List.range 4).foldl (fun s b => if en.testBit b then s else s.wr p (WNG_ROSC_COUNT_VALID.at 4 b) 0) s

end Sys2Proof.Machine
end

