-- ==== Sys2Proof/Machine/Memory.lean ====
section
/-! DEFINITION. The memory stacks (chapter 5): the two-symbol code and its records, regions and reach, frames and
granules. -/

namespace Sys2Proof.Machine

/-- The canonical form of memory: addresses strictly rising, no byte of 0 (what an unlisted address reads as). -/
def Memory.wf (m : List Host.Cell) : Bool := Tbl.wf m && m.all fun c => c.2 != 0

/-! ## The code (R162) -/

/-- A product in GF(2^8) on x^8 + x^4 + x^3 + x^2 + 1. -/
def gfMul (a b : Nat) : Nat :=
  let p := (List.range 8).foldl (fun p i => if b.testBit i then p ^^^ a <<< i else p) 0
  (List.range 7).foldl (fun p i => if p.testBit (14 - i) then p ^^^ 0x11D <<< (6 - i) else p) p

/-- g(x) = (x + 1)(x + α)(x + α^2)(x + α^3), without its leading term, highest power first. -/
def generator : List Nat :=
  [1, 2, 4, 8].foldl (fun g r => List.zipWith (· ^^^ ·) (g ++ [0]) (0 :: g.map (gfMul r))) [1] |>.tail

/-- The four check bytes of a sector's data bytes: the remainder of c_0 x^35 + … + c_31 x^4 by g(x). -/
def rsCheck (data : List Byte) : List Byte :=
  (data.foldl
    (fun rem b =>
      let q := b.toNat ^^^ rem.headD 0
      List.zipWith (· ^^^ ·) (rem.tail ++ [0]) (generator.map (gfMul q)))
    [0, 0, 0, 0]).map (BitVec.ofNat 8)

/-! ## Sources of an uncorrectable record (Table 5.14) -/

abbrev ueWindow : Nat := 1
abbrev ueHost : Nat := 2
abbrev ueLoader : Nat := 3
abbrev ueWalker : Nat := 4
abbrev uePatrol : Nat := 5
abbrev ueScrub : Nat := 6
abbrev ueCox : Nat := 7
abbrev ueHatch : Nat := 8
abbrev ueReclaim : Nat := 9
abbrev ueMigrate : Nat := 0xA
abbrev ueAttic : Nat := 0xB
abbrev ueChain : Nat := 0xC

/-- The stack of a frame, of a sector (Table 5.3). -/
def stackOf (frame : Nat) : Nat := frame / 0x4000
def sectorStack (sector : Nat) : Nat := sector / 2 ^ 30

/-- Bytes in a frame and in a granule. -/
def frameBytes : Nat := 2 ^ 21
def granBytes : Nat := 2 ^ 16

/-- One past the last device physical address (R169). -/
def dpaEnd : Nat := 2 ^ 37

/-! ## Regions (R170) -/

/-- A region entry in force: its span of frames, world, kind, and who may reach it. -/
structure Region where
  base    : Nat
  limit   : Nat
  world   : Bool
  shared  : Bool
  kind    : Nat
  hostacc : Nat
  anyfunc : Bool
  func    : Nat
  deriving DecidableEq, Repr

abbrev kSystem : Nat := 1
abbrev kCrewStore : Nat := 2
abbrev kPool : Nat := 3
abbrev kHost : Nat := 4

namespace State

/-- Region entry `n` of a stack, clipped to the stack; nothing where it contains no frame. -/
def region (s : State) (stack n : Nat) : Option Region :=
  let p := pgMem stack
  let f (x : Fld) := s.rd p (x.at 8 n)
  let base := max (f MEM_RGN_BASE_BASE) (stack * 0x4000)
  let limit := min (f MEM_RGN_BASE_LIMIT) (stack * 0x4000 + 0x3FFF)
  let kind := f MEM_RGN_CTRL_KIND
  if f MEM_RGN_CTRL_VALID = 1 ∧ 1 ≤ kind ∧ kind ≤ 4 ∧ f MEM_RGN_BASE_BASE ≤ f MEM_RGN_BASE_LIMIT ∧ base ≤ limit then
    some ⟨base, limit, f MEM_RGN_CTRL_WORLD == 1, f MEM_RGN_CTRL_SHARED == 1, kind, f MEM_RGN_CTRL_HOSTACC,
      f MEM_RGN_CTRL_ANYFUNC == 1, f MEM_RGN_CTRL_FUNC⟩
  else none

/-- The region of a frame: the lowest-numbered entry of its stack that contains it. -/
def regionOf (s : State) (frame : Nat) : Option Region :=
  if frame < 0x10000 then
    (List.range 16).findSome? fun n =>
      (s.region (stackOf frame) n).filter fun r => r.base ≤ frame && frame ≤ r.limit
  else none

/-- KIND of the region that holds an address. -/
def regionKind (s : State) (a : Nat) : Nat := ((s.regionOf (a / frameBytes)).map (·.kind)).getD 0

/-- The world of an owner: a host function's by SEC.FN_WORLD, the cox partitions' own; the personality is secure
(Table 13.2). -/
def ownerWorld (s : State) (owner : Nat) : Bool :=
  if owner < 0x100 then (s.rd pgSec (SEC_FN_WORLD_WORLD.at 4 (owner / 32))).testBit (owner % 32)
  else owner != 0x100

/-- A host function, or the cox non-secure partition, may reach a frame through BAR4 (Table 5.7). -/
def hostReaches (s : State) (owner frame : Nat) (write : Bool) : Bool :=
  match s.regionOf frame with
  | none => false
  | some r =>
    r.kind != kSystem && r.world == s.ownerWorld owner && (r.anyfunc || r.func == owner) &&
      (if write then r.hostacc == 2 else r.hostacc == 1 || r.hostacc == 2)

/-! ## Frames (R168, R182 to R184) -/

end State

/-- Spans of frames, first to last. -/
abbrev Spans : Type := List (Nat × Nat)

/-- The parts of a span below and above another. -/
def Spans.minus (l : Spans) (lo hi : Nat) : Spans :=
  l.flatMap fun (a, b) =>
    if b < lo ∨ hi < a then [(a, b)]
    else (if a < lo then [(a, lo - 1)] else []) ++ (if hi < b then [(hi + 1, b)] else [])

/-- The parts of spans inside another span. -/
def Spans.inter (l : Spans) (lo hi : Nat) : Spans :=
  l.filterMap fun (a, b) => if b < lo ∨ hi < a then none else some (max a lo, min b hi)

def Spans.size (l : Spans) : Nat := (l.map fun (a, b) => b + 1 - a).sum

def Spans.has (l : Spans) (f : Nat) : Bool := l.any fun (a, b) => a ≤ f && f ≤ b

/-- The `i`-th number of the spans. -/
def Spans.nth : Spans → Nat → Nat
  | [], _ => 0
  | (a, b) :: t, i => if i < b + 1 - a then a + i else Spans.nth t (i - (b + 1 - a))

namespace State

/-- The frames of a stack that lie in POOL regions of a world with SHARED = 0: what its half's allocator owns. -/
def poolSpans (s : State) (stack : Nat) (world : Bool) : Spans :=
  ((List.range 16).foldl
    (fun (acc : Spans × Spans) n =>
      match s.region stack n with
      | none => acc
      | some r =>
        (acc.1.minus r.base r.limit,
          if r.kind = kPool ∧ !r.shared ∧ r.world = world then acc.2 ++ acc.1.inter r.base r.limit else acc.2))
    ([(stack * 0x4000, stack * 0x4000 + 0x3FFF)], [])).2

/-- Frames of a stack that are neither free nor zeroed: granted, retired, held back. -/
def usedFrames (s : State) (stack : Nat) : List Nat :=
  s.frames.filterMap fun (f, st) => if stackOf f = stack ∧ st ≠ .zeroed then some f else none

/-- The free frames of a stack and world, zeroed ones included. -/
def freeSpans (s : State) (stack : Nat) (world : Bool) : Spans :=
  (s.usedFrames stack).foldl (fun l f => l.minus f f) (s.poolSpans stack world)

def freeCount (s : State) (stack : Nat) (world : Bool) : Nat := (s.freeSpans stack world).size

/-- The zeroed frames of a stack and world. -/
def zeroedFrames (s : State) (stack : Nat) (world : Bool) : List Nat :=
  let sp := s.poolSpans stack world
  s.frames.filterMap fun (f, st) => if stackOf f = stack ∧ st = .zeroed ∧ sp.has f then some f else none

/-- The first stack of a half. -/
def firstStack (h : Half) : Nat := 2 * halfBit h

/-- PGT.POOL_NS.FREE and POOL_S.FREE: free frames of a world in a half. -/
def halfFree (s : State) (h : Half) (world : Bool) : Nat :=
  s.freeCount (firstStack h) world + s.freeCount (firstStack h + 1) world

def halfZeroed (s : State) (h : Half) (world : Bool) : Nat :=
  (s.zeroedFrames (firstStack h) world).length + (s.zeroedFrames (firstStack h + 1) world).length

/-- A frame's bytes become 0, whole sectors written (R165, R183). -/
def zeroFrame (s : State) (f : Nat) : State :=
  { s with mem := Tbl.splice s.mem (f * frameBytes) frameBytes []
           bad := Tbl.splice s.bad (f * 0x10000 * 36) (0x10000 * 36) [] }

/-- POOL_LOW (R188): the free frames of a world of a half have fallen from `before` below LOW_MARK. -/
def poolLow (s : State) (h : Half) (world : Bool) (before : Nat) : State :=
  let mark := s.rd (pgPgt h) PGT_ALOC_CFG_LOW_MARK
  if mark ≤ before ∧ s.halfFree h world < mark then s.raise (pgPgt h) 1 else s

/-- The allocator grants frames of a stack: neither the stack itself nor, once it is away, the half's first stack, which
holds the bitmaps, is under a MEM.RETRAIN (R398). -/
def grants (s : State) (stack : Nat) : Bool :=
  !s.stackCtl.retrain.contains stack && !s.stackCtl.away.contains (stack / 2 * 2)

/-- Free frames of a stack and world that may be granted. -/
def grantable (s : State) (stack : Nat) (world : Bool) : Nat := if s.grants stack then s.freeCount stack world else 0

/-- The stack of a half with more free frames of a world, its first when both have the same number (R182). -/
def fullerStack (s : State) (h : Half) (world : Bool) : Nat :=
  if s.grantable (firstStack h + 1) world > s.grantable (firstStack h) world then firstStack h + 1 else firstStack h

/-- Take a frame of a world from a stack: a zeroed one, else a free one that the engine zeroes first. Which one it is
is an open value (R182, R183, R187). -/
def takeFrom (s : State) (stack : Nat) (world : Bool) : Option (Nat × State) :=
  let before := s.halfFree (halfOf (stack / 2)) world
  let z := s.zeroedFrames stack world
  let free := s.freeSpans stack world
  let give (f : Nat) (s : State) : Nat × State :=
    (f, ({ s with frames := Tbl.put s.frames f .taken }).poolLow (halfOf (stack / 2)) world before)
  if !s.grants stack then none
  else if z ≠ [] then
    let f := z.getD (s.drawn z.length) 0
    some (give f s.drew)
  else if 0 < free.size then
    let f := free.nth (s.drawn free.size)
    some (give f (s.drew.zeroFrame f))
  else none

/-- Return a frame to the free list, or retire it if it is due (R168, R184). -/
def releaseFrame (s : State) (f : Nat) : State :=
  if s.stackCtl.retireDue.contains f then
    { s with frames := Tbl.put s.frames f .retired, stackCtl := { s.stackCtl with retireDue := s.stackCtl.retireDue.erase f } }
  else { s with frames := Tbl.del s.frames f }

/-- The half's pool of a world holds a frame. -/
def inPool (s : State) (h : Half) (f : Nat) : Bool :=
  halfOf (f / 0x8000) == h && f < 0x10000 &&
    match s.regionOf f with
    | some r => r.kind == kPool && !r.shared
    | none => false

/-- POOL_LOW of a half for both worlds, after something that may have taken frames from its free lists. -/
def poolWatch (s : State) (h : Half) (before : State) : State :=
  (s.poolLow h false (before.halfFree h false)).poolLow h true (before.halfFree h true)

/-- The leader records a retired frame in the Attic, up to 256 (R168). -/
def recordFrame (s : State) (f : Nat) : State :=
  if s.attic.frames.contains f then s
  else if s.attic.frames.length < 256 then { s with attic := { s.attic with frames := s.attic.frames ++ [f] } }
  else s.pgErr (pgMem (stackOf f)) 0x21 f

/-- Retire a frame (R168): a free one at once, a granted one at its release; the leader records it in the Attic, one of an
ORPHAN follower once it has re-adopted it (R21). -/
def retireFrame (s : State) (f : Nat) : State :=
  if Tbl.find s.frames f = some .retired ∨ s.stackCtl.retireDue.contains f then s
  else
    let h := halfOf (f / 0x8000)
    let s1 :=
      if Tbl.find s.frames f = some .taken then
        { s with stackCtl := { s.stackCtl with retireDue := f :: s.stackCtl.retireDue } }
      else { s with frames := Tbl.put s.frames f .retired }
    let s1 := s1.poolWatch h s
    if s1.orphan h then { s1 with gallery := { s1.gallery with frames := s1.gallery.frames ++ [f] } } else s1.recordFrame f

/-! ## Reading and writing through the code (R163 to R168) -/

/-- The controller records an uncorrectable codeword, and the frame that holds it is retired where a patrol read finds
it or a requester finds it again (R166, R168). -/
def ueRecord (s : State) (source sector : Nat) : State :=
  let p := pgMem (sectorStack sector)
  let s := (s.step1 p MEM_UE_SEQ).wrs p [(MEM_UE_ADDR_SECTOR, sector), (MEM_UE_VALID, 1), (MEM_UE_SOURCE, source)]
  let s := s.raise p 0
  if source = uePatrol ∨ s.stackCtl.ueOnce.contains sector then s.retireFrame (sector / 0x10000)
  else { s with stackCtl := { s.stackCtl with ueOnce := sector :: s.stackCtl.ueOnce } }

/-- The data bytes of a sector as memory holds them. -/
def sectorData (s : State) (sector : Nat) : List Byte := Tbl.bytes s.mem (sector * 32) 32

/-- The error pattern of a sector's codeword. -/
def sectorErr (s : State) (sector : Nat) : Tbl Byte := Tbl.slice s.bad (sector * 36) 36

/-- The codeword as the stack gives it. -/
def rawWord (s : State) (sector : Nat) : List Byte :=
  let d := s.sectorData sector
  List.zipWith (· ^^^ ·) (d ++ rsCheck d) (Tbl.bytes s.bad (sector * 36) 36)

/-- Read and decode one sector: the data delivered, nothing for an uncorrectable codeword, which is recorded. -/
def readSector (s : State) (source sector : Nat) : Option (List Byte) × State :=
  let p := pgMem (sectorStack sector)
  match (s.sectorErr sector).length with
  | 0 => (some (s.sectorData sector), s)
  | 1 => (some (s.sectorData sector), s.bump p MEM_ECC_CNT_CE1)
  | 2 => (some (s.sectorData sector), s.bump p MEM_ECC_CNT_CE2)
  | _ =>
    match Config.rsDecode (s.rawWord sector) with
    | none => (none, s.ueRecord source sector)
    | some (two, d) => (some (d.take 32), s.bump p (if two then MEM_ECC_CNT_CE2 else MEM_ECC_CNT_CE1))

/-- The sectors in a range of bytes that hold an error, lowest first. -/
def badSectors (s : State) (a n : Nat) : List Nat :=
  let lo := a / 32
  let hi := (a + n + 31) / 32
  ((s.bad.filter fun e => lo * 36 ≤ e.1 && e.1 < hi * 36).map fun e => e.1 / 36).eraseDups

/-- Read `n` bytes: their sparse contents from offset 0, and what the sector reads did. The read stops at the first
uncorrectable codeword and answers nothing but its sector. DESIGN CHOICE, unsafe: notes/assumptions/9. -/
def readMem (s : State) (source a n : Nat) : Except Nat (Tbl Byte) × State :=
  let start : Except Nat (Tbl Byte) × State := (.ok (Tbl.slice s.mem a n), s)
  (s.badSectors a n).foldl
    (fun acc sec =>
      match acc.1 with
      | .error e => (.error e, acc.2)
      | .ok t =>
        match acc.2.readSector source sec with
        | (none, s) => (.error sec, s)
        | (some d, s) =>
          (.ok <| (List.range 32).foldl
            (fun t i => if a ≤ sec * 32 + i ∧ sec * 32 + i < a + n then Tbl.store t 0 (sec * 32 + i - a) (byteAt d i) else t)
            t, s))
    start

/-- Read a few bytes as a list. -/
def readBytes (s : State) (source a n : Nat) : Option (List Byte) × State :=
  match s.readMem source a n with
  | (.error _, s) => (none, s)
  | (.ok t, s) => (some (Tbl.bytes t 0 n), s)

/-- Store bytes and clear the codewords that the range covers whole. -/
def putWhole (s : State) (a n : Nat) (t : Tbl Byte) : State :=
  { s with mem := Tbl.splice s.mem a n (Tbl.norm t)
           bad := Tbl.splice s.bad (a / 32 * 36) (n / 32 * 36) [] }

/-- Write bytes that lie in one sector: a whole sector replaces the codeword, a part is a read-modify-write (R165). -/
def writePiece (s : State) (source a : Nat) (bs : List Byte) : Bool × State :=
  let sec := a / 32
  let put (s : State) : State :=
    { s with mem := Tbl.putBytes s.mem a bs, bad := Tbl.splice s.bad (sec * 36) 36 [] }
  if bs.length = 32 then (true, put s)
  else
    match s.readSector source sec with
    | (none, s) => (false, s)
    | (some d, s) => (true, put { s with mem := Tbl.putBytes s.mem (sec * 32) d })

end State

/-- Bytes from an address, cut at sector boundaries. -/
def pieces : Nat → Nat → List Byte → List (Nat × List Byte)
  | 0, _, _ => []
  | _ + 1, _, [] => []
  | k + 1, a, bs => (a, bs.take (32 - a % 32)) :: pieces k (a + (32 - a % 32)) (bs.drop (32 - a % 32))

namespace State

/-- Write bytes, sector by sector; answers whether every part was written. -/
def writeBytes (s : State) (source a : Nat) (bs : List Byte) : Bool × State :=
  (pieces (bs.length + 1) a bs).foldl
    (fun acc p =>
      let (ok, s) := acc.2.writePiece source p.1 p.2
      (acc.1 && ok, s))
    (true, s)

/-- The stack of an address answers requests: it is trained, not in self-refresh and not away for training (R398). -/
def stackServes (s : State) (stack : Nat) : Bool := !s.stackCtl.away.contains stack

/-! ## The crew store (R173, R174) -/

/-- A run of granules lies in the crew store of a half. -/
def inStore (s : State) (h : Half) (first count : Nat) : Bool :=
  let base := s.rd (pgPgt h) PGT_CS_BASE_BASE
  let len := s.rd (pgPgt h) PGT_CS_LEN_LEN
  base ≤ first && first + count ≤ base + len

/-- A granule is taken. -/
def granTaken (s : State) (h : Half) (g : Nat) : Bool := (s.alloc.get h).grans.any fun (a, n) => a ≤ g && g < a + n

/-- The free granules of a half's crew store. -/
def granFree (s : State) (h : Half) : Spans :=
  let base := s.rd (pgPgt h) PGT_CS_BASE_BASE
  let len := s.rd (pgPgt h) PGT_CS_LEN_LEN
  if len = 0 then []
  else (s.alloc.get h).grans.foldl (fun l (a, n) => l.minus a (a + n - 1)) [(base, base + len - 1)]

/-- The first granules of the free runs of `n` granules in a half's crew store. -/
def granRuns (s : State) (h : Half) (n : Nat) : Spans :=
  (s.granFree h).filterMap fun (a, b) => if a + n ≤ b + 1 then some (a, b + 1 - n) else none

def modAlloc (s : State) (h : Half) (f : Alloc → Alloc) : State := { s with alloc := s.alloc.set h (f (s.alloc.get h)) }

/-- Take a run of granules. -/
def granPut (s : State) (h : Half) (first count : Nat) : State :=
  s.modAlloc h fun a => { a with grans := (first, count) :: a.grans }

/-- Take a run of `n` granules; which of the free runs is an open value (R174). -/
def granPick (s : State) (h : Half) (n : Nat) : Option (Nat × State) :=
  let l := s.granRuns h n
  if 0 < l.size then
    let g := l.nth (s.drawn l.size)
    some (g, s.drew.granPut h g n)
  else none

/-- Every granule of a run is taken. -/
def granAll (s : State) (h : Half) (first count : Nat) : Bool :=
  count == 0 || ((s.alloc.get h).grans.foldl (fun (l : Spans) (a, n) => l.minus a (a + n - 1)) [(first, first + count - 1)]).isEmpty

/-- Free a run of granules. -/
def granDel (s : State) (h : Half) (first count : Nat) : State :=
  s.modAlloc h fun a =>
    { a with grans := (Spans.minus (a.grans.map fun (x, n) => (x, x + n - 1)) first (first + count - 1)).map
                        fun (x, y) => (x, y + 1 - x) }

end State

end Sys2Proof.Machine
end

