-- ==== Sys2Proof/Machine/Violations.lean ====
section
/-! DEFINITION. Violations and freezing (R404 to R408), and the masters' worlds. -/

namespace Sys2Proof.Machine

/-! Kinds of FREEZE_LAST (Table 13.5) and causes (Table 13.3). -/

abbrev fkCrew : Nat := 0
abbrev fkFn : Nat := 1
abbrev fkCox : Nat := 2
abbrev fkPeer : Nat := 3

abbrev vRegion : Nat := 1
abbrev vWalk : Nat := 2
abbrev vDoorbell : Nat := 3
abbrev vHatch : Nat := 4
abbrev vRing : Nat := 5
abbrev vPage : Nat := 6

/-- A master as OWNER encodes it (R130). -/
def ownerOf : Master → Nat
  | .fn n => n.toNat
  | .coxNs | .coxF false => 0x100
  | .coxS | .coxF true => 0x101

/-- The issuer of a command port. -/
def portOwner : Port → Nat
  | .page _ m => ownerOf m
  | .vf n => n.toNat

/-- OWNER may act on a crew of an owner (R130). -/
def mayAct (owner crewOwner : Nat) : Bool :=
  owner == 0x101 || owner == crewOwner || (crewOwner == 0x1FF && (owner == 0 || owner == 0x100))

namespace State

/-- The world of a master (Table 13.2). -/
def masterWorld (s : State) (m : Master) : Bool := s.ownerWorld (ownerOf m)

/-- A crew is frozen (Table 13.4). -/
def frozenCrew (s : State) (id : Nat) : Bool := s.security.crews.contains id

/-- A host function or the cox non-secure partition is frozen. -/
def frozenMaster (s : State) : Master → Bool
  | .fn n => s.security.fns.contains n.toNat
  | .coxNs => s.security.cox.get s.leader
  | .coxF false => s.security.cox.get s.follower
  | .coxS | .coxF true => false

/-- The record of a freeze in the SEC page, with its events (R407). -/
def freezeLast (s : State) (kind cause id : Nat) : State :=
  let s := (s.step1 pgSec SEC_FREEZE_LAST_SEQ).wrs pgSec
    [(SEC_FREEZE_LAST_VALID, 1), (SEC_FREEZE_LAST_KIND, kind), (SEC_FREEZE_LAST_CAUSE, cause), (SEC_FREEZE_LAST_ID, id)]
  (s.raise pgSec 0).emit (.secureEvent kind cause id)

/-- The record reaches the leader at once, or in ORPHAN at re-adoption (R408). `holder` is the half that holds the
freeze. -/
def freezeRecord (s : State) (holder : Half) (kind cause id : Nat) : State :=
  if s.orphan holder then
    { s with security := { s.security with waiting := s.security.waiting ++ [(kind, cause, id)] } }
  else s.freezeLast kind cause id

/-- Freeze a half's cox non-secure partition (R407, R408). -/
def freezeCox (s : State) (h : Half) (cause : Nat) : State :=
  ({ s with security := { s.security with cox := s.security.cox.set h true } }).freezeRecord h fkCox cause 0x100

/-- Freeze a host function or a cox non-secure partition (R407, R408). -/
def freezeMaster (s : State) (m : Master) (cause : Nat) : State :=
  match m with
  | .fn n =>
    ({ s with security := { s.security with fns := n.toNat :: s.security.fns.erase n.toNat } }).freezeRecord
      .east fkFn cause n.toNat
  | .coxNs => s.freezeCox s.leader cause
  | .coxF false => s.freezeCox s.follower cause
  | .coxS | .coxF true => s

/-- Mark a crew frozen, with the record. Its Steward's part stands in Steward.lean. -/
def freezeCrewMark (s : State) (id cause : Nat) : State :=
  ({ s with security := { s.security with crews := id :: s.security.crews.erase id } }).freezeRecord
    (idHalf id) fkCrew cause id

/-- Freeze a ring peer (R407). -/
def freezePeer (s : State) (id : Nat) : State :=
  ({ s with security := { s.security with peers := id :: s.security.peers.erase id } }).freezeRecord
    .west fkPeer vRing id

/-- The half cannot reach the other one: the lease that its leader check began has lapsed (R35, R37).
DEDUCED, unsafe: notes/assumptions/17. -/
def cut (s : State) (h : Half) : Bool :=
  !s.seq.adopting && if h = s.leader then s.on (pgSys h) SYS_ROLE_LEADER && s.lapsed h else s.orphan h

end State

end Sys2Proof.Machine
end

