-- ==== Sys2Proof/Machine/HatchOps.lean ====
section
/-! DEFINITION. Hatches (chapter 6): admission, notices, pops, heat at delivery. -/

namespace Sys2Proof.Machine

/-! Outcomes of Table 6.4 and end kinds of Table 6.1. -/

abbrev hcOk : Nat := 0
abbrev hcBadLen : Nat := 1
abbrev hcTooLong : Nat := 2
abbrev hcFull : Nat := 3
abbrev hcClosed : Nat := 4
abbrev hcNotProducer : Nat := 5
abbrev hcBadHatch : Nat := 6
abbrev hcUnderflow : Nat := 7

abbrev endCrew : Nat := 1
abbrev endHost : Nat := 2
abbrev endRing : Nat := 3

/-- A hatch number with no reserved bit set (R190). -/
def hatchNumOk (n : Nat) : Bool := n < 0x10000 && bits n 14 12 == 0

/-- The half whose hall holds a hatch. -/
def hatchHalf (n : Nat) : Half := halfOf (n / 0x8000)

/-- Words of the data ring, slots of the notice ring. -/
def Hatch.ring (h : Hatch) : Nat := 2 ^ h.depth
def Hatch.slots (h : Hatch) : Nat := 2 ^ h.nslots

/-- HELD, CREDIT and READY (R195, R202). -/
def Hatch.held (h : Hatch) : Nat := h.packets.length
def Hatch.credit (h : Hatch) : Nat := if h.isOpen then h.ring - (h.packets.map (·.len)).sum else 0
def Hatch.ready (h : Hatch) : Nat := (h.packets.takeWhile (·.posted)).length

/-- The head packet, once its notice is poppable. -/
def Hatch.head (h : Hatch) : Option Packet :=
  match h.packets with
  | p :: _ => if p.posted then some p else none
  | [] => none

/-- A pop: the head packet leaves with its slot and its words. -/
def Hatch.pop (h : Hatch) : Hatch := { h with packets := h.packets.tail, left := h.left + 1 }

/-- The outcome of a push (R198): admitted, refused with a code, a violation. -/
inductive PushOutcome where
  | admitted
  | refuse (code : Nat)
  | violation
  deriving DecidableEq, Repr

namespace State

def hatch (s : State) (n : Nat) : Hatch := Tbl.get s.hatches Hatch.fresh n

def setHatch (s : State) (n : Nat) (h : Hatch) : State := { s with hatches := Tbl.store s.hatches Hatch.fresh n h }

def modHatch (s : State) (n : Nat) (f : Hatch → Hatch) : State := s.setHatch n (f (s.hatch n))

/-- The heat of an ID: 0 until it is first allocated (R127). -/
def heat (s : State) (id : Nat) : Nat := ((Tbl.find s.ids id).map (·.heat)).getD 0

/-- The heat of an ID as a hall knows it (R207). -/
def heatSeen (s : State) (hall : Half) (id : Nat) : Nat :=
  if idHalf id = hall then s.heat id else Tbl.get (s.heatCopy.get hall) 0 id

/-- A crew of an ID and heat exists (R151). -/
def crewLive (s : State) (id heat : Nat) : Bool := (s.crew id).isSome && s.heat id == heat

/-- The pusher is the producer end (R198, step 3). The Steward pushes into any hatch (R206). -/
def isProducer (h : Hatch) : Pusher → Bool
  | .crew id heat => h.srcKind == endCrew && h.src == id && h.srcHeat == heat
  | .host fn => h.srcKind == endHost && h.src == fn
  | .ring peer _ _ _ => h.srcKind == endRing && (h.src == peer || h.src == 0xFFFF)
  | .steward _ => true

/-- The world of a pusher. -/
def pusherWorld (s : State) : Pusher → Bool
  | .crew id _ => ((s.crew id).map (·.world)).getD false
  | .host fn => s.ownerWorld fn
  | .ring _ _ _ w => w
  | .steward w => w

/-- The checks of R198 in order. -/
def pushCheck (s : State) (n : Nat) (p : Pusher) (len : Nat) : PushOutcome :=
  let h := s.hatch n
  if !hatchNumOk n then .refuse hcBadHatch
  else if !h.isOpen || h.closing then .refuse hcClosed
  else if !isProducer h p then .refuse hcNotProducer
  else if s.pusherWorld p != h.world then .violation
  else if len = 0 then .refuse hcBadLen
  else if len > h.ring then .refuse hcTooLong
  else if h.held = h.slots then .refuse hcFull
  else if len > h.credit then .refuse hcTooLong
  else .admitted

/-- The source and heat of a notice (Table 6.3). -/
def noticeSource : Pusher → Nat × Nat
  | .crew id heat => (id, heat)
  | .host fn => (fn, 0)
  | .ring peer _ heat _ => (peer, heat)
  | .steward _ => (0, 0)

/-- Write words of a packet into the data ring, from word index `w` on, wrapping (R195). -/
def ringWrite (s : State) (h : Hatch) (w : Nat) (bs : List Byte) : State :=
  let first := (h.ring - w) * 64
  ((s.writeBytes ueHatch (h.buf * 0x1000 + w * 64) (bs.take first)).2.writeBytes ueHatch (h.buf * 0x1000)
    (bs.drop first)).2

/-- Admit a packet (R200): it reserves a slot and its words, and its words are written. A host has written them
already (R209). -/
def admitted (s : State) (n : Nat) (p : Pusher) (len : Nat) (bs : List Byte) : State :=
  let h := s.hatch n
  let num := (h.admitted + 1) % 2 ^ 32
  let (src, heat) := noticeSource p
  let kind := match p with
    | .steward _ => 1
    | _ => 0
  let s := match p with
    | .host _ => s
    | _ => s.ringWrite h h.tail ((bs ++ List.replicate (len * 64) 0).take (len * 64))
  s.setHatch n { h with
    packets := h.packets ++ [⟨h.tail, false, len, src, heat, kind, num, false, 0, false, false⟩]
    tail := (h.tail + len) % h.ring
    admitted := h.admitted + 1 }

/-- Record a refusal (R199). -/
def refuse (s : State) (n code : Nat) : State :=
  let p := pgHat (hatchHalf n)
  let s := if hatchNumOk n then s.modHatch n fun h => { h with lastErr := code } else s
  let s := match code with
    | 1 => s.bump p HAT_REJECTS_BAD_LEN
    | 2 => s.bump p HAT_REJECTS_TOO_LONG
    | 3 => s.bump p HAT_REJECTS_FULL
    | _ => s.bump p HAT_REJECTS_OTHER
  s.raise p 1

/-! ## Heat at delivery (R207) -/

/-- As a hall knows it, an ID and heat are no crew's (R151): its copy shows another heat, or the ID is EMPTY in a half
that it reaches. DEDUCED, unsafe: notes/assumptions/35. -/
def crewGone (s : State) (hall : Half) (id heat : Nat) : Bool :=
  s.heatSeen hall id != heat || ((idHalf id == hall || !s.cut hall) && (s.crew id).isNone)

/-- The CREW consumer of a hatch is gone, or its heat is not the hatch's. -/
def consumerGone (s : State) (n : Nat) (h : Hatch) : Bool :=
  h.dstKind == endCrew && s.crewGone (hatchHalf n) h.dst h.dstHeat

/-- A packet's source crew is gone, or has another heat now. A fault notice is not checked (R206). -/
def sourceStale (s : State) (n : Nat) (h : Hatch) (p : Packet) : Bool :=
  h.srcKind == endCrew && p.kind == 0 && s.crewGone (hatchHalf n) p.src p.heat

/-- Count a packet discarded under R207; a ring message has its own count (R235). -/
def countStale (s : State) (n : Nat) : State :=
  (s.bump (pgStw (hatchHalf n)) (if (s.hatch n).srcKind = endRing then STW_STALE_RING else STW_STALE_HATCH)).raise (pgHat (hatchHalf n)) 2

/-- Discard stale packets at the head, up to `fuel` of them: for a CREW or RING consumer each is judged at the head, for
a HOST consumer it was judged, and counted, in copy order. -/
def settleHatch (s : State) (n : Nat) : Nat → State
  | 0 => s
  | fuel + 1 =>
    let h := s.hatch n
    match h.head with
    | none => s
    | some p =>
      if h.dstKind = endHost then
        if p.dropped then (s.setHatch n h.pop).settleHatch n fuel else s
      else if s.consumerGone n h || s.sourceStale n h p then ((s.countStale n).setHatch n h.pop).settleHatch n fuel
      else s

def settle (s : State) (n : Nat) : State := s.settleHatch n (s.hatch n).packets.length

/-- A crew comes or goes: the hatches that name it discard what became stale. -/
def settleOf (s : State) (id : Nat) : State :=
  (s.hatches.filter fun e => e.2.src == id || e.2.dst == id).foldl (fun s e => s.settle e.1) s

/-- Read the word of a packet from the data ring. -/
def ringWord (s : State) (h : Hatch) (p : Packet) (i : Nat) : Option (List Byte) × State :=
  s.readBytes ueHatch (h.buf * 0x1000 + (p.start + i) % h.ring * 64) 64

/-- The 16 bytes of a notice with a PHASE (Table 6.3). -/
def noticeBytes (p : Packet) (phase : Nat) : List Byte :=
  leBytes 2 p.len ++ leBytes 2 p.src ++ leBytes 1 (p.heat + 16 * p.kind) ++ leBytes 1 phase ++ leBytes 2 p.start ++
    leBytes 4 p.number ++ leBytes 4 0

/-- PHASE of the `i`-th notice of a ring, counted from 0: 1 in the first pass, 0 in the second (R197). -/
def noticePhase (h : Hatch) (i : Nat) : Nat := bit (i / h.slots % 2 == 0)

/-! ## The Gallery egress buffers (R35, R37, R205) -/

/-- Bytes that an entry takes in a buffer of 2 MiB. -/
def egressSize : Egress → Nat
  | .push _ _ _ bs => bs.length
  | .ring _ bs => bs.length

/-- A half's egress buffer has room behind what it holds, and nothing stalls for it. -/
def egressFits (s : State) (h : Half) (n : Nat) : Bool :=
  (s.gallery.stalled.get h).isEmpty && ((s.gallery.egress.get h).map egressSize).sum + n ≤ 2 ^ 21

/-- Put something for the other half in a half's egress buffer, or behind those that stall for it. -/
def toEgress (s : State) (h : Half) (e : Egress) : State :=
  if s.egressFits h (egressSize e) then
    { s with gallery := { s.gallery with egress := s.gallery.egress.set h (s.gallery.egress.get h ++ [e]) } }
  else
    { s with gallery := { s.gallery with stalled := s.gallery.stalled.set h (s.gallery.stalled.get h ++ [e]) } }

end State

end Sys2Proof.Machine
end

