-- ==== Sys2Proof/Machine/Crews.lean ====
section
/-! DEFINITION. Crews: the descriptor (Tables 4.1 to 4.4) and its checks, suites and edges, porches and doorways,
placement (R139, R140), and what a half holds of a crew outside its rooms. -/

namespace Sys2Proof.Machine

/-! ## Faults, results and retire codes -/

abbrev fPage : Nat := 1
abbrev fProt : Nat := 2
abbrev fFrozen : Nat := 3
abbrev fQuiet : Nat := 4
abbrev fCode : Nat := 5
abbrev fLoad : Nat := 6
abbrev fImage : Nat := 7
abbrev fEssential : Nat := 8
abbrev fEcc : Nat := 9
abbrev fNoFit : Nat := 0xA

/-! Steward result codes (Table 4.12). -/

abbrev scOk : Nat := 0
abbrev scBadOp : Nat := 1
abbrev scBadId : Nat := 2
abbrev scNotOwner : Nat := 3
abbrev scStaleHeat : Nat := 4
abbrev scBadState : Nat := 5
abbrev scBadDesc : Nat := 6
abbrev scNoId : Nat := 7
abbrev scCooling : Nat := 8
abbrev scInUse : Nat := 9
abbrev scNoRooms : Nat := 0xA
abbrev scWorld : Nat := 0xB
abbrev scOrphaned : Nat := 0xC
abbrev scFrozen : Nat := 0xD
abbrev scBusySwap : Nat := 0xE

/-! ## The descriptor (R129) -/

/-- The value of STATE (Table 4.5). -/
def CrewState.code : CrewState → Nat
  | .parked => 1 | .ready => 2 | .boarding => 3 | .running => 4 | .draining => 5 | .pinned => 6 | .faulted => 7

/-- A crew with the RW fields of a descriptor window (Tables 4.2 to 4.4), PARKED, never boarded.
DEDUCED, unsafe: notes/assumptions/35. -/
def Crew.ofWords (heat owner : Nat) (ws : List Word) : Crew :=
  let w (i : Nat) : Nat := (ws.getD i 0).toNat
  { heat := heat, state := .parked, wakePending := false, fault := 0, isPinned := (w 1).testBit 31,
    world := (w 1).testBit 30, parkOnIdle := (w 1).testBit 29, wakeOnNotice := (w 1).testBit 28,
    autoReset := (w 1).testBit 27, start := (w 1).testBit 26, prio := bits (w 1) 23 21, slice := bits (w 1) 19 16,
    wingMask := bits (w 1) 15 8, w := bits (w 2) 11 8, h := bits (w 2) 4 0, anchor := bits (w 3) 27 16,
    drain := bits (w 3) 10 0, planes := bits (w 4) 20 0, firstState := bits (w 5) 20 0, savedState := bits (w 6) 20 0,
    emap := bits (w 7) 20 0, root := bits (w 8) 24 0, growLimit := bits (w 9) 31 16, frames := 0,
    faultHatch := bits (w 10) 31 16, porches := bits (w 11) 23 0, owner := owner, boardings := 0, lastAnchor := 0,
    qto := 0, target := .ready, suite := [], useFirst := true, rewritten := false, pendPark := false, pendFault := none, stamp := 0,
    aged := 0, expired := false, held := none, posted := [], runUs := 0, newImage := false, newMask := false, waiting := false }

/-- SIZE of a window. -/
def descSize (ws : List Word) : Nat := bits (ws.getD 2 0).toNat 22 16

/-- The reserved bits of each word of a window. -/
def descReserved : List Nat :=
  [0x000000F0, 0x031000FF, 0xFF80F0E0, 0xF000F800, 0xFFE00000, 0xFFE00000, 0xFFE00000, 0xFFE00000, 0xFE000000, 0,
   0x0000FFFF, 0xFF000000, 0xFFFFFE00, 0, 0, 0xF000FFFC]

/-- The sixteen words that QUERY shows of a crew. -/
def Crew.words (c : Crew) (id : Nat) : List Word :=
  [id * 2 ^ 16 + c.heat * 2 ^ 12 + c.state.code * 2 ^ 9 + bit c.wakePending * 2 ^ 8 + c.fault,
   bit c.isPinned * 2 ^ 31 + bit c.world * 2 ^ 30 + bit c.parkOnIdle * 2 ^ 29 + bit c.wakeOnNotice * 2 ^ 28 +
     bit c.autoReset * 2 ^ 27 + bit c.start * 2 ^ 26 + c.prio * 2 ^ 21 + c.slice * 2 ^ 16 + c.wingMask * 2 ^ 8,
   c.w * c.h * 2 ^ 16 + c.w * 2 ^ 8 + c.h, c.anchor * 2 ^ 16 + c.drain, c.planes, c.firstState, c.savedState, c.emap,
   c.root, c.growLimit * 2 ^ 16 + c.frames, c.faultHatch * 2 ^ 16, c.porches, c.owner, c.boardings, c.runUs,
   c.lastAnchor * 2 ^ 16 + c.qto].map (BitVec.ofNat 32)

/-- What QUERY shows of an EMPTY ID: its words 1 to 15 as the last release left them, before the first the Reset column of
Tables 4.2 to 4.4. DEDUCED, unsafe: notes/assumptions/20. -/
def emptyWords (id heat : Nat) (last : List Word) : List Word :=
  BitVec.ofNat 32 (id * 2 ^ 16 + heat * 2 ^ 12) :: (if last = [] then List.replicate 15 0 else last)

/-! ## Suites (R91) -/

/-- The rooms of a suite in position order. -/
def suiteAt (wing row col w h : Nat) : List Nat :=
  (List.range h).flatMap fun i => (List.range w).map fun j => wing * 256 + (row + i) * 12 + (col + j)

/-- Wing, row and column of a room. -/
def roomRow (r : Nat) : Nat := r % 256 / 12
def roomCol (r : Nat) : Nat := r % 256 % 12

/-- The suite at a pinned crew's ANCHOR. -/
def Crew.anchorSuite (c : Crew) : List Nat := suiteAt (wingOf c.anchor) (roomRow c.anchor) (roomCol c.anchor) c.w c.h

/-- The suite at ANCHOR stays inside its wing. -/
def Crew.anchorFits (c : Crew) : Bool := roomRow c.anchor + c.h ≤ 16 && roomCol c.anchor + c.w ≤ 12


/-- Granules that `n` blocks of `bytes` take. -/
def granules (n bytes : Nat) : Nat := (n * bytes + granBytes - 1) / granBytes

namespace State

/-- Effective priority (R138): with AGE = 0 it is PRIO. -/
def eff (s : State) (id : Nat) (c : Crew) : Nat :=
  if s.rd (pgStw (idHalf id)) STW_SCHED_AGE = 0 then c.prio else min 7 (c.prio + c.aged)

/-- The crew's granule fields lie in its home half's crew store, tested over the whole area (R173). -/
def imagesFit (s : State) (h : Half) (c : Crew) : Bool :=
  let n := c.w * c.h
  s.inStore h c.planes (granules n planeBytes) && s.inStore h c.firstState (granules n imageBytes) &&
    s.inStore h c.savedState (granules n imageBytes) && s.inStore h c.emap (granules n 11520)

/-! ## Hall-facing edges, porches and doorways (R92, R428, R431) -/

/-- The outer edges of a room (N, E, S, W) that a HALL_REQ mask asks for. -/
def hallEdges (r mask : Nat) : List (Nat × Nat) :=
  [(0, decide (roomRow r = 0)), (1, decide (roomCol r = 11)), (2, decide (roomRow r = 15)), (3, decide (roomCol r = 0))].filterMap
    fun (e, border) => if border && mask.testBit e then some (r, e) else none

/-- HALL_REQ of a room control word. -/
def hallReq (control : Nat) : Nat := bits control 4 1

/-- The hall-facing edges of a suite by the active planes, in the order of R431. -/
def activeEdges (s : State) (suite : List Nat) : List (Nat × Nat) :=
  suite.flatMap fun r => hallEdges r (hallReq (s.control (s.room r).active r))

/-- The room control word of a plane in the crew store. DESIGN CHOICE, unsafe: notes/assumptions/43. -/
def storeControl (s : State) (planes p : Nat) : Nat :=
  leNat (Tbl.bytes s.mem (planes * granBytes + p * planeBytes + 179 * 512 + 0x80) 4)

/-- The hall-facing edges that a crew's image gives its suite. -/
def imageEdges (s : State) (c : Crew) : Nat :=
  (c.anchorSuite.zipIdx.flatMap fun (r, p) => hallEdges r (hallReq (s.storeControl c.planes p))).length

/-- The half's porches of a mask, ascending: 0 to 11 East, 12 to 23 West. -/
def porchList (mask : Nat) : List Nat := (List.range 24).filter mask.testBit

def porchHalf (k : Nat) : Half := halfOf (k / 12)

def porch (s : State) (k : Nat) : Porch := Tbl.get s.porches Porch.fresh k

def setPorch (s : State) (k : Nat) (p : Porch) : State := { s with porches := Tbl.store s.porches Porch.fresh k p }

/-- A PIN field of a porch's own entry. -/
def porchFld (f : Fld) (k : Nat) : Fld := f.at 4 (k % 12)

def porchRd (s : State) (k : Nat) (f : Fld) : Nat := s.rd (pgPin (porchHalf k)) (porchFld f k)
def porchWr (s : State) (k : Nat) (f : Fld) (v : Nat) : State := s.wr (pgPin (porchHalf k)) (porchFld f k) v

/-- Both crossings of a porch lose the same side; the tokens in the outbound one drop (R370). -/
def porchReset (s : State) (h : Half) (j : Nat) : State :=
  let k := j + 12 * halfBit h
  let s := s.sideReset h xkPorchOut j (s.porch k).fifo.length
  (s.setPorch k { s.porch k with fifo := [] }).sideDrop h xkPorchIn j

/-- A porch parks: PARK takes effect (R433, R434). -/
def parkPorch (s : State) (k : Nat) : State :=
  s.setPorch k { s.porch k with park := some (s.porchRd k PIN_PORCH_PARK) }

/-- Every porch that a crew claims parks. -/
def parkPorches (s : State) (c : Crew) : State := (porchList c.porches).foldl (fun s k => s.parkPorch k) s

/-- The crew's porches take their values from the plane again. -/
def unparkPorches (s : State) (c : Crew) : State :=
  (porchList c.porches).foldl (fun s k => s.setPorch k { s.porch k with park := none }) s

/-- A crew claims its porches. -/
def claimPorches (s : State) (id : Nat) (c : Crew) : State :=
  (porchList c.porches).foldl
    (fun s k => (s.setPorch k { s.porch k with claimed := true }).porchWr k PIN_PORCH_OWNER id) s

/-- SDW.ATTACHED of a half, with the SDW event when it changes (Table 15.8). -/
def setAttached (s : State) (h : Half) (b : Bool) : State :=
  if s.on (pgPin h) PIN_SDW_ATTACHED = b then s else (s.wr (pgPin h) PIN_SDW_ATTACHED (bit b)).raise (pgPin h) 2

/-- Attach a pinned crew's porches to its hall-facing edges, and the doorway to the next one (R428, R431). -/
def attach (s : State) (id : Nat) (c : Crew) : State :=
  let edges := s.activeEdges c.suite
  let ps := porchList c.porches
  let s := ps.zipIdx.foldl
    (fun s (k, i) =>
      let e := edges[i]?
      (s.setPorch k { s.porch k with edge := e, park := none, started := false, fifo := [] }).porchWr k
        PIN_PORCH_ATTACHED (bit e.isSome)) s
  let h := idHalf id
  if s.rd (pgPin h) PIN_SDW_OWNER = id then
    let e := edges[ps.length]?
    ({ s with doorway := s.doorway.set h ⟨e, none, false⟩ }).setAttached h e.isSome
  else s

/-- The fabric side of a pinned crew's porch and doorway crossings resets (R371). -/
def fabricReset (s : State) (id : Nat) (c : Crew) : State :=
  let s := (porchList c.porches).foldl (fun s k => s.porchReset (porchHalf k) (k % 12)) s
  if s.rd (pgPin (idHalf id)) PIN_SDW_OWNER = id then s.sideDrop (idHalf id) xkDoorway 0 else s

/-- Detach a destroyed crew's porches and doorway. -/
def detach (s : State) (id : Nat) (c : Crew) : State :=
  let s := (porchList c.porches).foldl
    (fun s k =>
      let s := s.parkPorch k
      ((s.setPorch k { s.porch k with edge := none }).porchWr k PIN_PORCH_OWNER 0).porchWr k PIN_PORCH_ATTACHED 0) s
  let h := idHalf id
  if s.rd (pgPin h) PIN_SDW_OWNER = id then
    ({ s with doorway := s.doorway.set h ⟨none, none, false⟩ }).setAttached h false
  else s

/-! ## The descriptor's checks (R131, R431) -/

/-- A window passes the checks that every crew meets. -/
def descOk (s : State) (h : Half) (ws : List Word) (c : Crew) : Bool :=
  let n := c.w * c.h
  descSize ws == n && 1 ≤ n && n ≤ 64 && 1 ≤ c.w && c.w ≤ 12 && 1 ≤ c.h && c.h ≤ 16 && c.wingMask != 0 &&
    s.imagesFit h c && (ws.zip descReserved).all fun (w, m) => w.toNat &&& m == 0

/-- The checks of a CREATE: `count` says whether the hall-facing edges are counted (R431). -/
def createOk (s : State) (h : Half) (ws : List Word) (c : Crew) (count : Bool) : Bool :=
  s.descOk h ws c &&
    if c.isPinned then
      roomHalf c.anchor == h && c.anchor % 256 < 192 && c.anchorFits &&
        (porchList c.porches).all (fun k => porchHalf k == h && s.porchRd k PIN_PORCH_OWNER == 0) &&
        (!count || (porchList c.porches).length ≤ s.imageEdges c)
    else c.porches == 0

/-! ## Placement (R139, R140) -/

/-- A crew that may be evicted for one of effective priority `p` (R140, R37). -/
def eligible (s : State) (id : Nat) (v : Crew) (p : Nat) : Bool :=
  v.state == .running && !v.waiting && (s.eff id v < p || (s.eff id v == p && v.expired))

/-- A room is available to a crew: free, or held by an eligible victim. -/
def available (s : State) (p : Nat) (freeOnly : Bool) (r : Nat) : Bool :=
  let x := s.room r
  match x.state with
  | .free => true
  | .occupied => !freeOnly && ((s.crew x.crew).map fun v => s.eligible x.crew v p).getD false
  | _ => false

/-- The crews that hold rooms of a suite. -/
def victims (s : State) (suite : List Nat) : List Nat :=
  (suite.filterMap fun r => let x := s.room r; if x.state = .occupied then some x.crew else none).eraseDups

/-- A room's shadow slot holds the plane of a crew's position (R116). -/
def shadowed (s : State) (id heat r p : Nat) : Bool :=
  let x := s.room r
  x.svalid && x.screw == id && x.sheat == heat && x.spos == p

/-- A wing's landing cache holds a crew's plane (R95). -/
def cached (s : State) (wing id heat p : Nat) : Bool :=
  (s.wing wing).cache.any fun x => x.crew == id && x.heat == heat && x.pos == p

/-- The cost of a suite, compared field by field (R140). -/
def cost (s : State) (wing id : Nat) (c : Crew) (suite : List Nat) : List Nat :=
  let v := (s.victims suite).filterMap fun n => (s.crew n).map (n, ·)
  [(v.map (·.2.suite.length)).sum, (v.map fun x => s.eff x.1 x.2 + 1).foldl max 0,
   (suite.zipIdx.filter fun (r, p) => !s.shadowed id c.heat r p).length,
   ((List.range suite.length).filter fun p => !s.cached wing id c.heat p).length]

end State

/-- The first list is smaller, field by field. -/
def lessCost : List Nat → List Nat → Bool
  | a :: as, b :: bs => a < b || (a == b && lessCost as bs)
  | _, _ => false

namespace State

/-- The wings of a crew's WING_MASK (Table 4.2). -/
def maskWings (id : Nat) (c : Crew) : List Nat :=
  (List.range 8).filter c.wingMask.testBit |>.map fun k => 8 * halfBit (idHalf id) + k

/-- The wings that a crew may use: its mask, and the wing of its last suite alone while memory has not acknowledged
every write its window posted (R104). -/
def crewWings (id : Nat) (c : Crew) : List Nat :=
  (maskWings id c).filter fun w =>
    c.posted.isEmpty || w == wingOf c.lastAnchor

/-- A wing is busy: a swap is under way, or in wing E0 a G2 start (R137, R302), or the half's first stack, which holds the
room map, is away for training (R398). -/
def wingBusy (s : State) (w : Nat) : Bool :=
  (s.wing w).swap.isSome || (w == 0 && s.g2Mode && s.rd pgG2c G2C_STAT_STATE == 4) ||
    s.stackCtl.away.contains (firstStack (halfOf (w / 8)))

/-- The suites of a crew's shape in a wing, by row and column. -/
def shapes (wing : Nat) (c : Crew) : List (List Nat) :=
  (List.range (17 - c.h)).flatMap fun row => (List.range (13 - c.w)).map fun col => suiteAt wing row col c.w c.h

/-- choose_suite of R140: the wing and suite of least cost, the first found of equals. A hint takes every wing of the mask,
busy or not (R144). -/
def chooseSuite (s : State) (id : Nat) (c : Crew) (forHint freeOnly : Bool) : Option (Nat × List Nat) :=
  ((if forHint then maskWings id c else crewWings id c).flatMap fun w =>
      if !forHint && s.wingBusy w then []
      else (shapes w c).filterMap fun x =>
        if x.all (s.available (s.eff id c) freeOnly) then some (w, x, s.cost w id c x) else none).foldl
    (fun (best : Option (Nat × List Nat × List Nat)) e =>
      match best with
      | none => some e
      | some b => if lessCost e.2.2 b.2.2 then some e else best)
    none
  |>.map fun (w, x, _) => (w, x)

/-- A wing holds a rectangle of the crew's shape in service: no room RETIRED, WITHDRAWN or G2. -/
def wingFits (s : State) (c : Crew) (w : Nat) : Bool :=
  (shapes w c).any fun x => x.all fun r =>
    match (s.room r).state with
    | .retired | .withdrawn | .g2 => false
    | _ => true

/-- The wings of a crew's mask in which it fits (Table 4.6, NO_FIT). -/
def fitWings (s : State) (id : Nat) (c : Crew) : List Nat :=
  (maskWings id c).filter (s.wingFits c)

/-! ## What the device holds of a crew outside its rooms -/

/-- Change every wing of a half. -/
def modWings (s : State) (h : Half) (f : Wing → Wing) : State :=
  (List.range 8).foldl (fun s k => s.modWing (8 * halfBit h + k) f) s

/-- Remove a crew's cached translations in every wing of its home half (R180). -/
def dropTlb (s : State) (id : Nat) : State :=
  s.modWings (idHalf id) fun w => { w with tlb := w.tlb.filter fun t => t.id != id, first := w.first.filter fun t => t.id != id }

/-- Remove a crew's planes and state from the landing caches and staging buffers, and its preloads (R96, R97, R113). -/
def dropImage (s : State) (id : Nat) : State :=
  let s := s.modWings (idHalf id) fun w =>
    { w with cache := w.cache.filter fun x => x.crew != id, staged := w.staged.filter fun x => x.crew != id }
  s.modRooms (s.rooms.map (·.1)) fun x => if x.svalid ∧ x.screw = id then { x with svalid := false } else x

/-- Remove a crew's staged state (a RESTART discards its saved state). -/
def dropStaged (s : State) (id : Nat) : State :=
  s.modWings (idHalf id) fun w => { w with staged := w.staged.filter fun x => x.crew != id }

end State

end Sys2Proof.Machine
end

