-- ==== Sys2Proof/Machine/Cells.lean ====
section
/-! DEFINITION. Tokens in a room (chapter 2): which output drives which input (R58 to R60), the four-phase handshake of
cells, doorway channels and hard blocks (R48 to R53, R64 to R69), matched delay lines (R56), and QUIET (R79). -/

namespace Sys2Proof.Machine

/-! ## Places (R58 to R60, Table 3.2) -/

/-- The cluster `d` clusters away on a side (N, E, S, W = 0 to 3), inside the room's 16 rows and 8 columns. -/
def clusterAt (k side d : Nat) : Option Nat :=
  match side with
  | 0 => if d ≤ k / 8 then some (k - 8 * d) else none
  | 1 => if k % 8 + d < 8 then some (k + d) else none
  | 2 => if k / 8 + d < 16 then some (k + 8 * d) else none
  | _ => if d ≤ k % 8 then some (k - d) else none

/-- The opposite side. -/
def opposite (side : Nat) : Nat := (side + 2) % 4

/-- The room on a side of a room, inside its wing. -/
def roomAt (r side : Nat) : Option Nat :=
  match side with
  | 0 => if 0 < roomRow r then some (r - 12) else none
  | 1 => if roomCol r < 11 then some (r + 1) else none
  | 2 => if roomRow r < 15 then some (r + 12) else none
  | _ => if 0 < roomCol r then some (r - 1) else none

/-- A doorway channel's edge, and whether it carries tokens into the room: channels 16 to 31 of an edge do, as R428 and R432
give for an edge that faces the hall. DEDUCED, unsafe: notes/assumptions/42. -/
def chanEdge (c : Nat) : Nat := c / 32
def chanIn (c : Nat) : Bool := 16 ≤ c % 32

/-- The channel of the facing room that a channel joins: the same number, the other direction. -/
def chanPeer (c : Nat) : Nat := opposite (chanEdge c) * 32 + (c % 32 + 16) % 32

/-- The edge cluster that serves a channel: two channels each on E and W, four each on N and S (R60). -/
def chanCluster (c : Nat) : Nat :=
  let i := c % 32
  match chanEdge c with
  | 0 => i / 4
  | 1 => i / 2 * 8 + 7
  | 2 => 120 + i / 4
  | _ => i / 2 * 8

/-- A bit of a channel that an edge cluster serves, by the cluster's own count. -/
def edgeBit (k i : Nat) : Option (Nat × Nat) :=
  if i < 32 then
    if k / 8 = 0 then some (4 * (k % 8) + i / 8, i % 8)
    else if k / 8 = 15 then some (64 + 4 * (k % 8) + i / 8, i % 8) else none
  else
    let j := (i - 32) / 8
    if k % 8 = 7 then some (32 + 2 * (k / 8) + j, i % 8) else if k % 8 = 0 then some (96 + 2 * (k / 8) + j, i % 8) else none

/-- A room track (Table 2.6): a neighbour link or a span-4 track by the cluster that drives it and the side it leads to, a
room-long track of a row or a column, a bit of a doorway channel, a bit of a hard block's request or result channel. -/
inductive Track where
  | link (cluster side n : Nat)
  | span (cluster side n : Nat)
  | row (r n : Nat)
  | column (c n : Nat)
  | door (chan bit : Nat)
  | request (port bit : Nat)
  | result (port bit : Nat)
  deriving DecidableEq, Repr

/-- The track that a number names among those a cluster reads, or drives: 8 links and 4 span-4 tracks on each side, 2 of its
row and 2 of its column, the channels of an edge cluster, the rest hard blocks (Table 2.6). The order of the numbers is the
model's: `Config.roomSource` and `Config.outputDriver` are open. DESIGN CHOICE, safe: notes/assumptions/42. -/
def trackOf (reads : Bool) (k n : Nat) : Option Track :=
  let along (side d : Nat) (f : Nat → Nat → Track) : Option Track :=
    (clusterAt k side d).map fun j => if reads then f j (opposite side) else f k side
  if n < 32 then along (n / 8) 1 fun j x => .link j x (n % 8)
  else if n < 48 then along (n % 16 / 4) 4 fun j x => .span j x (n % 4)
  else if n < 50 then some (.row (k / 8) (n - 48))
  else if n < 52 then some (.column (k % 8) (n - 50))
  else if n < 100 then (edgeBit k (n - 52)).map fun e => .door e.1 e.2
  else some (if reads then .result ((n - 100) / 128 % 18) ((n - 100) % 128) else .request ((n - 100) / 128 % 18) ((n - 100) % 128))

/-- The clusters whose output tracks may drive a track. -/
def Track.clusters : Track → List Nat
  | .link k _ _ | .span k _ _ => [k]
  | .row r _ => (List.range 8).map (8 * r + ·)
  | .column c _ => (List.range 16).map (8 * · + c)
  | .door c _ => [chanCluster c]
  | .request _ _ => List.range 128
  | .result _ _ => []

/-- What sends on a channel: half `n % 2` of cell `n / 2`, an inbound doorway channel's stage, a hard block's result. -/
inductive Source where
  | cell (n : Nat)
  | door (chan : Nat)
  | block (port : Nat)
  deriving DecidableEq, Repr

namespace State

/-! ## Which output drives which input (R58, R59) -/

/-- Bytes of a cluster block in the active plane (Table 3.3). -/
def clusterBytes (s : State) (r k off n : Nat) : List Byte :=
  s.plane (s.room r).active r (k / 8 * (11 * 512) + k % 8 * 704 + off) n

/-- What each output track of a cluster carries, and the room track that it drives. -/
def clusterDrives (s : State) (r k : Nat) : List (Nat × Option Track) :=
  let tracks := s.clusterBytes r k 0x1A0 32
  let drivers := s.clusterBytes r k 0x1C0 240
  (List.range 32).map fun i =>
    let d := Config.outputDriver tracks drivers i
    (d.1 % 32, trackOf false k d.2)

/-- The room tracks that output `n % 32` of cluster `n / 32` drives. -/
def driven (s : State) (r n : Nat) : List Track :=
  (s.clusterDrives r (n / 32)).filterMap fun d => if d.1 = n % 32 then d.2 else none

/-- The sources of a track, each with the bit of it. -/
def sourcesOf (s : State) (r : Nat) (t : Track) : List (Source × Nat) :=
  match t with
  | .result p b => [(.block p, b)]
  | .door c b => if chanIn c then [(.door c, b)] else local_ t
  | _ => local_ t
where
  local_ (t : Track) : List (Source × Nat) :=
    t.clusters.flatMap fun k => (s.clusterDrives r k).filterMap fun d =>
      if d.2 = some t then some (.cell (32 * k + d.1), 0) else none

/-- What input `n` of a cell reads: IN_SEL names an output of its own cluster, or an input track, whose selection byte names a
room track (R58). -/
def inputSel (s : State) (r cell n : Nat) : Source ⊕ Option Track :=
  let k := cell / 16
  let sel := (s.cellCfg r cell).word / 64 ^ n % 64
  if sel < 32 then .inl (.cell (32 * k + sel))
  else
    let byte := (byteAt (s.clusterBytes r k (0x180 + (sel - 32)) 1) 0).toNat
    .inr (trackOf true k (Config.roomSource (s.clusterBytes r k 0x1C0 240) k byte))

/-- The sources of input `n` of a cell. -/
def inputSources (s : State) (r cell n : Nat) : List (Source × Nat) :=
  match s.inputSel r cell n with
  | .inl x => [(x, 0)]
  | .inr t => t.toList.flatMap (s.sourcesOf r)

/-- The cells to which a plane gives a configuration other than zeros; no other cell uses an input (R82). -/
def usedCells (s : State) (r : Nat) : List Nat :=
  ((Tbl.slice s.fabric (frameKey (planeFrame (s.room r).active r 0)) (176 * 512)).filterMap fun e =>
    let k := e.1 / 5632 * 8 + e.1 % 5632 / 704
    if e.1 % 5632 % 704 < 384 then some (16 * k + e.1 % 5632 % 704 / 24) else none).eraseDups

/-- The inputs that a cell uses. -/
def usedInputs (s : State) (r cell : Nat) : List Nat := (List.range 6).filter (s.cellCfg r cell).uses

/-- The sources of an outbound doorway channel, and of a hard block's request channel. -/
def doorSources (s : State) (r c : Nat) : List (Source × Nat) :=
  (List.range 8).flatMap fun b => (s.sourcesOf r (.door c b)).map fun x => (x.1, b)
def blockSources (s : State) (r p : Nat) : List (Source × Nat) :=
  (List.range 128).flatMap fun k => (s.clusterDrives r k).filterMap fun d =>
    match d.2 with
    | some (.request q b) => if q = p then some (.cell (32 * k + d.1), b) else none
    | _ => none

/-! ## What the wires show -/

/-- A cell whose wires are at rest acknowledges its inputs while its latches are full. -/
def restSig (s : State) (r cell : Nat) : Sig :=
  let c := s.cellCfg r cell
  let x := s.cellBits r cell
  let used0 := c.useA != 0 && c.mode0 != 0
  let used1 := c.useB != 0 && c.mode1 != 0
  ⟨none, none, (used0 || used1) && (!used0 || x.testBit 1) && (!used1 || x.testBit 3)⟩

def cellNow (s : State) (r cell : Nat) : CellNow :=
  let x := s.cellBits r cell
  ⟨(Tbl.find s.sigs (r * 4096 + cell)).getD (s.restSig r cell), x.testBit 0, x.testBit 1, x.testBit 2, x.testBit 3⟩

def setCell (s : State) (r cell : Nat) (x : CellNow) : State :=
  let s := s.setCellBits r cell (bit x.v0 + 2 * bit x.p0 + 4 * bit x.v1 + 8 * bit x.p1)
  { s with sigs := if x.sig = s.restSig r cell then Tbl.del s.sigs (r * 4096 + cell) else Tbl.put s.sigs (r * 4096 + cell) x.sig }

/-- What half `n % 2` of cell `n / 2` sends. -/
def cellSends (s : State) (r n : Nat) : Option Bool :=
  let c := s.cellCfg r (n / 2)
  let x := s.cellNow r (n / 2)
  if n % 2 = 0 then sent c.mode0 x.sig.a x.v0 x.p0 else sent c.mode1 x.sig.b x.v1 x.p1

/-- A doorway channel's stage: FULL and VALUE (Table 3.6, frame 39), and its acknowledge. -/
def doorToken (s : State) (r c : Nat) : Option Byte :=
  let bs := s.live r (39 * 512 + 4 * c) 2
  if (byteAt bs 1).getLsbD 0 then some (byteAt bs 0) else none

def doorAck (s : State) (r c : Nat) : Bool := (Tbl.get s.sigs ⟨none, none, false⟩ (r * 4096 + 2048 + c)).ack

def setDoor (s : State) (r c : Nat) (t : Option Byte) (ack : Bool) : State :=
  let s := s.setLive r (39 * 512 + 4 * c) [t.getD 0, BitVec.ofNat 8 (bit t.isSome)]
  { s with sigs := Tbl.store s.sigs ⟨none, none, false⟩ (r * 4096 + 2048 + c) ⟨none, none, ack⟩ }

def block (s : State) (r p : Nat) : Block := Tbl.get s.blocks Block.fresh (r * 32 + p)

def setBlock (s : State) (r p : Nat) (x : Block) : State := { s with blocks := Tbl.store s.blocks Block.fresh (r * 32 + p) x }

/-- The wires T and F of a source's bit, and whether it is at a value (its bundled request). The two results of a cell with
OUT_PAIR = 1 leave as one 1-of-4 group, H1 the high bit (chapter 2, Encodings). -/
def sourceWires (s : State) (r : Nat) (x : Source × Nat) : Bool × Bool × Bool :=
  let rail (v : Option Bool) : Bool × Bool × Bool := (v == some true, v == some false, v.isSome)
  match x.1 with
  | .cell n =>
    if (s.cellCfg r (n / 2)).pairs (s.bundled r) then
      match s.cellSends r (n / 2 * 2), s.cellSends r (n / 2 * 2 + 1) with
      | some lo, some hi => if hi == (n % 2 == 1) then (lo, !lo, true) else (false, false, false)
      | _, _ => (false, false, false)
    else rail (s.cellSends r n)
  | .door c => rail ((s.doorToken r c).map (·.getLsbD x.2))
  | .block p => let b := s.block r p; rail (if b.gap then none else (b.flight.headD none).map (·.testBit x.2))

/-- A track joins what drives it. -/
def joined (s : State) (r : Nat) (l : List (Source × Nat)) : Bool × Bool × Bool :=
  l.foldl (fun w x => let y := s.sourceWires r x; (w.1 || y.1, w.2.1 || y.2.1, w.2.2 || y.2.2)) (false, false, false)

/-- The wires at a cell's inputs. -/
def cellWires (s : State) (r cell : Nat) : Wires :=
  let w := (List.range 6).map fun n => if (s.cellCfg r cell).uses n then s.joined r (s.inputSources r cell n) else (false, false, false)
  let vec (f : Bool × Bool × Bool → Bool) : BitVec 6 :=
    BitVec.ofNat 6 ((w.zipIdx.map fun e => bit (f e.1) * 2 ^ e.2).sum)
  ⟨vec (·.1), vec (·.2.1), vec (·.2.2)⟩

/-- The byte that an outbound channel drives: nothing until every bit that has a source holds a value, and whether every
one of them is at the spacer. During the reconfiguration window it drives the spacer (Table 3.10). -/
def doorDrives (s : State) (r c : Nat) : Option Byte × Bool :=
  let bits_ := ((List.range 8).filter fun b => !(s.sourcesOf r (.door c b)).isEmpty).map fun b => (b, s.joined r (s.sourcesOf r (.door c b)))
  if (s.room r).quiesce || bits_.isEmpty then (none, true)
  else
    (if bits_.all (·.2.2.2) then some (BitVec.ofNat 8 ((bits_.map fun e => bit e.2.1 * 2 ^ e.1).sum)) else none,
     bits_.all fun e => !e.2.2.2)

/-! ## Acknowledges (R48, R51) -/

def edgeMode (x : Room) (e : Nat) : Edge :=
  match e with
  | 0 => x.edgeN
  | 1 => x.edgeE
  | 2 => x.edgeS
  | _ => x.edgeW

/-- The acknowledge of an outbound channel: the facing room's stage, or the hall's crossing. A channel on an isolating edge is
never acknowledged (R93). -/
def doorTaken (s : State) (r c : Nat) : Bool :=
  match edgeMode (s.room r) (chanEdge c) with
  | .isolate => false
  | .through => ((roomAt r (chanEdge c)).map fun q => s.doorAck q (chanPeer c)).getD false
  | .hall => s.doorAck r c

/-- Whether a track carries what a source sends; `ts` are the tracks that the source's output drives. -/
def carries (x : Source) (ts : List Track) : Track → Bool
  | .result p _ => x == .block p
  | .door c b => if chanIn c then x == .door c else ts.contains (.door c b)
  | t => ts.contains t

/-- The acknowledges that a source's receivers answer: cells that read it, outbound doorway channels, hard blocks. -/
def acksOf (s : State) (r : Nat) (x : Source) : List Bool :=
  let ts := match x with
    | .cell n => s.driven r n
    | _ => []
  let reads (j n : Nat) : Bool := match s.inputSel r j n with
    | .inl y => y == x
    | .inr t => t.any (carries x ts)
  ((s.usedCells r).filter fun j => (s.usedInputs r j).any (reads j)).map (fun j => (s.cellNow r j).sig.ack) ++
  ((List.range 128).filter fun c => !chanIn c && ts.any fun t => (List.range 8).any fun b => t == .door c b).map (fun c => s.doorTaken r c) ++
  ((List.range 18).filter fun p => ts.any fun t => match t with
    | .request q _ => q == p
    | _ => false).map fun p => (s.block r p).ack

def acked (s : State) (r : Nat) (x : Source) : Acked :=
  let l := s.acksOf r x
  if l.isEmpty then .alone else if l.all id then .high else if l.any id then .mixed else .low

/-! ## Matched delay lines (R55, R56, R305) -/

/-- The steps that a line gives for its code c at the present scale of the block's delay scaler: (c + 1) × 40 ps ÷ step, to the
nearest (R305). -/
def lineSteps (s : State) (r k line : Nat) : Nat :=
  let code := leNat (s.clusterBytes r k 0x2B0 7) / 128 ^ line % 128
  (2 * (code + 1) * s.g2.count + s.g2.ref) / (2 * s.g2.ref)

/-- The line of a cell's request: DLY_SEL of its cluster. -/
def lineKey (s : State) (r cell : Nat) : Nat := r * 1024 + cell / 16 * 8 + bits (s.cellCfg r cell).word 63 61

/-- A cell's bundled request is high. -/
def requests (s : State) (r cell : Nat) : Bool :=
  let x := (s.cellNow r cell).sig
  x.a.isSome || x.b.isSome

/-- Lines take their settings: one whose request rises keeps the steps of that moment until the request is low again. -/
def lineSet (s : State) (r cell : Nat) : State :=
  if !s.bundled r then s
  else
    let key := s.lineKey r cell
    if ((List.range 16).any fun n => s.lineKey r (cell / 16 * 16 + n) == key && s.requests r (cell / 16 * 16 + n)) then
      if (Tbl.find s.lines key).isSome then s
      else { s with lines := Tbl.put s.lines key (s.lineSteps r (cell / 16) (bits (s.cellCfg r cell).word 63 61)) }
    else { s with lines := Tbl.del s.lines key }

/-! ## Transitions -/

/-- A cell's next transitions as its neighbours stand. -/
def cellNext (s : State) (r cell : Nat) (w : Wires) : CellNow :=
  (s.cellCfg r cell).next (s.bundled r) (s.room r).quiesce w (s.acked r (.cell (2 * cell))) (s.acked r (.cell (2 * cell + 1)))
    (s.cellNow r cell)

/-- A cell makes its transitions. -/
def fireCell (s : State) (r cell : Nat) (w : Wires) : State :=
  if (s.cellCfg r cell).seesIllegal (s.bundled r) w then s.codeError r
  else (s.setCell r cell (s.cellNext r cell w)).lineSet r cell

/-! ### Porches and doorway channels (R60, R93, R102, R432) -/

/-- The porch clock runs: its PLL is READY. -/
def porchClocked (s : State) (k : Nat) : Bool := s.on (pgClk (porchHalf k)) (CLK_PPLL_READY.at 4 (k % 12))

/-- The porch exchanges tokens with its edge in one direction: Table 14.7's last row and the one before it. -/
def porchLive (s : State) (k kind : Nat) : Bool :=
  let p := s.porch k
  let m := s.mode (porchHalf k)
  s.porchClocked k && p.edge.isSome && p.park.isNone && s.pins.ioDone && s.seq.gsr && s.pins.tap == .other &&
    (inService m || m == mStartup) && !s.cellar.noClock.get (porchHalf k) &&
    !(s.crossing (porchHalf k) kind (k % 12)).notReady && !(s.g2Mode && k < 10)

/-- The porch that an edge is attached to. -/
def edgePorch (s : State) (r e : Nat) : Option Nat := (s.porches.find? fun x => x.2.edge == some (r, e)).map (·.1)

/-- What a channel's sender shows: the facing room's outbound channel, or the room's own where the hall receives. -/
def doorSends (s : State) (r c : Nat) : Option Byte × Bool :=
  if chanIn c then
    match roomAt r (chanEdge c) with
    | some q => s.doorDrives q (chanPeer c)
    | none => (none, true)
  else s.doorDrives r c

/-- The stage of an inbound channel on a THROUGH edge: it captures a complete token while its receivers' acknowledge is low,
acknowledges the sender until it has returned to the spacer, and empties once its receivers have acknowledged. While
quiesce is raised it captures nothing (Table 3.10). -/
def throughNext (s : State) (r c : Nat) : Option Byte × Bool :=
  let t := s.doorToken r c
  let ack := s.doorAck r c
  let d := s.doorSends r c
  let up := s.acked r (.door c)
  let ack' := ack && !d.2
  match t with
  | some v => (if up.rose true then none else some v, ack')
  | none =>
    match d.1 with
    | some v => if up.fell false && !ack && !(s.room r).quiesce then (some v, true) else (none, ack')
    | none => (none, ack')

/-- The hall's end of an outbound channel: the porch's crossing takes the token of an output pin while it has room for it
(R432), and acknowledges it until the sender has returned to the spacer. -/
def hallTakes (s : State) (r c : Nat) : State :=
  let d := s.doorSends r c
  let n := c % 32
  if s.doorAck r c then (if d.2 then s.setDoor r c none false else s)
  else
    match d.1, s.edgePorch r (chanEdge c) with
    | some v, some k =>
      let p := s.porch k
      if s.porchLive k xkPorchOut && p.dir.testBit n && (p.fifo.filter fun e => e.1 == n).length < 4 then
        (s.setPorch k { p with fifo := p.fifo ++ [(n, v)] }).setDoor r c none true
      else s
    | _, _ => s

/-- A token that the hall presented on an inbound channel leaves it once its receivers have acknowledged. -/
def hallNext (s : State) (r c : Nat) : Option Byte × Bool :=
  let t := s.doorToken r c
  (if (s.acked r (.door c)).rose true then none else t, s.doorAck r c)

/-- A doorway channel makes its transitions. An isolating edge presents the spacer inward and acknowledges nothing (R93). -/
def fireDoor (s : State) (r c : Nat) : State :=
  match edgeMode (s.room r) (chanEdge c), chanIn c with
  | .through, true => let x := s.throughNext r c; s.setDoor r c x.1 x.2
  | .hall, true => let x := s.hallNext r c; s.setDoor r c x.1 x.2
  | .hall, false => s.hallTakes r c
  | _, _ => s

/-! ### Cupboards and oars (R64 to R69) -/

/-- The operations that a port holds at most: a cupboard takes its next request only after the last response has been
acknowledged (R64); an oar holds two operations in flight (R69). -/
def blockRoom (p : Nat) (x : Block) : Bool := if p < 8 then x.flight.isEmpty && !x.gap else x.flight.length < 2

/-- Results at the head that are nothing to send end at once, in order (R69). -/
def ended (l : List (Option Nat)) : List (Option Nat) := l.dropWhile Option.isNone

/-- The result channel moves on: a result that its receivers have acknowledged ends, and the next waits until their
acknowledge is low again. -/
def blockSent (s : State) (r p : Nat) : State :=
  let x := s.block r p
  let up := s.acked r (.block p)
  let x := if !x.gap ∧ !x.flight.isEmpty ∧ up.rose true then { x with flight := x.flight.tail, gap := true } else x
  let x := if x.gap ∧ up.fell false then { x with flight := ended x.flight, gap := false } else x
  let x := if x.ack ∧ !(s.joined r (s.blockSources r p)).2.2 then { x with ack := false } else x
  s.setBlock r p x

/-- A port takes the request that waits at it, if it may: not a write before WE (R66). -/
def blockTakes (s : State) (r p : Nat) : State :=
  let x := s.block r p
  if x.ack || !blockRoom p x then s
  else
    match x.waiting with
    | none => s
    | some (.cup q) =>
      if q.write ∧ !s.seq.we then s
      else
        let (v, s) := s.cupOne r (p / 2) q
        (s.setBlock r p { x with waiting := none, ack := true, flight := [some v] }).emit (.token r (2048 + p) v)
    | some (.oar op t) =>
      let (v, s) := s.oarOne r (p - 8) op t
      let s := s.setBlock r p { x with waiting := none, ack := true, flight := ended (x.flight ++ [v]) }
      match v with
      | some v => s.emit (.token r (2048 + p) v)
      | none => s

/-- A hard block's port makes its transitions. -/
def fireBlock (s : State) (r p : Nat) : State := (s.blockSent r p).blockTakes r p

/-- The memory window presents a response, with its tag, behind those that the room has not taken yet (R103). -/
def windowSends (s : State) (r tag : Nat) (bs : List Byte) : State :=
  let x := s.block r 16
  s.setBlock r 16 { x with flight := x.flight ++ [some (16 * leNat bs + tag)] }

/-- The tags of the responses that the room has not taken, as a mask. -/
def windowHolds (s : State) (r : Nat) : Nat := (s.block r 16).flight.foldl (fun m v => m ||| 2 ^ (v.getD 0 % 16)) 0

/-! ### The snapshot of a service doorway (R428, R102) -/

/-- PIN.IN0 to IN3 as one number. -/
def pinLevels (s : State) : Nat := s.pins.levels % 2 ^ 64

/-- The channels that carry a snapshot: inbound 16 to 23 of the doorway's edge. -/
def snapChans (e : Nat) : List Nat := (List.range 8).map (32 * e + 16 + ·)

/-- Put bytes of a number on the snapshot's channels. -/
def snapDrive (s : State) (r e : Nat) (v : Option Nat) : State :=
  (snapChans e).zipIdx.foldl (fun s x => s.setDoor r x.1 (v.map fun n => BitVec.ofNat 8 (n / 256 ^ x.2)) (s.doorAck r x.1)) s

/-- Present a half's snapshot with the pins' present levels. -/
def snapPresent (s : State) (h : Half) (r e : Nat) : State :=
  (({ s with doorway := s.doorway.set h ⟨some (r, e), some s.pinLevels, false⟩ }).snapDrive r e (some s.pinLevels)).emit
    (.snapshot h s.pinLevels)

/-- A half's doorway has a snapshot to present, or to update: it does so unless some of the eight channels have been
acknowledged and others not; in a quiesced room it waits (R102). -/
def snapOffer (s : State) (h : Half) : State :=
  match s.doorway.get h with
  | ⟨none, _, _⟩ => s
  | ⟨some (r, e), w, _⟩ =>
    let full := (snapChans e).filter fun c => (s.doorToken r c).isSome
    if (s.room r).quiesce || (full.length != 0 && full.length != 8) then
      { s with doorway := s.doorway.set h ⟨some (r, e), w, true⟩ }
    else s.snapPresent h r e

/-- The channels of a half's doorway have moved: once all eight are acknowledged, the snapshot has been taken, and a later
one is presented. -/
def snapMoved (s : State) (h : Half) : State :=
  match s.doorway.get h with
  | ⟨some (r, e), some w, late⟩ =>
    if (snapChans e).all fun c => (s.doorToken r c).isNone then
      if late then s.snapOffer h else { s with doorway := s.doorway.set h ⟨some (r, e), none, false⟩ }
    else if late then { s with doorway := s.doorway.set h ⟨some (r, e), some w, true⟩ } else s
  | _ => s

/-- Quiesce of rooms takes a snapshot that they have not acknowledged back to the spacer (Table 3.10). -/
def snapHold (s : State) (h : Half) (rooms : List Nat) : State :=
  match s.doorway.get h with
  | ⟨some (r, e), some w, _⟩ =>
    if rooms.contains r then
      ({ s with doorway := s.doorway.set h ⟨some (r, e), some w, true⟩ }).snapDrive r e none
    else s
  | _ => s

/-- At the reopening of rooms a snapshot that was held back is driven with the present levels. -/
def snapAgain (s : State) (h : Half) (rooms : List Nat) : State :=
  match s.doorway.get h with
  | ⟨some (r, _), _, true⟩ => if rooms.contains r then s.snapOffer h else s
  | _ => s

/-! ### Stages -/

/-- A stage makes the transitions that it can make. -/
def fire (s : State) (r : Nat) : Stage → State
  | .cell n => s.fireCell r n.toNat (s.cellWires r n.toNat)
  | .door n => (s.fireDoor r n.toNat).snapMoved (roomHalf r)
  | .block n => if n.toNat < 18 then s.fireBlock r n.toNat else s

/-- The sources of a stage. -/
def stageSources (s : State) (r : Nat) : Stage → List Source
  | .cell n => ((s.usedInputs r n.toNat).flatMap fun i => s.inputSources r n.toNat i).map (·.1)
  | .door n => (s.doorSources r n.toNat).map (·.1)
  | .block n => (s.blockSources r n.toNat).map (·.1)

/-- The stage that a source belongs to. -/
def sourceStage : Source → Stage
  | .cell n => .cell (BitVec.ofNat 11 (n / 2))
  | .door c => .door (BitVec.ofNat 7 c)
  | .block p => .block (BitVec.ofNat 5 p)

/-- A token passes a stage: the stage captures and acknowledges, its senders return to the spacer where every receiver has
acknowledged them, and the stage sees the spacer (R48, Table 2.5). -/
def passToken (s : State) (r : Nat) (g : Stage) : State :=
  let froms := (s.stageSources r g).eraseDups
  (froms.foldl (fun s x => s.fire r (sourceStage x)) (s.fire r g)).fire r g

/-! ## QUIET (R79) -/

/-- A cell can make no further transition. -/
def cellSettled (s : State) (r cell : Nat) : Bool := s.cellNext r cell (s.cellWires r cell) == s.cellNow r cell

/-- Nothing in a room sends a token. -/
def sendsNothing (s : State) (r : Nat) : Bool :=
  !(s.sigs.any fun e => e.1 / 4096 == r) && (Tbl.slice s.fabric (frameKey (stateFrame r 0)) 1024).isEmpty &&
    (Tbl.slice s.fabric (frameKey (stateFrame r 39)) 512).isEmpty

/-- A through-link can make no further transition. -/
def doorSettled (s : State) (r c : Nat) : Bool :=
  edgeMode (s.room r) (chanEdge c) != .through || !chanIn c ||
    (s.sendsNothing r && ((roomAt r (chanEdge c)).map s.sendsNothing).getD true) || s.throughNext r c == (s.doorToken r c, s.doorAck r c)

/-- A room reports QUIET: no cupboard and no oar has an operation in flight, no cell and no handshake can make a further
transition. A room in which nothing moves reports it. -/
def quiet (s : State) (r : Nat) : Bool :=
  (s.room r).still || (s.room r).stopped ||
    (!(s.blocks.any fun e => e.1 / 32 == r && e.1 % 32 < 16 && !e.2.flight.isEmpty) &&
      ((s.usedCells r).isEmpty || (s.usedCells r).all (s.cellSettled r)) && (List.range 128).all (s.doorSettled r))

/-- The rooms of a list that have not reported QUIET. -/
def unquiet (s : State) (rooms : List Nat) : List Nat := rooms.filter fun r => !s.quiet r

end State

/-! ## Meanings -/

namespace State

/-- A request token arrives at a hard block's port: it waits there until the port takes it. A port at which one waits
already receives no other. -/
def request (s : State) (r p : Nat) (q : BlockReq) : State :=
  if (s.block r p).waiting.isSome then s else s.setBlock r p { s.block r p with waiting := some q }

/-- A request token is given to a port, which moves on. -/
def ask (s : State) (r p : Nat) (q : BlockReq) : State :=
  if s.tokensMove r then (s.request r p q).fireBlock r p else s

/-- The port of a cupboard's request. -/
def cupPort (cup : Nat) (q : CupReq) : Nat := 2 * cup + bit q.portB

/-- A request and one of the other port at the same time (R65): on one word the arbiter orders the two, and which goes
first is an open value; on different words both proceed. -/
def cupAccess (s : State) (r cup : Nat) (q : CupReq) (c : Option CupReq) : State :=
  let one (s : State) (q : CupReq) : State := s.ask r (cupPort cup q) (.cup q)
  match c with
  | none => one s q
  | some q2 =>
    if q2.portB = q.portB then one s q
    else if s.cupTarget r cup q ≠ s.cupTarget r cup q2 then one (one s q) q2
    else if s.drawn 2 = 1 then one (one s.drew q2) q
    else one (one s.drew q) q2

end State

/-- The stage that a command names by kind and number. -/
def stageNamed (k : StageKind) (n : BitVec 11) : Stage :=
  match k with
  | .cell => .cell n
  | .door => .door (n.setWidth 7)
  | .block => .block (n.setWidth 5)

/-- TOKEN_THROUGH_STAGE. -/
def execTokenThroughStage (wing : BitVec 4) (room : BitVec 8) (kind : StageKind) (n : BitVec 11) (s : State) :
    Host.Outcome State Fault Refusal :=
  let r := wing.toNat * 256 + room.toNat
  .next (if roomOk r && s.tokensMove r then s.passToken r (stageNamed kind n) else s)

/-- ILLEGAL_CODE (R47): wires that an upset drives join those of the cell's inputs; the cell keeps its outputs and
withholds its acknowledge, and its cluster sets the flag. -/
def execIllegalCode (room : BitVec 12) (cell : BitVec 11) (ins : Wires) (s : State) :
    Host.Outcome State Fault Refusal :=
  let r := room.toNat
  let w := s.cellWires r cell.toNat
  .next <|
    if roomOk r && s.tokensMove r && (s.cellCfg r cell.toNat).seesIllegal (s.bundled r) ⟨w.t ||| ins.t, w.f ||| ins.f, w.req ||| ins.req⟩
    then s.codeError r else s

/-- CUPBOARD_READ. -/
def execCupboardRead (room : BitVec 12) (cup : BitVec 2) (r : CupReq) (collide : Option CupReq) (s : State) :
    Host.Outcome State Fault Refusal :=
  .next (if roomOk room.toNat then s.cupAccess room.toNat cup.toNat { r with write := false } collide else s)

/-- CUPBOARD_WRITE. -/
def execCupboardWrite (room : BitVec 12) (cup : BitVec 2) (r : CupReq) (collide : Option CupReq) (s : State) :
    Host.Outcome State Fault Refusal :=
  .next (if roomOk room.toNat then s.cupAccess room.toNat cup.toNat { r with write := true } collide else s)

/-- An operand token at an oar of a room. -/
def State.oarAsk (s : State) (room : BitVec 12) (oar : BitVec 3) (op : Nat) (t : OarTok) : State :=
  if roomOk room.toNat then s.ask room.toNat (8 + oar.toNat) (.oar op t) else s

/-- MUL. -/
def execOarMul (room : BitVec 12) (oar : BitVec 3) (t : OarTok) (s : State) : Host.Outcome State Fault Refusal :=
  .next (s.oarAsk room oar 0 t)

/-- MAC. -/
def execOarMac (room : BitVec 12) (oar : BitVec 3) (t : OarTok) (s : State) : Host.Outcome State Fault Refusal :=
  .next (s.oarAsk room oar 1 t)

/-- MSUB. -/
def execOarMsub (room : BitVec 12) (oar : BitVec 3) (t : OarTok) (s : State) : Host.Outcome State Fault Refusal :=
  .next (s.oarAsk room oar 2 t)

/-- LOAD. -/
def execOarLoad (room : BitVec 12) (oar : BitVec 3) (t : OarTok) (s : State) : Host.Outcome State Fault Refusal :=
  .next (s.oarAsk room oar 3 t)

/-- CLEAR. -/
def execOarClear (room : BitVec 12) (oar : BitVec 3) (t : OarTok) (s : State) : Host.Outcome State Fault Refusal :=
  .next (s.oarAsk room oar 4 t)

/-- EMIT: the oar always sends its accumulator. -/
def execOarEmit (room : BitVec 12) (oar : BitVec 3) (t : OarTok) (s : State) : Host.Outcome State Fault Refusal :=
  .next (s.oarAsk room oar 5 t)

/-- A reserved OP. -/
def execOarReservedOp (room : BitVec 12) (oar : BitVec 3) (t : OarTok) (s : State) :
    Host.Outcome State Fault Refusal :=
  .next (s.oarAsk room oar 6 t)

end Sys2Proof.Machine
end

