-- ==== Sys2Proof/Machine/Course.lean ====
section
/-! DEFINITION. The Course (chapter 7): link flits, ring choice, segments, the egress and ingress stores, ring IDs. -/

namespace Sys2Proof.Machine

/-! ## CRC-32C (R217, R228) -/

/-- One bit of the CRC's shift register, reflected form of the Castagnoli polynomial. -/
def crcBit (c : Word) : Word := if c.getLsbD 0 then (c >>> 1) ^^^ 0x82F63B78#32 else c >>> 1

/-- One byte. -/
def crcByte (c : Word) (b : Byte) : Word :=
  let c := c ^^^ b.zeroExtend 32
  crcBit (crcBit (crcBit (crcBit (crcBit (crcBit (crcBit (crcBit c)))))))

/-- CRC-32C: initial value 0xFFFF_FFFF, final inversion. -/
def crc32c (bs : List Byte) : Word := ~~~(bs.foldl crcByte 0xFFFFFFFF#32)

/-! ## Flits and segments as bytes -/

/-- Bytes 0 to 67 of a flit (Table 7.1). -/
def flitBody (f : Flit) : List Byte :=
  leBytes 4 (f.seq.toNat * 2 ^ 22 + f.ack.toNat * 2 ^ 12 + f.cred.toNat * 16 + f.typ.toNat) ++
    (f.payload ++ List.replicate 64 0).take 64

/-- Bytes 0 to 27 of a segment header (Table 7.4). -/
def segHead (g : Segment) : List Byte :=
  leBytes 2 (g.dst.toNat + bit g.bcast * 2 ^ 15) ++ leBytes 2 g.src.toNat ++ leBytes 1 g.typ.toNat ++
    leBytes 1 (bit g.ringB + 2 * bit g.world + 4 * bit g.last) ++ leBytes 2 g.tag.toNat ++
    leBytes 2 (g.hops.toNat + g.tagHeat.toNat * 2 ^ 12) ++ leBytes 2 g.age.toNat ++ leBytes 2 g.crew.toNat ++
    leBytes 1 (g.crewHeat.toNat + 16 * g.code.toNat) ++ leBytes 1 0 ++ leBytes 2 g.rhatch.toNat ++
    leBytes 2 g.len.toNat ++ leBytes 2 g.seg.toNat ++ leBytes 1 g.seglen.toNat ++ leBytes 5 0

/-- The CRC that the segment should carry. -/
def segSum (g : Segment) : Word := crc32c (segHead g ++ g.words)

/-- The segment with its CRC. -/
def segSeal (g : Segment) : Segment := { g with crc := segSum g }

/-- The payloads of the segment's flits: the header flit, then one word a flit. -/
def segFlits (g : Segment) : List (List Byte) :=
  (segHead g ++ leBytes 4 g.crc.toNat ++ List.replicate 32 0) ::
    (List.range g.seglen.toNat).map fun i => (g.words.drop (64 * i)).take 64

/-! Types of a segment and of a ring control message. -/

abbrev sgData : Nat := 1
abbrev sgAccept : Nat := 2
abbrev sgRefuse : Nat := 3
abbrev sgBusy : Nat := 4
abbrev sgEnum : Nat := 5
abbrev sgMap : Nat := 6
abbrev sgJoin : Nat := 7
abbrev sgLeave : Nat := 8
abbrev sgBreak : Nat := 9
abbrev sgHeal : Nat := 10

/-! Course states (Table 7.2) and failure codes (Table 7.8). -/

abbrev csBypass : Nat := 0
abbrev csTraining : Nat := 1
abbrev csRelay : Nat := 2
abbrev csMember : Nat := 3

abbrev cfExpired : Nat := 7
abbrev cfNotServing : Nat := 8
abbrev cfUnreachable : Nat := 9
abbrev cfNoDest : Nat := 0xA
abbrev cfDataEcc : Nat := 0xB

/-- Bytes of each store (R230, R233). -/
def storeSize : Nat := 2 ^ 22

/-- Age at which a segment or message ends, in units of 64 ns (R229). -/
def ageEnd : Nat := 8000

namespace State

def modCourse (s : State) (f : Course → Course) : State := { s with course := f s.course }

/-! ## The page -/

def crsState (s : State) : Nat := s.rd pgCrs CRS_PORT_STATE
def ringId (s : State) : Nat := s.rd pgCrs CRS_ID_RING_ID
def hasRingId (s : State) : Bool := s.on pgCrs CRS_ID_VALID
def ringSize (s : State) : Nat := s.rd pgCrs CRS_RING_SIZE

/-- The ports' own die serial: that of the half that the Course is bonded to. -/
def ownSerial (s : State) : Nat := s.fuses.serial.west

/-- SIZE of the map, with RING_CHANGE when it changes (R243). -/
def setSize (s : State) (n : Nat) : State :=
  if s.ringSize = n then s else (s.wr pgCrs CRS_RING_SIZE n).raise pgCrs 2

/-- The DOWN links known, by position, as BREAKS shows them. -/
def putDown (s : State) (l : List Nat) : State :=
  (s.modCourse fun c => { c with down := l }).wr pgCrs CRS_RING_BREAKS (min 15 l.length)

/-- A member of the map. -/
def member (s : State) (id : Nat) : Option Member := s.course.map.find? fun m => m.id == id

/-- This device's position. -/
def ownPos (s : State) : Nat := ((s.member s.ringId).map (·.pos)).getD 0

/-- The state that the mode of the half that serves the Course gives (Table 7.2), once the ports have trained. -/
def crsByMode (s : State) : State :=
  let st := s.crsState
  if st = csBypass ∨ st = csTraining then s
  else
    let m := s.mode (s.serves pgCrs)
    let serving := m == mLoadLocal || m == mLoadHost || m == mStartup || inService m
    s.wr pgCrs CRS_PORT_STATE (if serving && s.hasRingId && (s.member s.ringId).isSome then csMember else csRelay)

/-! ## Links -/

/-- The East port sends ring A and the West port ring B (R213). -/
def cLink (s : State) (westPort : Bool) : CLink := if westPort then s.course.west else s.course.east

def modLink (s : State) (westPort : Bool) (f : CLink → CLink) : State :=
  s.modCourse fun c => if westPort then { c with west := f c.west } else { c with east := f c.east }

/-- 0 OFF, 1 TRAINING, 2 UP, 3 DOWN. -/
def linkState (s : State) (westPort : Bool) : Nat :=
  s.rd pgCrs (if westPort then CRS_PORT_W_LINK else CRS_PORT_E_LINK)

def setLink (s : State) (westPort : Bool) (st lanes : Nat) : State :=
  if westPort then s.wrs pgCrs [(CRS_PORT_W_LINK, st), (CRS_PORT_W_LANES, lanes)]
  else s.wrs pgCrs [(CRS_PORT_E_LINK, st), (CRS_PORT_E_LANES, lanes)]

/-- The position that names a link: that of the member at its ring-A upstream end.
DEDUCED, unsafe: notes/assumptions/12. -/
def linkPos (s : State) (westPort : Bool) : Nat :=
  let n := max 1 s.ringSize
  if westPort then (s.ownPos + n - 1) % n else s.ownPos

/-- Send a flit, which the replay buffer keeps: SEQ counts every flit, whatever its TYPE.
DEDUCED, unsafe: notes/assumptions/12. -/
def sendFlit (s : State) (w : Bool) (typ : Nat) (payload : List Byte) : State :=
  let l := s.cLink w
  let f0 : Flit := ⟨BitVec.ofNat 10 l.txSeq, BitVec.ofNat 10 l.rxSeq, BitVec.ofNat 8 (min 255 l.freed), BitVec.ofNat 4 typ, payload, 0⟩
  let f := { f0 with crc := crc32c (flitBody f0) }
  (s.modLink w fun l =>
    { l with replay := l.replay ++ [f], txSeq := (l.txSeq + 1) % 1024, freed := l.freed - min 255 l.freed }).emit (.flit w f)

/-- A link carries flits: it is up and its replay buffer of 512 flits has room (R217). -/
def linkReady (s : State) (w : Bool) : Bool := s.linkState w == 2 && decide ((s.cLink w).replay.length < 512)

/-- An IDLE flit carries back what no DATA flit carries: ACK, and CRED for buffers freed.
DEDUCED, safe: notes/assumptions/12. -/
def sendIdle (s : State) (w : Bool) : State := if s.linkReady w then s.sendFlit w 1 [] else s

/-- Receive buffers at a port become free (R217). -/
def freeBuffers (s : State) (w : Bool) (n : Nat) : State :=
  let k := min n (s.cLink w).held
  if k = 0 then s else (s.modLink w fun l => { l with held := l.held - k, freed := l.freed + k }).sendIdle w

/-- The segment that goes next once one has gone whole: through traffic first, and an own segment at the latest after INJECT
through segments (R220). -/
def nextSeg (s : State) (w : Bool) : CLink :=
  let l := s.cLink w
  if l.queue.isEmpty then
    match l.thru, l.own with
    | t :: ts, [] => { l with queue := t, isThru := true, thru := ts, since := l.since + 1 }
    | t :: ts, o :: os =>
      if l.since < max 1 (s.rd pgCrs CRS_CFG_INJECT) then { l with queue := t, isThru := true, thru := ts, since := l.since + 1 }
      else { l with queue := o, isThru := false, own := os, since := 0 }
    | [], o :: os => { l with queue := o, isThru := false, own := os, since := 0 }
    | [], [] => l
  else l

/-- Send what waits on a link while it carries flits, and while credit is held unless `drain` says that what is held goes in any
case (R218, R239 step 4). A through flit that goes frees the buffer that it came into. -/
def pump (s : State) (w drain : Bool) : Nat → State
  | 0 => s
  | fuel + 1 =>
    let l := s.nextSeg w
    match l.queue with
    | [] => s
    | p :: rest =>
      if s.linkState w = 2 ∧ (drain ∨ s.linkReady w ∧ 0 < l.credit) then
        let s := (s.modLink w fun _ => { l with queue := rest, credit := l.credit - 1 }).sendFlit w 0 p
        (if l.isThru then s.freeBuffers (!w) 1 else s).pump w drain fuel
      else s

/-- Flits that wait on a link. -/
def waitingFlits (l : CLink) : Nat :=
  l.queue.length + (l.thru.map List.length).sum + (l.own.map List.length).sum

def pumpAll (s : State) (w : Bool) : State := s.pump w false (waitingFlits (s.cLink w))

/-- Put a segment on a ring as it stands, as through traffic or the device's own, and with its CRC computed. -/
def putSeg (s : State) (thru : Bool) (g : Segment) : State :=
  ((s.modLink g.ringB fun l =>
    if thru then { l with thru := l.thru ++ [segFlits g] } else { l with own := l.own ++ [segFlits g] }).emit
      (.segment g)).pumpAll g.ringB

def sendSeg (s : State) (g : Segment) : State := s.putSeg false (segSeal g)

/-- The segment of a control message: a header with BCAST, and words for what the payload says. How many words it has is the
model's. DESIGN CHOICE, unsafe: notes/assumptions/13. -/
def ctlSegment (s : State) (typ : Nat) (ringB : Bool) (payload : List Nat) : Segment :=
  let n := min 64 ((payload.length + 15) / 16)
  { dst := 0, bcast := true, src := BitVec.ofNat 10 s.ringId, typ := BitVec.ofNat 8 typ, ringB, world := false, last := true
    tag := 0, tagHeat := 0, hops := 0, age := 0, crew := 0, crewHeat := 0, code := 0, rhatch := 0, len := 0, seg := 0
    seglen := BitVec.ofNat 8 n, crc := 0, words := (List.range (64 * n)).map (Config.ctlByte typ payload) }

/-- Send a control message on a ring. -/
def sendCtl (s : State) (typ : Nat) (ringB : Bool) (payload : List Nat) : State :=
  (s.emit (.ringCtl typ ringB payload)).sendSeg (s.ctlSegment typ ringB payload)

/-- Broadcast a control message on both rings. -/
def broadcast (s : State) (typ : Nat) (payload : List Nat) : State :=
  (s.sendCtl typ false payload).sendCtl typ true payload

/-- The payload of a MAP. -/
def mapWords (s : State) : List Nat := s.course.map.foldr (fun m l => m.id :: m.pos :: m.serial :: l) []

/-- A link leaves service to train (R219). -/
def linkTrain (s : State) (westPort : Bool) : State :=
  (s.setLink westPort 1 0).bump pgCrs (if westPort then CRS_LINK_W_RETRAINS else CRS_LINK_E_RETRAINS)

/-- A port that is open. -/
def portOpen (s : State) : Bool := s.crsState != csBypass

/-- Flits after an acknowledged SEQ. -/
def unackedAfter (ack : Nat) (l : List Flit) : List Flit :=
  match l.findIdx? fun f => f.seq.toNat == ack with
  | some i => l.drop (i + 1)
  | none => l

/-! ## Ring choice (R215) -/

/-- A walk of `n` hops over the links named from position `p` on is free of DOWN links. -/
def hopsClear (s : State) (p n : Nat) : Bool :=
  (List.range n).all fun i => !s.course.down.contains ((p + i) % max 1 s.ringSize)

/-- Hops to a position on a ring. -/
def hopsTo (s : State) (pos : Nat) (ringB : Bool) : Nat :=
  let n := max 1 s.ringSize
  if ringB then (s.ownPos + n - pos % n) % n else (pos + n - s.ownPos % n) % n

/-- The ring that R215 picks towards a position. -/
def ringFor (s : State) (pos : Nat) : Option Bool :=
  let a := s.hopsTo pos false
  let b := s.hopsTo pos true
  let okB := s.hopsClear pos b
  if s.hopsClear s.ownPos a && (a ≤ b || !okB) then some false else if okB then some true else none

/-- The ring chosen for a member. -/
def ringTo (s : State) (m : Member) : Option Bool := ((s.course.ways.find? fun e => e.1 == m.id).map (·.2)).getD none

/-- Choose again for every member, at a break, at a heal and when the device becomes a member. -/
def chooseAll (s : State) : State :=
  s.modCourse fun c => { c with ways := c.map.map fun m => (m.id, s.ringFor m.pos) }

/-- A BREAK or HEAL: the DOWN links, the rings chosen, RING_CHANGE. -/
def setDown (s : State) (l : List Nat) : State := ((s.putDown l).chooseAll).raise pgCrs 2

/-- Where a DOWN link of one map lies in another: it keeps its upstream member, or the nearest one upstream that stays.
DEDUCED, unsafe: notes/assumptions/13. -/
def linkMoved (old new : List Member) (d : Nat) : Nat → Option Nat
  | 0 => none
  | k + 1 =>
    match (old.find? fun m => m.pos == d).bind fun m => new.find? fun x => x.id == m.id with
    | some x => some x.pos
    | none => linkMoved old new ((d + old.length - 1) % max 1 old.length) k

/-- Take a map of positions. Rings chosen stay chosen: only a link that goes DOWN or heals changes them (R215). -/
def setMap (s : State) (l : List Member) : State :=
  let old := s.course.map
  let down := (s.course.down.filterMap fun d => linkMoved old l d old.length).eraseDups
  let s := ((s.modCourse fun c => { c with map := l }).putDown down).setSize l.length
  s.modCourse fun c =>
    { c with ways := l.map fun m => (m.id, ((c.ways.find? fun e => e.1 == m.id).map (·.2)).getD (s.ringFor m.pos)) }

/-! ## Failures at the source (R242) -/

def crsFail (s : State) (code dst crew heat : Nat) : State :=
  (((s.step1 pgCrs CRS_REFUSE0_SEQ).step1 pgCrs CRS_REFUSE1_SEQ).wrs pgCrs
    [(CRS_REFUSE0_VALID, 1), (CRS_REFUSE0_CODE, code), (CRS_REFUSE0_DST, dst), (CRS_REFUSE1_VALID, 1),
     (CRS_REFUSE1_HEAT, heat), (CRS_REFUSE1_CREW, crew)]).raise pgCrs 1

/-! ## Tags (R152, R230) -/

/-- A tag may be given. -/
def tagFree (s : State) (t : Nat) : Bool :=
  !(s.course.egress.any fun m => m.tag == t) && !((Tbl.find s.course.tags t).map (·.cooling)).getD false

/-- The first free tag from a place on; which free tag the device gives is open. -/
def findTag (s : State) (t : Nat) : Nat → Option Nat
  | 0 => none
  | fuel + 1 => if s.tagFree t then some t else s.findTag (t % 0xFFFF + 1) fuel

/-- The message with this tag, heat and destination. -/
def outMsg (s : State) (tag heat src : Nat) : Option OutMsg :=
  s.course.egress.find? fun m => m.tag == tag && m.heat == heat && m.dst == src

/-- Release a message and its tag. -/
def dropOut (s : State) (tag : Nat) : State :=
  s.modCourse fun c =>
    { c with egress := c.egress.filter fun m => m.tag != tag
             tags := Tbl.mod c.tags tag fun r => { r with cooling := true } }

/-- A reply that matches no message held is dropped and counted (R230). -/
def onReply (s : State) (g : Segment) : State :=
  match s.outMsg g.tag.toNat g.tagHeat.toNat g.src.toNat with
  | none => s.bump pgCrs CRS_DROPS_STALE
  | some m =>
    if g.typ.toNat = sgAccept then s.dropOut m.tag
    else if g.typ.toNat = sgRefuse then (s.dropOut m.tag).crsFail g.code.toNat m.dst m.crew m.cheat
    else
      s.modCourse fun c => { c with egress := c.egress.map fun x => if x.tag = m.tag then { x with busy := true } else x }

/-! ## Delivery (R233 to R237) -/

/-- Answer a message: a header flit that echoes TAG, tag heat, RHATCH and LEN (R228). A reply to this device itself
takes no ring (R215). -/
def reply (s : State) (g : Segment) (typ code : Nat) : State :=
  let r : Segment :=
    { g with dst := g.src, bcast := false, src := g.dst, typ := BitVec.ofNat 8 typ, code := BitVec.ofNat 4 code, hops := 0, age := 0,
             seg := 0, seglen := 0, last := true, words := [] }
  if g.src.toNat = s.ringId then s.onReply r
  else
    match s.member g.src.toNat with
    | none => s.bump pgCrs CRS_DROPS_NO_DEST
    | some m =>
      match s.ringTo m with
      | some b => s.sendSeg { r with ringB := b }
      | none => s.bump pgCrs CRS_DROPS_NO_DEST

/-- A message of the ingress store, by source and tag. -/
def inMsg (s : State) (src tag : Nat) : Option InMsg :=
  s.course.ingress.find? fun m => m.first.src.toNat == src && m.first.tag.toNat == tag

def dropIn (s : State) (src tag : Nat) : State :=
  s.modCourse fun c =>
    { c with ingress := c.ingress.filter fun m => !(m.first.src.toNat == src && m.first.tag.toNat == tag) }

/-- Every segment of a message has come. -/
def inDone (m : InMsg) : Bool := m.segs == (m.first.len.toNat + 63) / 64

/-- No earlier message of its source for its hatch waits (R232). -/
def inTurn (s : State) (m : InMsg) : Bool :=
  !((s.course.ingress.takeWhile fun x => !(x.first.src == m.first.src && x.first.tag == m.first.tag)).any fun x =>
    inDone x && x.first.src == m.first.src && x.first.rhatch == m.first.rhatch)

/-- The hatch takes a packet of a ring peer, or answers as Table 7.5 gives. DEDUCED, unsafe: notes/assumptions/13. -/
def present (s : State) (m : InMsg) : State :=
  let g := m.first
  let n := g.rhatch.toNat
  let who : Pusher := .ring g.src.toNat g.crew.toNat g.crewHeat.toNat g.world
  let gone := s.dropIn g.src.toNat g.tag.toNat
  if s.cut .west && hatchHalf n == .east then
    -- R237: the port logic's half cannot reach the hatch.
    if s.leader = .east ∧ s.egressFits .west m.bytes.length then
      (gone.toEgress .west (.push who n g.world m.bytes)).reply g sgAccept 0
    else gone.reply g sgBusy 0
  else
    match s.pushCheck n who g.len.toNat with
    | .admitted => (gone.admitted n who g.len.toNat m.bytes).reply g sgAccept 0
    | .violation => gone.freezePeer g.src.toNat
    | .refuse code =>
      let wait := code == hcFull || (code == hcTooLong && g.len.toNat ≤ (s.hatch n).ring)
      if wait then s.refuse n code else (gone.refuse n code).reply g sgRefuse code

/-- A segment addressed to this device, which is not in STANDBY (R233, R236). -/
def arrive (s : State) (g : Segment) (standby : Bool) : State :=
  let src := g.src.toNat
  let tag := g.tag.toNat
  if g.crc != segSum g then s
  else if s.security.peers.contains src then s.bump pgCrs CRS_DROPS_FROZEN
  else if g.seg.toNat = 0 then
    let used := (s.course.ingress.map fun m => m.first.len.toNat * 64).sum
    if standby then s.reply g sgBusy 0
    else if s.crsState != csMember || s.course.leaving then s.reply g sgRefuse cfNotServing
    else if used + g.len.toNat * 64 > storeSize then s.reply g sgBusy 0
    else
      let m : InMsg := ⟨g, 1, g.words⟩
      let s := (s.dropIn src tag).modCourse fun c => { c with ingress := c.ingress ++ [m] }
      if inDone m && s.inTurn m then s.present m else s
  else
    match s.inMsg src tag with
    | none => s
    | some m =>
      if m.first.tagHeat != g.tagHeat || m.segs != g.seg.toNat then s
      else
        let m := { m with segs := m.segs + 1, bytes := m.bytes ++ g.words }
        let s := s.modCourse fun c =>
          { c with ingress := c.ingress.map fun x =>
              if x.first.src.toNat = src ∧ x.first.tag.toNat = tag then m else x }
        if inDone m && s.inTurn m then s.present m else s

/-- A segment of any type that reaches its destination here. -/
def arriveAny (s : State) (g : Segment) (standby : Bool) : State :=
  let t := g.typ.toNat
  if t = sgData then s.arrive g standby
  else if t = sgAccept ∨ t = sgRefuse ∨ t = sgBusy then s.onReply g
  else if sgEnum ≤ t ∧ t ≤ sgHeal then s
  else s.bump pgCrs CRS_DROPS_NO_DEST

/-! ## Emission (R228, R230) -/

/-- Segment `i` of a message. -/
def segOf (s : State) (m : OutMsg) (i : Nat) : Segment :=
  let n := (m.len + 63) / 64
  let k := if i + 1 = n then m.len - 64 * i else 64
  { dst := BitVec.ofNat 10 m.dst, bcast := false, src := BitVec.ofNat 10 s.ringId, typ := BitVec.ofNat 8 sgData, ringB := m.ringB
    world := m.world, last := i + 1 == n, tag := BitVec.ofNat 16 m.tag, tagHeat := BitVec.ofNat 4 m.heat, hops := 0
    age := BitVec.ofNat 16 m.age, crew := BitVec.ofNat 16 m.crew, crewHeat := BitVec.ofNat 4 m.cheat, code := 0
    rhatch := BitVec.ofNat 16 m.rhatch, len := BitVec.ofNat 16 m.len, seg := BitVec.ofNat 16 i
    seglen := BitVec.ofNat 8 k, crc := 0, words := (m.bytes.drop (4096 * i)).take (64 * k) }

/-- Emit a message on its ring, or deliver it here when it is for this device (R215). -/
def emitMsg (s : State) (m : OutMsg) : State :=
  let gs := (List.range ((m.len + 63) / 64)).map fun i => s.segOf m i
  if m.dst = s.ringId then gs.foldl (fun s g => s.arrive (segSeal g) (s.devMode == mStandby)) s
  else gs.foldl sendSeg s

/-- The egress store has room for a packet. -/
def egressRoom (s : State) (len : Nat) : Bool := (s.course.egress.map fun m => m.len * 64).sum + len * 64 ≤ storeSize

/-- The ring towards a ring ID, or the failure that is recorded instead (R215, Table 7.8). -/
def wayTo (s : State) (dst : Nat) : Nat ⊕ Bool :=
  match s.member dst with
  | none => .inl cfNoDest
  | some m =>
    if dst = s.ringId then .inr false
    else match s.ringTo m with
      | none => .inl cfUnreachable
      | some b => .inr b

/-- The tag that a message would take. -/
def nextTag (s : State) : Option Nat :=
  s.findTag (1 + s.drawn 0xFFFF) (s.course.egress.length + s.course.tags.length + 1)

/-- The Course accepts a packet: the device is a serving member, the egress store has room and a tag is free (R205, R230). -/
def takesPacket (s : State) (len : Nat) : Bool :=
  s.crsState == csMember && !s.course.leaving && s.egressRoom len && s.nextTag.isSome

/-- The Course takes a packet of a RING-consumer hatch: destination ring ID, remote hatch, world, source crew and heat,
its words. A destination that no ring reaches, or that the map does not hold, is a failure at once. -/
def ringTake (s : State) (dst rhatch : Nat) (world : Bool) (crew cheat len : Nat) (bytes : List Byte) : State :=
  match s.wayTo dst, s.nextTag with
  | .inl code, _ => s.crsFail code dst crew cheat
  | .inr _, none => s
  | .inr b, some t =>
    let s := s.drew
    let heat := (((Tbl.find s.course.tags t).map (·.heat)).getD 0 + 1) % 16
    let m : OutMsg := ⟨t, heat, dst, b, world, crew, cheat, rhatch, len, bytes, s.drawn ageEnd, false⟩
    (s.drew.modCourse fun c => { c with egress := c.egress ++ [m], tags := Tbl.put c.tags t ⟨heat, false⟩ }).emitMsg m

/-- The words of a packet, read from the data ring. -/
def packetWords (s : State) (h : Hatch) (p : Packet) : Option (List Byte) × State :=
  (List.range p.len).foldl
    (fun acc i =>
      let r := acc.2.ringWord h p i
      (acc.1.bind fun bs => r.1.map fun w => bs ++ w, r.2)) (some [], s)

/-- A packet for the Course waits in the egress buffer of its half: the half cannot reach the ports, or is the leader's (R37).
DEDUCED, unsafe: notes/assumptions/13. -/
def ringAway (s : State) (h : Half) : Bool := s.cut h && (h == .east || s.leader == .west)

/-- Hand the head packet of a RING-consumer hatch to the Course (R205, R230, R479).
DEDUCED, unsafe: notes/assumptions/13. -/
def handoff (s : State) (n : Nat) : State :=
  let s := s.settle n
  let h := s.hatch n
  match h.head with
  | none => s
  | some p =>
    let away := s.ringAway (hatchHalf n)
    if h.dstKind != endRing || !h.isOpen || p.copied || !(if away then s.egressFits (hatchHalf n) (p.len * 64) else s.takesPacket p.len) then s
    else
      match s.packetWords h p with
      | (none, s) => (s.setHatch n h.pop).crsFail cfDataEcc h.dst p.src p.heat
      | (some bs, s) =>
        if away then
          (s.toEgress (hatchHalf n) (.ring n bs)).setHatch n { h with packets := { p with copied := true } :: h.packets.tail }
        else (s.setHatch n h.pop).ringTake h.dst h.rhatch h.world p.src p.heat p.len bs

/-- The Course takes a packet that waited in the egress buffer; its hatch pops then (R37, R205). While the Course does not accept
it, it stays in its hatch for a later hand-off. -/
def handoffLate (s : State) (n : Nat) (bs : List Byte) : State :=
  let h := s.hatch n
  match h.packets with
  | p :: ps =>
    if !p.copied then s
    else if s.takesPacket p.len then (s.setHatch n h.pop).ringTake h.dst h.rhatch h.world p.src p.heat p.len bs
    else s.setHatch n { h with packets := { p with copied := false } :: ps }
  | [] => s

/-! ## The ring (R223 to R227, R238 to R241) -/

/-- The member with the lowest ring ID is the acting bow (R226). -/
def lowestHere (s : State) : Bool := s.hasRingId && s.course.map.all fun m => s.ringId ≤ m.id

/-- Give up the ring ID. -/
def clearId (s : State) : State :=
  (s.wrs pgCrs [(CRS_ID_VALID, 0), (CRS_ID_ACTING, 0), (CRS_ID_RING_ID, 0)]).crsByMode

/-- Clear every ID through an empty MAP. -/
def clearRing (s : State) : State := ((s.broadcast sgMap []).setMap []).clearId

/-- The payload of an ENUM token: its counter, the bow's die serial, and the serials of the devices numbered so far, from which
the bow builds the map. DESIGN CHOICE, safe: notes/assumptions/13. -/
def token (s : State) (ringB : Bool) (counter serial : Nat) (taken : List Nat) : State :=
  s.sendCtl sgEnum ringB (counter :: serial :: taken)

/-- The bow enumerates (R224, step 1): on ring A, or on ring B alone where its own onward link is DOWN (step 4). -/
def enumerate (s : State) : State :=
  let s := s.wrs pgCrs [(CRS_ID_VALID, 1), (CRS_ID_RING_ID, 0)]
  let b := s.linkState false == 3
  (s.modCourse fun c =>
    { c with enum := if b then 2 else 1, enumMid := 1, taken := [], failed := false, place := none }).token b 1 s.ownSerial []

/-- Every token has returned (R224, step 5): the members numbered by the second token lie on ring B's side. -/
def enumDone (s : State) (size : Nat) (taken : List Nat) : State :=
  let mid := if s.course.enum = 2 then s.course.enumMid else size
  let l := (List.range size).map fun i =>
    (⟨i, if i < mid then i else size - (i - mid + 1), if i = 0 then s.ownSerial else taken.getD (i - 1) 0⟩ : Member)
  let s := ((s.modCourse fun c => { c with enum := 0, taken }).setMap l).chooseAll
  ((s.wr pgCrs CRS_ID_ACTING 1).broadcast sgMap s.mapWords).crsByMode

/-- A device passes the token on: along its ring, or back on the other ring where the onward link is DOWN (R224, step 4). -/
def tokenOn (s : State) (ringB : Bool) (counter serial : Nat) (taken : List Nat) : State :=
  s.token (if s.linkState ringB = 3 then !ringB else ringB) counter serial taken

/-- An ENUM token comes in (R224, R225). -/
def enumIn (s : State) (counter serial dist : Nat) (ringB : Bool) (taken : List Nat) : State :=
  if !s.portOpen || s.crsState = csTraining then s
  else if s.on pgCrs CRS_ID_BOW then
    if serial = s.ownSerial then
      if s.course.enum = 0 then s
      else if s.course.enum = 1 ∧ ringB ∧ s.linkState true ≠ 3 then
        (s.modCourse fun c => { c with enum := 2, enumMid := counter }).token true counter serial taken
      else s.enumDone counter taken
    else
      ((s.clearRing.modCourse fun c => { c with enum := 0, twoBows := true, failed := false }).pgErr pgCrs 0x31 0)
  else if s.hasRingId then s.tokenOn ringB counter serial taken
  else if 1024 ≤ counter then (s.pgErr pgCrs 0x32 0).tokenOn ringB counter serial taken
  else
    let s := (s.wrs pgCrs [(CRS_ID_VALID, 1), (CRS_ID_RING_ID, counter)]).modCourse fun c => { c with place := some (ringB, dist) }
    s.tokenOn ringB (counter + 1) serial (taken ++ [s.ownSerial])

/-- CRS.REQ ends. -/
def crsReqEnd (s : State) (ok : Bool) : State := (s.wr pgCrs CRS_REQ_STATUS (if ok then 2 else 3)).raise pgCrs 0

/-- A ring ID is released: it is held for its device (R227). Every member keeps what the acting bow must know, since the role
passes on (R226). -/
def holdId (s : State) (m : Member) : State :=
  s.modCourse fun c =>
    { c with heldIds := c.heldIds.filter (fun e => e.id != m.id) ++ [⟨m.id, m.serial, true, s.rd pgCrs CRS_CFG_HOLD != 0⟩] }

/-- A MAP comes in (R223, R226, R238). -/
def mapIn (s : State) (l : List Member) : State :=
  if !s.portOpen || s.crsState = csTraining then s
  else
    let gone := s.course.map.filter fun m => !l.any fun x => x.id == m.id
    let s := gone.foldl holdId s
    let was := (s.member s.ringId).isSome && s.hasRingId
    let s := (s.modCourse fun c =>
      { c with sawMap := true, place := none, heldIds := c.heldIds.filter fun e => !l.any fun x => x.id == e.id }).setMap l
    if l.isEmpty then s.clearId
    else
      let mine := match s.member s.ringId with
        | some m => if s.hasRingId then some m else none
        | none => none
      let mine := mine <|> l.find? fun m => m.serial == s.ownSerial && m.serial != 0
      match mine with
      | some m =>
        let s := s.wrs pgCrs [(CRS_ID_VALID, 1), (CRS_ID_RING_ID, m.id)]
        let s := if was then s else s.chooseAll
        let s := (s.wr pgCrs CRS_ID_ACTING (bit (s.lowestHere && s.on pgCrs CRS_ID_ACTING))).crsByMode
        if s.course.joining then (s.modCourse fun c => { c with joining := false }).crsReqEnd true else s
      | none =>
        let s := s.clearId
        if 1024 ≤ l.length then s.pgErr pgCrs 0x32 0
        else (s.broadcast sgJoin [s.ownSerial])

/-- A member that leaves, or is lost, goes from the map, and its ID is held (R227, R240). -/
def memberGone (s : State) (id : Nat) : State :=
  match s.member id with
  | none => s
  | some m =>
    let l := (s.course.map.filter fun x => x.id != id).map fun x => if m.pos < x.pos then { x with pos := x.pos - 1 } else x
    let s := (s.setMap l).holdId m
    if s.on pgCrs CRS_ID_ACTING then s.broadcast sgMap s.mapWords else s

/-- The first ring ID from a place on that is neither in the map nor held; which one the bow gives is open. -/
def findId (s : State) (i : Nat) : Nat → Option Nat
  | 0 => none
  | fuel + 1 =>
    if (s.member i).isNone && !s.course.heldIds.any fun e => e.id == i then some i else s.findId ((i + 1) % 1024) fuel

/-- The acting bow answers a JOIN (R226, R227, R238 step 5). A device whose old ID is held waits for it until the 512 µs are
over: it sends JOIN again at the next beacon. DEDUCED, unsafe: notes/assumptions/13. -/
def joinIn (s : State) (serial pos : Nat) : State :=
  if !s.on pgCrs CRS_ID_ACTING then s
  else if s.course.map.any fun m => m.serial == serial && m.serial != 0 then s.broadcast sgMap s.mapWords
  else if 1024 ≤ s.course.map.length then s
  else
    let held := s.course.heldIds.find? fun e => e.kept && e.serial == serial
    let id := match held with
      | some e => if e.barred then none else some e.id
      | none => s.findId (s.drawn 1024) (s.course.map.length + s.course.heldIds.length + 1)
    match id with
    | none => s
    | some i =>
      let s := s.drew.modCourse fun c => { c with heldIds := c.heldIds.filter fun e => e.id != i }
      let l := (s.course.map.map fun m => if pos ≤ m.pos then { m with pos := m.pos + 1 } else m) ++ [(⟨i, pos, serial⟩ : Member)]
      let s := s.setMap l
      s.broadcast sgMap s.mapWords

/-- The 512 µs of a released ID, or its HOLD, are over; past both, the bow may give it again (R227). -/
def holdOver (s : State) (id : Nat) (bar : Bool) : State :=
  s.modCourse fun c =>
    let l := c.heldIds.map fun e => if e.id = id then (if bar then { e with barred := false } else { e with kept := false }) else e
    { c with heldIds := l.filter fun e => e.barred || e.kept }

/-- This device takes the role of acting bow: positions count from it (R214, R226). -/
def becomeBow (s : State) : State :=
  let n := max 1 s.course.map.length
  let me := s.ownPos
  (s.setMap (s.course.map.map fun m => { m with pos := (m.pos + n - me % n) % n })).wr pgCrs CRS_ID_ACTING 1

/-- The ports open and begin to train (R221, R238). -/
def openPorts (s : State) : State :=
  ((s.wr pgCrs CRS_PORT_STATE csTraining).setLink false 1 0).setLink true 1 0

/-- The switches close (R221, R239). -/
def closePorts (s : State) : State :=
  (((s.wr pgCrs CRS_PORT_STATE csBypass).setLink false 0 0).setLink true 0 0).setMap [] |>.wrs pgCrs
    [(CRS_ID_VALID, 0), (CRS_ID_ACTING, 0), (CRS_ID_RING_ID, 0)]

/-- What a link keeps of its traffic when it trains: all of it with the same neighbour; what has not begun to go with another,
when what was in flight is dropped (R219); and what was in flight goes again where a device joins between the two, which loses
nothing (R238). The flits of a link with a new neighbour are numbered from the start. DEDUCED, unsafe: notes/assumptions/13. -/
def linkRestart (l : CLink) (serial : Nat) (joins : Bool) : CLink :=
  if l.neighbour = some serial then { l with fails := [], slow := false, nakRun := 0 }
  else
    let again := (l.replay.filter fun f => f.typ == 0).map (·.payload)
    { CLink.fresh with
      neighbour := some serial, offers := l.offers, freed := Config.courseBuffers, thru := l.thru, own := l.own,
      queue := if joins then again ++ l.queue else [], isThru := joins && l.isThru }

/-- A link trains (R219, R240, R241). A neighbour that the map does not hold joins (R238); one that it holds has taken the place of
a member that was lost. -/
def linkUp (s : State) (westPort : Bool) (lanes serial : Nat) : State :=
  let l := s.cLink westPort
  if s.crsState = csBypass || lanes = 0 || s.linkState westPort = 2 then s
  else
    let wasDown := s.linkState westPort == 3
    let known := s.course.map.any fun m => m.serial == serial && m.serial != 0
    let same := l.neighbour == some serial
    let s := (s.setLink westPort 2 lanes).modLink westPort fun l => linkRestart l serial (!known)
    let s := if same then l.replay.foldl (fun s f => s.emit (.flit westPort f)) s
      else if known then
        match s.course.map.find? fun m => some m.serial == l.neighbour && m.serial != 0 with
        | some m => (s.broadcast sgLeave [m.id]).memberGone m.id
        | none => s
      else s
    let s := (if same then s else s.sendIdle westPort).pumpAll westPort
    let s :=
      if wasDown && s.hasRingId then
        (s.broadcast sgHeal [s.linkPos westPort]).setDown (s.course.down.filter fun p => p != s.linkPos westPort)
      else s
    if s.crsState = csTraining && s.linkState false = 2 && s.linkState true = 2 then
      (s.wr pgCrs CRS_PORT_STATE csRelay).crsByMode
    else s

/-- Every link that is up goes to train: REFCLK_C has failed (Table 10.6). -/
def linksLost (s : State) : State :=
  [false, true].foldl (fun s w => if s.linkState w = 2 then s.linkTrain w else s) s

/-- What CRS.PEER shows of a ring ID (R242). -/
def peerWord (s : State) (id : Nat) : Word :=
  let frozen := bit (s.security.peers.contains id) * 2 ^ 30
  match s.member id with
  | none => BitVec.ofNat 32 frozen
  | some m =>
    let way := match s.ringTo m with
      | some b => bit b * 2 ^ 10 + s.hopsTo m.pos b
      | none => 2 ^ 11
    BitVec.ofNat 32 (2 ^ 31 + frozen + m.pos * 2 ^ 16 + way)

end State

end Sys2Proof.Machine
end

