-- ==== Sys2Proof/Machine/Chain.lean ====
section
/-! DEFINITION. Image headers (R251 to R254) and the Course chain as a sender sees it (R275 to R277): hatch 0x8FFF, the
bow's feed of its primary slot, packets sent and sent again. -/

namespace Sys2Proof.Machine

/-! ## Codes of a load failure (Table 8.11) -/

abbrev lfBadMagic : Nat := 0x01
abbrev lfBadHeader : Nat := 0x02
abbrev lfBadVersion : Nat := 0x03
abbrev lfWrongDevice : Nat := 0x04
abbrev lfBadCount : Nat := 0x05
abbrev lfBadOrder : Nat := 0x06
abbrev lfBadKey : Nat := 0x07
abbrev lfNotEncrypted : Nat := 0x08
abbrev lfTruncated : Nat := 0x09
abbrev lfBadCheck : Nat := 0x0A
abbrev lfBadRecord : Nat := 0x0B
abbrev lfBadAddress : Nat := 0x0C
abbrev lfCountMismatch : Nat := 0x0D
abbrev lfBadCrew : Nat := 0x0E
abbrev lfBadHall : Nat := 0x0F
abbrev lfUnclaimed : Nat := 0x10
abbrev lfNoImage : Nat := 0x11
abbrev lfAtticErr : Nat := 0x12
abbrev lfHostRead : Nat := 0x13
abbrev lfLockTimeout : Nat := 0x14
abbrev lfGalleryLost : Nat := 0x15

/-- ERR_POS where none applies. -/
abbrev noPos : Nat := 0xFFFFFFFF

/-! ## Headers (R252 to R254, R268) -/

/-- Bytes in a header, in a segment of ciphertext and in one with its tag, in a slot of the Attic. -/
abbrev hdrBytes : Nat := 256
abbrev segBytes : Nat := 0x10000
abbrev segStored : Nat := 0x10010
abbrev slotBytes : Nat := 0x7800000

/-- The first Attic byte of slot A or B. -/
def slotBase (n : Nat) : Nat := n * slotBytes

/-- The fields of a header. -/
def hdrOf (bs : List Byte) : ImgHdr :=
  let flags := leAt bs 0x10 4
  { compressed := flags.testBit 0, encrypted := flags.testBit 1, chain := flags.testBit 2, target := leAt bs 0x0C 4,
    order := leAt bs 0x14 1, keySlot := leAt bs 0x15 1, frameCount := leAt bs 0x18 4, payloadLen := leAt bs 0x1C 4,
    bytes := bs.take hdrBytes }

/-- Segments of a payload, and the bytes of its plaintext. -/
def ImgHdr.segments (h : ImgHdr) : Nat := (h.payloadLen + segStored - 1) / segStored
def ImgHdr.plainLen (h : ImgHdr) : Nat := if h.encrypted then h.payloadLen - 16 * h.segments else h.payloadLen

/-- PAYLOAD_LEN is one that R252 and R268 allow. -/
def ImgHdr.lenOk (h : ImgHdr) : Bool :=
  h.payloadLen != 0 && h.payloadLen % 8 == 0 &&
    (!h.encrypted || (16 * h.segments < h.payloadLen && h.plainLen + 16 * ((h.plainLen + segBytes - 1) / segBytes) == h.payloadLen))

/-- TARGET is valid (Table 8.6). -/
def targetOk (t : Nat) : Bool :=
  bits t 29 16 == 0 &&
    match bits t 31 30 with
    | 0 => bits t 15 10 == 0
    | 1 => bits t 15 0 != 0
    | 2 => bits t 15 0 == 0
    | _ => false

/-- TARGET matches a ring ID (R253). -/
def targetMatches (t id : Nat) : Bool :=
  match bits t 31 30 with
  | 0 => bits t 9 0 == id
  | 1 => t.testBit (id / 64)
  | _ => true

/-- The reserved bytes of a header are 0. -/
def hdrReserved (bs : List Byte) : Bool :=
  leAt bs 0x06 2 == 0 && leAt bs 0x10 4 / 8 == 0 && leAt bs 0x16 2 == 0 && leAt bs 0x2C 4 == 0 && leAt bs 0x38 196 == 0

/-- Steps 1 to 4 of R254; `room` is how many bytes the Attic slot still has from the header on. -/
def hdrCheck (bs : List Byte) (room : Option Nat) : Except Nat ImgHdr :=
  let h := hdrOf bs
  let stored := hdrBytes + h.payloadLen
  if leAt bs 0 4 ≠ 0x54594C54 then .error lfBadMagic
  else if leAt bs 0xFC 4 ≠ (crc32c (bs.take 0xFC)).toNat then .error lfBadHeader
  else if leAt bs 5 1 ≠ 1 then .error lfBadVersion
  else if !hdrReserved bs || !targetOk h.target || !h.lenOk ||
      (room.map fun n => decide (n < stored) || (h.chain && decide (n < stored + hdrBytes))).getD false then
    .error lfBadHeader
  else .ok h

/-- EXACT. -/
def ImgHdr.exact (h : ImgHdr) : Bool := bits h.target 31 30 == 0

/-! ## Packets (Table 8.12) -/

/-- The words of a packet. -/
def pktBytes (p : ChainPkt) : List Byte :=
  leBytes 4 p.pkt.toNat ++ leBytes 4 p.nbytes ++ leBytes 1 (bit p.start + 2 * bit p.taken + 4 * bit p.eos) ++
    List.replicate 55 0 ++ p.bytes ++ List.replicate ((64 - p.nbytes % 64) % 64) 0

/-- LEN of a packet. -/
def pktLen (p : ChainPkt) : Nat := 1 + (p.nbytes + 63) / 64

/-- The packet in a hatch's words. -/
def pktOf (bs : List Byte) : ChainPkt :=
  let n := leAt bs 4 4
  let f := leAt bs 8 1
  ⟨BitVec.ofNat 32 (leAt bs 0 4), n, f.testBit 0, f.testBit 1, f.testBit 2, (bs.drop 64).take n⟩

/-- The chain hatch. -/
def chainHatch : Nat := 0x8FFF

namespace State

def modChain (s : State) (f : Chain → Chain) : State := { s with chain := f s.chain }

/-- The identity check: IDCODE and TARGET (R253, R254 step 5). -/
def hdrMatches (s : State) (h : ImgHdr) : Bool :=
  bits (leAt h.bytes 8 4) 27 0 == 0xC6300A7 && targetMatches h.target (if s.hasRingId then s.ringId else 0)

/-- The slot that a local load reads: 0 for A, 1 for B (R248). -/
def slotOf (s : State) : Nat :=
  let p := bit ((s.loader.boot).getLsbD 0)
  if s.loader.second then 1 - p else p

/-- The device loads from the Course chain (Table 8.1). -/
def chainLoad (s : State) : Bool := bits s.loader.boot.toNat 2 1 == 1 && !s.on pgCrs CRS_ID_BOW

/-- The device has the mode of a load or a later one that serves the ring. -/
def chainMode (s : State) : Bool :=
  let m := s.devMode
  m == mLoadLocal || m == mLoadHost || m == mStartup || inService m

/-- Hatch 0x8FFF of a member of the ring (R275): a RING producer for any ring ID, its area in the West crew store. -/
def openChain (s : State) : State :=
  if s.crsState < csRelay || s.on pgCrs CRS_ID_BOW || s.chain.ended || s.on pgCfg CFG_CHAIN_FORWARDING then s
  else
    match s.granPick .west 2 with
    | none => s
    | some (g, s) =>
      (s.setHatch chainHatch { Hatch.fresh with isOpen := true, world := true, srcKind := endRing, src := 0xFFFF, depth := 11,
                                                nslots := 1, buf := g * 16 }).wr pgCfg CFG_CHAIN_FORWARDING 1

/-- The member at the next position; the last device has none. -/
def chainNext (s : State) : Option Nat :=
  if s.hasRingId && s.ownPos + 1 < s.ringSize then (s.course.map.find? fun m => m.pos == s.ownPos + 1).map (·.id) else none

/-! ## The bow's feed (R275) -/

/-- The header at an Attic offset of the bow's primary slot. -/
def feedHeader (s : State) (off : Nat) : Except Nat ImgHdr :=
  if s.atticLost off hdrBytes then .error lfAtticErr
  else hdrCheck (Tbl.bytes s.attic.data off hdrBytes) (some (slotBase (s.slotOf + 1) - off))

/-- A header that fails ends the stream, and so does a piece that the Attic cannot read (notes/assumptions/41). -/
def feedEnd (s : State) : State :=
  s.modChain fun c => { c with out := c.out ++ [(⟨0, 0, false, false, true, []⟩ : ChainPkt)], feed := none }

/-- The next packet of the slot joins those that wait. DESIGN CHOICE, unsafe: notes/assumptions/28. -/
def feedOne (s : State) : State :=
  match s.chain.feed with
  | none => s
  | some (off, left, more) =>
    let piece (s : State) (start : Bool) (left : Nat) (more : Bool) : State :=
      let n := min left segBytes
      let eos := left == n && !more
      let p : ChainPkt := ⟨0, n, start, s.chain.taking, eos, Tbl.bytes s.attic.data off n⟩
      s.modChain fun c => { c with out := c.out ++ [p], feed := if eos then none else some (off + n, left - n, more) }
    if left ≠ 0 then
      if s.atticLost off (min left segBytes) then feedEnd s else piece s false left more
    else
      match s.feedHeader off with
      | .error _ => feedEnd s
      | .ok h =>
        let mine := s.hdrMatches h && !s.chain.took
        if s.atticLost off (min (hdrBytes + h.payloadLen) segBytes) then feedEnd s
        else
          piece (s.modChain fun c => { c with taking := mine, took := c.took || mine }) true (hdrBytes + h.payloadLen) h.chain

/-! ## Sending (R276) -/

/-- Send a packet to the next member; one that cannot leave is sent again after RETRY_GAP.
DESIGN CHOICE, unsafe: notes/assumptions/28. -/
def chainSend (s : State) (p : ChainPkt) : State :=
  let p := { p with pkt := BitVec.ofNat 32 s.chain.sent }
  let wait (s : State) : State := s.modChain fun c => { c with sending := some (0, p), again := true }
  match s.chainNext with
  | none => wait s
  | some dst =>
    if !s.takesPacket (pktLen p) then wait s
    else
      let n := s.course.egress.length
      let s := s.ringTake dst chainHatch true 0 0 (pktLen p) (pktBytes p)
      match s.course.egress.getLast? with
      | some m => if n < s.course.egress.length then s.modChain fun c => { c with sending := some (m.tag, p), again := false } else wait s
      | none => wait s

/-- Send the next packet while none is outstanding. -/
def chainPump (s : State) : State :=
  if s.chain.sending.isSome || s.chain.ended then s
  else
    let s := if s.chain.out.isEmpty then s.feedOne else s
    match s.chain.out with
    | [] => s
    | p :: rest => (s.modChain fun c => { c with out := rest }).chainSend p

/-- The bow begins its stream once the map is known; alone in its ring it has no chain. -/
def chainStart (s : State) : State :=
  if !s.on pgCrs CRS_ID_BOW || !s.hasRingId || s.course.enum ≠ 0 || s.course.map.isEmpty || !s.chainMode || s.chain.ended ||
      s.chain.feed.isSome || s.chain.sending.isSome || s.chain.sent ≠ 0 then s
  else if s.ringSize ≤ 1 then s.modChain fun c => { c with ended := true }
  else (s.modChain fun c => { c with feed := some (slotBase s.slotOf, 0, true) }).chainPump

/-- The chain is over for this device: END_OF_STREAM has gone, or the stream has stalled. Hatch 0x8FFF closes (R279). -/
def chainClose (s : State) : State :=
  let s := s.modChain fun c => { c with ended := true, out := [], sending := none, again := false, feed := none }
  if s.on pgCfg CFG_CHAIN_FORWARDING then
    ((s.granDel .west ((s.hatch chainHatch).buf / 16) 2).setHatch chainHatch Hatch.fresh).wr pgCfg CFG_CHAIN_FORWARDING 0
  else s

/-- The packet outstanding has been accepted: the next one goes. -/
def chainAccepted (s : State) (tag : Nat) : State :=
  match s.chain.sending with
  | some (t, p) =>
    if t ≠ tag ∨ s.chain.again then s
    else
      let s := s.modChain fun c => { c with sending := none, sent := c.sent + 1 }
      if p.eos then s.chainClose else s.chainPump
  | none => s

/-- The packet outstanding was refused or expired: it goes again after RETRY_GAP. -/
def chainRefused (s : State) (tag : Nat) : State :=
  match s.chain.sending with
  | some (t, _) => if t = tag then s.modChain fun c => { c with again := true } else s
  | none => s

/-- RETRY_GAP is over. -/
def chainAgain (s : State) : State :=
  match s.chain.sending with
  | some (_, p) => if s.chain.again then (s.modChain fun c => { c with sending := none, again := false }).chainSend p else s
  | none => s

end State

end Sys2Proof.Machine
end

