-- ==== Sys2Proof/Machine/ClockOps.lean ====
section
/-! DEFINITION. Operations of chapter 10 over clocks, rails and the governor: sources, multiplexers, operating points,
VFAB, gates. -/

namespace Sys2Proof.Machine

/-! ## Clock sources (R328, R329) -/

/-- A source's bit in READY and FAIL of CLK.SRC_STAT. -/
def srcBit : ClockSrc → Option Nat
  | .irc => some 0
  | .refH => some 1
  | .refC => some 2
  | .pllA => some 3
  | .pllB => some 4
  | .svc => some 5
  | .porch _ | .crystal => none

/-- The hall source of a TARGET or HALL_SEL value (Table 10.5). -/
def hallSrc (t : Nat) : ClockSrc := if t = 0 then .pllA else if t = 1 then .pllB else .irc

/-- The service source of a TARGET or SVC_SEL value. -/
def svcSrc (t : Nat) : ClockSrc := if t = 0 then .svc else .irc

namespace State

/-- READY of a source of a half. -/
def srcReady (s : State) (h : Half) (c : ClockSrc) : Bool :=
  match c with
  | .porch n => s.on (pgClk h) (CLK_PPLL_READY.at 4 n.toNat)
  | .crystal => s.on pgCel CEL_STAT_XTAL_READY
  | .irc => (s.rd (pgClk h) CLK_SRC_STAT_READY).testBit 0
  | .refH => (s.rd (pgClk h) CLK_SRC_STAT_READY).testBit 1
  | .refC => (s.rd (pgClk h) CLK_SRC_STAT_READY).testBit 2
  | .pllA => (s.rd (pgClk h) CLK_SRC_STAT_READY).testBit 3
  | .pllB => (s.rd (pgClk h) CLK_SRC_STAT_READY).testBit 4
  | .svc => (s.rd (pgClk h) CLK_SRC_STAT_READY).testBit 5

/-- Set READY of a source. A porch PLL that loses it resets the porch-clock side of its crossings (R371). -/
def setSrcReady (s : State) (h : Half) (c : ClockSrc) (b : Bool) : State :=
  match c with
  | .porch n =>
    let s := if s.srcReady h c && !b then s.porchReset h n.toNat else s
    s.wr (pgClk h) (CLK_PPLL_READY.at 4 n.toNat) (bit b)
  | .crystal => s.wr pgCel CEL_STAT_XTAL_READY (bit b)
  | c =>
    match srcBit c with
    | some i => s.wr (pgClk h) CLK_SRC_STAT_READY (setBit (s.rd (pgClk h) CLK_SRC_STAT_READY) i b)
    | none => s

/-- The hall and service sources in use. -/
def hallSel (s : State) (h : Half) : Nat := s.rd (pgClk h) CLK_SRC_STAT_HALL_SEL
def svcSel (s : State) (h : Half) : Nat := s.rd (pgClk h) CLK_SRC_STAT_SVC_SEL

/-- The hall runs on IRC. -/
def onIrc (s : State) (h : Half) : Bool := s.hallSel h == 2

/-- The operating point in force. -/
def opNow (s : State) (h : Half) : Nat := s.rd (pgPwr h) PWR_OP_STAT_OP

/-! ## Rails (R346, R349) -/

/-- Ask for a voltage write over AVSBus: rail, half millivolts. -/
def avsPut (s : State) (h : Half) (rail half2 : Nat) (forOp : Bool) : State :=
  s.modPow h fun p => { p with avs := p.avs ++ [(⟨rail, half2, forOp⟩ : AvsWrite)] }

/-- A voltage write has been committed: what NOW_MV and VHALL_MV show. -/
def avsCommit (s : State) (h : Half) (rail half2 : Nat) : State :=
  let s := s.emit (.avs h rail (half2 / 2))
  if rail = 0 then (s.modPow h fun p => { p with vhall2 := half2 }).wr (pgPwr h) PWR_OP_STAT_VHALL_MV (half2 / 2)
  else (s.modPow h fun p => { p with vfab2 := half2 }).wr (pgPwr h) PWR_VFAB_NOW_MV (half2 / 2)

/-- Some room of the half runs in bundled-data mode (R57). -/
def anyBundled (s : State) (h : Half) : Bool := h == .east && s.g2Mode && (List.range 0x30).any s.bundled

/-- The lowest VFAB of a half whatever the target says, in half millivolts (R304, R349). -/
def vfabLeast (s : State) (h : Half) : Nat := if h == .east && s.g2Mode then 1400 else 1200

/-- The target of PWR.VFAB, clamped to 600 to 900 mV, in half millivolts. -/
def vfabTarget (s : State) (h : Half) : Nat := 2 * min 900 (max 600 (s.rd (pgPwr h) PWR_VFAB_TARGET_MV))

/-- Move VFAB towards a level: one AVSBus write, or steps while a room of the half is bundled (R349). -/
def vfabGo (s : State) (h : Half) (half2 : Nat) : State :=
  let g := max half2 (s.vfabLeast h)
  let s := s.modPow h fun p => { p with vgoal2 := g }
  if s.anyBundled h || g == (s.pow h).vfab2 then s else s.avsPut h 1 g false

/-! ## Operating points (R344, R345) -/

/-- VHALL_OPn in half millivolts. -/
def vhallOf (s : State) (h : Half) (op : Nat) : Nat := 2 * s.rd (pgPwr h) (PWR_VHALL_OP_MV.at 4 op)

/-- Step 1 of Table 10.12. A change from IRC is a raise. What an older change still had to write is not written. -/
def opStart (s : State) (h : Half) (target : Nat) (byGov : Bool) : State :=
  let pll := if s.hallSel h = 0 then 1 else 0
  let raise := s.onIrc h || s.opNow h < target
  let s := s.setSrcReady h (hallSrc pll) false
  let s := s.modPow h fun p =>
    { p with op := some ⟨target, byGov, raise, pll, false, false, false⟩, avs := p.avs.filter fun (w : AvsWrite) => !w.forOp }
  if raise then s.avsPut h 0 (s.vhallOf h target) true else s

/-- A change of the operating point that the governor did not make ends. DEDUCED, unsafe: notes/assumptions/14. -/
def opResult (s : State) (h : Half) (reason : Nat) : State :=
  if reason = 0 then (s.wrs (pgPwr h) [(PWR_OP_REQ_STATUS, 2), (PWR_OP_REQ_REASON, 0)]).raise (pgPwr h) 0
  else s.wrs (pgPwr h) [(PWR_OP_REQ_STATUS, 3), (PWR_OP_REQ_REASON, reason)]

/-- How many actions of a kind are in force. -/
def govCount (s : State) (h : Half) (a : GovAct) : Nat := ((s.pow h).gov.filter fun x => x == a).length

/-- The governor's ceiling (R353). -/
def opCeiling (s : State) (h : Half) : Nat := 7 - s.govCount h .lowerOp

/-- The change that PWR.OP_REQ asks for begins; to the point in force it is done at once. -/
def opBegin (s : State) (h : Half) : State :=
  let t := s.rd (pgPwr h) PWR_OP_REQ_TARGET
  if s.opCeiling h < t then s.opResult h 1
  else if s.opNow h = t ∧ !s.onIrc h then s.opResult h 0
  else s.opStart h t false

/-- A change of the operating point ends; after one that the governor made, a request that waits for it begins. -/
def opEnd (s : State) (h : Half) (reason : Nat) : State :=
  match (s.pow h).op with
  | none => s
  | some c =>
    let s := s.modPow h fun p => { p with op := none }
    if !c.byGov then s.opResult h reason
    else if s.rd (pgPwr h) PWR_OP_REQ_STATUS = 1 then s.opBegin h
    else s

/-- Steps 3 and 4 of Table 10.12: the hall runs on the new PLL, the old one stops. -/
def opSwitched (s : State) (h : Half) (c : OpChange) : State :=
  let s := (s.setSrcReady h (hallSrc (1 - c.pll)) false).wr (pgPwr h) PWR_OP_STAT_OP c.target
  if c.raise then s.opEnd h 0
  else
    (s.modPow h fun p => { p with op := some { c with switched := true, voltDone := false } }).avsPut h 0
      (s.vhallOf h c.target) true

/-! ## Multiplexers (R331 to R333) -/

/-- The result of a software switch. -/
def swEnd (s : State) (h : Half) (reason : Nat) : State :=
  s.wrs (pgClk h) [(CLK_SW_STATUS, if reason = 0 then 2 else 3), (CLK_SW_REASON, reason)]

/-- A hall switch completes. -/
def hallDone (s : State) (h : Half) (t : Nat) (bySw escaped : Bool) : State :=
  let s := (s.modPow h fun p => { p with hallPend := none }).wr (pgClk h) CLK_SRC_STAT_HALL_SEL t
  let s := s.wr (pgPwr h) PWR_OP_STAT_ON_IRC (bit (t == 2))
  let s := if escaped then (s.wr (pgClk h) CLK_SW_SW_ESCAPED 1).raise (pgClk h) 2 else s
  let s := if bySw then (s.swEnd h 0).raise (pgClk h) 1 else s
  match (s.pow h).op with
  | some c => if c.pll == t && c.pllReady && !c.switched then s.opSwitched h c else s
  | none => s

/-- A service switch completes. -/
def svcDone (s : State) (h : Half) (t : Nat) (bySw escaped : Bool) : State :=
  let s := (s.modPow h fun p => { p with svcPend := none }).wr (pgClk h) CLK_SRC_STAT_SVC_SEL t
  let s := if escaped then (s.wr (pgClk h) CLK_SW_SW_ESCAPED 1).raise (pgClk h) 2 else s
  if bySw then (s.swEnd h 0).raise (pgClk h) 1 else s

/-- A software switch that has not held its output low is replaced (R332). -/
def preempt (s : State) (h : Half) (old : Option (Nat × Bool)) : State :=
  match old with
  | some (_, true) => (s.swEnd h 4).raise (pgClk h) 1
  | _ => s

/-- Switch the hall to a source that is READY: at once where the old source still gives edges, else once the escape
time has passed. -/
def hallSwitch (s : State) (h : Half) (t : Nat) (bySw edges : Bool) : State :=
  let s := s.preempt h (s.pow h).hallPend
  if edges then s.hallDone h t bySw false else s.modPow h fun p => { p with hallPend := some (t, bySw) }

def svcSwitch (s : State) (h : Half) (t : Nat) (bySw edges : Bool) : State :=
  let s := s.preempt h (s.pow h).svcPend
  if edges then s.svcDone h t bySw false else s.modPow h fun p => { p with svcPend := some (t, bySw) }

/-- The operating-point change goes on: its PLL is READY and, when raising, the voltage time has elapsed. -/
def opAdvance (s : State) (h : Half) : State :=
  match (s.pow h).op with
  | some c =>
    if c.pllReady && !c.switched && (!c.raise || c.voltDone) && (s.pow h).hallPend.isNone then
      s.hallSwitch h c.pll false (s.srcReady h (hallSrc (s.hallSel h)))
    else s
  | none => s

/-- CLK.SW at GO (R331 to R333): the refusals, in the order of R332's table of reasons after a bad target.
DESIGN CHOICE, unsafe: notes/assumptions/32. -/
def swGo (s : State) (h : Half) (svc : Bool) (t : Nat) : State :=
  let p := pgClk h
  let s := s.wrs p [(CLK_SW_MUX, bit svc), (CLK_SW_TARGET, t)]
  if s.rd p CLK_SW_STATUS = 1 then s
  else
    let s := (s.step1 p CLK_SW_SEQ).wrs p [(CLK_SW_SW_ESCAPED, 0), (CLK_SW_STATUS, 1), (CLK_SW_REASON, 0)]
    if t = 3 ∨ (svc ∧ t = 1) then s.swEnd h 2
    else if svc then
      if s.svcSel h = t then (s.swEnd h 0).raise p 1
      else if s.srcReady h (svcSrc t) then s.svcSwitch h t true (s.srcReady h (svcSrc (s.svcSel h)))
      else s.swEnd h 1
    else if (s.pow h).op.isSome then s.swEnd h 3
    else if s.hallSel h = t then (s.swEnd h 0).raise p 1
    else if s.srcReady h (hallSrc t) then s.hallSwitch h t true (s.srcReady h (hallSrc (s.hallSel h)))
    else s.swEnd h 1

/-- A write to CEL.CTRL.TICK (R331, Table 10.3). -/
def tickGo (s : State) (crystal : Bool) : State :=
  let now := s.on pgCel CEL_STAT_TICK_NOW
  if crystal == now then
    { s.wrs pgCel [(CEL_CTRL_TICK, bit crystal), (CEL_STAT_TICK_REFUSED, 0)] with
      cellar := { s.cellar with tickPend := none } }
  else if crystal && !s.srcReady .east .crystal then s.wrs pgCel [(CEL_CTRL_TICK, bit now), (CEL_STAT_TICK_REFUSED, 1)]
  else
    let s := s.wrs pgCel [(CEL_CTRL_TICK, bit crystal), (CEL_STAT_TICK_REFUSED, 0), (CEL_STAT_TICK_ESCAPED, 0)]
    if now && !s.srcReady .east .crystal then { s with cellar := { s.cellar with tickPend := some crystal } }
    else s.wr pgCel CEL_STAT_TICK_NOW (bit crystal)

/-- CEL.CTRL.XTAL_EN (R328, R329): a stopped crystal is not READY. -/
def xtalSet (s : State) (on : Bool) : State :=
  if on == s.on pgCel CEL_CTRL_XTAL_EN then s
  else (s.wr pgCel CEL_CTRL_XTAL_EN (bit on)).wr pgCel CEL_STAT_XTAL_READY 0

/-- The old source gives no edge for 64 ALW cycles (R331). -/
def escape (s : State) : Mux → State
  | .hall h =>
    match (s.pow h).hallPend with
    | some (t, bySw) => s.hallDone h t bySw true
    | none => s
  | .service h =>
    match (s.pow h).svcPend with
    | some (t, bySw) => s.svcDone h t bySw true
    | none => s
  | .tick =>
    match s.cellar.tickPend with
    | some t =>
      ({ s with cellar := { s.cellar with tickPend := none } }.wrs pgCel
        [(CEL_STAT_TICK_NOW, bit t), (CEL_STAT_TICK_ESCAPED, 1)]).raise pgCel 1
    | none => s

/-! ## Porch PLLs (R339) -/

/-- A porch PLL runs with settings inside its limits: the reference × M lies between 1.6 GHz and 3.2 GHz (in units of
1/100 MHz: 156.25 MHz is 15,625). -/
def ppllOk (s : State) (h : Half) (n : Nat) : Bool :=
  let p := pgClk h
  let vco := (if s.on p (CLK_PPLL_REF.at 4 n) then 15625 else 10000) * s.rd p (CLK_PPLL_M.at 4 n)
  n < 12 && s.on p (CLK_PPLL_EN.at 4 n) && s.rd p (CLK_PPLL_D.at 4 n) != 0 && 160000 ≤ vco && vco ≤ 320000 &&
    s.srcReady h (if s.on p (CLK_PPLL_REF.at 4 n) then .refC else .refH)

/-- A source may complete its qualification (Table 10.4). -/
def srcRuns (s : State) (h : Half) : ClockSrc → Bool
  | .irc | .refH | .refC => true
  | .pllA | .pllB | .svc => s.srcReady h .refH
  | .porch n => s.ppllOk h n.toNat
  | .crystal => s.on pgCel CEL_CTRL_XTAL_EN

/-! ## The monitor (R334) -/

/-- The count that a source gives in one ALW cycle, times 48: 4,800 for 400 MHz. -/
def nominal48 (s : State) (h : Half) : ClockSrc → Nat
  | .irc => 4800
  | .refH | .svc => 1200
  | .refC => 1875
  | .pllA => op48 (pllOp 0)
  | .pllB => op48 (pllOp 1)
  | .porch n =>
    let p := pgClk h
    (if s.on p (CLK_PPLL_REF.at 4 n.toNat) then 1875 else 1200) * s.rd p (CLK_PPLL_M.at 4 n.toNat) /
      max 1 (s.rd p (CLK_PPLL_D.at 4 n.toNat))
  | .crystal => 0
where
  /-- The operating point that a hall PLL is set for. -/
  pllOp (n : Nat) : Nat :=
    match (s.pow h).op with
    | some c => if c.pll = n then c.target else s.opNow h
    | none => s.opNow h
  op48 (op : Nat) : Nat := [6000, 7500, 9000, 12000, 15000, 16000, 16800, 18000].getD op 15000

/-- The fraction that TOL gives, as a divisor: ±12.5 %, ±25 %, ±50 %. -/
def tolDiv (s : State) (h : Half) : Nat :=
  match s.rd (pgClk h) CLK_MON_TOL with
  | 0 => 8
  | 1 => 4
  | _ => 2

/-- A count that lies outside the expected one by more than the tolerance. -/
def countBad (s : State) (h : Half) (c : ClockSrc) (n : Nat) : Bool :=
  let want := s.nominal48 h c * ((s.rd (pgClk h) CLK_MON_WINDOW + 1) * 16)
  let got := 48 * n
  want < (if want ≤ got then got - want else want - got) * s.tolDiv h

/-- The monitor finds a source failed (R335): READY, FAIL, CLK_FAIL, and the switch of Table 10.6. `edges` says whether
the source still gives any. DESIGN CHOICE, unsafe: notes/assumptions/32. -/
def srcFail (s : State) (h : Half) (c : ClockSrc) (edges : Bool) : State :=
  let p := pgClk h
  let s := s.setSrcReady h c false
  let s := match srcBit c with
    | some i => s.wr p CLK_SRC_STAT_FAIL (setBit (s.rd p CLK_SRC_STAT_FAIL) i true)
    | none => s
  let s := s.raise p 0
  let toIrc (s : State) : State :=
    if s.srcReady h .irc then s.hallSwitch h 2 false edges else toPll s edges
  match c with
  | .pllA => if s.hallSel h = 0 then toIrc (s.emit (.coxNmi h)) else opNeeds s 0
  | .pllB => if s.hallSel h = 1 then toIrc (s.emit (.coxNmi h)) else opNeeds s 1
  | .refH =>
    let s := s.emit (.coxNmi h)
    if s.onIrc h then s
    else if s.srcReady h .irc then s.hallSwitch h 2 false (s.srcReady h (hallSrc (s.hallSel h))) else s
  | .irc =>
    let s := s.emit (.coxNmi h)
    if s.onIrc h then toPll s edges else s
  | .svc =>
    if s.svcSel h = 0 then
      let s := s.emit (.coxNmi h)
      if s.srcReady h .irc then s.svcSwitch h 2 false edges else s
    else s
  | .refC | .porch _ | .crystal => s
where
  /-- The hall goes to a hall PLL that is READY, if one is. -/
  toPll (s : State) (edges : Bool) : State :=
    if s.srcReady h .pllA then s.hallSwitch h 0 false edges
    else if s.srcReady h .pllB then s.hallSwitch h 1 false edges
    else s
  /-- An operating-point change that needs the failed PLL fails with PLL_TIMEOUT. -/
  opNeeds (s : State) (n : Nat) : State :=
    match (s.pow h).op with
    | some c => if c.pll = n && !c.switched then s.opEnd h 2 else s
    | none => s

/-- The hall's source has failed and no other fast source of the half is READY (R337). -/
def hallDead (s : State) (h : Half) : Bool :=
  !s.srcReady h (hallSrc (s.hallSel h)) && !s.srcReady h .irc && !s.srcReady h .pllA && !s.srcReady h .pllB &&
    (s.pow h).hallPend.isNone

/-! ## The governor (R350 to R353) -/

/-- The halves that a half's governor acts on: both, or its own while it cannot reach the other. -/
def governed (s : State) (h : Half) : List Half := if s.lapsed h then [h] else [.east, .west]

/-- The half governs: the leader, or an ORPHAN follower. -/
def governs (s : State) (h : Half) : Bool := h == s.leader || s.orphan h

/-- CAP_W in force: 100 to 420, half of it for an ORPHAN follower. -/
def capW (s : State) (h : Half) : Nat :=
  let c := min 420 (max 100 (s.rd (pgPwr h) PWR_CAP_CAP_W))
  if s.orphan h then c / 2 else c

/-- An action is available in a half (Table 10.13). -/
def govFree (s : State) (h : Half) (a : GovAct) : Bool :=
  match a with
  | .holdSlices | .slowScrub | .paceSwaps => s.govCount h a == 0
  | .lowerVfab =>
    s.govCount h a < 24 &&
      max (s.vfabLeast h) (2 * max 600 (s.rd (pgPwr h) PWR_GOV_CFG_VFAB_FLOOR_MV)) + 25 ≤ (s.pow h).vgoal2
  | .lowerOp => s.govCount h a < 7 && !s.onIrc h && s.rd (pgPwr h) PWR_GOV_CFG_OP_MIN < s.opNow h

/-- GOV_STAT shows the actions in force. -/
def govShow (s : State) (h : Half) : State :=
  s.wrs (pgPwr h)
    [(PWR_GOV_STAT_VFAB_STEPS, s.govCount h .lowerVfab), (PWR_GOV_STAT_OP_STEPS, s.govCount h .lowerOp),
     (PWR_GOV_STAT_PACING, s.govCount h .paceSwaps), (PWR_GOV_STAT_SCRUB_SLOW, s.govCount h .slowScrub),
     (PWR_GOV_STAT_SLICES_HELD, s.govCount h .holdSlices)]

/-- Take an action in a half. -/
def govTake (s : State) (a : GovAct) (h : Half) : State :=
  let s := s.modPow h fun p => { p with gov := a :: p.gov }
  match a with
  | .lowerVfab => s.vfabGo h ((s.pow h).vgoal2 - 25)
  | .lowerOp => s.opStart h (s.opNow h - 1) true
  | .holdSlices | .slowScrub | .paceSwaps => s

/-- Undo the last action of a half. A raised VFAB goes no higher than its target, and to it once no VFAB action is left
(R353); a raised operating point goes no higher than PWR.OP_REQ.TARGET. -/
def govDrop (s : State) (h : Half) : State :=
  match (s.pow h).gov with
  | [] => s
  | a :: rest =>
    let s := s.modPow h fun p => { p with gov := rest }
    match a with
    | .lowerVfab =>
      s.vfabGo h (if s.govCount h .lowerVfab = 0 then s.vfabTarget h else min (s.vfabTarget h) ((s.pow h).vgoal2 + 25))
    | .lowerOp =>
      if s.onIrc h || (s.pow h).op.isSome || s.rd (pgPwr h) PWR_OP_REQ_TARGET ≤ s.opNow h then s
      else s.opStart h (s.opNow h + 1) true
    | .holdSlices | .slowScrub | .paceSwaps => s

/-! ## Gates (R340 to R343) -/

end State

/-- The page of a gated block, as its half's CLK.GATE closes it. -/
def gatePage (h : Half) : Gated → Nat
  | .fmc => pgFmc h
  | .bst => pgBst h
  | .scr => pgScr h
  | .att => pgAtt
  | .g2c => pgG2c

/-- The field of CLK.GATE: 0 OPEN, 1 CLOSED, 2 CLOSING. -/
def gateFld : Gated → Fld
  | .fmc => CLK_GATE_FMC
  | .bst => CLK_GATE_BST
  | .scr => CLK_GATE_SCR
  | .att => CLK_GATE_ATT
  | .g2c => CLK_GATE_G2C

namespace State

/-- The gate's field acts (Table 10.9). -/
def gateHere (s : State) (h : Half) (b : Gated) : Bool :=
  match b with
  | .att => h == s.leader
  | .g2c => h == .east && !s.g2Mode
  | .fmc | .bst | .scr => true

/-- The gate of a block is OPEN: its engine accepts operations. -/
def gateOpen (s : State) (h : Half) (b : Gated) : Bool := !s.gateHere h b || s.rd (pgClk h) (gateFld b) == 0

/-- The stage of a gate that is CLOSING. -/
def gateStage (s : State) (h : Half) (b : Gated) : Option GateStage :=
  ((s.pow h).closing.find? fun e => e.1 == b).map fun e => e.2

/-- Accesses to a page meet a closed gate. One that arrives in the bus-port stage is held and completes as the closed block's
(R340, R341): here at once. DESIGN CHOICE, unsafe: notes/assumptions/32. -/
def gateClosed (s : State) (p : Nat) : Bool :=
  let shut (h : Half) (b : Gated) : Bool := 
    s.gateHere h b && (s.rd (pgClk h) (gateFld b) == 1 || s.gateStage h b == some .port)
  match pageKind p with
  | .fmc => shut (halfOf (p % 2)) .fmc
  | .bst => shut (halfOf (p % 2)) .bst
  | .scr => shut (halfOf (p % 2)) .scr
  | .att => shut s.leader .att
  | .g2c => shut .east .g2c
  | _ => false

def setGateStage (s : State) (h : Half) (b : Gated) (st : Option GateStage) : State :=
  s.modPow h fun p =>
    let rest := p.closing.filter fun e => e.1 != b
    { p with closing := match st with | some x => (b, x) :: rest | none => rest }

/-- The gate has closed. -/
def gateShut (s : State) (h : Half) (b : Gated) : State :=
  (s.setGateStage h b none).wr (pgClk h) (gateFld b) 1

/-- A gate reopens, or its close is cancelled (R342). -/
def gateReopen (s : State) (h : Half) (b : Gated) : State :=
  if s.gateHere h b then (s.setGateStage h b none).wr (pgClk h) (gateFld b) 0 else s

end State

end Sys2Proof.Machine
end

