-- ==== Sys2Proof/Machine/Ports.lean ====
section
/-! DEFINITION. The command ports (R156, R186, R210, R440): the STW, PGT and HAT pages' ports, and the ports of the same
layouts in a virtual function's page. -/

namespace Sys2Proof.Machine

/-- The page that holds a port. -/
def portPage : PortBlock → Port → Nat
  | .stw, .page h _ => pgStw h
  | .pgt, .page h _ => pgPgt h
  | .hat, .page h _ => pgHat h
  | _, .vf n => pgVf n.toNat

/-- How far a virtual function's port lies above the offsets of the block's page (Table 14.12). -/
def portShift : PortBlock → Port → Nat
  | .hat, .vf _ => 0xC0
  | .pgt, .vf _ => 0x1C0
  | _, _ => 0

/-- A field of a port. -/
def portFld (b : PortBlock) (p : Port) (f : Fld) : Fld := { f with off := f.off + portShift b p }

/-- VALID, BUSY, SEQ and CODE of a block's RESULT. -/
def resultFlds : PortBlock → Fld × Fld × Fld × Fld
  | .stw => (STW_CMD_RESULT_VALID, STW_CMD_RESULT_BUSY, STW_CMD_RESULT_SEQ, STW_CMD_RESULT_CODE)
  | .pgt => (PGT_RESULT_VALID, PGT_RESULT_BUSY, PGT_RESULT_SEQ, PGT_RESULT_CODE)
  | .hat => (HAT_RESULT_VALID, HAT_RESULT_BUSY, HAT_RESULT_SEQ, HAT_RESULT_CODE)

/-- The bit of VF_IRQ (Table 14.12). -/
def vfIrqBit : PortBlock → Nat
  | .stw => 0 | .hat => 1 | .pgt => 2

namespace State

def portRd (s : State) (b : PortBlock) (p : Port) (f : Fld) : Nat := s.rd (portPage b p) (portFld b p f)
def portWr (s : State) (b : PortBlock) (p : Port) (f : Fld) (v : Nat) : State := s.wr (portPage b p) (portFld b p f) v

/-- The port carries a command. -/
def portBusy (s : State) (b : PortBlock) (p : Port) : Bool := s.portRd b p (resultFlds b).2.1 == 1

/-- GO: BUSY, VALID cleared, SEQ advanced. DEDUCED, unsafe: notes/assumptions/15. -/
def portStart (s : State) (b : PortBlock) (p : Port) : State :=
  let (v, y, q, _) := resultFlds b
  ((s.portWr b p q (s.portRd b p q + 1)).portWr b p y 1).portWr b p v 0

/-- The event of a completion: CMD_DONE of the page, or the bit of VF_IRQ with the function's vector 0 (R442). -/
def portEvent (s : State) (b : PortBlock) (p : Port) : State :=
  match p with
  | .page _ _ => s.raise (portPage b p) 0
  | .vf n =>
    let pg := pgVf n.toNat
    let raw := s.rd pg VFP_VF_IRQ_IRQ
    if raw.testBit (vfIrqBit b) then s
    else
      let s := s.wr pg VFP_VF_IRQ_IRQ (raw + 2 ^ vfIrqBit b)
      if (s.rd pg VFP_VF_IRQ_EN_EN).testBit (vfIrqBit b) then s.msix n.toNat 0 else s

/-- Completion: the result fields, CODE, VALID, BUSY cleared, the event. -/
def portEnd (s : State) (b : PortBlock) (p : Port) (code : Nat) (l : List (Fld × Nat)) : State :=
  let (v, y, _, c) := resultFlds b
  ((((l ++ [(c, code)]).foldl (fun s e => s.portWr b p e.1 e.2) s).portWr b p y 0).portWr b p v 1).portEvent b p

/-- A Steward command ends: CODE, the crew's HEAT after it, its ID. -/
def stwEnd (s : State) (p : Port) (code id : Nat) : State :=
  s.portEnd .stw p code [(STW_CMD_RESULT_HEAT, s.heat id), (STW_CMD_RESULT_ID, id)]

/-- An allocator command ends: CODE and VALUE. -/
def pgtEnd (s : State) (p : Port) (code value : Nat) : State := s.portEnd .pgt p code [(PGT_RESULT_VALUE, value)]

/-- A hatch command ends: CODE and HATCH. -/
def hatEnd (s : State) (p : Port) (code n : Nat) : State := s.portEnd .hat p code [(HAT_RESULT_HATCH, n)]

/-- The window of a STW port as words, and of a HAT port. -/
def stwWindow (s : State) (p : Port) : List Word :=
  (List.range 16).map fun i => BitVec.ofNat 32 (s.portRd .stw p (STW_CMD_DESC_WORD.at 4 i))

def hatWindow (s : State) (p : Port) : List Word :=
  (List.range 8).map fun i => BitVec.ofNat 32 (s.portRd .hat p (HAT_DESC_WORD.at 4 i))

/-- The half that a STW command's ID names; a page's port serves its own half alone. -/
def portServes (p : Port) (h : Half) : Bool :=
  match p with
  | .page h' _ => h' == h
  | .vf _ => true

end State

end Sys2Proof.Machine
end

