-- ==== Sys2Proof/Machine/Steward.lean ====
section
/-! DEFINITION. The Stewards (chapters 3 and 4): faults and their notices, quiesce, the start and the end of a swap, the
wing loader's loads, hints, decisions, the release of a crew, and the completion of commands that wait on a crew. -/

namespace Sys2Proof.Machine

/-- A fault without a room or a detail. -/
def FaultInfo.plain (code : Nat) : FaultInfo := ⟨code, 0xFFFF, 0⟩

namespace State

/-! ## Fault notices (R155, R206) -/

/-- RUN_US of a RUNNING or PINNED crew has advanced by an open value: this model counts no time (R129).
DESIGN CHOICE, safe: notes/assumptions/20. -/
def tally (s : State) (id : Nat) : State :=
  match s.crew id with
  | none => s
  | some c =>
    if c.state = .running ∨ c.state = .pinned then
      ({ s with crews := Tbl.put s.crews id { c with runUs := (c.runUs + s.drawn (2 ^ 32)) % 2 ^ 32 } }).drew
    else s

/-- What bytes 8 to 15 of a notice hold (Table 4.10): nothing for the codes that the table gives no contents. -/
def noticeInfo (f : FaultInfo) : Nat :=
  if f.code = fPage ∨ f.code = fProt ∨ f.code = fEcc ∨ f.code = fLoad ∨ f.code = fImage ∨ f.code = fEssential then f.info else 0

/-- The 64 bytes of a fault notice (Table 4.10). DEDUCED, unsafe: notes/assumptions/35. -/
def noticePacket (id : Nat) (c : Crew) (f : FaultInfo) : List Byte :=
  leBytes 2 id ++ leBytes 1 c.heat ++ leBytes 1 f.code ++ leBytes 2 f.room ++ leBytes 2 0 ++ leBytes 8 (noticeInfo f) ++
    leBytes 4 c.runUs ++ List.replicate 44 0

/-- A notice is lost (R155, R206). -/
def lostNotice (s : State) (id : Nat) : State := s.bump (pgStw (idHalf id)) STW_DB_DROP_LOST_NOTICE

/-- Hold a notice until credit returns; it replaces one that is held already. -/
def holdNotice (s : State) (id : Nat) (bs : List Byte) : State :=
  let s := if ((s.crew id).bind (·.held)).isSome then s.lostNotice id else s
  s.modCrew id fun c => { c with held := some bs }

/-- A notice reaches its hatch (R206). -/
def giveNotice (s : State) (id hatch : Nat) (world : Bool) (bs : List Byte) : State :=
  match s.pushCheck hatch (.steward world) 1 with
  | .admitted => s.admitted hatch (.steward world) 1 bs
  | .violation => s.lostNotice id
  | .refuse code =>
    if code = hcFull ∨ code = hcTooLong then s.holdNotice id bs else s.lostNotice id

/-- Push a notice into a hatch of the crew's world (R206). -/
def pushNotice (s : State) (id hatch : Nat) (world : Bool) (bs : List Byte) : State :=
  if hatch = 0xFFFF then s
  else if hatchNumOk hatch && hatchHalf hatch != idHalf id && s.cut (idHalf id) then
    s.toEgress (idHalf id) (.push (.steward world) hatch world bs)
  else s.giveNotice id hatch world bs

/-- STW.FAULT_LAST, CREW_FAULT and the notice (R155). -/
def notify (s : State) (id : Nat) (f : FaultInfo) : State :=
  let s := s.tally id
  match s.crew id with
  | none => s
  | some c =>
    let p := pgStw (idHalf id)
    let s := (s.step1 p STW_FAULT_LAST_SEQ).wrs p
      [(STW_FAULT_LAST_VALID, 1), (STW_FAULT_LAST_HEAT, c.heat), (STW_FAULT_LAST_FAULT, f.code), (STW_FAULT_LAST_ID, id)]
    let s := s.raise p 1
    s.pushNotice id c.faultHatch c.world (noticePacket id c f)

/-- A crew enters FAULTED; a pinned one keeps its rooms (Tables 4.5 and 4.6). -/
def enterFaulted (s : State) (id : Nat) (f : FaultInfo) : State :=
  ((s.tally id).modCrew id fun c =>
    { c with state := .faulted, fault := f.code, newImage := false, newMask := false, pendFault := none, pendPark := false, expired := false, aged := 0,
             suite := if c.isPinned then c.suite else [] }).notify id f

/-! ## Quiesce (R78, R102, R105) -/

/-- A read of a crew at quiesce: kept for the reopening unless an earlier quiesce discarded it, or discarded. -/
def atQuiesce (keep : Bool) (r : ReadOut) : ReadOut :=
  if keep then { r with kept := !r.discard } else { r with discard := true, kept := false }

/-- Raise quiesce in rooms. `keep` keeps the windows' responses for the reopening in place (R105), but not those that an
earlier quiesce discarded; otherwise every read issued and not delivered to the crew enters RETRY and its data is
discarded (R102). A snapshot on a service doorway returns to the spacer. -/
def quiesceRooms (s : State) (rooms ids : List Nat) (keep : Bool) : State :=
  let s := rooms.foldl
    (fun s r =>
      let held := s.windowHolds r
      let s := s.modRoom r fun x =>
        { x with quiesce := true, retry := if keep then x.retry else x.retry ||| x.issued ||| held, issued := if keep then x.issued else 0 }
      if keep then s else s.setBlock r 16 { s.block r 16 with flight := [], gap := false }) s
  let left := s.reads.filter fun r => keep || !ids.contains r.id || !r.arrived
  let s := { s with reads := left.map fun (r : ReadOut) => if ids.contains r.id then atQuiesce keep r else r }
  (s.snapHold .east rooms).snapHold .west rooms

/-- Answer RETRY for each tag of a window's mask (R103). -/
def reopenWindow (s : State) (id room pos : Nat) : State :=
  let x := s.room room
  let s := (List.range 16).foldl (fun s t => if x.retry.testBit t then s.emit (.windowRetry id pos t) else s) s
  s.modRoom room fun x => { x with retry := 0 }

/-- A window delivers a response to its crew. -/
def deliverRead (s : State) (r : ReadOut) : State :=
  let s := match (s.crew r.id).bind fun c => c.suite[r.pos]? with
    | some room => (s.modRoom room fun x => { x with issued := setBit x.issued r.tag false }).windowSends room r.tag r.data
    | none => s
  s.emit (.windowData r.id r.tag r.data)

/-- Deliver the responses of a crew that its windows kept and whose data has come (R105); those still on their way follow
as usual. -/
def deliverKept (s : State) (id : Nat) : State :=
  let come := s.reads.filter fun r => r.id == id && r.arrived
  let left := s.reads.filter fun r => !(r.id == id && r.arrived)
  let s := { s with reads := left.map fun (r : ReadOut) => if r.id = id then { r with kept := false } else r }
  come.foldl (fun s r => s.deliverRead r) s

/-- Lower quiesce in a crew's rooms, in place. -/
def reopenRooms (s : State) (id : Nat) (c : Crew) : State :=
  let s := s.modRooms c.suite fun x => { x with quiesce := false, stopped := false, still := false }
  let s := c.suite.zipIdx.foldl (fun s (r, p) => s.reopenWindow id r p) s
  ((s.deliverKept id).snapAgain .east c.suite).snapAgain .west c.suite

/-! ## Rooms -/

/-- Rooms that no crew holds any more: FREE with quiesce raised; a WITHDRAWN one stays so (R99, R110, R119). -/
def emptyRooms (s : State) (rooms : List Nat) : State :=
  rooms.foldl
    (fun s r => s.modRoom r fun x =>
      { x with crew := 0, heat := 0, pos := 0, quiesce := true, stopped := false, still := true, retry := 0, issued := 0,
               edgeN := .isolate, edgeE := .isolate, edgeS := .isolate, edgeW := .isolate,
               state := if x.state = .withdrawn then .withdrawn else .free }) (s.clearWires rooms)

/-- Retire a room; the leader records a room retired in service in the Attic (R119, R120), one of an ORPHAN follower once it
has re-adopted it (R21). -/
def retireRoom (s : State) (r code : Nat) : State :=
  let s := s.modRoom r fun x => { x with state := .retired, retire := code, crew := 0, heat := 0, pos := 0 }
  if code = 1 ∨ s.attic.rooms.any (fun e => e.1 == r) then s
  else if s.orphan (roomHalf r) then
    { s with gallery := { s.gallery with rooms := s.gallery.rooms.filter (·.1 != r) ++ [(r, code)] } }
  else { s with attic := { s.attic with rooms := s.attic.rooms ++ [(r, code)] } }

/-- Order of the next entry into a queue. -/
def stamp (s : State) : Nat × State := (s.stamps + 1, { s with stamps := s.stamps + 1 })

/-- A crew enters the READY queue of its priority. -/
def enterReady (s : State) (id : Nat) : State :=
  let (n, s) := s.stamp
  s.modCrew id fun c => { c with state := .ready, stamp := n, aged := 0, suite := [], expired := false }

/-! ## Starting a swap (Table 3.8, steps 1 and 2) -/

/-- Start a swap in a wing: outgoing crews, and an incoming crew with its suite. -/
def startSwap (s : State) (w : Nat) (outs : List Nat) (inc : Option (Nat × Nat)) (suite : List Nat) : State :=
  let outRooms := outs.flatMap fun id => ((s.crew id).map (·.suite)).getD []
  let rooms := suite ++ outRooms.filter fun r => !suite.contains r
  let s := s.modRooms rooms fun x => { x with state := if x.state = .withdrawn then .withdrawn else .swapping }
  let s := s.quiesceRooms rooms outs false
  s.modWing w fun x =>
    { x with swap := some ⟨.swap, if outs.isEmpty then (if inc.isSome then 4 else 7) else 3, outs, rooms, inc, suite,
                            false, false, false, false⟩ }

/-- The wing that a crew's rooms lie in. -/
def crewWing (c : Crew) : Nat := wingOf (c.suite.headD 0)

/-- A RUNNING crew becomes DRAINING with a target, and its swap starts, or waits until its wing is not busy (R137). -/
def startDrain (s : State) (id : Nat) (t : Target) : State :=
  match s.crew id with
  | none => s
  | some c =>
    let s := (s.tally id).modCrew id fun c => { c with state := .draining, target := t, expired := false }
    let w := crewWing c
    if s.wingBusy w then s.modWing w fun x => { x with waits := x.waits ++ [(.swap, id)] }
    else s.startSwap w [id] none []

/-- A boarding of an incoming crew into a suite, evicting its victims (Table 4.6). -/
def startBoarding (s : State) (id : Nat) (w : Nat) (suite : List Nat) : State :=
  let outs := s.victims suite
  let heat := s.heat id
  let s := outs.foldl (fun s v => (s.tally v).modCrew v fun c => { c with state := .draining, target := .ready }) s
  let s := s.modCrew id fun c => { c with state := .boarding, suite := suite, pendPark := false, pendFault := none }
  s.startSwap w outs (some (id, heat)) suite

/-! ## The wing loader (R94 to R97) -/

/-- The bytes that a plane takes in the store: its frames that are neither zero nor equal to an earlier one (R95). -/
def storeBytes (t : Tbl Byte) : Nat :=
  512 * (((List.range 180).map fun f => Tbl.slice t (512 * f) 512).filter fun x => !x.isEmpty).eraseDups.length

/-- The planes of a cache, most recently used first, that fit 256 planes and 4 MiB. -/
def trimCache (n used : Nat) : List Cached → List Cached
  | [] => []
  | x :: l =>
    if n < 256 ∧ used + storeBytes x.data ≤ 2 ^ 22 then x :: trimCache (n + 1) (used + storeBytes x.data) l else []

/-- Place a plane in a wing's landing cache as the most recently used. -/
def cachePlane (s : State) (w : Nat) (x : Cached) : State :=
  s.modWing w fun v =>
    { v with cache := trimCache 0 0 (x :: v.cache.filter fun y => !(y.crew == x.crew && y.heat == x.heat && y.pos == x.pos)) }

/-- Why a load ends: an uncorrectable frame, or a plane that breaks R54 or R93. -/
inductive LoadFail where
  | ecc (frame : Nat)
  | image
  deriving DecidableEq, Repr

/-- The room control word of plane bytes. -/
def controlOf (t : Tbl Byte) : Nat := leNat (Tbl.bytes t (179 * 512 + 0x80) 4)

/-- The loader's check of a plane (R154). -/
def badImage (c : Crew) (t : Tbl Byte) : Bool :=
  (controlOf t).testBit 0 || (!c.isPinned && hallReq (controlOf t) != 0)

/-- The address of a crew's plane, and of its state image, in the crew store (Table 4.3). -/
def planeAddr (c : Crew) (p : Nat) : Nat := c.planes * granBytes + p * planeBytes
def stateAddr (c : Crew) (first : Bool) (p : Nat) : Nat :=
  (if first then c.firstState else c.savedState) * granBytes + p * imageBytes

/-- Fetch the plane of a position for a wing: from the landing cache, else from memory, filling the cache. The Boolean
says that it came from the cache; `count` counts the lookup in LC_HITS or LC_MISSES (R125), a miss only while the cache is
enabled. DESIGN CHOICE, unsafe: notes/assumptions/43. -/
def fetchPlane (s : State) (w id : Nat) (c : Crew) (p : Nat) (count : Bool) :
    Except LoadFail (Bool × Tbl Byte) × State :=
  let en := s.on (pgWng w) WNG_LDR_CFG_LC_EN
  let hit := if en then (s.wing w).cache.find? fun x => x.crew == id && x.heat == c.heat && x.pos == p else none
  match hit with
  | some x =>
    let s := if count then s.step1 (pgWng w) WNG_LC_HITS_COUNT else s
    let s := s.cachePlane w x
    if badImage c x.data then (.error .image, s) else (.ok (true, x.data), s)
  | none =>
    let s := if count && en then s.step1 (pgWng w) WNG_LC_MISSES_COUNT else s
    match s.readMem ueLoader (planeAddr c p) planeBytes with
    | (.error sec, s) => (.error (.ecc ((sec * 32 - planeAddr c p) / 512)), s)
    | (.ok t, s) =>
      let s := if en then s.cachePlane w ⟨id, c.heat, p, t⟩ else s
      if badImage c t then (.error .image, s) else (.ok (false, t), s)

/-- A preload of another plane is written over (R112). -/
def losePreload (s : State) (r id heat p : Nat) : State :=
  let x := s.room r
  if x.svalid && !s.shadowed id heat r p then
    (s.modRoom r fun x => { x with svalid := false }).bump (pgWng (wingOf r)) WNG_SWAP_ERRS_DISCARD
  else s

/-- Write a crew's plane into a room's shadow slot. -/
def writeShadow (s : State) (r id heat p : Nat) (t : Tbl Byte) : State :=
  let s := s.losePreload r id heat p
  (s.putPlane (!(s.room r).active) r planeBytes t).modRoom r fun x => { x with screw := id, sheat := heat, spos := p, svalid := true }

/-- Stage a crew's state image in a wing's buffers (R97). -/
def stageState (s : State) (w id : Nat) (c : Crew) (p : Nat) : State :=
  let st := (s.wing w).staged
  if st.any fun x => x.crew == id && x.heat == c.heat && x.pos == p then s
  else
    let room :=
      if st.length < 8 then some st
      else (st.reverse.find? fun x => x.crew != id).map fun old => st.erase old
    match room with
    | none => s
    | some st =>
      match s.readMem ueLoader (stateAddr c c.useFirst p) imageBytes with
      | (.error _, s) => s
      | (.ok t, s) => s.modWing w fun v => { v with staged := ⟨id, c.heat, p, t⟩ :: st }

/-- A hint (R144). Its lookups count in neither LC_HITS nor LC_MISSES (R125). DESIGN CHOICE, unsafe: notes/assumptions/43. -/
def hint (s : State) (id : Nat) : State :=
  match s.crew id with
  | none => s
  | some c =>
    if c.state = .parked ∨ c.state = .ready then
      let free := s.chooseSuite id c true true
      let wing := match free with
        | some (w, _) => some w
        | none =>
          match s.chooseSuite id c true false with
          | some (w, _) => some w
          | none => (s.fitWings id c).head?
      match wing with
      | none => s
      | some w =>
        let suite := (free.map (·.2)).getD []
        (List.range (c.w * c.h)).foldl
          (fun s p =>
            let s := match s.fetchPlane w id c p false with
              | (.ok (_, t), s) =>
                match suite[p]? with
                | some r => s.writeShadow r id c.heat p t
                | none => s
              | (.error _, s) => s
            s.stageState w id c p) s
    else s

/-! ## Decisions (R137 to R143) -/

/-- The Steward of a half reaches decisions that board crews: a mode that serves crews, not ORPHAN, no STANDBY entry
(R32, R34, R35), a clock (R28). -/
def dispatches (s : State) (h : Half) : Bool :=
  inService (s.mode h) && !s.orphan h && !s.cellar.noClock.get h && (s.seq.standby == .none || s.seq.standby == .accepted)

/-- Insert a READY crew in decision order: effective priority falling, then queue order. -/
def insertReady (s : State) (e : Nat × Crew) : List (Nat × Crew) → List (Nat × Crew)
  | [] => [e]
  | x :: l =>
    if s.eff e.1 e.2 > s.eff x.1 x.2 ∨ (s.eff e.1 e.2 = s.eff x.1 x.2 ∧ e.2.stamp < x.2.stamp) then e :: x :: l
    else x :: s.insertReady e l

/-- The READY crews of a half in the order of R139. -/
def readyCrews (s : State) (h : Half) : List (Nat × Crew) :=
  (s.crews.filter fun e => idHalf e.1 == h && e.2.state == .ready).foldl (fun l e => s.insertReady e l) []

/-- One READY crew at a decision: it boards, finds no suite, or fits no wing. -/
def decideOne (s : State) (id : Nat) : State :=
  match s.crew id with
  | none => s
  | some c =>
    if c.state ≠ .ready then s
    else if (s.fitWings id c).isEmpty then s.enterFaulted id (.plain fNoFit)
    else
      match s.chooseSuite id c false false with
      | some (w, suite) => s.startBoarding id w suite
      | none => s

/-- The crew at the head of the highest queue that is not empty has found no suite: with AUTO_HINT = 1 it gets a hint
(R144). -/
def autoHint (s : State) (h : Half) : State :=
  match if s.on (pgStw h) STW_SCHED_AUTO_HINT then s.readyCrews h else [] with
  | [] => s
  | e :: _ => s.hint e.1

/-- A decision of a half's Steward. -/
def decision (s : State) (h : Half) : State :=
  if s.dispatches h then ((s.readyCrews h).foldl (fun s e => s.decideOne e.1) s).autoHint h else s

/-- A crew becomes READY, and a decision follows (R137). -/
def wake (s : State) (id : Nat) : State := (s.enterReady id).decision (idHalf id)

/-! ## Faults of crews that hold rooms (Table 4.6, R134) -/

/-- A pinned crew stops in place (R105, R433). -/
def stopPinned (s : State) (id : Nat) (f : FaultInfo) : State :=
  match s.crew id with
  | none => s
  | some c => ((s.quiesceRooms c.suite [id] true).parkPorches c).enterFaulted id f

/-- A fault of a crew. DEDUCED, unsafe: notes/assumptions/35. -/
def faultCrew (s : State) (id : Nat) (f : FaultInfo) : State :=
  match s.crew id with
  | none => s
  | some c =>
    match c.state with
    | .running => (s.modCrew id fun c => { c with pendFault := some f }).startDrain id .faulted
    | .pinned => s.stopPinned id f
    | .boarding => s.modCrew id fun c => { c with pendFault := some f }
    | .draining =>
      if c.target = .empty then s else s.modCrew id fun c => { c with target := .faulted, pendFault := some f }
    | _ => s

/-- A violation of a crew (R407, Table 13.4). -/
def freezeCrew (s : State) (id cause : Nat) (f : FaultInfo) : State := (s.freezeCrewMark id cause).faultCrew id f

/-! ## Release of an ID (R127, R133, R152, R180, R184) -/

/-- A crew becomes EMPTY: its ID is released and cools, its translations, planes and preloads go, its frames are
reclaimed, its freeze and its doorway and porches end. -/
def release (s : State) (id : Nat) : State :=
  let s := s.tally id
  match s.crew id with
  | none => s
  | some c =>
    let (n, s) := s.stamp
    let s := s.detach id c
    let s := (s.dropTlb id).dropImage id
    let s := s.modAlloc (idHalf id) fun a => { a with reclaim := a.reclaim ++ [⟨c.root, c.world⟩] }
    let s := { s with security := { s.security with crews := s.security.crews.erase id } }
    ({ s with crews := Tbl.del s.crews id, ids := Tbl.put s.ids id ⟨c.heat, n, true, (({ c with frames := 0 }).words id).drop 1⟩ }).settleOf id

/-! ## Commands that wait on a crew (R157) -/

/-- An in-place sequence of a crew is under way or waits in its wing. -/
def inPlace (s : State) (id : Nat) (c : Crew) : Bool :=
  let w := s.wing (crewWing c)
  (w.swap.map fun x => x.kind == .reconfig && x.outs.contains id).getD false || w.waits.any fun e => e.2 == id

/-- Where a waiting Steward command stands: nothing while it waits, else its result code. -/
def stwResult (s : State) (o : PortOp) : Option Nat :=
  match if s.crewLive o.id o.heat then s.crew o.id else none with
  | none => some (if o.op = 9 then scOk else scBadState)
  | some c =>
    match o.op with
    | 1 => match c.state with
      | .boarding => none
      | .pinned => some scOk
      | _ => some scBadState
    | 5 => match c.state with
      | .parked => some scOk
      | .draining => if c.target = .parked then none else some scBadState
      | .boarding | .running => if c.pendPark then none else some scBadState
      | _ => some scBadState
    | 9 => none
    | _ => if s.inPlace o.id c then none else some (if c.state = .pinned then scOk else scBadState)

/-- Complete the Steward commands whose crew has reached its state. -/
def settlePorts (s : State) : State :=
  s.portOps.foldl
    (fun s o =>
      if o.block = .stw then
        match s.stwResult o with
        | none => s
        | some code =>
          let s := { s with portOps := s.portOps.erase o }
          if o.discard then s else s.stwEnd o.port code o.id
      else s) s

/-- Record a Steward command that waits. -/
def waitPort (s : State) (p : Port) (op id : Nat) : State :=
  ({ s with portOps := s.portOps ++ [(⟨p, .stw, op, id, s.heat id, false, [], 0, none⟩ : PortOp)] }).settlePorts

/-! ## In-place sequences of a pinned crew (R106, R149, R154) -/

/-- The accesses of a crew that wait at its windows are gone (R106, R154). -/
def dropWaits (s : State) (id : Nat) : State :=
  let h := idHalf id
  ({ s with gallery := { s.gallery with winAcc := s.gallery.winAcc.set h ((s.gallery.winAcc.get h).filter fun x => x.id != id) } }).modCrew
    id fun c => { c with waiting := false }

/-- Start a reconfiguration in place: quiesce, reads discarded without RETRY, porches parked. -/
def startReconfig (s : State) (id : Nat) : State :=
  match s.crew id with
  | none => s
  | some c =>
    let s := (s.quiesceRooms c.suite [id] false).dropWaits id
    let s := s.modRooms c.suite fun x => { x with retry := 0 }
    let s := (s.parkPorches c).modRooms c.suite fun x => { x with state := .swapping }
    s.modWing (crewWing c) fun x =>
      { x with swap := some ⟨.reconfig, 4, [id], c.suite, some (id, c.heat), c.suite, false, false, false, false⟩ }

/-- Destroy a pinned crew: its rooms quiesce, the rest is forced, no state is saved (R154). -/
def destroyPinned (s : State) (id : Nat) : State :=
  match s.crew id with
  | none => s
  | some c =>
    let s := ((s.quiesceRooms c.suite [id] false).dropWaits id).fabricReset id c
    (s.emptyRooms c.suite).release id

/-- Sequences that wait for a wing start, until one takes it. -/
def nextWait (s : State) (w : Nat) : Nat → State
  | 0 => s
  | fuel + 1 =>
    match s.wingBusy w, (s.wing w).waits with
    | false, (k, id) :: rest =>
      let s := s.modWing w fun x => { x with waits := rest }
      let s := match k with
        | .reconfig => s.startReconfig id
        | .destroy => s.destroyPinned id
        | _ =>
          match s.crew id with
          | some c =>
            if (c : Crew).state = CrewState.boarding then s.startSwap w [] (some (id, c.heat)) c.suite else s.startSwap w [id] none []
          | none => s
      s.nextWait w fuel
    | _, _ => s

/-! ## Room requests (R118) and the end of a swap -/

/-- STW.ROOM_RETIRE ends DONE or REFUSED. -/
def retireEnd (s : State) (h : Half) (status reason : Nat) : State :=
  { s.wrs (pgStw h) [(STW_ROOM_RETIRE_STATUS, status), (STW_ROOM_RETIRE_REASON, reason)] with
    retiring := s.retiring.set h none }

/-- A room request acts on the room's entry as it stands (R118). -/
def retireAct (s : State) (h : Half) : State :=
  match s.retiring.get h with
  | none => s
  | some r =>
    if r % 256 ≥ 192 ∨ roomHalf r ≠ h then s.retireEnd h 3 1
    else
      match (s.room r).state with
      | .free => (s.retireRoom r 3).retireEnd h 2 0
      | .withdrawn => if (s.room r).crew = 0 then (s.retireRoom r 3).retireEnd h 2 0 else s
      | .occupied =>
        match s.crew (s.room r).crew with
        | none => s
        | some c =>
          if c.isPinned then s.retireEnd h 3 2
          else if c.state = .running ∧ !c.waiting then s.startDrain (s.room r).crew .ready
          else s
      | .swapping => s
      | .lent => s.retireEnd h 3 5
      | .g2 => s.retireEnd h 3 3
      | .retired => s.retireEnd h 3 4

/-- Write SWAP_LAST, SWAP_COUNT and SWAP_ERRS at the end of a swap (R123, R124, R461). -/
def swapRecord (s : State) (w outcome cycles : Nat) : State :=
  let p := pgWng w
  let s := (s.step1 p WNG_SWAP_LAST_SEQ).wrs p
    [(WNG_SWAP_LAST_VALID, 1), (WNG_SWAP_LAST_OUTCOME, outcome), (WNG_SWAP_LAST_DURATION, min cycles 0xFFFFFF)]
  let s := s.step1 p WNG_SWAP_COUNT_COUNT
  match outcome with
  | 3 => (s.bump p WNG_SWAP_ERRS_QUIET).raise p 0
  | 4 => (s.bump p WNG_SWAP_ERRS_CODE).raise p 0
  | 5 => (s.bump p WNG_SWAP_ERRS_LOAD).raise p 0
  | 6 => s.raise p 0
  | _ => s

/-- The wing's sequence is over. -/
def wingFree (s : State) (w : Nat) : State := s.modWing w fun x => { x with swap := none }

/-- Step 1 of STANDBY entry in a wing that no sequence holds (R32): every RUNNING swappable crew starts on its way out. -/
def standbyWing (s : State) (w : Nat) : State :=
  let outs := (s.crews.filter fun e => crewWing e.2 == w && !e.2.suite.isEmpty && e.2.state == .running && !e.2.waiting).map (·.1)
  if s.wingBusy w || outs.isEmpty then s
  else
    let s := outs.foldl (fun s id => (s.tally id).modCrew id fun c => { c with state := .draining, target := .ready, expired := false }) s
    let s := { s with seq := { s.seq with drained := s.seq.drained ++ outs } }
    (s.startSwap w outs none []).modWing w fun x => { x with swap := x.swap.map fun y => { y with kind := .standby } }

/-- No swappable crew of a half holds rooms, and no sequence is under way or waits in its wings. -/
def wingsEmpty (s : State) (h : Half) : Bool :=
  (List.range 8).all (fun k => (s.wing (8 * halfBit h + k)).swap.isNone && (s.wing (8 * halfBit h + k)).waits.isEmpty) &&
    s.crews.all fun e => idHalf e.1 != h || (e.2.state != .running && e.2.state != .draining && e.2.state != .boarding)

/-- The Steward's first two steps at STANDBY entry (R32), in order: crews leave, and once none is left every PINNED crew is
quiesced in place with its porches at their park levels. -/
def standbyHalf (s : State) (h : Half) : State :=
  let s := (List.range 8).foldl (fun s k => s.standbyWing (8 * halfBit h + k)) s
  if s.wingsEmpty h then
    (s.crews.filter fun e => idHalf e.1 == h && e.2.state == .pinned && !(s.room (e.2.suite.headD 0)).quiesce).foldl
      (fun s e => (s.quiesceRooms e.2.suite [e.1] true).parkPorches e.2) s
  else s

/-- What waited on a wing acts, then a decision is reached (R118, R137); during STANDBY entry the wing empties. -/
def wingDone (s : State) (w : Nat) : State :=
  let h := halfOf (w / 8)
  let s := s.retireAct h
  let s := s.nextWait w (s.wing w).waits.length
  let s := if s.seq.standby == .entering then s.standbyHalf h else s
  (s.settlePorts.decision h).settlePorts

end State

end Sys2Proof.Machine
end

