-- ==== Sys2Proof/Machine/Swaps.lean ====
section
/-! DEFINITION. Swaps (R98 to R113): steps 3 to 7 of Table 3.8, the quiesce limit, and the Steward's own events: slices,
idle, ageing, held notices, heats and cooling IDs. -/

namespace Sys2Proof.Machine

/-- Bits of a byte of a state image that restore takes; reserved bits and the status word are ignored (R89). -/
def imageMask (off : Nat) : Nat :=
  if off < 38 * 512 then 0xFF
  else if off < 38 * 512 + 0x80 then
    if off % 16 < 8 then 0xFF else if off % 16 = 8 then 0x03 else 0
  else if off < 39 * 512 then 0
  else if off % 4 = 0 then 0xFF else if off % 4 = 1 then 0x01 else 0

/-- A state image as live state. -/
def liveImage (t : Tbl Byte) : Tbl Byte :=
  (Tbl.mapAll t fun k b => b &&& BitVec.ofNat 8 (imageMask k)).filter fun e => e.2 ≠ 0

/-- The room status word of a state image (Table 3.7). -/
def statusWord (t : Tbl Byte) : Nat := leNat (Tbl.bytes t (38 * 512 + 0x80) 4)

/-- A mode in which the Steward carries a swap on (R34). -/
def swapMode (m : Nat) : Bool := inService m || m == mStartup || m == mLoadLocal || m == mLoadHost

namespace State

/-- The swap under way in a wing at a step. -/
def swapAt (s : State) (w step : Nat) : Option Swap :=
  if swapMode (s.mode (halfOf (w / 8))) then (s.wing w).swap.filter fun x => x.step == step else none

def modSwap (s : State) (w : Nat) (f : Swap → Swap) : State :=
  s.modWing w fun x => { x with swap := x.swap.map f }

/-! ## Step 3 (R90, R108, R109) -/

/-- Save one room's state image into the crew store. -/
def saveRoom (s : State) (c : Crew) (r p : Nat) (forced : Bool) : State :=
  let x := s.room r
  let t := Tbl.slice s.fabric (frameKey (stateFrame r 0)) imageBytes
  let t := Tbl.putBytes (liveImage t) (38 * 512 + 0x80)
    (leBytes 4 (x.retry * 2 ^ 16 + 2 * bit forced + bit x.codeFlag))
  s.putWhole (stateAddr c false p) imageBytes t

/-- Read a room's code-error flag at the save: the map's CODE_ERR; at its fourth swap with the flag within one second the
room becomes WITHDRAWN. `now` is in µs. -/
def readFlag (s : State) (r now : Nat) : State :=
  let x := s.room r
  if x.codeFlag then
    let ts := (x.codeTimes.filter fun t => now < t + 1000000) ++ [now]
    s.modRoom r fun x =>
      if 4 ≤ ts.length then { x with codeErr := true, codeTimes := [], state := .withdrawn, failAs := 4 }
      else { x with codeErr := true, codeTimes := ts }
  else s.modRoom r fun x => { x with codeErr := false }

/-- A room of a list has been withdrawn for code errors. -/
def codeOut (s : State) (rooms : List Nat) : Bool :=
  rooms.any fun r => (s.room r).state == .withdrawn && (s.room r).failAs == 4

/-- An outgoing crew leaves its rooms: it takes its target, or FAULTED after a code error or a forced save. -/
def takeTarget (s : State) (id : Nat) (flagged : Option Nat) (forced : Bool) : State :=
  match s.crew id with
  | none => s
  | some c =>
    let s := s.modCrew id fun c => { c with qto := 0 }
    if c.target = .empty then s.release id
    else if forced then
      (s.modCrew id fun c => { c with suite := [] }).enterFaulted id (.plain fQuiet)
    else
      match flagged with
      | some r => s.enterFaulted id ⟨fCode, r, 0⟩
      | none =>
        match c.target with
        | .ready => s.enterReady id
        | .faulted => s.enterFaulted id (c.pendFault.getD (.plain 0))
        | _ => s.modCrew id fun c => { c with state := .parked, suite := [], pendPark := false }

/-- Save an outgoing crew, and answer whether a code-error flag was set. -/
def saveCrew (s : State) (id now : Nat) (forced : Bool) : Bool × State :=
  match s.crew id with
  | none => (false, s)
  | some c =>
    let (fl, s) := c.suite.zipIdx.foldl
      (fun (acc : Option Nat × State) (r, p) =>
        let (fl, s) := acc
        let s := if c.target = .empty then s else s.saveRoom c r p forced
        let flag := (s.room r).codeFlag
        (if flag ∧ fl.isNone then some r else fl, s.readFlag r now))
      (none, s)
    (fl.isSome, s.takeTarget id fl forced)

/-- Save several crews. -/
def saveCrews (s : State) (ids : List Nat) (now : Nat) (forced : Bool) : Bool × State :=
  ids.foldl (fun (a : Bool × State) id => let (f, s) := a.2.saveCrew id now forced; (a.1 || f, s)) (false, s)

/-- The incoming crew goes back to READY and keeps its queue position. Step 7, at which a PARK or a fault recorded while it
boarded would act (R134), never comes, and the record is dropped. DESIGN CHOICE, unsafe: notes/assumptions/35. -/
def backToReady (s : State) (inc : Option (Nat × Nat)) : State :=
  match inc with
  | none => s
  | some (id, heat) =>
    if s.crewLive id heat then
      s.modCrew id fun c => { c with state := .ready, suite := [], pendPark := false, pendFault := none }
    else s

/-- Every outgoing crew of a swap has left: the swap goes on, or ends after step 3 with a room withdrawn for code errors
(R109). `flag` says that a code-error flag was set. Crews taken out for STANDBY write no SWAP_LAST here: R32 has them leave by
steps 2 and 3, and R123 records step 7 and abandoned swaps. DESIGN CHOICE, unsafe: notes/assumptions/43. -/
def afterSave (s : State) (w : Nat) (x : Swap) (flag : Bool) (cycles : Nat) : State :=
  let s := s.modRooms x.rooms fun y => { y with still := true }
  if x.kind = .standby then ((s.emptyRooms x.rooms).wingFree w).wingDone w
  else if s.codeOut x.rooms then
    ((((s.backToReady x.inc).emptyRooms x.rooms).swapRecord w 4 cycles).wingFree w).wingDone w
  else
    let next := if x.inc.isSome && !x.lost then 4 else 7
    ((s.modSwap w fun y => { y with step := next, codeErr := flag || x.codeErr, outs := [] }).settlePorts.decision
      (halfOf (w / 8))).settlePorts

/-- Save the outgoing crews of a wing's swap (step 3), once every room of the swap reports QUIET (R98). A delivery stops at a word
boundary (R203), and each word is whole within its command. -/
def swapSave (s : State) (w now cycles : Nat) : State :=
  match s.swapAt w 3 with
  | none => s
  | some x =>
    if !(s.unquiet x.rooms).isEmpty then s
    else
      let (fl, s) := s.saveCrews x.outs now false
      s.afterSave w x fl cycles

/-! ## Step 4 (R110, R112, R154) -/

/-- The address of a plane frame of a room's shadow slot, of a state frame (Table 3.1). -/
def shadowAddr (s : State) (r frame : Nat) : Nat := planeFrame (!(s.room r).active) r frame

/-- A load or restore fails (R110, R154): the incoming crew faults and its suite is FREE. A pinned crew that is reconfigured in
place faults where it is: its rooms stay OCCUPIED, and no swap is recorded. DESIGN CHOICE, unsafe: notes/assumptions/43. -/
def loadFails (s : State) (w : Nat) (x : Swap) (f : FaultInfo) (cycles : Nat) : State :=
  match x.inc with
  | none => s
  | some (id, heat) =>
    if x.kind = .reconfig then
      let s := s.modRooms x.rooms fun y => { y with state := .occupied }
      ((s.enterFaulted id f).wingFree w).wingDone w
    else
      let s := (s.emptyRooms x.rooms).swapRecord w 5 cycles
      let s :=
        if s.crewLive id heat then (s.modCrew id fun c => { c with suite := [] }).enterFaulted id f else s
      (s.wingFree w).wingDone w

/-- Load one position's plane into its room's shadow slot. Answers what served it: 0 the slot itself, 1 the landing
cache, 2 memory. -/
def loadRoom (s : State) (w id : Nat) (c : Crew) (r p : Nat) (preload : Bool) : Except FaultInfo Nat × State :=
  if preload && s.shadowed id c.heat r p then (.ok 0, s)
  else
    match s.fetchPlane w id c p true with
    | (.ok (hit, t), s) => (.ok (if hit then 1 else 2), s.writeShadow r id c.heat p t)
    | (.error .image, s) => (.error ⟨fImage, r, s.shadowAddr r 179⟩, s)
    | (.error (.ecc frame), s) =>
      let s := s.losePreload r id c.heat p
      let s := s.putPlane (!(s.room r).active) r (frame * 512) (Tbl.slice s.mem (planeAddr c p) (frame * 512))
      (.error ⟨fLoad, r, s.shadowAddr r frame⟩, s.modRoom r fun x => { x with svalid := false })

/-- Load every position of the incoming crew (step 4); in place, once the rooms report QUIET or their acknowledges are
stopped (R149). -/
def swapLoad (s : State) (w cycles : Nat) : State :=
  match s.swapAt w 4 with
  | none => s
  | some x =>
    match x.inc with
    | none => s
    | some (id, heat) =>
      match if s.crewLive id heat && !x.lost then s.crew id else none with
      | none => s.modSwap w fun y => { y with step := 7, lost := true }
      | some c =>
        if x.kind = .reconfig ∧ s.unquiet x.rooms ≠ [] then s
        else
        let s := s.modCrew id fun c => { c with rewritten := false }
        let (res, s) := x.suite.zipIdx.foldl
          (fun (acc : Except FaultInfo (Bool × Bool) × State) (r, p) =>
            match acc with
            | (.error f, s) => (.error f, s)
            | (.ok (m, k), s) =>
              match s.loadRoom w id c r p (x.kind == .swap) with
              | (.error f, s) => (.error f, s)
              | (.ok n, s) => (.ok (m || n == 2, k || n == 1), s))
          (.ok (false, false), s)
        match res with
        | .error f => s.loadFails w x f cycles
        | .ok (m, k) => s.modSwap w fun y => { y with step := 5, anyMem := m, anyCache := k }

/-! ## Steps 5 and 6 (R84, R103) -/

/-- Flip one room: the slots change roles, the old plane stays intact in the shadow slot, the code-error flag clears. The old
plane counts as a preload unless its crew's image has been rewritten since it was loaded (R96). -/
def flipRoom (s : State) (id heat r p : Nat) (keepOld : Bool) : State :=
  let old := s.room r
  let whole := keepOld && old.crew != 0 && s.crewLive old.crew old.heat &&
    !((s.crew old.crew).map (·.rewritten)).getD true
  s.modRoom r fun x =>
    { x with active := !x.active, crew := id, heat := heat, pos := p, screw := old.crew, sheat := old.heat,
             spos := old.pos, svalid := whole, codeFlag := false, still := true }

/-- Flip every room of the suite at once (step 5). -/
def swapFlip (s : State) (w : Nat) : State :=
  match s.swapAt w 5 with
  | none => s
  | some x =>
    match x.inc with
    | none => s
    | some (id, heat) =>
      if x.lost then s.modSwap w fun y => { y with step := 7 }
      else
        let s := x.suite.zipIdx.foldl (fun s (r, p) => s.flipRoom id heat r p (x.kind == .swap)) s
        let s := match s.crew id with
          | some c => if x.kind = SwapKind.reconfig then s.fabricReset id c else s
          | none => s
        s.modSwap w fun y => { y with step := 6 }

/-- Put a state image into a room; a swappable crew's window loads its RETRY mask. -/
def restoreRoom (s : State) (r : Nat) (t : Tbl Byte) (mask : Bool) : State :=
  (s.enterState r (liveImage t)).modRoom r fun x => { x with retry := if mask then bits (statusWord t) 31 16 else 0, issued := 0 }

/-- Restore every position's state image (step 6). -/
def swapRestore (s : State) (w cycles : Nat) : State :=
  match s.swapAt w 6 with
  | none => s
  | some x =>
    match x.inc with
    | none => s
    | some (id, heat) =>
      match if s.crewLive id heat && !x.lost then s.crew id else none with
      | none => s.modSwap w fun y => { y with step := 7, lost := true }
      | some c =>
        let first := c.useFirst || x.kind == .reconfig
        let (bad, s) := x.suite.zipIdx.foldl
          (fun (acc : Option FaultInfo × State) (r, p) =>
            match acc with
            | (some f, s) => (some f, s)
            | (none, s) =>
              let st := if x.kind = .swap then
                  (s.wing w).staged.find? fun y => y.crew == id && y.heat == heat && y.pos == p
                else none
              match st with
              | some y => (none, s.restoreRoom r y.data (!c.isPinned))
              | none =>
                match s.readMem ueLoader (stateAddr c first p) imageBytes with
                | (.ok t, s) => (none, s.restoreRoom r t (!c.isPinned))
                | (.error sec, s) =>
                  (some ⟨fLoad, r, stateFrame r ((sec * 32 - stateAddr c first p) / 512)⟩, s))
          (none, s)
        match bad with
        | some f => s.loadFails w x f cycles
        | none => s.modSwap w fun y => { y with step := 7 }

/-! ## Step 7 (R92, R99, R113, R134) -/

/-- The edge modes of a room at a position of a suite of `cw` columns and `ch` rows (R92). -/
def edgeOf (inside : Bool) (border : Bool) : Edge := if inside then .through else if border then .hall else .isolate

def setEdges (s : State) (c : Crew) (r p : Nat) : State :=
  let req := if c.isPinned then hallReq (s.control (s.room r).active r) else 0
  let hall := hallEdges r req
  let row := p / c.w
  let col := p % c.w
  s.modRoom r fun x =>
    { x with edgeN := edgeOf (decide (0 < row)) (hall.contains (r, 0)), edgeE := edgeOf (decide (col + 1 < c.w)) (hall.contains (r, 1)),
             edgeS := edgeOf (decide (row + 1 < c.h)) (hall.contains (r, 2)), edgeW := edgeOf (decide (0 < col)) (hall.contains (r, 3)) }

/-- A crew holds its suite: map entries, edges, quiesce lowered, its windows answer. -/
def occupy (s : State) (id : Nat) (c : Crew) (suite : List Nat) : State :=
  let s := suite.zipIdx.foldl
    (fun s (r, p) =>
      let s := s.modRoom r fun x =>
        { x with state := .occupied, crew := id, heat := c.heat, pos := p, quiesce := false, stopped := false, still := false }
      (s.setEdges c r p).reopenWindow id r p) s
  (s.snapAgain .east suite).snapAgain .west suite

/-- The boarding of a crew ends: RUNNING or PINNED (Table 4.6). -/
def boarded (s : State) (id : Nat) (c : Crew) (suite : List Nat) : State :=
  let s := s.occupy id c suite
  let s := s.dropStaged id
  let s := s.modCrew id fun c =>
    { c with state := if c.isPinned then .pinned else .running, suite := suite, boardings := (c.boardings + 1) % 2 ^ 32,
             lastAnchor := suite.headD 0, aged := 0, useFirst := false, expired := false, fault := 0 }
  if c.isPinned then s.attach id { c with suite := suite } else s

/-- The outcome of a swap that reached step 7 (Table 3.16). One that is both abandoned (R113) and flagged for a code error (R109)
counts as abandoned: R123 orders CODE_ERR and LOAD_ERR alone. DESIGN CHOICE, unsafe: notes/assumptions/43. -/
def outcomeOf (x : Swap) : Nat :=
  if x.lost then 6
  else if x.codeErr then 4
  else if x.inc.isNone || x.anyMem then 0
  else if x.anyCache then 2
  else 1

/-- The fault or PARK that a crew recorded while it boarded acts (R134). -/
def actPending (s : State) (id : Nat) : State :=
  match s.crew id with
  | none => s
  | some c =>
    match c.pendFault with
    | some f => (s.modCrew id fun c => { c with pendFault := none, pendPark := false }).faultCrew id f
    | none =>
      if c.pendPark ∧ c.state = .running then
        (s.modCrew id fun c => { c with pendPark := false }).startDrain id .parked
      else s.modCrew id fun c => { c with pendPark := false }

/-- Reopen (step 7). -/
def swapReopen (s : State) (w cycles : Nat) : State :=
  match s.swapAt w 7 with
  | none => s
  | some x =>
    let live := match x.inc with
      | some (id, heat) => if s.crewLive id heat && !x.lost then (s.crew id).map (id, ·) else none
      | none => none
    if x.kind = .reconfig then
      match live with
      | none => s
      | some (id, c) =>
        let s := (s.occupy id c x.suite).modCrew id fun c => { c with state := .pinned, fault := 0, useFirst := false }
        let s := (s.unparkPorches c).attach id { c with suite := x.suite }
        (s.wingFree w).wingDone w
    else
      match x.inc, live with
      | some _, some (id, c) =>
        let s := s.emptyRooms (x.rooms.filter fun r => !x.suite.contains r)
        let s := ((s.boarded id c x.suite).swapRecord w (outcomeOf x) cycles).wingFree w
        ((s.actPending id).wingDone w)
      | some _, none => (((s.emptyRooms x.rooms).swapRecord w 6 cycles).wingFree w).wingDone w
      | none, _ => (((s.emptyRooms x.rooms).swapRecord w (outcomeOf x) cycles).wingFree w).wingDone w

/-! ## The quiesce limit (R107, R108, R149) -/

/-- A crew that the swap keeps: RUNNING in its suite with a new slice; with another target than READY, or with a room that
BST.REQ has withdrawn (R386), the Steward tries again at once. -/
def keepCrew (s : State) (id : Nat) (late : Bool) : State :=
  match s.crew id with
  | none => s
  | some c =>
    let s := s.modRooms c.suite fun x => { x with state := if x.state = .withdrawn then .withdrawn else .occupied }
    let s := s.reopenRooms id c
    let s := s.modCrew id fun c =>
      { c with state := .running, expired := false, qto := if late then min 3 (c.qto + 1) else c.qto }
    if c.target = .ready ∧ !(c.suite.any fun r => (s.room r).state == .withdrawn) then s else s.startDrain id c.target

/-- The sequence of a wing takes out, or loads in place, a pinned crew: QUIET_LIMIT_P bounds it, and QUIET_LIMIT any other (R107).
DESIGN CHOICE, unsafe: notes/assumptions/43. -/
def pinSwap (s : State) (w : Nat) : Bool := (((s.wing w).swap).map fun x => x.kind == .reconfig || x.kind == .destroy).getD false

/-- The crew has a room that has not reported QUIET. -/
def crewLate (s : State) (id : Nat) : Bool := ((s.crew id).map fun c => !(s.unquiet c.suite).isEmpty).getD false

/-- The limit expires in a swap before every room is QUIET. DESIGN CHOICE, unsafe: notes/assumptions/23. -/
def quiesceLimit (s : State) (w : Nat) (now cycles : Nat) : State :=
  match s.swapAt w 3 with
  | none =>
    match s.swapAt w 4 with
    | some x => if x.kind = .reconfig then s.modRooms (s.unquiet x.rooms) fun y => { y with stopped := true } else s
    | none => s
  | some x =>
    let late := x.outs.filter s.crewLate
    let lateOf (id : Nat) : Bool := late.contains id
    let fourth (id : Nat) : Bool := ((s.crew id).map fun c => decide (3 ≤ c.qto)).getD false
    if late.isEmpty then s
    else
      let forced := x.outs.filter fun id => lateOf id && fourth id
      let s0 := s
      let s := forced.foldl
        (fun s id => s.modRooms (((s.crew id).map (·.suite)).getD []) fun y => { y with stopped := true }) s
      let (fl, s) := s.saveCrews forced now true
      if x.outs.all fun id => !lateOf id || fourth id then
        let rest := x.outs.filter fun id => !forced.contains id
        if rest = [] then s.afterSave w x fl cycles
        else (s.modSwap w fun y => { y with outs := rest, codeErr := fl || x.codeErr }).settlePorts
      else
        let (_, s) := s.saveCrews (x.outs.filter fun id => fourth id && !lateOf id) now false
        let keep := x.outs.filter fun id => !fourth id
        let kept := keep.flatMap fun id => ((s0.crew id).map (·.suite)).getD []
        let s := (s.backToReady x.inc).emptyRooms (x.rooms.filter fun r => !kept.contains r)
        let s := (s.swapRecord w 3 cycles).wingFree w
        (keep.foldl (fun s id => s.keepCrew id (lateOf id)) s).wingDone w

/-! ## Slices, idle and ageing (R138, R143, R145) -/

/-- A RUNNING crew's slice ends: it is evicted if a decision chooses its rooms, else it has a new slice. -/
def sliceEnds (s : State) (id : Nat) : State :=
  match s.crew id with
  | none => s
  | some c =>
    if c.state = .running ∧ !c.waiting ∧ !s.orphan (idHalf id) then
      let s := (s.modCrew id fun c => { c with expired := true }).decision (idHalf id)
      (s.modCrew id fun c => { c with expired := false }).settlePorts
    else s

/-- IDLE from a crew (R145). -/
def idle (s : State) (id : Nat) : State :=
  match s.crew id with
  | none => s
  | some c =>
    if c.state ≠ .running ∨ !swapMode (s.mode (idHalf id)) then s
    else if c.parkOnIdle ∧ !c.wakePending ∧ !c.waiting then (s.startDrain id .parked).settlePorts
    else (s.modCrew id fun c => { c with wakePending := false }).sliceEnds id

/-- A crew's IDLE pulse crosses to HCLK: at once where its wing's crossing is idle and ready, and else after those before it
(R145, R364). -/
def idlePulse (s : State) (id : Nat) : State :=
  match s.crew id with
  | none => s
  | some c =>
    if c.state ≠ .running then s
    else
      let h := idHalf id
      let x := s.crossing h xkIdle (crewWing c % 8)
      if x.isOpen || x.notReady then s.pulseFor h xkIdle (crewWing c % 8) id else s.idle id

/-- A handshake completes: a pin-interrupt line's pulse sets its event, an IDLE pulse reaches the Steward (R363, R429). -/
def pulseDone (s : State) (h : Half) (kind index : Nat) : State :=
  let x := s.crossing h kind index
  if !crossOk h kind index || !x.isOpen then s
  else
    let s := s.pulseAway h kind index
    if kind = xkLine then s.raise (pgPint h) index
    else if kind = xkIdle then s.idle (x.carries.headD 0xFFFF)
    else s

/-- A READY crew has waited another AGE period (R138). It joins the tail of the higher queue. DESIGN CHOICE, unsafe:
notes/assumptions/43. -/
def age (s : State) (id : Nat) : State :=
  match s.crew id with
  | none => s
  | some c =>
    if c.state = .ready ∧ s.rd (pgStw (idHalf id)) STW_SCHED_AGE ≠ 0 then
      let (n, t) := s.stamp
      if s.eff id c < 7 then (t.modCrew id fun c => { c with aged := c.aged + 1, stamp := n }).decision (idHalf id)
      else s.modCrew id fun c => { c with aged := c.aged + 1 }
    else s

end State

/-! ## Meanings -/

/-- SWAP_SAVE. -/
def execSwapSave (wing : BitVec 4) (now cycles : Nat) (s : State) : Host.Outcome State Fault Refusal :=
  .next (s.swapSave wing.toNat now cycles)

/-- SWAP_LOAD. -/
def execSwapLoad (wing : BitVec 4) (cycles : Nat) (s : State) : Host.Outcome State Fault Refusal :=
  .next (s.swapLoad wing.toNat cycles)

/-- SWAP_FLIP. -/
def execSwapFlip (wing : BitVec 4) (s : State) : Host.Outcome State Fault Refusal := .next (s.swapFlip wing.toNat)

/-- SWAP_RESTORE. -/
def execSwapRestore (wing : BitVec 4) (cycles : Nat) (s : State) : Host.Outcome State Fault Refusal :=
  .next (s.swapRestore wing.toNat cycles)

/-- SWAP_REOPEN. -/
def execSwapReopen (wing : BitVec 4) (cycles : Nat) (s : State) : Host.Outcome State Fault Refusal :=
  .next (s.swapReopen wing.toNat cycles)

/-- SLICE_EXPIRY. -/
def execSliceExpiry (id : BitVec 16) (s : State) : Host.Outcome State Fault Refusal := .next (s.sliceEnds id.toNat)

/-- CREW_IDLE. -/
def execCrewIdle (id : BitVec 16) (s : State) : Host.Outcome State Fault Refusal := .next (s.idlePulse id.toNat)

/-- AGEING_PERIOD. -/
def execAgeingPeriod (id : BitVec 16) (s : State) : Host.Outcome State Fault Refusal := .next (s.age id.toNat)

/-- FAULT_NOTICE_RELEASE (R155). -/
def execFaultNoticeRelease (id : BitVec 16) (s : State) : Host.Outcome State Fault Refusal :=
  .next <|
    match (s.crew id.toNat).bind fun c => c.held.map (c, ·) with
    | none => s
    | some (c, bs) =>
      (s.modCrew id.toNat fun c => { c with held := none }).pushNotice id.toNat c.faultHatch c.world bs

/-- HEAT_COPY_UPDATE (R207): the hall's copy follows, and the hatches that name the crew discard what became stale. -/
def execHeatCopyUpdate (hall : Half) (id : BitVec 16) (s : State) : Host.Outcome State Fault Refusal :=
  .next <|
    if idHalf id.toNat ≠ hall ∧ s.cut (other hall) then s
    else
      let s := if idHalf id.toNat = hall then s
        else { s with heatCopy := s.heatCopy.set hall (Tbl.store (s.heatCopy.get hall) 0 id.toNat (s.heat id.toNat)) }
      (s.hatches.filter fun e => hatchHalf e.1 == hall && (e.2.src == id.toNat || e.2.dst == id.toNat)).foldl
        (fun s e => s.settle e.1) s

/-- ID_COOLING_EXPIRY (R152). -/
def execIdCoolingExpiry (id : BitVec 16) (s : State) : Host.Outcome State Fault Refusal :=
  .next { s with ids := Tbl.mod s.ids id.toNat fun r => { r with cooling := false } }

end Sys2Proof.Machine
end

