-- ==== Sys2Proof/Machine/G2Ops.lean ====
section
/-! DEFINITION. Operations of RUN-G2 (chapter 9): the register file, the configuration states, the stream, the start of
the design. -/

namespace Sys2Proof.Machine

/-! Configuration states (Table 9.5) and load codes (Table 9.4). -/

abbrev gsOff : Nat := 0
abbrev gsClearing : Nat := 1
abbrev gsWait : Nat := 2
abbrev gsReceiving : Nat := 3
abbrev gsStarting : Nat := 4
abbrev gsConfigured : Nat := 5
abbrev gsError : Nat := 6

abbrev glBadId : Nat := 1
abbrev glBadHeader : Nat := 2
abbrev glBadAddress : Nat := 3
abbrev glBadCrc : Nat := 4
abbrev glAtticErr : Nat := 5
abbrev glNoSync : Nat := 6
abbrev glAborted : Nat := 7

/-- Granules of the G2 store (R289), and the offset of its state images. -/
def g2Granules : Nat := 83
def g2Images : Nat := 48 * planeBytes

/-- Attic offset and length of the G2 image area (Table 8.2). -/
def g2Area : Nat := 0xF000000

/-- A register of the G2 file in the USR group (Table 9.9). -/
def g2Usr (n : Nat) : Bool := n == 6 || n == 7 || (0x10 ≤ n && n ≤ 0x1F)

namespace State

/-- The function that PMX selects for a service pin, PA0 = 0 to PD15 = 63 (Table 14.5). -/
def pinFunc (s : State) (n : Nat) : Nat := s.rd (pgPmx .east) (PMX_FUNC_F.at 4 (n / 8)) / 16 ^ (n % 8) % 16

/-- Every pin of a list has a function, and no window of a switch is under way on it (R425). -/
def pinsAre (s : State) (f : Nat) (l : List Nat) : Bool := l.all fun n => s.pinFunc n == f && !s.pins.windows.contains n

/-! ## The register file (R306 to R312) -/

def g2State (s : State) : Nat := s.rd pgG2c G2C_STAT_STATE

/-- A register as stored. -/
def g2Raw (s : State) (n : Nat) : Nat := s.rd pgG2c (G2C_REG_VALUE.at 4 n)
def g2Put (s : State) (n v : Nat) : State := s.wr pgG2c (G2C_REG_VALUE.at 4 n) v

/-- PWR.MODE with its copy in G2C.STAT. -/
def g2Power (s : State) (m : Nat) : State := (s.g2Put 4 m).wr pgG2c G2C_STAT_PWR m

/-- A register's group is gated: USR in DEEP_SLEEP (R310, R311). -/
def g2Shut (s : State) (n : Nat) : Bool := g2Usr n && s.g2Raw 4 % 4 == 2

/-- The value that a register holds (Table 9.9). -/
def g2Value (s : State) (n : Nat) : Nat :=
  match n with
  | 0 => 0x96
  | 1 => 0x03
  | 3 => bit (s.g2State == gsConfigured) + 2 * bit (gsWait ≤ s.g2State && s.g2State ≤ gsConfigured) + s.g2Raw 3 / 4 * 4
  | 0x3F => 0x4C
  | n => s.g2Raw n

/-- The bits of a register that a write sets (Table 9.9); 0 for the read-only ones. -/
def g2Mask (n : Nat) : Nat :=
  if n = 2 then 1
  else if n = 4 ∨ n = 5 ∨ n = 0xB then 3
  else if n = 7 ∨ (8 ≤ n ∧ n ≤ 0xA) ∨ (0x10 ≤ n ∧ n ≤ 0x1F) then 0xFF
  else 0

/-- STATUS.GATED_ACC is set (R311). -/
def g2GatedAcc (s : State) : State := s.g2Put 3 (setBit (s.g2Raw 3) 3 true)

/-- The count of the wake timer. -/
def g2Left (s : State) : Nat := s.g2Raw 8 + 256 * s.g2Raw 9 + 65536 * s.g2Raw 10

def g2SetLeft (s : State) (n : Nat) : State := ((s.g2Put 8 n).g2Put 9 (n / 256)).g2Put 10 (n / 65536)

/-- A running wake timer has counted down to an open value that is not yet 0: this model counts no time (R306).
DESIGN CHOICE, safe: notes/assumptions/10. -/
def g2Tick (s : State) : State :=
  if s.g2Mode && (s.g2Raw 0xB).testBit 0 && s.g2Left != 0 then (s.g2SetLeft (1 + s.drawn s.g2Left)).drew else s

/-- A register as a read finds it. -/
def g2Fresh (s : State) (n : Nat) : State := if 8 ≤ n ∧ n ≤ 10 then s.g2Tick else s

/-- A read: the value, 0 for a register of a gated group. -/
def g2Read (s : State) (n : Nat) : Nat × State :=
  if s.g2Shut n then (0, s.g2GatedAcc) else let s := s.g2Fresh n; (s.g2Value n, s)

/-- A write. One to the wake timer writes a byte of its count, from which RELOAD starts again.
DESIGN CHOICE, unsafe: notes/assumptions/31. -/
def g2Write (s : State) (n v : Nat) : State :=
  if s.g2Shut n then s.g2GatedAcc
  else if 8 ≤ n ∧ n ≤ 10 then
    let s := s.g2Tick.g2Put n (v % 256)
    { s with g2 := { s.g2 with reload := s.g2Left } }
  else if n = 3 then s.g2Put 3 (s.g2Raw 3 &&& (0xFF ^^^ (v &&& 0xC)))
  else if n = 6 then s.g2Put 6 (s.g2Raw 6 &&& (0xFF ^^^ v % 256))
  else if n = 4 then s.g2Power (v % 4)
  else if g2Mask n = 0 then s
  else s.g2Put n (v &&& g2Mask n)

/-- INT_N is low (R309). -/
def g2Int (s : State) : Bool := (s.g2Raw 2).testBit 0 && (s.g2Raw 6 &&& s.g2Raw 7) != 0

/-- A host-port access with WAKE_EN[1] set takes the block to RUN (R312). -/
def g2PortWake (s : State) : State := if (s.g2Raw 5).testBit 1 then s.g2Power 0 else s

/-- The G2 block serves: RUN-G2, or SERVICE entered from it. -/
def g2Serves (s : State) : Bool := s.g2Mode && inService (s.mode .east)

/-- The design runs: CONFIGURED, and its group not gated. -/
def g2Runs (s : State) : Bool := s.g2Serves && !s.g2Gated

/-! ## What the block drives (Tables 9.2 and 9.5, R291 to R293) -/

/-- What the device puts on a pin: nothing, or a level. -/
inductive Drive where
  | highZ | low | high
  deriving DecidableEq, Repr

/-- An open-drain output: low, or released. -/
def openDrain (low : Bool) : Drive := if low then .low else .highZ

/-- What functions 7 and 8 put on a service pin (Table 9.2): INT_N on PB1 (17), DOUT on PC2 (34), INIT_N on PC4 (36), DONE on PC5
(37). STB on PB2 leaves by the overlay, and D[7:0] for a read, in the access that strobes (R292). Outside RUN-G2, and so in
HALT, they drive nothing. -/
def g2Drives (s : State) (n : Nat) : Drive :=
  if !s.g2Mode || s.mode .east == mHalt || s.g2State == gsOff then .highZ
  else if n = 17 ∧ s.pinsAre 7 [17] then openDrain s.g2Int
  else if n = 34 ∧ s.pinsAre 8 [34] then (if s.g2.dout then .high else .low)
  else if n = 36 ∧ s.pinsAre 8 [36] then openDrain (s.g2State == gsClearing || s.g2State == gsError)
  else if n = 37 ∧ s.pinsAre 8 [37] then openDrain (s.g2State != gsConfigured)
  else .highZ

/-- What the G2 design puts on pin `n` of porch `k`, 0 to 9 (R293): high impedance unless CONFIGURED; then as its own state says,
which the translated plane and state of the rooms carry in a form that the manual does not give. In STANDBY the state stands
still, and with it the levels (R313). -/
def g2Porch (s : State) (k n : Nat) : Drive :=
  if s.g2State != gsConfigured || s.mode .east == mHalt then .highZ
  else
    match Config.g2Io s.fabric (16 * k + n) with
    | none => .highZ
    | some b => if b then .high else .low

/-! ## The configuration (R297 to R302) -/

/-- G2C.LOAD of a load that ends. -/
def g2Load (s : State) (code : Nat) : State :=
  (s.step1 pgG2c G2C_LOAD_SEQ).wrs pgG2c [(G2C_LOAD_VALID, 1), (G2C_LOAD_CODE, code), (G2C_LOAD_FRAMES, s.g2.frames)]

/-- The state becomes ERROR (R296, R301); a CRC mismatch sets CRC_ERR. -/
def g2Fail (s : State) (code : Nat) : State :=
  let s := if code = glBadCrc then s.g2Put 3 (setBit (s.g2Raw 3) 2 true) else s
  (({ s with g2 := { s.g2 with dout := true } }.wr pgG2c G2C_STAT_STATE gsError).g2Load code).raise pgG2c 1

/-- The rooms of the block (R287). -/
def g2Rooms : List Nat := List.range 48

/-- The state becomes CLEARING: the design stops, its rooms are quiesced, SRC acts (R297, R318). -/
def g2Clearing (s : State) : State :=
  let s := s.modRooms g2Rooms fun x => { x with quiesce := true, still := true }
  { s.wr pgG2c G2C_STAT_STATE gsClearing with
    g2 := { s.g2 with dout := true, progDue := false, header := false, frames := 0, nframes := 0,
                      src := s.on pgG2c G2C_CTRL_SRC } }

/-- PROG_N low, or G2C.CTRL.PROG (Table 9.6). -/
def g2Prog (s : State) : State :=
  let st := s.g2State
  if !s.g2Serves || st = gsOff then s
  else if st = gsStarting then { s with g2 := { s.g2 with progDue := true } }
  else if st = gsReceiving then (s.g2Load glAborted).g2Clearing
  else s.g2Clearing

/-- Byte address of a tile's plane, and of its state image, in the G2 store. -/
def g2Addr (s : State) (tile : Nat) (image : Bool) : Nat :=
  (s.g2.store.getD 0) * granBytes + if image then g2Images + tile * imageBytes else tile * planeBytes

/-- The delay-line codes of the eight classes for a 40 ps step (Table 9.8), and the seven bytes that hold them in a cluster's
block (Table 3.3). -/
def g2Codes : List Nat := [14, 19, 25, 34, 45, 60, 80, 107]
def g2CodeBytes : List Byte := leBytes 7 (g2Codes.foldr (fun c n => c + 128 * n) 0)

/-- The translated plane of a tile: the translation's bytes, with the delay-line codes in every cluster, and BD_MODE = 1 and
CODE_EN = 0 in the room control word. A tile of which the stream carried nothing else than the power-up value, zeros, is the
blank plane (R295). DEDUCED, unsafe: notes/assumptions/31. -/
def g2Plane (tile : Tbl Byte) : Tbl Byte :=
  if tile.isEmpty then []
  else
    let t : Tbl Byte := (List.range planeBytes).filterMap fun i =>
      let b := Config.g2Translate tile i
      if b = 0 then none else some (i, b)
    let t := (List.range 128).foldl (fun t k => Tbl.putBytes t (k / 8 * (11 * 512) + k % 8 * 704 + 0x2B0) g2CodeBytes) t
    let k := 179 * 512 + 0x80
    Tbl.store t 0 k ((Tbl.get t 0 k &&& 0xDF#8) ||| 1#8)

/-- The translated state image of a tile. -/
def g2Image (tile : Tbl Byte) : Tbl Byte :=
  if tile.isEmpty then []
  else
    (List.range imageBytes).filterMap fun i =>
      let b := Config.g2Translate tile (planeBytes + i)
      if b = 0 then none else some (i, b)

/-- Bytes that a G2 tile takes. -/
def tileBytes : Nat := 24576

/-- Put a tile's translation into the G2 store. -/
def g2Store (s : State) (tile : Nat) : State :=
  let t := Tbl.slice s.g2.tiles (tile * tileBytes) tileBytes
  (s.putWhole (s.g2Addr tile false) planeBytes (g2Plane t)).putWhole (s.g2Addr tile true) imageBytes (g2Image t)

/-- A pinned crew of a mask that claims one of porches 0 to 9. -/
def claimsG2 (c : Crew) : Bool := c.porches % 1024 != 0

/-- Why the block is not usable, 0 where it is (Table 9.1). -/
def g2Blocked (s : State) : Nat :=
  let rooms := g2Rooms
  if !s.on pgG2c G2C_CTRL_EN then 0
  else if rooms.any fun r => (s.room r).state == .retired || (s.room r).state == .withdrawn then 1
  else if s.crews.any fun e => e.2.isPinned && e.2.suite.any (· < 48) then 2
  else if s.crews.any fun e => e.2.isPinned && claimsG2 e.2 then 3
  else if (s.granRuns .east g2Granules).size = 0 then 4
  else 0

/-- The entry to RUN-G2 is decided: the rooms of the block and the G2 store are taken (R288, R289). -/
def g2Reserve (s : State) : State :=
  let s := s.modRooms g2Rooms fun x => { x with state := .g2 }
  match s.granPick .east g2Granules with
  | some (g, s) => { s with g2 := { s.g2 with store := some g } }
  | none => s

/-- The overlay of PB2 is the G2 strobe (Table 14.5). -/
def strobeOverlay (s : State) : Bool := bits (s.rd (pgPmx .east) (PMX_OVL_O.at 4 1)) 5 4 == 3

/-- The device enters RUN-G2 (R289, R290): the overlay of PB2 becomes the G2 strobe (R292), the configuration starts. -/
def g2Enter (s : State) : State :=
  let s := s.wr (pgPmx .east) (PMX_OVL_O.at 4 1) (s.rd (pgPmx .east) (PMX_OVL_O.at 4 1) ||| 0x30)
  let s := s.roscCtrl 0 (s.reg (pgWng 0 * 0x1000 + WNG_ROSC_CTRL_EN.off)).toNat
  (s.g2Clearing).vfabGo .east (s.pow .east).vgoal2

/-- The device leaves RUN-G2 (Table 9.6). -/
def g2Leave (s : State) : State :=
  { s.wr pgG2c G2C_STAT_STATE gsOff with g2 := { s.g2 with dout := true, progDue := false, calRun := false } }

/-- PROG_N is high at the device: PC3 carries the serial chain's function and is high, or does not carry it.
DESIGN CHOICE, unsafe: notes/assumptions/31. -/
def progNHigh (s : State) : Bool := s.pinFunc 35 != 8 || s.pins.levels.testBit 35

/-- SYNC (Table 9.3). -/
def syncWord : List Byte := [0x4B, 0xE1, 0x92, 0x6C]

/-- The byte after SYNC in the first 4 KiB of the G2 image area, after the preamble.
DESIGN CHOICE, unsafe: notes/assumptions/31. -/
def g2SyncAt (s : State) : Option Nat :=
  (List.range 4093).findSome? fun i =>
    if Tbl.bytes s.attic.data (g2Area + i) 4 = syncWord then some (i + 4) else none

/-- The G2 store has been cleared (R297): WAIT, and with SRC = 1 RECEIVING at once, or ERROR without a SYNC (R299). -/
def g2Cleared (s : State) : State :=
  if s.g2Serves && s.g2State = gsClearing && s.progNHigh then
    let s := { s with g2 := { s.g2 with tiles := [], crc := 0xFFFF } }
    let s := (List.range 48).foldl g2Store s
    if s.g2.src then
      match s.g2SyncAt with
      | some i =>
        if s.atticLost g2Area i then s.g2Fail glAtticErr
        else { s with g2 := { s.g2 with pos := i } }.wr pgG2c G2C_STAT_STATE gsReceiving
      | none => s.g2Fail (if s.atticLost g2Area 4096 then glAtticErr else glNoSync)
    else s.wr pgG2c G2C_STAT_STATE gsWait
  else s

/-- The next bytes of the stream are these: the Attic's where it is the source; the serial chain's are given. -/
def g2Next (s : State) (bs : List Byte) : Bool :=
  if s.g2.src then Tbl.bytes s.attic.data (g2Area + s.g2.pos) bs.length == bs else s.pinsAre 8 [32, 33]

/-- Take stream bytes: the position moves on and, where they are covered, the CRC. -/
def g2Take (s : State) (bs : List Byte) : State :=
  { s with g2 := { s.g2 with pos := s.g2.pos + bs.length, crc := bs.foldl crc16Byte s.g2.crc } }

/-- Big-endian bytes. -/
def beBytes (n v : Nat) : List Byte := (leBytes n v).reverse

/-- The next `n` bytes of the stream come from the Attic and cannot be read (R246, Table 9.4).
DESIGN CHOICE, unsafe: notes/assumptions/41. -/
def g2Lost (s : State) (n : Nat) : Bool := s.g2.src && s.atticLost (g2Area + s.g2.pos) n

/-- The stream's header (R296). -/
def g2Header (s : State) (devId fmt : Byte) (nframes : Nat) (resv : Word) : State :=
  let bs := [devId, fmt] ++ beBytes 2 nframes ++ beBytes 4 resv.toNat
  if s.g2Serves && s.g2State = gsReceiving && !s.g2.header && s.g2Lost 8 then s.g2Fail glAtticErr
  else if s.g2Serves && s.g2State = gsReceiving && !s.g2.header && s.g2Next bs then
    let s := s.g2Take bs
    if devId ≠ 0x96 ∨ fmt ≠ 0x02 then s.g2Fail glBadId
    else if nframes = 0 ∨ 6144 < nframes ∨ resv ≠ 0 then s.g2Fail glBadHeader
    else { s with g2 := { s.g2 with header := true, nframes := nframes } }
  else s

/-- A frame of the stream (R295). -/
def g2FrameIn (s : State) (faddr : Nat) (data : List Byte) : State :=
  let bs := beBytes 2 faddr ++ data
  if s.g2Serves && s.g2State = gsReceiving && s.g2.header && s.g2.frames < s.g2.nframes && s.g2Lost 194 then
    s.g2Fail glAtticErr
  else if s.g2Serves && s.g2State = gsReceiving && s.g2.header && s.g2.frames < s.g2.nframes && data.length = 192 &&
      s.g2Next bs then
    let s := s.g2Take bs
    let tile := bits faddr 13 8
    if 2 ^ 14 ≤ faddr ∨ 47 < tile ∨ faddr.testBit 7 then s.g2Fail glBadAddress
    else
      let k := tile * tileBytes + faddr % 128 * 192
      ({ s with g2 := { s.g2 with frames := s.g2.frames + 1, tiles := Tbl.putBytes s.g2.tiles k data } }).g2Store tile
  else s

/-- The stream's CRC (R300): STARTING, and the calibration before the start (R305). -/
def g2CrcIn (s : State) (crc : Nat) : State :=
  if s.g2Serves && s.g2State = gsReceiving && s.g2.header && s.g2.frames = s.g2.nframes && s.g2Lost 2 then
    s.g2Fail glAtticErr
  else if s.g2Serves && s.g2State = gsReceiving && s.g2.header && s.g2.frames = s.g2.nframes && s.g2Next (beBytes 2 crc) then
    if crc = s.g2.crc then
      { s with g2 := { s.g2 with calRun := true } }.wr pgG2c G2C_STAT_STATE gsStarting
    else s.g2Fail glBadCrc
  else s

/-- A room of the block takes its plane from the store into the shadow slot, flips, and takes its state image (Table
9.7, steps 1 to 3). Answers whether the store's codewords could be read. -/
def g2Room (s : State) (r : Nat) : Bool × State :=
  match s.readMem ueLoader (s.g2Addr r false) planeBytes with
  | (.error _, s) => (false, s)
  | (.ok t, s) =>
    match s.readMem ueLoader (s.g2Addr r true) imageBytes with
    | (.error _, s) => (false, s)
    | (.ok i, s) =>
      (true, ((s.putPlane (!(s.room r).active) r planeBytes t).modRoom r fun x =>
        { x with active := !x.active, codeFlag := false, quiesce := false, stopped := false, still := false }).enterState r (liveImage i))

/-- The start ends (R302): the design runs, and a PROG that came meanwhile acts. -/
def g2Start (s : State) : State :=
  if s.g2Serves && s.g2State = gsStarting && !s.g2.calRun && (s.wing 0).swap.isNone &&
      !(s.selfTest.east.slices.any fun x => wingOf x.room == 0) then
    match (List.range 48).foldl (fun (a : Bool × State) r => if a.1 then a.2.g2Room r else a) (true, s) with
    | (false, s) => s
    | (true, s) =>
      let due := s.g2.progDue
      let s := ((s.wr pgG2c G2C_STAT_STATE gsConfigured).g2Load 0).raise pgG2c 0
      let s := if due then s.g2Clearing else s
      s.wingDone 0
  else s

/-- A calibration ends (R305): the step, 40 ps × REF ÷ COUNT, in hundredths of a picosecond to the nearest; a step outside 34 ps
to 60 ps leaves the scaler as it was. Each line takes the new scale once its request is low (`State.lineSet`).
DESIGN CHOICE, unsafe: notes/assumptions/31. -/
def g2Calibrated (s : State) (count : Nat) : State :=
  if !s.g2.calRun then s
  else
    let step := if count = 0 then 0xFFFF else min 0xFFFF ((2 * 4000 * s.g2.ref + count) / (2 * count))
    let ok := decide (34 * count ≤ 40 * s.g2.ref ∧ 40 * s.g2.ref ≤ 60 * count)
    let s := { s with g2 := { s.g2 with calRun := false, held := false, count := if ok then count else s.g2.count } }
    let s := (s.step1 pgG2c G2C_CAL_SEQ).wrs pgG2c [(G2C_CAL_VALID, 1), (G2C_CAL_STATUS, bit !ok), (G2C_CAL_STEP, step)]
    if ok then s else s.raise pgG2c 2

/-- The wake timer reaches zero (R312): with RELOAD it starts again from the count last written. -/
def g2TimerEnds (s : State) : State :=
  if s.g2Mode && (s.g2Raw 0xB).testBit 0 && s.g2Left != 0 then
    let s := s.g2Put 6 (setBit (s.g2Raw 6) 0 true)
    let s := s.g2SetLeft (if (s.g2Raw 0xB).testBit 1 then s.g2.reload else 0)
    if (s.g2Raw 5).testBit 0 then s.g2Power 0 else s
  else s

end State

end Sys2Proof.Machine
end

