-- ==== Sys2Proof/Machine/Modes.lean ====
section
/-! DEFINITION. Modes (chapters 1 and 11): resets, BOOT, transitions, HALT, STANDBY, the lease, ORPHAN and
re-adoption. -/

namespace Sys2Proof.Machine

/-! HALT codes (Table 1.10). -/

abbrev ecLeadSplit : Nat := 1
abbrev ecRomCheck : Nat := 2
abbrev ecFuseRead : Nat := 3
abbrev ecLoadFailed : Nat := 4
abbrev ecStartup : Nat := 5
abbrev ecGalleryTrain : Nat := 6
abbrev ecThermal : Nat := 7
abbrev ecStackTrain : Nat := 8
abbrev ecHalfHalt : Nat := 9
abbrev ecRequested : Nat := 0xA

/-! REASONs of SYS.MODE_REQ (Table 1.8). -/

abbrev rqBadTarget : Nat := 1
abbrev rqNotFromHere : Nat := 2
abbrev rqLifecycle : Nat := 3
abbrev rqInService : Nat := 4
abbrev rqOrphaned : Nat := 5
abbrev rqInTransition : Nat := 6
abbrev rqEntryFailed : Nat := 7

/-- Kinds of messages between the halves: a mode transition, a HALT, a renewal, the answer to one marked ADOPT. -/
abbrev gmMode : Nat := 0
abbrev gmHalt : Nat := 1
abbrev gmRenewal : Nat := 2
abbrev gmAdopted : Nat := 3

/-! Marks of a renewal (R373, R378, Table 12.7). -/

abbrev rnPlain : Nat := 0
abbrev rnAdopt : Nat := 1
abbrev rnYield : Nat := 2

/-- PHASE and SOURCE of CFG.STAT (Table 8.15). -/
abbrev phHeader : Nat := 1
abbrev phRecords : Nat := 2
abbrev phStartup : Nat := 4
abbrev phDone : Nat := 5
abbrev phFailed : Nat := 6
abbrev phDeferred : Nat := 7

namespace State

def modSeq (s : State) (f : Sequencer → Sequencer) : State := { s with seq := f s.seq }

def setMode (s : State) (h : Half) (m : Nat) : State :=
  s.wrs (pgSys h) [(SYS_MODE_PREV, s.mode h), (SYS_MODE_MODE, m)]

/-- TRANSIT of both halves. -/
def transit (s : State) (b : Bool) : State :=
  (s.wr (pgSys .east) SYS_MODE_TRANSIT (bit b)).wr (pgSys .west) SYS_MODE_TRANSIT (bit b)

/-- ERR_N is asserted (R28, R34). -/
def errN (s : State) : Bool :=
  s.mode .east == mHalt || s.mode .west == mHalt || s.cellar.noClock.east || s.cellar.noClock.west

/-- A renewal carries the leader's LEADER bit, its die serial, the epoch and a mark (R373). -/
def renewalMsg (s : State) (mark : Nat) : Emission :=
  .gallery s.leader gmRenewal
    [s.rd (pgSys s.leader) SYS_ROLE_LEADER, s.fuses.serial.get s.leader, (s.rd (pgSys s.follower) SYS_LEASE_EPOCH + 1) % 2 ^ 16, mark]

/-! ## Resets (R366, R367, R369) -/

/-- Registers of the CEL page, which only the OFF-to-CELLAR transition resets (R321). -/
def celRegs (s : State) : Tbl Word := s.regs.filter fun e => e.1 / 0x1000 == pgCel

/-- Every group except Always-on resets: the device as `State.reset` gives it, with what outlasts a reset. The stacks
keep their contents while their supplies stay; fuses burnt act from now on (R412, R414). LEAD_SEL and BOW are sampled
(R435). -/
def resetAll (s : State) (clearLast keepMem : Bool) : State :=
  let r := State.reset
  let b := { r with
    pending := s.pending, out := s.out, draws := s.draws, regs := s.celRegs
    fuses := { s.fuses with lifeCycle := s.security.nextLc, encRequired := s.security.nextEnc, fallbackEn := s.security.nextFall }
    straps := s.straps, cellar := { s.cellar with noClock := ⟨false, false⟩, tickPend := s.cellar.tickPend }
    security := { r.security with keys := s.security.keys, nextLc := s.security.nextLc, nextEnc := s.security.nextEnc,
                                  nextFall := s.security.nextFall }
    pins := { r.pins with levels := s.pins.levels, tap := s.pins.tap, bsr := s.pins.bsr }
    attic := s.attic, loader := Loader.fresh s.attic.boot, g2 := { r.g2 with ref := s.g2.ref }
    mem := if keepMem then s.mem else [], bad := if keepMem then s.bad else [] }
  let b := b.wr pgCel CEL_STAT_NO_CLOCK 0
  let b := if clearLast then b
    else (b.wr (pgSys .east) SYS_ERR_LAST (s.rd (pgSys .east) SYS_ERR_LAST)).wr (pgSys .west) SYS_ERR_LAST
      (s.rd (pgSys .west) SYS_ERR_LAST)
  let b := (b.wr (pgSys .east) SYS_ROLE_LEAD_SEL (bit s.straps.leadSel.east)).wr (pgSys .west) SYS_ROLE_LEAD_SEL
    (bit s.straps.leadSel.west)
  b.wr pgCrs CRS_ID_BOW (bit s.straps.bow)

/-! ## A loss of power (R247, R250) -/

/-- Copy units one by one; answers how many were copied and whether a read found an uncorrectable codeword.
DESIGN CHOICE, unsafe: notes/assumptions/29. -/
def progCopy (s : State) (g : Prog) (n : Nat) : Nat × Bool × State :=
  (List.range n).foldl
    (fun (acc : Nat × Bool × State) i =>
      let (done, bad, s) := acc
      if bad then acc
      else
        match s.readMem ueAttic ((g.src + i) * 0x1000) 0x1000 with
        | (.error _, s) => (done, true, s)
        | (.ok t, s) =>
          (done + 1, false, { s with attic := { s.attic with
            data := Tbl.splice s.attic.data ((g.dst + i) * 0x1000) 0x1000 t
            lost := s.attic.lost.filter fun a => a / 0x1000 != g.dst + i } }))
    (0, false, s)

/-- A unit of the Attic holds mixed contents: an open value. DESIGN CHOICE, safe: notes/assumptions/3. -/
def progMix (s : State) (unit : Nat) : State :=
  let v := s.drawn (256 ^ 0x1000)
  { s.drew with attic := { s.attic with data := Tbl.splice s.attic.data (unit * 0x1000) 0x1000 (Tbl.putBytes [] 0 (leBytes 0x1000 v)) } }

/-- A copy under way stops where it is, which is open: units written stay, and the one being written may be mixed (R250).
DESIGN CHOICE, safe: notes/assumptions/29. -/
def progCut (s : State) : State :=
  match s.prog with
  | none => s
  | some g =>
    let n := s.drawn g.len
    let (done, _, s) := s.drew.progCopy g n
    if done = n ∧ s.drawn 2 = 0 then s.drew.progMix (g.dst + n) else s.drew

/-- Whether the last write of ATT.BOOT is less than 50 µs old is open: if it is, the boot record keeps its old value (R247).
DESIGN CHOICE, safe: notes/assumptions/29. -/
def bootCut (s : State) : State :=
  match s.attic.bootOld with
  | none => s
  | some v =>
    let late := s.drawn 2 == 0
    { s.drew with attic := { s.attic with boot := if late then v else s.attic.boot, bootOld := none } }

/-- BOOT begins (Table 11.7, step 1). -/
def boot (s : State) (clearLast keepMem : Bool) : State := s.progCut.resetAll clearLast keepMem

/-- The device without its main rails: everything but Always-on in reset, in CELLAR or OFF. -/
def dark (s : State) (m : Nat) : State :=
  let old := s.devMode
  let b := (s.progCut.bootCut.resetAll false false).modSeq fun q => { q with boot := 0 }
  b.wrs (pgSys .east) [(SYS_MODE_MODE, m), (SYS_MODE_PREV, old)] |>.wrs (pgSys .west) [(SYS_MODE_MODE, m), (SYS_MODE_PREV, old)]

/-- PWRGD and the core rails allow BOOT (R464). -/
def railsGood (s : State) : Bool := s.straps.pwrgd && s.cellar.railLow.isEmpty

/-! ## HALT (R34) -/

/-- A half enters HALT. A load's cleanup or deferral ends there (R274). -/
def haltHalf (s : State) (h : Half) (code : Nat) : State :=
  if s.mode h = mHalt ∨ s.mode h = mOff ∨ s.mode h = mCellar then s
  else
    let s := (s.setMode h mHalt).wrs (pgSys h) [(SYS_ERR_CODE, code), (SYS_ERR_LAST, code), (SYS_MODE_ORPHAN, 0)]
    let s := (s.transit false).modSeq fun q => { q with boot := 0, txn := none, standby := .none, wakePend := 0, drained := [] }
    let s := { s with selfTest := s.selfTest.set h { s.selfTest.get h with slices := [] }
                      loader := { s.loader with cleaning := none, deferred := false } }
    let s := if h = .east then s.g2Leave else s
    (if h = s.follower then s.crsByMode else s).emit (.gallery h gmHalt [code])

/-- Both halves enter HALT with one cause. -/
def haltBoth (s : State) (code : Nat) : State := (s.haltHalf .east code).haltHalf .west code

/-! ## Fuses and the maps they fill (BOOT step 2) -/

/-- What the halves in BOOT read at its step 2, and the Attic's records: one half alone where the leader boots without its
follower (R377). Where the room map lies in the system area is an open value (R115). -/
def readFuses (s : State) : State :=
  let f := s.fuses
  let boots (h : Half) : Bool := s.mode h == mBoot
  let half (s : State) (h : Half) : State :=
    let n := f.serial.get h
    let s := s.wrs (pgSys h) [(SYS_PART_GRADE, f.grade), (SYS_SERIAL_LO_SERIAL, n % 2 ^ 32), (SYS_SERIAL_HI_SERIAL, n / 2 ^ 32)]
    let s := (List.range 8).foldl (fun s i => s.wr (pgPwr h) (PWR_VHALL_OP_MV.at 4 i) ((f.vhall.get h).getD i 0)) s
    let v := s.vhallOf h 4
    let s := (s.modPow h fun p => { p with vhall2 := v }).wr (pgPwr h) PWR_OP_STAT_VHALL_MV (v / 2)
    let s := s.wr (pgBst h) BST_TEST_SUM_VALID 0 |>.setReg (pgBst h * 0x1000 + BST_TEST_SUM_VALID.off) s.attic.testSum
    let base := match h with
      | .east => 1 + s.drawn 1023
      | .west => 0x8000 * 128 + s.drawn 1024
    s.drew.wr (pgStw h) STW_ROOM_MAP_BASE base
  let s := [Half.east, Half.west].foldl (fun s h => if boots h then half s h else s) s
  let s := s.wrs pgLcs [(LCS_STATE_STATE, f.lifeCycle), (LCS_STATE_PENDING, f.lifeCycle)]
  let s := s.wrs pgLcs [(LCS_FUSE_ENC_REQUIRED, bit f.encRequired), (LCS_FUSE_FALLBACK_EN, bit f.fallbackEn)]
  let s := s.setReg (pgAtt * 0x1000 + ATT_BOOT_PRIMARY.off) s.attic.boot
  let s := s.modRooms (f.retired.filter fun r => boots (roomHalf r)) fun x => { x with state := .retired, retire := 1 }
  let s := (s.attic.rooms.filter fun e => boots (roomHalf e.1)).foldl (fun s e => s.modRoom e.1 fun x =>
    if x.state = .retired then x else { x with state := .retired, retire := e.2 }) s
  { s with frames := (s.attic.frames.filter fun n => boots (halfOf (n / 0x8000))).foldl (fun t n => Tbl.put t n .retired) s.frames }

/-- BOOT step 2: IRC is READY in both halves and RST_N is high. -/
def bootStep2 (s : State) : State :=
  if s.seq.boot = 1 ∧ !s.straps.rstLow ∧ s.srcReady .east .irc ∧ s.srcReady .west .irc then
    if s.fuses.readFails then s.haltBoth ecFuseRead
    else if 100 ≤ s.cellar.hottest then (s.readFuses).haltBoth ecThermal
    else (s.readFuses.modSeq fun q => { q with boot := 3 }).openPorts
  else s

/-- The leader check (Table 11.8), once the Gallery is up at BOOT. -/
def leaderCheck (s : State) : State :=
  let e := s.on (pgSys .east) SYS_ROLE_LEAD_SEL
  let w := s.on (pgSys .west) SYS_ROLE_LEAD_SEL
  if e != w then s.haltBoth ecLeadSplit
  else if s.fuses.serial.east = s.fuses.serial.west then s.haltBoth ecFuseRead
  else
    let l : Half := if e then .west else .east
    let s := s.wr (pgSys l) SYS_ROLE_LEADER 1
    let one (s : State) (h : Half) : State := (s.step1 (pgSys h) SYS_LEASE_EPOCH).wrs (pgSys h) [(SYS_ROLE_LEASE_OK, 1), (SYS_LEASE_AGE, 0)]
    (one (one s .east) .west).modSeq fun q => { q with boot := 5 }

/-! ## The load's start -/

/-- A local load begins at its first byte. -/
def loadStart (s : State) : State :=
  s.wrs pgCfg [(CFG_STAT_SOURCE, if s.chainLoad then 3 else 1 + s.slotOf), (CFG_STAT_PHASE, phHeader)]

/-! ## Transitions (R27, R29, R30) -/

/-- Entry to TEST ends every crew and saves nothing (R387). -/
def testEnter (s : State) : State :=
  let s := s.g2Leave
  let s := s.crews.foldl (fun s e => s.release e.1) s
  let s := { s with wings := [], portOps := [], selfTest := ⟨SelfTest.fresh, SelfTest.fresh⟩, sigs := [], blocks := [], lines := [] }
  let s := s.modRooms (s.rooms.map (·.1)) fun x => if x.state = .retired then x else { Room.fresh with failAs := x.failAs }
  (s.retireAct .east).retireAct .west

/-- What the device does on reaching a mode. -/
def entered (s : State) (m : Nat) : State :=
  let s := s.crsByMode
  if m = mLoadLocal then s.loadStart.openChain.chainStart
  else if m = mLoadHost then s.wrs pgCfg [(CFG_STAT_SOURCE, 4), (CFG_STAT_PHASE, phHeader)]
  else if m = mStartup then s.wr pgCfg CFG_STAT_PHASE phStartup
  else if isRun m then
    if s.rd pgCfg CFG_STAT_PHASE = phStartup then
      let s := s.wr pgCfg CFG_STAT_PHASE phDone
      ((if m = mRunG2 then s.g2Enter else s).decision .east).decision .west
    else s
  else if m = mTest then s.testEnter
  else s

/-- The leader changes and the transition ends. -/
def leaderChange (s : State) (m : Nat) : State :=
  if m = mHalt then s.haltHalf s.leader ecRequested
  else ((s.setMode s.leader m).transit false).modSeq (fun q => { q with txn := none }) |>.entered m

/-- The leader begins a transition: TRANSIT in both halves and a message to the follower. A leader whose lease has lapsed
changes alone. -/
def begin (s : State) (m : Nat) : State :=
  let s := (s.transit true).modSeq fun q => { q with txn := some (m, false) }
  if s.lapsed s.leader then s.leaderChange m else s.emit (.gallery s.leader gmMode [m])

/-- Live-upkeep operations under way in either half (R395). -/
def holds (s : State) : Nat := s.rd (pgSys .east) SYS_MODE_SVC_HOLD + s.rd (pgSys .west) SYS_MODE_SVC_HOLD

/-- Enter or leave SERVICE as the counts say (Table 1.6). -/
def service (s : State) : State :=
  let m := s.devMode
  if s.seq.txn.isSome || s.seq.standby != .none then s
  else if isRun m && 0 < s.holds then s.begin mService
  else if m == mService && s.holds == 0 then s.begin (s.rd (pgSys s.leader) SYS_MODE_PREV)
  else s

/-- A live-upkeep operation takes, or releases, a resource of a half. -/
def hold (s : State) (h : Half) : State := (s.bump (pgSys h) SYS_MODE_SVC_HOLD).service
def unhold (s : State) (h : Half) : State :=
  (s.wr (pgSys h) SYS_MODE_SVC_HOLD (s.rd (pgSys h) SYS_MODE_SVC_HOLD - 1)).service

/-! ## Rails and clocks in STANDBY (R325, R326) -/

/-- The hall of a half stops: retention levels, PLLs and IRC off, the stacks in self-refresh. -/
def sleepHalf (s : State) (h : Half) : State :=
  let s := (s.avsCommit h 1 1100).avsCommit h 0 1200
  let s := s.wr (pgClk h) CLK_SRC_STAT_READY (s.rd (pgClk h) CLK_SRC_STAT_READY &&& 0b000110)
  let s := (List.range 12).foldl (fun s n => s.setSrcReady h (.porch (BitVec.ofNat 4 n)) false) s
  let s := s.modPow h fun p => { p with hallPend := none, svcPend := none, avs := [] }
  (s.wr (pgMem (firstStack h)) MEM_STAT_SELF_REFRESH 1).wr (pgMem (firstStack h + 1)) MEM_STAT_SELF_REFRESH 1

/-- Steps 2 and 3 of Table 10.2: the hall runs on IRC with its rails back. -/
def wakeHalf (s : State) (h : Half) : State :=
  let s := s.setSrcReady h .irc true
  let s := (s.wrs (pgClk h) [(CLK_SRC_STAT_HALL_SEL, 2), (CLK_SRC_STAT_SVC_SEL, 2)]).wr (pgPwr h) PWR_OP_STAT_ON_IRC 1
  let v := max (s.vfabLeast h) (min (s.vfabTarget h) (s.pow h).vgoal2)
  (s.avsCommit h 0 (s.vhallOf h (s.opNow h))).avsCommit h 1 v

/-- Steps 4 and 5: the hall PLL for the run operating point and the service PLL, at once READY. -/
def plls (s : State) (h : Half) : State :=
  let s := (s.setSrcReady h .pllA true).setSrcReady h .svc true
  (s.wrs (pgClk h) [(CLK_SRC_STAT_HALL_SEL, 0), (CLK_SRC_STAT_SVC_SEL, 0)]).wr (pgPwr h) PWR_OP_STAT_ON_IRC 0

/-- Steps 6 and 7: the stacks leave self-refresh, the lease is renewed, both halves enter the run mode in PREV. The Steward
reopens the pinned crews; READY crews board by its rules. A pin-interrupt line that woke the device shows its event
(R430). -/
def wakeUp (s : State) : State :=
  let run := s.rd (pgSys s.leader) SYS_MODE_PREV
  let half (s : State) (h : Half) : State :=
    let s := (s.wr (pgMem (firstStack h)) MEM_STAT_SELF_REFRESH 0).wr (pgMem (firstStack h + 1)) MEM_STAT_SELF_REFRESH 0
    ((s.step1 (pgSys h) SYS_LEASE_EPOCH).wrs (pgSys h) [(SYS_LEASE_AGE, 0)]).setMode h run
  let s := half (half s .east) .west
  let lines := s.pins.wakeLines
  let s := { s with pins := { s.pins with wakeLines := 0 } }.modSeq fun q => { q with standby := .none, wakePend := 0, drained := [] }
  let s := (List.range 16).foldl (fun s n => if lines.testBit n then s.raise (pgPint .east) n else s) s
  let s := if s.g2Mode then { s with g2 := { s.g2 with calRun := true, held := true } } else s
  let pins := s.crews.filter fun e => e.2.state == .pinned
  let s := pins.foldl (fun s e => (s.reopenRooms e.1 e.2).unparkPorches e.2) s
  (((((s.crsByMode.retireAct .east).retireAct .west).decision .east).decision .west)).settlePorts

/-- CEL.WAKE_CAUSE (R323); the host link leaves L1. -/
def wakeCause (s : State) (sources : Nat) : State :=
  ((s.wr pgHlk HLK_LINK_L1 0).step1 pgCel CEL_WAKE_CAUSE_SEQ).wrs pgCel [(CEL_WAKE_CAUSE_VALID, 1), (CEL_WAKE_CAUSE_CAUSE, sources)]

/-- Wake sources that act: the enabled ones (R322). -/
def wakeOn (s : State) (sources : Nat) : Nat := sources &&& (s.rd pgCel CEL_WAKE_EN_EN ||| 2)

/-- The wake sequence (Table 10.2) on sources that act; `ready` says whether the PLLs become READY within their limit. -/
def wakeBy (s : State) (sources : Nat) (ready : Bool) : State :=
  let s := s.wakeCause sources
  let s := (s.wakeHalf .east).wakeHalf .west
  if ready then ((s.plls .east).plls .west).wakeUp else s.modSeq fun q => { q with standby := .waking }

/-- A wake source arrives: it wakes the device from STANDBY, and during STANDBY entry it waits for the entry's end
(R31). -/
def wakeSource (s : State) (sources : Nat) : State :=
  let on := s.wakeOn sources
  if on = 0 then s
  else
    match s.seq.standby with
    | .accepted | .entering => s.modSeq fun q => { q with wakePend := q.wakePend ||| on }
    | .asleep => s.wakeBy (on ||| s.seq.wakePend) true
    | .none | .waking => s

/-! ## STANDBY entry (R32, R33) -/

/-- Slices under way in a half. -/
def slices (s : State) (h : Half) : List Slice := (s.selfTest.get h).slices

/-- The Stewards of both halves begin their steps, once every slice has ended (R383). -/
def standbyGo (s : State) : State :=
  if s.seq.standby == .entering && (s.slices .east).isEmpty && (s.slices .west).isEmpty then (s.standbyHalf .east).standbyHalf .west
  else s

/-- A hatch has no transfer under way: every packet that it has admitted has its notice in memory. A host copy is one command of
this model, and so is each word of a delivery, which is a delivery of its own (R203). -/
def hatchIdle (h : Hatch) : Bool := h.packets.all (·.posted)

/-- The Stewards' three steps have ended in both halves (R32), and the halves reach each other. -/
def standbyQuiet (s : State) : Bool :=
  s.seq.standby == .entering && (s.slices .east).isEmpty && (s.slices .west).isEmpty && s.wingsEmpty .east && s.wingsEmpty .west &&
    s.crews.all (fun e => e.2.state != .pinned ||
      ((s.room (e.2.suite.headD 0)).quiesce && (s.unquiet e.2.suite).isEmpty)) &&
    s.hatches.all (fun e => hatchIdle e.2) && !s.lapsed s.leader && !s.orphan s.follower

/-- Entry is abandoned (R33): crews still on their way out stay in their rooms, pinned crews reopen, crews taken out board
again by the usual rules, and requests that waited for rooms act. -/
def standbyAbandon (s : State) : State :=
  let s := s.modSeq fun q => { q with standby := .none, wakePend := 0, drained := [] }
  let s := (List.range 16).foldl
    (fun s w =>
      match (s.wing w).swap with
      | some x => if x.kind = .standby then (x.outs.foldl (fun s id => s.keepCrew id false) (s.wingFree w)) else s
      | none => s) s
  let pins := s.crews.filter fun e => e.2.state == .pinned && (s.room (e.2.suite.headD 0)).quiesce &&
    !((s.wing (crewWing e.2)).swap.map fun x => x.outs.contains e.1).getD false
  let s := pins.foldl (fun s e => (s.reopenRooms e.1 e.2).unparkPorches e.2) s
  let s := s.transit false
  let s := s.wrs (pgSys s.leader) [(SYS_MODE_REQ_STATUS, 2), (SYS_MODE_REQ_REASON, rqEntryFailed)]
  let s := s.raiseCox s.leader 3
  (((((s.retireAct .east).retireAct .west).decision .east).decision .west).settlePorts).service

/-- A pinned crew of a wing that STANDBY entry has quiesced is late. -/
def pinLate (s : State) (w : Nat) : Bool :=
  s.crews.any fun e => e.2.state == .pinned && crewWing e.2 == w && (s.room (e.2.suite.headD 0)).quiesce && s.crewLate e.1

/-- QUIET_LIMIT_P expires during entry of a pinned crew that the entry has quiesced: a late one ends the entry (R33). -/
def standbyPin (s : State) (w : Nat) : State := if s.pinLate w then s.standbyAbandon else s

/-- A quiesce limit expires during entry in the sequence under way, the entry's or an ordinary one: R107 and R108 act on its
crews, and a crew that R107 keeps RUNNING ends the entry (R33). -/
def standbyLimit (s : State) (w : Nat) (now cycles : Nat) : State :=
  let kept : Bool := match s.swapAt w 3 with
    | some x => x.outs.any fun id => s.crewLate id && ((s.crew id).map fun c => decide (c.qto < 3)).getD false
    | none => false
  if kept then (((s.modSeq fun q => { q with standby := .none }).quiesceLimit w now cycles)).standbyAbandon
  else s.quiesceLimit w now cycles

/-! ## Requests (R31, R39) -/

def reqEnd (s : State) (status reason : Nat) : State :=
  s.wrs (pgSys s.leader) [(SYS_MODE_REQ_STATUS, status), (SYS_MODE_REQ_REASON, reason)]

/-- A GO in SYS.MODE_REQ with a target; the follower's instance takes none. Where two REASONs of Table 1.8 apply, R31 gives
IN_TRANSITION and ORPHANED to any request; the order is else the model's: IN_TRANSITION, ORPHANED, BAD_TARGET, IN_SERVICE,
NOT_FROM_HERE, LIFECYCLE. DESIGN CHOICE, unsafe: notes/assumptions/45. -/
def modeReq (s : State) (h : Half) (target : Nat) : State :=
  if h ≠ s.leader then s
  else
    let s := s.wr (pgSys h) SYS_MODE_REQ_TARGET target
    let m := s.devMode
    let lc := s.rd pgLcs LCS_STATE_STATE
    if s.on (pgSys h) SYS_MODE_TRANSIT then s.reqEnd 2 rqInTransition
    else if (s.orphan .east || s.orphan .west) ∧ target ≠ mBoot ∧ target ≠ mHalt then s.reqEnd 2 rqOrphaned
    else if target ≠ mStandby ∧ target ≠ mBoot ∧ target ≠ mTest ∧ target ≠ mHalt then s.reqEnd 2 rqBadTarget
    else if target = mStandby ∧ m = mService then s.reqEnd 2 rqInService
    else if (target = mStandby ∧ !isRun m) ∨ (target = mTest ∧ !inService m) ∨ (target = mHalt ∧ m = mHalt) then
      s.reqEnd 2 rqNotFromHere
    else if target = mTest ∧ lc ≠ 1 ∧ lc ≠ 4 then s.reqEnd 2 rqLifecycle
    else
      let s := s.reqEnd 1 0
      if target = mStandby then (s.transit true).modSeq fun q => { q with standby := .accepted }
      else if target = mHalt then (s.modSeq fun q => { q with standby := .none, wakePend := 0, drained := [] }).begin mHalt
      else if target = mTest then s.begin mTest
      else if s.orphan .east || s.orphan .west then bootAlone s h
      else s.boot false true
where
  /-- BOOT of a leader that cannot reach its follower (R377): its own half resets, and the Gallery with it; what the other
  half holds stays. -/
  bootAlone (s : State) (h : Half) : State :=
    let b := s.boot false true
    let o := other h
    let far (p : Nat) : Bool := p < numPages && s.serves p == o && pageKind p != .gal
    let pick {α : Type} (x y : Both α) : Both α := (x.set h (y.get h))
    { b with
      regs := (s.regs.filter fun e => far (e.1 / 0x1000)).foldl (fun t e => Tbl.put t e.1 e.2)
        (b.regs.filter fun e => !far (e.1 / 0x1000))
      out := s.out, power := pick s.power b.power, cross := s.cross.filter fun e => halfOf (e.1 / 4096) == o
      porches := s.porches.filter fun e => porchHalf e.1 == o, doorway := pick s.doorway b.doorway
      rooms := s.rooms.filter fun e => roomHalf e.1 == o
      fabric := s.fabric.filter fun e => roomHalf (e.1 / 512 / 4096 % 4096) == o
      refs := s.refs.filter fun e => roomHalf (e.1 / 4096 % 4096) == o
      sigs := s.sigs.filter fun e => roomHalf (e.1 / 4096) == o, blocks := s.blocks.filter fun e => roomHalf (e.1 / 32) == o
      lines := s.lines.filter fun e => roomHalf (e.1 / 1024) == o, g2 := if o = .east then s.g2 else b.g2
      crews := s.crews.filter fun e => idHalf e.1 == o, ids := s.ids.filter fun e => idHalf e.1 == o
      heatCopy := pick s.heatCopy b.heatCopy, stamps := s.stamps, wings := s.wings.filter fun e => halfOf (e.1 / 8) == o
      frames := s.frames.filter fun e => halfOf (e.1 / 0x8000) == o, alloc := pick s.alloc b.alloc
      retiring := pick s.retiring b.retiring
      reads := s.reads.filter fun r => idHalf r.id == o, hatches := s.hatches.filter fun e => hatchHalf e.1 == o
      portOps := s.portOps.filter fun p => idHalf p.id == o, stackCtl := s.stackCtl
      selfTest := pick s.selfTest b.selfTest, cox := pick s.cox b.cox
      gallery := { s.gallery with fails := 0, egress := pick s.gallery.egress b.gallery.egress
                                  stalled := pick s.gallery.stalled b.gallery.stalled
                                  winAcc := pick s.gallery.winAcc b.gallery.winAcc }
      course := if o = s.follower then s.course else b.course }

/-! ## Lease, ORPHAN, re-adoption (R373 to R378) -/

/-- A lease lapses in a half. -/
def lapse (s : State) (h : Half) : State :=
  (s.wrs (pgSys h) [(SYS_ROLE_LEASE_OK, 0), (SYS_LEASE_AGE, 300)]).bump (pgSys h) SYS_ROLE_LAPSES

/-- Present what a half holds for the other at its hatch (R205): the hatch decides admission, each outcome is recorded
as R199 gives, and a violation freezes the pusher (R198, R236). A Steward's notice, whose bytes 0 and 1 name its crew, is held or
lost as any (R206). -/
def egressOut (s : State) (e : Egress) : State :=
  match e with
  | .push by_ n world bs =>
    let len := (bs.length + 63) / 64
    match by_ with
    | .steward _ => s.giveNotice (leNat (bs.take 2)) n world bs
    | _ =>
      match s.pushCheck n by_ len with
      | .admitted => s.admitted n by_ len bs
      | .refuse code => s.refuse n code
      | .violation =>
        match by_ with
        | .crew id _ => s.freezeCrew id vHatch ⟨fFrozen, 0xFFFF, 0⟩
        | .ring peer _ _ _ => s.freezePeer peer
        | .host fn => s.freezeMaster (.fn (BitVec.ofNat 8 fn)) vHatch
        | .steward _ => s
  | .ring n bs => s.handoffLate n bs

/-- Step 3 of Table 11.11 for a half: its buffer, then what stalled behind it, in arrival order. -/
def egressFlush (s : State) (h : Half) : State :=
  let l := s.gallery.egress.get h ++ s.gallery.stalled.get h
  l.foldl (fun s e => s.egressOut e)
    { s with gallery := { s.gallery with egress := s.gallery.egress.set h [], stalled := s.gallery.stalled.set h [] } }

end State

end Sys2Proof.Machine
end

