-- ==== Sys2Proof/Machine/Paging.lean ====
section
/-! DEFINITION. Crew virtual memory (chapter 5): the table walk, growth, the translation caches, the memory window, the
allocator's commands and its background work. -/

namespace Sys2Proof.Machine

/-! Walk causes (Table 5.12). -/

abbrev wcL1 : Nat := 1
abbrev wcL2 : Nat := 2
abbrev wcGrowLimit : Nat := 3
abbrev wcPoolEmpty : Nat := 4
abbrev wcNoWrite : Nat := 5
abbrev wcNoRead : Nat := 6
abbrev wcNoRegion : Nat := 7
abbrev wcKind : Nat := 8
abbrev wcWorld : Nat := 9
abbrev wcTableEcc : Nat := 0xA
abbrev wcBadEntry : Nat := 0xB

/-! PGT result codes (Table 5.11). -/

abbrev pcOk : Nat := 0
abbrev pcBadOp : Nat := 1
abbrev pcBadArg : Nat := 2
abbrev pcBadId : Nat := 3
abbrev pcNotOwner : Nat := 4
abbrev pcWorld : Nat := 5
abbrev pcEmpty : Nat := 6
abbrev pcNotTaken : Nat := 7
abbrev pcOrphaned : Nat := 8

/-- A crew ID that is not reserved (R7). -/
def idOk (id : Nat) : Bool := id != 0 && id != 0x8000

/-- Table entry addresses of a crew-virtual address (R175, R177). -/
def level1Addr (root va : Nat) : Nat := root * 2 ^ 12 + bits va 39 31 * 8
def level2Addr (e1 va : Nat) : Nat := (e1 &&& 0x1FFFFFE000) + bits va 30 21 * 8

/-- Reserved bits of the two entries (R177). -/
def level1Reserved (e : Nat) : Bool := e &&& 0xFFFFFFE000001FFE != 0
def level2Reserved (e : Nat) : Bool := e &&& 0xFFFFFFE0001FFFE0 != 0

namespace State

/-! ## Growth (R182) and the walk (R177) -/

/-- A half can take a frame of the other one: REMOTE = 1, and neither it nor the other is cut off (R185, R37). -/
def remoteOk (s : State) (h : Half) : Bool := s.on (pgPgt h) PGT_ALOC_CFG_REMOTE && !s.cut h

/-- A frame for growth: of the home half, else of the other. -/
def growFrame (s : State) (h : Half) (world : Bool) : Option (Nat × State) :=
  match s.takeFrom (s.fullerStack h world) world with
  | some r => some r
  | none => if s.remoteOk h then s.takeFrom (s.fullerStack (other h) world) world else none

/-- Grow one page: the entry at `a2` gets a frame; on failure the cause. -/
def grow (s : State) (id : Nat) (c : Crew) (a2 e2 : Nat) : Option Nat × State :=
  if c.growLimit ≤ c.frames then (some wcGrowLimit, s)
  else
    match s.growFrame (idHalf id) c.world with
    | none => (some wcPoolEmpty, s.raise (pgPgt (idHalf id)) 1)
    | some (f, s) =>
      let e := f * 2 ^ 21 + 16 + e2 % 8 / 2 * 2 + 1
      let s := (s.writeBytes ueWalker a2 (leBytes 8 e)).2
      (none, s.modCrew id fun c => { c with frames := c.frames + 1 })

/-- A wing's cached first-level entry for a crew's address: ID, heat and VA[39:31] match (R179). -/
def firstFind (s : State) (w id heat va : Nat) : Option Nat :=
  ((s.wing w).first.find? fun t => t.id == id && t.heat == heat && t.index == bits va 39 31).map (·.entry)

/-- The first-level entry of a walk: from the wing's first-level cache, else from the table. -/
def readFirst (s : State) (w id : Nat) (c : Crew) (va : Nat) : Except Nat Nat × State :=
  match s.firstFind w id c.heat va with
  | some e => (.ok e, s)
  | none =>
    let a1 := level1Addr c.root va
    if s.regionKind a1 ≠ kCrewStore then (.error wcBadEntry, s)
    else
      match s.readBytes ueWalker a1 8 with
      | (none, s) => (.error wcTableEcc, s)
      | (some b1, s) => (.ok (leNat b1), s)

/-- Fill a wing's first-level cache of 64 entries with the entry of a walk that passed every check. -/
def fillFirst (s : State) (w : Nat) (t : FirstLevel) : State :=
  s.modWing w fun v =>
    { v with first := (t :: v.first.filter fun x => !(x.id == t.id && x.heat == t.heat && x.index == t.index)).take 64 }

/-- One walk for a wing; nothing where a page has grown and the walk restarts. -/
def walkOnce (s : State) (w id : Nat) (c : Crew) (va : Nat) (write : Bool) : Option (Except Nat Trans) × State :=
    match s.readFirst w id c va with
    | (.error cause, s) => (some (.error cause), s)
    | (.ok e1, s) =>
      if level1Reserved e1 then (some (.error wcBadEntry), s)
      else if !e1.testBit 0 then (some (.error wcL1), s)
      else
        let a2 := level2Addr e1 va
        if s.regionKind a2 ≠ kCrewStore then (some (.error wcBadEntry), s)
        else
          match s.readBytes ueWalker a2 8 with
          | (none, s) => (some (.error wcTableEcc), s)
          | (some b2, s) =>
            let e2 := leNat b2
            if level2Reserved e2 then (some (.error wcBadEntry), s)
            else if !e2.testBit 0 then
              if !e2.testBit 3 then (some (.error wcL2), s)
              else
                match s.grow id c a2 e2 with
                | (some cause, s) => (some (.error cause), s)
                | (none, s) => (none, s)
            else
              let f := bits e2 36 21
              match s.regionOf f with
              | none => (some (.error wcNoRegion), s)
              | some r =>
                if r.kind ≠ kPool ∧ r.kind ≠ kHost then (some (.error wcKind), s)
                else if r.world ≠ c.world then (some (.error wcWorld), s)
                else if write ∧ !e2.testBit 1 then (some (.error wcNoWrite), s)
                else if !write ∧ !e2.testBit 2 then (some (.error wcNoRead), s)
                else
                  (some (.ok ⟨id, c.heat, bits va 39 21, f, e2.testBit 2, e2.testBit 1, r.shared⟩),
                    s.fillFirst w ⟨id, c.heat, bits va 39 31, e1⟩)

/-- The walk, which restarts once a page has grown (R182, step 4). -/
def walk (s : State) (w id : Nat) (va : Nat) (write : Bool) : Nat → Except Nat Trans × State
  | 0 => (.error wcL2, s)
  | fuel + 1 =>
    match s.crew id with
    | none => (.error wcL1, s)
    | some c =>
      match s.walkOnce w id c va write with
      | (some r, s) => (r, s)
      | (none, s) => s.walk w id va write fuel

/-- Fill a wing's translation cache of 4,096 entries. -/
def fillTlb (s : State) (w : Nat) (t : Trans) : State := s.modWing w fun v => { v with tlb := (t :: v.tlb).take 4096 }

/-- A cached translation of a crew's page: ID and heat both match (R179). -/
def tlbFind (s : State) (w id heat page : Nat) : Option Trans :=
  (s.wing w).tlb.find? fun t => t.id == id && t.heat == heat && t.page == page

/-- Translate a window's request: by the wing's cache, else by a walk that fills it. -/
def translate (s : State) (w id heat va : Nat) (write : Bool) : Except Nat Trans × State :=
  match s.tlbFind w id heat (bits va 39 21) with
  | some t =>
    if write ∧ !t.w then (.error wcNoWrite, s)
    else if !write ∧ !t.r then (.error wcNoRead, s)
    else (.ok t, s)
  | none =>
    match s.walk w id va write 2 with
    | (.error e, s) => (.error e, s)
    | (.ok t, s) => (.ok t, s.fillTlb w t)

end State

/-- The crew fault of a walk cause (Table 5.12); a violation counts as FROZEN. -/
def walkFault (cause : Nat) : Nat :=
  if cause = wcNoWrite ∨ cause = wcNoRead then fProt
  else if cause = wcNoRegion ∨ cause = wcKind ∨ cause = wcWorld then fFrozen
  else if cause = wcTableEcc then fEcc
  else fPage

namespace State

/-- A walk fails: PGT.WALK_LAST, WALK_FAULT, and the crew's fault or freeze. -/
def walkFails (s : State) (id heat room va cause : Nat) : State :=
  let p := pgPgt (idHalf id)
  let s := (s.step1 p PGT_WALK_LAST_SEQ).wrs p
    [(PGT_WALK_LAST_VALID, 1), (PGT_WALK_LAST_CAUSE, cause), (PGT_WALK_LAST_HEAT, heat), (PGT_WALK_LAST_ID, id)]
  let s := s.raise p 2
  let f : FaultInfo := ⟨walkFault cause, room, va⟩
  if f.code = fFrozen then s.freezeCrew id vWalk f else s.faultCrew id f

/-! ## The memory window -/

/-- The room of a crew's suite position whose window takes requests: the crew runs, the room is not quiesced and tokens
move in it. -/
def windowRoom (s : State) (id pos : Nat) : Option (Crew × Nat) :=
  match s.crew id with
  | none => none
  | some c =>
    if (c.state == .running || c.state == .pinned) && !c.waiting then
      (c.suite[pos]?).bind fun r => if s.tokensMove r && !(s.room r).quiesce then some (c, r) else none
    else none

/-- Order of issue of a window access. -/
def issueStamp (s : State) : Nat := s.stamps + 1
def issue (s : State) : State := { s with stamps := s.stamps + 1 }

/-- Read at a device physical address for a window: the data is on its way, or the crew faults and its window withholds
the response (Table 5.2). -/
def windowFetch (s : State) (id : Nat) (c : Crew) (room pos tag va a len : Nat) : State :=
  match s.readBytes ueWindow a len with
  | (none, s) =>
    (s.modRoom room fun x => { x with retry := setBit x.retry tag true }).faultCrew id ⟨fEcc, room, va⟩
  | (some bs, s) =>
    let s := (s.modRoom room fun x => { x with issued := setBit x.issued tag true }).issue
    { s with reads := s.reads ++ [⟨id, c.heat, pos, tag, bits va 39 21, s.stamps, bs, false, false, false⟩] }

/-- Post a write; a read-modify-write of an uncorrectable sector changes nothing and faults the crew (R165). -/
def windowPost (s : State) (id room va a : Nat) (bs : List Byte) : State :=
  let (ok, s) := s.writeBytes ueWindow a bs
  let s := s.issue.modCrew id fun c => { c with posted := c.posted ++ [(bits va 39 21, s.issueStamp)] }
  if ok then s else s.faultCrew id ⟨fEcc, room, va⟩

/-- An access waits at its window while its crew's half cannot reach the other one: an access to a frame of the other half,
and in ORPHAN a write to a shared region (R35, R37, R185). An access to a stack that is away for training waits too (R398).
DESIGN CHOICE, unsafe: notes/assumptions/26. -/
def mustWait (s : State) (id : Nat) (t : Trans) (write : Bool) : Bool :=
  !s.stackServes (stackOf t.frame) || s.cut (idHalf id) && (halfOf (t.frame / 0x8000) != idHalf id || (write && t.shared && s.orphan (idHalf id)))

def waitAccess (s : State) (id : Nat) (x : WinAcc) : State :=
  let s := s.modCrew id fun c => { c with waiting := true }
  let h := idHalf id
  { s with gallery := { s.gallery with winAcc := s.gallery.winAcc.set h (s.gallery.winAcc.get h ++ [x]) } }

/-- Translate an access and carry it out, or let it wait. -/
def windowAccess (s : State) (id : Nat) (c : Crew) (room pos va : Nat) (rd : Option (Nat × Nat)) (bs : List Byte) : State :=
  match s.translate (wingOf room) id c.heat va rd.isNone with
  | (.error cause, s) => s.walkFails id c.heat room va cause
  | (.ok t, s) =>
    if s.mustWait id t rd.isNone then s.issue.waitAccess id ⟨id, c.heat, pos, va, rd, bs, s.issueStamp⟩
    else
      let a := t.frame * frameBytes + va % frameBytes
      match rd with
      | some (tag, len) => s.windowFetch id c room pos tag va a len
      | none => s.windowPost id room va a bs

/-- An access stays inside one page. -/
def inPage (va len : Nat) : Bool := 0 < len && va % frameBytes + len ≤ frameBytes

def windowRead (s : State) (id pos tag va len : Nat) : State :=
  match s.windowRoom id pos with
  | none => s
  | some (c, r) =>
    if (s.room r).issued.testBit tag || !inPage va len then s else s.windowAccess id c r pos va (some (tag, len)) []

def windowWrite (s : State) (id pos va : Nat) (bs : List Byte) : State :=
  match s.windowRoom id pos with
  | none => s
  | some (c, r) => if inPage va bs.length then s.windowAccess id c r pos va none bs else s

/-- The accesses that waited are released in arrival order (R36, R37). -/
def releaseAccesses (s : State) (h : Half) : State :=
  let l := s.gallery.winAcc.get h
  let s := { s with gallery := { s.gallery with winAcc := s.gallery.winAcc.set h [] } }
  l.foldl
    (fun s x =>
      match s.crew x.id with
      | none => s
      | some c =>
        if c.heat = x.heat then
          (s.modCrew x.id fun c => { c with waiting := false }).windowAccess x.id { c with waiting := false }
            (c.suite.getD x.pos 0) x.pos x.va x.read x.bytes
        else s) s

/-- A completion of an older heat is dropped and counted (R178). -/
def staleMem (s : State) (id : Nat) : State := s.bump (pgStw (idHalf id)) STW_STALE_MEM

/-- A completion comes back: an acknowledged write, or a read, which its window delivers, discards, or keeps for the reopening
(R102, R105). -/
def memDone (s : State) (id heat : Nat) (tag : Option Nat) : State :=
  if !s.crewLive id heat then
    match tag with
    | none => s.staleMem id
    | some t =>
      match s.reads.find? fun r => r.id == id && r.heat == heat && r.pos * 16 + r.tag == t with
      | none => s
      | some r => ({ s with reads := s.reads.erase r }).staleMem id
  else
    match tag with
    | none => s.modCrew id fun c => { c with posted := c.posted.tail }
    | some t =>
      match s.reads.find? fun r => r.id == id && r.heat == heat && r.pos * 16 + r.tag == t && !r.arrived with
      | none => s
      | some r =>
        let left := s.reads.erase r
        if r.discard then { s with reads := left }
        else if r.kept then { s with reads := left ++ [{ r with arrived := true }] }
        else ({ s with reads := left }).deliverRead r

/-! ## The allocator's port (R186, R187) -/

/-- The half whose allocator a port reaches: its page's, or for a virtual function that of the crew ID in ARG0 (R440). -/
def pgtHalf (s : State) (p : Port) : Half :=
  match p with
  | .page h _ => h
  | .vf _ => halfOf (s.portRd .pgt p PGT_ARG0_ARG / 2 ^ 31)

/-- Bits of ARG0 and ARG1 that a command uses (Table 5.10). -/
def pgtMasks (op : Nat) : Nat × Nat :=
  match op with
  | 1 => (0x7, 0)
  | 2 => (0xFFFF, 0)
  | 3 => (0x1FFFFF, 0)
  | 4 => (0x1FFFFF, 0x1FFFFF)
  | 5 => (0xFFFF0000, 0)
  | 6 => (0xFFFF0000, 0x7FFFF)
  | _ => (0, 0)

def pgtArg (s : State) (p : Port) (one : Bool) : Nat := s.portRd .pgt p (if one then PGT_ARG1_ARG else PGT_ARG0_ARG)

/-- A reserved bit of the arguments is set. -/
def pgtReserved (s : State) (p : Port) (op : Nat) : Bool :=
  let (m0, m1) := pgtMasks op
  s.pgtArg p false &&& m0 != s.pgtArg p false || s.pgtArg p true &&& m1 != s.pgtArg p true

/-- A virtual function's port takes INVAL_CREW and INVAL_PAGE alone (R440). -/
def pgtOffers (p : Port) (op : Nat) : Bool :=
  match p with
  | .page _ _ => true
  | .vf _ => op == 5 || op == 6

/-- Carry a command out at a port that is free: GO, then the command. -/
def pgtGo (s : State) (p : Port) (op : Nat) (f : State → State) : State :=
  if s.portBusy .pgt p || s.mode (s.pgtHalf p) == mHalt then s
  else
    let s := s.portStart .pgt p
    if !pgtOffers p op then s.pgtEnd p pcBadOp 0
    else if s.pgtReserved p op then s.pgtEnd p pcBadArg 0
    else f s

/-- The stacks that a FRAME_TAKE may use: of a half, one of its two or the fuller. -/
def takeStack (s : State) (h : Half) (sel : Nat) (world : Bool) : Nat :=
  match sel with
  | 1 => firstStack h
  | 2 => firstStack h + 1
  | 3 => s.fullerStack (other h) world
  | _ => s.fullerStack h world

def frameTake (s : State) (p : Port) : State :=
  s.pgtGo p 1 fun s =>
    let h := s.pgtHalf p
    let arg := s.pgtArg p false
    let world := arg.testBit 0
    let sel := arg / 2 % 4
    if world && !s.ownerWorld (portOwner p) then s.pgtEnd p pcWorld 0
    else if sel = 3 && (s.orphan .east || s.orphan .west) then s.pgtEnd p pcOrphaned 0
    else
      match s.takeFrom (s.takeStack h sel world) world with
      | none => s.pgtEnd p pcEmpty 0
      | some (f, s) => s.pgtEnd p pcOk f

def frameGive (s : State) (p : Port) : State :=
  s.pgtGo p 2 fun s =>
    let f := s.pgtArg p false
    if !s.inPool (s.pgtHalf p) f then s.pgtEnd p pcBadArg 0
    else if ((s.regionOf f).map (·.world)).getD false && !s.ownerWorld (portOwner p) then s.pgtEnd p pcWorld 0
    else if Tbl.find s.frames f ≠ some .taken then s.pgtEnd p pcNotTaken 0
    else (s.releaseFrame f).pgtEnd p pcOk f

def granTake (s : State) (p : Port) : State :=
  s.pgtGo p 3 fun s =>
    let n := s.pgtArg p false
    if n = 0 then s.pgtEnd p pcBadArg 0
    else
      match s.granPick (s.pgtHalf p) n with
      | none => s.pgtEnd p pcEmpty 0
      | some (g, s) => s.pgtEnd p pcOk g

def granGive (s : State) (p : Port) : State :=
  s.pgtGo p 4 fun s =>
    let g := s.pgtArg p false
    let n := s.pgtArg p true
    let h := s.pgtHalf p
    if n = 0 || !s.inStore h g n then s.pgtEnd p pcBadArg 0
    else if !s.granAll h g n then s.pgtEnd p pcNotTaken 0
    else (s.granDel h g n).pgtEnd p pcOk g

/-! ## Invalidation (R180, R181) -/

/-- What an INVAL names: every crew of its half, a crew, or a page of a crew (VA[39:21]). -/
def invalNames (op id : Nat) (page : Option Nat) (crew p : Nat) : Bool :=
  op == 7 || (crew == id && (page.isNone || page == some p))

/-- Remove the cached translations that an INVAL names, and the first-level entries of the crews it names (R180). -/
def inval (s : State) (h : Half) (op id : Nat) (page : Option Nat) : State :=
  s.modWings h fun w =>
    { w with tlb := w.tlb.filter fun t => !invalNames op id page t.id t.page
             first := w.first.filter fun t => !(op == 7 || (t.id == id && (page.isNone || page.map (· / 1024) == some t.index))) }

/-- An INVAL's entries are gone; it waits for the accesses that were issued before. -/
def invalWait (s : State) (p : Port) (op id : Nat) (page : Option Nat) : State :=
  let s := s.inval (s.pgtHalf p) op id page
  { s with portOps := s.portOps ++ [(⟨p, .pgt, op, id, s.heat id, false, [], s.stamps, page⟩ : PortOp)] }

/-- INVAL_CREW and INVAL_PAGE. -/
def invalOf (s : State) (p : Port) (op : Nat) : State :=
  s.pgtGo p op fun s =>
    let id := s.pgtArg p false / 2 ^ 16
    let page := s.pgtArg p true
    if !idOk id || idHalf id != s.pgtHalf p then s.pgtEnd p pcBadId 0
    else
      match s.crew id with
      | none => s.pgtEnd p pcOk 0
      | some c =>
        if !mayAct (portOwner p) c.owner then s.pgtEnd p pcNotOwner 0
        else s.invalWait p op id (if op = 5 then none else some page)

def invalAll (s : State) (p : Port) : State := s.pgtGo p 7 fun s => s.invalWait p 7 0 none

/-- What an INVAL waits for has ended (R181): the accesses that it names and that were issued before it, at the windows, on
their way or in the memory controllers. -/
def invalClear (s : State) (o : PortOp) : Bool :=
  let h := s.pgtHalf o.port
  let names (crew page stamp : Nat) : Bool :=
    idHalf crew == h && stamp ≤ o.upto && invalNames o.op o.id o.page crew page
  s.reads.all (fun r => r.arrived || !names r.id r.page r.stamp) &&
    s.crews.all (fun e => e.2.posted.all fun x => !names e.1 x.1 x.2) &&
    (s.gallery.winAcc.get h).all fun x => !names x.id (bits x.va 39 21) x.stamp

def invalComplete (s : State) (p : Port) : State :=
  match s.portOps.find? fun o => o.port == p && o.block == .pgt && s.invalClear o with
  | none => s
  | some o =>
    let s := { s with portOps := s.portOps.erase o }
    if o.discard then s else s.pgtEnd p pcOk 0

/-! ## Background work (R167, R183, R184, R189) -/

/-- The stacks of a half serve requests (Table 1.5). -/
def memUp (s : State) (h : Half) : Bool :=
  let m := s.mode h
  !(m == mOff || m == mCellar || m == mStandby || m == mBoot)

/-- Frames that a second-level table of a crew owns: those of its entries with ALLOC set (R184). A sector that cannot be read is skipped, and its
frames stay granted. -/
def reclaimTable (s : State) (table : Nat) : State :=
  (List.range 256).foldl
    (fun s i =>
      match s.readSector ueReclaim (table / 32 + i) with
      | (none, s) => s
      | (some d, s) =>
        (List.range 4).foldl
          (fun s j =>
            let e := leAt d (8 * j) 8
            let f := bits e 36 21
            if e.testBit 4 && Tbl.find s.frames f == some .taken then s.releaseFrame f else s) s) s

/-- The tables of the crew that has waited longest are walked. -/
def reclaimWalk (s : State) (h : Half) : State :=
  match if s.memUp h then (s.alloc.get h).reclaim else [] with
  | [] => s
  | r :: rest =>
    let s := (List.range 128).foldl
      (fun s i =>
        match s.readSector ueReclaim (r.root * 128 + i) with
        | (none, s) => s
        | (some d, s) =>
          (List.range 4).foldl
            (fun s j =>
              let e := leAt d (8 * j) 8
              if e.testBit 0 then s.reclaimTable (e &&& 0x1FFFFFE000) else s) s) s
    s.modAlloc h fun a => { a with reclaim := rest }

/-- The engine zeroes a free frame for the world whose turn it is, or for the other where that one's pool is full or has no
free frame. -/
def zeroOne (s : State) (h : Half) : State :=
  let room (w : Bool) : Bool :=
    s.halfZeroed h w < s.rd (pgPgt h) PGT_ALOC_CFG_ZPOOL && s.halfZeroed h w < s.halfFree h w
  let turn := (s.alloc.get h).turn
  let w := if room turn then some turn else if room !turn then some !turn else none
  match if s.memUp h then w else none with
  | none => s
  | some w =>
    let plain (k : Nat) : Spans := (s.zeroedFrames k w).foldl (fun l f => l.minus f f) (s.freeSpans k w)
    let l := plain (firstStack h) ++ plain (firstStack h + 1)
    let f := l.nth (s.drawn l.size)
    let s := (s.drew).zeroFrame f
    ({ s with frames := Tbl.put s.frames f .zeroed }).modAlloc h fun a => { a with turn := !w }

/-- The patrol reads the next codeword of a stack and writes it back where it was corrected. -/
def patrol (s : State) (k : Nat) : State :=
  let p := pgMem k
  if s.rd p MEM_PATROL_HOURS = 0 ∨ !s.stackServes k ∨ !s.memUp (halfOf (k / 2)) then s
  else
    let i := s.stackCtl.patrol.getD k 0
    let sec := k * 2 ^ 30 + i
    let s := match s.readSector uePatrol sec with
      | (none, s) => s
      | (some d, s) => if (s.sectorErr sec).isEmpty then s else (s.writePiece uePatrol (sec * 32) d).2
    let next := (i + 1) % 2 ^ 30
    let s := { s with stackCtl := { s.stackCtl with patrol := s.stackCtl.patrol.set k next } }
    if next = 0 then s.step1 p MEM_PATROL_PASSES else s

end State

/-! ## Meanings -/

/-- WINDOW_READ. -/
def execWindowRead (id : BitVec 16) (pos : BitVec 6) (tag : BitVec 4) (va : BitVec 40) (len : BitVec 8) (s : State) :
    Host.Outcome State Fault Refusal :=
  .next (s.windowRead id.toNat pos.toNat tag.toNat va.toNat len.toNat)

/-- WINDOW_WRITE. -/
def execWindowWrite (id : BitVec 16) (pos : BitVec 6) (va : BitVec 40) (bytes : List Byte) (s : State) :
    Host.Outcome State Fault Refusal :=
  .next (s.windowWrite id.toNat pos.toNat va.toNat bytes)

/-- MEMORY_COMPLETION. -/
def execMemoryCompletion (id : BitVec 16) (heat : BitVec 4) (tag : Option (BitVec 10)) (s : State) :
    Host.Outcome State Fault Refusal :=
  .next (s.memDone id.toNat heat.toNat (tag.map (·.toNat)))

/-- PATROL_READ. -/
def execPatrolRead (stack : BitVec 2) (s : State) : Host.Outcome State Fault Refusal := .next (s.patrol stack.toNat)

/-- ZEROING_FRAME_DONE. -/
def execZeroingFrameDone (h : Half) (s : State) : Host.Outcome State Fault Refusal := .next (s.zeroOne h)

/-- RECLAIM_WALK. -/
def execReclaimWalk (h : Half) (s : State) : Host.Outcome State Fault Refusal := .next (s.reclaimWalk h)

end Sys2Proof.Machine
end

