-- ==== Sys2Proof/Machine/Gate.lean ====
section
/-! DEFINITION. How an access of a master reaches a page: the link by mode (Table 14.13), the reach of the halves (R22),
worlds (R405), closed blocks (R341), undefined offsets (R447); and what a plain write does to a register's fields
(R11). -/

namespace Sys2Proof.Machine

/-- What becomes of an access before its page acts: it passes; it vanishes, with no completion; it ends, a read being
completed so. -/
inductive GateAns where
  | pass
  | drop
  | ends (r : Reply)
  deriving DecidableEq, Repr

/-- Pages that answer in LOAD-LOCAL and LOAD-HOST (Table 14.13). -/
def loadPage (p : Nat) : Bool :=
  match pageKind p with
  | .sys | .cel | .cfg => true
  | _ => false

/-- Pages that answer in TEST. -/
def testPage (p : Nat) : Bool :=
  match pageKind p with
  | .sys | .cel | .bst => true
  | _ => false

namespace State

/-- A page's world is secure. -/
def pageSecure (s : State) (p : Nat) : Bool := s.on p PG_WORLD_WORLD

/-- A page's RWL fields keep their values (R12). The fixed lock bit of a page of R448 does not lock it: SEC.FN_WORLD
changes there (R402, R403; notes/assumptions/21). -/
def pageLocked (s : State) (p : Nat) : Bool := s.on p PG_WORLD_LOCK && (worldFixed p).isNone

/-- The half where a master stands: the host link is in the East half, a cox in the leader or the follower. -/
def masterHalf (s : State) : Master → Half
  | .fn _ => .east
  | .coxNs | .coxS => s.leader
  | .coxF _ => s.follower

/-- A page of the half that the Gallery does not reach (R22, R376). The CRS page shows the ports' half too: while West leads and the
Gallery is down it is not reachable (R237). DEDUCED, unsafe: notes/assumptions/17. -/
def unreachable (s : State) (m : Master) (p : Nat) : Bool :=
  (s.serves p != s.masterHalf m || (p == pgCrs && s.leader == .west)) && (!s.galleryUp || s.cut (s.masterHalf m))

/-- The mode of the half where the master stands. -/
def masterMode (s : State) (m : Master) : Nat := s.mode (s.masterHalf m)

/-- What the link, or the cox's own state, makes of a BAR0 access by mode (Table 14.13). A cox reaches the pages from
LOAD-LOCAL on, but not while it restarts, and in HALT, be it only the page's half that is in it yet (R34), its writes act as a
host's do. `raw` says that the access is to PG_IRQ_RAW.
DEDUCED, unsafe: notes/assumptions/17. -/
def modeGate (s : State) (m : Master) (p : Nat) (write raw : Bool) : GateAns :=
  let md := if p < numPages ∧ s.mode (s.serves p) = mHalt ∧ inService (s.masterMode m) then mHalt else s.masterMode m
  let zero : GateAns := .ends (.word 0)
  match m with
  | .fn n =>
    if n != 0 || md == mOff || md == mCellar || md == mBoot then .drop
    else if md == mLoadLocal || md == mLoadHost then (if loadPage p then .pass else zero)
    else if md == mTest then (if testPage p then .pass else zero)
    else if md == mHalt then
      (if !write || pageKind p == .sys || pageKind p == .cel || raw then .pass else zero)
    else .pass
  | .coxNs | .coxS | .coxF _ =>
    if md == mOff || md == mCellar || md == mBoot || md == mStandby || (s.cox.get (s.masterHalf m)).op.isSome then .drop
    else if md == mHalt && write && !(pageKind p == .sys || pageKind p == .cel || raw) then zero
    else .pass

/-- The block behind a page is closed, or the life cycle bars the page (R341, R384). -/
def pageShut (s : State) (p : Nat) : Bool :=
  s.gateClosed p || (pageKind p == .bst && s.rd pgLcs LCS_STATE_STATE == 5)

/-- An access to a closed block counts (R341). -/
def ghost (s : State) (p : Nat) : State :=
  let c := pgClk (s.serves p)
  (s.bump c CLK_GHOST_COUNT).wr c CLK_GHOST_PAGE p

/-- PG_ERR_ADDR of an access (Table 15.3). -/
def accessAddr (p off : Nat) (write : Bool) : Nat := bit write * 2 ^ 31 + p * 0x1000 + off

/-- A host access wakes the device from STANDBY (R31, R322). -/
def hostWake (s : State) (m : Master) (p off : Nat) (write : Bool) : State :=
  match m with
  | .fn _ =>
    if !write && pageKind p == .sys && (off == 0x50 || off == 0x54) && s.seq.standby != .asleep then s
    else s.wakeSource 2
  | _ => s

/-- The CEL page ignores a write from the follower's side (R320). DEDUCED, unsafe: notes/assumptions/17. -/
def celIgnores (m : Master) (p : Nat) : Bool :=
  match m with
  | .coxF _ => p == pgCel
  | _ => false

/-- An access to a page of the unreachable half is lost; a host's counts (R22, R42). -/
def lostAccess (s : State) (m : Master) : State :=
  match m with
  | .fn _ => s.bump (pgSys (s.masterHalf m)) SYS_ROLE_LOST_ACCESS
  | _ => s

/-- The gate's answer to an access at offset `off` of a page, and the state after it.
DEDUCED, unsafe: notes/assumptions/17. -/
def gate (s : State) (m : Master) (p off : Nat) (write : Bool) : GateAns × State :=
  if s.masterMode m == mOff || s.masterMode m == mCellar then (.drop, s)
  else
    let s := s.hostWake m p off write
    if s.frozenMaster m then (.ends .unsupported, s)
    else
      match s.modeGate m p write (off == 0x10) with
      | .drop => (.drop, s)
      | .ends r => (.ends r, s)
      | .pass =>
        if s.unreachable m p then
          (.ends (.word 0xFFFFFFFF#32), s.lostAccess m)
        else if numPages ≤ p then (.ends .unsupported, s)
        else if s.pageSecure p && !s.masterWorld m then
          (.ends .unsupported,
            (if s.pageShut p then s else s.pgErr p 1 (accessAddr p off write)).freezeMaster m vPage)
        else if s.pageShut p then (.ends (.word 0), s.ghost p)
        else if (regAt p off).isNone then (.ends (.word 0), s.pgErr p 2 (accessAddr p off write))
        else if write && celIgnores m p then (.ends (.word 0), s)
        else (.pass, s)

/-- A write that reaches its page acts. -/
def toPage (s : State) (m : Master) (p off : Nat) (f : State → State) : State :=
  match s.gate m p off true with
  | (.pass, s) => f s
  | (_, s) => s

/-- A write with a GO in it: its other fields are stored, and the GO acts while PG_CTRL.EN is 1 (R449).
DEDUCED, unsafe: notes/assumptions/15. -/
def goTo (s : State) (m : Master) (p off : Nat) (store go : State → State) : State :=
  s.toPage m p off fun s => let s := store s; if s.on p PG_CTRL_EN then go s else s

/-- Complete a read; a write has no completion. -/
def complete (s : State) (m : Master) (write : Bool) (r : Reply) : State := if write then s else s.emit (.completion m r)

/-- An access that the gate ends. -/
def gated (s : State) (m : Master) (p off : Nat) (write : Bool) : State :=
  match s.gate m p off write with
  | (.ends r, s) => s.complete m write r
  | (_, s) => s

/-- An access that the gate ends for the reason named; another access is no access of that kind. -/
def gatedIf (s : State) (m : Master) (off : Nat) (write : Bool) (why : State → Nat → Bool) : State :=
  let p := off / 0x1000
  if why (s.hostWake m p (off % 0x1000) write) p then s.gated m p (off % 0x1000) write else s

/-! ## Virtual functions' pages (R440, R443) -/

/-- A write of a virtual function to its own page acts: the function is enabled, not frozen, and the mode serves it. -/
def toVf (s : State) (n : Nat) (f : State → State) : State :=
  if n = 0 ∨ s.mode .east = mOff ∨ s.mode .east = mCellar then s
  else
    let s := s.wakeSource 2
    if s.host.vfs < n ∨ s.security.fns.contains n ∨ !(inService (s.mode .east) || s.mode .east == mStartup) then s else f s

/-- A command port takes a GO from its issuer (R156, R440). -/
def toPort (s : State) (b : PortBlock) (p : Port) (f : State → State) : State :=
  match p with
  | .page _ m => s.goTo m (portPage b p) 0x40 (fun s => s) f
  | .vf n => s.toVf n.toNat f

end State

/-! ## Fields of a plain write (R11, R13) -/

/-- One field of a register written with a value; `locked` says that the page is locked. -/
def Fld.write (f : Fld) (locked : Bool) (v old : Word) : Word :=
  match f.acc with
  | .rw => f.put (f.get v) old
  | .rwl => if locked then old else f.put (f.get v) old
  | .w1c => f.put (f.get old &&& (f.max - f.get v)) old
  | .w1s => f.put (f.get old ||| f.get v) old
  | .cnt => f.put 0 old
  | .ro | .wo => old

/-- A register's word after a write. -/
def RegRow.write (r : RegRow) (locked : Bool) (v old : Word) : Word :=
  r.fields.foldl (fun w f => f.write locked v w) old

namespace State

/-- A plain write: every field by its access code. A count that FREEZE holds is cleared with its live value (R450). -/
def store (s : State) (p off : Nat) (v : Word) : State :=
  match regAt p off with
  | none => s
  | some r =>
    let a := p * 0x1000 + off
    let s := s.setReg a (r.write (s.pageLocked p) v (s.reg a))
    { s with held := Tbl.mod s.held a fun w => r.fields.foldl (fun w f => if f.acc = .cnt then f.put 0 w else w) w }

end State

end Sys2Proof.Machine
end

