-- ==== Sys2Proof/Machine/LoadOps.lean ====
section
/-! DEFINITION. A load as the rest of the device sees it: whether one is under way, its failure and what follows (R271 to
R274, R279). -/

namespace Sys2Proof.Machine

abbrev phFinish : Nat := 3

namespace State

def modLoad (s : State) (f : Loader → Loader) : State := { s with loader := f s.loader }

/-- CFG.STAT.PHASE and SOURCE. -/
def phase (s : State) : Nat := s.rd pgCfg CFG_STAT_PHASE
def source (s : State) : Nat := s.rd pgCfg CFG_STAT_SOURCE

/-- A load is under way: it awaits a header or records. -/
def loading (s : State) : Bool :=
  (s.devMode == mLoadLocal || s.devMode == mLoadHost) && s.loader.cleaning.isNone && !s.loader.deferred &&
    (s.phase == phHeader || s.phase == phRecords)

/-- A failed load waits for the chain (R279): a member that forwards the stream it failed to load from, and a bow whose
ring has other members. -/
def defers (s : State) : Bool :=
  s.devMode == mLoadLocal && !s.chain.ended &&
    if s.on pgCrs CRS_ID_BOW then decide (csRelay ≤ s.crsState) && !(s.hasRingId && s.ringSize ≤ 1)
    else s.chainLoad && s.on pgCfg CFG_CHAIN_FORWARDING

/-- The outcome of a failed load (R272). -/
def loadOutcome (s : State) : State :=
  let s := (s.modLoad fun l => { l with deferred := false }).wr pgCfg CFG_STAT_PHASE phFailed
  let clean (n : LoadNext) : State := s.modLoad fun l => { l with cleaning := some n }
  if s.devMode = mLoadLocal ∧ s.source ≤ 2 ∧ !s.on pgCrs CRS_ID_BOW ∧ s.loader.boot.getLsbD 3 ∧ !s.loader.second then
    clean .otherSlot
  else if s.devMode = mLoadLocal ∧ s.fuses.fallbackEn then clean .host
  else (s.raise pgCfg 2).haltBoth ecLoadFailed

/-- CFG.ERR and ERR_POS of a failure. -/
def loadErr (s : State) (code record detail pos : Nat) : State :=
  let s := s.wrs pgCfg [(CFG_ERR_CODE, code), (CFG_ERR_RECORD, record), (CFG_ERR_DETAIL, detail), (CFG_ERR_POS_POS, pos)]
  if s.rd pgCfg CFG_ERR_FIRST = 0 then s.wr pgCfg CFG_ERR_FIRST code else s

/-- A load fails. -/
def loadFail (s : State) (code record detail pos : Nat) : State :=
  if s.loading then
    let s := s.loadErr code record detail pos
    if s.defers then (s.modLoad fun l => { l with deferred := true }).wr pgCfg CFG_STAT_PHASE phDeferred else s.loadOutcome
  else s

/-- A deferred failure acts once the chain is over. DESIGN CHOICE, unsafe: notes/assumptions/19. -/
def settleLoad (s : State) : State := if s.loader.deferred && s.chain.ended then s.loadOutcome else s

/-! ## The source's bytes -/

/-- The source is an Attic slot. -/
def fromAttic (s : State) : Bool := s.source == 1 || s.source == 2

/-- The Attic offset of the header in hand. -/
def atticBase (s : State) : Nat := slotBase (s.source - 1) + s.loader.base

/-- Bytes of the stream that belong to a skipped image go. -/
def skipBytes (l : Loader) : Loader :=
  let n := min l.skip l.stream.length
  { l with stream := l.stream.drop n, skip := l.skip - n }

/-- The next `n` stored bytes of the source, `at_` bytes after the header in hand; nothing until they have all come. -/
def storedPeek (s : State) (at_ n : Nat) : Option (List Byte) :=
  if s.fromAttic then some (Tbl.bytes s.attic.data (s.atticBase + at_) n)
  else
    let l := skipBytes s.loader
    if n ≤ l.stream.length then some (l.stream.take n) else none

/-- The next `n` stored bytes of an Attic slot, `at_` bytes after the header in hand, cannot be read (R246).
DESIGN CHOICE, unsafe: notes/assumptions/41. -/
def sourceLost (s : State) (at_ n : Nat) : Bool := s.fromAttic && s.atticLost (s.atticBase + at_) n

/-- Stored bytes are taken. -/
def storedTake (s : State) (n : Nat) : State := s.modLoad fun l => let l := skipBytes l; { l with stream := l.stream.drop n }

/-- The next `n` bytes of plaintext. -/
def plainPeek (s : State) (n : Nat) : Option (List Byte) :=
  match s.loader.hdr with
  | none => none
  | some h =>
    if hdrBytes + h.plainLen < s.loader.pos + n then none
    else if h.encrypted then (if n ≤ s.loader.plain.length then some (s.loader.plain.take n) else none)
    else s.storedPeek s.loader.pos n

/-- Plaintext is taken. -/
def plainTake (s : State) (n : Nat) : State :=
  let enc := (s.loader.hdr.map (·.encrypted)).getD false
  let s := s.modLoad fun l => { l with pos := l.pos + n, plain := l.plain.drop n }
  if enc then s else (s.storedTake n).wr pgCfg CFG_PROGRESS_BYTES (s.rd pgCfg CFG_PROGRESS_BYTES + n)

/-- TYPE of the record in hand; 0 at the header, and while no header of a record has come. -/
def recordInHand (s : State) : Nat := ((s.plainPeek 8).map fun bs => leAt bs 0 1).getD 0

/-- The Gallery fails during a load (R274). -/
def galleryLost (s : State) : State := s.loadFail lfGalleryLost s.recordInHand 0 noPos

end State

end Sys2Proof.Machine
end

