-- ==== Sys2Proof/Machine/ModeCmds.lean ====
section
/-! DEFINITION. The commands of modes: supplies and resets, BOOT, HALT, requests, STANDBY, TEST's end, the lease,
re-adoption (chapters 1, 10 and 11). -/

namespace Sys2Proof.Machine

namespace State

/-! ## Supplies and resets -/

/-- The device leaves CELLAR once PWRGD and the core rails allow it (R464). -/
def maybeBoot (s : State) : State :=
  if s.devMode == mCellar && s.railsGood && s.cellar.alwQual then s.boot true false else s

/-- PWRGD, or a core rail, is low: CELLAR from any mode above it. -/
def railsLow (s : State) : State := if s.devMode == mOff || s.devMode == mCellar then s else s.dark mCellar

/-- CELLAR is entered from OFF: every group, Always-on too, at its reset value (R321, R366). -/
def cellarEnter (s : State) : State :=
  let s := { s with regs := s.regs.filter fun e => e.1 / 0x1000 != pgCel
                    cellar := { s.cellar with alwQual := true, tickPend := none, noClock := ⟨false, false⟩ } }
  let s := s.dark mCellar
  (s.wr (pgSys .east) SYS_MODE_PREV mOff).wr (pgSys .west) SYS_MODE_PREV mOff

/-! ## BOOT (Table 11.7) -/

/-- A half is in BOOT. -/
def booting (s : State) (h : Half) : Bool := s.mode h == mBoot

/-- The Gallery's link state in both pages, with its events. -/
def setGallery (s : State) (up : Bool) : State :=
  let one (s : State) (h : Half) : State :=
    (s.wr (pgGal h) GAL_LINK_STATE (if up then 2 else 0)).raise (pgGal h) (bit up)
  one (one s .east) .west

/-- The Gallery trains at BOOT. A leader that boots alone (R377) takes its follower into BOOT with it. -/
def bootGallery (s : State) : State :=
  if s.seq.boot = 3 then
    if s.booting .east && s.booting .west then (s.setGallery true).leaderCheck else s.boot false true
  else s

/-- The Gallery does not train at BOOT within 1 ms. -/
def bootNoGallery (s : State) : State :=
  if s.seq.boot = 3 then
    if s.booting .east && s.booting .west then s.haltBoth ecGalleryTrain
    else s.haltHalf (if s.booting .east then .east else .west) ecGalleryTrain
  else s

/-- A half's hall runs at OP4 on its PLLs. -/
def hallUp (s : State) (h : Half) : State :=
  let s := (((s.setSrcReady h .irc true).setSrcReady h .refH true).setSrcReady h .pllA true).setSrcReady h .svc true
  (s.wrs (pgClk h) [(CLK_SRC_STAT_HALL_SEL, 0), (CLK_SRC_STAT_SVC_SEL, 0)]).wrs (pgPwr h)
    [(PWR_OP_STAT_OP, 4), (PWR_OP_STAT_ON_IRC, 0)]

/-- BOOT step 5 ends. -/
def romChecked (s : State) (e w : Bool) : State :=
  if s.seq.boot ≠ 5 then s
  else if e && w then
    let fw := s.attic.firmware.headD []
    let s := { s with cox := ⟨{ s.cox.east with image := fw }, { s.cox.west with image := fw }⟩ }
    ((s.hallUp .east).hallUp .west).modSeq fun q => { q with boot := 6, romOk := true }
  else
    let s := if e then s else s.haltHalf .east ecRomCheck
    if w then s else s.haltHalf .west ecRomCheck

/-- BOOT step 6 ends: every stack has trained; LOAD-LOCAL or TEST follows (Table 1.6). -/
def stacksTrained (s : State) (repairs : List Byte) : State :=
  if s.seq.boot ≠ 6 then s
  else
    let s := (List.range 4).foldl
      (fun s k => s.wrs (pgMem k) [(MEM_STAT_TRAINED, 1), (MEM_STAT_LANE_REPAIRS, (byteAt repairs k).toNat)]) s
    let s := s.modSeq fun q => { q with boot := 0 }
    let lc := s.rd pgLcs LCS_STATE_STATE
    s.begin (if s.on pgCel CEL_CTRL_BOOT_TEST && (lc == 1 || lc == 4) then mTest else mLoadLocal)

/-! ## Temperatures (R474) -/

/-- The quiesce request of every room. -/
def quiesceAll (s : State) : State :=
  { s with rooms := (List.range 16).flatMap fun w => (List.range 192).map fun i =>
      (w * 256 + i, { s.room (w * 256 + i) with quiesce := true }) }

/-- A thermal trip: HALT, every room quiesced, the stacks in self-refresh, VFAB at 0.55 V. -/
def thermalTrip (s : State) : State :=
  let s := (s.haltBoth ecThermal).quiesceAll
  let s := (List.range 4).foldl (fun s k => s.wr (pgMem k) MEM_STAT_SELF_REFRESH 1) s
  (s.avsCommit .east 1 1100).avsCommit .west 1 1100

/-- The junction sensors run: the mode is neither OFF, CELLAR nor STANDBY. -/
def sensorsRun (s : State) : Bool := s.devMode != mOff && s.devMode != mCellar && s.devMode != mStandby

/-- The samples in a row at or above 110 °C of each sensor after a sample. -/
def hotRuns (old : List Nat) (readings : List Int) : List Nat :=
  readings.zipIdx.map fun e => if 110 ≤ e.1 then old.getD e.2 0 + 1 else 0

/-- A sample of every junction sensor and of the stack temperatures. -/
def thermalSample (s : State) (readings : List Int) : State :=
  if s.sensorsRun then
    let runs := hotRuns s.cellar.hot readings
    let s := { s with cellar := { s.cellar with hot := runs, hottest := readings.foldl max (readings.headD s.cellar.hottest) } }
    let stackTrip := (List.range 4).any fun k => 105 ≤ s.rd (pgMem k) MEM_STAT_TEMP
    if (runs.any fun n => 3 ≤ n) || stackTrip then (if s.devMode == mHalt then s else s.thermalTrip) else s
  else s

/-- The cox reads a stack's temperature (R189). -/
def stackTemp (s : State) (k : Nat) (t : Byte) : State :=
  if s.sensorsRun then
    let s := s.wr (pgMem k) MEM_STAT_TEMP t.toNat
    if 105 ≤ t.toNat && s.devMode != mHalt then s.thermalTrip else s
  else s

/-- A Cellar comparator fires in STANDBY: the device wakes and enters HALT. -/
def comparatorFires (s : State) : State :=
  if s.seq.standby == .asleep then
    let s := { s with cellar := { s.cellar with hottest := 115 } }
    (((s.wakeHalf .east).wakeHalf .west)).thermalTrip
  else s

/-! ## Transitions between the halves (R30, R34) -/

/-- The follower changes mode; at a HALT request it enters HALT first, and TRANSIT stays 1 until the leader has (R30).
DEDUCED, unsafe: notes/assumptions/45. -/
def followerChange (s : State) : State :=
  match s.seq.txn with
  | some (m, false) =>
    let s := if m = mHalt then (s.haltHalf s.follower ecRequested).transit true else s.setMode s.follower m
    s.modSeq fun q => { q with txn := some (m, true) }
  | _ => s

/-- The leader changes mode; SERVICE follows the holds as they stand then. -/
def leaderFollows (s : State) : State :=
  match s.seq.txn with
  | some (m, true) => (s.leaderChange m).service
  | _ => s

/-! ## STANDBY (R32, R325, R326) -/

def standbyStart (s : State) : State :=
  if s.seq.standby == .accepted then (s.modSeq fun q => { q with standby := .entering }).standbyGo else s

def powerDown (s : State) : State :=
  if s.standbyQuiet then
    let s := (s.sleepHalf .east).sleepHalf .west
    let s := ((s.setMode .west mStandby).setMode .east mStandby).wr pgHlk HLK_LINK_L1 (s.rd pgHlk HLK_LINK_DL_UP)
    ((s.transit false).modSeq fun q => { q with standby := .asleep }).crsByMode
  else s

/-- A wake from STANDBY: the sources given that are enabled, those that waited, and the pin-interrupt lines among them. -/
def standbyWakes (s : State) (sources lines : Nat) (ready : Bool) : State :=
  let on := s.wakeOn sources ||| s.seq.wakePend
  if s.seq.standby == .asleep && on != 0 then
    ({ s with pins := { s.pins with wakeLines := s.pins.wakeLines ||| (if on.testBit 0 then lines else 0) } }).wakeBy on ready
  else s

/-- The hall PLL is late (R326): the hall stays on IRC, and the monitor reports it. -/
def wakeLate (s : State) : State :=
  if s.seq.standby == .waking then
    let one (s : State) (h : Half) : State :=
      if s.srcReady h .pllA then s
      else (s.wr (pgClk h) CLK_SRC_STAT_FAIL (s.rd (pgClk h) CLK_SRC_STAT_FAIL ||| 2 ^ (srcBit .pllA).getD 0)).raise (pgClk h) 0
    (one (one s .east) .west).wakeUp
  else s

/-! ## TEST's end (R387) -/

/-- TEST ends: rooms that failed are retired, frames recorded, the summary written to the Attic; BOOT follows. Its patterns have
overwritten every codeword of the stacks, which then read as memory that nothing has written. DESIGN CHOICE, unsafe:
notes/assumptions/1. -/
def testEnds (s : State) (rooms frames : List Nat) (hallFail stackFail : Bool) : State :=
  if s.devMode == mTest && s.seq.txn.isNone then
    let bad := rooms.eraseDups.filter roomOk
    let s := bad.foldl (fun s r => if (s.room r).state = .retired then s else s.retireRoom r (s.room r).failAs) s
    let s := frames.eraseDups.foldl (fun s f => s.retireFrame f) s
    let seq := BST_TEST_SUM_SEQ.get s.attic.testSum + 1
    let word := [(BST_TEST_SUM_VALID, 1), (BST_TEST_SUM_PASS, bit (bad.isEmpty && !hallFail && !stackFail)),
      (BST_TEST_SUM_HALL_FAIL, bit hallFail), (BST_TEST_SUM_STACK_FAIL, bit stackFail), (BST_TEST_SUM_SEQ, seq),
      (BST_TEST_SUM_FAILED_ROOMS, bad.length), (BST_TEST_SUM_TESTED_ROOMS, 3072)].foldl
      (fun (w : Word) (e : Fld × Nat) => e.1.put e.2 w) 0
    ({ s with attic := { s.attic with testSum := word } }).boot false false
  else s

/-! ## The lease (R373 to R375) -/

/-- A renewal reaches the follower. -/
def renewal (s : State) : State :=
  if s.galleryUp && s.devMode != mStandby && !s.lapsed s.leader && !s.orphan s.follower then
    let f := s.follower
    ((s.step1 (pgSys f) SYS_LEASE_EPOCH).wrs (pgSys f) [(SYS_LEASE_AGE, 0), (SYS_ROLE_LEASE_OK, 1)]).emit (s.renewalMsg rnPlain)
  else s

/-- The follower's acknowledgement reaches the leader. -/
def renewed (s : State) : State :=
  if s.galleryUp && s.devMode != mStandby && !s.lapsed s.leader && !s.orphan s.follower then
    (s.step1 (pgSys s.leader) SYS_LEASE_EPOCH).wr (pgSys s.leader) SYS_LEASE_AGE 0
  else s

/-- The lease runs: the leader check has passed, and neither half is in STANDBY or wakes from it (R18). -/
def leaseRuns (s : State) : Bool :=
  s.on (pgSys s.leader) SYS_ROLE_LEADER && s.devMode != mOff && s.devMode != mCellar && s.devMode != mStandby

/-- 300 µs without a renewal: the lease lapses for the follower, which enters ORPHAN from a mode of user service (R35); a
decision withdrawn leaves its crew READY. -/
def followerLapses (s : State) : State :=
  let f := s.follower
  if s.leaseRuns && !s.lapsed f then
    let s := s.lapse f
    if inService (s.mode f) then s.wr (pgSys f) SYS_MODE_ORPHAN 1 else s
  else s

/-- 300 µs without an acknowledgement: GALLERY_DOWN. -/
def leaderLapses (s : State) : State :=
  let l := s.leader
  if s.leaseRuns && !s.lapsed l then (s.lapse l).raiseCox l 0 else s

/-- A leader receives a renewal: the half of the lower serial yields (R375). -/
def conflict (s : State) (h : Half) : State :=
  if s.on (pgSys h) SYS_ROLE_LEADER then
    let low : Half := if s.fuses.serial.east < s.fuses.serial.west then .east else .west
    let one (s : State) (k : Half) : State := (s.wr (pgSys k) SYS_ROLE_LEAD_CONFLICT 1).raiseCox k 2
    one (one ((s.wr (pgSys low) SYS_ROLE_LEADER 0).wr (pgSys (other low)) SYS_ROLE_LEADER 1) .east) .west
  else s

/-! ## Re-adoption (R378) -/

/-- A crew that holds rooms is destroyed: a RUNNING one drains to EMPTY, a pinned one is forced out once its wing has no
other sequence (R154). -/
def destroyRooms (s : State) (id : Nat) : State :=
  match s.crew id with
  | none => s
  | some c =>
    if c.state = .running then s.startDrain id .empty
    else if c.isPinned && !c.suite.isEmpty then
      if s.wingBusy (crewWing c) then s.modWing (crewWing c) fun x => { x with waits := x.waits ++ [(.destroy, id)] }
      else ((s.destroyPinned id).decision (idHalf id)).settlePorts
    else s

/-- What waited for crews whose accesses waited acts (R37): a DESTROY at a port, a PARK from a port or a doorbell. -/
def latePorts (s : State) : State :=
  let s := s.portOps.foldl
    (fun s o =>
      match if o.block = .stw ∧ o.op = 9 ∧ s.crewLive o.id o.heat then s.crew o.id else none with
      | none => s
      | some c => if c.waiting then s else s.destroyRooms o.id) s
  (s.crews.filter fun e => e.2.state == .running && e.2.pendPark && !e.2.waiting).foldl
    (fun s e => (s.modCrew e.1 fun c => { c with pendPark := false }).startDrain e.1 .parked) s

/-- What an ORPHAN follower retired enters the Attic's records (R21, R120, R168). -/
def atticCatchUp (s : State) : State :=
  let s := s.gallery.rooms.foldl (fun s e => s.retireRoom e.1 e.2) s
  let s := s.gallery.frames.foldl (fun s f => s.recordFrame f) s
  { s with gallery := { s.gallery with rooms := [], frames := [] } }

/-- Steps 2 to 6 of Table 11.11, in order: the renewal, the buffered traffic, the held accesses, then ORPHAN ends and both halves
set LEASE_OK, then dispatch. DEDUCED, unsafe: notes/assumptions/37. -/
def readopt (s : State) : State :=
  let l := s.leader
  let f := s.follower
  let s := s.emit (s.renewalMsg rnAdopt)
  let s := ((s.step1 (pgSys f) SYS_LEASE_EPOCH).step1 (pgSys l) SYS_LEASE_EPOCH).emit
    (.gallery f gmAdopted [s.mode f, s.rd (pgSys f) SYS_MODE_SVC_HOLD])
  let s := s.modSeq fun q => { q with adopting := true }
  let s := (s.egressFlush f).egressFlush l
  let s := (s.releaseAccesses f).releaseAccesses l
  let s := s.modSeq fun q => { q with adopting := false }
  let run := s.runMode l
  let s := s.wr (pgSys f) SYS_MODE_ORPHAN 0
  let s := if s.rd (pgSys f) SYS_MODE_SVC_HOLD ≠ 0 then s.wrs (pgSys f) [(SYS_MODE_MODE, mService), (SYS_MODE_PREV, run)]
    else if s.mode f = run then s else s.setMode f run
  let one (s : State) (h : Half) : State := s.wrs (pgSys h) [(SYS_ROLE_LEASE_OK, 1), (SYS_LEASE_AGE, 0)]
  let s := (one (one s f) l).raiseCox l 1
  let held := s.security.waiting
  let s := { s with security := { s.security with waiting := [] } }
  let s := (held.foldl (fun s (k, c, i) => s.freezeLast k c i) s).atticCatchUp
  let acts := (s.pow f).gov.diff (s.pow l).gov ++ (s.pow l).gov
  let s := ((s.modPow f fun p => { p with gov := acts }).modPow l fun p => { p with gov := acts })
  let s := (s.govShow .east).govShow .west
  let s := (s.latePorts.retireAct l).retireAct f
  (((s.decision l).decision f).settlePorts).service

/-- The Gallery link fails; both ends retrain, and after three failures it stays down (R376).
DEDUCED, unsafe: notes/assumptions/37. -/
def galleryFails (s : State) (retrained : Bool) : State :=
  if s.galleryUp then
    let n := if retrained then 1 else 3
    let s := (s.bump (pgGal .east) GAL_LINK_RETRAINS n).bump (pgGal .west) GAL_LINK_RETRAINS n
    if retrained then s
    else (({ s with gallery := { s.gallery with fails := 3 } }).setGallery false).galleryLost
  else s

/-- A retry of a link that is down, once every 1 ms. A leader in HALT re-adopts nobody: its HALT reaches the follower. -/
def galleryTries (s : State) (trained : Bool) : State :=
  if !s.galleryUp && s.seq.boot == 0 && s.devMode != mOff && s.devMode != mCellar && s.devMode != mStandby && trained then
    let s := ({ s with gallery := { s.gallery with fails := 0 } }).setGallery true
    if inService s.devMode && (s.lapsed s.leader || s.lapsed s.follower) then s.readopt else s
  else s

end State

/-! ## Meanings -/

/-- ALWAYS_ON_SUPPLY_VALID: ALW starts to qualify. -/
def execAlwaysOnSupplyValid (s : State) : Host.Outcome State Fault Refusal :=
  .next (if s.devMode = mOff then { s with cellar := { s.cellar with alwaysOn := true } } else s)

/-- ALW_QUALIFIED. -/
def execAlwQualified (s : State) : Host.Outcome State Fault Refusal :=
  .next (if s.devMode = mOff ∧ s.cellar.alwaysOn then s.cellarEnter.maybeBoot else s)

/-- ALWAYS_ON_SUPPLY_LOST. -/
def execAlwaysOnSupplyLost (s : State) : Host.Outcome State Fault Refusal :=
  .next <|
    { s with regs := s.regs.filter fun e => e.1 / 0x1000 != pgCel
             cellar := { s.cellar with alwaysOn := false, alwQual := false, tickPend := none, noClock := ⟨false, false⟩ } }.dark mOff

/-- PWRGD_RISE. -/
def execPwrgdRise (s : State) : Host.Outcome State Fault Refusal :=
  .next ({ s with straps := { s.straps with pwrgd := true } }).maybeBoot

/-- PWRGD_FALL. -/
def execPwrgdFall (s : State) : Host.Outcome State Fault Refusal :=
  .next ({ s with straps := { s.straps with pwrgd := false } }).railsLow

/-- CORE_RAIL_LOW. -/
def execCoreRailLow (h : Half) (fab : Bool) (s : State) : Host.Outcome State Fault Refusal :=
  .next <|
    if s.devMode = mOff then s
    else ({ s with cellar := { s.cellar with railLow := (h, fab) :: s.cellar.railLow.erase (h, fab) } }).railsLow

/-- CORE_RAIL_RESTORED. -/
def execCoreRailRestored (h : Half) (fab : Bool) (s : State) : Host.Outcome State Fault Refusal :=
  .next ({ s with cellar := { s.cellar with railLow := s.cellar.railLow.erase (h, fab) } }).maybeBoot

/-- RST_N_ASSERT: every group but Always-on stays in reset. -/
def execRstNAssert (s : State) : Host.Outcome State Fault Refusal :=
  .next <|
    let s := { s with straps := { s.straps with rstLow := true } }
    if s.devMode = mOff ∨ s.devMode = mCellar then s else s.boot false true

/-- RST_N_RELEASE. -/
def execRstNRelease (s : State) : Host.Outcome State Fault Refusal :=
  .next ({ s with straps := { s.straps with rstLow := false } }).bootStep2

/-- GALLERY_UP. -/
def execGalleryUp (s : State) : Host.Outcome State Fault Refusal := .next s.bootGallery

/-- GALLERY_TRAIN_TIMEOUT. -/
def execGalleryTrainTimeout (s : State) : Host.Outcome State Fault Refusal := .next s.bootNoGallery

/-- ROM_SELF_CHECK_DONE. -/
def execRomSelfCheckDone (eastOk westOk : Bool) (s : State) : Host.Outcome State Fault Refusal :=
  .next (s.romChecked eastOk westOk)

/-- BOOT_STACKS_TRAINED. -/
def execBootStacksTrained (repairs0 repairs1 repairs2 repairs3 : Byte) (s : State) : Host.Outcome State Fault Refusal :=
  .next (s.stacksTrained [repairs0, repairs1, repairs2, repairs3])

/-- STACK_TRAIN_TIMEOUT. -/
def execStackTrainTimeout (stack : BitVec 2) (s : State) : Host.Outcome State Fault Refusal :=
  .next (if s.seq.boot = 6 then s.haltHalf (halfOf (stack.toNat / 2)) ecStackTrain else s)

/-- HALF_HALT_MESSAGE. -/
def execHalfHaltMessage (h : Half) (s : State) : Host.Outcome State Fault Refusal :=
  .next (if s.mode (other h) = mHalt ∧ s.galleryUp then s.haltHalf h ecHalfHalt else s)

/-- ERR_N_WATCH_EXPIRY: another driver than the follower's own half holds ERR_N low. -/
def execErrNWatchExpiry (h : Half) (s : State) : Host.Outcome State Fault Refusal :=
  .next (if h = s.follower ∧ s.mode h ≠ mHalt ∧ s.errN then s.haltHalf h ecHalfHalt else s)

/-- THERMAL_SAMPLE. -/
def execThermalSample (readings : List Int) (s : State) : Host.Outcome State Fault Refusal :=
  .next (s.thermalSample readings)

/-- THERMAL_COMPARATOR_FIRE. -/
def execThermalComparatorFire (_h : Half) (s : State) : Host.Outcome State Fault Refusal := .next s.comparatorFires

/-- STACK_TEMPERATURE_READ. -/
def execStackTemperatureRead (stack : BitVec 2) (t : Byte) (s : State) : Host.Outcome State Fault Refusal :=
  .next (s.stackTemp stack.toNat t)

/-- MODE_TRANSITION_MESSAGE. -/
def execModeTransitionMessage (s : State) : Host.Outcome State Fault Refusal := .next s.followerChange

/-- MODE_TRANSITION_ACK. -/
def execModeTransitionAck (s : State) : Host.Outcome State Fault Refusal := .next s.leaderFollows

/-- A GO in a SYS.MODE_REQ of a half; the follower's instance takes nothing. DEDUCED, unsafe: notes/assumptions/17. -/
def State.modeReqBy (s : State) (m : Master) (h : Half) (target : Nat) : State :=
  s.goTo m (pgSys h) 0x54 (fun s => if h = s.leader then s.wr (pgSys h) SYS_MODE_REQ_TARGET target else s) fun s => s.modeReq h target

/-- MODE_REQ_STANDBY. -/
def execModeReqStandby (m : Master) (h : Half) (s : State) : Host.Outcome State Fault Refusal :=
  .next (s.modeReqBy m h mStandby)

/-- MODE_REQ_BOOT. -/
def execModeReqBoot (m : Master) (h : Half) (s : State) : Host.Outcome State Fault Refusal :=
  .next (s.modeReqBy m h mBoot)

/-- MODE_REQ_TEST. -/
def execModeReqTest (m : Master) (h : Half) (s : State) : Host.Outcome State Fault Refusal :=
  .next (s.modeReqBy m h mTest)

/-- MODE_REQ_HALT. -/
def execModeReqHalt (m : Master) (h : Half) (s : State) : Host.Outcome State Fault Refusal :=
  .next (s.modeReqBy m h mHalt)

/-- MODE_REQ_INVALID_TARGET. -/
def execModeReqInvalidTarget (m : Master) (h : Half) (target : BitVec 4) (s : State) : Host.Outcome State Fault Refusal :=
  .next (s.modeReqBy m h target.toNat)

/-- STANDBY_ENTRY_START. -/
def execStandbyEntryStart (s : State) : Host.Outcome State Fault Refusal := .next s.standbyStart

/-- STANDBY_POWER_DOWN. -/
def execStandbyPowerDown (s : State) : Host.Outcome State Fault Refusal := .next s.powerDown

/-- STANDBY_ENTRY_TIMEOUT. -/
def execStandbyEntryTimeout (s : State) : Host.Outcome State Fault Refusal :=
  .next (if s.seq.standby = .entering then s.standbyAbandon else s)

/-- STANDBY_WAKE. -/
def execStandbyWake (sources : BitVec 4) (lines : BitVec 16) (pllReady : Bool) (s : State) :
    Host.Outcome State Fault Refusal :=
  .next (s.standbyWakes sources.toNat lines.toNat pllReady)

/-- WAKE_PLL_TIMEOUT. -/
def execWakePllTimeout (s : State) : Host.Outcome State Fault Refusal := .next s.wakeLate

/-- TEST_COMPLETE. -/
def execTestComplete (failedRooms : List (BitVec 12)) (badFrames : List (BitVec 16)) (hallFail stackFail : Bool)
    (s : State) : Host.Outcome State Fault Refusal :=
  .next (s.testEnds (failedRooms.map (·.toNat)) (badFrames.map (·.toNat)) hallFail stackFail)

/-- LEASE_RENEWAL. -/
def execLeaseRenewal (s : State) : Host.Outcome State Fault Refusal := .next s.renewal

/-- LEASE_ACK. -/
def execLeaseAck (s : State) : Host.Outcome State Fault Refusal := .next s.renewed

/-- FOLLOWER_LEASE_LAPSE. -/
def execFollowerLeaseLapse (s : State) : Host.Outcome State Fault Refusal := .next s.followerLapses

/-- LEADER_LEASE_LAPSE. -/
def execLeaderLeaseLapse (s : State) : Host.Outcome State Fault Refusal := .next s.leaderLapses

/-- LEAD_CONFLICT. -/
def execLeadConflict (h : Half) (s : State) : Host.Outcome State Fault Refusal := .next (s.conflict h)

/-- GALLERY_LINK_FAIL. -/
def execGalleryLinkFail (retrained : Bool) (s : State) : Host.Outcome State Fault Refusal :=
  .next (s.galleryFails retrained)

/-- GALLERY_RETRY. -/
def execGalleryRetry (trained : Bool) (s : State) : Host.Outcome State Fault Refusal := .next (s.galleryTries trained)

/-- QUIESCE_LIMIT_EXPIRY: in a swap, or in the quiescing of STANDBY entry. -/
def execQuiesceLimitExpiry (wing : BitVec 4) (pinned : Bool) (now cycles : Nat) (s : State) : Host.Outcome State Fault Refusal :=
  .next <|
    if pinned ≠ s.pinSwap wing.toNat then (if pinned && s.seq.standby == .entering then s.standbyPin wing.toNat else s)
    else if s.seq.standby = .entering then s.standbyLimit wing.toNat now cycles
    else s.quiesceLimit wing.toNat now cycles

end Sys2Proof.Machine
end

