-- ==== Sys2Proof/Machine/Commands.lean ====
section
/-! DEFINITION. The Steward's command port (Table 4.13), doorbells (R148), room requests (R118), landing cache flush
(R122). -/

namespace Sys2Proof.Machine

namespace State

/-! ## Effects of the commands, at the port and by doorbell -/

/-- RUN on a crew that accepts it (R133 to R135, Table 4.1). -/
def runCmd (s : State) (id : Nat) (c : Crew) : State :=
  match c.state with
  | .parked => (s.wake id).settlePorts
  | .boarding | .running => (s.modCrew id fun c => { c with pendPark := false, wakePending := true }).settlePorts
  | .ready => s.modCrew id fun c => { c with wakePending := true }
  | .draining =>
    (s.modCrew id fun c => if c.target = .parked then { c with target := .ready } else { c with wakePending := true }).settlePorts
  | .pinned | .faulted => s

def runOk (c : Crew) : Bool := c.state != .pinned && c.state != .faulted

/-- PARK on a crew that accepts it. -/
def parkCmd (s : State) (id : Nat) (c : Crew) : State :=
  let s := s.modCrew id fun c => { c with wakePending := false }
  match c.state with
  | .ready => s.modCrew id fun c => { c with state := .parked }
  | .boarding => s.modCrew id fun c => { c with pendPark := true }
  | .running =>
    if c.waiting then s.modCrew id fun c => { c with pendPark := true } else s.startDrain id .parked
  | .draining => if c.target = .ready then s.modCrew id fun c => { c with target := .parked } else s
  | .parked | .pinned | .faulted => s

def parkOk (c : Crew) : Bool := c.state != .parked && c.state != .pinned && c.state != .faulted

def hintOk (c : Crew) : Bool := c.state == .parked || c.state == .ready

/-- A fault that RESUME, or RESTART, may end (Table 4.8): BAD_IMAGE once the image has been updated, NO_FIT once WING_MASK has
been updated or a wing of the mask holds the suite again. DEDUCED, unsafe: notes/assumptions/35. -/
def resumeOk (s : State) (id : Nat) (c : Crew) : Bool :=
  c.state == .faulted && c.fault != fQuiet && c.fault != fCode && (c.fault != fImage || c.newImage) &&
    (c.fault != fNoFit || c.newMask || !(s.fitWings id c).isEmpty)
def restartOk (c : Crew) : Bool :=
  c.state == .parked || (c.state == .faulted && c.fault != fNoFit && (c.fault != fImage || c.newImage))

/-! ## The port (R156, R157) -/

def stwId (s : State) (p : Port) : Nat := s.portRd .stw p STW_CMD_ARG_ID

/-- A command starts at a port that is free. -/
def stwGo (s : State) (p : Port) (f : State → State) : State :=
  s.toPort .stw p fun s => if s.portBusy .stw p || s.mode (idHalf (s.stwId p)) == mHalt then s else f (s.portStart .stw p)

/-- A command on a crew: BAD_ID, NOT_OWNER and STALE_HEAT, in that order, then the command itself. -/
def stwOn (s : State) (p : Port) (f : State → Nat → Crew → State) : State :=
  s.stwGo p fun s =>
    let id := s.stwId p
    match if idOk id && portServes p (idHalf id) then s.crew id else none with
    | none => s.stwEnd p scBadId id
    | some c =>
      if !mayAct (portOwner p) c.owner then s.stwEnd p scNotOwner id
      else if s.portRd .stw p STW_CMD_ARG_HEAT ≠ c.heat then s.stwEnd p scStaleHeat id
      else f s id c

/-- The port names no ID for CREATE (R156). -/
def noName (p : Port) (id : Nat) : Bool :=
  match p with
  | .page .east _ => id == 0
  | .page .west _ => id == 0x8000
  | .vf _ => id == 0 || id == 0x8000

/-- The lowest ID of a half that has never been allocated. -/
def freshId (s : State) (h : Half) : Option Nat :=
  (((List.range (s.ids.length + 2)).drop 1).map (· + 0x8000 * halfBit h)).find? fun i =>
    i % 0x8000 ≠ 0 && idHalf i == h && i < 0x10000 && (Tbl.find s.ids i).isNone

/-- The free ID released longest ago that the reuse rules allow (R128); a shortage is NO_ID or ID_COOLING. -/
def pickId (s : State) (h : Half) : Except Nat Nat :=
  match s.freshId h with
  | some i => .ok i
  | none =>
    let free := s.ids.filter fun e => idHalf e.1 == h && (s.crew e.1).isNone
    let old := (free.filter fun e => !e.2.cooling).foldl
      (fun (b : Option (Nat × Nat)) e =>
        match b with
        | some (r, i) => if e.2.released < r then some (e.2.released, e.1) else some (r, i)
        | none => some (e.2.released, e.1)) none
    match old with
    | some (_, i) => .ok i
    | none => .error (if free.isEmpty then scNoId else scCooling)

/-- An ID becomes a crew's: its heat advances (R127). -/
def newCrew (s : State) (id : Nat) (c : Crew) : State :=
  ({ s with crews := Tbl.put s.crews id c, ids := Tbl.put s.ids id ⟨c.heat, 0, false, []⟩ }).settleOf id

/-- The heat that a CREATE gives an ID. -/
def nextHeat (s : State) (id : Nat) : Nat := (s.heat id + 1) % 16

/-- Every room of a suite is FREE. -/
def suiteFree (s : State) (suite : List Nat) : Bool := suite.all fun r => (s.room r).state == .free

/-- A pinned crew that holds no rooms starts to board at its ANCHOR, at once or once its wing is free. -/
def boardPinned (s : State) (id : Nat) : State :=
  match s.crew id with
  | none => s
  | some c =>
    let s := s.modCrew id fun c => { c with state := .boarding, fault := 0, suite := c.anchorSuite, pendPark := false, pendFault := none }
    let w := wingOf c.anchor
    if s.wingBusy w then
      (s.modRooms c.anchorSuite fun x => { x with state := .swapping }).modWing w fun x => { x with waits := x.waits ++ [(.swap, id)] }
    else s.startSwap w [] (some (id, s.heat id)) c.anchorSuite

/-- The crew is created: a swappable one PARKED or READY, a pinned one boarding. -/
def createAs (s : State) (p : Port) (id : Nat) (ws : List Word) : State :=
  let c := Crew.ofWords (s.nextHeat id) (portOwner p) ws
  if c.isPinned then
    if !s.suiteFree c.anchorSuite then s.stwEnd p scNoRooms id
    else (((s.newCrew id c).claimPorches id c).boardPinned id).waitPort p 1 id
  else
    let s := (s.newCrew id c).stwEnd p scOk id
    if c.start then (s.wake id).settlePorts else s

/-- A porch of 0 to 9 is held in RUN-G2, and from the decision to enter it (R290). -/
def g2Porches (s : State) (c : Crew) : Bool := (s.g2Mode || (s.seq.txn.map (·.1)) == some mRunG2) && c.porches % 1024 != 0

/-- CREATE, with the refusals of R157 in order. One that names an ID of a crew of another owner ends ID_IN_USE: NOT_OWNER is for
a command on a crew, and CREATE makes one. DESIGN CHOICE, unsafe: notes/assumptions/43. -/
def createCmd (s : State) (p : Port) : State :=
  s.stwGo p fun s =>
    let id := s.stwId p
    let ws := s.stwWindow p
    let h := idHalf id
    let c := Crew.ofWords 0 (portOwner p) ws
    let named := !noName p id
    if named && !(idOk id && portServes p h) then s.stwEnd p scBadId id
    else if c.world && portOwner p != 0x101 then s.stwEnd p scWorld id
    else if c.isPinned && s.orphan h then s.stwEnd p scOrphaned id
    else if named && (s.crew id).isSome then s.stwEnd p scInUse id
    else if named && ((Tbl.find s.ids id).map (·.cooling)).getD false then s.stwEnd p scCooling id
    else if !s.createOk h ws c true || s.g2Porches c then s.stwEnd p scBadDesc id
    else if named then s.createAs p id ws
    else
      match s.pickId h with
      | .ok i => s.createAs p i ws
      | .error code =>
        let s := if code = scNoId then s.raise (pgStw h) 2 else s
        s.stwEnd p code id

/-- QUERY: the descriptor, an EMPTY ID's too, goes to the window. DEDUCED, unsafe: notes/assumptions/20. -/
def queryCmd (s : State) (p : Port) : State :=
  s.stwGo p fun s =>
    let id := s.stwId p
    if !(idOk id && portServes p (idHalf id)) then s.stwEnd p scBadId id
    else
      let show_ (s : State) (ws : List Word) : State :=
        (ws.zipIdx.foldl (fun s (w, i) => s.portWr .stw p (STW_CMD_DESC_WORD.at 4 i) w.toNat) s).stwEnd p scOk id
      match s.crew id with
      | none =>
        show_ s (emptyWords id (s.heat id) ((Tbl.get s.ids ⟨0, 0, false, []⟩ id).last))
      | some c =>
        if !mayAct (portOwner p) c.owner then s.stwEnd p scNotOwner id
        else
          let s := s.tally id
          show_ s (((s.crew id).getD c).words id)

/-- The fields that UPDATE changes only in PARKED or FAULTED differ. -/
def reshapes (c n : Crew) (ws : List Word) : Bool :=
  descSize ws != c.w * c.h || n.w != c.w || n.h != c.h || n.drain != c.drain || n.planes != c.planes || n.firstState != c.firstState ||
    n.savedState != c.savedState || n.emap != c.emap || n.root != c.root

/-- UPDATE (R131, R96). A READY crew whose PRIO changes keeps its order of entry in its new queue (R138). DESIGN CHOICE, unsafe:
notes/assumptions/43. -/
def updateCmd (s : State) (p : Port) (image : Bool) : State :=
  s.stwOn p fun s id c =>
    let ws := s.stwWindow p
    let n := Crew.ofWords c.heat c.owner ws
    if reshapes c n ws && c.state != .parked && c.state != .faulted then s.stwEnd p scBadState id
    else if !s.descOk (idHalf id) ws n || (c.isPinned && !{ c with w := n.w, h := n.h }.anchorFits) then s.stwEnd p scBadDesc id
    else
      let rewrite := image || n.planes != c.planes
      let s := s.modCrew id fun c =>
        { c with prio := n.prio, slice := n.slice, wingMask := n.wingMask, parkOnIdle := n.parkOnIdle,
                 wakeOnNotice := n.wakeOnNotice, autoReset := n.autoReset, faultHatch := n.faultHatch, growLimit := n.growLimit,
                 w := n.w, h := n.h, drain := n.drain, planes := n.planes, firstState := n.firstState,
                 savedState := n.savedState, emap := n.emap, root := n.root,
                 rewritten := c.rewritten || (rewrite && !c.suite.isEmpty), newImage := c.newImage || rewrite
                 newMask := c.newMask || n.wingMask != c.wingMask }
      let s := if rewrite then s.dropImage id else s
      s.stwEnd p scOk id

def runAt (s : State) (p : Port) : State :=
  s.stwOn p fun s id c => if runOk c then (s.stwEnd p scOk id).runCmd id c else s.stwEnd p scBadState id

def parkAt (s : State) (p : Port) : State :=
  s.stwOn p fun s id c => if parkOk c then (s.parkCmd id c).waitPort p 5 id else s.stwEnd p scBadState id

/-- A pinned crew returns to its place: where it stands, or, where it lost its rooms at a failed boarding, by boarding at ANCHOR
as a CREATE does, refused in ORPHAN and where its suite is not FREE. Table 4.6 gives the first case alone.
DESIGN CHOICE, unsafe: notes/assumptions/43. -/
def pinnedBack (s : State) (p : Port) (id : Nat) (c : Crew) : State :=
  if c.suite.isEmpty then
    if s.orphan (idHalf id) then s.stwEnd p scOrphaned id
    else if s.suiteFree c.anchorSuite then (s.boardPinned id).waitPort p 1 id else s.stwEnd p scNoRooms id
  else
    let s := (s.reopenRooms id c).unparkPorches c
    (s.modCrew id fun c => { c with state := .pinned, fault := 0 }).stwEnd p scOk id

def resumeAt (s : State) (p : Port) : State :=
  s.stwOn p fun s id c =>
    if !s.resumeOk id c then s.stwEnd p scBadState id
    else if s.frozenCrew id then s.stwEnd p scFrozen id
    else if c.isPinned then s.pinnedBack p id c
    else (s.modCrew id fun c => { c with state := .parked, fault := 0 }).stwEnd p scOk id

/-- A reconfiguration in place starts, or waits for its wing (R149). -/
def reconfigSoon (s : State) (p : Port) (op id : Nat) (c : Crew) : State :=
  if s.inPlace id c then s.stwEnd p scBusySwap id
  else if s.wingBusy (crewWing c) then
    (s.modWing (crewWing c) fun x => { x with waits := x.waits ++ [(.reconfig, id)] }).waitPort p op id
  else (s.startReconfig id).waitPort p op id

def restartAt (s : State) (p : Port) : State :=
  s.stwOn p fun s id c =>
    if c.isPinned && s.orphan (idHalf id) then s.stwEnd p scOrphaned id
    else if !restartOk c then s.stwEnd p scBadState id
    else if s.frozenCrew id then s.stwEnd p scFrozen id
    else if c.isPinned then
      if c.suite.isEmpty then (s.modCrew id fun c => { c with useFirst := true }).pinnedBack p id { c with useFirst := true }
      else s.reconfigSoon p 7 id c
    else ((s.modCrew id fun c => { c with state := .parked, fault := 0, useFirst := true }).dropStaged id).stwEnd p scOk id

def reconfigAt (s : State) (p : Port) : State :=
  s.stwOn p fun s id c =>
    if c.isPinned && s.orphan (idHalf id) then s.stwEnd p scOrphaned id
    else if c.state ≠ .pinned then s.stwEnd p scBadState id
    else s.reconfigSoon p 8 id c

/-- DESTROY of a crew that is BOARDING: its swap goes on without it, or, where it has not begun, its rooms are FREE. -/
def destroyBoarding (s : State) (id : Nat) (c : Crew) : State :=
  let w := crewWing c
  let waits := (s.wing w).waits.contains (SwapKind.swap, id)
  let s := s.release id
  if waits then (s.modWing w fun x => { x with waits := x.waits.erase (.swap, id) }).emptyRooms c.suite
  else s.modSwap w fun x => { x with lost := true }

def destroyAt (s : State) (p : Port) : State :=
  s.stwOn p fun s id c =>
    match c.state with
    | .boarding => ((s.destroyBoarding id c).settlePorts).stwEnd p scOk id
    | .draining => (s.modCrew id fun c => { c with target := .empty }).waitPort p 9 id
    | .running | .pinned => (if c.waiting then s else s.destroyRooms id).waitPort p 9 id
    | .parked | .ready => ((s.release id).settlePorts).stwEnd p scOk id
    | .faulted =>
      if c.isPinned && !c.suite.isEmpty then (s.destroyRooms id).waitPort p 9 id
      else ((s.release id).settlePorts).stwEnd p scOk id

def hintAt (s : State) (p : Port) : State :=
  s.stwOn p fun s id c => if hintOk c then (s.stwEnd p scOk id).hint id else s.stwEnd p scBadState id

/-! ## Doorbells (R147, R148) -/

/-- A write of a function to its doorbell page acts in the modes that serve BAR2 (Table 14.13). -/
def toBar2 (s : State) (fn : Nat) (f : State → State) : State :=
  if fn ≠ 0 then s.toVf fn f
  else if s.mode .east = mOff ∨ s.mode .east = mCellar then s
  else
    let s := s.wakeSource 2
    if s.security.fns.contains 0 ∨ !(inService (s.mode .east) || s.mode .east == mStartup) then s else f s

/-- What a doorbell's OP does to a crew. -/
def doorbellOp (s : State) (id : Nat) (c : Crew) : Nat → State
  | 1 => if runOk c then s.runCmd id c else s
  | 2 => if hintOk c then s.hint id else s
  | _ => if parkOk c then (s.parkCmd id c).settlePorts else s

/-- A doorbell: the checks of R148 in order. -/
def doorbell (s : State) (fn id heat op : Nat) : State :=
  s.toBar2 fn fun s =>
    let h := idHalf id
    if s.mode h = mHalt ∨ (h = .west ∧ (!s.galleryUp ∨ s.cut .east)) then s
    else
      match if idOk id then s.crew id else none with
      | none => s.bump (pgStw h) STW_STALE_DB
      | some c =>
        if heat ≠ c.heat then s.bump (pgStw h) STW_STALE_DB
        else if s.ownerWorld fn != c.world then s.freezeMaster (.fn (BitVec.ofNat 8 fn)) vDoorbell
        else if !mayAct fn c.owner || !(op == 1 || op == 2 || op == 3) then s.bump (pgStw h) STW_DB_DROP_DROPPED
        else s.doorbellOp id c op

/-! ## Room requests (R118) and landing cache flush (R122) -/

/-- STW.ROOM_RETIRE with GO: a request under way goes on. DEDUCED, unsafe: notes/assumptions/38. -/
def retireGo (s : State) (h : Half) : State :=
  if s.rd (pgStw h) STW_ROOM_RETIRE_STATUS = 1 then s
  else
    let s := { s with retiring := s.retiring.set h (some (s.rd (pgStw h) STW_ROOM_RETIRE_ROOM)) }
    ((s.wrs (pgStw h) [(STW_ROOM_RETIRE_STATUS, 1), (STW_ROOM_RETIRE_REASON, 0)]).retireAct h).settlePorts

/-- The landing cache of a wing empties; loads of this model are never in flight between steps. -/
def lcFlush (s : State) (w : Nat) : State := s.modWing w fun x => { x with cache := [] }

end State

/-! ## Meanings -/

/-- CREATE. -/
def execCreate (p : Port) (s : State) : Host.Outcome State Fault Refusal := .next (s.createCmd p)

/-- QUERY. -/
def execQuery (p : Port) (s : State) : Host.Outcome State Fault Refusal := .next (s.queryCmd p)

/-- UPDATE. -/
def execUpdate (p : Port) (image : Bool) (s : State) : Host.Outcome State Fault Refusal := .next (s.updateCmd p image)

/-- RUN. -/
def execRun (p : Port) (s : State) : Host.Outcome State Fault Refusal := .next (s.runAt p)

/-- PARK. -/
def execPark (p : Port) (s : State) : Host.Outcome State Fault Refusal := .next (s.parkAt p)

/-- RESUME. -/
def execResume (p : Port) (s : State) : Host.Outcome State Fault Refusal := .next (s.resumeAt p)

/-- RESTART. -/
def execRestart (p : Port) (s : State) : Host.Outcome State Fault Refusal := .next (s.restartAt p)

/-- RECONFIG. -/
def execReconfig (p : Port) (s : State) : Host.Outcome State Fault Refusal := .next (s.reconfigAt p)

/-- DESTROY. -/
def execDestroy (p : Port) (s : State) : Host.Outcome State Fault Refusal := .next (s.destroyAt p)

/-- HINT. -/
def execHint (p : Port) (s : State) : Host.Outcome State Fault Refusal := .next (s.hintAt p)

/-- An undefined OP of the Steward's port. -/
def execStwBadOp (p : Port) (op : BitVec 4) (s : State) : Host.Outcome State Fault Refusal :=
  .next (if op.toNat = 0 ∨ 11 ≤ op.toNat then s.stwGo p fun s => s.stwEnd p scBadOp (s.stwId p) else s)

/-- DOORBELL_RUN. -/
def execDoorbellRun (fn : BitVec 8) (id : BitVec 16) (heat : BitVec 4) (s : State) : Host.Outcome State Fault Refusal :=
  .next (s.doorbell fn.toNat id.toNat heat.toNat 1)

/-- DOORBELL_HINT. -/
def execDoorbellHint (fn : BitVec 8) (id : BitVec 16) (heat : BitVec 4) (s : State) : Host.Outcome State Fault Refusal :=
  .next (s.doorbell fn.toNat id.toNat heat.toNat 2)

/-- DOORBELL_PARK. -/
def execDoorbellPark (fn : BitVec 8) (id : BitVec 16) (heat : BitVec 4) (s : State) : Host.Outcome State Fault Refusal :=
  .next (s.doorbell fn.toNat id.toNat heat.toNat 3)

/-- DOORBELL_INVALID_OP. -/
def execDoorbellInvalidOp (fn : BitVec 8) (id : BitVec 16) (heat : BitVec 4) (op : BitVec 4) (s : State) :
    Host.Outcome State Fault Refusal :=
  .next (if op = 1 ∨ op = 2 ∨ op = 3 then s else s.doorbell fn.toNat id.toNat heat.toNat op.toNat)

/-- ROOM_RETIRE. -/
def execRoomRetire (m : Master) (h : Half) (room : BitVec 12) (s : State) : Host.Outcome State Fault Refusal :=
  .next (s.goTo m (pgStw h) 0x404
    (fun s => s.wr (pgStw h) STW_ROOM_RETIRE_ROOM room.toNat)
    fun s => s.retireGo h)

/-- LC_FLUSH. -/
def execLcFlush (m : Master) (wing : BitVec 4) (s : State) : Host.Outcome State Fault Refusal :=
  .next (s.toPage m (pgWng wing.toNat) 0x100 fun s => s.lcFlush wing.toNat)

/-- ROSC_CTRL_WRITE. -/
def execRoscCtrlWrite (m : Master) (wing : BitVec 4) (v : Word) (s : State) : Host.Outcome State Fault Refusal :=
  .next (s.toPage m (pgWng wing.toNat) 0x300 fun s => s.roscCtrl wing.toNat v.toNat)

/-! ## The allocator's port -/

/-- FRAME_TAKE. -/
def execFrameTake (p : Port) (s : State) : Host.Outcome State Fault Refusal := .next (s.toPort .pgt p fun s => s.frameTake p)

/-- FRAME_GIVE. -/
def execFrameGive (p : Port) (s : State) : Host.Outcome State Fault Refusal := .next (s.toPort .pgt p fun s => s.frameGive p)

/-- GRAN_TAKE. -/
def execGranTake (p : Port) (s : State) : Host.Outcome State Fault Refusal := .next (s.toPort .pgt p fun s => s.granTake p)

/-- GRAN_GIVE. -/
def execGranGive (p : Port) (s : State) : Host.Outcome State Fault Refusal := .next (s.toPort .pgt p fun s => s.granGive p)

/-- INVAL_CREW. -/
def execInvalCrew (p : Port) (s : State) : Host.Outcome State Fault Refusal := .next (s.toPort .pgt p fun s => s.invalOf p 5)

/-- INVAL_PAGE. -/
def execInvalPage (p : Port) (s : State) : Host.Outcome State Fault Refusal := .next (s.toPort .pgt p fun s => s.invalOf p 6)

/-- INVAL_ALL. -/
def execInvalAll (p : Port) (s : State) : Host.Outcome State Fault Refusal := .next (s.toPort .pgt p fun s => s.invalAll p)

/-- INVAL_COMPLETE. -/
def execInvalComplete (p : Port) (s : State) : Host.Outcome State Fault Refusal := .next (s.invalComplete p)

/-- An undefined OP of the allocator's port. -/
def execPgtBadOp (p : Port) (op : BitVec 4) (s : State) : Host.Outcome State Fault Refusal :=
  .next <|
    if op.toNat = 0 ∨ 8 ≤ op.toNat then
      s.toPort .pgt p fun s => if s.portBusy .pgt p then s else (s.portStart .pgt p).pgtEnd p pcBadOp 0
    else s

end Sys2Proof.Machine
end

