-- ==== Sys2Proof/Machine/Hatches.lean ====
section
/-! DEFINITION. The commands of hatches (chapter 6): pushes, notices, delivery, host copies and returns, and the HAT
command port. -/

namespace Sys2Proof.Machine

/-! HAT result codes (Table 6.9). -/

abbrev htOk : Nat := 0
abbrev htBadOp : Nat := 1
abbrev htBadHatch : Nat := 2
abbrev htNotOwner : Nat := 3
abbrev htBadState : Nat := 4
abbrev htBadDesc : Nat := 5
abbrev htStaleHeat : Nat := 6
abbrev htWorld : Nat := 7

/-- A hatch with the RW fields of a descriptor window (Table 6.2), open and empty; an end that is no crew has no heat.
DEDUCED, unsafe: notes/assumptions/36. -/
def Hatch.ofWords (ws : List Word) : Hatch :=
  let w (i : Nat) : Nat := (ws.getD i 0).toNat
  { isOpen := true, world := (w 0).testBit 30, srcKind := bits (w 0) 29 27, dstKind := bits (w 0) 26 24,
    depth := bits (w 0) 23 20, nslots := bits (w 0) 19 16, lastErr := 0, src := bits (w 1) 31 16,
    srcHeat := if bits (w 0) 29 27 = endCrew then bits (w 1) 15 12 else 0, dst := bits (w 2) 31 16
    dstHeat := if bits (w 0) 26 24 = endCrew then bits (w 2) 15 12 else 0, vector := bits (w 2) 10 0,
    rhatch := bits (w 3) 31 16, buf := bits (w 4) 24 0, iova := bits (w 5) 31 12 * 0x1000 + w 6 * 2 ^ 32, packets := [],
    tail := 0, admitted := 0, toHost := 0, left := 0, closing := false }

/-- The eight words that QUERY shows. -/
def Hatch.words (h : Hatch) : List Word :=
  [bit h.isOpen * 2 ^ 31 + bit h.world * 2 ^ 30 + h.srcKind * 2 ^ 27 + h.dstKind * 2 ^ 24 + h.depth * 2 ^ 20 +
     h.nslots * 2 ^ 16 + h.lastErr,
   h.src * 2 ^ 16 + h.srcHeat * 2 ^ 12, h.dst * 2 ^ 16 + h.dstHeat * 2 ^ 12 + h.vector, h.rhatch * 2 ^ 16 + h.held, h.buf,
   h.iova % 2 ^ 32, h.iova / 2 ^ 32, h.credit].map (BitVec.ofNat 32)

/-- Bytes of the data ring, and of the notice ring. -/
def Hatch.ringBytes (h : Hatch) : Nat := h.ring * 64
def Hatch.slotBytes (h : Hatch) : Nat := h.slots * 16

namespace State

/-! ## Notices (R146, R197, R200) -/

/-- The absolute index, from 0 at OPEN, of the `j`-th packet held. -/
def noticeIndex (h : Hatch) (j : Nat) : Nat := h.admitted - h.held + j

/-- The Steward learns of a poppable notice for a crew without rooms (R146), in a mode in which it acts (R34). -/
def wakeByNotice (s : State) (n : Nat) : State :=
  let h := s.hatch n
  if h.dstKind = endCrew ∧ h.head.isSome then
    match s.crew h.dst with
    | some c =>
      if c.state = .parked ∧ c.wakeOnNotice ∧ swapMode (s.mode (idHalf h.dst)) then (s.wake h.dst).settlePorts else s
    | none => s
  else s

/-- The hall posts the notice of an admitted packet. -/
def noticePost (s : State) (n number : Nat) : State :=
  let h := s.hatch n
  match h.packets.zipIdx.find? fun e => e.1.number == number && !e.1.posted with
  | none => s
  | some (p, j) =>
    let i := noticeIndex h j
    let a := h.buf * 0x1000 + h.ringBytes + i % h.slots * 16
    let s := (s.writeBytes ueHatch a (noticeBytes p (noticePhase h i))).2
    let s := s.setHatch n { h with packets := h.packets.set j { p with posted := true } }
    (s.settle n).wakeByNotice n

/-! ## Delivery to a crew (R203, R479) -/

/-- The port first presents the head notice (R203). -/
def showNotice (s : State) (n : Nat) : State :=
  let h := s.hatch n
  match h.packets with
  | p :: ps =>
    if p.posted && !p.shown then
      (s.setHatch n { h with packets := { p with shown := true } :: ps }).emit
        (.hatchNotice n (noticeBytes p (noticePhase h (noticeIndex h 0))))
    else s
  | [] => s

/-- The hatch port delivers words of the head packet, one a handshake; the last word's acknowledgement pops it. -/
def deliver (s : State) (n id : Nat) : Nat → State
  | 0 => s.showNotice n
  | fuel + 1 =>
    let s := s.showNotice n
    let h := s.hatch n
    match h.head with
    | none => s
    | some p =>
      match s.ringWord h p p.words with
      | (none, s) => s.faultCrew id ⟨fEcc, 0xFFFF, n + 2 ^ 63⟩
      | (some bs, s) =>
        let s := s.emit (.hatchWord n bs)
        if p.words + 1 = p.len then (s.setHatch n h.pop).settle n
        else (s.setHatch n { h with packets := { p with words := p.words + 1 } :: h.packets.tail }).deliver n id fuel

/-- Deliver words; each packet's notice goes before its words. -/
def hatchDelivery (s : State) (n words : Nat) : State :=
  let s := s.settle n
  let h := s.hatch n
  match if h.isOpen && !h.closing && h.dstKind == endCrew then s.crew h.dst else none with
  | none => s
  | some c =>
    let r := c.suite.headD 0
    if (c.state == .running || c.state == .pinned) && s.tokensMove r && !(s.room r).quiesce then s.deliver n h.dst words else s

/-! ## Copies to a host (R204, R207, R479) -/

/-- The East half's link reaches a hatch. -/
def hatchReached (s : State) (n : Nat) : Bool := hatchHalf n == .east || (s.galleryUp && !s.cut .east)

/-- The first packet that is poppable and not copied, in admission order, with its place. -/
def copyNext (h : Hatch) : Option (Packet × Nat) :=
  (h.packets.zipIdx.take h.ready).find? fun e => !e.1.copied && !e.1.dropped

/-- Copy the words of a packet to the host area; an uncorrectable word goes poisoned. -/
def copyWords (s : State) (h : Hatch) (p : Packet) : State :=
  (List.range p.len).foldl
    (fun s i =>
      let r := s.ringWord h p i
      r.2.emit (.hostWrite h.dst (h.iova + (p.start + i) % h.ring * 64) (r.1.getD (List.replicate 64 0)) r.1.isNone)) s

/-- The hall comes to copy the next packet: it discards a stale one, or copies it, writes its notice and sends the MSI-X
message. DEDUCED, unsafe: notes/assumptions/36. -/
def hostCopy (s : State) (n : Nat) : State :=
  let h := s.hatch n
  if !h.isOpen || h.closing || h.dstKind != endHost || s.security.fns.contains h.dst || !s.host.bme.contains h.dst ||
      !(inService (s.mode .east) || s.mode .east == mStartup) || !s.hatchReached n then s
  else
    match copyNext h with
    | none => s
    | some (p, j) =>
      if s.sourceStale n h p then
        ((s.countStale n).setHatch n { h with packets := h.packets.set j { p with dropped := true } }).settle n
      else
        let s := s.copyWords h p
        let a := h.iova + h.ringBytes + h.toHost % h.slots * 16
        let s := s.emit (.hostWrite h.dst a (noticeBytes p (noticePhase h h.toHost)) false)
        let s := s.setHatch n { h with packets := h.packets.set j { p with copied := true }, toHost := h.toHost + 1 }
        s.msix h.dst h.vector

/-! ## Pops, pushes and their order in one cycle (R198 to R201, R205) -/

/-- Pops of HATCH_RETURN, one after another; those beyond READY count as UNDERFLOW. -/
def hatchPops (s : State) (n : Nat) : Nat → State
  | 0 => s
  | k + 1 =>
    let h := s.hatch n
    match h.head with
    | some _ => (((s.setHatch n h.pop).settle n).hatchPops n k)
    | none => s.bump (pgHat (hatchHalf n)) HAT_UNDERFLOW_COUNT (k + 1)

/-- HATCH_RETURN (R209). DEDUCED, unsafe: notes/assumptions/36. -/
def hatchReturn (s : State) (fn n count : Nat) : State :=
  s.toBar2 fn fun s =>
    let h := s.hatch n
    if !s.hatchReached n then s
    else if !hatchNumOk n || !h.isOpen || h.dstKind != endHost || h.dst != fn then
      s.bump (pgHat (hatchHalf n)) HAT_REJECTS_OTHER
    else if s.ownerWorld fn != h.world then s.freezeMaster (.fn (BitVec.ofNat 8 fn)) vHatch
    else s.hatchPops n count

/-- A crew's push from a room of its suite. -/
def roomPush (s : State) (id pos n len : Nat) (bs : List Byte) : State :=
  match s.crew id with
  | none => s
  | some c =>
    match if c.state = .running ∨ c.state = .pinned then c.suite[pos]? else none with
    | none => s
    | some r =>
      if !s.tokensMove r || (s.room r).quiesce then s
      else
        let by_ : Pusher := .crew id c.heat
        if hatchNumOk n && hatchHalf n != idHalf id && s.cut (idHalf id) then
          s.toEgress (idHalf id) (.push by_ n c.world ((bs ++ List.replicate (len * 64) 0).take (len * 64)))
        else
          match s.pushCheck n by_ len with
          | .admitted => (s.admitted n by_ len bs).emit (.pushCode id n hcOk)
          | .refuse code => (s.refuse n code).emit (.pushCode id n code)
          | .violation => s.freezeCrew id vHatch ⟨fFrozen, r, 0⟩

/-- HATCH_SEND (R209). -/
def hatchSend (s : State) (fn n len : Nat) : State :=
  s.toBar2 fn fun s =>
    if !s.hatchReached n then s
    else
      match s.pushCheck n (.host fn) len with
      | .admitted => s.admitted n (.host fn) len []
      | .refuse code => s.refuse n code
      | .violation => s.freezeMaster (.fn (BitVec.ofNat 8 fn)) vHatch

/-- What the spec orders among the pushes and pops of one cycle (R201): a pop, then rooms by suite position, then HATCH_SEND. -/
def sameRank : SamePush → Nat
  | .pop _ => 0
  | .room pos _ _ => 1 + pos.toNat
  | .send _ _ => 65

/-- One push or pop of a cycle. -/
def sameOne (s : State) (id n : Nat) : SamePush → State
  | .pop fn => s.hatchReturn fn.toNat n 1
  | .room pos len bs => s.roomPush id pos.toNat n len.toNat bs
  | .send fn len => s.hatchSend fn.toNat n len.toNat

/-- A crew's push, with what else reaches the hatch in that cycle (R201). A fault notice comes from the command that raises it.
DEDUCED, unsafe: notes/assumptions/36. -/
def hatchPush (s : State) (id : Nat) (pos : BitVec 6) (n : Nat) (len : BitVec 16) (bs : List Byte) (also : List SamePush) : State :=
  let l := SamePush.room pos len bs :: also
  ((List.range 66).flatMap fun k => l.filter fun x => sameRank x == k).foldl (fun s x => s.sameOne id n x) s

/-! ## The port (R210) -/

/-- The issuer may name the ends of a descriptor: act on each crew end that exists, and be each HOST end. -/
def mayName (s : State) (owner : Nat) (h : Hatch) : Bool :=
  let one (kind who : Nat) : Bool :=
    if kind = endCrew then ((s.crew who).map fun c => mayAct owner c.owner).getD true
    else if kind = endHost then who == owner || owner == 0x101
    else true
  one h.srcKind h.src && one h.dstKind h.dst

/-- The whole hatch area lies in one CREW_STORE region of the hatch's half and world (R194). -/
def areaOk (s : State) (n : Nat) (h : Hatch) : Bool :=
  let a := h.buf * 0x1000
  let first := a / frameBytes
  let last := (a + h.ringBytes + h.slotBytes - 1) / frameBytes
  a % h.ringBytes == 0 && halfOf (first / 0x8000) == hatchHalf n &&
    (List.range (last + 1 - first)).all (fun i => s.regionOf (first + i) == s.regionOf first) &&
    match s.regionOf first with
    | some r => r.kind == kCrewStore && r.world == h.world
    | none => false

/-- A descriptor meets R191 to R194 and R442. -/
def hatchDescOk (s : State) (n : Nat) (h : Hatch) : Bool :=
  let kind (k : Nat) : Bool := 1 ≤ k && k ≤ 3
  kind h.srcKind && kind h.dstKind && (h.srcKind == endCrew || h.srcKind != h.dstKind) &&
    (h.dstKind != endCrew || idHalf h.dst == hatchHalf n) && 6 ≤ h.depth && 1 ≤ h.nslots && h.nslots ≤ 10 &&
    (h.srcKind != endHost || h.src ≤ 0xFF) && (h.srcKind != endRing || h.src ≤ 0x3FF || h.src == 0xFFFF) &&
    (h.dstKind != endRing || h.dst ≤ 0x3FF) &&
    (h.dstKind != endHost || (h.dst ≤ 0xFF && (if h.dst = 0 then 288 ≤ h.vector else h.vector < 64))) && s.areaOk n h

/-- Each CREW end names a crew of its heat. -/
def endsLive (s : State) (h : Hatch) : Bool :=
  (h.srcKind != endCrew || s.crewLive h.src h.srcHeat) && (h.dstKind != endCrew || s.crewLive h.dst h.dstHeat)

/-- OPEN: its refusals in the order of Table 6.9, then an open, empty hatch whose notice rings are zero. -/
def hatchOpen (s : State) (p : Port) (n : Nat) (ws : List Word) : State :=
  let h := Hatch.ofWords ws
  if !s.mayName (portOwner p) h then s.hatEnd p htNotOwner n
  else if (s.hatch n).isOpen then s.hatEnd p htBadState n
  else if !s.hatchDescOk n h then s.hatEnd p htBadDesc n
  else if !s.endsLive h then s.hatEnd p htStaleHeat n
  else if h.world && !s.ownerWorld (portOwner p) then s.hatEnd p htWorld n
  else
    let s := s.putWhole (h.buf * 0x1000 + h.ringBytes) h.slotBytes []
    let s := if h.dstKind = endHost then
        s.emit (.hostWrite h.dst (h.iova + h.ringBytes) (List.replicate h.slotBytes 0) false)
      else s
    (s.setHatch n h).hatEnd p htOk n

/-- QUERY. -/
def hatchQuery (s : State) (p : Port) (n : Nat) : State :=
  ((s.hatch n).words.zipIdx.foldl (fun s (w, i) => s.portWr .hat p (HAT_DESC_WORD.at 4 i) w.toNat) s).hatEnd p htOk n

/-- CLOSE: refusals, or the hatch is closing. DEDUCED, unsafe: notes/assumptions/36. -/
def hatchClose (s : State) (p : Port) (n : Nat) : State :=
  let h := s.hatch n
  if h.isOpen && !s.mayName (portOwner p) h then s.hatEnd p htNotOwner n
  else if !h.isOpen then s.hatEnd p htBadState n
  else { s.setHatch n { h with closing := true } with
         portOps := s.portOps ++ [(⟨p, .hat, 3, n, 0, false, [], 0, none⟩ : PortOp)] }

/-- A command on a hatch whose turn has come. -/
def hatchTurn (s : State) (p : Port) (op n : Nat) (ws : List Word) : State :=
  match op with
  | 1 => s.hatchOpen p n ws
  | 2 => s.hatchQuery p n
  | _ => s.hatchClose p n

/-- A HAT command: GO, BAD_HATCH, then its turn, which a CLOSE under way delays. -/
def hatGo (s : State) (p : Port) (op : Nat) : State :=
  s.toPort .hat p fun s =>
    if s.portBusy .hat p || s.mode (hatchHalf (s.portRd .hat p HAT_ARG_HATCH)) == mHalt then s
    else
      let s := s.portStart .hat p
      let n := s.portRd .hat p HAT_ARG_HATCH
      if !hatchNumOk n || !portServes p (hatchHalf n) then s.hatEnd p htBadHatch n
      else if (s.hatch n).closing then
        { s with portOps := s.portOps ++ [(⟨p, .hat, 16 + op, n, 0, false, s.hatWindow p, 0, none⟩ : PortOp)] }
      else s.hatchTurn p op n (s.hatWindow p)

/-- Commands that waited for a CLOSE take their turns, until another CLOSE begins. -/
def hatchWaits (s : State) (n : Nat) : Nat → State
  | 0 => s
  | k + 1 =>
    if (s.hatch n).closing then s
    else
      match s.portOps.find? fun o => o.block == .hat && o.id == n && 16 ≤ o.op with
      | none => s
      | some o =>
        let s := { s with portOps := s.portOps.erase o }
        (if o.discard then s else s.hatchTurn o.port (o.op - 16) n o.words).hatchWaits n k

/-- A closing hatch is done: every admitted push has posted its notice. The packets held are discarded. -/
def hatchClosed (s : State) (n : Nat) : State :=
  let h := s.hatch n
  if h.closing && h.packets.all (·.posted) then
    let s := s.setHatch n { h with isOpen := false, closing := false, packets := [], tail := 0 }
    let s := match s.portOps.find? fun o => o.block == .hat && o.id == n && o.op == 3 with
      | none => s
      | some o =>
        let s := { s with portOps := s.portOps.erase o }
        if o.discard then s else s.hatEnd o.port htOk n
    s.hatchWaits n s.portOps.length
  else s

/-- Close every hatch with a HOST end that passes, as CLOSE does (R444). -/
def closeHost (s : State) (who : Nat → Bool) : State :=
  s.hatches.foldl
    (fun s (n, h) =>
      let hit := (h.srcKind == endHost && who h.src) || (h.dstKind == endHost && who h.dst)
      if h.isOpen && hit then s.modHatch n fun h => { h with closing := true } else s) s

end State

/-! ## Meanings -/

/-- HATCH_PUSH. -/
def execHatchPush (id : BitVec 16) (pos : BitVec 6) (hatch len : BitVec 16) (bytes : List Byte) (s : State)
    (also : List SamePush := []) : Host.Outcome State Fault Refusal :=
  .next (s.hatchPush id.toNat pos hatch.toNat len bytes also)

/-- HATCH_SEND. -/
def execHatchSend (fn : BitVec 8) (hatch len : BitVec 16) (s : State) : Host.Outcome State Fault Refusal :=
  .next (s.hatchSend fn.toNat hatch.toNat len.toNat)

/-- NOTICE_POST. -/
def execNoticePost (hatch : BitVec 16) (number : Word) (s : State) : Host.Outcome State Fault Refusal :=
  .next (s.noticePost hatch.toNat number.toNat)

/-- HATCH_DELIVERY. -/
def execHatchDelivery (hatch : BitVec 16) (words : BitVec 17) (s : State) : Host.Outcome State Fault Refusal :=
  .next (s.hatchDelivery hatch.toNat words.toNat)

/-- HOST_COPY. -/
def execHostCopy (hatch : BitVec 16) (s : State) : Host.Outcome State Fault Refusal := .next (s.hostCopy hatch.toNat)

/-- HATCH_RETURN. -/
def execHatchReturn (fn : BitVec 8) (hatch count : BitVec 16) (s : State) : Host.Outcome State Fault Refusal :=
  .next (s.hatchReturn fn.toNat hatch.toNat count.toNat)

/-- RING_HANDOFF. -/
def execRingHandoff (hatch : BitVec 16) (s : State) : Host.Outcome State Fault Refusal := .next (s.handoff hatch.toNat)

/-- OPEN. -/
def execHatchOpen (p : Port) (s : State) : Host.Outcome State Fault Refusal := .next (s.hatGo p 1)

/-- QUERY of a hatch. -/
def execHatchQuery (p : Port) (s : State) : Host.Outcome State Fault Refusal := .next (s.hatGo p 2)

/-- CLOSE. -/
def execHatchClose (p : Port) (s : State) : Host.Outcome State Fault Refusal := .next (s.hatGo p 3)

/-- HATCH_CLOSE_COMPLETE. -/
def execHatchCloseComplete (hatch : BitVec 16) (s : State) : Host.Outcome State Fault Refusal :=
  .next (s.hatchClosed hatch.toNat)

/-- An undefined OP of the HAT port. -/
def execHatBadOp (p : Port) (op : BitVec 4) (s : State) : Host.Outcome State Fault Refusal :=
  .next <|
    if op.toNat = 0 ∨ 4 ≤ op.toNat then
      s.toPort .hat p fun s =>
        if s.portBusy .hat p then s else (s.portStart .hat p).hatEnd p htBadOp (s.portRd .hat p HAT_ARG_HATCH)
    else s

end Sys2Proof.Machine
end

