-- ==== Sys2Proof/Machine/Link.lean ====
section
/-! DEFINITION. The host link (chapter 14): BAR0 accesses that the gate ends, BAR4, configuration requests, resets of the
link and of a function, and its Data Link Layer. -/

namespace Sys2Proof.Machine

namespace State

/-! ## BAR4 (R441) -/

/-- What the link makes of a request to BAR4 by mode, after a wake (Table 14.13): nothing where it is absent. -/
def bar4Gate (s : State) (fn : Nat) : Option Bool × State :=
  if s.mode .east = mOff ∨ s.mode .east = mCellar ∨ s.mode .east = mBoot then (none, s)
  else
    let s := s.wakeSource 2
    (some ((inService (s.mode .east) || s.mode .east == mStartup) && (fn == 0 || fn ≤ s.host.vfs) &&
      !s.security.fns.contains fn), s)

/-- DPA of a BAR4 offset. -/
def bar4Addr (s : State) (fn off : Nat) : Nat := s.rd pgHlk (HLK_WIN_BASE.at 4 fn) * 2 ^ 30 + off

/-- The function may reach every frame of a span of bytes. -/
def spanReached (s : State) (fn a n : Nat) (write : Bool) : Bool :=
  (List.range ((a + n - 1) / frameBytes + 1 - a / frameBytes)).all fun i => s.hostReaches fn (a / frameBytes + i) write

/-- The half that owns an address cannot be reached from the host link (notes/assumptions 44).
DEDUCED, unsafe: notes/assumptions/44. -/
def bar4Cut (s : State) (a : Nat) : Bool := 2 ^ 36 ≤ a && (!s.galleryUp || s.cut .east)

def bar4Read (s : State) (fn : BitVec 8) (off len : Nat) : State :=
  let f := fn.toNat
  match s.bar4Gate f with
  | (none, s) => s
  | (some false, s) => s.emit (.completion (.fn fn) .unsupported)
  | (some true, s) =>
    let a := s.bar4Addr f off
    if len = 0 then s
    else if !s.spanReached f a len false then (s.freezeMaster (.fn fn) vRegion).emit (.completion (.fn fn) .unsupported)
    else if s.bar4Cut a then s.emit (.completion (.fn fn) (.data (List.replicate len 0xFF#8)))
    else
      match s.readBytes ueHost a len with
      | (none, s) => s.emit (.completion (.fn fn) .poisoned)
      | (some bs, s) => s.emit (.completion (.fn fn) (.data bs))

/-- DEDUCED, unsafe: notes/assumptions/44. -/
def bar4Write (s : State) (fn : BitVec 8) (off : Nat) (bs : List Byte) : State :=
  let f := fn.toNat
  match s.bar4Gate f with
  | (some true, s) =>
    let a := s.bar4Addr f off
    if bs.isEmpty then s
    else if !s.spanReached f a bs.length true then s.freezeMaster (.fn fn) vRegion
    else if s.bar4Cut a then s
    else (s.writeBytes ueHost a bs).2
  | (_, s) => s

/-! ## Functions and their state -/

def modHost (s : State) (f : HostLink → HostLink) : State := { s with host := f s.host }

/-- Messages that waited for an open vector go (R204). -/
def msixGo (s : State) : State :=
  let waiting := s.host.pba.filter fun e => s.vectorOpen e.1 e.2
  let s := s.modHost fun l => { l with pba := l.pba.filter fun e => !s.vectorOpen e.1 e.2 }
  waiting.reverse.foldl (fun s e => s.emit (.msix e.1 e.2)) s

def msixOn (s : State) (fn : Nat) : State := (s.modHost fun l => { l with msix := fn :: l.msix.erase fn }).msixGo

/-- A vector's mask bit is written. -/
def maskVector (s : State) (fn vector : Nat) (masked : Bool) : State :=
  let l := s.host.open_.erase (fn, vector)
  (s.modHost fun x => { x with open_ := if masked then l else (fn, vector) :: l }).msixGo

/-- Registers of a span of a page return to reset. -/
def clearSpan (s : State) (p lo hi : Nat) : State :=
  { s with regs := s.regs.filter fun e => !(p * 0x1000 + lo ≤ e.1 && e.1 < p * 0x1000 + hi) }

/-- The port belongs to a function. -/
def portOfFn (fn : Nat) : Port → Bool
  | .page _ (.fn n) => fn == 0 && n == 0
  | .page _ _ => false
  | .vf n => n.toNat == fn && fn != 0

/-- A function's hatches close, its ports and MSI-X return to reset; a command under way at a port finishes with its result
discarded (R444). -/
def resetFn (s : State) (fn : Nat) : State :=
  let s := s.closeHost fun f => f == fn
  let s := { s with portOps := s.portOps.map fun (o : PortOp) => if portOfFn fn o.port then { o with discard := true } else o }
  let s := s.modHost fun l =>
    { l with bme := l.bme.erase fn, msix := l.msix.erase fn, pba := l.pba.filter fun e => e.1 != fn
             open_ := l.open_.filter fun e => e.1 != fn }
  if fn = 0 then
    [Half.east, Half.west].foldl
      (fun s h => ((s.clearSpan (pgStw h) 0x40 0xC0).clearSpan (pgPgt h) 0x40 0x50).clearSpan (pgHat h) 0x40 0x80) s
  else s.clearSpan (pgVf fn) 0 0x1000

/-- VF Enable clears: every virtual function that was enabled is reset. -/
def vfsOff (s : State) : State :=
  ((List.range s.host.vfs).foldl (fun s i => s.resetFn (i + 1)) s).modHost fun l => { l with vfs := 0 }

/-- A configuration register of a function: the physical one's identity (R438, Table 14.10); another's value is open.
PRESUMED from PCI Express, safe: notes/assumptions/10. -/
def configWord (s : State) (fn reg : Nat) : Word :=
  if fn = 0 ∧ reg = 0 then BitVec.ofNat 32 (0x6300 * 2 ^ 16 + Config.vendorId % 2 ^ 16)
  else if fn = 0 ∧ reg = 2 then BitVec.ofNat 32 (0x120000 * 2 ^ 8 + s.drawn (2 ^ 8))
  else BitVec.ofNat 32 (s.drawn (2 ^ 32))

/-- A configuration request (R443). DESIGN CHOICE, unsafe: notes/assumptions/10. -/
def configReq (s : State) (fn : BitVec 8) (r : CfgReq) : State :=
  let m := s.mode .east
  let answer (s : State) (x : Reply) : State := s.emit (.completion (.fn fn) x)
  if m = mOff ∨ m = mCellar then s
  else if m = mBoot then answer s .retry
  else
    let s := s.wakeSource 2
    let load := s.mode .east = mLoadHost
    if fn ≠ 0 ∧ (load ∨ s.host.vfs < fn.toNat) then answer s .unsupported
    else
      match r with
      | .read reg => answer s.drew (.word (s.configWord fn.toNat reg.toNat))
      | w =>
        if s.leader = .west ∧ s.orphan .east then answer s .retry
        else
          let n := fn.toNat
          let s := match w with
            | .read _ => s
            | .busMaster on => s.modHost fun l => { l with bme := if on then n :: l.bme.erase n else l.bme.erase n }
            | .vfEnable count =>
              if load ∨ n ≠ 0 then s
              else if count = 0 then s.vfsOff
              else s.modHost fun l => { l with vfs := count.toNat }
            | .vectorMask v on => s.maskVector n v.toNat on
            | .msixEnable on => if on then s.msixOn n else s.modHost fun l => { l with msix := l.msix.erase n }
          answer s .done

/-- PERST_N: the host link's reset group, HOST hatches and VF Enable (R444). DEDUCED, unsafe: notes/assumptions/37. -/
def perst (s : State) : State :=
  if s.devMode = mOff ∨ s.devMode = mCellar then s
  else
    let s := if s.host.reeq.isSome then s.unhold s.leader else s
    let s := s.closeHost fun _ => true
    let s := s.vfsOff.modHost fun _ => { bme := [], vfs := 0, msix := [], pba := [], open_ := [], reeq := none }
    { s.clearSpan pgHlk 0 0x1000 with held := s.held.filter fun e => e.1 / 0x1000 != pgHlk }

/-- A Function Level Reset (R444). -/
def flr (s : State) (fn : Nat) : State :=
  let m := s.mode .east
  if m = mOff ∨ m = mCellar ∨ m = mBoot then s
  else
    let s := s.wakeSource 2
    if fn ≠ 0 ∧ (s.host.vfs < fn ∨ s.mode .east = mLoadHost) then s
    else
      let s := s.resetFn fn
      let s := if fn = 0 then s.vfsOff else s
      let s := (s.step1 pgHlk HLK_FLR_LAST_SEQ).wrs pgHlk [(HLK_FLR_LAST_VALID, 1), (HLK_FLR_LAST_FUNC, fn)]
      s.raise pgHlk 1

/-- The Data Link Layer comes up or goes down (R445). -/
def dlSet (s : State) (up : Bool) (speed width : Nat) : State :=
  if s.devMode = mOff ∨ s.devMode = mCellar then s
  else
    let was := s.on pgHlk HLK_LINK_DL_UP
    let s := s.wrs pgHlk [(HLK_LINK_DL_UP, bit up), (HLK_LINK_SPEED, speed), (HLK_LINK_WIDTH, width)]
    if was != up then s.raise pgHlk 0 else s

end State

/-! ## Meanings -/

/-- BAR0_NARROW_ACCESS (R10): whatever it addresses, it completes with Unsupported Request where the link answers. -/
def execBar0NarrowAccess (m : Master) (off : Nat) (_w : Option (BitVec 16)) (s : State) : Host.Outcome State Fault Refusal :=
  .next <|
    match s.modeGate m (off / 0x1000) false false with
    | .drop => s
    | _ => (s.hostWake m (off / 0x1000) (off % 0x1000) true).emit (.completion m .unsupported)

/-- BAR0_OUT_OF_RANGE_ACCESS (R447). -/
def execBar0OutOfRangeAccess (m : Master) (off : Nat) (w : Option Word) (s : State) : Host.Outcome State Fault Refusal :=
  .next (s.gatedIf m off w.isSome fun _ p => numPages ≤ p)

/-- UNDEFINED_OFFSET_ACCESS (R447). -/
def execUndefinedOffsetAccess (m : Master) (off : Nat) (w : Option Word) (s : State) : Host.Outcome State Fault Refusal :=
  .next (s.gatedIf m off w.isSome fun _ p => p < numPages && (regAt p (off % 0x1000)).isNone)

/-- PAGE_WORLD_VIOLATION (R405). -/
def execPageWorldViolation (m : Master) (off : Nat) (w : Option Word) (s : State) : Host.Outcome State Fault Refusal :=
  .next (s.gatedIf m off w.isSome fun s p => p < numPages && s.pageSecure p && !s.masterWorld m)

/-- CLOSED_PAGE_ACCESS (R341). -/
def execClosedPageAccess (m : Master) (off : Nat) (w : Option Word) (s : State) : Host.Outcome State Fault Refusal :=
  .next (s.gatedIf m off w.isSome fun s p => p < numPages && s.pageShut p)

/-- UNREACHABLE_HALF_ACCESS (R22). -/
def execUnreachableHalfAccess (m : Master) (off : Nat) (w : Option Word) (s : State) : Host.Outcome State Fault Refusal :=
  .next (s.gatedIf m off w.isSome fun s p => s.unreachable m p)

/-- BAR4_READ. -/
def execBar4Read (fn : BitVec 8) (off : BitVec 40) (len : BitVec 13) (s : State) : Host.Outcome State Fault Refusal :=
  .next (s.bar4Read fn off.toNat len.toNat)

/-- BAR4_WRITE. -/
def execBar4Write (fn : BitVec 8) (off : BitVec 40) (bytes : List Byte) (s : State) : Host.Outcome State Fault Refusal :=
  .next (s.bar4Write fn off.toNat bytes)

/-- CONFIG_REQUEST. -/
def execConfigRequest (fn : BitVec 8) (r : CfgReq) (s : State) : Host.Outcome State Fault Refusal := .next (s.configReq fn r)

/-- PERST_ASSERT. -/
def execPerstAssert (s : State) : Host.Outcome State Fault Refusal := .next s.perst

/-- FUNCTION_LEVEL_RESET. -/
def execFunctionLevelReset (fn : BitVec 8) (s : State) : Host.Outcome State Fault Refusal := .next (s.flr fn.toNat)

/-- HOST_LINK_DL_UP. -/
def execHostLinkDlUp (speed : BitVec 4) (width : BitVec 5) (s : State) : Host.Outcome State Fault Refusal :=
  .next (s.dlSet true speed.toNat width.toNat)

/-- HOST_LINK_DL_DOWN. -/
def execHostLinkDlDown (s : State) : Host.Outcome State Fault Refusal := .next (s.dlSet false 0 0)

end Sys2Proof.Machine
end

