-- ==== Sys2Proof/Machine/Gcm.lean ====
section
/-! DEFINITION. AES-256 (FIPS 197) and AES-256-GCM decryption with a 96-bit IV and a 128-bit tag (NIST SP 800-38D), which
R268 and R418 name. PRESUMED, unsafe: notes/assumptions/11. -/

namespace Sys2Proof.Machine

/-! ## AES-256 -/

/-- Times x in the field of AES. -/
def xtime (b : Byte) : Byte := (b <<< 1) ^^^ (if b.getLsbD 7 then 0x1B#8 else 0#8)

/-- The product of two bytes in that field. -/
def fieldMul (a b : Byte) : Byte :=
  ((List.range 8).foldl (fun (x : Byte × Byte) i => (if b.getLsbD i then x.1 ^^^ x.2 else x.1, xtime x.2)) (0#8, a)).1

/-- The inverse of a byte, and 0 of 0: its 254th power. -/
def fieldInv (a : Byte) : Byte :=
  ((List.range 7).foldl (fun (x : Byte × Byte) _ => let q := fieldMul x.2 x.2; (fieldMul x.1 q, q)) (1#8, a)).1

/-- The S-box: the inverse, then the affine map. -/
def subByte (b : Byte) : Byte :=
  let x := fieldInv b
  x ^^^ x.rotateLeft 1 ^^^ x.rotateLeft 2 ^^^ x.rotateLeft 3 ^^^ x.rotateLeft 4 ^^^ 0x63#8

def xorBytes (a b : List Byte) : List Byte := List.zipWith (· ^^^ ·) a b

/-- The four-byte words of the key schedule from the eighth on, newest first, `i` of them already there. -/
def keyWords (w : List (List Byte)) (i : Nat) : Nat → List (List Byte)
  | 0 => w
  | n + 1 =>
    let last := w.headD []
    let t := match i % 8 with
      | 0 => xorBytes ((last.drop 1 ++ last.take 1).map subByte) [(List.range (i / 8 - 1)).foldl (fun r _ => xtime r) 1#8, 0, 0, 0]
      | 4 => last.map subByte
      | _ => last
    keyWords (xorBytes (w.getD 7 []) t :: w) (i + 1) n

/-- The fifteen round keys of a 32-byte key. -/
def roundKeys (key : List Byte) : List (List Byte) :=
  let w := (keyWords ((List.range 8).map fun i => (key.drop (4 * i)).take 4).reverse 8 52).reverse
  (List.range 15).map fun r => ((w.drop (4 * r)).take 4).flatten

/-- Row r of the state, bytes r, r + 4, …, turns left by r. -/
def shiftRows (b : List Byte) : List Byte := (List.range 16).map fun i => b.getD ((i + 4 * (i % 4)) % 16) 0

/-- Each column is multiplied by the fixed polynomial. -/
def mixColumns (b : List Byte) : List Byte :=
  (List.range 16).map fun i =>
    let at_ (k : Nat) : Byte := b.getD (i / 4 * 4 + (i + k) % 4) 0
    fieldMul (at_ 0) 2 ^^^ fieldMul (at_ 1) 3 ^^^ at_ 2 ^^^ at_ 3

/-- The encryption of a 16-byte block under the round keys. -/
def cipherBlock (keys : List (List Byte)) (b : List Byte) : List Byte :=
  let mid := (List.range 13).foldl
    (fun x r => xorBytes (mixColumns (shiftRows (x.map subByte))) (keys.getD (r + 1) [])) (xorBytes b (keys.getD 0 []))
  xorBytes (shiftRows (mid.map subByte)) (keys.getD 14 [])

/-! ## GCM -/

/-- A block as a number, its first byte the highest. -/
def blockNat (b : List Byte) : Nat := leNat b.reverse
def natBlock (n : Nat) : List Byte := (leBytes 16 n).reverse

/-- The product of two blocks in the field of GHASH; bit 0 of a block is its highest. -/
def blockMul (x y : BitVec 128) : BitVec 128 :=
  ((List.range 128).foldl
    (fun (z : BitVec 128 × BitVec 128) i =>
      (if x.getMsbD i then z.1 ^^^ z.2 else z.1, (z.2 >>> 1) ^^^ (if z.2.getLsbD 0 then 0xE1#128 <<< 120 else 0#128))) (0#128, y)).1

/-- Bytes filled up with zeros to whole blocks. -/
def fillBlock (b : List Byte) : List Byte := b ++ List.replicate ((16 - b.length % 16) % 16) 0

def ghash (h : BitVec 128) (data : List Byte) : BitVec 128 :=
  (List.range (data.length / 16)).foldl
    (fun y i => blockMul (y ^^^ BitVec.ofNat 128 (blockNat ((data.drop (16 * i)).take 16))) h) 0#128

/-- AES-256 of a block; byte 0 of the key, and of a block, lies in bits [7:0]. -/
def aes256 (key : BitVec 256) (b : BitVec 128) : BitVec 128 :=
  BitVec.ofNat 128 (leNat (cipherBlock (roundKeys (leBytes 32 key.toNat)) (leBytes 16 b.toNat)))

/-- Authenticated decryption: key, IV of 12 bytes, additional data, ciphertext, tag of 16 bytes; nothing where the tag fails. -/
def gcmOpen (key : BitVec 256) (iv aad cipher tag : List Byte) : Option (List Byte) :=
  let keys := roundKeys (leBytes 32 key.toNat)
  let counter (n : Nat) : List Byte := cipherBlock keys (iv ++ (leBytes 4 n).reverse)
  let h := BitVec.ofNat 128 (blockNat (cipherBlock keys (List.replicate 16 0)))
  let s := ghash h (fillBlock aad ++ fillBlock cipher ++ natBlock (aad.length * 8 * 2 ^ 64 + cipher.length * 8))
  if xorBytes (natBlock s.toNat) (counter 1) = tag then
    some (xorBytes cipher ((List.range ((cipher.length + 15) / 16)).flatMap fun i => counter (i + 2)))
  else none

end Sys2Proof.Machine
end

