-- ==== Sys2Proof/Machine/Security.lean ====
section
/-! DEFINITION. Release of frozen masters, life-cycle requests, fuses, key slots and the test access port (chapter
13). -/

namespace Sys2Proof.Machine

/-! Life-cycle states (Table 13.6). -/

abbrev lcMfg : Nat := 1
abbrev lcDev : Nat := 2
abbrev lcProd : Nat := 3
abbrev lcRma : Nat := 4
abbrev lcEnd : Nat := 5

/-- The key check value (R418): the first two bytes of the encryption of a zero block, as a big-endian number. Byte 0 of a
key or a block lies in bits [7:0]. -/
def keyCheckValue (k : BitVec 256) : Nat :=
  let b := aes256 k 0
  (b.extractLsb' 0 8).toNat * 256 + (b.extractLsb' 8 8).toNat

/-- The six slots: eFuse 0 to 3, VBAT as 4 and 5. -/
def keySlot (vbat : Bool) (index : Nat) : Nat := if vbat then 4 + index else index

/-- Coding of a slot's state in KEY_STAT.SLOTS. -/
def keyBits : KeyState → Nat
  | .empty => 0
  | .valid => 1
  | .zeroised => 2
  | .lost => 3

namespace State

def modSec (s : State) (f : Security → Security) : State := { s with security := f s.security }

/-- The life-cycle state in force. -/
def lifeCycle (s : State) : Nat := s.rd pgLcs LCS_STATE_STATE

/-! ## UNFREEZE (R408, R409) -/

/-- The half whose cox an UNFREEZE of the non-secure partition, ID 0x100 in both halves, means: the leader where its partition is
frozen. DESIGN CHOICE, unsafe: notes/assumptions/34. -/
def coxFrozen (s : State) : Half := if s.security.cox.get s.leader then s.leader else s.follower

/-- The half that holds a master's freeze; nothing where the kind is undefined or the ID names no master of it. -/
def freezeHolder (s : State) (kind id : Nat) : Option Half :=
  if kind = fkCrew then (if idOk id then some (idHalf id) else none)
  else if kind = fkFn then (if id ≤ 0xFF then some .east else none)
  else if kind = fkCox then (if id = 0x100 then some s.coxFrozen else none)
  else if kind = fkPeer then (if id ≤ 0x3FF then some .west else none)
  else none

def isFrozen (s : State) (kind id : Nat) : Bool :=
  if kind = fkCrew then s.frozenCrew id
  else if kind = fkFn then s.security.fns.contains id
  else if kind = fkCox then s.security.cox.get s.coxFrozen
  else s.security.peers.contains id

/-- Release a master. A function's hatches resume their copies: each copies its first held packet. -/
def thaw (s : State) (kind id : Nat) : State :=
  if kind = fkCrew then s.modSec fun x => { x with crews := x.crews.erase id }
  else if kind = fkFn then
    let s := s.modSec fun x => { x with fns := x.fns.erase id }
    let l := s.hatches.filter fun e => e.2.isOpen && e.2.dstKind == endHost && e.2.dst == id
    l.foldl (fun s e => s.hostCopy e.1) s
  else if kind = fkCox then s.modSec fun x => { x with cox := x.cox.set s.coxFrozen false }
  else s.modSec fun x => { x with peers := x.peers.erase id }

def unfreezeEnd (s : State) (status reason : Nat) : State :=
  (s.wrs pgSec [(SEC_UNFREEZE_STATUS, status), (SEC_UNFREEZE_REASON, reason)]).raise pgSec 1

/-- A GO in SEC.UNFREEZE, its checks in the order of R409. DEDUCED, unsafe: notes/assumptions/34. -/
def unfreezeGo (s : State) (kind id : Nat) : State :=
  let s := s.step1 pgSec SEC_UNFREEZE_SEQ
  match s.freezeHolder kind id with
  | none => s.unfreezeEnd 3 1
  | some h =>
    if !s.isFrozen kind id then s.unfreezeEnd 3 2
    else if h != s.leader && s.cut s.leader then s.unfreezeEnd 3 3
    else (s.thaw kind id).unfreezeEnd 2 0

/-! ## Life cycle (R412 to R414) -/

/-- Table 13.7, the transitions that software requests. -/
def lcsAllowed (now target : Nat) : Bool :=
  (target == lcProd && now == lcDev) || (target == lcRma && (now == lcDev || now == lcProd)) ||
    (target == lcEnd && (now == lcMfg || now == lcDev || now == lcProd || now == lcRma))

/-- Every key slot is zeroised. DEDUCED, unsafe: notes/assumptions/34. -/
def zeroKeys (s : State) : State :=
  s.modSec fun x =>
    { x with keys := x.keys.zipIdx.map fun e =>
        ⟨.zeroised, if e.2 < 4 ∧ e.1.state ≠ .empty then BitVec.allOnes 256 else if e.2 < 4 then e.1.key else 0⟩ }

def lcsRefuse (s : State) (reason : Nat) : State :=
  (s.wrs pgLcs [(LCS_REQ_STATUS, 3), (LCS_REQ_REASON, reason)]).raise pgLcs 0

/-- The RMA certificate at LCS.CERT is signed and names the leader's die serial (R413). -/
def certGood (s : State) : Bool × State :=
  match s.readBytes ueCox (s.rd pgLcs LCS_CERT_DPA * 0x1000) 0x1000 with
  | (none, s) => (false, s)
  | (some bs, s) => (Config.ecdsaSigned bs && Config.certSerial bs == s.fuses.serial.get s.leader, s)

/-- A GO in LCS.REQ. DEDUCED, unsafe: notes/assumptions/34. -/
def lcsGo (s : State) (target : Nat) : State :=
  if s.rd pgLcs LCS_REQ_STATUS = 1 then s
  else
    let s := s.step1 pgLcs LCS_REQ_SEQ
    let accept (s : State) : State :=
      ((if target = lcProd then s else s.zeroKeys).modSec fun x => { x with lcsBurn := some target }).wrs pgLcs
        [(LCS_REQ_STATUS, 1), (LCS_REQ_REASON, 0)]
    if s.rd pgLcs LCS_STATE_PENDING ≠ s.lifeCycle then s.lcsRefuse 3
    else if !lcsAllowed s.lifeCycle target then s.lcsRefuse 1
    else if target = lcRma then
      match s.certGood with
      | (true, s) => accept s
      | (false, s) => s.lcsRefuse 2
    else accept s

/-- LCS.REQ is written with a target. -/
def lcsReq (s : State) (m : Master) (target : Nat) : State :=
  s.goTo m pgLcs 0x44 (fun s => s.wr pgLcs LCS_REQ_TARGET target) fun s => s.lcsGo target

/-- The burn of a life-cycle request ends. -/
def lcsDone (s : State) (burnt : Bool) : State :=
  match s.security.lcsBurn with
  | none => s
  | some t =>
    let s := s.modSec fun x => { x with lcsBurn := none }
    if burnt then
      ((s.modSec fun x => { x with nextLc := t }).wrs pgLcs
        [(LCS_STATE_PENDING, t), (LCS_REQ_STATUS, 2), (LCS_REQ_REASON, 0)]).raise pgLcs 0
    else s.lcsRefuse 4

/-- The two fuses of LCS.FUSE burn; they act from the next BOOT. -/
def fuseEnc (s : State) : State :=
  if s.lifeCycle = lcDev ∨ s.lifeCycle = lcProd then
    (s.modSec fun x => { x with nextEnc := true }).wr pgLcs LCS_FUSE_ENC_REQUIRED 1
  else s

def fuseFall (s : State) : State :=
  if s.lifeCycle = lcDev then (s.modSec fun x => { x with nextFall := true }).wr pgLcs LCS_FUSE_FALLBACK_EN 1 else s

/-! ## Key slots (R415 to R418) -/

/-- The key in SEC.KEY_DATA0 to 7. -/
def keyData (s : State) : BitVec 256 :=
  (List.range 8).foldl (fun k i => k + BitVec.ofNat 256 (s.rd pgSec (SEC_KEY_DATA_DATA.at 4 i) * 2 ^ (32 * i))) 0

def clearKeyData (s : State) : State :=
  (List.range 8).foldl (fun s i => s.wr pgSec (SEC_KEY_DATA_DATA.at 4 i) 0) s

def slot (s : State) (i : Nat) : KeySlot := s.security.keys.getD i ⟨.empty, 0⟩

def setSlot (s : State) (i : Nat) (k : KeySlot) : State := s.modSec fun x => { x with keys := x.keys.set i k }

/-- A key operation ends: KEY_DONE, and the check value of one that ends DONE with one.
DEDUCED, unsafe: notes/assumptions/14. -/
def keyEnd (s : State) (reason : Nat) (kcv : Option Nat) : State :=
  let s := s.wrs pgSec [(SEC_KEY_CTRL_STATUS, if reason = 0 then 2 else 3), (SEC_KEY_CTRL_REASON, reason)]
  let s := match kcv with
    | some v => s.wr pgSec SEC_KEY_STAT_KCV v
    | none => s
  s.raise pgSec 2

/-- An eFuse operation starts to burn. -/
def keyBurn (s : State) (i : Nat) (key : Option (BitVec 256)) : State :=
  (s.modSec fun x => { x with burning := some ⟨i, key⟩ }).wrs pgSec [(SEC_KEY_CTRL_STATUS, 1), (SEC_KEY_CTRL_REASON, 0)]

/-- A GO in SEC.KEY_CTRL with an OP; `vbatGood` says that VBAT is at least 2.0 V.
DEDUCED, unsafe: notes/assumptions/34. -/
def keyGo (s : State) (op : Nat) (vbat : Bool) (index : Nat) (vbatGood : Bool) : State :=
  if s.rd pgSec SEC_KEY_CTRL_STATUS = 1 then s
  else
    let key := s.keyData
    let s := (s.step1 pgSec SEC_KEY_CTRL_SEQ).clearKeyData
    let i := keySlot vbat index
    let lc := s.lifeCycle
    let k := s.slot i
    if op = 0 ∨ (vbat ∧ 2 ≤ index) then s.keyEnd 1 none
    else if op = 1 then
      if lc ≠ lcDev ∧ !(vbat ∧ lc = lcProd) then s.keyEnd 2 none
      else if vbat then
        if vbatGood then (s.setSlot i ⟨.valid, key⟩).keyEnd 0 (some (keyCheckValue key)) else s.keyEnd 4 none
      else if k.state ≠ .empty then s.keyEnd 3 none
      else s.keyBurn i (some key)
    else if op = 2 then (if vbat then (s.setSlot i ⟨.zeroised, 0⟩).keyEnd 0 none else s.keyBurn i none)
    else if k.state = .valid then s.keyEnd 0 (some (keyCheckValue k.key))
    else s.keyEnd 5 none

/-- SEC.KEY_CTRL is written with a GO. -/
def keyCtrl (s : State) (m : Master) (op : Nat) (vbat : Bool) (index : Nat) (vbatGood : Bool) : State :=
  s.goTo m pgSec 0xA0
    (fun s => s.wrs pgSec [(SEC_KEY_CTRL_OP, op), (SEC_KEY_CTRL_BANK, bit vbat), (SEC_KEY_CTRL_INDEX, index)])
    fun s => s.keyGo op vbat index vbatGood

/-- SEC.KEY_CTRL is written whole with a GO. The level of VBAT is not part of the write: a free value
(notes/assumptions/3). -/
def keyRaw (s : State) (m : Master) (n : Nat) : State :=
  s.goTo m pgSec 0xA0
    (fun s => s.wrs pgSec [(SEC_KEY_CTRL_OP, n / 2 ^ 18), (SEC_KEY_CTRL_BANK, n / 2 ^ 17), (SEC_KEY_CTRL_INDEX, n / 2 ^ 14)])
    fun s => s.drew.keyGo (n / 2 ^ 18 % 4) (n.testBit 17) (n / 2 ^ 14 % 4) (s.drawn 2 == 1)

/-- An eFuse operation ends; `burnt` is the key that the fuses now hold after a PROGRAM. -/
def keyBurnt (s : State) (burnt : BitVec 256) : State :=
  match s.security.burning with
  | none => s
  | some b =>
    let s := s.modSec fun x => { x with burning := none }
    match b.key with
    | some k =>
      let s := s.setSlot b.slot ⟨.valid, burnt⟩
      if keyCheckValue burnt = keyCheckValue k then s.keyEnd 0 (some (keyCheckValue burnt)) else s.keyEnd 6 none
    | none =>
      let old := s.slot b.slot
      (s.setSlot b.slot ⟨.zeroised, if old.state = .empty then old.key else BitVec.allOnes 256⟩).keyEnd 0 none

/-- VBAT falls below its retention limit. -/
def vbatLost (s : State) : State :=
  s.modSec fun x =>
    { x with keys := x.keys.zipIdx.map fun e => if 4 ≤ e.2 ∧ e.1.state = .valid then ⟨.lost, 0⟩ else e.1 }

/-- A slot whose key the loader may use (R270): not in a state of life that bars it, and VALID. -/
def keyUsable (s : State) (keySlotByte : Nat) : Option (BitVec 256) :=
  let vbat := keySlotByte.testBit 7
  let index := bits keySlotByte 1 0
  let k := s.slot (keySlot vbat index)
  if bits keySlotByte 6 2 = 0 ∧ !(vbat ∧ 2 ≤ index) ∧ (s.lifeCycle = lcDev ∨ s.lifeCycle = lcProd) ∧ k.state = .valid then
    some k.key
  else none

/-! ## Test access port (R419, R420) -/

def tapSet (s : State) (i : TapInstr) : State := { s with pins := { s.pins with tap := i } }

/-- A level, and a park level: hold last, 0, 1 or high impedance (R433). -/
def driveBit (b : Bool) : Drive := if b then .high else .low
def parkDrive (p : Porch) (code n : Nat) : Drive :=
  match code % 4 with
  | 0 => driveBit (p.last.testBit n)
  | 1 => .low
  | 2 => .high
  | _ => .highZ

/-- What pin `n` of porch `k` is driven to (Table 14.7, R283, R293, R433, R467): the first condition that applies decides. The boundary
register's order is the model's: service pins, then porch pins. DESIGN CHOICE, safe: notes/assumptions/10. -/
def porchPin (s : State) (k n : Nat) : Drive :=
  let p := s.porch k
  let m := s.mode (porchHalf k)
  match s.pins.tap with
  | .highz => .highZ
  | .extest | .clamp => driveBit (s.pins.bsr.getD (64 + 16 * k + n) false)
  | .other =>
    if !(inService m || m == mStandby || (m == mStartup && s.pins.ioDone)) || s.straps.unpowered.contains k then .highZ
    else if s.g2Mode && k < 10 then s.g2Porch k n
    else if !p.claimed || !p.dir.testBit n then .highZ
    else if p.park.isSome || !s.porchClocked k || (s.crossing (porchHalf k) xkPorchOut (k % 12)).notReady || !p.started then
      parkDrive p (p.park.getD (s.porchRd k PIN_PORCH_PARK)) n
    else driveBit (p.last.testBit n)

/-- The pins that Table 14.2 gives functions 1 to 4: UART, I2C, SPI, timer. -/
def coxPins : Nat → List Nat
  | 1 => [48, 49, 50, 51]
  | 2 => [52, 53]
  | 3 => [54, 55, 56, 57]
  | 4 => [58, 59, 60, 61, 62, 63]
  | _ => []

/-- A function's enable and output on service pin `n` (R423, R427). A reserved function drives nothing. -/
def pinOut (s : State) (n : Nat) : Bool × Bool :=
  let f := s.pinFunc n
  let bit (g : Fld) : Bool := (s.rd (pgPin .east) (g.at 0x10 (n / 16))).testBit (n % 16)
  if f = 0 then (bit PIN_OE_EN, bit PIN_OUT_DATA)
  else if f = 7 ∨ f = 8 then
    match s.g2Drives n with
    | .highZ => (false, false)
    | d => (true, d == .high)
  else if (coxPins f).contains n then Config.pinSignal s.draws n f
  else (false, false)

/-- Cox debug is open in the life-cycle state (Table 13.6). -/
def debugOpen (s : State) : Bool :=
  match s.lifeCycle with
  | 0 | 1 | 4 => true
  | 2 => s.on pgSec SEC_DBG_NS_DEBUG
  | _ => false

/-- The overlay's enable and output on service pin `n` (R426): the trace on PB7 to PB15, the clock-out; the G2 strobe drives PB2 in
the access that strobes alone (R292). -/
def overlayOut (s : State) (n : Nat) : Bool × Bool :=
  let o := s.rd (pgPmx .east) (PMX_OVL_O.at 4 (n / 16)) / 4 ^ (n % 16) % 4
  if (o = 1 ∧ 23 ≤ n ∧ n ≤ 31 ∧ s.debugOpen = true) ∨ o = 2 then (true, (Config.pinSignal s.draws n 16).2) else (false, false)

/-- What service pin `n`, PA0 = 0 to PD15 = 63, is driven to (R424 to R426): nothing before the IO step, in a mode without user I/O
(Table 1.5) and in a window; else the function ORed with the overlay. -/
def servicePin (s : State) (n : Nat) : Drive :=
  let m := s.mode .east
  match s.pins.tap with
  | .highz => .highZ
  | .extest | .clamp => driveBit (s.pins.bsr.getD n false)
  | .other =>
    let f := s.pinOut n
    let o := s.overlayOut n
    if !s.pins.ioDone || !(inService m || m == mStandby || m == mStartup) || s.pins.windows.contains n || !(f.1 || o.1) then .highZ
    else driveBit (f.2 || o.2)

/-- What the boundary register captures (R419): the service pins, the porch pins, the straps and ERR_N. A porch pin that nothing in
the device drives has an open level. -/
def boundary (s : State) : List Bool :=
  let out := s.drawn (2 ^ 384)
  (List.range 64).map (fun n =>
    match s.servicePin n with
    | .highZ => s.pins.levels.testBit n
    | d => d == .high) ++
  (List.range 384).map (fun i =>
    match s.porchPin (i / 16) (i % 16) with
    | .highZ => out.testBit i
    | d => d == .high) ++
  [s.straps.leadSel.east, s.straps.leadSel.west, s.straps.bow, s.straps.smbAddr.testBit 0, !s.errN]

/-- The TAP accepts a boundary-scan test instruction. -/
def tapOpen (s : State) : Bool :=
  let m := s.devMode
  s.lifeCycle != lcEnd && (m == mBoot || m == mLoadLocal || m == mLoadHost || m == mTest || m == mHalt)

/-- A boundary-scan test instruction takes the pins, or acts as BYPASS and is noted.
DESIGN CHOICE, unsafe: notes/assumptions/10. -/
def tapTest (s : State) (i : TapInstr) (what : Nat) : State :=
  if s.tapOpen then (s.tapSet i).emit (.tap what s.pins.bsr)
  else
    let s := (s.tapSet .other).emit (.tap 0 [])
    if s.devMode = mOff ∨ s.devMode = mCellar then s else s.wr pgSec SEC_DBG_BSCAN_BLOCKED 1

end State

/-! ## The commands -/

/-- UNFREEZE. -/
def execUnfreeze (m : Master) (kind : BitVec 3) (id : BitVec 16) (s : State) : Host.Outcome State Fault Refusal :=
  .next (s.goTo m pgSec 0x64
    (fun s => s.wrs pgSec [(SEC_UNFREEZE_KIND, kind.toNat), (SEC_UNFREEZE_ID, id.toNat)])
    fun s => s.unfreezeGo kind.toNat id.toNat)

/-- LCS_REQ_PROD. -/
def execLcsReqProd (m : Master) (s : State) : Host.Outcome State Fault Refusal := .next (s.lcsReq m lcProd)

/-- LCS_REQ_RMA. -/
def execLcsReqRma (m : Master) (s : State) : Host.Outcome State Fault Refusal := .next (s.lcsReq m lcRma)

/-- LCS_REQ_END. -/
def execLcsReqEnd (m : Master) (s : State) : Host.Outcome State Fault Refusal := .next (s.lcsReq m lcEnd)

/-- LCS_REQ_INVALID: a target as it is written. -/
def execLcsReqInvalid (m : Master) (target : BitVec 4) (s : State) : Host.Outcome State Fault Refusal :=
  .next (s.lcsReq m target.toNat)

/-- LCS_REQ_DONE. -/
def execLcsReqDone (burnt : Bool) (s : State) : Host.Outcome State Fault Refusal := .next (s.lcsDone burnt)

/-- FUSE_ENC_REQUIRED. -/
def execFuseEncRequired (m : Master) (s : State) : Host.Outcome State Fault Refusal :=
  .next (s.toPage m pgLcs 0x4C fun s => s.fuseEnc)

/-- FUSE_FALLBACK_EN. -/
def execFuseFallbackEn (m : Master) (s : State) : Host.Outcome State Fault Refusal :=
  .next (s.toPage m pgLcs 0x4C fun s => s.fuseFall)

/-- KEY_PROGRAM. -/
def execKeyProgram (m : Master) (vbat : Bool) (index : BitVec 2) (vbatGood : Bool) (s : State) :
    Host.Outcome State Fault Refusal := .next (s.keyCtrl m 1 vbat index.toNat vbatGood)

/-- KEY_ZEROISE. -/
def execKeyZeroise (m : Master) (vbat : Bool) (index : BitVec 2) (s : State) : Host.Outcome State Fault Refusal :=
  .next (s.keyCtrl m 2 vbat index.toNat true)

/-- KEY_CHECK. -/
def execKeyCheck (m : Master) (vbat : Bool) (index : BitVec 2) (s : State) : Host.Outcome State Fault Refusal :=
  .next (s.keyCtrl m 3 vbat index.toNat true)

/-- KEY_OP_DONE. -/
def execKeyOpDone (burnt : BitVec 256) (s : State) : Host.Outcome State Fault Refusal := .next (s.keyBurnt burnt)

/-- VBAT_LOSS. -/
def execVbatLoss (s : State) : Host.Outcome State Fault Refusal := .next s.vbatLost

/-- TAP_BYPASS. -/
def execTapBypass (s : State) : Host.Outcome State Fault Refusal := .next ((s.tapSet .other).emit (.tap 0 []))

/-- TAP_IDCODE: 0x1C63_00A7, least significant bit first (R2). -/
def execTapIdcode (s : State) : Host.Outcome State Fault Refusal :=
  .next ((s.tapSet .other).emit (.tap 1 ((List.range 32).map fun i => (0x1C6300A7 : Nat).testBit i)))

/-- TAP_SAMPLE_PRELOAD: the levels captured are shifted out, and the boundary register takes the bits shifted in. -/
def execTapSamplePreload (bsr : List Bool) (s : State) : Host.Outcome State Fault Refusal :=
  let t := (s.tapSet .other).drew
  .next ({ t with pins := { t.pins with bsr := bsr } }.emit (.tap 2 s.boundary))

/-- TAP_EXTEST. -/
def execTapExtest (s : State) : Host.Outcome State Fault Refusal := .next (s.tapTest .extest 3)

/-- TAP_CLAMP. -/
def execTapClamp (s : State) : Host.Outcome State Fault Refusal := .next (s.tapTest .clamp 4)

/-- TAP_HIGHZ. -/
def execTapHighz (s : State) : Host.Outcome State Fault Refusal := .next (s.tapTest .highz 5)

end Sys2Proof.Machine
end

