-- ==== Sys2Proof/Machine/Pins.lean ====
section
/-! DEFINITION. The service pins, porches and SMBus (chapter 14, R421 to R436). -/

namespace Sys2Proof.Machine

/-! ## Balls (R421, R422) -/

/-- The letters of the ball rows. -/
def ballLetters : List Char := "ABCDEFGHJKLMNPTUVWY".toList

/-- The name of ball row `i`, 1 to 70. -/
def ballRow (i : Nat) : String :=
  let c (k : Nat) : String := (ballLetters.getD k 'A').toString
  if i < 20 then c (i - 1) else c ((i - 20) / 19) ++ c ((i - 20) % 19)

/-- Row and column of service pin `n`, PA0 = 0 to PD15 = 63. -/
def serviceBall (n : Nat) : Nat × Nat := (if n < 32 then 1 else 2, (if n / 16 % 2 = 0 then 5 else 21) + n % 16)

/-- Row and column of pin `n` of porch `k`. -/
def porchBall (k n : Nat) : Nat × Nat := (8 + 5 * (k % 12) + n / 4, (if k < 12 then 63 else 1) + 2 * (n % 4))

/-! ## GPIO writers (R427) -/

/-- What the writes of one SCLK cycle ask of one 16-bit register: the cox's plain data, bits to set, bits to clear. -/
structure GpioAsk where
  plain : Option (BitVec 16)
  set   : BitVec 16
  clr   : BitVec 16
  deriving DecidableEq, Repr

/-- What one write asks of PIN.OUTq (`oe` false) or PIN.OEq. -/
def gpioAsk (oe : Bool) (q : Nat) (a : GpioAsk) : GpioWrite → GpioAsk
  | .hostOut p v => if !oe && p.toNat == q then { a with set := a.set ||| v, clr := a.clr ||| ~~~v } else a
  | .hostSet p v => if !oe && p.toNat == q then { a with set := a.set ||| v } else a
  | .hostClr p v => if !oe && p.toNat == q then { a with clr := a.clr ||| v } else a
  | .hostOe p v => if oe && p.toNat == q then { a with set := a.set ||| v, clr := a.clr ||| ~~~v } else a
  | .coxOut p v => if !oe && p.toNat == q then { a with plain := some v } else a
  | .coxOe p v => if oe && p.toNat == q then { a with plain := some v } else a
  | .sdwData p m v =>
    if !oe && p.toNat == q then { a with set := a.set ||| (m &&& v), clr := a.clr ||| (m &&& ~~~v) } else a
  | .sdwSet p m => if !oe && p.toNat == q then { a with set := a.set ||| m } else a
  | .sdwClr p m => if !oe && p.toNat == q then { a with clr := a.clr ||| m } else a
  | .sdwOe p m v =>
    if oe && p.toNat == q then { a with set := a.set ||| (m &&& v), clr := a.clr ||| (m &&& ~~~v) } else a

/-- The register after the cycle: the cox's plain data, else set, else clear, else kept. -/
def gpioForm (a : GpioAsk) (old : BitVec 16) : BitVec 16 := a.plain.getD ((old &&& ~~~a.clr) ||| a.set)

/-- The register of a port. -/
def gpioReg (oe : Bool) (q : Nat) : Fld := (if oe then PIN_OE_EN else PIN_OUT_DATA).at 0x10 q

namespace State

/-- One SCLK cycle with its writes: every register is formed from what stood before.
DESIGN CHOICE, unsafe: notes/assumptions/30. -/
def gpioCycle (s : State) (ws : List GpioWrite) : State :=
  [(false, 0), (false, 1), (false, 2), (false, 3), (true, 0), (true, 1), (true, 2), (true, 3)].foldl
    (fun s e =>
      let f := gpioReg e.1 e.2
      s.wr (pgPin .east) f (gpioForm (ws.foldl (gpioAsk e.1 e.2) ⟨none, 0, 0⟩) (BitVec.ofNat 16 (s.rd (pgPin .east) f))).toNat)
    s

/-- The page offset of a host write. -/
def gpioOff : GpioWrite → Option Nat
  | .hostOut q _ => some (0x40 + 0x10 * q.toNat)
  | .hostSet q _ => some (0x44 + 0x10 * q.toNat)
  | .hostClr q _ => some (0x48 + 0x10 * q.toNat)
  | .hostOe q _ => some (0x4C + 0x10 * q.toNat)
  | _ => none

/-- The leader's cox runs and its private port reaches the East pins. -/
def coxPort (s : State) : Bool :=
  let m := s.devMode
  4 ≤ m && (s.cox.get s.leader).op.isNone && (s.leader == .east || s.galleryUp && !s.lapsed s.leader)

/-- A half's service doorway takes command tokens (R428): it is attached to a running pinned crew, its crossing is ready
and it reaches the pins. -/
def doorwayTakes (s : State) (h : Half) : Bool :=
  match (s.doorway.get h).edge with
  | none => false
  | some (r, _) =>
    (s.room r).state == .occupied && !(s.room r).quiesce && s.tokensMove r && !(s.crossing h xkDoorway 0).notReady &&
      (h == .east || !s.orphan .west && s.galleryUp && !s.cut .west)

/-- A further write of the same cycle lands, if its writer may write: a host function 0 through the page, the cox, a
doorway. -/
def gpioLands (s : State) (w : GpioWrite) : Bool × State :=
  match gpioOff w with
  | some off =>
    match s.gate (.fn 0) (pgPin .east) off true with
    | (.pass, s) => (true, s)
    | (_, s) => (false, s)
  | none =>
    match w with
    | .coxOut _ _ | .coxOe _ _ => (s.coxPort, s)
    | _ => (s.doorwayTakes .east || s.doorwayTakes .west, s)

/-- A write lands with the others of its cycle. -/
def gpioWith (s : State) (w : GpioWrite) (also : List GpioWrite) : State :=
  let l := also.foldl (fun (a : List GpioWrite × State) x =>
    let r := a.2.gpioLands x
    (if r.1 then a.1 ++ [x] else a.1, r.2)) ([w], s)
  l.2.gpioCycle l.1

/-- A host write to a GPIO register; the West half's registers ignore it (R428). -/
def gpioHost (s : State) (m : Master) (h : Half) (w : GpioWrite) (also : List GpioWrite) : State :=
  s.toPage m (pgPin h) ((gpioOff w).getD 0x40) fun s => if h = .east then s.gpioWith w also else s

/-- A doorway's command token. -/
def gpioSdw (s : State) (h : Half) (w : GpioWrite) (also : List GpioWrite) : State :=
  if s.doorwayTakes h then s.gpioWith w also else s

/-! ## Functions (R423 to R425) -/

/-- A pin's function field takes a value; after the IO step a change starts a window. -/
def pinSwitch (s : State) (pin f : Nat) : State :=
  if s.pinFunc pin = f then s
  else
    let g := PMX_FUNC_F.at 4 (pin / 8)
    let old := s.rd (pgPmx .east) g
    let k := 16 ^ (pin % 8)
    let s := s.wr (pgPmx .east) g (old - s.pinFunc pin * k + f * k)
    if s.pins.ioDone then { s with pins := { s.pins with windows := pin :: s.pins.windows.erase pin } } else s

/-! ## Inputs (R428 to R430) -/

/-- A level change of a pin is an event of a line in a mode (R429). -/
def lineFires (mode : Nat) (level : Bool) : Bool :=
  (level && (mode == 1 || mode == 3 || mode == 4)) || (!level && (mode == 2 || mode == 3 || mode == 5))

/-- Lines that watch a pin and see an event in its new level. -/
def linesFor (s : State) (pin : Nat) (level : Bool) : List Nat :=
  (List.range 16).filter fun n =>
    s.rd (pgPint .east) (PINT_CFG_PORT.at 4 n) * 16 + n == pin && lineFires (s.rd (pgPint .east) (PINT_CFG_MODE.at 4 n)) level

/-- A line in a level mode whose level is active. -/
def lineActive (s : State) (n : Nat) : Bool :=
  let level := s.pins.levels.testBit (s.rd (pgPint .east) (PINT_CFG_PORT.at 4 n) * 16 + n)
  let mode := s.rd (pgPint .east) (PINT_CFG_MODE.at 4 n)
  (mode == 4 && level) || (mode == 5 && !level)

/-- A doorway presents, or updates, its snapshot. -/
def snapshotFor (s : State) (pin : Nat) (h : Half) : State :=
  if (s.rd (pgPin h) PIN_SDW_PORTS).testBit (pin / 16) && s.pins.ioDone && !(s.crossing h xkDoorway 0).notReady &&
      (h == .east || s.galleryUp && !s.cut .west) then s.snapOffer h else s

/-- A pin's sampled level changes. In STANDBY the Cellar watches the lines that may wake the device (R430); PC3 low is
PROG_N low where it carries that function (R297). DESIGN CHOICE, unsafe: notes/assumptions/30. -/
def pinChange (s : State) (pin : Nat) (level : Bool) : State :=
  if s.pins.levels.testBit pin = level then s
  else
    let s := { s with pins := { s.pins with levels := setBit s.pins.levels pin level } }
    let s := if pin = 35 ∧ level = false ∧ s.pinsAre 8 [35] then s.g2Prog else s
    if s.devMode < mStandby || s.pins.windows.contains pin then s
    else
      let lines := s.linesFor pin level
      let wake := lines.filter fun n => s.on (pgPint .east) (PINT_CFG_WAKE.at 4 n)
      if s.seq.standby = .asleep then
        if wake.isEmpty || s.wakeOn 1 % 2 = 0 then s
        else
          ({ s with pins := { s.pins with wakeLines := wake.foldl (fun w n => setBit w n true) s.pins.wakeLines } }).wakeSource 1
      else
        let s := lines.foldl (fun s n => s.linePulse n) s
        let s := (s.snapshotFor pin .east).snapshotFor pin .west
        if wake.isEmpty then s else s.wakeSource 1

/-! ## Porches (R432 to R434) -/

/-- Tokens as one number, pin `n` in bits [8n + 7:8n]. -/
def tokenNat (l : List Byte) : Nat := leNat l

/-- GEAR, DRIVE, PULL and PDIR take effect. -/
def porchTake (s : State) (k : Nat) : State :=
  s.setPorch k { s.porch k with
    gear := s.porchRd k PIN_PORCH_GEAR, drive := s.porchRd k PIN_PORCH_DRIVE, pull := s.porchRd k PIN_PORCH_PULL
    dir := s.porchRd k PIN_PDIR_OUT }

/-- A count of a porch advances, with its event (Table 15.8); at its greatest value it stays. -/
def porchCount (s : State) (k : Nat) (f : Fld) (event n : Nat) : State :=
  let p := pgPin (porchHalf k)
  let g := porchFld f k
  if n = 0 ∨ s.rd p g = g.max then s else (s.bump p g n).raise p event

/-- The first token of an output pin in a porch's crossing. -/
def porchHead (p : Porch) (n : Nat) : Option Byte := (p.fifo.find? fun e => e.1 == n).map (·.2)

/-- GEAR bits of a token, 1, 2, 4 or 8 (R432). -/
def geared (p : Porch) (b : Byte) : Byte := BitVec.ofNat 8 (b.toNat % 2 ^ 2 ^ p.gear)

/-- The fabric's tokens at a boundary: one of each output pin taken, or one UNDERRUN. `seen` says of which pins the porch clock
has seen the token in the crossing (R361). -/
def porchOut (s : State) (k : Nat) (seen : BitVec 16) : State :=
  let p := s.porch k
  let pins := (List.range 16).filter p.dir.testBit
  if pins.isEmpty || !s.porchLive k xkPorchOut then s
  else if pins.all fun n => seen.getLsbD n && (porchHead p n).isSome then
    let token (n : Nat) : Byte := geared p ((porchHead p n).getD 0)
    let last := pins.foldl (fun w n => setBit w n ((token n).getLsbD (2 ^ p.gear - 1))) p.last
    let fifo := pins.foldl (fun l n => l.eraseP fun e => e.1 == n) p.fifo
    (s.setPorch k { p with started := true, last := last, fifo := fifo }).emit
      (.porch k false (tokenNat ((List.range 16).map fun n => if p.dir.testBit n then token n else 0)))
  else s.porchCount k PIN_PSTAT_UNDERRUN 0 1

/-- The pins' tokens at a boundary: each presented on its inbound channel, or dropped with one OVERRUN while the last one of
the channel is unacknowledged. `acked` says on which channels the porch clock has seen the acknowledge (R361). An unpowered
porch's inputs read 0 (R467). -/
def porchIn (s : State) (k : Nat) (ins : List Byte) (acked : BitVec 16) : State :=
  let p := s.porch k
  let ins := if s.straps.unpowered.contains k then [] else ins.map (geared p)
  let pins := (List.range 16).filter fun n => !p.dir.testBit n
  match if pins.isEmpty || !s.porchLive k xkPorchIn then none else p.edge with
  | none => s
  | some (r, e) =>
    let chan (n : Nat) : Nat := 32 * e + 16 + n
    let free (n : Nat) : Bool := acked.getLsbD n && (s.doorToken r (chan n)).isNone
    let late := pins.filter fun n => !free n
    let go := pins.filter free
    let s := go.foldl (fun s n => s.setDoor r (chan n) (some (byteAt ins n)) (s.doorAck r (chan n))) s
    let s := s.porchCount k PIN_PSTAT_OVERRUN 1 late.length
    if go.isEmpty then s
    else
      s.emit (.porch k true (tokenNat ((List.range 16).map fun n => if go.contains n then byteAt ins n else 0)))

/-- A token boundary of a porch. What the porch clock has seen of the fabric's tokens and acknowledges is the command's: the
time that they need to cross is not modelled. DESIGN CHOICE, unsafe: notes/assumptions/30. -/
def porchBoundary (s : State) (h : Half) (j : Nat) (seen : BitVec 16) (ins : List Byte) (acked : BitVec 16) : State :=
  let k := j + 12 * halfBit h
  if 12 ≤ j || !s.porchClocked k then s else ((s.porchTake k).porchOut k seen).porchIn k ins acked

/-! ## SMBus (R436) -/

/-- A half's hall is stopped: the device sleeps, or the half has no clock. -/
def hallStopped (s : State) (h : Half) : Bool :=
  s.devMode == mCellar || s.seq.standby == .asleep || s.cellar.noClock.get h

/-- The four bytes of a command code as a number; nothing for a code that is not supported. -/
def smbusWord (s : State) (code : Nat) : Option Nat :=
  let l := s.leader
  let modeOf (h : Half) : Nat :=
    if s.hallStopped h then s.mode h else (s.reg (pgSys h * 0x1000 + SYS_MODE_MODE.off)).toNat
  match code with
  | 0 => some (modeOf .east)
  | 1 => some (modeOf .west)
  | 2 =>
    let e := s.reg (pgSys l * 0x1000 + SYS_ERR_LAST.off)
    some (if s.hallStopped l then (SYS_ERR_LAST.put (SYS_ERR_LAST.get e) 0).toNat else e.toNat)
  | 3 => some (if s.hallStopped l then 0xFF else (s.reg (pgPwr l * 0x1000 + PWR_GOV_STAT_POWER_W.off)).toNat)
  | 4 => some (if s.hallStopped l then 0xFF else (s.cellar.hottest % 256).toNat)
  | _ => none

/-- The target's 7-bit address (R436). -/
def smbusAddr (s : State) : Nat := 0x5A + s.straps.smbAddr % 2

/-- A Block Read: the byte count and four bytes, least significant first, with the Packet Error Code on request; or no
acknowledgement, as at another address and in OFF. DESIGN CHOICE, unsafe: notes/assumptions/30. -/
def smbus (s : State) (addr code : Nat) (pec : Bool) : State :=
  if s.devMode = mOff ∨ addr ≠ s.smbusAddr then s.emit (.smbus none)
  else
    s.emit (.smbus ((s.smbusWord code).map fun w =>
      let bs := 4 :: leBytes 4 w
      let head : List Byte := [BitVec.ofNat 8 (2 * addr), BitVec.ofNat 8 code, BitVec.ofNat 8 (2 * addr + 1)]
      if pec then bs ++ [crc8 (head ++ bs)] else bs))

end State

/-! ## The commands -/

/-- PIN_FUNCTION_SWITCH. -/
def execPinFunctionSwitch (m : Master) (pin : BitVec 6) (f : BitVec 4) (s : State) : Host.Outcome State Fault Refusal :=
  .next (s.toPage m (pgPmx .east) (0x40 + 4 * (pin.toNat / 8)) fun s => s.pinSwitch pin.toNat f.toNat)

/-- FUNCTION_SWITCH_WINDOW_END. -/
def execFunctionSwitchWindowEnd (pin : BitVec 6) (s : State) : Host.Outcome State Fault Refusal :=
  .next { s with pins := { s.pins with windows := s.pins.windows.erase pin.toNat } }

/-- PIN_OUT_WRITE. -/
def execPinOutWrite (m : Master) (h : Half) (q : BitVec 2) (v : BitVec 16) (also : List GpioWrite) (s : State) :
    Host.Outcome State Fault Refusal := .next (s.gpioHost m h (.hostOut q v) also)

/-- PIN_SET_WRITE. -/
def execPinSetWrite (m : Master) (h : Half) (q : BitVec 2) (v : BitVec 16) (also : List GpioWrite) (s : State) :
    Host.Outcome State Fault Refusal := .next (s.gpioHost m h (.hostSet q v) also)

/-- PIN_CLR_WRITE. -/
def execPinClrWrite (m : Master) (h : Half) (q : BitVec 2) (v : BitVec 16) (also : List GpioWrite) (s : State) :
    Host.Outcome State Fault Refusal := .next (s.gpioHost m h (.hostClr q v) also)

/-- PIN_OE_WRITE. -/
def execPinOeWrite (m : Master) (h : Half) (q : BitVec 2) (v : BitVec 16) (also : List GpioWrite) (s : State) :
    Host.Outcome State Fault Refusal := .next (s.gpioHost m h (.hostOe q v) also)

/-- COX_GPIO_WRITE. -/
def execCoxGpioWrite (oe : Bool) (q : BitVec 2) (v : BitVec 16) (also : List GpioWrite) (s : State) :
    Host.Outcome State Fault Refusal :=
  .next (if s.coxPort then s.gpioWith (if oe then .coxOe q v else .coxOut q v) also else s)

/-- SDW_DATA. -/
def execSdwData (h : Half) (q : BitVec 2) (mask v : BitVec 16) (also : List GpioWrite) (s : State) :
    Host.Outcome State Fault Refusal := .next (s.gpioSdw h (.sdwData q mask v) also)

/-- SDW_SET. -/
def execSdwSet (h : Half) (q : BitVec 2) (mask : BitVec 16) (also : List GpioWrite) (s : State) :
    Host.Outcome State Fault Refusal := .next (s.gpioSdw h (.sdwSet q mask) also)

/-- SDW_CLR. -/
def execSdwClr (h : Half) (q : BitVec 2) (mask : BitVec 16) (also : List GpioWrite) (s : State) :
    Host.Outcome State Fault Refusal := .next (s.gpioSdw h (.sdwClr q mask) also)

/-- SDW_OE. -/
def execSdwOe (h : Half) (q : BitVec 2) (mask v : BitVec 16) (also : List GpioWrite) (s : State) :
    Host.Outcome State Fault Refusal := .next (s.gpioSdw h (.sdwOe q mask v) also)

/-- PIN_INPUT_CHANGE. -/
def execPinInputChange (pin : BitVec 6) (level : Bool) (s : State) : Host.Outcome State Fault Refusal :=
  .next (s.pinChange pin.toNat level)

/-- PORCH_TOKEN_BOUNDARY. -/
def execPorchTokenBoundary (h : Half) (j : BitVec 4) (seen : BitVec 16) (ins : List Byte) (acked : BitVec 16) (s : State) :
    Host.Outcome State Fault Refusal := .next (s.porchBoundary h j.toNat seen ins acked)

/-- SMBUS_BLOCK_READ. -/
def execSmbusBlockRead (code : Byte) (s : State) (addr : BitVec 7 := 0x5A) (pec : Bool := false) : Host.Outcome State Fault Refusal :=
  .next (s.smbus addr.toNat code.toNat pec)

end Sys2Proof.Machine
end

