-- ==== Sys2Proof/Machine/ClockCmds.lean ====
section
/-! DEFINITION. The commands of chapter 10: sources, switches, the clock monitor, gates, operating points, rails, the
governor, the frequency-measuring counter and the Cellar's timer. -/

namespace Sys2Proof.Machine

/-- Rail 0 or 1 of the AVSBus writes that wait. -/
def railWaits (l : List AvsWrite) (rail : Nat) : Bool := l.any fun w => w.rail == rail

/-- FMC.RESULT.STAT. -/
abbrev fmOverflow : Nat := 1
abbrev fmRefLost : Nat := 2

namespace State

/-! ## Sources (R328, R329) -/

/-- A half's hall runs, so that its sources, monitor and engines do. -/
def hallRuns (s : State) (h : Half) : Bool := mStandby ≤ s.devMode && !s.hallStopped h

/-- What waits for a source that has become READY: BOOT step 2, the operating-point sequencer, a wake. -/
def sourceFed (s : State) (h : Half) (c : ClockSrc) : State :=
  let s := match (s.pow h).op with
    | some o =>
      if c = hallSrc o.pll then
        (s.modPow h fun p => { p with op := some { o with pllReady := true } }).opAdvance h
      else s
    | none => s
  let s := if c = .irc then s.bootStep2 else s
  if s.seq.standby = .waking ∧ s.srcReady .east .pllA ∧ s.srcReady .west .pllA then ((s.plls .east).plls .west).wakeUp
  else s

/-- A source completes its qualification. -/
def sourceUp (s : State) (h : Half) (c : ClockSrc) : State :=
  let runs := if c = .crystal then s.devMode != mOff else s.hallRuns h
  if runs && !s.srcReady h c && s.srcRuns h c then (s.setSrcReady h c true).sourceFed h c else s

/-! ## The monitor (R334, R335, R337) -/

/-- No fast source is left for the hall: NO_CLOCK, and the other half halts (R337).
DESIGN CHOICE, unsafe: notes/assumptions/32. -/
def noClockCheck (s : State) (h : Half) : State :=
  if s.hallDead h && !s.cellar.noClock.get h then
    let s := ({ s with cellar := { s.cellar with noClock := s.cellar.noClock.set h true } }).wr pgCel CEL_STAT_NO_CLOCK 1
    s.haltHalf (other h) ecHalfHalt
  else s

/-- One source's count of a window. -/
def monitorOne (s : State) (h : Half) (c : ClockSrc) (n : Nat) : State :=
  if c = .crystal ∨ !s.srcReady h c ∨ !s.countBad h c n then s
  else
    let s := s.srcFail h c (decide (0 < n))
    match c with
    | .refH => s.dlSet false (s.rd pgHlk HLK_LINK_SPEED) (s.rd pgHlk HLK_LINK_WIDTH)
    | .refC => s.linksLost
    | _ => s

/-- A monitor window ends. DESIGN CHOICE, unsafe: notes/assumptions/32. -/
def monitor (s : State) (h : Half) (counts : List (ClockSrc × Nat)) : State :=
  if s.hallRuns h then (counts.foldl (fun s e => s.monitorOne h e.1 e.2) s).noClockCheck h else s

/-- The Cellar's check of the crystal: 7,812.5 ALW cycles in 64 of its own (R334). -/
def crystalCheck (s : State) (alw : Nat) : State :=
  let d := if 15625 ≤ 2 * alw then 2 * alw - 15625 else 15625 - 2 * alw
  if s.srcReady .east .crystal && decide (15625 < d * s.tolDiv s.leader) then
    let s := s.setSrcReady .east .crystal false
    if s.on pgCel CEL_STAT_TICK_NOW then (s.wrs pgCel [(CEL_STAT_TICK_NOW, 0), (CEL_CTRL_TICK, 0)]).raise pgCel 2 else s
  else s

/-! ## The Cellar's timer (R324) -/

/-- CEL.TIMER reaches 0. In CELLAR, where the hall has no power, the event shows in PG_IRQ_RAW alone.
DESIGN CHOICE, unsafe: notes/assumptions/10. DESIGN CHOICE, unsafe: notes/assumptions/33. -/
def timerEnd (s : State) : State :=
  if s.rd pgCel CEL_TIMER_COUNT = 0 ∨ s.devMode = mOff then s
  else
    let s := s.wr pgCel CEL_TIMER_COUNT 0
    if s.seq.standby = .asleep then s.wakeSource 8
    else if s.devMode = mCellar then s.wr pgCel PG_IRQ_RAW (setBit (s.rd pgCel PG_IRQ_RAW) 0 true)
    else (s.raise pgCel 0).wakeSource 8

/-! ## Gates (R340, R342) -/

/-- The engine behind a gate has an operation under way. -/
def engineBusy (s : State) (h : Half) : Gated → Bool
  | .bst => !(s.slices h).isEmpty
  | .att => s.prog.isSome
  | .g2c => s.g2State == gsStarting
  | .fmc | .scr => false

/-- A close is asked for. The scrubber may have a frame in hand. -/
def gateGo (s : State) (h : Half) (b : Gated) : State :=
  if !s.gateHere h b || s.rd (pgClk h) (gateFld b) != 0 then s
  else
    let s := if b = .fmc ∧ s.on (pgFmc h) FMC_RESULT_BUSY then
        s.wrs (pgFmc h) [(FMC_RESULT_BUSY, 0), (FMC_RESULT_VALID, 0)] else s
    (s.setGateStage h b (some (if s.engineBusy h b || b = .scr then .engine else .port))).wr (pgClk h) (gateFld b) 2

/-- The engine stage ends. -/
def gateEngine (s : State) (h : Half) (b : Gated) : State :=
  if s.gateStage h b = some .engine ∧ !s.engineBusy h b then s.setGateStage h b (some .port) else s

/-- The bus-port stage ends: with its access complete, or by force (R340). -/
def gatePort (s : State) (h : Half) (b : Gated) : State :=
  if s.gateStage h b = some .port then s.gateShut h b else s

def gateForce (s : State) (h : Half) (b : Gated) (off : Nat) : State :=
  if s.gateStage h b = some .port then (s.gateShut h b).pgErr (gatePage h b) 4 off else s

/-! ## Operating points and rails (R345 to R349) -/

/-- PWR.OP_REQ at GO. DESIGN CHOICE, unsafe: notes/assumptions/33. -/
def opGo (s : State) (h : Half) : State :=
  let p := pgPwr h
  if s.rd p PWR_OP_REQ_STATUS = 1 then s
  else
    let s := (s.step1 p PWR_OP_REQ_SEQ).wrs p [(PWR_OP_REQ_STATUS, 1), (PWR_OP_REQ_REASON, 0)]
    if s.seq.standby ≠ .none then s.opResult h 4
    else if s.opCeiling h < s.rd p PWR_OP_REQ_TARGET then s.opResult h 1
    else if (s.pow h).op.isSome then s
    else s.opBegin h

/-- The hall PLL of a change is not READY within its limit. -/
def opLate (s : State) (h : Half) : State :=
  match (s.pow h).op with
  | some c => if c.pllReady then s else s.opEnd h 2
  | none => s

/-- The voltage time elapses: its write has been committed. -/
def opSettled (s : State) (h : Half) : State :=
  match (s.pow h).op with
  | some c =>
    if (s.pow h).avs.any (·.forOp) || c.voltDone then s
    else if c.raise then (s.modPow h fun p => { p with op := some { c with voltDone := true } }).opAdvance h
    else if c.switched then s.opEnd h 0
    else s
  | none => s

/-- An AVSBus transaction with its repeats: the oldest write that waits, or a read (R346).
DESIGN CHOICE, unsafe: notes/assumptions/33. -/
def avsEnd (s : State) (h : Half) (crcOk : List Bool) : State :=
  let tries := crcOk.take 4
  let p := pgPwr h
  if !tries.contains true && tries.length < 4 then s
  else
    let write := (s.pow h).avs.head?
    let s := s.modPow h fun p => { p with avs := p.avs.tail }
    if tries.contains true then
      match write with
      | some w => s.avsCommit h w.rail w.half2
      | none => s
    else
      let s := (s.bump p PWR_AVS_ERRS).raise p 2
      match write with
      | some w => if w.forOp then s.opEnd h 3 else s
      | none => s

/-- PWR.VFAB.TARGET_MV (R349, R353). -/
def vfabWrite (s : State) (h : Half) (mv : Nat) : State :=
  let s := s.wr (pgPwr h) PWR_VFAB_TARGET_MV (min 900 (max 600 mv))
  if s.vfabTarget h < (s.pow h).vgoal2 ∨ s.govCount h .lowerVfab = 0 then s.vfabGo h (s.vfabTarget h) else s

/-- The next step towards the level: 12.5 mV while a room of the half is bundled. -/
def vfabNext (s : State) (h : Half) : State :=
  let p := s.pow h
  let now := p.vfab2
  let goal := max p.vgoal2 (s.vfabLeast h)
  if railWaits p.avs 1 || now == goal then s
  else
    s.avsPut h 1 (if !s.anyBundled h then goal else if now < goal then min goal (now + 25) else max goal (now - 25)) false

/-! ## The governor (R350, R351) -/

/-- The mean of the last ten totals in whole watts; which way it rounds is an open value. DESIGN CHOICE, safe:
notes/assumptions/33. -/
def govMean (s : State) (l : List Nat) : Nat := min 1023 (l.sum / (2 * l.length) + if l.sum % (2 * l.length) = 0 then 0 else s.drawn 2)

/-- A sample: the power of the rails and of the rest, in half watts, and the hottest junction sensor. -/
def govSample (s : State) (h : Half) (halfWatts : Nat) (hottest : Int) : State :=
  if !s.governs h || !s.hallRuns h then s
  else
    let above := decide ((s.rd (pgPwr h) PWR_GOV_CFG_TJ_LIMIT : Int) < hottest)
    let l := (halfWatts :: (s.pow h).samples).take 10
    let power := s.govMean l
    let s := s.drew.modPow h fun p => { p with samples := l }
    let s := s.wrs (pgPwr h) [(PWR_GOV_STAT_POWER_W, power), (PWR_GOV_STAT_TJ_OVER, bit above)]
    s.modPow h fun p => { p with overCap := decide (s.capW h < power) || above }

/-- The actions in the order of Table 10.13. -/
def govOrder : List GovAct := [.holdSlices, .slowScrub, .paceSwaps, .lowerVfab, .lowerOp]

/-- While above cap, the first action that is available in every half governed; with none left, AT_FLOOR.
DESIGN CHOICE, unsafe: notes/assumptions/33. -/
def govAct (s : State) (h : Half) : State :=
  if !s.governs h || !(s.pow h).overCap || !s.hallRuns h then s
  else
    let halves := s.governed h
    match govOrder.find? fun a => halves.all fun g => s.govFree g a with
    | some a => ((halves.foldl (fun s g => s.govTake a g) s).govShow h).wr (pgPwr h) PWR_GOV_STAT_AT_FLOOR 0
    | none => (s.wr (pgPwr h) PWR_GOV_STAT_AT_FLOOR 1).raise (pgPwr h) 1

/-- POWER_W has stayed low enough: the last action is undone. -/
def govUndo (s : State) (h : Half) : State :=
  let low := s.rd (pgPwr h) PWR_GOV_STAT_POWER_W + s.rd (pgPwr h) PWR_CAP_HYST_W ≤ s.capW h
  if !s.governs h || !s.hallRuns h || (s.pow h).overCap || !low || (s.pow h).gov.isEmpty then s
  else (((s.governed h).foldl govDrop s).govShow h).wr (pgPwr h) PWR_GOV_STAT_AT_FLOOR 0

/-! ## The frequency-measuring counter (R356) -/

/-- FMC.CTRL at GO. DESIGN CHOICE, unsafe: notes/assumptions/32. -/
def fmcGo (s : State) (h : Half) : State :=
  let p := pgFmc h
  if s.on p FMC_RESULT_BUSY || !s.gateOpen h .fmc then s
  else (s.step1 p FMC_RESULT_SEQ).wrs p [(FMC_RESULT_BUSY, 1), (FMC_RESULT_VALID, 0)]

/-- A measurement ends with a count and a STAT. -/
def fmcEnd (s : State) (h : Half) (count stat : Nat) : State :=
  let p := pgFmc h
  if s.on p FMC_RESULT_BUSY then
    (s.wrs p [(FMC_RESULT_COUNT, count), (FMC_RESULT_STAT, stat), (FMC_RESULT_VALID, 1), (FMC_RESULT_BUSY, 0)]).raise p 0
  else s

/-- The reference has given its cycles. One source in both selections counts them. -/
def fmcDone (s : State) (h : Half) (edges : Nat) : State :=
  let p := pgFmc h
  let n := if s.rd p FMC_CFG_MEAS_SRC = s.rd p FMC_CFG_REF_SRC then 2 ^ min 24 (max 4 (s.rd p FMC_CFG_REF_LOG)) else edges
  if 0xFFFFFF < n then s.fmcEnd h 0xFFFFFF fmOverflow else s.fmcEnd h n 0

end State

/-! ## The commands -/

/-- CEL_TIMER_EXPIRY. -/
def execCelTimerExpiry (s : State) : Host.Outcome State Fault Refusal := .next s.timerEnd

/-- CEL_TIMER_WRITE. -/
def execCelTimerWrite (m : Master) (v : Word) (s : State) : Host.Outcome State Fault Refusal :=
  .next (s.toPage m pgCel 0x50 fun s => s.wr pgCel CEL_TIMER_COUNT v.toNat)

/-- TICK_SWITCH. -/
def execTickSwitch (m : Master) (crystal : Bool) (s : State) : Host.Outcome State Fault Refusal :=
  .next (s.toPage m pgCel 0x40 fun s => s.tickGo crystal)

/-- XTAL_START. -/
def execXtalStart (m : Master) (s : State) : Host.Outcome State Fault Refusal :=
  .next (s.toPage m pgCel 0x40 fun s => s.xtalSet true)

/-- SOURCE_READY. -/
def execSourceReady (h : Half) (c : ClockSrc) (s : State) : Host.Outcome State Fault Refusal := .next (s.sourceUp h c)

/-- HALL_MUX_SWITCH. -/
def execHallMuxSwitch (m : Master) (h : Half) (target : BitVec 2) (s : State) : Host.Outcome State Fault Refusal :=
  .next (s.goTo m (pgClk h) 0x48 (fun s => s.wrs (pgClk h) [(CLK_SW_MUX, 0), (CLK_SW_TARGET, target.toNat)])
    fun s => s.swGo h false target.toNat)

/-- SERVICE_MUX_SWITCH. -/
def execServiceMuxSwitch (m : Master) (h : Half) (target : BitVec 2) (s : State) : Host.Outcome State Fault Refusal :=
  .next (s.goTo m (pgClk h) 0x48 (fun s => s.wrs (pgClk h) [(CLK_SW_MUX, 1), (CLK_SW_TARGET, target.toNat)])
    fun s => s.swGo h true target.toNat)

/-- SWITCH_ESCAPE. -/
def execSwitchEscape (x : Mux) (s : State) : Host.Outcome State Fault Refusal := .next (s.escape x)

/-- MONITOR_WINDOW. -/
def execMonitorWindow (h : Half) (counts : List (ClockSrc × Nat)) (s : State) : Host.Outcome State Fault Refusal :=
  .next (s.monitor h counts)

/-- GATE_CLOSE. -/
def execGateClose (m : Master) (h : Half) (b : Gated) (s : State) : Host.Outcome State Fault Refusal :=
  .next (s.toPage m (pgClk h) 0x60 fun s => s.gateGo h b)

/-- GATE_ENGINE_DONE. -/
def execGateEngineDone (h : Half) (b : Gated) (s : State) : Host.Outcome State Fault Refusal := .next (s.gateEngine h b)

/-- GATE_PORT_IDLE. -/
def execGatePortIdle (h : Half) (b : Gated) (s : State) : Host.Outcome State Fault Refusal := .next (s.gatePort h b)

/-- GATE_FORCED. -/
def execGateForced (h : Half) (b : Gated) (off : BitVec 12) (s : State) : Host.Outcome State Fault Refusal :=
  .next (s.gateForce h b off.toNat)

/-- GATE_OPEN. -/
def execGateOpen (m : Master) (h : Half) (b : Gated) (s : State) : Host.Outcome State Fault Refusal :=
  .next (s.toPage m (pgClk h) 0x60 fun s => s.gateReopen h b)

/-- OP_CHANGE. -/
def execOpChange (m : Master) (h : Half) (target : BitVec 3) (s : State) : Host.Outcome State Fault Refusal :=
  .next (s.goTo m (pgPwr h) 0x40 (fun s => s.wr (pgPwr h) PWR_OP_REQ_TARGET target.toNat) fun s => s.opGo h)

/-- OP_PLL_TIMEOUT. -/
def execOpPllTimeout (h : Half) (s : State) : Host.Outcome State Fault Refusal := .next (s.opLate h)

/-- OP_VOLTAGE_SETTLED. -/
def execOpVoltageSettled (h : Half) (s : State) : Host.Outcome State Fault Refusal := .next (s.opSettled h)

/-- AVS_TRANSACTION. -/
def execAvsTransaction (h : Half) (crcOk : List Bool) (s : State) : Host.Outcome State Fault Refusal :=
  .next (s.avsEnd h crcOk)

/-- VFAB_TARGET_WRITE. -/
def execVfabTargetWrite (m : Master) (h : Half) (mv : BitVec 16) (s : State) : Host.Outcome State Fault Refusal :=
  .next (s.toPage m (pgPwr h) 0x48 fun s => s.vfabWrite h mv.toNat)

/-- VFAB_STEP. -/
def execVfabStep (h : Half) (s : State) : Host.Outcome State Fault Refusal := .next (s.vfabNext h)

/-- GOVERNOR_SAMPLE. -/
def execGovernorSample (h : Half) (halfWatts : BitVec 11) (hottest : Int) (s : State) : Host.Outcome State Fault Refusal :=
  .next (s.govSample h halfWatts.toNat hottest)

/-- GOVERNOR_ACTION. -/
def execGovernorAction (h : Half) (s : State) : Host.Outcome State Fault Refusal := .next (s.govAct h)

/-- GOVERNOR_UNDO. -/
def execGovernorUndo (h : Half) (s : State) : Host.Outcome State Fault Refusal := .next (s.govUndo h)

/-- FMC_MEASURE. -/
def execFmcMeasure (m : Master) (h : Half) (s : State) : Host.Outcome State Fault Refusal :=
  .next (s.goTo m (pgFmc h) 0x44 (fun s => s) fun s => s.fmcGo h)

/-- FMC_MEASUREMENT_END. -/
def execFmcMeasurementEnd (h : Half) (edges : Nat) (s : State) : Host.Outcome State Fault Refusal := .next (s.fmcDone h edges)

/-- FMC_REF_LOST. -/
def execFmcRefLost (h : Half) (edges : Nat) (s : State) : Host.Outcome State Fault Refusal :=
  .next (s.fmcEnd h (min 0xFFFFFF edges) fmRefLost)

/-- CRYSTAL_CHECK_WINDOW. -/
def execCrystalCheckWindow (alw : Nat) (s : State) : Host.Outcome State Fault Refusal := .next (s.crystalCheck alw)

end Sys2Proof.Machine
end

