-- ==== Sys2Proof/Machine/View.lean ====
section
/-! DEFINITION. What a register shows (chapter 15): the stored word, the words that show state held elsewhere, and the
words that FREEZE holds (R450). A read changes nothing (R14). -/

namespace Sys2Proof.Machine

/-- The count fields of a register. -/
def RegRow.counts (r : RegRow) : List Fld := r.fields.filter fun f => f.acc = .cnt

/-- The register is of a kind that FREEZE holds. DEDUCED, unsafe: notes/assumptions/40. -/
def RegRow.holds (r : RegRow) : Bool :=
  match r.kind with
  | .result => true
  | .plain => !r.counts.isEmpty
  | .goReg | .portReg => false

/-- Offsets of a list of registers that FREEZE holds, each with its register. -/
def heldOffs (rows : List RegRow) : List (Nat × RegRow) :=
  (rows.filter RegRow.holds).flatMap fun r => (List.range r.n).map fun i => (r.off + i * r.stride, r)

namespace State

/-- A STATUS or BUSY field of a page reads BUSY (PG_STAT.BUSY). -/
def pageBusy (s : State) (p : Nat) : Bool :=
  match pageKind p with
  | .sys => s.on p SYS_MODE_TRANSIT || s.rd p SYS_COX_UPD_STATUS == 1
  | .sec => s.rd p SEC_UNFREEZE_STATUS == 1 || s.rd p SEC_KEY_CTRL_STATUS == 1
  | .lcs => s.rd p LCS_REQ_STATUS == 1
  | .cfg => s.rd p CFG_DMA_CTRL_STATUS == 1
  | .att => s.on p ATT_PROG_CTRL_BUSY || s.rd p ATT_REC_CLEAR_STATUS == 1
  | .hlk => s.rd p HLK_REEQ_STATUS == 1
  | .crs => s.rd p CRS_REQ_STATUS == 1 || s.rd p CRS_LANE_STATUS == 1
  | .clk => s.rd p CLK_SW_STATUS == 1
  | .pwr => s.rd p PWR_OP_REQ_STATUS == 1
  | .fmc => s.on p FMC_RESULT_BUSY
  | .bst => s.rd p BST_REQ_STATUS == 1
  | .stw => s.on p STW_CMD_RESULT_BUSY || s.rd p STW_ROOM_RETIRE_STATUS == 1
  | .pgt => s.on p PGT_RESULT_BUSY
  | .hat => s.on p HAT_RESULT_BUSY
  | .mem => s.rd p MEM_RETRAIN_STATUS == 1
  | .mbx => s.on p MBX_MB_STAT_BUSY
  | .cel | .g2c | .gal | .scr | .pin | .pmx | .pint | .wng | .mbs | .cwn | .hwn | .vfp => false

/-- HEAD0, HEAD1, LEVEL and PTR of a hatch (Table 6.10). -/
def hatchView (s : State) (n : Nat) : List Nat :=
  let h := s.hatch n
  let seq := h.left % 16 * 2 ^ 24
  let (a, b) := match h.head with
    | some p => (2 ^ 31 + p.kind * 2 ^ 20 + p.len, 2 ^ 31 + p.heat * 2 ^ 20 + p.src)
    | none => (0, 0)
  [a + seq, b + seq, h.held * 2 ^ 21 + h.credit, h.tail * 2 ^ 16 + ((h.packets.head?.map (·.start)).getD h.tail)]

/-- The hatch that HSEL selects, if it is one of the half. -/
def hsel (s : State) (p : Nat) : Option Nat :=
  let n := s.rd p HAT_HSEL_HATCH
  if hatchNumOk n && hatchHalf n == s.serves p then some n else none

/-- A non-secure master does not see what belongs to the secure world (R460). -/
def sees (s : State) (m : Master) (world : Bool) : Bool := !world || s.masterWorld m

/-- POOL_NS or POOL_S of a half (Table 5.13). -/
def poolWord (s : State) (h : Half) (world : Bool) : Nat :=
  min 255 (s.halfZeroed h world) * 2 ^ 24 +
    min 255 ((s.alloc.get h).reclaim.filter fun x => x.world == world).length * 2 ^ 16 + min 0xFFFF (s.halfFree h world)

/-- A crew window's entry (R458). -/
def crewEntry (s : State) (m : Master) (id : Nat) : Nat :=
  if !idOk id then 0
  else
    match s.crew id with
    | some c => if s.sees m c.world then ((c.words id).headD 0).toNat else 0
    | none => id * 2 ^ 16 + s.heat id * 2 ^ 12

/-- A hatch window's word (R459). -/
def hatchEntry (s : State) (m : Master) (n i : Nat) : Nat :=
  let h := s.hatch n
  if h.isOpen && s.sees m h.world then (s.hatchView n).getD i 0 else 0

/-- A register that shows state held elsewhere; nothing where its stored word is what it shows. USED_KIB (R125) counts the data
frames of the planes held, two to a KiB, an odd one as a whole KiB; a frame that refers to another takes no store.
DESIGN CHOICE, unsafe: notes/assumptions/43. -/
def shown (s : State) (m : Master) (p off : Nat) : Option Nat :=
  let h := s.serves p
  let i := (off - 0x40) / 4
  if off = 0x0C then
    some (bit (s.on p PG_WORLD_LOCK) * 8 + bit (s.on p PG_CTRL_FREEZE) * 4 + bit (s.pageBusy p))
  else if off < 0x40 then (if off = 0x14 then some (s.irqEn p) else none)
  else
    match pageKind p with
    | .sys => if off = 0x74 then some (s.xstat h).toNat else none
    | .sec =>
      if 0x80 ≤ off ∧ off < 0xA0 then some 0
      else if off = 0xA4 then
        some (s.rd p SEC_KEY_STAT_KCV * 2 ^ 16 +
          (s.security.keys.zipIdx.foldl (fun a e => a + keyBits e.1.state * 4 ^ e.2) 0))
      else none
    | .crs => if off = 0x68 then some (s.peerWord (s.rd p CRS_PEER_SEL_ID)).toNat else none
    | .g2c => if 0x100 ≤ off ∧ off < 0x200 then some (s.g2Read ((off - 0x100) / 4)).1 else none
    | .gal =>
      if off = 0x48 then
        let held := (s.gallery.winAcc.get h).filter fun a => a.read.isNone
        some (min 0xFFFF held.length * 2 ^ 16 +
          min 2048 (((s.gallery.egress.get h).map egressSize).sum + 1023) / 1024)
      else none
    | .pin =>
      if off < 0x80 then
        if h = .west then some 0
        else if i % 4 = 1 ∨ i % 4 = 2 then some (s.rd p (PIN_OUT_DATA.at 0x10 (i / 4)))
        else none
      else if off < 0x90 then
        some (if h = .west then 0 else s.pins.levels / 2 ^ (16 * ((off - 0x80) / 4)) % 2 ^ 16)
      else none
    | .pmx | .pint => if h = .west then some 0 else none
    | .stw =>
      if off = 0xC4 then
        let here := s.crews.filter fun e => idHalf e.1 == h
        some (here.length * 2 ^ 16 + (here.filter fun e => e.2.state == .ready).length)
      else none
    | .pgt =>
      if off = 0x74 then some (s.poolWord h false)
      else if off = 0x78 then some (s.poolWord h true)
      else none
    | .hat =>
      if 0x84 ≤ off ∧ off < 0x94 then
        some ((s.hsel p).elim 0 fun n => (s.hatchView n).getD ((off - 0x84) / 4) 0)
      else none
    | .wng =>
      if off = 0x208 then
        let c := (s.wing (p - 38)).cache
        some (c.length * 2 ^ 16 + ((c.map fun x => storeBytes x.data).sum + 1023) / 1024)
      else none
    | .mbs =>
      let bits := (List.range 20).filter fun n =>
        s.on (p + 1 + n) MBX_MB_STAT_VALID && (n < 16 || s.masterWorld m)
      some (bits.foldl (fun a n => a + 2 ^ n) 0)
    | .cwn => if i < 512 then some (s.crewEntry m (0x8000 * halfBit h + (p - 96) % 64 * 512 + i)) else none
    | .hwn =>
      if i < 512 then some (s.hatchEntry m (0x8000 * halfBit h + (p - 224) % 32 * 128 + i / 4) (i % 4)) else none
    | .cel | .lcs | .cfg | .att | .hlk | .clk | .pwr | .fmc | .bst | .scr | .mem | .mbx | .vfp => none

/-- STATE of a room map entry as Table 3.12 codes it. -/
def stateCode : RoomState → Nat
  | .free => 0
  | .occupied => 1
  | .swapping => 2
  | .lent => 3
  | .g2 => 4
  | .retired => 5
  | .withdrawn => 6

/-- Words 0 and 1 of a room's map entry (R115, R116, Tables 3.12 and 3.13): the Steward keeps them in the system area
at STW.ROOM_MAP, where the secure cox reads them. -/
def mapEntry (s : State) (r : Nat) : Nat × Nat :=
  let x := s.room r
  (x.crew * 2 ^ 16 + x.heat * 2 ^ 12 + x.pos * 2 ^ 6 + stateCode x.state,
    x.screw * 2 ^ 16 + x.sheat * 2 ^ 12 + x.spos * 2 ^ 6 + bit x.svalid * 2 ^ 5 + bit x.active * 2 ^ 4 +
      bit x.codeErr * 2 ^ 3 + x.retire)

/-- The live word of a register as a master reads it. -/
def liveWord (s : State) (m : Master) (p off : Nat) : Word :=
  match s.shown m p off with
  | some n => BitVec.ofNat 32 n
  | none => s.reg (p * 0x1000 + off)

/-- What a read of a register returns: a page in FREEZE shows the held words (R450).
DESIGN CHOICE, safe: notes/assumptions/2. DEDUCED, unsafe: notes/assumptions/40. -/
def view (s : State) (m : Master) (p off : Nat) : Word :=
  let w := s.liveWord m p off
  match regAt p off, Tbl.find s.held (p * 0x1000 + off) with
  | some r, some old => if r.kind = .result then old else r.counts.foldl (fun w f => f.put (f.get old) w) w
  | _, _ => w

/-- FREEZE takes hold: each held register's word at this moment. A crew or hatch window has none (R460). -/
def freezePage (s : State) (p : Nat) : State :=
  let k := pageKind p
  if s.on p PG_CTRL_FREEZE || k == .cwn || k == .hwn then s
  else
    let s' := s.wr p PG_CTRL_FREEZE 1
    { s' with held := (heldOffs (regRows k)).foldl (fun t e => Tbl.put t (p * 0x1000 + e.1) (s.liveWord .coxS p e.1)) s'.held }

/-- FREEZE ends: every register shows its live value. -/
def thawPage (s : State) (p : Nat) : State :=
  let s := s.wr p PG_CTRL_FREEZE 0
  { s with held := s.held.filter fun e => e.1 / 0x1000 != p }

end State

end Sys2Proof.Machine
end

