-- ==== Sys2Proof/Machine/Pages.lean ====
section
/-! DEFINITION. The commands of the common page header (R403, R450 to R452), of crossings with status (R363, R364, R370)
and of the mailboxes (R456, R457). -/

namespace Sys2Proof.Machine

/-- The events that a page's chapter assigns, as a mask of PG_IRQ_RAW. -/
def irqMask : PageKind → Nat
  | .sys | .g2c => 0xF
  | .cel | .sec | .cfg | .crs | .pwr | .clk | .bst | .scr | .pin | .stw | .pgt | .hat => 0x7
  | .att | .hlk | .gal | .mem | .wng => 0x3
  | .lcs | .fmc | .mbs | .mbx => 0x1
  | .pint => 0xFFFF
  | .pmx | .cwn | .hwn | .vfp => 0

/-- CODE of SYS.MB_STAT (Table 15.7). -/
abbrev mbOk : Nat := 0
abbrev mbBadLen : Nat := 1
abbrev mbClosed : Nat := 2

namespace State

/-! ## Events -/

/-- An event's message goes once to the host and the event once to the cox (R451). -/
def irqSend (s : State) (p b : Nat) : State := (s.msix 0 p).toCox (s.serves p) (.coxEvent (s.serves p) p b)

/-- PG_IRQ_EN takes a value; a bit that rises over an event sends it. DESIGN CHOICE, unsafe: notes/assumptions/16. -/
def irqEnable (s : State) (p v : Nat) : State :=
  let old := s.irqEn p
  let s := s.wr p PG_IRQ_EN v
  (List.range 32).foldl
    (fun s b => if (s.irqEn p).testBit b && !old.testBit b && (s.rd p PG_IRQ_RAW).testBit b then s.irqSend p b else s) s

/-- PG_IRQ_RAW is cleared where 1 is written; a line whose level is still active pulses again (R429). -/
def irqClear (s : State) (p v : Nat) : State :=
  let s := s.wr p PG_IRQ_RAW (s.rd p PG_IRQ_RAW &&& (0xFFFFFFFF ^^^ v % 2 ^ 32))
  if p = pgPint .east then
    (List.range 16).foldl (fun s n => if v.testBit n && s.lineActive n then s.linePulse n else s) s
  else s

/-- PG_IRQ_FORCE acts as the events would, in BLANK, MFG, DEV and RMA. DESIGN CHOICE, unsafe: notes/assumptions/30. -/
def irqForced (s : State) (p v : Nat) : State :=
  if [0, 1, 2, 4].contains (s.rd pgLcs LCS_STATE_STATE) then
    (List.range 32).foldl (fun s b => if (v &&& irqMask (pageKind p)).testBit b then s.raise p b else s) s
  else s

/-- PG_ERR is cleared; with a LOST in it, so is LOST of each crossing of the page. -/
def errClear (s : State) (p : Nat) : State :=
  let lost := s.rd p PG_ERR_CODE == 3
  let s := s.wrs p [(PG_ERR_VALID, 0), (PG_ERR_MORE, 0), (PG_ERR_CODE, 0), (PG_ERR_ADDR, 0)]
  if lost then
    s.cross.foldl
      (fun s e =>
        let h := halfOf (e.1 / 4096)
        let kind := e.1 / 256 % 16
        if crossPage h kind (e.1 % 256) = p then s.crossFound h kind (e.1 % 256) else s) s
  else s

/-- SYS.XSTAT.LOST is cleared, and with it the owning page's record of a lost pulse (R364, R452). -/
def xstatFound (s : State) (h : Half) : State :=
  let kind := s.rd (pgSys h) SYS_XSEL_KIND
  let index := s.rd (pgSys h) SYS_XSEL_INDEX
  if crossOk h kind index && (s.crossing h kind index).lost then
    let s := s.crossFound h kind index
    let p := crossPage h kind index
    if s.rd p PG_ERR_CODE = 3 then
      s.wrs p [(PG_ERR_VALID, 0), (PG_ERR_MORE, 0), (PG_ERR_CODE, 0), (PG_ERR_ADDR, 0)] else s
  else s

/-! ## Worlds of pages (R12, R403) -/

/-- A secure write to PG_WORLD: WORLD while unlocked, then LOCK. -/
def pageWorld (s : State) (m : Master) (p : Nat) (world : Option Bool) (lock : Bool) : State :=
  if (worldFixed p).isSome || !s.masterWorld m then s
  else
    let s := match world with
      | some w => if s.pageLocked p then s else s.wr p PG_WORLD_WORLD (bit w)
      | none => s
    if lock then s.wr p PG_WORLD_LOCK 1 else s

/-! ## Mailboxes (R456, R457) -/

/-- A message ends: MB_OUT, RLEN and CODE, VALID, and REPLY of the mailbox and of its half's summary page.
DEDUCED, unsafe: notes/assumptions/14. -/
def mbEnd (s : State) (p code : Nat) (words : List Word) : State :=
  let ws := words.take 256
  let s := ws.zipIdx.foldl (fun s e => s.wr p (MBX_MB_OUT_DATA.at 4 e.2) e.1.toNat) s
  let s := s.wrs p [(MBX_MB_STAT_RLEN, ws.length), (MBX_MB_STAT_CODE, code), (MBX_MB_STAT_BUSY, 0), (MBX_MB_STAT_VALID, 1)]
  (s.raise p 0).raise (pgMbs (s.serves p)) 0

/-- MB_CTRL with SEND. DEDUCED, unsafe: notes/assumptions/15. -/
def mbGo (s : State) (p len : Nat) : State :=
  if s.on p MBX_MB_STAT_BUSY then s
  else
    let s := (s.step1 p MBX_MB_STAT_SEQ).wr p MBX_MB_STAT_VALID 0
    if len = 0 ∨ 256 < len then s.mbEnd p mbBadLen []
    else if (s.cox.get (s.serves p)).op.isSome then s.mbEnd p mbClosed []
    else
      (s.wr p MBX_MB_STAT_BUSY 1).emit
        (.coxMessage p ((List.range len).map fun i => s.reg (p * 0x1000 + (MBX_MB_IN_DATA.at 4 i).off)))

/-- A Cox group reset ends every message under way in the half. -/
def mbClose (s : State) (h : Half) : State :=
  (List.range 20).foldl
    (fun s n => if s.on (pgMbx h n) MBX_MB_STAT_BUSY then s.mbEnd (pgMbx h n) mbClosed [] else s) s

/-- The page is a mailbox. -/
def isMbx (p : Nat) : Bool := match pageKind p with
  | .mbx => true
  | _ => false

end State

/-! ## The commands -/

/-- PULSE_ARRIVAL. -/
def execPulseArrival (h : Half) (kind : BitVec 4) (index : Byte) (s : State) : Host.Outcome State Fault Refusal :=
  .next (s.pulseIn h kind.toNat index.toNat)

/-- PULSE_HANDSHAKE_COMPLETE. -/
def execPulseHandshakeComplete (h : Half) (kind : BitVec 4) (index : Byte) (s : State) :
    Host.Outcome State Fault Refusal := .next (s.pulseDone h kind.toNat index.toNat)

/-- CROSSING_SIDE_RESET. -/
def execCrossingSideReset (h : Half) (kind : BitVec 4) (index : Byte) (inFlight : BitVec 4) (s : State) :
    Host.Outcome State Fault Refusal := .next (s.sideReset h kind.toNat index.toNat inFlight.toNat)

/-- CROSSING_RESYNC. -/
def execCrossingResync (h : Half) (kind : BitVec 4) (index : Byte) (s : State) : Host.Outcome State Fault Refusal :=
  .next (s.resync h kind.toNat index.toNat)

/-- PAGE_FREEZE. -/
def execPageFreeze (m : Master) (page : BitVec 9) (on : Bool) (s : State) : Host.Outcome State Fault Refusal :=
  .next (s.toPage m page.toNat 0x08 fun s => if on then s.freezePage page.toNat else s.thawPage page.toNat)

/-- IRQ_FORCE. -/
def execIrqForce (m : Master) (page : BitVec 9) (v : Word) (s : State) : Host.Outcome State Fault Refusal :=
  .next (s.toPage m page.toNat 0x18 fun s => s.irqForced page.toNat v.toNat)

/-- IRQ_ENABLE_WRITE. -/
def execIrqEnableWrite (m : Master) (page : BitVec 9) (v : Word) (s : State) : Host.Outcome State Fault Refusal :=
  .next (s.toPage m page.toNat 0x14 fun s => s.irqEnable page.toNat v.toNat)

/-- PG_IRQ_RAW_CLEAR. -/
def execPgIrqRawClear (m : Master) (page : BitVec 9) (v : Word) (s : State) : Host.Outcome State Fault Refusal :=
  .next (s.toPage m page.toNat 0x10 fun s => s.irqClear page.toNat v.toNat)

/-- PG_ERR_CLEAR. -/
def execPgErrClear (m : Master) (page : BitVec 9) (s : State) : Host.Outcome State Fault Refusal :=
  .next (s.toPage m page.toNat 0x20 fun s => s.errClear page.toNat)

/-- PG_WORLD_WRITE. -/
def execPgWorldWrite (m : Master) (page : BitVec 9) (secure : Bool) (s : State) : Host.Outcome State Fault Refusal :=
  .next (s.toPage m page.toNat 0x1C fun s => s.pageWorld m page.toNat (some secure) false)

/-- PG_WORLD_LOCK. -/
def execPgWorldLock (m : Master) (page : BitVec 9) (s : State) : Host.Outcome State Fault Refusal :=
  .next (s.toPage m page.toNat 0x1C fun s => s.pageWorld m page.toNat none true)

/-- MB_SEND. -/
def execMbSend (m : Master) (page : BitVec 9) (len : BitVec 9) (s : State) : Host.Outcome State Fault Refusal :=
  .next <|
    if State.isMbx page.toNat then
      s.toPage m page.toNat 0x40 fun s => (s.wr page.toNat MBX_MB_CTRL_LEN len.toNat).mbGo page.toNat len.toNat
    else s

/-- MB_REPLY. -/
def execMbReply (page : BitVec 9) (words : List Word) (s : State) : Host.Outcome State Fault Refusal :=
  .next <|
    if State.isMbx page.toNat && s.on page.toNat MBX_MB_STAT_BUSY && (s.cox.get (s.serves page.toNat)).op.isNone then
      s.mbEnd page.toNat mbOk words
    else s

end Sys2Proof.Machine
end

