-- ==== Sys2Proof/Machine/Loader.lean ====
section
/-! DEFINITION. The loader (chapter 8): image headers, segments, records up to END, the deadline and the cleanup of a
failed load. -/

namespace Sys2Proof.Machine

/-! ## Types of a record (Table 8.7) and details of BAD_CREW (Table 8.11) -/

abbrev rtFrame : Nat := 1
abbrev rtRepeat : Nat := 2
abbrev rtZero : Nat := 3
abbrev rtEssential : Nat := 4
abbrev rtCrew : Nat := 5
abbrev rtHall : Nat := 6
abbrev rtEnd : Nat := 0xF

abbrev bcOverlap : Nat := 0x10
abbrev bcNoShare : Nat := 0x11
abbrev bcBadImage : Nat := 0x12
abbrev bcNoCrew : Nat := 0x13

/-- Bytes of an essential-bit map. -/
abbrev mapBytes : Nat := 11520

/-- FRAME_COUNT at most (R254 step 6). -/
abbrev maxFrames : Nat := 1105920

/-- Why a record fails: code, detail, ERR_POS where it is not the record's own. -/
structure LoadBad where
  code   : Nat
  detail : Nat
  pos    : Option Nat
  deriving DecidableEq, Repr

/-- A failure at the record itself. -/
def LoadBad.at_ (code : Nat) : LoadBad := ⟨code, 0, none⟩
def LoadBad.crew (detail : Nat) : LoadBad := ⟨lfBadCrew, detail, none⟩

/-! ## Units (R256) and addresses (R85) -/

/-- A unit's stream of tokens: the bytes it produces and what follows it. -/
def unitTokens : Nat → Nat → List Byte → Option (List Byte × List Byte)
  | _, 0, bs => some ([], bs)
  | 0, _, _ => none
  | fuel + 1, left, bs =>
    let t := leAt bs 0 2
    let n := t % 1024
    let bs' := bs.drop 2
    if bs.length < 2 ∨ n = 0 ∨ 512 < n ∨ bits t 14 10 ≠ 0 ∨ left < n then none
    else if t.testBit 15 then (unitTokens fuel (left - n) bs').map fun r => (List.replicate n 0 ++ r.1, r.2)
    else if bs'.length < n then none
    else (unitTokens fuel (left - n) (bs'.drop n)).map fun r => (bs'.take n ++ r.1, r.2)

/-- A unit of `n` bytes at the head of a body. -/
def unitOf (compressed : Bool) (n : Nat) (bs : List Byte) : Option (List Byte × List Byte) :=
  if compressed then unitTokens n n bs else if n ≤ bs.length then some (bs.take n, bs.drop n) else none

/-- `k` units of 512 bytes. -/
def unitsOf (compressed : Bool) : Nat → List Byte → Option (List Byte × List Byte)
  | 0, bs => some ([], bs)
  | k + 1, bs =>
    match unitOf compressed 512 bs with
    | none => none
    | some (u, rest) => (unitsOf compressed k rest).map fun r => (u ++ r.1, r.2)

/-- What follows the last unit of a body is its padding: fewer than 8 zeros. -/
def padOk (bs : List Byte) : Bool := bs.length < 8 && bs.all (· == 0)

def addrKind (a : Nat) : Nat := bits a 31 30
def addrRoom (a : Nat) : Nat := bits a 23 12
def addrFrame (a : Nat) : Nat := bits a 7 0

/-- A frame address that R85 calls valid. -/
def frameOk (a : Nat) : Bool :=
  bits a 28 24 == 0 && bits a 11 8 == 0 && addrRoom a % 256 < 192 &&
    ((addrKind a == 0 && addrFrame a < 180) || (addrKind a == 1 && !a.testBit 29 && addrFrame a < 40))

/-- The RO fields of a descriptor, which a CREW record holds as 0, except the ID. -/
def descReadOnly : List Nat := [0xFFFF, 0, 0, 0, 0, 0, 0, 0, 0, 0xFFFF, 0, 0, 0x1FF, 0xFFFFFFFF, 0xFFFFFFFF, 0x0FFF0003]

/-- The four 2-bit slots of STARTUP_ORDER (R252). -/
def orderSteps (order : Nat) : List Nat := [order % 4, order / 4 % 4, order / 16 % 4, order / 64 % 4]

/-- Steps 6 and 7 of R254. -/
def hdrLate (h : ImgHdr) : Option Nat :=
  if maxFrames < h.frameCount then some lfBadCount
  else if !(List.range 4).all (orderSteps h.order).contains then some lfBadOrder
  else none

namespace State

/-! ## Headers (R251, R254) -/

/-- Step 8 of R254. -/
def hdrKey (s : State) (h : ImgHdr) : Option Nat :=
  if !h.encrypted then (if s.fuses.encRequired then some lfNotEncrypted else none)
  else if (s.keyUsable h.keySlot).isNone then some lfBadKey
  else none

/-- The payload has ended without an END record (R255). -/
def endless (s : State) : State :=
  match s.loader.hdr with
  | some h => if s.loader.pos = hdrBytes + h.plainLen then s.loadFail lfTruncated 0 0 noPos else s
  | none => s

/-- A header that passes: its image is taken. -/
def hdrTake (s : State) (h : ImgHdr) : State :=
  let s := (s.storedTake hdrBytes).modLoad fun l =>
    { l with hdr := some h, pos := hdrBytes, plain := [], seg := 0, crc := h.bytes.foldl crcByte 0xFFFFFFFF#32 }
  (s.wrs pgCfg [(CFG_STAT_ORDER, h.order), (CFG_STAT_PHASE, phRecords), (CFG_BUILD_LO_BUILD, leAt h.bytes 0x30 4),
    (CFG_BUILD_HI_BUILD, leAt h.bytes 0x34 4), (CFG_PROGRESS_BYTES, hdrBytes), (CFG_FRAMES_WRITES, 0)]).endless

/-- An image that is not for this device is skipped. -/
def hdrSkip (s : State) (h : ImgHdr) : State :=
  if s.fromAttic then s.modLoad fun l => { l with base := l.base + hdrBytes + h.payloadLen }
  else (s.storedTake hdrBytes).modLoad fun l => { l with skip := h.payloadLen }

/-- The loader checks the header that comes next in its source. DESIGN CHOICE, unsafe: notes/assumptions/19. -/
def header (s : State) (bs : List Byte) : State :=
  if !s.loading || s.phase != phHeader then s
  else if s.sourceLost 0 hdrBytes then s.loadFail lfAtticErr 0 0 noPos
  else if bs.length != hdrBytes || s.storedPeek 0 hdrBytes != some bs then s
  else
    let fail (code : Nat) : State := s.loadFail code 0 0 noPos
    match hdrCheck bs (if s.fromAttic then some (slotBytes - s.loader.base) else none) with
    | .error code => fail code
    | .ok h =>
      if !s.hdrMatches h then (if h.chain then s.hdrSkip h else fail lfWrongDevice)
      else
        match hdrLate h <|> s.hdrKey h with
        | some code => fail code
        | none => s.hdrTake h

/-! ## Segments (R268, R269) -/

/-- The IV of segment `n`. -/
def segIv (h : ImgHdr) (n : Nat) : List Byte :=
  let be := leNat ((h.bytes.drop 0x28).take 4).reverse
  (h.bytes.drop 0x20).take 8 ++ (leBytes 4 (be + n)).reverse

/-- The next segment of ciphertext has come with its tag. -/
def segment (s : State) (cipher tag : List Byte) : State :=
  match s.loader.hdr with
  | none => s
  | some h =>
    let n := s.loader.seg
    let size := min segBytes (h.plainLen - n * segBytes)
    let at_ := hdrBytes + n * segStored
    if !s.loading || s.phase != phRecords || !h.encrypted || h.segments ≤ n then s
    else if s.sourceLost at_ (size + 16) then s.loadFail lfAtticErr s.recordInHand 0 at_
    else if cipher.length != size || tag.length != 16 || s.storedPeek at_ (size + 16) != some (cipher ++ tag) then s
    else
      match (s.keyUsable h.keySlot).bind fun k => gcmOpen k (segIv h n) h.bytes cipher tag with
      | none => s.loadFail lfBadCheck s.recordInHand 2 at_
      | some p =>
        ((s.storedTake (size + 16)).modLoad fun l => { l with seg := l.seg + 1, plain := l.plain ++ p.take size }).wr pgCfg
          CFG_PROGRESS_BYTES (s.rd pgCfg CFG_PROGRESS_BYTES + size + 16)

/-! ## Records (R255) -/

/-- The record that comes next, where it is the one named: its form is checked, then it acts.
DESIGN CHOICE, unsafe: notes/assumptions/19. -/
def record (s : State) (typ : Nat) (r : Rec) (act : State → ImgHdr → Option LoadBad × State) : State :=
  match s.loader.hdr, s.plainPeek 8 with
  | some h, some hd =>
    let ty := leAt hd 0 1
    let pos := s.loader.pos
    let len := leAt hd 4 4
    let stop := hdrBytes + h.plainLen
    let fail (s : State) (b : LoadBad) : State := s.loadFail b.code ty b.detail (b.pos.getD pos)
    if !s.loading || s.phase != phRecords then s
    else if !h.encrypted && s.sourceLost pos 8 then s.loadFail lfAtticErr 0 0 pos
    else if !(ty == rtEnd || (1 ≤ ty && ty ≤ 6)) then fail s (.at_ lfBadRecord)
    else if ty ≠ typ ∨ leAt hd 1 3 ≠ r.resv.toNat ∨ len ≠ r.bodyLen then s
    else if r.resv ≠ 0 ∨ len % 8 ≠ 0 ∨ stop < pos + 8 + len ∨ (ty = rtEnd ∧ pos + 8 + len ≠ stop) then fail s (.at_ lfBadRecord)
    else if !h.encrypted && s.sourceLost pos (8 + len) then fail s (.at_ lfAtticErr)
    else if s.plainPeek (8 + len) ≠ some (hd ++ r.body) then s
    else
      match act s h with
      | (some b, s) => fail s b
      | (none, s) =>
        let s := (s.plainTake (8 + len)).modLoad fun l => { l with crc := (hd ++ r.body).foldl crcByte l.crc }
        if ty = rtEnd then s else s.endless
  | _, _ => s

/-! ## Frame writes (R257 to R260) -/

/-- Write a frame and keep the reference of a plane frame. -/
def writeFrame (s : State) (a : Nat) (t : Tbl Byte) : State :=
  let s := { s with fabric := Tbl.splice s.fabric (frameKey a) 512 (Tbl.norm t) }
  if addrKind a = 0 then s.keepRef a else s

/-- The address may be written by FRAME and REPEAT. -/
def frameGood (s : State) (a : Nat) : Bool :=
  frameOk a && !(addrKind a == 0 && a.testBit 29) && (s.room (addrRoom a)).state != .retired

/-- Frame writes are counted before any is made; nothing where the count would pass FRAME_COUNT. -/
def countFrames (s : State) (h : ImgHdr) (n : Nat) : Option State :=
  let c := s.rd pgCfg CFG_FRAMES_WRITES + n
  if h.frameCount < c then none else some (s.wr pgCfg CFG_FRAMES_WRITES c)

/-- Write the same data to addresses in order, until one is bad. -/
def writeFrames (s : State) (t : Tbl Byte) : List Nat → Option LoadBad × State
  | [] => (none, s)
  | a :: l =>
    if s.frameGood a then
      ((s.writeFrame a t).modLoad fun l => { l with written := addrRoom a :: l.written.erase (addrRoom a) }).writeFrames t l
    else (some (.at_ lfBadAddress), s)

def frameAct (body : List Byte) (s : State) (h : ImgHdr) : Option LoadBad × State :=
  match unitOf h.compressed 512 (body.drop 8) with
  | none => (some (.at_ lfBadRecord), s)
  | some (data, rest) =>
    if leAt body 4 4 ≠ 0 ∨ body.length < 8 ∨ !padOk rest then (some (.at_ lfBadRecord), s)
    else
      match s.countFrames h 1 with
      | none => (some (.at_ lfCountMismatch), s)
      | some s => s.writeFrames (Tbl.putBytes [] 0 data) [leAt body 0 4]

def repeatAct (body : List Byte) (s : State) (h : ImgHdr) : Option LoadBad × State :=
  let n := leAt body 0 4
  let list := 8 + (4 * n + 7) / 8 * 8
  match unitOf h.compressed 512 (body.drop list) with
  | none => (some (.at_ lfBadRecord), s)
  | some (data, rest) =>
    if leAt body 4 4 ≠ 0 ∨ n = 0 ∨ 65535 < n ∨ body.length < list ∨ leAt body (8 + 4 * n) (list - 8 - 4 * n) ≠ 0 ∨ !padOk rest then
      (some (.at_ lfBadRecord), s)
    else
      match s.countFrames h n with
      | none => (some (.at_ lfCountMismatch), s)
      | some s => s.writeFrames (Tbl.putBytes [] 0 data) ((List.range n).map fun i => leAt body (8 + 4 * i) 4)

def zeroAct (body : List Byte) (s : State) (h : ImgHdr) : Option LoadBad × State :=
  let a := leAt body 0 4
  let b := leAt body 4 4
  if body.length ≠ 8 then (some (.at_ lfBadRecord), s)
  else if !frameOk a || !frameOk b || a / 2 ^ 29 != b / 2 ^ 29 || addrRoom b < addrRoom a || addrFrame b < addrFrame a then
    (some (.at_ lfBadAddress), s)
  else
    let rooms := ((List.range (addrRoom b + 1)).drop (addrRoom a)).filter fun r => r % 256 < 192
    let frames := (List.range (addrFrame b + 1)).drop (addrFrame a)
    match s.countFrames h (rooms.length * frames.length) with
    | none => (some (.at_ lfCountMismatch), s)
    | some s =>
      (none, rooms.foldl
        (fun s r =>
          if (s.room r).state = .retired then s
          else frames.foldl (fun s f => s.writeFrame (a / 2 ^ 29 * 2 ^ 29 + r * 2 ^ 12 + f) []) s) s)

/-! ## CREW (R261 to R263) -/

/-- The granules of an area are free. -/
def areaFree (s : State) (h : Half) (first count : Nat) : Bool :=
  (s.alloc.get h).grans.all fun (a, n) => a + n ≤ first || first + count ≤ a

/-- Take areas of granules for the load, in order. -/
def takeAreas (s : State) (h : Half) : List (Nat × Nat) → Option LoadBad × State
  | [] => (none, s)
  | (a, n) :: l =>
    if s.areaFree h a n then ((s.granPut h a n).modLoad fun x => { x with grans := (h, a, n) :: x.grans }).takeAreas h l
    else (some (.crew bcOverlap), s)

/-- An earlier CREW record with DATA = 1 carried the image that this crew names. -/
def sharesImage (s : State) (c : Crew) : Bool :=
  s.loader.crews.any fun e =>
    e.data && ((s.crew e.id).map fun x => x.planes == c.planes && x.firstState == c.firstState && x.emap == c.emap &&
      x.w == c.w && x.h == c.h).getD false

/-- The Steward's answer to the CREATE of a record, in the order of R157. -/
def recordRefusal (s : State) (id : Nat) (ws : List Word) (c : Crew) : Option Nat :=
  if !idOk id then some scBadId
  else if (s.crew id).isSome then some scInUse
  else if !s.createOk (idHalf id) ws c false then some scBadDesc
  else if c.isPinned && !s.suiteFree c.anchorSuite then some scNoRooms
  else none

/-- The crew of a record is made: a pinned one reserves its suite, another one is PARKED or READY. -/
def recordCrew (s : State) (id : Nat) (c : Crew) : State :=
  if c.isPinned then
    ((s.newCrew id { c with state := .boarding, suite := c.anchorSuite }).claimPorches id c).modRooms c.anchorSuite
      fun x => { x with state := .swapping }
  else
    let s := s.newCrew id c
    if c.start then s.enterReady id else s

/-- Write the planes and first state images that a record carries. -/
def recordData (s : State) (c : Crew) (bs : List Byte) : State :=
  (List.range (c.w * c.h)).foldl
    (fun s p =>
      let u := (bs.drop (p * (planeBytes + imageBytes))).take (planeBytes + imageBytes)
      (s.putWhole (planeAddr c p) planeBytes (Tbl.putBytes [] 0 (u.take planeBytes))).putWhole (stateAddr c true p) imageBytes
        (Tbl.putBytes [] 0 (u.drop planeBytes))) s

/-- DESIGN CHOICE, unsafe: notes/assumptions/19. -/
def crewAct (body : List Byte) (s : State) (h : ImgHdr) : Option LoadBad × State :=
  let ws := (List.range 16).map fun i => BitVec.ofNat 32 (leAt body (4 * i) 4)
  let id := leAt body 2 2
  let flags := leAt body 64 1
  let adopt := flags.testBit 0
  let data := flags.testBit 1
  let c := Crew.ofWords (s.nextHeat id) 0x1FF ws
  let n := c.w * c.h
  let units := if data && n ≤ 64 then unitsOf h.compressed (220 * n) (body.drop 72) else some ([], [])
  match units with
  | none => (some (.at_ lfBadRecord), s)
  | some (bytes, rest) =>
    if body.length < 72 ∨ 4 ≤ flags ∨ (adopt ∧ data) ∨ leAt body 65 7 ≠ 0 ∨ !padOk rest ∨ (!data ∧ body.length ≠ 72) ∨
        (adopt ∧ !c.isPinned) ∨ (ws.zip descReadOnly).any fun (w, m) => w.toNat &&& m != 0 then
      (some (.at_ lfBadRecord), s)
    else
      match s.recordRefusal id ws c with
      | some code => (some (.crew code), s)
      | none =>
        let shared := !adopt && !data
        if shared && !s.sharesImage c then (some (.crew bcNoShare), s)
        else
          let saved := (c.savedState, granules n imageBytes)
          let areas := if shared then [saved]
            else [(c.planes, granules n planeBytes), (c.firstState, granules n imageBytes), saved, (c.emap, granules n mapBytes)]
          match (s.recordCrew id c).takeAreas (idHalf id) areas with
          | (some b, s) => (some b, s)
          | (none, s) =>
            let s := if data then s.recordData c bytes else s
            (none, s.modLoad fun l => { l with crews := l.crews ++ [(⟨id, adopt, data, []⟩ : LoadCrew)] })

/-! ## ESSENTIAL (R264) -/

def essentialAct (body : List Byte) (s : State) (h : ImgHdr) : Option LoadBad × State :=
  let id := leAt body 0 2
  let p := leAt body 2 1
  match unitOf h.compressed mapBytes (body.drop 8) with
  | none => (some (.at_ lfBadRecord), s)
  | some (map, rest) =>
    if leAt body 3 5 ≠ 0 ∨ !padOk rest then (some (.at_ lfBadRecord), s)
    else
      match if s.loader.crews.any fun e => e.id == id && (e.data || e.adopt) then s.crew id else none with
      | none => (some (.crew bcNoCrew), s)
      | some c =>
        if c.w * c.h ≤ p then (some (.crew bcNoCrew), s)
        else
          let s := s.putWhole (c.emap * granBytes + p * mapBytes) mapBytes (Tbl.putBytes [] 0 map)
          (none, s.modLoad fun l =>
            { l with crews := l.crews.map fun e => if e.id = id then { e with maps := p :: e.maps.erase p } else e })

/-! ## HALL (R265) -/

/-- A HALL write that the loader takes: not to a page that bars it, not to a register with a GO field (MB_CTRL has none),
not to a common header register but PG_IRQ_EN and PG_WORLD, not to a reserved offset. -/
def hallOk (off : Nat) : Bool :=
  let p := off / 0x1000
  let o := off % 0x1000
  let barred := match pageKind p with
    | .lcs | .sec | .cfg | .att | .sys => true
    | _ => false
  off % 4 == 0 && p < numPages && !barred &&
    if o < 0x40 then o == 0x14 || o == 0x1C
    else
      match regAt p o with
      | none => false
      | some r => r.kind != .goReg || State.isMbx p

/-- DESIGN CHOICE, unsafe: notes/assumptions/19. -/
def hallAct (body : List Byte) (s : State) (_h : ImgHdr) : Option LoadBad × State :=
  let ws := (List.range (body.length / 8)).map fun i => (leAt body (8 * i) 4, BitVec.ofNat 32 (leAt body (8 * i + 4) 4))
  if ws.isEmpty then (some (.at_ lfBadRecord), s)
  else if ws.all fun w => hallOk w.1 then (none, s.modLoad fun l => { l with hall := l.hall ++ ws })
  else (some (.at_ lfBadHall), s)

/-! ## The deadline (R245) and the cleanup (R273) -/

/-- The load's deadline expires; that of LOAD-HOST runs once the Data Link Layer is up. -/
def deadline (s : State) : State :=
  if s.devMode = mLoadHost ∧ !s.on pgHlk HLK_LINK_DL_UP then s else s.loadFail lfTruncated s.recordInHand 0 noPos

/-- Everything that a failed load made goes. -/
def cleanLoad (s : State) : State :=
  let s := s.loader.grans.foldl (fun s (h, a, n) => s.granDel h a n) s
  let s := (List.range 24).foldl (fun s k => (s.porchWr k PIN_PORCH_OWNER 0).porchWr k PIN_PORCH_ATTACHED 0) s
  { s with rooms := Tbl.keep s.rooms fun _ x => x.state == .retired, fabric := [], refs := [], crews := [], ids := [],
           wings := [], heatCopy := ⟨[], []⟩, porches := [] }

/-- The cleanup ends, and the next source starts. -/
def loadCleaned (s : State) : State :=
  match s.loader.cleaning with
  | none => s
  | some next =>
    let s := s.cleanLoad
    let s := s.wrs pgCfg [(CFG_PROGRESS_BYTES, 0), (CFG_FRAMES_WRITES, 0)]
    let fresh := Loader.fresh s.loader.boot
    match next with
    | .otherSlot => (s.modLoad fun _ => { fresh with second := true }).loadStart
    | .host => (s.modLoad fun _ => fresh).begin mLoadHost

end State

/-! ## The commands -/

/-- IMAGE_HEADER. -/
def execImageHeader (bytes : List Byte) (s : State) : Host.Outcome State Fault Refusal := .next (s.header bytes)

/-- GCM_SEGMENT. -/
def execGcmSegment (cipher tag : List Byte) (s : State) : Host.Outcome State Fault Refusal := .next (s.segment cipher tag)

/-- FRAME_RECORD. -/
def execFrameRecord (r : Rec) (s : State) : Host.Outcome State Fault Refusal :=
  .next (s.record rtFrame r (State.frameAct r.body))

/-- REPEAT_RECORD. -/
def execRepeatRecord (r : Rec) (s : State) : Host.Outcome State Fault Refusal :=
  .next (s.record rtRepeat r (State.repeatAct r.body))

/-- ZERO_RECORD. -/
def execZeroRecord (r : Rec) (s : State) : Host.Outcome State Fault Refusal :=
  .next (s.record rtZero r (State.zeroAct r.body))

/-- ESSENTIAL_RECORD. -/
def execEssentialRecord (r : Rec) (s : State) : Host.Outcome State Fault Refusal :=
  .next (s.record rtEssential r (State.essentialAct r.body))

/-- CREW_RECORD. -/
def execCrewRecord (r : Rec) (s : State) : Host.Outcome State Fault Refusal :=
  .next (s.record rtCrew r (State.crewAct r.body))

/-- HALL_RECORD. -/
def execHallRecord (r : Rec) (s : State) : Host.Outcome State Fault Refusal :=
  .next (s.record rtHall r (State.hallAct r.body))

/-- LOAD_DEADLINE_EXPIRY. -/
def execLoadDeadlineExpiry (s : State) : Host.Outcome State Fault Refusal := .next s.deadline

/-- LOAD_CLEANUP_DONE. -/
def execLoadCleanupDone (s : State) : Host.Outcome State Fault Refusal := .next s.loadCleaned

end Sys2Proof.Machine
end

