-- ==== Sys2Proof/Machine/LoadCmds.lean ====
section
/-! DEFINITION. The chain as a receiver sees it (R276 to R279), chunks of LOAD-HOST (R280, R281), the ATT page (R121, R247,
R249) and the start-up order (R282 to R285). -/

namespace Sys2Proof.Machine

namespace State

/-! ## Chain packets (R277 to R279) -/

/-- The words of the head packet of hatch 0x8FFF, whose notice the device itself takes: an uncorrectable one as read, and whether
there was one (Table 5.2). -/
def chainWords (s : State) (p : Packet) : (List Byte × Bool) × State :=
  let h := s.hatch chainHatch
  (List.range p.len).foldl
    (fun (acc : (List Byte × Bool) × State) i =>
      let a := h.buf * 0x1000 + (p.start + i) % h.ring * 64
      match acc.2.readBytes ueChain a 64 with
      | (some w, s) => ((acc.1.1 ++ w, acc.1.2), s)
      | (none, s) => ((acc.1.1 ++ (s.rawWord (a / 32)).take 32 ++ (s.rawWord (a / 32 + 1)).take 32, true), s)) (([], false), s)

/-- The device loads from the chain and its load is still under way. -/
def chainLoading (s : State) : Bool := s.chainLoad && s.devMode == mLoadLocal && s.loading

/-- The decision at IMAGE_START. -/
def chainDecide (s : State) (p : ChainPkt) : State :=
  match hdrCheck (p.bytes.take hdrBytes) none with
  | .error code =>
    let s := s.modChain fun c => { c with taking := false, withhold := false }
    if s.chainLoading && !s.chain.took then s.loadFail code 0 0 noPos else s
  | .ok h =>
    let mine := s.chainLoading && !s.chain.took && s.hdrMatches h
    s.modChain fun c =>
      { c with taking := mine, withhold := mine && h.exact, took := c.took || mine
               need := if mine then hdrBytes + h.payloadLen else c.need }

/-- The stream leaves the image taken before its end: the source has ended (Table 8.11). -/
def chainShort (s : State) : State :=
  if s.chainLoading && s.chain.took && s.chain.need != 0 then s.loadFail lfTruncated s.recordInHand 0 noPos else s

/-- END_OF_STREAM reaches a device that has taken no image (R278), or not the whole of one. -/
def chainNoImage (s : State) (last : Bool) : State :=
  if s.chainLoading && !s.chain.took then
    s.loadFail (if last && s.chain.rejected then lfWrongDevice else lfNoImage) 0 0 noPos
  else s.chainShort

/-- A packet that is not a duplicate is taken, and forwarded. -/
def chainTake (s : State) (p : ChainPkt) : State :=
  let s := s.modChain fun c => { c with got := some p.pkt.toNat }
  let s := if p.start then s.chainShort.chainDecide p else s
  let mine := s.chain.taking
  let s := if mine then s.modChain fun c => { c with need := c.need - p.bytes.length } else s
  let s := if mine && s.chainLoading then s.modLoad fun l => { l with stream := l.stream ++ p.bytes } else s
  let tk := p.taken || mine
  let last := s.chainNext.isNone
  let s :=
    if last then
      if p.start && !tk then (s.modChain fun c => { c with rejected := true }).bump pgCfg CFG_CHAIN_UNCLAIMED else s
    else if s.chain.ended then s
    else if !(mine && s.chain.withhold) then s.modChain fun c => { c with out := c.out ++ [{ p with taken := tk }] }
    else if p.eos then s.modChain fun c => { c with out := c.out ++ [(⟨0, 0, false, tk, true, []⟩ : ChainPkt)] }
    else s
  let s := if last && p.eos then s.chainClose else s
  let s := if p.eos then s.chainNoImage last else s
  s.chainPump.settleLoad

/-- The head packet of hatch 0x8FFF, where it is the one named. -/
def chainPacket (s : State) (p : ChainPkt) : State :=
  if !s.on pgCfg CFG_CHAIN_FORWARDING then s
  else
    match (s.hatch chainHatch).packets with
    | [] => s
    | pk :: _ =>
      let r := s.chainWords pk
      let bad := r.1.2
      if !bad && pktOf r.1.1 ≠ p then s
      else
        -- A packet with an uncorrectable word is forwarded as read (Table 5.2).
        let p := if bad then pktOf r.1.1 else p
        let s := r.2.modHatch chainHatch Hatch.pop
        let s := if bad && s.chainLoading then s.loadFail lfBadCheck s.recordInHand 3 noPos else s
        match s.chain.got with
        | some g => if p.pkt.toNat ≤ g then s.bump pgCfg CFG_CHAIN_DUPS else s.chainTake p
        | none => s.chainTake p

/-- The stream has stalled: sending stops and a deferred failure acts. DESIGN CHOICE, unsafe: notes/assumptions/28. -/
def chainStalled (s : State) : State :=
  if s.chain.ended then s
  else (s.modChain fun c => { c with ended := true, out := [], sending := none, again := false, feed := none }).settleLoad

/-! ## Chunks (R281) -/

def dmaRefuse (s : State) (reason : Nat) : State := s.wrs pgCfg [(CFG_DMA_CTRL_STATUS, 3), (CFG_DMA_CTRL_REASON, reason)]

/-- A GO in CFG.DMA_CTRL; a refusal changes nothing but the result word. -/
def dmaGo (s : State) : State :=
  if s.rd pgCfg CFG_DMA_CTRL_STATUS = 1 then s
  else
    let s := s.step1 pgCfg CFG_DMA_CTRL_SEQ
    let len := s.rd pgCfg CFG_DMA_LEN_LEN
    if s.devMode ≠ mLoadHost then s.dmaRefuse 1
    else if len = 0 ∨ len % 8 ≠ 0 then s.dmaRefuse 2
    else if !s.host.bme.contains 0 then s.dmaRefuse 3
    else if s.loader.done then s.dmaRefuse 4
    else
      let addr := s.rd pgCfg CFG_DMA_HI_ADDR * 2 ^ 32 + s.rd pgCfg CFG_DMA_LO_ADDR * 8
      { (s.modLoad fun l => { l with fixed := true }).wrs pgCfg [(CFG_DMA_CTRL_STATUS, 1), (CFG_DMA_CTRL_REASON, 0)] with
        chunk := len }.emit (.hostRead addr len)

/-- A chunk has been read, or its read has failed. DESIGN CHOICE, unsafe: notes/assumptions/28. -/
def dmaEnd (s : State) (ok : Bool) (bs : List Byte) : State :=
  if s.rd pgCfg CFG_DMA_CTRL_STATUS ≠ 1 then s
  else if !ok then (s.wr pgCfg CFG_DMA_CTRL_STATUS 0).loadFail lfHostRead s.recordInHand 0 noPos
  else if bs.length ≠ s.chunk then s
  else
    let s := if s.loading then s.modLoad fun l => { l with stream := l.stream ++ bs } else s
    (s.wr pgCfg CFG_DMA_CTRL_STATUS 2).raise pgCfg 0

/-- A write to CFG.DEADLINE. -/
def cfgDeadline (s : State) (ms : Nat) : State := if s.loader.fixed then s else s.wr pgCfg CFG_DEADLINE_MS ms

/-! ## The ATT page -/

/-- A write to ATT.BOOT goes to the boot record too; it acts from the next BOOT. -/
def attBoot (s : State) (v : Word) : State :=
  let s := s.store pgAtt 0x40 v
  { s with attic := { s.attic with boot := s.reg (pgAtt * 0x1000 + 0x40), bootOld := some s.attic.boot } }

/-- An issuer may copy a span of memory to the Attic (R249). -/
def progSource (s : State) (owner a n : Nat) : Bool :=
  (List.range ((a + n - 1) / frameBytes + 1 - a / frameBytes)).all fun i =>
    let f := a / frameBytes + i
    if owner = 0x101 then (s.regionOf f).isSome else s.hostReaches owner f false

/-- A GO in ATT.PROG_CTRL. DESIGN CHOICE, unsafe: notes/assumptions/29. -/
def progGo (s : State) (owner : Nat) : State :=
  if s.on pgAtt ATT_PROG_CTRL_BUSY then s
  else
    let src := s.rd pgAtt ATT_PROG_SRC_DPA
    let dst := s.rd pgAtt ATT_PROG_DST_OFFSET
    let len := s.rd pgAtt ATT_PROG_LEN_LEN
    let code (s : State) (n : Nat) : State := s.wrs pgAtt [(ATT_PROG_CTRL_CODE, n), (ATT_PROG_CTRL_DONE, 0)]
    if !inService s.devMode then code s 5
    else if len = 0 ∨ 0xF800 < dst + len then code s 1
    else if !s.progSource owner (src * 0x1000) (len * 0x1000) then code s 2
    else
      let s := (code (s.step1 pgAtt ATT_PROG_CTRL_SEQ) 0).wr pgAtt ATT_PROG_CTRL_BUSY 1
      { s with prog := some ⟨src, dst, len, owner⟩ }

/-- A copy ends: every unit, or `written` of them before one that does not match after three tries. What that unit then
holds is an open value. -/
def progEnd (s : State) (written : Nat) (verified : Bool) : State :=
  match s.prog with
  | none => s
  | some g =>
    let n := if verified then g.len else min written (g.len - 1)
    let (done, bad, s) := s.progCopy g n
    let s := if bad ∨ verified then s else s.progMix (g.dst + n)
    let code := if bad then 3 else if verified then 0 else 4
    ({ s with prog := none }.wrs pgAtt
      [(ATT_PROG_CTRL_CODE, code), (ATT_PROG_CTRL_DONE, done), (ATT_PROG_CTRL_BUSY, 0)]).raise pgAtt 0

/-- ATT.REC_CLEAR with a GO (R121). DESIGN CHOICE, unsafe: notes/assumptions/29. -/
def recGo (s : State) (secure : Bool) (which : Nat) : State :=
  if s.rd pgAtt ATT_REC_CLEAR_STATUS = 1 then s
  else
    let s := (s.step1 pgAtt ATT_REC_CLEAR_SEQ).wr pgAtt ATT_REC_CLEAR_WHICH which
    let refuse (n : Nat) : State := (s.wrs pgAtt [(ATT_REC_CLEAR_STATUS, 3), (ATT_REC_CLEAR_REASON, n)]).raise pgAtt 1
    if which % 4 = 0 then refuse 1
    else if s.lifeCycle ≠ lcRma then refuse 2
    else if !secure then refuse 3
    else if !(inService s.devMode || s.devMode == mTest) then refuse 4
    else { s with recClear := some (which % 4) }.wrs pgAtt [(ATT_REC_CLEAR_STATUS, 1), (ATT_REC_CLEAR_REASON, 0)]

def recClearBy (s : State) (m : Master) (which : Nat) : State :=
  s.goTo m pgAtt 0x60 (fun s => s.wr pgAtt ATT_REC_CLEAR_WHICH which)
    fun s => s.recGo (s.masterWorld m) which

/-- The erase of an accepted clear ends. -/
def recEnd (s : State) (ok : Bool) : State :=
  match s.recClear with
  | none => s
  | some w =>
    let s := { s with recClear := none }
    if ok then
      let s := { s with attic := { s.attic with rooms := if w.testBit 0 then [] else s.attic.rooms
                                                frames := if w.testBit 1 then [] else s.attic.frames } }
      (s.wrs pgAtt [(ATT_REC_CLEAR_STATUS, 2), (ATT_REC_CLEAR_REASON, 0)]).raise pgAtt 1
    else (s.wrs pgAtt [(ATT_REC_CLEAR_STATUS, 3), (ATT_REC_CLEAR_REASON, 5)]).raise pgAtt 1

/-! ## The start-up order (R282 to R285) -/

/-- The start-up step of a code is the one in hand. -/
def stepDue (s : State) (code : Nat) : Bool :=
  s.devMode == mStartup && s.seq.txn.isNone && s.phase == phStartup &&
    (orderSteps (s.rd pgCfg CFG_STAT_ORDER))[s.loader.stage]? == some code

/-- A step completes. -/
def stepEnd (s : State) (code : Nat) : State :=
  (s.modLoad fun l => { l with stage := l.stage + 1 }).wr pgCfg CFG_STAT_STEPS (s.rd pgCfg CFG_STAT_STEPS ||| 2 ^ code)

/-- A porch PLL, or the crystal oscillator, that a HALL write started is READY. -/
def startedReady (s : State) (w : Nat × Word) : Bool :=
  let p := w.1 / 0x1000
  let o := w.1 % 0x1000
  match pageKind p with
  | .clk =>
    if CLK_PPLL_EN.off ≤ o ∧ o < CLK_PPLL_EN.off + 48 then
      let i := (o - CLK_PPLL_EN.off) / 4
      !s.on p (CLK_PPLL_EN.at 4 i) || s.on p (CLK_PPLL_READY.at 4 i)
    else true
  | .cel => !(o == CEL_CTRL_XTAL_EN.off) || !s.on pgCel CEL_CTRL_XTAL_EN || s.on pgCel CEL_STAT_XTAL_READY
  | _ => true

/-- LOCK. -/
def lockStep (s : State) : State := if s.stepDue 0 && s.loader.hall.all s.startedReady then s.stepEnd 0 else s

/-- LOCK reaches its limit (R284). -/
def lockLate (s : State) : State :=
  if s.stepDue 0 then ((s.loadErr lfLockTimeout 0 0 noPos).wr pgCfg CFG_STAT_PHASE phFailed).haltBoth ecStartup else s

/-- IO; a boundary-scan test instruction keeps the pins (R420). -/
def ioStep (s : State) : State :=
  if s.stepDue 1 && s.pins.tap == .other then { s with pins := { s.pins with ioDone := true } }.stepEnd 1 else s

/-- The bits of one hold element as its Hn_INIT gives them; a bypassed element keeps 0 (R49, R70). -/
def initBits (mode init : Nat) : Nat := if mode = 0 then 0 else if init = 1 then 2 else if init = 2 then 3 else 0

/-- The state bits of a cell at GSR. -/
def initCell (s : State) (r cell : Nat) : Nat :=
  let w := (s.cellCfg r cell).word
  initBits (bits w 52 51) (bits w 56 55) + 4 * initBits (bits w 54 53) (bits w 58 57)

/-- GSR in one room: 2,048 cells, two to a byte. A latch that starts full presents its token from then on (R50). -/
def gsrRoom (s : State) (r : Nat) : State :=
  (s.clearWires [r]).setLive r 0 ((List.range 1024).map fun i => BitVec.ofNat 8 (s.initCell r (2 * i) + 16 * s.initCell r (2 * i + 1)))

/-- GSR. -/
def gsrStep (s : State) : State :=
  if s.stepDue 2 then
    let s := (s.rooms.filter fun e => e.2.state == .occupied).foldl (fun s e => s.gsrRoom e.1) s
    (s.modSeq fun q => { q with gsr := true }).stepEnd 2
  else s

/-- WE: the cupboard ports take the write requests that stalled at them (R66). -/
def weStep (s : State) : State :=
  if s.stepDue 3 then
    let s := s.modSeq fun q => { q with we := true }
    let late := s.blocks.filter fun e => e.1 % 32 < 8 && e.2.waiting.isSome && s.tokensMove (e.1 / 32)
    (late.foldl (fun s e => s.fireBlock (e.1 / 32) (e.1 % 32)) s).stepEnd 3
  else s

/-- The last step has ended: the run mode (Table 1.6). -/
def runEntry (s : State) : State :=
  if s.devMode == mStartup && s.seq.txn.isNone && s.phase == phStartup && s.loader.stage == 4 then
    let b := s.g2Blocked
    let s := s.wr pgG2c G2C_STAT_BLOCKED b
    if s.on pgG2c G2C_CTRL_EN && b == 0 then s.g2Reserve.begin mRunG2 else s.begin mRunNative
  else s

end State

/-! ## The commands -/

/-- CHAIN_PACKET. -/
def execChainPacket (p : ChainPkt) (s : State) : Host.Outcome State Fault Refusal := .next (s.chainPacket p)

/-- CHAIN_RESEND. -/
def execChainResend (s : State) : Host.Outcome State Fault Refusal := .next s.chainAgain

/-- CHAIN_STALL_EXPIRY. -/
def execChainStallExpiry (s : State) : Host.Outcome State Fault Refusal := .next s.chainStalled

/-- DMA_CHUNK. -/
def execDmaChunk (m : Master) (s : State) : Host.Outcome State Fault Refusal :=
  .next (s.goTo m pgCfg 0x5C (fun s => s) fun s => s.dmaGo)

/-- DMA_CHUNK_DONE. -/
def execDmaChunkDone (ok : Bool) (bytes : List Byte) (s : State) : Host.Outcome State Fault Refusal :=
  .next (s.dmaEnd ok bytes)

/-- CFG_DEADLINE_WRITE. -/
def execCfgDeadlineWrite (m : Master) (ms : BitVec 16) (s : State) : Host.Outcome State Fault Refusal :=
  .next (s.toPage m pgCfg 0x4C fun s => s.cfgDeadline ms.toNat)

/-- ATT_BOOT_WRITE. -/
def execAttBootWrite (m : Master) (v : Word) (s : State) : Host.Outcome State Fault Refusal :=
  .next (s.toPage m pgAtt 0x40 fun s => s.attBoot v)

/-- ATTIC_PROG. -/
def execAtticProg (m : Master) (s : State) : Host.Outcome State Fault Refusal :=
  .next (s.goTo m pgAtt 0x5C (fun s => s) fun s => s.progGo (ownerOf m))

/-- ATTIC_PROG_DONE. -/
def execAtticProgDone (written : BitVec 16) (verified : Bool) (s : State) : Host.Outcome State Fault Refusal :=
  .next (s.progEnd written.toNat verified)

/-- REC_CLEAR_ROOMS. -/
def execRecClearRooms (m : Master) (s : State) : Host.Outcome State Fault Refusal := .next (s.recClearBy m 1)

/-- REC_CLEAR_FRAMES. -/
def execRecClearFrames (m : Master) (s : State) : Host.Outcome State Fault Refusal := .next (s.recClearBy m 2)

/-- REC_CLEAR_BOTH. -/
def execRecClearBoth (m : Master) (s : State) : Host.Outcome State Fault Refusal := .next (s.recClearBy m 3)

/-- REC_CLEAR_DONE. -/
def execRecClearDone (ok : Bool) (s : State) : Host.Outcome State Fault Refusal := .next (s.recEnd ok)

/-- LOCK_STEP. -/
def execLockStep (s : State) : Host.Outcome State Fault Refusal := .next s.lockStep

/-- LOCK_TIMEOUT. -/
def execLockTimeout (s : State) : Host.Outcome State Fault Refusal := .next s.lockLate

/-- IO_STEP. -/
def execIoStep (s : State) : Host.Outcome State Fault Refusal := .next s.ioStep

/-- GSR_STEP. -/
def execGsrStep (s : State) : Host.Outcome State Fault Refusal := .next s.gsrStep

/-- WE_STEP. -/
def execWeStep (s : State) : Host.Outcome State Fault Refusal := .next s.weStep

/-- RUN_MODE_ENTRY. -/
def execRunModeEntry (s : State) : Host.Outcome State Fault Refusal := .next s.runEntry

end Sys2Proof.Machine
end

