-- ==== Sys2Proof/Machine/CourseCmds.lean ====
section
/-! DEFINITION. The commands of the Course (chapter 7): flits and link training, breaks, segments, replies, enumeration, the
map, joining and leaving. -/

namespace Sys2Proof.Machine

/-- A flit's TYPE (Table 7.1). -/
abbrev ftData : Nat := 0
abbrev ftNak : Nat := 2

namespace State

/-! ## Flits (R217, R218) -/

/-- The CRC passes and SEQ follows the last good flit. -/
def flitGood (s : State) (w : Bool) (f : Flit) : Bool :=
  f.crc == crc32c (flitBody f) && f.seq.toNat == ((s.cLink w).rxSeq + 1) % 1024

/-- A NAK is acted on: the flits after the one acknowledged go again; the eighth in a row that names one SEQ retrains
the link (R219). -/
def nakIn (s : State) (w : Bool) (ack : Nat) : State :=
  if s.linkState w ≠ 2 then s
  else
    let s := s.bump pgCrs (if w then CRS_LINK_W_REPLAYS else CRS_LINK_E_REPLAYS)
    let l := s.cLink w
    let run := if l.nakRun ≠ 0 ∧ l.nakAck = ack then l.nakRun + 1 else 1
    let s := s.modLink w fun l => { l with replay := unackedAfter ack l.replay, nakAck := ack, nakRun := run % 8 }
    if run = 8 then s.linkTrain w else (s.cLink w).replay.foldl (fun s f => s.emit (.flit w f)) s

/-- A flit comes in. -/
def flitIn (s : State) (w : Bool) (f : Flit) : State :=
  if s.linkState w ≠ 2 then s
  else if !s.flitGood w f then s.sendFlit w ftNak []
  else
    let s := s.modLink w fun l =>
      { l with rxSeq := f.seq.toNat, replay := unackedAfter f.ack.toNat l.replay, credit := l.credit + f.cred.toNat,
               held := l.held + bit (f.typ.toNat == ftData), nakRun := if f.typ.toNat = ftNak then l.nakRun else 0 }
    if f.typ.toNat = ftNak then s.nakIn w f.ack.toNat
    else
      let t := s.pumpAll w
      if f.typ.toNat = ftData ∧ (t.cLink w).txSeq = (s.cLink w).txSeq then t.sendIdle w else t

/-! ## Training, breaks (R219, R240, R241, R399) -/

/-- CRS.LANE ends; its port is no longer held. -/
def laneEnd (s : State) (w ok : Bool) : State :=
  if s.course.lane = some w then
    ((s.modCourse fun c => { c with lane := none }).wrs pgCrs
      [(CRS_LANE_STATUS, if ok then 2 else 3), (CRS_LANE_REASON, if ok then 0 else 6)]).unhold s.follower
  else s

def linkLost (s : State) (w : Bool) : State := if s.linkState w = 2 then s.linkTrain w else s

/-- A retrain fails, at a time in µs. The third within 1 s ends retraining at once. -/
def retrainFail (s : State) (w : Bool) (now : Nat) : State :=
  if s.linkState w ≠ 1 ∧ s.linkState w ≠ 3 then s
  else
    let l := now :: (s.cLink w).fails.filter fun t => now < t + 1000000
    let slow := (s.cLink w).slow || decide (3 ≤ l.length)
    let s := s.modLink w fun x => { x with fails := l, slow }
    let s := if slow then s else s.bump pgCrs (if w then CRS_LINK_W_RETRAINS else CRS_LINK_E_RETRAINS)
    s.laneEnd w false

/-- After three failed retrains within 1 s the port tries again once every 1 ms. -/
def trainRetry (s : State) (w : Bool) : State :=
  if (s.cLink w).slow ∧ (s.linkState w = 1 ∨ s.linkState w = 3) then
    s.bump pgCrs (if w then CRS_LINK_W_RETRAINS else CRS_LINK_E_RETRAINS)
  else s

/-- A link trains on the lanes that both ports offer. -/
def linkTrained (s : State) (w : Bool) (lanes serial : Nat) : State :=
  let lanes := lanes &&& (s.cLink w).offers
  let s := s.linkUp w lanes serial
  if s.linkState w = 2 then
    let s := s.laneEnd w true
    (if s.devMode = mLoadLocal then s.openChain else s).chainStart
  else s

/-- A link has not been up for BREAK_HOLD. DEDUCED, unsafe: notes/assumptions/12. -/
def linkIsDown (s : State) (w : Bool) : State :=
  if s.linkState w ≠ 1 then s
  else
    let s := s.setLink w 3 0
    if s.hasRingId then
      (s.sendCtl sgBreak (!w) [s.linkPos w]).setDown (s.linkPos w :: s.course.down.erase (s.linkPos w))
    else s

def breakIn (s : State) (pos : Nat) : State := if s.hasRingId then s.setDown (pos :: s.course.down.erase pos) else s
/-- DEDUCED, unsafe: notes/assumptions/13. -/
def healIn (s : State) (pos : Nat) : State := if s.hasRingId then s.setDown (s.course.down.erase pos) else s

/-! ## Segments (R229, R233, R234) -/

/-- The segment with its HOPS and AGE after this member; a CRC that failed keeps failing. -/
def onward (g : Segment) (res : Nat) : Segment :=
  let n : Segment := { g with hops := g.hops + 1, age := BitVec.ofNat 16 (g.age.toNat + res + 1) }
  { n with crc := segSum n ^^^ segSum g ^^^ g.crc }

/-- The flits of a segment leave the receive buffers of the port that its ring comes in by. -/
def unbuffer (s : State) (g : Segment) : State := s.freeBuffers (!g.ringB) (g.seglen.toNat + 1)

/-- A segment for another device passes through. A device in RELAY without a ring ID is no member: it counts no hop and knows no
map, and forwards (R214, R229, Table 7.2). DEDUCED, unsafe: notes/assumptions/13. -/
def forward (s : State) (g : Segment) (res : Nat) : State :=
  let t := g.typ.toNat
  let member := s.hasRingId
  if s.crsState < csRelay || (member && !g.bcast && g.dst.toNat == s.ringId) then s
  else if t = 0 ∨ sgHeal < t ∨ (member ∧ t ≤ sgBusy ∧ (s.member g.dst.toNat).isNone) then
    (s.bump pgCrs CRS_DROPS_NO_DEST).unbuffer g
  else if member ∧ (ageEnd ≤ g.age.toNat + res + 1 ∨ (t = sgData ∧ s.ringSize ≤ g.hops.toNat + 1)) then
    (s.bump pgCrs CRS_DROPS_AGED).unbuffer g
  else if s.linkState g.ringB = 3 then (s.bump pgCrs CRS_DROPS_NO_DEST).unbuffer g
  else s.putSeg true (if member then onward g res else g)

/-- A segment is addressed to this device. -/
def mine (s : State) (g : Segment) : Bool := csRelay ≤ s.crsState && s.hasRingId && !g.bcast && g.dst.toNat == s.ringId

/-- A segment for this device arrives; in STANDBY a DATA segment wakes it. -/
def segmentIn (s : State) (g : Segment) : State :=
  if !s.mine g then s
  else if ageEnd ≤ g.age.toNat ∨ (g.typ.toNat = sgData ∧ s.ringSize ≤ g.hops.toNat) then
    (s.bump pgCrs CRS_DROPS_AGED).unbuffer g
  else
    let s := (s.unbuffer g).arriveAny g (s.devMode == mStandby)
    if g.typ.toNat = sgData then s.wakeSource 4 else s

/-- A message that waits for its hatch is presented again. -/
def presentAgain (s : State) (src tag : Nat) : State :=
  match s.inMsg src tag with
  | none => s
  | some m =>
    if !inDone m || s.devMode == mStandby then s
    else if s.crsState != csMember then (s.dropIn src tag).reply m.first sgRefuse cfNotServing
    else if s.inTurn m then s.present m else s

/-- A message in the ingress store reaches the end of its age. -/
def ingressAged (s : State) (src tag : Nat) : State :=
  match s.inMsg src tag with
  | none => s
  | some m =>
    let s := s.dropIn src tag
    if inDone m then s.reply m.first sgRefuse cfExpired else s

/-! ## At the source (R230, R233) -/

/-- A reply of a type reaches the source; a chain packet's reply moves the chain on (R276). -/
def replyIn (s : State) (g : Segment) (typ : Nat) : State :=
  if !s.mine g || g.typ.toNat != typ || g.crc != segSum g then s
  else
    let held := (s.outMsg g.tag.toNat g.tagHeat.toNat g.src.toNat).isSome
    let s := s.onReply g
    let s := if held && typ == sgAccept then s.chainAccepted g.tag.toNat
      else if held && typ == sgRefuse then s.chainRefused g.tag.toNat
      else s
    s.settleLoad

/-- A message held fails. -/
def outFails (s : State) (m : OutMsg) (code : Nat) : State :=
  ((s.dropOut m.tag).crsFail code m.dst m.crew m.cheat).chainRefused m.tag

def msgOf (s : State) (tag : Nat) : Option OutMsg := s.course.egress.find? fun m => m.tag == tag

/-- RETRY_GAP is over: the message goes again, with its age, tag and heat, on the ring that R215 gives now. -/
def resend (s : State) (tag : Nat) : State :=
  match (s.msgOf tag).filter (·.busy) with
  | none => s
  | some m =>
    match s.wayTo m.dst with
    | .inl code => s.outFails m code
    | .inr b =>
      let m := { m with ringB := b, busy := false }
      (s.modCourse fun c => { c with egress := c.egress.map fun x => if x.tag = tag then m else x }).emitMsg m

/-- 512 µs pass without an answer. -/
def outExpires (s : State) (tag : Nat) : State :=
  match s.msgOf tag with
  | none => s
  | some m => s.outFails m cfExpired

/-! ## The map (R223 to R227) -/

/-- After a change of the map the chain hatch opens and the bow may begin its stream. -/
def mapped (s : State) : State := ((if s.devMode = mLoadLocal then s.openChain else s).chainStart).settleLoad

/-- A bow that has seen no beacon enumerates. -/
def mapWait (s : State) : State :=
  if s.crsState = csRelay ∧ s.on pgCrs CRS_ID_BOW ∧ !s.course.sawMap ∧ !s.hasRingId ∧ !s.course.twoBows ∧ s.course.enum = 0 then
    s.enumerate
  else s

/-- No token returns. -/
def enumLate (s : State) : State :=
  if s.course.enum = 0 then s
  else (s.clearRing.modCourse fun c => { c with enum := 0, failed := true }).pgErr pgCrs 0x33 0

def enumAgain (s : State) : State := if s.course.failed ∧ s.course.enum = 0 ∧ !s.course.twoBows then s.enumerate else s

/-- A beacon interval: the member with the lowest ID is, or becomes, the acting bow (R226). -/
def beacon (s : State) : State :=
  if s.portOpen && s.lowestHere && s.course.enum == 0 && !s.course.map.isEmpty then
    let s := if s.on pgCrs CRS_ID_ACTING then s else s.becomeBow
    s.broadcast sgMap s.mapWords
  else s

/-! ## CRS.REQ (R239) -/

/-- A GO in CRS.REQ with an OP; a request under way goes on. -/
def crsReq (s : State) (op : Nat) : State :=
  if s.rd pgCrs CRS_REQ_STATUS = 1 then s
  else if op = 1 ∧ s.crsState = csMember then
    ((s.wr pgCrs CRS_REQ_STATUS 1).modCourse fun c => { c with leaving := true }).broadcast sgLeave [s.ringId]
  else if op = 2 ∧ s.crsState = csBypass ∧ s.course.left ∧ inService s.devMode then
    ((s.wr pgCrs CRS_REQ_STATUS 1).modCourse fun c => { c with left := false, joining := true, sawMap := false }).openPorts
  else s.crsReqEnd false

def crsReqBy (s : State) (m : Master) (op : Nat) : State :=
  s.goTo m pgCrs 0x6C (fun s => s.wr pgCrs CRS_REQ_OP op) fun s => s.crsReq op

/-- Every flit held on a link goes (R239, step 4). -/
def drain (s : State) (w : Bool) : State := s.pump w true (waitingFlits (s.cLink w))

/-- The egress store is empty, or 512 µs have passed: what is left in it expires, every flit held is forwarded, and the
switches close. DEDUCED, unsafe: notes/assumptions/13. -/
def leaveEnd (s : State) : State :=
  if !s.course.leaving then s
  else
    let s := s.course.egress.foldl (fun s m => s.outFails m cfExpired) s
    let s := (s.drain false).drain true
    let fresh (l : CLink) : CLink := { CLink.fresh with offers := l.offers }
    let s := s.modCourse fun c =>
      { c with leaving := false, left := true, down := [], ingress := [], east := fresh c.east, west := fresh c.west }
    (s.closePorts.wr pgCrs CRS_RING_BREAKS 0).crsReqEnd true

end State

/-! ## The commands -/

/-- LINK_FLIT. -/
def execLinkFlit (westPort : Bool) (f : Flit) (s : State) : Host.Outcome State Fault Refusal := .next (s.flitIn westPort f)

/-- LINK_NAK. -/
def execLinkNak (westPort : Bool) (ack : BitVec 10) (s : State) : Host.Outcome State Fault Refusal :=
  .next (s.nakIn westPort ack.toNat)

/-- LINK_RETRAIN. -/
def execLinkRetrain (westPort : Bool) (s : State) : Host.Outcome State Fault Refusal := .next (s.linkLost westPort)

/-- LINK_TRAIN_RETRY. -/
def execLinkTrainRetry (westPort : Bool) (s : State) : Host.Outcome State Fault Refusal := .next (s.trainRetry westPort)

/-- COURSE_LINK_TRAINED. -/
def execCourseLinkTrained (westPort : Bool) (lanes : BitVec 2) (serial : Nat) (s : State) :
    Host.Outcome State Fault Refusal := .next (s.linkTrained westPort lanes.toNat serial)

/-- COURSE_RETRAIN_FAIL. -/
def execCourseRetrainFail (westPort : Bool) (s : State) (now : BitVec 64 := 0) : Host.Outcome State Fault Refusal :=
  .next (s.retrainFail westPort now.toNat)

/-- LINK_DOWN. -/
def execLinkDown (westPort : Bool) (s : State) : Host.Outcome State Fault Refusal := .next (s.linkIsDown westPort)

/-- BREAK. -/
def execBreakLink (pos : BitVec 10) (s : State) : Host.Outcome State Fault Refusal := .next (s.breakIn pos.toNat)

/-- HEAL. -/
def execHeal (pos : BitVec 10) (s : State) : Host.Outcome State Fault Refusal := .next (s.healIn pos.toNat)

/-- SEGMENT_FORWARD. -/
def execSegmentForward (g : Segment) (residence : BitVec 16) (s : State) : Host.Outcome State Fault Refusal :=
  .next (s.forward g residence.toNat)

/-- SEGMENT_ARRIVAL. -/
def execSegmentArrival (g : Segment) (s : State) : Host.Outcome State Fault Refusal := .next (s.segmentIn g)

/-- COURSE_REPRESENT. -/
def execCourseRepresent (src : BitVec 10) (tag : BitVec 16) (s : State) : Host.Outcome State Fault Refusal :=
  .next (s.presentAgain src.toNat tag.toNat)

/-- INGRESS_AGE_EXPIRY. -/
def execIngressAgeExpiry (src : BitVec 10) (tag : BitVec 16) (s : State) : Host.Outcome State Fault Refusal :=
  .next (s.ingressAged src.toNat tag.toNat)

/-- ACCEPT. -/
def execAccept (g : Segment) (s : State) : Host.Outcome State Fault Refusal := .next (s.replyIn g sgAccept)

/-- REFUSE. -/
def execRefuse (g : Segment) (s : State) : Host.Outcome State Fault Refusal := .next (s.replyIn g sgRefuse)

/-- BUSY. -/
def execBusy (g : Segment) (s : State) : Host.Outcome State Fault Refusal := .next (s.replyIn g sgBusy)

/-- BUSY_RESEND. -/
def execBusyResend (tag : BitVec 16) (s : State) : Host.Outcome State Fault Refusal := .next (s.resend tag.toNat)

/-- MESSAGE_EXPIRY. -/
def execMessageExpiry (tag : BitVec 16) (s : State) : Host.Outcome State Fault Refusal := .next (s.outExpires tag.toNat)

/-- RING_TAG_COOLING_EXPIRY. -/
def execRingTagCoolingExpiry (tag : BitVec 16) (s : State) : Host.Outcome State Fault Refusal :=
  .next (s.modCourse fun c => { c with tags := Tbl.mod c.tags tag.toNat fun r => { r with cooling := false } })

/-- ENUM. -/
def execEnum (counter : BitVec 11) (serial : Nat) (dist : BitVec 10) (ringB : Bool) (s : State) (taken : List Nat := []) :
    Host.Outcome State Fault Refusal := .next (s.enumIn counter.toNat serial dist.toNat ringB taken).mapped

/-- MAP. -/
def execMapBeaconIn (members : List Member) (s : State) : Host.Outcome State Fault Refusal := .next (s.mapIn members).mapped

/-- MAP_WAIT_EXPIRY. -/
def execMapWaitExpiry (s : State) : Host.Outcome State Fault Refusal := .next s.mapWait

/-- ENUM_TIMEOUT. -/
def execEnumTimeout (s : State) : Host.Outcome State Fault Refusal := .next s.enumLate

/-- ENUM_RETRY. -/
def execEnumRetry (s : State) : Host.Outcome State Fault Refusal := .next s.enumAgain

/-- MAP_BEACON. -/
def execMapBeacon (s : State) : Host.Outcome State Fault Refusal := .next s.beacon

/-- JOIN. -/
def execJoin (serial : Nat) (pos : BitVec 10) (s : State) : Host.Outcome State Fault Refusal :=
  .next (s.joinIn serial pos.toNat)

/-- LEAVE. -/
def execLeave (id : BitVec 10) (s : State) : Host.Outcome State Fault Refusal :=
  .next (if s.hasRingId && s.ringId == id.toNat then s else s.memberGone id.toNat)

/-- REQ_LEAVE. -/
def execReqLeave (m : Master) (s : State) : Host.Outcome State Fault Refusal := .next (s.crsReqBy m 1)

/-- REQ_JOIN. -/
def execReqJoin (m : Master) (s : State) : Host.Outcome State Fault Refusal := .next (s.crsReqBy m 2)

/-- LEAVE_DRAIN_END. -/
def execLeaveDrainEnd (s : State) : Host.Outcome State Fault Refusal := .next s.leaveEnd

/-- RING_ID_HOLD_EXPIRY. -/
def execRingIdHoldExpiry (id : BitVec 10) (s : State) (bar : Bool := false) : Host.Outcome State Fault Refusal :=
  .next (s.holdOver id.toNat bar)

end Sys2Proof.Machine
end

