-- ==== Sys2Proof/Machine/G2Cmds.lean ====
section
/-! DEFINITION. The commands of RUN-G2 (chapter 9): the configuration, the calibration, the host port and the register
file. -/

namespace Sys2Proof.Machine

namespace State

/-- The host port serves an access: the block serves, and the pins that the access uses carry function 7 (Table 9.2).
DESIGN CHOICE, unsafe: notes/assumptions/31. -/
def hostPort (s : State) (write : Bool) : Bool :=
  s.g2Serves && s.pinsAre 7 (List.range 15 ++ [if write then 16 else 15])

/-- A host-port write: gating is judged as the access arrives, and WAKE_EN[1] acts on any access (R311, R312). -/
def portWrite (s : State) (n v : Nat) : State :=
  if s.hostPort true then
    let shut := s.g2Shut n
    let s := s.g2PortWake
    let s := if shut then s.g2GatedAcc else s.g2Write n v
    s.emit (.g2Strobe s.strobeOverlay none)
  else s

/-- A host-port read. -/
def portRead (s : State) (n : Nat) : State :=
  if s.hostPort false then
    let r := s.g2Read n
    let s := r.2.g2PortWake
    s.emit (.g2Strobe s.strobeOverlay (some (BitVec.ofNat 8 r.1)))
  else s

/-- A write through G2C.REGn. -/
def regWrite (s : State) (m : Master) (n v : Nat) : State :=
  s.toPage m pgG2c (0x100 + 4 * n) fun s => s.g2Write n v

/-- The design writes a USER register while it runs. -/
def userWrite (s : State) (n v : Nat) : State := if s.g2Runs then s.g2Put (0x10 + n) v else s

/-- Other accesses of the same SCLK cycle follow a host-port access: those through G2C.REGn, then the design's (R308). -/
def g2With (s : State) (also : List G2Also) : State :=
  let s := also.foldl (fun s x => match x with
    | .reg m n v => s.regWrite m n.toNat v.toNat
    | .user _ _ => s) s
  also.foldl (fun s x => match x with
    | .reg _ _ _ => s
    | .user n v => s.userWrite n.toNat v.toNat) s

/-- A write of PWR.MODE, by the host port or through BAR0. -/
def powerWrite (s : State) (m : Option Master) (v : Nat) : State :=
  match m with
  | none => s.portWrite 4 v
  | some m => s.regWrite m 4 v

end State

/-- PROG_N_LOW. -/
def execProgNLow (s : State) : Host.Outcome State Fault Refusal :=
  .next (let s := s.pinChange 35 false
         if s.pinsAre 8 [35] then s.g2Prog else s)

/-- G2_PROG. -/
def execG2Prog (m : Master) (s : State) : Host.Outcome State Fault Refusal :=
  .next (s.toPage m pgG2c 0x40 State.g2Prog)

/-- G2_CLEAR_DONE. -/
def execG2ClearDone (s : State) : Host.Outcome State Fault Refusal := .next s.g2Cleared

/-- G2_SYNC. -/
def execG2Sync (s : State) : Host.Outcome State Fault Refusal :=
  .next (if s.g2Serves && s.g2State == gsWait && !s.g2.src && s.pinsAre 8 [32, 33] then
    s.wr pgG2c G2C_STAT_STATE gsReceiving else s)

/-- G2_STREAM_HEADER. -/
def execG2StreamHeader (devId fmt : Byte) (nframes : BitVec 16) (resv : Word) (s : State) :
    Host.Outcome State Fault Refusal := .next (s.g2Header devId fmt nframes.toNat resv)

/-- G2_FRAME. -/
def execG2Frame (faddr : BitVec 16) (data : List Byte) (s : State) : Host.Outcome State Fault Refusal :=
  .next (s.g2FrameIn faddr.toNat data)

/-- G2_CRC. -/
def execG2Crc (crc : BitVec 16) (s : State) : Host.Outcome State Fault Refusal := .next (s.g2CrcIn crc.toNat)

/-- G2_START_DONE. -/
def execG2StartDone (s : State) : Host.Outcome State Fault Refusal := .next s.g2Start

/-- G2_CALIBRATION. -/
def execG2Calibration (s : State) : Host.Outcome State Fault Refusal :=
  .next (if s.g2Serves && s.on pgG2c G2C_CTRL_RECAL_EN then { s with g2 := { s.g2 with calRun := true } } else s)

/-- G2_CALIBRATION_DONE. -/
def execG2CalibrationDone (count : Nat) (s : State) : Host.Outcome State Fault Refusal := .next (s.g2Calibrated count)

/-- G2_HOST_READ. -/
def execG2HostRead (addr : BitVec 6) (s : State) (also : List G2Also := []) : Host.Outcome State Fault Refusal :=
  .next ((s.portRead addr.toNat).g2With also)

/-- G2_HOST_WRITE. -/
def execG2HostWrite (addr : BitVec 6) (v : Byte) (s : State) (also : List G2Also := []) : Host.Outcome State Fault Refusal :=
  .next ((s.portWrite addr.toNat v.toNat).g2With also)

/-- G2C_REG_WRITE. -/
def execG2cRegWrite (m : Master) (addr : BitVec 6) (v : Byte) (s : State) (also : List G2Also := []) :
    Host.Outcome State Fault Refusal := .next ((s.regWrite m addr.toNat v.toNat).g2With also)

/-- G2_USER_WRITE. -/
def execG2UserWrite (n : BitVec 4) (v : Byte) (s : State) : Host.Outcome State Fault Refusal :=
  .next (s.userWrite n.toNat v.toNat)

/-- G2_SLEEP. -/
def execG2Sleep (m : Option Master) (s : State) : Host.Outcome State Fault Refusal := .next (s.powerWrite m 1)

/-- G2_DEEP_SLEEP. -/
def execG2DeepSleep (m : Option Master) (s : State) : Host.Outcome State Fault Refusal := .next (s.powerWrite m 2)

/-- G2_RUN. -/
def execG2Run (m : Option Master) (s : State) : Host.Outcome State Fault Refusal := .next (s.powerWrite m 0)

/-- G2_TIMER_EXPIRY. -/
def execG2TimerExpiry (s : State) : Host.Outcome State Fault Refusal := .next s.g2TimerEnds

/-- CCLK_FALLING_EDGE. -/
def execCclkFallingEdge (din : Bool) (s : State) : Host.Outcome State Fault Refusal :=
  .next (if s.g2Serves && (s.g2State == gsStarting || s.g2State == gsConfigured) && !s.g2.src && s.pinsAre 8 [32, 33] then
    { s with g2 := { s.g2 with dout := din } } else s)

/-- DESIGN_INTERRUPT_REQUEST. -/
def execDesignInterruptRequest (bits : BitVec 7) (s : State) : Host.Outcome State Fault Refusal :=
  .next (if s.g2Runs then s.g2Put 6 (s.g2Raw 6 ||| bits.toNat * 2) else s)

end Sys2Proof.Machine
end

