-- ==== Sys2Proof/Machine/Upkeep.lean ====
section
/-! DEFINITION. Self-test slices, the configuration scrubber and the live-upkeep operations (chapter 12). -/

namespace Sys2Proof.Machine

/-! REASONs of Table 12.6. -/

abbrev urBadArg : Nat := 1
abbrev urStandby : Nat := 2
abbrev urOrphaned : Nat := 3
abbrev urInUse : Nat := 4
abbrev urWorld : Nat := 5
abbrev urFailed : Nat := 6
abbrev urLifecycle : Nat := 7
abbrev urNotFree : Nat := 8

/-! The five control words of Table 12.6. -/

def gBst : GoFlds := ⟨BST_REQ_STATUS, BST_REQ_SEQ, BST_REQ_REASON⟩
def gCox : GoFlds := ⟨SYS_COX_UPD_STATUS, SYS_COX_UPD_SEQ, SYS_COX_UPD_REASON⟩
def gMem : GoFlds := ⟨MEM_RETRAIN_STATUS, MEM_RETRAIN_SEQ, MEM_RETRAIN_REASON⟩
def gLane : GoFlds := ⟨CRS_LANE_STATUS, CRS_LANE_SEQ, CRS_LANE_REASON⟩
def gReeq : GoFlds := ⟨HLK_REEQ_STATUS, HLK_REEQ_SEQ, HLK_REEQ_REASON⟩

namespace State

/-- Why a live-upkeep operation is refused by the device's state (R395, R31); 0 where it is not. -/
def upkeepBar (s : State) : Nat :=
  if s.seq.standby != .none then urStandby else if s.orphan .east || s.orphan .west then urOrphaned else 0

/-- A control word of Table 12.6 is written with GO: ARG is stored, and unless BUSY, SEQ advances and the operation starts.
DEDUCED, unsafe: notes/assumptions/22. -/
def upkeepGo (s : State) (m : Master) (p : Nat) (g : GoFlds) (argF : Fld) (arg : Nat) (op : State → State) : State :=
  s.goTo m p argF.off (fun s => s.wr p argF arg) fun s =>
    if s.rd p g.status = 1 then s else op (s.goBusy p g)

/-! ## Slices (R379 to R386) -/

def modTest (s : State) (h : Half) (f : SelfTest → SelfTest) : State :=
  { s with selfTest := s.selfTest.set h (f (s.selfTest.get h)) }

/-- The parts that PARTS selects. -/
def testParts (s : State) (h : Half) : Nat :=
  let p := s.rd (pgBst h) BST_CTRL_PARTS
  if p = 0 then 0xF else p

/-- Slices that a half may run at once. -/
def maxSlices (s : State) (h : Half) : Nat := min 8 (max 1 (s.rd (pgBst h) BST_CTRL_MAX_SLICES))

/-- The half whose governor's readings bound a half's slices (R350, R353). -/
def governor (s : State) (h : Half) : Half := if s.orphan h then h else s.leader

/-- A slice may start in a half (R380, R352), but for the choice of a room. The time since the last start is not
counted. DESIGN CHOICE, unsafe: notes/assumptions/23. -/
def sliceMay (s : State) (h : Half) : Bool :=
  let g := s.governor h
  inService (s.mode h) && (s.seq.standby == .none || s.seq.standby == .accepted) &&
    (s.slices h).length < s.maxSlices h && s.govCount h .holdSlices == 0 && s.gateOpen h .bst &&
    s.rd (pgPwr g) PWR_GOV_STAT_POWER_W + 1 + s.rd (pgPwr g) PWR_CAP_HYST_W ≤ s.capW g

/-- No slice is under way in the wing of a room. -/
def wingSpare (s : State) (r : Nat) : Bool := !(s.slices (roomHalf r)).any fun x => wingOf x.room == wingOf r

/-- A room that no crew holds, FREE or WITHDRAWN. -/
def roomIdle (s : State) (r : Nat) : Bool :=
  let x := s.room r
  x.state == .free || (x.state == .withdrawn && x.crew == 0)

/-- The rooms of a half in ascending order. -/
def halfRooms (h : Half) : List Nat :=
  ((List.range 2048).filter fun i => i % 256 < 192).map fun i => 2048 * halfBit h + i

/-- Periodic and WITHDRAWN slices run (Table 12.2). -/
def sliceLife (s : State) : Bool := s.lifeCycle == lcDev || s.lifeCycle == lcProd

/-- A slice's step 1: the room is LENT and isolated, and a preload in it is gone (R379, R382). -/
def sliceTake (s : State) (h : Half) (r : Nat) : State :=
  let st := s.selfTest.get h
  let evict := match st.req with
    | some (q, e) => if q = r then some e else none
    | none => none
  let x : Slice := ⟨r, s.testParts h, (s.room r).failAs, evict.isSome, evict.getD false⟩
  let s := s.modRoom r fun y =>
    { y with state := .lent, svalid := false, edgeN := .isolate, edgeE := .isolate, edgeS := .isolate, edgeW := .isolate }
  s.modTest h fun t => { t with slices := t.slices ++ [x], req := if evict.isSome then none else t.req }

/-- A round ends (R385). -/
def roundEnd (s : State) (h : Half) : State :=
  let t := s.selfTest.get h
  let s := (s.step1 (pgBst h) BST_ROUND_ROUNDS).wrs (pgBst h) [(BST_ROUND_TESTED, t.tested), (BST_ROUND_SKIPPED, t.skipped)]
  s.modTest h fun t => { t with next := 0, tested := 0, skipped := 0 }

/-- A room is visited by a round (R385). -/
def visited (s : State) (r : Nat) : Bool :=
  let x := s.room r
  x.state != .retired && x.state != .g2

/-- The periodic round goes on over the rooms left in it, up to the next room that it can test. -/
def roundStep (s : State) (h : Half) : List Nat → State
  | [] => s.roundEnd h
  | r :: rest =>
    let x := s.room r
    if x.state = .free ∧ !x.svalid then
      if s.wingSpare r then
        let s := (s.modTest h fun t => { t with next := r + 1, tested := t.tested + 1 }).sliceTake h r
        if rest.isEmpty then s.roundEnd h else s
      else s.modTest h fun t => { t with next := r }
    else (s.modTest h fun t => { t with skipped := t.skipped + 1 }).roundStep h rest

/-- The round goes on; where that ends it with no slice, the next round begins, and takes its first room if it can. -/
def roundGo (s : State) (h : Half) : State :=
  let scan (s : State) : State := s.roundStep h ((halfRooms h).filter fun r => (s.selfTest.get h).next ≤ r && s.visited r)
  let s1 := scan s
  if (s.slices h).length < (s1.slices h).length then s1
  else
    let s2 := scan s1
    if (s.slices h).length < (s2.slices h).length then s2 else s1

/-- BST.REQ ends: its event, and the hold of a request that evicted. -/
def bstEnd (s : State) (h : Half) (evict : Bool) (reason : Nat) : State :=
  let p := pgBst h
  let s := (if reason = 0 then s.goDone p gBst else s.goRefused p gBst reason).raise p 2
  if evict then s.unhold h else s

/-- A room that BST.REQ waits for has been retired meanwhile. -/
def reqGone (s : State) (h : Half) : State :=
  match (s.selfTest.get h).req with
  | some (r, e) =>
    if (s.room r).state = .retired then (s.modTest h fun t => { t with req := none }).bstEnd h e urNotFree else s
  | none => s

/-- The engine starts a slice if it may, on the room that R381 gives. DESIGN CHOICE, unsafe: notes/assumptions/23. -/
def sliceStart (s : State) (h : Half) : State :=
  let s := s.reqGone h
  if !s.sliceMay h then s
  else
    let drawn := if s.sliceLife then
        (halfRooms h).find? fun r => (s.room r).state == .withdrawn && s.roomIdle r && s.wingSpare r
      else none
    let asked := match (s.selfTest.get h).req with
      | some (r, _) => if s.roomIdle r && s.wingSpare r then some r else none
      | none => none
    match drawn, asked with
    | some r, _ => s.sliceTake h r
    | none, some r => s.sliceTake h r
    | none, none =>
      if s.on (pgBst h) BST_CTRL_PERIODIC && s.sliceLife then
        s.roundGo h
      else s

/-- A slice's steps 7 and 8: the room is blank, and FREE or RETIRED; the result words (R382, R388). `ticks` is in units
of 10 ns. -/
def sliceReport (s : State) (r failed ticks : Nat) : State :=
  let h := roomHalf r
  match (s.slices h).find? fun x => x.room == r with
  | none => s
  | some x =>
    let bad := failed &&& x.parts
    let p := pgBst h
    let s := (s.modTest h fun t => { t with slices := t.slices.erase x }).blankRoom r
    let s := s.modRoom r fun y =>
      { y with state := .free, crew := 0, heat := 0, pos := 0, svalid := false, codeFlag := false, retry := 0, issued := 0,
               failAs := 2 }
    let s := if bad = 0 then s else s.retireRoom r x.code
    let s := (s.step1 p BST_RESULT0_SEQ).step1 p BST_RESULT1_SEQ
    let s := s.wrs p
      [(BST_RESULT0_VALID, 1), (BST_RESULT0_PASS, bit (bad == 0)), (BST_RESULT0_COVER, x.parts), (BST_RESULT0_FAILED, bad),
       (BST_RESULT0_ROOM, r), (BST_RESULT1_VALID, 1), (BST_RESULT1_DURATION, min 0xFFFF ticks)]
    let s := s.raise p 0
    let s := if bad = 0 then s else s.raise p 1
    let s := if x.req then s.bstEnd h x.evict 0 else s
    ((s.decision h).standbyGo).settlePorts

/-- BST.REQ at GO (R386). DEDUCED, unsafe: notes/assumptions/22. DEDUCED, unsafe: notes/assumptions/38. -/
def bstGo (s : State) (h : Half) (arg : Nat) : State :=
  let lc := s.lifeCycle
  let r := arg % 4096
  let x := s.room r
  if lc = 0 ∨ lc = lcEnd then s.bstEnd h false urLifecycle
  else if 0x2000 ≤ arg then s.bstEnd h false urBadArg
  else if roomHalf r ≠ h then s.bstEnd h false urNotFree
  else if s.roomIdle r then s.modTest h fun t => { t with req := some (r, false) }
  else
    let runs := ((s.crew x.crew).map fun c => c.state == .running && !c.isPinned).getD false
    if x.state = .occupied ∧ arg.testBit 12 ∧ runs then
      if s.upkeepBar ≠ 0 then s.bstEnd h false s.upkeepBar
      else
        let s := (s.modTest h fun t => { t with req := some (r, true) }).hold h
        let s := s.modRoom r fun y => { y with state := .withdrawn, failAs := 2 }
        (s.startDrain x.crew .ready).settlePorts
    else s.bstEnd h false urNotFree

/-- BST.REQ written with a GO: the closing engine takes none (R340). -/
def bstReq (s : State) (m : Master) (h : Half) (arg : Nat) : State :=
  s.goTo m (pgBst h) 0x44 (fun s => s.wr (pgBst h) BST_REQ_ARG arg)
    fun s =>
      if s.rd (pgBst h) BST_REQ_STATUS = 1 ∨ !s.gateOpen h .bst then s else (s.goBusy (pgBst h) gBst).bstGo h arg

/-! ## The scrubber (R389 to R394) -/

/-- A pass begins at the half's first room: the one before it, unless it is the first, has ended after `lastMs`. -/
def scrubPass (s : State) (h : Half) (lastMs : Nat) : State :=
  let s := s.modTest h fun t => { t with scrubAt := 0 }
  if lastMs = 0 then s else (s.step1 (pgScr h) SCR_PASS_PASSES).wr (pgScr h) SCR_PASS_LAST_MS lastMs

end State

/-- Bits in which two runs of bytes differ, and the bytes that differ. -/
def bitsOff (a b : List Byte) : Nat :=
  ((List.zipWith (· ^^^ ·) a b).map fun x => ((List.range 8).filter x.getLsbD).length).sum

def bytesOff (a b : List Byte) : List Nat :=
  (List.range a.length).filter fun i => byteAt a i != byteAt b i

namespace State

/-- The image that a room's frames come from: the address of a frame of its plane, and for a crew that of the frame's
64 bytes of essential-bit map (R391, R264). -/
def imageOf (s : State) (r frame : Nat) : Option (Nat × Option Nat) :=
  let x := s.room r
  match x.state with
  | .g2 => some (s.g2Addr r false + frame * 512, none)
  | .occupied => (s.crew x.crew).map fun c =>
      (planeAddr c x.pos + frame * 512, some (c.emap * granBytes + x.pos * 11520 + frame * 64))
  | _ => none

/-- One of some bytes of a frame is essential: its map bit is 1, or its map cannot be read; a G2 room's map is all ones.
DESIGN CHOICE, unsafe: notes/assumptions/24. -/
def essential (s : State) (map : Option Nat) (bytes : List Nat) : Bool × State :=
  match map with
  | none => (!bytes.isEmpty, s)
  | some a =>
    match s.readBytes ueScrub a 64 with
    | (none, s) => (!bytes.isEmpty, s)
    | (some m, s) => (bytes.any fun i => (byteAt m (i / 8)).getLsbD (i % 8), s)

/-- An essential upset of a room's crew (R155, Table 4.6). A pinned crew's in-place sequence waits for its wing. -/
def essentialUpset (s : State) (r info : Nat) : State :=
  let id := (s.room r).crew
  match s.crew id with
  | none => s
  | some c =>
    if c.state ≠ .running ∧ c.state ≠ .pinned then s
    else
      let s := s.notify id ⟨fEssential, r, info⟩
      if !c.autoReset then s
      else if c.state = .running then
        (((s.modCrew id fun c => { c with useFirst := true }).dropStaged id).startDrain id .ready).settlePorts
      else if s.inPlace id c then s
      else if s.wingBusy (crewWing c) then s.modWing (crewWing c) fun x => { x with waits := x.waits ++ [(SwapKind.reconfig, id)] }
      else s.startReconfig id

/-- SCR.LOG and SCR.COUNTS of an upset, and its consequences: for a repaired one in a G2 room G2C.UPSETS (R314, Table 9.12), for a
crew's the essential upset. -/
def upset (s : State) (r frame diff : Nat) (ess unrep : Bool) : State :=
  let p := pgScr (roomHalf r)
  let s := (s.step1 p SCR_LOG_SEQ).wrs p
    [(SCR_LOG_VALID, 1), (SCR_LOG_ESSENTIAL, bit ess), (SCR_LOG_UNREPAIRED, bit unrep), (SCR_LOG_BITS, min 15 diff),
     (SCR_LOG_ROOM, r), (SCR_LOG_FRAME, frame)]
  let s := s.raise p 0
  let s := if unrep then (s.bump p SCR_COUNTS_UNREPAIRED).raise p 2 else s.bump p SCR_COUNTS_REPAIRED
  let s := if ess then (s.bump p SCR_COUNTS_ESSENTIAL).raise p 1 else s
  if (s.room r).state = .g2 then if unrep then s else (s.bump pgG2c G2C_UPSETS_COUNT).raise pgG2c 3
  else if ess then s.essentialUpset r (planeFrame (s.room r).active r frame)
  else s

/-- Check and repair one frame of a room's active slot. DESIGN CHOICE, unsafe: notes/assumptions/24. -/
def scrubCheck (s : State) (r frame : Nat) : State :=
  let act := (s.room r).active
  let now := s.plane act r (frame * 512) 512
  let want := s.refOf (planeFrame act r frame)
  match s.imageOf r frame with
  | none => s
  | some (a, map) =>
    if crc16 now = want then s
    else
      match s.readBytes ueScrub a 512 with
      | (some img, s) =>
        if crc16 img = want then
          let s := { s with fabric := Tbl.putBytes s.fabric (frameKey (planeFrame act r 0) + frame * 512) img }
          let (e, s) := s.essential map (bytesOff now img)
          s.upset r frame (bitsOff now img) e false
        else unrepaired s map
      | (none, s) => unrepaired s map
where
  /-- Nothing is written, and every byte of the frame is looked up. -/
  unrepaired (s : State) (map : Option Nat) : State :=
    let (e, s) := s.essential map (List.range 512)
    s.upset r frame 0 e true

/-- Flip bits of a frame of a room's active slot: upsets since it was last read. -/
def flipBits (s : State) (r frame : Nat) (l : List (Nat × Byte)) : State :=
  let k := frameKey (planeFrame (s.room r).active r 0) + frame * 512
  l.foldl (fun s e => { s with fabric := Tbl.store s.fabric 0 (k + e.1) (Tbl.get s.fabric 0 (k + e.1) ^^^ e.2) }) s

/-- The scrubber reads a frame of a room, once in a pass and in ascending order (R390); at the first one of its visit it looks at
the code-error flag (R393). DESIGN CHOICE, unsafe: notes/assumptions/24. -/
def scrubFrame (s : State) (r frame : Nat) (upsets : List (Nat × Byte)) : State :=
  let h := roomHalf r
  if !roomOk r || 180 ≤ frame then s
  else
    let s := s.flipBits r frame upsets
    let st := (s.room r).state
    if !s.on (pgScr h) SCR_CFG_EN || !s.gateOpen h .scr || !inService (s.mode h) || (st != .occupied && st != .g2) ||
        r * 180 + frame < (s.selfTest.get h).scrubAt then s
    else
      let s := s.modTest h fun t => { t with scrubAt := r * 180 + frame + 1 }
      let s := if frame = 0 ∧ (s.room r).codeFlag ∧ st = .occupied then s.essentialUpset r (2 ^ 64 - 1) else s
      s.scrubCheck r frame

/-! ## Cox restart (R397, Table 12.7) -/

/-- The firmware image at SYS.COX_IMG: what its header's length says, if it can be read, is at most 1 MiB and is signed. -/
def coxImage (s : State) (h : Half) : Option (List Byte) × State :=
  let a := s.rd (pgSys h) SYS_COX_IMG_DPA * 4096
  match s.readMem ueCox a (min (2 ^ 20) (dpaEnd - a)) with
  | (.error _, s) => (none, s)
  | (.ok t, s) =>
    let all := Tbl.bytes t 0 (2 ^ 20)
    let n := Config.firmwareLength all
    (if n ≤ 2 ^ 20 ∧ Config.ecdsaSigned (all.take n) = true then some (all.take n) else none, s)

/-- A unit of SVC_HOLD moves with the ownership of its resource (Table 1.1). -/
def holdMoves (s : State) (src dst : Half) : State :=
  (s.wr (pgSys src) SYS_MODE_SVC_HOLD (s.rd (pgSys src) SYS_MODE_SVC_HOLD - 1)).bump (pgSys dst) SYS_MODE_SVC_HOLD

/-- The leader hands over to the other half: a renewal marked YIELD, LEADER, and what the leader and the follower own.
DEDUCED, unsafe: notes/assumptions/25. -/
def handOver (s : State) : State :=
  let l := s.leader
  let o := other l
  let one (s : State) (h : Half) : State := (s.step1 (pgSys h) SYS_LEASE_EPOCH).wr (pgSys h) SYS_LEASE_AGE 0
  let s := one (one (s.emit (s.renewalMsg rnYield)) l) o
  let s := (s.wr (pgSys o) SYS_ROLE_LEADER 1).wr (pgSys l) SYS_ROLE_LEADER 0
  let s := if s.course.lane.isSome then s.holdMoves o l else s
  if s.host.reeq.isSome then s.holdMoves l o else s

/-- A hand-over can be carried out. DEDUCED, unsafe: notes/assumptions/25. -/
def canHandOver (s : State) : Bool := s.galleryUp && !s.lapsed .east && !s.lapsed .west

/-- Registers of a page return to reset but those at some offsets; FREEZE ends (R366). -/
def clearPage (s : State) (p : Nat) (kept : List Nat) : State :=
  { s with regs := s.regs.filter fun e => e.1 / 0x1000 != p || kept.contains (e.1 % 0x1000)
           held := s.held.filter fun e => e.1 / 0x1000 != p }

/-- The Cox group of a half resets (Table 11.5): a message under way ends with CLOSED, which its mailbox then shows (R457),
and every other register of the mailbox pages returns to reset, but what `kept` names.
DEDUCED, unsafe: notes/assumptions/27. -/
def coxGroup (s : State) (h : Half) (kept : List Nat) : State :=
  let busy := (List.range 20).filter fun n => s.on (pgMbx h n) MBX_MB_STAT_BUSY
  let s := (s.mbClose h).clearPage (pgMbs h) (if busy.isEmpty then kept else 0x10 :: kept)
  (List.range 20).foldl (fun s n => s.clearPage (pgMbx h n) (if busy.contains n then 0x44 :: 0x10 :: kept else kept)) s

/-- The Cox group resets and the cox starts, which ends a freeze of its non-secure partition (Table 13.4); a refusal of the image
leaves it as it was. -/
def coxStart (s : State) (h : Half) (arg : Nat) (image : List Byte) : State :=
  let s := s.hold h
  let led := decide (h = s.leader) && s.canHandOver
  let s := (if led then s.handOver else s).coxGroup h []
  { s with cox := s.cox.set h { s.cox.get h with op := some (arg, led, image), image := image }
           security := { s.security with cox := s.security.cox.set h false } }

/-- SYS.COX_UPD at GO. DEDUCED, unsafe: notes/assumptions/22. -/
def coxGo (s : State) (m : Master) (h : Half) (arg : Nat) : State :=
  let p := pgSys h
  if !s.masterWorld m then s.goRefused p gCox urWorld
  else if 8 ≤ arg then s.goRefused p gCox urBadArg
  else if (s.cox.get h).op.isSome then s.goRefused p gCox urInUse
  else if s.upkeepBar ≠ 0 then s.goRefused p gCox s.upkeepBar
  else if arg.testBit 0 then
    match s.coxImage h with
    | (none, s) => s.goRefused p gCox urFailed
    | (some img, s) => s.coxStart h arg img
  else s.coxStart h arg (s.cox.get h).image

def coxUpd (s : State) (m : Master) (h : Half) (arg : Nat) : State :=
  s.upkeepGo m (pgSys h) gCox SYS_COX_UPD_ARG arg fun s => s.coxGo m h arg

/-- The cox runs: PERSIST and HAND_BACK, the events held for it. A lease that has lapsed meanwhile stops the operation.
DEDUCED, unsafe: notes/assumptions/25. -/
def coxDone (s : State) (h : Half) : State :=
  let c := s.cox.get h
  match c.op with
  | none => s
  | some (arg, led, image) =>
    let ok := s.canHandOver || !led
    let s := if ok && arg.testBit 2 && arg.testBit 0 then
        { s with attic := { s.attic with firmware := image :: s.attic.firmware.take 1 } } else s
    let s := if ok && arg.testBit 1 && led && s.leader == other h then s.handOver else s
    let s := { s with cox := s.cox.set h { c with op := none, held := [] } }
    let s := c.held.foldl (fun s e => s.emit e) s
    (if ok then s.goDone (pgSys h) gCox else s.goRefused (pgSys h) gCox urFailed).unhold h

/-! ## Stack retrain (R398, Table 12.8) -/

/-- A frame of another stack for a page that moves: of the same half first. -/
def migrateTo (s : State) (k : Nat) (world : Bool) : Option (Nat × State) :=
  let near := k / 2 * 2 + (1 - k % 2)
  match s.takeFrom near world with
  | some r => some r
  | none => s.takeFrom (s.fullerStack (other (halfOf (k / 2))) world) world

/-- One second-level entry at address `a`, for page `page` of a crew: its frame is copied and the entry rewritten. A page
that cannot be read, or has no frame to go to, stays. -/
def migrateEntry (s : State) (k id page a : Nat) : State :=
  match s.readBytes ueMigrate a 8 with
  | (none, s) => s
  | (some bs, s) =>
    let e := leNat bs
    let f := bits e 36 21
    if e.testBit 0 && e.testBit 4 && stackOf f == k && Tbl.find s.frames f == some .taken then
      match s.readMem ueMigrate (f * frameBytes) frameBytes with
      | (.error _, s) => s
      | (.ok t, s) =>
        match s.migrateTo k (((s.regionOf f).map (·.world)).getD false) with
        | none => s
        | some (n, s) =>
          let s := s.putWhole (n * frameBytes) frameBytes t
          let s := (s.writeBytes ueMigrate a (leBytes 8 (e - f * 2 ^ 21 + n * 2 ^ 21))).2
          (s.inval (idHalf id) 6 id (some page)).releaseFrame f
    else s

/-- The pages of one second-level table. -/
def migrateTable (s : State) (k id i table : Nat) : State :=
  (List.range 1024).foldl (fun s j => s.migrateEntry k id (i * 1024 + j) (table + j * 8)) s

/-- The pages of a crew. DESIGN CHOICE, unsafe: notes/assumptions/26. -/
def migrateCrew (s : State) (k id : Nat) : State :=
  match s.crew id with
  | none => s
  | some c =>
    (List.range 512).foldl
      (fun s i =>
        match s.readBytes ueMigrate (c.root * 4096 + i * 8) 8 with
        | (none, s) => s
        | (some bs, s) => if (leNat bs).testBit 0 then s.migrateTable k id i (leNat bs &&& 0x1FFFFFE000) else s) s

def modStacks (s : State) (f : Stacks → Stacks) : State := { s with stackCtl := f s.stackCtl }

/-- MEM.RETRAIN ends in a way, with its event. -/
def memEnd (s : State) (k reason : Nat) : State :=
  (if reason = 0 then s.goDone (pgMem k) gMem else s.goRefused (pgMem k) gMem reason).raise (pgMem k) 1

/-- MEM.RETRAIN at GO. DEDUCED, unsafe: notes/assumptions/22. -/
def memGo (s : State) (m : Master) (k arg : Nat) : State :=
  let h := halfOf (k / 2)
  if !s.masterWorld m then s.memEnd k urWorld
  else if 2 ≤ arg then s.memEnd k urBadArg
  else if s.stackCtl.retrain.any fun j => j / 2 == k / 2 then s.memEnd k urInUse
  else if s.upkeepBar ≠ 0 then s.memEnd k s.upkeepBar
  else
    let s := (s.hold h).modStacks fun x => { x with retrain := k :: x.retrain }
    let s := if arg.testBit 0 then (s.crews.map (·.1)).foldl (fun s id => s.migrateCrew k id) s else s
    (s.modStacks fun x => { x with away := k :: x.away }).wr (pgMem k) MEM_STAT_SELF_REFRESH 1

/-- DESIGN CHOICE, unsafe: notes/assumptions/26. -/
def memRetrain (s : State) (m : Master) (k arg : Nat) : State :=
  s.upkeepGo m (pgMem k) gMem MEM_RETRAIN_ARG arg fun s => s.memGo m k arg

/-- A stack's training ends: it is no longer away, and MEM.RETRAIN ends DONE or FAILED. -/
def memTrained (s : State) (k : Nat) (trained : Bool) (repairs : Nat) : State :=
  let s := s.modStacks fun x => { x with retrain := x.retrain.erase k, away := x.away.erase k }
  let s := s.wr (pgMem k) MEM_STAT_SELF_REFRESH 0
  let s := if trained then s.wr (pgMem k) MEM_STAT_LANE_REPAIRS repairs else s
  s.memEnd k (if trained then 0 else urFailed)

/-- What waited for a stack of a half goes on. DESIGN CHOICE, unsafe: notes/assumptions/26. -/
def stackBack (s : State) (h : Half) : State :=
  let s := s.unhold h
  let s := ((s.releaseAccesses .east).releaseAccesses .west).latePorts
  let s := ((s.retireAct .east).retireAct .west)
  let s := (List.range 8).foldl
    (fun s i => let w := 8 * halfBit h + i; s.nextWait w (s.wing w).waits.length) s
  ((s.decision .east).decision .west).settlePorts

/-- Training ends: the stack returns, what waited for it goes on. -/
def memDoneTraining (s : State) (k : Nat) (trained : Bool) (repairs : Nat) : State :=
  if !s.stackCtl.retrain.contains k then s else (s.memTrained k trained repairs).stackBack (halfOf (k / 2))

/-! ## Course links and the host link (R399, R400) -/

/-- CRS.LANE at GO. A port in BYPASS has no link to retrain. DEDUCED, unsafe: notes/assumptions/22. -/
def laneGo (s : State) (arg : Nat) : State :=
  let w := arg.testBit 0
  if 8 ≤ arg then s.goRefused pgCrs gLane urBadArg
  else if s.upkeepBar ≠ 0 then s.goRefused pgCrs gLane s.upkeepBar
  else if !s.portOpen then s.goRefused pgCrs gLane urFailed
  else
    let s := (s.hold s.follower).modCourse fun c => { c with lane := some w }
    let s := if arg / 2 = 0 then s else s.modLink w fun l => { l with offers := arg / 2 % 4 }
    if s.linkState w = 2 then s.linkTrain w else s

def laneReq (s : State) (m : Master) (arg : Nat) : State :=
  s.upkeepGo m pgCrs gLane CRS_LANE_ARG arg fun s => s.laneGo arg

/-- HLK.REEQ at GO. DEDUCED, unsafe: notes/assumptions/22. -/
def reeqGo (s : State) (arg : Nat) : State :=
  if 2 ≤ arg then s.goRefused pgHlk gReeq urBadArg
  else if s.upkeepBar ≠ 0 then s.goRefused pgHlk gReeq s.upkeepBar
  else (s.hold s.leader).modHost fun l => { l with reeq := some (arg.testBit 0) }

def reeqReq (s : State) (m : Master) (arg : Nat) : State :=
  s.upkeepGo m pgHlk gReeq HLK_REEQ_ARG arg fun s => s.reeqGo arg

/-- The operation ends, and a Link Equalization Request bit with it. -/
def reeqEnd (s : State) (reason : Nat) : State :=
  if s.host.reeq.isNone then s
  else
    let s := s.modHost fun l => { l with reeq := none }
    (if reason = 0 then s.goDone pgHlk gReeq else s.goRefused pgHlk gReeq reason).unhold s.leader

/-- The link is in L0 at 32.0 GT/s. -/
def linkL0 (s : State) : State := if s.host.reeq.isNone then s else (s.wr pgHlk HLK_LINK_SPEED 5).reeqEnd 0

end State

/-! ## Meanings -/

/-- SLICE_START. -/
def execSliceStart (h : Half) (s : State) : Host.Outcome State Fault Refusal := .next (s.sliceStart h)

/-- SLICE_REPORT. -/
def execSliceReport (room : BitVec 12) (failed : BitVec 4) (duration : BitVec 32) (s : State) :
    Host.Outcome State Fault Refusal := .next (s.sliceReport room.toNat failed.toNat duration.toNat)

/-- BST_REQ. -/
def execBstReq (m : Master) (h : Half) (arg : BitVec 16) (s : State) : Host.Outcome State Fault Refusal :=
  .next (s.bstReq m h arg.toNat)

/-- SCRUB_PASS_START. -/
def execScrubPassStart (h : Half) (lastMs : BitVec 16) (s : State) : Host.Outcome State Fault Refusal :=
  .next (s.scrubPass h lastMs.toNat)

/-- SCRUB_FRAME. -/
def execScrubFrame (room : BitVec 12) (frame : Byte) (upsets : List (BitVec 9 × Byte)) (s : State) :
    Host.Outcome State Fault Refusal :=
  .next (s.scrubFrame room.toNat frame.toNat (upsets.map fun e => (e.1.toNat, e.2)))

/-- COX_RESTART: UPDATE = 0. -/
def execCoxRestart (m : Master) (h : Half) (arg : BitVec 16) (s : State) : Host.Outcome State Fault Refusal :=
  .next (s.coxUpd m h (arg.toNat / 2 * 2))

/-- COX_FIRMWARE_UPDATE: UPDATE = 1. -/
def execCoxFirmwareUpdate (m : Master) (h : Half) (arg : BitVec 16) (s : State) : Host.Outcome State Fault Refusal :=
  .next (s.coxUpd m h (arg.toNat / 2 * 2 + 1))

/-- COX_RESTART_DONE. -/
def execCoxRestartDone (h : Half) (s : State) : Host.Outcome State Fault Refusal := .next (s.coxDone h)

/-- MEM_RETRAIN: MIGRATE = 0. -/
def execMemRetrain (m : Master) (stack : BitVec 2) (s : State) : Host.Outcome State Fault Refusal :=
  .next (s.memRetrain m stack.toNat 0)

/-- MEM_RETRAIN_MIGRATE: MIGRATE = 1. -/
def execMemRetrainMigrate (m : Master) (stack : BitVec 2) (s : State) : Host.Outcome State Fault Refusal :=
  .next (s.memRetrain m stack.toNat 1)

/-- STACK_RETRAIN_DONE. -/
def execStackRetrainDone (stack : BitVec 2) (trained : Bool) (repairs : Byte) (s : State) :
    Host.Outcome State Fault Refusal := .next (s.memDoneTraining stack.toNat trained repairs.toNat)

/-- COURSE_LANE_RETRAIN. -/
def execCourseLaneRetrain (m : Master) (arg : BitVec 16) (s : State) : Host.Outcome State Fault Refusal :=
  .next (s.laneReq m arg.toNat)

/-- HOST_LINK_RECOVERY: EQ = 0. -/
def execHostLinkRecovery (m : Master) (s : State) : Host.Outcome State Fault Refusal := .next (s.reeqReq m 0)

/-- HOST_LINK_REEQ: EQ = 1. -/
def execHostLinkReeq (m : Master) (s : State) : Host.Outcome State Fault Refusal := .next (s.reeqReq m 1)

/-- REEQ_TIMEOUT. -/
def execReeqTimeout (s : State) : Host.Outcome State Fault Refusal := .next (s.reeqEnd urFailed)

/-- HOST_LINK_RETURN_TO_L0. -/
def execHostLinkReturnToL0 (s : State) : Host.Outcome State Fault Refusal := .next s.linkL0

end Sys2Proof.Machine
end

