-- ==== Sys2Proof/Machine/SoftReset.lean ====
section
/-! DEFINITION. Soft resets (R368, R371): PG_CTRL[1] of a page returns the page's block to its state after reset; PG_WORLD
keeps its value. -/

namespace Sys2Proof.Machine

namespace State

/-- The whole page but PG_WORLD. -/
def clearBlock (s : State) (p : Nat) : State := s.clearPage p [0x1C]

/-- One register returns to reset. -/
def clearReg (s : State) (p off : Nat) : State := s.clearSpan p off (off + 4)

/-- The Steward's page: FREEZE (R450), its idle port, an idle room request, result words and counts. -/
def softStw (s : State) (p : Nat) : State :=
  let s := s.thawPage p
  let s := if s.on p STW_CMD_RESULT_BUSY then s else s.clearSpan p 0x40 0xC0
  let s := if s.rd p STW_ROOM_RETIRE_STATUS = 1 then s else s.clearReg p 0x404
  s.clearSpan p 0xC8 0xD4

def softPgt (s : State) (p : Nat) : State :=
  let s := s.thawPage p
  (if s.on p PGT_RESULT_BUSY then s else s.clearSpan p 0x40 0x50).clearReg p 0x80

def softHat (s : State) (p : Nat) : State :=
  let s := s.thawPage p
  (if s.on p HAT_RESULT_BUSY then s else s.clearSpan p 0x40 0x80).clearSpan p 0xA0 0xA8

def softMem (s : State) (p : Nat) : State :=
  let s := (s.thawPage p).clearSpan p 0x44 0x50
  if s.rd p MEM_RETRAIN_STATUS = 1 then s else s.clearReg p 0x60

/-- The Gallery group: both pages, and a link that was up trains again. -/
def softGal (s : State) : State :=
  let up := s.galleryUp
  let s := (s.clearBlock (pgGal .east)).clearBlock (pgGal .west)
  let s := { s with gallery := { s.gallery with fails := 0 } }
  if up then
    (s.wrs (pgGal .east) [(GAL_LINK_STATE, 2), (GAL_LINK_RETRAINS, 1)]).wrs (pgGal .west)
      [(GAL_LINK_STATE, 2), (GAL_LINK_RETRAINS, 1)]
  else s

/-- A room that lets its wing reset. -/
def roomSpare (s : State) (r : Nat) : Bool :=
  match (s.room r).state with
  | .free | .lent | .retired => true
  | .withdrawn => (s.room r).crew == 0
  | .occupied | .swapping | .g2 => false

/-- A wing. -/
def softWng (s : State) (p : Nat) : State :=
  let w := p - pgWng 0
  if (List.range 192).all fun i => s.roomSpare (256 * w + i) then (s.clearBlock p).setWing w Wing.fresh
  else s.pgErr p 5 0

/-- The personality loader: a load starts again, what it had made goes; in STARTUP the steps go on.
DEDUCED, unsafe: notes/assumptions/27. -/
def softCfg (s : State) : State :=
  let m := s.devMode
  if m = mLoadLocal ∨ m = mLoadHost then
    let s := (s.cleanLoad.modLoad fun l => Loader.fresh l.boot).clearBlock pgCfg
    if m = mLoadLocal then s.loadStart else s.wrs pgCfg [(CFG_STAT_SOURCE, 4), (CFG_STAT_PHASE, phHeader)]
  else s.clearPage pgCfg [0x1C, 0x40]

/-- The Attic controller: a copy or an erase under way ends. -/
def softAtt (s : State) : State :=
  ({ s with prog := none, recClear := none }.clearBlock pgAtt).setReg (pgAtt * 0x1000 + ATT_BOOT_PRIMARY.off) s.attic.boot

/-- The host link, as PERST_N resets it (R444). -/
def softHlk (s : State) : State :=
  let w := s.reg (pgHlk * 0x1000 + 0x1C)
  s.perst.setReg (pgHlk * 0x1000 + 0x1C) w

/-- The Course: its ports are closed; the strap stays. -/
def softCrs (s : State) : State :=
  let bow := s.rd pgCrs CRS_ID_BOW
  let s := if s.course.lane.isSome then s.unhold s.follower else s
  (({ s with course := Course.fresh }.clearBlock pgCrs).wr pgCrs CRS_ID_BOW bow)

/-- The G2 block: in RUN-G2 it clears its configuration. -/
def softG2c (s : State) : State :=
  let serves := s.g2Serves
  let s := { s.clearBlock pgG2c with g2 := { s.g2 with calRun := false, held := false, tiles := [], dout := true } }
  if serves then s.g2Clearing else s

/-- The clocks of a half: its hall and service run on IRC, porch PLLs stop, gates open. -/
def softClk (s : State) (h : Half) : State :=
  let irc := s.srcReady h .irc
  let s := if (s.pow h).op.isSome then s.opEnd h 2 else s
  let s := (List.range 12).foldl (fun s n => s.setSrcReady h (.porch (BitVec.ofNat 4 n)) false) s
  let s := (s.clearBlock (pgClk h)).modPow h fun p => { p with hallPend := none, svcPend := none, closing := [] }
  (s.setSrcReady h .irc irc).wr (pgPwr h) PWR_OP_STAT_ON_IRC 1

/-- The power block of a half: fused voltages, no change under way, no governor action; the rails stay where they are and
VFAB moves to its target. -/
def softPwr (s : State) (h : Half) : State :=
  let now := s.rd (pgPwr h) PWR_VFAB_NOW_MV
  let s := s.clearPage (pgPwr h) [0x1C, 0x44]
  let s := s.modPow h fun p => { p with avs := [], op := none, gov := [], overCap := false }
  let s := (List.range 8).foldl
    (fun s i => s.wr (pgPwr h) (PWR_VHALL_OP_MV.at 4 i) ((s.fuses.vhall.get h).getD i 0)) s
  (s.wr (pgPwr h) PWR_VFAB_NOW_MV now).vfabGo h (s.vfabTarget h)

/-- The self-test engine: slices under way are given up, their rooms blank. DEDUCED, unsafe: notes/assumptions/27. -/
def softBst (s : State) (h : Half) : State :=
  let t := s.selfTest.get h
  let evicts := (t.slices.filter fun x => x.evict).length + bit ((t.req.map (·.2)).getD false)
  let s := t.slices.foldl
    (fun s x => (s.blankRoom x.room).modRoom x.room fun y =>
      { y with state := if x.code = 4 then .withdrawn else .free }) s
  let s := { s with selfTest := s.selfTest.set h { SelfTest.fresh with scrubAt := t.scrubAt } }
  let s := (s.clearBlock (pgBst h)).setReg (pgBst h * 0x1000 + BST_TEST_SUM_VALID.off) s.attic.testSum
  ((List.range evicts).foldl (fun s _ => s.unhold h) s).standbyGo

/-- The pins of a half: the hall side of every porch and of the doorway resets (R371). The Steward's claims and
attachments stay. -/
def softPin (s : State) (h : Half) : State :=
  let p := pgPin h
  let ks := (List.range 12).map fun j => 12 * halfBit h + j
  let old := ks.map fun k => (k, s.porchRd k PIN_PORCH_OWNER, s.porchRd k PIN_PORCH_ATTACHED)
  let s := s.clearBlock p
  let s := old.foldl (fun s e => (s.porchWr e.1 PIN_PORCH_OWNER e.2.1).porchWr e.1 PIN_PORCH_ATTACHED e.2.2) s
  let s := ks.foldl (fun s k => s.porchTake k) s
  let s := (List.range 12).foldl (fun s j => s.porchReset h j) s
  ({ s with doorway := s.doorway.set h ⟨none, none, false⟩ }).sideDrop h xkDoorway 0

/-- The service pins' functions. -/
def softPmx (s : State) (h : Half) : State :=
  let s := s.clearBlock (pgPmx h)
  if h = .east then { s with pins := { s.pins with windows := [] } } else s

/-- The pin-interrupt lines: the destination side of each resets (R371). -/
def softPint (s : State) (h : Half) : State :=
  (List.range 16).foldl (fun s n => s.sideDrop h xkLine n) (s.clearBlock (pgPint h))

/-- PG_CTRL[1] of a page. DEDUCED, unsafe: notes/assumptions/27. -/
def softReset (s : State) (p : Nat) : State :=
  let h := s.serves p
  match pageKind p with
  | .cel | .sys | .sec | .lcs | .cwn | .hwn | .vfp => s
  | .stw => s.softStw p
  | .pgt => s.softPgt p
  | .hat => s.softHat p
  | .mem => s.softMem p
  | .gal => s.softGal
  | .wng => s.softWng p
  | .cfg => s.softCfg
  | .att => s.softAtt
  | .hlk => s.softHlk
  | .crs => s.softCrs
  | .g2c => s.softG2c
  | .clk => s.softClk h
  | .pwr => s.softPwr h
  | .bst => s.softBst h
  | .scr => (s.clearBlock p).modTest h fun t => { t with scrubAt := 0 }
  | .fmc => s.clearBlock p
  | .pin => s.softPin h
  | .pmx => s.softPmx h
  | .pint => s.softPint h
  | .mbs | .mbx => s.coxGroup h [0x1C]

end State

/-- SOFT_RESET. -/
def execSoftReset (m : Master) (page : BitVec 9) (s : State) : Host.Outcome State Fault Refusal :=
  .next (s.toPage m page.toNat 0x08 fun s => s.softReset page.toNat)

end Sys2Proof.Machine
end

