-- ==== Sys2Proof/Machine/Registers.lean ====
section
/-! DEFINITION. REGISTER_WRITE: what a 32-bit write does at each register, by its access code (R11 to R13) or, where a
register has a behaviour of its own, by the command that it gives. -/

namespace Sys2Proof.Machine
namespace State

/-! ## Commands of the ports, by OP (Tables 4.13, 5.10 and 6.9) -/

/-- STW.CMD or CREW_CMD with GO. -/
def stwOp (s : State) (p : Port) (v : Nat) : State :=
  match v % 16 with
  | 1 => s.createCmd p
  | 2 => s.queryCmd p
  | 3 => s.updateCmd p (v.testBit 4)
  | 4 => s.runAt p
  | 5 => s.parkAt p
  | 6 => s.resumeAt p
  | 7 => s.restartAt p
  | 8 => s.reconfigAt p
  | 9 => s.destroyAt p
  | 10 => s.hintAt p
  | _ => s.stwGo p fun s => s.stwEnd p scBadOp (s.stwId p)

/-- PGT.CMD with GO. -/
def pgtOp (s : State) (p : Port) (op : Nat) : State :=
  s.toPort .pgt p fun s =>
    match op with
    | 1 => s.frameTake p
    | 2 => s.frameGive p
    | 3 => s.granTake p
    | 4 => s.granGive p
    | 5 => s.invalOf p 5
    | 6 => s.invalOf p 6
    | 7 => s.invalAll p
    | _ => if s.portBusy .pgt p then s else (s.portStart .pgt p).pgtEnd p pcBadOp 0

/-- HAT.CMD or HAT_CMD with GO. -/
def hatOp (s : State) (p : Port) (op : Nat) : State :=
  if 1 ≤ op ∧ op ≤ 3 then s.hatGo p op
  else
    s.toPort .hat p fun s =>
      if s.portBusy .hat p then s else (s.portStart .hat p).hatEnd p htBadOp (s.portRd .hat p HAT_ARG_HATCH)

/-! ## The header (Table 15.2) -/

/-- PG_CTRL: EN, then FREEZE, then SRST. DESIGN CHOICE, unsafe: notes/assumptions/16. -/
def ctrlWrite (s : State) (p v : Nat) : State :=
  let s := s.wr p PG_CTRL_EN (v % 2)
  let s := if v.testBit 2 then s.freezePage p else s.thawPage p
  if v.testBit 1 then s.softReset p else s

def headerWrite (s : State) (m : Master) (p o v : Nat) : State :=
  if o = 0x08 then s.ctrlWrite p v
  else if o = 0x10 then s.irqClear p v
  else if o = 0x14 then s.irqEnable p v
  else if o = 0x18 then s.irqForced p v
  else if o = 0x1C then s.pageWorld m p (some (v.testBit 0)) (v.testBit 1)
  else if o = 0x20 then (if v.testBit 31 then s.errClear p else s)
  else s

/-! ## Registers with a behaviour of their own and no GO -/

/-- SYS.XSTAT (Table 11.3): LOST and DROP are those of the crossing that XSEL names. -/
def xstatWrite (s : State) (h : Half) (v : Nat) : State :=
  let s := s.store (pgSys h) 0x74 0
  let kind := s.rd (pgSys h) SYS_XSEL_KIND
  let index := s.rd (pgSys h) SYS_XSEL_INDEX
  let s := if crossOk h kind index then s.setCross h kind index { s.crossing h kind index with drop := 0 } else s
  if v.testBit 30 then s.xstatFound h else s

/-- CEL.CTRL (Table 10.3). DESIGN CHOICE, unsafe: notes/assumptions/16. -/
def celCtrl (s : State) (v : Nat) : State :=
  ((s.wr pgCel CEL_CTRL_BOOT_TEST (v % 2)).xtalSet (v.testBit 2)).tickGo (v.testBit 1)

/-- LCS.FUSE (R414). -/
def fuseWrite (s : State) (v : Nat) : State :=
  let s := if v.testBit 1 then s.fuseEnc else s
  if v.testBit 0 then s.fuseFall else s

/-- CLK.GATE (Table 10.9): 1 asks for a close, 0 for a reopening; no other value is given a meaning. -/
def gateWrite (s : State) (h : Half) (v : Nat) : State :=
  [Gated.fmc, .bst, .scr, .att, .g2c].foldl
    (fun s b =>
      let f := gateFld b
      let x := v / 2 ^ f.lo % 4
      if x = 0 then s.gateReopen h b else if x = 1 then s.gateGo h b else s) s

/-- CLK.PPLLn (R339): REF, M and D do not change while EN is 1; a PLL that is turned on or off is not READY.
DESIGN CHOICE, unsafe: notes/assumptions/16. -/
def ppllWrite (s : State) (h : Half) (n v : Nat) : State :=
  let p := pgClk h
  let on := s.on p (CLK_PPLL_EN.at 4 n)
  let s := if on then s else s.wrs p [(CLK_PPLL_REF.at 4 n, v / 2 ^ 29), (CLK_PPLL_M.at 4 n, v / 2 ^ 16), (CLK_PPLL_D.at 4 n, v / 2 ^ 8)]
  if v.testBit 31 = on then s
  else (s.setSrcReady h (.porch (BitVec.ofNat 4 n)) false).wr p (CLK_PPLL_EN.at 4 n) (bit (v.testBit 31))

/-- A host write to PIN.OUTq, SETq, CLRq or OEq of the East half (R427). -/
def pinWrite (s : State) (o v : Nat) : State :=
  let q : BitVec 2 := BitVec.ofNat 2 ((o - 0x40) / 16)
  let x : BitVec 16 := BitVec.ofNat 16 v
  match (o - 0x40) / 4 % 4 with
  | 0 => s.gpioWith (.hostOut q x) []
  | 1 => s.gpioWith (.hostSet q x) []
  | 2 => s.gpioWith (.hostClr q x) []
  | _ => s.gpioWith (.hostOe q x) []

/-- PMX.FUNCi: the functions of eight pins. -/
def funcWrite (s : State) (i v : Nat) : State :=
  (List.range 8).foldl (fun s k => s.pinSwitch (8 * i + k) (v / 16 ^ k % 16)) s

/-- WNG.LDR_CFG (Table 3.15). -/
def ldrWrite (s : State) (w : Nat) (v : Word) : State :=
  let s := s.store (pgWng w) 0x100 v
  if v.getLsbD 17 then s.lcFlush w else s

/-- A write that has reached its page. A write of a GO is that of a command (`regGo`). -/
def writeAt (s : State) (m : Master) (p o : Nat) (v : Word) : State :=
  let n := v.toNat
  let h := halfOf (p % 2)
  let plain := s.store p o v
  if o < 0x40 then s.headerWrite m p o n
  else
    match pageKind p with
    | .sys => if o = 0x74 then s.xstatWrite h n else if o = 0x54 ∧ h ≠ s.leader then s else plain
    | .cel =>
      if o = 0x40 then s.celCtrl n
      else if o = 0x48 then s.wr pgCel CEL_WAKE_EN_EN (n % 16 ||| 2) -- bit 1 reads 1 (Table 10.3)
      else plain
    | .sec => if 0x80 ≤ o ∧ o < 0xA0 then s.setReg (p * 0x1000 + o) v else plain
    | .lcs => if o = 0x4C then s.fuseWrite n else plain
    | .cfg => if o = 0x4C then s.cfgDeadline (n % 0x10000) else plain
    | .att => if o = 0x40 then s.attBoot v else plain
    | .g2c =>
      if o = 0x40 then (if n.testBit 4 then plain.g2Prog else plain)
      else if 0x100 ≤ o ∧ o < 0x200 then s.g2Write ((o - 0x100) / 4) (n % 256)
      else plain
    | .clk =>
      if o = 0x60 then s.gateWrite h n
      else if 0x100 ≤ o ∧ o < 0x130 then s.ppllWrite h ((o - 0x100) / 4) n
      else plain
    | .pwr => if o = 0x48 then s.vfabWrite h (n % 0x10000) else plain
    | .pin => if o < 0x80 then (if h = .east then s.pinWrite o n else s) else plain
    | .pmx => if h = .west then s else if o < 0x60 then s.funcWrite ((o - 0x40) / 4) n else plain
    | .pint => if h = .west then s else plain
    | .wng =>
      if o = 0x100 then s.ldrWrite (p - 38) v
      else if o = 0x300 then s.roscCtrl (p - 38) n
      else plain
    | .mbx =>
      if o = 0x40 then (if n.testBit 31 then plain.mbGo p (n % 512) else plain)
      else if 0x400 ≤ o ∧ o < 0x800 ∧ s.on p MBX_MB_STAT_BUSY then s
      else plain
    | .mem => plain.poolWatch (halfOf ((p - 34) / 2)) s
    | .hlk | .crs | .gal | .fmc | .bst | .scr | .stw | .pgt | .hat | .mbs | .cwn | .hwn | .vfp => plain

/-- A write with a GO in it to the register that holds the GO; nothing where the register holds none.
DEDUCED, unsafe: notes/assumptions/15. -/
def regGo (s : State) (m : Master) (p o : Nat) (v : Word) : Option State :=
  let n := v.toNat
  let h := halfOf (p % 2)
  let arg := n % 0x10000
  match pageKind p with
  | .sys =>
    if o = 0x54 ∧ n.testBit 7 then some (s.modeReqBy m h (n % 16))
    else if o = 0x94 ∧ n.testBit 31 then some (s.coxUpd m h arg)
    else none
  | k =>
    if !n.testBit 31 then none
    else
      match k with
      | .sec =>
        if o = 0x64 then
          some (s.goTo m p o (fun s => s.wrs p [(SEC_UNFREEZE_KIND, n / 2 ^ 16), (SEC_UNFREEZE_ID, n)]) fun s =>
            s.unfreezeGo (n / 2 ^ 16 % 8) arg)
        else if o = 0xA0 then some (s.keyRaw m n)
        else none
      | .lcs => if o = 0x44 then some (s.lcsReq m (n % 16)) else none
      | .cfg => if o = 0x5C then some (s.goTo m p o (fun s => s) fun s => s.dmaGo) else none
      | .att =>
        if o = 0x5C then some (s.goTo m p o (fun s => s) fun s => s.progGo (ownerOf m))
        else if o = 0x60 then some (s.recClearBy m (n % 4))
        else none
      | .hlk => if o = 0x200 then some (s.reeqReq m arg) else none
      | .crs =>
        if o = 0x6C then some (s.crsReqBy m (n % 16)) else if o = 0x80 then some (s.laneReq m arg) else none
      | .clk => if o = 0x48 then some (s.goTo m p o (fun s => s) fun s => s.swGo h (n.testBit 4) (n % 4)) else none
      | .pwr =>
        if o = 0x40 then some (s.goTo m p o (fun s => s.wr p PWR_OP_REQ_TARGET n) fun s => s.opGo h) else none
      | .fmc => if o = 0x44 then some (s.goTo m p o (fun s => s) fun s => s.fmcGo h) else none
      | .bst => if o = 0x44 then some (s.bstReq m h arg) else none
      | .stw =>
        if o = 0x40 then some (s.stwOp (.page h m) n)
        else if o = 0x404 then
          some (s.goTo m p o
            (fun s => s.wr p STW_ROOM_RETIRE_ROOM n) fun s => s.retireGo h)
        else none
      | .pgt => if o = 0x40 then some (s.pgtOp (.page h m) (n % 16)) else none
      | .hat => if o = 0x40 then some (s.hatOp (.page h m) (n % 16)) else none
      | .mem => if o = 0x60 then some (s.memRetrain m (p - 34) arg) else none
      | _ => none

/-- A write through BAR0, or of a cox. DESIGN CHOICE, safe: notes/assumptions/5. -/
def barWrite (s : State) (m : Master) (off : Nat) (v : Word) : State :=
  let p := off / 0x1000
  let o := off % 0x1000
  (s.regGo m p o v).getD (s.toPage m p o fun s => s.writeAt m p o v)

/-! ## A virtual function's page (Table 14.12) -/

/-- VF_IRQ_EN takes a value; a bit that rises over an event sends vector 0. -/
def vfIrqEn (s : State) (n v : Nat) : State :=
  let p := pgVf n
  let old := s.rd p VFP_VF_IRQ_EN_EN
  let s := s.wr p VFP_VF_IRQ_EN_EN v
  (List.range 3).foldl
    (fun s b => if v.testBit b && !old.testBit b && (s.rd p VFP_VF_IRQ_IRQ).testBit b then s.msix n 0 else s) s

/-- A write of a virtual function to its own page. DESIGN CHOICE, unsafe: notes/assumptions/16. -/
def vfWrite (s : State) (n : BitVec 8) (o : Nat) (v : Word) : State :=
  let w := v.toNat
  let fn := n.toNat
  if o = 0 then s.doorbell fn (w / 2 ^ 16) (w / 2 ^ 12 % 16) (w / 2 ^ 8 % 16)
  else if o = 0x8 then s.hatchSend fn (w / 2 ^ 16) (w % 2 ^ 16)
  else if o = 0xC then s.hatchReturn fn (w / 2 ^ 16) (w % 2 ^ 16)
  else if o = 0x40 ∧ w.testBit 31 then s.stwOp (.vf n) w
  else if o = 0x100 ∧ w.testBit 31 then s.hatOp (.vf n) (w % 16)
  else if o = 0x200 ∧ w.testBit 31 then s.pgtOp (.vf n) (w % 16)
  else s.toVf fn fun s => if o = 0x304 then s.vfIrqEn fn (w % 8) else s.store (pgVf fn) o v

/-- One 32-bit write, at an address or `d` bytes above it: a 64-bit write is two, the lower address first (R10). -/
def regWrite32 (s : State) (m : Master) (a : RegAddr) (d : Nat) (v : Word) : State :=
  match a, m with
  | .bar0 off, m => s.barWrite m (off + d) v
  | .vf off, .fn n => s.vfWrite n (off.toNat + d) v
  | .vf _, _ => s

end State

/-- REGISTER_WRITE. -/
def execRegisterWrite (m : Master) (a : RegAddr) (v : Word) (s : State) (high : Option Word := none) :
    Host.Outcome State Fault Refusal :=
  .next <|
    match high with
    | none => s.regWrite32 m a 0 v
    | some w => (s.regWrite32 m a 0 v).regWrite32 m a 4 w

end Sys2Proof.Machine
end

