-- ==== Sys2Proof/Machine/LoadEnd.lean ====
section
/-! DEFINITION. The END record (R266): its checks, the copies and default maps, the boarding of pinned crews, the HALL
writes, the way into STARTUP. -/

namespace Sys2Proof.Machine
namespace State

/-- The crews of the load that adopt what its records wrote into their rooms. -/
def adopters (s : State) : List Crew := (s.loader.crews.filter (·.adopt)).filterMap fun e => s.crew e.id

/-- The rooms that FRAME and REPEAT records wrote and no adopting crew claims (R267). -/
def unclaimed (s : State) : List Nat :=
  s.loader.written.filter fun r => !(s.adopters.any fun c => c.anchorSuite.contains r)

/-- Steps 1 to 3 of R266. DESIGN CHOICE, unsafe: notes/assumptions/19. -/
def endCheck (s : State) (h : ImgHdr) (body : List Byte) : Option LoadBad :=
  let crc := ~~~((rtEnd :: [0, 0, 0, 8, 0, 0, 0]).foldl (fun c n => crcByte c (BitVec.ofNat 8 n)) s.loader.crc)
  if body.length ≠ 8 ∨ leAt body 4 4 ≠ 0 then some (.at_ lfBadRecord)
  else if leAt body 0 4 ≠ crc.toNat then some ⟨lfBadCheck, 1, none⟩
  else if s.rd pgCfg CFG_FRAMES_WRITES < h.frameCount then some (.at_ lfCountMismatch)
  else
    match s.unclaimed with
    | [] => none
    | r :: l => some ⟨lfUnclaimed, 0, some (l.foldl min r)⟩

/-- Step 4: an adopting crew's planes and state go to PLANES and FIRST_STATE (R262). -/
def copyCrew (s : State) (c : Crew) : State :=
  c.anchorSuite.zipIdx.foldl
    (fun s (r, p) =>
      (s.putWhole (planeAddr c p) planeBytes (Tbl.slice s.fabric (frameKey (planeFrame false r 0)) planeBytes)).putWhole
        (stateAddr c true p) imageBytes (Tbl.slice s.fabric (frameKey (stateFrame r 0)) imageBytes)) s

/-- Step 4: a position without an ESSENTIAL record gets a map of all ones (R264). -/
def defaultMaps (s : State) (e : LoadCrew) : State :=
  match s.crew e.id with
  | none => s
  | some c =>
    if e.adopt || e.data then
      ((List.range (c.w * c.h)).filter fun p => !e.maps.contains p).foldl
        (fun s p =>
          s.putWhole (c.emap * granBytes + p * mapBytes) mapBytes (Tbl.putBytes [] 0 (List.replicate mapBytes 0xFF))) s
    else s

/-- A boarding by a swap with no outgoing crew runs to its end; its DURATION is an open value. -/
def boardSwap (s : State) (id : Nat) (c : Crew) : State :=
  let w := wingOf c.anchor
  let n := s.drawn (2 ^ 24)
  let s := s.drew.startSwap w [] (some (id, s.heat id)) c.anchorSuite
  (((s.swapLoad w n).swapFlip w).swapRestore w n).swapReopen w n

/-- Step 5 for one crew (R263, R431). -/
def boardCrew (s : State) (e : LoadCrew) : Option LoadBad × State :=
  match s.crew e.id with
  | none => (none, s)
  | some c =>
    if !c.isPinned then (none, s)
    else if (List.range (c.w * c.h)).any fun p => (s.storeControl c.planes p).testBit 0 then (some (.crew bcBadImage), s)
    else if s.imageEdges c < (porchList c.porches).length then (some (.crew scBadDesc), s)
    else (none, if e.adopt then s.boarded e.id c c.anchorSuite else s.boardSwap e.id c)

/-- DESIGN CHOICE, unsafe: notes/assumptions/18. -/
def boardCrews (s : State) : List LoadCrew → Option LoadBad × State
  | [] => (none, s)
  | e :: l =>
    match s.boardCrew e with
    | (some b, s) => (some b, s)
    | (none, s) => s.boardCrews l

/-- Step 6: a HALL write, as one of the secure world (R265). -/
def hallWrite (s : State) (w : Nat × Word) : State :=
  if s.unreachable .coxS (w.1 / 0x1000) then s else s.writeAt .coxS (w.1 / 0x1000) (w.1 % 0x1000) w.2

/-- END acts. -/
def endAct (body : List Byte) (s : State) (h : ImgHdr) : Option LoadBad × State :=
  match s.endCheck h body with
  | some b => (some b, s)
  | none =>
    let s := s.loader.crews.foldl (fun s e => s.defaultMaps e) (s.adopters.foldl copyCrew s)
    match s.boardCrews s.loader.crews with
    | (some b, s) => (some b, s)
    | (none, s) =>
      let s := s.loader.hall.foldl hallWrite s
      let s := (s.modLoad fun l => { l with done := true }).wr pgCfg CFG_STAT_PHASE phFinish
      (none, (s.raise pgCfg 1).begin mStartup)

end State

/-- END_RECORD. -/
def execEndRecord (r : Rec) (s : State) : Host.Outcome State Fault Refusal :=
  .next (s.record rtEnd r (State.endAct r.body))

end Sys2Proof.Machine
end

