-- ==== Sys2Proof/Machine/Dispatch.lean ====
section
/-! DEFINITION. The dispatch: one arm for each command, a direct call of its meaning. -/

namespace Sys2Proof.Machine

/-- The effect of a command on everything but the queue. -/
def exec (i : Instr) (s : State) : Host.Outcome State Fault Refusal :=
  match i with
  | .alwaysOnSupplyValid => Sys2Proof.Machine.execAlwaysOnSupplyValid s
  | .alwQualified => Sys2Proof.Machine.execAlwQualified s
  | .alwaysOnSupplyLost => Sys2Proof.Machine.execAlwaysOnSupplyLost s
  | .pwrgdRise => Sys2Proof.Machine.execPwrgdRise s
  | .pwrgdFall => Sys2Proof.Machine.execPwrgdFall s
  | .coreRailLow h fab => Sys2Proof.Machine.execCoreRailLow h fab s
  | .rstNAssert => Sys2Proof.Machine.execRstNAssert s
  | .rstNRelease => Sys2Proof.Machine.execRstNRelease s
  | .galleryUp => Sys2Proof.Machine.execGalleryUp s
  | .galleryTrainTimeout => Sys2Proof.Machine.execGalleryTrainTimeout s
  | .romSelfCheckDone eastOk westOk => Sys2Proof.Machine.execRomSelfCheckDone eastOk westOk s
  | .bootStacksTrained repairs0 repairs1 repairs2 repairs3 => Sys2Proof.Machine.execBootStacksTrained repairs0 repairs1 repairs2 repairs3 s
  | .stackTrainTimeout stack => Sys2Proof.Machine.execStackTrainTimeout stack s
  | .halfHaltMessage h => Sys2Proof.Machine.execHalfHaltMessage h s
  | .errNWatchExpiry h => Sys2Proof.Machine.execErrNWatchExpiry h s
  | .thermalSample readings => Sys2Proof.Machine.execThermalSample readings s
  | .thermalComparatorFire h => Sys2Proof.Machine.execThermalComparatorFire h s
  | .modeTransitionMessage => Sys2Proof.Machine.execModeTransitionMessage s
  | .modeTransitionAck => Sys2Proof.Machine.execModeTransitionAck s
  | .modeReqStandby m h => Sys2Proof.Machine.execModeReqStandby m h s
  | .modeReqBoot m h => Sys2Proof.Machine.execModeReqBoot m h s
  | .modeReqTest m h => Sys2Proof.Machine.execModeReqTest m h s
  | .modeReqHalt m h => Sys2Proof.Machine.execModeReqHalt m h s
  | .modeReqInvalidTarget m h target => Sys2Proof.Machine.execModeReqInvalidTarget m h target s
  | .standbyEntryStart => Sys2Proof.Machine.execStandbyEntryStart s
  | .standbyPowerDown => Sys2Proof.Machine.execStandbyPowerDown s
  | .standbyEntryTimeout => Sys2Proof.Machine.execStandbyEntryTimeout s
  | .standbyWake sources lines pllReady => Sys2Proof.Machine.execStandbyWake sources lines pllReady s
  | .wakePllTimeout => Sys2Proof.Machine.execWakePllTimeout s
  | .testComplete failedRooms badFrames hallFail stackFail => Sys2Proof.Machine.execTestComplete failedRooms badFrames hallFail stackFail s
  | .leaseRenewal => Sys2Proof.Machine.execLeaseRenewal s
  | .leaseAck => Sys2Proof.Machine.execLeaseAck s
  | .followerLeaseLapse => Sys2Proof.Machine.execFollowerLeaseLapse s
  | .leaderLeaseLapse => Sys2Proof.Machine.execLeaderLeaseLapse s
  | .leadConflict h => Sys2Proof.Machine.execLeadConflict h s
  | .galleryLinkFail retrained => Sys2Proof.Machine.execGalleryLinkFail retrained s
  | .galleryRetry trained => Sys2Proof.Machine.execGalleryRetry trained s
  | .bar0NarrowAccess m off w => Sys2Proof.Machine.execBar0NarrowAccess m off w s
  | .bar0OutOfRangeAccess m off w => Sys2Proof.Machine.execBar0OutOfRangeAccess m off w s
  | .undefinedOffsetAccess m off w => Sys2Proof.Machine.execUndefinedOffsetAccess m off w s
  | .pageWorldViolation m off w => Sys2Proof.Machine.execPageWorldViolation m off w s
  | .closedPageAccess m off w => Sys2Proof.Machine.execClosedPageAccess m off w s
  | .unreachableHalfAccess m off w => Sys2Proof.Machine.execUnreachableHalfAccess m off w s
  | .registerWrite m a v high => Sys2Proof.Machine.execRegisterWrite m a v s high
  | .bar4Read fn off len => Sys2Proof.Machine.execBar4Read fn off len s
  | .bar4Write fn off bytes => Sys2Proof.Machine.execBar4Write fn off bytes s
  | .configRequest fn r => Sys2Proof.Machine.execConfigRequest fn r s
  | .perstAssert => Sys2Proof.Machine.execPerstAssert s
  | .functionLevelReset fn => Sys2Proof.Machine.execFunctionLevelReset fn s
  | .hostLinkDlUp speed width => Sys2Proof.Machine.execHostLinkDlUp speed width s
  | .hostLinkDlDown => Sys2Proof.Machine.execHostLinkDlDown s
  | .doorbellRun fn id heat => Sys2Proof.Machine.execDoorbellRun fn id heat s
  | .doorbellHint fn id heat => Sys2Proof.Machine.execDoorbellHint fn id heat s
  | .doorbellPark fn id heat => Sys2Proof.Machine.execDoorbellPark fn id heat s
  | .doorbellInvalidOp fn id heat op => Sys2Proof.Machine.execDoorbellInvalidOp fn id heat op s
  | .create p => Sys2Proof.Machine.execCreate p s
  | .query p => Sys2Proof.Machine.execQuery p s
  | .update p image => Sys2Proof.Machine.execUpdate p image s
  | .run p => Sys2Proof.Machine.execRun p s
  | .park p => Sys2Proof.Machine.execPark p s
  | .resume p => Sys2Proof.Machine.execResume p s
  | .restart p => Sys2Proof.Machine.execRestart p s
  | .reconfig p => Sys2Proof.Machine.execReconfig p s
  | .destroy p => Sys2Proof.Machine.execDestroy p s
  | .hint p => Sys2Proof.Machine.execHint p s
  | .stwBadOp p op => Sys2Proof.Machine.execStwBadOp p op s
  | .sliceExpiry id => Sys2Proof.Machine.execSliceExpiry id s
  | .crewIdle id => Sys2Proof.Machine.execCrewIdle id s
  | .ageingPeriod id => Sys2Proof.Machine.execAgeingPeriod id s
  | .swapSave wing now cycles => Sys2Proof.Machine.execSwapSave wing now cycles s
  | .swapLoad wing cycles => Sys2Proof.Machine.execSwapLoad wing cycles s
  | .swapFlip wing => Sys2Proof.Machine.execSwapFlip wing s
  | .swapRestore wing cycles => Sys2Proof.Machine.execSwapRestore wing cycles s
  | .swapReopen wing cycles => Sys2Proof.Machine.execSwapReopen wing cycles s
  | .quiesceLimitExpiry wing pinned now cycles => Sys2Proof.Machine.execQuiesceLimitExpiry wing pinned now cycles s
  | .faultNoticeRelease id => Sys2Proof.Machine.execFaultNoticeRelease id s
  | .heatCopyUpdate hall id => Sys2Proof.Machine.execHeatCopyUpdate hall id s
  | .idCoolingExpiry id => Sys2Proof.Machine.execIdCoolingExpiry id s
  | .roomRetire m h room => Sys2Proof.Machine.execRoomRetire m h room s
  | .lcFlush m wing => Sys2Proof.Machine.execLcFlush m wing s
  | .illegalCode room cell ins => Sys2Proof.Machine.execIllegalCode room cell ins s
  | .cupboardRead room cup r collide => Sys2Proof.Machine.execCupboardRead room cup r collide s
  | .cupboardWrite room cup r collide => Sys2Proof.Machine.execCupboardWrite room cup r collide s
  | .oarMul room oar t => Sys2Proof.Machine.execOarMul room oar t s
  | .oarMac room oar t => Sys2Proof.Machine.execOarMac room oar t s
  | .oarMsub room oar t => Sys2Proof.Machine.execOarMsub room oar t s
  | .oarLoad room oar t => Sys2Proof.Machine.execOarLoad room oar t s
  | .oarClear room oar t => Sys2Proof.Machine.execOarClear room oar t s
  | .oarEmit room oar t => Sys2Proof.Machine.execOarEmit room oar t s
  | .oarReservedOp room oar t => Sys2Proof.Machine.execOarReservedOp room oar t s
  | .roscWindowEnd wing band count => Sys2Proof.Machine.execRoscWindowEnd wing band count s
  | .roscCtrlWrite m wing v => Sys2Proof.Machine.execRoscCtrlWrite m wing v s
  | .windowRead id pos tag va len => Sys2Proof.Machine.execWindowRead id pos tag va len s
  | .windowWrite id pos va bytes => Sys2Proof.Machine.execWindowWrite id pos va bytes s
  | .memoryCompletion id heat tag => Sys2Proof.Machine.execMemoryCompletion id heat tag s
  | .patrolRead stack => Sys2Proof.Machine.execPatrolRead stack s
  | .zeroingFrameDone h => Sys2Proof.Machine.execZeroingFrameDone h s
  | .reclaimWalk h => Sys2Proof.Machine.execReclaimWalk h s
  | .frameTake p => Sys2Proof.Machine.execFrameTake p s
  | .frameGive p => Sys2Proof.Machine.execFrameGive p s
  | .granTake p => Sys2Proof.Machine.execGranTake p s
  | .granGive p => Sys2Proof.Machine.execGranGive p s
  | .invalCrew p => Sys2Proof.Machine.execInvalCrew p s
  | .invalPage p => Sys2Proof.Machine.execInvalPage p s
  | .invalAll p => Sys2Proof.Machine.execInvalAll p s
  | .invalComplete p => Sys2Proof.Machine.execInvalComplete p s
  | .pgtBadOp p op => Sys2Proof.Machine.execPgtBadOp p op s
  | .hatchPush id pos hatch len bytes also => Sys2Proof.Machine.execHatchPush id pos hatch len bytes s also
  | .hatchSend fn hatch len => Sys2Proof.Machine.execHatchSend fn hatch len s
  | .noticePost hatch number => Sys2Proof.Machine.execNoticePost hatch number s
  | .hatchDelivery hatch words => Sys2Proof.Machine.execHatchDelivery hatch words s
  | .hostCopy hatch => Sys2Proof.Machine.execHostCopy hatch s
  | .hatchReturn fn hatch count => Sys2Proof.Machine.execHatchReturn fn hatch count s
  | .ringHandoff hatch => Sys2Proof.Machine.execRingHandoff hatch s
  | .hatchOpen p => Sys2Proof.Machine.execHatchOpen p s
  | .hatchQuery p => Sys2Proof.Machine.execHatchQuery p s
  | .hatchClose p => Sys2Proof.Machine.execHatchClose p s
  | .hatchCloseComplete hatch => Sys2Proof.Machine.execHatchCloseComplete hatch s
  | .hatBadOp p op => Sys2Proof.Machine.execHatBadOp p op s
  | .linkFlit westPort f => Sys2Proof.Machine.execLinkFlit westPort f s
  | .linkNak westPort ack => Sys2Proof.Machine.execLinkNak westPort ack s
  | .linkRetrain westPort => Sys2Proof.Machine.execLinkRetrain westPort s
  | .linkTrainRetry westPort => Sys2Proof.Machine.execLinkTrainRetry westPort s
  | .courseLinkTrained westPort lanes serial => Sys2Proof.Machine.execCourseLinkTrained westPort lanes serial s
  | .linkDown westPort => Sys2Proof.Machine.execLinkDown westPort s
  | .breakLink pos => Sys2Proof.Machine.execBreakLink pos s
  | .heal pos => Sys2Proof.Machine.execHeal pos s
  | .segmentForward x residence => Sys2Proof.Machine.execSegmentForward x residence s
  | .segmentArrival x => Sys2Proof.Machine.execSegmentArrival x s
  | .courseRepresent src tag => Sys2Proof.Machine.execCourseRepresent src tag s
  | .ingressAgeExpiry src tag => Sys2Proof.Machine.execIngressAgeExpiry src tag s
  | .accept x => Sys2Proof.Machine.execAccept x s
  | .refuse x => Sys2Proof.Machine.execRefuse x s
  | .busy x => Sys2Proof.Machine.execBusy x s
  | .busyResend tag => Sys2Proof.Machine.execBusyResend tag s
  | .messageExpiry tag => Sys2Proof.Machine.execMessageExpiry tag s
  | .enum counter serial dist ringB taken => Sys2Proof.Machine.execEnum counter serial dist ringB s taken
  | .mapBeaconIn members => Sys2Proof.Machine.execMapBeaconIn members s
  | .mapWaitExpiry => Sys2Proof.Machine.execMapWaitExpiry s
  | .enumTimeout => Sys2Proof.Machine.execEnumTimeout s
  | .enumRetry => Sys2Proof.Machine.execEnumRetry s
  | .mapBeacon => Sys2Proof.Machine.execMapBeacon s
  | .join serial pos => Sys2Proof.Machine.execJoin serial pos s
  | .leave id => Sys2Proof.Machine.execLeave id s
  | .reqLeave m => Sys2Proof.Machine.execReqLeave m s
  | .reqJoin m => Sys2Proof.Machine.execReqJoin m s
  | .leaveDrainEnd => Sys2Proof.Machine.execLeaveDrainEnd s
  | .ringIdHoldExpiry id bar => Sys2Proof.Machine.execRingIdHoldExpiry id s bar
  | .imageHeader bytes => Sys2Proof.Machine.execImageHeader bytes s
  | .frameRecord r => Sys2Proof.Machine.execFrameRecord r s
  | .repeatRecord r => Sys2Proof.Machine.execRepeatRecord r s
  | .zeroRecord r => Sys2Proof.Machine.execZeroRecord r s
  | .essentialRecord r => Sys2Proof.Machine.execEssentialRecord r s
  | .crewRecord r => Sys2Proof.Machine.execCrewRecord r s
  | .hallRecord r => Sys2Proof.Machine.execHallRecord r s
  | .endRecord r => Sys2Proof.Machine.execEndRecord r s
  | .gcmSegment cipher tag => Sys2Proof.Machine.execGcmSegment cipher tag s
  | .loadDeadlineExpiry => Sys2Proof.Machine.execLoadDeadlineExpiry s
  | .loadCleanupDone => Sys2Proof.Machine.execLoadCleanupDone s
  | .chainPacket p => Sys2Proof.Machine.execChainPacket p s
  | .chainResend => Sys2Proof.Machine.execChainResend s
  | .chainStallExpiry => Sys2Proof.Machine.execChainStallExpiry s
  | .dmaChunk m => Sys2Proof.Machine.execDmaChunk m s
  | .dmaChunkDone ok bytes => Sys2Proof.Machine.execDmaChunkDone ok bytes s
  | .cfgDeadlineWrite m ms => Sys2Proof.Machine.execCfgDeadlineWrite m ms s
  | .attBootWrite m v => Sys2Proof.Machine.execAttBootWrite m v s
  | .atticProg m => Sys2Proof.Machine.execAtticProg m s
  | .atticProgDone written verified => Sys2Proof.Machine.execAtticProgDone written verified s
  | .recClearRooms m => Sys2Proof.Machine.execRecClearRooms m s
  | .recClearFrames m => Sys2Proof.Machine.execRecClearFrames m s
  | .recClearBoth m => Sys2Proof.Machine.execRecClearBoth m s
  | .recClearDone ok => Sys2Proof.Machine.execRecClearDone ok s
  | .lockStep => Sys2Proof.Machine.execLockStep s
  | .lockTimeout => Sys2Proof.Machine.execLockTimeout s
  | .ioStep => Sys2Proof.Machine.execIoStep s
  | .gsrStep => Sys2Proof.Machine.execGsrStep s
  | .weStep => Sys2Proof.Machine.execWeStep s
  | .runModeEntry => Sys2Proof.Machine.execRunModeEntry s
  | .progNLow => Sys2Proof.Machine.execProgNLow s
  | .g2Prog m => Sys2Proof.Machine.execG2Prog m s
  | .g2ClearDone => Sys2Proof.Machine.execG2ClearDone s
  | .g2Sync => Sys2Proof.Machine.execG2Sync s
  | .g2StreamHeader devId fmt nframes resv => Sys2Proof.Machine.execG2StreamHeader devId fmt nframes resv s
  | .g2Frame faddr data => Sys2Proof.Machine.execG2Frame faddr data s
  | .g2Crc crc => Sys2Proof.Machine.execG2Crc crc s
  | .g2StartDone => Sys2Proof.Machine.execG2StartDone s
  | .g2Calibration => Sys2Proof.Machine.execG2Calibration s
  | .g2CalibrationDone count => Sys2Proof.Machine.execG2CalibrationDone count s
  | .g2HostRead addr also => Sys2Proof.Machine.execG2HostRead addr s also
  | .g2HostWrite addr v also => Sys2Proof.Machine.execG2HostWrite addr v s also
  | .g2cRegWrite m addr v also => Sys2Proof.Machine.execG2cRegWrite m addr v s also
  | .g2UserWrite n v => Sys2Proof.Machine.execG2UserWrite n v s
  | .g2Sleep m => Sys2Proof.Machine.execG2Sleep m s
  | .g2DeepSleep m => Sys2Proof.Machine.execG2DeepSleep m s
  | .g2Run m => Sys2Proof.Machine.execG2Run m s
  | .g2TimerExpiry => Sys2Proof.Machine.execG2TimerExpiry s
  | .celTimerExpiry => Sys2Proof.Machine.execCelTimerExpiry s
  | .celTimerWrite m v => Sys2Proof.Machine.execCelTimerWrite m v s
  | .tickSwitch m crystal => Sys2Proof.Machine.execTickSwitch m crystal s
  | .xtalStart m => Sys2Proof.Machine.execXtalStart m s
  | .sourceReady h c => Sys2Proof.Machine.execSourceReady h c s
  | .hallMuxSwitch m h target => Sys2Proof.Machine.execHallMuxSwitch m h target s
  | .serviceMuxSwitch m h target => Sys2Proof.Machine.execServiceMuxSwitch m h target s
  | .switchEscape x => Sys2Proof.Machine.execSwitchEscape x s
  | .monitorWindow h counts => Sys2Proof.Machine.execMonitorWindow h counts s
  | .gateClose m h b => Sys2Proof.Machine.execGateClose m h b s
  | .gateEngineDone h b => Sys2Proof.Machine.execGateEngineDone h b s
  | .gatePortIdle h b => Sys2Proof.Machine.execGatePortIdle h b s
  | .gateForced h b off => Sys2Proof.Machine.execGateForced h b off s
  | .gateOpen m h b => Sys2Proof.Machine.execGateOpen m h b s
  | .opChange m h target => Sys2Proof.Machine.execOpChange m h target s
  | .opPllTimeout h => Sys2Proof.Machine.execOpPllTimeout h s
  | .opVoltageSettled h => Sys2Proof.Machine.execOpVoltageSettled h s
  | .avsTransaction h crcOk => Sys2Proof.Machine.execAvsTransaction h crcOk s
  | .vfabTargetWrite m h mv => Sys2Proof.Machine.execVfabTargetWrite m h mv s
  | .vfabStep h => Sys2Proof.Machine.execVfabStep h s
  | .governorSample h halfWatts hottest => Sys2Proof.Machine.execGovernorSample h halfWatts hottest s
  | .governorAction h => Sys2Proof.Machine.execGovernorAction h s
  | .governorUndo h => Sys2Proof.Machine.execGovernorUndo h s
  | .fmcMeasure m h => Sys2Proof.Machine.execFmcMeasure m h s
  | .fmcMeasurementEnd h edges => Sys2Proof.Machine.execFmcMeasurementEnd h edges s
  | .fmcRefLost h edges => Sys2Proof.Machine.execFmcRefLost h edges s
  | .pulseArrival h kind index => Sys2Proof.Machine.execPulseArrival h kind index s
  | .pulseHandshakeComplete h kind index => Sys2Proof.Machine.execPulseHandshakeComplete h kind index s
  | .crossingSideReset h kind index inFlight => Sys2Proof.Machine.execCrossingSideReset h kind index inFlight s
  | .crossingResync h kind index => Sys2Proof.Machine.execCrossingResync h kind index s
  | .softReset m page => Sys2Proof.Machine.execSoftReset m page s
  | .sliceStart h => Sys2Proof.Machine.execSliceStart h s
  | .sliceReport room failed duration => Sys2Proof.Machine.execSliceReport room failed duration s
  | .bstReq m h arg => Sys2Proof.Machine.execBstReq m h arg s
  | .scrubPassStart h lastMs => Sys2Proof.Machine.execScrubPassStart h lastMs s
  | .scrubFrame room frame upsets => Sys2Proof.Machine.execScrubFrame room frame upsets s
  | .coxRestart m h arg => Sys2Proof.Machine.execCoxRestart m h arg s
  | .coxFirmwareUpdate m h arg => Sys2Proof.Machine.execCoxFirmwareUpdate m h arg s
  | .coxRestartDone h => Sys2Proof.Machine.execCoxRestartDone h s
  | .memRetrain m stack => Sys2Proof.Machine.execMemRetrain m stack s
  | .memRetrainMigrate m stack => Sys2Proof.Machine.execMemRetrainMigrate m stack s
  | .stackRetrainDone stack trained repairs => Sys2Proof.Machine.execStackRetrainDone stack trained repairs s
  | .courseLaneRetrain m arg => Sys2Proof.Machine.execCourseLaneRetrain m arg s
  | .hostLinkRecovery m => Sys2Proof.Machine.execHostLinkRecovery m s
  | .hostLinkReeq m => Sys2Proof.Machine.execHostLinkReeq m s
  | .reeqTimeout => Sys2Proof.Machine.execReeqTimeout s
  | .unfreeze m kind id => Sys2Proof.Machine.execUnfreeze m kind id s
  | .lcsReqProd m => Sys2Proof.Machine.execLcsReqProd m s
  | .lcsReqRma m => Sys2Proof.Machine.execLcsReqRma m s
  | .lcsReqEnd m => Sys2Proof.Machine.execLcsReqEnd m s
  | .lcsReqInvalid m target => Sys2Proof.Machine.execLcsReqInvalid m target s
  | .lcsReqDone burnt => Sys2Proof.Machine.execLcsReqDone burnt s
  | .fuseEncRequired m => Sys2Proof.Machine.execFuseEncRequired m s
  | .fuseFallbackEn m => Sys2Proof.Machine.execFuseFallbackEn m s
  | .keyProgram m vbat index vbatGood => Sys2Proof.Machine.execKeyProgram m vbat index vbatGood s
  | .keyZeroise m vbat index => Sys2Proof.Machine.execKeyZeroise m vbat index s
  | .keyCheck m vbat index => Sys2Proof.Machine.execKeyCheck m vbat index s
  | .keyOpDone burnt => Sys2Proof.Machine.execKeyOpDone burnt s
  | .vbatLoss => Sys2Proof.Machine.execVbatLoss s
  | .tapBypass => Sys2Proof.Machine.execTapBypass s
  | .tapIdcode => Sys2Proof.Machine.execTapIdcode s
  | .tapSamplePreload bsr => Sys2Proof.Machine.execTapSamplePreload bsr s
  | .tapExtest => Sys2Proof.Machine.execTapExtest s
  | .tapClamp => Sys2Proof.Machine.execTapClamp s
  | .tapHighz => Sys2Proof.Machine.execTapHighz s
  | .pinFunctionSwitch m pin f => Sys2Proof.Machine.execPinFunctionSwitch m pin f s
  | .functionSwitchWindowEnd pin => Sys2Proof.Machine.execFunctionSwitchWindowEnd pin s
  | .pinOutWrite m h q v also => Sys2Proof.Machine.execPinOutWrite m h q v also s
  | .pinSetWrite m h q v also => Sys2Proof.Machine.execPinSetWrite m h q v also s
  | .pinClrWrite m h q v also => Sys2Proof.Machine.execPinClrWrite m h q v also s
  | .pinOeWrite m h q v also => Sys2Proof.Machine.execPinOeWrite m h q v also s
  | .coxGpioWrite oe q v also => Sys2Proof.Machine.execCoxGpioWrite oe q v also s
  | .sdwData h q mask v also => Sys2Proof.Machine.execSdwData h q mask v also s
  | .sdwSet h q mask also => Sys2Proof.Machine.execSdwSet h q mask also s
  | .sdwClr h q mask also => Sys2Proof.Machine.execSdwClr h q mask also s
  | .sdwOe h q mask v also => Sys2Proof.Machine.execSdwOe h q mask v also s
  | .pinInputChange pin level => Sys2Proof.Machine.execPinInputChange pin level s
  | .porchTokenBoundary h j seen ins acked => Sys2Proof.Machine.execPorchTokenBoundary h j seen ins acked s
  | .smbusBlockRead code addr pec => Sys2Proof.Machine.execSmbusBlockRead code s addr pec
  | .pageFreeze m page on => Sys2Proof.Machine.execPageFreeze m page on s
  | .irqForce m page v => Sys2Proof.Machine.execIrqForce m page v s
  | .irqEnableWrite m page v => Sys2Proof.Machine.execIrqEnableWrite m page v s
  | .pgIrqRawClear m page v => Sys2Proof.Machine.execPgIrqRawClear m page v s
  | .pgErrClear m page => Sys2Proof.Machine.execPgErrClear m page s
  | .pgWorldWrite m page secure => Sys2Proof.Machine.execPgWorldWrite m page secure s
  | .pgWorldLock m page => Sys2Proof.Machine.execPgWorldLock m page s
  | .mbSend m page len => Sys2Proof.Machine.execMbSend m page len s
  | .mbReply page words => Sys2Proof.Machine.execMbReply page words s
  | .tokenThroughStage wing room kind n => Sys2Proof.Machine.execTokenThroughStage wing room kind n s
  | .crystalCheckWindow alw => Sys2Proof.Machine.execCrystalCheckWindow alw s
  | .stackTemperatureRead stack t => Sys2Proof.Machine.execStackTemperatureRead stack t s
  | .ringTagCoolingExpiry tag => Sys2Proof.Machine.execRingTagCoolingExpiry tag s
  | .coreRailRestored h fab => Sys2Proof.Machine.execCoreRailRestored h fab s
  | .cclkFallingEdge din => Sys2Proof.Machine.execCclkFallingEdge din s
  | .hostLinkReturnToL0 => Sys2Proof.Machine.execHostLinkReturnToL0 s
  | .courseRetrainFail westPort now => Sys2Proof.Machine.execCourseRetrainFail westPort s now
  | .designInterruptRequest bits => Sys2Proof.Machine.execDesignInterruptRequest bits s

end Sys2Proof.Machine
end

