-- ==== Sys2Proof/Machine/Step.lean ====
section
/-! DEFINITION. The step: the block takes the command at the front of its queue. -/

namespace Sys2Proof.Machine

/-- One step: the command at the front of the queue, on the state with the queue's rest. With nothing in the queue the
block idles (notes/assumptions 1). DESIGN CHOICE, unsafe: notes/assumptions/1. -/
def step (s : State) : Host.Outcome State Fault Refusal :=
  match s.pending with
  | [] => .next s
  | c :: rest => exec c { s with pending := rest }

/-- The state with the command that a word of the table spells put at the front of its queue; unchanged where the word
spells none. DESIGN CHOICE, safe: notes/assumptions/5. -/
def State.withFetchWord (s : State) (nbits w : Nat) : State :=
  match decodeTableWord nbits w with
  | some c => { s with pending := c :: s.pending }
  | none => s

end Sys2Proof.Machine
end

