-- ==== Sys2Proof/Safety.lean ====
section
/-! DEFINITION. What counts as a safe run, in the terms that statements use: which parts of the state a command leaves
unchanged, the canonical form of memory, and when a register page admits an access. -/

namespace Sys2Proof.Machine

/-- A part of the state: one field of `State`. -/
inductive Part where
  | pending | regs | held | out | draws | fuses | straps | cellar | seq | power | cross
  | security | pins | doorway | porches | host | rooms | fabric | refs | sigs | blocks | lines | crews | ids | heatCopy
  | stamps | wings | portOps | mem | bad | stackCtl | frames | alloc | reads | attic | prog
  | recClear | retiring | chunk | loader | chain | g2 | selfTest | cox | hatches | gallery | course
  deriving DecidableEq, Repr

/-- Every part. -/
def Part.all : List Part :=
  [.pending, .regs, .held, .out, .draws, .fuses, .straps, .cellar, .seq, .power, .cross, .security, .pins, .doorway, .porches, .host, .rooms, .fabric, .refs, .sigs, .blocks, .lines] ++
    [.crews, .ids, .heatCopy, .stamps, .wings, .portOps, .mem, .bad, .stackCtl, .frames, .alloc, .reads, .attic, .prog, .recClear, .retiring, .chunk, .loader, .chain, .g2, .selfTest, .cox, .hatches, .gallery, .course]

/-- The parts of a list as the bits of a number, each at the place of its constructor. -/
def Part.mask (l : List Part) : Nat := l.foldr (fun p m => 2 ^ p.ctorIdx ||| m) 0

/-- Every part but those listed. -/
def Part.allBut (l : List Part) : List Part := Part.all.filter fun p => !(mask l).testBit p.ctorIdx

/-- Two states agree in a part. -/
def Part.same : Part → State → State → Prop
  | .pending, s, t => t.pending = s.pending
  | .regs, s, t => t.regs = s.regs
  | .held, s, t => t.held = s.held
  | .out, s, t => t.out = s.out
  | .draws, s, t => t.draws = s.draws
  | .fuses, s, t => t.fuses = s.fuses
  | .straps, s, t => t.straps = s.straps
  | .cellar, s, t => t.cellar = s.cellar
  | .seq, s, t => t.seq = s.seq
  | .power, s, t => t.power = s.power
  | .cross, s, t => t.cross = s.cross
  | .security, s, t => t.security = s.security
  | .pins, s, t => t.pins = s.pins
  | .doorway, s, t => t.doorway = s.doorway
  | .porches, s, t => t.porches = s.porches
  | .host, s, t => t.host = s.host
  | .rooms, s, t => t.rooms = s.rooms
  | .fabric, s, t => t.fabric = s.fabric
  | .refs, s, t => t.refs = s.refs
  | .sigs, s, t => t.sigs = s.sigs
  | .blocks, s, t => t.blocks = s.blocks
  | .lines, s, t => t.lines = s.lines
  | .crews, s, t => t.crews = s.crews
  | .ids, s, t => t.ids = s.ids
  | .heatCopy, s, t => t.heatCopy = s.heatCopy
  | .stamps, s, t => t.stamps = s.stamps
  | .wings, s, t => t.wings = s.wings
  | .portOps, s, t => t.portOps = s.portOps
  | .mem, s, t => t.mem = s.mem
  | .bad, s, t => t.bad = s.bad
  | .stackCtl, s, t => t.stackCtl = s.stackCtl
  | .frames, s, t => t.frames = s.frames
  | .alloc, s, t => t.alloc = s.alloc
  | .reads, s, t => t.reads = s.reads
  | .attic, s, t => t.attic = s.attic
  | .prog, s, t => t.prog = s.prog
  | .recClear, s, t => t.recClear = s.recClear
  | .retiring, s, t => t.retiring = s.retiring
  | .chunk, s, t => t.chunk = s.chunk
  | .loader, s, t => t.loader = s.loader
  | .chain, s, t => t.chain = s.chain
  | .g2, s, t => t.g2 = s.g2
  | .selfTest, s, t => t.selfTest = s.selfTest
  | .cox, s, t => t.cox = s.cox
  | .hatches, s, t => t.hatches = s.hatches
  | .gallery, s, t => t.gallery = s.gallery
  | .course, s, t => t.course = s.course

/-- Only the listed parts of the state may differ: every other register, table, buffer, memory byte and pin is as it
was. -/
def Unchanged (K : List Part) (s t : State) : Prop := ∀ p, p ∉ K → p.same s t

/-- The sparse tables are in canonical form, so that equal contents are equal data: memory, plane and state bytes rise by
address and list no 0; registers rise by offset and list no reset value; crews and hatches rise by number. -/
structure State.Canon (s : State) : Prop where
  mem     : Memory.wf s.mem = true
  fabric  : Memory.wf s.fabric = true
  regs    : Tbl.wf s.regs = true ∧ ∀ e ∈ s.regs, e.2 ≠ regReset e.1
  crews   : Tbl.wf s.crews = true
  hatches : Tbl.wf s.hatches = true

/-! ## What a statement assumes of a command -/

/-- A half is in HALT with a cause, which SYS.ERR shows. -/
def State.Halted (s : State) (h : Half) (code : Nat) : Prop :=
  s.mode h = mHalt ∧ s.rd (pgSys h) SYS_ERR_CODE = code ∧ s.rd (pgSys h) SYS_ERR_LAST = code

/-- A write of a master to a register reaches its page and acts there. -/
def State.Admits (s : State) (m : Master) (p off : Nat) : Prop := s.gate m p off true = (.pass, s)

/-- A GO that a master writes into a register acts. -/
def State.Takes (s : State) (m : Master) (p off : Nat) : Prop := s.Admits m p off ∧ s.on p PG_CTRL_EN = true

/-- A write of a virtual function to its page acts (R440, R443). -/
def State.VfServed (s : State) (n : Nat) : Prop :=
  n ≠ 0 ∧ n ≤ s.host.vfs ∧ n ∉ s.security.fns ∧ (inService (s.mode .east) = true ∨ s.mode .east = mStartup) ∧
    s.seq.standby = .none

/-- A GO that an issuer writes into a command port acts (R156, R440). -/
def State.PortTakes (s : State) (b : PortBlock) : Port → Prop
  | .page h m => s.Takes m (portPage b (.page h m)) 0x40
  | .vf n => s.VfServed n.toNat

/-- Pages whose registers from 0x040 on a write changes by their fields' access codes alone. -/
def plainKinds : List PageKind := [.fmc, .bst, .scr, .crs, .gal, .hlk, .stw, .pgt, .hat]

/-- The half that the command in a port concerns: that of the crew or the hatch it names, or of the allocator. -/
def State.portHalf (s : State) : PortBlock → Port → Half
  | .stw, p => idHalf (s.stwId p)
  | .pgt, p => s.pgtHalf p
  | .hat, p => hatchHalf (s.portRd .hat p HAT_ARG_HATCH)

/-- A port that is free takes a GO, where the half that serves the command is not in HALT (R34). -/
def State.PortFree (s : State) (b : PortBlock) (p : Port) : Prop :=
  s.PortTakes b p ∧ s.portBusy b p = false ∧ s.mode (s.portHalf b p) ≠ mHalt

/-- The result of a port: VALID, not BUSY, and CODE. -/
def State.Answered (s : State) (b : PortBlock) (p : Port) (code : Nat) : Prop :=
  s.portBusy b p = false ∧ s.portRd b p (resultFlds b).1 = 1 ∧ s.portRd b p (resultFlds b).2.2.2 = code

/-- A free Steward port names a crew that its issuer may act on, at the crew's heat (R156, R157). -/
structure State.StwNames (s : State) (p : Port) (id : Nat) (c : Crew) : Prop where
  free  : s.PortFree .stw p
  arg   : s.stwId p = id
  ok    : idOk id = true
  half  : portServes p (idHalf id) = true
  crew  : s.crew id = some c
  owner : mayAct (portOwner p) c.owner = true
  heat  : s.portRd .stw p STW_CMD_ARG_HEAT = c.heat

/-- A write of a function to its doorbell page acts (R147, R443). -/
def State.BellServed (s : State) (fn : Nat) : Prop :=
  fn ≤ s.host.vfs ∧ fn ∉ s.security.fns ∧ (inService (s.mode .east) = true ∨ s.mode .east = mStartup) ∧
    s.seq.standby = .none

/-- A function's doorbell names a crew that the function may act on, at the crew's heat (R148). -/
structure State.BellNames (s : State) (fn id heat : Nat) (c : Crew) : Prop where
  served : s.BellServed fn
  reach  : idHalf id = .east ∨ s.galleryUp = true ∧ s.cut .east = false
  mode   : s.mode (idHalf id) ≠ mHalt
  ok     : idOk id = true
  crew   : s.crew id = some c
  heat   : c.heat = heat
  world  : s.ownerWorld fn = c.world
  owner  : mayAct fn c.owner = true

/-- A record of a type comes next in the image that the loader reads, and its form holds (R255). -/
structure State.RecordNext (s : State) (typ : Nat) (r : Rec) (h : ImgHdr) (hd : List Byte) : Prop where
  image : s.loader.hdr = some h
  head  : s.plainPeek 8 = some hd
  live  : s.loading = true ∧ s.phase = phRecords
  kind  : leAt hd 0 1 = typ
  resv  : leAt hd 1 3 = 0 ∧ r.resv = 0
  len   : leAt hd 4 4 = r.bodyLen ∧ r.bodyLen % 8 = 0
  fits  : s.loader.pos + 8 + r.bodyLen ≤ hdrBytes + h.plainLen
  last  : typ = rtEnd → s.loader.pos + 8 + r.bodyLen = hdrBytes + h.plainLen
  body  : s.plainPeek (8 + r.bodyLen) = some (hd ++ r.body)
  read  : h.encrypted = true ∨ s.sourceLost s.loader.pos (8 + r.bodyLen) = false

/-- A record that acted is taken from the image and enters the image's CRC (R266). -/
def State.recordTaken (s : State) (r : Rec) (hd : List Byte) : State :=
  (s.plainTake (8 + r.bodyLen)).modLoad fun l => { l with crc := (hd ++ r.body).foldl crcByte l.crc }

/-- A record fails the load: its code, its type, the detail, and where it begins (R271). -/
def State.recordFailed (s : State) (typ pos : Nat) (b : LoadBad) : State := s.loadFail b.code typ b.detail (b.pos.getD pos)

/-- An access meets neither a sleeping device, a frozen master nor a mode that bars it (R407, Table 14.13). -/
structure State.Served (s : State) (m : Master) (p off : Nat) (write : Bool) : Prop where
  on     : s.masterMode m ≠ mOff ∧ s.masterMode m ≠ mCellar
  awake  : s.hostWake m p off write = s
  thawed : s.frozenMaster m = false
  mode   : s.modeGate m p write (off == 0x10) = .pass

/-- An idle oar has done an operation: its accumulator, and its result token where one is asked for (R67 to R69). -/
structure State.OarDid (s : State) (r n : Nat) (sends : Bool) (o : Oar) (t : State) : Prop where
  oar   : t.oar r n = o
  token : t.out = if sends then .token r (2056 + n) o.token :: s.out else s.out
  block : t.block r (8 + n) = { waiting := none, ack := true, flight := if sends then [some o.token] else [], gap := false }
  rest  : Unchanged [.out, .fabric, .blocks] s t

/-- A control message was sent on a ring: its segment, with BCAST and a good CRC, goes after it, and whatever flits the link's
credit allows (R218, R224, R228). -/
def State.Told (s t : State) (typ : Nat) (ringB : Bool) (payload : List Nat) : Prop :=
  ∃ sent g, t.out = sent ++ .segment g :: .ringCtl typ ringB payload :: s.out ∧ g.typ = BitVec.ofNat 8 typ ∧
    g.bcast = true ∧ g.ringB = ringB ∧ g.crc = segSum g ∧ ∀ e ∈ sent, ∃ w f, e = Emission.flit w f

/-- A control message was sent on both rings (R226). -/
def State.ToldBoth (s t : State) (typ : Nat) (payload : List Nat) : Prop :=
  ∃ u : State, s.Told u typ false payload ∧ u.Told t typ true payload

/-- A half has entered HALT with a code; the other half keeps its mode, and ERR_N is low (R28, R34). -/
structure State.HaltDid (s : State) (h : Half) (code : Nat) (t : State) : Prop where
  halted : t.Halted h code
  other  : t.mode (other h) = s.mode (other h)
  line   : t.errN = true
  rest   : Unchanged [.regs, .out, .seq, .loader, .g2, .selfTest] s t

end Sys2Proof.Machine

namespace Sys2Proof

open Machine

/-! ## The footprint of a command -/

/-- The parts of the state that a command may change; it leaves every other part as it is. -/
def Instr.touches : Instr → List Part
  | .alwaysOnSupplyValid => [.cellar]
  | .alwQualified | .alwaysOnSupplyLost | .coreRailLow .. | .galleryUp | .modeReqStandby .. | .modeReqBoot .. | .modeReqTest
      .. | .modeReqHalt .. | .modeReqInvalidTarget .. | .testComplete .. | .registerWrite .. | .coreRailRestored .. => Part.allBut
      [.pending, .straps]
  | .pwrgdRise | .pwrgdFall | .rstNAssert => Part.allBut [.pending]
  | .rstNRelease => [.regs, .out, .draws, .straps, .seq, .power, .rooms, .frames, .loader, .g2, .selfTest]
  | .galleryTrainTimeout | .stackTrainTimeout .. | .halfHaltMessage .. | .errNWatchExpiry .. | .modeTransitionMessage |
      .lockTimeout => [.regs, .out, .seq, .loader, .g2, .selfTest]
  | .romSelfCheckDone .. => [.regs, .out, .draws, .seq, .cross, .porches, .loader, .g2, .selfTest, .cox]
  | .bootStacksTrained .. | .modeTransitionAck | .standbyEntryTimeout | .courseLinkTrained .. | .runModeEntry | .sliceStart ..
      | .sliceReport .. | .coxRestartDone .. | .reeqTimeout | .hostLinkReturnToL0 | .courseRetrainFail .. => Part.allBut
      [.pending, .held, .fuses, .straps, .cellar, .cross, .pins, .heatCopy, .prog, .recClear, .chunk]
  | .thermalSample .. => [.regs, .out, .cellar, .seq, .power, .rooms, .loader, .g2, .selfTest]
  | .thermalComparatorFire .. => [.regs, .out, .draws, .cellar, .seq, .power, .cross, .porches, .rooms, .loader, .g2,
      .selfTest]
  | .standbyEntryStart => [.draws, .seq, .doorway, .porches, .rooms, .fabric, .sigs, .blocks, .crews, .wings, .reads]
  | .standbyPowerDown => [.regs, .out, .draws, .seq, .power, .cross, .porches]
  | .standbyWake .. | .bar0NarrowAccess .. | .configRequest .. | .functionLevelReset .. | .progNLow | .celTimerExpiry |
      .pinInputChange .. => Part.allBut [.pending, .held, .fuses, .straps, .cellar, .security, .lines, .ids, .heatCopy, .stamps,
      .alloc, .prog, .recClear, .chunk, .loader, .chain, .selfTest, .course]
  | .wakePllTimeout => Part.allBut [.pending, .held, .fuses, .straps, .cellar, .power, .cross, .security, .lines, .ids,
      .heatCopy, .stamps, .alloc, .prog, .recClear, .chunk, .loader, .chain, .selfTest, .course]
  | .leaseRenewal => [.regs, .out]
  | .leaseAck | .followerLeaseLapse | .linkRetrain .. | .linkTrainRetry .. | .g2Sync | .g2UserWrite .. | .g2TimerExpiry |
      .designInterruptRequest .. => [.regs]
  | .leaderLeaseLapse | .leadConflict .. | .hostLinkDlUp .. | .hostLinkDlDown | .roscWindowEnd .. | .fmcMeasurementEnd .. |
      .fmcRefLost .. | .mbReply .. => [.regs, .out, .host, .cox]
  | .galleryLinkFail .. => [.regs, .out, .seq, .host, .loader, .g2, .selfTest, .cox, .gallery]
  | .galleryRetry .. | .quiesceLimitExpiry .. | .stackRetrainDone .. => Part.allBut [.pending, .held, .fuses, .straps,
      .cellar, .pins, .heatCopy, .prog, .recClear, .chunk]
  | .bar0OutOfRangeAccess .. | .undefinedOffsetAccess .. | .pageWorldViolation .. | .closedPageAccess .. |
      .unreachableHalfAccess .. | .bar4Read .. | .bar4Write .. | .query .. | .update .. | .park .. | .resume .. | .restart .. |
      .reconfig .. | .hint .. | .stwBadOp .. | .roomRetire .. | .lcFlush .. | .roscCtrlWrite .. | .frameTake .. | .frameGive .. |
      .invalCrew .. | .invalPage .. | .invalAll .. | .pgtBadOp .. | .hatchPush .. | .hatchSend .. | .hatchReturn .. | .hatchOpen
      .. | .hatchQuery .. | .hatchClose .. | .hatBadOp .. | .cfgDeadlineWrite .. | .g2Prog .. | .g2HostRead .. | .g2HostWrite .. |
      .g2cRegWrite .. | .g2Sleep .. | .g2DeepSleep .. | .g2Run .. | .celTimerWrite .. | .xtalStart .. | .hallMuxSwitch .. |
      .serviceMuxSwitch .. | .gateClose .. | .gateOpen .. | .opChange .. | .vfabTargetWrite .. | .fmcMeasure .. | .unfreeze .. |
      .lcsReqProd .. | .lcsReqRma .. | .lcsReqEnd .. | .lcsReqInvalid .. | .fuseEncRequired .. | .fuseFallbackEn .. | .keyProgram
      .. | .keyZeroise .. | .keyCheck .. | .pinFunctionSwitch .. | .pinOutWrite .. | .pinSetWrite .. | .pinClrWrite .. |
      .pinOeWrite .. | .coxGpioWrite .. | .sdwData .. | .sdwSet .. | .sdwClr .. | .sdwOe .. | .irqForce .. | .irqEnableWrite .. |
      .pgIrqRawClear .. | .pgErrClear .. | .pgWorldWrite .. | .pgWorldLock .. | .mbSend .. => Part.allBut [.pending, .held,
      .fuses, .straps, .cellar, .lines, .ids, .heatCopy, .stamps, .alloc, .prog, .recClear, .chunk, .loader, .chain, .selfTest,
      .course]
  | .perstAssert => Part.allBut [.pending, .fuses, .straps, .cellar, .cross, .pins, .heatCopy, .prog, .recClear, .chunk]
  | .doorbellRun .. | .doorbellHint .. | .doorbellPark .. | .doorbellInvalidOp .. | .run .. => Part.allBut [.pending, .held,
      .fuses, .straps, .cellar, .lines, .ids, .heatCopy, .alloc, .prog, .recClear, .chunk, .loader, .chain, .selfTest, .course]
  | .create .. => Part.allBut [.pending, .held, .fuses, .straps, .cellar, .lines, .heatCopy, .alloc, .prog, .recClear, .chunk,
      .loader, .chain, .selfTest, .course]
  | .destroy .. => Part.allBut [.pending, .held, .fuses, .straps, .cellar, .heatCopy, .prog, .recClear, .chunk, .loader,
      .chain, .selfTest, .course]
  | .sliceExpiry .. => [.regs, .out, .draws, .doorway, .host, .rooms, .fabric, .refs, .sigs, .blocks, .crews, .wings,
      .portOps, .mem, .bad, .stackCtl, .frames, .reads, .attic, .cox, .hatches, .gallery]
  | .crewIdle .. | .pulseHandshakeComplete .. => Part.allBut [.pending, .held, .fuses, .straps, .cellar, .seq, .power,
      .security, .pins, .porches, .lines, .ids, .heatCopy, .stamps, .alloc, .prog, .recClear, .retiring, .chunk, .loader, .chain,
      .g2, .selfTest, .course]
  | .ageingPeriod .. => [.regs, .out, .draws, .doorway, .host, .rooms, .fabric, .refs, .sigs, .blocks, .crews, .stamps,
      .wings, .mem, .bad, .stackCtl, .frames, .reads, .attic, .cox, .hatches, .gallery]
  | .swapSave .. | .swapLoad .. | .swapRestore .. | .swapReopen .. => Part.allBut [.pending, .held, .fuses, .straps, .cellar,
      .power, .pins, .heatCopy, .prog, .recClear, .chunk, .loader, .chain, .g2, .selfTest, .course]
  | .swapFlip .. => [.draws, .cross, .porches, .rooms, .wings]
  | .faultNoticeRelease .. => [.regs, .out, .host, .crews, .mem, .bad, .stackCtl, .frames, .attic, .cox, .hatches, .gallery]
  | .heatCopyUpdate .. => [.regs, .out, .host, .heatCopy, .cox, .hatches]
  | .idCoolingExpiry .. => [.ids]
  | .illegalCode .. => [.rooms]
  | .cupboardRead .. | .cupboardWrite .. => [.out, .draws, .fabric, .blocks]
  | .oarMul .. | .oarMac .. | .oarMsub .. | .oarLoad .. | .oarClear .. | .oarEmit .. | .oarReservedOp .. => [.out, .fabric,
      .blocks]
  | .windowRead .. | .windowWrite .. => Part.allBut [.pending, .held, .fuses, .straps, .cellar, .seq, .power, .cross, .pins,
      .refs, .lines, .ids, .heatCopy, .portOps, .alloc, .prog, .recClear, .retiring, .chunk, .loader, .chain, .g2, .selfTest,
      .course]
  | .memoryCompletion .. => [.regs, .out, .rooms, .blocks, .crews, .reads]
  | .patrolRead .. => [.regs, .out, .host, .mem, .bad, .stackCtl, .frames, .attic, .cox, .gallery]
  | .zeroingFrameDone .. => [.draws, .mem, .bad, .frames, .alloc]
  | .reclaimWalk .. => [.regs, .out, .host, .stackCtl, .frames, .alloc, .attic, .cox, .gallery]
  | .granTake .. | .granGive .. => Part.allBut [.pending, .held, .fuses, .straps, .cellar, .lines, .ids, .heatCopy, .stamps,
      .prog, .recClear, .chunk, .loader, .chain, .selfTest, .course]
  | .invalComplete .. => [.regs, .out, .host, .portOps, .cox]
  | .noticePost .. => Part.allBut [.pending, .held, .fuses, .straps, .cellar, .seq, .power, .cross, .security, .pins,
      .porches, .lines, .ids, .heatCopy, .alloc, .prog, .recClear, .retiring, .chunk, .loader, .chain, .g2, .selfTest, .course]
  | .hatchDelivery .. => [.regs, .out, .draws, .doorway, .porches, .host, .rooms, .fabric, .sigs, .blocks, .crews, .wings,
      .mem, .bad, .stackCtl, .frames, .reads, .attic, .cox, .hatches, .gallery]
  | .hostCopy .. => [.regs, .out, .host, .stackCtl, .frames, .attic, .cox, .hatches, .gallery]
  | .ringHandoff .. => [.regs, .out, .draws, .security, .host, .mem, .bad, .stackCtl, .frames, .attic, .cox, .hatches,
      .gallery, .course]
  | .hatchCloseComplete .. => [.regs, .out, .host, .portOps, .mem, .bad, .cox, .hatches]
  | .linkFlit .. | .linkNak .. | .segmentForward .. | .mapWaitExpiry | .enumRetry => [.regs, .out, .course]
  | .linkDown .. | .breakLink .. | .heal .. | .ingressAgeExpiry .. | .enumTimeout | .mapBeacon | .leave .. => [.regs, .out,
      .host, .cox, .course]
  | .segmentArrival .. | .reqLeave .. | .reqJoin .. => Part.allBut [.pending, .held, .fuses, .straps, .cellar, .lines, .ids,
      .heatCopy, .stamps, .alloc, .prog, .recClear, .chunk, .loader, .chain, .selfTest]
  | .courseRepresent .. => [.regs, .out, .security, .host, .mem, .bad, .stackCtl, .frames, .attic, .cox, .hatches, .gallery,
      .course]
  | .accept .. | .refuse .. | .busy .. | .enum .. | .mapBeaconIn .. | .chainPacket .. => [.regs, .out, .draws, .seq,
      .security, .host, .mem, .bad, .stackCtl, .frames, .alloc, .attic, .loader, .chain, .g2, .selfTest, .cox, .hatches, .gallery,
      .course]
  | .busyResend .. => [.regs, .out, .security, .host, .mem, .bad, .stackCtl, .frames, .attic, .chain, .cox, .hatches,
      .gallery, .course]
  | .messageExpiry .. | .leaveDrainEnd => [.regs, .out, .host, .chain, .cox, .course]
  | .join .. => [.regs, .out, .draws, .host, .cox, .course]
  | .ringIdHoldExpiry .. | .ringTagCoolingExpiry .. => [.course]
  | .imageHeader .. | .hallRecord .. | .gcmSegment .. | .loadDeadlineExpiry | .dmaChunkDone .. => [.regs, .out, .seq, .host,
      .loader, .g2, .selfTest, .cox]
  | .frameRecord .. | .repeatRecord .. | .zeroRecord .. => [.regs, .out, .seq, .host, .fabric, .refs, .loader, .g2, .selfTest,
      .cox]
  | .essentialRecord .. => [.regs, .out, .seq, .host, .mem, .bad, .loader, .g2, .selfTest, .cox]
  | .crewRecord .. => [.regs, .out, .seq, .porches, .host, .rooms, .crews, .ids, .stamps, .mem, .bad, .alloc, .loader, .g2,
      .selfTest, .cox, .hatches]
  | .endRecord .. => Part.allBut [.pending, .fuses, .straps, .chunk]
  | .loadCleanupDone => Part.allBut [.pending, .held, .fuses, .straps, .cellar, .cross, .pins, .prog, .recClear, .chunk]
  | .chainResend => [.regs, .out, .draws, .security, .host, .mem, .bad, .stackCtl, .frames, .attic, .chain, .cox, .hatches,
      .gallery, .course]
  | .chainStallExpiry => [.regs, .out, .seq, .host, .loader, .chain, .g2, .selfTest, .cox]
  | .dmaChunk .. => Part.allBut [.pending, .held, .fuses, .straps, .cellar, .lines, .ids, .heatCopy, .stamps, .alloc, .prog,
      .recClear, .chain, .selfTest, .course]
  | .attBootWrite .. | .pageFreeze .. => Part.allBut [.pending, .fuses, .straps, .cellar, .lines, .ids, .heatCopy, .stamps,
      .alloc, .prog, .recClear, .chunk, .loader, .chain, .selfTest, .course]
  | .atticProg .. => Part.allBut [.pending, .held, .fuses, .straps, .cellar, .lines, .ids, .heatCopy, .stamps, .alloc,
      .recClear, .chunk, .loader, .chain, .selfTest, .course]
  | .atticProgDone .. => [.regs, .out, .draws, .host, .stackCtl, .frames, .attic, .prog, .cox, .gallery]
  | .recClearRooms .. | .recClearFrames .. | .recClearBoth .. => Part.allBut [.pending, .held, .fuses, .straps, .cellar,
      .lines, .ids, .heatCopy, .stamps, .alloc, .prog, .chunk, .loader, .chain, .selfTest, .course]
  | .recClearDone .. => [.regs, .out, .host, .attic, .recClear, .cox]
  | .lockStep => [.regs, .loader]
  | .ioStep => [.regs, .pins, .loader]
  | .gsrStep => [.regs, .seq, .fabric, .sigs, .blocks, .lines, .loader]
  | .weStep => [.regs, .out, .seq, .fabric, .blocks, .loader]
  | .g2ClearDone | .g2Frame .. => [.regs, .out, .host, .mem, .bad, .g2, .cox]
  | .g2StreamHeader .. | .g2Crc .. | .g2CalibrationDone .. => [.regs, .out, .host, .g2, .cox]
  | .g2StartDone => Part.allBut [.pending, .held, .fuses, .straps, .cellar, .power, .pins, .heatCopy, .prog, .recClear,
      .chunk, .loader, .chain, .selfTest, .course]
  | .g2Calibration | .cclkFallingEdge .. => [.g2]
  | .tickSwitch .. => Part.allBut [.pending, .held, .fuses, .straps, .lines, .ids, .heatCopy, .stamps, .alloc, .prog,
      .recClear, .chunk, .loader, .chain, .selfTest, .course]
  | .sourceReady .. => Part.allBut [.pending, .held, .fuses, .straps, .cellar, .security, .lines, .ids, .heatCopy, .stamps,
      .alloc, .prog, .recClear, .chunk, .chain, .course]
  | .switchEscape .. => [.regs, .out, .draws, .cellar, .power, .cross, .porches, .host, .cox]
  | .monitorWindow .. => [.regs, .out, .draws, .cellar, .seq, .power, .cross, .porches, .host, .loader, .g2, .selfTest, .cox]
  | .gateEngineDone .. | .vfabStep .. => [.power]
  | .gatePortIdle .. | .gateForced .. => [.regs, .power]
  | .opPllTimeout .. | .opVoltageSettled .. | .avsTransaction .. | .governorAction .. => [.regs, .out, .draws, .power, .cross,
      .porches, .host, .cox]
  | .governorSample .. => [.regs, .draws, .power]
  | .governorUndo .. => [.regs, .draws, .power, .cross, .porches]
  | .pulseArrival .. => [.regs, .cross]
  | .crossingSideReset .. | .crossingResync .. => [.cross]
  | .softReset .. => Part.allBut [.pending, .fuses, .straps, .cellar, .chunk]
  | .bstReq .. | .memRetrain .. | .memRetrainMigrate .. | .courseLaneRetrain .. | .hostLinkRecovery .. | .hostLinkReeq .. =>
      Part.allBut [.pending, .held, .fuses, .straps, .cellar, .heatCopy, .prog, .recClear, .chunk]
  | .scrubPassStart .. => [.regs, .selfTest]
  | .scrubFrame .. => Part.allBut [.pending, .held, .fuses, .straps, .cellar, .seq, .power, .cross, .security, .pins, .refs,
      .lines, .ids, .heatCopy, .stamps, .alloc, .prog, .recClear, .retiring, .chunk, .loader, .chain, .g2, .course]
  | .coxRestart .. | .coxFirmwareUpdate .. => Part.allBut [.pending, .fuses, .straps, .cellar, .heatCopy, .prog, .recClear,
      .chunk]
  | .lcsReqDone .. | .keyOpDone .. => [.regs, .out, .security, .host, .cox]
  | .vbatLoss => [.security]
  | .tapBypass | .tapIdcode => [.out, .pins]
  | .tapSamplePreload .. => [.out, .draws, .pins]
  | .tapExtest | .tapClamp | .tapHighz => [.regs, .out, .pins]
  | .functionSwitchWindowEnd .. => [.pins]
  | .porchTokenBoundary .. => [.regs, .out, .porches, .host, .fabric, .sigs, .cox]
  | .smbusBlockRead .. => [.out]
  | .tokenThroughStage .. => [.out, .doorway, .porches, .rooms, .fabric, .sigs, .blocks, .lines]
  | .crystalCheckWindow .. => [.regs, .out, .draws, .cross, .porches, .host, .cox]
  | .stackTemperatureRead .. => [.regs, .out, .seq, .power, .rooms, .loader, .g2, .selfTest]

end Sys2Proof
end

