-- ==== Sys2Proof/Certificates/Slice0/Obligations.lean ====
section
/-! DEFINITION. The statements for the provers. Most are per family of commands: for states and operands that meet
the hypotheses, what each command answers and what it leaves (`Unchanged` lists the parts of the state that may differ);
the rules that their docstrings name are where to look, and only what the clauses say is stated.
After them stand the statements about the queue, the footprints, the canonical form and reset, then those about registers,
windows, memory, crews, worlds and page headers; the last four say that
the commands whose own effect is a HALT, a refusal or a limit complete. -/

section
open Sys2Proof Sys2Proof.Machine State

/-- Supplies and resets (R29, R366, R369, R464): the always-on supply and its qualification in OFF, the
loss of a supply from any mode, PWRGD and the core rails, RST_N. -/
def Obligations.SupplyCommandsAct : Prop :=
  (∀ s : State, s.devMode = mOff →
    ∃ t, exec .alwaysOnSupplyValid s = .next t ∧ t.cellar.alwaysOn = true ∧ Unchanged [.cellar] s t) ∧
  (∀ s : State, s.devMode = mOff → s.cellar.alwaysOn = true →
    ∃ t, exec .alwQualified s = .next t ∧ t.cellar.alwQual = true ∧ t.mem = [] ∧
      ∀ h, t.mode h = if s.railsGood then mBoot else mCellar) ∧
  (∀ s : State, ∃ t, exec .alwaysOnSupplyLost s = .next t ∧ t.cellar.alwaysOn = false ∧ t.mem = [] ∧
    ∀ h, t.mode h = mOff) ∧
  (∀ s : State, s.devMode = mCellar → s.cellar.alwQual = true → s.cellar.railLow = [] →
    ∃ t, exec .pwrgdRise s = .next t ∧ t.straps.pwrgd = true ∧ t.seq.boot = 1 ∧ ∀ h, t.mode h = mBoot) ∧
  (∀ s : State, s.devMode ≠ mOff → s.devMode ≠ mCellar →
    ∃ t, exec .pwrgdFall s = .next t ∧ t.straps.pwrgd = false ∧ t.mem = [] ∧
      ∀ h, t.mode h = mCellar ∧ t.rd (pgSys h) SYS_MODE_PREV = s.devMode % 16) ∧
  (∀ (s : State) (h : Half) (fab : Bool), s.devMode ≠ mOff → s.devMode ≠ mCellar →
    ∃ t, exec (.coreRailLow h fab) s = .next t ∧ (h, fab) ∈ t.cellar.railLow ∧ t.mem = [] ∧ ∀ k, t.mode k = mCellar) ∧
  (∀ (s : State) (h : Half) (fab : Bool), s.devMode = mCellar → s.straps.pwrgd = true → s.cellar.alwQual = true →
    s.cellar.railLow = [(h, fab)] →
    ∃ t, exec (.coreRailRestored h fab) s = .next t ∧ t.cellar.railLow = [] ∧ ∀ k, t.mode k = mBoot) ∧
  (∀ s : State, s.devMode ≠ mOff → s.devMode ≠ mCellar →
    ∃ t, exec .rstNAssert s = .next t ∧ t.straps.rstLow = true ∧ t.seq.boot = 1 ∧ t.mem = s.mem ∧ ∀ h, t.mode h = mBoot) ∧
  (∀ s : State, s.seq.boot ≠ 1 →
    ∃ t, exec .rstNRelease s = .next t ∧ t.straps.rstLow = false ∧ Unchanged [.straps] s t) ∧
  (∀ s : State, s.seq.boot = 1 → s.srcReady .east .irc = true → s.srcReady .west .irc = true →
    s.fuses.readFails = false → s.cellar.hottest < 100 →
    ∃ t, exec .rstNRelease s = .next t ∧ t.straps.rstLow = false ∧ t.seq.boot = 3)

/-- The release sequence (R369) where its checks pass: the Gallery's training makes the leader check (Table
11.8) and gives both halves the lease; the ROM self-check takes the halls to OP4; the stacks' training takes the device
to LOAD-LOCAL, or to TEST as Table 1.6 gives. -/
def Obligations.BootAdvances : Prop :=
  (∀ s : State, s.seq.boot = 3 → s.mode .east = mBoot → s.mode .west = mBoot →
    s.rd (pgSys .east) SYS_ROLE_LEAD_SEL = s.rd (pgSys .west) SYS_ROLE_LEAD_SEL → s.fuses.serial.east ≠ s.fuses.serial.west →
    ∃ t, exec .galleryUp s = .next t ∧ t.galleryUp = true ∧ t.seq.boot = 5 ∧
      t.rd (pgSys (if s.on (pgSys .east) SYS_ROLE_LEAD_SEL then .west else .east)) SYS_ROLE_LEADER = 1 ∧
      ∀ h, t.rd (pgSys h) SYS_ROLE_LEASE_OK = 1 ∧ t.rd (pgSys h) SYS_LEASE_AGE = 0) ∧
  (∀ s : State, s.seq.boot = 5 →
    ∃ t, exec (.romSelfCheckDone true true) s = .next t ∧ t.seq.boot = 6 ∧
      ∀ h, t.rd (pgPwr h) PWR_OP_STAT_OP = 4 ∧ t.rd (pgPwr h) PWR_OP_STAT_ON_IRC = 0 ∧
        t.rd (pgClk h) CLK_SRC_STAT_HALL_SEL = 0 ∧ (t.cox.get h).image = s.attic.firmware.headD []) ∧
  (∀ (s : State) (a b c d : Byte), s.seq.boot = 6 → s.lapsed s.leader = false →
    ∃ t, exec (.bootStacksTrained a b c d) s = .next t ∧ t.seq.boot = 0 ∧
      t.seq.txn = some (if s.on pgCel CEL_CTRL_BOOT_TEST && (s.rd pgLcs LCS_STATE_STATE == 1 || s.rd pgLcs LCS_STATE_STATE == 4)
        then mTest else mLoadLocal, false) ∧
      (∀ h, t.rd (pgSys h) SYS_MODE_TRANSIT = 1) ∧ (∀ k, k < 4 → t.rd (pgMem k) MEM_STAT_TRAINED = 1) ∧
      t.rd (pgMem 0) MEM_STAT_LANE_REPAIRS = a.toNat ∧ t.rd (pgMem 3) MEM_STAT_LANE_REPAIRS = d.toNat)

/-- The causes of HALT at BOOT and between the halves (R17, R34, R369, R377, R474): the half, or both, enters HALT with the
cause in SYS.ERR.CODE and SYS.ERR.LAST. -/
def Obligations.HaltCausesAct : Prop :=
  (∀ s : State, s.seq.boot = 3 → s.mode .east = mBoot → s.mode .west = mBoot →
    ∃ t, exec .galleryTrainTimeout s = .next t ∧ ∀ h, t.Halted h ecGalleryTrain) ∧
  (∀ (s : State) (e w : Bool), s.seq.boot = 5 → s.mode .east = mBoot → s.mode .west = mBoot →
    (e = false ∨ w = false) →
    ∃ t, exec (.romSelfCheckDone e w) s = .next t ∧ (e = false → t.Halted .east ecRomCheck) ∧
      (w = false → t.Halted .west ecRomCheck)) ∧
  (∀ (s : State) (k : BitVec 2), s.seq.boot = 6 → s.mode (halfOf (k.toNat / 2)) = mBoot →
    ∃ t, exec (.stackTrainTimeout k) s = .next t ∧ t.Halted (halfOf (k.toNat / 2)) ecStackTrain) ∧
  (∀ (s : State) (h : Half), s.mode (other h) = mHalt → s.galleryUp = true → mBoot ≤ s.mode h → s.mode h < mHalt →
    ∃ t, exec (.halfHaltMessage h) s = .next t ∧ t.Halted h ecHalfHalt ∧ t.errN = true) ∧
  (∀ s : State, s.errN = true → mBoot ≤ s.mode s.follower → s.mode s.follower < mHalt →
    ∃ t, exec (.errNWatchExpiry s.follower) s = .next t ∧ t.Halted s.follower ecHalfHalt) ∧
  (∀ (s : State) (l : List Int), (∀ h, mBoot ≤ s.mode h ∧ s.mode h < mHalt) → (∃ n ∈ hotRuns s.cellar.hot l, 3 ≤ n) →
    ∃ t, exec (.thermalSample l) s = .next t ∧ t.cellar.hot = hotRuns s.cellar.hot l ∧ ∀ h, t.mode h = mHalt) ∧
  (∀ (s : State) (l : List Int), s.sensorsRun = true → (∀ n ∈ hotRuns s.cellar.hot l, n < 3) →
    (∀ k, k < 4 → s.rd (pgMem k) MEM_STAT_TEMP < 105) →
    ∃ t, exec (.thermalSample l) s = .next t ∧ t.cellar.hot = hotRuns s.cellar.hot l ∧ Unchanged [.cellar] s t) ∧
  (∀ (s : State) (h : Half), s.seq.standby = .asleep → (∀ k, s.mode k = mStandby) →
    ∃ t, exec (.thermalComparatorFire h) s = .next t ∧ t.seq.standby = .none ∧ ∀ k, t.mode k = mHalt) ∧
  (∀ (s : State) (k : BitVec 2) (c : Byte), s.sensorsRun = true → c.toNat < 105 →
    ∃ t, exec (.stackTemperatureRead k c) s = .next t ∧ t.rd (pgMem k.toNat) MEM_STAT_TEMP = c.toNat ∧ Unchanged [.regs] s t) ∧
  (∀ (s : State) (k : BitVec 2) (c : Byte), (∀ h, mBoot ≤ s.mode h ∧ s.mode h < mHalt) → 105 ≤ c.toNat →
    ∃ t, exec (.stackTemperatureRead k c) s = .next t ∧ ∀ h, t.mode h = mHalt)

/-- What a request in SYS.MODE_REQ of the leader does where its GO acts (R31, R39, Tables 1.6 and 1.8): the answer in STATUS
and REASON, and on acceptance the transition. A HALT that is accepted goes to the follower first and
sets TRANSIT in both halves (R30); a leader whose lease has lapsed halts at once. -/
def Obligations.ModeRequestsAct : Prop :=
  (∀ (s : State) (m : Master) (v : BitVec 4), s.Takes m (pgSys s.leader) 0x54 →
    s.rd (pgSys s.leader) SYS_MODE_TRANSIT = 0 → s.orphan .east = false → s.orphan .west = false → v ≠ 2 → v ≠ 3 → v ≠ 10 → v ≠ 11 →
    ∃ t, exec (.modeReqInvalidTarget m s.leader v) s = .next t ∧ t.rd (pgSys s.leader) SYS_MODE_REQ_TARGET = v.toNat ∧
      t.rd (pgSys s.leader) SYS_MODE_REQ_STATUS = 2 ∧ t.rd (pgSys s.leader) SYS_MODE_REQ_REASON = rqBadTarget ∧
      Unchanged [.regs] s t) ∧
  (∀ (s : State) (m : Master), s.Takes m (pgSys s.leader) 0x54 → s.rd (pgSys s.leader) SYS_MODE_TRANSIT = 1 →
    ∀ c ∈ [Instr.modeReqStandby m s.leader, .modeReqBoot m s.leader, .modeReqTest m s.leader, .modeReqHalt m s.leader],
    ∃ t, exec c s = .next t ∧ t.rd (pgSys s.leader) SYS_MODE_REQ_STATUS = 2 ∧
      t.rd (pgSys s.leader) SYS_MODE_REQ_REASON = rqInTransition ∧ Unchanged [.regs] s t) ∧
  (∀ (s : State) (m : Master), s.Takes m (pgSys s.leader) 0x54 → s.rd (pgSys s.leader) SYS_MODE_TRANSIT = 0 →
    s.devMode ≠ mHalt → s.lapsed s.leader = false →
    ∃ t, exec (.modeReqHalt m s.leader) s = .next t ∧ t.seq.txn = some (mHalt, false) ∧ (∀ h, t.mode h = s.mode h) ∧
      (∀ h, t.rd (pgSys h) SYS_MODE_TRANSIT = 1) ∧ t.rd (pgSys s.leader) SYS_MODE_REQ_STATUS = 1) ∧
  (∀ (s : State) (m : Master), s.Takes m (pgSys s.leader) 0x54 → s.rd (pgSys s.leader) SYS_MODE_TRANSIT = 0 →
    mBoot ≤ s.devMode → s.devMode < mHalt → s.lapsed s.leader = true →
    ∃ t, exec (.modeReqHalt m s.leader) s = .next t ∧ t.Halted s.leader ecRequested) ∧
  (∀ (s : State) (m : Master), s.Takes m (pgSys s.leader) 0x54 → s.rd (pgSys s.leader) SYS_MODE_TRANSIT = 0 →
    s.orphan .east = false → s.orphan .west = false →
    ∃ t, exec (.modeReqBoot m s.leader) s = .next t ∧ t.seq.boot = 1 ∧ t.mem = s.mem ∧ (∀ h, t.mode h = mBoot)) ∧
  (∀ (s : State) (m : Master), s.Takes m (pgSys s.leader) 0x54 → s.rd (pgSys s.leader) SYS_MODE_TRANSIT = 0 →
    s.orphan .east = false → s.orphan .west = false → inService s.devMode = true → s.lapsed s.leader = false →
    (s.rd pgLcs LCS_STATE_STATE = 1 ∨ s.rd pgLcs LCS_STATE_STATE = 4) →
    ∃ t, exec (.modeReqTest m s.leader) s = .next t ∧ t.seq.txn = some (mTest, false) ∧
      (∀ h, t.rd (pgSys h) SYS_MODE_TRANSIT = 1) ∧ t.rd (pgSys s.leader) SYS_MODE_REQ_STATUS = 1) ∧
  (∀ (s : State) (m : Master), s.Takes m (pgSys s.leader) 0x54 → s.rd (pgSys s.leader) SYS_MODE_TRANSIT = 0 →
    s.orphan .east = false → s.orphan .west = false → inService s.devMode = true →
    s.rd pgLcs LCS_STATE_STATE ≠ 1 → s.rd pgLcs LCS_STATE_STATE ≠ 4 →
    ∃ t, exec (.modeReqTest m s.leader) s = .next t ∧ t.rd (pgSys s.leader) SYS_MODE_REQ_STATUS = 2 ∧
      t.rd (pgSys s.leader) SYS_MODE_REQ_REASON = rqLifecycle ∧ Unchanged [.regs] s t) ∧
  (∀ (s : State) (m : Master), s.Takes m (pgSys s.leader) 0x54 → s.rd (pgSys s.leader) SYS_MODE_TRANSIT = 0 →
    s.orphan .east = false → s.orphan .west = false → isRun s.devMode = true →
    ∃ t, exec (.modeReqStandby m s.leader) s = .next t ∧ t.seq = { s.seq with standby := .accepted } ∧
      (∀ h, t.rd (pgSys h) SYS_MODE_TRANSIT = 1) ∧ t.rd (pgSys s.leader) SYS_MODE_REQ_STATUS = 1 ∧
      Unchanged [.regs, .seq] s t) ∧
  (∀ (s : State) (m : Master), s.Takes m (pgSys s.leader) 0x54 → s.rd (pgSys s.leader) SYS_MODE_TRANSIT = 0 →
    s.orphan .east = false → s.orphan .west = false → s.devMode = mService →
    ∃ t, exec (.modeReqStandby m s.leader) s = .next t ∧ t.rd (pgSys s.leader) SYS_MODE_REQ_STATUS = 2 ∧
      t.rd (pgSys s.leader) SYS_MODE_REQ_REASON = rqInService ∧ Unchanged [.regs] s t)

/-- Transitions between the halves and STANDBY (R30 to R33, R325, R326, R387): the follower changes first, the leader
ends the transition; STANDBY entry runs its stages or is abandoned; a wake records its cause and returns to the run mode;
TEST ends with its summary in the Attic and BOOT. What the Steward then decides is not repeated here. -/
def Obligations.TransitionsAct : Prop :=
  (∀ (s : State) (m : Nat), s.seq.txn = some (m, false) → m ≠ mHalt →
    ∃ t, exec .modeTransitionMessage s = .next t ∧ t.mode s.follower = m % 16 ∧ t.mode s.leader = s.mode s.leader ∧
      t.rd (pgSys s.follower) SYS_MODE_PREV = s.mode s.follower ∧ t.seq = { s.seq with txn := some (m, true) } ∧
      Unchanged [.regs, .seq] s t) ∧
  (∀ s : State, s.seq.txn = some (mHalt, false) → mBoot ≤ s.mode s.follower → s.mode s.follower < mHalt →
    ∃ t, exec .modeTransitionMessage s = .next t ∧ t.Halted s.follower ecRequested ∧ t.mode s.leader = s.mode s.leader ∧
      t.seq.txn = some (mHalt, true) ∧ ∀ h, t.rd (pgSys h) SYS_MODE_TRANSIT = 1) ∧
  (∀ s : State, s.seq.txn = some (mHalt, true) → mBoot ≤ s.mode s.leader → s.mode s.leader < mHalt →
    ∃ t, exec .modeTransitionAck s = .next t ∧ t.Halted s.leader ecRequested ∧
      (∀ h, t.rd (pgSys h) SYS_MODE_TRANSIT = 0) ∧ t.seq.txn = none) ∧
  (∀ (s : State) (m : Nat), s.seq.txn = some (m, true) → m ≠ mHalt →
    ∃ u : State, exec .modeTransitionAck s = .next (u.entered m).service ∧ u.mode s.leader = m % 16 ∧
      u.rd (pgSys s.leader) SYS_MODE_PREV = s.mode s.leader ∧ (∀ h, u.rd (pgSys h) SYS_MODE_TRANSIT = 0) ∧
      u.seq = { s.seq with txn := none } ∧ Unchanged [.regs, .seq] s u) ∧
  (∀ s : State, s.seq.standby = .accepted →
    ∃ u : State, exec .standbyEntryStart s = .next u.standbyGo ∧ u.seq = { s.seq with standby := .entering } ∧
      Unchanged [.seq] s u) ∧
  (∀ s : State, s.standbyQuiet = true →
    ∃ t, exec .standbyPowerDown s = .next t ∧ t.seq.standby = .asleep ∧ t.mem = s.mem ∧ t.fabric = s.fabric ∧
      t.crews = s.crews ∧
      ∀ h, t.mode h = mStandby ∧ t.rd (pgSys h) SYS_MODE_PREV = s.mode h ∧ t.rd (pgSys h) SYS_MODE_TRANSIT = 0) ∧
  (∀ s : State, s.seq.standby = .entering →
    ∃ u : State, exec .standbyEntryTimeout s =
        .next (((((u.retireAct .east).retireAct .west).decision .east).decision .west).settlePorts).service ∧
      u.seq.standby = .none ∧ (∀ h, u.rd (pgSys h) SYS_MODE_TRANSIT = 0) ∧
      u.rd (pgSys u.leader) SYS_MODE_REQ_STATUS = 2 ∧ u.rd (pgSys u.leader) SYS_MODE_REQ_REASON = rqEntryFailed) ∧
  (∀ (s : State) (src : BitVec 4) (lines : BitVec 16), s.seq.standby = .asleep →
    (s.wakeOn src.toNat ||| s.seq.wakePend) ≠ 0 →
    ∃ t, exec (.standbyWake src lines true) s = .next t ∧ t.seq.standby = .none ∧ t.seq.wakePend = 0) ∧
  (∀ (s : State) (src : BitVec 4) (lines : BitVec 16), s.seq.standby = .asleep →
    (s.wakeOn src.toNat ||| s.seq.wakePend) ≠ 0 →
    ∃ t, exec (.standbyWake src lines false) s = .next t ∧ t.seq.standby = .waking ∧ t.mem = s.mem ∧ t.crews = s.crews ∧
      t.rd pgCel CEL_WAKE_CAUSE_CAUSE = (s.wakeOn src.toNat ||| s.seq.wakePend) % 16 ∧
      t.rd pgCel CEL_WAKE_CAUSE_VALID = 1 ∧
      ∀ h, t.rd (pgClk h) CLK_SRC_STAT_HALL_SEL = 2 ∧ t.rd (pgPwr h) PWR_OP_STAT_ON_IRC = 1) ∧
  (∀ s : State, s.seq.standby = .waking →
    ∃ t, exec .wakePllTimeout s = .next t ∧ t.seq.standby = .none ∧ t.seq.wakePend = 0) ∧
  (∀ (s : State) (rooms : List (BitVec 12)) (frames : List (BitVec 16)) (hf sf : Bool), s.devMode = mTest → s.seq.txn = none →
    ∃ t, exec (.testComplete rooms frames hf sf) s = .next t ∧ (∀ h, t.mode h = mBoot) ∧ t.seq.boot = 1 ∧
      BST_TEST_SUM_VALID.get t.attic.testSum = 1 ∧ BST_TEST_SUM_HALL_FAIL.get t.attic.testSum = bit hf ∧
      BST_TEST_SUM_STACK_FAIL.get t.attic.testSum = bit sf ∧
      BST_TEST_SUM_PASS.get t.attic.testSum =
        bit (((rooms.map (·.toNat)).eraseDups.filter roomOk).isEmpty && !hf && !sf))

/-- The lease and the Gallery (R18, R35, R373 to R376): renewals, lapses, a conflict of leaders, a link that fails or
trains again. -/
def Obligations.LeaseAndGalleryAct : Prop :=
  (∀ s : State, s.galleryUp = true → s.devMode ≠ mStandby → s.lapsed s.leader = false → s.orphan s.follower = false →
    ∃ t, exec .leaseRenewal s = .next t ∧
      t.rd (pgSys s.follower) SYS_LEASE_EPOCH = (s.rd (pgSys s.follower) SYS_LEASE_EPOCH + 1) % 2 ^ 16 ∧
      t.rd (pgSys s.follower) SYS_LEASE_AGE = 0 ∧ t.rd (pgSys s.follower) SYS_ROLE_LEASE_OK = 1 ∧
      t.out = s.renewalMsg rnPlain :: s.out ∧
      Unchanged [.regs, .out] s t) ∧
  (∀ s : State, s.galleryUp = true → s.devMode ≠ mStandby → s.lapsed s.leader = false → s.orphan s.follower = false →
    ∃ t, exec .leaseAck s = .next t ∧
      t.rd (pgSys s.leader) SYS_LEASE_EPOCH = (s.rd (pgSys s.leader) SYS_LEASE_EPOCH + 1) % 2 ^ 16 ∧
      t.rd (pgSys s.leader) SYS_LEASE_AGE = 0 ∧ Unchanged [.regs] s t) ∧
  (∀ s : State, s.leaseRuns = true → s.lapsed s.follower = false →
    ∃ t, exec .followerLeaseLapse s = .next t ∧
      t.rd (pgSys s.follower) SYS_MODE_ORPHAN =
        (if inService (s.mode s.follower) = true then 1 else s.rd (pgSys s.follower) SYS_MODE_ORPHAN) ∧
      t.rd (pgSys s.follower) SYS_ROLE_LEASE_OK = 0 ∧
      t.rd (pgSys s.follower) SYS_ROLE_LAPSES = min 255 (s.rd (pgSys s.follower) SYS_ROLE_LAPSES + 1) ∧
      Unchanged [.regs] s t) ∧
  (∀ s : State, s.leaseRuns = true → s.lapsed s.leader = false →
    ∃ t, exec .leaderLeaseLapse s = .next t ∧ t.rd (pgSys s.leader) SYS_ROLE_LEASE_OK = 0 ∧
      t.rd (pgSys s.leader) SYS_ROLE_LAPSES = min 255 (s.rd (pgSys s.leader) SYS_ROLE_LAPSES + 1) ∧
      (t.rd (pgSys s.leader) PG_IRQ_RAW).testBit 0 = true ∧ t.rd (pgSys s.leader) SYS_MODE_ORPHAN = s.rd (pgSys s.leader) SYS_MODE_ORPHAN) ∧
  (∀ (s : State) (h : Half), s.on (pgSys h) SYS_ROLE_LEADER = true →
    ∃ t, exec (.leadConflict h) s = .next t ∧
      t.leader = (if s.fuses.serial.east < s.fuses.serial.west then .west else .east) ∧
      ∀ k, t.rd (pgSys k) SYS_ROLE_LEAD_CONFLICT = 1 ∧ (t.rd (pgSys k) PG_IRQ_RAW).testBit 2 = true) ∧
  (∀ s : State, s.galleryUp = true →
    ∃ t, exec (.galleryLinkFail true) s = .next t ∧ t.galleryUp = true ∧
      (∀ h, t.rd (pgGal h) GAL_LINK_RETRAINS = min 65535 (s.rd (pgGal h) GAL_LINK_RETRAINS + 1)) ∧ Unchanged [.regs] s t) ∧
  (∀ s : State, s.galleryUp = true →
    ∃ u : State, exec (.galleryLinkFail false) s = .next u.galleryLost ∧ u.galleryUp = false ∧ u.gallery.fails = 3 ∧
      ∀ h, u.rd (pgGal h) GAL_LINK_STATE = 0 ∧
        u.rd (pgGal h) GAL_LINK_RETRAINS = min 65535 (s.rd (pgGal h) GAL_LINK_RETRAINS + 3)) ∧
  (∀ s : State, s.galleryUp = false → s.seq.boot = 0 → s.devMode ≠ mOff → s.devMode ≠ mCellar → s.devMode ≠ mStandby →
    ∃ u : State, exec (.galleryRetry true) s = .next
        (if inService s.devMode && (s.lapsed s.leader || s.lapsed s.follower) then u.readopt else u) ∧
      u.galleryUp = true ∧ u.gallery.fails = 0 ∧ ∀ h, (u.rd (pgGal h) PG_IRQ_RAW).testBit 1 = true) ∧
  (∀ s : State, s.galleryUp = false → exec (.galleryRetry false) s = .next s)

/-- Clock sources, multiplexers and the Cellar's timer where the commands act (R324, R328, R331 to R335). -/
def Obligations.ClockSourcesAct : Prop :=
  (∀ s : State, s.devMode = mCellar → s.seq.standby ≠ .asleep → s.rd pgCel CEL_TIMER_COUNT ≠ 0 →
    ∃ t, exec .celTimerExpiry s = .next t ∧ t.rd pgCel CEL_TIMER_COUNT = 0 ∧
      (t.rd pgCel PG_IRQ_RAW).testBit 0 = true ∧ Unchanged [.regs] s t) ∧
  (∀ s : State, s.devMode ≠ mOff → s.devMode ≠ mCellar → s.seq.standby = .none → s.rd pgCel CEL_TIMER_COUNT ≠ 0 →
    ∃ t, exec .celTimerExpiry s = .next t ∧ t.rd pgCel CEL_TIMER_COUNT = 0 ∧
      (t.rd pgCel PG_IRQ_RAW).testBit 0 = true ∧ Unchanged [.regs, .out, .host, .cox] s t) ∧
  (∀ (s : State) (m : Master) (v : Word), s.Admits m pgCel 0x50 →
    ∃ t, exec (.celTimerWrite m v) s = .next t ∧ t.rd pgCel CEL_TIMER_COUNT = v.toNat ∧ Unchanged [.regs] s t) ∧
  (∀ (s : State) (m : Master) (c : Bool), s.Admits m pgCel 0x40 → s.srcReady .east .crystal = true →
    ∃ t, exec (.tickSwitch m c) s = .next t ∧ t.rd pgCel CEL_STAT_TICK_NOW = bit c ∧ t.rd pgCel CEL_CTRL_TICK = bit c ∧
      t.rd pgCel CEL_STAT_TICK_REFUSED = 0) ∧
  (∀ (s : State) (m : Master), s.Admits m pgCel 0x40 → s.srcReady .east .crystal = false →
    s.rd pgCel CEL_STAT_TICK_NOW = 0 →
    ∃ t, exec (.tickSwitch m true) s = .next t ∧ t.rd pgCel CEL_STAT_TICK_NOW = 0 ∧ t.rd pgCel CEL_CTRL_TICK = 0 ∧
      t.rd pgCel CEL_STAT_TICK_REFUSED = 1) ∧
  (∀ (s : State) (m : Master), s.Admits m pgCel 0x40 → s.rd pgCel CEL_CTRL_XTAL_EN = 0 →
    ∃ t, exec (.xtalStart m) s = .next t ∧ t.rd pgCel CEL_CTRL_XTAL_EN = 1 ∧ t.srcReady .east .crystal = false ∧
      Unchanged [.regs] s t) ∧
  (∀ (s : State) (h : Half) (c : ClockSrc), s.hallRuns h = true → s.devMode ≠ mOff → s.srcReady h c = false → s.srcRuns h c = true →
    ∃ u : State, exec (.sourceReady h c) s = .next (u.sourceFed h c) ∧ u.srcReady h c = true ∧ Unchanged [.regs] s u) ∧
  (∀ (s : State) (a : Nat), s.srcReady .east .crystal = true →
    (if 15625 ≤ 2 * a then 2 * a - 15625 else 15625 - 2 * a) * s.tolDiv s.leader ≤ 15625 →
    exec (.crystalCheckWindow a) s = .next s) ∧
  (∀ (s : State) (a : Nat), s.srcReady .east .crystal = true → s.rd pgCel CEL_STAT_TICK_NOW = 1 →
    15625 < (if 15625 ≤ 2 * a then 2 * a - 15625 else 15625 - 2 * a) * s.tolDiv s.leader →
    ∃ t, exec (.crystalCheckWindow a) s = .next t ∧ t.rd pgCel CEL_STAT_TICK_NOW = 0 ∧
      t.srcReady .east .crystal = false ∧ (t.rd pgCel PG_IRQ_RAW).testBit 2 = true)

/-- Multiplexers (R331 to R337): a switch that software asks for, one that waits out the escape time, one that the monitor
makes where a source fails. -/
def Obligations.ClockSwitchesAct : Prop :=
  (∀ (s : State) (m : Master) (h : Half) (v : BitVec 2), s.Takes m (pgClk h) 0x48 → s.rd (pgClk h) CLK_SW_STATUS ≠ 1 →
    (s.pow h).op = none → (s.pow h).hallPend = none → v ≠ 3 → s.hallSel h ≠ v.toNat →
    s.srcReady h (hallSrc v.toNat) = true → s.srcReady h (hallSrc (s.hallSel h)) = true →
    ∃ t, exec (.hallMuxSwitch m h v) s = .next t ∧ t.hallSel h = v.toNat ∧
      t.rd (pgPwr h) PWR_OP_STAT_ON_IRC = bit (v.toNat == 2) ∧ t.rd (pgClk h) CLK_SW_STATUS = 2 ∧
      t.rd (pgClk h) CLK_SW_REASON = 0 ∧ t.rd (pgClk h) CLK_SW_SEQ = (s.rd (pgClk h) CLK_SW_SEQ + 1) % 16 ∧
      (t.rd (pgClk h) PG_IRQ_RAW).testBit 1 = true) ∧
  (∀ (s : State) (m : Master) (h : Half), s.Takes m (pgClk h) 0x48 → s.rd (pgClk h) CLK_SW_STATUS ≠ 1 →
    ∃ t, exec (.hallMuxSwitch m h 3) s = .next t ∧ t.hallSel h = s.hallSel h ∧ t.rd (pgClk h) CLK_SW_STATUS = 3 ∧
      t.rd (pgClk h) CLK_SW_REASON = 2) ∧
  (∀ (s : State) (m : Master) (h : Half) (v : BitVec 2), s.Takes m (pgClk h) 0x48 → s.rd (pgClk h) CLK_SW_STATUS ≠ 1 →
    (s.pow h).svcPend = none → v = 0 ∨ v = 2 → s.svcSel h ≠ v.toNat →
    s.srcReady h (svcSrc v.toNat) = true → s.srcReady h (svcSrc (s.svcSel h)) = true →
    ∃ t, exec (.serviceMuxSwitch m h v) s = .next t ∧ t.svcSel h = v.toNat ∧ t.hallSel h = s.hallSel h ∧
      t.rd (pgClk h) CLK_SW_STATUS = 2 ∧ t.rd (pgClk h) CLK_SW_REASON = 0 ∧ (t.rd (pgClk h) PG_IRQ_RAW).testBit 1 = true) ∧
  (∀ (s : State) (h : Half) (v : Nat) (b : Bool), (s.pow h).hallPend = some (v, b) → (s.pow h).op = none →
    ∃ t, exec (.switchEscape (.hall h)) s = .next t ∧ t.hallSel h = v % 4 ∧ t.rd (pgClk h) CLK_SW_SW_ESCAPED = 1 ∧
      (t.pow h).hallPend = none) ∧
  (∀ (s : State) (h : Half) (v : Nat) (b : Bool), (s.pow h).svcPend = some (v, b) →
    ∃ t, exec (.switchEscape (.service h)) s = .next t ∧ t.svcSel h = v % 4 ∧ t.rd (pgClk h) CLK_SW_SW_ESCAPED = 1 ∧
      (t.pow h).svcPend = none) ∧
  (∀ (s : State) (c : Bool), s.cellar.tickPend = some c →
    ∃ t, exec (.switchEscape .tick) s = .next t ∧ t.rd pgCel CEL_STAT_TICK_NOW = bit c ∧
      t.rd pgCel CEL_STAT_TICK_ESCAPED = 1 ∧ t.cellar.tickPend = none) ∧
  (∀ (s : State) (h : Half) (l : List (ClockSrc × Nat)), (∀ e ∈ l, s.countBad h e.1 e.2 = false) → s.hallDead h = false →
    exec (.monitorWindow h l) s = .next s) ∧
  (∀ (s : State) (h : Half) (n : Nat), s.hallRuns h = true → s.srcReady h .pllA = true → s.countBad h .pllA n = true →
    0 < n → s.hallSel h = 0 → s.srcReady h .irc = true → (s.pow h).op = none → (s.pow h).hallPend = none →
    ∃ t, exec (.monitorWindow h [(.pllA, n)]) s = .next t ∧ t.hallSel h = 2 ∧ t.srcReady h .pllA = false ∧
      (t.rd (pgClk h) CLK_SRC_STAT_FAIL).testBit 3 = true ∧ (t.rd (pgClk h) PG_IRQ_RAW).testBit 0 = true ∧
      t.rd (pgPwr h) PWR_OP_STAT_ON_IRC = 1)

/-- Gates and the frequency-measuring counter (R340 to R342, R356): a gate closes in two stages, or by force, and
reopens; a measurement starts, ends with its count, or loses its reference. -/
def Obligations.GatesAndCounterAct : Prop :=
  (∀ (s : State) (m : Master) (h : Half) (b : Gated), s.Admits m (pgClk h) 0x60 → s.gateHere h b = true →
    s.rd (pgClk h) (gateFld b) = 0 → b ≠ .fmc ∨ s.rd (pgFmc h) FMC_RESULT_BUSY = 0 →
    ∃ t, exec (.gateClose m h b) s = .next t ∧ t.rd (pgClk h) (gateFld b) = 2 ∧
      t.gateStage h b = some (if s.engineBusy h b || b = .scr then .engine else .port) ∧ Unchanged [.regs, .power] s t) ∧
  (∀ (s : State) (m : Master) (h : Half), s.Admits m (pgClk h) 0x60 → s.rd (pgClk h) CLK_GATE_FMC = 0 →
    s.rd (pgFmc h) FMC_RESULT_BUSY = 1 →
    ∃ t, exec (.gateClose m h .fmc) s = .next t ∧ t.rd (pgClk h) CLK_GATE_FMC = 2 ∧
      t.rd (pgFmc h) FMC_RESULT_BUSY = 0 ∧ t.rd (pgFmc h) FMC_RESULT_VALID = 0) ∧
  (∀ (s : State) (h : Half) (b : Gated), s.gateStage h b = some .engine → s.engineBusy h b = false →
    ∃ t, exec (.gateEngineDone h b) s = .next t ∧ t.gateStage h b = some .port ∧ Unchanged [.power] s t) ∧
  (∀ (s : State) (h : Half) (b : Gated), s.gateStage h b = some .port →
    ∃ t, exec (.gatePortIdle h b) s = .next t ∧ t.gateStage h b = none ∧ t.rd (pgClk h) (gateFld b) = 1 ∧
      Unchanged [.regs, .power] s t) ∧
  (∀ (s : State) (h : Half) (b : Gated) (off : BitVec 12), s.gateStage h b = some .port →
    s.rd (gatePage h b) PG_ERR_VALID = 0 →
    ∃ t, exec (.gateForced h b off) s = .next t ∧ t.gateStage h b = none ∧ t.rd (pgClk h) (gateFld b) = 1 ∧
      t.rd (gatePage h b) PG_ERR_VALID = 1 ∧ t.rd (gatePage h b) PG_ERR_CODE = 4 ∧
      t.rd (gatePage h b) PG_ERR_ADDR = off.toNat ∧ Unchanged [.regs, .power] s t) ∧
  (∀ (s : State) (m : Master) (h : Half) (b : Gated), s.Admits m (pgClk h) 0x60 → s.gateHere h b = true →
    ∃ t, exec (.gateOpen m h b) s = .next t ∧ t.gateStage h b = none ∧ t.rd (pgClk h) (gateFld b) = 0 ∧
      Unchanged [.regs, .power] s t) ∧
  (∀ (s : State) (m : Master) (h : Half), s.Takes m (pgFmc h) 0x44 → s.rd (pgFmc h) FMC_RESULT_BUSY = 0 →
    s.rd (pgClk h) CLK_GATE_FMC = 0 →
    ∃ t, exec (.fmcMeasure m h) s = .next t ∧ t.rd (pgFmc h) FMC_RESULT_BUSY = 1 ∧ t.rd (pgFmc h) FMC_RESULT_VALID = 0 ∧
      t.rd (pgFmc h) FMC_RESULT_SEQ = (s.rd (pgFmc h) FMC_RESULT_SEQ + 1) % 16 ∧ Unchanged [.regs] s t) ∧
  (∀ (s : State) (h : Half) (n : Nat), s.rd (pgFmc h) FMC_RESULT_BUSY = 1 →
    s.rd (pgFmc h) FMC_CFG_MEAS_SRC ≠ s.rd (pgFmc h) FMC_CFG_REF_SRC →
    ∃ t, exec (.fmcMeasurementEnd h n) s = .next t ∧ t.rd (pgFmc h) FMC_RESULT_BUSY = 0 ∧
      t.rd (pgFmc h) FMC_RESULT_VALID = 1 ∧ t.rd (pgFmc h) FMC_RESULT_COUNT = min 0xFFFFFF n ∧
      t.rd (pgFmc h) FMC_RESULT_STAT = (if 0xFFFFFF < n then fmOverflow else 0) ∧
      (t.rd (pgFmc h) PG_IRQ_RAW).testBit 0 = true ∧ Unchanged [.regs, .out, .host, .cox] s t) ∧
  (∀ (s : State) (h : Half) (n : Nat), s.rd (pgFmc h) FMC_RESULT_BUSY = 1 →
    ∃ t, exec (.fmcRefLost h n) s = .next t ∧ t.rd (pgFmc h) FMC_RESULT_BUSY = 0 ∧
      t.rd (pgFmc h) FMC_RESULT_VALID = 1 ∧ t.rd (pgFmc h) FMC_RESULT_STAT = fmRefLost ∧
      t.rd (pgFmc h) FMC_RESULT_COUNT = min 0xFFFFFF n)

/-- Operating points, rails and the governor where the commands act (R344 to R353). POWER_W is the mean of the totals of the
last 1 ms (R350); how a mean between two watts rounds is open (notes/assumptions/33). -/
def Obligations.PowerAct : Prop :=
  (∀ (s : State) (m : Master) (h : Half) (v : BitVec 3), s.Takes m (pgPwr h) 0x40 → s.rd (pgPwr h) PWR_OP_REQ_STATUS ≠ 1 →
    s.seq.standby = .none → v.toNat ≤ s.opCeiling h → (s.pow h).op = none → s.opNow h ≠ v.toNat ∨ s.onIrc h = true →
    ∃ u : State, exec (.opChange m h v) s = .next (u.opStart h v.toNat false) ∧ u.rd (pgPwr h) PWR_OP_REQ_STATUS = 1 ∧
      u.rd (pgPwr h) PWR_OP_REQ_TARGET = v.toNat ∧
      u.rd (pgPwr h) PWR_OP_REQ_SEQ = (s.rd (pgPwr h) PWR_OP_REQ_SEQ + 1) % 16 ∧ Unchanged [.regs] s u) ∧
  (∀ (s : State) (h : Half) (v : Nat), (s.pow h).op = none →
    ∃ c, ((s.opStart h v false).pow h).op = some c ∧ c.target = v ∧ c.byGov = false ∧ c.pll = (if s.hallSel h = 0 then 1 else 0) ∧
      c.raise = (s.onIrc h || s.opNow h < v)) ∧
  (∀ (s : State) (m : Master) (h : Half) (v : BitVec 3), s.Takes m (pgPwr h) 0x40 → s.rd (pgPwr h) PWR_OP_REQ_STATUS ≠ 1 →
    s.seq.standby = .none → s.opCeiling h < v.toNat →
    ∃ t, exec (.opChange m h v) s = .next t ∧ t.rd (pgPwr h) PWR_OP_REQ_STATUS = 3 ∧ t.rd (pgPwr h) PWR_OP_REQ_REASON = 1 ∧
      Unchanged [.regs] s t) ∧
  (∀ (s : State) (h : Half) (c : OpChange), (s.pow h).op = some c → c.pllReady = false → c.byGov = false →
    ∃ t, exec (.opPllTimeout h) s = .next t ∧ (t.pow h).op = none ∧ t.rd (pgPwr h) PWR_OP_REQ_STATUS = 3 ∧
      t.rd (pgPwr h) PWR_OP_REQ_REASON = 2 ∧ Unchanged [.regs, .power] s t) ∧
  (∀ (s : State) (h : Half) (c : OpChange), (s.pow h).op = some c → (s.pow h).avs = [] → c.voltDone = false →
    c.raise = false → c.switched = true → c.byGov = false →
    ∃ t, exec (.opVoltageSettled h) s = .next t ∧ (t.pow h).op = none ∧ t.rd (pgPwr h) PWR_OP_REQ_STATUS = 2 ∧
      t.rd (pgPwr h) PWR_OP_REQ_REASON = 0 ∧ (t.rd (pgPwr h) PG_IRQ_RAW).testBit 0 = true) ∧
  (∀ (s : State) (h : Half) (w : AvsWrite) (l : List AvsWrite) (k : Nat), (s.pow h).avs = w :: l → k < 4 →
    ∃ t, exec (.avsTransaction h (List.replicate k false ++ [true])) s = .next t ∧ (t.pow h).avs = l ∧
      (if w.rail = 0 then (t.pow h).vhall2 else (t.pow h).vfab2) = w.half2 ∧ t.out.head? = some (.avs h w.rail (w.half2 / 2))) ∧
  (∀ (s : State) (h : Half) (w : AvsWrite) (l : List AvsWrite), (s.pow h).avs = w :: l → w.forOp = false →
    ∃ t, exec (.avsTransaction h [false, false, false, false]) s = .next t ∧ (t.pow h).avs = l ∧
      (t.pow h).vhall2 = (s.pow h).vhall2 ∧ (t.pow h).vfab2 = (s.pow h).vfab2 ∧
      t.rd (pgPwr h) PWR_AVS_ERRS = min 65535 (s.rd (pgPwr h) PWR_AVS_ERRS + 1) ∧
      (t.rd (pgPwr h) PG_IRQ_RAW).testBit 2 = true) ∧
  (∀ (s : State) (m : Master) (h : Half) (mv : BitVec 16), s.Admits m (pgPwr h) 0x48 →
    ∃ t, exec (.vfabTargetWrite m h mv) s = .next t ∧
      t.rd (pgPwr h) PWR_VFAB_TARGET_MV = min 900 (max 600 mv.toNat) ∧ Unchanged [.regs, .power] s t) ∧
  (∀ (s : State) (h : Half), railWaits (s.pow h).avs 1 = false → (s.pow h).vfab2 < max (s.pow h).vgoal2 (s.vfabLeast h) →
    s.anyBundled h = true →
    ∃ t, exec (.vfabStep h) s = .next t ∧
      (t.pow h).avs = (s.pow h).avs ++ [⟨1, min (max (s.pow h).vgoal2 (s.vfabLeast h)) ((s.pow h).vfab2 + 25), false⟩] ∧
      Unchanged [.power] s t) ∧
  (∀ (s : State) (h : Half) (w : BitVec 11) (c : Int) (l : List Nat), s.governs h = true → s.hallRuns h = true →
    l = (w.toNat :: (s.pow h).samples).take 10 →
    ∃ t, exec (.governorSample h w c) s = .next t ∧ (t.pow h).samples = l ∧
      t.rd (pgPwr h) PWR_GOV_STAT_POWER_W = s.govMean l ∧
      (l.sum % (2 * l.length) = 0 → t.rd (pgPwr h) PWR_GOV_STAT_POWER_W = min 1023 (l.sum / (2 * l.length))) ∧
      (t.pow h).overCap = (decide (s.capW h < s.govMean l) || decide ((s.rd (pgPwr h) PWR_GOV_CFG_TJ_LIMIT : Int) < c)) ∧
      Unchanged [.regs, .draws, .power] s t) ∧
  (∀ (s : State) (h : Half), s.governs h = true → s.hallRuns h = true → (s.pow h).overCap = true →
    (∀ g ∈ s.governed h, s.govCount g .holdSlices = 0) →
    ∃ t, exec (.governorAction h) s = .next t ∧ t.rd (pgPwr h) PWR_GOV_STAT_AT_FLOOR = 0 ∧
      (∀ g ∈ s.governed h, (t.pow g).gov = .holdSlices :: (s.pow g).gov) ∧ Unchanged [.regs, .power] s t) ∧
  (∀ (s : State) (h : Half), s.governs h = true → s.hallRuns h = true → (s.pow h).overCap = true →
    (∀ a ∈ govOrder, ∃ g ∈ s.governed h, s.govFree g a = false) →
    ∃ t, exec (.governorAction h) s = .next t ∧ t.rd (pgPwr h) PWR_GOV_STAT_AT_FLOOR = 1 ∧
      (t.rd (pgPwr h) PG_IRQ_RAW).testBit 1 = true ∧ t.power = s.power) ∧
  (∀ (s : State) (h : Half) (a : GovAct) (l : List GovAct), s.governs h = true → s.hallRuns h = true →
    (s.pow h).overCap = false →
    s.rd (pgPwr h) PWR_GOV_STAT_POWER_W + s.rd (pgPwr h) PWR_CAP_HYST_W ≤ s.capW h →
    s.governed h = [h] → (s.pow h).gov = a :: l → a = .holdSlices ∨ a = .slowScrub ∨ a = .paceSwaps →
    ∃ t, exec (.governorUndo h) s = .next t ∧ (t.pow h).gov = l ∧ t.rd (pgPwr h) PWR_GOV_STAT_AT_FLOOR = 0)

/-- Release of frozen masters, life-cycle requests and fuses where the commands act (R408, R409, R412 to R414). -/
def Obligations.UnfreezeAndLifeCycleAct : Prop :=
  (∀ (s : State) (m : Master) (id : BitVec 16), s.Takes m pgSec 0x64 → idOk id.toNat = true → s.frozenCrew id.toNat = true →
    idHalf id.toNat = s.leader ∨ s.cut s.leader = false →
    ∃ t, exec (.unfreeze m 0 id) s = .next t ∧ t.security = { s.security with crews := s.security.crews.erase id.toNat } ∧
      t.rd pgSec SEC_UNFREEZE_STATUS = 2 ∧ t.rd pgSec SEC_UNFREEZE_REASON = 0 ∧
      t.rd pgSec SEC_UNFREEZE_SEQ = (s.rd pgSec SEC_UNFREEZE_SEQ + 1) % 16 ∧ (t.rd pgSec PG_IRQ_RAW).testBit 1 = true) ∧
  (∀ (s : State) (m : Master) (id : BitVec 16), s.Takes m pgSec 0x64 → id.toNat ≤ 0x3FF → id.toNat ∉ s.security.peers →
    ∃ t, exec (.unfreeze m 3 id) s = .next t ∧ t.security = s.security ∧ t.rd pgSec SEC_UNFREEZE_STATUS = 3 ∧
      t.rd pgSec SEC_UNFREEZE_REASON = 2) ∧
  (∀ (s : State) (m : Master) (k : BitVec 3) (id : BitVec 16), s.Takes m pgSec 0x64 → 3 < k.toNat →
    ∃ t, exec (.unfreeze m k id) s = .next t ∧ t.security = s.security ∧ t.rd pgSec SEC_UNFREEZE_STATUS = 3 ∧
      t.rd pgSec SEC_UNFREEZE_REASON = 1) ∧
  (∀ (s : State) (m : Master), s.Takes m pgLcs 0x44 → s.rd pgLcs LCS_REQ_STATUS ≠ 1 → s.lifeCycle = lcDev →
    s.rd pgLcs LCS_STATE_PENDING = lcDev →
    ∃ t, exec (.lcsReqProd m) s = .next t ∧ t.security = { s.security with lcsBurn := some lcProd } ∧
      t.rd pgLcs LCS_REQ_STATUS = 1 ∧ t.lifeCycle = lcDev ∧ Unchanged [.regs, .security] s t) ∧
  (∀ (s : State) (m : Master), s.Takes m pgLcs 0x44 → s.rd pgLcs LCS_REQ_STATUS ≠ 1 →
    s.rd pgLcs LCS_STATE_PENDING = s.lifeCycle → lcsAllowed s.lifeCycle lcEnd = true →
    ∃ t, exec (.lcsReqEnd m) s = .next t ∧ t.security.lcsBurn = some lcEnd ∧ (∀ k ∈ t.security.keys, k.state = .zeroised) ∧
      t.rd pgLcs LCS_REQ_STATUS = 1 ∧ Unchanged [.regs, .security] s t) ∧
  (∀ (s : State) (m : Master), s.Takes m pgLcs 0x44 → s.rd pgLcs LCS_REQ_STATUS ≠ 1 →
    s.rd pgLcs LCS_STATE_PENDING = s.lifeCycle → lcsAllowed s.lifeCycle lcRma = true →
    ∃ t, exec (.lcsReqRma m) s = .next t ∧
      if ((s.wr pgLcs LCS_REQ_TARGET lcRma).step1 pgLcs LCS_REQ_SEQ).certGood.1 then
        t.security.lcsBurn = some lcRma ∧ (∀ k ∈ t.security.keys, k.state = .zeroised) ∧ t.rd pgLcs LCS_REQ_STATUS = 1
      else t.security = s.security ∧ t.rd pgLcs LCS_REQ_STATUS = 3 ∧ t.rd pgLcs LCS_REQ_REASON = 2) ∧
  (∀ (s : State) (m : Master) (v : BitVec 4), s.Takes m pgLcs 0x44 → s.rd pgLcs LCS_REQ_STATUS ≠ 1 →
    s.rd pgLcs LCS_STATE_PENDING = s.lifeCycle → lcsAllowed s.lifeCycle v.toNat = false →
    ∃ t, exec (.lcsReqInvalid m v) s = .next t ∧ t.security = s.security ∧ t.rd pgLcs LCS_REQ_STATUS = 3 ∧
      t.rd pgLcs LCS_REQ_REASON = 1 ∧ (t.rd pgLcs PG_IRQ_RAW).testBit 0 = true) ∧
  (∀ (s : State) (v : Nat), s.security.lcsBurn = some v →
    ∃ t, exec (.lcsReqDone true) s = .next t ∧ t.security = { s.security with lcsBurn := none, nextLc := v } ∧
      t.rd pgLcs LCS_STATE_PENDING = v % 16 ∧ t.lifeCycle = s.lifeCycle ∧ t.rd pgLcs LCS_REQ_STATUS = 2 ∧
      (t.rd pgLcs PG_IRQ_RAW).testBit 0 = true) ∧
  (∀ (s : State) (v : Nat), s.security.lcsBurn = some v →
    ∃ t, exec (.lcsReqDone false) s = .next t ∧ t.security = { s.security with lcsBurn := none } ∧
      t.rd pgLcs LCS_REQ_STATUS = 3 ∧ t.rd pgLcs LCS_REQ_REASON = 4) ∧
  (∀ (s : State) (m : Master), s.Admits m pgLcs 0x4C → s.lifeCycle = lcDev ∨ s.lifeCycle = lcProd →
    ∃ t, exec (.fuseEncRequired m) s = .next t ∧ t.security = { s.security with nextEnc := true } ∧
      t.rd pgLcs LCS_FUSE_ENC_REQUIRED = 1 ∧ t.fuses = s.fuses) ∧
  (∀ (s : State) (m : Master), s.Admits m pgLcs 0x4C → s.lifeCycle = lcDev →
    ∃ t, exec (.fuseFallbackEn m) s = .next t ∧ t.security = { s.security with nextFall := true } ∧
      t.rd pgLcs LCS_FUSE_FALLBACK_EN = 1 ∧ t.fuses = s.fuses)

/-- Key slots and the test access port where the commands act (R415 to R420). -/
def Obligations.KeysAndTapAct : Prop :=
  (∀ (s : State) (m : Master) (i : BitVec 2), s.Takes m pgSec 0xA0 → s.rd pgSec SEC_KEY_CTRL_STATUS ≠ 1 → i.toNat < 2 →
    s.lifeCycle = lcDev ∨ s.lifeCycle = lcProd →
    ∃ t, exec (.keyProgram m true i true) s = .next t ∧
      t.security.keys = s.security.keys.set (4 + i.toNat) ⟨.valid, s.keyData⟩ ∧
      (∀ j, j < 8 → t.rd pgSec (SEC_KEY_DATA_DATA.at 4 j) = 0) ∧ t.rd pgSec SEC_KEY_CTRL_STATUS = 2 ∧
      t.rd pgSec SEC_KEY_STAT_KCV = keyCheckValue s.keyData % 65536 ∧ (t.rd pgSec PG_IRQ_RAW).testBit 2 = true) ∧
  (∀ (s : State) (m : Master) (i : BitVec 2) (g : Bool), s.Takes m pgSec 0xA0 → s.rd pgSec SEC_KEY_CTRL_STATUS ≠ 1 →
    s.lifeCycle = lcDev → (s.slot i.toNat).state = .empty →
    ∃ t, exec (.keyProgram m false i g) s = .next t ∧
      t.security = { s.security with burning := some ⟨i.toNat, some s.keyData⟩ } ∧ t.rd pgSec SEC_KEY_CTRL_STATUS = 1) ∧
  (∀ (s : State) (m : Master) (i : BitVec 2), s.Takes m pgSec 0xA0 → s.rd pgSec SEC_KEY_CTRL_STATUS ≠ 1 → i.toNat < 2 →
    ∃ t, exec (.keyZeroise m true i) s = .next t ∧
      t.security.keys = s.security.keys.set (4 + i.toNat) ⟨.zeroised, 0⟩ ∧ t.rd pgSec SEC_KEY_CTRL_STATUS = 2) ∧
  (∀ (s : State) (m : Master) (i : BitVec 2), s.Takes m pgSec 0xA0 → s.rd pgSec SEC_KEY_CTRL_STATUS ≠ 1 →
    ∃ t, exec (.keyZeroise m false i) s = .next t ∧ t.security = { s.security with burning := some ⟨i.toNat, none⟩ } ∧
      t.rd pgSec SEC_KEY_CTRL_STATUS = 1) ∧
  (∀ (s : State) (m : Master) (v : Bool) (i : BitVec 2), s.Takes m pgSec 0xA0 → s.rd pgSec SEC_KEY_CTRL_STATUS ≠ 1 →
    v = false ∨ i.toNat < 2 → (s.slot (keySlot v i.toNat)).state = .valid →
    ∃ t, exec (.keyCheck m v i) s = .next t ∧ t.security = s.security ∧ t.rd pgSec SEC_KEY_CTRL_STATUS = 2 ∧
      t.rd pgSec SEC_KEY_STAT_KCV = keyCheckValue (s.slot (keySlot v i.toNat)).key % 65536) ∧
  (∀ (s : State) (i : Nat) (k : BitVec 256), s.security.burning = some ⟨i, some k⟩ →
    ∃ t, exec (.keyOpDone k) s = .next t ∧ t.security.keys = s.security.keys.set i ⟨.valid, k⟩ ∧
      t.security.burning = none ∧ t.rd pgSec SEC_KEY_CTRL_STATUS = 2) ∧
  (∀ (s : State) (i : Nat) (k b : BitVec 256), s.security.burning = some ⟨i, some k⟩ →
    ∃ t, exec (.keyOpDone b) s = .next t ∧ t.security.burning = none ∧
      t.rd pgSec SEC_KEY_CTRL_STATUS = (if keyCheckValue b = keyCheckValue k then 2 else 3) ∧
      t.rd pgSec SEC_KEY_CTRL_REASON = if keyCheckValue b = keyCheckValue k then 0 else 6) ∧
  (∀ (s : State) (a b c d e f : KeySlot), s.security.keys = [a, b, c, d, e, f] → e.state = .valid → f.state = .empty →
    ∃ t, exec .vbatLoss s = .next t ∧ t.security.keys = [a, b, c, d, ⟨.lost, 0⟩, f] ∧ Unchanged [.security] s t) ∧
  (∀ s : State, exec .tapBypass s = .next ((s.tapSet .other).emit (.tap 0 []))) ∧
  (∀ s : State, ∃ t l, exec .tapIdcode s = .next t ∧ t.out = .tap 1 l :: s.out ∧ l.length = 32 ∧
    l.foldr (fun b n => bit b + 2 * n) 0 = 0x1C6300A7) ∧
  (∀ (s : State) (l : List Bool), ∃ t, exec (.tapSamplePreload l) s = .next t ∧ t.pins.bsr = l ∧ t.pins.tap = .other) ∧
  (∀ s : State, s.tapOpen = true →
    (∃ t, exec .tapExtest s = .next t ∧ t.pins = { s.pins with tap := .extest } ∧ t.out = .tap 3 s.pins.bsr :: s.out) ∧
    (∃ t, exec .tapClamp s = .next t ∧ t.pins = { s.pins with tap := .clamp } ∧ t.out = .tap 4 s.pins.bsr :: s.out) ∧
    (∃ t, exec .tapHighz s = .next t ∧ t.pins = { s.pins with tap := .highz } ∧ t.out = .tap 5 s.pins.bsr :: s.out)) ∧
  (∀ s : State, s.tapOpen = false → s.devMode ≠ mOff → s.devMode ≠ mCellar →
    ∀ c ∈ [Instr.tapExtest, .tapClamp, .tapHighz], ∃ t, exec c s = .next t ∧ t.pins = { s.pins with tap := .other } ∧
      t.out = .tap 0 [] :: s.out ∧ t.rd pgSec SEC_DBG_BSCAN_BLOCKED = 1)

/-- Crossings with status (R363, R364, R370, R371): a pulse that arrives, a handshake that ends, a reset of one side, and
resynchronisation. -/
def Obligations.CrossingsAct : Prop :=
  (∀ (s : State) (h : Half) (k : BitVec 4) (i : Byte), crossOk h k.toNat i.toNat = true → crossPulse k.toNat = true →
    (s.crossing h k.toNat i.toNat).isOpen = false → (s.crossing h k.toNat i.toNat).notReady = false →
    ∃ t, exec (.pulseArrival h k i) s = .next t ∧
      t.crossing h k.toNat i.toNat = { s.crossing h k.toNat i.toNat with
          isOpen := true
          carries := (t.crossing h k.toNat i.toNat).carries } ∧
      (k = 5 → (t.crossing h k.toNat i.toNat).carries = (s.crossing h k.toNat i.toNat).carries ++ [0xFFFF]) ∧ Unchanged [.cross] s t) ∧
  (∀ (s : State) (h : Half) (k : BitVec 4) (i : Byte), crossOk h k.toNat i.toNat = true → crossPulse k.toNat = true →
    (s.crossing h k.toNat i.toNat).isOpen = true ∨ (s.crossing h k.toNat i.toNat).notReady = true →
    (s.crossing h k.toNat i.toNat).pending < 15 →
    ∃ t, exec (.pulseArrival h k i) s = .next t ∧ t.crossing h k.toNat i.toNat =
        { s.crossing h k.toNat i.toNat with
          pending := (s.crossing h k.toNat i.toNat).pending + 1
          carries := (t.crossing h k.toNat i.toNat).carries } ∧
      (k = 5 → (t.crossing h k.toNat i.toNat).carries = (s.crossing h k.toNat i.toNat).carries ++ [0xFFFF]) ∧
      Unchanged [.cross] s t) ∧
  (∀ (s : State) (h : Half) (k : BitVec 4) (i : Byte), crossOk h k.toNat i.toNat = true → crossPulse k.toNat = true →
    (s.crossing h k.toNat i.toNat).isOpen = true ∨ (s.crossing h k.toNat i.toNat).notReady = true →
    (s.crossing h k.toNat i.toNat).pending = 15 → s.rd (crossPage h k.toNat i.toNat) PG_ERR_VALID = 0 →
    ∃ t, exec (.pulseArrival h k i) s = .next t ∧
      t.crossing h k.toNat i.toNat = { s.crossing h k.toNat i.toNat with lost := true } ∧
      t.rd (crossPage h k.toNat i.toNat) PG_ERR_VALID = 1 ∧ t.rd (crossPage h k.toNat i.toNat) PG_ERR_CODE = 3 ∧
      t.rd (crossPage h k.toNat i.toNat) PG_ERR_ADDR = k.toNat * 256 + i.toNat ∧ Unchanged [.regs, .cross] s t) ∧
  (∀ (s : State) (h : Half) (k : BitVec 4) (i : Byte), crossOk h k.toNat i.toNat = true →
    (s.crossing h k.toNat i.toNat).isOpen = true →
    ∃ t, exec (.pulseHandshakeComplete h k i) s = .next t ∧
      t.crossing h k.toNat i.toNat =
        pulseNext { s.crossing h k.toNat i.toNat with carries := (s.crossing h k.toNat i.toNat).carries.tail } ∧
      (k = 4 → (t.rd (pgPint .east) PG_IRQ_RAW).testBit i.toNat = true) ∧
      (k = 5 → ∃ u, Unchanged [.cross] s u ∧ t = u.idle ((s.crossing h k.toNat i.toNat).carries.headD 0xFFFF)) ∧
      (k ≠ 4 → k ≠ 5 → Unchanged [.cross] s t)) ∧
  (∀ (s : State) (h : Half) (k : BitVec 4) (i : Byte) (n : BitVec 4), crossOk h k.toNat i.toNat = true →
    (s.crossing h k.toNat i.toNat).notReady = false →
    ∃ t, exec (.crossingSideReset h k i n) s = .next t ∧ t.crossing h k.toNat i.toNat =
        { s.crossing h k.toNat i.toNat with
            notReady := true
            isOpen := false
            pending := 0
            carries := []
            drop := min 0xFFFF ((s.crossing h k.toNat i.toNat).drop + ((s.crossing h k.toNat i.toNat).pending +
              if crossPulse k.toNat then bit (s.crossing h k.toNat i.toNat).isOpen else n.toNat)) } ∧
      Unchanged [.cross] s t) ∧
  (∀ (s : State) (h : Half) (k : BitVec 4) (i : Byte), crossOk h k.toNat i.toNat = true →
    (s.crossing h k.toNat i.toNat).notReady = true →
    ∃ t, exec (.crossingResync h k i) s = .next t ∧
      t.crossing h k.toNat i.toNat = pulseNext { s.crossing h k.toNat i.toNat with notReady := false } ∧
      Unchanged [.cross] s t)

/-- The common page header (R403, R450 to R452) and the mailboxes (R456, R457) where a write reaches the page. -/
def Obligations.PagesAct : Prop :=
  (∀ (s : State) (m : Master) (p : BitVec 9), s.Admits m p.toNat 0x08 → s.on p.toNat PG_CTRL_FREEZE = false →
    pageKind p.toNat ≠ .cwn → pageKind p.toNat ≠ .hwn →
    ∃ t, exec (.pageFreeze m p true) s = .next t ∧ t.rd p.toNat PG_CTRL_FREEZE = 1 ∧ Unchanged [.regs, .held] s t) ∧
  (∀ (s : State) (m : Master) (p : BitVec 9), s.Admits m p.toNat 0x08 →
    ∃ t, exec (.pageFreeze m p false) s = .next t ∧ t.rd p.toNat PG_CTRL_FREEZE = 0 ∧
      (∀ e ∈ t.held, e.1 / 0x1000 ≠ p.toNat) ∧ Unchanged [.regs, .held] s t) ∧
  (∀ (s : State) (m : Master) (p : BitVec 9) (v : Word) (b : Nat), s.Admits m p.toNat 0x18 →
    s.rd pgLcs LCS_STATE_STATE ∈ [0, 1, 2, 4] → b < 32 → (v.toNat &&& irqMask (pageKind p.toNat)).testBit b = true →
    ∃ t, exec (.irqForce m p v) s = .next t ∧ (t.rd p.toNat PG_IRQ_RAW).testBit b = true) ∧
  (∀ (s : State) (m : Master) (p : BitVec 9) (v : Word), s.Admits m p.toNat 0x18 → s.rd pgLcs LCS_STATE_STATE ∉ [0, 1, 2, 4] →
    exec (.irqForce m p v) s = .next s) ∧
  (∀ (s : State) (m : Master) (p : BitVec 9) (v : Word), s.Admits m p.toNat 0x14 →
    ∃ t, exec (.irqEnableWrite m p v) s = .next t ∧ t.rd p.toNat PG_IRQ_EN = v.toNat ∧
      t.rd p.toNat PG_IRQ_RAW = s.rd p.toNat PG_IRQ_RAW ∧ Unchanged [.regs, .out, .host, .cox] s t) ∧
  (∀ (s : State) (m : Master) (p : BitVec 9) (v : Word), s.Admits m p.toNat 0x10 → p.toNat ≠ pgPint .east →
    ∃ t, exec (.pgIrqRawClear m p v) s = .next t ∧
      (∀ b, b < 32 → (t.rd p.toNat PG_IRQ_RAW).testBit b = ((s.rd p.toNat PG_IRQ_RAW).testBit b && !v.toNat.testBit b)) ∧
      Unchanged [.regs] s t) ∧
  (∀ (s : State) (m : Master) (p : BitVec 9), s.Admits m p.toNat 0x20 → s.rd p.toNat PG_ERR_CODE ≠ 3 →
    ∃ t, exec (.pgErrClear m p) s = .next t ∧ t.rd p.toNat PG_ERR_VALID = 0 ∧ t.rd p.toNat PG_ERR_MORE = 0 ∧
      t.rd p.toNat PG_ERR_CODE = 0 ∧ t.rd p.toNat PG_ERR_ADDR = 0 ∧ Unchanged [.regs] s t) ∧
  (∀ (s : State) (m : Master) (p : BitVec 9) (w : Bool), s.Admits m p.toNat 0x1C → worldFixed p.toNat = none →
    s.masterWorld m = true → s.on p.toNat PG_WORLD_LOCK = false →
    ∃ t, exec (.pgWorldWrite m p w) s = .next t ∧ t.rd p.toNat PG_WORLD_WORLD = bit w ∧
      t.rd p.toNat PG_WORLD_LOCK = 0 ∧ Unchanged [.regs] s t) ∧
  (∀ (s : State) (m : Master) (p : BitVec 9), s.Admits m p.toNat 0x1C → worldFixed p.toNat = none →
    s.masterWorld m = true →
    ∃ t, exec (.pgWorldLock m p) s = .next t ∧ t.rd p.toNat PG_WORLD_LOCK = 1 ∧
      t.rd p.toNat PG_WORLD_WORLD = s.rd p.toNat PG_WORLD_WORLD ∧ Unchanged [.regs] s t) ∧
  (∀ (s : State) (m : Master) (p n : BitVec 9), s.Admits m p.toNat 0x40 → isMbx p.toNat = true →
    s.rd p.toNat MBX_MB_STAT_BUSY = 0 → 1 ≤ n.toNat → n.toNat ≤ 256 → (s.cox.get (s.serves p.toNat)).op = none →
    ∃ t, exec (.mbSend m p n) s = .next t ∧ t.rd p.toNat MBX_MB_STAT_BUSY = 1 ∧ t.rd p.toNat MBX_MB_STAT_VALID = 0 ∧
      t.rd p.toNat MBX_MB_STAT_SEQ = (s.rd p.toNat MBX_MB_STAT_SEQ + 1) % 16 ∧ t.rd p.toNat MBX_MB_CTRL_LEN = n.toNat ∧
      (∃ l, t.out = .coxMessage p.toNat l :: s.out ∧ l.length = n.toNat) ∧ Unchanged [.regs, .out] s t) ∧
  (∀ (s : State) (m : Master) (p n : BitVec 9), s.Admits m p.toNat 0x40 → isMbx p.toNat = true →
    s.rd p.toNat MBX_MB_STAT_BUSY = 0 → n = 0 ∨ 256 < n.toNat →
    ∃ t, exec (.mbSend m p n) s = .next t ∧ t.rd p.toNat MBX_MB_STAT_BUSY = 0 ∧ t.rd p.toNat MBX_MB_STAT_VALID = 1 ∧
      t.rd p.toNat MBX_MB_STAT_CODE = mbBadLen ∧ t.rd p.toNat MBX_MB_STAT_RLEN = 0) ∧
  (∀ (s : State) (p : BitVec 9) (l : List Word), isMbx p.toNat = true → s.rd p.toNat MBX_MB_STAT_BUSY = 1 →
    (s.cox.get (s.serves p.toNat)).op = none → l.length ≤ 256 →
    ∃ t, exec (.mbReply p l) s = .next t ∧ t.rd p.toNat MBX_MB_STAT_BUSY = 0 ∧ t.rd p.toNat MBX_MB_STAT_VALID = 1 ∧
      t.rd p.toNat MBX_MB_STAT_CODE = mbOk ∧ t.rd p.toNat MBX_MB_STAT_RLEN = l.length ∧
      (∀ i w, l[i]? = some w → t.rd p.toNat (MBX_MB_OUT_DATA.at 4 i) = w.toNat) ∧
      (t.rd (pgMbs (s.serves p.toNat)) PG_IRQ_RAW).testBit 0 = true)

/-- REGISTER_WRITE and SOFT_RESET (R10, R11, R13, R366, R440, R449) where the write reaches its page. -/
def Obligations.RegisterWritesAct : Prop :=
  (∀ (s : State) (m : Master) (off : Nat) (v : Word) (r : RegRow), s.Admits m (off / 0x1000) (off % 0x1000) →
    pageKind (off / 0x1000) ∈ plainKinds → 0x40 ≤ off % 0x1000 → v.getLsbD 31 = false →
    regAt (off / 0x1000) (off % 0x1000) = some r →
    ∃ t, exec (.registerWrite m (.bar0 off) v none) s = .next t ∧
      t.reg off = r.write (s.pageLocked (off / 0x1000)) v (s.reg off) ∧ (∀ a, a ≠ off → t.reg a = s.reg a) ∧
      Unchanged [.regs, .held] s t) ∧
  (∀ (s : State) (m : Master) (off : Nat) (v : Word) (r : RegRow), s.Admits m (off / 0x1000) (off % 0x1000) →
    pageKind (off / 0x1000) = .mem → 0x40 ≤ off % 0x1000 → v.getLsbD 31 = false →
    regAt (off / 0x1000) (off % 0x1000) = some r →
    ∃ t, exec (.registerWrite m (.bar0 off) v none) s = .next t ∧
      t.reg off = r.write (s.pageLocked (off / 0x1000)) v (s.reg off) ∧
      (∀ a, a ≠ off → a % 0x1000 ≠ 0x10 → t.reg a = s.reg a) ∧ Unchanged [.regs, .held, .out, .host, .cox] s t) ∧
  (∀ (s : State) (m : Master) (off : Nat) (v w : Word), ∃ t, exec (.registerWrite m (.bar0 off) v none) s = .next t ∧
    exec (.registerWrite m (.bar0 off) v (some w)) s = exec (.registerWrite m (.bar0 (off + 4)) w none) t) ∧
  (∀ (s : State) (n : BitVec 8) (o : BitVec 12) (v : Word) (r : RegRow), s.VfServed n.toNat →
    o.toNat ∉ [0x000, 0x008, 0x00C, 0x304] → v.getLsbD 31 = false → regAt (pgVf n.toNat) o.toNat = some r →
    ∃ t, exec (.registerWrite (.fn n) (.vf o) v none) s = .next t ∧
      t.reg (pgVf n.toNat * 0x1000 + o.toNat) =
        r.write (s.pageLocked (pgVf n.toNat)) v (s.reg (pgVf n.toNat * 0x1000 + o.toNat)) ∧
      (∀ a, a ≠ pgVf n.toNat * 0x1000 + o.toNat → t.reg a = s.reg a) ∧ Unchanged [.regs, .held] s t) ∧
  (∀ (s : State) (m : Master) (p : BitVec 9), s.Admits m p.toNat 0x08 →
    pageKind p.toNat = .fmc ∨ pageKind p.toNat = .scr →
    ∃ t, exec (.softReset m p) s = .next t ∧
      (∀ o, o < 0x1000 → o ≠ 0x1C → t.reg (p.toNat * 0x1000 + o) = regReset (p.toNat * 0x1000 + o)) ∧
      t.reg (p.toNat * 0x1000 + 0x1C) = s.reg (p.toNat * 0x1000 + 0x1C) ∧
      (∀ a, a / 0x1000 ≠ p.toNat → t.reg a = s.reg a) ∧ Unchanged [.regs, .held, .selfTest] s t ∧
      (pageKind p.toNat = .fmc → Unchanged [.regs, .held] s t)) ∧
  (∀ (s : State) (m : Master) (p : BitVec 9), s.Admits m p.toNat 0x08 →
    pageKind p.toNat ∈ [.cel, .sys, .sec, .lcs] → exec (.softReset m p) s = .next s)

/-- The service pins, porches and the SMBus (R422 to R436), and the quiesce limit of a reconfiguration (R107). -/
def Obligations.PinsAct : Prop :=
  (∀ (s : State) (m : Master) (n : BitVec 6) (f : BitVec 4), s.Admits m (pgPmx .east) (0x40 + 4 * (n.toNat / 8)) →
    s.pinFunc n.toNat ≠ f.toNat →
    ∃ t, exec (.pinFunctionSwitch m n f) s = .next t ∧ t.pinFunc n.toNat = f.toNat ∧
      t.pins.windows = (if s.pins.ioDone then n.toNat :: s.pins.windows.erase n.toNat else s.pins.windows) ∧
      Unchanged [.regs, .pins] s t) ∧
  (∀ (s : State) (n : BitVec 6), ∃ t, exec (.functionSwitchWindowEnd n) s = .next t ∧
    t.pins = { s.pins with windows := s.pins.windows.erase n.toNat } ∧ Unchanged [.pins] s t) ∧
  (∀ (s : State) (m : Master) (q : BitVec 2) (v : BitVec 16), s.Admits m (pgPin .east) (0x40 + 0x10 * q.toNat) →
    ∃ t, exec (.pinOutWrite m .east q v []) s = .next t ∧
      t.rd (pgPin .east) (PIN_OUT_DATA.at 0x10 q.toNat) = v.toNat ∧ Unchanged [.regs] s t) ∧
  (∀ (s : State) (m : Master) (q : BitVec 2) (v : BitVec 16), s.Admits m (pgPin .east) (0x44 + 0x10 * q.toNat) →
    ∃ t, exec (.pinSetWrite m .east q v []) s = .next t ∧ t.rd (pgPin .east) (PIN_OUT_DATA.at 0x10 q.toNat) =
        (BitVec.ofNat 16 (s.rd (pgPin .east) (PIN_OUT_DATA.at 0x10 q.toNat)) ||| v).toNat ∧ Unchanged [.regs] s t) ∧
  (∀ (s : State) (m : Master) (q : BitVec 2) (v : BitVec 16), s.Admits m (pgPin .east) (0x48 + 0x10 * q.toNat) →
    ∃ t, exec (.pinClrWrite m .east q v []) s = .next t ∧ t.rd (pgPin .east) (PIN_OUT_DATA.at 0x10 q.toNat) =
        (BitVec.ofNat 16 (s.rd (pgPin .east) (PIN_OUT_DATA.at 0x10 q.toNat)) &&& ~~~v).toNat ∧ Unchanged [.regs] s t) ∧
  (∀ (s : State) (m : Master) (q : BitVec 2) (v : BitVec 16), s.Admits m (pgPin .east) (0x4C + 0x10 * q.toNat) →
    ∃ t, exec (.pinOeWrite m .east q v []) s = .next t ∧
      t.rd (pgPin .east) (PIN_OE_EN.at 0x10 q.toNat) = v.toNat ∧ Unchanged [.regs] s t) ∧
  (∀ (s : State) (m : Master) (q : BitVec 2) (v w : BitVec 16), s.Admits m (pgPin .east) (0x44 + 0x10 * q.toNat) →
    s.coxPort = true →
    ∃ t, exec (.pinSetWrite m .east q v [.coxOut q w]) s = .next t ∧
      t.rd (pgPin .east) (PIN_OUT_DATA.at 0x10 q.toNat) = w.toNat) ∧
  (∀ (s : State) (m : Master) (q : BitVec 2) (v : BitVec 16) (l : List GpioWrite),
    (s.Admits m (pgPin .west) (0x40 + 0x10 * q.toNat) → exec (.pinOutWrite m .west q v l) s = .next s) ∧
    (s.Admits m (pgPin .west) (0x44 + 0x10 * q.toNat) → exec (.pinSetWrite m .west q v l) s = .next s) ∧
    (s.Admits m (pgPin .west) (0x48 + 0x10 * q.toNat) → exec (.pinClrWrite m .west q v l) s = .next s) ∧
    (s.Admits m (pgPin .west) (0x4C + 0x10 * q.toNat) → exec (.pinOeWrite m .west q v l) s = .next s)) ∧
  (∀ (s : State) (q : BitVec 2) (v : BitVec 16), s.coxPort = true →
    (∃ t, exec (.coxGpioWrite false q v []) s = .next t ∧
      t.rd (pgPin .east) (PIN_OUT_DATA.at 0x10 q.toNat) = v.toNat ∧ Unchanged [.regs] s t) ∧
    (∃ t, exec (.coxGpioWrite true q v []) s = .next t ∧
      t.rd (pgPin .east) (PIN_OE_EN.at 0x10 q.toNat) = v.toNat ∧ Unchanged [.regs] s t)) ∧
  (∀ (s : State) (h : Half) (q : BitVec 2) (k v o : BitVec 16), s.doorwayTakes h = true →
    o = BitVec.ofNat 16 (s.rd (pgPin .east) (PIN_OUT_DATA.at 0x10 q.toNat)) →
    (∃ t, exec (.sdwData h q k v []) s = .next t ∧
      t.rd (pgPin .east) (PIN_OUT_DATA.at 0x10 q.toNat) = ((o &&& ~~~k) ||| (k &&& v)).toNat ∧ Unchanged [.regs] s t) ∧
    (∃ t, exec (.sdwSet h q k []) s = .next t ∧
      t.rd (pgPin .east) (PIN_OUT_DATA.at 0x10 q.toNat) = (o ||| k).toNat ∧ Unchanged [.regs] s t) ∧
    (∃ t, exec (.sdwClr h q k []) s = .next t ∧
      t.rd (pgPin .east) (PIN_OUT_DATA.at 0x10 q.toNat) = (o &&& ~~~k).toNat ∧ Unchanged [.regs] s t) ∧
    (∃ t, exec (.sdwOe h q k v []) s = .next t ∧ t.rd (pgPin .east) (PIN_OE_EN.at 0x10 q.toNat) =
        ((BitVec.ofNat 16 (s.rd (pgPin .east) (PIN_OE_EN.at 0x10 q.toNat)) &&& ~~~k) ||| (k &&& v)).toNat ∧
      Unchanged [.regs] s t)) ∧
  (∀ (s : State) (n : BitVec 6) (b : Bool), s.pins.levels.testBit n.toNat ≠ b → n ≠ 35 →
    n.toNat ∈ s.pins.windows →
    ∃ t, exec (.pinInputChange n b) s = .next t ∧
      t.pins = { s.pins with levels := setBit s.pins.levels n.toNat b } ∧ Unchanged [.pins] s t) ∧
  (∀ (s : State) (n : BitVec 6) (b : Bool) (l : Nat), s.pins.levels.testBit n.toNat ≠ b → n ≠ 35 →
    n.toNat ∉ s.pins.windows → mStandby ≤ s.devMode → s.seq.standby = .none → s.linesFor n.toNat b = [l] →
    (s.crossing .east xkLine l).isOpen = false → (s.crossing .east xkLine l).notReady = false →
    ∃ t, exec (.pinInputChange n b) s = .next t ∧ t.pins.levels.testBit n.toNat = b ∧
      (t.rd (pgPint .east) PG_IRQ_RAW).testBit l = true) ∧
  (∀ (s : State) (h : Half) (j : BitVec 4) (v : BitVec 16) (i : List Byte) (a : BitVec 16), j.toNat < 12 →
    s.porchClocked (j.toNat + 12 * halfBit h) = true → (s.porch (j.toNat + 12 * halfBit h)).edge = none →
    ∃ t, exec (.porchTokenBoundary h j v i a) s = .next t ∧ t.porch (j.toNat + 12 * halfBit h) =
        { s.porch (j.toNat + 12 * halfBit h) with
            gear := s.porchRd (j.toNat + 12 * halfBit h) PIN_PORCH_GEAR
            drive := s.porchRd (j.toNat + 12 * halfBit h) PIN_PORCH_DRIVE
            pull := s.porchRd (j.toNat + 12 * halfBit h) PIN_PORCH_PULL
            dir := s.porchRd (j.toNat + 12 * halfBit h) PIN_PDIR_OUT } ∧ Unchanged [.porches] s t) ∧
  (∀ (s : State) (h : Half) (j : BitVec 4) (v : BitVec 16) (i : List Byte) (a : BitVec 16) (r e : Nat), j.toNat < 12 →
    s.porchLive (j.toNat + 12 * halfBit h) xkPorchOut = true → s.porchLive (j.toNat + 12 * halfBit h) xkPorchIn = true →
    (s.porch (j.toNat + 12 * halfBit h)).edge = some (r, e) → (∀ n, s.doorToken r (32 * e + 16 + n) = none) →
    j.toNat + 12 * halfBit h ∉ s.straps.unpowered → s.porchRd (j.toNat + 12 * halfBit h) PIN_PDIR_OUT = 0 →
    s.porchRd (j.toNat + 12 * halfBit h) PIN_PORCH_GEAR = 3 →
    ∃ t, exec (.porchTokenBoundary h j v i a) s = .next t ∧
      (∀ n, n < 16 → n < i.length → a.getLsbD n = true → t.doorToken r (32 * e + 16 + n) = some (i.getD n 0))) ∧
  (∀ (s : State) (c : Byte) (pec : Bool), s.devMode ≠ mOff →
    ∃ t, exec (.smbusBlockRead c (BitVec.ofNat 7 s.smbusAddr) pec) s = .next t ∧ (4 < c.toNat → t.out = .smbus none :: s.out) ∧
      (∀ w, s.smbusWord c.toNat = some w → ∃ l : List Byte, t.out = .smbus (some (4 :: leBytes 4 w ++ l)) :: s.out ∧
        l.length = bit pec) ∧ Unchanged [.out] s t) ∧
  (∀ (s : State) (a : BitVec 7) (c : Byte) (pec : Bool), s.devMode = mOff ∨ a.toNat ≠ s.smbusAddr →
    exec (.smbusBlockRead c a pec) s = .next (s.emit (.smbus none))) ∧
  (∀ (s : State) (w : BitVec 4) (n c : Nat) (x : Swap), s.seq.standby ≠ .entering →
    s.swapAt w.toNat 3 = none → s.swapAt w.toNat 4 = some x → x.kind = .reconfig →
    ∃ t, exec (.quiesceLimitExpiry w true n c) s = .next t ∧
      (∀ r ∈ x.rooms, r % 256 < 192 → s.quiet r = false → (t.room r).stopped = true) ∧ Unchanged [.rooms] s t)

/-- The Steward's commands (R126 to R136, R149, R156, R157) at a free port that names a crew its issuer may act on. -/
def Obligations.StewardCommandsAct : Prop :=
  (∀ (s : State) (p : Port) (c : Crew), s.PortFree .stw p → noName p (s.stwId p) = false → idOk (s.stwId p) = true →
    portServes p (idHalf (s.stwId p)) = true → s.crew (s.stwId p) = none →
    (∀ x, Tbl.find s.ids (s.stwId p) = some x → x.cooling = false) →
    c = Crew.ofWords (s.nextHeat (s.stwId p)) (portOwner p) (s.stwWindow p) → c.isPinned = false → c.porches = 0 →
    c.start = false → c.world = false ∨ portOwner p = 0x101 →
    (s.portStart .stw p).descOk (idHalf (s.stwId p)) (s.stwWindow p) c = true →
    ∃ t, exec (.create p) s = .next t ∧ t.crew (s.stwId p) = some c ∧
      Tbl.find t.ids (s.stwId p) = some ⟨c.heat, 0, false, []⟩ ∧ t.Answered .stw p scOk ∧
      Unchanged [.regs, .out, .host, .crews, .ids, .cox, .hatches] s t) ∧
  (∀ (s : State) (p : Port) (id : Nat) (c : Crew), s.StwNames p id c →
    ∃ t n, exec (.query p) s = .next t ∧ t.Answered .stw p scOk ∧ t.crew id = some { c with runUs := n } ∧
      (c.state ≠ .running → c.state ≠ .pinned → n = c.runUs) ∧
      (∀ i w, i < 16 → ({ c with runUs := n }.words id)[i]? = some w →
        t.portRd .stw p (STW_CMD_DESC_WORD.at 4 i) = w.toNat) ∧ (∀ j, j ≠ id → t.crew j = s.crew j) ∧
      Unchanged [.regs, .out, .host, .draws, .crews, .cox] s t) ∧
  (∀ (s : State) (p : Port) (id : Nat) (c n : Crew), s.StwNames p id c → c.isPinned = false →
    n = Crew.ofWords c.heat c.owner (s.stwWindow p) → reshapes c n (s.stwWindow p) = false →
    (s.portStart .stw p).descOk (idHalf id) (s.stwWindow p) n = true →
    ∃ t, exec (.update p false) s = .next t ∧ t.Answered .stw p scOk ∧
      t.crew id = some { c with
        prio := n.prio, slice := n.slice, wingMask := n.wingMask, parkOnIdle := n.parkOnIdle,
        wakeOnNotice := n.wakeOnNotice, autoReset := n.autoReset, faultHatch := n.faultHatch, growLimit := n.growLimit
        newMask := c.newMask || n.wingMask != c.wingMask } ∧
      Unchanged [.regs, .out, .host, .crews, .cox] s t) ∧
  (∀ (s : State) (p : Port) (id : Nat) (c : Crew), s.StwNames p id c → c.state = .ready →
    ∃ t, exec (.run p) s = .next t ∧ t.Answered .stw p scOk ∧ t.crew id = some { c with wakePending := true } ∧
      Unchanged [.regs, .out, .host, .crews, .cox] s t) ∧
  (∀ (s : State) (p : Port) (id : Nat) (c : Crew), s.StwNames p id c → c.state = .ready →
    ∃ t, exec (.park p) s = .next t ∧ t.crew id = some { c with wakePending := false, state := .parked } ∧
      (s.portOps = [] → s.heat id = c.heat → t.Answered .stw p scOk) ∧
      Unchanged [.regs, .out, .host, .crews, .portOps, .cox] s t) ∧
  (∀ (s : State) (p : Port) (id : Nat) (c : Crew), s.StwNames p id c → c.isPinned = false →
    (s.portStart .stw p).resumeOk id c = true →
    s.frozenCrew id = false →
    ∃ t, exec (.resume p) s = .next t ∧ t.Answered .stw p scOk ∧ t.crew id = some { c with state := .parked, fault := 0 } ∧
      Unchanged [.regs, .out, .host, .crews, .cox] s t) ∧
  (∀ (s : State) (p : Port) (id : Nat) (c : Crew), s.StwNames p id c → c.isPinned = false → restartOk c = true →
    s.frozenCrew id = false →
    ∃ t, exec (.restart p) s = .next t ∧ t.Answered .stw p scOk ∧
      t.crew id = some { c with state := .parked, fault := 0, useFirst := true } ∧
      Unchanged [.regs, .out, .host, .crews, .wings, .cox] s t) ∧
  (∀ (s : State) (p : Port) (id : Nat) (c : Crew), s.StwNames p id c → c.state = .pinned →
    s.orphan (idHalf id) = false → s.inPlace id c = false → s.wingBusy (crewWing c) = false →
    ∃ t, exec (.reconfig p) s = .next t ∧ t.crew id = some { c with waiting := false } ∧
      (t.wing (crewWing c)).swap =
        some ⟨.reconfig, 4, [id], c.suite, some (id, c.heat), c.suite, false, false, false, false⟩ ∧
      (∀ j, j ≠ id → t.crew j = s.crew j) ∧
      Unchanged [.regs, .out, .doorway, .porches, .host, .rooms, .fabric, .sigs, .blocks, .crews, .wings, .portOps, .reads,
        .cox, .gallery] s t) ∧
  (∀ (s : State) (p : Port) (id : Nat) (c : Crew), s.StwNames p id c → c.state = .parked ∨ c.state = .ready →
    ∃ t, exec (.destroy p) s = .next t ∧ t.Answered .stw p scOk ∧ t.crew id = none ∧
      (∃ x, Tbl.find t.ids id = some x ∧ x.heat = c.heat ∧ x.cooling = true) ∧ t.mem = s.mem ∧ t.fabric = s.fabric) ∧
  (∀ (s : State) (p : Port) (id : Nat) (c : Crew), s.StwNames p id c → c.state = .parked ∨ c.state = .ready →
    ∃ u : State, exec (.hint p) s = .next (u.hint id) ∧ u.Answered .stw p scOk ∧ Unchanged [.regs, .out, .host, .cox] s u ∧
      (u.hint id).crews = s.crews ∧ (u.hint id).mem = s.mem) ∧
  (∀ (s : State) (p : Port) (o : BitVec 4), s.PortFree .stw p → o = 0 ∨ 11 ≤ o.toNat →
    ∃ t, exec (.stwBadOp p o) s = .next t ∧ t.Answered .stw p scBadOp ∧
      t.portRd .stw p STW_CMD_RESULT_SEQ = (s.portRd .stw p STW_CMD_RESULT_SEQ + 1) % 16 ∧
      Unchanged [.regs, .out, .host, .cox] s t) ∧
  (∀ (s : State) (p : Port), s.PortFree .stw p → s.crew (s.stwId p) = none →
    ∀ c ∈ [Instr.update p true, .update p false, .run p, .park p, .resume p, .restart p, .reconfig p, .destroy p, .hint p],
      ∃ t, exec c s = .next t ∧ t.Answered .stw p scBadId ∧ Unchanged [.regs, .out, .host, .cox] s t)

/-- Doorbells (R147, R148), retirement of a room (R118), the landing cache flush (R122) and the ring oscillators (R124)
where the commands act. -/
def Obligations.DoorbellsAndRoomsAct : Prop :=
  (∀ (s : State) (fn : BitVec 8) (id : BitVec 16) (h : BitVec 4) (c : Crew), s.BellNames fn.toNat id.toNat h.toNat c →
    c.state = .ready →
    ∃ t, exec (.doorbellRun fn id h) s = .next t ∧ t.crew id.toNat = some { c with wakePending := true } ∧
      Unchanged [.crews] s t) ∧
  (∀ (s : State) (fn : BitVec 8) (id : BitVec 16) (h : BitVec 4) (c : Crew), s.BellNames fn.toNat id.toNat h.toNat c →
    c.state = .parked ∨ c.state = .ready →
    ∃ t, exec (.doorbellHint fn id h) s = .next t ∧ t = s.hint id.toNat ∧ t.crews = s.crews ∧ t.mem = s.mem) ∧
  (∀ (s : State) (fn : BitVec 8) (id : BitVec 16) (h : BitVec 4) (c : Crew), s.BellNames fn.toNat id.toNat h.toNat c →
    c.state = .ready →
    ∃ t, exec (.doorbellPark fn id h) s = .next t ∧
      t.crew id.toNat = some { c with wakePending := false, state := .parked } ∧
      Unchanged [.regs, .out, .host, .crews, .portOps, .cox] s t) ∧
  (∀ (s : State) (fn : BitVec 8) (id : BitVec 16) (h o : BitVec 4) (c : Crew), s.BellNames fn.toNat id.toNat h.toNat c →
    o ≠ 1 → o ≠ 2 → o ≠ 3 →
    ∃ t, exec (.doorbellInvalidOp fn id h o) s = .next t ∧
      t.rd (pgStw (idHalf id.toNat)) STW_DB_DROP_DROPPED =
        min STW_DB_DROP_DROPPED.max (s.rd (pgStw (idHalf id.toNat)) STW_DB_DROP_DROPPED + 1) ∧ Unchanged [.regs] s t) ∧
  (∀ (s : State) (m : Master) (h : Half) (r : BitVec 12), s.Takes m (pgStw h) 0x404 →
    s.rd (pgStw h) STW_ROOM_RETIRE_STATUS ≠ 1 → roomHalf r.toNat = h → r.toNat % 256 < 192 →
    (s.room r.toNat).state = .free →
    ∃ t, exec (.roomRetire m h r) s = .next t ∧ (t.room r.toNat).state = .retired ∧ (t.room r.toNat).retire = 3 ∧
      t.rd (pgStw h) STW_ROOM_RETIRE_STATUS = 2 ∧
      (∃ n, (r.toNat, n) ∈ t.attic.rooms ∨ s.orphan h = true ∧ (r.toNat, n) ∈ t.gallery.rooms)) ∧
  (∀ (s : State) (m : Master) (h : Half) (r : BitVec 12), s.Takes m (pgStw h) 0x404 →
    s.rd (pgStw h) STW_ROOM_RETIRE_STATUS ≠ 1 → roomHalf r.toNat ≠ h ∨ 192 ≤ r.toNat % 256 →
    ∃ t, exec (.roomRetire m h r) s = .next t ∧ t.rooms = s.rooms ∧ t.rd (pgStw h) STW_ROOM_RETIRE_STATUS = 3 ∧
      t.rd (pgStw h) STW_ROOM_RETIRE_REASON = 1) ∧
  (∀ (s : State) (m : Master) (w : BitVec 4), s.Admits m (pgWng w.toNat) 0x100 →
    ∃ t, exec (.lcFlush m w) s = .next t ∧ t.wing w.toNat = { s.wing w.toNat with cache := [] } ∧
      (∀ v, v ≠ w.toNat → t.wing v = s.wing v) ∧ Unchanged [.wings] s t) ∧
  (∀ (s : State) (m : Master) (w : BitVec 4) (v : Word), s.Admits m (pgWng w.toNat) 0x300 → w ≠ 0 ∨ s.g2Mode = false →
    ∃ t, exec (.roscCtrlWrite m w v) s = .next t ∧ t.rd (pgWng w.toNat) WNG_ROSC_CTRL_EN = v.toNat % 16 ∧
      t.rd (pgWng w.toNat) WNG_ROSC_CTRL_WINDOW = v.toNat / 256 % 256 ∧
      (∀ b, b < 4 → v.toNat.testBit b = false → t.rd (pgWng w.toNat) (WNG_ROSC_COUNT_VALID.at 4 b) = 0) ∧
      Unchanged [.regs] s t)

/-- The allocator's commands (R180, R181, R186, R187) at a free port. -/
def Obligations.AllocatorCommandsAct : Prop :=
  (∀ (s : State) (h : Half) (m : Master) (f : Nat) (u : State), s.PortFree .pgt (.page h m) →
    s.pgtReserved (.page h m) 1 = false →
    (s.pgtArg (.page h m) false).testBit 0 = false ∨ s.ownerWorld (ownerOf m) = true →
    s.pgtArg (.page h m) false / 2 % 4 ≠ 3 ∨ s.orphan .east = false ∧ s.orphan .west = false →
    (s.portStart .pgt (.page h m)).takeFrom ((s.portStart .pgt (.page h m)).takeStack h
      (s.pgtArg (.page h m) false / 2 % 4) ((s.pgtArg (.page h m) false).testBit 0))
      ((s.pgtArg (.page h m) false).testBit 0) = some (f, u) →
    ∃ t, exec (.frameTake (.page h m)) s = .next t ∧ t.Answered .pgt (.page h m) pcOk ∧
      t.portRd .pgt (.page h m) PGT_RESULT_VALUE = f % 2 ^ 21 ∧ Tbl.find t.frames f = some .taken ∧
      Unchanged [.regs, .out, .host, .draws, .mem, .bad, .frames, .cox] s t) ∧
  (∀ (s : State) (h : Half) (m : Master) (f : Nat), s.PortFree .pgt (.page h m) →
    s.pgtArg (.page h m) false = f → (s.portStart .pgt (.page h m)).inPool h f = true →
    s.pgtReserved (.page h m) 2 = false → s.ownerWorld (ownerOf m) = true → Tbl.find s.frames f = some .taken →
    ∃ t, exec (.frameGive (.page h m)) s = .next t ∧ t.Answered .pgt (.page h m) pcOk ∧
      t.portRd .pgt (.page h m) PGT_RESULT_VALUE = f % 2 ^ 21 ∧
      Tbl.find t.frames f = (if f ∈ s.stackCtl.retireDue then some .retired else none) ∧
      Unchanged [.regs, .out, .host, .stackCtl, .frames, .cox] s t) ∧
  (∀ (s : State) (h : Half) (m : Master) (g : Nat) (u : State), s.PortFree .pgt (.page h m) →
    s.pgtReserved (.page h m) 3 = false → s.pgtArg (.page h m) false ≠ 0 →
    (s.portStart .pgt (.page h m)).granPick h (s.pgtArg (.page h m) false) = some (g, u) →
    ∃ t, exec (.granTake (.page h m)) s = .next t ∧ t.Answered .pgt (.page h m) pcOk ∧ t.alloc = u.alloc ∧
      t.portRd .pgt (.page h m) PGT_RESULT_VALUE = g % 2 ^ 21 ∧ Unchanged [.regs, .out, .host, .draws, .alloc, .cox] s t) ∧
  (∀ (s : State) (h : Half) (m : Master), s.PortFree .pgt (.page h m) → s.pgtReserved (.page h m) 4 = false →
    s.pgtArg (.page h m) true ≠ 0 →
    (s.portStart .pgt (.page h m)).inStore h (s.pgtArg (.page h m) false) (s.pgtArg (.page h m) true) = true →
    s.granAll h (s.pgtArg (.page h m) false) (s.pgtArg (.page h m) true) = true →
    ∃ t, exec (.granGive (.page h m)) s = .next t ∧ t.Answered .pgt (.page h m) pcOk ∧
      t.alloc = (s.granDel h (s.pgtArg (.page h m) false) (s.pgtArg (.page h m) true)).alloc ∧
      Unchanged [.regs, .out, .host, .alloc, .cox] s t) ∧
  (∀ (s : State) (p : Port) (id : Nat) (c : Crew), s.PortFree .pgt p → s.pgtReserved p 5 = false →
    s.pgtArg p false / 2 ^ 16 = id → idOk id = true → idHalf id = s.pgtHalf p → s.crew id = some c →
    mayAct (portOwner p) c.owner = true →
    ∃ t, exec (.invalCrew p) s = .next t ∧ t.portBusy .pgt p = true ∧
      (∀ k, k < 8 → ∀ x ∈ (t.wing (8 * halfBit (idHalf id) + k)).tlb, x.id ≠ id) ∧
      (∀ k, k < 8 → ∀ x ∈ (t.wing (8 * halfBit (idHalf id) + k)).first, x.id ≠ id) ∧
      t.portOps = s.portOps ++ [⟨p, .pgt, 5, id, s.heat id, false, [], s.stamps, none⟩] ∧ Unchanged [.regs, .wings, .portOps] s t) ∧
  (∀ (s : State) (p : Port) (id : Nat) (c : Crew), s.PortFree .pgt p → s.pgtReserved p 6 = false →
    s.pgtArg p false / 2 ^ 16 = id → idOk id = true → idHalf id = s.pgtHalf p → s.crew id = some c →
    mayAct (portOwner p) c.owner = true →
    ∃ t, exec (.invalPage p) s = .next t ∧ t.portBusy .pgt p = true ∧
      (∀ k, k < 8 → ∀ x ∈ (t.wing (8 * halfBit (idHalf id) + k)).tlb, ¬(x.id = id ∧ x.page = s.pgtArg p true)) ∧
      (∀ k, k < 8 → ∀ x ∈ (t.wing (8 * halfBit (idHalf id) + k)).first,
        ¬(x.id = id ∧ x.index = s.pgtArg p true / 1024)) ∧
      t.portOps = s.portOps ++ [⟨p, .pgt, 6, id, s.heat id, false, [], s.stamps, some (s.pgtArg p true)⟩] ∧ Unchanged [.regs, .wings, .portOps] s t) ∧
  (∀ (s : State) (h : Half) (m : Master), s.PortFree .pgt (.page h m) → s.pgtReserved (.page h m) 7 = false →
    ∃ t, exec (.invalAll (.page h m)) s = .next t ∧ t.portBusy .pgt (.page h m) = true ∧
      (∀ k, k < 8 → (t.wing (8 * halfBit h + k)).tlb = [] ∧ (t.wing (8 * halfBit h + k)).first = []) ∧ Unchanged [.regs, .wings, .portOps] s t) ∧
  (∀ (s : State) (p : Port) (o : PortOp),
    (s.portOps.find? fun o => o.port == p && o.block == .pgt && s.invalClear o) = some o → o.discard = false →
    ∃ t, exec (.invalComplete p) s = .next t ∧ t.Answered .pgt p pcOk ∧ t.portOps = s.portOps.erase o ∧
      Unchanged [.regs, .out, .host, .portOps, .cox] s t) ∧
  (∀ (s : State) (p : Port) (o : BitVec 4), s.PortFree .pgt p → o = 0 ∨ 8 ≤ o.toNat →
    ∃ t, exec (.pgtBadOp p o) s = .next t ∧ t.Answered .pgt p pcBadOp ∧
      t.portRd .pgt p PGT_RESULT_SEQ = (s.portRd .pgt p PGT_RESULT_SEQ + 1) % 16 ∧ Unchanged [.regs, .out, .host, .cox] s t)

/-- The cells, cupboards, oars and rating oscillators of the fabric (R43 to R77) where tokens move. Which output drives
which input, and which receivers answer, is that of `inputSources` and `acked`. -/
def Obligations.FabricAct : Prop :=
  (∀ (s : State) (w : BitVec 4) (m : BitVec 8) (k : StageKind) (n : BitVec 11) (r : Nat) (g : Stage),
    r = w.toNat * 256 + m.toNat → g = stageNamed k n → roomOk r = true → s.tokensMove r = true →
    ∃ t, exec (.tokenThroughStage w m k n) s = .next t ∧
      t = ((s.stageSources r g).eraseDups.foldl (fun u x => u.fire r (sourceStage x)) (s.fire r g)).fire r g ∧ Unchanged [.out, .doorway, .porches, .rooms, .fabric, .sigs, .blocks, .lines] s t) ∧
  (∀ (s : State) (r : Nat) (c : BitVec 11) (w : Wires), w = s.cellWires r c.toNat →
    (s.cellCfg r c.toNat).seesIllegal (s.bundled r) w = false →
    (s.fire r (.cell c)).cellNow r c.toNat =
      (s.cellCfg r c.toNat).next (s.bundled r) (s.room r).quiesce w (s.acked r (.cell (2 * c.toNat)))
        (s.acked r (.cell (2 * c.toNat + 1))) (s.cellNow r c.toNat) ∧
    Unchanged [.fabric, .sigs, .lines] s (s.fire r (.cell c))) ∧
  (∀ (s : State) (r : BitVec 12) (c : BitVec 11) (w v : Wires), roomOk r.toNat = true → s.tokensMove r.toNat = true →
    v = s.cellWires r.toNat c.toNat →
    (s.cellCfg r.toNat c.toNat).seesIllegal (s.bundled r.toNat) ⟨v.t ||| w.t, v.f ||| w.f, v.req ||| w.req⟩ = true →
    (s.control (s.room r.toNat).active r.toNat).testBit 5 = true →
    ∃ t, exec (.illegalCode r c w) s = .next t ∧ (t.room r.toNat).codeFlag = true ∧ Unchanged [.rooms] s t) ∧
  (∀ (s : State) (r : BitVec 12) (c : BitVec 2) (q : CupReq) (w l n v : Nat), roomOk r.toNat = true →
    s.tokensMove r.toNat = true → cupReach (s.cupShape r.toNat c.toNat q.portB) q.addr.toNat = (w, l, n) →
    s.block r.toNat (cupPort c.toNat q) = Block.fresh → v = bits (s.cupWord r.toNat c.toNat w) (9 * (l + n) - 1) (9 * l) →
    ∃ t, exec (.cupboardRead r c q none) s = .next t ∧ t.out = .token r.toNat (2048 + cupPort c.toNat q) v :: s.out ∧
      t.block r.toNat (cupPort c.toNat q) = { waiting := none, ack := true, flight := [some v], gap := false } ∧
      Unchanged [.out, .blocks] s t) ∧
  (∀ (s : State) (r : BitVec 12) (c : BitVec 2) (q : CupReq) (w l n : Nat), roomOk r.toNat = true →
    s.tokensMove r.toNat = true → s.seq.we = true →
    cupReach (s.cupShape r.toNat c.toNat q.portB) q.addr.toNat = (w, l, n) →
    s.block r.toNat (cupPort c.toNat q) = Block.fresh →
    ∃ t, exec (.cupboardWrite r c q none) s = .next t ∧
      t.cupWord r.toNat c.toNat w = cupMerge (s.cupWord r.toNat c.toNat w) l n q.lanes.toNat q.data.toNat % 2 ^ 36 ∧
      t.out = .token r.toNat (2048 + cupPort c.toNat q) 0 :: s.out ∧
      t.block r.toNat (cupPort c.toNat q) = { waiting := none, ack := true, flight := [some 0], gap := false } ∧
      Unchanged [.out, .fabric, .blocks] s t) ∧
  (∀ (s : State) (r : BitVec 12) (c : BitVec 2) (q : CupReq), roomOk r.toNat = true → s.tokensMove r.toNat = true →
    s.seq.we = false → s.block r.toNat (cupPort c.toNat q) = Block.fresh →
    ∃ t, exec (.cupboardWrite r c q none) s = .next t ∧
      t.block r.toNat (cupPort c.toNat q) = { Block.fresh with waiting := some (.cup { q with write := true }) } ∧
      Unchanged [.blocks] s t) ∧
  (∀ (s : State) (r : BitVec 12) (c : BitVec 2) (q x : CupReq), roomOk r.toNat = true → q.portB ≠ x.portB →
    s.cupTarget r.toNat c.toNat q = s.cupTarget r.toNat c.toNat x →
    ∃ t u, exec (.cupboardWrite r c q (some x)) s = .next t ∧ Unchanged [.draws] s u ∧
      (t = (u.ask r.toNat (cupPort c.toNat q) (.cup { q with write := true })).ask r.toNat (cupPort c.toNat x) (.cup x) ∨
        t = (u.ask r.toNat (cupPort c.toNat x) (.cup x)).ask r.toNat (cupPort c.toNat q) (.cup { q with write := true }))) ∧
  (∀ (s : State) (r : BitVec 12) (n : BitVec 3) (x : OarTok), roomOk r.toNat = true → s.tokensMove r.toNat = true →
    s.block r.toNat (8 + n.toNat) = Block.fresh →
    (∃ t, exec (.oarMul r n x) s = .next t ∧ s.OarDid r.toNat n.toNat x.emit ⟨wrap64 (product x), false, false⟩ t) ∧
    (∃ t, exec (.oarMac r n x) s = .next t ∧ s.OarDid r.toNat n.toNat x.emit
      { s.oar r.toNat n.toNat with
          acc := wrap64 ((s.oar r.toNat n.toNat).acc + product x)
          ovf := (s.oar r.toNat n.toNat).ovf ||
            wrap64 ((s.oar r.toNat n.toNat).acc + product x) != (s.oar r.toNat n.toNat).acc + product x } t) ∧
    (∃ t, exec (.oarMsub r n x) s = .next t ∧ s.OarDid r.toNat n.toNat x.emit
      { s.oar r.toNat n.toNat with
          acc := wrap64 ((s.oar r.toNat n.toNat).acc - product x)
          ovf := (s.oar r.toNat n.toNat).ovf ||
            wrap64 ((s.oar r.toNat n.toNat).acc - product x) != (s.oar r.toNat n.toNat).acc - product x } t) ∧
    (∃ t, exec (.oarLoad r n x) s = .next t ∧
      s.OarDid r.toNat n.toNat x.emit ⟨if x.sa then (x.a ++ x.b).toInt else (x.a ++ x.b).toNat, false, false⟩ t) ∧
    (∃ t, exec (.oarClear r n x) s = .next t ∧ s.OarDid r.toNat n.toNat x.emit ⟨0, false, false⟩ t) ∧
    (∃ t, exec (.oarEmit r n x) s = .next t ∧ s.OarDid r.toNat n.toNat true (s.oar r.toNat n.toNat) t) ∧
    (∃ t, exec (.oarReservedOp r n x) s = .next t ∧
      s.OarDid r.toNat n.toNat x.emit { s.oar r.toNat n.toNat with operr := true } t)) ∧
  (∀ (s : State) (w : BitVec 4) (b : BitVec 2) (n : BitVec 24),
    (s.rd (pgWng w.toNat) WNG_ROSC_CTRL_EN).testBit b.toNat = true →
    ∃ t, exec (.roscWindowEnd w b n) s = .next t ∧ t.rd (pgWng w.toNat) (WNG_ROSC_COUNT_COUNT.at 4 b.toNat) = n.toNat ∧
      t.rd (pgWng w.toNat) (WNG_ROSC_COUNT_VALID.at 4 b.toNat) = 1 ∧
      t.rd (pgWng w.toNat) (WNG_ROSC_COUNT_SEQ.at 4 b.toNat) =
        (s.rd (pgWng w.toNat) (WNG_ROSC_COUNT_SEQ.at 4 b.toNat) + 1) % 16 ∧
      (t.rd (pgWng w.toNat) PG_IRQ_RAW).testBit 1 = true ∧ Unchanged [.regs, .out, .host, .cox] s t)

/-- The memory windows, the patrol, the zeroing engine and the reclaim walk (R165, R167, R175 to R184) where they act. -/
def Obligations.PagingAct : Prop :=
  (∀ (s u : State) (id : BitVec 16) (p : BitVec 6) (g : BitVec 4) (va : BitVec 40) (n : BitVec 8) (c : Crew) (r : Nat)
    (x : Trans) (bs : List Byte), s.windowRoom id.toNat p.toNat = some (c, r) → (s.room r).issued.testBit g.toNat = false →
    inPage va.toNat n.toNat = true → s.translate (wingOf r) id.toNat c.heat va.toNat false = (.ok x, u) →
    u.mustWait id.toNat x false = false →
    (u.readBytes ueWindow (x.frame * frameBytes + va.toNat % frameBytes) n.toNat).1 = some bs →
    ∃ t, exec (.windowRead id p g va n) s = .next t ∧
      t.reads = s.reads ++
        [⟨id.toNat, c.heat, p.toNat, g.toNat, bits va.toNat 39 21, s.stamps + 1, bs, false, false, false⟩] ∧
      t.stamps = s.stamps + 1 ∧ (r % 256 < 192 → (t.room r).issued.testBit g.toNat = true) ∧ t.mem = u.mem) ∧
  (∀ (s : State) (id : BitVec 16) (p : BitVec 6) (va : BitVec 40) (bs : List Byte) (c : Crew) (r : Nat) (x : Trans),
    s.windowRoom id.toNat p.toNat = some (c, r) → inPage va.toNat bs.length = true →
    s.tlbFind (wingOf r) id.toNat c.heat (bits va.toNat 39 21) = some x → x.w = true → s.mustWait id.toNat x true = false →
    (∀ k, (x.frame * frameBytes + va.toNat % frameBytes) / 32 ≤ k →
      k * 32 < x.frame * frameBytes + va.toNat % frameBytes + bs.length → (s.sectorErr k).length ≤ 2) →
    ∃ t, exec (.windowWrite id p va bs) s = .next t ∧
      t.crew id.toNat = some { c with posted := c.posted ++ [(bits va.toNat 39 21, s.stamps + 1)] } ∧
      (∀ a, Tbl.get t.mem 0 a =
        if x.frame * frameBytes + va.toNat % frameBytes ≤ a ∧
          a < x.frame * frameBytes + va.toNat % frameBytes + bs.length
        then byteAt bs (a - (x.frame * frameBytes + va.toNat % frameBytes)) else Tbl.get s.mem 0 a) ∧
      Unchanged [.regs, .out, .host, .crews, .stamps, .mem, .bad, .stackCtl, .frames, .attic, .cox, .gallery] s t) ∧
  (∀ (s : State) (id : BitVec 16) (h : BitVec 4) (c : Crew), s.crewLive id.toNat h.toNat = true →
    s.crew id.toNat = some c →
    ∃ t, exec (.memoryCompletion id h none) s = .next t ∧ t.crew id.toNat = some { c with posted := c.posted.tail } ∧
      Unchanged [.crews] s t) ∧
  (∀ (s : State) (id : BitVec 16) (h : BitVec 4) (g : BitVec 10) (r : ReadOut), s.crewLive id.toNat h.toNat = true →
    (s.reads.find? fun r => r.id == id.toNat && r.heat == h.toNat && r.pos * 16 + r.tag == g.toNat && !r.arrived) =
      some r →
    (r.discard = true → exec (.memoryCompletion id h (some g)) s = .next { s with reads := s.reads.erase r }) ∧
    (r.discard = false → r.kept = true →
      exec (.memoryCompletion id h (some g)) s = .next { s with reads := s.reads.erase r ++ [{ r with arrived := true }] }) ∧
    (r.discard = false → r.kept = false →
      ∃ t, exec (.memoryCompletion id h (some g)) s = .next t ∧ t.out = .windowData id.toNat r.tag r.data :: s.out ∧
        t.reads = s.reads.erase r ∧ Unchanged [.out, .rooms, .blocks, .reads] s t)) ∧
  (∀ (s : State) (id : BitVec 16) (h : BitVec 4), s.crewLive id.toNat h.toNat = false →
    ∃ t, exec (.memoryCompletion id h none) s = .next t ∧
      t.rd (pgStw (idHalf id.toNat)) STW_STALE_MEM =
        min STW_STALE_MEM.max (s.rd (pgStw (idHalf id.toNat)) STW_STALE_MEM + 1) ∧ Unchanged [.regs] s t) ∧
  (∀ (s : State) (k : BitVec 2) (i : Nat), s.rd (pgMem k.toNat) MEM_PATROL_HOURS ≠ 0 → s.stackServes k.toNat = true →
    s.memUp (halfOf (k.toNat / 2)) = true → s.stackCtl.patrol.getD k.toNat 0 = i →
    i + 1 < 2 ^ 30 → (s.sectorErr (k.toNat * 2 ^ 30 + i)).length ≤ 2 →
    ∃ t, exec (.patrolRead k) s = .next t ∧ t.stackCtl.patrol = s.stackCtl.patrol.set k.toNat (i + 1) ∧
      t.sectorErr (k.toNat * 2 ^ 30 + i) = [] ∧ (∀ a, Tbl.get t.mem 0 a = Tbl.get s.mem 0 a) ∧
      Unchanged [.regs, .out, .host, .mem, .bad, .stackCtl, .frames, .attic, .cox, .gallery] s t) ∧
  (∀ (s : State) (h : Half), s.memUp h = true →
    s.halfZeroed h (s.alloc.get h).turn < s.rd (pgPgt h) PGT_ALOC_CFG_ZPOOL →
    s.halfZeroed h (s.alloc.get h).turn < s.halfFree h (s.alloc.get h).turn →
    ∃ t f, exec (.zeroingFrameDone h) s = .next t ∧ Tbl.find t.frames f = some .zeroed ∧
      (∀ a, Tbl.get t.mem 0 a = if f * frameBytes ≤ a ∧ a < f * frameBytes + frameBytes then 0 else Tbl.get s.mem 0 a) ∧
      (t.alloc.get h).turn = !(s.alloc.get h).turn ∧ Unchanged [.draws, .mem, .bad, .frames, .alloc] s t) ∧
  (∀ (s : State) (h : Half) (r : Reclaim) (l : List Reclaim), s.memUp h = true → (s.alloc.get h).reclaim = r :: l →
    ∃ t, exec (.reclaimWalk h) s = .next t ∧ (t.alloc.get h).reclaim = l ∧ t.mem = s.mem ∧ t.crews = s.crews)

/-- Self test and the scrubber (R379 to R394): a slice starts and reports, BST.REQ, a pass, a frame that agrees with its
reference and one that is repaired. -/
def Obligations.SlicesAndScrubAct : Prop :=
  (∀ (s : State) (h : Half) (r : Nat) (e : Bool), s.sliceMay h = true → (s.selfTest.get h).req = some (r, e) →
    r % 256 < 192 → s.roomIdle r = true → s.wingSpare r = true →
    (s.sliceLife = true → ∀ q ∈ halfRooms h, (s.room q).state ≠ .withdrawn) →
    ∃ t, exec (.sliceStart h) s = .next t ∧ (t.room r).state = .lent ∧ (t.room r).svalid = false ∧
      (t.room r).edgeN = .isolate ∧ (t.room r).edgeE = .isolate ∧ (t.room r).edgeS = .isolate ∧
      (t.room r).edgeW = .isolate ∧ t.slices h = s.slices h ++ [⟨r, s.testParts h, (s.room r).failAs, true, e⟩] ∧
      (t.selfTest.get h).req = none ∧ Unchanged [.rooms, .selfTest] s t) ∧
  (∀ (s : State) (r : BitVec 12) (failed : BitVec 4) (n : BitVec 32) (x : Slice),
    ((s.slices (roomHalf r.toNat)).find? fun x => x.room == r.toNat) = some x → x.req = false → r.toNat % 256 < 192 →
    ∃ u : State, exec (.sliceReport r failed n) s =
        .next (((u.decision (roomHalf r.toNat)).standbyGo).settlePorts) ∧
      (u.room r.toNat).state = (if failed.toNat &&& x.parts = 0 then .free else .retired) ∧
      u.rd (pgBst (roomHalf r.toNat)) BST_RESULT0_VALID = 1 ∧
      u.rd (pgBst (roomHalf r.toNat)) BST_RESULT0_PASS = bit (failed.toNat &&& x.parts == 0) ∧
      u.rd (pgBst (roomHalf r.toNat)) BST_RESULT0_ROOM = r.toNat ∧
      u.rd (pgBst (roomHalf r.toNat)) BST_RESULT0_FAILED = (failed.toNat &&& x.parts) % 16 ∧
      u.rd (pgBst (roomHalf r.toNat)) BST_RESULT1_DURATION = min 0xFFFF n.toNat ∧
      u.rd (pgBst (roomHalf r.toNat)) BST_RESULT0_SEQ = (s.rd (pgBst (roomHalf r.toNat)) BST_RESULT0_SEQ + 1) % 16 ∧
      (u.rd (pgBst (roomHalf r.toNat)) PG_IRQ_RAW).testBit 0 = true) ∧
  (∀ (s : State) (m : Master) (h : Half) (arg : BitVec 16), s.Takes m (pgBst h) 0x44 → s.rd (pgBst h) BST_REQ_STATUS ≠ 1 →
    s.gateOpen h .bst = true → s.lifeCycle ≠ 0 → s.lifeCycle ≠ lcEnd → arg.toNat < 0x2000 →
    roomHalf (arg.toNat % 4096) = h → s.roomIdle (arg.toNat % 4096) = true →
    ∃ t, exec (.bstReq m h arg) s = .next t ∧ (t.selfTest.get h).req = some (arg.toNat % 4096, false) ∧
      t.rd (pgBst h) BST_REQ_STATUS = 1 ∧ t.rd (pgBst h) BST_REQ_SEQ = (s.rd (pgBst h) BST_REQ_SEQ + 1) % 16 ∧
      t.rd (pgBst h) BST_REQ_ARG = arg.toNat ∧ Unchanged [.regs, .selfTest] s t) ∧
  (∀ (s : State) (m : Master) (h : Half) (arg : BitVec 16), s.Takes m (pgBst h) 0x44 → s.rd (pgBst h) BST_REQ_STATUS ≠ 1 →
    s.gateOpen h .bst = true → s.lifeCycle ≠ 0 → s.lifeCycle ≠ lcEnd → 0x2000 ≤ arg.toNat →
    ∃ t, exec (.bstReq m h arg) s = .next t ∧ t.rd (pgBst h) BST_REQ_STATUS = 3 ∧ t.rd (pgBst h) BST_REQ_REASON = 1 ∧
      (t.rd (pgBst h) PG_IRQ_RAW).testBit 2 = true ∧ t.selfTest = s.selfTest) ∧
  (∀ (s : State) (h : Half) (n : BitVec 16), n ≠ 0 →
    ∃ t, exec (.scrubPassStart h n) s = .next t ∧ t.rd (pgScr h) SCR_PASS_LAST_MS = n.toNat ∧
      t.rd (pgScr h) SCR_PASS_PASSES = (s.rd (pgScr h) SCR_PASS_PASSES + 1) % 65536 ∧
      (t.selfTest.get h).scrubAt = 0 ∧ Unchanged [.regs, .selfTest] s t) ∧
  (∀ (s : State) (h : Half), ∃ t, exec (.scrubPassStart h 0) s = .next t ∧ (t.selfTest.get h).scrubAt = 0 ∧
    Unchanged [.selfTest] s t) ∧
  (∀ (s : State) (r : BitVec 12) (f : Byte), (s.room r.toNat).codeFlag = false →
    crc16 (s.plane (s.room r.toNat).active r.toNat (f.toNat * 512) 512) =
      s.refOf (planeFrame (s.room r.toNat).active r.toNat f.toNat) →
    ∃ t, exec (.scrubFrame r f []) s = .next t ∧ Unchanged [.selfTest] s t) ∧
  (∀ (s u : State) (r : BitVec 12) (f : Byte) (img : List Byte), r.toNat % 256 < 192 → f.toNat < 180 →
    s.on (pgScr (roomHalf r.toNat)) SCR_CFG_EN = true → s.gateOpen (roomHalf r.toNat) .scr = true →
    inService (s.mode (roomHalf r.toNat)) = true → (s.room r.toNat).state = .g2 →
    (s.selfTest.get (roomHalf r.toNat)).scrubAt ≤ r.toNat * 180 + f.toNat →
    (s.modTest (roomHalf r.toNat) fun x => { x with scrubAt := r.toNat * 180 + f.toNat + 1 }).readBytes ueScrub (s.g2Addr r.toNat false + f.toNat * 512) 512 = (some img, u) →
    crc16 img = s.refOf (planeFrame (s.room r.toNat).active r.toNat f.toNat) →
    crc16 (s.plane (s.room r.toNat).active r.toNat (f.toNat * 512) 512) ≠
      s.refOf (planeFrame (s.room r.toNat).active r.toNat f.toNat) →
    ∃ t, exec (.scrubFrame r f []) s = .next t ∧
      (t.selfTest.get (roomHalf r.toNat)).scrubAt = r.toNat * 180 + f.toNat + 1 ∧
      t.fabric = Tbl.putBytes s.fabric
        (frameKey (planeFrame (s.room r.toNat).active r.toNat 0) + f.toNat * 512) img ∧
      t.rd (pgScr (roomHalf r.toNat)) SCR_LOG_ROOM = r.toNat ∧
      t.rd (pgScr (roomHalf r.toNat)) SCR_LOG_FRAME = f.toNat ∧
      t.rd (pgScr (roomHalf r.toNat)) SCR_LOG_UNREPAIRED = 0 ∧
      t.rd (pgScr (roomHalf r.toNat)) SCR_LOG_BITS =
        min 15 (bitsOff (s.plane (s.room r.toNat).active r.toNat (f.toNat * 512) 512) img) ∧
      t.rd pgG2c G2C_UPSETS_COUNT = min G2C_UPSETS_COUNT.max (u.rd pgG2c G2C_UPSETS_COUNT + 1) ∧
      (t.rd pgG2c PG_IRQ_RAW).testBit 3 = true)

/-- The live-upkeep operations of Table 12.6 (R395 to R400): the restart of a cox, with and without new firmware, the
retraining of a stack, with and without migration, of a Course lane and of the host link. -/
def Obligations.UpkeepAct : Prop :=
  (∀ (s : State) (m : Master) (h : Half) (arg : BitVec 16), s.Takes m (pgSys h) SYS_COX_UPD_ARG.off →
    s.rd (pgSys h) SYS_COX_UPD_STATUS ≠ 1 → s.masterWorld m = true → arg.toNat < 8 → (s.cox.get h).op = none →
    s.upkeepBar = 0 →
    ∃ u : State, exec (.coxRestart m h arg) s = .next (u.coxStart h (arg.toNat / 2 * 2) (s.cox.get h).image) ∧
      u.rd (pgSys h) SYS_COX_UPD_STATUS = 1 ∧
      u.rd (pgSys h) SYS_COX_UPD_SEQ = (s.rd (pgSys h) SYS_COX_UPD_SEQ + 1) % 16 ∧
      u.rd (pgSys h) SYS_COX_UPD_REASON = 0 ∧ Unchanged [.regs] s u) ∧
  (∀ (s : State) (m : Master) (h : Half) (arg : BitVec 16), s.Takes m (pgSys h) SYS_COX_UPD_ARG.off →
    s.rd (pgSys h) SYS_COX_UPD_STATUS ≠ 1 → s.masterWorld m = true → arg.toNat < 8 → (s.cox.get h).op = none →
    s.upkeepBar = 0 →
    ∃ t, exec (.coxFirmwareUpdate m h arg) s = .next t ∧
      let r := ((s.wr (pgSys h) SYS_COX_UPD_ARG (arg.toNat / 2 * 2 + 1)).goBusy (pgSys h) gCox).coxImage h
      match r.1 with
      | some img => t = r.2.coxStart h (arg.toNat / 2 * 2 + 1) img
      | none => t.rd (pgSys h) SYS_COX_UPD_STATUS = 3 ∧ t.rd (pgSys h) SYS_COX_UPD_REASON = 6 ∧ t.cox = r.2.cox) ∧
  (∀ (u : State) (h : Half) (arg : Nat) (img : List Byte), h ≠ (u.hold h).leader →
    ((u.coxStart h arg img).cox.get h).op = some (arg, false, img) ∧ ((u.coxStart h arg img).cox.get h).image = img) ∧
  (∀ (s : State) (h : Half) (arg : Nat) (img : List Byte), (s.cox.get h).op = some (arg, false, img) →
    arg.testBit 2 = false → (s.cox.get h).held = [] →
    ∃ u : State, exec (.coxRestartDone h) s = .next (u.unhold h) ∧ u.rd (pgSys h) SYS_COX_UPD_STATUS = 2 ∧
      u.rd (pgSys h) SYS_COX_UPD_REASON = 0 ∧ (u.cox.get h).op = none ∧ (u.cox.get h).image = (s.cox.get h).image ∧
      Unchanged [.regs, .cox] s u) ∧
  (∀ (s : State) (h : Half) (arg : Nat) (img : List Byte), (s.cox.get h).op = some (arg, false, img) →
    arg.testBit 2 = true → arg.testBit 0 = true → (s.cox.get h).held = [] →
    ∃ u : State, exec (.coxRestartDone h) s = .next (u.unhold h) ∧ u.rd (pgSys h) SYS_COX_UPD_STATUS = 2 ∧
      u.attic.firmware = img :: s.attic.firmware.take 1) ∧
  (∀ (s : State) (m : Master) (k : BitVec 2), s.Takes m (pgMem k.toNat) MEM_RETRAIN_ARG.off →
    s.rd (pgMem k.toNat) MEM_RETRAIN_STATUS ≠ 1 → s.masterWorld m = true →
    (∀ j ∈ s.stackCtl.retrain, j / 2 ≠ k.toNat / 2) → s.upkeepBar = 0 →
    ∃ u : State, exec (.memRetrain m k) s =
        .next (((u.modStacks fun x => { x with retrain := k.toNat :: x.retrain }).modStacks
          fun x => { x with away := k.toNat :: x.away }).wr (pgMem k.toNat) MEM_STAT_SELF_REFRESH 1) ∧
      ∃ v : State, u = v.hold (halfOf (k.toNat / 2)) ∧ v.rd (pgMem k.toNat) MEM_RETRAIN_STATUS = 1 ∧
        v.rd (pgMem k.toNat) MEM_RETRAIN_ARG = 0 ∧ Unchanged [.regs] s v) ∧
  (∀ (s : State) (m : Master) (k : BitVec 2), s.Takes m (pgMem k.toNat) MEM_RETRAIN_ARG.off →
    s.rd (pgMem k.toNat) MEM_RETRAIN_STATUS ≠ 1 → s.masterWorld m = true →
    (∀ j ∈ s.stackCtl.retrain, j / 2 ≠ k.toNat / 2) → s.upkeepBar = 0 →
    ∃ t, exec (.memRetrainMigrate m k) s = .next t ∧ k.toNat ∈ t.stackCtl.away ∧
      t.rd (pgMem k.toNat) MEM_STAT_SELF_REFRESH = 1) ∧
  (∀ (s : State) (m : Master) (k : BitVec 2), s.Takes m (pgMem k.toNat) MEM_RETRAIN_ARG.off →
    s.rd (pgMem k.toNat) MEM_RETRAIN_STATUS ≠ 1 → s.masterWorld m = false →
    ∃ t, exec (.memRetrain m k) s = .next t ∧ t.rd (pgMem k.toNat) MEM_RETRAIN_STATUS = 3 ∧
      t.rd (pgMem k.toNat) MEM_RETRAIN_REASON = 5 ∧ (t.rd (pgMem k.toNat) PG_IRQ_RAW).testBit 1 = true ∧
      t.stackCtl = s.stackCtl) ∧
  (∀ (s : State) (k : BitVec 2) (trained : Bool) (n : Byte), k.toNat ∈ s.stackCtl.retrain →
    ∃ u : State, exec (.stackRetrainDone k trained n) s = .next (u.stackBack (halfOf (k.toNat / 2))) ∧
      u.rd (pgMem k.toNat) MEM_RETRAIN_STATUS = (if trained then 2 else 3) ∧
      u.rd (pgMem k.toNat) MEM_RETRAIN_REASON = (if trained then 0 else 6) ∧
      u.rd (pgMem k.toNat) MEM_STAT_SELF_REFRESH = 0 ∧
      u.stackCtl = { s.stackCtl with retrain := s.stackCtl.retrain.erase k.toNat, away := s.stackCtl.away.erase k.toNat } ∧
      (u.rd (pgMem k.toNat) PG_IRQ_RAW).testBit 1 = true ∧ u.mem = s.mem) ∧
  (∀ (s : State) (m : Master) (arg : BitVec 16), s.Takes m pgCrs CRS_LANE_ARG.off → s.rd pgCrs CRS_LANE_STATUS ≠ 1 →
    arg.toNat < 2 → s.upkeepBar = 0 → s.portOpen = true →
    ∃ u : State, let t := (u.hold u.follower).modCourse fun c => { c with lane := some (arg.toNat.testBit 0) }
      exec (.courseLaneRetrain m arg) s =
        .next (if t.linkState (arg.toNat.testBit 0) = 2 then t.linkTrain (arg.toNat.testBit 0) else t) ∧
      u.rd pgCrs CRS_LANE_STATUS = 1 ∧ u.rd pgCrs CRS_LANE_ARG = arg.toNat ∧ Unchanged [.regs] s u) ∧
  (∀ (s : State) (m : Master), s.Takes m pgHlk HLK_REEQ_ARG.off → s.rd pgHlk HLK_REEQ_STATUS ≠ 1 → s.upkeepBar = 0 →
    ∃ u v : State, exec (.hostLinkRecovery m) s =
        .next ((u.hold u.leader).modHost fun l => { l with reeq := some false }) ∧
      exec (.hostLinkReeq m) s = .next ((v.hold v.leader).modHost fun l => { l with reeq := some true }) ∧
      u.rd pgHlk HLK_REEQ_STATUS = 1 ∧ u.rd pgHlk HLK_REEQ_ARG = 0 ∧ Unchanged [.regs] s u ∧
      v.rd pgHlk HLK_REEQ_STATUS = 1 ∧ v.rd pgHlk HLK_REEQ_ARG = 1 ∧ Unchanged [.regs] s v) ∧
  (∀ (s : State) (b : Bool), s.host.reeq = some b →
    ∃ u v : State, exec .reeqTimeout s = .next (u.unhold s.leader) ∧ u.rd pgHlk HLK_REEQ_STATUS = 3 ∧
      u.rd pgHlk HLK_REEQ_REASON = 6 ∧ u.host.reeq = none ∧ exec .hostLinkReturnToL0 s = .next (v.unhold s.leader) ∧
      v.rd pgHlk HLK_REEQ_STATUS = 2 ∧ v.rd pgHlk HLK_REEQ_REASON = 0 ∧ v.rd pgHlk HLK_LINK_SPEED = 5 ∧
      v.host.reeq = none ∧ Unchanged [.regs, .host] s u ∧ Unchanged [.regs, .host] s v)

/-- The links of the Course (R217 to R220, R229, R234, R240, R241): flits, NAKs, retraining, breaks and heals, and segments on
their way. A segment or control message put on a ring is emitted, after which the link sends what its credit allows. -/
def Obligations.CourseLinksAct : Prop :=
  (∀ (s : State) (w : Bool) (f : Flit), s.linkState w = 2 → s.flitGood w f = true → f.typ.toNat = ftData →
    State.waitingFlits (s.cLink w) = 0 →
    exec (.linkFlit w f) s = .next ((s.modLink w fun l => { l with
      rxSeq := f.seq.toNat, replay := State.unackedAfter f.ack.toNat l.replay, credit := l.credit + f.cred.toNat,
      held := l.held + 1, nakRun := 0 }).sendIdle w)) ∧
  (∀ (s : State) (w : Bool) (f : Flit), s.linkState w = 2 → s.flitGood w f = true → f.typ.toNat = 1 →
    State.waitingFlits (s.cLink w) = 0 →
    ∃ t, exec (.linkFlit w f) s = .next t ∧
      t.cLink w = { s.cLink w with
        rxSeq := f.seq.toNat, replay := State.unackedAfter f.ack.toNat (s.cLink w).replay,
        credit := (s.cLink w).credit + f.cred.toNat, nakRun := 0 } ∧
      t.cLink (!w) = s.cLink (!w) ∧ Unchanged [.course] s t) ∧
  (∀ (s : State) (w : Bool) (f : Flit), s.linkState w = 2 → s.flitGood w f = true → f.typ.toNat = ftNak →
    exec (.linkFlit w f) s = .next ((s.modLink w fun l => { l with
      rxSeq := f.seq.toNat, replay := State.unackedAfter f.ack.toNat l.replay,
      credit := l.credit + f.cred.toNat }).nakIn w f.ack.toNat)) ∧
  (∀ (s : State) (w : Bool) (f : Flit), s.linkState w = 2 → s.flitGood w f = false →
    exec (.linkFlit w f) s = .next (s.sendFlit w ftNak [])) ∧
  (∀ (s : State) (w : Bool) (typ : Nat) (p : List Byte), ∃ f : Flit,
    (s.sendFlit w typ p).out = .flit w f :: s.out ∧ f.seq = BitVec.ofNat 10 (s.cLink w).txSeq ∧
      f.ack = BitVec.ofNat 10 (s.cLink w).rxSeq ∧ f.typ = BitVec.ofNat 4 typ ∧ f.payload = p ∧
      f.crc = crc32c (flitBody f) ∧ ((s.sendFlit w typ p).cLink w).replay = (s.cLink w).replay ++ [f] ∧
      ((s.sendFlit w typ p).cLink w).txSeq = ((s.cLink w).txSeq + 1) % 1024 ∧
      Unchanged [.out, .course] s (s.sendFlit w typ p)) ∧
  (∀ (s : State) (w : Bool) (ack : BitVec 10), s.linkState w = 2 →
    (s.cLink w).nakRun = 0 ∨ (s.cLink w).nakAck ≠ ack.toNat →
    ∃ t, exec (.linkNak w ack) s = .next t ∧ (t.cLink w).nakAck = ack.toNat ∧ (t.cLink w).nakRun = 1 ∧
      (t.cLink w).replay = State.unackedAfter ack.toNat (s.cLink w).replay ∧
      t.out = ((State.unackedAfter ack.toNat (s.cLink w).replay).map fun f => Emission.flit w f).reverse ++ s.out ∧
      Unchanged [.regs, .out, .course] s t) ∧
  (∀ (s : State) (w : Bool) (ack : BitVec 10), s.linkState w = 2 → (s.cLink w).nakRun = 7 →
    (s.cLink w).nakAck = ack.toNat →
    ∃ t, exec (.linkNak w ack) s = .next t ∧ t.linkState w = 1 ∧ Unchanged [.regs, .course] s t) ∧
  (∀ (s : State) (w : Bool), s.linkState w = 2 →
    ∃ t, exec (.linkRetrain w) s = .next t ∧ t.linkState w = 1 ∧ t.linkState (!w) = s.linkState (!w) ∧
      Unchanged [.regs] s t) ∧
  (∀ (s : State) (w : Bool), (s.cLink w).slow = true → s.linkState w = 1 ∨ s.linkState w = 3 →
    ∃ t, exec (.linkTrainRetry w) s = .next t ∧
      t.rd pgCrs (if w then CRS_LINK_W_RETRAINS else CRS_LINK_E_RETRAINS) =
        min (if w then CRS_LINK_W_RETRAINS else CRS_LINK_E_RETRAINS).max
          (s.rd pgCrs (if w then CRS_LINK_W_RETRAINS else CRS_LINK_E_RETRAINS) + 1) ∧ Unchanged [.regs] s t) ∧
  (∀ (s : State) (w : Bool) (now : BitVec 64), s.linkState w = 1 → s.course.lane ≠ some w →
    ∃ t, exec (.courseRetrainFail w now) s = .next t ∧
      (t.cLink w).fails = now.toNat :: (s.cLink w).fails.filter (fun x => now.toNat < x + 1000000) ∧
      ((t.cLink w).slow = true ↔ (s.cLink w).slow = true ∨ 3 ≤ (t.cLink w).fails.length) ∧
      t.cLink (!w) = s.cLink (!w) ∧ Unchanged [.regs, .course] s t) ∧
  (∀ (s : State) (w : Bool) (lanes : BitVec 2) (serial : Nat), s.crsState ≠ 0 → s.linkState w = 1 →
    lanes.toNat &&& (s.cLink w).offers = 3 → s.course.lane ≠ some w → s.devMode ≠ mLoadLocal →
    (s.cLink w).neighbour = some serial → (s.cLink w).replay = [] → State.waitingFlits (s.cLink w) = 0 →
    ∃ u : State, exec (.courseLinkTrained w lanes serial) s = .next u.chainStart ∧ u.linkState w = 2 ∧
      u.linkState (!w) = s.linkState (!w) ∧
      u.cLink w = { s.cLink w with neighbour := some serial, fails := [], slow := false, nakRun := 0 }) ∧
  (∀ (s : State) (w : Bool), s.linkState w = 1 → s.hasRingId = true →
    ∃ t, exec (.linkDown w) s = .next t ∧
      t = ((s.setLink w 3 0).sendCtl sgBreak (!w) [s.linkPos w]).setDown (s.linkPos w :: s.course.down.erase (s.linkPos w)) ∧
      t.linkState w = 3 ∧ t.course.down = s.linkPos w :: s.course.down.erase (s.linkPos w) ∧
      (t.rd pgCrs PG_IRQ_RAW).testBit 2 = true) ∧
  (∀ (s : State) (w : Bool), s.linkState w = 2 → exec (.linkDown w) s = .next s) ∧
  (∀ (s : State) (p : BitVec 10), s.hasRingId = true →
    ∃ t u, exec (.breakLink p) s = .next t ∧ t.course.down = p.toNat :: s.course.down.erase p.toNat ∧
      t.rd pgCrs CRS_RING_BREAKS = min 15 t.course.down.length ∧ (t.rd pgCrs PG_IRQ_RAW).testBit 2 = true ∧
      t.course.ways = s.course.map.map (fun m => (m.id, t.ringFor m.pos)) ∧
      exec (.heal p) s = .next u ∧ u.course.down = s.course.down.erase p.toNat ∧
      u.rd pgCrs CRS_RING_BREAKS = min 15 u.course.down.length ∧ (u.rd pgCrs PG_IRQ_RAW).testBit 2 = true ∧
      u.course.ways = s.course.map.map (fun m => (m.id, u.ringFor m.pos)) ∧
      Unchanged [.regs, .out, .host, .cox, .course] s t ∧ Unchanged [.regs, .out, .host, .cox, .course] s u) ∧
  (∀ (s : State) (g : Segment) (n : BitVec 16), csRelay ≤ s.crsState → s.hasRingId = true → g.typ.toNat = sgBreak →
    g.bcast = true → g.age.toNat + n.toNat + 1 < ageEnd → s.linkState g.ringB ≠ 3 →
    exec (.segmentForward g n) s = .next (s.putSeg true (State.onward g n.toNat)) ∧
    (State.onward g n.toNat).hops = g.hops + 1 ∧ (State.onward g n.toNat).age.toNat = g.age.toNat + n.toNat + 1 ∧
    (State.onward g n.toNat).words = g.words) ∧
  (∀ (s : State) (g : Segment) (n : BitVec 16), csRelay ≤ s.crsState → s.hasRingId = false → g.typ.toNat = sgData →
    s.linkState g.ringB ≠ 3 → exec (.segmentForward g n) s = .next (s.putSeg true g)) ∧
  (∀ (s : State) (g : Segment) (n : BitVec 16), csRelay ≤ s.crsState → s.hasRingId = true → g.typ.toNat = sgBreak →
    g.bcast = true → ageEnd ≤ g.age.toNat + n.toNat + 1 →
    ∃ t, exec (.segmentForward g n) s = .next t ∧
      t.rd pgCrs CRS_DROPS_AGED = min CRS_DROPS_AGED.max (s.rd pgCrs CRS_DROPS_AGED + 1) ∧
      Unchanged [.regs, .out, .course] s t) ∧
  (∀ (s : State) (typ : Nat) (b : Bool) (l : List Nat), ∃ sent,
    (s.sendCtl typ b l).out = sent ++ .segment (segSeal (s.ctlSegment typ b l)) :: .ringCtl typ b l :: s.out ∧
      (∀ e ∈ sent, ∃ w f, e = Emission.flit w f) ∧ Unchanged [.out, .course] s (s.sendCtl typ b l))

/-- The messages of the Course (R228 to R233, R236): a segment arrives, a message is presented or refused, and the answers,
resends and ends at its source. -/
def Obligations.CourseMessagesAct : Prop :=
  (∀ (s : State) (g : Segment), s.mine g = true → ageEnd ≤ g.age.toNat →
    ∃ t, exec (.segmentArrival g) s = .next t ∧
      t.rd pgCrs CRS_DROPS_AGED = min CRS_DROPS_AGED.max (s.rd pgCrs CRS_DROPS_AGED + 1) ∧
      Unchanged [.regs, .out, .course] s t) ∧
  (∀ (s : State) (g : Segment), s.mine g = true → g.typ.toNat = sgData → s.ringSize ≤ g.hops.toNat →
    ∃ t, exec (.segmentArrival g) s = .next t ∧
      t.rd pgCrs CRS_DROPS_AGED = min CRS_DROPS_AGED.max (s.rd pgCrs CRS_DROPS_AGED + 1) ∧
      Unchanged [.regs, .out, .course] s t) ∧
  (∀ (s : State) (g : Segment), s.mine g = true → g.age.toNat < ageEnd → g.typ.toNat = sgData → g.crc = segSum g →
    g.hops.toNat < s.ringSize → g.src.toNat ∈ s.security.peers → s.seq.standby = .none →
    ∃ t, exec (.segmentArrival g) s = .next t ∧
      t.rd pgCrs CRS_DROPS_FROZEN = min CRS_DROPS_FROZEN.max (s.rd pgCrs CRS_DROPS_FROZEN + 1) ∧
      t.course.ingress = s.course.ingress ∧ Unchanged [.regs, .out, .course] s t) ∧
  (∀ (s : State) (g : Segment), s.mine g = true → g.age.toNat < ageEnd → g.typ.toNat = sgData → g.crc = segSum g →
    g.hops.toNat < s.ringSize → g.src.toNat ∉ s.security.peers → s.seq.standby = .none → s.devMode ≠ mStandby → g.seg = 0 → s.crsState = csMember →
    s.course.leaving = false → 64 < g.len.toNat → s.course.ingress = [] → g.len.toNat * 64 ≤ storeSize →
    ∃ t, exec (.segmentArrival g) s = .next t ∧ t.course.ingress = [⟨g, 1, g.words⟩] ∧ Unchanged [.out, .course] s t) ∧
  (∀ (s : State) (src : BitVec 10) (tag : BitVec 16) (m : InMsg), s.inMsg src.toNat tag.toNat = some m →
    State.inDone m = true → s.devMode ≠ mStandby → s.crsState ≠ csMember →
    exec (.courseRepresent src tag) s =
      .next ((s.dropIn src.toNat tag.toNat).reply m.first sgRefuse cfNotServing)) ∧
  (∀ (s : State) (src : BitVec 10) (tag : BitVec 16) (m : InMsg), s.inMsg src.toNat tag.toNat = some m →
    State.inDone m = true → s.devMode ≠ mStandby → s.crsState = csMember → s.inTurn m = true → s.cut .west = false →
    s.pushCheck m.first.rhatch.toNat
      (.ring m.first.src.toNat m.first.crew.toNat m.first.crewHeat.toNat m.first.world) m.first.len.toNat = .admitted →
    exec (.courseRepresent src tag) s = .next ((((s.dropIn src.toNat tag.toNat).admitted m.first.rhatch.toNat
      (.ring m.first.src.toNat m.first.crew.toNat m.first.crewHeat.toNat m.first.world) m.first.len.toNat m.bytes)).reply
        m.first sgAccept 0)) ∧
  (∀ (s : State) (src : BitVec 10) (tag : BitVec 16) (m : InMsg), s.inMsg src.toNat tag.toNat = some m →
    State.inDone m = true → s.devMode ≠ mStandby → s.crsState = csMember → s.inTurn m = true → s.cut .west = false →
    s.pushCheck m.first.rhatch.toNat
      (.ring m.first.src.toNat m.first.crew.toNat m.first.crewHeat.toNat m.first.world) m.first.len.toNat = .refuse hcFull →
    ∃ t, exec (.courseRepresent src tag) s = .next t ∧ t = s.refuse m.first.rhatch.toNat hcFull ∧ t.course = s.course) ∧
  (∀ (s : State) (src : BitVec 10) (tag : BitVec 16) (m : InMsg), s.inMsg src.toNat tag.toNat = some m →
    State.inDone m = true → s.devMode ≠ mStandby → s.crsState = csMember → s.inTurn m = false →
    exec (.courseRepresent src tag) s = .next s) ∧
  (∀ (s : State) (src : BitVec 10) (tag : BitVec 16) (m : InMsg), s.inMsg src.toNat tag.toNat = some m →
    exec (.ingressAgeExpiry src tag) s =
      .next (if State.inDone m then (s.dropIn src.toNat tag.toNat).reply m.first sgRefuse cfExpired
        else s.dropIn src.toNat tag.toNat)) ∧
  (∀ (s : State) (g : Segment) (m : OutMsg), s.mine g = true → g.typ.toNat = sgAccept → g.crc = segSum g →
    s.outMsg g.tag.toNat g.tagHeat.toNat g.src.toNat = some m → s.chain.sending = none → s.loader.deferred = false →
    ∃ t, exec (.accept g) s = .next t ∧ t.course.egress = s.course.egress.filter (fun x => x.tag != m.tag) ∧
      t.course.tags = Tbl.mod s.course.tags m.tag (fun r => { r with cooling := true }) ∧ Unchanged [.course] s t) ∧
  (∀ (s : State) (g : Segment) (m : OutMsg), s.mine g = true → g.typ.toNat = sgRefuse → g.crc = segSum g →
    s.outMsg g.tag.toNat g.tagHeat.toNat g.src.toNat = some m → s.chain.sending = none → s.loader.deferred = false →
    ∃ t, exec (.refuse g) s = .next t ∧ t.course.egress = s.course.egress.filter (fun x => x.tag != m.tag) ∧
      t.rd pgCrs CRS_REFUSE0_VALID = 1 ∧ t.rd pgCrs CRS_REFUSE0_CODE = g.code.toNat ∧
      t.rd pgCrs CRS_REFUSE0_SEQ = (s.rd pgCrs CRS_REFUSE0_SEQ + 1) % 16 ∧ (t.rd pgCrs PG_IRQ_RAW).testBit 1 = true ∧
      Unchanged [.regs, .out, .host, .cox, .course] s t) ∧
  (∀ (s : State) (g : Segment) (m : OutMsg), s.mine g = true → g.typ.toNat = sgBusy → g.crc = segSum g →
    s.outMsg g.tag.toNat g.tagHeat.toNat g.src.toNat = some m → s.loader.deferred = false →
    ∃ t, exec (.busy g) s = .next t ∧
      t.course.egress = s.course.egress.map (fun x => if x.tag = m.tag then { x with busy := true } else x) ∧
      Unchanged [.course] s t) ∧
  (∀ (s : State) (g : Segment), s.mine g = true → g.typ.toNat = sgAccept → g.crc = segSum g →
    s.outMsg g.tag.toNat g.tagHeat.toNat g.src.toNat = none → s.loader.deferred = false →
    ∃ t, exec (.accept g) s = .next t ∧
      t.rd pgCrs CRS_DROPS_STALE = min CRS_DROPS_STALE.max (s.rd pgCrs CRS_DROPS_STALE + 1) ∧ Unchanged [.regs] s t) ∧
  (∀ (s : State) (tag : BitVec 16) (m : OutMsg) (b : Bool), s.msgOf tag.toNat = some m →
    m.busy = true → s.wayTo m.dst = .inr b →
    exec (.busyResend tag) s =
      .next ((s.modCourse fun c => { c with
        egress := c.egress.map fun x => if x.tag = tag.toNat then { m with ringB := b, busy := false } else x }).emitMsg
          { m with ringB := b, busy := false })) ∧
  (∀ (s : State) (tag : BitVec 16) (m : OutMsg) (code : Nat), s.msgOf tag.toNat = some m → m.busy = true →
    s.wayTo m.dst = .inl code → s.chain.sending = none →
    ∃ t, exec (.busyResend tag) s = .next t ∧ t.rd pgCrs CRS_REFUSE0_VALID = 1 ∧
      t.rd pgCrs CRS_REFUSE0_CODE = code % 16 ∧ t.course.egress = s.course.egress.filter (fun x => x.tag != m.tag) ∧
      Unchanged [.regs, .out, .host, .cox, .course] s t) ∧
  (∀ (s : State) (tag : BitVec 16) (m : OutMsg), s.msgOf tag.toNat = some m → s.chain.sending = none →
    ∃ t, exec (.messageExpiry tag) s = .next t ∧ t.rd pgCrs CRS_REFUSE0_VALID = 1 ∧ t.rd pgCrs CRS_REFUSE0_CODE = 7 ∧
      (t.rd pgCrs PG_IRQ_RAW).testBit 1 = true ∧ t.course.egress = s.course.egress.filter (fun x => x.tag != m.tag) ∧
      Unchanged [.regs, .out, .host, .cox, .course] s t) ∧
  (∀ (s : State) (tag : BitVec 16) (r : TagRec), Tbl.find s.course.tags tag.toNat = some r →
    ∃ t, exec (.ringTagCoolingExpiry tag) s = .next t ∧
      Tbl.find t.course.tags tag.toNat = some { r with cooling := false } ∧ Unchanged [.course] s t)

/-- The ring of the Course (R214, R222 to R227, R238, R239): enumeration, the map, joining and leaving. -/
def Obligations.CourseRingAct : Prop :=
  (∀ (s : State) (c : BitVec 11) (serial : Nat) (d : BitVec 10) (b : Bool) (taken : List Nat), csRelay ≤ s.crsState →
    s.on pgCrs CRS_ID_BOW = false → s.hasRingId = false → c.toNat < 1024 → s.devMode ≠ mLoadLocal →
    s.loader.deferred = false →
    ∃ t, exec (.enum c serial d b taken) s = .next t ∧ t.hasRingId = true ∧ t.ringId = c.toNat ∧
      t.course.place = some (b, d.toNat) ∧
      s.Told t sgEnum (if s.linkState b = 3 then !b else b) ((c.toNat + 1) :: serial :: (taken ++ [s.ownSerial])) ∧
      Unchanged [.regs, .out, .course] s t) ∧
  (∀ (s : State) (c : BitVec 11) (serial : Nat) (d : BitVec 10) (b : Bool) (taken : List Nat), csRelay ≤ s.crsState →
    s.on pgCrs CRS_ID_BOW = true → serial ≠ s.ownSerial → s.devMode ≠ mLoadLocal → s.loader.deferred = false →
    ∃ t, exec (.enum c serial d b taken) s = .next t ∧ t.course.twoBows = true ∧ t.course.map = [] ∧
      t.hasRingId = false ∧ Unchanged [.regs, .out, .host, .cox, .course] s t) ∧
  (∀ (s : State) (c : BitVec 11) (d : BitVec 10) (taken : List Nat), csRelay ≤ s.crsState → s.on pgCrs CRS_ID_BOW = true →
    s.course.enum = 1 → s.linkState true ≠ 3 → s.devMode ≠ mLoadLocal → s.loader.deferred = false →
    ∃ t, exec (.enum c s.ownSerial d true taken) s = .next t ∧ t.course.enum = 2 ∧ t.course.enumMid = c.toNat ∧
      s.Told t sgEnum true (c.toNat :: s.ownSerial :: taken) ∧ Unchanged [.out, .course] s t) ∧
  (∀ (s : State), s.portOpen = true → s.crsState ≠ csTraining → s.on pgCrs CRS_ID_BOW = false → s.devMode ≠ mLoadLocal →
    s.loader.deferred = false →
    ∃ t, exec (.mapBeaconIn []) s = .next t ∧ t.course.map = [] ∧ t.hasRingId = false ∧ t.ringSize = 0 ∧
      Unchanged [.regs, .out, .host, .cox, .course] s t) ∧
  (∀ (s : State) (x : Member), s.portOpen = true → s.crsState ≠ csTraining → s.on pgCrs CRS_ID_BOW = false →
    s.devMode ≠ mLoadLocal → s.loader.deferred = false → x.serial = s.ownSerial → x.serial ≠ 0 → s.hasRingId = false →
    s.course.joining = false →
    ∃ t, exec (.mapBeaconIn [x]) s = .next t ∧ t.course.map = [x] ∧ t.hasRingId = true ∧ t.ringId = x.id % 1024 ∧
      t.ringSize = 1 ∧ t.course.sawMap = true ∧ Unchanged [.regs, .out, .host, .cox, .course] s t) ∧
  (∀ s : State, s.crsState = csRelay → s.on pgCrs CRS_ID_BOW = true → s.course.sawMap = false → s.hasRingId = false →
    s.course.twoBows = false → s.course.enum = 0 → s.linkState false ≠ 3 →
    ∃ t, exec .mapWaitExpiry s = .next t ∧ t.hasRingId = true ∧ t.ringId = 0 ∧ t.course.enum = 1 ∧
      s.Told t sgEnum false [1, s.ownSerial] ∧ Unchanged [.regs, .out, .course] s t) ∧
  (∀ s : State, s.course.enum ≠ 0 →
    ∃ t, exec .enumTimeout s = .next t ∧ t.course.enum = 0 ∧ t.course.failed = true ∧ t.course.map = [] ∧
      (s.rd pgCrs PG_ERR_VALID = 0 → t.rd pgCrs PG_ERR_VALID = 1 ∧ t.rd pgCrs PG_ERR_CODE = 0x33) ∧
      Unchanged [.regs, .out, .host, .cox, .course] s t) ∧
  (∀ s : State, s.course.failed = true → s.course.enum = 0 → s.course.twoBows = false → s.linkState false ≠ 3 →
    ∃ t, exec .enumRetry s = .next t ∧ t.ringId = 0 ∧ t.course.enum = 1 ∧ t.course.failed = false ∧
      s.Told t sgEnum false [1, s.ownSerial] ∧ Unchanged [.regs, .out, .course] s t) ∧
  (∀ s : State, s.portOpen = true → s.lowestHere = true → s.course.enum = 0 → s.course.map ≠ [] →
    s.on pgCrs CRS_ID_ACTING = true →
    ∃ t, exec .mapBeacon s = .next t ∧ s.ToldBoth t sgMap s.mapWords ∧ Unchanged [.out, .course] s t) ∧
  (∀ s : State, s.portOpen = true → s.lowestHere = true → s.course.enum = 0 → s.course.map ≠ [] →
    s.on pgCrs CRS_ID_ACTING = false →
    ∃ t, exec .mapBeacon s = .next t ∧ t.rd pgCrs CRS_ID_ACTING = 1 ∧
      t.course.map = s.course.map.map (fun m =>
        { m with pos := (m.pos + s.course.map.length - s.ownPos % s.course.map.length) % s.course.map.length }) ∧
      Unchanged [.regs, .out, .host, .cox, .course] s t) ∧
  (∀ (s : State) (serial : Nat) (p : BitVec 10), s.on pgCrs CRS_ID_ACTING = true →
    (∃ x ∈ s.course.map, x.serial = serial) → serial ≠ 0 →
    ∃ t, exec (.join serial p) s = .next t ∧ s.ToldBoth t sgMap s.mapWords ∧ Unchanged [.out, .course] s t) ∧
  (∀ (s : State) (serial i : Nat) (p : BitVec 10), s.on pgCrs CRS_ID_ACTING = true →
    (∀ x ∈ s.course.map, x.serial ≠ serial) → s.course.map.length < 1024 →
    s.course.heldIds = [⟨i, serial, false, true⟩] →
    ∃ t, exec (.join serial p) s = .next t ∧ ⟨i, p.toNat, serial⟩ ∈ t.course.map ∧
      t.course.map.length = s.course.map.length + 1 ∧ t.course.heldIds = [] ∧
      Unchanged [.regs, .out, .draws, .host, .cox, .course] s t) ∧
  (∀ (s : State) (serial i : Nat) (p : BitVec 10), s.on pgCrs CRS_ID_ACTING = true →
    (∀ x ∈ s.course.map, x.serial ≠ serial) → s.course.heldIds = [⟨i, serial, true, true⟩] →
    exec (.join serial p) s = .next s) ∧
  (∀ (s : State) (id : BitVec 10) (x : Member), s.hasRingId = true → s.ringId ≠ id.toNat → s.member id.toNat = some x →
    ∃ t, exec (.leave id) s = .next t ∧ (∀ m ∈ t.course.map, m.id ≠ id.toNat) ∧
      (⟨x.id, x.serial, true, s.rd pgCrs CRS_CFG_HOLD != 0⟩ : HeldId) ∈ t.course.heldIds ∧
      Unchanged [.regs, .out, .host, .cox, .course] s t) ∧
  (∀ (s : State) (m : Master), s.Takes m pgCrs 0x6C → s.rd pgCrs CRS_REQ_STATUS ≠ 1 → s.crsState = csMember →
    ∃ t, exec (.reqLeave m) s = .next t ∧ t.rd pgCrs CRS_REQ_STATUS = 1 ∧ t.rd pgCrs CRS_REQ_OP = 1 ∧
      t.course.leaving = true ∧ s.ToldBoth t sgLeave [s.ringId] ∧ Unchanged [.regs, .out, .course] s t) ∧
  (∀ (s : State) (m : Master), s.Takes m pgCrs 0x6C → s.rd pgCrs CRS_REQ_STATUS ≠ 1 → s.crsState ≠ csMember →
    ∃ t, exec (.reqLeave m) s = .next t ∧ t.rd pgCrs CRS_REQ_STATUS = 3 ∧ (t.rd pgCrs PG_IRQ_RAW).testBit 0 = true ∧
      t.course = s.course) ∧
  (∀ (s : State) (m : Master), s.Takes m pgCrs 0x6C → s.rd pgCrs CRS_REQ_STATUS ≠ 1 → s.crsState = csBypass →
    s.course.left = true → inService s.devMode = true →
    ∃ t, exec (.reqJoin m) s = .next t ∧ t.rd pgCrs CRS_REQ_STATUS = 1 ∧ t.crsState = csTraining ∧
      t.linkState true = 1 ∧ t.linkState false = 1 ∧ t.course.joining = true ∧ Unchanged [.regs, .course] s t) ∧
  (∀ s : State, s.course.leaving = true → s.course.egress = [] →
    ∃ t, exec .leaveDrainEnd s = .next t ∧ t.crsState = csBypass ∧ t.hasRingId = false ∧ t.course.map = [] ∧
      t.course.left = true ∧ t.course.leaving = false ∧ t.course.ingress = [] ∧ t.rd pgCrs CRS_REQ_STATUS = 2 ∧
      (t.rd pgCrs PG_IRQ_RAW).testBit 0 = true ∧ Unchanged [.regs, .out, .host, .cox, .course] s t) ∧
  (∀ (s : State) (id : BitVec 10) (bar : Bool),
    ∃ t, exec (.ringIdHoldExpiry id bar) s = .next t ∧
      (∀ e ∈ t.course.heldIds, e.id = id.toNat → e.barred = !bar ∧ e.kept = bar) ∧
      (∀ e ∈ s.course.heldIds, e.id ≠ id.toNat → e.barred || e.kept → e ∈ t.course.heldIds) ∧ Unchanged [.course] s t)

/-- A RUN-G2 configuration (R295 to R305): PROG_N, CLEARING, SYNC, the stream's header, frames and CRC, the start, and the
calibration. -/
def Obligations.G2LoadAct : Prop :=
  (∀ s : State, s.g2Serves = true → s.g2State ≠ gsOff → s.g2State ≠ gsStarting → s.g2State ≠ gsReceiving →
    s.pinsAre 8 [35] = true → s.pins.levels.testBit 35 = false →
    ∃ t, exec .progNLow s = .next t ∧ t.g2State = 1 ∧ t.g2.frames = 0 ∧ t.g2.header = false ∧
      (∀ r < 48, (t.room r).quiesce = true) ∧ Unchanged [.regs, .rooms, .g2] s t) ∧
  (∀ (s : State) (m : Master), s.Admits m pgG2c 0x40 → s.g2Serves = true → s.g2State ≠ gsOff → s.g2State ≠ gsStarting →
    s.g2State ≠ gsReceiving →
    ∃ t, exec (.g2Prog m) s = .next t ∧ t.g2State = 1 ∧ t.g2.frames = 0 ∧ t.g2.header = false ∧
      t.g2.src = s.on pgG2c G2C_CTRL_SRC ∧ Unchanged [.regs, .rooms, .g2] s t) ∧
  (∀ (s : State) (m : Master), s.Admits m pgG2c 0x40 → s.g2Serves = true → s.g2State = gsReceiving →
    ∃ t, exec (.g2Prog m) s = .next t ∧ t.g2State = 1 ∧ t.rd pgG2c G2C_LOAD_VALID = 1 ∧ t.rd pgG2c G2C_LOAD_CODE = 7 ∧
      t.rd pgG2c G2C_LOAD_SEQ = (s.rd pgG2c G2C_LOAD_SEQ + 1) % 16 ∧ Unchanged [.regs, .rooms, .g2] s t) ∧
  (∀ (s : State) (m : Master), s.Admits m pgG2c 0x40 → s.g2Serves = true → s.g2State = gsStarting →
    ∃ t, exec (.g2Prog m) s = .next t ∧ t.g2State = s.g2State ∧ t.g2.progDue = true ∧ Unchanged [.g2] s t) ∧
  (∀ s : State, s.g2Serves = true → s.g2State = gsClearing → s.progNHigh = true → s.g2.src = false →
    ∃ t, exec .g2ClearDone s = .next t ∧ t.g2State = 2 ∧ t.g2.crc = 0xFFFF ∧ t.g2.tiles = [] ∧
      Unchanged [.regs, .mem, .bad, .g2] s t) ∧
  (∀ s : State, s.g2Serves = true → s.g2State = gsWait → s.g2.src = false → s.pinsAre 8 [32, 33] = true →
    ∃ t, exec .g2Sync s = .next t ∧ t.g2State = 3 ∧ Unchanged [.regs] s t) ∧
  (∀ (s : State) (n : BitVec 16), s.g2Serves = true → s.g2State = gsReceiving → s.g2.src = false →
    s.pinsAre 8 [32, 33] = true → s.g2.header = false → 0 < n.toNat → n.toNat ≤ 6144 →
    ∃ t, exec (.g2StreamHeader 0x96 0x02 n 0) s = .next t ∧ t.g2.header = true ∧ t.g2.nframes = n.toNat ∧
      t.g2State = 3 ∧ Unchanged [.g2] s t) ∧
  (∀ (s : State) (d : Byte) (n : BitVec 16) (r : Word), s.g2Serves = true → s.g2State = gsReceiving → s.g2.src = false →
    s.pinsAre 8 [32, 33] = true → s.g2.header = false → d ≠ 0x96 →
    ∃ t, exec (.g2StreamHeader d 0x02 n r) s = .next t ∧ t.g2State = 6 ∧ t.rd pgG2c G2C_LOAD_CODE = 1 ∧
      t.g2.dout = true ∧ (t.rd pgG2c PG_IRQ_RAW).testBit 1 = true) ∧
  (∀ (s : State) (a : BitVec 16) (data : List Byte), s.g2Serves = true → s.g2State = gsReceiving → s.g2.src = false →
    s.pinsAre 8 [32, 33] = true → s.g2.header = true → s.g2.frames < s.g2.nframes → data.length = 192 →
    a.toNat < 2 ^ 14 → bits a.toNat 13 8 ≤ 47 → a.toNat.testBit 7 = false →
    ∃ t, exec (.g2Frame a data) s = .next t ∧ t.g2.frames = s.g2.frames + 1 ∧ t.g2State = 3 ∧
      t.g2.tiles = Tbl.putBytes s.g2.tiles (bits a.toNat 13 8 * 24576 + a.toNat % 128 * 192) data ∧
      Unchanged [.mem, .bad, .g2] s t) ∧
  (∀ (s : State) (a : BitVec 16) (data : List Byte), s.g2Serves = true → s.g2State = gsReceiving → s.g2.src = false →
    s.pinsAre 8 [32, 33] = true → s.g2.header = true → s.g2.frames < s.g2.nframes → data.length = 192 →
    47 < bits a.toNat 13 8 →
    ∃ t, exec (.g2Frame a data) s = .next t ∧ t.g2State = 6 ∧ t.rd pgG2c G2C_LOAD_CODE = 3 ∧
      t.rd pgG2c G2C_LOAD_FRAMES = s.g2.frames % 2 ^ (G2C_LOAD_FRAMES.hi - G2C_LOAD_FRAMES.lo + 1)) ∧
  (∀ (s : State) (c : BitVec 16), s.g2Serves = true → s.g2State = gsReceiving → s.g2.src = false →
    s.pinsAre 8 [32, 33] = true → s.g2.header = true → s.g2.frames = s.g2.nframes → c.toNat = s.g2.crc →
    ∃ t, exec (.g2Crc c) s = .next t ∧ t.g2State = 4 ∧ t.g2.calRun = true ∧
      Unchanged [.regs, .g2] s t) ∧
  (∀ (s : State) (c : BitVec 16), s.g2Serves = true → s.g2State = gsReceiving → s.g2.src = false →
    s.pinsAre 8 [32, 33] = true → s.g2.header = true → s.g2.frames = s.g2.nframes → c.toNat ≠ s.g2.crc →
    ∃ t, exec (.g2Crc c) s = .next t ∧ t.g2State = 6 ∧ t.rd pgG2c G2C_LOAD_CODE = 4 ∧
      (t.g2Raw 3).testBit 2 = true ∧ (t.rd pgG2c PG_IRQ_RAW).testBit 1 = true) ∧
  (∀ s u : State, s.g2Serves = true → s.g2State = gsStarting → s.g2.calRun = false → (s.wing 0).swap = none →
    s.selfTest.east.slices = [] → u.g2.progDue = false →
    (List.range 48).foldl (fun (a : Bool × State) r => if a.1 then a.2.g2Room r else a) (true, s) = (true, u) →
    ∃ v : State, exec .g2StartDone s = .next (v.wingDone 0) ∧ v.g2State = 5 ∧ v.rd pgG2c G2C_LOAD_VALID = 1 ∧
      v.rd pgG2c G2C_LOAD_CODE = 0 ∧ (v.rd pgG2c PG_IRQ_RAW).testBit 0 = true ∧ v.rooms = u.rooms ∧
      v.fabric = u.fabric) ∧
  (∀ s : State, s.g2Serves = true → s.on pgG2c G2C_CTRL_RECAL_EN = true →
    ∃ t, exec .g2Calibration s = .next t ∧ t.g2.calRun = true ∧ Unchanged [.g2] s t) ∧
  (∀ (s : State) (n : Nat), s.g2.calRun = true → 0 < n →
    34 * n ≤ 40 * s.g2.ref → 40 * s.g2.ref ≤ 60 * n →
    ∃ t, exec (.g2CalibrationDone n) s = .next t ∧ t.g2.calRun = false ∧ t.g2.count = n ∧
      t.rd pgG2c G2C_CAL_VALID = 1 ∧ t.rd pgG2c G2C_CAL_STATUS = 0 ∧
      t.rd pgG2c G2C_CAL_STEP = (8000 * s.g2.ref + n) / (2 * n) ∧ Unchanged [.regs, .g2] s t) ∧
  (∀ (s : State) (n : Nat), s.g2.calRun = true → 0 < n → 40 * s.g2.ref < 34 * n ∨ 60 * n < 40 * s.g2.ref →
    ∃ t, exec (.g2CalibrationDone n) s = .next t ∧ t.g2.count = s.g2.count ∧ t.rd pgG2c G2C_CAL_STATUS = 1 ∧
      t.rd pgG2c G2C_CAL_STEP = min 0xFFFF ((8000 * s.g2.ref + n) / (2 * n)) ∧
      (t.rd pgG2c PG_IRQ_RAW).testBit 2 = true) ∧
  (∀ s : State, s.g2.calRun = true →
    ∃ t, exec (.g2CalibrationDone 0) s = .next t ∧ t.g2.count = s.g2.count ∧ t.rd pgG2c G2C_CAL_STATUS = 1 ∧
      t.rd pgG2c G2C_CAL_STEP = 0xFFFF ∧ (t.rd pgG2c PG_IRQ_RAW).testBit 2 = true)

/-- The register file of RUN-G2 (R306 to R312): the host port, writes through BAR0, gating, power modes, the wake timer,
and what the design does, and what the block drives on its pins (R291, R297). -/
def Obligations.G2RegistersAct : Prop :=
  (∀ (s : State) (a : BitVec 6), s.hostPort false = true → s.g2Shut a.toNat = false → a.toNat < 8 ∨ 10 < a.toNat →
    ∃ t, exec (.g2HostRead a []) s = .next t ∧
      t.out = .g2Strobe s.strobeOverlay (some (BitVec.ofNat 8 (s.g2Value a.toNat))) :: s.out ∧
      Unchanged [.regs, .out] s t) ∧
  (∀ (s : State) (a : BitVec 6), s.hostPort false = true → 8 ≤ a.toNat → a.toNat ≤ 10 →
    ∃ t, exec (.g2HostRead a []) s = .next t ∧
      t.out = .g2Strobe s.strobeOverlay (some (BitVec.ofNat 8 (s.g2Tick.g2Raw a.toNat))) :: s.out ∧
      Unchanged [.regs, .out, .draws] s t) ∧
  (∀ (s : State) (a : BitVec 6), s.hostPort false = true → s.g2Shut a.toNat = true → (s.g2Raw 5).testBit 1 = false →
    ∃ t, exec (.g2HostRead a []) s = .next t ∧ t.out = .g2Strobe s.strobeOverlay (some 0) :: s.out ∧ (t.g2Raw 3).testBit 3 = true ∧
      Unchanged [.regs, .out] s t) ∧
  (∀ s : State, s.g2Value 0 = 0x96 ∧ s.g2Value 1 = 3 ∧ s.g2Value 0x3F = 0x4C) ∧
  (∀ (s : State) (n : BitVec 4) (v : Byte), s.hostPort true = true → (s.g2Raw 4) % 4 ≠ 2 → (s.g2Raw 5).testBit 1 = false →
    ∃ t, exec (.g2HostWrite (0x10 + n.setWidth 6) v []) s = .next t ∧ t.g2Raw (0x10 + n.toNat) = v.toNat ∧
      t.out = .g2Strobe s.strobeOverlay none :: s.out ∧ Unchanged [.regs, .out] s t) ∧
  (∀ (s t u : State) (a k : BitVec 6) (v y x : Byte) (m : Master) (n : BitVec 4), exec (.g2HostWrite a v []) s = .next t →
    exec (.g2cRegWrite m k y []) t = .next u →
    exec (.g2HostWrite a v [.user n x, .reg m k y]) s = exec (.g2UserWrite n x) u) ∧
  (∀ (s : State) (m : Master) (n : BitVec 4) (v : Byte), s.Admits m pgG2c (0x140 + 4 * n.toNat) →
    (s.g2Raw 4) % 4 ≠ 2 →
    ∃ t, exec (.g2cRegWrite m (0x10 + n.setWidth 6) v []) s = .next t ∧ t.g2Raw (0x10 + n.toNat) = v.toNat ∧
      Unchanged [.regs] s t) ∧
  (∀ (s : State) (m : Master) (v : Byte), s.Admits m pgG2c 0x11C → (s.g2Raw 4) % 4 = 2 →
    ∃ t, exec (.g2cRegWrite m 7 v []) s = .next t ∧ t.g2Raw 7 = s.g2Raw 7 ∧ (t.g2Raw 3).testBit 3 = true ∧
      Unchanged [.regs] s t) ∧
  (∀ (s : State) (m : Master) (v : Byte), s.Admits m pgG2c 0x118 → (s.g2Raw 4) % 4 ≠ 2 →
    ∃ t, exec (.g2cRegWrite m 6 v []) s = .next t ∧ (∀ i, i < 8 → v.getLsbD i = true → (t.g2Raw 6).testBit i = false) ∧
      Unchanged [.regs] s t) ∧
  (∀ (s : State) (m : Master), s.Admits m pgG2c 0x110 →
    ∃ t u v, exec (.g2Sleep (some m)) s = .next t ∧ t.g2Raw 4 = 1 ∧ t.rd pgG2c G2C_STAT_PWR = 1 ∧
      exec (.g2DeepSleep (some m)) s = .next u ∧ u.g2Raw 4 = 2 ∧ u.rd pgG2c G2C_STAT_PWR = 2 ∧
      exec (.g2Run (some m)) s = .next v ∧ v.g2Raw 4 = 0 ∧ v.rd pgG2c G2C_STAT_PWR = 0 ∧
      Unchanged [.regs] s t ∧ Unchanged [.regs] s u ∧ Unchanged [.regs] s v) ∧
  (∀ s : State, s.hostPort true = true →
    ∃ t u v, exec (.g2Sleep none) s = .next t ∧ t.g2Raw 4 = 1 ∧ exec (.g2DeepSleep none) s = .next u ∧ u.g2Raw 4 = 2 ∧
      exec (.g2Run none) s = .next v ∧ v.g2Raw 4 = 0) ∧
  (∀ (s : State) (n : BitVec 4) (v : Byte), s.g2Runs = true →
    ∃ t, exec (.g2UserWrite n v) s = .next t ∧ t.g2Raw (0x10 + n.toNat) = v.toNat ∧ Unchanged [.regs] s t) ∧
  (∀ (s : State) (b : BitVec 7), s.g2Runs = true →
    ∃ t, exec (.designInterruptRequest b) s = .next t ∧ t.g2Raw 6 = s.g2Raw 6 ||| b.toNat * 2 ∧ Unchanged [.regs] s t) ∧
  (∀ s : State, s.g2Mode = true → (s.g2Raw 0xB).testBit 0 = true → s.g2Left ≠ 0 →
    ∃ t, exec .g2TimerExpiry s = .next t ∧ (t.g2Raw 6).testBit 0 = true ∧
      ((s.g2Raw 0xB).testBit 1 = false → t.g2Raw 8 = 0 ∧ t.g2Raw 9 = 0 ∧ t.g2Raw 0xA = 0) ∧
      ((s.g2Raw 0xB).testBit 1 = true → t.g2Left = s.g2.reload % 2 ^ 24) ∧
      ((s.g2Raw 5).testBit 0 = true → t.g2Raw 4 = 0 ∧ t.rd pgG2c G2C_STAT_PWR = 0) ∧ Unchanged [.regs] s t) ∧
  (∀ (s : State) (d : Bool), s.g2Serves = true → s.g2State = gsStarting ∨ s.g2State = gsConfigured → s.g2.src = false →
    s.pinsAre 8 [32, 33] = true →
    ∃ t, exec (.cclkFallingEdge d) s = .next t ∧ t.g2.dout = d ∧ Unchanged [.g2] s t) ∧
  (∀ s : State, s.g2Mode = true → s.mode .east ≠ mHalt → s.g2State ≠ gsOff →
    (s.pinsAre 7 [17] = true → s.g2Drives 17 = if s.g2Int then .low else .highZ) ∧
    (s.pinsAre 8 [36] = true → s.g2Drives 36 = if s.g2State = gsClearing ∨ s.g2State = gsError then .low else .highZ) ∧
    (s.pinsAre 8 [37] = true → s.g2Drives 37 = if s.g2State = gsConfigured then .highZ else .low)) ∧
  (∀ (s : State) (n : Nat), s.g2Mode = false ∨ s.mode .east = mHalt ∨ s.g2State = gsOff → s.g2Drives n = .highZ)

/-- Hatches (R191 to R210): pushes, notices, delivery, host copies and returns, the ring, and the HAT command port. -/
def Obligations.HatchesAct : Prop :=
  (∀ (s : State) (id : BitVec 16) (p : BitVec 6) (n len : BitVec 16) (bs : List Byte) (c : Crew) (r : Nat),
    s.crew id.toNat = some c → c.state = .running ∨ c.state = .pinned → c.suite[p.toNat]? = some r →
    s.tokensMove r = true → (s.room r).quiesce = false → hatchHalf n.toNat = idHalf id.toNat →
    s.pushCheck n.toNat (.crew id.toNat c.heat) len.toNat = .admitted →
    ∃ t, exec (.hatchPush id p n len bs []) s = .next t ∧
      (t.hatch n.toNat).packets = (s.hatch n.toNat).packets ++
        [⟨(s.hatch n.toNat).tail, false, len.toNat, id.toNat, c.heat, 0, ((s.hatch n.toNat).admitted + 1) % 2 ^ 32, false, 0,
          false, false⟩] ∧
      (t.hatch n.toNat).admitted = (s.hatch n.toNat).admitted + 1 ∧
      (t.hatch n.toNat).tail = ((s.hatch n.toNat).tail + len.toNat) % (s.hatch n.toNat).ring ∧
      t.out.head? = some (.pushCode id.toNat n.toNat hcOk)) ∧
  (∀ (s : State) (id : BitVec 16) (p : BitVec 6) (n len : BitVec 16) (bs : List Byte) (c : Crew) (r code : Nat),
    s.crew id.toNat = some c → c.state = .running ∨ c.state = .pinned → c.suite[p.toNat]? = some r →
    s.tokensMove r = true → (s.room r).quiesce = false → hatchHalf n.toNat = idHalf id.toNat →
    s.pushCheck n.toNat (.crew id.toNat c.heat) len.toNat = .refuse code → hatchNumOk n.toNat = true →
    ∃ t, exec (.hatchPush id p n len bs []) s = .next t ∧ (t.hatch n.toNat).lastErr = code ∧
      (t.hatch n.toNat).packets = (s.hatch n.toNat).packets ∧ t.out.head? = some (.pushCode id.toNat n.toNat code) ∧
      (t.rd (pgHat (hatchHalf n.toNat)) PG_IRQ_RAW).testBit 1 = true) ∧
  (∀ (s t u : State) (id : BitVec 16) (p q : BitVec 6) (n len len' : BitVec 16) (bs bs' : List Byte) (fn : BitVec 8),
    p.toNat < q.toNat → exec (.hatchReturn fn n 1) s = .next t → exec (.hatchPush id p n len bs []) t = .next u →
    exec (.hatchPush id p n len bs [.room q len' bs', .pop fn]) s = exec (.hatchPush id q n len' bs' []) u ∧
      exec (.hatchPush id q n len' bs' [.pop fn, .room p len bs]) s = exec (.hatchPush id q n len' bs' []) u) ∧
  (∀ (s t : State) (id : BitVec 16) (p : BitVec 6) (n len len' : BitVec 16) (bs : List Byte) (fn : BitVec 8),
    exec (.hatchPush id p n len bs []) s = .next t →
    exec (.hatchPush id p n len bs [.send fn len']) s = exec (.hatchSend fn n len') t) ∧
  (∀ (s : State) (n : Nat) (who : Pusher) (len : Nat), hatchNumOk n = true → (s.hatch n).isOpen = true →
    (s.hatch n).closing = false → isProducer (s.hatch n) who = true → s.pusherWorld who = (s.hatch n).world →
    s.pushCheck n who len =
      if len = 0 then .refuse 1 else if (s.hatch n).ring < len then .refuse 2
      else if (s.hatch n).held = (s.hatch n).slots then .refuse 3
      else if (s.hatch n).credit < len then .refuse 2 else .admitted) ∧
  (∀ (s : State) (fn : BitVec 8) (n len : BitVec 16), s.BellServed fn.toNat → s.hatchReached n.toNat = true →
    s.pushCheck n.toNat (.host fn.toNat) len.toNat = .admitted →
    ∃ t, exec (.hatchSend fn n len) s = .next t ∧
      (t.hatch n.toNat).packets = (s.hatch n.toNat).packets ++
        [⟨(s.hatch n.toNat).tail, false, len.toNat, fn.toNat, 0, 0, ((s.hatch n.toNat).admitted + 1) % 2 ^ 32, false, 0,
          false, false⟩] ∧ t.mem = s.mem ∧ Unchanged [.hatches] s t) ∧
  (∀ (s : State) (n : BitVec 16) (k : Word) (p : Packet) (j : Nat),
    ((s.hatch n.toNat).packets.zipIdx.find? fun e => e.1.number == k.toNat && !e.1.posted) = some (p, j) →
    ∃ u : State, exec (.noticePost n k) s = .next ((u.settle n.toNat).wakeByNotice n.toNat) ∧
      u.hatch n.toNat =
        { s.hatch n.toNat with packets := (s.hatch n.toNat).packets.set j { p with posted := true } } ∧
      Unchanged [.regs, .out, .host, .mem, .bad, .stackCtl, .frames, .attic, .cox, .gallery,
        .hatches] s u) ∧
  (∀ (s : State) (n : BitVec 16) (c : Crew) (p : Packet), s.settle n.toNat = s →
    (s.hatch n.toNat).isOpen = true → (s.hatch n.toNat).closing = false → (s.hatch n.toNat).dstKind = endCrew →
    s.crew (s.hatch n.toNat).dst = some c → c.state = .running ∨ c.state = .pinned → s.tokensMove (c.suite.headD 0) = true →
    (s.room (c.suite.headD 0)).quiesce = false → (s.hatch n.toNat).head = some p → p.shown = false →
    ∃ t, exec (.hatchDelivery n 0) s = .next t ∧
      t.out = .hatchNotice n.toNat (noticeBytes p (noticePhase (s.hatch n.toNat)
        (State.noticeIndex (s.hatch n.toNat) 0))) :: s.out ∧
      t.hatch n.toNat = { s.hatch n.toNat with packets := { p with shown := true } :: (s.hatch n.toNat).packets.tail } ∧
      Unchanged [.out, .hatches] s t) ∧
  (∀ (s u : State) (n : BitVec 16) (c : Crew) (p : Packet) (bs : List Byte), s.settle n.toNat = s →
    (s.hatch n.toNat).isOpen = true → (s.hatch n.toNat).closing = false → (s.hatch n.toNat).dstKind = endCrew →
    s.crew (s.hatch n.toNat).dst = some c → c.state = .running ∨ c.state = .pinned → s.tokensMove (c.suite.headD 0) = true →
    (s.room (c.suite.headD 0)).quiesce = false → (s.hatch n.toNat).head = some p → p.shown = true → p.words + 1 < p.len →
    s.ringWord (s.hatch n.toNat) p p.words = (some bs, u) →
    ∃ t, exec (.hatchDelivery n 1) s = .next t ∧ t.out.head? = some (.hatchWord n.toNat bs) ∧
      t.hatch n.toNat = { s.hatch n.toNat with
        packets := { p with words := p.words + 1 } :: (s.hatch n.toNat).packets.tail }) ∧
  (∀ (s u : State) (n : BitVec 16) (c : Crew) (p : Packet) (bs : List Byte), s.settle n.toNat = s →
    (s.hatch n.toNat).isOpen = true → (s.hatch n.toNat).closing = false → (s.hatch n.toNat).dstKind = endCrew →
    s.crew (s.hatch n.toNat).dst = some c → c.state = .running ∨ c.state = .pinned → s.tokensMove (c.suite.headD 0) = true →
    (s.room (c.suite.headD 0)).quiesce = false → (s.hatch n.toNat).head = some p → p.shown = true →
    p.words + 1 = p.len →
    s.ringWord (s.hatch n.toNat) p p.words = (some bs, u) →
    ∃ v : State, exec (.hatchDelivery n 1) s = .next (v.settle n.toNat) ∧ v.out.head? = some (.hatchWord n.toNat bs) ∧
      v.hatch n.toNat = (s.hatch n.toNat).pop) ∧
  (∀ (s : State) (n : BitVec 16) (p : Packet) (j : Nat), (s.hatch n.toNat).isOpen = true →
    (s.hatch n.toNat).closing = false → (s.hatch n.toNat).dstKind = endHost → (s.hatch n.toNat).dst ∉ s.security.fns →
    (s.hatch n.toNat).dst ∈ s.host.bme → inService (s.mode .east) = true → s.hatchReached n.toNat = true →
    State.copyNext (s.hatch n.toNat) = some (p, j) → s.sourceStale n.toNat (s.hatch n.toNat) p = false →
    ∃ u : State, exec (.hostCopy n) s = .next (u.msix (s.hatch n.toNat).dst (s.hatch n.toNat).vector) ∧
      u.hatch n.toNat = { s.hatch n.toNat with
        packets := (s.hatch n.toNat).packets.set j { p with copied := true }, toHost := (s.hatch n.toNat).toHost + 1 } ∧
      u.out.head? = some (.hostWrite (s.hatch n.toNat).dst
        ((s.hatch n.toNat).iova + (s.hatch n.toNat).ringBytes +
          (s.hatch n.toNat).toHost % (s.hatch n.toNat).slots * 16)
        (noticeBytes p (noticePhase (s.hatch n.toNat) (s.hatch n.toNat).toHost)) false)) ∧
  (∀ (s : State) (n : BitVec 16) (p : Packet) (j : Nat), (s.hatch n.toNat).isOpen = true →
    (s.hatch n.toNat).closing = false → (s.hatch n.toNat).dstKind = endHost → (s.hatch n.toNat).dst ∉ s.security.fns →
    (s.hatch n.toNat).dst ∈ s.host.bme → inService (s.mode .east) = true → s.hatchReached n.toNat = true →
    State.copyNext (s.hatch n.toNat) = some (p, j) → s.sourceStale n.toNat (s.hatch n.toNat) p = true →
    ∃ u : State, exec (.hostCopy n) s = .next (u.settle n.toNat) ∧
      u.hatch n.toNat =
        { s.hatch n.toNat with packets := (s.hatch n.toNat).packets.set j { p with dropped := true } } ∧
      u.rd (pgStw (hatchHalf n.toNat)) STW_STALE_HATCH =
        min STW_STALE_HATCH.max (s.rd (pgStw (hatchHalf n.toNat)) STW_STALE_HATCH + 1)) ∧
  (∀ (s : State) (fn : BitVec 8) (n : BitVec 16) (p : Packet), s.BellServed fn.toNat →
    s.hatchReached n.toNat = true → hatchNumOk n.toNat = true → (s.hatch n.toNat).isOpen = true →
    (s.hatch n.toNat).dstKind = endHost → (s.hatch n.toNat).dst = fn.toNat →
    s.ownerWorld fn.toNat = (s.hatch n.toNat).world → (s.hatch n.toNat).head = some p →
    exec (.hatchReturn fn n 1) s = .next ((s.setHatch n.toNat (s.hatch n.toNat).pop).settle n.toNat)) ∧
  (∀ (s : State) (fn : BitVec 8) (n c : BitVec 16), s.BellServed fn.toNat → s.hatchReached n.toNat = true →
    hatchNumOk n.toNat = true → (s.hatch n.toNat).isOpen = true → (s.hatch n.toNat).dstKind = endHost →
    (s.hatch n.toNat).dst = fn.toNat → s.ownerWorld fn.toNat = (s.hatch n.toNat).world →
    (s.hatch n.toNat).head = none → c ≠ 0 →
    ∃ t, exec (.hatchReturn fn n c) s = .next t ∧
      t.rd (pgHat (hatchHalf n.toNat)) HAT_UNDERFLOW_COUNT =
        min HAT_UNDERFLOW_COUNT.max (s.rd (pgHat (hatchHalf n.toNat)) HAT_UNDERFLOW_COUNT + c.toNat) ∧
      Unchanged [.regs] s t) ∧
  (∀ (s u : State) (n : BitVec 16) (p : Packet) (bs : List Byte), s.settle n.toNat = s →
    (s.hatch n.toNat).head = some p → (s.hatch n.toNat).dstKind = endRing → (s.hatch n.toNat).isOpen = true →
    p.copied = false → s.cut (hatchHalf n.toNat) = false → s.takesPacket p.len = true → p.len = 1 → s.ringWord (s.hatch n.toNat) p 0 = (some bs, u) →
    exec (.ringHandoff n) s = .next ((u.setHatch n.toNat (s.hatch n.toNat).pop).ringTake (s.hatch n.toNat).dst
      (s.hatch n.toNat).rhatch (s.hatch n.toNat).world p.src p.heat 1 bs)) ∧
  (∀ (s : State) (n : BitVec 16), s.settle n.toNat = s → s.cut (hatchHalf n.toNat) = false → s.crsState ≠ csMember →
    exec (.ringHandoff n) s = .next s) ∧
  (∀ (s : State) (p : Port) (n : Nat), s.PortFree .hat p → s.portRd .hat p HAT_ARG_HATCH = n → hatchNumOk n = true →
    portServes p (hatchHalf n) = true → (s.hatch n).closing = false →
    s.mayName (portOwner p) (Hatch.ofWords (s.hatWindow p)) = true → (s.hatch n).isOpen = false →
    s.hatchDescOk n (Hatch.ofWords (s.hatWindow p)) = true → s.endsLive (Hatch.ofWords (s.hatWindow p)) = true →
    (Hatch.ofWords (s.hatWindow p)).world = false →
    ∃ t, exec (.hatchOpen p) s = .next t ∧ t.hatch n = Hatch.ofWords (s.hatWindow p) ∧ t.Answered .hat p htOk) ∧
  (∀ (s : State) (p : Port) (n : Nat), s.PortFree .hat p → s.portRd .hat p HAT_ARG_HATCH = n → hatchNumOk n = false →
    ∃ t u v, exec (.hatchOpen p) s = .next t ∧ exec (.hatchQuery p) s = .next u ∧ exec (.hatchClose p) s = .next v ∧
      t.Answered .hat p htBadHatch ∧ u.Answered .hat p htBadHatch ∧ v.Answered .hat p htBadHatch ∧
      t.hatches = s.hatches ∧ u.hatches = s.hatches ∧ v.hatches = s.hatches) ∧
  (∀ (s : State) (p : Port) (n : Nat), s.PortFree .hat p → s.portRd .hat p HAT_ARG_HATCH = n → hatchNumOk n = true →
    portServes p (hatchHalf n) = true → (s.hatch n).closing = false →
    ∃ t, exec (.hatchQuery p) s = .next t ∧ t.Answered .hat p htOk ∧ t.hatches = s.hatches) ∧
  (∀ (s : State) (p : Port) (n : Nat), s.PortFree .hat p → s.portRd .hat p HAT_ARG_HATCH = n → hatchNumOk n = true →
    portServes p (hatchHalf n) = true → (s.hatch n).closing = false → (s.hatch n).isOpen = true →
    s.mayName (portOwner p) (s.hatch n) = true →
    ∃ t, exec (.hatchClose p) s = .next t ∧ t.hatch n = { s.hatch n with closing := true } ∧
      t.portOps = s.portOps ++ [⟨p, .hat, 3, n, 0, false, [], 0, none⟩]) ∧
  (∀ (s : State) (n : BitVec 16) (o : PortOp), (s.hatch n.toNat).closing = true →
    (∀ p ∈ (s.hatch n.toNat).packets, p.posted = true) →
    (s.portOps.find? fun o => o.block == .hat && o.id == n.toNat && o.op == 3) = some o → o.discard = false →
    ∃ u : State, exec (.hatchCloseComplete n) s = .next (u.hatchWaits n.toNat u.portOps.length) ∧
      u.hatch n.toNat = { s.hatch n.toNat with isOpen := false, closing := false, packets := [], tail := 0 } ∧
      u.Answered .hat o.port htOk ∧ u.portOps = s.portOps.erase o) ∧
  (∀ (s : State) (p : Port) (op : BitVec 4), s.PortFree .hat p → op = 0 ∨ 4 ≤ op.toNat →
    ∃ t, exec (.hatBadOp p op) s = .next t ∧ t.Answered .hat p htBadOp ∧ t.hatches = s.hatches)

/-- A swap (R98 to R113, Table 3.8): save, load, flip, restore and reopen, with a failed load; and the Steward's own events
(R138, R143, R145, R152, R155, R207). -/
def Obligations.SwapStepsAct : Prop :=
  (∀ (s u : State) (w : BitVec 4) (now n : Nat) (x : Swap) (fl : Bool), s.swapAt w.toNat 3 = some x →
    s.saveCrews x.outs now false = (fl, u) → (u.wing w.toNat).swap = some x → x.kind ≠ .standby →
    s.unquiet x.rooms = [] → u.codeOut x.rooms = false →
    ∃ v : State, exec (.swapSave w now n) s = .next ((v.settlePorts.decision (halfOf (w.toNat / 8))).settlePorts) ∧
      (v.wing w.toNat).swap = some { x with
        step := if x.inc.isSome && !x.lost then 4 else 7, codeErr := fl || x.codeErr, outs := [] } ∧
      Unchanged [.rooms, .wings] u v) ∧
  (∀ (s : State) (w : BitVec 4) (now n : Nat) (x : Swap), s.swapAt w.toNat 3 = some x →
    s.unquiet x.rooms ≠ [] → exec (.swapSave w now n) s = .next s) ∧
  (∀ (s : State) (id now r : Nat) (c : Crew), s.crew id = some c → c.target = .parked → c.suite = [r] →
    r % 256 < 192 → (s.room r).codeFlag = false →
    ∃ u : State, s.saveCrew id now false = (false, u) ∧
      u.crew id = some { c with state := .parked, suite := [], pendPark := false, qto := 0 } ∧
      (u.room r).codeErr = false ∧ Unchanged [.rooms, .crews, .mem, .bad] s u) ∧
  (∀ (s u : State) (w : BitVec 4) (n id heat r k : Nat) (c : Crew) (x : Swap), s.swapAt w.toNat 4 = some x →
    x.inc = some (id, heat) → x.lost = false → s.crewLive id heat = true → s.crew id = some c → x.suite = [r] →
    (x.kind = .reconfig → s.unquiet x.rooms = []) →
    (s.modCrew id fun c => { c with rewritten := false }).loadRoom w.toNat id c r 0 (x.kind == .swap) = (.ok k, u) → (u.wing w.toNat).swap = some x →
    ∃ t, exec (.swapLoad w n) s = .next t ∧
      (t.wing w.toNat).swap = some { x with step := 5, anyMem := k == 2, anyCache := k == 1 } ∧ Unchanged [.wings] u t) ∧
  (∀ (s u : State) (w : BitVec 4) (n id heat r : Nat) (c : Crew) (x : Swap) (f : FaultInfo), s.swapAt w.toNat 4 = some x →
    x.inc = some (id, heat) → x.lost = false → s.crewLive id heat = true → s.crew id = some c → x.suite = [r] →
    (x.kind = .reconfig → s.unquiet x.rooms = []) →
    (s.modCrew id fun c => { c with rewritten := false }).loadRoom w.toNat id c r 0 (x.kind == .swap) = (.error f, u) →
    exec (.swapLoad w n) s = .next (u.loadFails w.toNat x f n)) ∧
  (∀ (s : State) (w : BitVec 4) (id heat r : Nat) (x : Swap), s.swapAt w.toNat 5 = some x → x.inc = some (id, heat) →
    x.lost = false → x.kind = .swap → x.suite = [r] → r % 256 < 192 →
    ∃ t, exec (.swapFlip w) s = .next t ∧ (t.room r).active = !(s.room r).active ∧ (t.room r).crew = id ∧
      (t.room r).heat = heat ∧ (t.room r).pos = 0 ∧ (t.room r).screw = (s.room r).crew ∧
      (t.room r).sheat = (s.room r).heat ∧ (t.room r).codeFlag = false ∧
      (t.room r).svalid = ((s.room r).crew != 0 && s.crewLive (s.room r).crew (s.room r).heat &&
        !((s.crew (s.room r).crew).map (·.rewritten)).getD true) ∧
      (t.wing w.toNat).swap = some { x with step := 6 } ∧ Unchanged [.rooms, .wings] s t) ∧
  (∀ (s u : State) (w : BitVec 4) (n id heat r : Nat) (c : Crew) (x : Swap) (img : Tbl Byte),
    s.swapAt w.toNat 6 = some x → x.inc = some (id, heat) → x.lost = false → s.crewLive id heat = true →
    s.crew id = some c → x.suite = [r] → x.kind = .swap → r % 256 < 192 → c.isPinned = false →
    ((s.wing w.toNat).staged.find? fun y => y.crew == id && y.heat == heat && y.pos == 0) = none →
    s.readMem ueLoader (stateAddr c c.useFirst 0) imageBytes = (.ok img, u) →
    ∃ t, exec (.swapRestore w n) s = .next t ∧ (t.room r).retry = bits (statusWord img) 31 16 ∧ (t.room r).issued = 0 ∧
      (t.wing w.toNat).swap = some { x with step := 7 } ∧ t.fabric = (u.enterState r (liveImage img)).fabric) ∧
  (∀ (s : State) (w : BitVec 4) (n id heat : Nat) (c : Crew) (x : Swap), s.swapAt w.toNat 7 = some x →
    x.inc = some (id, heat) → x.lost = false → s.crewLive id heat = true → s.crew id = some c → c.isPinned = false →
    x.kind = .swap → x.rooms = x.suite →
    ∃ u : State, exec (.swapReopen w n) s = .next ((u.actPending id).wingDone w.toNat) ∧
      u.crew id = some { c with
        state := .running, suite := x.suite, boardings := (c.boardings + 1) % 2 ^ 32, lastAnchor := x.suite.headD 0,
        aged := 0, useFirst := false, expired := false, fault := 0 } ∧
      (u.wing w.toNat).swap = none) ∧
  (∀ (s : State) (w : BitVec 4) (n : Nat) (x : Swap), s.swapAt w.toNat 7 = some x → x.inc = none → x.kind = .swap →
    exec (.swapReopen w n) s =
      .next ((((s.emptyRooms x.rooms).swapRecord w.toNat (outcomeOf x) n).wingFree w.toNat).wingDone w.toNat)) ∧
  (∀ (s : State) (id : BitVec 16) (c : Crew), s.crew id.toNat = some c → c.state = .running → c.waiting = false →
    s.orphan (idHalf id.toNat) = false →
    exec (.sliceExpiry id) s =
      .next (((((s.modCrew id.toNat fun c => { c with expired := true }).decision (idHalf id.toNat)).modCrew id.toNat
        fun c => { c with expired := false })).settlePorts)) ∧
  (∀ (s : State) (id : BitVec 16) (c : Crew), s.crew id.toNat = some c → c.state ≠ .running →
    exec (.sliceExpiry id) s = .next s ∧ exec (.crewIdle id) s = .next s) ∧
  (∀ (s : State) (id : BitVec 16) (c : Crew), s.crew id.toNat = some c → c.state = .running →
    swapMode (s.mode (idHalf id.toNat)) = true → c.parkOnIdle = true → c.wakePending = false → c.waiting = false →
    (s.crossing (idHalf id.toNat) xkIdle (crewWing c % 8)).isOpen = false →
    (s.crossing (idHalf id.toNat) xkIdle (crewWing c % 8)).notReady = false →
    exec (.crewIdle id) s = .next ((s.startDrain id.toNat .parked).settlePorts)) ∧
  (∀ (s : State) (id : BitVec 16) (c : Crew), s.crew id.toNat = some c → c.state = .running →
    swapMode (s.mode (idHalf id.toNat)) = true → c.wakePending = true → c.waiting = true →
    (s.crossing (idHalf id.toNat) xkIdle (crewWing c % 8)).isOpen = false →
    (s.crossing (idHalf id.toNat) xkIdle (crewWing c % 8)).notReady = false →
    ∃ t, exec (.crewIdle id) s = .next t ∧ t.crew id.toNat = some { c with wakePending := false } ∧ Unchanged [.crews] s t) ∧
  (∀ (s : State) (id : BitVec 16) (c : Crew), s.crew id.toNat = some c → c.state = .running →
    (s.crossing (idHalf id.toNat) xkIdle (crewWing c % 8)).isOpen = true →
    exec (.crewIdle id) s = .next (s.pulseFor (idHalf id.toNat) xkIdle (crewWing c % 8) id.toNat)) ∧
  (∀ (s : State) (id : BitVec 16) (c : Crew), s.crew id.toNat = some c → c.state = .ready → s.eff id.toNat c < 7 →
    s.rd (pgStw (idHalf id.toNat)) STW_SCHED_AGE ≠ 0 →
    ∃ u : State, exec (.ageingPeriod id) s = .next (u.decision (idHalf id.toNat)) ∧
      u.crew id.toNat = some { c with aged := c.aged + 1, stamp := s.stamps + 1 } ∧ u.stamps = s.stamps + 1 ∧
      Unchanged [.crews, .stamps] s u) ∧
  (∀ (s : State) (id : BitVec 16) (c : Crew), s.crew id.toNat = some c → c.state = .ready → 7 ≤ s.eff id.toNat c →
    s.rd (pgStw (idHalf id.toNat)) STW_SCHED_AGE ≠ 0 →
    ∃ t, exec (.ageingPeriod id) s = .next t ∧ t.crew id.toNat = some { c with aged := c.aged + 1 } ∧
      Unchanged [.crews] s t) ∧
  (∀ (s : State) (id : BitVec 16) (c : Crew) (bs : List Byte), s.crew id.toNat = some c → c.held = some bs →
    exec (.faultNoticeRelease id) s = .next ((s.modCrew id.toNat fun c => { c with held := none }).pushNotice id.toNat
      c.faultHatch c.world bs)) ∧
  (∀ (s : State) (h : Half) (id : BitVec 16), idHalf id.toNat = other h → s.cut (other h) = false → s.hatches = [] →
    ∃ t, exec (.heatCopyUpdate h id) s = .next t ∧ t.heatSeen h id.toNat = s.heat id.toNat ∧
      Unchanged [.heatCopy] s t) ∧
  (∀ (s : State) (id : BitVec 16) (r : IdRec), Tbl.find s.ids id.toNat = some r →
    ∃ t, exec (.idCoolingExpiry id) s = .next t ∧ Tbl.find t.ids id.toNat = some { r with cooling := false } ∧
      Unchanged [.ids] s t)

/-- The loader (R246, R250 to R274): headers, segments, the records, the deadline and the cleanup of a failed load. -/
def Obligations.LoaderAct : Prop :=
  (∀ (s : State) (bs : List Byte) (h : ImgHdr), s.loading = true → s.phase = phHeader → bs.length = hdrBytes →
    s.storedPeek 0 hdrBytes = some bs → s.sourceLost 0 hdrBytes = false →
    hdrCheck bs (if s.fromAttic then some (slotBytes - s.loader.base) else none) = .ok h → s.hdrMatches h = true →
    hdrLate h = none → s.hdrKey h = none → 0 < h.plainLen →
    ∃ t, exec (.imageHeader bs) s = .next t ∧ t.loader.hdr = some h ∧ t.loader.pos = hdrBytes ∧ t.phase = phRecords ∧
      t.rd pgCfg CFG_STAT_ORDER = h.order % 256 ∧ t.rd pgCfg CFG_FRAMES_WRITES = 0 ∧ Unchanged [.regs, .loader] s t) ∧
  (∀ (s : State) (bs : List Byte) (code : Nat), s.loading = true → s.phase = phHeader → bs.length = hdrBytes →
    s.storedPeek 0 hdrBytes = some bs → s.sourceLost 0 hdrBytes = false →
    hdrCheck bs (if s.fromAttic then some (slotBytes - s.loader.base) else none) = .error code →
    exec (.imageHeader bs) s = .next (s.loadFail code 0 0 noPos)) ∧
  (∀ (s : State) (c tag : List Byte) (h : ImgHdr) (k : BitVec 256), s.loader.hdr = some h → s.loading = true →
    s.phase = phRecords → h.encrypted = true → s.loader.seg < h.segments → tag.length = 16 →
    c.length = min segBytes (h.plainLen - s.loader.seg * segBytes) →
    s.storedPeek (hdrBytes + s.loader.seg * segStored) (c.length + 16) = some (c ++ tag) →
    s.sourceLost (hdrBytes + s.loader.seg * segStored) (c.length + 16) = false →
    s.keyUsable h.keySlot = some k →
    ∃ t, exec (.gcmSegment c tag) s = .next t ∧
      (∀ p, gcmOpen k (State.segIv h s.loader.seg) h.bytes c tag = some p →
        t.loader.seg = s.loader.seg + 1 ∧ t.loader.plain = s.loader.plain ++ p.take c.length ∧
          Unchanged [.regs, .loader] s t) ∧
      (gcmOpen k (State.segIv h s.loader.seg) h.bytes c tag = none →
        t = s.loadFail lfBadCheck s.recordInHand 2 (hdrBytes + s.loader.seg * segStored))) ∧
  (∀ (s : State) (r : Rec) (h : ImgHdr) (hd data rest : List Byte), s.RecordNext rtFrame r h hd →
    unitOf h.compressed 512 (r.body.drop 8) = some (data, rest) → padOk rest = true → 8 ≤ r.body.length →
    leAt r.body 4 4 = 0 → s.rd pgCfg CFG_FRAMES_WRITES + 1 ≤ h.frameCount → h.frameCount ≤ maxFrames →
    s.frameGood (leAt r.body 0 4) = true →
    ∃ u : State, exec (.frameRecord r) s = .next ((u.recordTaken r hd).endless) ∧
      u.fabric = Tbl.splice s.fabric (frameKey (leAt r.body 0 4)) 512 (Tbl.norm (Tbl.putBytes [] 0 data)) ∧
      u.rd pgCfg CFG_FRAMES_WRITES = s.rd pgCfg CFG_FRAMES_WRITES + 1 ∧
      addrRoom (leAt r.body 0 4) ∈ u.loader.written ∧ Unchanged [.regs, .fabric, .refs, .loader] s u) ∧
  (∀ (s : State) (r : Rec) (h : ImgHdr) (hd data rest : List Byte), s.RecordNext rtFrame r h hd →
    unitOf h.compressed 512 (r.body.drop 8) = some (data, rest) → padOk rest = true → 8 ≤ r.body.length →
    leAt r.body 4 4 = 0 → h.frameCount < s.rd pgCfg CFG_FRAMES_WRITES + 1 →
    exec (.frameRecord r) s = .next (s.recordFailed rtFrame s.loader.pos (.at_ lfCountMismatch))) ∧
  (∀ (s u : State) (r : Rec) (h : ImgHdr) (hd data rest : List Byte), s.RecordNext rtRepeat r h hd →
    unitOf h.compressed 512 (r.body.drop (8 + (4 * leAt r.body 0 4 + 7) / 8 * 8)) = some (data, rest) → padOk rest = true →
    0 < leAt r.body 0 4 → leAt r.body 0 4 ≤ 65535 → leAt r.body 4 4 = 0 →
    8 + (4 * leAt r.body 0 4 + 7) / 8 * 8 ≤ r.body.length →
    leAt r.body (8 + 4 * leAt r.body 0 4) ((4 * leAt r.body 0 4 + 7) / 8 * 8 - 4 * leAt r.body 0 4) = 0 →
    s.rd pgCfg CFG_FRAMES_WRITES + leAt r.body 0 4 ≤ h.frameCount →
    (s.wr pgCfg CFG_FRAMES_WRITES (s.rd pgCfg CFG_FRAMES_WRITES + leAt r.body 0 4)).writeFrames (Tbl.putBytes [] 0 data)
      ((List.range (leAt r.body 0 4)).map fun i => leAt r.body (8 + 4 * i) 4) = (none, u) →
    exec (.repeatRecord r) s = .next ((u.recordTaken r hd).endless)) ∧
  (∀ (s : State) (r : Rec) (h : ImgHdr) (hd : List Byte) (a b : Nat), s.RecordNext rtZero r h hd → r.body.length = 8 →
    leAt r.body 0 4 = a → leAt r.body 4 4 = b → frameOk a = true → frameOk b = true → a / 2 ^ 29 = b / 2 ^ 29 →
    addrRoom a = addrRoom b → addrFrame a ≤ addrFrame b → addrKind a = 1 →
    s.rd pgCfg CFG_FRAMES_WRITES + (addrFrame b + 1 - addrFrame a) ≤ h.frameCount → h.frameCount ≤ maxFrames →
    ∃ u : State, exec (.zeroRecord r) s = .next ((u.recordTaken r hd).endless) ∧
      u.rd pgCfg CFG_FRAMES_WRITES = s.rd pgCfg CFG_FRAMES_WRITES + (addrFrame b + 1 - addrFrame a) ∧
      Unchanged [.regs, .fabric, .refs] s u) ∧
  (∀ (s : State) (r : Rec) (h : ImgHdr) (hd : List Byte), s.RecordNext rtZero r h hd → r.body.length = 8 →
    addrFrame (leAt r.body 4 4) < addrFrame (leAt r.body 0 4) →
    exec (.zeroRecord r) s = .next (s.recordFailed rtZero s.loader.pos (.at_ lfBadAddress))) ∧
  (∀ (s : State) (r : Rec) (h : ImgHdr) (hd map rest : List Byte) (c : Crew), s.RecordNext rtEssential r h hd →
    unitOf h.compressed mapBytes (r.body.drop 8) = some (map, rest) → padOk rest = true → leAt r.body 3 5 = 0 →
    (s.loader.crews.any fun e => e.id == leAt r.body 0 2 && (e.data || e.adopt)) = true →
    s.crew (leAt r.body 0 2) = some c → leAt r.body 2 1 < c.w * c.h →
    ∃ u : State, exec (.essentialRecord r) s = .next ((u.recordTaken r hd).endless) ∧
      u.mem = (s.putWhole (c.emap * granBytes + leAt r.body 2 1 * mapBytes) mapBytes (Tbl.putBytes [] 0 map)).mem ∧
      Unchanged [.mem, .bad, .loader] s u) ∧
  (∀ (s u : State) (r : Rec) (h : ImgHdr) (hd : List Byte) (b : Option LoadBad), s.RecordNext rtCrew r h hd →
    State.crewAct r.body s h = (b, u) →
    exec (.crewRecord r) s =
      .next (match b with
        | none => (u.recordTaken r hd).endless
        | some b => u.recordFailed rtCrew s.loader.pos b)) ∧
  (∀ (s : State) (r : Rec) (h : ImgHdr) (hd : List Byte), s.RecordNext rtHall r h hd → 8 ≤ r.body.length →
    (∀ i, i < r.body.length / 8 → hallOk (leAt r.body (8 * i) 4) = true) →
    ∃ u : State, exec (.hallRecord r) s = .next ((u.recordTaken r hd).endless) ∧
      u.loader.hall.length = s.loader.hall.length + r.body.length / 8 ∧ Unchanged [.loader] s u) ∧
  (∀ (s : State) (r : Rec) (h : ImgHdr) (hd : List Byte), s.RecordNext rtHall r h hd → 8 ≤ r.body.length →
    hallOk (leAt r.body 0 4) = false →
    exec (.hallRecord r) s = .next (s.recordFailed rtHall s.loader.pos (.at_ lfBadHall))) ∧
  (∀ (s : State) (r : Rec) (h : ImgHdr) (hd : List Byte), s.RecordNext rtEnd r h hd → s.endCheck h r.body = none →
    s.loader.crews = [] → s.loader.hall = [] →
    ∃ u : State, exec (.endRecord r) s = .next ((u.begin mStartup).recordTaken r hd) ∧ u.loader.done = true ∧
      u.phase = phFinish ∧ (u.rd pgCfg PG_IRQ_RAW).testBit 1 = true ∧ Unchanged [.regs, .out, .host, .cox, .loader] s u) ∧
  (∀ (s : State) (r : Rec) (h : ImgHdr) (hd : List Byte) (b : LoadBad), s.RecordNext rtEnd r h hd →
    s.endCheck h r.body = some b → exec (.endRecord r) s = .next (s.recordFailed rtEnd s.loader.pos b)) ∧
  (∀ s : State, s.devMode = mLoadHost → s.on pgHlk HLK_LINK_DL_UP = true → s.loading = true →
    ∃ u : State, exec .loadDeadlineExpiry s = .next ((u.raise pgCfg 2).haltBoth ecLoadFailed) ∧
      u.rd pgCfg CFG_ERR_CODE = lfTruncated ∧ u.rd pgCfg CFG_ERR_RECORD = s.recordInHand % 256 ∧ u.phase = phFailed ∧
      u.rd pgCfg CFG_ERR_POS_POS = 2 ^ 32 - 1 ∧ Unchanged [.regs, .loader] s u) ∧
  (∀ s : State, s.devMode = mLoadHost → s.on pgHlk HLK_LINK_DL_UP = false → exec .loadDeadlineExpiry s = .next s) ∧
  (∀ s : State, s.loader.cleaning = some .otherSlot →
    ∃ t, exec .loadCleanupDone s = .next t ∧ t.loader.second = true ∧ t.loader.hdr = none ∧ t.phase = phHeader ∧
      t.rd pgCfg CFG_FRAMES_WRITES = 0 ∧ t.crews = [] ∧ t.fabric = [] ∧ t.wings = []) ∧
  (∀ s : State, s.loader.cleaning = some .host →
    ∃ u : State, exec .loadCleanupDone s = .next (u.begin mLoadHost) ∧ u.loader = Loader.fresh s.loader.boot ∧
      u.rd pgCfg CFG_FRAMES_WRITES = 0 ∧ u.crews = [] ∧ u.fabric = [] ∧ u.wings = []) ∧
  (∀ (s : State) (bs : List Byte), s.loading = true → s.phase = phHeader → s.sourceLost 0 hdrBytes = true →
    exec (.imageHeader bs) s = .next (s.loadFail lfAtticErr 0 0 noPos))

/-- The chain at a receiver, chunks of LOAD-HOST, the Attic and the start-up order (R121, R245 to R249, R275 to R285). -/
def Obligations.LoadCommandsAct : Prop :=
  (∀ (s u : State) (p : ChainPkt) (k : Packet) (bs : List Byte), s.on pgCfg CFG_CHAIN_FORWARDING = true →
    (s.hatch chainHatch).packets.head? = some k → s.chainWords k = ((bs, false), u) → pktOf bs = p → s.chain.got = none →
    exec (.chainPacket p) s = .next ((u.modHatch chainHatch Hatch.pop).chainTake p)) ∧
  (∀ (s u : State) (p : ChainPkt) (k : Packet) (bs : List Byte) (g : Nat), s.on pgCfg CFG_CHAIN_FORWARDING = true →
    (s.hatch chainHatch).packets.head? = some k → s.chainWords k = ((bs, false), u) → pktOf bs = p → u.chain.got = some g →
    p.pkt.toNat ≤ g →
    exec (.chainPacket p) s = .next ((u.modHatch chainHatch Hatch.pop).bump pgCfg CFG_CHAIN_DUPS)) ∧
  (∀ (s u : State) (p : ChainPkt) (k : Packet) (bs : List Byte) (lost : Bool), s.on pgCfg CFG_CHAIN_FORWARDING = true →
    (s.hatch chainHatch).packets.head? = some k → s.chainWords k = ((bs, lost), u) → (lost = false → pktOf bs = p) →
    s.chain.got = none → s.devMode ≠ mLoadLocal →
    exec (.chainPacket p) s = .next ((u.modHatch chainHatch Hatch.pop).chainTake (pktOf bs))) ∧
  (∀ (s : State) (t : Nat) (p : ChainPkt), s.chain.sending = some (t, p) → s.chain.again = true →
    exec .chainResend s = .next ((s.modChain fun c => { c with sending := none, again := false }).chainSend p)) ∧
  (∀ s : State, s.chain.ended = false → s.loader.deferred = false →
    ∃ t, exec .chainStallExpiry s = .next t ∧ t.chain.ended = true ∧ t.chain.sending = none ∧ t.chain.out = [] ∧
      Unchanged [.chain] s t) ∧
  (∀ (s : State) (m : Master), s.Takes m pgCfg 0x5C → s.rd pgCfg CFG_DMA_CTRL_STATUS ≠ 1 → s.devMode = mLoadHost →
    s.rd pgCfg CFG_DMA_LEN_LEN ≠ 0 → s.rd pgCfg CFG_DMA_LEN_LEN % 8 = 0 → 0 ∈ s.host.bme → s.loader.done = false →
    ∃ t, exec (.dmaChunk m) s = .next t ∧ t.rd pgCfg CFG_DMA_CTRL_STATUS = 1 ∧ t.rd pgCfg CFG_DMA_CTRL_REASON = 0 ∧
      t.rd pgCfg CFG_DMA_CTRL_SEQ = (s.rd pgCfg CFG_DMA_CTRL_SEQ + 1) % 16 ∧ t.chunk = s.rd pgCfg CFG_DMA_LEN_LEN ∧
      t.out = .hostRead (s.rd pgCfg CFG_DMA_HI_ADDR * 2 ^ 32 + s.rd pgCfg CFG_DMA_LO_ADDR * 8)
        (s.rd pgCfg CFG_DMA_LEN_LEN) :: s.out ∧ Unchanged [.regs, .out, .chunk, .loader] s t) ∧
  (∀ (s : State) (m : Master), s.Takes m pgCfg 0x5C → s.rd pgCfg CFG_DMA_CTRL_STATUS ≠ 1 → s.devMode ≠ mLoadHost →
    ∃ t, exec (.dmaChunk m) s = .next t ∧ t.rd pgCfg CFG_DMA_CTRL_STATUS = 3 ∧ t.rd pgCfg CFG_DMA_CTRL_REASON = 1 ∧
      Unchanged [.regs] s t) ∧
  (∀ (s : State) (bs : List Byte), s.rd pgCfg CFG_DMA_CTRL_STATUS = 1 → bs.length = s.chunk → s.loading = true →
    ∃ t, exec (.dmaChunkDone true bs) s = .next t ∧ t.loader.stream = s.loader.stream ++ bs ∧
      t.rd pgCfg CFG_DMA_CTRL_STATUS = 2 ∧ (t.rd pgCfg PG_IRQ_RAW).testBit 0 = true ∧
      Unchanged [.regs, .out, .host, .cox, .loader] s t) ∧
  (∀ (s : State) (m : Master) (ms : BitVec 16), s.Admits m pgCfg 0x4C → s.loader.fixed = false →
    ∃ t, exec (.cfgDeadlineWrite m ms) s = .next t ∧ t.rd pgCfg CFG_DEADLINE_MS = ms.toNat ∧ Unchanged [.regs] s t) ∧
  (∀ (s : State) (m : Master) (ms : BitVec 16), s.Admits m pgCfg 0x4C → s.loader.fixed = true →
    exec (.cfgDeadlineWrite m ms) s = .next s) ∧
  (∀ (s : State) (m : Master) (v : Word), s.Admits m pgAtt 0x40 →
    ∃ t, exec (.attBootWrite m v) s = .next t ∧ t.attic.boot = t.reg (pgAtt * 0x1000 + 0x40) ∧
      t.attic.bootOld = some s.attic.boot ∧ t.loader = s.loader ∧
      Unchanged [.regs, .out, .host, .attic, .cox] s t) ∧
  (∀ (s : State) (m : Master), s.Takes m pgAtt 0x5C → s.on pgAtt ATT_PROG_CTRL_BUSY = false → inService s.devMode = true →
    s.rd pgAtt ATT_PROG_LEN_LEN ≠ 0 → s.rd pgAtt ATT_PROG_DST_OFFSET + s.rd pgAtt ATT_PROG_LEN_LEN ≤ 0xF800 →
    s.progSource (ownerOf m) (s.rd pgAtt ATT_PROG_SRC_DPA * 0x1000) (s.rd pgAtt ATT_PROG_LEN_LEN * 0x1000) = true →
    ∃ t, exec (.atticProg m) s = .next t ∧ t.on pgAtt ATT_PROG_CTRL_BUSY = true ∧ t.rd pgAtt ATT_PROG_CTRL_DONE = 0 ∧
      t.prog = some ⟨s.rd pgAtt ATT_PROG_SRC_DPA, s.rd pgAtt ATT_PROG_DST_OFFSET, s.rd pgAtt ATT_PROG_LEN_LEN, ownerOf m⟩ ∧
      Unchanged [.regs, .prog] s t) ∧
  (∀ (s : State) (m : Master), s.Takes m pgAtt 0x5C → s.on pgAtt ATT_PROG_CTRL_BUSY = false → inService s.devMode = true →
    0xF800 < s.rd pgAtt ATT_PROG_DST_OFFSET + s.rd pgAtt ATT_PROG_LEN_LEN →
    ∃ t, exec (.atticProg m) s = .next t ∧ t.rd pgAtt ATT_PROG_CTRL_CODE = 1 ∧ t.prog = s.prog ∧ Unchanged [.regs] s t) ∧
  (∀ (s u : State) (g : Prog) (n : BitVec 16), s.prog = some g → s.progCopy g g.len = (g.len, false, u) →
    ∃ t, exec (.atticProgDone n true) s = .next t ∧ t.prog = none ∧ t.attic = u.attic ∧
      t.rd pgAtt ATT_PROG_CTRL_CODE = 0 ∧ t.on pgAtt ATT_PROG_CTRL_BUSY = false ∧
      (t.rd pgAtt PG_IRQ_RAW).testBit 0 = true) ∧
  (∀ (s : State) (m : Master), s.Takes m pgAtt 0x60 → s.rd pgAtt ATT_REC_CLEAR_STATUS ≠ 1 → s.lifeCycle = lcRma →
    s.masterWorld m = true → inService s.devMode = true →
    ∃ t u v, exec (.recClearRooms m) s = .next t ∧ t.recClear = some 1 ∧ t.rd pgAtt ATT_REC_CLEAR_STATUS = 1 ∧
      exec (.recClearFrames m) s = .next u ∧ u.recClear = some 2 ∧ u.rd pgAtt ATT_REC_CLEAR_STATUS = 1 ∧
      exec (.recClearBoth m) s = .next v ∧ v.recClear = some 3 ∧ v.rd pgAtt ATT_REC_CLEAR_STATUS = 1 ∧
      Unchanged [.regs, .recClear] s t ∧ Unchanged [.regs, .recClear] s u ∧ Unchanged [.regs, .recClear] s v) ∧
  (∀ (s : State) (m : Master), s.Takes m pgAtt 0x60 → s.rd pgAtt ATT_REC_CLEAR_STATUS ≠ 1 → s.lifeCycle ≠ lcRma →
    ∃ t, exec (.recClearBoth m) s = .next t ∧ t.recClear = s.recClear ∧ t.rd pgAtt ATT_REC_CLEAR_STATUS = 3 ∧
      t.rd pgAtt ATT_REC_CLEAR_REASON = 2 ∧ (t.rd pgAtt PG_IRQ_RAW).testBit 1 = true) ∧
  (∀ (s : State) (w : Nat), s.recClear = some w →
    ∃ t u, exec (.recClearDone true) s = .next t ∧ t.recClear = none ∧ t.rd pgAtt ATT_REC_CLEAR_STATUS = 2 ∧
      t.attic.rooms = (if w.testBit 0 then [] else s.attic.rooms) ∧
      t.attic.frames = (if w.testBit 1 then [] else s.attic.frames) ∧
      exec (.recClearDone false) s = .next u ∧ u.recClear = none ∧ u.rd pgAtt ATT_REC_CLEAR_STATUS = 3 ∧
      u.attic = s.attic) ∧
  (∀ s : State, s.stepDue 0 = true → s.loader.hall = [] →
    ∃ t, exec .lockStep s = .next t ∧ t.loader.stage = s.loader.stage + 1 ∧
      (t.rd pgCfg CFG_STAT_STEPS).testBit 0 = true ∧ Unchanged [.regs, .loader] s t) ∧
  (∀ s : State, s.stepDue 0 = true →
    ∃ u : State, exec .lockTimeout s = .next (u.haltBoth ecStartup) ∧ u.rd pgCfg CFG_ERR_CODE = lfLockTimeout ∧
      u.phase = phFailed ∧ Unchanged [.regs] s u) ∧
  (∀ s : State, s.stepDue 1 = true → s.pins.tap = .other →
    ∃ t, exec .ioStep s = .next t ∧ t.pins.ioDone = true ∧ t.loader.stage = s.loader.stage + 1 ∧
      (t.rd pgCfg CFG_STAT_STEPS).testBit 1 = true ∧ Unchanged [.regs, .pins, .loader] s t) ∧
  (∀ s : State, s.stepDue 2 = true →
    ∃ t, exec .gsrStep s = .next t ∧ t.seq.gsr = true ∧ t.loader.stage = s.loader.stage + 1 ∧
      (t.rd pgCfg CFG_STAT_STEPS).testBit 2 = true) ∧
  (∀ s : State, s.stepDue 3 = true →
    ∃ t, exec .weStep s = .next t ∧ t.seq.we = true ∧ t.loader.stage = s.loader.stage + 1 ∧
      (t.rd pgCfg CFG_STAT_STEPS).testBit 3 = true ∧
      ((∀ e ∈ s.blocks, e.2.waiting = none) → Unchanged [.regs, .seq, .loader] s t)) ∧
  (∀ s : State, s.devMode = mStartup → s.seq.txn = none → s.phase = phStartup → s.loader.stage = 4 →
    ∃ u : State, exec .runModeEntry s =
        .next (if s.on pgG2c G2C_CTRL_EN && s.g2Blocked == 0 then u.g2Reserve.begin mRunG2 else u.begin mRunNative) ∧
      u.rd pgG2c G2C_STAT_BLOCKED = s.g2Blocked ∧ Unchanged [.regs] s u) ∧
  (∀ (s : State) (r : Nat), r < 48 → (s.g2Reserve.room r).state = .g2)

/-- The host link (R10, R22, R341, R405, R440 to R447): accesses that the gate ends, BAR4, configuration requests, resets
and the Data Link Layer. -/
def Obligations.HostLinkAct : Prop :=
  (∀ (s : State) (off : Nat) (w : Option (BitVec 16)), inService (s.mode .east) = true → s.seq.standby = .none →
    ∃ t, exec (.bar0NarrowAccess (.fn 0) off w) s = .next t ∧ t.out = .completion (.fn 0) .unsupported :: s.out ∧
      Unchanged [.out] s t) ∧
  (∀ (s : State) (m : Master) (off : Nat) (w : Option Word), s.Served m (off / 0x1000) (off % 0x1000) w.isSome →
    s.unreachable m (off / 0x1000) = true →
    ∃ t, exec (.unreachableHalfAccess m off w) s = .next t ∧
      (∀ n, m = .fn n → t.rd (pgSys .east) SYS_ROLE_LOST_ACCESS =
        min SYS_ROLE_LOST_ACCESS.max (s.rd (pgSys .east) SYS_ROLE_LOST_ACCESS + 1)) ∧
      ((∀ n, m ≠ .fn n) → t.regs = s.regs) ∧
      t.out = (if w.isSome then s.out else .completion m (.word 0xFFFFFFFF) :: s.out) ∧ Unchanged [.regs, .out] s t) ∧
  (∀ (s : State) (m : Master) (off : Nat) (w : Option Word), s.Served m (off / 0x1000) (off % 0x1000) w.isSome →
    s.unreachable m (off / 0x1000) = false → numPages ≤ off / 0x1000 →
    ∃ t, exec (.bar0OutOfRangeAccess m off w) s = .next t ∧
      t.out = (if w.isSome then s.out else .completion m .unsupported :: s.out) ∧ Unchanged [.out] s t) ∧
  (∀ (s : State) (m : Master) (off : Nat) (w : Option Word), s.Served m (off / 0x1000) (off % 0x1000) w.isSome →
    s.unreachable m (off / 0x1000) = false → off / 0x1000 < numPages →
    (s.pageSecure (off / 0x1000) = true → s.masterWorld m = true) → s.pageShut (off / 0x1000) = false →
    regAt (off / 0x1000) (off % 0x1000) = none → s.rd (off / 0x1000) PG_ERR_VALID = 0 →
    ∃ t, exec (.undefinedOffsetAccess m off w) s = .next t ∧ t.rd (off / 0x1000) PG_ERR_VALID = 1 ∧
      t.rd (off / 0x1000) PG_ERR_CODE = 2 ∧ t.rd (off / 0x1000) PG_ERR_ADDR = bit w.isSome * 2 ^ 31 + off ∧
      t.out = (if w.isSome then s.out else .completion m (.word 0) :: s.out) ∧ Unchanged [.regs, .out] s t) ∧
  (∀ (s : State) (m : Master) (off : Nat) (w : Option Word), s.Served m (off / 0x1000) (off % 0x1000) w.isSome →
    s.unreachable m (off / 0x1000) = false → off / 0x1000 < numPages →
    (s.pageSecure (off / 0x1000) = true → s.masterWorld m = true) → s.pageShut (off / 0x1000) = true →
    ∃ t, exec (.closedPageAccess m off w) s = .next t ∧
      t.rd (pgClk (s.serves (off / 0x1000))) CLK_GHOST_COUNT =
        min CLK_GHOST_COUNT.max (s.rd (pgClk (s.serves (off / 0x1000))) CLK_GHOST_COUNT + 1) ∧
      t.rd (pgClk (s.serves (off / 0x1000))) CLK_GHOST_PAGE = off / 0x1000 ∧
      t.out = (if w.isSome then s.out else .completion m (.word 0) :: s.out) ∧ Unchanged [.regs, .out] s t) ∧
  (∀ (s : State) (m : Master) (off : Nat) (w : Option Word), s.Served m (off / 0x1000) (off % 0x1000) w.isSome →
    s.unreachable m (off / 0x1000) = false → off / 0x1000 < numPages → s.pageSecure (off / 0x1000) = true →
    s.masterWorld m = false → s.pageShut (off / 0x1000) = false →
    ∃ u : State, exec (.pageWorldViolation m off w) s =
        .next (if w.isSome then u.freezeMaster m vPage else (u.freezeMaster m vPage).emit (.completion m .unsupported)) ∧
      u.rd (off / 0x1000) PG_ERR_VALID = 1 ∧
      (s.rd (off / 0x1000) PG_ERR_VALID = 0 → u.rd (off / 0x1000) PG_ERR_CODE = 1) ∧ Unchanged [.regs] s u) ∧
  (∀ (s : State) (m : Master) (off : Nat) (w : Option Word), s.masterWorld m = true → s.seq.standby = .none →
    exec (.pageWorldViolation m off w) s = .next s) ∧
  (∀ (s u : State) (fn : BitVec 8) (off : BitVec 40) (n : BitVec 13) (bs : List Byte), s.seq.standby = .none →
    inService (s.mode .east) = true → fn.toNat ≤ s.host.vfs → fn.toNat ∉ s.security.fns → n ≠ 0 →
    s.spanReached fn.toNat (s.bar4Addr fn.toNat off.toNat) n.toNat false = true →
    s.bar4Cut (s.bar4Addr fn.toNat off.toNat) = false →
    s.readBytes ueHost (s.bar4Addr fn.toNat off.toNat) n.toNat = (some bs, u) →
    ∃ t, exec (.bar4Read fn off n) s = .next t ∧ t.out = .completion (.fn fn) (.data bs) :: u.out ∧ t.mem = u.mem) ∧
  (∀ (s : State) (fn : BitVec 8) (off : BitVec 40) (n : BitVec 13), inService (s.mode .east) = true →
    s.seq.standby = .none → fn.toNat ∈ s.security.fns →
    ∃ t, exec (.bar4Read fn off n) s = .next t ∧ t.out = .completion (.fn fn) .unsupported :: s.out ∧
      Unchanged [.out] s t) ∧
  (∀ (s : State) (fn : BitVec 8) (off : BitVec 40) (bs : List Byte) (a : Nat), s.seq.standby = .none →
    inService (s.mode .east) = true → fn.toNat ≤ s.host.vfs → fn.toNat ∉ s.security.fns → bs ≠ [] →
    s.bar4Addr fn.toNat off.toNat = a → s.spanReached fn.toNat a bs.length true = true → s.bar4Cut a = false →
    (∀ k, a / 32 ≤ k → k * 32 < a + bs.length → (s.sectorErr k).length ≤ 2) →
    ∃ t, exec (.bar4Write fn off bs) s = .next t ∧
      (∀ b, Tbl.get t.mem 0 b = if a ≤ b ∧ b < a + bs.length then byteAt bs (b - a) else Tbl.get s.mem 0 b) ∧
      Unchanged [.regs, .out, .host, .mem, .bad, .stackCtl, .frames, .attic, .cox, .gallery] s t) ∧
  (∀ (s : State) (fn : BitVec 8) (off : BitVec 40) (bs : List Byte), inService (s.mode .east) = true →
    s.seq.standby = .none → fn.toNat ∈ s.security.fns → exec (.bar4Write fn off bs) s = .next s) ∧
  (∀ (s : State) (fn : BitVec 8) (r : CfgReq), s.mode .east = mBoot →
    ∃ t, exec (.configRequest fn r) s = .next t ∧ t.out = .completion (.fn fn) .retry :: s.out ∧ Unchanged [.out] s t) ∧
  (∀ (s : State) (fn : BitVec 8) (on : Bool), inService (s.mode .east) = true → s.seq.standby = .none →
    fn.toNat ≤ s.host.vfs → s.orphan .east = false →
    ∃ t, exec (.configRequest fn (.busMaster on)) s = .next t ∧
      t.host.bme = (if on then fn.toNat :: s.host.bme.erase fn.toNat else s.host.bme.erase fn.toNat) ∧
      t.out = .completion (.fn fn) .done :: s.out ∧ Unchanged [.out, .host] s t) ∧
  (∀ (s : State) (n : BitVec 8), inService (s.mode .east) = true → s.seq.standby = .none → s.orphan .east = false →
    n ≠ 0 →
    ∃ t, exec (.configRequest 0 (.vfEnable n)) s = .next t ∧ t.host.vfs = n.toNat ∧
      t.out = .completion (.fn 0) .done :: s.out ∧ Unchanged [.out, .host] s t) ∧
  (∀ (s : State) (fn : BitVec 8), inService (s.mode .east) = true → s.seq.standby = .none → s.host.vfs < fn.toNat →
    ∃ t, exec (.configRequest fn (.read 0)) s = .next t ∧ t.out = .completion (.fn fn) .unsupported :: s.out ∧
      Unchanged [.out] s t) ∧
  (∀ s : State, inService (s.mode .east) = true → s.seq.standby = .none →
    ∃ t, exec (.configRequest 0 (.read 0)) s = .next t ∧
      t.out = .completion (.fn 0) (.word (BitVec.ofNat 32 (0x6300 * 2 ^ 16 + Config.vendorId % 2 ^ 16))) :: s.out ∧
      Unchanged [.out, .draws] s t) ∧
  (∀ (s : State) (fn : BitVec 8) (v : BitVec 11) (on : Bool), inService (s.mode .east) = true → s.seq.standby = .none →
    fn.toNat ≤ s.host.vfs → s.orphan .east = false →
    exec (.configRequest fn (.vectorMask v on)) s =
      .next ((s.maskVector fn.toNat v.toNat on).emit (.completion (.fn fn) .done))) ∧
  (∀ (s : State) (fn v : Nat), s.host.pba = [] →
    (s.maskVector fn v true).host.open_ = s.host.open_.erase (fn, v) ∧
      (s.maskVector fn v false).host.open_ = (fn, v) :: s.host.open_.erase (fn, v)) ∧
  (∀ s : State, s.devMode ≠ mOff → s.devMode ≠ mCellar → s.host.reeq = none →
    ∃ t, exec .perstAssert s = .next t ∧ t.host = { bme := [], vfs := 0, msix := [], pba := [], open_ := [], reeq := none } ∧
      (∀ f : Fld, f.off < 0x1000 → t.reg (pgHlk * 0x1000 + f.off) = State.reset.reg (pgHlk * 0x1000 + f.off)) ∧
      Unchanged [.regs, .held, .host, .portOps, .hatches] s t) ∧
  (∀ (s : State) (fn : BitVec 8), inService (s.mode .east) = true → s.seq.standby = .none → fn ≠ 0 →
    fn.toNat ≤ s.host.vfs →
    ∃ t, exec (.functionLevelReset fn) s = .next t ∧ t.rd pgHlk HLK_FLR_LAST_VALID = 1 ∧
      t.rd pgHlk HLK_FLR_LAST_FUNC = fn.toNat ∧
      t.rd pgHlk HLK_FLR_LAST_SEQ = (s.rd pgHlk HLK_FLR_LAST_SEQ + 1) % 16 ∧
      (t.rd pgHlk PG_IRQ_RAW).testBit 1 = true ∧ t.host.vfs = s.host.vfs ∧
      Unchanged [.regs, .out, .host, .portOps, .cox, .hatches] s t) ∧
  (∀ (s : State) (speed : BitVec 4) (width : BitVec 5), s.devMode ≠ mOff → s.devMode ≠ mCellar →
    s.on pgHlk HLK_LINK_DL_UP = false →
    ∃ t, exec (.hostLinkDlUp speed width) s = .next t ∧ t.on pgHlk HLK_LINK_DL_UP = true ∧
      t.rd pgHlk HLK_LINK_SPEED = speed.toNat ∧ t.rd pgHlk HLK_LINK_WIDTH = width.toNat ∧
      (t.rd pgHlk PG_IRQ_RAW).testBit 0 = true ∧ Unchanged [.regs, .out, .host, .cox] s t) ∧
  (∀ s : State, s.devMode ≠ mOff → s.devMode ≠ mCellar → s.on pgHlk HLK_LINK_DL_UP = true →
    ∃ t, exec .hostLinkDlDown s = .next t ∧ t.on pgHlk HLK_LINK_DL_UP = false ∧ t.rd pgHlk HLK_LINK_SPEED = 0 ∧
      t.rd pgHlk HLK_LINK_WIDTH = 0 ∧ (t.rd pgHlk PG_IRQ_RAW).testBit 0 = true ∧
      Unchanged [.regs, .out, .host, .cox] s t)

/-- The block takes its commands first in, first out: a step with a command at the front of the queue
is that command on the state with the queue's rest. With nothing in the queue the block idles. The
queue and the idling are the model's choice (notes/assumptions/1). -/
def Obligations.StepRunsTheCommandInFront : Prop :=
  (∀ (s : State) (c : Instr) (l : List Instr), s.pending = c :: l → step s = exec c { s with pending := l }) ∧
  (∀ s : State, s.pending = [] → step s = .next s)

/-- Every command completes in every state: the model has no fault and no refusal (notes/assumptions/4), so a step always
answers a next state, which holds the queue's rest. -/
def Obligations.EveryCommandCompletes : Prop :=
  ∀ (s : State) (c : Instr), ∃ t, exec c s = .next t ∧ t.pending = s.pending

/-- The footprint of every command: it leaves every part of the state that `Instr.touches` does not list for it as it is,
every register, table, buffer, memory byte and pin in that part included. -/
def Obligations.EveryCommandKeepsToItsFootprint : Prop :=
  ∀ (s t : State) (c : Instr), exec c s = .next t → Unchanged c.touches s t

/-- What follows of the footprints for the memory stacks: a command whose footprint leaves memory
out changes no byte of it, one whose footprint leaves the fabric out changes no byte of a plane or of a state image, and
one whose footprint leaves the fuses out changes no burnt life-cycle state. -/
def Obligations.MemoryAndFabricOutsideTheFootprint : Prop :=
  ∀ (s t : State) (c : Instr), exec c s = .next t →
    (Part.mem ∉ c.touches → ∀ a, Tbl.get t.mem 0 a = Tbl.get s.mem 0 a) ∧
    (Part.fabric ∉ c.touches → ∀ p r off n, t.plane p r off n = s.plane p r off n ∧ t.live r off n = s.live r off n) ∧
    (Part.fuses ∉ c.touches → t.fuses.lifeCycle = s.fuses.lifeCycle)

/-- Every step keeps the canonical form of memory, planes, registers, crews and hatches. -/
def Obligations.EveryStepKeepsTheCanonicalForm : Prop :=
  ∀ s t : State, s.Canon → step s = .next t → t.Canon

/-- The state after reset has the canonical form. -/
def Obligations.ResetIsCanonical : Prop := State.reset.Canon

/-- The state after reset: no command waits, the device is in BOOT at its first step, every register shows its reset value, no crew, hatch or
packet exists, every ID is free at heat 0, and memory and fabric list nothing. Where the spec gives a register no reset
value, `regReset` is the model's choice (notes/assumptions/6). -/
def Obligations.ResetValues : Prop :=
  State.reset.pending = [] ∧ State.reset.devMode = mBoot ∧ State.reset.seq.boot = 1 ∧
  (∀ a, State.reset.reg a = regReset a) ∧ (∀ id, State.reset.crew id = none ∧ State.reset.heat id = 0) ∧
  (∀ n, (State.reset.hatch n).isOpen = false) ∧ State.reset.mem = [] ∧ State.reset.fabric = [] ∧
  State.reset.security.crews = [] ∧ State.reset.host.vfs = 0 ∧ State.reset.out = []

/-- What a write does to each field of a register and to its reserved bits, by the access codes of Table 0.4 and the count
fields (R11 to R13): `w` is the register's word before the write, `v` the word written, `l` says that the page is
locked. A WO field stores nothing, and no field of the map is both at one bit. -/
def Obligations.FieldsFollowTheirAccessCodes : Prop :=
  ∀ (p o : Nat) (r : RegRow), regAt p o = some r → ∀ (l : Bool) (v w : Word),
    (∀ f ∈ r.fields,
      (f.acc = .rw → f.get (r.write l v w) = f.get v) ∧
      (f.acc = .ro ∨ f.acc = .wo → f.get (r.write l v w) = f.get w) ∧
      (f.acc = .cnt → f.get (r.write l v w) = 0) ∧
      (f.acc = .rwl → f.get (r.write l v w) = if l then f.get w else f.get v) ∧
      (f.acc = .w1c → ∀ i, (f.get (r.write l v w)).testBit i = ((f.get w).testBit i && !(f.get v).testBit i)) ∧
      (f.acc = .w1s → ∀ i, (f.get (r.write l v w)).testBit i = ((f.get w).testBit i || (f.get v).testBit i))) ∧
    (∀ i, (∀ f ∈ r.fields, i < f.lo ∨ f.hi < i) → (r.write l v w).getLsbD i = w.getLsbD i)

/-- Crew windows (R458, and R460 for what a non-secure master sees): window `w` of a half holds at 0x040 + 4i word 0 of
the descriptor of the crew whose ID has the half in bit [15] and w × 512 + i in bits [14:0]; 0 for the IDs 0x0000 and
0x8000; the ID and heat, with STATE = EMPTY, where no crew holds the ID. -/
def Obligations.CrewWindowsShowTheCrews : Prop :=
  ∀ (s : State) (m : Master) (h : Half) (w i id p : Nat), w < 64 → i < 512 → id = 0x8000 * halfBit h + w * 512 + i →
    p = 96 + 64 * halfBit h + w →
    (id = 0 ∨ id = 0x8000 → s.view m p (0x40 + 4 * i) = 0) ∧
    (id ≠ 0 → id ≠ 0x8000 → s.crew id = none →
      s.view m p (0x40 + 4 * i) = BitVec.ofNat 32 (id * 0x10000 + s.heat id * 0x1000)) ∧
    (∀ c, id ≠ 0 → id ≠ 0x8000 → s.crew id = some c → s.sees m c.world = true →
      s.view m p (0x40 + 4 * i) = BitVec.ofNat 32
        (id * 0x10000 + c.heat * 0x1000 + c.state.code * 0x200 + bit c.wakePending * 0x100 + c.fault)) ∧
    (∀ c, id ≠ 0 → id ≠ 0x8000 → s.crew id = some c → s.sees m c.world = false → s.view m p (0x40 + 4 * i) = 0)

/-- Hatch windows (R459, and R460 for what a non-secure master sees): window `w` of a half holds at 0x040 + 16i the words
HEAD0, HEAD1, LEVEL and PTR of the hatch of index w × 128 + i, each 0 where the hatch is closed or belongs to the secure
world and the master does not. -/
def Obligations.HatchWindowsShowTheHatches : Prop :=
  ∀ (s : State) (m : Master) (h : Half) (w i k n p : Nat), w < 32 → i < 128 → k < 4 →
    n = 0x8000 * halfBit h + w * 128 + i → p = 224 + 32 * halfBit h + w →
    s.view m p (0x40 + 16 * i + 4 * k) =
      if (s.hatch n).isOpen && s.sees m (s.hatch n).world then BitVec.ofNat 32 ((s.hatchView n).getD k 0) else 0

/-- Cupboards (R63): 1,024 words of four 9-bit lanes, lane 0 in bits [8:0]; which word and
lanes an address of each shape reaches; and a word that is stored is read back, with no other word of the cupboard, no other cupboard and no other room
changed. -/
def Obligations.CupboardsStoreTheirWords : Prop :=
  (∀ a, a < 2048 → cupReach 1 a = (a >>> 1, 2 * (a &&& 1), 2)) ∧
  (∀ a, a < 4096 → cupReach 2 a = (a >>> 2, a &&& 3, 1)) ∧
  (∀ a, a < 1024 → cupReach 0 a = (a, 0, 4)) ∧
  (∀ old lane data l : Nat, lane < 4 → l < 4 → bits (cupMerge old lane 1 1 data) (9 * l + 8) (9 * l) =
    if l = lane then data % 512 else bits old (9 * l + 8) (9 * l)) ∧
  (∀ shape a, (cupReach shape a).1 < 1024 ∧ (cupReach shape a).2.1 + (cupReach shape a).2.2 ≤ 4) ∧
  (∀ (s : State) (r cup w v : Nat), r < 4096 → cup < 4 → w < 1024 →
    (s.setCupWord r cup w v).cupWord r cup w = v % 2 ^ 36 ∧
    (∀ r' cup' w', r' < 4096 → cup' < 4 → w' < 1024 → (r', cup', w') ≠ (r, cup, w) →
      (s.setCupWord r cup w v).cupWord r' cup' w' = s.cupWord r' cup' w') ∧
    Unchanged [.fabric] s (s.setCupWord r cup w v))

/-- Memory: where no codeword is bad, bytes that a requester writes are read back by any requester, and no other byte of
the stacks changes. -/
def Obligations.MemoryReadsBackWhatWasWritten : Prop :=
  ∀ (s : State) (from_ reader a : Nat) (bs : List Byte), s.bad = [] →
    ∃ t, s.writeBytes from_ a bs = (true, t) ∧ t.readBytes reader a bs.length = (some bs, t) ∧
      (∀ b, b < a ∨ a + bs.length ≤ b → Tbl.get t.mem 0 b = Tbl.get s.mem 0 b) ∧ Unchanged [.mem] s t

/-- RUN and PARK and the wake that waits (R135): RUN on a crew that is READY, BOARDING or RUNNING sets WAKE_PENDING; RUN
on a crew DRAINING with target PARKED sets the target to READY instead; PARK clears WAKE_PENDING. -/
def Obligations.RunAndParkKeepTheWake : Prop :=
  ∀ (s : State) (p : Port) (id : Nat) (c : Crew), s.StwNames p id c →
    (c.state = .ready ∨ c.state = .boarding ∨ c.state = .running →
      ∃ t d, exec (.run p) s = .next t ∧ t.crew id = some d ∧ d.wakePending = true) ∧
    (c.state = .draining → c.target = .parked →
      ∃ t, exec (.run p) s = .next t ∧ t.crew id = some { c with target := .ready }) ∧
    (parkOk c = true → ∃ t d, exec (.park p) s = .next t ∧ t.crew id = some d ∧ d.wakePending = false)

/-- Who may not command a crew (R130, R157): a command of an issuer that may not act on the crew ends NOT_OWNER, and one
that names the crew at another heat ends STALE_HEAT; either leaves the crews, their memory and their rooms as they are. -/
def Obligations.StrangersAndStaleHeatsAreRefused : Prop :=
  ∀ (s : State) (p : Port) (c : Crew), s.PortFree .stw p → idOk (s.stwId p) = true →
    portServes p (idHalf (s.stwId p)) = true → s.crew (s.stwId p) = some c →
    ∀ i ∈ [Instr.update p true, .update p false, .run p, .park p, .resume p, .restart p, .reconfig p, .destroy p, .hint p],
      (mayAct (portOwner p) c.owner = false →
        ∃ t, exec i s = .next t ∧ t.Answered .stw p scNotOwner ∧ Unchanged [.regs, .out, .host, .cox] s t) ∧
      (mayAct (portOwner p) c.owner = true → s.portRd .stw p STW_CMD_ARG_HEAT ≠ c.heat →
        ∃ t, exec i s = .next t ∧ t.Answered .stw p scStaleHeat ∧ Unchanged [.regs, .out, .host, .cox] s t)

/-- Heats (R127): a reset leaves every ID free at heat 0; a CREATE that gives a crew an ID advances that ID's heat by 1
modulo 16, so that the first crew of an ID has heat 1, and no other ID's; DESTROY of a crew that
waits (PARKED or READY) frees its ID and leaves every heat. -/
def Obligations.HeatsAdvanceAtCreateAlone : Prop :=
  (∀ s : State, s.devMode ≠ mOff → s.devMode ≠ mCellar →
    ∃ t, exec .rstNAssert s = .next t ∧ ∀ id, t.crew id = none ∧ t.heat id = 0) ∧
  (∀ (s t : State) (p : Port), exec (.create p) s = .next t →
    (∀ id, t.heat id = s.heat id) ∨
    ∃ id, t.heat id = (s.heat id + 1) % 16 ∧ ∀ k, k ≠ id → t.heat k = s.heat k) ∧
  (∀ (s : State) (p : Port) (id : Nat) (c : Crew), s.StwNames p id c → s.heat id = c.heat →
    c.state = .parked ∨ c.state = .ready →
    ∃ t, exec (.destroy p) s = .next t ∧ t.crew id = none ∧ ∀ k, t.heat k = s.heat k)

/-- Worlds (R405 to R407): a write of a non-secure master to any register of a secure page, whatever it commands, freezes
the master and has no other effect: no register of any page but the violation's record (page headers, the SEC page)
changes, and no memory, table, pin or queue. A write of a master that is frozen has no effect at all. -/
def Obligations.SecurePagesAreOutOfReach : Prop :=
  (∀ (s : State) (m : Master) (off : Nat) (v : Word), s.Served m (off / 0x1000) (off % 0x1000) true →
    s.unreachable m (off / 0x1000) = false → off / 0x1000 < numPages → s.pageSecure (off / 0x1000) = true →
    s.masterWorld m = false →
    ∃ t, exec (.registerWrite m (.bar0 off) v none) s = .next t ∧ t.frozenMaster m = true ∧
      (∀ q o, q ≠ pgSec → 0x40 ≤ o → o < 0x1000 → t.reg (q * 0x1000 + o) = s.reg (q * 0x1000 + o)) ∧
      Unchanged [.regs, .out, .security, .host, .cox] s t) ∧
  (∀ (s : State) (m : Master) (off : Nat) (v : Word), s.frozenMaster m = true →
    s.hostWake m (off / 0x1000) (off % 0x1000) true = s → exec (.registerWrite m (.bar0 off) v none) s = .next s)

/-- FREEZE of a page (R450): once it is set, every result word and count field of the page reads the value it held then,
whatever becomes of the live values; a register that FREEZE does not hold shows its live value. -/
def Obligations.FrozenPagesShowHeldValues : Prop :=
  ∀ (s t u : State) (m : Master) (p : BitVec 9) (o : Nat) (r : RegRow), s.Admits m p.toNat 0x08 →
    s.on p.toNat PG_CTRL_FREEZE = false → pageKind p.toNat ≠ .cwn → pageKind p.toNat ≠ .hwn →
    exec (.pageFreeze m p true) s = .next t → u.held = t.held → 0x40 ≤ o → o < 0x1000 → regAt p.toNat o = some r →
    Tbl.find s.held (p.toNat * 0x1000 + o) = none →
    (r.kind = .result → u.view .coxS p.toNat o = s.view .coxS p.toNat o) ∧
    (r.kind = .plain → ∀ f ∈ r.fields, f.acc = .cnt → f.get (u.view .coxS p.toNat o) = f.get (s.view .coxS p.toNat o)) ∧
    (r.kind = .goReg ∨ r.kind = .portReg →
      u.view .coxS p.toNat o = u.liveWord .coxS p.toNat o)

/-- The first error of a page is kept (R452): an undefined offset is recorded with its code and address while PG_ERR is
clear, and a later one sets MORE and leaves CODE and PG_ERR_ADDR. -/
def Obligations.PageErrorsKeepTheFirst : Prop :=
  ∀ (s : State) (m : Master) (off : Nat) (v : Word), s.Served m (off / 0x1000) (off % 0x1000) true →
    s.unreachable m (off / 0x1000) = false → off / 0x1000 < numPages →
    (s.pageSecure (off / 0x1000) = false ∨ s.masterWorld m = true) → s.pageShut (off / 0x1000) = false →
    regAt (off / 0x1000) (off % 0x1000) = none →
    ∃ t, exec (.undefinedOffsetAccess m off (some v)) s = .next t ∧ t.rd (off / 0x1000) PG_ERR_VALID = 1 ∧
      (s.rd (off / 0x1000) PG_ERR_VALID = 0 →
        t.rd (off / 0x1000) PG_ERR_CODE = 2 ∧ t.rd (off / 0x1000) PG_ERR_ADDR = (2 ^ 31 + off) % 2 ^ 32 ∧
          t.rd (off / 0x1000) PG_ERR_MORE = s.rd (off / 0x1000) PG_ERR_MORE) ∧
      (s.rd (off / 0x1000) PG_ERR_VALID = 1 →
        t.rd (off / 0x1000) PG_ERR_CODE = s.rd (off / 0x1000) PG_ERR_CODE ∧
          t.rd (off / 0x1000) PG_ERR_ADDR = s.rd (off / 0x1000) PG_ERR_ADDR ∧ t.rd (off / 0x1000) PG_ERR_MORE = 1) ∧
      Unchanged [.regs] s t

/-- Words of the spec's worked examples, built field by field as the model writes them: the two results of a self-test
slice (R388), the scrubber's log (R394), a frequency measurement's result (R357), and the crew window's word
of crew 0x0456 while it runs at heat 3 (R460). -/
def Obligations.WordsOfTheWorkedExamples : Prop :=
  BST_RESULT0_VALID.put 1 (BST_RESULT0_PASS.put 0 (BST_RESULT0_SEQ.put 0xA (BST_RESULT0_COVER.put 0xF
    (BST_RESULT0_FAILED.put 0x2 (BST_RESULT0_ROOM.put 0xB43 0))))) = 0x8AF20B43#32 ∧
  BST_RESULT1_VALID.put 1 (BST_RESULT1_SEQ.put 0xA (BST_RESULT1_DURATION.put 4780 0)) = 0x8A0012AC#32 ∧
  SCR_LOG_VALID.put 1 (SCR_LOG_ESSENTIAL.put 1 (SCR_LOG_SEQ.put 5 (SCR_LOG_BITS.put 1 (SCR_LOG_ROOM.put 0x236
    (SCR_LOG_FRAME.put 0x25 0))))) = 0xC5123625#32 ∧
  FMC_RESULT_VALID.put 1 (FMC_RESULT_SEQ.put 5 (FMC_RESULT_COUNT.put 204800 0)) = 0x85032000#32 ∧
  (∀ (s : State) (m : Master) (c : Crew), s.crew 0x456 = some c → c.heat = 3 → c.state = .running →
    c.wakePending = false → c.fault = 0 → s.sees m c.world = true → s.view m 98 0x198 = 0x04563800#32)

/-- A hard-wired bit (R327): bit 1 of CEL.WAKE_EN reads 1 whatever is written; the other three enables take the value
written, and no other register changes. -/
def Obligations.WakeEnableOfTheHostIsHardWired : Prop :=
  ∀ (s : State) (m : Master) (v : Word), s.Admits m pgCel 0x48 →
    ∃ t, exec (.registerWrite m (.bar0 (pgCel * 0x1000 + 0x48)) v none) s = .next t ∧
      (∀ i, i < 4 → (t.rd pgCel CEL_WAKE_EN_EN).testBit i = (i == 1 || v.getLsbD i)) ∧
      (∀ a, a ≠ pgCel * 0x1000 + 0x48 → t.reg a = s.reg a) ∧ Unchanged [.regs] s t

/-- Commands that complete by taking a half or the device to HALT (R17, R34, R245, R284, R369, R377, R474). HALT is the command's own
effect by its row of the opcode table: nothing else was due that HALT replaces. Where the row's event is not
there (BOOT is not at that step, the other half runs, ERR_N is high, the device is not asleep), the command completes and
changes nothing. -/
def Obligations.CommandsThatHaltComplete : Prop :=
  (∀ s : State, s.seq.boot = 3 → s.mode .east = mBoot → s.mode .west = mBoot →
    ∃ t, exec .galleryTrainTimeout s = .next t ∧ (∀ h, t.Halted h ecGalleryTrain) ∧ t.errN = true ∧
      Unchanged [.regs, .out, .seq, .loader, .g2, .selfTest] s t) ∧
  (∀ (s : State) (h : Half), s.seq.boot = 3 → s.mode h = mBoot → s.mode (other h) ≠ mBoot →
    ∃ t, exec .galleryTrainTimeout s = .next t ∧ s.HaltDid h ecGalleryTrain t) ∧
  (∀ s : State, s.seq.boot ≠ 3 → exec .galleryTrainTimeout s = .next s) ∧
  (∀ (s : State) (k : BitVec 2), s.seq.boot = 6 → s.mode (halfOf (k.toNat / 2)) = mBoot →
    ∃ t, exec (.stackTrainTimeout k) s = .next t ∧ s.HaltDid (halfOf (k.toNat / 2)) ecStackTrain t) ∧
  (∀ (s : State) (k : BitVec 2), s.seq.boot ≠ 6 → exec (.stackTrainTimeout k) s = .next s) ∧
  (∀ (s : State) (h : Half), s.mode (other h) = mHalt → s.galleryUp = true → mBoot ≤ s.mode h → s.mode h < mHalt →
    ∃ t, exec (.halfHaltMessage h) s = .next t ∧ s.HaltDid h ecHalfHalt t) ∧
  (∀ (s : State) (h : Half), s.mode (other h) ≠ mHalt ∨ s.galleryUp = false → exec (.halfHaltMessage h) s = .next s) ∧
  (∀ s : State, s.errN = true → mBoot ≤ s.mode s.follower → s.mode s.follower < mHalt →
    ∃ t, exec (.errNWatchExpiry s.follower) s = .next t ∧ s.HaltDid s.follower ecHalfHalt t) ∧
  (∀ (s : State) (h : Half), s.errN = false ∨ h = s.leader → exec (.errNWatchExpiry h) s = .next s) ∧
  (∀ (s : State) (h : Half), s.seq.standby = .asleep → (∀ k, s.mode k = mStandby) →
    ∃ t, exec (.thermalComparatorFire h) s = .next t ∧ t.seq.standby = .none ∧ (∀ k, t.mode k = mHalt) ∧ t.mem = s.mem ∧
      t.crews = s.crews) ∧
  (∀ (s : State) (h : Half), s.seq.standby ≠ .asleep → exec (.thermalComparatorFire h) s = .next s) ∧
  (∀ s : State, s.stepDue 0 = true → (∀ h, mBoot ≤ s.mode h ∧ s.mode h < mHalt) →
    ∃ t, exec .lockTimeout s = .next t ∧ (∀ h, t.Halted h ecStartup) ∧ t.rd pgCfg CFG_ERR_CODE = lfLockTimeout ∧
      t.phase = phFailed ∧ Unchanged [.regs, .out, .seq, .loader, .g2, .selfTest] s t) ∧
  (∀ s : State, s.stepDue 0 = false → exec .lockTimeout s = .next s) ∧
  (∀ s : State, s.devMode = mLoadHost → s.on pgHlk HLK_LINK_DL_UP = true → s.loading = true →
    (∀ h, mBoot ≤ s.mode h ∧ s.mode h < mHalt) →
    ∃ t, exec .loadDeadlineExpiry s = .next t ∧ (∀ h, t.Halted h ecLoadFailed) ∧ t.rd pgCfg CFG_ERR_CODE = lfTruncated ∧
      t.phase = phFailed) ∧
  (∀ s : State, s.loading = false → exec .loadDeadlineExpiry s = .next s)

/-- Commands that complete by answering an access or a request with a refusal (R39, R68, R148, R157, R187, R210, R412, R47). By its
row of the opcode table the refusal is the command's own effect: the operation is one that the spec does not define
there. A command whose operand is a defined operation is no such command, and changes nothing. -/
def Obligations.RefusedOperationsComplete : Prop :=
  (∀ (s : State) (m : Master) (v : BitVec 4), s.Takes m (pgSys s.leader) 0x54 →
    s.rd (pgSys s.leader) SYS_MODE_TRANSIT = 0 → s.orphan .east = false → s.orphan .west = false → v ≠ 2 → v ≠ 3 → v ≠ 10 →
    v ≠ 11 →
    ∃ t, exec (.modeReqInvalidTarget m s.leader v) s = .next t ∧ t.rd (pgSys s.leader) SYS_MODE_REQ_TARGET = v.toNat ∧
      t.rd (pgSys s.leader) SYS_MODE_REQ_STATUS = 2 ∧ t.rd (pgSys s.leader) SYS_MODE_REQ_REASON = rqBadTarget ∧
      Unchanged [.regs] s t) ∧
  (∀ (s : State) (fn : BitVec 8) (id : BitVec 16) (h o : BitVec 4) (c : Crew), s.BellNames fn.toNat id.toNat h.toNat c →
    o ≠ 1 → o ≠ 2 → o ≠ 3 →
    ∃ t, exec (.doorbellInvalidOp fn id h o) s = .next t ∧
      t.rd (pgStw (idHalf id.toNat)) STW_DB_DROP_DROPPED =
        min STW_DB_DROP_DROPPED.max (s.rd (pgStw (idHalf id.toNat)) STW_DB_DROP_DROPPED + 1) ∧ Unchanged [.regs] s t) ∧
  (∀ (s : State) (fn : BitVec 8) (id : BitVec 16) (h o : BitVec 4), o = 1 ∨ o = 2 ∨ o = 3 →
    exec (.doorbellInvalidOp fn id h o) s = .next s) ∧
  (∀ (s : State) (p : Port) (o : BitVec 4), s.PortFree .stw p → o = 0 ∨ 11 ≤ o.toNat →
    ∃ t, exec (.stwBadOp p o) s = .next t ∧ t.Answered .stw p scBadOp ∧ Unchanged [.regs, .out, .host, .cox] s t) ∧
  (∀ (s : State) (p : Port) (o : BitVec 4), s.PortFree .pgt p → o = 0 ∨ 8 ≤ o.toNat →
    ∃ t, exec (.pgtBadOp p o) s = .next t ∧ t.Answered .pgt p pcBadOp ∧ Unchanged [.regs, .out, .host, .cox] s t) ∧
  (∀ (s : State) (p : Port) (o : BitVec 4), s.PortFree .hat p → o = 0 ∨ 4 ≤ o.toNat →
    ∃ t, exec (.hatBadOp p o) s = .next t ∧ t.Answered .hat p htBadOp ∧ Unchanged [.regs, .out, .host, .cox] s t) ∧
  (∀ (s : State) (p : Port) (o : BitVec 4), 0 < o.toNat →
    (o.toNat < 11 → exec (.stwBadOp p o) s = .next s) ∧ (o.toNat < 8 → exec (.pgtBadOp p o) s = .next s) ∧
      (o.toNat < 4 → exec (.hatBadOp p o) s = .next s)) ∧
  (∀ (s : State) (m : Master) (v : BitVec 4), s.Takes m pgLcs 0x44 → s.rd pgLcs LCS_REQ_STATUS ≠ 1 →
    s.rd pgLcs LCS_STATE_PENDING = s.lifeCycle → lcsAllowed s.lifeCycle v.toNat = false →
    ∃ t, exec (.lcsReqInvalid m v) s = .next t ∧ t.security = s.security ∧ t.rd pgLcs LCS_REQ_STATUS = 3 ∧
      t.rd pgLcs LCS_REQ_REASON = 1 ∧ (t.rd pgLcs PG_IRQ_RAW).testBit 0 = true) ∧
  (∀ (s : State) (r : BitVec 12) (n : BitVec 3) (x : OarTok), roomOk r.toNat = true → s.tokensMove r.toNat = true →
    s.block r.toNat (8 + n.toNat) = Block.fresh →
    ∃ t, exec (.oarReservedOp r n x) s = .next t ∧
      s.OarDid r.toNat n.toNat x.emit { s.oar r.toNat n.toNat with operr := true } t) ∧
  (∀ (s : State) (r : BitVec 12) (c : BitVec 11) (w v : Wires), roomOk r.toNat = true → s.tokensMove r.toNat = true →
    v = s.cellWires r.toNat c.toNat →
    (s.cellCfg r.toNat c.toNat).seesIllegal (s.bundled r.toNat) ⟨v.t ||| w.t, v.f ||| w.f, v.req ||| w.req⟩ = true →
    (s.control (s.room r.toNat).active r.toNat).testBit 5 = true →
    ∃ t, exec (.illegalCode r c w) s = .next t ∧ (t.room r.toNat).codeFlag = true ∧ Unchanged [.rooms] s t)

/-- Accesses that the gate ends complete (R10, R22, R341, R405, R447): the answer that the row of the opcode table gives is the
command's own effect, whatever master asks and whatever it writes. -/
def Obligations.GatedAccessesComplete : Prop :=
  (∀ (s : State) (m : Master) (off : Nat) (w : Option (BitVec 16)),
    s.modeGate m (off / 0x1000) false false = .drop → exec (.bar0NarrowAccess m off w) s = .next s) ∧
  (∀ (s : State) (m : Master) (off : Nat) (w : Option (BitVec 16)),
    s.modeGate m (off / 0x1000) false false ≠ .drop → s.hostWake m (off / 0x1000) (off % 0x1000) true = s →
    exec (.bar0NarrowAccess m off w) s = .next (s.emit (.completion m .unsupported))) ∧
  (∀ (s : State) (m : Master) (off : Nat) (w : Option Word), s.Served m (off / 0x1000) (off % 0x1000) w.isSome →
    s.unreachable m (off / 0x1000) = true →
    exec (.unreachableHalfAccess m off w) s =
      .next (if w.isSome then s.lostAccess m else (s.lostAccess m).emit (.completion m (.word 0xFFFFFFFF)))) ∧
  (∀ (s : State) (m : Master) (off : Nat) (w : Option Word), s.Served m (off / 0x1000) (off % 0x1000) w.isSome →
    s.unreachable m (off / 0x1000) = false → numPages ≤ off / 0x1000 →
    exec (.bar0OutOfRangeAccess m off w) s = .next (if w.isSome then s else s.emit (.completion m .unsupported))) ∧
  (∀ (s : State) (m : Master) (off : Nat) (w : Option Word), s.Served m (off / 0x1000) (off % 0x1000) w.isSome →
    s.unreachable m (off / 0x1000) = false → off / 0x1000 < numPages → s.pageSecure (off / 0x1000) = true →
    s.masterWorld m = false → s.pageShut (off / 0x1000) = false →
    ∃ t, exec (.pageWorldViolation m off w) s = .next t ∧ t.frozenMaster m = true ∧
      (w = none → t.out.head? = some (.completion m .unsupported)) ∧
      Unchanged [.regs, .out, .security, .host, .cox] s t) ∧
  (∀ (s : State) (m : Master) (off : Nat) (w : Option Word), s.Served m (off / 0x1000) (off % 0x1000) w.isSome →
    s.unreachable m (off / 0x1000) = false → off / 0x1000 < numPages →
    (s.pageSecure (off / 0x1000) = true → s.masterWorld m = true) → s.pageShut (off / 0x1000) = true →
    exec (.closedPageAccess m off w) s =
      .next (if w.isSome then s.ghost (off / 0x1000) else (s.ghost (off / 0x1000)).emit (.completion m (.word 0)))) ∧
  (∀ (s : State) (m : Master) (off : Nat) (w : Option Word), s.Served m (off / 0x1000) (off % 0x1000) w.isSome →
    s.unreachable m (off / 0x1000) = false → off / 0x1000 < numPages →
    (s.pageSecure (off / 0x1000) = true → s.masterWorld m = true) → s.pageShut (off / 0x1000) = false →
    regAt (off / 0x1000) (off % 0x1000) = none →
    exec (.undefinedOffsetAccess m off w) s =
      .next (if w.isSome then s.pgErr (off / 0x1000) 2 (accessAddr (off / 0x1000) (off % 0x1000) true)
        else (s.pgErr (off / 0x1000) 2 (accessAddr (off / 0x1000) (off % 0x1000) false)).emit (.completion m (.word 0))))

/-- Time limits complete (R33, R107, R108, R219, R224, R279, R325, R345, R356, R400): ending, abandoning or counting what has
taken too long is their own effect by their rows of the opcode table. Where nothing runs that the limit bounds, they
complete and change nothing. -/
def Obligations.TimeLimitsComplete : Prop :=
  (∀ s : State, s.seq.standby = .entering →
    ∃ u : State, exec .standbyEntryTimeout s =
        .next (((((u.retireAct .east).retireAct .west).decision .east).decision .west).settlePorts).service ∧
      u.seq.standby = .none ∧ (∀ h, u.rd (pgSys h) SYS_MODE_TRANSIT = 0) ∧
      u.rd (pgSys u.leader) SYS_MODE_REQ_STATUS = 2 ∧ u.rd (pgSys u.leader) SYS_MODE_REQ_REASON = rqEntryFailed) ∧
  (∀ s : State, s.seq.standby ≠ .entering → exec .standbyEntryTimeout s = .next s) ∧
  (∀ s : State, s.seq.standby = .waking →
    ∃ t, exec .wakePllTimeout s = .next t ∧ t.seq.standby = .none ∧ t.seq.wakePend = 0) ∧
  (∀ s : State, s.seq.standby ≠ .waking → exec .wakePllTimeout s = .next s) ∧
  (∀ (s : State) (w : BitVec 4) (p : Bool) (now n id : Nat) (c : Crew) (x : Swap), s.seq.standby ≠ .entering →
    s.pinSwap w.toNat = p → s.swapAt w.toNat 3 = some x → x.outs = [id] → s.crew id = some c → s.unquiet c.suite ≠ [] → c.qto < 3 →
    exec (.quiesceLimitExpiry w p now n) s =
      .next ((((((s.backToReady x.inc).emptyRooms (x.rooms.filter fun r => !c.suite.contains r)).swapRecord w.toNat 3 n).wingFree
        w.toNat).keepCrew id true).wingDone w.toNat)) ∧
  (∀ (s u : State) (w : BitVec 4) (p : Bool) (now n id : Nat) (c : Crew) (x : Swap) (fl : Bool), s.seq.standby ≠ .entering →
    s.pinSwap w.toNat = p → s.swapAt w.toNat 3 = some x → x.outs = [id] → s.crew id = some c → s.unquiet c.suite ≠ [] → 3 ≤ c.qto →
    (s.modRooms c.suite fun y => { y with stopped := true }).saveCrews [id] now true = (fl, u) →
    exec (.quiesceLimitExpiry w p now n) s = .next (u.afterSave w.toNat x fl n)) ∧
  (∀ (s : State) (w : BitVec 4) (p : Bool) (now n : Nat), s.seq.standby ≠ .entering →
    s.pinSwap w.toNat ≠ p ∨ (s.swapAt w.toNat 3 = none ∧ s.swapAt w.toNat 4 = none) → exec (.quiesceLimitExpiry w p now n) s = .next s) ∧
  (∀ s : State, s.chain.ended = false → s.loader.deferred = false →
    ∃ t, exec .chainStallExpiry s = .next t ∧ t.chain.ended = true ∧ t.chain.sending = none ∧ t.chain.out = [] ∧
      Unchanged [.chain] s t) ∧
  (∀ s : State, s.chain.ended = true → exec .chainStallExpiry s = .next s) ∧
  (∀ (s : State) (h : Half) (c : OpChange), (s.pow h).op = some c → c.pllReady = false → c.byGov = false →
    ∃ t, exec (.opPllTimeout h) s = .next t ∧ (t.pow h).op = none ∧ t.rd (pgPwr h) PWR_OP_REQ_STATUS = 3 ∧
      t.rd (pgPwr h) PWR_OP_REQ_REASON = 2 ∧ Unchanged [.regs, .power] s t) ∧
  (∀ (s : State) (h : Half), (s.pow h).op = none → exec (.opPllTimeout h) s = .next s) ∧
  (∀ (s : State) (b : Bool), s.host.reeq = some b →
    ∃ u : State, exec .reeqTimeout s = .next (u.unhold s.leader) ∧ u.rd pgHlk HLK_REEQ_STATUS = 3 ∧
      u.rd pgHlk HLK_REEQ_REASON = 6 ∧ u.host.reeq = none ∧ Unchanged [.regs, .host] s u) ∧
  (∀ s : State, s.host.reeq = none → exec .reeqTimeout s = .next s) ∧
  (∀ (s : State) (h : Half) (n : Nat), s.rd (pgFmc h) FMC_RESULT_BUSY = 1 →
    ∃ t, exec (.fmcRefLost h n) s = .next t ∧ t.rd (pgFmc h) FMC_RESULT_BUSY = 0 ∧ t.rd (pgFmc h) FMC_RESULT_VALID = 1 ∧
      t.rd (pgFmc h) FMC_RESULT_STAT = fmRefLost ∧ t.rd (pgFmc h) FMC_RESULT_COUNT = min 0xFFFFFF n ∧
      (t.rd (pgFmc h) PG_IRQ_RAW).testBit 0 = true ∧ Unchanged [.regs, .out, .host, .cox] s t) ∧
  (∀ (s : State) (h : Half) (n : Nat), s.rd (pgFmc h) FMC_RESULT_BUSY = 0 → exec (.fmcRefLost h n) s = .next s) ∧
  (∀ (s : State) (w : Bool) (now : BitVec 64), s.linkState w = 1 → s.course.lane ≠ some w →
    ∃ t, exec (.courseRetrainFail w now) s = .next t ∧
      (t.cLink w).fails = now.toNat :: (s.cLink w).fails.filter (fun x => now.toNat < x + 1000000) ∧
      Unchanged [.regs, .course] s t) ∧
  (∀ (s : State) (w : Bool) (now : BitVec 64), s.linkState w ≠ 1 → s.linkState w ≠ 3 →
    exec (.courseRetrainFail w now) s = .next s) ∧
  (∀ s : State, s.course.enum ≠ 0 →
    ∃ t, exec .enumTimeout s = .next t ∧ t.course.enum = 0 ∧ t.course.failed = true ∧ t.course.map = [] ∧
      Unchanged [.regs, .out, .host, .cox, .course] s t) ∧
  (∀ s : State, s.course.enum = 0 → exec .enumTimeout s = .next s)

end
end

