-- ==== Sys2Proof/Laws/Tbl.lean ====
section
/-! SUPPORT. The laws of sparse tables: reading after writing, and the canonical form that every operation keeps. -/

namespace Sys2Proof.Machine.Tbl

variable {V : Type}

/-! ## Reading after writing -/

@[simp] theorem find_put (t : Tbl V) (k j : Nat) (x : V) : find (put t k x) j = if j = k then some x else find t j := by
  induction t with
  | nil => simp only [put, find, eq_comm]
  | cons e t ih =>
    simp only [put]
    split
    · rename_i h
      by_cases hj : j = k
      · simp [find, hj]
      · have : e.1 ≠ j := fun h' => hj (h'.symm.trans h)
        simp [find, hj, Ne.symm hj, this]
    · split
      · simp only [find, eq_comm]
      · rename_i h _
        simp only [find, ih]
        by_cases hj : j = k
        · subst hj; simp [h]
        · simp [hj]

@[simp] theorem find_del (t : Tbl V) (k j : Nat) : find (del t k) j = if j = k then none else find t j := by
  induction t with
  | nil => simp [del, find]
  | cons e t ih =>
    simp only [del]
    split
    · rename_i h
      rw [ih]
      by_cases hj : j = k
      · simp [hj]
      · have : e.1 ≠ j := fun h' => hj (h'.symm.trans h)
        simp [hj, find, this]
    · rename_i h
      by_cases hj : j = k
      · subst hj; simp [find, h, ih]
      · simp [find, ih, hj]

@[simp] theorem get_store [DecidableEq V] (t : Tbl V) (d : V) (k j : Nat) (x : V) :
    get (store t d k x) d j = if j = k then x else get t d j := by
  unfold store get
  by_cases hx : x = d <;> by_cases hj : j = k <;> simp [hx, hj]

theorem find_filter (t : Tbl V) (p : Nat → Bool) (k : Nat) :
    find (t.filter fun e => p e.1) k = if p k then find t k else none := by
  induction t with
  | nil => simp [find]
  | cons e t ih =>
    by_cases hp : p e.1
    · by_cases hk : e.1 = k
      · subst hk; simp [hp, find]
      · simp [hp, find, hk, ih]
    · by_cases hk : e.1 = k
      · subst hk; simp [hp, ih]
      · simp [hp, find, hk, ih]

@[simp] theorem find_mod (t : Tbl V) (k j : Nat) (f : V → V) :
    find (mod t k f) j = if j = k then (find t k).map f else find t j := by
  unfold mod
  split
  · rename_i h; rw [find_put, h]; rfl
  · rename_i h
    split
    · rename_i hj; rw [hj, h]; rfl
    · rfl

/-! ## The canonical form -/

theorem above_iff (b : Nat) (t : Tbl V) :
    above b t = true ↔ (∀ e ∈ t, b < e.1) ∧ t.Pairwise fun x y => x.1 < y.1 := by
  induction t generalizing b with
  | nil => simp [above]
  | cons e t ih =>
    rw [above, Bool.and_eq_true, decide_eq_true_eq, ih, List.pairwise_cons]
    constructor
    · rintro ⟨h, h₁, h₂⟩
      refine ⟨fun x hx => ?_, h₁, h₂⟩
      rcases List.mem_cons.mp hx with rfl | hx
      · exact h
      · exact Nat.lt_trans h (h₁ x hx)
    · rintro ⟨h, h₁, h₂⟩
      exact ⟨h e List.mem_cons_self, h₁, h₂⟩

/-- The canonical form says that the keys rise strictly. -/
theorem wf_iff (t : Tbl V) : wf t = true ↔ t.Pairwise fun x y => x.1 < y.1 := by
  cases t with
  | nil => simp [wf]
  | cons e t => rw [wf, above_iff, List.pairwise_cons]

theorem mem_put {t : Tbl V} {k : Nat} {x : V} {e : Nat × V} (h : e ∈ put t k x) : e = (k, x) ∨ e ∈ t := by
  induction t with
  | nil => exact .inl (List.mem_singleton.mp h)
  | cons y t ih =>
    simp only [put] at h
    split at h
    · rcases List.mem_cons.mp h with rfl | h
      · exact .inl rfl
      · exact .inr (List.mem_cons_of_mem _ h)
    · split at h
      · rcases List.mem_cons.mp h with rfl | h
        · exact .inl rfl
        · exact .inr h
      · rcases List.mem_cons.mp h with rfl | h
        · exact .inr List.mem_cons_self
        · exact (ih h).imp_right (List.mem_cons_of_mem _)

theorem del_eq (t : Tbl V) (k : Nat) : del t k = t.filter fun e => e.1 != k := by
  induction t with
  | nil => rfl
  | cons e t ih =>
    by_cases h : e.1 = k
    · simp [del, h, ih]
    · simp [del, h, ih]

theorem wf_put {t : Tbl V} (h : wf t = true) (k : Nat) (x : V) : wf (put t k x) = true := by
  rw [wf_iff] at h ⊢
  induction t with
  | nil => simp [put]
  | cons e t ih =>
    have ⟨h₁, h₂⟩ := List.pairwise_cons.mp h
    simp only [put]
    split
    · rename_i hk
      exact List.pairwise_cons.mpr ⟨fun y hy => hk ▸ h₁ y hy, h₂⟩
    · split
      · rename_i hk
        refine List.pairwise_cons.mpr ⟨fun y hy => ?_, h⟩
        rcases List.mem_cons.mp hy with rfl | hy
        · exact hk
        · exact Nat.lt_trans hk (h₁ y hy)
      · rename_i hne hk
        refine List.pairwise_cons.mpr ⟨fun y hy => ?_, ih h₂⟩
        rcases mem_put hy with rfl | hy
        · exact Nat.lt_of_le_of_ne (Nat.le_of_not_lt hk) hne
        · exact h₁ y hy

theorem wf_filter {t : Tbl V} (h : wf t = true) (p : Nat × V → Bool) : wf (t.filter p) = true := by
  rw [wf_iff] at h ⊢
  exact h.filter p

theorem wf_del {t : Tbl V} (h : wf t = true) (k : Nat) : wf (del t k) = true := by
  rw [del_eq]; exact wf_filter h _

theorem wf_mod {t : Tbl V} (h : wf t = true) (k : Nat) (f : V → V) : wf (mod t k f) = true := by
  unfold mod
  split
  · exact wf_put h k _
  · exact h

theorem wf_store [DecidableEq V] {t : Tbl V} (h : wf t = true) (d : V) (k : Nat) (x : V) : wf (store t d k x) = true := by
  unfold store
  split
  · exact wf_del h k
  · exact wf_put h k x

/-- A store leaves no entry that holds the default of its key. -/
theorem mem_store [DecidableEq V] {t : Tbl V} {d : V} {k : Nat} {x : V} {e : Nat × V} (h : e ∈ store t d k x) :
    (e = (k, x) ∧ x ≠ d) ∨ e ∈ t := by
  unfold store at h
  split at h
  · rw [del_eq] at h
    exact .inr ((List.mem_filter.mp h).1)
  · rename_i hx
    exact (mem_put h).imp_left fun he => ⟨he, hx⟩

theorem wf_foldl_put (l : Tbl V) {t : Tbl V} (h : wf t = true) : wf (l.foldl (fun t e => put t e.1 e.2) t) = true := by
  induction l generalizing t with
  | nil => exact h
  | cons e l ih => exact ih (wf_put h e.1 e.2)

theorem mem_foldl_put (l : Tbl V) {t : Tbl V} {e : Nat × V} (h : e ∈ l.foldl (fun t e => put t e.1 e.2) t) :
    e ∈ l ∨ e ∈ t := by
  induction l generalizing t with
  | nil => exact .inr h
  | cons y l ih =>
    rcases ih h with h | h
    · exact .inl (List.mem_cons_of_mem _ h)
    · rcases mem_put h with rfl | h
      · exact .inl List.mem_cons_self
      · exact .inr h

/-! ## Tables of bytes -/

/-- A table of bytes in canonical form: keys strictly rising, no byte of 0. -/
def Bytes (t : Tbl Byte) : Prop := wf t = true ∧ ∀ e ∈ t, e.2 ≠ 0

theorem bytes_nil : Bytes [] := ⟨rfl, fun _ h => nomatch h⟩

theorem bytes_filter {t : Tbl Byte} (h : Bytes t) (p : Nat × Byte → Bool) : Bytes (t.filter p) :=
  ⟨wf_filter h.1 p, fun e he => h.2 e ((List.mem_filter.mp he).1)⟩

theorem bytes_store {t : Tbl Byte} (h : Bytes t) (k : Nat) (x : Byte) : Bytes (store t 0 k x) := by
  refine ⟨wf_store h.1 0 k x, fun e he => ?_⟩
  rcases mem_store he with ⟨rfl, hx⟩ | he
  · exact hx
  · exact h.2 e he

theorem bytes_putBytes {t : Tbl Byte} (h : Bytes t) (a : Nat) (bs : List Byte) : Bytes (putBytes t a bs) := by
  induction bs generalizing a with
  | nil => exact h
  | cons b bs ih => exact bytes_store (ih (a + 1)) a b

theorem bytes_norm (t : Tbl Byte) : Bytes (norm t) := by
  induction t with
  | nil => exact bytes_nil
  | cons e t ih => exact bytes_store ih e.1 e.2

theorem bytes_splice {t : Tbl Byte} (h : Bytes t) (a n : Nat) {src : Tbl Byte} (hs : Bytes src) :
    Bytes (splice t a n src) := by
  constructor
  · rw [wf_iff, splice, List.pairwise_append, List.pairwise_append]
    have ht := (wf_iff t).mp h.1
    have hsrc := (wf_iff src).mp hs.1
    refine ⟨⟨ht.filter _, ?_, ?_⟩, ht.filter _, ?_⟩
    · rw [List.pairwise_map]
      exact (hsrc.filter _).imp fun hxy => Nat.add_lt_add_right hxy a
    · intro x hx y hy
      obtain ⟨z, -, rfl⟩ := List.mem_map.mp hy
      have := of_decide_eq_true ((List.mem_filter.mp hx).2)
      exact Nat.lt_of_lt_of_le this (Nat.le_add_left a z.1)
    · intro x hx y hy
      have hy' : a + n ≤ y.1 := of_decide_eq_true ((List.mem_filter.mp hy).2)
      rcases List.mem_append.mp hx with hx | hx
      · have : x.1 < a := of_decide_eq_true ((List.mem_filter.mp hx).2)
        omega
      · obtain ⟨z, hz, rfl⟩ := List.mem_map.mp hx
        have : z.1 < n := of_decide_eq_true ((List.mem_filter.mp hz).2)
        show z.1 + a < y.1
        omega
  · intro e he
    rcases List.mem_append.mp he with he | he
    · rcases List.mem_append.mp he with he | he
      · exact h.2 e ((List.mem_filter.mp he).1)
      · obtain ⟨z, hz, rfl⟩ := List.mem_map.mp he
        exact hs.2 z ((List.mem_filter.mp hz).1)
    · exact h.2 e ((List.mem_filter.mp he).1)

/-- `Memory.wf` is the canonical form of a table of bytes. -/
theorem memory_wf (m : List Host.Cell) : Memory.wf m = true ↔ Bytes m := by
  rw [Memory.wf, Bool.and_eq_true, List.all_eq_true]
  simp only [bne_iff_ne, Bytes]

end Sys2Proof.Machine.Tbl

/-! ## Every memory operation keeps the canonical form -/

namespace Sys2Proof.Machine.Memory

variable {m : List Host.Cell}

theorem wf_nil : wf [] = true := rfl

theorem wf_filter (h : wf m = true) (p : Host.Cell → Bool) : wf (m.filter p) = true :=
  (Tbl.memory_wf _).mpr (Tbl.bytes_filter ((Tbl.memory_wf _).mp h) p)

theorem wf_store (h : wf m = true) (a : Nat) (b : Byte) : wf (Tbl.store m 0 a b) = true :=
  (Tbl.memory_wf _).mpr (Tbl.bytes_store ((Tbl.memory_wf _).mp h) a b)

theorem wf_putBytes (h : wf m = true) (a : Nat) (bs : List Byte) : wf (Tbl.putBytes m a bs) = true :=
  (Tbl.memory_wf _).mpr (Tbl.bytes_putBytes ((Tbl.memory_wf _).mp h) a bs)

theorem wf_splice (h : wf m = true) (a n : Nat) (t : Tbl Byte) : wf (Tbl.splice m a n (Tbl.norm t)) = true :=
  (Tbl.memory_wf _).mpr (Tbl.bytes_splice ((Tbl.memory_wf _).mp h) a n (Tbl.bytes_norm t))

theorem wf_clear (h : wf m = true) (a n : Nat) : wf (Tbl.splice m a n []) = true :=
  (Tbl.memory_wf _).mpr (Tbl.bytes_splice ((Tbl.memory_wf _).mp h) a n Tbl.bytes_nil)

end Sys2Proof.Machine.Memory
end

