-- ==== Sys2Proof/Laws/Frame.lean ====
section
/-! SUPPORT. The calculus of frames: what an operation may change (`Upd`), and one lemma for each way in which a meaning
is put together. -/

namespace Sys2Proof.Machine

variable {K K' : List Part} {s t u : State}

/-- Every part of the one list is in the other. -/
def Part.sub (K K' : List Part) : Bool := Nat.beq (mask K ||| mask K') (mask K')

theorem Part.testBit_mask (l : List Part) (p : Part) : (mask l).testBit p.ctorIdx = true ↔ p ∈ l := by
  induction l with
  | nil => simp [mask]
  | cons q l ih =>
    have h : mask (q :: l) = 2 ^ q.ctorIdx ||| mask l := rfl
    rw [h, Nat.testBit_or, Bool.or_eq_true, ih, List.mem_cons, Nat.testBit_two_pow]
    constructor
    · rintro (h | h)
      · have := congrArg Part.ofNat (of_decide_eq_true h)
        exact .inl (by simpa [Part.ofNat_ctorIdx] using this.symm)
      · exact .inr h
    · rintro (rfl | h)
      · simp
      · exact .inr h

theorem Part.mem_of_sub (h : Part.sub K K' = true) {p : Part} (hp : p ∈ K) : p ∈ K' := by
  rw [← testBit_mask] at hp ⊢
  rw [← Nat.eq_of_beq_eq_true h, Nat.testBit_or, hp, Bool.true_or]

theorem Part.sub_trans {K'' : List Part} (h₁ : Part.sub K K' = true) (h₂ : Part.sub K' K'' = true) :
    Part.sub K K'' = true := by
  have h₁ := Nat.eq_of_beq_eq_true h₁
  have h₂ := Nat.eq_of_beq_eq_true h₂
  have : mask K ||| mask K'' = mask K'' := by rw [← h₂, ← Nat.or_assoc, h₁]
  rw [Part.sub, this]
  exact Nat.beq_refl _

/-- What may change is within a part list exactly when it is outside what the list leaves out. -/
theorem Part.mem_allBut (l : List Part) (p : Part) : p ∈ Part.allBut l ↔ p ∉ l := by
  rw [Part.allBut, List.mem_filter, ← testBit_mask l]
  have : p ∈ Part.all := by cases p <;> decide
  simp [this]

theorem Part.same_refl (p : Part) (s : State) : p.same s s := by cases p <;> rfl

theorem Part.same_trans {p : Part} (h₁ : p.same s t) (h₂ : p.same t u) : p.same s u := by
  cases p <;> exact Eq.trans h₂ h₁

theorem State.Canon.regs_store (c : s.Canon) (a : Nat) (w : Word) :
    Tbl.wf (Tbl.store s.regs (regReset a) a w) = true ∧
      ∀ e ∈ Tbl.store s.regs (regReset a) a w, e.2 ≠ regReset e.1 := by
  refine ⟨Tbl.wf_store c.regs.1 _ _ _, fun e he => ?_⟩
  rcases Tbl.mem_store he with ⟨rfl, h⟩ | h
  · exact h
  · exact c.regs.2 e h

theorem State.Canon.regs_filter (c : s.Canon) (p : Nat × Word → Bool) :
    Tbl.wf (s.regs.filter p) = true ∧ ∀ e ∈ s.regs.filter p, e.2 ≠ regReset e.1 :=
  ⟨Tbl.wf_filter c.regs.1 p, fun e he => c.regs.2 e (List.mem_filter.mp he).1⟩

/-- Everything that an operation does to the parts it does not list, and to the canonical form of the tables. -/
structure Upd (K : List Part) (s t : State) : Prop where
  frame : Unchanged K s t
  canon : s.Canon → t.Canon

namespace Upd

theorem refl : Upd K s s := ⟨fun p _ => p.same_refl s, id⟩

/-- What an operation does after others, within the parts that the whole may change. -/
theorem after (h : Upd K' t u) (hk : Part.sub K' K = true) (h₀ : Upd K s t) : Upd K s u :=
  ⟨fun p hp => Part.same_trans (h₀.frame p hp) (h.frame p fun hm => hp (Part.mem_of_sub hk hm)), h.canon ∘ h₀.canon⟩

theorem mono (h : Upd K' s t) (hk : Part.sub K' K = true) : Upd K s t := after h hk refl

theorem ite {c : Prop} [Decidable c] {a b : State} (ha : Upd K s a) (hb : Upd K s b) : Upd K s (if c then a else b) := by
  split <;> assumption

theorem ite_snd {α : Type} {c : Prop} [Decidable c] {a b : α × State} (ha : Upd K s a.2) (hb : Upd K s b.2) :
    Upd K s (if c then a else b).2 := by
  split <;> assumption

theorem foldl {α : Type} {f : State → α → State} (hf : ∀ t x, Upd K s t → Upd K s (f t x)) (l : List α) (h : Upd K s t) :
    Upd K s (l.foldl f t) := by
  induction l generalizing t with
  | nil => exact h
  | cons x l ih => exact ih (hf t x h)

theorem foldl_snd {α β : Type} {f : β × State → α → β × State}
    (hf : ∀ b x, Upd K s b.2 → Upd K s (f b x).2) (l : List α) {b : β × State} (h : Upd K s b.2) :
    Upd K s (l.foldl f b).2 := by
  induction l generalizing b with
  | nil => exact h
  | cons x l ih => exact ih (hf b x h)

/-- What an operation that may answer nothing does where it answers a state. -/
def Opt (K : List Part) (s : State) (o : Option State) : Prop := ∀ t, o = some t → Upd K s t

theorem opt_out {o : Option State} (h : Opt K s o) : ∀ t, o = some t → Upd K s t := h

theorem opt_none : Opt K s none := fun _ e => nomatch e

theorem opt_some (h : Upd K s t) : Opt K s (some t) := fun _ e => Option.some.inj e ▸ h

theorem opt_ite {c : Prop} [Decidable c] {a b : Option State} (ha : Opt K s a) (hb : Opt K s b) :
    Opt K s (if c then a else b) := by
  split <;> assumption

/-- What a command does where it answers a next state. -/
def Out (K : List Part) (s : State) (o : Host.Outcome State Fault Refusal) : Prop := ∀ t, o = .next t → Upd K s t

theorem out_next (h : Upd K s t) : Out K s (.next t) := fun _ e => Host.Outcome.next.inj e ▸ h

theorem out_ite {c : Prop} [Decidable c] {a b : Host.Outcome State Fault Refusal} (ha : Out K s a) (hb : Out K s b) :
    Out K s (if c then a else b) := by
  split <;> assumption

/-! ### Record updates: one lemma for each set of fields that a meaning writes at once -/

theorem pending (h : Upd K s t) (hk : Part.sub [.pending] K = true) {x0} :
    Upd K s { t with pending := x0 } :=
  after (t := t) ⟨fun p hp => by cases p <;> first | rfl | exact absurd (by decide) hp, fun c => ⟨c.mem, c.fabric, c.regs, c.crews, c.hatches⟩⟩ hk h

theorem regs (h : Upd K s t) (hk : Part.sub [.regs] K = true) {x0}
    (hc : t.Canon → State.Canon { t with regs := x0 }) :
    Upd K s { t with regs := x0 } :=
  after (t := t) ⟨fun p hp => by cases p <;> first | rfl | exact absurd (by decide) hp, hc⟩ hk h

theorem held (h : Upd K s t) (hk : Part.sub [.held] K = true) {x0} :
    Upd K s { t with held := x0 } :=
  after (t := t) ⟨fun p hp => by cases p <;> first | rfl | exact absurd (by decide) hp, fun c => ⟨c.mem, c.fabric, c.regs, c.crews, c.hatches⟩⟩ hk h

theorem out (h : Upd K s t) (hk : Part.sub [.out] K = true) {x0} :
    Upd K s { t with out := x0 } :=
  after (t := t) ⟨fun p hp => by cases p <;> first | rfl | exact absurd (by decide) hp, fun c => ⟨c.mem, c.fabric, c.regs, c.crews, c.hatches⟩⟩ hk h

theorem draws (h : Upd K s t) (hk : Part.sub [.draws] K = true) {x0} :
    Upd K s { t with draws := x0 } :=
  after (t := t) ⟨fun p hp => by cases p <;> first | rfl | exact absurd (by decide) hp, fun c => ⟨c.mem, c.fabric, c.regs, c.crews, c.hatches⟩⟩ hk h

theorem straps (h : Upd K s t) (hk : Part.sub [.straps] K = true) {x0} :
    Upd K s { t with straps := x0 } :=
  after (t := t) ⟨fun p hp => by cases p <;> first | rfl | exact absurd (by decide) hp, fun c => ⟨c.mem, c.fabric, c.regs, c.crews, c.hatches⟩⟩ hk h

theorem cellar (h : Upd K s t) (hk : Part.sub [.cellar] K = true) {x0} :
    Upd K s { t with cellar := x0 } :=
  after (t := t) ⟨fun p hp => by cases p <;> first | rfl | exact absurd (by decide) hp, fun c => ⟨c.mem, c.fabric, c.regs, c.crews, c.hatches⟩⟩ hk h

theorem seq (h : Upd K s t) (hk : Part.sub [.seq] K = true) {x0} :
    Upd K s { t with seq := x0 } :=
  after (t := t) ⟨fun p hp => by cases p <;> first | rfl | exact absurd (by decide) hp, fun c => ⟨c.mem, c.fabric, c.regs, c.crews, c.hatches⟩⟩ hk h

theorem power (h : Upd K s t) (hk : Part.sub [.power] K = true) {x0} :
    Upd K s { t with power := x0 } :=
  after (t := t) ⟨fun p hp => by cases p <;> first | rfl | exact absurd (by decide) hp, fun c => ⟨c.mem, c.fabric, c.regs, c.crews, c.hatches⟩⟩ hk h

theorem cross (h : Upd K s t) (hk : Part.sub [.cross] K = true) {x0} :
    Upd K s { t with cross := x0 } :=
  after (t := t) ⟨fun p hp => by cases p <;> first | rfl | exact absurd (by decide) hp, fun c => ⟨c.mem, c.fabric, c.regs, c.crews, c.hatches⟩⟩ hk h

theorem security (h : Upd K s t) (hk : Part.sub [.security] K = true) {x0} :
    Upd K s { t with security := x0 } :=
  after (t := t) ⟨fun p hp => by cases p <;> first | rfl | exact absurd (by decide) hp, fun c => ⟨c.mem, c.fabric, c.regs, c.crews, c.hatches⟩⟩ hk h

theorem pins (h : Upd K s t) (hk : Part.sub [.pins] K = true) {x0} :
    Upd K s { t with pins := x0 } :=
  after (t := t) ⟨fun p hp => by cases p <;> first | rfl | exact absurd (by decide) hp, fun c => ⟨c.mem, c.fabric, c.regs, c.crews, c.hatches⟩⟩ hk h

theorem doorway (h : Upd K s t) (hk : Part.sub [.doorway] K = true) {x0} :
    Upd K s { t with doorway := x0 } :=
  after (t := t) ⟨fun p hp => by cases p <;> first | rfl | exact absurd (by decide) hp, fun c => ⟨c.mem, c.fabric, c.regs, c.crews, c.hatches⟩⟩ hk h

theorem porches (h : Upd K s t) (hk : Part.sub [.porches] K = true) {x0} :
    Upd K s { t with porches := x0 } :=
  after (t := t) ⟨fun p hp => by cases p <;> first | rfl | exact absurd (by decide) hp, fun c => ⟨c.mem, c.fabric, c.regs, c.crews, c.hatches⟩⟩ hk h

theorem host (h : Upd K s t) (hk : Part.sub [.host] K = true) {x0} :
    Upd K s { t with host := x0 } :=
  after (t := t) ⟨fun p hp => by cases p <;> first | rfl | exact absurd (by decide) hp, fun c => ⟨c.mem, c.fabric, c.regs, c.crews, c.hatches⟩⟩ hk h

theorem rooms (h : Upd K s t) (hk : Part.sub [.rooms] K = true) {x0} :
    Upd K s { t with rooms := x0 } :=
  after (t := t) ⟨fun p hp => by cases p <;> first | rfl | exact absurd (by decide) hp, fun c => ⟨c.mem, c.fabric, c.regs, c.crews, c.hatches⟩⟩ hk h

theorem fabric (h : Upd K s t) (hk : Part.sub [.fabric] K = true) {x0}
    (hc : t.Canon → State.Canon { t with fabric := x0 }) :
    Upd K s { t with fabric := x0 } :=
  after (t := t) ⟨fun p hp => by cases p <;> first | rfl | exact absurd (by decide) hp, hc⟩ hk h

theorem refs (h : Upd K s t) (hk : Part.sub [.refs] K = true) {x0} :
    Upd K s { t with refs := x0 } :=
  after (t := t) ⟨fun p hp => by cases p <;> first | rfl | exact absurd (by decide) hp, fun c => ⟨c.mem, c.fabric, c.regs, c.crews, c.hatches⟩⟩ hk h

theorem crews (h : Upd K s t) (hk : Part.sub [.crews] K = true) {x0}
    (hc : t.Canon → State.Canon { t with crews := x0 }) :
    Upd K s { t with crews := x0 } :=
  after (t := t) ⟨fun p hp => by cases p <;> first | rfl | exact absurd (by decide) hp, hc⟩ hk h

theorem ids (h : Upd K s t) (hk : Part.sub [.ids] K = true) {x0} :
    Upd K s { t with ids := x0 } :=
  after (t := t) ⟨fun p hp => by cases p <;> first | rfl | exact absurd (by decide) hp, fun c => ⟨c.mem, c.fabric, c.regs, c.crews, c.hatches⟩⟩ hk h

theorem heatCopy (h : Upd K s t) (hk : Part.sub [.heatCopy] K = true) {x0} :
    Upd K s { t with heatCopy := x0 } :=
  after (t := t) ⟨fun p hp => by cases p <;> first | rfl | exact absurd (by decide) hp, fun c => ⟨c.mem, c.fabric, c.regs, c.crews, c.hatches⟩⟩ hk h

theorem stamps (h : Upd K s t) (hk : Part.sub [.stamps] K = true) {x0} :
    Upd K s { t with stamps := x0 } :=
  after (t := t) ⟨fun p hp => by cases p <;> first | rfl | exact absurd (by decide) hp, fun c => ⟨c.mem, c.fabric, c.regs, c.crews, c.hatches⟩⟩ hk h

theorem wings (h : Upd K s t) (hk : Part.sub [.wings] K = true) {x0} :
    Upd K s { t with wings := x0 } :=
  after (t := t) ⟨fun p hp => by cases p <;> first | rfl | exact absurd (by decide) hp, fun c => ⟨c.mem, c.fabric, c.regs, c.crews, c.hatches⟩⟩ hk h

theorem portOps (h : Upd K s t) (hk : Part.sub [.portOps] K = true) {x0} :
    Upd K s { t with portOps := x0 } :=
  after (t := t) ⟨fun p hp => by cases p <;> first | rfl | exact absurd (by decide) hp, fun c => ⟨c.mem, c.fabric, c.regs, c.crews, c.hatches⟩⟩ hk h

theorem mem (h : Upd K s t) (hk : Part.sub [.mem] K = true) {x0}
    (hc : t.Canon → State.Canon { t with mem := x0 }) :
    Upd K s { t with mem := x0 } :=
  after (t := t) ⟨fun p hp => by cases p <;> first | rfl | exact absurd (by decide) hp, hc⟩ hk h

theorem stackCtl (h : Upd K s t) (hk : Part.sub [.stackCtl] K = true) {x0} :
    Upd K s { t with stackCtl := x0 } :=
  after (t := t) ⟨fun p hp => by cases p <;> first | rfl | exact absurd (by decide) hp, fun c => ⟨c.mem, c.fabric, c.regs, c.crews, c.hatches⟩⟩ hk h

theorem frames (h : Upd K s t) (hk : Part.sub [.frames] K = true) {x0} :
    Upd K s { t with frames := x0 } :=
  after (t := t) ⟨fun p hp => by cases p <;> first | rfl | exact absurd (by decide) hp, fun c => ⟨c.mem, c.fabric, c.regs, c.crews, c.hatches⟩⟩ hk h

theorem alloc (h : Upd K s t) (hk : Part.sub [.alloc] K = true) {x0} :
    Upd K s { t with alloc := x0 } :=
  after (t := t) ⟨fun p hp => by cases p <;> first | rfl | exact absurd (by decide) hp, fun c => ⟨c.mem, c.fabric, c.regs, c.crews, c.hatches⟩⟩ hk h

theorem reads (h : Upd K s t) (hk : Part.sub [.reads] K = true) {x0} :
    Upd K s { t with reads := x0 } :=
  after (t := t) ⟨fun p hp => by cases p <;> first | rfl | exact absurd (by decide) hp, fun c => ⟨c.mem, c.fabric, c.regs, c.crews, c.hatches⟩⟩ hk h

theorem attic (h : Upd K s t) (hk : Part.sub [.attic] K = true) {x0} :
    Upd K s { t with attic := x0 } :=
  after (t := t) ⟨fun p hp => by cases p <;> first | rfl | exact absurd (by decide) hp, fun c => ⟨c.mem, c.fabric, c.regs, c.crews, c.hatches⟩⟩ hk h

theorem prog (h : Upd K s t) (hk : Part.sub [.prog] K = true) {x0} :
    Upd K s { t with prog := x0 } :=
  after (t := t) ⟨fun p hp => by cases p <;> first | rfl | exact absurd (by decide) hp, fun c => ⟨c.mem, c.fabric, c.regs, c.crews, c.hatches⟩⟩ hk h

theorem recClear (h : Upd K s t) (hk : Part.sub [.recClear] K = true) {x0} :
    Upd K s { t with recClear := x0 } :=
  after (t := t) ⟨fun p hp => by cases p <;> first | rfl | exact absurd (by decide) hp, fun c => ⟨c.mem, c.fabric, c.regs, c.crews, c.hatches⟩⟩ hk h

theorem retiring (h : Upd K s t) (hk : Part.sub [.retiring] K = true) {x0} :
    Upd K s { t with retiring := x0 } :=
  after (t := t) ⟨fun p hp => by cases p <;> first | rfl | exact absurd (by decide) hp, fun c => ⟨c.mem, c.fabric, c.regs, c.crews, c.hatches⟩⟩ hk h

theorem chunk (h : Upd K s t) (hk : Part.sub [.chunk] K = true) {x0} :
    Upd K s { t with chunk := x0 } :=
  after (t := t) ⟨fun p hp => by cases p <;> first | rfl | exact absurd (by decide) hp, fun c => ⟨c.mem, c.fabric, c.regs, c.crews, c.hatches⟩⟩ hk h

theorem loader (h : Upd K s t) (hk : Part.sub [.loader] K = true) {x0} :
    Upd K s { t with loader := x0 } :=
  after (t := t) ⟨fun p hp => by cases p <;> first | rfl | exact absurd (by decide) hp, fun c => ⟨c.mem, c.fabric, c.regs, c.crews, c.hatches⟩⟩ hk h

theorem chain (h : Upd K s t) (hk : Part.sub [.chain] K = true) {x0} :
    Upd K s { t with chain := x0 } :=
  after (t := t) ⟨fun p hp => by cases p <;> first | rfl | exact absurd (by decide) hp, fun c => ⟨c.mem, c.fabric, c.regs, c.crews, c.hatches⟩⟩ hk h

theorem g2 (h : Upd K s t) (hk : Part.sub [.g2] K = true) {x0} :
    Upd K s { t with g2 := x0 } :=
  after (t := t) ⟨fun p hp => by cases p <;> first | rfl | exact absurd (by decide) hp, fun c => ⟨c.mem, c.fabric, c.regs, c.crews, c.hatches⟩⟩ hk h

theorem selfTest (h : Upd K s t) (hk : Part.sub [.selfTest] K = true) {x0} :
    Upd K s { t with selfTest := x0 } :=
  after (t := t) ⟨fun p hp => by cases p <;> first | rfl | exact absurd (by decide) hp, fun c => ⟨c.mem, c.fabric, c.regs, c.crews, c.hatches⟩⟩ hk h

theorem cox (h : Upd K s t) (hk : Part.sub [.cox] K = true) {x0} :
    Upd K s { t with cox := x0 } :=
  after (t := t) ⟨fun p hp => by cases p <;> first | rfl | exact absurd (by decide) hp, fun c => ⟨c.mem, c.fabric, c.regs, c.crews, c.hatches⟩⟩ hk h

theorem hatches (h : Upd K s t) (hk : Part.sub [.hatches] K = true) {x0}
    (hc : t.Canon → State.Canon { t with hatches := x0 }) :
    Upd K s { t with hatches := x0 } :=
  after (t := t) ⟨fun p hp => by cases p <;> first | rfl | exact absurd (by decide) hp, hc⟩ hk h

theorem gallery (h : Upd K s t) (hk : Part.sub [.gallery] K = true) {x0} :
    Upd K s { t with gallery := x0 } :=
  after (t := t) ⟨fun p hp => by cases p <;> first | rfl | exact absurd (by decide) hp, fun c => ⟨c.mem, c.fabric, c.regs, c.crews, c.hatches⟩⟩ hk h

theorem course (h : Upd K s t) (hk : Part.sub [.course] K = true) {x0} :
    Upd K s { t with course := x0 } :=
  after (t := t) ⟨fun p hp => by cases p <;> first | rfl | exact absurd (by decide) hp, fun c => ⟨c.mem, c.fabric, c.regs, c.crews, c.hatches⟩⟩ hk h

theorem regs_held (h : Upd K s t) (hk : Part.sub [.regs, .held] K = true) {x0 x1}
    (hc : t.Canon → State.Canon { t with regs := x0, held := x1 }) :
    Upd K s { t with regs := x0, held := x1 } :=
  after (t := t) ⟨fun p hp => by cases p <;> first | rfl | exact absurd (by decide) hp, hc⟩ hk h

theorem regs_cellar (h : Upd K s t) (hk : Part.sub [.regs, .cellar] K = true) {x0 x1}
    (hc : t.Canon → State.Canon { t with regs := x0, cellar := x1 }) :
    Upd K s { t with regs := x0, cellar := x1 } :=
  after (t := t) ⟨fun p hp => by cases p <;> first | rfl | exact absurd (by decide) hp, hc⟩ hk h

theorem crews_ids (h : Upd K s t) (hk : Part.sub [.crews, .ids] K = true) {x0 x1}
    (hc : t.Canon → State.Canon { t with crews := x0, ids := x1 }) :
    Upd K s { t with crews := x0, ids := x1 } :=
  after (t := t) ⟨fun p hp => by cases p <;> first | rfl | exact absurd (by decide) hp, hc⟩ hk h

theorem mem_bad (h : Upd K s t) (hk : Part.sub [.mem, .bad] K = true) {x0 x1}
    (hc : t.Canon → State.Canon { t with mem := x0, bad := x1 }) :
    Upd K s { t with mem := x0, bad := x1 } :=
  after (t := t) ⟨fun p hp => by cases p <;> first | rfl | exact absurd (by decide) hp, hc⟩ hk h

theorem sigs (h : Upd K s t) (hk : Part.sub [.sigs] K = true) {x0} :
    Upd K s { t with sigs := x0 } :=
  after (t := t) ⟨fun p hp => by cases p <;> first | rfl | exact absurd (by decide) hp, fun c => ⟨c.mem, c.fabric, c.regs, c.crews, c.hatches⟩⟩ hk h

theorem blocks (h : Upd K s t) (hk : Part.sub [.blocks] K = true) {x0} :
    Upd K s { t with blocks := x0 } :=
  after (t := t) ⟨fun p hp => by cases p <;> first | rfl | exact absurd (by decide) hp, fun c => ⟨c.mem, c.fabric, c.regs, c.crews, c.hatches⟩⟩ hk h

theorem lines (h : Upd K s t) (hk : Part.sub [.lines] K = true) {x0} :
    Upd K s { t with lines := x0 } :=
  after (t := t) ⟨fun p hp => by cases p <;> first | rfl | exact absurd (by decide) hp, fun c => ⟨c.mem, c.fabric, c.regs, c.crews, c.hatches⟩⟩ hk h

theorem loader_selfTest (h : Upd K s t) (hk : Part.sub [.loader, .selfTest] K = true) {x0 x1} :
    Upd K s { t with loader := x0, selfTest := x1 } :=
  after (t := t) ⟨fun p hp => by cases p <;> first | rfl | exact absurd (by decide) hp, fun c => ⟨c.mem, c.fabric, c.regs, c.crews, c.hatches⟩⟩ hk h

theorem security_cox (h : Upd K s t) (hk : Part.sub [.security, .cox] K = true) {x0 x1} :
    Upd K s { t with security := x0, cox := x1 } :=
  after (t := t) ⟨fun p hp => by cases p <;> first | rfl | exact absurd (by decide) hp, fun c => ⟨c.mem, c.fabric, c.regs, c.crews, c.hatches⟩⟩ hk h

theorem stackCtl_frames (h : Upd K s t) (hk : Part.sub [.stackCtl, .frames] K = true) {x0 x1} :
    Upd K s { t with stackCtl := x0, frames := x1 } :=
  after (t := t) ⟨fun p hp => by cases p <;> first | rfl | exact absurd (by decide) hp, fun c => ⟨c.mem, c.fabric, c.regs, c.crews, c.hatches⟩⟩ hk h

theorem sigs_blocks_lines (h : Upd K s t) (hk : Part.sub [.sigs, .blocks, .lines] K = true) {x0 x1 x2} :
    Upd K s { t with sigs := x0, blocks := x1, lines := x2 } :=
  after (t := t) ⟨fun p hp => by cases p <;> first | rfl | exact absurd (by decide) hp, fun c => ⟨c.mem, c.fabric, c.regs, c.crews, c.hatches⟩⟩ hk h

theorem sigs_blocks_lines_wings_portOps_selfTest (h : Upd K s t) (hk : Part.sub [.sigs, .blocks, .lines, .wings, .portOps, .selfTest] K = true) {x0 x1 x2 x3 x4 x5} :
    Upd K s { t with sigs := x0, blocks := x1, lines := x2, wings := x3, portOps := x4, selfTest := x5 } :=
  after (t := t) ⟨fun p hp => by cases p <;> first | rfl | exact absurd (by decide) hp, fun c => ⟨c.mem, c.fabric, c.regs, c.crews, c.hatches⟩⟩ hk h

theorem prog_recClear (h : Upd K s t) (hk : Part.sub [.prog, .recClear] K = true) {x0 x1} :
    Upd K s { t with prog := x0, recClear := x1 } :=
  after (t := t) ⟨fun p hp => by cases p <;> first | rfl | exact absurd (by decide) hp, fun c => ⟨c.mem, c.fabric, c.regs, c.crews, c.hatches⟩⟩ hk h

theorem porches_rooms_fabric_refs_crews_ids_heatCopy_wings (h : Upd K s t) (hk : Part.sub [.porches, .rooms, .fabric, .refs, .crews, .ids, .heatCopy, .wings] K = true) {x0 x1 x2 x3 x4 x5 x6 x7}
    (hc : t.Canon → State.Canon { t with porches := x0, rooms := x1, fabric := x2, refs := x3, crews := x4, ids := x5, heatCopy := x6, wings := x7 }) :
    Upd K s { t with porches := x0, rooms := x1, fabric := x2, refs := x3, crews := x4, ids := x5, heatCopy := x6, wings := x7 } :=
  after (t := t) ⟨fun p hp => by cases p <;> first | rfl | exact absurd (by decide) hp, hc⟩ hk h

theorem regs_fuses_cellar_security_pins_mem_bad_loader_g2 (h : Upd K s t) (hk : Part.sub [.regs, .fuses, .cellar, .security, .pins, .mem, .bad, .loader, .g2] K = true) {x0 x1 x2 x3 x4 x5 x6 x7 x8}
    (hc : t.Canon → State.Canon { t with regs := x0, fuses := x1, cellar := x2, security := x3, pins := x4, mem := x5, bad := x6, loader := x7, g2 := x8 }) :
    Upd K s { t with regs := x0, fuses := x1, cellar := x2, security := x3, pins := x4, mem := x5, bad := x6, loader := x7, g2 := x8 } :=
  after (t := t) ⟨fun p hp => by cases p <;> first | rfl | exact absurd (by decide) hp, hc⟩ hk h

/-- The state of a pair that an operation answers. -/
theorem of_pair {α : Type} {x : α × State} {a : α} (e : x = (a, t)) (h : Upd K s x.2) : Upd K s t := by
  subst e; exact h

theorem of_triple {α β : Type} {x : α × β × State} {a : α} {b : β} (e : x = (a, b, t)) (h : Upd K s x.2.2) : Upd K s t := by
  subst e; exact h

end Upd

end Sys2Proof.Machine
end

