-- ==== Sys2Proof/Laws/FrameOps.lean ====
section
/-! SUPPORT. What each operation may change, and that it keeps the canonical form: the named operations over registers, memory, the hatches, the Course and the fabric.
One lemma for each operation; a lemma in `_hupd` is of an operation that takes the rest of a meaning. -/

namespace Sys2Proof.Machine.State

theorem setReg_upd {s : State} {a : Nat} {w : Word} :
    Upd [.regs] s (State.setReg s a w) := by
  unfold State.setReg
  exact Upd.regs .refl rfl (fun c => ⟨c.mem, c.fabric, c.regs_store _ _, c.crews, c.hatches⟩)

theorem wr_upd {s : State} {p : Nat} {f : Fld} {v : Nat} :
    Upd [.regs] s (State.wr s p f v) := by
  unfold State.wr
  exact Upd.after setReg_upd rfl .refl

theorem wrs_upd {s : State} {p : Nat} {l : List (Fld × Nat)} :
    Upd [.regs] s (State.wrs s p l) := by
  unfold State.wrs
  exact Upd.foldl (fun t x ht => Upd.after wr_upd rfl <| by with_reducible assumption) _ .refl

theorem step1_upd {s : State} {p : Nat} {f : Fld} :
    Upd [.regs] s (State.step1 s p f) := by
  unfold State.step1
  exact Upd.after wr_upd rfl .refl

theorem drew_upd {s : State} :
    Upd [.draws] s (State.drew s) := by
  unfold State.drew
  refine Upd.draws ?_ rfl
  exact .refl

theorem emit_upd {s : State} {e : Emission} :
    Upd [.out] s (State.emit s e) := by
  unfold State.emit
  refine Upd.out ?_ rfl
  exact .refl

theorem modPow_upd {s : State} {h : Half} {f : HalfPower → HalfPower} :
    Upd [.power] s (State.modPow s h f) := by
  unfold State.modPow
  refine Upd.power ?_ rfl
  exact .refl

theorem toCox_upd {s : State} {h : Half} {e : Emission} :
    Upd [.out, .cox] s (State.toCox s h e) := by
  unfold State.toCox
  extract_lets x4
  clear_value x4
  refine Upd.ite ?_ ?_
  · refine Upd.cox ?_ rfl
    exact .refl
  · exact Upd.after emit_upd rfl .refl

theorem msix_upd {s : State} {fn vector : Nat} :
    Upd [.out, .host] s (State.msix s fn vector) := by
  unfold State.msix
  extract_lets x4
  clear_value x4
  refine Upd.ite ?_ ?_
  · exact Upd.after emit_upd rfl .refl
  · refine Upd.host ?_ rfl
    exact .refl

theorem raise_upd {s : State} {p b : Nat} :
    Upd [.regs, .out, .host, .cox] s (State.raise s p b) := by
  unfold State.raise
  extract_lets x5 x6
  clear_value x5
  have hx6 : Upd [.regs, .out, .host, .cox] s x6 := Upd.after wr_upd rfl .refl
  clear_value x6
  exact Upd.ite .refl (Upd.ite (Upd.after toCox_upd rfl <| Upd.after msix_upd rfl <| by with_reducible assumption)
    (by with_reducible assumption))

theorem setRoom_upd {s : State} {r : Nat} {x : Room} :
    Upd [.rooms] s (State.setRoom s r x) := by
  unfold State.setRoom
  refine Upd.ite ?_ ?_
  · refine Upd.rooms ?_ rfl
    exact .refl
  · exact .refl

theorem modRoom_upd {s : State} {r : Nat} {f : Room → Room} :
    Upd [.rooms] s (State.modRoom s r f) := by
  unfold State.modRoom
  exact Upd.after setRoom_upd rfl .refl

theorem modRooms_upd {s : State} {rs : List Nat} {f : Room → Room} :
    Upd [.rooms] s (State.modRooms s rs f) := by
  unfold State.modRooms
  exact Upd.foldl (fun t x ht => Upd.after modRoom_upd rfl <| by with_reducible assumption) _ .refl

theorem setWing_upd {s : State} {w : Nat} {x : Wing} :
    Upd [.wings] s (State.setWing s w x) := by
  unfold State.setWing
  refine Upd.wings ?_ rfl
  exact .refl

theorem modWing_upd {s : State} {w : Nat} {f : Wing → Wing} :
    Upd [.wings] s (State.modWing s w f) := by
  unfold State.modWing
  exact Upd.after setWing_upd rfl .refl

theorem bump_upd {s : State} {p : Nat} {f : Fld} {n : optParam Nat 1} :
    Upd [.regs] s (State.bump s p f n) := by
  unfold State.bump
  exact Upd.after wr_upd rfl .refl

theorem pgErr_upd {s : State} {p code addr : Nat} :
    Upd [.regs] s (State.pgErr s p code addr) := by
  unfold State.pgErr
  exact Upd.ite (Upd.after wr_upd rfl .refl) (Upd.after wrs_upd rfl .refl)

theorem modCrew_upd {s : State} {id : Nat} {f : Crew → Crew} :
    Upd [.crews] s (State.modCrew s id f) := by
  unfold State.modCrew
  exact Upd.crews .refl rfl (fun c => ⟨c.mem, c.fabric, c.regs, Tbl.wf_mod c.crews _ _, c.hatches⟩)

theorem goBusy_upd {s : State} {p : Nat} {g : GoFlds} :
    Upd [.regs] s (State.goBusy s p g) := by
  unfold State.goBusy
  exact Upd.after wrs_upd rfl <| Upd.after step1_upd rfl .refl

theorem goRefused_upd {s : State} {p : Nat} {g : GoFlds} {reason : Nat} :
    Upd [.regs] s (State.goRefused s p g reason) := by
  unfold State.goRefused
  exact Upd.after wrs_upd rfl .refl

theorem goDone_upd {s : State} {p : Nat} {g : GoFlds} :
    Upd [.regs] s (State.goDone s p g) := by
  unfold State.goDone
  exact Upd.after wrs_upd rfl .refl

theorem raiseCox_upd {s : State} {h : Half} {b : Nat} :
    Upd [.regs, .out, .host, .cox] s (State.raiseCox s h b) := by
  unfold State.raiseCox
  extract_lets x5 x6
  clear_value x5
  have hx6 : Upd [.regs, .out, .host, .cox] s x6 := Upd.after raise_upd rfl .refl
  clear_value x6
  exact Upd.ite (by with_reducible assumption) (Upd.after toCox_upd rfl <| by with_reducible assumption)

theorem setCrew_upd {s : State} {id : Nat} {c : Crew} :
    Upd [.crews] s (State.setCrew s id c) := by
  unfold State.setCrew
  exact Upd.crews .refl rfl (fun c => ⟨c.mem, c.fabric, c.regs, Tbl.wf_put c.crews _ _, c.hatches⟩)

theorem poolLow_upd {s : State} {h : Half} {world : Bool} {before : Nat} :
    Upd [.regs, .out, .host, .cox] s (State.poolLow s h world before) := by
  unfold State.poolLow
  extract_lets x5
  clear_value x5
  exact Upd.ite (Upd.after raise_upd rfl .refl) .refl

theorem poolWatch_upd {s : State} {h : Half} {before : State} :
    Upd [.regs, .out, .host, .cox] s (State.poolWatch s h before) := by
  unfold State.poolWatch
  exact Upd.after poolLow_upd rfl <| Upd.after poolLow_upd rfl .refl

theorem recordFrame_upd {s : State} {f : Nat} :
    Upd [.regs, .attic] s (State.recordFrame s f) := by
  unfold State.recordFrame
  extract_lets x3
  clear_value x3
  refine Upd.ite ?_ ?_
  · exact .refl
  · refine Upd.ite ?_ ?_
    · refine Upd.attic ?_ rfl
      exact .refl
    · exact Upd.after pgErr_upd rfl .refl

theorem retireFrame_upd {s : State} {f : Nat} :
    Upd [.regs, .out, .host, .stackCtl, .frames, .attic, .cox, .gallery] s (State.retireFrame s f) := by
  unfold State.retireFrame
  extract_lets x7 x8 x9 x10 x11
  clear_value x7
  clear_value x8
  have hx9 : Upd [.regs, .out, .host, .stackCtl, .frames, .attic, .cox, .gallery] s x9 := by
    unfold x9
    refine Upd.ite ?_ ?_
    · refine Upd.stackCtl ?_ rfl
      exact .refl
    · refine Upd.frames ?_ rfl
      exact .refl
  clear_value x9
  have hx10 : Upd [.regs, .out, .host, .stackCtl, .frames, .attic, .cox, .gallery] s x10 := Upd.after poolWatch_upd
    rfl <| by with_reducible assumption
  clear_value x10
  clear_value x11
  refine Upd.ite ?_ ?_
  · exact .refl
  · refine Upd.ite ?_ ?_
    · refine Upd.gallery ?_ rfl
      exact by with_reducible assumption
    · exact Upd.after recordFrame_upd rfl <| by with_reducible assumption

theorem ueRecord_upd {s : State} {source sector : Nat} :
    Upd [.regs, .out, .host, .stackCtl, .frames, .attic, .cox, .gallery] s (State.ueRecord s source sector) := by
  unfold State.ueRecord
  extract_lets x7 x8 x9 x10
  clear_value x7
  have hx8 : Upd [.regs, .out, .host, .stackCtl, .frames, .attic, .cox, .gallery] s x8 := Upd.after wrs_upd rfl <|
    Upd.after step1_upd rfl .refl
  clear_value x8
  have hx9 : Upd [.regs, .out, .host, .stackCtl, .frames, .attic, .cox, .gallery] s x9 := Upd.after raise_upd rfl <|
    by with_reducible assumption
  clear_value x9
  clear_value x10
  refine Upd.ite ?_ ?_
  · exact Upd.after retireFrame_upd rfl <| by with_reducible assumption
  · refine Upd.stackCtl ?_ rfl
    exact by with_reducible assumption

theorem readSector_upd {s : State} {source sector : Nat} :
    Upd [.regs, .out, .host, .stackCtl, .frames, .attic, .cox, .gallery] s (State.readSector s source sector).2 := by
  unfold State.readSector
  extract_lets x4
  clear_value x4
  split
  · exact .refl
  · dsimp -zeta only
    exact Upd.after bump_upd rfl .refl
  · dsimp -zeta only
    exact Upd.after bump_upd rfl .refl
  · split
    · dsimp -zeta only
      exact Upd.after ueRecord_upd rfl .refl
    · dsimp -zeta only
      exact Upd.after bump_upd rfl .refl

theorem readMem_upd {s : State} {source a n : Nat} :
    Upd [.regs, .out, .host, .stackCtl, .frames, .attic, .cox, .gallery] s (State.readMem s source a n).2 := by
  unfold State.readMem
  extract_lets x5
  have hx5 : Upd [.regs, .out, .host, .stackCtl, .frames, .attic, .cox, .gallery] s x5.2 := .refl
  clear_value x5
  refine Upd.foldl_snd (fun b x hb => ?_) _ ?_
  · split
    · exact by with_reducible assumption
    · split
      · rename_i t19 e19
        have ht19 : Upd [.regs, .out, .host, .stackCtl, .frames, .attic, .cox, .gallery] s t19 := Upd.of_pair e19 <|
          Upd.after readSector_upd rfl <| by with_reducible assumption
        exact by with_reducible assumption
      · rename_i t20 e20
        have ht20 : Upd [.regs, .out, .host, .stackCtl, .frames, .attic, .cox, .gallery] s t20 := Upd.of_pair e20 <|
          Upd.after readSector_upd rfl <| by with_reducible assumption
        exact by with_reducible assumption
  · exact by with_reducible assumption

theorem writePiece_upd {s : State} {source a : Nat} {bs : List Byte} :
    Upd [.regs, .out, .host, .mem, .bad, .stackCtl, .frames, .attic, .cox, .gallery] s (State.writePiece s source a
      bs).2 := by
  unfold State.writePiece
  extract_lets x6 x7
  clear_value x6
  have hx7 : ∀ a0, Upd [.regs, .out, .host, .mem, .bad, .stackCtl, .frames, .attic, .cox, .gallery] s a0 → Upd
    [.regs, .out, .host, .mem, .bad, .stackCtl, .frames, .attic, .cox, .gallery] s (x7 a0) := by
    intros
    exact Upd.mem_bad (by with_reducible assumption) rfl (fun c => ⟨Memory.wf_putBytes c.mem _ _, c.fabric, c.regs,
      c.crews, c.hatches⟩)
  clear_value x7
  refine Upd.ite_snd ?_ ?_
  · dsimp -zeta only
    exact hx7 _ .refl
  · split
    · rename_i t12 e12
      have ht12 : Upd [.regs, .out, .host, .mem, .bad, .stackCtl, .frames, .attic, .cox, .gallery] s t12 :=
        Upd.of_pair e12 <| Upd.after readSector_upd rfl .refl
      exact by with_reducible assumption
    · rename_i t13 e13
      have ht13 : Upd [.regs, .out, .host, .mem, .bad, .stackCtl, .frames, .attic, .cox, .gallery] s t13 :=
        Upd.of_pair e13 <| Upd.after readSector_upd rfl .refl
      dsimp -zeta only
      exact hx7 _ <| Upd.mem (by with_reducible assumption) rfl (fun c => ⟨Memory.wf_putBytes c.mem _ _, c.fabric,
        c.regs, c.crews, c.hatches⟩)

theorem writeBytes_upd {s : State} {source a : Nat} {bs : List Byte} :
    Upd [.regs, .out, .host, .mem, .bad, .stackCtl, .frames, .attic, .cox, .gallery] s (State.writeBytes s source a
      bs).2 := by
  unfold State.writeBytes
  refine Upd.foldl_snd (fun b x hb => ?_) _ ?_
  · split
    rename_i t13 e13
    have ht13 : Upd [.regs, .out, .host, .mem, .bad, .stackCtl, .frames, .attic, .cox, .gallery] s t13 :=
      Upd.of_pair e13 <| Upd.after writePiece_upd rfl <| by with_reducible assumption
    exact by with_reducible assumption
  · exact .refl

theorem readBytes_upd {s : State} {source a n : Nat} :
    Upd [.regs, .out, .host, .stackCtl, .frames, .attic, .cox, .gallery] s (State.readBytes s source a n).2 := by
  unfold State.readBytes
  split
  · rename_i t10 e10
    have ht10 : Upd [.regs, .out, .host, .stackCtl, .frames, .attic, .cox, .gallery] s t10 := Upd.of_pair e10 <|
      Upd.after readMem_upd rfl .refl
    exact by with_reducible assumption
  · rename_i t10 e10
    have ht10 : Upd [.regs, .out, .host, .stackCtl, .frames, .attic, .cox, .gallery] s t10 := Upd.of_pair e10 <|
      Upd.after readMem_upd rfl .refl
    exact by with_reducible assumption

theorem modAlloc_upd {s : State} {h : Half} {f : Alloc → Alloc} :
    Upd [.alloc] s (State.modAlloc s h f) := by
  unfold State.modAlloc
  refine Upd.alloc ?_ rfl
  exact .refl

theorem granPut_upd {s : State} {h : Half} {first count : Nat} :
    Upd [.alloc] s (State.granPut s h first count) := by
  unfold State.granPut
  exact Upd.after modAlloc_upd rfl .refl

theorem granPick_upd {s : State} {h : Half} {n : Nat} :
    ∀ a t, State.granPick s h n = some (a, t) → Upd [.draws, .alloc] s t := by
  intro a t h
  unfold State.granPick at h
  extract_lets l g at h
  split at h
  · obtain ⟨-, rfl⟩ := Prod.mk.inj (Option.some.inj h)
    exact Upd.after granPut_upd rfl (Upd.after drew_upd rfl .refl)
  · cases h

theorem zeroFrame_upd {s : State} {f : Nat} :
    Upd [.mem, .bad] s (State.zeroFrame s f) := by
  unfold State.zeroFrame
  exact Upd.mem_bad .refl rfl (fun c => ⟨Memory.wf_clear c.mem _ _, c.fabric, c.regs, c.crews, c.hatches⟩)

theorem takeFrom_upd {s : State} {stack : Nat} {world : Bool} :
    ∀ a t, State.takeFrom s stack world = some (a, t) → Upd [.regs, .out, .draws, .host, .mem, .bad, .frames, .cox]
      s t := by
  intro a t h
  unfold State.takeFrom at h
  extract_lets before z free give f₁ f₂ at h
  have hg : ∀ f u, Upd [.regs, .out, .draws, .host, .mem, .bad, .frames, .cox] s u → Upd [.regs, .out, .draws,
    .host, .mem, .bad, .frames, .cox] s (give f u).2 := fun f u hu =>
    Upd.after poolLow_upd rfl (Upd.frames hu rfl)
  split at h
  · cases h
  · split at h
    · have := hg f₁ s.drew (Upd.after drew_upd rfl .refl)
      rw [Option.some.inj h] at this
      exact this
    · split at h
      · have := hg f₂ (s.drew.zeroFrame f₂) (Upd.after zeroFrame_upd rfl (Upd.after drew_upd rfl .refl))
        rw [Option.some.inj h] at this
        exact this
      · cases h

theorem releaseFrame_upd {s : State} {f : Nat} :
    Upd [.stackCtl, .frames] s (State.releaseFrame s f) := by
  unfold State.releaseFrame
  extract_lets x3
  clear_value x3
  refine Upd.ite ?_ ?_
  · refine Upd.stackCtl_frames ?_ rfl
    exact .refl
  · refine Upd.frames ?_ rfl
    exact .refl

theorem granDel_upd {s : State} {h : Half} {first count : Nat} :
    Upd [.alloc] s (State.granDel s h first count) := by
  unfold State.granDel
  exact Upd.after modAlloc_upd rfl .refl

theorem putWhole_upd {s : State} {a n : Nat} {t : Tbl Byte} :
    Upd [.mem, .bad] s (State.putWhole s a n t) := by
  unfold State.putWhole
  exact Upd.mem_bad .refl rfl (fun c => ⟨Memory.wf_splice c.mem _ _ _, c.fabric, c.regs, c.crews, c.hatches⟩)

theorem freezeLast_upd {s : State} {kind cause id : Nat} :
    Upd [.regs, .out, .host, .cox] s (State.freezeLast s kind cause id) := by
  unfold State.freezeLast
  extract_lets x5
  have hx5 : Upd [.regs, .out, .host, .cox] s x5 := Upd.after wrs_upd rfl <| Upd.after step1_upd rfl .refl
  clear_value x5
  exact Upd.after emit_upd rfl <| Upd.after raise_upd rfl <| by with_reducible assumption

theorem freezeRecord_upd {s : State} {holder : Half} {kind cause id : Nat} :
    Upd [.regs, .out, .security, .host, .cox] s (State.freezeRecord s holder kind cause id) := by
  unfold State.freezeRecord
  extract_lets x6
  clear_value x6
  refine Upd.ite ?_ ?_
  · refine Upd.security ?_ rfl
    exact .refl
  · exact Upd.after freezeLast_upd rfl .refl

theorem freezeCox_upd {s : State} {h : Half} {cause : Nat} :
    Upd [.regs, .out, .security, .host, .cox] s (State.freezeCox s h cause) := by
  unfold State.freezeCox
  extract_lets x4
  clear_value x4
  refine Upd.after freezeRecord_upd rfl <| Upd.security ?_ rfl
  exact .refl

theorem freezeMaster_upd {s : State} {m : Master} {cause : Nat} :
    Upd [.regs, .out, .security, .host, .cox] s (State.freezeMaster s m cause) := by
  unfold State.freezeMaster
  extract_lets x4
  clear_value x4
  split
  · refine Upd.after freezeRecord_upd rfl <| Upd.security ?_ rfl
    exact .refl
  · exact Upd.after freezeCox_upd rfl .refl
  · exact Upd.after freezeCox_upd rfl .refl
  · exact .refl
  · exact .refl

theorem freezePeer_upd {s : State} {id : Nat} :
    Upd [.regs, .out, .security, .host, .cox] s (State.freezePeer s id) := by
  unfold State.freezePeer
  extract_lets x3
  clear_value x3
  refine Upd.after freezeRecord_upd rfl <| Upd.security ?_ rfl
  exact .refl

theorem freezeCrewMark_upd {s : State} {id cause : Nat} :
    Upd [.regs, .out, .security, .host, .cox] s (State.freezeCrewMark s id cause) := by
  unfold State.freezeCrewMark
  extract_lets x4
  clear_value x4
  refine Upd.after freezeRecord_upd rfl <| Upd.security ?_ rfl
  exact .refl

theorem toEgress_upd {s : State} {h : Half} {e : Egress} :
    Upd [.gallery] s (State.toEgress s h e) := by
  unfold State.toEgress
  extract_lets x4
  clear_value x4
  refine Upd.ite ?_ ?_
  · refine Upd.gallery ?_ rfl
    exact .refl
  · refine Upd.gallery ?_ rfl
    exact .refl

theorem ringWrite_upd {s : State} {h : Hatch} {w : Nat} {bs : List Byte} :
    Upd [.regs, .out, .host, .mem, .bad, .stackCtl, .frames, .attic, .cox, .gallery] s (State.ringWrite s h w bs) :=
      by
  unfold State.ringWrite
  extract_lets x5
  clear_value x5
  exact Upd.after writeBytes_upd rfl <| Upd.after writeBytes_upd rfl .refl

theorem setHatch_upd {s : State} {n : Nat} {h : Hatch} :
    Upd [.hatches] s (State.setHatch s n h) := by
  unfold State.setHatch
  exact Upd.hatches .refl rfl (fun c => ⟨c.mem, c.fabric, c.regs, c.crews, Tbl.wf_store c.hatches _ _ _⟩)

theorem admitted_upd {s : State} {n : Nat} {p : Pusher} {len : Nat} {bs : List Byte} :
    Upd [.regs, .out, .host, .mem, .bad, .stackCtl, .frames, .attic, .cox, .hatches, .gallery] s (State.admitted s n
      p len bs) := by
  unfold State.admitted
  extract_lets x9 x10 x11 x12
  clear_value x9
  clear_value x10
  clear_value x11
  have hx12 : Upd [.regs, .out, .host, .mem, .bad, .stackCtl, .frames, .attic, .cox, .hatches, .gallery] s x12 := by
    unfold x12
    split
    · exact .refl
    · exact Upd.after ringWrite_upd rfl .refl
  clear_value x12
  split
  exact Upd.after setHatch_upd rfl <| by with_reducible assumption

theorem countStale_upd {s : State} {n : Nat} :
    Upd [.regs, .out, .host, .cox] s (State.countStale s n) := by
  unfold State.countStale
  exact Upd.after raise_upd rfl <| Upd.after bump_upd rfl .refl

theorem settleHatch_upd {s : State} {n x2 : Nat} :
    Upd [.regs, .out, .host, .cox, .hatches] s (State.settleHatch s n x2) := by
  unfold State.settleHatch
  extract_lets x4
  clear_value x4
  split
  · exact .refl
  · split
    · exact .refl
    · exact Upd.ite (Upd.ite (Upd.after settleHatch_upd rfl <| Upd.after setHatch_upd rfl .refl) .refl) (Upd.ite
        (Upd.after settleHatch_upd rfl <| Upd.after setHatch_upd rfl <| Upd.after countStale_upd rfl .refl) .refl)

theorem settle_upd {s : State} {n : Nat} :
    Upd [.regs, .out, .host, .cox, .hatches] s (State.settle s n) := by
  unfold State.settle
  exact Upd.after settleHatch_upd rfl .refl

theorem settleOf_upd {s : State} {id : Nat} :
    Upd [.regs, .out, .host, .cox, .hatches] s (State.settleOf s id) := by
  unfold State.settleOf
  exact Upd.foldl (fun t x ht => Upd.after settle_upd rfl <| by with_reducible assumption) _ .refl

theorem modHatch_upd {s : State} {n : Nat} {f : Hatch → Hatch} :
    Upd [.hatches] s (State.modHatch s n f) := by
  unfold State.modHatch
  exact Upd.after setHatch_upd rfl .refl

theorem refuse_upd {s : State} {n code : Nat} :
    Upd [.regs, .out, .host, .cox, .hatches] s (State.refuse s n code) := by
  unfold State.refuse
  extract_lets x6 x7 x8
  clear_value x6
  have hx7 : Upd [.regs, .out, .host, .cox, .hatches] s x7 := Upd.ite (Upd.after modHatch_upd rfl .refl) .refl
  clear_value x7
  have hx8 : Upd [.regs, .out, .host, .cox, .hatches] s x8 := by
    unfold x8
    split
    all_goals exact Upd.after bump_upd rfl <| by with_reducible assumption
  clear_value x8
  exact Upd.after raise_upd rfl <| by with_reducible assumption

theorem ringWord_upd {s : State} {h : Hatch} {p : Packet} {i : Nat} :
    Upd [.regs, .out, .host, .stackCtl, .frames, .attic, .cox, .gallery] s (State.ringWord s h p i).2 := by
  unfold State.ringWord
  exact Upd.after readBytes_upd rfl .refl

theorem crsByMode_upd {s : State} :
    Upd [.regs] s (State.crsByMode s) := by
  unfold State.crsByMode
  extract_lets x4 x5 x6
  clear_value x4
  clear_value x5
  clear_value x6
  exact Upd.ite .refl (Upd.after wr_upd rfl .refl)

theorem clearId_upd {s : State} :
    Upd [.regs] s (State.clearId s) := by
  unfold State.clearId
  exact Upd.after crsByMode_upd rfl <| Upd.after wrs_upd rfl .refl

theorem modCourse_upd {s : State} {f : Course → Course} :
    Upd [.course] s (State.modCourse s f) := by
  unfold State.modCourse
  refine Upd.course ?_ rfl
  exact .refl

theorem modLink_upd {s : State} {westPort : Bool} {f : CLink → CLink} :
    Upd [.course] s (State.modLink s westPort f) := by
  unfold State.modLink
  exact Upd.after modCourse_upd rfl .refl

theorem sendFlit_upd {s : State} {w : Bool} {typ : Nat} {payload : List Byte} :
    Upd [.out, .course] s (State.sendFlit s w typ payload) := by
  unfold State.sendFlit
  extract_lets x7 x8 x9
  clear_value x7
  clear_value x8
  clear_value x9
  exact Upd.after emit_upd rfl <| Upd.after modLink_upd rfl .refl

theorem sendIdle_upd {s : State} {w : Bool} :
    Upd [.out, .course] s (State.sendIdle s w) := by
  unfold State.sendIdle
  exact Upd.ite (Upd.after sendFlit_upd rfl .refl) .refl

theorem freeBuffers_upd {s : State} {w : Bool} {n : Nat} :
    Upd [.out, .course] s (State.freeBuffers s w n) := by
  unfold State.freeBuffers
  extract_lets x4
  clear_value x4
  exact Upd.ite .refl (Upd.after sendIdle_upd rfl <| Upd.after modLink_upd rfl .refl)

theorem pump_upd {s : State} {w drain : Bool} {x3 : Nat} :
    Upd [.out, .course] s (State.pump s w drain x3) := by
  unfold State.pump
  extract_lets x5
  clear_value x5
  split
  · exact .refl
  · split
    · exact .refl
    · extract_lets x14
      have hx14 : Upd [.out, .course] s x14 := Upd.after sendFlit_upd rfl <| Upd.after modLink_upd rfl .refl
      clear_value x14
      exact Upd.ite (Upd.after pump_upd rfl <| Upd.ite (Upd.after freeBuffers_upd rfl <| by with_reducible
        assumption) (by with_reducible assumption)) .refl

theorem pumpAll_upd {s : State} {w : Bool} :
    Upd [.out, .course] s (State.pumpAll s w) := by
  unfold State.pumpAll
  exact Upd.after pump_upd rfl .refl

theorem putSeg_upd {s : State} {thru : Bool} {g : Segment} :
    Upd [.out, .course] s (State.putSeg s thru g) := by
  unfold State.putSeg
  exact Upd.after pumpAll_upd rfl <| Upd.after emit_upd rfl <| Upd.after modLink_upd rfl .refl

theorem sendSeg_upd {s : State} {g : Segment} :
    Upd [.out, .course] s (State.sendSeg s g) := by
  unfold State.sendSeg
  exact Upd.after putSeg_upd rfl .refl

theorem sendCtl_upd {s : State} {typ : Nat} {ringB : Bool} {payload : List Nat} :
    Upd [.out, .course] s (State.sendCtl s typ ringB payload) := by
  unfold State.sendCtl
  exact Upd.after sendSeg_upd rfl <| Upd.after emit_upd rfl .refl

theorem token_upd {s : State} {ringB : Bool} {counter serial : Nat} {taken : List Nat} :
    Upd [.out, .course] s (State.token s ringB counter serial taken) := by
  unfold State.token
  exact Upd.after sendCtl_upd rfl .refl

theorem enumerate_upd {s : State} :
    Upd [.regs, .out, .course] s (State.enumerate s) := by
  unfold State.enumerate
  extract_lets x3 x4
  have hx3 : Upd [.regs, .out, .course] s x3 := Upd.after wrs_upd rfl .refl
  clear_value x3
  clear_value x4
  exact Upd.after token_upd rfl <| Upd.after modCourse_upd rfl <| by with_reducible assumption

theorem crsFail_upd {s : State} {code dst crew heat : Nat} :
    Upd [.regs, .out, .host, .cox] s (State.crsFail s code dst crew heat) := by
  unfold State.crsFail
  exact Upd.after raise_upd rfl <| Upd.after wrs_upd rfl <| Upd.after step1_upd rfl <| Upd.after step1_upd rfl .refl

theorem dropOut_upd {s : State} {tag : Nat} :
    Upd [.course] s (State.dropOut s tag) := by
  unfold State.dropOut
  exact Upd.after modCourse_upd rfl .refl

theorem onReply_upd {s : State} {g : Segment} :
    Upd [.regs, .out, .host, .cox, .course] s (State.onReply s g) := by
  unfold State.onReply
  split
  · exact Upd.after bump_upd rfl .refl
  · exact Upd.ite (Upd.after dropOut_upd rfl .refl) (Upd.ite (Upd.after crsFail_upd rfl <| Upd.after dropOut_upd
      rfl .refl) (Upd.after modCourse_upd rfl .refl))

theorem reply_upd {s : State} {g : Segment} {typ code : Nat} :
    Upd [.regs, .out, .host, .cox, .course] s (State.reply s g typ code) := by
  unfold State.reply
  extract_lets x5
  clear_value x5
  refine Upd.ite ?_ ?_
  · exact Upd.after onReply_upd rfl .refl
  · split
    · exact Upd.after bump_upd rfl .refl
    · split
      · exact Upd.after sendSeg_upd rfl .refl
      · exact Upd.after bump_upd rfl .refl

theorem dropIn_upd {s : State} {src tag : Nat} :
    Upd [.course] s (State.dropIn s src tag) := by
  unfold State.dropIn
  exact Upd.after modCourse_upd rfl .refl

theorem present_upd {s : State} {m : InMsg} :
    Upd [.regs, .out, .security, .host, .mem, .bad, .stackCtl, .frames, .attic, .cox, .hatches, .gallery, .course] s
      (State.present s m) := by
  unfold State.present
  extract_lets x6 x7 x8 x9
  clear_value x6
  clear_value x7
  clear_value x8
  have hx9 : Upd [.regs, .out, .security, .host, .mem, .bad, .stackCtl, .frames, .attic, .cox, .hatches, .gallery,
    .course] s x9 := Upd.after dropIn_upd rfl .refl
  clear_value x9
  refine Upd.ite ?_ ?_
  · exact Upd.ite (Upd.after reply_upd rfl <| Upd.after toEgress_upd rfl <| by with_reducible assumption)
      (Upd.after reply_upd rfl <| by with_reducible assumption)
  · extract_lets
    split
    · exact Upd.after reply_upd rfl <| Upd.after admitted_upd rfl <| by with_reducible assumption
    · exact Upd.after freezePeer_upd rfl <| by with_reducible assumption
    · extract_lets x13
      clear_value x13
      exact Upd.ite (Upd.after refuse_upd rfl .refl) (Upd.after reply_upd rfl <| Upd.after refuse_upd rfl <| by
        with_reducible assumption)

theorem arrive_upd {s : State} {g : Segment} {standby : Bool} :
    Upd [.regs, .out, .security, .host, .mem, .bad, .stackCtl, .frames, .attic, .cox, .hatches, .gallery, .course] s
      (State.arrive s g standby) := by
  unfold State.arrive
  extract_lets x8 x9 x10 x11 x12
  clear_value x8
  clear_value x9
  clear_value x10
  clear_value x11
  have hx12 : Upd [.regs, .out, .security, .host, .mem, .bad, .stackCtl, .frames, .attic, .cox, .hatches, .gallery,
    .course] s x12 := Upd.after modCourse_upd rfl <| Upd.after dropIn_upd rfl .refl
  clear_value x12
  refine Upd.ite ?_ ?_
  · exact .refl
  · extract_lets
    refine Upd.ite ?_ ?_
    · exact Upd.after bump_upd rfl .refl
    · extract_lets
      refine Upd.ite ?_ ?_
      · exact Upd.ite (Upd.after reply_upd rfl .refl) (Upd.ite (Upd.after reply_upd rfl .refl) (Upd.ite (Upd.after
          reply_upd rfl .refl) (Upd.ite (Upd.after present_upd rfl <| by with_reducible assumption) (by with_reducible
          assumption))))
      · extract_lets
        split
        · exact .refl
        · extract_lets x16 x17
          clear_value x16
          have hx17 : Upd [.regs, .out, .security, .host, .mem, .bad, .stackCtl, .frames, .attic, .cox, .hatches,
            .gallery, .course] s x17 := Upd.after modCourse_upd rfl .refl
          clear_value x17
          exact Upd.ite .refl (Upd.ite (Upd.after present_upd rfl <| by with_reducible assumption) (by
            with_reducible assumption))

theorem emitMsg_upd {s : State} {m : OutMsg} :
    Upd [.regs, .out, .security, .host, .mem, .bad, .stackCtl, .frames, .attic, .cox, .hatches, .gallery, .course] s
      (State.emitMsg s m) := by
  unfold State.emitMsg
  extract_lets x3
  clear_value x3
  exact Upd.ite (Upd.foldl (fun t x ht => Upd.after arrive_upd rfl <| by with_reducible assumption) _ .refl)
    (Upd.foldl (fun t x ht => Upd.after sendSeg_upd rfl <| by with_reducible assumption) _ .refl)

theorem ringTake_upd {s : State} {dst rhatch : Nat} {world : Bool} {crew cheat len : Nat} {bytes : List Byte} :
    Upd [.regs, .out, .draws, .security, .host, .mem, .bad, .stackCtl, .frames, .attic, .cox, .hatches, .gallery,
      .course] s (State.ringTake s dst rhatch world crew cheat len bytes) := by
  unfold State.ringTake
  extract_lets x9
  have hx9 : Upd [.regs, .out, .draws, .security, .host, .mem, .bad, .stackCtl, .frames, .attic, .cox, .hatches,
    .gallery, .course] s x9 := Upd.after drew_upd rfl .refl
  clear_value x9
  split
  · exact Upd.after crsFail_upd rfl .refl
  · exact .refl
  · extract_lets x22 x23
    clear_value x22
    clear_value x23
    exact Upd.after emitMsg_upd rfl <| Upd.after modCourse_upd rfl <| Upd.after drew_upd rfl <| by with_reducible
      assumption

theorem broadcast_upd {s : State} {typ : Nat} {payload : List Nat} :
    Upd [.out, .course] s (State.broadcast s typ payload) := by
  unfold State.broadcast
  exact Upd.after sendCtl_upd rfl <| Upd.after sendCtl_upd rfl .refl

theorem setLink_upd {s : State} {westPort : Bool} {st lanes : Nat} :
    Upd [.regs] s (State.setLink s westPort st lanes) := by
  unfold State.setLink
  exact Upd.ite (Upd.after wrs_upd rfl .refl) (Upd.after wrs_upd rfl .refl)

theorem openPorts_upd {s : State} :
    Upd [.regs] s (State.openPorts s) := by
  unfold State.openPorts
  exact Upd.after setLink_upd rfl <| Upd.after setLink_upd rfl <| Upd.after wr_upd rfl .refl

theorem crsReqEnd_upd {s : State} {ok : Bool} :
    Upd [.regs, .out, .host, .cox] s (State.crsReqEnd s ok) := by
  unfold State.crsReqEnd
  exact Upd.after raise_upd rfl <| Upd.after wr_upd rfl .refl

theorem linkTrain_upd {s : State} {westPort : Bool} :
    Upd [.regs] s (State.linkTrain s westPort) := by
  unfold State.linkTrain
  exact Upd.after bump_upd rfl <| Upd.after setLink_upd rfl .refl

theorem chooseAll_upd {s : State} :
    Upd [.course] s (State.chooseAll s) := by
  unfold State.chooseAll
  exact Upd.after modCourse_upd rfl .refl

theorem putDown_upd {s : State} {l : List Nat} :
    Upd [.regs, .course] s (State.putDown s l) := by
  unfold State.putDown
  exact Upd.after wr_upd rfl <| Upd.after modCourse_upd rfl .refl

theorem setDown_upd {s : State} {l : List Nat} :
    Upd [.regs, .out, .host, .cox, .course] s (State.setDown s l) := by
  unfold State.setDown
  exact Upd.after raise_upd rfl <| Upd.after chooseAll_upd rfl <| Upd.after putDown_upd rfl .refl

theorem handoffLate_upd {s : State} {n : Nat} {bs : List Byte} :
    Upd [.regs, .out, .draws, .security, .host, .mem, .bad, .stackCtl, .frames, .attic, .cox, .hatches, .gallery,
      .course] s (State.handoffLate s n bs) := by
  unfold State.handoffLate
  extract_lets x4
  clear_value x4
  split
  · exact Upd.ite .refl (Upd.ite (Upd.after ringTake_upd rfl <| Upd.after setHatch_upd rfl .refl) (Upd.after
      setHatch_upd rfl .refl))
  · exact .refl

theorem packetWords_upd {s : State} {h : Hatch} {p : Packet} :
    Upd [.regs, .out, .host, .stackCtl, .frames, .attic, .cox, .gallery] s (State.packetWords s h p).2 := by
  unfold State.packetWords
  refine Upd.foldl_snd (fun b x hb => ?_) _ ?_
  · extract_lets x7
    have hx7 : Upd [.regs, .out, .host, .stackCtl, .frames, .attic, .cox, .gallery] s x7.2 := Upd.after ringWord_upd
      rfl <| by with_reducible assumption
    clear_value x7
    exact by with_reducible assumption
  · exact .refl

theorem handoff_upd {s : State} {n : Nat} :
    Upd [.regs, .out, .draws, .security, .host, .mem, .bad, .stackCtl, .frames, .attic, .cox, .hatches, .gallery,
      .course] s (State.handoff s n) := by
  unfold State.handoff
  extract_lets x5 x6 x7
  have hx5 : Upd [.regs, .out, .draws, .security, .host, .mem, .bad, .stackCtl, .frames, .attic, .cox, .hatches,
    .gallery, .course] s x5 := Upd.after settle_upd rfl .refl
  clear_value x5
  clear_value x6
  clear_value x7
  split
  · exact by with_reducible assumption
  · refine Upd.ite ?_ ?_
    · exact by with_reducible assumption
    · split
      · rename_i t16 e16
        have ht16 : Upd [.regs, .out, .draws, .security, .host, .mem, .bad, .stackCtl, .frames, .attic, .cox,
          .hatches, .gallery, .course] s t16 := Upd.of_pair e16 <| Upd.after packetWords_upd rfl <| by with_reducible
          assumption
        exact Upd.after crsFail_upd rfl <| Upd.after setHatch_upd rfl <| by with_reducible assumption
      · rename_i t17 e17
        have ht17 : Upd [.regs, .out, .draws, .security, .host, .mem, .bad, .stackCtl, .frames, .attic, .cox,
          .hatches, .gallery, .course] s t17 := Upd.of_pair e17 <| Upd.after packetWords_upd rfl <| by with_reducible
          assumption
        exact Upd.ite (Upd.after setHatch_upd rfl <| Upd.after toEgress_upd rfl <| by with_reducible assumption)
          (Upd.after ringTake_upd rfl <| Upd.after setHatch_upd rfl <| by with_reducible assumption)

theorem setSize_upd {s : State} {n : Nat} :
    Upd [.regs, .out, .host, .cox] s (State.setSize s n) := by
  unfold State.setSize
  exact Upd.ite .refl (Upd.after raise_upd rfl <| Upd.after wr_upd rfl .refl)

theorem setMap_upd {s : State} {l : List Member} :
    Upd [.regs, .out, .host, .cox, .course] s (State.setMap s l) := by
  unfold State.setMap
  extract_lets x5 x6 x7
  clear_value x5
  clear_value x6
  have hx7 : Upd [.regs, .out, .host, .cox, .course] s x7 := Upd.after setSize_upd rfl <| Upd.after putDown_upd rfl
    <| Upd.after modCourse_upd rfl .refl
  clear_value x7
  exact Upd.after modCourse_upd rfl <| by with_reducible assumption

theorem clearRing_upd {s : State} :
    Upd [.regs, .out, .host, .cox, .course] s (State.clearRing s) := by
  unfold State.clearRing
  exact Upd.after clearId_upd rfl <| Upd.after setMap_upd rfl <| Upd.after broadcast_upd rfl .refl

theorem holdId_upd {s : State} {m : Member} :
    Upd [.course] s (State.holdId s m) := by
  unfold State.holdId
  exact Upd.after modCourse_upd rfl .refl

theorem memberGone_upd {s : State} {id : Nat} :
    Upd [.regs, .out, .host, .cox, .course] s (State.memberGone s id) := by
  unfold State.memberGone
  split
  · exact .refl
  · extract_lets x9 x10
    clear_value x9
    have hx10 : Upd [.regs, .out, .host, .cox, .course] s x10 := Upd.after holdId_upd rfl <| Upd.after setMap_upd
      rfl .refl
    clear_value x10
    exact Upd.ite (Upd.after broadcast_upd rfl <| by with_reducible assumption) (by with_reducible assumption)

theorem mapIn_upd {s : State} {l : List Member} :
    Upd [.regs, .out, .host, .cox, .course] s (State.mapIn s l) := by
  unfold State.mapIn
  extract_lets x9 x10 x11 x12 x13 x14 x15
  clear_value x9
  have hx10 : Upd [.regs, .out, .host, .cox, .course] s x10 := Upd.foldl (fun t x ht => Upd.after holdId_upd rfl <|
    by with_reducible assumption) _ .refl
  clear_value x10
  clear_value x11
  have hx12 : Upd [.regs, .out, .host, .cox, .course] s x12 := Upd.after setMap_upd rfl <| Upd.after modCourse_upd
    rfl <| by with_reducible assumption
  clear_value x12
  clear_value x13
  clear_value x14
  have hx15 : Upd [.regs, .out, .host, .cox, .course] s x15 := Upd.after clearId_upd rfl <| by with_reducible
    assumption
  clear_value x15
  refine Upd.ite ?_ ?_
  · exact .refl
  · extract_lets
    refine Upd.ite ?_ ?_
    · exact Upd.after clearId_upd rfl <| by with_reducible assumption
    · extract_lets
      split
      · extract_lets x17 x18 x19
        have hx17 : Upd [.regs, .out, .host, .cox, .course] s x17 := Upd.after wrs_upd rfl <| by with_reducible
          assumption
        clear_value x17
        have hx18 : Upd [.regs, .out, .host, .cox, .course] s x18 := Upd.ite (by with_reducible assumption)
          (Upd.after chooseAll_upd rfl <| by with_reducible assumption)
        clear_value x18
        have hx19 : Upd [.regs, .out, .host, .cox, .course] s x19 := Upd.after crsByMode_upd rfl <| Upd.after wr_upd
          rfl <| by with_reducible assumption
        clear_value x19
        exact Upd.ite (Upd.after crsReqEnd_upd rfl <| Upd.after modCourse_upd rfl <| by with_reducible assumption)
          (by with_reducible assumption)
      · exact Upd.ite (Upd.after pgErr_upd rfl <| by with_reducible assumption) (Upd.after broadcast_upd rfl <| by
          with_reducible assumption)

theorem linkUp_upd {s : State} {westPort : Bool} {lanes serial : Nat} :
    Upd [.regs, .out, .host, .cox, .course] s (State.linkUp s westPort lanes serial) := by
  unfold State.linkUp
  extract_lets x12 x13 x14 x15 x16 x17 x18 x19
  clear_value x12
  clear_value x13
  clear_value x14
  clear_value x15
  have hx16 : Upd [.regs, .out, .host, .cox, .course] s x16 := Upd.after modLink_upd rfl <| Upd.after setLink_upd
    rfl .refl
  clear_value x16
  have hx17 : Upd [.regs, .out, .host, .cox, .course] s x17 := by
    unfold x17
    refine Upd.ite ?_ ?_
    · exact Upd.foldl (fun t x ht => Upd.after emit_upd rfl <| by with_reducible assumption) _ (by with_reducible
        assumption)
    · refine Upd.ite ?_ ?_
      · split
        · exact Upd.after memberGone_upd rfl <| Upd.after broadcast_upd rfl <| by with_reducible assumption
        · exact by with_reducible assumption
      · exact by with_reducible assumption
  clear_value x17
  have hx18 : Upd [.regs, .out, .host, .cox, .course] s x18 := Upd.after pumpAll_upd rfl <| Upd.ite (by
    with_reducible assumption) (Upd.after sendIdle_upd rfl <| by with_reducible assumption)
  clear_value x18
  have hx19 : Upd [.regs, .out, .host, .cox, .course] s x19 := Upd.ite (Upd.after setDown_upd rfl <| Upd.after
    broadcast_upd rfl <| by with_reducible assumption) (by with_reducible assumption)
  clear_value x19
  exact Upd.ite .refl (Upd.ite (Upd.after crsByMode_upd rfl <| Upd.after wr_upd rfl <| by with_reducible assumption)
    (by with_reducible assumption))

theorem enumDone_upd {s : State} {size : Nat} {taken : List Nat} :
    Upd [.regs, .out, .host, .cox, .course] s (State.enumDone s size taken) := by
  unfold State.enumDone
  extract_lets x6 x7 x8
  clear_value x6
  clear_value x7
  have hx8 : Upd [.regs, .out, .host, .cox, .course] s x8 := Upd.after chooseAll_upd rfl <| Upd.after setMap_upd rfl
    <| Upd.after modCourse_upd rfl .refl
  clear_value x8
  exact Upd.after crsByMode_upd rfl <| Upd.after broadcast_upd rfl <| Upd.after wr_upd rfl <| by with_reducible
    assumption

theorem tokenOn_upd {s : State} {ringB : Bool} {counter serial : Nat} {taken : List Nat} :
    Upd [.out, .course] s (State.tokenOn s ringB counter serial taken) := by
  unfold State.tokenOn
  exact Upd.after token_upd rfl .refl

theorem enumIn_upd {s : State} {counter serial dist : Nat} {ringB : Bool} {taken : List Nat} :
    Upd [.regs, .out, .host, .cox, .course] s (State.enumIn s counter serial dist ringB taken) := by
  unfold State.enumIn
  extract_lets x7
  have hx7 : Upd [.regs, .out, .host, .cox, .course] s x7 := Upd.after modCourse_upd rfl <| Upd.after wrs_upd rfl
    .refl
  clear_value x7
  exact Upd.ite .refl (Upd.ite (Upd.ite (Upd.ite .refl (Upd.ite (Upd.after token_upd rfl <| Upd.after modCourse_upd
    rfl .refl) (Upd.after enumDone_upd rfl .refl))) (Upd.after pgErr_upd rfl <| Upd.after modCourse_upd rfl <|
    Upd.after clearRing_upd rfl .refl)) (Upd.ite (Upd.after tokenOn_upd rfl .refl) (Upd.ite (Upd.after tokenOn_upd rfl
    <| Upd.after pgErr_upd rfl .refl) (Upd.after tokenOn_upd rfl <| by with_reducible assumption))))

theorem linksLost_upd {s : State} :
    Upd [.regs] s (State.linksLost s) := by
  unfold State.linksLost
  exact Upd.foldl (fun t x ht => Upd.ite (Upd.after linkTrain_upd rfl <| by with_reducible assumption) (by
    with_reducible assumption)) _ .refl

theorem becomeBow_upd {s : State} :
    Upd [.regs, .out, .host, .cox, .course] s (State.becomeBow s) := by
  unfold State.becomeBow
  extract_lets x3 x4
  clear_value x3
  clear_value x4
  exact Upd.after wr_upd rfl <| Upd.after setMap_upd rfl .refl

theorem arriveAny_upd {s : State} {g : Segment} {standby : Bool} :
    Upd [.regs, .out, .security, .host, .mem, .bad, .stackCtl, .frames, .attic, .cox, .hatches, .gallery, .course] s
      (State.arriveAny s g standby) := by
  unfold State.arriveAny
  extract_lets x4
  clear_value x4
  exact Upd.ite (Upd.after arrive_upd rfl .refl) (Upd.ite (Upd.after onReply_upd rfl .refl) (Upd.ite .refl
    (Upd.after bump_upd rfl .refl)))

theorem joinIn_upd {s : State} {serial pos : Nat} :
    Upd [.regs, .out, .draws, .host, .cox, .course] s (State.joinIn s serial pos) := by
  unfold State.joinIn
  extract_lets x5 x6
  clear_value x5
  clear_value x6
  refine Upd.ite ?_ ?_
  · exact .refl
  · extract_lets
    refine Upd.ite ?_ ?_
    · exact Upd.after broadcast_upd rfl .refl
    · extract_lets
      refine Upd.ite ?_ ?_
      · exact .refl
      · extract_lets
        split
        · exact .refl
        · extract_lets x10 x11 x12
          have hx10 : Upd [.regs, .out, .draws, .host, .cox, .course] s x10 := Upd.after modCourse_upd rfl <|
            Upd.after drew_upd rfl .refl
          clear_value x10
          clear_value x11
          have hx12 : Upd [.regs, .out, .draws, .host, .cox, .course] s x12 := Upd.after setMap_upd rfl <| by
            with_reducible assumption
          clear_value x12
          exact Upd.after broadcast_upd rfl <| by with_reducible assumption

theorem holdOver_upd {s : State} {id : Nat} {bar : Bool} :
    Upd [.course] s (State.holdOver s id bar) := by
  unfold State.holdOver
  exact Upd.after modCourse_upd rfl .refl

theorem closePorts_upd {s : State} :
    Upd [.regs, .out, .host, .cox, .course] s (State.closePorts s) := by
  unfold State.closePorts
  exact Upd.after wrs_upd rfl <| Upd.after setMap_upd rfl <| Upd.after setLink_upd rfl <| Upd.after setLink_upd rfl
    <| Upd.after wr_upd rfl .refl

theorem modChain_upd {s : State} {f : Chain → Chain} :
    Upd [.chain] s (State.modChain s f) := by
  unfold State.modChain
  refine Upd.chain ?_ rfl
  exact .refl

theorem feedEnd_upd {s : State} :
    Upd [.chain] s (State.feedEnd s) := by
  unfold State.feedEnd
  exact Upd.after modChain_upd rfl .refl

theorem feedOne_upd {s : State} :
    Upd [.chain] s (State.feedOne s) := by
  unfold State.feedOne
  split
  · exact .refl
  · extract_lets x9
    have hx9 : ∀ a0 a1 a2 a3, Upd [.chain] s a0 → Upd [.chain] s (x9 a0 a1 a2 a3) := by
      intros
      unfold x9
      extract_lets x17 x18 x19
      clear_value x17
      clear_value x18
      clear_value x19
      exact Upd.after modChain_upd rfl <| by with_reducible assumption
    clear_value x9
    refine Upd.ite ?_ ?_
    · exact Upd.ite (Upd.after feedEnd_upd rfl .refl) (hx9 _ _ _ _ .refl)
    · extract_lets
      split
      · exact Upd.after feedEnd_upd rfl .refl
      · extract_lets x16
        clear_value x16
        exact Upd.ite (Upd.after feedEnd_upd rfl .refl) (hx9 _ _ _ _ <| Upd.after modChain_upd rfl .refl)

theorem chainSend_upd {s : State} {p : ChainPkt} :
    Upd [.regs, .out, .draws, .security, .host, .mem, .bad, .stackCtl, .frames, .attic, .chain, .cox, .hatches,
      .gallery, .course] s (State.chainSend s p) := by
  unfold State.chainSend
  extract_lets x5 x6 x7
  clear_value x5
  have hx6 : ∀ a0, Upd [.regs, .out, .draws, .security, .host, .mem, .bad, .stackCtl, .frames, .attic, .chain, .cox,
    .hatches, .gallery, .course] s a0 → Upd [.regs, .out, .draws, .security, .host, .mem, .bad, .stackCtl, .frames,
    .attic, .chain, .cox, .hatches, .gallery, .course] s (x6 a0) := by
    intros
    exact Upd.after modChain_upd rfl <| by with_reducible assumption
  clear_value x6
  clear_value x7
  split
  · exact hx6 _ .refl
  · extract_lets x12
    have hx12 : Upd [.regs, .out, .draws, .security, .host, .mem, .bad, .stackCtl, .frames, .attic, .chain, .cox,
      .hatches, .gallery, .course] s x12 := Upd.after ringTake_upd rfl .refl
    clear_value x12
    refine Upd.ite ?_ ?_
    · exact hx6 _ .refl
    · split
      · exact Upd.ite (Upd.after modChain_upd rfl <| by with_reducible assumption) (hx6 _ <| by with_reducible
          assumption)
      · exact hx6 _ <| by with_reducible assumption

theorem chainPump_upd {s : State} :
    Upd [.regs, .out, .draws, .security, .host, .mem, .bad, .stackCtl, .frames, .attic, .chain, .cox, .hatches,
      .gallery, .course] s (State.chainPump s) := by
  unfold State.chainPump
  extract_lets x2
  have hx2 : Upd [.regs, .out, .draws, .security, .host, .mem, .bad, .stackCtl, .frames, .attic, .chain, .cox,
    .hatches, .gallery, .course] s x2 := Upd.ite (Upd.after feedOne_upd rfl .refl) .refl
  clear_value x2
  refine Upd.ite ?_ ?_
  · exact .refl
  · split
    · exact by with_reducible assumption
    · exact Upd.after chainSend_upd rfl <| Upd.after modChain_upd rfl <| by with_reducible assumption

theorem chainStart_upd {s : State} :
    Upd [.regs, .out, .draws, .security, .host, .mem, .bad, .stackCtl, .frames, .attic, .chain, .cox, .hatches,
      .gallery, .course] s (State.chainStart s) := by
  unfold State.chainStart
  exact Upd.ite .refl (Upd.ite (Upd.after modChain_upd rfl .refl) (Upd.after chainPump_upd rfl <| Upd.after
    modChain_upd rfl .refl))

theorem openChain_upd {s : State} :
    Upd [.regs, .draws, .alloc, .hatches] s (State.openChain s) := by
  unfold State.openChain
  extract_lets x2
  clear_value x2
  refine Upd.ite ?_ ?_
  · exact .refl
  · split
    · exact .refl
    · rename_i t8 e8
      have ht8 : Upd [.regs, .draws, .alloc, .hatches] s t8 := Upd.after (granPick_upd _ _ e8) rfl .refl
      exact Upd.after wr_upd rfl <| Upd.after setHatch_upd rfl <| by with_reducible assumption

theorem chainClose_upd {s : State} :
    Upd [.regs, .alloc, .chain, .hatches] s (State.chainClose s) := by
  unfold State.chainClose
  extract_lets x2
  have hx2 : Upd [.regs, .alloc, .chain, .hatches] s x2 := Upd.after modChain_upd rfl .refl
  clear_value x2
  exact Upd.ite (Upd.after wr_upd rfl <| Upd.after setHatch_upd rfl <| Upd.after granDel_upd rfl <| by
    with_reducible assumption) (by with_reducible assumption)

theorem chainAccepted_upd {s : State} {tag : Nat} :
    Upd [.regs, .out, .draws, .security, .host, .mem, .bad, .stackCtl, .frames, .alloc, .attic, .chain, .cox,
      .hatches, .gallery, .course] s (State.chainAccepted s tag) := by
  unfold State.chainAccepted
  extract_lets x3
  have hx3 : Upd [.regs, .out, .draws, .security, .host, .mem, .bad, .stackCtl, .frames, .alloc, .attic, .chain,
    .cox, .hatches, .gallery, .course] s x3 := Upd.after modChain_upd rfl .refl
  clear_value x3
  split
  · exact Upd.ite .refl (Upd.ite (Upd.after chainClose_upd rfl <| by with_reducible assumption) (Upd.after
      chainPump_upd rfl <| by with_reducible assumption))
  · exact .refl

theorem chainRefused_upd {s : State} {tag : Nat} :
    Upd [.chain] s (State.chainRefused s tag) := by
  unfold State.chainRefused
  split
  · exact Upd.ite (Upd.after modChain_upd rfl .refl) .refl
  · exact .refl

theorem chainAgain_upd {s : State} :
    Upd [.regs, .out, .draws, .security, .host, .mem, .bad, .stackCtl, .frames, .attic, .chain, .cox, .hatches,
      .gallery, .course] s (State.chainAgain s) := by
  unfold State.chainAgain
  split
  · exact Upd.ite (Upd.after chainSend_upd rfl <| Upd.after modChain_upd rfl .refl) .refl
  · exact .refl

theorem setLive_upd {s : State} {room off : Nat} {bs : List Byte} :
    Upd [.fabric] s (State.setLive s room off bs) := by
  unfold State.setLive
  exact Upd.fabric .refl rfl (fun c => ⟨c.mem, Memory.wf_putBytes c.fabric _ _, c.regs, c.crews, c.hatches⟩)

theorem keepRef_upd {s : State} {addr : Nat} :
    Upd [.refs] s (State.keepRef s addr) := by
  unfold State.keepRef
  extract_lets x3
  clear_value x3
  refine Upd.refs ?_ rfl
  exact .refl

theorem putPlane_upd {s : State} {p1 : Bool} {room n : Nat} {t : Tbl Byte} :
    Upd [.fabric, .refs] s (State.putPlane s p1 room n t) := by
  unfold State.putPlane
  exact Upd.foldl (fun t x ht => Upd.after keepRef_upd rfl <| by with_reducible assumption) _ (Upd.fabric .refl rfl
    (fun c => ⟨c.mem, Memory.wf_splice c.fabric _ _ _, c.regs, c.crews, c.hatches⟩))

theorem clearWires_upd {s : State} {rooms : List Nat} :
    Upd [.sigs, .blocks, .lines] s (State.clearWires s rooms) := by
  unfold State.clearWires
  refine Upd.sigs_blocks_lines ?_ rfl
  exact .refl

theorem putState_upd {s : State} {room : Nat} {t : Tbl Byte} :
    Upd [.fabric] s (State.putState s room t) := by
  unfold State.putState
  exact Upd.fabric .refl rfl (fun c => ⟨c.mem, Memory.wf_splice c.fabric _ _ _, c.regs, c.crews, c.hatches⟩)

theorem enterState_upd {s : State} {r : Nat} {t : Tbl Byte} :
    Upd [.fabric, .sigs, .blocks, .lines] s (State.enterState s r t) := by
  unfold State.enterState
  extract_lets x4
  clear_value x4
  exact Upd.after clearWires_upd rfl <| Upd.after putState_upd rfl .refl

theorem roscCtrl_upd {s : State} {wing v : Nat} :
    Upd [.regs] s (State.roscCtrl s wing v) := by
  unfold State.roscCtrl
  extract_lets x6 x7 x8
  clear_value x6
  clear_value x7
  have hx8 : Upd [.regs] s x8 := Upd.after wrs_upd rfl .refl
  clear_value x8
  exact Upd.foldl (fun t x ht => Upd.ite (by with_reducible assumption) (Upd.after wr_upd rfl <| by with_reducible
    assumption)) _ (by with_reducible assumption)

theorem blankRoom_upd {s : State} {room : Nat} :
    Upd [.fabric, .refs, .sigs, .blocks, .lines] s (State.blankRoom s room) := by
  unfold State.blankRoom
  exact Upd.after clearWires_upd rfl <| Upd.after putState_upd rfl <| Upd.after putPlane_upd rfl <| Upd.after
    putPlane_upd rfl .refl

theorem setCupWord_upd {s : State} {r cup w v : Nat} :
    Upd [.fabric] s (State.setCupWord s r cup w v) := by
  unfold State.setCupWord
  extract_lets x8 x9 x10
  clear_value x8
  clear_value x9
  clear_value x10
  exact Upd.after setLive_upd rfl .refl

theorem cupOne_upd {s : State} {r cup : Nat} {q : CupReq} :
    Upd [.fabric] s (State.cupOne s r cup q).2 := by
  unfold State.cupOne
  split
  extract_lets x12
  clear_value x12
  refine Upd.ite_snd ?_ ?_
  · dsimp -zeta only
    exact Upd.after setCupWord_upd rfl .refl
  · exact .refl

theorem setOar_upd {s : State} {r n : Nat} {o : Oar} :
    Upd [.fabric] s (State.setOar s r n o) := by
  unfold State.setOar
  exact Upd.after setLive_upd rfl .refl

theorem oarOne_upd {s : State} {r n op : Nat} {t : OarTok} :
    Upd [.fabric] s (State.oarOne s r n op t).2 := by
  unfold State.oarOne
  extract_lets x6
  clear_value x6
  dsimp -zeta only
  exact Upd.after setOar_upd rfl .refl

theorem codeError_upd {s : State} {r : Nat} :
    Upd [.rooms] s (State.codeError s r) := by
  unfold State.codeError
  exact Upd.ite (Upd.after modRoom_upd rfl .refl) .refl

theorem setCellBits_upd {s : State} {r cell v : Nat} :
    Upd [.fabric] s (State.setCellBits s r cell v) := by
  unfold State.setCellBits
  extract_lets x6 x7
  clear_value x6
  clear_value x7
  exact Upd.after setLive_upd rfl .refl

theorem setCross_upd {s : State} {h : Half} {kind index : Nat} {x : Cross} :
    Upd [.cross] s (State.setCross s h kind index x) := by
  unfold State.setCross
  refine Upd.cross ?_ rfl
  exact .refl

theorem sideReset_upd {s : State} {h : Half} {kind index inFlight : Nat} :
    Upd [.cross] s (State.sideReset s h kind index inFlight) := by
  unfold State.sideReset
  extract_lets x7 x8
  clear_value x7
  clear_value x8
  exact Upd.ite .refl (Upd.after setCross_upd rfl .refl)

theorem sideDrop_upd {s : State} {h : Half} {kind index : Nat} :
    Upd [.draws, .cross] s (State.sideDrop s h kind index) := by
  unfold State.sideDrop
  exact Upd.after drew_upd rfl <| Upd.after sideReset_upd rfl .refl

theorem crossLose_upd {s : State} {h : Half} {kind index : Nat} :
    Upd [.regs, .cross] s (State.crossLose s h kind index) := by
  unfold State.crossLose
  extract_lets x5
  clear_value x5
  exact Upd.after pgErr_upd rfl <| Upd.after setCross_upd rfl .refl

theorem pulseFor_upd {s : State} {h : Half} {kind index id : Nat} :
    Upd [.regs, .cross] s (State.pulseFor s h kind index id) := by
  unfold State.pulseFor
  extract_lets x7 x8
  clear_value x7
  clear_value x8
  exact Upd.ite .refl (Upd.ite (Upd.after setCross_upd rfl .refl) (Upd.ite (Upd.after setCross_upd rfl .refl)
    (Upd.after crossLose_upd rfl .refl)))

theorem pulseIn_upd {s : State} {h : Half} {kind index : Nat} :
    Upd [.regs, .cross] s (State.pulseIn s h kind index) := by
  unfold State.pulseIn
  exact Upd.after pulseFor_upd rfl .refl

theorem linePulse_upd {s : State} {n : Nat} :
    Upd [.regs, .out, .cross, .host, .cox] s (State.linePulse s n) := by
  unfold State.linePulse
  extract_lets x3
  clear_value x3
  exact Upd.ite (Upd.after raise_upd rfl .refl) (Upd.after pulseIn_upd rfl .refl)

theorem crossFound_upd {s : State} {h : Half} {kind index : Nat} :
    Upd [.cross] s (State.crossFound s h kind index) := by
  unfold State.crossFound
  extract_lets x5
  clear_value x5
  exact Upd.ite (Upd.after setCross_upd rfl .refl) .refl

theorem pulseAway_upd {s : State} {h : Half} {kind index : Nat} :
    Upd [.cross] s (State.pulseAway s h kind index) := by
  unfold State.pulseAway
  extract_lets x5
  clear_value x5
  exact Upd.after setCross_upd rfl .refl

theorem resync_upd {s : State} {h : Half} {kind index : Nat} :
    Upd [.cross] s (State.resync s h kind index) := by
  unfold State.resync
  extract_lets x5
  clear_value x5
  exact Upd.ite .refl (Upd.after setCross_upd rfl .refl)

end Sys2Proof.Machine.State
end

