-- ==== Sys2Proof/Laws/FrameCrews.lean ====
section
/-! SUPPORT. What each operation may change, and that it keeps the canonical form: crews, the Steward, swaps, clocks, G2 and the modes.
One lemma for each operation; a lemma in `_hupd` is of an operation that takes the rest of a meaning. -/

namespace Sys2Proof.Machine.State

theorem setPorch_upd {s : State} {k : Nat} {p : Porch} :
    Upd [.porches] s (State.setPorch s k p) := by
  unfold State.setPorch
  refine Upd.porches ?_ rfl
  exact .refl

theorem porchReset_upd {s : State} {h : Half} {j : Nat} :
    Upd [.draws, .cross, .porches] s (State.porchReset s h j) := by
  unfold State.porchReset
  extract_lets x6 x7 x8
  clear_value x6
  have hx7 : Upd [.draws, .cross, .porches] s x7 := Upd.after sideReset_upd rfl .refl
  clear_value x7
  clear_value x8
  exact Upd.after sideDrop_upd rfl <| Upd.after setPorch_upd rfl <| by with_reducible assumption

theorem unparkPorches_upd {s : State} {c : Crew} :
    Upd [.porches] s (State.unparkPorches s c) := by
  unfold State.unparkPorches
  refine Upd.foldl (fun t x ht => ?_) _ ?_
  · extract_lets x6
    clear_value x6
    exact Upd.after setPorch_upd rfl <| by with_reducible assumption
  · exact .refl

theorem fabricReset_upd {s : State} {id : Nat} {c : Crew} :
    Upd [.draws, .cross, .porches] s (State.fabricReset s id c) := by
  unfold State.fabricReset
  extract_lets x4
  have hx4 : Upd [.draws, .cross, .porches] s x4 := Upd.foldl (fun t x ht => Upd.after porchReset_upd rfl <| by
    with_reducible assumption) _ .refl
  clear_value x4
  exact Upd.ite (Upd.after sideDrop_upd rfl <| by with_reducible assumption) (by with_reducible assumption)

theorem parkPorch_upd {s : State} {k : Nat} :
    Upd [.porches] s (State.parkPorch s k) := by
  unfold State.parkPorch
  extract_lets x3
  clear_value x3
  exact Upd.after setPorch_upd rfl .refl

theorem porchWr_upd {s : State} {k : Nat} {f : Fld} {v : Nat} :
    Upd [.regs] s (State.porchWr s k f v) := by
  unfold State.porchWr
  exact Upd.after wr_upd rfl .refl

theorem setAttached_upd {s : State} {h : Half} {b : Bool} :
    Upd [.regs, .out, .host, .cox] s (State.setAttached s h b) := by
  unfold State.setAttached
  exact Upd.ite .refl (Upd.after raise_upd rfl <| Upd.after wr_upd rfl .refl)

theorem detach_upd {s : State} {id : Nat} {c : Crew} :
    Upd [.regs, .out, .doorway, .porches, .host, .cox] s (State.detach s id c) := by
  unfold State.detach
  extract_lets x5 x6
  have hx5 : Upd [.regs, .out, .doorway, .porches, .host, .cox] s x5 := by
    unfold x5
    refine Upd.foldl (fun t x ht => ?_) _ ?_
    · extract_lets x10 x11
      have hx10 : Upd [.regs, .out, .doorway, .porches, .host, .cox] s x10 := Upd.after parkPorch_upd rfl <| by
        with_reducible assumption
      clear_value x10
      clear_value x11
      exact Upd.after porchWr_upd rfl <| Upd.after porchWr_upd rfl <| Upd.after setPorch_upd rfl <| by
        with_reducible assumption
    · exact .refl
  clear_value x5
  clear_value x6
  refine Upd.ite ?_ ?_
  · refine Upd.after setAttached_upd rfl <| Upd.doorway ?_ rfl
    exact by with_reducible assumption
  · exact by with_reducible assumption

theorem modWings_upd {s : State} {h : Half} {f : Wing → Wing} :
    Upd [.wings] s (State.modWings s h f) := by
  unfold State.modWings
  exact Upd.foldl (fun t x ht => Upd.after modWing_upd rfl <| by with_reducible assumption) _ .refl

theorem dropImage_upd {s : State} {id : Nat} :
    Upd [.rooms, .wings] s (State.dropImage s id) := by
  unfold State.dropImage
  extract_lets x3
  have hx3 : Upd [.rooms, .wings] s x3 := Upd.after modWings_upd rfl .refl
  clear_value x3
  exact Upd.after modRooms_upd rfl <| by with_reducible assumption

theorem dropTlb_upd {s : State} {id : Nat} :
    Upd [.wings] s (State.dropTlb s id) := by
  unfold State.dropTlb
  exact Upd.after modWings_upd rfl .refl

theorem parkPorches_upd {s : State} {c : Crew} :
    Upd [.porches] s (State.parkPorches s c) := by
  unfold State.parkPorches
  exact Upd.foldl (fun t x ht => Upd.after parkPorch_upd rfl <| by with_reducible assumption) _ .refl

theorem attach_upd {s : State} {id : Nat} {c : Crew} :
    Upd [.regs, .out, .doorway, .porches, .host, .cox] s (State.attach s id c) := by
  unfold State.attach
  extract_lets x8 x9 x10 x11 x12
  clear_value x8
  clear_value x9
  have hx10 : Upd [.regs, .out, .doorway, .porches, .host, .cox] s x10 := by
    unfold x10
    refine Upd.foldl (fun t x ht => ?_) _ ?_
    · extract_lets
      split
      extract_lets x16 x17
      clear_value x16
      clear_value x17
      exact Upd.after porchWr_upd rfl <| Upd.after setPorch_upd rfl <| by with_reducible assumption
    · exact .refl
  clear_value x10
  clear_value x11
  clear_value x12
  refine Upd.ite ?_ ?_
  · refine Upd.after setAttached_upd rfl <| Upd.doorway ?_ rfl
    exact by with_reducible assumption
  · exact by with_reducible assumption

theorem dropStaged_upd {s : State} {id : Nat} :
    Upd [.wings] s (State.dropStaged s id) := by
  unfold State.dropStaged
  exact Upd.after modWings_upd rfl .refl

theorem claimPorches_upd {s : State} {id : Nat} {c : Crew} :
    Upd [.regs, .porches] s (State.claimPorches s id c) := by
  unfold State.claimPorches
  refine Upd.foldl (fun t x ht => ?_) _ ?_
  · extract_lets x7
    clear_value x7
    exact Upd.after porchWr_upd rfl <| Upd.after setPorch_upd rfl <| by with_reducible assumption
  · exact .refl

theorem setDoor_upd {s : State} {r c : Nat} {t : Option Byte} {ack : Bool} :
    Upd [.fabric, .sigs] s (State.setDoor s r c t ack) := by
  unfold State.setDoor
  extract_lets x6
  have hx6 : Upd [.fabric, .sigs] s x6 := Upd.after setLive_upd rfl .refl
  clear_value x6
  refine Upd.sigs ?_ rfl
  exact by with_reducible assumption

theorem snapDrive_upd {s : State} {r e : Nat} {v : Option Nat} :
    Upd [.fabric, .sigs] s (State.snapDrive s r e v) := by
  unfold State.snapDrive
  exact Upd.foldl (fun t x ht => Upd.after setDoor_upd rfl <| by with_reducible assumption) _ .refl

theorem snapPresent_upd {s : State} {h : Half} {r e : Nat} :
    Upd [.out, .doorway, .fabric, .sigs] s (State.snapPresent s h r e) := by
  unfold State.snapPresent
  refine Upd.after emit_upd rfl <| Upd.after snapDrive_upd rfl <| Upd.doorway ?_ rfl
  exact .refl

theorem snapOffer_upd {s : State} {h : Half} :
    Upd [.out, .doorway, .fabric, .sigs] s (State.snapOffer s h) := by
  unfold State.snapOffer
  split
  · exact .refl
  · extract_lets x11
    clear_value x11
    refine Upd.ite ?_ ?_
    · refine Upd.doorway ?_ rfl
      exact .refl
    · exact Upd.after snapPresent_upd rfl .refl

theorem snapAgain_upd {s : State} {h : Half} {rooms : List Nat} :
    Upd [.out, .doorway, .fabric, .sigs] s (State.snapAgain s h rooms) := by
  unfold State.snapAgain
  split
  · exact Upd.ite (Upd.after snapOffer_upd rfl .refl) .refl
  · exact .refl

theorem setBlock_upd {s : State} {r p : Nat} {x : Block} :
    Upd [.blocks] s (State.setBlock s r p x) := by
  unfold State.setBlock
  refine Upd.blocks ?_ rfl
  exact .refl

theorem windowSends_upd {s : State} {r tag : Nat} {bs : List Byte} :
    Upd [.blocks] s (State.windowSends s r tag bs) := by
  unfold State.windowSends
  extract_lets x5
  clear_value x5
  exact Upd.after setBlock_upd rfl .refl

theorem snapHold_upd {s : State} {h : Half} {rooms : List Nat} :
    Upd [.doorway, .fabric, .sigs] s (State.snapHold s h rooms) := by
  unfold State.snapHold
  split
  · refine Upd.ite ?_ ?_
    · refine Upd.after snapDrive_upd rfl <| Upd.doorway ?_ rfl
      exact .refl
    · exact .refl
  · exact .refl

theorem blockTakes_upd {s : State} {r p : Nat} :
    Upd [.out, .fabric, .blocks] s (State.blockTakes s r p) := by
  unfold State.blockTakes
  extract_lets x4
  clear_value x4
  refine Upd.ite ?_ ?_
  · exact .refl
  · extract_lets
    split
    · exact .refl
    · refine Upd.ite ?_ ?_
      · exact .refl
      · split
        rename_i t15 e15
        have ht15 : Upd [.out, .fabric, .blocks] s t15 := Upd.of_pair e15 <| Upd.after cupOne_upd rfl .refl
        exact Upd.after emit_upd rfl <| Upd.after setBlock_upd rfl <| by with_reducible assumption
    · split
      rename_i t16 e16
      have ht16 : Upd [.out, .fabric, .blocks] s t16 := Upd.of_pair e16 <| Upd.after oarOne_upd rfl .refl
      extract_lets x18
      have hx18 : Upd [.out, .fabric, .blocks] s x18 := Upd.after setBlock_upd rfl <| by with_reducible assumption
      clear_value x18
      split
      · exact Upd.after emit_upd rfl <| by with_reducible assumption
      · exact by with_reducible assumption

theorem blockSent_upd {s : State} {r p : Nat} :
    Upd [.blocks] s (State.blockSent s r p) := by
  unfold State.blockSent
  extract_lets x8 x9 x10 x11 x12
  clear_value x8
  clear_value x9
  clear_value x10
  clear_value x11
  clear_value x12
  exact Upd.after setBlock_upd rfl .refl

theorem fireBlock_upd {s : State} {r p : Nat} :
    Upd [.out, .fabric, .blocks] s (State.fireBlock s r p) := by
  unfold State.fireBlock
  exact Upd.after blockTakes_upd rfl <| Upd.after blockSent_upd rfl .refl

theorem request_upd {s : State} {r p : Nat} {q : BlockReq} :
    Upd [.blocks] s (State.request s r p q) := by
  unfold State.request
  extract_lets x5
  clear_value x5
  exact Upd.ite .refl (Upd.after setBlock_upd rfl .refl)

theorem ask_upd {s : State} {r p : Nat} {q : BlockReq} :
    Upd [.out, .fabric, .blocks] s (State.ask s r p q) := by
  unfold State.ask
  exact Upd.ite (Upd.after fireBlock_upd rfl <| Upd.after request_upd rfl .refl) .refl

theorem hallTakes_upd {s : State} {r c : Nat} :
    Upd [.porches, .fabric, .sigs] s (State.hallTakes s r c) := by
  unfold State.hallTakes
  extract_lets x5 x6
  clear_value x5
  clear_value x6
  refine Upd.ite ?_ ?_
  · exact Upd.ite (Upd.after setDoor_upd rfl .refl) .refl
  · extract_lets
    split
    · extract_lets x16
      clear_value x16
      exact Upd.ite (Upd.after setDoor_upd rfl <| Upd.after setPorch_upd rfl .refl) .refl
    · exact .refl

theorem fireDoor_upd {s : State} {r c : Nat} :
    Upd [.porches, .fabric, .sigs] s (State.fireDoor s r c) := by
  unfold State.fireDoor
  extract_lets x5 x6
  clear_value x5
  clear_value x6
  split
  · exact Upd.after setDoor_upd rfl .refl
  · exact Upd.after setDoor_upd rfl .refl
  · exact Upd.after hallTakes_upd rfl .refl
  · exact .refl

theorem lineSet_upd {s : State} {r cell : Nat} :
    Upd [.lines] s (State.lineSet s r cell) := by
  unfold State.lineSet
  extract_lets x4
  clear_value x4
  refine Upd.ite ?_ ?_
  · exact .refl
  · refine Upd.ite ?_ ?_
    · refine Upd.ite ?_ ?_
      · exact .refl
      · refine Upd.lines ?_ rfl
        exact .refl
    · refine Upd.lines ?_ rfl
      exact .refl

theorem setCell_upd {s : State} {r cell : Nat} {x : CellNow} :
    Upd [.fabric, .sigs] s (State.setCell s r cell x) := by
  unfold State.setCell
  extract_lets x5
  have hx5 : Upd [.fabric, .sigs] s x5 := Upd.after setCellBits_upd rfl .refl
  clear_value x5
  refine Upd.sigs ?_ rfl
  exact by with_reducible assumption

theorem fireCell_upd {s : State} {r cell : Nat} {w : Wires} :
    Upd [.rooms, .fabric, .sigs, .lines] s (State.fireCell s r cell w) := by
  unfold State.fireCell
  exact Upd.ite (Upd.after codeError_upd rfl .refl) (Upd.after lineSet_upd rfl <| Upd.after setCell_upd rfl .refl)

theorem snapMoved_upd {s : State} {h : Half} :
    Upd [.out, .doorway, .fabric, .sigs] s (State.snapMoved s h) := by
  unfold State.snapMoved
  split
  · refine Upd.ite ?_ ?_
    · refine Upd.ite ?_ ?_
      · exact Upd.after snapOffer_upd rfl .refl
      · refine Upd.doorway ?_ rfl
        exact .refl
    · refine Upd.ite ?_ ?_
      · refine Upd.doorway ?_ rfl
        exact .refl
      · exact .refl
  · exact .refl

theorem fire_upd {s : State} {r : Nat} {x2 : Stage} :
    Upd [.out, .doorway, .porches, .rooms, .fabric, .sigs, .blocks, .lines] s (State.fire s r x2) := by
  unfold State.fire
  split
  · exact Upd.after fireCell_upd rfl .refl
  · exact Upd.after snapMoved_upd rfl <| Upd.after fireDoor_upd rfl .refl
  · exact Upd.ite (Upd.after fireBlock_upd rfl .refl) .refl

theorem passToken_upd {s : State} {r : Nat} {g : Stage} :
    Upd [.out, .doorway, .porches, .rooms, .fabric, .sigs, .blocks, .lines] s (State.passToken s r g) := by
  unfold State.passToken
  extract_lets x4
  clear_value x4
  exact Upd.after fire_upd rfl <| Upd.foldl (fun t x ht => Upd.after fire_upd rfl <| by with_reducible assumption) _
    (Upd.after fire_upd rfl .refl)

theorem oarAsk_upd {s : State} {room : BitVec 12} {oar : BitVec 3} {op : Nat} {t : OarTok} :
    Upd [.out, .fabric, .blocks] s (State.oarAsk s room oar op t) := by
  unfold State.oarAsk
  exact Upd.ite (Upd.after ask_upd rfl .refl) .refl

theorem cupAccess_upd {s : State} {r cup : Nat} {q : CupReq} {c : Option CupReq} :
    Upd [.out, .draws, .fabric, .blocks] s (State.cupAccess s r cup q c) := by
  unfold State.cupAccess
  extract_lets x6
  have hx6 : ∀ a0 a1, Upd [.out, .draws, .fabric, .blocks] s a0 → Upd [.out, .draws, .fabric, .blocks] s (x6 a0 a1)
    := by
    intros
    exact Upd.after ask_upd rfl <| by with_reducible assumption
  clear_value x6
  split
  · exact hx6 _ _ .refl
  · exact Upd.ite (hx6 _ _ .refl) (Upd.ite (hx6 _ _ <| hx6 _ _ .refl) (Upd.ite (hx6 _ _ <| hx6 _ _ <| Upd.after
      drew_upd rfl .refl) (hx6 _ _ <| hx6 _ _ <| Upd.after drew_upd rfl .refl)))

theorem portEvent_upd {s : State} {b : PortBlock} {p : Port} :
    Upd [.regs, .out, .host, .cox] s (State.portEvent s b p) := by
  unfold State.portEvent
  split
  · exact Upd.after raise_upd rfl .refl
  · extract_lets x8 x9 x10
    clear_value x8
    clear_value x9
    have hx10 : Upd [.regs, .out, .host, .cox] s x10 := Upd.after wr_upd rfl .refl
    clear_value x10
    exact Upd.ite .refl (Upd.ite (Upd.after msix_upd rfl <| by with_reducible assumption) (by with_reducible
      assumption))

theorem portWr_upd {s : State} {b : PortBlock} {p : Port} {f : Fld} {v : Nat} :
    Upd [.regs] s (State.portWr s b p f v) := by
  unfold State.portWr
  exact Upd.after wr_upd rfl .refl

theorem portEnd_upd {s : State} {b : PortBlock} {p : Port} {code : Nat} {l : List (Fld × Nat)} :
    Upd [.regs, .out, .host, .cox] s (State.portEnd s b p code l) := by
  unfold State.portEnd
  split
  exact Upd.after portEvent_upd rfl <| Upd.after portWr_upd rfl <| Upd.after portWr_upd rfl <| Upd.foldl (fun t x ht
    => Upd.after portWr_upd rfl <| by with_reducible assumption) _ .refl

theorem stwEnd_upd {s : State} {p : Port} {code id : Nat} :
    Upd [.regs, .out, .host, .cox] s (State.stwEnd s p code id) := by
  unfold State.stwEnd
  exact Upd.after portEnd_upd rfl .refl

theorem portStart_upd {s : State} {b : PortBlock} {p : Port} :
    Upd [.regs] s (State.portStart s b p) := by
  unfold State.portStart
  split
  exact Upd.after portWr_upd rfl <| Upd.after portWr_upd rfl <| Upd.after portWr_upd rfl .refl

theorem pgtEnd_upd {s : State} {p : Port} {code value : Nat} :
    Upd [.regs, .out, .host, .cox] s (State.pgtEnd s p code value) := by
  unfold State.pgtEnd
  exact Upd.after portEnd_upd rfl .refl

theorem hatEnd_upd {s : State} {p : Port} {code n : Nat} :
    Upd [.regs, .out, .host, .cox] s (State.hatEnd s p code n) := by
  unfold State.hatEnd
  exact Upd.after portEnd_upd rfl .refl

theorem reopenWindow_upd {s : State} {id room pos : Nat} :
    Upd [.out, .rooms] s (State.reopenWindow s id room pos) := by
  unfold State.reopenWindow
  extract_lets x6 x7
  clear_value x6
  have hx7 : Upd [.out, .rooms] s x7 := Upd.foldl (fun t x ht => Upd.ite (Upd.after emit_upd rfl <| by
    with_reducible assumption) (by with_reducible assumption)) _ .refl
  clear_value x7
  exact Upd.after modRoom_upd rfl <| by with_reducible assumption

theorem deliverRead_upd {s : State} {r : ReadOut} :
    Upd [.out, .rooms, .blocks] s (State.deliverRead s r) := by
  unfold State.deliverRead
  extract_lets x3
  have hx3 : Upd [.out, .rooms, .blocks] s x3 := by
    unfold x3
    split
    · exact Upd.after windowSends_upd rfl <| Upd.after modRoom_upd rfl .refl
    · exact .refl
  clear_value x3
  exact Upd.after emit_upd rfl <| by with_reducible assumption

theorem deliverKept_upd {s : State} {id : Nat} :
    Upd [.out, .rooms, .blocks, .reads] s (State.deliverKept s id) := by
  unfold State.deliverKept
  extract_lets x5 x6 x7
  clear_value x5
  clear_value x6
  have hx7 : Upd [.out, .rooms, .blocks, .reads] s x7 := by
    unfold x7
    refine Upd.reads ?_ rfl
    exact .refl
  clear_value x7
  exact Upd.foldl (fun t x ht => Upd.after deliverRead_upd rfl <| by with_reducible assumption) _ (by with_reducible
    assumption)

theorem reopenRooms_upd {s : State} {id : Nat} {c : Crew} :
    Upd [.out, .doorway, .rooms, .fabric, .sigs, .blocks, .reads] s (State.reopenRooms s id c) := by
  unfold State.reopenRooms
  extract_lets x5 x6
  have hx5 : Upd [.out, .doorway, .rooms, .fabric, .sigs, .blocks, .reads] s x5 := Upd.after modRooms_upd rfl .refl
  clear_value x5
  have hx6 : Upd [.out, .doorway, .rooms, .fabric, .sigs, .blocks, .reads] s x6 := by
    unfold x6
    refine Upd.foldl (fun t x ht => ?_) _ ?_
    · split
      exact Upd.after reopenWindow_upd rfl <| by with_reducible assumption
    · exact by with_reducible assumption
  clear_value x6
  exact Upd.after snapAgain_upd rfl <| Upd.after snapAgain_upd rfl <| Upd.after deliverKept_upd rfl <| by
    with_reducible assumption

theorem settlePorts_upd {s : State} :
    Upd [.regs, .out, .host, .portOps, .cox] s (State.settlePorts s) := by
  unfold State.settlePorts
  refine Upd.foldl (fun t x ht => ?_) _ ?_
  · extract_lets x5
    have hx5 : Upd [.regs, .out, .host, .portOps, .cox] s x5 := by
      unfold x5
      refine Upd.portOps ?_ rfl
      exact by with_reducible assumption
    clear_value x5
    refine Upd.ite ?_ ?_
    · split
      · exact by with_reducible assumption
      · exact Upd.ite (by with_reducible assumption) (Upd.after stwEnd_upd rfl <| by with_reducible assumption)
    · exact by with_reducible assumption
  · exact .refl

theorem cachePlane_upd {s : State} {w : Nat} {x : Cached} :
    Upd [.wings] s (State.cachePlane s w x) := by
  unfold State.cachePlane
  exact Upd.after modWing_upd rfl .refl

theorem fetchPlane_upd {s : State} {w id : Nat} {c : Crew} {p : Nat} {count : Bool} :
    Upd [.regs, .out, .host, .wings, .stackCtl, .frames, .attic, .cox, .gallery] s (State.fetchPlane s w id c p
      count).2 := by
  unfold State.fetchPlane
  extract_lets x10 x11 x12 x13
  clear_value x10
  clear_value x11
  have hx12 : Upd [.regs, .out, .host, .wings, .stackCtl, .frames, .attic, .cox, .gallery] s x12 := Upd.ite
    (Upd.after step1_upd rfl .refl) .refl
  clear_value x12
  have hx13 : Upd [.regs, .out, .host, .wings, .stackCtl, .frames, .attic, .cox, .gallery] s x13 := Upd.ite
    (Upd.after step1_upd rfl .refl) .refl
  clear_value x13
  split
  · extract_lets x15
    have hx15 : Upd [.regs, .out, .host, .wings, .stackCtl, .frames, .attic, .cox, .gallery] s x15 := Upd.after
      cachePlane_upd rfl <| by with_reducible assumption
    clear_value x15
    exact Upd.ite_snd (by with_reducible assumption) (by with_reducible assumption)
  · split
    · rename_i t19 e19
      have ht19 : Upd [.regs, .out, .host, .wings, .stackCtl, .frames, .attic, .cox, .gallery] s t19 := Upd.of_pair
        e19 <| Upd.after readMem_upd rfl <| by with_reducible assumption
      exact by with_reducible assumption
    · rename_i t19 e19
      have ht19 : Upd [.regs, .out, .host, .wings, .stackCtl, .frames, .attic, .cox, .gallery] s t19 := Upd.of_pair
        e19 <| Upd.after readMem_upd rfl <| by with_reducible assumption
      extract_lets x21
      have hx21 : Upd [.regs, .out, .host, .wings, .stackCtl, .frames, .attic, .cox, .gallery] s x21 := Upd.ite
        (Upd.after cachePlane_upd rfl <| by with_reducible assumption) (by with_reducible assumption)
      clear_value x21
      exact Upd.ite_snd (by with_reducible assumption) (by with_reducible assumption)

theorem losePreload_upd {s : State} {r id heat p : Nat} :
    Upd [.regs, .rooms] s (State.losePreload s r id heat p) := by
  unfold State.losePreload
  extract_lets x6
  clear_value x6
  exact Upd.ite (Upd.after bump_upd rfl <| Upd.after modRoom_upd rfl .refl) .refl

theorem writeShadow_upd {s : State} {r id heat p : Nat} {t : Tbl Byte} :
    Upd [.regs, .rooms, .fabric, .refs] s (State.writeShadow s r id heat p t) := by
  unfold State.writeShadow
  extract_lets x7
  have hx7 : Upd [.regs, .rooms, .fabric, .refs] s x7 := Upd.after losePreload_upd rfl .refl
  clear_value x7
  exact Upd.after modRoom_upd rfl <| Upd.after putPlane_upd rfl <| by with_reducible assumption

theorem stageState_upd {s : State} {w id : Nat} {c : Crew} {p : Nat} :
    Upd [.regs, .out, .host, .wings, .stackCtl, .frames, .attic, .cox, .gallery] s (State.stageState s w id c p) := by
  unfold State.stageState
  extract_lets x7 x8
  clear_value x7
  clear_value x8
  refine Upd.ite ?_ ?_
  · exact .refl
  · split
    · exact .refl
    · split
      · rename_i t15 e15
        have ht15 : Upd [.regs, .out, .host, .wings, .stackCtl, .frames, .attic, .cox, .gallery] s t15 :=
          Upd.of_pair e15 <| Upd.after readMem_upd rfl .refl
        exact by with_reducible assumption
      · rename_i t15 e15
        have ht15 : Upd [.regs, .out, .host, .wings, .stackCtl, .frames, .attic, .cox, .gallery] s t15 :=
          Upd.of_pair e15 <| Upd.after readMem_upd rfl .refl
        exact Upd.after modWing_upd rfl <| by with_reducible assumption

theorem hint_upd {s : State} {id : Nat} :
    Upd [.regs, .out, .host, .rooms, .fabric, .refs, .wings, .stackCtl, .frames, .attic, .cox, .gallery] s
      (State.hint s id) := by
  unfold State.hint
  split
  · exact .refl
  · extract_lets x10 x11 x12
    clear_value x10
    clear_value x11
    clear_value x12
    refine Upd.ite ?_ ?_
    · extract_lets
      split
      · exact .refl
      · refine Upd.foldl (fun t x ht => ?_) _ ?_
        · extract_lets x16
          have hx16 : Upd [.regs, .out, .host, .rooms, .fabric, .refs, .wings, .stackCtl, .frames, .attic, .cox,
            .gallery] s x16 := by
            unfold x16
            split
            · rename_i t23 e23
              have ht23 : Upd [.regs, .out, .host, .rooms, .fabric, .refs, .wings, .stackCtl, .frames, .attic, .cox,
                .gallery] s t23 := Upd.of_pair e23 <| Upd.after fetchPlane_upd rfl <| by with_reducible assumption
              split
              · exact Upd.after writeShadow_upd rfl <| by with_reducible assumption
              · exact by with_reducible assumption
            · rename_i t22 e22
              have ht22 : Upd [.regs, .out, .host, .rooms, .fabric, .refs, .wings, .stackCtl, .frames, .attic, .cox,
                .gallery] s t22 := Upd.of_pair e22 <| Upd.after fetchPlane_upd rfl <| by with_reducible assumption
              exact by with_reducible assumption
          clear_value x16
          exact Upd.after stageState_upd rfl <| by with_reducible assumption
        · exact .refl
    · exact .refl

theorem autoHint_upd {s : State} {h : Half} :
    Upd [.regs, .out, .host, .rooms, .fabric, .refs, .wings, .stackCtl, .frames, .attic, .cox, .gallery] s
      (State.autoHint s h) := by
  unfold State.autoHint
  split
  · exact .refl
  · exact Upd.after hint_upd rfl .refl

theorem tally_upd {s : State} {id : Nat} :
    Upd [.draws, .crews] s (State.tally s id) := by
  unfold State.tally
  split
  · exact .refl
  · exact Upd.ite (Upd.after drew_upd rfl <| Upd.crews .refl rfl (fun c => ⟨c.mem, c.fabric, c.regs, Tbl.wf_put
      c.crews _ _, c.hatches⟩)) .refl

theorem lostNotice_upd {s : State} {id : Nat} :
    Upd [.regs] s (State.lostNotice s id) := by
  unfold State.lostNotice
  exact Upd.after bump_upd rfl .refl

theorem holdNotice_upd {s : State} {id : Nat} {bs : List Byte} :
    Upd [.regs, .crews] s (State.holdNotice s id bs) := by
  unfold State.holdNotice
  extract_lets x4
  have hx4 : Upd [.regs, .crews] s x4 := Upd.ite (Upd.after lostNotice_upd rfl .refl) .refl
  clear_value x4
  exact Upd.after modCrew_upd rfl <| by with_reducible assumption

theorem giveNotice_upd {s : State} {id hatch : Nat} {world : Bool} {bs : List Byte} :
    Upd [.regs, .out, .host, .crews, .mem, .bad, .stackCtl, .frames, .attic, .cox, .hatches, .gallery] s
      (State.giveNotice s id hatch world bs) := by
  unfold State.giveNotice
  split
  · exact Upd.after admitted_upd rfl .refl
  · exact Upd.after lostNotice_upd rfl .refl
  · exact Upd.ite (Upd.after holdNotice_upd rfl .refl) (Upd.after lostNotice_upd rfl .refl)

theorem pushNotice_upd {s : State} {id hatch : Nat} {world : Bool} {bs : List Byte} :
    Upd [.regs, .out, .host, .crews, .mem, .bad, .stackCtl, .frames, .attic, .cox, .hatches, .gallery] s
      (State.pushNotice s id hatch world bs) := by
  unfold State.pushNotice
  exact Upd.ite .refl (Upd.ite (Upd.after toEgress_upd rfl .refl) (Upd.after giveNotice_upd rfl .refl))

theorem notify_upd {s : State} {id : Nat} {f : FaultInfo} :
    Upd [.regs, .out, .draws, .host, .crews, .mem, .bad, .stackCtl, .frames, .attic, .cox, .hatches, .gallery] s
      (State.notify s id f) := by
  unfold State.notify
  extract_lets x5 x6
  have hx5 : Upd [.regs, .out, .draws, .host, .crews, .mem, .bad, .stackCtl, .frames, .attic, .cox, .hatches,
    .gallery] s x5 := Upd.after tally_upd rfl .refl
  clear_value x5
  clear_value x6
  split
  · exact by with_reducible assumption
  · extract_lets x13 x14
    have hx13 : Upd [.regs, .out, .draws, .host, .crews, .mem, .bad, .stackCtl, .frames, .attic, .cox, .hatches,
      .gallery] s x13 := Upd.after wrs_upd rfl <| Upd.after step1_upd rfl <| by with_reducible assumption
    clear_value x13
    have hx14 : Upd [.regs, .out, .draws, .host, .crews, .mem, .bad, .stackCtl, .frames, .attic, .cox, .hatches,
      .gallery] s x14 := Upd.after raise_upd rfl <| by with_reducible assumption
    clear_value x14
    exact Upd.after pushNotice_upd rfl <| by with_reducible assumption

theorem enterFaulted_upd {s : State} {id : Nat} {f : FaultInfo} :
    Upd [.regs, .out, .draws, .host, .crews, .mem, .bad, .stackCtl, .frames, .attic, .cox, .hatches, .gallery] s
      (State.enterFaulted s id f) := by
  unfold State.enterFaulted
  exact Upd.after notify_upd rfl <| Upd.after modCrew_upd rfl <| Upd.after tally_upd rfl .refl

theorem quiesceRooms_upd {s : State} {rooms ids : List Nat} {keep : Bool} :
    Upd [.doorway, .rooms, .fabric, .sigs, .blocks, .reads] s (State.quiesceRooms s rooms ids keep) := by
  unfold State.quiesceRooms
  extract_lets x7 x8 x9
  have hx7 : Upd [.doorway, .rooms, .fabric, .sigs, .blocks, .reads] s x7 := by
    unfold x7
    refine Upd.foldl (fun t x ht => ?_) _ ?_
    · extract_lets x13 x14 x15
      clear_value x13
      have hx14 : Upd [.doorway, .rooms, .fabric, .sigs, .blocks, .reads] s x14 := Upd.after modRoom_upd rfl <| by
        with_reducible assumption
      clear_value x14
      clear_value x15
      exact Upd.ite (by with_reducible assumption) (Upd.after setBlock_upd rfl <| by with_reducible assumption)
    · exact .refl
  clear_value x7
  clear_value x8
  have hx9 : Upd [.doorway, .rooms, .fabric, .sigs, .blocks, .reads] s x9 := by
    unfold x9
    refine Upd.reads ?_ rfl
    exact by with_reducible assumption
  clear_value x9
  exact Upd.after snapHold_upd rfl <| Upd.after snapHold_upd rfl <| by with_reducible assumption

theorem startSwap_upd {s : State} {w : Nat} {outs : List Nat} {inc : Option (Nat × Nat)} {suite : List Nat} :
    Upd [.doorway, .rooms, .fabric, .sigs, .blocks, .wings, .reads] s (State.startSwap s w outs inc suite) := by
  unfold State.startSwap
  extract_lets x9 x10 x11 x12
  clear_value x9
  clear_value x10
  have hx11 : Upd [.doorway, .rooms, .fabric, .sigs, .blocks, .wings, .reads] s x11 := Upd.after modRooms_upd rfl
    .refl
  clear_value x11
  have hx12 : Upd [.doorway, .rooms, .fabric, .sigs, .blocks, .wings, .reads] s x12 := Upd.after quiesceRooms_upd
    rfl <| by with_reducible assumption
  clear_value x12
  exact Upd.after modWing_upd rfl <| by with_reducible assumption

theorem startBoarding_upd {s : State} {id w : Nat} {suite : List Nat} :
    Upd [.draws, .doorway, .rooms, .fabric, .sigs, .blocks, .crews, .wings, .reads] s (State.startBoarding s id w
      suite) := by
  unfold State.startBoarding
  extract_lets x8 x9 x10 x11
  clear_value x8
  clear_value x9
  have hx10 : Upd [.draws, .doorway, .rooms, .fabric, .sigs, .blocks, .crews, .wings, .reads] s x10 := Upd.foldl
    (fun t x ht => Upd.after modCrew_upd rfl <| Upd.after tally_upd rfl <| by with_reducible assumption) _ .refl
  clear_value x10
  have hx11 : Upd [.draws, .doorway, .rooms, .fabric, .sigs, .blocks, .crews, .wings, .reads] s x11 := Upd.after
    modCrew_upd rfl <| by with_reducible assumption
  clear_value x11
  exact Upd.after startSwap_upd rfl <| by with_reducible assumption

theorem decideOne_upd {s : State} {id : Nat} :
    Upd [.regs, .out, .draws, .doorway, .host, .rooms, .fabric, .sigs, .blocks, .crews, .wings, .mem, .bad,
      .stackCtl, .frames, .reads, .attic, .cox, .hatches, .gallery] s (State.decideOne s id) := by
  unfold State.decideOne
  split
  · exact .refl
  · refine Upd.ite ?_ ?_
    · exact .refl
    · refine Upd.ite ?_ ?_
      · exact Upd.after enterFaulted_upd rfl .refl
      · split
        · exact Upd.after startBoarding_upd rfl .refl
        · exact .refl

theorem decision_upd {s : State} {h : Half} :
    Upd [.regs, .out, .draws, .doorway, .host, .rooms, .fabric, .refs, .sigs, .blocks, .crews, .wings, .mem, .bad,
      .stackCtl, .frames, .reads, .attic, .cox, .hatches, .gallery] s (State.decision s h) := by
  unfold State.decision
  exact Upd.ite (Upd.after autoHint_upd rfl <| Upd.foldl (fun t x ht => Upd.after decideOne_upd rfl <| by
    with_reducible assumption) _ .refl) .refl

theorem retireEnd_upd {s : State} {h : Half} {status reason : Nat} :
    Upd [.regs, .retiring] s (State.retireEnd s h status reason) := by
  unfold State.retireEnd
  extract_lets x5
  have hx5 : Upd [.regs, .retiring] s x5 := Upd.after wrs_upd rfl .refl
  clear_value x5
  refine Upd.retiring ?_ rfl
  exact by with_reducible assumption

theorem retireRoom_upd {s : State} {r code : Nat} :
    Upd [.rooms, .attic, .gallery] s (State.retireRoom s r code) := by
  unfold State.retireRoom
  extract_lets x6 x7 x8
  have hx6 : Upd [.rooms, .attic, .gallery] s x6 := Upd.after modRoom_upd rfl .refl
  clear_value x6
  clear_value x7
  clear_value x8
  refine Upd.ite ?_ ?_
  · exact by with_reducible assumption
  · refine Upd.ite ?_ ?_
    · refine Upd.gallery ?_ rfl
      exact by with_reducible assumption
    · refine Upd.attic ?_ rfl
      exact by with_reducible assumption

theorem startDrain_upd {s : State} {id : Nat} {t : Target} :
    Upd [.draws, .doorway, .rooms, .fabric, .sigs, .blocks, .crews, .wings, .reads] s (State.startDrain s id t) := by
  unfold State.startDrain
  extract_lets x4
  have hx4 : Upd [.draws, .doorway, .rooms, .fabric, .sigs, .blocks, .crews, .wings, .reads] s x4 := Upd.after
    modCrew_upd rfl <| Upd.after tally_upd rfl .refl
  clear_value x4
  split
  · exact .refl
  · extract_lets x11
    clear_value x11
    exact Upd.ite (Upd.after modWing_upd rfl <| by with_reducible assumption) (Upd.after startSwap_upd rfl <| by
      with_reducible assumption)

theorem retireAct_upd {s : State} {h : Half} :
    Upd [.regs, .draws, .doorway, .rooms, .fabric, .sigs, .blocks, .crews, .wings, .reads, .attic, .retiring,
      .gallery] s (State.retireAct s h) := by
  unfold State.retireAct
  split
  · exact .refl
  · refine Upd.ite ?_ ?_
    · exact Upd.after retireEnd_upd rfl .refl
    · split
      · exact Upd.after retireEnd_upd rfl <| Upd.after retireRoom_upd rfl .refl
      · exact Upd.ite (Upd.after retireEnd_upd rfl <| Upd.after retireRoom_upd rfl .refl) .refl
      · split
        · exact .refl
        · exact Upd.ite (Upd.after retireEnd_upd rfl .refl) (Upd.ite (Upd.after startDrain_upd rfl .refl) .refl)
      · exact .refl
      all_goals exact Upd.after retireEnd_upd rfl .refl

theorem dropWaits_upd {s : State} {id : Nat} :
    Upd [.crews, .gallery] s (State.dropWaits s id) := by
  unfold State.dropWaits
  extract_lets x4 x5
  clear_value x4
  clear_value x5
  refine Upd.after modCrew_upd rfl <| Upd.gallery ?_ rfl
  exact .refl

theorem stamp_upd {s : State} :
    Upd [.stamps] s (State.stamp s).2 := by
  unfold State.stamp
  dsimp -zeta only
  refine Upd.stamps ?_ rfl
  exact .refl

theorem release_upd {s : State} {id : Nat} :
    Upd [.regs, .out, .draws, .security, .doorway, .porches, .host, .rooms, .crews, .ids, .stamps, .wings, .alloc,
      .cox, .hatches] s (State.release s id) := by
  unfold State.release
  extract_lets x3
  have hx3 : Upd [.regs, .out, .draws, .security, .doorway, .porches, .host, .rooms, .crews, .ids, .stamps, .wings,
    .alloc, .cox, .hatches] s x3 := Upd.after tally_upd rfl .refl
  clear_value x3
  split
  · exact by with_reducible assumption
  · split
    rename_i t15 e15
    have ht15 : Upd [.regs, .out, .draws, .security, .doorway, .porches, .host, .rooms, .crews, .ids, .stamps,
      .wings, .alloc, .cox, .hatches] s t15 := Upd.of_pair e15 <| Upd.after stamp_upd rfl <| by with_reducible
      assumption
    extract_lets x21 x22 x23 x24 x25
    have hx21 : Upd [.regs, .out, .draws, .security, .doorway, .porches, .host, .rooms, .crews, .ids, .stamps,
      .wings, .alloc, .cox, .hatches] s x21 := Upd.after detach_upd rfl <| by with_reducible assumption
    clear_value x21
    have hx22 : Upd [.regs, .out, .draws, .security, .doorway, .porches, .host, .rooms, .crews, .ids, .stamps,
      .wings, .alloc, .cox, .hatches] s x22 := Upd.after dropImage_upd rfl <| Upd.after dropTlb_upd rfl <| by
      with_reducible assumption
    clear_value x22
    have hx23 : Upd [.regs, .out, .draws, .security, .doorway, .porches, .host, .rooms, .crews, .ids, .stamps,
      .wings, .alloc, .cox, .hatches] s x23 := Upd.after modAlloc_upd rfl <| by with_reducible assumption
    clear_value x23
    clear_value x24
    have hx25 : Upd [.regs, .out, .draws, .security, .doorway, .porches, .host, .rooms, .crews, .ids, .stamps,
      .wings, .alloc, .cox, .hatches] s x25 := by
      unfold x25
      refine Upd.security ?_ rfl
      exact by with_reducible assumption
    clear_value x25
    exact Upd.after settleOf_upd rfl <| Upd.crews_ids (by with_reducible assumption) rfl (fun c => ⟨c.mem, c.fabric,
      c.regs, Tbl.wf_del c.crews _, c.hatches⟩)

theorem emptyRooms_upd {s : State} {rooms : List Nat} :
    Upd [.rooms, .sigs, .blocks, .lines] s (State.emptyRooms s rooms) := by
  unfold State.emptyRooms
  exact Upd.foldl (fun t x ht => Upd.after modRoom_upd rfl <| by with_reducible assumption) _ (Upd.after
    clearWires_upd rfl .refl)

theorem destroyPinned_upd {s : State} {id : Nat} :
    Upd [.regs, .out, .draws, .cross, .security, .doorway, .porches, .host, .rooms, .fabric, .sigs, .blocks, .lines,
      .crews, .ids, .stamps, .wings, .alloc, .reads, .cox, .hatches, .gallery] s (State.destroyPinned s id) := by
  unfold State.destroyPinned
  split
  · exact .refl
  · extract_lets x8
    have hx8 : Upd [.regs, .out, .draws, .cross, .security, .doorway, .porches, .host, .rooms, .fabric, .sigs,
      .blocks, .lines, .crews, .ids, .stamps, .wings, .alloc, .reads, .cox, .hatches, .gallery] s x8 := Upd.after
      fabricReset_upd rfl <| Upd.after dropWaits_upd rfl <| Upd.after quiesceRooms_upd rfl .refl
    clear_value x8
    exact Upd.after release_upd rfl <| Upd.after emptyRooms_upd rfl <| by with_reducible assumption

theorem standbyWing_upd {s : State} {w : Nat} :
    Upd [.draws, .seq, .doorway, .rooms, .fabric, .sigs, .blocks, .crews, .wings, .reads] s (State.standbyWing s w)
      := by
  unfold State.standbyWing
  extract_lets x6 x7 x8 x9
  clear_value x6
  have hx7 : Upd [.draws, .seq, .doorway, .rooms, .fabric, .sigs, .blocks, .crews, .wings, .reads] s x7 := Upd.foldl
    (fun t x ht => Upd.after modCrew_upd rfl <| Upd.after tally_upd rfl <| by with_reducible assumption) _ .refl
  clear_value x7
  clear_value x8
  have hx9 : Upd [.draws, .seq, .doorway, .rooms, .fabric, .sigs, .blocks, .crews, .wings, .reads] s x9 := by
    unfold x9
    refine Upd.seq ?_ rfl
    exact by with_reducible assumption
  clear_value x9
  exact Upd.ite .refl (Upd.after modWing_upd rfl <| Upd.after startSwap_upd rfl <| by with_reducible assumption)

theorem standbyHalf_upd {s : State} {h : Half} :
    Upd [.draws, .seq, .doorway, .porches, .rooms, .fabric, .sigs, .blocks, .crews, .wings, .reads] s
      (State.standbyHalf s h) := by
  unfold State.standbyHalf
  extract_lets x3
  have hx3 : Upd [.draws, .seq, .doorway, .porches, .rooms, .fabric, .sigs, .blocks, .crews, .wings, .reads] s x3 :=
    Upd.foldl (fun t x ht => Upd.after standbyWing_upd rfl <| by with_reducible assumption) _ .refl
  clear_value x3
  exact Upd.ite (Upd.foldl (fun t x ht => Upd.after parkPorches_upd rfl <| Upd.after quiesceRooms_upd rfl <| by
    with_reducible assumption) _ (by with_reducible assumption)) (by with_reducible assumption)

theorem startReconfig_upd {s : State} {id : Nat} :
    Upd [.doorway, .porches, .rooms, .fabric, .sigs, .blocks, .crews, .wings, .reads, .gallery] s
      (State.startReconfig s id) := by
  unfold State.startReconfig
  split
  · exact .refl
  · extract_lets x10 x11 x12
    have hx10 : Upd [.doorway, .porches, .rooms, .fabric, .sigs, .blocks, .crews, .wings, .reads, .gallery] s x10 :=
      Upd.after dropWaits_upd rfl <| Upd.after quiesceRooms_upd rfl .refl
    clear_value x10
    have hx11 : Upd [.doorway, .porches, .rooms, .fabric, .sigs, .blocks, .crews, .wings, .reads, .gallery] s x11 :=
      Upd.after modRooms_upd rfl <| by with_reducible assumption
    clear_value x11
    have hx12 : Upd [.doorway, .porches, .rooms, .fabric, .sigs, .blocks, .crews, .wings, .reads, .gallery] s x12 :=
      Upd.after modRooms_upd rfl <| Upd.after parkPorches_upd rfl <| by with_reducible assumption
    clear_value x12
    exact Upd.after modWing_upd rfl <| by with_reducible assumption

theorem nextWait_upd {s : State} {w x2 : Nat} :
    Upd [.regs, .out, .draws, .cross, .security, .doorway, .porches, .host, .rooms, .fabric, .sigs, .blocks, .lines,
      .crews, .ids, .stamps, .wings, .alloc, .reads, .cox, .hatches, .gallery] s (State.nextWait s w x2) := by
  unfold State.nextWait
  split
  · exact .refl
  · split
    · extract_lets x18 x19
      have hx18 : Upd [.regs, .out, .draws, .cross, .security, .doorway, .porches, .host, .rooms, .fabric, .sigs,
        .blocks, .lines, .crews, .ids, .stamps, .wings, .alloc, .reads, .cox, .hatches, .gallery] s x18 := Upd.after
        modWing_upd rfl .refl
      clear_value x18
      have hx19 : Upd [.regs, .out, .draws, .cross, .security, .doorway, .porches, .host, .rooms, .fabric, .sigs,
        .blocks, .lines, .crews, .ids, .stamps, .wings, .alloc, .reads, .cox, .hatches, .gallery] s x19 := by
        unfold x19
        split
        · exact Upd.after startReconfig_upd rfl <| by with_reducible assumption
        · exact Upd.after destroyPinned_upd rfl <| by with_reducible assumption
        · split
          · exact Upd.ite (Upd.after startSwap_upd rfl <| by with_reducible assumption) (Upd.after startSwap_upd
              rfl <| by with_reducible assumption)
          · exact by with_reducible assumption
      clear_value x19
      exact Upd.after nextWait_upd rfl <| by with_reducible assumption
    · exact .refl

theorem wingDone_upd {s : State} {w : Nat} :
    Upd (Part.allBut [.pending, .held, .fuses, .straps, .cellar, .power, .pins, .heatCopy, .prog, .recClear, .chunk,
      .loader, .chain, .g2, .selfTest, .course]) s (State.wingDone s w) := by
  unfold State.wingDone
  extract_lets x6 x7 x8 x9
  clear_value x6
  have hx7 : Upd (Part.allBut [.pending, .held, .fuses, .straps, .cellar, .power, .pins, .heatCopy, .prog,
    .recClear, .chunk, .loader, .chain, .g2, .selfTest, .course]) s x7 := Upd.after retireAct_upd rfl .refl
  clear_value x7
  have hx8 : Upd (Part.allBut [.pending, .held, .fuses, .straps, .cellar, .power, .pins, .heatCopy, .prog,
    .recClear, .chunk, .loader, .chain, .g2, .selfTest, .course]) s x8 := Upd.after nextWait_upd rfl <| by
    with_reducible assumption
  clear_value x8
  have hx9 : Upd (Part.allBut [.pending, .held, .fuses, .straps, .cellar, .power, .pins, .heatCopy, .prog,
    .recClear, .chunk, .loader, .chain, .g2, .selfTest, .course]) s x9 := Upd.ite (Upd.after standbyHalf_upd rfl <| by
    with_reducible assumption) (by with_reducible assumption)
  clear_value x9
  exact Upd.after settlePorts_upd rfl <| Upd.after decision_upd rfl <| Upd.after settlePorts_upd rfl <| by
    with_reducible assumption

theorem wingFree_upd {s : State} {w : Nat} :
    Upd [.wings] s (State.wingFree s w) := by
  unfold State.wingFree
  exact Upd.after modWing_upd rfl .refl

theorem swapRecord_upd {s : State} {w outcome cycles : Nat} :
    Upd [.regs, .out, .host, .cox] s (State.swapRecord s w outcome cycles) := by
  unfold State.swapRecord
  extract_lets x7 x8 x9
  clear_value x7
  have hx8 : Upd [.regs, .out, .host, .cox] s x8 := Upd.after wrs_upd rfl <| Upd.after step1_upd rfl .refl
  clear_value x8
  have hx9 : Upd [.regs, .out, .host, .cox] s x9 := Upd.after step1_upd rfl <| by with_reducible assumption
  clear_value x9
  split
  · exact Upd.after raise_upd rfl <| Upd.after bump_upd rfl <| by with_reducible assumption
  · exact Upd.after raise_upd rfl <| Upd.after bump_upd rfl <| by with_reducible assumption
  · exact Upd.after raise_upd rfl <| Upd.after bump_upd rfl <| by with_reducible assumption
  · exact Upd.after raise_upd rfl <| by with_reducible assumption
  · exact by with_reducible assumption

theorem stopPinned_upd {s : State} {id : Nat} {f : FaultInfo} :
    Upd [.regs, .out, .draws, .doorway, .porches, .host, .rooms, .fabric, .sigs, .blocks, .crews, .mem, .bad,
      .stackCtl, .frames, .reads, .attic, .cox, .hatches, .gallery] s (State.stopPinned s id f) := by
  unfold State.stopPinned
  split
  · exact .refl
  · exact Upd.after enterFaulted_upd rfl <| Upd.after parkPorches_upd rfl <| Upd.after quiesceRooms_upd rfl .refl

theorem faultCrew_upd {s : State} {id : Nat} {f : FaultInfo} :
    Upd [.regs, .out, .draws, .doorway, .porches, .host, .rooms, .fabric, .sigs, .blocks, .crews, .wings, .mem,
      .bad, .stackCtl, .frames, .reads, .attic, .cox, .hatches, .gallery] s (State.faultCrew s id f) := by
  unfold State.faultCrew
  split
  · exact .refl
  · split
    · exact Upd.after startDrain_upd rfl <| Upd.after modCrew_upd rfl .refl
    · exact Upd.after stopPinned_upd rfl .refl
    · exact Upd.after modCrew_upd rfl .refl
    · exact Upd.ite .refl (Upd.after modCrew_upd rfl .refl)
    · exact .refl

theorem waitPort_upd {s : State} {p : Port} {op id : Nat} :
    Upd [.regs, .out, .host, .portOps, .cox] s (State.waitPort s p op id) := by
  unfold State.waitPort
  refine Upd.after settlePorts_upd rfl <| Upd.portOps ?_ rfl
  exact .refl

theorem enterReady_upd {s : State} {id : Nat} :
    Upd [.crews, .stamps] s (State.enterReady s id) := by
  unfold State.enterReady
  split
  rename_i t8 e8
  have ht8 : Upd [.crews, .stamps] s t8 := Upd.of_pair e8 <| Upd.after stamp_upd rfl .refl
  exact Upd.after modCrew_upd rfl <| by with_reducible assumption

theorem wake_upd {s : State} {id : Nat} :
    Upd [.regs, .out, .draws, .doorway, .host, .rooms, .fabric, .refs, .sigs, .blocks, .crews, .stamps, .wings,
      .mem, .bad, .stackCtl, .frames, .reads, .attic, .cox, .hatches, .gallery] s (State.wake s id) := by
  unfold State.wake
  exact Upd.after decision_upd rfl <| Upd.after enterReady_upd rfl .refl

theorem freezeCrew_upd {s : State} {id cause : Nat} {f : FaultInfo} :
    Upd [.regs, .out, .draws, .security, .doorway, .porches, .host, .rooms, .fabric, .sigs, .blocks, .crews, .wings,
      .mem, .bad, .stackCtl, .frames, .reads, .attic, .cox, .hatches, .gallery] s (State.freezeCrew s id cause f) :=
      by
  unfold State.freezeCrew
  exact Upd.after faultCrew_upd rfl <| Upd.after freezeCrewMark_upd rfl .refl

theorem modSwap_upd {s : State} {w : Nat} {f : Swap → Swap} :
    Upd [.wings] s (State.modSwap s w f) := by
  unfold State.modSwap
  exact Upd.after modWing_upd rfl .refl

theorem restoreRoom_upd {s : State} {r : Nat} {t : Tbl Byte} {mask : Bool} :
    Upd [.rooms, .fabric, .sigs, .blocks, .lines] s (State.restoreRoom s r t mask) := by
  unfold State.restoreRoom
  exact Upd.after modRoom_upd rfl <| Upd.after enterState_upd rfl .refl

theorem loadFails_upd {s : State} {w : Nat} {x : Swap} {f : FaultInfo} {cycles : Nat} :
    Upd (Part.allBut [.pending, .held, .fuses, .straps, .cellar, .power, .pins, .heatCopy, .prog, .recClear, .chunk,
      .loader, .chain, .g2, .selfTest, .course]) s (State.loadFails s w x f cycles) := by
  unfold State.loadFails
  extract_lets x7 x8
  have hx7 : Upd (Part.allBut [.pending, .held, .fuses, .straps, .cellar, .power, .pins, .heatCopy, .prog,
    .recClear, .chunk, .loader, .chain, .g2, .selfTest, .course]) s x7 := Upd.after modRooms_upd rfl .refl
  clear_value x7
  have hx8 : Upd (Part.allBut [.pending, .held, .fuses, .straps, .cellar, .power, .pins, .heatCopy, .prog,
    .recClear, .chunk, .loader, .chain, .g2, .selfTest, .course]) s x8 := Upd.after swapRecord_upd rfl <| Upd.after
    emptyRooms_upd rfl .refl
  clear_value x8
  split
  · exact .refl
  · extract_lets x16
    have hx16 : Upd (Part.allBut [.pending, .held, .fuses, .straps, .cellar, .power, .pins, .heatCopy, .prog,
      .recClear, .chunk, .loader, .chain, .g2, .selfTest, .course]) s x16 := Upd.ite (Upd.after enterFaulted_upd rfl
      <| Upd.after modCrew_upd rfl <| by with_reducible assumption) (by with_reducible assumption)
    clear_value x16
    exact Upd.ite (Upd.after wingDone_upd rfl <| Upd.after wingFree_upd rfl <| Upd.after enterFaulted_upd rfl <| by
      with_reducible assumption) (Upd.after wingDone_upd rfl <| Upd.after wingFree_upd rfl <| by with_reducible
      assumption)

theorem swapRestore_upd {s : State} {w cycles : Nat} :
    Upd (Part.allBut [.pending, .held, .fuses, .straps, .cellar, .power, .pins, .heatCopy, .prog, .recClear, .chunk,
      .loader, .chain, .g2, .selfTest, .course]) s (State.swapRestore s w cycles) := by
  unfold State.swapRestore
  split
  · exact .refl
  · split
    · exact .refl
    · split
      · exact Upd.after modSwap_upd rfl .refl
      · extract_lets x20
        clear_value x20
        split
        rename_i t26 e26
        have ht26 : Upd (Part.allBut [.pending, .held, .fuses, .straps, .cellar, .power, .pins, .heatCopy, .prog,
          .recClear, .chunk, .loader, .chain, .g2, .selfTest, .course]) s t26 := by
          refine Upd.of_pair e26 <| Upd.foldl_snd (fun b x hb => ?_) _ ?_
          · extract_lets
            split
            split
            · exact by with_reducible assumption
            · extract_lets x36
              clear_value x36
              split
              · dsimp -zeta only
                exact Upd.after restoreRoom_upd rfl <| by with_reducible assumption
              · split
                · rename_i t43 e43
                  have ht43 : Upd (Part.allBut [.pending, .held, .fuses, .straps, .cellar, .power, .pins, .heatCopy,
                    .prog, .recClear, .chunk, .loader, .chain, .g2, .selfTest, .course]) s t43 := Upd.of_pair e43 <|
                    Upd.after readMem_upd rfl <| by with_reducible assumption
                  dsimp -zeta only
                  exact Upd.after restoreRoom_upd rfl <| by with_reducible assumption
                · rename_i t43 e43
                  have ht43 : Upd (Part.allBut [.pending, .held, .fuses, .straps, .cellar, .power, .pins, .heatCopy,
                    .prog, .recClear, .chunk, .loader, .chain, .g2, .selfTest, .course]) s t43 := Upd.of_pair e43 <|
                    Upd.after readMem_upd rfl <| by with_reducible assumption
                  exact by with_reducible assumption
          · exact .refl
        split
        · exact Upd.after loadFails_upd rfl <| by with_reducible assumption
        · exact Upd.after modSwap_upd rfl <| by with_reducible assumption

theorem setEdges_upd {s : State} {c : Crew} {r p : Nat} :
    Upd [.rooms] s (State.setEdges s c r p) := by
  unfold State.setEdges
  extract_lets x8 x9 x10 x11
  clear_value x8
  clear_value x9
  clear_value x10
  clear_value x11
  exact Upd.after modRoom_upd rfl .refl

theorem occupy_upd {s : State} {id : Nat} {c : Crew} {suite : List Nat} :
    Upd [.out, .doorway, .rooms, .fabric, .sigs] s (State.occupy s id c suite) := by
  unfold State.occupy
  extract_lets x5
  have hx5 : Upd [.out, .doorway, .rooms, .fabric, .sigs] s x5 := by
    unfold x5
    refine Upd.foldl (fun t x ht => ?_) _ ?_
    · extract_lets
      split
      extract_lets x12
      have hx12 : Upd [.out, .doorway, .rooms, .fabric, .sigs] s x12 := Upd.after modRoom_upd rfl <| by
        with_reducible assumption
      clear_value x12
      exact Upd.after reopenWindow_upd rfl <| Upd.after setEdges_upd rfl <| by with_reducible assumption
    · exact .refl
  clear_value x5
  exact Upd.after snapAgain_upd rfl <| Upd.after snapAgain_upd rfl <| by with_reducible assumption

theorem boarded_upd {s : State} {id : Nat} {c : Crew} {suite : List Nat} :
    Upd [.regs, .out, .doorway, .porches, .host, .rooms, .fabric, .sigs, .crews, .wings, .cox] s (State.boarded s id
      c suite) := by
  unfold State.boarded
  extract_lets x7 x8 x9
  have hx7 : Upd [.regs, .out, .doorway, .porches, .host, .rooms, .fabric, .sigs, .crews, .wings, .cox] s x7 :=
    Upd.after occupy_upd rfl .refl
  clear_value x7
  have hx8 : Upd [.regs, .out, .doorway, .porches, .host, .rooms, .fabric, .sigs, .crews, .wings, .cox] s x8 :=
    Upd.after dropStaged_upd rfl <| by with_reducible assumption
  clear_value x8
  have hx9 : Upd [.regs, .out, .doorway, .porches, .host, .rooms, .fabric, .sigs, .crews, .wings, .cox] s x9 :=
    Upd.after modCrew_upd rfl <| by with_reducible assumption
  clear_value x9
  exact Upd.ite (Upd.after attach_upd rfl <| by with_reducible assumption) (by with_reducible assumption)

theorem actPending_upd {s : State} {id : Nat} :
    Upd [.regs, .out, .draws, .doorway, .porches, .host, .rooms, .fabric, .sigs, .blocks, .crews, .wings, .mem,
      .bad, .stackCtl, .frames, .reads, .attic, .cox, .hatches, .gallery] s (State.actPending s id) := by
  unfold State.actPending
  split
  · exact .refl
  · split
    · exact Upd.after faultCrew_upd rfl <| Upd.after modCrew_upd rfl .refl
    · exact Upd.ite (Upd.after startDrain_upd rfl <| Upd.after modCrew_upd rfl .refl) (Upd.after modCrew_upd rfl
        .refl)

theorem swapReopen_upd {s : State} {w cycles : Nat} :
    Upd (Part.allBut [.pending, .held, .fuses, .straps, .cellar, .power, .pins, .heatCopy, .prog, .recClear, .chunk,
      .loader, .chain, .g2, .selfTest, .course]) s (State.swapReopen s w cycles) := by
  unfold State.swapReopen
  split
  · exact .refl
  · extract_lets x10 x11
    clear_value x10
    have hx11 : Upd (Part.allBut [.pending, .held, .fuses, .straps, .cellar, .power, .pins, .heatCopy, .prog,
      .recClear, .chunk, .loader, .chain, .g2, .selfTest, .course]) s x11 := Upd.after emptyRooms_upd rfl .refl
    clear_value x11
    refine Upd.ite ?_ ?_
    · extract_lets
      split
      · exact .refl
      · extract_lets x16 x17
        have hx16 : Upd (Part.allBut [.pending, .held, .fuses, .straps, .cellar, .power, .pins, .heatCopy, .prog,
          .recClear, .chunk, .loader, .chain, .g2, .selfTest, .course]) s x16 := Upd.after modCrew_upd rfl <|
          Upd.after occupy_upd rfl .refl
        clear_value x16
        have hx17 : Upd (Part.allBut [.pending, .held, .fuses, .straps, .cellar, .power, .pins, .heatCopy, .prog,
          .recClear, .chunk, .loader, .chain, .g2, .selfTest, .course]) s x17 := Upd.after attach_upd rfl <| Upd.after
          unparkPorches_upd rfl <| by with_reducible assumption
        clear_value x17
        exact Upd.after wingDone_upd rfl <| Upd.after wingFree_upd rfl <| by with_reducible assumption
    · extract_lets
      split
      · extract_lets x22
        have hx22 : Upd (Part.allBut [.pending, .held, .fuses, .straps, .cellar, .power, .pins, .heatCopy, .prog,
          .recClear, .chunk, .loader, .chain, .g2, .selfTest, .course]) s x22 := Upd.after wingFree_upd rfl <|
          Upd.after swapRecord_upd rfl <| Upd.after boarded_upd rfl <| by with_reducible assumption
        clear_value x22
        exact Upd.after wingDone_upd rfl <| Upd.after actPending_upd rfl <| by with_reducible assumption
      · exact Upd.after wingDone_upd rfl <| Upd.after wingFree_upd rfl <| Upd.after swapRecord_upd rfl <|
          Upd.after emptyRooms_upd rfl .refl
      · exact Upd.after wingDone_upd rfl <| Upd.after wingFree_upd rfl <| Upd.after swapRecord_upd rfl <|
          Upd.after emptyRooms_upd rfl .refl

theorem sliceEnds_upd {s : State} {id : Nat} :
    Upd [.regs, .out, .draws, .doorway, .host, .rooms, .fabric, .refs, .sigs, .blocks, .crews, .wings, .portOps,
      .mem, .bad, .stackCtl, .frames, .reads, .attic, .cox, .hatches, .gallery] s (State.sliceEnds s id) := by
  unfold State.sliceEnds
  extract_lets x3
  have hx3 : Upd [.regs, .out, .draws, .doorway, .host, .rooms, .fabric, .refs, .sigs, .blocks, .crews, .wings,
    .portOps, .mem, .bad, .stackCtl, .frames, .reads, .attic, .cox, .hatches, .gallery] s x3 := Upd.after decision_upd
    rfl <| Upd.after modCrew_upd rfl .refl
  clear_value x3
  split
  · exact .refl
  · exact Upd.ite (Upd.after settlePorts_upd rfl <| Upd.after modCrew_upd rfl <| by with_reducible assumption) .refl

theorem idle_upd {s : State} {id : Nat} :
    Upd [.regs, .out, .draws, .doorway, .host, .rooms, .fabric, .refs, .sigs, .blocks, .crews, .wings, .portOps,
      .mem, .bad, .stackCtl, .frames, .reads, .attic, .cox, .hatches, .gallery] s (State.idle s id) := by
  unfold State.idle
  split
  · exact .refl
  · exact Upd.ite .refl (Upd.ite (Upd.after settlePorts_upd rfl <| Upd.after startDrain_upd rfl .refl) (Upd.after
      sliceEnds_upd rfl <| Upd.after modCrew_upd rfl .refl))

theorem pulseDone_upd {s : State} {h : Half} {kind index : Nat} :
    Upd (Part.allBut [.pending, .held, .fuses, .straps, .cellar, .seq, .power, .security, .pins, .porches, .lines,
      .ids, .heatCopy, .stamps, .alloc, .prog, .recClear, .retiring, .chunk, .loader, .chain, .g2, .selfTest,
      .course]) s (State.pulseDone s h kind index) := by
  unfold State.pulseDone
  extract_lets x6 x7
  clear_value x6
  have hx7 : Upd (Part.allBut [.pending, .held, .fuses, .straps, .cellar, .seq, .power, .security, .pins, .porches,
    .lines, .ids, .heatCopy, .stamps, .alloc, .prog, .recClear, .retiring, .chunk, .loader, .chain, .g2, .selfTest,
    .course]) s x7 := Upd.after pulseAway_upd rfl .refl
  clear_value x7
  exact Upd.ite .refl (Upd.ite (Upd.after raise_upd rfl <| by with_reducible assumption) (Upd.ite (Upd.after
    idle_upd rfl <| by with_reducible assumption) (by with_reducible assumption)))

theorem flipRoom_upd {s : State} {id heat r p : Nat} {keepOld : Bool} :
    Upd [.rooms] s (State.flipRoom s id heat r p keepOld) := by
  unfold State.flipRoom
  extract_lets x8 x9
  clear_value x8
  clear_value x9
  exact Upd.after modRoom_upd rfl .refl

theorem swapFlip_upd {s : State} {w : Nat} :
    Upd [.draws, .cross, .porches, .rooms, .wings] s (State.swapFlip s w) := by
  unfold State.swapFlip
  split
  · exact .refl
  · split
    · exact .refl
    · extract_lets x15 x16
      have hx15 : Upd [.draws, .cross, .porches, .rooms, .wings] s x15 := by
        unfold x15
        refine Upd.foldl (fun t x ht => ?_) _ ?_
        · split
          exact Upd.after flipRoom_upd rfl <| by with_reducible assumption
        · exact .refl
      clear_value x15
      have hx16 : Upd [.draws, .cross, .porches, .rooms, .wings] s x16 := by
        unfold x16
        split
        · exact Upd.ite (Upd.after fabricReset_upd rfl <| by with_reducible assumption) (by with_reducible assumption)
        · exact by with_reducible assumption
      clear_value x16
      exact Upd.ite (Upd.after modSwap_upd rfl .refl) (Upd.after modSwap_upd rfl <| by with_reducible assumption)

theorem loadRoom_upd {s : State} {w id : Nat} {c : Crew} {r p : Nat} {preload : Bool} :
    Upd [.regs, .out, .host, .rooms, .fabric, .refs, .wings, .stackCtl, .frames, .attic, .cox, .gallery] s
      (State.loadRoom s w id c r p preload).2 := by
  unfold State.loadRoom
  refine Upd.ite_snd ?_ ?_
  · exact .refl
  · extract_lets
    split
    · rename_i t14 e14
      have ht14 : Upd [.regs, .out, .host, .rooms, .fabric, .refs, .wings, .stackCtl, .frames, .attic, .cox,
        .gallery] s t14 := Upd.of_pair e14 <| Upd.after fetchPlane_upd rfl .refl
      dsimp -zeta only
      exact Upd.after writeShadow_upd rfl <| by with_reducible assumption
    · rename_i t12 e12
      have ht12 : Upd [.regs, .out, .host, .rooms, .fabric, .refs, .wings, .stackCtl, .frames, .attic, .cox,
        .gallery] s t12 := Upd.of_pair e12 <| Upd.after fetchPlane_upd rfl .refl
      exact by with_reducible assumption
    · rename_i t13 e13
      have ht13 : Upd [.regs, .out, .host, .rooms, .fabric, .refs, .wings, .stackCtl, .frames, .attic, .cox,
        .gallery] s t13 := Upd.of_pair e13 <| Upd.after fetchPlane_upd rfl .refl
      extract_lets x16 x17
      have hx16 : Upd [.regs, .out, .host, .rooms, .fabric, .refs, .wings, .stackCtl, .frames, .attic, .cox,
        .gallery] s x16 := Upd.after losePreload_upd rfl <| by with_reducible assumption
      clear_value x16
      have hx17 : Upd [.regs, .out, .host, .rooms, .fabric, .refs, .wings, .stackCtl, .frames, .attic, .cox,
        .gallery] s x17 := Upd.after putPlane_upd rfl <| by with_reducible assumption
      clear_value x17
      dsimp -zeta only
      exact Upd.after modRoom_upd rfl <| by with_reducible assumption

theorem swapLoad_upd {s : State} {w cycles : Nat} :
    Upd (Part.allBut [.pending, .held, .fuses, .straps, .cellar, .power, .pins, .heatCopy, .prog, .recClear, .chunk,
      .loader, .chain, .g2, .selfTest, .course]) s (State.swapLoad s w cycles) := by
  unfold State.swapLoad
  split
  · exact .refl
  · split
    · exact .refl
    · extract_lets x15
      have hx15 : Upd (Part.allBut [.pending, .held, .fuses, .straps, .cellar, .power, .pins, .heatCopy, .prog,
        .recClear, .chunk, .loader, .chain, .g2, .selfTest, .course]) s x15 := Upd.after modCrew_upd rfl .refl
      clear_value x15
      split
      · exact Upd.after modSwap_upd rfl .refl
      · refine Upd.ite ?_ ?_
        · exact .refl
        · split
          rename_i t27 e27
          have ht27 : Upd (Part.allBut [.pending, .held, .fuses, .straps, .cellar, .power, .pins, .heatCopy, .prog,
            .recClear, .chunk, .loader, .chain, .g2, .selfTest, .course]) s t27 := by
            refine Upd.of_pair e27 <| Upd.foldl_snd (fun b x hb => ?_) _ ?_
            · split
              split
              · exact by with_reducible assumption
              · split
                · rename_i t44 e44
                  have ht44 : Upd (Part.allBut [.pending, .held, .fuses, .straps, .cellar, .power, .pins, .heatCopy,
                    .prog, .recClear, .chunk, .loader, .chain, .g2, .selfTest, .course]) s t44 := Upd.of_pair e44 <|
                    Upd.after loadRoom_upd rfl <| by with_reducible assumption
                  exact by with_reducible assumption
                · rename_i t44 e44
                  have ht44 : Upd (Part.allBut [.pending, .held, .fuses, .straps, .cellar, .power, .pins, .heatCopy,
                    .prog, .recClear, .chunk, .loader, .chain, .g2, .selfTest, .course]) s t44 := Upd.of_pair e44 <|
                    Upd.after loadRoom_upd rfl <| by with_reducible assumption
                  exact by with_reducible assumption
            · exact by with_reducible assumption
          split
          · exact Upd.after loadFails_upd rfl <| by with_reducible assumption
          · exact Upd.after modSwap_upd rfl <| by with_reducible assumption

theorem saveRoom_upd {s : State} {c : Crew} {r p : Nat} {forced : Bool} :
    Upd [.mem, .bad] s (State.saveRoom s c r p forced) := by
  unfold State.saveRoom
  extract_lets x8 x9 x10
  clear_value x8
  clear_value x9
  clear_value x10
  exact Upd.after putWhole_upd rfl .refl

theorem readFlag_upd {s : State} {r now : Nat} :
    Upd [.rooms] s (State.readFlag s r now) := by
  unfold State.readFlag
  extract_lets x5 x6
  clear_value x5
  clear_value x6
  exact Upd.ite (Upd.after modRoom_upd rfl .refl) (Upd.after modRoom_upd rfl .refl)

theorem takeTarget_upd {s : State} {id : Nat} {flagged : Option Nat} {forced : Bool} :
    Upd [.regs, .out, .draws, .security, .doorway, .porches, .host, .rooms, .crews, .ids, .stamps, .wings, .mem,
      .bad, .stackCtl, .frames, .alloc, .attic, .cox, .hatches, .gallery] s (State.takeTarget s id flagged forced) :=
      by
  unfold State.takeTarget
  extract_lets x5
  have hx5 : Upd [.regs, .out, .draws, .security, .doorway, .porches, .host, .rooms, .crews, .ids, .stamps, .wings,
    .mem, .bad, .stackCtl, .frames, .alloc, .attic, .cox, .hatches, .gallery] s x5 := Upd.after modCrew_upd rfl .refl
  clear_value x5
  split
  · exact .refl
  · refine Upd.ite ?_ ?_
    · exact Upd.after release_upd rfl <| by with_reducible assumption
    · refine Upd.ite ?_ ?_
      · exact Upd.after enterFaulted_upd rfl <| Upd.after modCrew_upd rfl <| by with_reducible assumption
      · split
        · exact Upd.after enterFaulted_upd rfl <| by with_reducible assumption
        · split
          · exact Upd.after enterReady_upd rfl <| by with_reducible assumption
          · exact Upd.after enterFaulted_upd rfl <| by with_reducible assumption
          · exact Upd.after modCrew_upd rfl <| by with_reducible assumption

theorem saveCrew_upd {s : State} {id now : Nat} {forced : Bool} :
    Upd [.regs, .out, .draws, .security, .doorway, .porches, .host, .rooms, .crews, .ids, .stamps, .wings, .mem,
      .bad, .stackCtl, .frames, .alloc, .attic, .cox, .hatches, .gallery] s (State.saveCrew s id now forced).2 := by
  unfold State.saveCrew
  split
  · exact .refl
  · split
    rename_i t15 e15
    have ht15 : Upd [.regs, .out, .draws, .security, .doorway, .porches, .host, .rooms, .crews, .ids, .stamps,
      .wings, .mem, .bad, .stackCtl, .frames, .alloc, .attic, .cox, .hatches, .gallery] s t15 := by
      refine Upd.of_pair e15 <| Upd.foldl_snd (fun b x hb => ?_) _ ?_
      · extract_lets
        split
        split
        extract_lets x27 x28
        have hx27 : Upd [.regs, .out, .draws, .security, .doorway, .porches, .host, .rooms, .crews, .ids, .stamps,
          .wings, .mem, .bad, .stackCtl, .frames, .alloc, .attic, .cox, .hatches, .gallery] s x27 := Upd.ite (by
          with_reducible assumption) (Upd.after saveRoom_upd rfl <| by with_reducible assumption)
        clear_value x27
        clear_value x28
        dsimp -zeta only
        exact Upd.after readFlag_upd rfl <| by with_reducible assumption
      · exact .refl
    dsimp -zeta only
    exact Upd.after takeTarget_upd rfl <| by with_reducible assumption

theorem saveCrews_upd {s : State} {ids : List Nat} {now : Nat} {forced : Bool} :
    Upd [.regs, .out, .draws, .security, .doorway, .porches, .host, .rooms, .crews, .ids, .stamps, .wings, .mem,
      .bad, .stackCtl, .frames, .alloc, .attic, .cox, .hatches, .gallery] s (State.saveCrews s ids now forced).2 := by
  unfold State.saveCrews
  refine Upd.foldl_snd (fun b x hb => ?_) _ ?_
  · split
    rename_i t13 e13
    have ht13 : Upd [.regs, .out, .draws, .security, .doorway, .porches, .host, .rooms, .crews, .ids, .stamps,
      .wings, .mem, .bad, .stackCtl, .frames, .alloc, .attic, .cox, .hatches, .gallery] s t13 := Upd.of_pair e13 <|
      Upd.after saveCrew_upd rfl <| by with_reducible assumption
    exact by with_reducible assumption
  · exact .refl

theorem backToReady_upd {s : State} {inc : Option (Nat × Nat)} :
    Upd [.crews] s (State.backToReady s inc) := by
  unfold State.backToReady
  split
  · exact .refl
  · exact Upd.ite (Upd.after modCrew_upd rfl .refl) .refl

theorem afterSave_upd {s : State} {w : Nat} {x : Swap} {flag : Bool} {cycles : Nat} :
    Upd (Part.allBut [.pending, .held, .fuses, .straps, .cellar, .power, .pins, .heatCopy, .prog, .recClear, .chunk,
      .loader, .chain, .g2, .selfTest, .course]) s (State.afterSave s w x flag cycles) := by
  unfold State.afterSave
  extract_lets x7 x8
  have hx7 : Upd (Part.allBut [.pending, .held, .fuses, .straps, .cellar, .power, .pins, .heatCopy, .prog,
    .recClear, .chunk, .loader, .chain, .g2, .selfTest, .course]) s x7 := Upd.after modRooms_upd rfl .refl
  clear_value x7
  clear_value x8
  exact Upd.ite (Upd.after wingDone_upd rfl <| Upd.after wingFree_upd rfl <| Upd.after emptyRooms_upd rfl <| by
    with_reducible assumption) (Upd.ite (Upd.after wingDone_upd rfl <| Upd.after wingFree_upd rfl <| Upd.after
    swapRecord_upd rfl <| Upd.after emptyRooms_upd rfl <| Upd.after backToReady_upd rfl <| by with_reducible
    assumption) (Upd.after settlePorts_upd rfl <| Upd.after decision_upd rfl <| Upd.after settlePorts_upd rfl <|
    Upd.after modSwap_upd rfl <| by with_reducible assumption))

theorem keepCrew_upd {s : State} {id : Nat} {late : Bool} :
    Upd [.out, .draws, .doorway, .rooms, .fabric, .sigs, .blocks, .crews, .wings, .reads] s (State.keepCrew s id
      late) := by
  unfold State.keepCrew
  split
  · exact .refl
  · extract_lets x11 x12 x13
    have hx11 : Upd [.out, .draws, .doorway, .rooms, .fabric, .sigs, .blocks, .crews, .wings, .reads] s x11 :=
      Upd.after modRooms_upd rfl .refl
    clear_value x11
    have hx12 : Upd [.out, .draws, .doorway, .rooms, .fabric, .sigs, .blocks, .crews, .wings, .reads] s x12 :=
      Upd.after reopenRooms_upd rfl <| by with_reducible assumption
    clear_value x12
    have hx13 : Upd [.out, .draws, .doorway, .rooms, .fabric, .sigs, .blocks, .crews, .wings, .reads] s x13 :=
      Upd.after modCrew_upd rfl <| by with_reducible assumption
    clear_value x13
    exact Upd.ite (by with_reducible assumption) (Upd.after startDrain_upd rfl <| by with_reducible assumption)

theorem quiesceLimit_upd {s : State} {w now cycles : Nat} :
    Upd (Part.allBut [.pending, .held, .fuses, .straps, .cellar, .power, .pins, .heatCopy, .prog, .recClear, .chunk,
      .loader, .chain, .g2, .selfTest, .course]) s (State.quiesceLimit s w now cycles) := by
  unfold State.quiesceLimit
  extract_lets x6 x7
  clear_value x6
  have hx7 : Upd (Part.allBut [.pending, .held, .fuses, .straps, .cellar, .power, .pins, .heatCopy, .prog,
    .recClear, .chunk, .loader, .chain, .g2, .selfTest, .course]) s x7 := .refl
  clear_value x7
  split
  · split
    · exact Upd.ite (Upd.after modRooms_upd rfl .refl) .refl
    · exact .refl
  · extract_lets x19 x20 x21 x22 x23 x24 x25
    clear_value x19
    clear_value x20
    clear_value x21
    have hx22 : Upd (Part.allBut [.pending, .held, .fuses, .straps, .cellar, .power, .pins, .heatCopy, .prog,
      .recClear, .chunk, .loader, .chain, .g2, .selfTest, .course]) s x22 := Upd.foldl (fun t x ht => Upd.after
      modRooms_upd rfl <| by with_reducible assumption) _ .refl
    clear_value x22
    clear_value x23
    clear_value x24
    clear_value x25
    refine Upd.ite ?_ ?_
    · exact .refl
    · extract_lets
      split
      rename_i t26 e26
      have ht26 : Upd (Part.allBut [.pending, .held, .fuses, .straps, .cellar, .power, .pins, .heatCopy, .prog,
        .recClear, .chunk, .loader, .chain, .g2, .selfTest, .course]) s t26 := Upd.of_pair e26 <| Upd.after
        saveCrews_upd rfl <| by with_reducible assumption
      refine Upd.ite ?_ ?_
      · exact Upd.ite (Upd.after afterSave_upd rfl <| by with_reducible assumption) (Upd.after settlePorts_upd rfl
          <| Upd.after modSwap_upd rfl <| by with_reducible assumption)
      · extract_lets
        split
        rename_i t33 e33
        have ht33 : Upd (Part.allBut [.pending, .held, .fuses, .straps, .cellar, .power, .pins, .heatCopy, .prog,
          .recClear, .chunk, .loader, .chain, .g2, .selfTest, .course]) s t33 := Upd.of_pair e33 <| Upd.after
          saveCrews_upd rfl <| by with_reducible assumption
        extract_lets x36 x37
        have hx36 : Upd (Part.allBut [.pending, .held, .fuses, .straps, .cellar, .power, .pins, .heatCopy, .prog,
          .recClear, .chunk, .loader, .chain, .g2, .selfTest, .course]) s x36 := Upd.after emptyRooms_upd rfl <|
          Upd.after backToReady_upd rfl <| by with_reducible assumption
        clear_value x36
        have hx37 : Upd (Part.allBut [.pending, .held, .fuses, .straps, .cellar, .power, .pins, .heatCopy, .prog,
          .recClear, .chunk, .loader, .chain, .g2, .selfTest, .course]) s x37 := Upd.after wingFree_upd rfl <|
          Upd.after swapRecord_upd rfl <| by with_reducible assumption
        clear_value x37
        exact Upd.after wingDone_upd rfl <| Upd.foldl (fun t x ht => Upd.after keepCrew_upd rfl <| by with_reducible
          assumption) _ (by with_reducible assumption)

theorem swapSave_upd {s : State} {w now cycles : Nat} :
    Upd (Part.allBut [.pending, .held, .fuses, .straps, .cellar, .power, .pins, .heatCopy, .prog, .recClear, .chunk,
      .loader, .chain, .g2, .selfTest, .course]) s (State.swapSave s w now cycles) := by
  unfold State.swapSave
  split
  · exact .refl
  · refine Upd.ite ?_ ?_
    · exact .refl
    · split
      rename_i t15 e15
      have ht15 : Upd (Part.allBut [.pending, .held, .fuses, .straps, .cellar, .power, .pins, .heatCopy, .prog,
        .recClear, .chunk, .loader, .chain, .g2, .selfTest, .course]) s t15 := Upd.of_pair e15 <| Upd.after
        saveCrews_upd rfl .refl
      exact Upd.after afterSave_upd rfl <| by with_reducible assumption

theorem idlePulse_upd {s : State} {id : Nat} :
    Upd (Part.allBut [.pending, .held, .fuses, .straps, .cellar, .seq, .power, .security, .pins, .porches, .lines,
      .ids, .heatCopy, .stamps, .alloc, .prog, .recClear, .retiring, .chunk, .loader, .chain, .g2, .selfTest,
      .course]) s (State.idlePulse s id) := by
  unfold State.idlePulse
  extract_lets x3
  clear_value x3
  split
  · exact .refl
  · extract_lets x9
    clear_value x9
    exact Upd.ite .refl (Upd.ite (Upd.after pulseFor_upd rfl .refl) (Upd.after idle_upd rfl .refl))

theorem age_upd {s : State} {id : Nat} :
    Upd [.regs, .out, .draws, .doorway, .host, .rooms, .fabric, .refs, .sigs, .blocks, .crews, .stamps, .wings,
      .mem, .bad, .stackCtl, .frames, .reads, .attic, .cox, .hatches, .gallery] s (State.age s id) := by
  unfold State.age
  split
  · exact .refl
  · refine Upd.ite ?_ ?_
    · split
      rename_i t13 e13
      have ht13 : Upd [.regs, .out, .draws, .doorway, .host, .rooms, .fabric, .refs, .sigs, .blocks, .crews,
        .stamps, .wings, .mem, .bad, .stackCtl, .frames, .reads, .attic, .cox, .hatches, .gallery] s t13 :=
        Upd.of_pair e13 <| Upd.after stamp_upd rfl .refl
      exact Upd.ite (Upd.after decision_upd rfl <| Upd.after modCrew_upd rfl <| by with_reducible assumption)
        (Upd.after modCrew_upd rfl .refl)
    · exact .refl

theorem setSrcReady_upd {s : State} {h : Half} {c : ClockSrc} {b : Bool} :
    Upd [.regs, .draws, .cross, .porches] s (State.setSrcReady s h c b) := by
  unfold State.setSrcReady
  split
  · extract_lets x7
    have hx7 : Upd [.regs, .draws, .cross, .porches] s x7 := Upd.ite (Upd.after porchReset_upd rfl .refl) .refl
    clear_value x7
    exact Upd.after wr_upd rfl <| by with_reducible assumption
  · exact Upd.after wr_upd rfl .refl
  · split
    · exact Upd.after wr_upd rfl .refl
    · exact .refl

theorem avsCommit_upd {s : State} {h : Half} {rail half2 : Nat} :
    Upd [.regs, .out, .power] s (State.avsCommit s h rail half2) := by
  unfold State.avsCommit
  extract_lets x5
  have hx5 : Upd [.regs, .out, .power] s x5 := Upd.after emit_upd rfl .refl
  clear_value x5
  exact Upd.ite (Upd.after wr_upd rfl <| Upd.after modPow_upd rfl <| by with_reducible assumption) (Upd.after wr_upd
    rfl <| Upd.after modPow_upd rfl <| by with_reducible assumption)

theorem avsPut_upd {s : State} {h : Half} {rail half2 : Nat} {forOp : Bool} :
    Upd [.power] s (State.avsPut s h rail half2 forOp) := by
  unfold State.avsPut
  exact Upd.after modPow_upd rfl .refl

theorem vfabGo_upd {s : State} {h : Half} {half2 : Nat} :
    Upd [.power] s (State.vfabGo s h half2) := by
  unfold State.vfabGo
  extract_lets x5 x6
  clear_value x5
  have hx6 : Upd [.power] s x6 := Upd.after modPow_upd rfl .refl
  clear_value x6
  exact Upd.ite (by with_reducible assumption) (Upd.after avsPut_upd rfl <| by with_reducible assumption)

theorem setGateStage_upd {s : State} {h : Half} {b : Gated} {st : Option GateStage} :
    Upd [.power] s (State.setGateStage s h b st) := by
  unfold State.setGateStage
  exact Upd.after modPow_upd rfl .refl

theorem swEnd_upd {s : State} {h : Half} {reason : Nat} :
    Upd [.regs] s (State.swEnd s h reason) := by
  unfold State.swEnd
  exact Upd.after wrs_upd rfl .refl

theorem preempt_upd {s : State} {h : Half} {old : Option (Nat × Bool)} :
    Upd [.regs, .out, .host, .cox] s (State.preempt s h old) := by
  unfold State.preempt
  split
  · exact Upd.after raise_upd rfl <| Upd.after swEnd_upd rfl .refl
  · exact .refl

theorem svcDone_upd {s : State} {h : Half} {t : Nat} {bySw escaped : Bool} :
    Upd [.regs, .out, .power, .host, .cox] s (State.svcDone s h t bySw escaped) := by
  unfold State.svcDone
  extract_lets x7 x8
  have hx7 : Upd [.regs, .out, .power, .host, .cox] s x7 := Upd.after wr_upd rfl <| Upd.after modPow_upd rfl .refl
  clear_value x7
  have hx8 : Upd [.regs, .out, .power, .host, .cox] s x8 := Upd.ite (Upd.after raise_upd rfl <| Upd.after wr_upd rfl
    <| by with_reducible assumption) (by with_reducible assumption)
  clear_value x8
  exact Upd.ite (Upd.after raise_upd rfl <| Upd.after swEnd_upd rfl <| by with_reducible assumption) (by
    with_reducible assumption)

theorem svcSwitch_upd {s : State} {h : Half} {t : Nat} {bySw edges : Bool} :
    Upd [.regs, .out, .power, .host, .cox] s (State.svcSwitch s h t bySw edges) := by
  unfold State.svcSwitch
  extract_lets x6
  have hx6 : Upd [.regs, .out, .power, .host, .cox] s x6 := Upd.after preempt_upd rfl .refl
  clear_value x6
  exact Upd.ite (Upd.after svcDone_upd rfl <| by with_reducible assumption) (Upd.after modPow_upd rfl <| by
    with_reducible assumption)

theorem opResult_upd {s : State} {h : Half} {reason : Nat} :
    Upd [.regs, .out, .host, .cox] s (State.opResult s h reason) := by
  unfold State.opResult
  exact Upd.ite (Upd.after raise_upd rfl <| Upd.after wrs_upd rfl .refl) (Upd.after wrs_upd rfl .refl)

theorem opStart_upd {s : State} {h : Half} {target : Nat} {byGov : Bool} :
    Upd [.regs, .draws, .power, .cross, .porches] s (State.opStart s h target byGov) := by
  unfold State.opStart
  extract_lets x8 x9 x10 x11
  clear_value x8
  clear_value x9
  have hx10 : Upd [.regs, .draws, .power, .cross, .porches] s x10 := Upd.after setSrcReady_upd rfl .refl
  clear_value x10
  have hx11 : Upd [.regs, .draws, .power, .cross, .porches] s x11 := Upd.after modPow_upd rfl <| by with_reducible
    assumption
  clear_value x11
  exact Upd.ite (Upd.after avsPut_upd rfl <| by with_reducible assumption) (by with_reducible assumption)

theorem opBegin_upd {s : State} {h : Half} :
    Upd [.regs, .out, .draws, .power, .cross, .porches, .host, .cox] s (State.opBegin s h) := by
  unfold State.opBegin
  extract_lets x3
  clear_value x3
  exact Upd.ite (Upd.after opResult_upd rfl .refl) (Upd.ite (Upd.after opResult_upd rfl .refl) (Upd.after
    opStart_upd rfl .refl))

theorem opEnd_upd {s : State} {h : Half} {reason : Nat} :
    Upd [.regs, .out, .draws, .power, .cross, .porches, .host, .cox] s (State.opEnd s h reason) := by
  unfold State.opEnd
  extract_lets x4
  have hx4 : Upd [.regs, .out, .draws, .power, .cross, .porches, .host, .cox] s x4 := Upd.after modPow_upd rfl .refl
  clear_value x4
  split
  · exact .refl
  · exact Upd.ite (Upd.after opResult_upd rfl <| by with_reducible assumption) (Upd.ite (Upd.after opBegin_upd rfl
      <| by with_reducible assumption) (by with_reducible assumption))

theorem opSwitched_upd {s : State} {h : Half} {c : OpChange} :
    Upd [.regs, .out, .draws, .power, .cross, .porches, .host, .cox] s (State.opSwitched s h c) := by
  unfold State.opSwitched
  extract_lets x4
  have hx4 : Upd [.regs, .out, .draws, .power, .cross, .porches, .host, .cox] s x4 := Upd.after wr_upd rfl <|
    Upd.after setSrcReady_upd rfl .refl
  clear_value x4
  exact Upd.ite (Upd.after opEnd_upd rfl <| by with_reducible assumption) (Upd.after avsPut_upd rfl <| Upd.after
    modPow_upd rfl <| by with_reducible assumption)

theorem hallDone_upd {s : State} {h : Half} {t : Nat} {bySw escaped : Bool} :
    Upd [.regs, .out, .draws, .power, .cross, .porches, .host, .cox] s (State.hallDone s h t bySw escaped) := by
  unfold State.hallDone
  extract_lets x9 x10 x11 x12
  have hx9 : Upd [.regs, .out, .draws, .power, .cross, .porches, .host, .cox] s x9 := Upd.after wr_upd rfl <|
    Upd.after modPow_upd rfl .refl
  clear_value x9
  have hx10 : Upd [.regs, .out, .draws, .power, .cross, .porches, .host, .cox] s x10 := Upd.after wr_upd rfl <| by
    with_reducible assumption
  clear_value x10
  have hx11 : Upd [.regs, .out, .draws, .power, .cross, .porches, .host, .cox] s x11 := Upd.ite (Upd.after raise_upd
    rfl <| Upd.after wr_upd rfl <| by with_reducible assumption) (by with_reducible assumption)
  clear_value x11
  have hx12 : Upd [.regs, .out, .draws, .power, .cross, .porches, .host, .cox] s x12 := Upd.ite (Upd.after raise_upd
    rfl <| Upd.after swEnd_upd rfl <| by with_reducible assumption) (by with_reducible assumption)
  clear_value x12
  split
  · exact Upd.ite (Upd.after opSwitched_upd rfl <| by with_reducible assumption) (by with_reducible assumption)
  · exact by with_reducible assumption

theorem hallSwitch_upd {s : State} {h : Half} {t : Nat} {bySw edges : Bool} :
    Upd [.regs, .out, .draws, .power, .cross, .porches, .host, .cox] s (State.hallSwitch s h t bySw edges) := by
  unfold State.hallSwitch
  extract_lets x6
  have hx6 : Upd [.regs, .out, .draws, .power, .cross, .porches, .host, .cox] s x6 := Upd.after preempt_upd rfl .refl
  clear_value x6
  exact Upd.ite (Upd.after hallDone_upd rfl <| by with_reducible assumption) (Upd.after modPow_upd rfl <| by
    with_reducible assumption)

theorem swGo_upd {s : State} {h : Half} {svc : Bool} {t : Nat} :
    Upd [.regs, .out, .draws, .power, .cross, .porches, .host, .cox] s (State.swGo s h svc t) := by
  unfold State.swGo
  extract_lets x7 x8 x9
  clear_value x7
  have hx8 : Upd [.regs, .out, .draws, .power, .cross, .porches, .host, .cox] s x8 := Upd.after wrs_upd rfl .refl
  clear_value x8
  have hx9 : Upd [.regs, .out, .draws, .power, .cross, .porches, .host, .cox] s x9 := Upd.after wrs_upd rfl <|
    Upd.after step1_upd rfl <| by with_reducible assumption
  clear_value x9
  exact Upd.ite (by with_reducible assumption) (Upd.ite (Upd.after swEnd_upd rfl <| by with_reducible assumption)
    (Upd.ite (Upd.ite (Upd.after raise_upd rfl <| Upd.after swEnd_upd rfl <| by with_reducible assumption) (Upd.ite
    (Upd.after svcSwitch_upd rfl <| by with_reducible assumption) (Upd.after swEnd_upd rfl <| by with_reducible
    assumption))) (Upd.ite (Upd.after swEnd_upd rfl <| by with_reducible assumption) (Upd.ite (Upd.after raise_upd rfl
    <| Upd.after swEnd_upd rfl <| by with_reducible assumption) (Upd.ite (Upd.after hallSwitch_upd rfl <| by
    with_reducible assumption) (Upd.after swEnd_upd rfl <| by with_reducible assumption))))))

theorem tickGo_upd {s : State} {crystal : Bool} :
    Upd [.regs, .cellar] s (State.tickGo s crystal) := by
  unfold State.tickGo
  extract_lets x7 x8 x9 x10 x11
  clear_value x7
  have hx8 : Upd [.regs, .cellar] s x8 := Upd.after wrs_upd rfl .refl
  clear_value x8
  clear_value x9
  have hx10 : Upd [.regs, .cellar] s x10 := Upd.after wrs_upd rfl .refl
  clear_value x10
  clear_value x11
  refine Upd.ite ?_ ?_
  · refine Upd.cellar ?_ rfl
    exact by with_reducible assumption
  · refine Upd.ite ?_ ?_
    · exact Upd.after wrs_upd rfl .refl
    · refine Upd.ite ?_ ?_
      · refine Upd.cellar ?_ rfl
        exact by with_reducible assumption
      · exact Upd.after wr_upd rfl <| by with_reducible assumption

theorem xtalSet_upd {s : State} {on : Bool} :
    Upd [.regs] s (State.xtalSet s on) := by
  unfold State.xtalSet
  exact Upd.ite .refl (Upd.after wr_upd rfl <| Upd.after wr_upd rfl .refl)

theorem gateReopen_upd {s : State} {h : Half} {b : Gated} :
    Upd [.regs, .power] s (State.gateReopen s h b) := by
  unfold State.gateReopen
  exact Upd.ite (Upd.after wr_upd rfl <| Upd.after setGateStage_upd rfl .refl) .refl

theorem govShow_upd {s : State} {h : Half} :
    Upd [.regs] s (State.govShow s h) := by
  unfold State.govShow
  exact Upd.after wrs_upd rfl .refl

theorem govDrop_upd {s : State} {h : Half} :
    Upd [.regs, .draws, .power, .cross, .porches] s (State.govDrop s h) := by
  unfold State.govDrop
  split
  · exact .refl
  · extract_lets x9
    have hx9 : Upd [.regs, .draws, .power, .cross, .porches] s x9 := Upd.after modPow_upd rfl .refl
    clear_value x9
    split
    · exact Upd.after vfabGo_upd rfl <| by with_reducible assumption
    · exact Upd.ite (by with_reducible assumption) (Upd.after opStart_upd rfl <| by with_reducible assumption)
    all_goals with_reducible assumption

theorem gateShut_upd {s : State} {h : Half} {b : Gated} :
    Upd [.regs, .power] s (State.gateShut s h b) := by
  unfold State.gateShut
  exact Upd.after wr_upd rfl <| Upd.after setGateStage_upd rfl .refl

theorem escape_upd {s : State} {x1 : Mux} :
    Upd [.regs, .out, .draws, .cellar, .power, .cross, .porches, .host, .cox] s (State.escape s x1) := by
  unfold State.escape
  extract_lets x3
  clear_value x3
  split
  · split
    · exact Upd.after hallDone_upd rfl .refl
    · exact .refl
  · split
    · exact Upd.after svcDone_upd rfl .refl
    · exact .refl
  · split
    · refine Upd.after raise_upd rfl <| Upd.after wrs_upd rfl <| Upd.cellar ?_ rfl
      exact .refl
    · exact .refl

theorem opAdvance_upd {s : State} {h : Half} :
    Upd [.regs, .out, .draws, .power, .cross, .porches, .host, .cox] s (State.opAdvance s h) := by
  unfold State.opAdvance
  split
  · exact Upd.ite (Upd.after hallSwitch_upd rfl .refl) .refl
  · exact .refl

theorem srcFail.toPll_upd {h : Half} {s : State} {edges : Bool} :
    Upd [.regs, .out, .draws, .power, .cross, .porches, .host, .cox] s (State.srcFail.toPll h s edges) := by
  unfold State.srcFail.toPll
  exact Upd.ite (Upd.after hallSwitch_upd rfl .refl) (Upd.ite (Upd.after hallSwitch_upd rfl .refl) .refl)

theorem srcFail.opNeeds_upd {h : Half} {s : State} {n : Nat} :
    Upd [.regs, .out, .draws, .power, .cross, .porches, .host, .cox] s (State.srcFail.opNeeds h s n) := by
  unfold State.srcFail.opNeeds
  split
  · exact Upd.ite (Upd.after opEnd_upd rfl .refl) .refl
  · exact .refl

theorem srcFail_upd {s : State} {h : Half} {c : ClockSrc} {edges : Bool} :
    Upd [.regs, .out, .draws, .power, .cross, .porches, .host, .cox] s (State.srcFail s h c edges) := by
  unfold State.srcFail
  extract_lets x10 x11 x12 x13 x14 x15
  clear_value x10
  have hx11 : Upd [.regs, .out, .draws, .power, .cross, .porches, .host, .cox] s x11 := Upd.after setSrcReady_upd
    rfl .refl
  clear_value x11
  have hx12 : Upd [.regs, .out, .draws, .power, .cross, .porches, .host, .cox] s x12 := by
    unfold x12
    split
    · exact Upd.after wr_upd rfl <| by with_reducible assumption
    · exact by with_reducible assumption
  clear_value x12
  have hx13 : Upd [.regs, .out, .draws, .power, .cross, .porches, .host, .cox] s x13 := Upd.after raise_upd rfl <|
    by with_reducible assumption
  clear_value x13
  have hx14 : ∀ a0, Upd [.regs, .out, .draws, .power, .cross, .porches, .host, .cox] s a0 → Upd [.regs, .out,
    .draws, .power, .cross, .porches, .host, .cox] s (x14 a0) := by
    intros
    exact Upd.ite (Upd.after hallSwitch_upd rfl <| by with_reducible assumption) (Upd.after State.srcFail.toPll_upd
      rfl <| by with_reducible assumption)
  clear_value x14
  have hx15 : Upd [.regs, .out, .draws, .power, .cross, .porches, .host, .cox] s x15 := Upd.after emit_upd rfl <| by
    with_reducible assumption
  clear_value x15
  split
  · exact Upd.ite (hx14 _ <| Upd.after emit_upd rfl <| by with_reducible assumption) (Upd.after
      State.srcFail.opNeeds_upd rfl <| by with_reducible assumption)
  · exact Upd.ite (hx14 _ <| Upd.after emit_upd rfl <| by with_reducible assumption) (Upd.after
      State.srcFail.opNeeds_upd rfl <| by with_reducible assumption)
  · exact Upd.ite (by with_reducible assumption) (Upd.ite (Upd.after hallSwitch_upd rfl <| by with_reducible
      assumption) (by with_reducible assumption))
  · exact Upd.ite (Upd.after State.srcFail.toPll_upd rfl <| by with_reducible assumption) (by with_reducible
      assumption)
  · exact Upd.ite (Upd.ite (Upd.after svcSwitch_upd rfl <| by with_reducible assumption) (by with_reducible
      assumption)) (by with_reducible assumption)
  all_goals with_reducible assumption

theorem govTake_upd {s : State} {a : GovAct} {h : Half} :
    Upd [.regs, .draws, .power, .cross, .porches] s (State.govTake s a h) := by
  unfold State.govTake
  extract_lets x4
  have hx4 : Upd [.regs, .draws, .power, .cross, .porches] s x4 := Upd.after modPow_upd rfl .refl
  clear_value x4
  split
  · exact Upd.after vfabGo_upd rfl <| by with_reducible assumption
  · exact Upd.after opStart_upd rfl <| by with_reducible assumption
  all_goals with_reducible assumption

theorem g2Leave_upd {s : State} :
    Upd [.regs, .g2] s (State.g2Leave s) := by
  unfold State.g2Leave
  extract_lets x3 x4
  have hx3 : Upd [.regs, .g2] s x3 := Upd.after wr_upd rfl .refl
  clear_value x3
  clear_value x4
  refine Upd.g2 ?_ rfl
  exact by with_reducible assumption

theorem g2Room_upd {s : State} {r : Nat} :
    Upd [.regs, .out, .host, .rooms, .fabric, .refs, .sigs, .blocks, .lines, .stackCtl, .frames, .attic, .cox,
      .gallery] s (State.g2Room s r).2 := by
  unfold State.g2Room
  split
  · rename_i t8 e8
    have ht8 : Upd [.regs, .out, .host, .rooms, .fabric, .refs, .sigs, .blocks, .lines, .stackCtl, .frames, .attic,
      .cox, .gallery] s t8 := Upd.of_pair e8 <| Upd.after readMem_upd rfl .refl
    exact by with_reducible assumption
  · rename_i t8 e8
    have ht8 : Upd [.regs, .out, .host, .rooms, .fabric, .refs, .sigs, .blocks, .lines, .stackCtl, .frames, .attic,
      .cox, .gallery] s t8 := Upd.of_pair e8 <| Upd.after readMem_upd rfl .refl
    split
    · rename_i t15 e15
      have ht15 : Upd [.regs, .out, .host, .rooms, .fabric, .refs, .sigs, .blocks, .lines, .stackCtl, .frames,
        .attic, .cox, .gallery] s t15 := Upd.of_pair e15 <| Upd.after readMem_upd rfl <| by with_reducible assumption
      exact by with_reducible assumption
    · rename_i t15 e15
      have ht15 : Upd [.regs, .out, .host, .rooms, .fabric, .refs, .sigs, .blocks, .lines, .stackCtl, .frames,
        .attic, .cox, .gallery] s t15 := Upd.of_pair e15 <| Upd.after readMem_upd rfl <| by with_reducible assumption
      dsimp -zeta only
      exact Upd.after enterState_upd rfl <| Upd.after modRoom_upd rfl <| Upd.after putPlane_upd rfl <| by
        with_reducible assumption

theorem g2Load_upd {s : State} {code : Nat} :
    Upd [.regs] s (State.g2Load s code) := by
  unfold State.g2Load
  exact Upd.after wrs_upd rfl <| Upd.after step1_upd rfl .refl

theorem g2Clearing_upd {s : State} :
    Upd [.regs, .rooms, .g2] s (State.g2Clearing s) := by
  unfold State.g2Clearing
  extract_lets x4 x5 x6
  have hx4 : Upd [.regs, .rooms, .g2] s x4 := Upd.after modRooms_upd rfl .refl
  clear_value x4
  have hx5 : Upd [.regs, .rooms, .g2] s x5 := Upd.after wr_upd rfl <| by with_reducible assumption
  clear_value x5
  clear_value x6
  refine Upd.g2 ?_ rfl
  exact by with_reducible assumption

theorem g2Start_upd {s : State} :
    Upd (Part.allBut [.pending, .held, .fuses, .straps, .cellar, .power, .pins, .heatCopy, .prog, .recClear, .chunk,
      .loader, .chain, .selfTest, .course]) s (State.g2Start s) := by
  unfold State.g2Start
  refine Upd.ite ?_ ?_
  · extract_lets
    split
    · rename_i t6 e6
      have ht6 : Upd (Part.allBut [.pending, .held, .fuses, .straps, .cellar, .power, .pins, .heatCopy, .prog,
        .recClear, .chunk, .loader, .chain, .selfTest, .course]) s t6 := Upd.of_pair e6 <| Upd.foldl_snd (fun b x hb
        => Upd.ite_snd (Upd.after g2Room_upd rfl <| by with_reducible assumption) (by with_reducible assumption)) _
        .refl
      exact by with_reducible assumption
    · rename_i t6 e6
      have ht6 : Upd (Part.allBut [.pending, .held, .fuses, .straps, .cellar, .power, .pins, .heatCopy, .prog,
        .recClear, .chunk, .loader, .chain, .selfTest, .course]) s t6 := Upd.of_pair e6 <| Upd.foldl_snd (fun b x hb
        => Upd.ite_snd (Upd.after g2Room_upd rfl <| by with_reducible assumption) (by with_reducible assumption)) _
        .refl
      extract_lets x10 x11 x12
      clear_value x10
      have hx11 : Upd (Part.allBut [.pending, .held, .fuses, .straps, .cellar, .power, .pins, .heatCopy, .prog,
        .recClear, .chunk, .loader, .chain, .selfTest, .course]) s x11 := Upd.after raise_upd rfl <| Upd.after
        g2Load_upd rfl <| Upd.after wr_upd rfl <| by with_reducible assumption
      clear_value x11
      have hx12 : Upd (Part.allBut [.pending, .held, .fuses, .straps, .cellar, .power, .pins, .heatCopy, .prog,
        .recClear, .chunk, .loader, .chain, .selfTest, .course]) s x12 := Upd.ite (Upd.after g2Clearing_upd rfl <| by
        with_reducible assumption) (by with_reducible assumption)
      clear_value x12
      exact Upd.after wingDone_upd rfl <| by with_reducible assumption
  · exact .refl

theorem g2Enter_upd {s : State} :
    Upd [.regs, .power, .rooms, .g2] s (State.g2Enter s) := by
  unfold State.g2Enter
  extract_lets x3 x4
  have hx3 : Upd [.regs, .power, .rooms, .g2] s x3 := Upd.after wr_upd rfl .refl
  clear_value x3
  have hx4 : Upd [.regs, .power, .rooms, .g2] s x4 := Upd.after roscCtrl_upd rfl <| by with_reducible assumption
  clear_value x4
  exact Upd.after vfabGo_upd rfl <| Upd.after g2Clearing_upd rfl <| by with_reducible assumption

theorem g2Prog_upd {s : State} :
    Upd [.regs, .rooms, .g2] s (State.g2Prog s) := by
  unfold State.g2Prog
  extract_lets x3 x4
  clear_value x3
  clear_value x4
  refine Upd.ite ?_ ?_
  · exact .refl
  · refine Upd.ite ?_ ?_
    · refine Upd.g2 ?_ rfl
      exact .refl
    · exact Upd.ite (Upd.after g2Clearing_upd rfl <| Upd.after g2Load_upd rfl .refl) (Upd.after g2Clearing_upd rfl
        .refl)

theorem g2Put_upd {s : State} {n v : Nat} :
    Upd [.regs] s (State.g2Put s n v) := by
  unfold State.g2Put
  exact Upd.after wr_upd rfl .refl

theorem g2GatedAcc_upd {s : State} :
    Upd [.regs] s (State.g2GatedAcc s) := by
  unfold State.g2GatedAcc
  exact Upd.after g2Put_upd rfl .refl

theorem g2SetLeft_upd {s : State} {n : Nat} :
    Upd [.regs] s (State.g2SetLeft s n) := by
  unfold State.g2SetLeft
  exact Upd.after g2Put_upd rfl <| Upd.after g2Put_upd rfl <| Upd.after g2Put_upd rfl .refl

theorem g2Tick_upd {s : State} :
    Upd [.regs, .draws] s (State.g2Tick s) := by
  unfold State.g2Tick
  exact Upd.ite (Upd.after drew_upd rfl <| Upd.after g2SetLeft_upd rfl .refl) .refl

theorem g2Power_upd {s : State} {m : Nat} :
    Upd [.regs] s (State.g2Power s m) := by
  unfold State.g2Power
  exact Upd.after wr_upd rfl <| Upd.after g2Put_upd rfl .refl

theorem g2Write_upd {s : State} {n v : Nat} :
    Upd [.regs, .draws, .g2] s (State.g2Write s n v) := by
  unfold State.g2Write
  extract_lets x5 x6
  have hx5 : Upd [.regs, .draws, .g2] s x5 := Upd.after g2Put_upd rfl <| Upd.after g2Tick_upd rfl .refl
  clear_value x5
  clear_value x6
  refine Upd.ite ?_ ?_
  · exact Upd.after g2GatedAcc_upd rfl .refl
  · refine Upd.ite ?_ ?_
    · refine Upd.g2 ?_ rfl
      exact by with_reducible assumption
    · exact Upd.ite (Upd.after g2Put_upd rfl .refl) (Upd.ite (Upd.after g2Put_upd rfl .refl) (Upd.ite (Upd.after
        g2Power_upd rfl .refl) (Upd.ite .refl (Upd.after g2Put_upd rfl .refl))))

theorem g2TimerEnds_upd {s : State} :
    Upd [.regs] s (State.g2TimerEnds s) := by
  unfold State.g2TimerEnds
  extract_lets x3 x4
  have hx3 : Upd [.regs] s x3 := Upd.after g2Put_upd rfl .refl
  clear_value x3
  have hx4 : Upd [.regs] s x4 := Upd.after g2SetLeft_upd rfl <| by with_reducible assumption
  clear_value x4
  exact Upd.ite (Upd.ite (Upd.after g2Power_upd rfl <| by with_reducible assumption) (by with_reducible assumption))
    .refl

theorem g2PortWake_upd {s : State} :
    Upd [.regs] s (State.g2PortWake s) := by
  unfold State.g2PortWake
  exact Upd.ite (Upd.after g2Power_upd rfl .refl) .refl

theorem g2Fail_upd {s : State} {code : Nat} :
    Upd [.regs, .out, .host, .g2, .cox] s (State.g2Fail s code) := by
  unfold State.g2Fail
  extract_lets x4 x5
  have hx4 : Upd [.regs, .out, .host, .g2, .cox] s x4 := Upd.ite (Upd.after g2Put_upd rfl .refl) .refl
  clear_value x4
  clear_value x5
  refine Upd.after raise_upd rfl <| Upd.after g2Load_upd rfl <| Upd.after wr_upd rfl <| Upd.g2 ?_ rfl
  exact by with_reducible assumption

theorem g2Take_upd {s : State} {bs : List Byte} :
    Upd [.g2] s (State.g2Take s bs) := by
  unfold State.g2Take
  extract_lets x3
  clear_value x3
  refine Upd.g2 ?_ rfl
  exact .refl

theorem g2Header_upd {s : State} {devId fmt : Byte} {nframes : Nat} {resv : Word} :
    Upd [.regs, .out, .host, .g2, .cox] s (State.g2Header s devId fmt nframes resv) := by
  unfold State.g2Header
  extract_lets x8 x9 x10
  clear_value x8
  have hx9 : Upd [.regs, .out, .host, .g2, .cox] s x9 := Upd.after g2Take_upd rfl .refl
  clear_value x9
  clear_value x10
  refine Upd.ite ?_ ?_
  · exact Upd.after g2Fail_upd rfl .refl
  · refine Upd.ite ?_ ?_
    · refine Upd.ite ?_ ?_
      · exact Upd.after g2Fail_upd rfl <| by with_reducible assumption
      · refine Upd.ite ?_ ?_
        · exact Upd.after g2Fail_upd rfl <| by with_reducible assumption
        · refine Upd.g2 ?_ rfl
          exact by with_reducible assumption
    · exact .refl

theorem g2Store_upd {s : State} {tile : Nat} :
    Upd [.mem, .bad] s (State.g2Store s tile) := by
  unfold State.g2Store
  extract_lets x3
  clear_value x3
  exact Upd.after putWhole_upd rfl <| Upd.after putWhole_upd rfl .refl

theorem g2Cleared_upd {s : State} :
    Upd [.regs, .out, .host, .mem, .bad, .g2, .cox] s (State.g2Cleared s) := by
  unfold State.g2Cleared
  extract_lets x5 x6 x7 x8
  clear_value x5
  have hx6 : Upd [.regs, .out, .host, .mem, .bad, .g2, .cox] s x6 := by
    unfold x6
    refine Upd.g2 ?_ rfl
    exact .refl
  clear_value x6
  have hx7 : Upd [.regs, .out, .host, .mem, .bad, .g2, .cox] s x7 := Upd.foldl (fun t x ht => Upd.after g2Store_upd
    rfl <| by with_reducible assumption) _ (by with_reducible assumption)
  clear_value x7
  clear_value x8
  refine Upd.ite ?_ ?_
  · refine Upd.ite ?_ ?_
    · split
      · refine Upd.ite ?_ ?_
        · exact Upd.after g2Fail_upd rfl <| by with_reducible assumption
        · refine Upd.after wr_upd rfl <| Upd.g2 ?_ rfl
          exact by with_reducible assumption
      · exact Upd.after g2Fail_upd rfl <| by with_reducible assumption
    · exact Upd.after wr_upd rfl <| by with_reducible assumption
  · exact .refl

theorem g2Fresh_upd {s : State} {n : Nat} :
    Upd [.regs, .draws] s (State.g2Fresh s n) := by
  unfold State.g2Fresh
  exact Upd.ite (Upd.after g2Tick_upd rfl .refl) .refl

theorem g2Read_upd {s : State} {n : Nat} :
    Upd [.regs, .draws] s (State.g2Read s n).2 := by
  unfold State.g2Read
  extract_lets x3
  have hx3 : Upd [.regs, .draws] s x3 := Upd.after g2Fresh_upd rfl .refl
  clear_value x3
  refine Upd.ite_snd ?_ ?_
  · dsimp -zeta only
    exact Upd.after g2GatedAcc_upd rfl .refl
  · exact by with_reducible assumption

theorem g2Calibrated_upd {s : State} {count : Nat} :
    Upd [.regs, .out, .host, .g2, .cox] s (State.g2Calibrated s count) := by
  unfold State.g2Calibrated
  extract_lets x7 x8 x9 x10 x11
  clear_value x7
  clear_value x8
  clear_value x9
  have hx10 : Upd [.regs, .out, .host, .g2, .cox] s x10 := by
    unfold x10
    refine Upd.g2 ?_ rfl
    exact .refl
  clear_value x10
  have hx11 : Upd [.regs, .out, .host, .g2, .cox] s x11 := Upd.after wrs_upd rfl <| Upd.after step1_upd rfl <| by
    with_reducible assumption
  clear_value x11
  exact Upd.ite .refl (Upd.ite (by with_reducible assumption) (Upd.after raise_upd rfl <| by with_reducible
    assumption))

theorem g2Reserve_upd {s : State} :
    Upd [.draws, .rooms, .alloc, .g2] s (State.g2Reserve s) := by
  unfold State.g2Reserve
  extract_lets x2
  have hx2 : Upd [.draws, .rooms, .alloc, .g2] s x2 := Upd.after modRooms_upd rfl .refl
  clear_value x2
  split
  · rename_i t9 e9
    have ht9 : Upd [.draws, .rooms, .alloc, .g2] s t9 := Upd.after (granPick_upd _ _ e9) rfl <| by with_reducible
      assumption
    extract_lets x11
    clear_value x11
    refine Upd.g2 ?_ rfl
    exact by with_reducible assumption
  · exact by with_reducible assumption

theorem g2FrameIn_upd {s : State} {faddr : Nat} {data : List Byte} :
    Upd [.regs, .out, .host, .mem, .bad, .g2, .cox] s (State.g2FrameIn s faddr data) := by
  unfold State.g2FrameIn
  extract_lets x8 x9 x10 x11 x12
  clear_value x8
  have hx9 : Upd [.regs, .out, .host, .mem, .bad, .g2, .cox] s x9 := Upd.after g2Take_upd rfl .refl
  clear_value x9
  clear_value x10
  clear_value x11
  clear_value x12
  refine Upd.ite ?_ ?_
  · exact Upd.after g2Fail_upd rfl .refl
  · refine Upd.ite ?_ ?_
    · refine Upd.ite ?_ ?_
      · exact Upd.after g2Fail_upd rfl <| by with_reducible assumption
      · refine Upd.after g2Store_upd rfl <| Upd.g2 ?_ rfl
        exact by with_reducible assumption
    · exact .refl

theorem g2CrcIn_upd {s : State} {crc : Nat} :
    Upd [.regs, .out, .host, .g2, .cox] s (State.g2CrcIn s crc) := by
  unfold State.g2CrcIn
  extract_lets x3
  clear_value x3
  refine Upd.ite ?_ ?_
  · exact Upd.after g2Fail_upd rfl .refl
  · refine Upd.ite ?_ ?_
    · refine Upd.ite ?_ ?_
      · refine Upd.after wr_upd rfl <| Upd.g2 ?_ rfl
        exact .refl
      · exact Upd.after g2Fail_upd rfl .refl
    · exact .refl

theorem modSeq_upd {s : State} {f : Sequencer → Sequencer} :
    Upd [.seq] s (State.modSeq s f) := by
  unfold State.modSeq
  refine Upd.seq ?_ rfl
  exact .refl

theorem wakeCause_upd {s : State} {sources : Nat} :
    Upd [.regs] s (State.wakeCause s sources) := by
  unfold State.wakeCause
  exact Upd.after wrs_upd rfl <| Upd.after step1_upd rfl <| Upd.after wr_upd rfl .refl

theorem wakeHalf_upd {s : State} {h : Half} :
    Upd [.regs, .out, .draws, .power, .cross, .porches] s (State.wakeHalf s h) := by
  unfold State.wakeHalf
  extract_lets x5 x6 x7
  have hx5 : Upd [.regs, .out, .draws, .power, .cross, .porches] s x5 := Upd.after setSrcReady_upd rfl .refl
  clear_value x5
  have hx6 : Upd [.regs, .out, .draws, .power, .cross, .porches] s x6 := Upd.after wr_upd rfl <| Upd.after wrs_upd
    rfl <| by with_reducible assumption
  clear_value x6
  clear_value x7
  exact Upd.after avsCommit_upd rfl <| Upd.after avsCommit_upd rfl <| by with_reducible assumption

theorem setMode_upd {s : State} {h : Half} {m : Nat} :
    Upd [.regs] s (State.setMode s h m) := by
  unfold State.setMode
  exact Upd.after wrs_upd rfl .refl

theorem wakeUp_upd {s : State} :
    Upd (Part.allBut [.pending, .held, .fuses, .straps, .cellar, .power, .cross, .security, .lines, .ids, .heatCopy,
      .stamps, .alloc, .prog, .recClear, .chunk, .loader, .chain, .selfTest, .course]) s (State.wakeUp s) := by
  unfold State.wakeUp
  extract_lets x12 x13 x14 x15 x16 x17 x18 x19 x20 x21 x22
  clear_value x12
  have hx13 : ∀ a0 a1, Upd (Part.allBut [.pending, .held, .fuses, .straps, .cellar, .power, .cross, .security,
    .lines, .ids, .heatCopy, .stamps, .alloc, .prog, .recClear, .chunk, .loader, .chain, .selfTest, .course]) s a0 →
    Upd (Part.allBut [.pending, .held, .fuses, .straps, .cellar, .power, .cross, .security, .lines, .ids, .heatCopy,
    .stamps, .alloc, .prog, .recClear, .chunk, .loader, .chain, .selfTest, .course]) s (x13 a0 a1) := by
    intros
    unfold x13
    extract_lets x16
    have hx16 : Upd (Part.allBut [.pending, .held, .fuses, .straps, .cellar, .power, .cross, .security, .lines,
      .ids, .heatCopy, .stamps, .alloc, .prog, .recClear, .chunk, .loader, .chain, .selfTest, .course]) s x16 :=
      Upd.after wr_upd rfl <| Upd.after wr_upd rfl <| by with_reducible assumption
    clear_value x16
    exact Upd.after setMode_upd rfl <| Upd.after wrs_upd rfl <| Upd.after step1_upd rfl <| by with_reducible
      assumption
  clear_value x13
  have hx14 : Upd (Part.allBut [.pending, .held, .fuses, .straps, .cellar, .power, .cross, .security, .lines, .ids,
    .heatCopy, .stamps, .alloc, .prog, .recClear, .chunk, .loader, .chain, .selfTest, .course]) s x14 := hx13 _ _ <|
    hx13 _ _ .refl
  clear_value x14
  clear_value x15
  clear_value x16
  have hx17 : Upd (Part.allBut [.pending, .held, .fuses, .straps, .cellar, .power, .cross, .security, .lines, .ids,
    .heatCopy, .stamps, .alloc, .prog, .recClear, .chunk, .loader, .chain, .selfTest, .course]) s x17 := by
    unfold x17
    refine Upd.after modSeq_upd rfl <| Upd.pins ?_ rfl
    exact by with_reducible assumption
  clear_value x17
  have hx18 : Upd (Part.allBut [.pending, .held, .fuses, .straps, .cellar, .power, .cross, .security, .lines, .ids,
    .heatCopy, .stamps, .alloc, .prog, .recClear, .chunk, .loader, .chain, .selfTest, .course]) s x18 := Upd.foldl
    (fun t x ht => Upd.ite (Upd.after raise_upd rfl <| by with_reducible assumption) (by with_reducible assumption)) _
    (by with_reducible assumption)
  clear_value x18
  clear_value x19
  have hx20 : Upd (Part.allBut [.pending, .held, .fuses, .straps, .cellar, .power, .cross, .security, .lines, .ids,
    .heatCopy, .stamps, .alloc, .prog, .recClear, .chunk, .loader, .chain, .selfTest, .course]) s x20 := by
    unfold x20
    refine Upd.ite ?_ ?_
    · refine Upd.g2 ?_ rfl
      exact by with_reducible assumption
    · exact by with_reducible assumption
  clear_value x20
  clear_value x21
  have hx22 : Upd (Part.allBut [.pending, .held, .fuses, .straps, .cellar, .power, .cross, .security, .lines, .ids,
    .heatCopy, .stamps, .alloc, .prog, .recClear, .chunk, .loader, .chain, .selfTest, .course]) s x22 := Upd.foldl
    (fun t x ht => Upd.after unparkPorches_upd rfl <| Upd.after reopenRooms_upd rfl <| by with_reducible assumption) _
    (by with_reducible assumption)
  clear_value x22
  exact Upd.after settlePorts_upd rfl <| Upd.after decision_upd rfl <| Upd.after decision_upd rfl <| Upd.after
    retireAct_upd rfl <| Upd.after retireAct_upd rfl <| Upd.after crsByMode_upd rfl <| by with_reducible assumption

theorem plls_upd {s : State} {h : Half} :
    Upd [.regs, .draws, .cross, .porches] s (State.plls s h) := by
  unfold State.plls
  extract_lets x3
  have hx3 : Upd [.regs, .draws, .cross, .porches] s x3 := Upd.after setSrcReady_upd rfl <| Upd.after
    setSrcReady_upd rfl .refl
  clear_value x3
  exact Upd.after wr_upd rfl <| Upd.after wrs_upd rfl <| by with_reducible assumption

theorem wakeBy_upd {s : State} {sources : Nat} {ready : Bool} :
    Upd (Part.allBut [.pending, .held, .fuses, .straps, .cellar, .security, .lines, .ids, .heatCopy, .stamps,
      .alloc, .prog, .recClear, .chunk, .loader, .chain, .selfTest, .course]) s (State.wakeBy s sources ready) := by
  unfold State.wakeBy
  extract_lets x5 x6
  have hx5 : Upd (Part.allBut [.pending, .held, .fuses, .straps, .cellar, .security, .lines, .ids, .heatCopy,
    .stamps, .alloc, .prog, .recClear, .chunk, .loader, .chain, .selfTest, .course]) s x5 := Upd.after wakeCause_upd
    rfl .refl
  clear_value x5
  have hx6 : Upd (Part.allBut [.pending, .held, .fuses, .straps, .cellar, .security, .lines, .ids, .heatCopy,
    .stamps, .alloc, .prog, .recClear, .chunk, .loader, .chain, .selfTest, .course]) s x6 := Upd.after wakeHalf_upd
    rfl <| Upd.after wakeHalf_upd rfl <| by with_reducible assumption
  clear_value x6
  exact Upd.ite (Upd.after wakeUp_upd rfl <| Upd.after plls_upd rfl <| Upd.after plls_upd rfl <| by with_reducible
    assumption) (Upd.after modSeq_upd rfl <| by with_reducible assumption)

theorem wakeSource_upd {s : State} {sources : Nat} :
    Upd (Part.allBut [.pending, .held, .fuses, .straps, .cellar, .security, .lines, .ids, .heatCopy, .stamps,
      .alloc, .prog, .recClear, .chunk, .loader, .chain, .selfTest, .course]) s (State.wakeSource s sources) := by
  unfold State.wakeSource
  extract_lets x3
  clear_value x3
  refine Upd.ite ?_ ?_
  · exact .refl
  · split
    · exact Upd.after modSeq_upd rfl .refl
    · exact Upd.after modSeq_upd rfl .refl
    · exact Upd.after wakeBy_upd rfl .refl
    · exact .refl
    · exact .refl

theorem resetAll_upd {s : State} {clearLast keepMem : Bool} :
    Upd (Part.allBut [.pending, .out, .draws, .straps, .attic]) s (State.resetAll s clearLast keepMem) := by
  unfold State.resetAll
  extract_lets r f c k q g b b₁ b₂ b₃
  have hb : Upd (Part.allBut [.pending, .out, .draws, .straps, .attic]) s b := by
    refine ⟨fun p hp => ?_, fun c => ⟨?_, rfl, c.regs_filter _, rfl, rfl⟩⟩
    · cases p <;> first | exact absurd (by decide) hp | rfl
    · show Memory.wf (if keepMem then s.mem else []) = true
      split
      · exact c.mem
      · rfl
  have h₁ : Upd (Part.allBut [.pending, .out, .draws, .straps, .attic]) s b₁ := Upd.after wr_upd rfl hb
  have h₂ : Upd (Part.allBut [.pending, .out, .draws, .straps, .attic]) s b₂ := Upd.ite h₁ (Upd.after wr_upd rfl
    (Upd.after wr_upd rfl h₁))
  have h₃ : Upd (Part.allBut [.pending, .out, .draws, .straps, .attic]) s b₃ := Upd.after wr_upd rfl (Upd.after
    wr_upd rfl h₂)
  exact Upd.after wr_upd rfl h₃

theorem bootCut_upd {s : State} :
    Upd [.draws, .attic] s (State.bootCut s) := by
  unfold State.bootCut
  extract_lets x4 x5 x6
  clear_value x4
  have hx5 : Upd [.draws, .attic] s x5 := Upd.after drew_upd rfl .refl
  clear_value x5
  clear_value x6
  split
  · exact .refl
  · refine Upd.attic ?_ rfl
    exact by with_reducible assumption

theorem progCopy_upd {s : State} {g : Prog} {n : Nat} :
    Upd [.regs, .out, .host, .stackCtl, .frames, .attic, .cox, .gallery] s (State.progCopy s g n).2.2 := by
  unfold State.progCopy
  suffices hl : ∀ (l : List Nat) (b : Nat × Bool × State), Upd [.regs, .out, .host, .stackCtl, .frames, .attic,
    .cox, .gallery] s b.2.2 → Upd [.regs, .out, .host, .stackCtl, .frames, .attic, .cox, .gallery] s (l.foldl _ b).2.2
    from
    hl _ _ .refl
  intro l
  induction l with
  | nil => exact fun _ hb => hb
  | cons x l ih =>
    intro b hb
    refine ih _ ?_
    obtain ⟨done, bad, u⟩ := b
    dsimp only
    split
    · exact hb
    · split
      · rename_i e
        exact Upd.after (Upd.of_pair e readMem_upd) rfl hb
      · rename_i e
        exact Upd.attic (Upd.after (Upd.of_pair e readMem_upd) rfl hb) rfl

theorem progMix_upd {s : State} {unit : Nat} :
    Upd [.draws, .attic] s (State.progMix s unit) := by
  unfold State.progMix
  extract_lets x5 x6 x7
  clear_value x5
  have hx6 : Upd [.draws, .attic] s x6 := Upd.after drew_upd rfl .refl
  clear_value x6
  clear_value x7
  refine Upd.attic ?_ rfl
  exact by with_reducible assumption

theorem progCut_upd {s : State} :
    Upd [.regs, .out, .draws, .host, .stackCtl, .frames, .attic, .cox, .gallery] s (State.progCut s) := by
  unfold State.progCut
  split
  · exact .refl
  · extract_lets x7
    clear_value x7
    split
    rename_i t14 e14
    have ht14 : Upd [.regs, .out, .draws, .host, .stackCtl, .frames, .attic, .cox, .gallery] s t14 := Upd.of_triple
      e14 <| Upd.after progCopy_upd rfl <| Upd.after drew_upd rfl .refl
    exact Upd.ite (Upd.after progMix_upd rfl <| Upd.after drew_upd rfl <| by with_reducible assumption) (Upd.after
      drew_upd rfl <| by with_reducible assumption)

theorem dark_upd {s : State} {m : Nat} :
    Upd (Part.allBut [.pending, .straps]) s (State.dark s m) := by
  unfold State.dark
  extract_lets x4 x5
  clear_value x4
  have hx5 : Upd (Part.allBut [.pending, .straps]) s x5 := Upd.after modSeq_upd rfl <| Upd.after resetAll_upd rfl <|
    Upd.after bootCut_upd rfl <| Upd.after progCut_upd rfl .refl
  clear_value x5
  exact Upd.after wrs_upd rfl <| Upd.after wrs_upd rfl <| by with_reducible assumption

theorem transit_upd {s : State} {b : Bool} :
    Upd [.regs] s (State.transit s b) := by
  unfold State.transit
  exact Upd.after wr_upd rfl <| Upd.after wr_upd rfl .refl

theorem haltHalf_upd {s : State} {h : Half} {code : Nat} :
    Upd [.regs, .out, .seq, .loader, .g2, .selfTest] s (State.haltHalf s h code) := by
  unfold State.haltHalf
  extract_lets x9 x10 x11 x12 x13 x14
  have hx9 : Upd [.regs, .out, .seq, .loader, .g2, .selfTest] s x9 := Upd.after wrs_upd rfl <| Upd.after setMode_upd
    rfl .refl
  clear_value x9
  have hx10 : Upd [.regs, .out, .seq, .loader, .g2, .selfTest] s x10 := Upd.after modSeq_upd rfl <| Upd.after
    transit_upd rfl <| by with_reducible assumption
  clear_value x10
  clear_value x11
  clear_value x12
  have hx13 : Upd [.regs, .out, .seq, .loader, .g2, .selfTest] s x13 := by
    unfold x13
    refine Upd.loader_selfTest ?_ rfl
    exact by with_reducible assumption
  clear_value x13
  have hx14 : Upd [.regs, .out, .seq, .loader, .g2, .selfTest] s x14 := Upd.ite (Upd.after g2Leave_upd rfl <| by
    with_reducible assumption) (by with_reducible assumption)
  clear_value x14
  exact Upd.ite .refl (Upd.after emit_upd rfl <| Upd.ite (Upd.after crsByMode_upd rfl <| by with_reducible
    assumption) (by with_reducible assumption))

theorem haltBoth_upd {s : State} {code : Nat} :
    Upd [.regs, .out, .seq, .loader, .g2, .selfTest] s (State.haltBoth s code) := by
  unfold State.haltBoth
  exact Upd.after haltHalf_upd rfl <| Upd.after haltHalf_upd rfl .refl

theorem standbyGo_upd {s : State} :
    Upd [.draws, .seq, .doorway, .porches, .rooms, .fabric, .sigs, .blocks, .crews, .wings, .reads] s
      (State.standbyGo s) := by
  unfold State.standbyGo
  exact Upd.ite (Upd.after standbyHalf_upd rfl <| Upd.after standbyHalf_upd rfl .refl) .refl

theorem loadStart_upd {s : State} :
    Upd [.regs] s (State.loadStart s) := by
  unfold State.loadStart
  exact Upd.after wrs_upd rfl .refl

theorem testEnter_upd {s : State} :
    Upd (Part.allBut [.pending, .held, .fuses, .straps, .cellar, .seq, .power, .cross, .pins, .refs, .heatCopy,
      .mem, .bad, .stackCtl, .frames, .prog, .recClear, .chunk, .loader, .chain, .course]) s (State.testEnter s) := by
  unfold State.testEnter
  extract_lets x6 x7 x8 x9 x10
  have hx6 : Upd (Part.allBut [.pending, .held, .fuses, .straps, .cellar, .seq, .power, .cross, .pins, .refs,
    .heatCopy, .mem, .bad, .stackCtl, .frames, .prog, .recClear, .chunk, .loader, .chain, .course]) s x6 := Upd.after
    g2Leave_upd rfl .refl
  clear_value x6
  have hx7 : Upd (Part.allBut [.pending, .held, .fuses, .straps, .cellar, .seq, .power, .cross, .pins, .refs,
    .heatCopy, .mem, .bad, .stackCtl, .frames, .prog, .recClear, .chunk, .loader, .chain, .course]) s x7 := Upd.foldl
    (fun t x ht => Upd.after release_upd rfl <| by with_reducible assumption) _ (by with_reducible assumption)
  clear_value x7
  have hx8 : Upd (Part.allBut [.pending, .held, .fuses, .straps, .cellar, .seq, .power, .cross, .pins, .refs,
    .heatCopy, .mem, .bad, .stackCtl, .frames, .prog, .recClear, .chunk, .loader, .chain, .course]) s x8 := by
    unfold x8
    refine Upd.sigs_blocks_lines_wings_portOps_selfTest ?_ rfl
    exact by with_reducible assumption
  clear_value x8
  clear_value x9
  have hx10 : Upd (Part.allBut [.pending, .held, .fuses, .straps, .cellar, .seq, .power, .cross, .pins, .refs,
    .heatCopy, .mem, .bad, .stackCtl, .frames, .prog, .recClear, .chunk, .loader, .chain, .course]) s x10 := Upd.after
    modRooms_upd rfl <| by with_reducible assumption
  clear_value x10
  exact Upd.after retireAct_upd rfl <| Upd.after retireAct_upd rfl <| by with_reducible assumption

theorem entered_upd {s : State} {m : Nat} :
    Upd (Part.allBut [.pending, .held, .fuses, .straps, .cellar, .seq, .cross, .pins, .heatCopy, .prog, .recClear,
      .chunk, .loader]) s (State.entered s m) := by
  unfold State.entered
  extract_lets x4 x5
  have hx4 : Upd (Part.allBut [.pending, .held, .fuses, .straps, .cellar, .seq, .cross, .pins, .heatCopy, .prog,
    .recClear, .chunk, .loader]) s x4 := Upd.after crsByMode_upd rfl .refl
  clear_value x4
  have hx5 : Upd (Part.allBut [.pending, .held, .fuses, .straps, .cellar, .seq, .cross, .pins, .heatCopy, .prog,
    .recClear, .chunk, .loader]) s x5 := Upd.after wr_upd rfl <| by with_reducible assumption
  clear_value x5
  exact Upd.ite (Upd.after chainStart_upd rfl <| Upd.after openChain_upd rfl <| Upd.after loadStart_upd rfl <| by
    with_reducible assumption) (Upd.ite (Upd.after wrs_upd rfl <| by with_reducible assumption) (Upd.ite (Upd.after
    wr_upd rfl <| by with_reducible assumption) (Upd.ite (Upd.ite (Upd.after decision_upd rfl <| Upd.after
    decision_upd rfl <| Upd.ite (Upd.after g2Enter_upd rfl <| by with_reducible assumption) (by with_reducible
    assumption)) (by with_reducible assumption)) (Upd.ite (Upd.after testEnter_upd rfl <| by with_reducible
    assumption) (by with_reducible assumption)))))

theorem leaderChange_upd {s : State} {m : Nat} :
    Upd (Part.allBut [.pending, .held, .fuses, .straps, .cellar, .cross, .pins, .heatCopy, .prog, .recClear,
      .chunk]) s (State.leaderChange s m) := by
  unfold State.leaderChange
  exact Upd.ite (Upd.after haltHalf_upd rfl .refl) (Upd.after entered_upd rfl <| Upd.after modSeq_upd rfl <|
    Upd.after transit_upd rfl <| Upd.after setMode_upd rfl .refl)

theorem begin_upd {s : State} {m : Nat} :
    Upd (Part.allBut [.pending, .held, .fuses, .straps, .cellar, .cross, .pins, .heatCopy, .prog, .recClear,
      .chunk]) s (State.begin s m) := by
  unfold State.begin
  extract_lets x3
  have hx3 : Upd (Part.allBut [.pending, .held, .fuses, .straps, .cellar, .cross, .pins, .heatCopy, .prog,
    .recClear, .chunk]) s x3 := Upd.after modSeq_upd rfl <| Upd.after transit_upd rfl .refl
  clear_value x3
  exact Upd.ite (Upd.after leaderChange_upd rfl <| by with_reducible assumption) (Upd.after emit_upd rfl <| by
    with_reducible assumption)

theorem service_upd {s : State} :
    Upd (Part.allBut [.pending, .held, .fuses, .straps, .cellar, .cross, .pins, .heatCopy, .prog, .recClear,
      .chunk]) s (State.service s) := by
  unfold State.service
  extract_lets x2
  clear_value x2
  exact Upd.ite .refl (Upd.ite (Upd.after begin_upd rfl .refl) (Upd.ite (Upd.after begin_upd rfl .refl) .refl))

theorem lapse_upd {s : State} {h : Half} :
    Upd [.regs] s (State.lapse s h) := by
  unfold State.lapse
  exact Upd.after bump_upd rfl <| Upd.after wrs_upd rfl .refl

theorem reqEnd_upd {s : State} {status reason : Nat} :
    Upd [.regs] s (State.reqEnd s status reason) := by
  unfold State.reqEnd
  exact Upd.after wrs_upd rfl .refl

theorem boot_upd {s : State} {clearLast keepMem : Bool} :
    Upd (Part.allBut [.pending, .straps]) s (State.boot s clearLast keepMem) := by
  unfold State.boot
  exact Upd.after resetAll_upd rfl <| Upd.after progCut_upd rfl .refl

theorem modeReq.bootAlone_upd {s : State} {h : Half} :
    Upd (Part.allBut [.pending, .straps]) s (State.modeReq.bootAlone s h) := by
  have hb := boot_upd (s := s) (clearLast := false) (keepMem := true)
  have e : ∀ x, x = s.boot false true →
      (x.pending = s.pending ∧ x.straps = s.straps) ∧ (s.Canon → x.Canon) := by
    rintro x rfl
    exact ⟨⟨hb.frame .pending (by decide), hb.frame .straps (by decide)⟩, hb.canon⟩
  unfold State.modeReq.bootAlone
  generalize s.boot false true = b at e
  obtain ⟨⟨e₁, e₂⟩, hc⟩ := e b rfl
  refine ⟨fun p hp => ?_, fun c => ⟨(hc c).mem, Memory.wf_filter c.fabric _, ?_, Tbl.wf_filter c.crews _,
    Tbl.wf_filter c.hatches _⟩⟩
  · cases p
    case pending => exact e₁
    case straps => exact e₂
    all_goals exact absurd (by decide) hp
  · refine ⟨Tbl.wf_foldl_put _ ((hc c).regs_filter _).1, fun x hx => ?_⟩
    rcases Tbl.mem_foldl_put _ hx with hx | hx
    · exact (c.regs_filter _).2 x hx
    · exact ((hc c).regs_filter _).2 x hx

theorem modeReq_upd {s : State} {h : Half} {target : Nat} :
    Upd (Part.allBut [.pending, .straps]) s (State.modeReq s h target) := by
  unfold State.modeReq
  extract_lets x7 x8 x9 x10
  have hx7 : Upd (Part.allBut [.pending, .straps]) s x7 := Upd.after wr_upd rfl .refl
  clear_value x7
  clear_value x8
  clear_value x9
  have hx10 : Upd (Part.allBut [.pending, .straps]) s x10 := Upd.after reqEnd_upd rfl <| by with_reducible assumption
  clear_value x10
  exact Upd.ite .refl (Upd.ite (Upd.after reqEnd_upd rfl <| by with_reducible assumption) (Upd.ite (Upd.after
    reqEnd_upd rfl <| by with_reducible assumption) (Upd.ite (Upd.after reqEnd_upd rfl <| by with_reducible
    assumption) (Upd.ite (Upd.after reqEnd_upd rfl <| by with_reducible assumption) (Upd.ite (Upd.after reqEnd_upd rfl
    <| by with_reducible assumption) (Upd.ite (Upd.after reqEnd_upd rfl <| by with_reducible assumption) (Upd.ite
    (Upd.after modSeq_upd rfl <| Upd.after transit_upd rfl <| by with_reducible assumption) (Upd.ite (Upd.after
    begin_upd rfl <| Upd.after modSeq_upd rfl <| by with_reducible assumption) (Upd.ite (Upd.after begin_upd rfl <| by
    with_reducible assumption) (Upd.ite (Upd.after State.modeReq.bootAlone_upd rfl <| by with_reducible assumption)
    (Upd.after boot_upd rfl <| by with_reducible assumption)))))))))))

theorem hold_upd {s : State} {h : Half} :
    Upd (Part.allBut [.pending, .held, .fuses, .straps, .cellar, .cross, .pins, .heatCopy, .prog, .recClear,
      .chunk]) s (State.hold s h) := by
  unfold State.hold
  exact Upd.after service_upd rfl <| Upd.after bump_upd rfl .refl

theorem unhold_upd {s : State} {h : Half} :
    Upd (Part.allBut [.pending, .held, .fuses, .straps, .cellar, .cross, .pins, .heatCopy, .prog, .recClear,
      .chunk]) s (State.unhold s h) := by
  unfold State.unhold
  exact Upd.after service_upd rfl <| Upd.after wr_upd rfl .refl

theorem leaderCheck_upd {s : State} :
    Upd [.regs, .out, .seq, .loader, .g2, .selfTest] s (State.leaderCheck s) := by
  unfold State.leaderCheck
  extract_lets x6 x7 x8 x9 x10
  clear_value x6
  clear_value x7
  clear_value x8
  have hx9 : Upd [.regs, .out, .seq, .loader, .g2, .selfTest] s x9 := Upd.after wr_upd rfl .refl
  clear_value x9
  have hx10 : ∀ a0 a1, Upd [.regs, .out, .seq, .loader, .g2, .selfTest] s a0 → Upd [.regs, .out, .seq, .loader, .g2,
    .selfTest] s (x10 a0 a1) := by
    intros
    exact Upd.after wrs_upd rfl <| Upd.after step1_upd rfl <| by with_reducible assumption
  clear_value x10
  exact Upd.ite (Upd.after haltBoth_upd rfl .refl) (Upd.ite (Upd.after haltBoth_upd rfl .refl) (Upd.after modSeq_upd
    rfl <| hx10 _ _ <| hx10 _ _ <| by with_reducible assumption))

theorem readFuses_upd {s : State} :
    Upd [.regs, .draws, .power, .rooms, .frames] s (State.readFuses s) := by
  unfold State.readFuses
  extract_lets x10 x11 x12 x13 x14 x15 x16 x17 x18
  clear_value x10
  clear_value x11
  have hx12 : ∀ a0 a1, Upd [.regs, .draws, .power, .rooms, .frames] s a0 → Upd [.regs, .draws, .power, .rooms,
    .frames] s (x12 a0 a1) := by
    intros
    unfold x12
    extract_lets x20 x21 x22 x23 x24 x25 x26
    clear_value x20
    have hx21 : Upd [.regs, .draws, .power, .rooms, .frames] s x21 := Upd.after wrs_upd rfl <| by with_reducible
      assumption
    clear_value x21
    have hx22 : Upd [.regs, .draws, .power, .rooms, .frames] s x22 := Upd.foldl (fun t x ht => Upd.after wr_upd rfl
      <| by with_reducible assumption) _ (by with_reducible assumption)
    clear_value x22
    clear_value x23
    have hx24 : Upd [.regs, .draws, .power, .rooms, .frames] s x24 := Upd.after wr_upd rfl <| Upd.after modPow_upd
      rfl <| by with_reducible assumption
    clear_value x24
    have hx25 : Upd [.regs, .draws, .power, .rooms, .frames] s x25 := Upd.after setReg_upd rfl <| Upd.after wr_upd
      rfl <| by with_reducible assumption
    clear_value x25
    clear_value x26
    exact Upd.after wr_upd rfl <| Upd.after drew_upd rfl <| by with_reducible assumption
  clear_value x12
  have hx13 : Upd [.regs, .draws, .power, .rooms, .frames] s x13 := Upd.foldl (fun t x ht => Upd.ite (hx12 _ _ <| by
    with_reducible assumption) (by with_reducible assumption)) _ .refl
  clear_value x13
  have hx14 : Upd [.regs, .draws, .power, .rooms, .frames] s x14 := Upd.after wrs_upd rfl <| by with_reducible
    assumption
  clear_value x14
  have hx15 : Upd [.regs, .draws, .power, .rooms, .frames] s x15 := Upd.after wrs_upd rfl <| by with_reducible
    assumption
  clear_value x15
  have hx16 : Upd [.regs, .draws, .power, .rooms, .frames] s x16 := Upd.after setReg_upd rfl <| by with_reducible
    assumption
  clear_value x16
  have hx17 : Upd [.regs, .draws, .power, .rooms, .frames] s x17 := Upd.after modRooms_upd rfl <| by with_reducible
    assumption
  clear_value x17
  have hx18 : Upd [.regs, .draws, .power, .rooms, .frames] s x18 := Upd.foldl (fun t x ht => Upd.after modRoom_upd
    rfl <| by with_reducible assumption) _ (by with_reducible assumption)
  clear_value x18
  refine Upd.frames ?_ rfl
  exact by with_reducible assumption

theorem bootStep2_upd {s : State} :
    Upd [.regs, .out, .draws, .seq, .power, .rooms, .frames, .loader, .g2, .selfTest] s (State.bootStep2 s) := by
  unfold State.bootStep2
  exact Upd.ite (Upd.ite (Upd.after haltBoth_upd rfl .refl) (Upd.ite (Upd.after haltBoth_upd rfl <| Upd.after
    readFuses_upd rfl .refl) (Upd.after openPorts_upd rfl <| Upd.after modSeq_upd rfl <| Upd.after readFuses_upd rfl
    .refl))) .refl

theorem sleepHalf_upd {s : State} {h : Half} :
    Upd [.regs, .out, .draws, .power, .cross, .porches] s (State.sleepHalf s h) := by
  unfold State.sleepHalf
  extract_lets x6 x7 x8 x9
  have hx6 : Upd [.regs, .out, .draws, .power, .cross, .porches] s x6 := Upd.after avsCommit_upd rfl <| Upd.after
    avsCommit_upd rfl .refl
  clear_value x6
  have hx7 : Upd [.regs, .out, .draws, .power, .cross, .porches] s x7 := Upd.after wr_upd rfl <| by with_reducible
    assumption
  clear_value x7
  have hx8 : Upd [.regs, .out, .draws, .power, .cross, .porches] s x8 := Upd.foldl (fun t x ht => Upd.after
    setSrcReady_upd rfl <| by with_reducible assumption) _ (by with_reducible assumption)
  clear_value x8
  have hx9 : Upd [.regs, .out, .draws, .power, .cross, .porches] s x9 := Upd.after modPow_upd rfl <| by
    with_reducible assumption
  clear_value x9
  exact Upd.after wr_upd rfl <| Upd.after wr_upd rfl <| by with_reducible assumption

theorem standbyAbandon_upd {s : State} :
    Upd (Part.allBut [.pending, .held, .fuses, .straps, .cellar, .cross, .pins, .heatCopy, .prog, .recClear,
      .chunk]) s (State.standbyAbandon s) := by
  unfold State.standbyAbandon
  extract_lets x8 x9 x10 x11 x12 x13 x14
  have hx8 : Upd (Part.allBut [.pending, .held, .fuses, .straps, .cellar, .cross, .pins, .heatCopy, .prog,
    .recClear, .chunk]) s x8 := Upd.after modSeq_upd rfl .refl
  clear_value x8
  have hx9 : Upd (Part.allBut [.pending, .held, .fuses, .straps, .cellar, .cross, .pins, .heatCopy, .prog,
    .recClear, .chunk]) s x9 := by
    unfold x9
    refine Upd.foldl (fun t x ht => ?_) _ ?_
    · split
      · exact Upd.ite (Upd.foldl (fun t x ht => Upd.after keepCrew_upd rfl <| by with_reducible assumption) _
          (Upd.after wingFree_upd rfl <| by with_reducible assumption)) (by with_reducible assumption)
      · exact by with_reducible assumption
    · exact by with_reducible assumption
  clear_value x9
  clear_value x10
  have hx11 : Upd (Part.allBut [.pending, .held, .fuses, .straps, .cellar, .cross, .pins, .heatCopy, .prog,
    .recClear, .chunk]) s x11 := Upd.foldl (fun t x ht => Upd.after unparkPorches_upd rfl <| Upd.after reopenRooms_upd
    rfl <| by with_reducible assumption) _ (by with_reducible assumption)
  clear_value x11
  have hx12 : Upd (Part.allBut [.pending, .held, .fuses, .straps, .cellar, .cross, .pins, .heatCopy, .prog,
    .recClear, .chunk]) s x12 := Upd.after transit_upd rfl <| by with_reducible assumption
  clear_value x12
  have hx13 : Upd (Part.allBut [.pending, .held, .fuses, .straps, .cellar, .cross, .pins, .heatCopy, .prog,
    .recClear, .chunk]) s x13 := Upd.after wrs_upd rfl <| by with_reducible assumption
  clear_value x13
  have hx14 : Upd (Part.allBut [.pending, .held, .fuses, .straps, .cellar, .cross, .pins, .heatCopy, .prog,
    .recClear, .chunk]) s x14 := Upd.after raiseCox_upd rfl <| by with_reducible assumption
  clear_value x14
  exact Upd.after service_upd rfl <| Upd.after settlePorts_upd rfl <| Upd.after decision_upd rfl <| Upd.after
    decision_upd rfl <| Upd.after retireAct_upd rfl <| Upd.after retireAct_upd rfl <| by with_reducible assumption

theorem egressOut_upd {s : State} {e : Egress} :
    Upd (Part.allBut [.pending, .held, .fuses, .straps, .cellar, .seq, .power, .cross, .pins, .refs, .lines, .ids,
      .heatCopy, .stamps, .portOps, .alloc, .prog, .recClear, .retiring, .chunk, .loader, .chain, .g2, .selfTest]) s
      (State.egressOut s e) := by
  unfold State.egressOut
  split
  · extract_lets x8
    clear_value x8
    split
    · exact Upd.after giveNotice_upd rfl .refl
    · split
      · exact Upd.after admitted_upd rfl .refl
      · exact Upd.after refuse_upd rfl .refl
      · split
        · exact Upd.after freezeCrew_upd rfl .refl
        · exact Upd.after freezePeer_upd rfl .refl
        · exact Upd.after freezeMaster_upd rfl .refl
        · exact .refl
  · exact Upd.after handoffLate_upd rfl .refl

theorem egressFlush_upd {s : State} {h : Half} :
    Upd (Part.allBut [.pending, .held, .fuses, .straps, .cellar, .seq, .power, .cross, .pins, .refs, .lines, .ids,
      .heatCopy, .stamps, .portOps, .alloc, .prog, .recClear, .retiring, .chunk, .loader, .chain, .g2, .selfTest]) s
      (State.egressFlush s h) := by
  unfold State.egressFlush
  extract_lets x4 x5
  clear_value x4
  clear_value x5
  refine Upd.foldl (fun t x ht => ?_) _ ?_
  · exact Upd.after egressOut_upd rfl <| by with_reducible assumption
  · refine Upd.gallery ?_ rfl
    exact .refl

theorem standbyPin_upd {s : State} {w : Nat} :
    Upd (Part.allBut [.pending, .held, .fuses, .straps, .cellar, .pins, .heatCopy, .prog, .recClear, .chunk]) s
      (State.standbyPin s w) := by
  unfold State.standbyPin
  exact Upd.ite (Upd.after standbyAbandon_upd rfl .refl) .refl

theorem standbyLimit_upd {s : State} {w now cycles : Nat} :
    Upd (Part.allBut [.pending, .held, .fuses, .straps, .cellar, .pins, .heatCopy, .prog, .recClear, .chunk]) s
      (State.standbyLimit s w now cycles) := by
  unfold State.standbyLimit
  extract_lets x5
  clear_value x5
  exact Upd.ite (Upd.after standbyAbandon_upd rfl <| Upd.after quiesceLimit_upd rfl <| Upd.after modSeq_upd rfl
    .refl) (Upd.after quiesceLimit_upd rfl .refl)

end Sys2Proof.Machine.State
end

