-- ==== Sys2Proof/Laws/FrameGate.lean ====
section
/-! SUPPORT. What each operation may change, and that it keeps the canonical form: paging, the gate of register pages and what lies behind it.
One lemma for each operation; a lemma in `_hupd` is of an operation that takes the rest of a meaning. -/

namespace Sys2Proof.Machine.State

theorem pgtGo_hupd {K s t p op f} (hk : Part.sub [.regs, .out, .host, .cox] K = true)
    (hf : ∀ u, Upd K s u → Upd K s (f u)) (h : Upd K s t) : Upd K s (State.pgtGo t p op f) := by
  unfold State.pgtGo
  have he : Part.sub [.regs, .out, .host, .cox] K = true :=
    Part.sub_trans (K := [.regs, .out, .host, .cox]) rfl hk
  have hs : Upd K s (State.portStart t .pgt p) := Upd.after portStart_upd
    (Part.sub_trans (K := [.regs]) rfl hk) h
  exact Upd.ite h (Upd.ite (Upd.after pgtEnd_upd he hs) (Upd.ite (Upd.after pgtEnd_upd he hs) (hf _ hs)))

theorem frameTake_upd {s : State} {p : Port} :
    Upd [.regs, .out, .draws, .host, .mem, .bad, .frames, .cox] s (State.frameTake s p) := by
  unfold State.frameTake
  refine pgtGo_hupd rfl ?_ ?_
  · intro u z1
    extract_lets x8 x9 x10 x11
    clear_value x8
    clear_value x9
    clear_value x10
    clear_value x11
    refine Upd.ite ?_ ?_
    · exact Upd.after pgtEnd_upd rfl <| by with_reducible assumption
    · refine Upd.ite ?_ ?_
      · exact Upd.after pgtEnd_upd rfl <| by with_reducible assumption
      · split
        · exact Upd.after pgtEnd_upd rfl <| by with_reducible assumption
        · rename_i t14 e14
          have ht14 : Upd [.regs, .out, .draws, .host, .mem, .bad, .frames, .cox] s t14 := Upd.after (takeFrom_upd _
            _ e14) rfl <| by with_reducible assumption
          exact Upd.after pgtEnd_upd rfl <| by with_reducible assumption
  · exact .refl

theorem frameGive_upd {s : State} {p : Port} :
    Upd [.regs, .out, .host, .stackCtl, .frames, .cox] s (State.frameGive s p) := by
  unfold State.frameGive
  refine pgtGo_hupd rfl ?_ ?_
  · intro u z1
    extract_lets x5
    clear_value x5
    exact Upd.ite (Upd.after pgtEnd_upd rfl <| by with_reducible assumption) (Upd.ite (Upd.after pgtEnd_upd rfl <|
      by with_reducible assumption) (Upd.ite (Upd.after pgtEnd_upd rfl <| by with_reducible assumption) (Upd.after
      pgtEnd_upd rfl <| Upd.after releaseFrame_upd rfl <| by with_reducible assumption)))
  · exact .refl

theorem granTake_upd {s : State} {p : Port} :
    Upd [.regs, .out, .draws, .host, .alloc, .cox] s (State.granTake s p) := by
  unfold State.granTake
  refine pgtGo_hupd rfl ?_ ?_
  · intro u z1
    extract_lets x5
    clear_value x5
    refine Upd.ite ?_ ?_
    · exact Upd.after pgtEnd_upd rfl <| by with_reducible assumption
    · split
      · exact Upd.after pgtEnd_upd rfl <| by with_reducible assumption
      · rename_i t11 e11
        have ht11 : Upd [.regs, .out, .draws, .host, .alloc, .cox] s t11 := Upd.after (granPick_upd _ _ e11) rfl <|
          by with_reducible assumption
        exact Upd.after pgtEnd_upd rfl <| by with_reducible assumption
  · exact .refl

theorem granGive_upd {s : State} {p : Port} :
    Upd [.regs, .out, .host, .alloc, .cox] s (State.granGive s p) := by
  unfold State.granGive
  refine pgtGo_hupd rfl ?_ ?_
  · intro u z1
    extract_lets x7 x8 x9
    clear_value x7
    clear_value x8
    clear_value x9
    exact Upd.ite (Upd.after pgtEnd_upd rfl <| by with_reducible assumption) (Upd.ite (Upd.after pgtEnd_upd rfl <|
      by with_reducible assumption) (Upd.after pgtEnd_upd rfl <| Upd.after granDel_upd rfl <| by with_reducible
      assumption))
  · exact .refl

theorem inval_upd {s : State} {h : Half} {op id : Nat} {page : Option Nat} :
    Upd [.wings] s (State.inval s h op id page) := by
  unfold State.inval
  exact Upd.after modWings_upd rfl .refl

theorem invalWait_upd {s : State} {p : Port} {op id : Nat} {page : Option Nat} :
    Upd [.wings, .portOps] s (State.invalWait s p op id page) := by
  unfold State.invalWait
  extract_lets x6
  have hx6 : Upd [.wings, .portOps] s x6 := Upd.after inval_upd rfl .refl
  clear_value x6
  refine Upd.portOps ?_ rfl
  exact by with_reducible assumption

theorem invalOf_upd {s : State} {p : Port} {op : Nat} :
    Upd [.regs, .out, .host, .wings, .portOps, .cox] s (State.invalOf s p op) := by
  unfold State.invalOf
  refine pgtGo_hupd rfl ?_ ?_
  · intro u z1
    extract_lets x7 x8
    clear_value x7
    clear_value x8
    refine Upd.ite ?_ ?_
    · exact Upd.after pgtEnd_upd rfl <| by with_reducible assumption
    · split
      · exact Upd.after pgtEnd_upd rfl <| by with_reducible assumption
      · exact Upd.ite (Upd.after pgtEnd_upd rfl <| by with_reducible assumption) (Upd.after invalWait_upd rfl <|
          by with_reducible assumption)
  · exact .refl

theorem invalAll_upd {s : State} {p : Port} :
    Upd [.regs, .out, .host, .wings, .portOps, .cox] s (State.invalAll s p) := by
  unfold State.invalAll
  refine pgtGo_hupd rfl ?_ ?_
  · intro u z1
    exact Upd.after invalWait_upd rfl <| by with_reducible assumption
  · exact .refl

theorem growFrame_upd {s : State} {h : Half} {world : Bool} :
    ∀ a t, State.growFrame s h world = some (a, t) → Upd [.regs, .out, .draws, .host, .mem, .bad, .frames, .cox] s t
      := by
  intro a t h
  unfold State.growFrame at h
  split at h
  · rename_i e; cases h; exact takeFrom_upd _ _ e
  · split at h
    · exact takeFrom_upd _ _ h
    · cases h

theorem grow_upd {s : State} {id : Nat} {c : Crew} {a2 e2 : Nat} :
    Upd [.regs, .out, .draws, .host, .crews, .mem, .bad, .stackCtl, .frames, .attic, .cox, .gallery] s (State.grow s
      id c a2 e2).2 := by
  unfold State.grow
  refine Upd.ite_snd ?_ ?_
  · exact .refl
  · extract_lets
    split
    · dsimp -zeta only
      exact Upd.after raise_upd rfl .refl
    · rename_i t11 e11
      have ht11 : Upd [.regs, .out, .draws, .host, .crews, .mem, .bad, .stackCtl, .frames, .attic, .cox, .gallery] s
        t11 := Upd.after (growFrame_upd _ _ e11) rfl .refl
      extract_lets x14 x15
      clear_value x14
      have hx15 : Upd [.regs, .out, .draws, .host, .crews, .mem, .bad, .stackCtl, .frames, .attic, .cox, .gallery] s
        x15 := Upd.after writeBytes_upd rfl <| by with_reducible assumption
      clear_value x15
      dsimp -zeta only
      exact Upd.after modCrew_upd rfl <| by with_reducible assumption

theorem readFirst_upd {s : State} {w id : Nat} {c : Crew} {va : Nat} :
    Upd [.regs, .out, .host, .stackCtl, .frames, .attic, .cox, .gallery] s (State.readFirst s w id c va).2 := by
  unfold State.readFirst
  extract_lets x6
  clear_value x6
  split
  · exact .refl
  · refine Upd.ite_snd ?_ ?_
    · exact .refl
    · split
      · rename_i t15 e15
        have ht15 : Upd [.regs, .out, .host, .stackCtl, .frames, .attic, .cox, .gallery] s t15 := Upd.of_pair e15 <|
          Upd.after readBytes_upd rfl .refl
        exact by with_reducible assumption
      · rename_i t16 e16
        have ht16 : Upd [.regs, .out, .host, .stackCtl, .frames, .attic, .cox, .gallery] s t16 := Upd.of_pair e16 <|
          Upd.after readBytes_upd rfl .refl
        exact by with_reducible assumption

theorem fillFirst_upd {s : State} {w : Nat} {t : FirstLevel} :
    Upd [.wings] s (State.fillFirst s w t) := by
  unfold State.fillFirst
  exact Upd.after modWing_upd rfl .refl

theorem walkOnce_upd {s : State} {w id : Nat} {c : Crew} {va : Nat} {write : Bool} :
    Upd [.regs, .out, .draws, .host, .crews, .wings, .mem, .bad, .stackCtl, .frames, .attic, .cox, .gallery] s
      (State.walkOnce s w id c va write).2 := by
  unfold State.walkOnce
  split
  · rename_i t12 e12
    have ht12 : Upd [.regs, .out, .draws, .host, .crews, .wings, .mem, .bad, .stackCtl, .frames, .attic, .cox,
      .gallery] s t12 := Upd.of_pair e12 <| Upd.after readFirst_upd rfl .refl
    exact by with_reducible assumption
  · rename_i t12 e12
    have ht12 : Upd [.regs, .out, .draws, .host, .crews, .wings, .mem, .bad, .stackCtl, .frames, .attic, .cox,
      .gallery] s t12 := Upd.of_pair e12 <| Upd.after readFirst_upd rfl .refl
    extract_lets x14
    clear_value x14
    refine Upd.ite_snd ?_ ?_
    · exact by with_reducible assumption
    · extract_lets
      refine Upd.ite_snd ?_ ?_
      · exact by with_reducible assumption
      · extract_lets
        refine Upd.ite_snd ?_ ?_
        · exact by with_reducible assumption
        · extract_lets
          split
          · rename_i t19 e19
            have ht19 : Upd [.regs, .out, .draws, .host, .crews, .wings, .mem, .bad, .stackCtl, .frames, .attic,
              .cox, .gallery] s t19 := Upd.of_pair e19 <| Upd.after readBytes_upd rfl <| by with_reducible assumption
            exact by with_reducible assumption
          · rename_i t20 e20
            have ht20 : Upd [.regs, .out, .draws, .host, .crews, .wings, .mem, .bad, .stackCtl, .frames, .attic,
              .cox, .gallery] s t20 := Upd.of_pair e20 <| Upd.after readBytes_upd rfl <| by with_reducible assumption
            extract_lets x23 x24
            clear_value x23
            clear_value x24
            refine Upd.ite_snd ?_ ?_
            · exact by with_reducible assumption
            · refine Upd.ite_snd ?_ ?_
              · refine Upd.ite_snd ?_ ?_
                · exact by with_reducible assumption
                · split
                  · rename_i t29 e29
                    have ht29 : Upd [.regs, .out, .draws, .host, .crews, .wings, .mem, .bad, .stackCtl, .frames,
                      .attic, .cox, .gallery] s t29 := Upd.of_pair e29 <| Upd.after grow_upd rfl <| by with_reducible
                      assumption
                    exact by with_reducible assumption
                  · rename_i t28 e28
                    have ht28 : Upd [.regs, .out, .draws, .host, .crews, .wings, .mem, .bad, .stackCtl, .frames,
                      .attic, .cox, .gallery] s t28 := Upd.of_pair e28 <| Upd.after grow_upd rfl <| by with_reducible
                      assumption
                    exact by with_reducible assumption
              · split
                · exact by with_reducible assumption
                · refine Upd.ite_snd ?_ ?_
                  · exact by with_reducible assumption
                  · refine Upd.ite_snd ?_ ?_
                    · exact by with_reducible assumption
                    · refine Upd.ite_snd ?_ ?_
                      · exact by with_reducible assumption
                      · refine Upd.ite_snd ?_ ?_
                        · exact by with_reducible assumption
                        · dsimp -zeta only
                          exact Upd.after fillFirst_upd rfl <| by with_reducible assumption

theorem walk_upd {s : State} {w id va : Nat} {write : Bool} {x5 : Nat} :
    Upd [.regs, .out, .draws, .host, .crews, .wings, .mem, .bad, .stackCtl, .frames, .attic, .cox, .gallery] s
      (State.walk s w id va write x5).2 := by
  unfold State.walk
  split
  · exact .refl
  · split
    · exact .refl
    · split
      · rename_i t19 e19
        have ht19 : Upd [.regs, .out, .draws, .host, .crews, .wings, .mem, .bad, .stackCtl, .frames, .attic, .cox,
          .gallery] s t19 := Upd.of_pair e19 <| Upd.after walkOnce_upd rfl .refl
        exact by with_reducible assumption
      · rename_i t18 e18
        have ht18 : Upd [.regs, .out, .draws, .host, .crews, .wings, .mem, .bad, .stackCtl, .frames, .attic, .cox,
          .gallery] s t18 := Upd.of_pair e18 <| Upd.after walkOnce_upd rfl .refl
        exact Upd.after walk_upd rfl <| by with_reducible assumption

theorem fillTlb_upd {s : State} {w : Nat} {t : Trans} :
    Upd [.wings] s (State.fillTlb s w t) := by
  unfold State.fillTlb
  exact Upd.after modWing_upd rfl .refl

theorem translate_upd {s : State} {w id heat va : Nat} {write : Bool} :
    Upd [.regs, .out, .draws, .host, .crews, .wings, .mem, .bad, .stackCtl, .frames, .attic, .cox, .gallery] s
      (State.translate s w id heat va write).2 := by
  unfold State.translate
  split
  · exact Upd.ite_snd .refl (Upd.ite_snd .refl .refl)
  · split
    · rename_i t16 e16
      have ht16 : Upd [.regs, .out, .draws, .host, .crews, .wings, .mem, .bad, .stackCtl, .frames, .attic, .cox,
        .gallery] s t16 := Upd.of_pair e16 <| Upd.after walk_upd rfl .refl
      exact by with_reducible assumption
    · rename_i t16 e16
      have ht16 : Upd [.regs, .out, .draws, .host, .crews, .wings, .mem, .bad, .stackCtl, .frames, .attic, .cox,
        .gallery] s t16 := Upd.of_pair e16 <| Upd.after walk_upd rfl .refl
      dsimp -zeta only
      exact Upd.after fillTlb_upd rfl <| by with_reducible assumption

theorem walkFails_upd {s : State} {id heat room va cause : Nat} :
    Upd [.regs, .out, .draws, .security, .doorway, .porches, .host, .rooms, .fabric, .sigs, .blocks, .crews, .wings,
      .mem, .bad, .stackCtl, .frames, .reads, .attic, .cox, .hatches, .gallery] s (State.walkFails s id heat room va
      cause) := by
  unfold State.walkFails
  extract_lets x10 x11 x12 x13
  clear_value x10
  have hx11 : Upd [.regs, .out, .draws, .security, .doorway, .porches, .host, .rooms, .fabric, .sigs, .blocks,
    .crews, .wings, .mem, .bad, .stackCtl, .frames, .reads, .attic, .cox, .hatches, .gallery] s x11 := Upd.after
    wrs_upd rfl <| Upd.after step1_upd rfl .refl
  clear_value x11
  have hx12 : Upd [.regs, .out, .draws, .security, .doorway, .porches, .host, .rooms, .fabric, .sigs, .blocks,
    .crews, .wings, .mem, .bad, .stackCtl, .frames, .reads, .attic, .cox, .hatches, .gallery] s x12 := Upd.after
    raise_upd rfl <| by with_reducible assumption
  clear_value x12
  clear_value x13
  exact Upd.ite (Upd.after freezeCrew_upd rfl <| by with_reducible assumption) (Upd.after faultCrew_upd rfl <| by
    with_reducible assumption)

theorem waitAccess_upd {s : State} {id : Nat} {x : WinAcc} :
    Upd [.crews, .gallery] s (State.waitAccess s id x) := by
  unfold State.waitAccess
  extract_lets x6 x7 x8
  have hx6 : Upd [.crews, .gallery] s x6 := Upd.after modCrew_upd rfl .refl
  clear_value x6
  clear_value x7
  clear_value x8
  refine Upd.gallery ?_ rfl
  exact by with_reducible assumption

theorem issue_upd {s : State} :
    Upd [.stamps] s (State.issue s) := by
  unfold State.issue
  refine Upd.stamps ?_ rfl
  exact .refl

theorem windowFetch_upd {s : State} {id : Nat} {c : Crew} {room pos tag va a len : Nat} :
    Upd [.regs, .out, .draws, .doorway, .porches, .host, .rooms, .fabric, .sigs, .blocks, .crews, .stamps, .wings,
      .mem, .bad, .stackCtl, .frames, .reads, .attic, .cox, .hatches, .gallery] s (State.windowFetch s id c room pos
      tag va a len) := by
  unfold State.windowFetch
  split
  · rename_i t14 e14
    have ht14 : Upd [.regs, .out, .draws, .doorway, .porches, .host, .rooms, .fabric, .sigs, .blocks, .crews,
      .stamps, .wings, .mem, .bad, .stackCtl, .frames, .reads, .attic, .cox, .hatches, .gallery] s t14 := Upd.of_pair
      e14 <| Upd.after readBytes_upd rfl .refl
    exact Upd.after faultCrew_upd rfl <| Upd.after modRoom_upd rfl <| by with_reducible assumption
  · rename_i t15 e15
    have ht15 : Upd [.regs, .out, .draws, .doorway, .porches, .host, .rooms, .fabric, .sigs, .blocks, .crews,
      .stamps, .wings, .mem, .bad, .stackCtl, .frames, .reads, .attic, .cox, .hatches, .gallery] s t15 := Upd.of_pair
      e15 <| Upd.after readBytes_upd rfl .refl
    extract_lets x17
    have hx17 : Upd [.regs, .out, .draws, .doorway, .porches, .host, .rooms, .fabric, .sigs, .blocks, .crews,
      .stamps, .wings, .mem, .bad, .stackCtl, .frames, .reads, .attic, .cox, .hatches, .gallery] s x17 := Upd.after
      issue_upd rfl <| Upd.after modRoom_upd rfl <| by with_reducible assumption
    clear_value x17
    refine Upd.reads ?_ rfl
    exact by with_reducible assumption

theorem windowPost_upd {s : State} {id room va a : Nat} {bs : List Byte} :
    Upd [.regs, .out, .draws, .doorway, .porches, .host, .rooms, .fabric, .sigs, .blocks, .crews, .stamps, .wings,
      .mem, .bad, .stackCtl, .frames, .reads, .attic, .cox, .hatches, .gallery] s (State.windowPost s id room va a bs)
      := by
  unfold State.windowPost
  split
  rename_i t12 e12
  have ht12 : Upd [.regs, .out, .draws, .doorway, .porches, .host, .rooms, .fabric, .sigs, .blocks, .crews, .stamps,
    .wings, .mem, .bad, .stackCtl, .frames, .reads, .attic, .cox, .hatches, .gallery] s t12 := Upd.of_pair e12 <|
    Upd.after writeBytes_upd rfl .refl
  extract_lets x14
  have hx14 : Upd [.regs, .out, .draws, .doorway, .porches, .host, .rooms, .fabric, .sigs, .blocks, .crews, .stamps,
    .wings, .mem, .bad, .stackCtl, .frames, .reads, .attic, .cox, .hatches, .gallery] s x14 := Upd.after modCrew_upd
    rfl <| Upd.after issue_upd rfl <| by with_reducible assumption
  clear_value x14
  exact Upd.ite (by with_reducible assumption) (Upd.after faultCrew_upd rfl <| by with_reducible assumption)

theorem windowAccess_upd {s : State} {id : Nat} {c : Crew} {room pos va : Nat} {rd : Option (Nat × Nat)} {bs : List Byte} :
    Upd (Part.allBut [.pending, .held, .fuses, .straps, .cellar, .seq, .power, .cross, .pins, .refs, .lines, .ids,
      .heatCopy, .portOps, .alloc, .prog, .recClear, .retiring, .chunk, .loader, .chain, .g2, .selfTest, .course]) s
      (State.windowAccess s id c room pos va rd bs) := by
  unfold State.windowAccess
  split
  · rename_i t14 e14
    have ht14 : Upd (Part.allBut [.pending, .held, .fuses, .straps, .cellar, .seq, .power, .cross, .pins, .refs,
      .lines, .ids, .heatCopy, .portOps, .alloc, .prog, .recClear, .retiring, .chunk, .loader, .chain, .g2, .selfTest,
      .course]) s t14 := Upd.of_pair e14 <| Upd.after translate_upd rfl .refl
    exact Upd.after walkFails_upd rfl <| by with_reducible assumption
  · rename_i t14 e14
    have ht14 : Upd (Part.allBut [.pending, .held, .fuses, .straps, .cellar, .seq, .power, .cross, .pins, .refs,
      .lines, .ids, .heatCopy, .portOps, .alloc, .prog, .recClear, .retiring, .chunk, .loader, .chain, .g2, .selfTest,
      .course]) s t14 := Upd.of_pair e14 <| Upd.after translate_upd rfl .refl
    extract_lets x16
    clear_value x16
    refine Upd.ite ?_ ?_
    · exact Upd.after waitAccess_upd rfl <| Upd.after issue_upd rfl <| by with_reducible assumption
    · split
      · exact Upd.after windowFetch_upd rfl <| by with_reducible assumption
      · exact Upd.after windowPost_upd rfl <| by with_reducible assumption

theorem windowWrite_upd {s : State} {id pos va : Nat} {bs : List Byte} :
    Upd (Part.allBut [.pending, .held, .fuses, .straps, .cellar, .seq, .power, .cross, .pins, .refs, .lines, .ids,
      .heatCopy, .portOps, .alloc, .prog, .recClear, .retiring, .chunk, .loader, .chain, .g2, .selfTest, .course]) s
      (State.windowWrite s id pos va bs) := by
  unfold State.windowWrite
  split
  · exact .refl
  · exact Upd.ite (Upd.after windowAccess_upd rfl .refl) .refl

theorem patrol_upd {s : State} {k : Nat} :
    Upd [.regs, .out, .host, .mem, .bad, .stackCtl, .frames, .attic, .cox, .gallery] s (State.patrol s k) := by
  unfold State.patrol
  extract_lets x9 x10 x11 x12 x13 x14 x15
  clear_value x9
  clear_value x11
  have hx12 : Upd [.regs, .out, .host, .mem, .bad, .stackCtl, .frames, .attic, .cox, .gallery] s x12 := by
    unfold x12
    split
    · rename_i t14 e14
      have ht14 : Upd [.regs, .out, .host, .mem, .bad, .stackCtl, .frames, .attic, .cox, .gallery] s t14 :=
        Upd.of_pair e14 <| Upd.after readSector_upd rfl .refl
      exact by with_reducible assumption
    · rename_i t15 e15
      have ht15 : Upd [.regs, .out, .host, .mem, .bad, .stackCtl, .frames, .attic, .cox, .gallery] s t15 :=
        Upd.of_pair e15 <| Upd.after readSector_upd rfl .refl
      exact Upd.ite (by with_reducible assumption) (Upd.after writePiece_upd rfl <| by with_reducible assumption)
  clear_value x12
  clear_value x14
  have hx15 : Upd [.regs, .out, .host, .mem, .bad, .stackCtl, .frames, .attic, .cox, .gallery] s x15 := by
    unfold x15
    refine Upd.stackCtl ?_ rfl
    exact by with_reducible assumption
  clear_value x15
  exact Upd.ite .refl (Upd.ite (Upd.after step1_upd rfl <| by with_reducible assumption) (by with_reducible
    assumption))

theorem releaseAccesses_upd {s : State} {h : Half} :
    Upd (Part.allBut [.pending, .held, .fuses, .straps, .cellar, .seq, .power, .cross, .pins, .refs, .lines, .ids,
      .heatCopy, .portOps, .alloc, .prog, .recClear, .retiring, .chunk, .loader, .chain, .g2, .selfTest, .course]) s
      (State.releaseAccesses s h) := by
  unfold State.releaseAccesses
  extract_lets x5 x6 x7
  clear_value x5
  clear_value x6
  have hx7 : Upd (Part.allBut [.pending, .held, .fuses, .straps, .cellar, .seq, .power, .cross, .pins, .refs,
    .lines, .ids, .heatCopy, .portOps, .alloc, .prog, .recClear, .retiring, .chunk, .loader, .chain, .g2, .selfTest,
    .course]) s x7 := by
    unfold x7
    refine Upd.gallery ?_ rfl
    exact .refl
  clear_value x7
  refine Upd.foldl (fun t x ht => ?_) _ ?_
  · split
    · exact by with_reducible assumption
    · exact Upd.ite (Upd.after windowAccess_upd rfl <| Upd.after modCrew_upd rfl <| by with_reducible assumption)
        (by with_reducible assumption)
  · exact by with_reducible assumption

theorem invalComplete_upd {s : State} {p : Port} :
    Upd [.regs, .out, .host, .portOps, .cox] s (State.invalComplete s p) := by
  unfold State.invalComplete
  split
  · exact .refl
  · extract_lets x8
    have hx8 : Upd [.regs, .out, .host, .portOps, .cox] s x8 := by
      unfold x8
      refine Upd.portOps ?_ rfl
      exact .refl
    clear_value x8
    exact Upd.ite (by with_reducible assumption) (Upd.after pgtEnd_upd rfl <| by with_reducible assumption)

theorem windowRead_upd {s : State} {id pos tag va len : Nat} :
    Upd (Part.allBut [.pending, .held, .fuses, .straps, .cellar, .seq, .power, .cross, .pins, .refs, .lines, .ids,
      .heatCopy, .portOps, .alloc, .prog, .recClear, .retiring, .chunk, .loader, .chain, .g2, .selfTest, .course]) s
      (State.windowRead s id pos tag va len) := by
  unfold State.windowRead
  split
  · exact .refl
  · exact Upd.ite .refl (Upd.after windowAccess_upd rfl .refl)

theorem staleMem_upd {s : State} {id : Nat} :
    Upd [.regs] s (State.staleMem s id) := by
  unfold State.staleMem
  exact Upd.after bump_upd rfl .refl

theorem reclaimTable_upd {s : State} {table : Nat} :
    Upd [.regs, .out, .host, .stackCtl, .frames, .attic, .cox, .gallery] s (State.reclaimTable s table) := by
  unfold State.reclaimTable
  refine Upd.foldl (fun t x ht => ?_) _ ?_
  · extract_lets
    split
    · rename_i t10 e10
      have ht10 : Upd [.regs, .out, .host, .stackCtl, .frames, .attic, .cox, .gallery] s t10 := Upd.of_pair e10 <|
        Upd.after readSector_upd rfl <| by with_reducible assumption
      exact by with_reducible assumption
    · rename_i t11 e11
      have ht11 : Upd [.regs, .out, .host, .stackCtl, .frames, .attic, .cox, .gallery] s t11 := Upd.of_pair e11 <|
        Upd.after readSector_upd rfl <| by with_reducible assumption
      refine Upd.foldl (fun t x ht => ?_) _ ?_
      · extract_lets x17 x18
        clear_value x17
        clear_value x18
        exact Upd.ite (Upd.after releaseFrame_upd rfl <| by with_reducible assumption) (by with_reducible assumption)
      · exact by with_reducible assumption
  · exact .refl

theorem zeroOne_upd {s : State} {h : Half} :
    Upd [.draws, .mem, .bad, .frames, .alloc] s (State.zeroOne s h) := by
  unfold State.zeroOne
  extract_lets x5 x6 x7
  clear_value x5
  clear_value x6
  clear_value x7
  split
  · exact .refl
  · extract_lets x14 x15 x16 x17
    clear_value x14
    clear_value x15
    clear_value x16
    have hx17 : Upd [.draws, .mem, .bad, .frames, .alloc] s x17 := Upd.after zeroFrame_upd rfl <| Upd.after drew_upd
      rfl .refl
    clear_value x17
    refine Upd.after modAlloc_upd rfl <| Upd.frames ?_ rfl
    exact by with_reducible assumption

theorem memDone_upd {s : State} {id heat : Nat} {tag : Option Nat} :
    Upd [.regs, .out, .rooms, .blocks, .crews, .reads] s (State.memDone s id heat tag) := by
  unfold State.memDone
  refine Upd.ite ?_ ?_
  · split
    · exact Upd.after staleMem_upd rfl .refl
    · split
      · exact .refl
      · refine Upd.after staleMem_upd rfl <| Upd.reads ?_ rfl
        exact .refl
  · extract_lets
    split
    · exact Upd.after modCrew_upd rfl .refl
    · split
      · exact .refl
      · extract_lets x12
        clear_value x12
        refine Upd.ite ?_ ?_
        · refine Upd.reads ?_ rfl
          exact .refl
        · refine Upd.ite ?_ ?_
          · refine Upd.reads ?_ rfl
            exact .refl
          · refine Upd.after deliverRead_upd rfl <| Upd.reads ?_ rfl
            exact .refl

theorem reclaimWalk_upd {s : State} {h : Half} :
    Upd [.regs, .out, .host, .stackCtl, .frames, .alloc, .attic, .cox, .gallery] s (State.reclaimWalk s h) := by
  unfold State.reclaimWalk
  split
  · exact .refl
  · extract_lets x9
    have hx9 : Upd [.regs, .out, .host, .stackCtl, .frames, .alloc, .attic, .cox, .gallery] s x9 := by
      unfold x9
      refine Upd.foldl (fun t x ht => ?_) _ ?_
      · extract_lets
        split
        · rename_i t17 e17
          have ht17 : Upd [.regs, .out, .host, .stackCtl, .frames, .alloc, .attic, .cox, .gallery] s t17 :=
            Upd.of_pair e17 <| Upd.after readSector_upd rfl <| by with_reducible assumption
          exact by with_reducible assumption
        · rename_i t18 e18
          have ht18 : Upd [.regs, .out, .host, .stackCtl, .frames, .alloc, .attic, .cox, .gallery] s t18 :=
            Upd.of_pair e18 <| Upd.after readSector_upd rfl <| by with_reducible assumption
          refine Upd.foldl (fun t x ht => ?_) _ ?_
          · extract_lets x23
            clear_value x23
            exact Upd.ite (Upd.after reclaimTable_upd rfl <| by with_reducible assumption) (by with_reducible
              assumption)
          · exact by with_reducible assumption
      · exact .refl
    clear_value x9
    exact Upd.after modAlloc_upd rfl <| by with_reducible assumption

theorem hostWake_upd {s : State} {m : Master} {p off : Nat} {write : Bool} :
    Upd (Part.allBut [.pending, .held, .fuses, .straps, .cellar, .security, .lines, .ids, .heatCopy, .stamps,
      .alloc, .prog, .recClear, .chunk, .loader, .chain, .selfTest, .course]) s (State.hostWake s m p off write) := by
  unfold State.hostWake
  split
  · exact Upd.ite .refl (Upd.after wakeSource_upd rfl .refl)
  · exact .refl

theorem lostAccess_upd {s : State} {m : Master} :
    Upd [.regs] s (State.lostAccess s m) := by
  unfold State.lostAccess
  split
  · exact Upd.after bump_upd rfl .refl
  · exact .refl

theorem ghost_upd {s : State} {p : Nat} :
    Upd [.regs] s (State.ghost s p) := by
  unfold State.ghost
  extract_lets x3
  clear_value x3
  exact Upd.after wr_upd rfl <| Upd.after bump_upd rfl .refl

theorem gate_upd {s : State} {m : Master} {p off : Nat} {write : Bool} :
    Upd (Part.allBut [.pending, .held, .fuses, .straps, .cellar, .lines, .ids, .heatCopy, .stamps, .alloc, .prog,
      .recClear, .chunk, .loader, .chain, .selfTest, .course]) s (State.gate s m p off write).2 := by
  unfold State.gate
  extract_lets x6
  have hx6 : Upd (Part.allBut [.pending, .held, .fuses, .straps, .cellar, .lines, .ids, .heatCopy, .stamps, .alloc,
    .prog, .recClear, .chunk, .loader, .chain, .selfTest, .course]) s x6 := Upd.after hostWake_upd rfl .refl
  clear_value x6
  refine Upd.ite_snd ?_ ?_
  · exact .refl
  · refine Upd.ite_snd ?_ ?_
    · exact by with_reducible assumption
    · split
      · exact by with_reducible assumption
      · exact by with_reducible assumption
      · refine Upd.ite_snd ?_ ?_
        · dsimp -zeta only
          exact Upd.after lostAccess_upd rfl <| by with_reducible assumption
        · refine Upd.ite_snd ?_ ?_
          · exact by with_reducible assumption
          · refine Upd.ite_snd ?_ ?_
            · dsimp -zeta only
              exact Upd.after freezeMaster_upd rfl <| Upd.ite (by with_reducible assumption) (Upd.after pgErr_upd
                rfl <| by with_reducible assumption)
            · refine Upd.ite_snd ?_ ?_
              · dsimp -zeta only
                exact Upd.after ghost_upd rfl <| by with_reducible assumption
              · refine Upd.ite_snd ?_ ?_
                · dsimp -zeta only
                  exact Upd.after pgErr_upd rfl <| by with_reducible assumption
                · exact Upd.ite_snd (by with_reducible assumption) (by with_reducible assumption)

theorem toPage_hupd {K s t m p off f} (hk : Part.sub (Part.allBut [.pending, .held, .fuses, .straps, .cellar, .lines, .ids, .heatCopy, .stamps, .alloc, .prog, .recClear, .chunk, .loader, .chain, .selfTest, .course]) K = true)
    (hf : ∀ u, Upd K s u → Upd K s (f u)) (h : Upd K s t) : Upd K s (State.toPage t m p off f) := by
  unfold State.toPage
  have hg := Upd.after (gate_upd (m := m) (p := p) (off := off) (write := true)) hk h
  split
  · rename_i e; exact hf _ (Upd.of_pair e hg)
  · rename_i e; exact Upd.of_pair e hg

theorem goTo_hupd {K s t m p off store go} (hk : Part.sub (Part.allBut [.pending, .held, .fuses, .straps, .cellar, .lines, .ids, .heatCopy, .stamps, .alloc, .prog, .recClear, .chunk, .loader, .chain, .selfTest, .course]) K = true)
    (hs : ∀ u, Upd K s u → Upd K s (store u)) (hg : ∀ u, Upd K s u → Upd K s (go u)) (h : Upd K s t) :
    Upd K s (State.goTo t m p off store go) := by
  unfold State.goTo
  exact toPage_hupd hk (fun u hu => Upd.ite (hg _ (hs u hu)) (hs u hu)) h

theorem toVf_hupd {K s t n f} (hk : Part.sub (Part.allBut [.pending, .held, .fuses, .straps, .cellar, .security, .lines, .ids, .heatCopy, .stamps, .alloc, .prog, .recClear, .chunk, .loader, .chain, .selfTest, .course]) K = true)
    (hf : ∀ u, Upd K s u → Upd K s (f u)) (h : Upd K s t) : Upd K s (State.toVf t n f) := by
  unfold State.toVf
  have hw := Upd.after (wakeSource_upd (sources := 2)) hk h
  exact Upd.ite h (Upd.ite hw (hf _ hw))

theorem toPort_hupd {K s t b p f} (hk : Part.sub (Part.allBut [.pending, .held, .fuses, .straps, .cellar, .lines, .ids, .heatCopy, .stamps, .alloc, .prog, .recClear, .chunk, .loader, .chain, .selfTest, .course]) K = true)
    (hf : ∀ u, Upd K s u → Upd K s (f u)) (h : Upd K s t) : Upd K s (State.toPort t b p f) := by
  unfold State.toPort
  split
  · exact goTo_hupd hk (fun _ hu => hu) hf h
  · refine toVf_hupd ?_ hf h
    exact Part.sub_trans (K := (Part.allBut [.pending, .held, .fuses, .straps, .cellar, .security, .lines, .ids, .heatCopy, .stamps, .alloc, .prog, .recClear, .chunk, .loader, .chain, .selfTest, .course])) rfl hk

theorem store_upd {s : State} {p off : Nat} {v : Word} :
    Upd [.regs, .held] s (State.store s p off v) := by
  unfold State.store
  extract_lets x5
  clear_value x5
  split
  · exact .refl
  · extract_lets x11
    have hx11 : Upd [.regs, .held] s x11 := Upd.after setReg_upd rfl .refl
    clear_value x11
    refine Upd.held ?_ rfl
    exact by with_reducible assumption

theorem complete_upd {s : State} {m : Master} {write : Bool} {r : Reply} :
    Upd [.out] s (State.complete s m write r) := by
  unfold State.complete
  exact Upd.ite .refl (Upd.after emit_upd rfl .refl)

theorem gated_upd {s : State} {m : Master} {p off : Nat} {write : Bool} :
    Upd (Part.allBut [.pending, .held, .fuses, .straps, .cellar, .lines, .ids, .heatCopy, .stamps, .alloc, .prog,
      .recClear, .chunk, .loader, .chain, .selfTest, .course]) s (State.gated s m p off write) := by
  unfold State.gated
  split
  · rename_i t11 e11
    have ht11 : Upd (Part.allBut [.pending, .held, .fuses, .straps, .cellar, .lines, .ids, .heatCopy, .stamps,
      .alloc, .prog, .recClear, .chunk, .loader, .chain, .selfTest, .course]) s t11 := Upd.of_pair e11 <| Upd.after
      gate_upd rfl .refl
    exact Upd.after complete_upd rfl <| by with_reducible assumption
  · rename_i t12 _ e12
    have ht12 : Upd (Part.allBut [.pending, .held, .fuses, .straps, .cellar, .lines, .ids, .heatCopy, .stamps,
      .alloc, .prog, .recClear, .chunk, .loader, .chain, .selfTest, .course]) s t12 := Upd.of_pair e12 <| Upd.after
      gate_upd rfl .refl
    exact by with_reducible assumption

theorem gatedIf_upd {s : State} {m : Master} {off : Nat} {write : Bool} {why : State → Nat → Bool} :
    Upd (Part.allBut [.pending, .held, .fuses, .straps, .cellar, .lines, .ids, .heatCopy, .stamps, .alloc, .prog,
      .recClear, .chunk, .loader, .chain, .selfTest, .course]) s (State.gatedIf s m off write why) := by
  unfold State.gatedIf
  extract_lets x6
  clear_value x6
  exact Upd.ite (Upd.after gated_upd rfl .refl) .refl

theorem modLoad_upd {s : State} {f : Loader → Loader} :
    Upd [.loader] s (State.modLoad s f) := by
  unfold State.modLoad
  refine Upd.loader ?_ rfl
  exact .refl

theorem storedTake_upd {s : State} {n : Nat} :
    Upd [.loader] s (State.storedTake s n) := by
  unfold State.storedTake
  exact Upd.after modLoad_upd rfl .refl

theorem loadErr_upd {s : State} {code record detail pos : Nat} :
    Upd [.regs] s (State.loadErr s code record detail pos) := by
  unfold State.loadErr
  extract_lets x6
  have hx6 : Upd [.regs] s x6 := Upd.after wrs_upd rfl .refl
  clear_value x6
  exact Upd.ite (Upd.after wr_upd rfl <| by with_reducible assumption) (by with_reducible assumption)

theorem loadOutcome_upd {s : State} :
    Upd [.regs, .out, .seq, .host, .loader, .g2, .selfTest, .cox] s (State.loadOutcome s) := by
  unfold State.loadOutcome
  extract_lets x3 x4
  have hx3 : Upd [.regs, .out, .seq, .host, .loader, .g2, .selfTest, .cox] s x3 := Upd.after wr_upd rfl <| Upd.after
    modLoad_upd rfl .refl
  clear_value x3
  have hx4 : ∀ a0, Upd [.regs, .out, .seq, .host, .loader, .g2, .selfTest, .cox] s (x4 a0) := by
    intros
    exact Upd.after modLoad_upd rfl <| by with_reducible assumption
  clear_value x4
  exact Upd.ite (hx4 _) (Upd.ite (hx4 _) (Upd.after haltBoth_upd rfl <| Upd.after raise_upd rfl <| by with_reducible
    assumption))

theorem loadFail_upd {s : State} {code record detail pos : Nat} :
    Upd [.regs, .out, .seq, .host, .loader, .g2, .selfTest, .cox] s (State.loadFail s code record detail pos) := by
  unfold State.loadFail
  extract_lets x6
  have hx6 : Upd [.regs, .out, .seq, .host, .loader, .g2, .selfTest, .cox] s x6 := Upd.after loadErr_upd rfl .refl
  clear_value x6
  exact Upd.ite (Upd.ite (Upd.after wr_upd rfl <| Upd.after modLoad_upd rfl <| by with_reducible assumption)
    (Upd.after loadOutcome_upd rfl <| by with_reducible assumption)) .refl

theorem settleLoad_upd {s : State} :
    Upd [.regs, .out, .seq, .host, .loader, .g2, .selfTest, .cox] s (State.settleLoad s) := by
  unfold State.settleLoad
  exact Upd.ite (Upd.after loadOutcome_upd rfl .refl) .refl

theorem plainTake_upd {s : State} {n : Nat} :
    Upd [.regs, .loader] s (State.plainTake s n) := by
  unfold State.plainTake
  extract_lets x4 x5
  clear_value x4
  have hx5 : Upd [.regs, .loader] s x5 := Upd.after modLoad_upd rfl .refl
  clear_value x5
  exact Upd.ite (by with_reducible assumption) (Upd.after wr_upd rfl <| Upd.after storedTake_upd rfl <| by
    with_reducible assumption)

theorem galleryLost_upd {s : State} :
    Upd [.regs, .out, .seq, .host, .loader, .g2, .selfTest, .cox] s (State.galleryLost s) := by
  unfold State.galleryLost
  exact Upd.after loadFail_upd rfl .refl

theorem cellarEnter_upd {s : State} :
    Upd (Part.allBut [.pending, .straps]) s (State.cellarEnter s) := by
  unfold State.cellarEnter
  extract_lets x4 x5 x6
  clear_value x4
  have hx5 : Upd (Part.allBut [.pending, .straps]) s x5 := Upd.regs_cellar .refl rfl (fun c => ⟨c.mem, c.fabric,
    c.regs_filter _, c.crews, c.hatches⟩)
  clear_value x5
  have hx6 : Upd (Part.allBut [.pending, .straps]) s x6 := Upd.after dark_upd rfl <| by with_reducible assumption
  clear_value x6
  exact Upd.after wr_upd rfl <| Upd.after wr_upd rfl <| by with_reducible assumption

theorem standbyWakes_upd {s : State} {sources lines : Nat} {ready : Bool} :
    Upd (Part.allBut [.pending, .held, .fuses, .straps, .cellar, .security, .lines, .ids, .heatCopy, .stamps,
      .alloc, .prog, .recClear, .chunk, .loader, .chain, .selfTest, .course]) s (State.standbyWakes s sources lines
      ready) := by
  unfold State.standbyWakes
  extract_lets x6 x7
  clear_value x6
  clear_value x7
  refine Upd.ite ?_ ?_
  · refine Upd.after wakeBy_upd rfl <| Upd.pins ?_ rfl
    exact .refl
  · exact .refl

theorem standbyStart_upd {s : State} :
    Upd [.draws, .seq, .doorway, .porches, .rooms, .fabric, .sigs, .blocks, .crews, .wings, .reads] s
      (State.standbyStart s) := by
  unfold State.standbyStart
  exact Upd.ite (Upd.after standbyGo_upd rfl <| Upd.after modSeq_upd rfl .refl) .refl

theorem quiesceAll_upd {s : State} :
    Upd [.rooms] s (State.quiesceAll s) := by
  unfold State.quiesceAll
  refine Upd.rooms ?_ rfl
  exact .refl

theorem thermalTrip_upd {s : State} :
    Upd [.regs, .out, .seq, .power, .rooms, .loader, .g2, .selfTest] s (State.thermalTrip s) := by
  unfold State.thermalTrip
  extract_lets x3 x4
  have hx3 : Upd [.regs, .out, .seq, .power, .rooms, .loader, .g2, .selfTest] s x3 := Upd.after quiesceAll_upd rfl
    <| Upd.after haltBoth_upd rfl .refl
  clear_value x3
  have hx4 : Upd [.regs, .out, .seq, .power, .rooms, .loader, .g2, .selfTest] s x4 := Upd.foldl (fun t x ht =>
    Upd.after wr_upd rfl <| by with_reducible assumption) _ (by with_reducible assumption)
  clear_value x4
  exact Upd.after avsCommit_upd rfl <| Upd.after avsCommit_upd rfl <| by with_reducible assumption

theorem thermalSample_upd {s : State} {readings : List Int} :
    Upd [.regs, .out, .cellar, .seq, .power, .rooms, .loader, .g2, .selfTest] s (State.thermalSample s readings) := by
  unfold State.thermalSample
  extract_lets x6 x7 x8 x9
  clear_value x6
  clear_value x7
  have hx8 : Upd [.regs, .out, .cellar, .seq, .power, .rooms, .loader, .g2, .selfTest] s x8 := by
    unfold x8
    refine Upd.cellar ?_ rfl
    exact .refl
  clear_value x8
  clear_value x9
  exact Upd.ite (Upd.ite (Upd.ite (by with_reducible assumption) (Upd.after thermalTrip_upd rfl <| by with_reducible
    assumption)) (by with_reducible assumption)) .refl

theorem modeReqBy_upd {s : State} {m : Master} {h : Half} {target : Nat} :
    Upd (Part.allBut [.pending, .straps]) s (State.modeReqBy s m h target) := by
  unfold State.modeReqBy
  refine goTo_hupd rfl ?_ ?_ ?_
  · intro u z1
    exact Upd.ite (Upd.after wr_upd rfl <| by with_reducible assumption) (by with_reducible assumption)
  · intro u z1
    exact Upd.after modeReq_upd rfl <| by with_reducible assumption
  · exact .refl

theorem destroyRooms_upd {s : State} {id : Nat} :
    Upd (Part.allBut [.pending, .held, .fuses, .straps, .cellar, .seq, .power, .pins, .heatCopy, .prog, .recClear,
      .retiring, .chunk, .loader, .chain, .g2, .selfTest, .course]) s (State.destroyRooms s id) := by
  unfold State.destroyRooms
  split
  · exact .refl
  · exact Upd.ite (Upd.after startDrain_upd rfl .refl) (Upd.ite (Upd.ite (Upd.after modWing_upd rfl .refl)
      (Upd.after settlePorts_upd rfl <| Upd.after decision_upd rfl <| Upd.after destroyPinned_upd rfl .refl)) .refl)

theorem railsLow_upd {s : State} :
    Upd (Part.allBut [.pending, .straps]) s (State.railsLow s) := by
  unfold State.railsLow
  exact Upd.ite .refl (Upd.after dark_upd rfl .refl)

theorem stackTemp_upd {s : State} {k : Nat} {t : Byte} :
    Upd [.regs, .out, .seq, .power, .rooms, .loader, .g2, .selfTest] s (State.stackTemp s k t) := by
  unfold State.stackTemp
  extract_lets x4
  have hx4 : Upd [.regs, .out, .seq, .power, .rooms, .loader, .g2, .selfTest] s x4 := Upd.after wr_upd rfl .refl
  clear_value x4
  exact Upd.ite (Upd.ite (Upd.after thermalTrip_upd rfl <| by with_reducible assumption) (by with_reducible
    assumption)) .refl

theorem setGallery_upd {s : State} {up : Bool} :
    Upd [.regs, .out, .host, .cox] s (State.setGallery s up) := by
  unfold State.setGallery
  extract_lets x3
  have hx3 : ∀ a0 a1, Upd [.regs, .out, .host, .cox] s a0 → Upd [.regs, .out, .host, .cox] s (x3 a0 a1) := by
    intros
    exact Upd.after raise_upd rfl <| Upd.after wr_upd rfl <| by with_reducible assumption
  clear_value x3
  exact hx3 _ _ <| hx3 _ _ .refl

theorem bootGallery_upd {s : State} :
    Upd (Part.allBut [.pending, .straps]) s (State.bootGallery s) := by
  unfold State.bootGallery
  exact Upd.ite (Upd.ite (Upd.after leaderCheck_upd rfl <| Upd.after setGallery_upd rfl .refl) (Upd.after boot_upd
    rfl .refl)) .refl

theorem powerDown_upd {s : State} :
    Upd [.regs, .out, .draws, .seq, .power, .cross, .porches] s (State.powerDown s) := by
  unfold State.powerDown
  extract_lets x3 x4
  have hx3 : Upd [.regs, .out, .draws, .seq, .power, .cross, .porches] s x3 := Upd.after sleepHalf_upd rfl <|
    Upd.after sleepHalf_upd rfl .refl
  clear_value x3
  have hx4 : Upd [.regs, .out, .draws, .seq, .power, .cross, .porches] s x4 := Upd.after wr_upd rfl <| Upd.after
    setMode_upd rfl <| Upd.after setMode_upd rfl <| by with_reducible assumption
  clear_value x4
  exact Upd.ite (Upd.after crsByMode_upd rfl <| Upd.after modSeq_upd rfl <| Upd.after transit_upd rfl <| by
    with_reducible assumption) .refl

theorem maybeBoot_upd {s : State} :
    Upd (Part.allBut [.pending, .straps]) s (State.maybeBoot s) := by
  unfold State.maybeBoot
  exact Upd.ite (Upd.after boot_upd rfl .refl) .refl

theorem hallUp_upd {s : State} {h : Half} :
    Upd [.regs, .draws, .cross, .porches] s (State.hallUp s h) := by
  unfold State.hallUp
  extract_lets x3
  have hx3 : Upd [.regs, .draws, .cross, .porches] s x3 := Upd.after setSrcReady_upd rfl <| Upd.after
    setSrcReady_upd rfl <| Upd.after setSrcReady_upd rfl <| Upd.after setSrcReady_upd rfl .refl
  clear_value x3
  exact Upd.after wrs_upd rfl <| Upd.after wrs_upd rfl <| by with_reducible assumption

theorem renewed_upd {s : State} :
    Upd [.regs] s (State.renewed s) := by
  unfold State.renewed
  exact Upd.ite (Upd.after wr_upd rfl <| Upd.after step1_upd rfl .refl) .refl

theorem stacksTrained_upd {s : State} {repairs : List Byte} :
    Upd (Part.allBut [.pending, .held, .fuses, .straps, .cellar, .cross, .pins, .heatCopy, .prog, .recClear,
      .chunk]) s (State.stacksTrained s repairs) := by
  unfold State.stacksTrained
  extract_lets x5 x6 x7
  have hx5 : Upd (Part.allBut [.pending, .held, .fuses, .straps, .cellar, .cross, .pins, .heatCopy, .prog,
    .recClear, .chunk]) s x5 := Upd.foldl (fun t x ht => Upd.after wrs_upd rfl <| by with_reducible assumption) _
    .refl
  clear_value x5
  have hx6 : Upd (Part.allBut [.pending, .held, .fuses, .straps, .cellar, .cross, .pins, .heatCopy, .prog,
    .recClear, .chunk]) s x6 := Upd.after modSeq_upd rfl <| by with_reducible assumption
  clear_value x6
  clear_value x7
  exact Upd.ite .refl (Upd.after begin_upd rfl <| by with_reducible assumption)

theorem renewal_upd {s : State} :
    Upd [.regs, .out] s (State.renewal s) := by
  unfold State.renewal
  extract_lets x2
  clear_value x2
  exact Upd.ite (Upd.after emit_upd rfl <| Upd.after wrs_upd rfl <| Upd.after step1_upd rfl .refl) .refl

theorem bootNoGallery_upd {s : State} :
    Upd [.regs, .out, .seq, .loader, .g2, .selfTest] s (State.bootNoGallery s) := by
  unfold State.bootNoGallery
  exact Upd.ite (Upd.ite (Upd.after haltBoth_upd rfl .refl) (Upd.after haltHalf_upd rfl .refl)) .refl

theorem latePorts_upd {s : State} :
    Upd (Part.allBut [.pending, .held, .fuses, .straps, .cellar, .seq, .power, .pins, .heatCopy, .prog, .recClear,
      .retiring, .chunk, .loader, .chain, .g2, .selfTest, .course]) s (State.latePorts s) := by
  unfold State.latePorts
  extract_lets x2
  have hx2 : Upd (Part.allBut [.pending, .held, .fuses, .straps, .cellar, .seq, .power, .pins, .heatCopy, .prog,
    .recClear, .retiring, .chunk, .loader, .chain, .g2, .selfTest, .course]) s x2 := by
    unfold x2
    refine Upd.foldl (fun t x ht => ?_) _ ?_
    · split
      · exact by with_reducible assumption
      · exact Upd.ite (by with_reducible assumption) (Upd.after destroyRooms_upd rfl <| by with_reducible assumption)
    · exact .refl
  clear_value x2
  exact Upd.foldl (fun t x ht => Upd.after startDrain_upd rfl <| Upd.after modCrew_upd rfl <| by with_reducible
    assumption) _ (by with_reducible assumption)

theorem atticCatchUp_upd {s : State} :
    Upd [.regs, .rooms, .attic, .gallery] s (State.atticCatchUp s) := by
  unfold State.atticCatchUp
  extract_lets x4 x5 x6
  have hx4 : Upd [.regs, .rooms, .attic, .gallery] s x4 := Upd.foldl (fun t x ht => Upd.after retireRoom_upd rfl <|
    by with_reducible assumption) _ .refl
  clear_value x4
  have hx5 : Upd [.regs, .rooms, .attic, .gallery] s x5 := Upd.foldl (fun t x ht => Upd.after recordFrame_upd rfl <|
    by with_reducible assumption) _ (by with_reducible assumption)
  clear_value x5
  clear_value x6
  refine Upd.gallery ?_ rfl
  exact by with_reducible assumption

theorem readopt_upd {s : State} :
    Upd (Part.allBut [.pending, .held, .fuses, .straps, .cellar, .pins, .heatCopy, .prog, .recClear, .chunk]) s
      (State.readopt s) := by
  unfold State.readopt
  extract_lets x22 x23 x24 x25 x26 x27 x28 x29 x30 x31 x32 x33 x34 x35 x36 x37 x38 x39 x40 x41 x42
  clear_value x22
  clear_value x23
  have hx24 : Upd (Part.allBut [.pending, .held, .fuses, .straps, .cellar, .pins, .heatCopy, .prog, .recClear,
    .chunk]) s x24 := Upd.after emit_upd rfl .refl
  clear_value x24
  have hx25 : Upd (Part.allBut [.pending, .held, .fuses, .straps, .cellar, .pins, .heatCopy, .prog, .recClear,
    .chunk]) s x25 := Upd.after emit_upd rfl <| Upd.after step1_upd rfl <| Upd.after step1_upd rfl <| by
    with_reducible assumption
  clear_value x25
  have hx26 : Upd (Part.allBut [.pending, .held, .fuses, .straps, .cellar, .pins, .heatCopy, .prog, .recClear,
    .chunk]) s x26 := Upd.after modSeq_upd rfl <| by with_reducible assumption
  clear_value x26
  have hx27 : Upd (Part.allBut [.pending, .held, .fuses, .straps, .cellar, .pins, .heatCopy, .prog, .recClear,
    .chunk]) s x27 := Upd.after egressFlush_upd rfl <| Upd.after egressFlush_upd rfl <| by with_reducible assumption
  clear_value x27
  have hx28 : Upd (Part.allBut [.pending, .held, .fuses, .straps, .cellar, .pins, .heatCopy, .prog, .recClear,
    .chunk]) s x28 := Upd.after releaseAccesses_upd rfl <| Upd.after releaseAccesses_upd rfl <| by with_reducible
    assumption
  clear_value x28
  have hx29 : Upd (Part.allBut [.pending, .held, .fuses, .straps, .cellar, .pins, .heatCopy, .prog, .recClear,
    .chunk]) s x29 := Upd.after modSeq_upd rfl <| by with_reducible assumption
  clear_value x29
  clear_value x30
  have hx31 : Upd (Part.allBut [.pending, .held, .fuses, .straps, .cellar, .pins, .heatCopy, .prog, .recClear,
    .chunk]) s x31 := Upd.after wr_upd rfl <| by with_reducible assumption
  clear_value x31
  have hx32 : Upd (Part.allBut [.pending, .held, .fuses, .straps, .cellar, .pins, .heatCopy, .prog, .recClear,
    .chunk]) s x32 := Upd.ite (Upd.after wrs_upd rfl <| by with_reducible assumption) (Upd.ite (by with_reducible
    assumption) (Upd.after setMode_upd rfl <| by with_reducible assumption))
  clear_value x32
  have hx33 : ∀ a0 a1, Upd (Part.allBut [.pending, .held, .fuses, .straps, .cellar, .pins, .heatCopy, .prog,
    .recClear, .chunk]) s a0 → Upd (Part.allBut [.pending, .held, .fuses, .straps, .cellar, .pins, .heatCopy, .prog,
    .recClear, .chunk]) s (x33 a0 a1) := by
    intros
    exact Upd.after wrs_upd rfl <| by with_reducible assumption
  clear_value x33
  have hx34 : Upd (Part.allBut [.pending, .held, .fuses, .straps, .cellar, .pins, .heatCopy, .prog, .recClear,
    .chunk]) s x34 := Upd.after raiseCox_upd rfl <| hx33 _ _ <| hx33 _ _ <| by with_reducible assumption
  clear_value x34
  clear_value x35
  clear_value x36
  have hx37 : Upd (Part.allBut [.pending, .held, .fuses, .straps, .cellar, .pins, .heatCopy, .prog, .recClear,
    .chunk]) s x37 := by
    unfold x37
    refine Upd.security ?_ rfl
    exact by with_reducible assumption
  clear_value x37
  have hx38 : Upd (Part.allBut [.pending, .held, .fuses, .straps, .cellar, .pins, .heatCopy, .prog, .recClear,
    .chunk]) s x38 := by
    unfold x38
    refine Upd.after atticCatchUp_upd rfl <| Upd.foldl (fun t x ht => ?_) _ ?_
    · split
      exact Upd.after freezeLast_upd rfl <| by with_reducible assumption
    · exact by with_reducible assumption
  clear_value x38
  clear_value x39
  have hx40 : Upd (Part.allBut [.pending, .held, .fuses, .straps, .cellar, .pins, .heatCopy, .prog, .recClear,
    .chunk]) s x40 := Upd.after modPow_upd rfl <| Upd.after modPow_upd rfl <| by with_reducible assumption
  clear_value x40
  have hx41 : Upd (Part.allBut [.pending, .held, .fuses, .straps, .cellar, .pins, .heatCopy, .prog, .recClear,
    .chunk]) s x41 := Upd.after govShow_upd rfl <| Upd.after govShow_upd rfl <| by with_reducible assumption
  clear_value x41
  have hx42 : Upd (Part.allBut [.pending, .held, .fuses, .straps, .cellar, .pins, .heatCopy, .prog, .recClear,
    .chunk]) s x42 := Upd.after retireAct_upd rfl <| Upd.after retireAct_upd rfl <| Upd.after latePorts_upd rfl <| by
    with_reducible assumption
  clear_value x42
  exact Upd.after service_upd rfl <| Upd.after settlePorts_upd rfl <| Upd.after decision_upd rfl <| Upd.after
    decision_upd rfl <| by with_reducible assumption

theorem galleryTries_upd {s : State} {trained : Bool} :
    Upd (Part.allBut [.pending, .held, .fuses, .straps, .cellar, .pins, .heatCopy, .prog, .recClear, .chunk]) s
      (State.galleryTries s trained) := by
  unfold State.galleryTries
  extract_lets x4 x5
  clear_value x4
  have hx5 : Upd (Part.allBut [.pending, .held, .fuses, .straps, .cellar, .pins, .heatCopy, .prog, .recClear,
    .chunk]) s x5 := by
    unfold x5
    refine Upd.after setGallery_upd rfl <| Upd.gallery ?_ rfl
    exact .refl
  clear_value x5
  exact Upd.ite (Upd.ite (Upd.after readopt_upd rfl <| by with_reducible assumption) (by with_reducible assumption))
    .refl

theorem leaderFollows_upd {s : State} :
    Upd (Part.allBut [.pending, .held, .fuses, .straps, .cellar, .cross, .pins, .heatCopy, .prog, .recClear,
      .chunk]) s (State.leaderFollows s) := by
  unfold State.leaderFollows
  split
  · exact Upd.after service_upd rfl <| Upd.after leaderChange_upd rfl .refl
  · exact .refl

theorem leaderLapses_upd {s : State} :
    Upd [.regs, .out, .host, .cox] s (State.leaderLapses s) := by
  unfold State.leaderLapses
  extract_lets x2
  clear_value x2
  exact Upd.ite (Upd.after raiseCox_upd rfl <| Upd.after lapse_upd rfl .refl) .refl

theorem comparatorFires_upd {s : State} :
    Upd [.regs, .out, .draws, .cellar, .seq, .power, .cross, .porches, .rooms, .loader, .g2, .selfTest] s
      (State.comparatorFires s) := by
  unfold State.comparatorFires
  extract_lets x3 x4
  clear_value x3
  have hx4 : Upd [.regs, .out, .draws, .cellar, .seq, .power, .cross, .porches, .rooms, .loader, .g2, .selfTest] s
    x4 := by
    unfold x4
    refine Upd.cellar ?_ rfl
    exact .refl
  clear_value x4
  exact Upd.ite (Upd.after thermalTrip_upd rfl <| Upd.after wakeHalf_upd rfl <| Upd.after wakeHalf_upd rfl <| by
    with_reducible assumption) .refl

theorem testEnds_upd {s : State} {rooms frames : List Nat} {hallFail stackFail : Bool} :
    Upd (Part.allBut [.pending, .straps]) s (State.testEnds s rooms frames hallFail stackFail) := by
  unfold State.testEnds
  extract_lets x11 x12 x13 x14 x15 x16
  clear_value x11
  have hx12 : Upd (Part.allBut [.pending, .straps]) s x12 := Upd.foldl (fun t x ht => Upd.ite (by with_reducible
    assumption) (Upd.after retireRoom_upd rfl <| by with_reducible assumption)) _ .refl
  clear_value x12
  have hx13 : Upd (Part.allBut [.pending, .straps]) s x13 := Upd.foldl (fun t x ht => Upd.after retireFrame_upd rfl
    <| by with_reducible assumption) _ (by with_reducible assumption)
  clear_value x13
  clear_value x14
  clear_value x15
  clear_value x16
  refine Upd.ite ?_ ?_
  · refine Upd.after boot_upd rfl <| Upd.attic ?_ rfl
    exact by with_reducible assumption
  · exact .refl

theorem romChecked_upd {s : State} {e w : Bool} :
    Upd [.regs, .out, .draws, .seq, .cross, .porches, .loader, .g2, .selfTest, .cox] s (State.romChecked s e w) := by
  unfold State.romChecked
  extract_lets x8 x9 x10 x11 x12
  clear_value x8
  clear_value x9
  clear_value x10
  have hx11 : Upd [.regs, .out, .draws, .seq, .cross, .porches, .loader, .g2, .selfTest, .cox] s x11 := by
    unfold x11
    refine Upd.cox ?_ rfl
    exact .refl
  clear_value x11
  have hx12 : Upd [.regs, .out, .draws, .seq, .cross, .porches, .loader, .g2, .selfTest, .cox] s x12 := Upd.ite
    .refl (Upd.after haltHalf_upd rfl .refl)
  clear_value x12
  exact Upd.ite .refl (Upd.ite (Upd.after modSeq_upd rfl <| Upd.after hallUp_upd rfl <| Upd.after hallUp_upd rfl <|
    by with_reducible assumption) (Upd.ite (by with_reducible assumption) (Upd.after haltHalf_upd rfl <| by
    with_reducible assumption)))

theorem conflict_upd {s : State} {h : Half} :
    Upd [.regs, .out, .host, .cox] s (State.conflict s h) := by
  unfold State.conflict
  extract_lets x4 x5
  clear_value x4
  have hx5 : ∀ a0 a1, Upd [.regs, .out, .host, .cox] s a0 → Upd [.regs, .out, .host, .cox] s (x5 a0 a1) := by
    intros
    exact Upd.after raiseCox_upd rfl <| Upd.after wr_upd rfl <| by with_reducible assumption
  clear_value x5
  exact Upd.ite (hx5 _ _ <| hx5 _ _ <| Upd.after wr_upd rfl <| Upd.after wr_upd rfl .refl) .refl

theorem followerChange_upd {s : State} :
    Upd [.regs, .out, .seq, .loader, .g2, .selfTest] s (State.followerChange s) := by
  unfold State.followerChange
  split
  · extract_lets x7
    have hx7 : Upd [.regs, .out, .seq, .loader, .g2, .selfTest] s x7 := Upd.ite (Upd.after transit_upd rfl <|
      Upd.after haltHalf_upd rfl .refl) (Upd.after setMode_upd rfl .refl)
    clear_value x7
    exact Upd.after modSeq_upd rfl <| by with_reducible assumption
  · exact .refl

theorem followerLapses_upd {s : State} :
    Upd [.regs] s (State.followerLapses s) := by
  unfold State.followerLapses
  extract_lets x3 x4
  clear_value x3
  have hx4 : Upd [.regs] s x4 := Upd.after lapse_upd rfl .refl
  clear_value x4
  exact Upd.ite (Upd.ite (Upd.after wr_upd rfl <| by with_reducible assumption) (by with_reducible assumption)) .refl

theorem galleryFails_upd {s : State} {retrained : Bool} :
    Upd [.regs, .out, .seq, .host, .loader, .g2, .selfTest, .cox, .gallery] s (State.galleryFails s retrained) := by
  unfold State.galleryFails
  extract_lets x5 x6 x7
  clear_value x5
  have hx6 : Upd [.regs, .out, .seq, .host, .loader, .g2, .selfTest, .cox, .gallery] s x6 := Upd.after bump_upd rfl
    <| Upd.after bump_upd rfl .refl
  clear_value x6
  clear_value x7
  refine Upd.ite ?_ ?_
  · refine Upd.ite ?_ ?_
    · exact by with_reducible assumption
    · refine Upd.after galleryLost_upd rfl <| Upd.after setGallery_upd rfl <| Upd.gallery ?_ rfl
      exact by with_reducible assumption
  · exact .refl

theorem wakeLate_upd {s : State} :
    Upd (Part.allBut [.pending, .held, .fuses, .straps, .cellar, .power, .cross, .security, .lines, .ids, .heatCopy,
      .stamps, .alloc, .prog, .recClear, .chunk, .loader, .chain, .selfTest, .course]) s (State.wakeLate s) := by
  unfold State.wakeLate
  extract_lets x2
  have hx2 : ∀ a0 a1, Upd (Part.allBut [.pending, .held, .fuses, .straps, .cellar, .power, .cross, .security,
    .lines, .ids, .heatCopy, .stamps, .alloc, .prog, .recClear, .chunk, .loader, .chain, .selfTest, .course]) s a0 →
    Upd (Part.allBut [.pending, .held, .fuses, .straps, .cellar, .power, .cross, .security, .lines, .ids, .heatCopy,
    .stamps, .alloc, .prog, .recClear, .chunk, .loader, .chain, .selfTest, .course]) s (x2 a0 a1) := by
    intros
    exact Upd.ite (by with_reducible assumption) (Upd.after raise_upd rfl <| Upd.after wr_upd rfl <| by
      with_reducible assumption)
  clear_value x2
  exact Upd.ite (Upd.after wakeUp_upd rfl <| hx2 _ _ <| hx2 _ _ .refl) .refl

theorem stwGo_hupd {K s t p f} (hk : Part.sub (Part.allBut [.pending, .held, .fuses, .straps, .cellar, .lines, .ids, .heatCopy, .stamps, .alloc, .prog, .recClear, .chunk, .loader, .chain, .selfTest, .course]) K = true)
    (hf : ∀ u, Upd K s u → Upd K s (f u)) (h : Upd K s t) : Upd K s (State.stwGo t p f) := by
  unfold State.stwGo
  refine toPort_hupd hk (fun u hu => Upd.ite hu (hf _ (Upd.after portStart_upd ?_ hu))) h
  exact Part.sub_trans (K := [.regs]) rfl hk

theorem boardPinned_upd {s : State} {id : Nat} :
    Upd [.doorway, .rooms, .fabric, .sigs, .blocks, .crews, .wings, .reads] s (State.boardPinned s id) := by
  unfold State.boardPinned
  extract_lets x3
  have hx3 : Upd [.doorway, .rooms, .fabric, .sigs, .blocks, .crews, .wings, .reads] s x3 := Upd.after modCrew_upd
    rfl .refl
  clear_value x3
  split
  · exact .refl
  · extract_lets x10
    clear_value x10
    exact Upd.ite (Upd.after modWing_upd rfl <| Upd.after modRooms_upd rfl <| by with_reducible assumption)
      (Upd.after startSwap_upd rfl <| by with_reducible assumption)

theorem newCrew_upd {s : State} {id : Nat} {c : Crew} :
    Upd [.regs, .out, .host, .crews, .ids, .cox, .hatches] s (State.newCrew s id c) := by
  unfold State.newCrew
  exact Upd.after settleOf_upd rfl <| Upd.crews_ids .refl rfl (fun c => ⟨c.mem, c.fabric, c.regs, Tbl.wf_put c.crews
    _ _, c.hatches⟩)

theorem createAs_upd {s : State} {p : Port} {id : Nat} {ws : List Word} :
    Upd (Part.allBut [.pending, .held, .fuses, .straps, .cellar, .seq, .power, .cross, .security, .pins, .lines,
      .heatCopy, .alloc, .prog, .recClear, .retiring, .chunk, .loader, .chain, .g2, .selfTest, .course]) s
      (State.createAs s p id ws) := by
  unfold State.createAs
  extract_lets x6 x7
  clear_value x6
  have hx7 : Upd (Part.allBut [.pending, .held, .fuses, .straps, .cellar, .seq, .power, .cross, .security, .pins,
    .lines, .heatCopy, .alloc, .prog, .recClear, .retiring, .chunk, .loader, .chain, .g2, .selfTest, .course]) s x7 :=
    Upd.after stwEnd_upd rfl <| Upd.after newCrew_upd rfl .refl
  clear_value x7
  exact Upd.ite (Upd.ite (Upd.after stwEnd_upd rfl .refl) (Upd.after waitPort_upd rfl <| Upd.after boardPinned_upd
    rfl <| Upd.after claimPorches_upd rfl <| Upd.after newCrew_upd rfl .refl)) (Upd.ite (Upd.after settlePorts_upd rfl
    <| Upd.after wake_upd rfl <| by with_reducible assumption) (by with_reducible assumption))

theorem createCmd_upd {s : State} {p : Port} :
    Upd (Part.allBut [.pending, .held, .fuses, .straps, .cellar, .lines, .heatCopy, .alloc, .prog, .recClear,
      .chunk, .loader, .chain, .selfTest, .course]) s (State.createCmd s p) := by
  unfold State.createCmd
  refine stwGo_hupd rfl ?_ ?_
  · intro u z1
    extract_lets x9 x10 x11 x12 x13
    clear_value x9
    clear_value x10
    clear_value x11
    clear_value x12
    clear_value x13
    refine Upd.ite ?_ ?_
    · exact Upd.after stwEnd_upd rfl <| by with_reducible assumption
    · extract_lets
      refine Upd.ite ?_ ?_
      · exact Upd.after stwEnd_upd rfl <| by with_reducible assumption
      · extract_lets
        refine Upd.ite ?_ ?_
        · exact Upd.after stwEnd_upd rfl <| by with_reducible assumption
        · extract_lets
          refine Upd.ite ?_ ?_
          · exact Upd.after stwEnd_upd rfl <| by with_reducible assumption
          · extract_lets
            refine Upd.ite ?_ ?_
            · exact Upd.after stwEnd_upd rfl <| by with_reducible assumption
            · extract_lets
              refine Upd.ite ?_ ?_
              · exact Upd.after stwEnd_upd rfl <| by with_reducible assumption
              · extract_lets
                refine Upd.ite ?_ ?_
                · exact Upd.after createAs_upd rfl <| by with_reducible assumption
                · extract_lets
                  split
                  · exact Upd.after createAs_upd rfl <| by with_reducible assumption
                  · extract_lets x15
                    have hx15 : Upd (Part.allBut [.pending, .held, .fuses, .straps, .cellar, .lines, .heatCopy,
                      .alloc, .prog, .recClear, .chunk, .loader, .chain, .selfTest, .course]) s x15 := Upd.ite
                      (Upd.after raise_upd rfl <| by with_reducible assumption) (by with_reducible assumption)
                    clear_value x15
                    exact Upd.after stwEnd_upd rfl <| by with_reducible assumption
  · exact .refl

theorem queryCmd_upd {s : State} {p : Port} :
    Upd (Part.allBut [.pending, .held, .fuses, .straps, .cellar, .lines, .ids, .heatCopy, .stamps, .alloc, .prog,
      .recClear, .chunk, .loader, .chain, .selfTest, .course]) s (State.queryCmd s p) := by
  unfold State.queryCmd
  refine stwGo_hupd rfl ?_ ?_
  · intro u z1
    extract_lets x7 x8 x9
    clear_value x7
    have hx8 : ∀ a0 a1, Upd (Part.allBut [.pending, .held, .fuses, .straps, .cellar, .lines, .ids, .heatCopy,
      .stamps, .alloc, .prog, .recClear, .chunk, .loader, .chain, .selfTest, .course]) s a0 → Upd (Part.allBut
      [.pending, .held, .fuses, .straps, .cellar, .lines, .ids, .heatCopy, .stamps, .alloc, .prog, .recClear, .chunk,
      .loader, .chain, .selfTest, .course]) s (x8 a0 a1) := by
      intros
      unfold x8
      refine Upd.after stwEnd_upd rfl <| Upd.foldl (fun t x ht => ?_) _ ?_
      · split
        exact Upd.after portWr_upd rfl <| by with_reducible assumption
      · exact by with_reducible assumption
    clear_value x8
    have hx9 : Upd (Part.allBut [.pending, .held, .fuses, .straps, .cellar, .lines, .ids, .heatCopy, .stamps,
      .alloc, .prog, .recClear, .chunk, .loader, .chain, .selfTest, .course]) s x9 := Upd.after tally_upd rfl <| by
      with_reducible assumption
    clear_value x9
    refine Upd.ite ?_ ?_
    · exact Upd.after stwEnd_upd rfl <| by with_reducible assumption
    · split
      · exact hx8 _ _ <| by with_reducible assumption
      · exact Upd.ite (Upd.after stwEnd_upd rfl <| by with_reducible assumption) (hx8 _ _ <| by with_reducible
          assumption)
  · exact .refl

theorem stwOn_hupd {K s t p f} (hk : Part.sub (Part.allBut [.pending, .held, .fuses, .straps, .cellar, .lines, .ids, .heatCopy, .stamps, .alloc, .prog, .recClear, .chunk, .loader, .chain, .selfTest, .course]) K = true)
    (hf : ∀ u i c, Upd K s u → Upd K s (f u i c)) (h : Upd K s t) : Upd K s (State.stwOn t p f) := by
  unfold State.stwOn
  have he : Part.sub [.regs, .out, .host, .cox] K = true :=
    Part.sub_trans (K := [.regs, .out, .host, .cox]) rfl hk
  refine stwGo_hupd hk (fun u hu => ?_) h
  extract_lets id
  split
  · exact Upd.after stwEnd_upd he hu
  · exact Upd.ite (Upd.after stwEnd_upd he hu) (Upd.ite (Upd.after stwEnd_upd he hu) (hf _ _ _ hu))

theorem updateCmd_upd {s : State} {p : Port} {image : Bool} :
    Upd (Part.allBut [.pending, .held, .fuses, .straps, .cellar, .lines, .ids, .heatCopy, .stamps, .alloc, .prog,
      .recClear, .chunk, .loader, .chain, .selfTest, .course]) s (State.updateCmd s p image) := by
  unfold State.updateCmd
  refine stwOn_hupd rfl ?_ ?_
  · intro u i c z3
    extract_lets x12 x13 x14 x15 x16
    clear_value x12
    clear_value x13
    clear_value x14
    have hx15 : Upd (Part.allBut [.pending, .held, .fuses, .straps, .cellar, .lines, .ids, .heatCopy, .stamps,
      .alloc, .prog, .recClear, .chunk, .loader, .chain, .selfTest, .course]) s x15 := Upd.after modCrew_upd rfl <| by
      with_reducible assumption
    clear_value x15
    have hx16 : Upd (Part.allBut [.pending, .held, .fuses, .straps, .cellar, .lines, .ids, .heatCopy, .stamps,
      .alloc, .prog, .recClear, .chunk, .loader, .chain, .selfTest, .course]) s x16 := Upd.ite (Upd.after
      dropImage_upd rfl <| by with_reducible assumption) (by with_reducible assumption)
    clear_value x16
    exact Upd.ite (Upd.after stwEnd_upd rfl <| by with_reducible assumption) (Upd.ite (Upd.after stwEnd_upd rfl <|
      by with_reducible assumption) (Upd.after stwEnd_upd rfl <| by with_reducible assumption))
  · exact .refl

theorem runCmd_upd {s : State} {id : Nat} {c : Crew} :
    Upd (Part.allBut [.pending, .held, .fuses, .straps, .cellar, .seq, .power, .cross, .security, .pins, .porches,
      .lines, .ids, .heatCopy, .alloc, .prog, .recClear, .retiring, .chunk, .loader, .chain, .g2, .selfTest, .course])
      s (State.runCmd s id c) := by
  unfold State.runCmd
  split
  · exact Upd.after settlePorts_upd rfl <| Upd.after wake_upd rfl .refl
  · exact Upd.after settlePorts_upd rfl <| Upd.after modCrew_upd rfl .refl
  · exact Upd.after settlePorts_upd rfl <| Upd.after modCrew_upd rfl .refl
  · exact Upd.after modCrew_upd rfl .refl
  · exact Upd.after settlePorts_upd rfl <| Upd.after modCrew_upd rfl .refl
  · exact .refl
  · exact .refl

theorem runAt_upd {s : State} {p : Port} :
    Upd (Part.allBut [.pending, .held, .fuses, .straps, .cellar, .lines, .ids, .heatCopy, .alloc, .prog, .recClear,
      .chunk, .loader, .chain, .selfTest, .course]) s (State.runAt s p) := by
  unfold State.runAt
  refine stwOn_hupd rfl ?_ ?_
  · intro u i c z3
    exact Upd.ite (Upd.after runCmd_upd rfl <| Upd.after stwEnd_upd rfl <| by with_reducible assumption) (Upd.after
      stwEnd_upd rfl <| by with_reducible assumption)
  · exact .refl

theorem parkCmd_upd {s : State} {id : Nat} {c : Crew} :
    Upd [.draws, .doorway, .rooms, .fabric, .sigs, .blocks, .crews, .wings, .reads] s (State.parkCmd s id c) := by
  unfold State.parkCmd
  extract_lets x4
  have hx4 : Upd [.draws, .doorway, .rooms, .fabric, .sigs, .blocks, .crews, .wings, .reads] s x4 := Upd.after
    modCrew_upd rfl .refl
  clear_value x4
  split
  · exact Upd.after modCrew_upd rfl <| by with_reducible assumption
  · exact Upd.after modCrew_upd rfl <| by with_reducible assumption
  · exact Upd.ite (Upd.after modCrew_upd rfl <| by with_reducible assumption) (Upd.after startDrain_upd rfl <| by
      with_reducible assumption)
  · exact Upd.ite (Upd.after modCrew_upd rfl <| by with_reducible assumption) (by with_reducible assumption)
  all_goals with_reducible assumption

theorem parkAt_upd {s : State} {p : Port} :
    Upd (Part.allBut [.pending, .held, .fuses, .straps, .cellar, .lines, .ids, .heatCopy, .stamps, .alloc, .prog,
      .recClear, .chunk, .loader, .chain, .selfTest, .course]) s (State.parkAt s p) := by
  unfold State.parkAt
  refine stwOn_hupd rfl ?_ ?_
  · intro u i c z3
    exact Upd.ite (Upd.after waitPort_upd rfl <| Upd.after parkCmd_upd rfl <| by with_reducible assumption)
      (Upd.after stwEnd_upd rfl <| by with_reducible assumption)
  · exact .refl

theorem pinnedBack_upd {s : State} {p : Port} {id : Nat} {c : Crew} :
    Upd [.regs, .out, .doorway, .porches, .host, .rooms, .fabric, .sigs, .blocks, .crews, .wings, .portOps, .reads,
      .cox] s (State.pinnedBack s p id c) := by
  unfold State.pinnedBack
  extract_lets x5
  have hx5 : Upd [.regs, .out, .doorway, .porches, .host, .rooms, .fabric, .sigs, .blocks, .crews, .wings, .portOps,
    .reads, .cox] s x5 := Upd.after unparkPorches_upd rfl <| Upd.after reopenRooms_upd rfl .refl
  clear_value x5
  exact Upd.ite (Upd.ite (Upd.after stwEnd_upd rfl .refl) (Upd.ite (Upd.after waitPort_upd rfl <| Upd.after
    boardPinned_upd rfl .refl) (Upd.after stwEnd_upd rfl .refl))) (Upd.after stwEnd_upd rfl <| Upd.after modCrew_upd
    rfl <| by with_reducible assumption)

theorem resumeAt_upd {s : State} {p : Port} :
    Upd (Part.allBut [.pending, .held, .fuses, .straps, .cellar, .lines, .ids, .heatCopy, .stamps, .alloc, .prog,
      .recClear, .chunk, .loader, .chain, .selfTest, .course]) s (State.resumeAt s p) := by
  unfold State.resumeAt
  refine stwOn_hupd rfl ?_ ?_
  · intro u i c z3
    exact Upd.ite (Upd.after stwEnd_upd rfl <| by with_reducible assumption) (Upd.ite (Upd.after stwEnd_upd rfl <|
      by with_reducible assumption) (Upd.ite (Upd.after pinnedBack_upd rfl <| by with_reducible assumption) (Upd.after
      stwEnd_upd rfl <| Upd.after modCrew_upd rfl <| by with_reducible assumption)))
  · exact .refl

theorem reconfigSoon_upd {s : State} {p : Port} {op id : Nat} {c : Crew} :
    Upd [.regs, .out, .doorway, .porches, .host, .rooms, .fabric, .sigs, .blocks, .crews, .wings, .portOps, .reads,
      .cox, .gallery] s (State.reconfigSoon s p op id c) := by
  unfold State.reconfigSoon
  exact Upd.ite (Upd.after stwEnd_upd rfl .refl) (Upd.ite (Upd.after waitPort_upd rfl <| Upd.after modWing_upd rfl
    .refl) (Upd.after waitPort_upd rfl <| Upd.after startReconfig_upd rfl .refl))

theorem restartAt_upd {s : State} {p : Port} :
    Upd (Part.allBut [.pending, .held, .fuses, .straps, .cellar, .lines, .ids, .heatCopy, .stamps, .alloc, .prog,
      .recClear, .chunk, .loader, .chain, .selfTest, .course]) s (State.restartAt s p) := by
  unfold State.restartAt
  refine stwOn_hupd rfl ?_ ?_
  · intro u i c z3
    exact Upd.ite (Upd.after stwEnd_upd rfl <| by with_reducible assumption) (Upd.ite (Upd.after stwEnd_upd rfl <|
      by with_reducible assumption) (Upd.ite (Upd.after stwEnd_upd rfl <| by with_reducible assumption) (Upd.ite
      (Upd.ite (Upd.after pinnedBack_upd rfl <| Upd.after modCrew_upd rfl <| by with_reducible assumption) (Upd.after
      reconfigSoon_upd rfl <| by with_reducible assumption)) (Upd.after stwEnd_upd rfl <| Upd.after dropStaged_upd rfl
      <| Upd.after modCrew_upd rfl <| by with_reducible assumption))))
  · exact .refl

theorem reconfigAt_upd {s : State} {p : Port} :
    Upd (Part.allBut [.pending, .held, .fuses, .straps, .cellar, .lines, .ids, .heatCopy, .stamps, .alloc, .prog,
      .recClear, .chunk, .loader, .chain, .selfTest, .course]) s (State.reconfigAt s p) := by
  unfold State.reconfigAt
  refine stwOn_hupd rfl ?_ ?_
  · intro u i c z3
    exact Upd.ite (Upd.after stwEnd_upd rfl <| by with_reducible assumption) (Upd.ite (Upd.after stwEnd_upd rfl <|
      by with_reducible assumption) (Upd.after reconfigSoon_upd rfl <| by with_reducible assumption))
  · exact .refl

theorem destroyBoarding_upd {s : State} {id : Nat} {c : Crew} :
    Upd [.regs, .out, .draws, .security, .doorway, .porches, .host, .rooms, .sigs, .blocks, .lines, .crews, .ids,
      .stamps, .wings, .alloc, .cox, .hatches] s (State.destroyBoarding s id c) := by
  unfold State.destroyBoarding
  extract_lets x6 x7 x8
  clear_value x6
  clear_value x7
  have hx8 : Upd [.regs, .out, .draws, .security, .doorway, .porches, .host, .rooms, .sigs, .blocks, .lines, .crews,
    .ids, .stamps, .wings, .alloc, .cox, .hatches] s x8 := Upd.after release_upd rfl .refl
  clear_value x8
  exact Upd.ite (Upd.after emptyRooms_upd rfl <| Upd.after modWing_upd rfl <| by with_reducible assumption)
    (Upd.after modSwap_upd rfl <| by with_reducible assumption)

theorem destroyAt_upd {s : State} {p : Port} :
    Upd (Part.allBut [.pending, .held, .fuses, .straps, .cellar, .heatCopy, .prog, .recClear, .chunk, .loader,
      .chain, .selfTest, .course]) s (State.destroyAt s p) := by
  unfold State.destroyAt
  refine stwOn_hupd rfl ?_ ?_
  · intro u i c z3
    split
    · exact Upd.after stwEnd_upd rfl <| Upd.after settlePorts_upd rfl <| Upd.after destroyBoarding_upd rfl <| by
        with_reducible assumption
    · exact Upd.after waitPort_upd rfl <| Upd.after modCrew_upd rfl <| by with_reducible assumption
    · exact Upd.after waitPort_upd rfl <| Upd.ite (by with_reducible assumption) (Upd.after destroyRooms_upd rfl
        <| by with_reducible assumption)
    · exact Upd.after waitPort_upd rfl <| Upd.ite (by with_reducible assumption) (Upd.after destroyRooms_upd rfl
        <| by with_reducible assumption)
    · exact Upd.after stwEnd_upd rfl <| Upd.after settlePorts_upd rfl <| Upd.after release_upd rfl <| by
        with_reducible assumption
    · exact Upd.after stwEnd_upd rfl <| Upd.after settlePorts_upd rfl <| Upd.after release_upd rfl <| by
        with_reducible assumption
    · exact Upd.ite (Upd.after waitPort_upd rfl <| Upd.after destroyRooms_upd rfl <| by with_reducible assumption)
        (Upd.after stwEnd_upd rfl <| Upd.after settlePorts_upd rfl <| Upd.after release_upd rfl <| by with_reducible
        assumption)
  · exact .refl

theorem hintAt_upd {s : State} {p : Port} :
    Upd (Part.allBut [.pending, .held, .fuses, .straps, .cellar, .lines, .ids, .heatCopy, .stamps, .alloc, .prog,
      .recClear, .chunk, .loader, .chain, .selfTest, .course]) s (State.hintAt s p) := by
  unfold State.hintAt
  refine stwOn_hupd rfl ?_ ?_
  · intro u i c z3
    exact Upd.ite (Upd.after hint_upd rfl <| Upd.after stwEnd_upd rfl <| by with_reducible assumption) (Upd.after
      stwEnd_upd rfl <| by with_reducible assumption)
  · exact .refl

theorem retireGo_upd {s : State} {h : Half} :
    Upd [.regs, .out, .draws, .doorway, .host, .rooms, .fabric, .sigs, .blocks, .crews, .wings, .portOps, .reads,
      .attic, .retiring, .cox, .gallery] s (State.retireGo s h) := by
  unfold State.retireGo
  extract_lets x3
  have hx3 : Upd [.regs, .out, .draws, .doorway, .host, .rooms, .fabric, .sigs, .blocks, .crews, .wings, .portOps,
    .reads, .attic, .retiring, .cox, .gallery] s x3 := by
    unfold x3
    refine Upd.retiring ?_ rfl
    exact .refl
  clear_value x3
  exact Upd.ite .refl (Upd.after settlePorts_upd rfl <| Upd.after retireAct_upd rfl <| Upd.after wrs_upd rfl <| by
    with_reducible assumption)

theorem lcFlush_upd {s : State} {w : Nat} :
    Upd [.wings] s (State.lcFlush s w) := by
  unfold State.lcFlush
  exact Upd.after modWing_upd rfl .refl

theorem toBar2_hupd {K s t n f} (hk : Part.sub (Part.allBut [.pending, .held, .fuses, .straps, .cellar, .security, .lines, .ids, .heatCopy, .stamps, .alloc, .prog, .recClear, .chunk, .loader, .chain, .selfTest, .course]) K = true)
    (hf : ∀ u, Upd K s u → Upd K s (f u)) (h : Upd K s t) : Upd K s (State.toBar2 t n f) := by
  unfold State.toBar2
  have hw := Upd.after (wakeSource_upd (sources := 2)) hk h
  exact Upd.ite (toVf_hupd hk hf h) (Upd.ite h (Upd.ite hw (hf _ hw)))

theorem doorbellOp_upd {s : State} {id : Nat} {c : Crew} {x3 : Nat} :
    Upd (Part.allBut [.pending, .held, .fuses, .straps, .cellar, .seq, .power, .cross, .security, .pins, .porches,
      .lines, .ids, .heatCopy, .alloc, .prog, .recClear, .retiring, .chunk, .loader, .chain, .g2, .selfTest, .course])
      s (State.doorbellOp s id c x3) := by
  unfold State.doorbellOp
  split
  · exact Upd.ite (Upd.after runCmd_upd rfl .refl) .refl
  · exact Upd.ite (Upd.after hint_upd rfl .refl) .refl
  · exact Upd.ite (Upd.after settlePorts_upd rfl <| Upd.after parkCmd_upd rfl .refl) .refl

theorem doorbell_upd {s : State} {fn id heat op : Nat} :
    Upd (Part.allBut [.pending, .held, .fuses, .straps, .cellar, .lines, .ids, .heatCopy, .alloc, .prog, .recClear,
      .chunk, .loader, .chain, .selfTest, .course]) s (State.doorbell s fn id heat op) := by
  unfold State.doorbell
  extract_lets x6
  clear_value x6
  refine toBar2_hupd rfl ?_ ?_
  · intro u z1
    refine Upd.ite ?_ ?_
    · exact by with_reducible assumption
    · split
      · exact Upd.after bump_upd rfl <| by with_reducible assumption
      · exact Upd.ite (Upd.after bump_upd rfl <| by with_reducible assumption) (Upd.ite (Upd.after
          freezeMaster_upd rfl <| by with_reducible assumption) (Upd.ite (Upd.after bump_upd rfl <| by with_reducible
          assumption) (Upd.after doorbellOp_upd rfl <| by with_reducible assumption)))
  · exact .refl

theorem copyWords_upd {s : State} {h : Hatch} {p : Packet} :
    Upd [.regs, .out, .host, .stackCtl, .frames, .attic, .cox, .gallery] s (State.copyWords s h p) := by
  unfold State.copyWords
  refine Upd.foldl (fun t x ht => ?_) _ ?_
  · extract_lets x7
    have hx7 : Upd [.regs, .out, .host, .stackCtl, .frames, .attic, .cox, .gallery] s x7.2 := Upd.after ringWord_upd
      rfl <| by with_reducible assumption
    clear_value x7
    exact Upd.after emit_upd rfl <| by with_reducible assumption
  · exact .refl

theorem hostCopy_upd {s : State} {n : Nat} :
    Upd [.regs, .out, .host, .stackCtl, .frames, .attic, .cox, .hatches, .gallery] s (State.hostCopy s n) := by
  unfold State.hostCopy
  extract_lets x4 x5
  clear_value x4
  clear_value x5
  refine Upd.ite ?_ ?_
  · exact .refl
  · extract_lets
    split
    · exact .refl
    · extract_lets x13 x14 x15
      have hx13 : Upd [.regs, .out, .host, .stackCtl, .frames, .attic, .cox, .hatches, .gallery] s x13 := Upd.after
        copyWords_upd rfl .refl
      clear_value x13
      have hx14 : Upd [.regs, .out, .host, .stackCtl, .frames, .attic, .cox, .hatches, .gallery] s x14 := Upd.after
        emit_upd rfl <| by with_reducible assumption
      clear_value x14
      have hx15 : Upd [.regs, .out, .host, .stackCtl, .frames, .attic, .cox, .hatches, .gallery] s x15 := Upd.after
        setHatch_upd rfl <| by with_reducible assumption
      clear_value x15
      exact Upd.ite (Upd.after settle_upd rfl <| Upd.after setHatch_upd rfl <| Upd.after countStale_upd rfl .refl)
        (Upd.after msix_upd rfl <| by with_reducible assumption)

theorem hatchOpen_upd {s : State} {p : Port} {n : Nat} {ws : List Word} :
    Upd [.regs, .out, .host, .mem, .bad, .cox, .hatches] s (State.hatchOpen s p n ws) := by
  unfold State.hatchOpen
  extract_lets x7 x8 x9
  clear_value x7
  have hx8 : Upd [.regs, .out, .host, .mem, .bad, .cox, .hatches] s x8 := Upd.after putWhole_upd rfl .refl
  clear_value x8
  have hx9 : Upd [.regs, .out, .host, .mem, .bad, .cox, .hatches] s x9 := Upd.ite (Upd.after emit_upd rfl <| by
    with_reducible assumption) (by with_reducible assumption)
  clear_value x9
  exact Upd.ite (Upd.after hatEnd_upd rfl .refl) (Upd.ite (Upd.after hatEnd_upd rfl .refl) (Upd.ite (Upd.after
    hatEnd_upd rfl .refl) (Upd.ite (Upd.after hatEnd_upd rfl .refl) (Upd.ite (Upd.after hatEnd_upd rfl .refl)
    (Upd.after hatEnd_upd rfl <| Upd.after setHatch_upd rfl <| by with_reducible assumption)))))

theorem hatchQuery_upd {s : State} {p : Port} {n : Nat} :
    Upd [.regs, .out, .host, .cox] s (State.hatchQuery s p n) := by
  unfold State.hatchQuery
  refine Upd.after hatEnd_upd rfl <| Upd.foldl (fun t x ht => ?_) _ ?_
  · split
    exact Upd.after portWr_upd rfl <| by with_reducible assumption
  · exact .refl

theorem hatchClose_upd {s : State} {p : Port} {n : Nat} :
    Upd [.regs, .out, .host, .portOps, .cox, .hatches] s (State.hatchClose s p n) := by
  unfold State.hatchClose
  extract_lets x5 x6
  clear_value x5
  have hx6 : Upd [.regs, .out, .host, .portOps, .cox, .hatches] s x6 := Upd.after setHatch_upd rfl .refl
  clear_value x6
  refine Upd.ite ?_ ?_
  · exact Upd.after hatEnd_upd rfl .refl
  · refine Upd.ite ?_ ?_
    · exact Upd.after hatEnd_upd rfl .refl
    · refine Upd.portOps ?_ rfl
      exact by with_reducible assumption

theorem hatchTurn_upd {s : State} {p : Port} {op n : Nat} {ws : List Word} :
    Upd [.regs, .out, .host, .portOps, .mem, .bad, .cox, .hatches] s (State.hatchTurn s p op n ws) := by
  unfold State.hatchTurn
  split
  · exact Upd.after hatchOpen_upd rfl .refl
  · exact Upd.after hatchQuery_upd rfl .refl
  · exact Upd.after hatchClose_upd rfl .refl

theorem hatGo_upd {s : State} {p : Port} {op : Nat} :
    Upd (Part.allBut [.pending, .held, .fuses, .straps, .cellar, .lines, .ids, .heatCopy, .stamps, .alloc, .prog,
      .recClear, .chunk, .loader, .chain, .selfTest, .course]) s (State.hatGo s p op) := by
  unfold State.hatGo
  refine toPort_hupd rfl ?_ ?_
  · intro u z1
    extract_lets x7 x8
    have hx7 : Upd (Part.allBut [.pending, .held, .fuses, .straps, .cellar, .lines, .ids, .heatCopy, .stamps,
      .alloc, .prog, .recClear, .chunk, .loader, .chain, .selfTest, .course]) s x7 := Upd.after portStart_upd rfl <|
      by with_reducible assumption
    clear_value x7
    clear_value x8
    refine Upd.ite ?_ ?_
    · exact by with_reducible assumption
    · refine Upd.ite ?_ ?_
      · exact Upd.after hatEnd_upd rfl <| by with_reducible assumption
      · refine Upd.ite ?_ ?_
        · refine Upd.portOps ?_ rfl
          exact by with_reducible assumption
        · exact Upd.after hatchTurn_upd rfl <| by with_reducible assumption
  · exact .refl

theorem closeHost_upd {s : State} {who : Nat → Bool} :
    Upd [.hatches] s (State.closeHost s who) := by
  unfold State.closeHost
  refine Upd.foldl (fun t x ht => ?_) _ ?_
  · extract_lets
    split
    extract_lets x9
    clear_value x9
    exact Upd.ite (Upd.after modHatch_upd rfl <| by with_reducible assumption) (by with_reducible assumption)
  · exact .refl

theorem showNotice_upd {s : State} {n : Nat} :
    Upd [.out, .hatches] s (State.showNotice s n) := by
  unfold State.showNotice
  extract_lets x3
  clear_value x3
  split
  · exact Upd.ite (Upd.after emit_upd rfl <| Upd.after setHatch_upd rfl .refl) .refl
  · exact .refl

theorem deliver_upd {s : State} {n id x3 : Nat} :
    Upd [.regs, .out, .draws, .doorway, .porches, .host, .rooms, .fabric, .sigs, .blocks, .crews, .wings, .mem,
      .bad, .stackCtl, .frames, .reads, .attic, .cox, .hatches, .gallery] s (State.deliver s n id x3) := by
  unfold State.deliver
  extract_lets x6 x7
  have hx6 : Upd [.regs, .out, .draws, .doorway, .porches, .host, .rooms, .fabric, .sigs, .blocks, .crews, .wings,
    .mem, .bad, .stackCtl, .frames, .reads, .attic, .cox, .hatches, .gallery] s x6 := Upd.after showNotice_upd rfl
    .refl
  clear_value x6
  clear_value x7
  split
  · exact Upd.after showNotice_upd rfl .refl
  · split
    · exact by with_reducible assumption
    · split
      · rename_i t19 e19
        have ht19 : Upd [.regs, .out, .draws, .doorway, .porches, .host, .rooms, .fabric, .sigs, .blocks, .crews,
          .wings, .mem, .bad, .stackCtl, .frames, .reads, .attic, .cox, .hatches, .gallery] s t19 := Upd.of_pair e19
          <| Upd.after ringWord_upd rfl <| by with_reducible assumption
        exact Upd.after faultCrew_upd rfl <| by with_reducible assumption
      · rename_i t20 e20
        have ht20 : Upd [.regs, .out, .draws, .doorway, .porches, .host, .rooms, .fabric, .sigs, .blocks, .crews,
          .wings, .mem, .bad, .stackCtl, .frames, .reads, .attic, .cox, .hatches, .gallery] s t20 := Upd.of_pair e20
          <| Upd.after ringWord_upd rfl <| by with_reducible assumption
        extract_lets x22
        have hx22 : Upd [.regs, .out, .draws, .doorway, .porches, .host, .rooms, .fabric, .sigs, .blocks, .crews,
          .wings, .mem, .bad, .stackCtl, .frames, .reads, .attic, .cox, .hatches, .gallery] s x22 := Upd.after
          emit_upd rfl <| by with_reducible assumption
        clear_value x22
        exact Upd.ite (Upd.after settle_upd rfl <| Upd.after setHatch_upd rfl <| by with_reducible assumption)
          (Upd.after deliver_upd rfl <| Upd.after setHatch_upd rfl <| by with_reducible assumption)

theorem hatchDelivery_upd {s : State} {n words : Nat} :
    Upd [.regs, .out, .draws, .doorway, .porches, .host, .rooms, .fabric, .sigs, .blocks, .crews, .wings, .mem,
      .bad, .stackCtl, .frames, .reads, .attic, .cox, .hatches, .gallery] s (State.hatchDelivery s n words) := by
  unfold State.hatchDelivery
  extract_lets x5 x6
  have hx5 : Upd [.regs, .out, .draws, .doorway, .porches, .host, .rooms, .fabric, .sigs, .blocks, .crews, .wings,
    .mem, .bad, .stackCtl, .frames, .reads, .attic, .cox, .hatches, .gallery] s x5 := Upd.after settle_upd rfl .refl
  clear_value x5
  clear_value x6
  split
  · exact by with_reducible assumption
  · extract_lets x12
    clear_value x12
    exact Upd.ite (Upd.after deliver_upd rfl <| by with_reducible assumption) (by with_reducible assumption)

theorem hatchPops_upd {s : State} {n x2 : Nat} :
    Upd [.regs, .out, .host, .cox, .hatches] s (State.hatchPops s n x2) := by
  unfold State.hatchPops
  extract_lets x4
  clear_value x4
  split
  · exact .refl
  · split
    · exact Upd.after hatchPops_upd rfl <| Upd.after settle_upd rfl <| Upd.after setHatch_upd rfl .refl
    · exact Upd.after bump_upd rfl .refl

theorem hatchReturn_upd {s : State} {fn n count : Nat} :
    Upd (Part.allBut [.pending, .held, .fuses, .straps, .cellar, .lines, .ids, .heatCopy, .stamps, .alloc, .prog,
      .recClear, .chunk, .loader, .chain, .selfTest, .course]) s (State.hatchReturn s fn n count) := by
  unfold State.hatchReturn
  refine toBar2_hupd rfl ?_ ?_
  · intro u z1
    extract_lets x7
    clear_value x7
    exact Upd.ite (by with_reducible assumption) (Upd.ite (Upd.after bump_upd rfl <| by with_reducible assumption)
      (Upd.ite (Upd.after freezeMaster_upd rfl <| by with_reducible assumption) (Upd.after hatchPops_upd rfl <| by
      with_reducible assumption)))
  · exact .refl

theorem roomPush_upd {s : State} {id pos n len : Nat} {bs : List Byte} :
    Upd [.regs, .out, .draws, .security, .doorway, .porches, .host, .rooms, .fabric, .sigs, .blocks, .crews, .wings,
      .mem, .bad, .stackCtl, .frames, .reads, .attic, .cox, .hatches, .gallery] s (State.roomPush s id pos n len bs)
      := by
  unfold State.roomPush
  split
  · exact .refl
  · extract_lets x12
    clear_value x12
    split
    · exact .refl
    · refine Upd.ite ?_ ?_
      · exact .refl
      · refine Upd.ite ?_ ?_
        · exact Upd.after toEgress_upd rfl .refl
        · split
          · exact Upd.after emit_upd rfl <| Upd.after admitted_upd rfl .refl
          · exact Upd.after emit_upd rfl <| Upd.after refuse_upd rfl .refl
          · exact Upd.after freezeCrew_upd rfl .refl

theorem hatchSend_upd {s : State} {fn n len : Nat} :
    Upd (Part.allBut [.pending, .held, .fuses, .straps, .cellar, .lines, .ids, .heatCopy, .stamps, .alloc, .prog,
      .recClear, .chunk, .loader, .chain, .selfTest, .course]) s (State.hatchSend s fn n len) := by
  unfold State.hatchSend
  refine toBar2_hupd rfl ?_ ?_
  · intro u z1
    refine Upd.ite ?_ ?_
    · exact by with_reducible assumption
    · split
      · exact Upd.after admitted_upd rfl <| by with_reducible assumption
      · exact Upd.after refuse_upd rfl <| by with_reducible assumption
      · exact Upd.after freezeMaster_upd rfl <| by with_reducible assumption
  · exact .refl

theorem sameOne_upd {s : State} {id n : Nat} {x3 : SamePush} :
    Upd (Part.allBut [.pending, .held, .fuses, .straps, .cellar, .lines, .ids, .heatCopy, .stamps, .alloc, .prog,
      .recClear, .chunk, .loader, .chain, .selfTest, .course]) s (State.sameOne s id n x3) := by
  unfold State.sameOne
  split
  · exact Upd.after hatchReturn_upd rfl .refl
  · exact Upd.after roomPush_upd rfl .refl
  · exact Upd.after hatchSend_upd rfl .refl

theorem hatchPush_upd {s : State} {id : Nat} {pos : BitVec 6} {n : Nat} {len : BitVec 16} {bs : List Byte} {also : List
  SamePush} :
    Upd (Part.allBut [.pending, .held, .fuses, .straps, .cellar, .lines, .ids, .heatCopy, .stamps, .alloc, .prog,
      .recClear, .chunk, .loader, .chain, .selfTest, .course]) s (State.hatchPush s id pos n len bs also) := by
  unfold State.hatchPush
  extract_lets x8
  clear_value x8
  exact Upd.foldl (fun t x ht => Upd.after sameOne_upd rfl <| by with_reducible assumption) _ .refl

theorem hatchWaits_upd {s : State} {n x2 : Nat} :
    Upd [.regs, .out, .host, .portOps, .mem, .bad, .cox, .hatches] s (State.hatchWaits s n x2) := by
  unfold State.hatchWaits
  split
  · exact .refl
  · refine Upd.ite ?_ ?_
    · exact .refl
    · extract_lets
      split
      · exact .refl
      · extract_lets x11
        have hx11 : Upd [.regs, .out, .host, .portOps, .mem, .bad, .cox, .hatches] s x11 := by
          unfold x11
          refine Upd.portOps ?_ rfl
          exact .refl
        clear_value x11
        exact Upd.after hatchWaits_upd rfl <| Upd.ite (by with_reducible assumption) (Upd.after hatchTurn_upd rfl <|
          by with_reducible assumption)

theorem hatchClosed_upd {s : State} {n : Nat} :
    Upd [.regs, .out, .host, .portOps, .mem, .bad, .cox, .hatches] s (State.hatchClosed s n) := by
  unfold State.hatchClosed
  extract_lets x5 x6 x7
  clear_value x5
  have hx6 : Upd [.regs, .out, .host, .portOps, .mem, .bad, .cox, .hatches] s x6 := Upd.after setHatch_upd rfl .refl
  clear_value x6
  have hx7 : Upd [.regs, .out, .host, .portOps, .mem, .bad, .cox, .hatches] s x7 := by
    unfold x7
    split
    · exact by with_reducible assumption
    · extract_lets x12
      have hx12 : Upd [.regs, .out, .host, .portOps, .mem, .bad, .cox, .hatches] s x12 := by
        unfold x12
        refine Upd.portOps ?_ rfl
        exact by with_reducible assumption
      clear_value x12
      exact Upd.ite (by with_reducible assumption) (Upd.after hatEnd_upd rfl <| by with_reducible assumption)
  clear_value x7
  exact Upd.ite (Upd.after hatchWaits_upd rfl <| by with_reducible assumption) .refl

theorem wakeByNotice_upd {s : State} {n : Nat} :
    Upd (Part.allBut [.pending, .held, .fuses, .straps, .cellar, .seq, .power, .cross, .security, .pins, .porches,
      .lines, .ids, .heatCopy, .alloc, .prog, .recClear, .retiring, .chunk, .loader, .chain, .g2, .selfTest, .course])
      s (State.wakeByNotice s n) := by
  unfold State.wakeByNotice
  extract_lets x3
  clear_value x3
  refine Upd.ite ?_ ?_
  · split
    · exact Upd.ite (Upd.after settlePorts_upd rfl <| Upd.after wake_upd rfl .refl) .refl
    · exact .refl
  · exact .refl

theorem noticePost_upd {s : State} {n number : Nat} :
    Upd (Part.allBut [.pending, .held, .fuses, .straps, .cellar, .seq, .power, .cross, .security, .pins, .porches,
      .lines, .ids, .heatCopy, .alloc, .prog, .recClear, .retiring, .chunk, .loader, .chain, .g2, .selfTest, .course])
      s (State.noticePost s n number) := by
  unfold State.noticePost
  extract_lets x4
  clear_value x4
  split
  · exact .refl
  · extract_lets x14 x15 x16 x17
    clear_value x14
    clear_value x15
    have hx16 : Upd (Part.allBut [.pending, .held, .fuses, .straps, .cellar, .seq, .power, .cross, .security, .pins,
      .porches, .lines, .ids, .heatCopy, .alloc, .prog, .recClear, .retiring, .chunk, .loader, .chain, .g2, .selfTest,
      .course]) s x16 := Upd.after writeBytes_upd rfl .refl
    clear_value x16
    have hx17 : Upd (Part.allBut [.pending, .held, .fuses, .straps, .cellar, .seq, .power, .cross, .security, .pins,
      .porches, .lines, .ids, .heatCopy, .alloc, .prog, .recClear, .retiring, .chunk, .loader, .chain, .g2, .selfTest,
      .course]) s x17 := Upd.after setHatch_upd rfl <| by with_reducible assumption
    clear_value x17
    exact Upd.after wakeByNotice_upd rfl <| Upd.after settle_upd rfl <| by with_reducible assumption

theorem modHost_upd {s : State} {f : HostLink → HostLink} :
    Upd [.host] s (State.modHost s f) := by
  unfold State.modHost
  refine Upd.host ?_ rfl
  exact .refl

theorem clearSpan_upd {s : State} {p lo hi : Nat} :
    Upd [.regs] s (State.clearSpan s p lo hi) := by
  unfold State.clearSpan
  exact Upd.regs .refl rfl (fun c => ⟨c.mem, c.fabric, c.regs_filter _, c.crews, c.hatches⟩)

theorem resetFn_upd {s : State} {fn : Nat} :
    Upd [.regs, .host, .portOps, .hatches] s (State.resetFn s fn) := by
  unfold State.resetFn
  extract_lets x5 x6 x7
  have hx5 : Upd [.regs, .host, .portOps, .hatches] s x5 := Upd.after closeHost_upd rfl .refl
  clear_value x5
  have hx6 : Upd [.regs, .host, .portOps, .hatches] s x6 := by
    unfold x6
    refine Upd.portOps ?_ rfl
    exact by with_reducible assumption
  clear_value x6
  have hx7 : Upd [.regs, .host, .portOps, .hatches] s x7 := Upd.after modHost_upd rfl <| by with_reducible assumption
  clear_value x7
  exact Upd.ite (Upd.foldl (fun t x ht => Upd.after clearSpan_upd rfl <| Upd.after clearSpan_upd rfl <| Upd.after
    clearSpan_upd rfl <| by with_reducible assumption) _ (by with_reducible assumption)) (Upd.after clearSpan_upd rfl
    <| by with_reducible assumption)

theorem vfsOff_upd {s : State} :
    Upd [.regs, .host, .portOps, .hatches] s (State.vfsOff s) := by
  unfold State.vfsOff
  exact Upd.after modHost_upd rfl <| Upd.foldl (fun t x ht => Upd.after resetFn_upd rfl <| by with_reducible
    assumption) _ .refl

theorem perst_upd {s : State} :
    Upd (Part.allBut [.pending, .fuses, .straps, .cellar, .cross, .pins, .heatCopy, .prog, .recClear, .chunk]) s
      (State.perst s) := by
  unfold State.perst
  extract_lets x5 x6 x7 x8
  have hx5 : Upd (Part.allBut [.pending, .fuses, .straps, .cellar, .cross, .pins, .heatCopy, .prog, .recClear,
    .chunk]) s x5 := Upd.ite (Upd.after unhold_upd rfl .refl) .refl
  clear_value x5
  have hx6 : Upd (Part.allBut [.pending, .fuses, .straps, .cellar, .cross, .pins, .heatCopy, .prog, .recClear,
    .chunk]) s x6 := Upd.after closeHost_upd rfl <| by with_reducible assumption
  clear_value x6
  have hx7 : Upd (Part.allBut [.pending, .fuses, .straps, .cellar, .cross, .pins, .heatCopy, .prog, .recClear,
    .chunk]) s x7 := Upd.after modHost_upd rfl <| Upd.after vfsOff_upd rfl <| by with_reducible assumption
  clear_value x7
  have hx8 : Upd (Part.allBut [.pending, .fuses, .straps, .cellar, .cross, .pins, .heatCopy, .prog, .recClear,
    .chunk]) s x8 := Upd.after clearSpan_upd rfl <| by with_reducible assumption
  clear_value x8
  refine Upd.ite ?_ ?_
  · exact .refl
  · refine Upd.held ?_ rfl
    exact by with_reducible assumption

theorem bar4Gate_upd {s : State} {fn : Nat} :
    Upd (Part.allBut [.pending, .held, .fuses, .straps, .cellar, .security, .lines, .ids, .heatCopy, .stamps,
      .alloc, .prog, .recClear, .chunk, .loader, .chain, .selfTest, .course]) s (State.bar4Gate s fn).2 := by
  unfold State.bar4Gate
  extract_lets x3
  have hx3 : Upd (Part.allBut [.pending, .held, .fuses, .straps, .cellar, .security, .lines, .ids, .heatCopy,
    .stamps, .alloc, .prog, .recClear, .chunk, .loader, .chain, .selfTest, .course]) s x3 := Upd.after wakeSource_upd
    rfl .refl
  clear_value x3
  exact Upd.ite_snd .refl (by with_reducible assumption)

theorem msixGo_upd {s : State} :
    Upd [.out, .host] s (State.msixGo s) := by
  unfold State.msixGo
  extract_lets x3 x4
  clear_value x3
  have hx4 : Upd [.out, .host] s x4 := Upd.after modHost_upd rfl .refl
  clear_value x4
  exact Upd.foldl (fun t x ht => Upd.after emit_upd rfl <| by with_reducible assumption) _ (by with_reducible
    assumption)

theorem msixOn_upd {s : State} {fn : Nat} :
    Upd [.out, .host] s (State.msixOn s fn) := by
  unfold State.msixOn
  exact Upd.after msixGo_upd rfl <| Upd.after modHost_upd rfl .refl

theorem bar4Read_upd {s : State} {fn : BitVec 8} {off len : Nat} :
    Upd (Part.allBut [.pending, .held, .fuses, .straps, .cellar, .lines, .ids, .heatCopy, .stamps, .alloc, .prog,
      .recClear, .chunk, .loader, .chain, .selfTest, .course]) s (State.bar4Read s fn off len) := by
  unfold State.bar4Read
  extract_lets x5
  clear_value x5
  split
  · rename_i t10 e10
    have ht10 : Upd (Part.allBut [.pending, .held, .fuses, .straps, .cellar, .lines, .ids, .heatCopy, .stamps,
      .alloc, .prog, .recClear, .chunk, .loader, .chain, .selfTest, .course]) s t10 := Upd.of_pair e10 <| Upd.after
      bar4Gate_upd rfl .refl
    exact by with_reducible assumption
  · rename_i t10 e10
    have ht10 : Upd (Part.allBut [.pending, .held, .fuses, .straps, .cellar, .lines, .ids, .heatCopy, .stamps,
      .alloc, .prog, .recClear, .chunk, .loader, .chain, .selfTest, .course]) s t10 := Upd.of_pair e10 <| Upd.after
      bar4Gate_upd rfl .refl
    exact Upd.after emit_upd rfl <| by with_reducible assumption
  · rename_i t10 e10
    have ht10 : Upd (Part.allBut [.pending, .held, .fuses, .straps, .cellar, .lines, .ids, .heatCopy, .stamps,
      .alloc, .prog, .recClear, .chunk, .loader, .chain, .selfTest, .course]) s t10 := Upd.of_pair e10 <| Upd.after
      bar4Gate_upd rfl .refl
    extract_lets x12
    clear_value x12
    refine Upd.ite ?_ ?_
    · exact by with_reducible assumption
    · refine Upd.ite ?_ ?_
      · exact Upd.after emit_upd rfl <| Upd.after freezeMaster_upd rfl <| by with_reducible assumption
      · refine Upd.ite ?_ ?_
        · exact Upd.after emit_upd rfl <| by with_reducible assumption
        · split
          · rename_i t17 e17
            have ht17 : Upd (Part.allBut [.pending, .held, .fuses, .straps, .cellar, .lines, .ids, .heatCopy,
              .stamps, .alloc, .prog, .recClear, .chunk, .loader, .chain, .selfTest, .course]) s t17 := Upd.of_pair
              e17 <| Upd.after readBytes_upd rfl <| by with_reducible assumption
            exact Upd.after emit_upd rfl <| by with_reducible assumption
          · rename_i t18 e18
            have ht18 : Upd (Part.allBut [.pending, .held, .fuses, .straps, .cellar, .lines, .ids, .heatCopy,
              .stamps, .alloc, .prog, .recClear, .chunk, .loader, .chain, .selfTest, .course]) s t18 := Upd.of_pair
              e18 <| Upd.after readBytes_upd rfl <| by with_reducible assumption
            exact Upd.after emit_upd rfl <| by with_reducible assumption

theorem maskVector_upd {s : State} {fn vector : Nat} {masked : Bool} :
    Upd [.out, .host] s (State.maskVector s fn vector masked) := by
  unfold State.maskVector
  extract_lets x5
  clear_value x5
  exact Upd.after msixGo_upd rfl <| Upd.after modHost_upd rfl .refl

theorem configReq_upd {s : State} {fn : BitVec 8} {r : CfgReq} :
    Upd (Part.allBut [.pending, .held, .fuses, .straps, .cellar, .security, .lines, .ids, .heatCopy, .stamps,
      .alloc, .prog, .recClear, .chunk, .loader, .chain, .selfTest, .course]) s (State.configReq s fn r) := by
  unfold State.configReq
  extract_lets x8 x9 x10 x11 x12
  clear_value x8
  have hx9 : ∀ a0 a1, Upd (Part.allBut [.pending, .held, .fuses, .straps, .cellar, .security, .lines, .ids,
    .heatCopy, .stamps, .alloc, .prog, .recClear, .chunk, .loader, .chain, .selfTest, .course]) s a0 → Upd
    (Part.allBut [.pending, .held, .fuses, .straps, .cellar, .security, .lines, .ids, .heatCopy, .stamps, .alloc,
    .prog, .recClear, .chunk, .loader, .chain, .selfTest, .course]) s (x9 a0 a1) := by
    intros
    exact Upd.after emit_upd rfl <| by with_reducible assumption
  clear_value x9
  have hx10 : Upd (Part.allBut [.pending, .held, .fuses, .straps, .cellar, .security, .lines, .ids, .heatCopy,
    .stamps, .alloc, .prog, .recClear, .chunk, .loader, .chain, .selfTest, .course]) s x10 := Upd.after wakeSource_upd
    rfl .refl
  clear_value x10
  clear_value x12
  refine Upd.ite ?_ ?_
  · exact .refl
  · extract_lets
    refine Upd.ite ?_ ?_
    · exact hx9 _ _ .refl
    · extract_lets
      refine Upd.ite ?_ ?_
      · exact hx9 _ _ <| by with_reducible assumption
      · extract_lets
        split
        · exact hx9 _ _ <| Upd.after drew_upd rfl <| by with_reducible assumption
        · extract_lets x13
          have hx13 : Upd (Part.allBut [.pending, .held, .fuses, .straps, .cellar, .security, .lines, .ids,
            .heatCopy, .stamps, .alloc, .prog, .recClear, .chunk, .loader, .chain, .selfTest, .course]) s x13 := by
            unfold x13
            split
            · exact by with_reducible assumption
            · exact Upd.after modHost_upd rfl <| by with_reducible assumption
            · exact Upd.ite (by with_reducible assumption) (Upd.ite (Upd.after vfsOff_upd rfl <| by with_reducible
                assumption) (Upd.after modHost_upd rfl <| by with_reducible assumption))
            · exact Upd.after maskVector_upd rfl <| by with_reducible assumption
            · exact Upd.ite (Upd.after msixOn_upd rfl <| by with_reducible assumption) (Upd.after modHost_upd rfl
                <| by with_reducible assumption)
          clear_value x13
          exact Upd.ite (hx9 _ _ <| by with_reducible assumption) (hx9 _ _ <| by with_reducible assumption)

theorem dlSet_upd {s : State} {up : Bool} {speed width : Nat} :
    Upd [.regs, .out, .host, .cox] s (State.dlSet s up speed width) := by
  unfold State.dlSet
  extract_lets x6 x7
  clear_value x6
  have hx7 : Upd [.regs, .out, .host, .cox] s x7 := Upd.after wrs_upd rfl .refl
  clear_value x7
  exact Upd.ite .refl (Upd.ite (Upd.after raise_upd rfl <| by with_reducible assumption) (by with_reducible
    assumption))

theorem flr_upd {s : State} {fn : Nat} :
    Upd (Part.allBut [.pending, .held, .fuses, .straps, .cellar, .security, .lines, .ids, .heatCopy, .stamps,
      .alloc, .prog, .recClear, .chunk, .loader, .chain, .selfTest, .course]) s (State.flr s fn) := by
  unfold State.flr
  extract_lets x7 x8 x9 x10 x11
  clear_value x7
  have hx8 : Upd (Part.allBut [.pending, .held, .fuses, .straps, .cellar, .security, .lines, .ids, .heatCopy,
    .stamps, .alloc, .prog, .recClear, .chunk, .loader, .chain, .selfTest, .course]) s x8 := Upd.after wakeSource_upd
    rfl .refl
  clear_value x8
  have hx9 : Upd (Part.allBut [.pending, .held, .fuses, .straps, .cellar, .security, .lines, .ids, .heatCopy,
    .stamps, .alloc, .prog, .recClear, .chunk, .loader, .chain, .selfTest, .course]) s x9 := Upd.after resetFn_upd rfl
    <| by with_reducible assumption
  clear_value x9
  have hx10 : Upd (Part.allBut [.pending, .held, .fuses, .straps, .cellar, .security, .lines, .ids, .heatCopy,
    .stamps, .alloc, .prog, .recClear, .chunk, .loader, .chain, .selfTest, .course]) s x10 := Upd.ite (Upd.after
    vfsOff_upd rfl <| by with_reducible assumption) (by with_reducible assumption)
  clear_value x10
  have hx11 : Upd (Part.allBut [.pending, .held, .fuses, .straps, .cellar, .security, .lines, .ids, .heatCopy,
    .stamps, .alloc, .prog, .recClear, .chunk, .loader, .chain, .selfTest, .course]) s x11 := Upd.after wrs_upd rfl <|
    Upd.after step1_upd rfl <| by with_reducible assumption
  clear_value x11
  exact Upd.ite .refl (Upd.ite (by with_reducible assumption) (Upd.after raise_upd rfl <| by with_reducible
    assumption))

theorem bar4Write_upd {s : State} {fn : BitVec 8} {off : Nat} {bs : List Byte} :
    Upd (Part.allBut [.pending, .held, .fuses, .straps, .cellar, .lines, .ids, .heatCopy, .stamps, .alloc, .prog,
      .recClear, .chunk, .loader, .chain, .selfTest, .course]) s (State.bar4Write s fn off bs) := by
  unfold State.bar4Write
  extract_lets x5
  clear_value x5
  split
  · rename_i t10 e10
    have ht10 : Upd (Part.allBut [.pending, .held, .fuses, .straps, .cellar, .lines, .ids, .heatCopy, .stamps,
      .alloc, .prog, .recClear, .chunk, .loader, .chain, .selfTest, .course]) s t10 := Upd.of_pair e10 <| Upd.after
      bar4Gate_upd rfl .refl
    extract_lets x12
    clear_value x12
    exact Upd.ite (by with_reducible assumption) (Upd.ite (Upd.after freezeMaster_upd rfl <| by with_reducible
      assumption) (Upd.ite (by with_reducible assumption) (Upd.after writeBytes_upd rfl <| by with_reducible
      assumption)))
  · rename_i t12 _ e12
    have ht12 : Upd (Part.allBut [.pending, .held, .fuses, .straps, .cellar, .lines, .ids, .heatCopy, .stamps,
      .alloc, .prog, .recClear, .chunk, .loader, .chain, .selfTest, .course]) s t12 := Upd.of_pair e12 <| Upd.after
      bar4Gate_upd rfl .refl
    exact by with_reducible assumption

theorem modSec_upd {s : State} {f : Security → Security} :
    Upd [.security] s (State.modSec s f) := by
  unfold State.modSec
  refine Upd.security ?_ rfl
  exact .refl

theorem zeroKeys_upd {s : State} :
    Upd [.security] s (State.zeroKeys s) := by
  unfold State.zeroKeys
  exact Upd.after modSec_upd rfl .refl

theorem lcsRefuse_upd {s : State} {reason : Nat} :
    Upd [.regs, .out, .host, .cox] s (State.lcsRefuse s reason) := by
  unfold State.lcsRefuse
  exact Upd.after raise_upd rfl <| Upd.after wrs_upd rfl .refl

theorem certGood_upd {s : State} :
    Upd [.regs, .out, .host, .stackCtl, .frames, .attic, .cox, .gallery] s (State.certGood s).2 := by
  unfold State.certGood
  split
  · rename_i t6 e6
    have ht6 : Upd [.regs, .out, .host, .stackCtl, .frames, .attic, .cox, .gallery] s t6 := Upd.of_pair e6 <|
      Upd.after readBytes_upd rfl .refl
    exact by with_reducible assumption
  · rename_i t7 e7
    have ht7 : Upd [.regs, .out, .host, .stackCtl, .frames, .attic, .cox, .gallery] s t7 := Upd.of_pair e7 <|
      Upd.after readBytes_upd rfl .refl
    exact by with_reducible assumption

theorem lcsGo_upd {s : State} {target : Nat} :
    Upd [.regs, .out, .security, .host, .stackCtl, .frames, .attic, .cox, .gallery] s (State.lcsGo s target) := by
  unfold State.lcsGo
  extract_lets x4 x5
  have hx4 : Upd [.regs, .out, .security, .host, .stackCtl, .frames, .attic, .cox, .gallery] s x4 := Upd.after
    step1_upd rfl .refl
  clear_value x4
  have hx5 : ∀ a0, Upd [.regs, .out, .security, .host, .stackCtl, .frames, .attic, .cox, .gallery] s a0 → Upd
    [.regs, .out, .security, .host, .stackCtl, .frames, .attic, .cox, .gallery] s (x5 a0) := by
    intros
    exact Upd.after wrs_upd rfl <| Upd.after modSec_upd rfl <| Upd.ite (by with_reducible assumption) (Upd.after
      zeroKeys_upd rfl <| by with_reducible assumption)
  clear_value x5
  refine Upd.ite ?_ ?_
  · exact .refl
  · refine Upd.ite ?_ ?_
    · exact Upd.after lcsRefuse_upd rfl <| by with_reducible assumption
    · refine Upd.ite ?_ ?_
      · exact Upd.after lcsRefuse_upd rfl <| by with_reducible assumption
      · refine Upd.ite ?_ ?_
        · split
          · rename_i t11 e11
            have ht11 : Upd [.regs, .out, .security, .host, .stackCtl, .frames, .attic, .cox, .gallery] s t11 :=
              Upd.of_pair e11 <| Upd.after certGood_upd rfl <| by with_reducible assumption
            exact hx5 _ <| by with_reducible assumption
          · rename_i t11 e11
            have ht11 : Upd [.regs, .out, .security, .host, .stackCtl, .frames, .attic, .cox, .gallery] s t11 :=
              Upd.of_pair e11 <| Upd.after certGood_upd rfl <| by with_reducible assumption
            exact Upd.after lcsRefuse_upd rfl <| by with_reducible assumption
        · exact hx5 _ <| by with_reducible assumption

theorem lcsReq_upd {s : State} {m : Master} {target : Nat} :
    Upd (Part.allBut [.pending, .held, .fuses, .straps, .cellar, .lines, .ids, .heatCopy, .stamps, .alloc, .prog,
      .recClear, .chunk, .loader, .chain, .selfTest, .course]) s (State.lcsReq s m target) := by
  unfold State.lcsReq
  refine goTo_hupd rfl ?_ ?_ ?_
  · intro u z1
    exact Upd.after wr_upd rfl <| by with_reducible assumption
  · intro u z1
    exact Upd.after lcsGo_upd rfl <| by with_reducible assumption
  · exact .refl

theorem unfreezeEnd_upd {s : State} {status reason : Nat} :
    Upd [.regs, .out, .host, .cox] s (State.unfreezeEnd s status reason) := by
  unfold State.unfreezeEnd
  exact Upd.after raise_upd rfl <| Upd.after wrs_upd rfl .refl

theorem thaw_upd {s : State} {kind id : Nat} :
    Upd [.regs, .out, .security, .host, .stackCtl, .frames, .attic, .cox, .hatches, .gallery] s (State.thaw s kind
      id) := by
  unfold State.thaw
  extract_lets x5 x6
  have hx5 : Upd [.regs, .out, .security, .host, .stackCtl, .frames, .attic, .cox, .hatches, .gallery] s x5 :=
    Upd.after modSec_upd rfl .refl
  clear_value x5
  clear_value x6
  exact Upd.ite (Upd.after modSec_upd rfl .refl) (Upd.ite (Upd.foldl (fun t x ht => Upd.after hostCopy_upd rfl <| by
    with_reducible assumption) _ (by with_reducible assumption)) (Upd.ite (Upd.after modSec_upd rfl .refl) (Upd.after
    modSec_upd rfl .refl)))

theorem unfreezeGo_upd {s : State} {kind id : Nat} :
    Upd [.regs, .out, .security, .host, .stackCtl, .frames, .attic, .cox, .hatches, .gallery] s (State.unfreezeGo s
      kind id) := by
  unfold State.unfreezeGo
  extract_lets x4
  have hx4 : Upd [.regs, .out, .security, .host, .stackCtl, .frames, .attic, .cox, .hatches, .gallery] s x4 :=
    Upd.after step1_upd rfl .refl
  clear_value x4
  split
  · exact Upd.after unfreezeEnd_upd rfl <| by with_reducible assumption
  · exact Upd.ite (Upd.after unfreezeEnd_upd rfl <| by with_reducible assumption) (Upd.ite (Upd.after
      unfreezeEnd_upd rfl <| by with_reducible assumption) (Upd.after unfreezeEnd_upd rfl <| Upd.after thaw_upd rfl <|
      by with_reducible assumption))

theorem clearKeyData_upd {s : State} :
    Upd [.regs] s (State.clearKeyData s) := by
  unfold State.clearKeyData
  exact Upd.foldl (fun t x ht => Upd.after wr_upd rfl <| by with_reducible assumption) _ .refl

theorem keyEnd_upd {s : State} {reason : Nat} {kcv : Option Nat} :
    Upd [.regs, .out, .host, .cox] s (State.keyEnd s reason kcv) := by
  unfold State.keyEnd
  extract_lets x5 x6
  have hx5 : Upd [.regs, .out, .host, .cox] s x5 := Upd.after wrs_upd rfl .refl
  clear_value x5
  have hx6 : Upd [.regs, .out, .host, .cox] s x6 := by
    unfold x6
    split
    · exact Upd.after wr_upd rfl <| by with_reducible assumption
    · exact by with_reducible assumption
  clear_value x6
  exact Upd.after raise_upd rfl <| by with_reducible assumption

theorem setSlot_upd {s : State} {i : Nat} {k : KeySlot} :
    Upd [.security] s (State.setSlot s i k) := by
  unfold State.setSlot
  exact Upd.after modSec_upd rfl .refl

theorem keyBurn_upd {s : State} {i : Nat} {key : Option (BitVec 256)} :
    Upd [.regs, .security] s (State.keyBurn s i key) := by
  unfold State.keyBurn
  exact Upd.after wrs_upd rfl <| Upd.after modSec_upd rfl .refl

theorem keyGo_upd {s : State} {op : Nat} {vbat : Bool} {index : Nat} {vbatGood : Bool} :
    Upd [.regs, .out, .security, .host, .cox] s (State.keyGo s op vbat index vbatGood) := by
  unfold State.keyGo
  extract_lets x10 x11 x12 x13 x14
  clear_value x10
  have hx11 : Upd [.regs, .out, .security, .host, .cox] s x11 := Upd.after clearKeyData_upd rfl <| Upd.after
    step1_upd rfl .refl
  clear_value x11
  clear_value x12
  clear_value x13
  clear_value x14
  exact Upd.ite .refl (Upd.ite (Upd.after keyEnd_upd rfl <| by with_reducible assumption) (Upd.ite (Upd.ite
    (Upd.after keyEnd_upd rfl <| by with_reducible assumption) (Upd.ite (Upd.ite (Upd.after keyEnd_upd rfl <|
    Upd.after setSlot_upd rfl <| by with_reducible assumption) (Upd.after keyEnd_upd rfl <| by with_reducible
    assumption)) (Upd.ite (Upd.after keyEnd_upd rfl <| by with_reducible assumption) (Upd.after keyBurn_upd rfl <| by
    with_reducible assumption)))) (Upd.ite (Upd.ite (Upd.after keyEnd_upd rfl <| Upd.after setSlot_upd rfl <| by
    with_reducible assumption) (Upd.after keyBurn_upd rfl <| by with_reducible assumption)) (Upd.ite (Upd.after
    keyEnd_upd rfl <| by with_reducible assumption) (Upd.after keyEnd_upd rfl <| by with_reducible assumption)))))

theorem keyRaw_upd {s : State} {m : Master} {n : Nat} :
    Upd (Part.allBut [.pending, .held, .fuses, .straps, .cellar, .lines, .ids, .heatCopy, .stamps, .alloc, .prog,
      .recClear, .chunk, .loader, .chain, .selfTest, .course]) s (State.keyRaw s m n) := by
  unfold State.keyRaw
  refine goTo_hupd rfl ?_ ?_ ?_
  · intro u z1
    exact Upd.after wrs_upd rfl <| by with_reducible assumption
  · intro u z1
    exact Upd.after keyGo_upd rfl <| Upd.after drew_upd rfl <| by with_reducible assumption
  · exact .refl

theorem fuseEnc_upd {s : State} :
    Upd [.regs, .security] s (State.fuseEnc s) := by
  unfold State.fuseEnc
  exact Upd.ite (Upd.after wr_upd rfl <| Upd.after modSec_upd rfl .refl) .refl

theorem fuseFall_upd {s : State} :
    Upd [.regs, .security] s (State.fuseFall s) := by
  unfold State.fuseFall
  exact Upd.ite (Upd.after wr_upd rfl <| Upd.after modSec_upd rfl .refl) .refl

theorem tapSet_upd {s : State} {i : TapInstr} :
    Upd [.pins] s (State.tapSet s i) := by
  unfold State.tapSet
  extract_lets x3
  clear_value x3
  refine Upd.pins ?_ rfl
  exact .refl

theorem tapTest_upd {s : State} {i : TapInstr} {what : Nat} :
    Upd [.regs, .out, .pins] s (State.tapTest s i what) := by
  unfold State.tapTest
  extract_lets x4
  have hx4 : Upd [.regs, .out, .pins] s x4 := Upd.after emit_upd rfl <| Upd.after tapSet_upd rfl .refl
  clear_value x4
  exact Upd.ite (Upd.after emit_upd rfl <| Upd.after tapSet_upd rfl .refl) (Upd.ite (by with_reducible assumption)
    (Upd.after wr_upd rfl <| by with_reducible assumption))

theorem vbatLost_upd {s : State} :
    Upd [.security] s (State.vbatLost s) := by
  unfold State.vbatLost
  exact Upd.after modSec_upd rfl .refl

theorem keyCtrl_upd {s : State} {m : Master} {op : Nat} {vbat : Bool} {index : Nat} {vbatGood : Bool} :
    Upd (Part.allBut [.pending, .held, .fuses, .straps, .cellar, .lines, .ids, .heatCopy, .stamps, .alloc, .prog,
      .recClear, .chunk, .loader, .chain, .selfTest, .course]) s (State.keyCtrl s m op vbat index vbatGood) := by
  unfold State.keyCtrl
  refine goTo_hupd rfl ?_ ?_ ?_
  · intro u z1
    exact Upd.after wrs_upd rfl <| by with_reducible assumption
  · intro u z1
    exact Upd.after keyGo_upd rfl <| by with_reducible assumption
  · exact .refl

theorem keyBurnt_upd {s : State} {burnt : BitVec 256} :
    Upd [.regs, .out, .security, .host, .cox] s (State.keyBurnt s burnt) := by
  unfold State.keyBurnt
  extract_lets x3
  have hx3 : Upd [.regs, .out, .security, .host, .cox] s x3 := Upd.after modSec_upd rfl .refl
  clear_value x3
  split
  · exact .refl
  · extract_lets x11 x12
    have hx11 : Upd [.regs, .out, .security, .host, .cox] s x11 := Upd.after setSlot_upd rfl <| by with_reducible
      assumption
    clear_value x11
    clear_value x12
    split
    · exact Upd.ite (Upd.after keyEnd_upd rfl <| by with_reducible assumption) (Upd.after keyEnd_upd rfl <| by
        with_reducible assumption)
    · exact Upd.after keyEnd_upd rfl <| Upd.after setSlot_upd rfl <| by with_reducible assumption

theorem lcsDone_upd {s : State} {burnt : Bool} :
    Upd [.regs, .out, .security, .host, .cox] s (State.lcsDone s burnt) := by
  unfold State.lcsDone
  extract_lets x3
  have hx3 : Upd [.regs, .out, .security, .host, .cox] s x3 := Upd.after modSec_upd rfl .refl
  clear_value x3
  split
  · exact .refl
  · exact Upd.ite (Upd.after raise_upd rfl <| Upd.after wrs_upd rfl <| Upd.after modSec_upd rfl <| by
      with_reducible assumption) (Upd.after lcsRefuse_upd rfl <| by with_reducible assumption)

theorem porchTake_upd {s : State} {k : Nat} :
    Upd [.porches] s (State.porchTake s k) := by
  unfold State.porchTake
  extract_lets x3
  clear_value x3
  exact Upd.after setPorch_upd rfl .refl

theorem gpioLands_upd {s : State} {w : GpioWrite} :
    Upd (Part.allBut [.pending, .held, .fuses, .straps, .cellar, .lines, .ids, .heatCopy, .stamps, .alloc, .prog,
      .recClear, .chunk, .loader, .chain, .selfTest, .course]) s (State.gpioLands s w).2 := by
  unfold State.gpioLands
  split
  · split
    · rename_i t12 e12
      have ht12 : Upd (Part.allBut [.pending, .held, .fuses, .straps, .cellar, .lines, .ids, .heatCopy, .stamps,
        .alloc, .prog, .recClear, .chunk, .loader, .chain, .selfTest, .course]) s t12 := Upd.of_pair e12 <| Upd.after
        gate_upd rfl .refl
      exact by with_reducible assumption
    · rename_i t14 _ e14
      have ht14 : Upd (Part.allBut [.pending, .held, .fuses, .straps, .cellar, .lines, .ids, .heatCopy, .stamps,
        .alloc, .prog, .recClear, .chunk, .loader, .chain, .selfTest, .course]) s t14 := Upd.of_pair e14 <| Upd.after
        gate_upd rfl .refl
      exact by with_reducible assumption
  · split
    all_goals exact .refl

theorem gpioCycle_upd {s : State} {ws : List GpioWrite} :
    Upd [.regs] s (State.gpioCycle s ws) := by
  unfold State.gpioCycle
  refine Upd.foldl (fun t x ht => ?_) _ ?_
  · extract_lets x6
    clear_value x6
    exact Upd.after wr_upd rfl <| by with_reducible assumption
  · exact .refl

theorem gpioWith_upd {s : State} {w : GpioWrite} {also : List GpioWrite} :
    Upd (Part.allBut [.pending, .held, .fuses, .straps, .cellar, .lines, .ids, .heatCopy, .stamps, .alloc, .prog,
      .recClear, .chunk, .loader, .chain, .selfTest, .course]) s (State.gpioWith s w also) := by
  unfold State.gpioWith
  extract_lets x4
  have hx4 : Upd (Part.allBut [.pending, .held, .fuses, .straps, .cellar, .lines, .ids, .heatCopy, .stamps, .alloc,
    .prog, .recClear, .chunk, .loader, .chain, .selfTest, .course]) s x4.2 := by
    unfold x4
    refine Upd.foldl_snd (fun b x hb => ?_) _ ?_
    · extract_lets x8
      have hx8 : Upd (Part.allBut [.pending, .held, .fuses, .straps, .cellar, .lines, .ids, .heatCopy, .stamps,
        .alloc, .prog, .recClear, .chunk, .loader, .chain, .selfTest, .course]) s x8.2 := Upd.after gpioLands_upd rfl
        <| by with_reducible assumption
      clear_value x8
      exact by with_reducible assumption
    · exact .refl
  clear_value x4
  exact Upd.after gpioCycle_upd rfl <| by with_reducible assumption

theorem pinSwitch_upd {s : State} {pin f : Nat} :
    Upd [.regs, .pins] s (State.pinSwitch s pin f) := by
  unfold State.pinSwitch
  extract_lets x8 x9 x10 x11 x12
  clear_value x8
  clear_value x9
  clear_value x10
  have hx11 : Upd [.regs, .pins] s x11 := Upd.after wr_upd rfl .refl
  clear_value x11
  clear_value x12
  refine Upd.ite ?_ ?_
  · exact .refl
  · refine Upd.ite ?_ ?_
    · refine Upd.pins ?_ rfl
      exact by with_reducible assumption
    · exact by with_reducible assumption

theorem gpioSdw_upd {s : State} {h : Half} {w : GpioWrite} {also : List GpioWrite} :
    Upd (Part.allBut [.pending, .held, .fuses, .straps, .cellar, .lines, .ids, .heatCopy, .stamps, .alloc, .prog,
      .recClear, .chunk, .loader, .chain, .selfTest, .course]) s (State.gpioSdw s h w also) := by
  unfold State.gpioSdw
  exact Upd.ite (Upd.after gpioWith_upd rfl .refl) .refl

theorem porchCount_upd {s : State} {k : Nat} {f : Fld} {event n : Nat} :
    Upd [.regs, .out, .host, .cox] s (State.porchCount s k f event n) := by
  unfold State.porchCount
  extract_lets x7 x8
  clear_value x7
  clear_value x8
  exact Upd.ite .refl (Upd.after raise_upd rfl <| Upd.after bump_upd rfl .refl)

theorem porchIn_upd {s : State} {k : Nat} {ins : List Byte} {acked : BitVec 16} :
    Upd [.regs, .out, .host, .fabric, .sigs, .cox] s (State.porchIn s k ins acked) := by
  unfold State.porchIn
  extract_lets x6 x7 x8
  clear_value x6
  clear_value x7
  clear_value x8
  split
  · exact .refl
  · extract_lets x16 x17 x18 x19 x20 x21
    clear_value x16
    clear_value x17
    clear_value x18
    clear_value x19
    have hx20 : Upd [.regs, .out, .host, .fabric, .sigs, .cox] s x20 := Upd.foldl (fun t x ht => Upd.after
      setDoor_upd rfl <| by with_reducible assumption) _ .refl
    clear_value x20
    have hx21 : Upd [.regs, .out, .host, .fabric, .sigs, .cox] s x21 := Upd.after porchCount_upd rfl <| by
      with_reducible assumption
    clear_value x21
    exact Upd.ite (by with_reducible assumption) (Upd.after emit_upd rfl <| by with_reducible assumption)

theorem porchOut_upd {s : State} {k : Nat} {seen : BitVec 16} :
    Upd [.regs, .out, .porches, .host, .cox] s (State.porchOut s k seen) := by
  unfold State.porchOut
  extract_lets x7 x8 x9 x10 x11
  clear_value x7
  clear_value x8
  clear_value x9
  clear_value x10
  clear_value x11
  exact Upd.ite .refl (Upd.ite (Upd.after emit_upd rfl <| Upd.after setPorch_upd rfl .refl) (Upd.after
    porchCount_upd rfl .refl))

theorem porchBoundary_upd {s : State} {h : Half} {j : Nat} {seen : BitVec 16} {ins : List Byte} {acked : BitVec 16} :
    Upd [.regs, .out, .porches, .host, .fabric, .sigs, .cox] s (State.porchBoundary s h j seen ins acked) := by
  unfold State.porchBoundary
  extract_lets x5
  clear_value x5
  exact Upd.ite .refl (Upd.after porchIn_upd rfl <| Upd.after porchOut_upd rfl <| Upd.after porchTake_upd rfl .refl)

theorem smbus_upd {s : State} {addr code : Nat} {pec : Bool} :
    Upd [.out] s (State.smbus s addr code pec) := by
  unfold State.smbus
  extract_lets x5
  clear_value x5
  refine Upd.ite ?_ ?_
  · exact Upd.after emit_upd rfl .refl
  · extract_lets
    exact Upd.after emit_upd rfl .refl

theorem gpioHost_upd {s : State} {m : Master} {h : Half} {w : GpioWrite} {also : List GpioWrite} :
    Upd (Part.allBut [.pending, .held, .fuses, .straps, .cellar, .lines, .ids, .heatCopy, .stamps, .alloc, .prog,
      .recClear, .chunk, .loader, .chain, .selfTest, .course]) s (State.gpioHost s m h w also) := by
  unfold State.gpioHost
  refine toPage_hupd rfl ?_ ?_
  · intro u z1
    exact Upd.ite (Upd.after gpioWith_upd rfl <| by with_reducible assumption) (by with_reducible assumption)
  · exact .refl

theorem snapshotFor_upd {s : State} {pin : Nat} {h : Half} :
    Upd [.out, .doorway, .fabric, .sigs] s (State.snapshotFor s pin h) := by
  unfold State.snapshotFor
  exact Upd.ite (Upd.after snapOffer_upd rfl .refl) .refl

theorem pinChange_upd {s : State} {pin : Nat} {level : Bool} :
    Upd (Part.allBut [.pending, .held, .fuses, .straps, .cellar, .security, .lines, .ids, .heatCopy, .stamps,
      .alloc, .prog, .recClear, .chunk, .loader, .chain, .selfTest, .course]) s (State.pinChange s pin level) := by
  unfold State.pinChange
  extract_lets x11 x12 x13 x14 x15 x16 x17 x18
  have hx12 : Upd (Part.allBut [.pending, .held, .fuses, .straps, .cellar, .security, .lines, .ids, .heatCopy,
    .stamps, .alloc, .prog, .recClear, .chunk, .loader, .chain, .selfTest, .course]) s x12 := by
    unfold x12
    refine Upd.pins ?_ rfl
    exact .refl
  have hx13 : Upd (Part.allBut [.pending, .held, .fuses, .straps, .cellar, .security, .lines, .ids, .heatCopy,
    .stamps, .alloc, .prog, .recClear, .chunk, .loader, .chain, .selfTest, .course]) s x13 := Upd.ite (Upd.after
    g2Prog_upd rfl <| by with_reducible assumption) (by with_reducible assumption)
  clear_value x13
  clear_value x14
  clear_value x15
  clear_value x16
  have hx17 : Upd (Part.allBut [.pending, .held, .fuses, .straps, .cellar, .security, .lines, .ids, .heatCopy,
    .stamps, .alloc, .prog, .recClear, .chunk, .loader, .chain, .selfTest, .course]) s x17 := Upd.foldl (fun t x ht =>
    Upd.after linePulse_upd rfl <| by with_reducible assumption) _ (by with_reducible assumption)
  clear_value x17
  have hx18 : Upd (Part.allBut [.pending, .held, .fuses, .straps, .cellar, .security, .lines, .ids, .heatCopy,
    .stamps, .alloc, .prog, .recClear, .chunk, .loader, .chain, .selfTest, .course]) s x18 := Upd.after
    snapshotFor_upd rfl <| Upd.after snapshotFor_upd rfl <| by with_reducible assumption
  clear_value x18
  refine Upd.ite ?_ ?_
  · exact .refl
  · refine Upd.ite ?_ ?_
    · exact by with_reducible assumption
    · refine Upd.ite ?_ ?_
      · refine Upd.ite ?_ ?_
        · exact by with_reducible assumption
        · refine Upd.after wakeSource_upd rfl <| Upd.pins ?_ rfl
          exact by with_reducible assumption
      · exact Upd.ite (by with_reducible assumption) (Upd.after wakeSource_upd rfl <| by with_reducible assumption)

theorem govSample_upd {s : State} {h : Half} {halfWatts : Nat} {hottest : Int} :
    Upd [.regs, .draws, .power] s (State.govSample s h halfWatts hottest) := by
  unfold State.govSample
  extract_lets x9 x10 x11 x12 x13
  clear_value x9
  clear_value x10
  clear_value x11
  have hx12 : Upd [.regs, .draws, .power] s x12 := Upd.after modPow_upd rfl <| Upd.after drew_upd rfl .refl
  clear_value x12
  have hx13 : Upd [.regs, .draws, .power] s x13 := Upd.after wrs_upd rfl <| by with_reducible assumption
  clear_value x13
  exact Upd.ite .refl (Upd.after modPow_upd rfl <| by with_reducible assumption)

theorem noClockCheck_upd {s : State} {h : Half} :
    Upd [.regs, .out, .cellar, .seq, .loader, .g2, .selfTest] s (State.noClockCheck s h) := by
  unfold State.noClockCheck
  extract_lets x4 x5
  clear_value x4
  have hx5 : Upd [.regs, .out, .cellar, .seq, .loader, .g2, .selfTest] s x5 := by
    unfold x5
    refine Upd.after wr_upd rfl <| Upd.cellar ?_ rfl
    exact .refl
  clear_value x5
  exact Upd.ite (Upd.after haltHalf_upd rfl <| by with_reducible assumption) .refl

theorem opGo_upd {s : State} {h : Half} :
    Upd [.regs, .out, .draws, .power, .cross, .porches, .host, .cox] s (State.opGo s h) := by
  unfold State.opGo
  extract_lets x4 x5
  clear_value x4
  have hx5 : Upd [.regs, .out, .draws, .power, .cross, .porches, .host, .cox] s x5 := Upd.after wrs_upd rfl <|
    Upd.after step1_upd rfl .refl
  clear_value x5
  exact Upd.ite .refl (Upd.ite (Upd.after opResult_upd rfl <| by with_reducible assumption) (Upd.ite (Upd.after
    opResult_upd rfl <| by with_reducible assumption) (Upd.ite (by with_reducible assumption) (Upd.after opBegin_upd
    rfl <| by with_reducible assumption))))

theorem fmcGo_upd {s : State} {h : Half} :
    Upd [.regs] s (State.fmcGo s h) := by
  unfold State.fmcGo
  extract_lets x3
  clear_value x3
  exact Upd.ite .refl (Upd.after wrs_upd rfl <| Upd.after step1_upd rfl .refl)

theorem gateGo_upd {s : State} {h : Half} {b : Gated} :
    Upd [.regs, .power] s (State.gateGo s h b) := by
  unfold State.gateGo
  extract_lets x4
  have hx4 : Upd [.regs, .power] s x4 := Upd.ite (Upd.after wrs_upd rfl .refl) .refl
  clear_value x4
  exact Upd.ite .refl (Upd.after wr_upd rfl <| Upd.after setGateStage_upd rfl <| by with_reducible assumption)

theorem vfabWrite_upd {s : State} {h : Half} {mv : Nat} :
    Upd [.regs, .power] s (State.vfabWrite s h mv) := by
  unfold State.vfabWrite
  extract_lets x4
  have hx4 : Upd [.regs, .power] s x4 := Upd.after wr_upd rfl .refl
  clear_value x4
  exact Upd.ite (Upd.after vfabGo_upd rfl <| by with_reducible assumption) (by with_reducible assumption)

theorem govUndo_upd {s : State} {h : Half} :
    Upd [.regs, .draws, .power, .cross, .porches] s (State.govUndo s h) := by
  unfold State.govUndo
  extract_lets x3
  exact Upd.ite .refl (Upd.after wr_upd rfl <| Upd.after govShow_upd rfl <| Upd.foldl (fun t x ht => Upd.after
    govDrop_upd rfl <| by with_reducible assumption) _ .refl)

theorem gateForce_upd {s : State} {h : Half} {b : Gated} {off : Nat} :
    Upd [.regs, .power] s (State.gateForce s h b off) := by
  unfold State.gateForce
  exact Upd.ite (Upd.after pgErr_upd rfl <| Upd.after gateShut_upd rfl .refl) .refl

theorem fmcEnd_upd {s : State} {h : Half} {count stat : Nat} :
    Upd [.regs, .out, .host, .cox] s (State.fmcEnd s h count stat) := by
  unfold State.fmcEnd
  extract_lets x5
  clear_value x5
  exact Upd.ite (Upd.after raise_upd rfl <| Upd.after wrs_upd rfl .refl) .refl

theorem fmcDone_upd {s : State} {h : Half} {edges : Nat} :
    Upd [.regs, .out, .host, .cox] s (State.fmcDone s h edges) := by
  unfold State.fmcDone
  extract_lets x5 x6
  clear_value x5
  clear_value x6
  exact Upd.ite (Upd.after fmcEnd_upd rfl .refl) (Upd.after fmcEnd_upd rfl .refl)

theorem gateEngine_upd {s : State} {h : Half} {b : Gated} :
    Upd [.power] s (State.gateEngine s h b) := by
  unfold State.gateEngine
  exact Upd.ite (Upd.after setGateStage_upd rfl .refl) .refl

theorem avsEnd_upd {s : State} {h : Half} {crcOk : List Bool} :
    Upd [.regs, .out, .draws, .power, .cross, .porches, .host, .cox] s (State.avsEnd s h crcOk) := by
  unfold State.avsEnd
  extract_lets x8 x9 x10 x11 x12
  clear_value x8
  clear_value x9
  clear_value x10
  have hx11 : Upd [.regs, .out, .draws, .power, .cross, .porches, .host, .cox] s x11 := Upd.after modPow_upd rfl .refl
  clear_value x11
  have hx12 : Upd [.regs, .out, .draws, .power, .cross, .porches, .host, .cox] s x12 := Upd.after raise_upd rfl <|
    Upd.after bump_upd rfl <| by with_reducible assumption
  clear_value x12
  refine Upd.ite ?_ ?_
  · exact .refl
  · refine Upd.ite ?_ ?_
    · split
      · exact Upd.after avsCommit_upd rfl <| by with_reducible assumption
      · exact by with_reducible assumption
    · split
      · exact Upd.ite (Upd.after opEnd_upd rfl <| by with_reducible assumption) (by with_reducible assumption)
      · exact by with_reducible assumption

theorem opLate_upd {s : State} {h : Half} :
    Upd [.regs, .out, .draws, .power, .cross, .porches, .host, .cox] s (State.opLate s h) := by
  unfold State.opLate
  split
  · exact Upd.ite .refl (Upd.after opEnd_upd rfl .refl)
  · exact .refl

theorem gatePort_upd {s : State} {h : Half} {b : Gated} :
    Upd [.regs, .power] s (State.gatePort s h b) := by
  unfold State.gatePort
  exact Upd.ite (Upd.after gateShut_upd rfl .refl) .refl

theorem opSettled_upd {s : State} {h : Half} :
    Upd [.regs, .out, .draws, .power, .cross, .porches, .host, .cox] s (State.opSettled s h) := by
  unfold State.opSettled
  split
  · exact Upd.ite .refl (Upd.ite (Upd.after opAdvance_upd rfl <| Upd.after modPow_upd rfl .refl) (Upd.ite
      (Upd.after opEnd_upd rfl .refl) .refl))
  · exact .refl

theorem monitorOne_upd {s : State} {h : Half} {c : ClockSrc} {n : Nat} :
    Upd [.regs, .out, .draws, .power, .cross, .porches, .host, .cox] s (State.monitorOne s h c n) := by
  unfold State.monitorOne
  extract_lets x5
  have hx5 : Upd [.regs, .out, .draws, .power, .cross, .porches, .host, .cox] s x5 := Upd.after srcFail_upd rfl .refl
  clear_value x5
  refine Upd.ite ?_ ?_
  · exact .refl
  · split
    · exact Upd.after dlSet_upd rfl <| by with_reducible assumption
    · exact Upd.after linksLost_upd rfl <| by with_reducible assumption
    · exact by with_reducible assumption

theorem monitor_upd {s : State} {h : Half} {counts : List (ClockSrc × Nat)} :
    Upd [.regs, .out, .draws, .cellar, .seq, .power, .cross, .porches, .host, .loader, .g2, .selfTest, .cox] s
      (State.monitor s h counts) := by
  unfold State.monitor
  exact Upd.ite (Upd.after noClockCheck_upd rfl <| Upd.foldl (fun t x ht => Upd.after monitorOne_upd rfl <| by
    with_reducible assumption) _ .refl) .refl

theorem timerEnd_upd {s : State} :
    Upd (Part.allBut [.pending, .held, .fuses, .straps, .cellar, .security, .lines, .ids, .heatCopy, .stamps,
      .alloc, .prog, .recClear, .chunk, .loader, .chain, .selfTest, .course]) s (State.timerEnd s) := by
  unfold State.timerEnd
  extract_lets x2
  have hx2 : Upd (Part.allBut [.pending, .held, .fuses, .straps, .cellar, .security, .lines, .ids, .heatCopy,
    .stamps, .alloc, .prog, .recClear, .chunk, .loader, .chain, .selfTest, .course]) s x2 := Upd.after wr_upd rfl
    .refl
  clear_value x2
  exact Upd.ite .refl (Upd.ite (Upd.after wakeSource_upd rfl <| by with_reducible assumption) (Upd.ite (Upd.after
    wr_upd rfl <| by with_reducible assumption) (Upd.after wakeSource_upd rfl <| Upd.after raise_upd rfl <| by
    with_reducible assumption)))

theorem crystalCheck_upd {s : State} {alw : Nat} :
    Upd [.regs, .out, .draws, .cross, .porches, .host, .cox] s (State.crystalCheck s alw) := by
  unfold State.crystalCheck
  extract_lets x4 x5
  clear_value x4
  have hx5 : Upd [.regs, .out, .draws, .cross, .porches, .host, .cox] s x5 := Upd.after setSrcReady_upd rfl .refl
  clear_value x5
  exact Upd.ite (Upd.ite (Upd.after raise_upd rfl <| Upd.after wrs_upd rfl <| by with_reducible assumption) (by
    with_reducible assumption)) .refl

theorem vfabNext_upd {s : State} {h : Half} :
    Upd [.power] s (State.vfabNext s h) := by
  unfold State.vfabNext
  extract_lets x5 x6 x7
  clear_value x5
  clear_value x6
  clear_value x7
  exact Upd.ite .refl (Upd.after avsPut_upd rfl .refl)

theorem govAct_upd {s : State} {h : Half} :
    Upd [.regs, .out, .draws, .power, .cross, .porches, .host, .cox] s (State.govAct s h) := by
  unfold State.govAct
  extract_lets x3
  clear_value x3
  refine Upd.ite ?_ ?_
  · exact .refl
  · split
    · exact Upd.after wr_upd rfl <| Upd.after govShow_upd rfl <| Upd.foldl (fun t x ht => Upd.after govTake_upd
        rfl <| by with_reducible assumption) _ .refl
    · exact Upd.after raise_upd rfl <| Upd.after wr_upd rfl .refl

theorem sourceFed_upd {s : State} {h : Half} {c : ClockSrc} :
    Upd (Part.allBut [.pending, .held, .fuses, .straps, .cellar, .security, .lines, .ids, .heatCopy, .stamps,
      .alloc, .prog, .recClear, .chunk, .chain, .course]) s (State.sourceFed s h c) := by
  unfold State.sourceFed
  extract_lets x5 x6
  have hx5 : Upd (Part.allBut [.pending, .held, .fuses, .straps, .cellar, .security, .lines, .ids, .heatCopy,
    .stamps, .alloc, .prog, .recClear, .chunk, .chain, .course]) s x5 := by
    unfold x5
    split
    · exact Upd.ite (Upd.after opAdvance_upd rfl <| Upd.after modPow_upd rfl .refl) .refl
    · exact .refl
  have hx6 : Upd (Part.allBut [.pending, .held, .fuses, .straps, .cellar, .security, .lines, .ids, .heatCopy,
    .stamps, .alloc, .prog, .recClear, .chunk, .chain, .course]) s x6 := Upd.ite (Upd.after bootStep2_upd rfl <| by
    with_reducible assumption) (by with_reducible assumption)
  exact Upd.ite (Upd.after wakeUp_upd rfl <| Upd.after plls_upd rfl <| Upd.after plls_upd rfl <| by with_reducible
    assumption) (by with_reducible assumption)

theorem sourceUp_upd {s : State} {h : Half} {c : ClockSrc} :
    Upd (Part.allBut [.pending, .held, .fuses, .straps, .cellar, .security, .lines, .ids, .heatCopy, .stamps,
      .alloc, .prog, .recClear, .chunk, .chain, .course]) s (State.sourceUp s h c) := by
  unfold State.sourceUp
  extract_lets x4
  clear_value x4
  exact Upd.ite (Upd.after sourceFed_upd rfl <| Upd.after setSrcReady_upd rfl .refl) .refl

theorem freezePage_upd {s : State} {p : Nat} :
    Upd [.regs, .held] s (State.freezePage s p) := by
  unfold State.freezePage
  extract_lets x4 x5
  clear_value x4
  have hx5 : Upd [.regs, .held] s x5 := Upd.after wr_upd rfl .refl
  clear_value x5
  refine Upd.ite ?_ ?_
  · exact .refl
  · refine Upd.held ?_ rfl
    exact by with_reducible assumption

theorem thawPage_upd {s : State} {p : Nat} :
    Upd [.regs, .held] s (State.thawPage s p) := by
  unfold State.thawPage
  extract_lets x3
  have hx3 : Upd [.regs, .held] s x3 := Upd.after wr_upd rfl .refl
  clear_value x3
  refine Upd.held ?_ rfl
  exact by with_reducible assumption

theorem mbEnd_upd {s : State} {p code : Nat} {words : List Word} :
    Upd [.regs, .out, .host, .cox] s (State.mbEnd s p code words) := by
  unfold State.mbEnd
  extract_lets x7 x8 x9
  clear_value x7
  have hx8 : Upd [.regs, .out, .host, .cox] s x8 := Upd.foldl (fun t x ht => Upd.after wr_upd rfl <| by
    with_reducible assumption) _ .refl
  clear_value x8
  have hx9 : Upd [.regs, .out, .host, .cox] s x9 := Upd.after wrs_upd rfl <| by with_reducible assumption
  clear_value x9
  exact Upd.after raise_upd rfl <| Upd.after raise_upd rfl <| by with_reducible assumption

theorem mbClose_upd {s : State} {h : Half} :
    Upd [.regs, .out, .host, .cox] s (State.mbClose s h) := by
  unfold State.mbClose
  exact Upd.foldl (fun t x ht => Upd.ite (Upd.after mbEnd_upd rfl <| by with_reducible assumption) (by
    with_reducible assumption)) _ .refl

theorem irqClear_upd {s : State} {p v : Nat} :
    Upd [.regs, .out, .cross, .host, .cox] s (State.irqClear s p v) := by
  unfold State.irqClear
  extract_lets x4
  have hx4 : Upd [.regs, .out, .cross, .host, .cox] s x4 := Upd.after wr_upd rfl .refl
  clear_value x4
  exact Upd.ite (Upd.foldl (fun t x ht => Upd.ite (Upd.after linePulse_upd rfl <| by with_reducible assumption) (by
    with_reducible assumption)) _ (by with_reducible assumption)) (by with_reducible assumption)

theorem irqSend_upd {s : State} {p b : Nat} :
    Upd [.out, .host, .cox] s (State.irqSend s p b) := by
  unfold State.irqSend
  exact Upd.after toCox_upd rfl <| Upd.after msix_upd rfl .refl

theorem irqEnable_upd {s : State} {p v : Nat} :
    Upd [.regs, .out, .host, .cox] s (State.irqEnable s p v) := by
  unfold State.irqEnable
  extract_lets x5 x6
  clear_value x5
  have hx6 : Upd [.regs, .out, .host, .cox] s x6 := Upd.after wr_upd rfl .refl
  clear_value x6
  exact Upd.foldl (fun t x ht => Upd.ite (Upd.after irqSend_upd rfl <| by with_reducible assumption) (by
    with_reducible assumption)) _ (by with_reducible assumption)

theorem irqForced_upd {s : State} {p v : Nat} :
    Upd [.regs, .out, .host, .cox] s (State.irqForced s p v) := by
  unfold State.irqForced
  exact Upd.ite (Upd.foldl (fun t x ht => Upd.ite (Upd.after raise_upd rfl <| by with_reducible assumption) (by
    with_reducible assumption)) _ .refl) .refl

theorem pageWorld_upd {s : State} {m : Master} {p : Nat} {world : Option Bool} {lock : Bool} :
    Upd [.regs] s (State.pageWorld s m p world lock) := by
  unfold State.pageWorld
  extract_lets x6
  have hx6 : Upd [.regs] s x6 := by
    unfold x6
    split
    · exact Upd.ite .refl (Upd.after wr_upd rfl .refl)
    · exact .refl
  clear_value x6
  exact Upd.ite .refl (Upd.ite (Upd.after wr_upd rfl <| by with_reducible assumption) (by with_reducible assumption))

theorem errClear_upd {s : State} {p : Nat} :
    Upd [.regs, .cross] s (State.errClear s p) := by
  unfold State.errClear
  extract_lets x4 x5
  clear_value x4
  have hx5 : Upd [.regs, .cross] s x5 := Upd.after wrs_upd rfl .refl
  clear_value x5
  refine Upd.ite ?_ ?_
  · extract_lets
    refine Upd.foldl (fun t x ht => ?_) _ ?_
    · extract_lets x10 x11
      clear_value x10
      clear_value x11
      exact Upd.ite (Upd.after crossFound_upd rfl <| by with_reducible assumption) (by with_reducible assumption)
    · exact by with_reducible assumption
  · exact by with_reducible assumption

theorem xstatFound_upd {s : State} {h : Half} :
    Upd [.regs, .cross] s (State.xstatFound s h) := by
  unfold State.xstatFound
  extract_lets x6 x7 x8 x9
  clear_value x6
  clear_value x7
  have hx8 : Upd [.regs, .cross] s x8 := Upd.after crossFound_upd rfl .refl
  clear_value x8
  clear_value x9
  exact Upd.ite (Upd.ite (Upd.after wrs_upd rfl <| by with_reducible assumption) (by with_reducible assumption)) .refl

theorem mbGo_upd {s : State} {p len : Nat} :
    Upd [.regs, .out, .host, .cox] s (State.mbGo s p len) := by
  unfold State.mbGo
  extract_lets x4
  have hx4 : Upd [.regs, .out, .host, .cox] s x4 := Upd.after wr_upd rfl <| Upd.after step1_upd rfl .refl
  clear_value x4
  exact Upd.ite .refl (Upd.ite (Upd.after mbEnd_upd rfl <| by with_reducible assumption) (Upd.ite (Upd.after
    mbEnd_upd rfl <| by with_reducible assumption) (Upd.after emit_upd rfl <| Upd.after wr_upd rfl <| by
    with_reducible assumption)))

end Sys2Proof.Machine.State
end

