-- ==== Sys2Proof/Laws/FrameLoad.lean ====
section
/-! SUPPORT. What each operation may change, and that it keeps the canonical form: the loader, upkeep, soft reset and raw register writes.
One lemma for each operation; a lemma in `_hupd` is of an operation that takes the rest of a meaning. -/

namespace Sys2Proof.Machine.State

theorem withFetchWord_upd {s : State} {nbits w : Nat} :
    Upd [.pending] s (State.withFetchWord s nbits w) := by
  unfold State.withFetchWord
  split
  · refine Upd.pending ?_ rfl
    exact .refl
  · exact .refl

theorem hdrSkip_upd {s : State} {h : ImgHdr} :
    Upd [.loader] s (State.hdrSkip s h) := by
  unfold State.hdrSkip
  exact Upd.ite (Upd.after modLoad_upd rfl .refl) (Upd.after modLoad_upd rfl <| Upd.after storedTake_upd rfl .refl)

theorem endless_upd {s : State} :
    Upd [.regs, .out, .seq, .host, .loader, .g2, .selfTest, .cox] s (State.endless s) := by
  unfold State.endless
  split
  · exact Upd.ite (Upd.after loadFail_upd rfl .refl) .refl
  · exact .refl

theorem hdrTake_upd {s : State} {h : ImgHdr} :
    Upd [.regs, .out, .seq, .host, .loader, .g2, .selfTest, .cox] s (State.hdrTake s h) := by
  unfold State.hdrTake
  extract_lets x3
  have hx3 : Upd [.regs, .out, .seq, .host, .loader, .g2, .selfTest, .cox] s x3 := Upd.after modLoad_upd rfl <|
    Upd.after storedTake_upd rfl .refl
  clear_value x3
  exact Upd.after endless_upd rfl <| Upd.after wrs_upd rfl <| by with_reducible assumption

theorem header_upd {s : State} {bs : List Byte} :
    Upd [.regs, .out, .seq, .host, .loader, .g2, .selfTest, .cox] s (State.header s bs) := by
  unfold State.header
  extract_lets x3
  have hx3 : ∀ a0, Upd [.regs, .out, .seq, .host, .loader, .g2, .selfTest, .cox] s (x3 a0) := by
    intros
    exact Upd.after loadFail_upd rfl .refl
  clear_value x3
  refine Upd.ite ?_ ?_
  · exact .refl
  · refine Upd.ite ?_ ?_
    · exact Upd.after loadFail_upd rfl .refl
    · refine Upd.ite ?_ ?_
      · exact .refl
      · split
        · exact hx3 _
        · refine Upd.ite ?_ ?_
          · exact Upd.ite (Upd.after hdrSkip_upd rfl .refl) (hx3 _)
          · split
            · exact hx3 _
            · exact Upd.after hdrTake_upd rfl .refl

theorem cleanLoad_upd {s : State} :
    Upd [.regs, .porches, .rooms, .fabric, .refs, .crews, .ids, .heatCopy, .wings, .alloc] s (State.cleanLoad s) := by
  unfold State.cleanLoad
  extract_lets x3 x4
  have hx3 : Upd [.regs, .porches, .rooms, .fabric, .refs, .crews, .ids, .heatCopy, .wings, .alloc] s x3 := by
    unfold x3
    refine Upd.foldl (fun t x ht => ?_) _ ?_
    · split
      exact Upd.after granDel_upd rfl <| by with_reducible assumption
    · exact .refl
  clear_value x3
  have hx4 : Upd [.regs, .porches, .rooms, .fabric, .refs, .crews, .ids, .heatCopy, .wings, .alloc] s x4 :=
    Upd.foldl (fun t x ht => Upd.after porchWr_upd rfl <| Upd.after porchWr_upd rfl <| by with_reducible assumption) _
    (by with_reducible assumption)
  clear_value x4
  exact Upd.porches_rooms_fabric_refs_crews_ids_heatCopy_wings (by with_reducible assumption) rfl (fun c => ⟨c.mem,
    rfl, c.regs, rfl, c.hatches⟩)

theorem writeFrame_upd {s : State} {a : Nat} {t : Tbl Byte} :
    Upd [.fabric, .refs] s (State.writeFrame s a t) := by
  unfold State.writeFrame
  extract_lets x4
  have hx4 : Upd [.fabric, .refs] s x4 := Upd.fabric .refl rfl (fun c => ⟨c.mem, Memory.wf_splice c.fabric _ _ _,
    c.regs, c.crews, c.hatches⟩)
  clear_value x4
  exact Upd.ite (Upd.after keepRef_upd rfl <| by with_reducible assumption) (by with_reducible assumption)

theorem writeFrames_upd {s : State} {t : Tbl Byte} {x2 : List Nat} :
    Upd [.fabric, .refs, .loader] s (State.writeFrames s t x2).2 := by
  unfold State.writeFrames
  split
  · exact .refl
  · exact Upd.ite_snd (Upd.after writeFrames_upd rfl <| Upd.after modLoad_upd rfl <| Upd.after writeFrame_upd rfl
      .refl) .refl

theorem segment_upd {s : State} {cipher tag : List Byte} :
    Upd [.regs, .out, .seq, .host, .loader, .g2, .selfTest, .cox] s (State.segment s cipher tag) := by
  unfold State.segment
  extract_lets x5 x6
  clear_value x5
  clear_value x6
  split
  · exact .refl
  · extract_lets x11
    clear_value x11
    refine Upd.ite ?_ ?_
    · exact .refl
    · refine Upd.ite ?_ ?_
      · exact Upd.after loadFail_upd rfl .refl
      · refine Upd.ite ?_ ?_
        · exact .refl
        · split
          · exact Upd.after loadFail_upd rfl .refl
          · exact Upd.after wr_upd rfl <| Upd.after modLoad_upd rfl <| Upd.after storedTake_upd rfl .refl

theorem recordData_upd {s : State} {c : Crew} {bs : List Byte} :
    Upd [.mem, .bad] s (State.recordData s c bs) := by
  unfold State.recordData
  refine Upd.foldl (fun t x ht => ?_) _ ?_
  · extract_lets x7
    clear_value x7
    exact Upd.after putWhole_upd rfl <| Upd.after putWhole_upd rfl <| by with_reducible assumption
  · exact .refl

theorem loadCleaned_upd {s : State} :
    Upd (Part.allBut [.pending, .held, .fuses, .straps, .cellar, .cross, .pins, .prog, .recClear, .chunk]) s
      (State.loadCleaned s) := by
  unfold State.loadCleaned
  extract_lets x4 x5 x6
  have hx4 : Upd (Part.allBut [.pending, .held, .fuses, .straps, .cellar, .cross, .pins, .prog, .recClear, .chunk])
    s x4 := Upd.after cleanLoad_upd rfl .refl
  clear_value x4
  have hx5 : Upd (Part.allBut [.pending, .held, .fuses, .straps, .cellar, .cross, .pins, .prog, .recClear, .chunk])
    s x5 := Upd.after wrs_upd rfl <| by with_reducible assumption
  clear_value x5
  clear_value x6
  split
  · exact .refl
  · split
    · exact Upd.after loadStart_upd rfl <| Upd.after modLoad_upd rfl <| by with_reducible assumption
    · exact Upd.after begin_upd rfl <| Upd.after modLoad_upd rfl <| by with_reducible assumption

theorem record_hupd {K s t typ r act} (hk : Part.sub [.regs, .out, .seq, .host, .loader, .g2, .selfTest, .cox] K = true)
    (hf : ∀ u x, Upd K s u → Upd K s (act u x).2) (h : Upd K s t) : Upd K s (State.record t typ r act) := by
  unfold State.record
  have sub : ∀ {L : List Part}, Part.sub L [.regs, .out, .seq, .host, .loader, .g2, .selfTest, .cox] = true → Part.sub L K = true := fun hl =>
    Part.sub_trans hl hk
  split
  · extract_lets ty pos len stop fail
    have hfail : ∀ u b, Upd K s u → Upd K s (fail u b) := fun u b hu => Upd.after loadFail_upd (sub rfl) hu
    refine Upd.ite h (Upd.ite (Upd.after loadFail_upd (sub rfl) h) (Upd.ite (hfail _ _ h) (Upd.ite h
      (Upd.ite (hfail _ _ h) (Upd.ite (hfail _ _ h) (Upd.ite h ?_))))))
    split
    · rename_i e; exact hfail _ _ (Upd.of_pair e (hf _ _ h))
    · rename_i e
      have ht := Upd.of_pair e (hf _ _ h)
      extract_lets u
      have hu : Upd K s u := Upd.after modLoad_upd (sub rfl) (Upd.after plainTake_upd (sub rfl) ht)
      exact Upd.ite hu (Upd.after endless_upd (sub rfl) hu)
  · exact h

theorem hallAct_upd {body : List Byte} {s : State} {_h : ImgHdr} :
    Upd [.loader] s (State.hallAct body s _h).2 := by
  unfold State.hallAct
  extract_lets x4
  clear_value x4
  refine Upd.ite_snd ?_ ?_
  · exact .refl
  · refine Upd.ite_snd ?_ ?_
    · dsimp -zeta only
      exact Upd.after modLoad_upd rfl .refl
    · exact .refl

theorem takeAreas_upd {s : State} {h : Half} {x2 : List (Nat × Nat)} :
    Upd [.alloc, .loader] s (State.takeAreas s h x2).2 := by
  unfold State.takeAreas
  split
  · exact .refl
  · exact Upd.ite_snd (Upd.after takeAreas_upd rfl <| Upd.after modLoad_upd rfl <| Upd.after granPut_upd rfl
      .refl) .refl

theorem recordCrew_upd {s : State} {id : Nat} {c : Crew} :
    Upd [.regs, .out, .porches, .host, .rooms, .crews, .ids, .stamps, .cox, .hatches] s (State.recordCrew s id c) :=
      by
  unfold State.recordCrew
  extract_lets x4
  have hx4 : Upd [.regs, .out, .porches, .host, .rooms, .crews, .ids, .stamps, .cox, .hatches] s x4 := Upd.after
    newCrew_upd rfl .refl
  clear_value x4
  exact Upd.ite (Upd.after modRooms_upd rfl <| Upd.after claimPorches_upd rfl <| Upd.after newCrew_upd rfl .refl)
    (Upd.ite (Upd.after enterReady_upd rfl <| by with_reducible assumption) (by with_reducible assumption))

theorem crewAct_upd {body : List Byte} {s : State} {h : ImgHdr} :
    Upd [.regs, .out, .porches, .host, .rooms, .crews, .ids, .stamps, .mem, .bad, .alloc, .loader, .cox, .hatches] s
      (State.crewAct body s h).2 := by
  unfold State.crewAct
  extract_lets x14 x15 x16 x17 x18 x19 x20 x21 x22 x23 x24
  clear_value x14
  clear_value x15
  clear_value x16
  clear_value x17
  clear_value x18
  clear_value x19
  clear_value x20
  clear_value x21
  clear_value x22
  clear_value x23
  clear_value x24
  split
  · exact .refl
  · refine Upd.ite_snd ?_ ?_
    · exact .refl
    · extract_lets
      split
      · exact .refl
      · refine Upd.ite_snd ?_ ?_
        · exact .refl
        · extract_lets
          split
          · rename_i t27 e27
            have ht27 : Upd [.regs, .out, .porches, .host, .rooms, .crews, .ids, .stamps, .mem, .bad, .alloc,
              .loader, .cox, .hatches] s t27 := Upd.of_pair e27 <| Upd.after takeAreas_upd rfl <| Upd.after
              recordCrew_upd rfl .refl
            exact by with_reducible assumption
          · rename_i t26 e26
            have ht26 : Upd [.regs, .out, .porches, .host, .rooms, .crews, .ids, .stamps, .mem, .bad, .alloc,
              .loader, .cox, .hatches] s t26 := Upd.of_pair e26 <| Upd.after takeAreas_upd rfl <| Upd.after
              recordCrew_upd rfl .refl
            extract_lets x28
            have hx28 : Upd [.regs, .out, .porches, .host, .rooms, .crews, .ids, .stamps, .mem, .bad, .alloc,
              .loader, .cox, .hatches] s x28 := Upd.ite (Upd.after recordData_upd rfl <| by with_reducible assumption)
              (by with_reducible assumption)
            clear_value x28
            dsimp -zeta only
            exact Upd.after modLoad_upd rfl <| by with_reducible assumption

theorem countFrames_upd {s : State} {h : ImgHdr} {n : Nat} :
    ∀ t, State.countFrames s h n = some t → Upd [.regs] s t := by
  intro t e
  unfold State.countFrames at e
  extract_lets c at e
  split at e
  · cases e
  · cases e; exact wr_upd

theorem zeroAct_upd {body : List Byte} {s : State} {h : ImgHdr} :
    Upd [.regs, .fabric, .refs] s (State.zeroAct body s h).2 := by
  unfold State.zeroAct
  extract_lets x7 x8 x9 x10
  clear_value x7
  clear_value x8
  clear_value x9
  clear_value x10
  refine Upd.ite_snd ?_ ?_
  · exact .refl
  · refine Upd.ite_snd ?_ ?_
    · exact .refl
    · split
      · exact .refl
      · rename_i t12 e12
        have ht12 : Upd [.regs, .fabric, .refs] s t12 := Upd.after (countFrames_upd _ e12) rfl .refl
        dsimp -zeta only
        exact Upd.foldl (fun t x ht => Upd.ite (by with_reducible assumption) (Upd.foldl (fun t x ht => Upd.after
          writeFrame_upd rfl <| by with_reducible assumption) _ (by with_reducible assumption))) _ (by with_reducible
          assumption)

theorem essentialAct_upd {body : List Byte} {s : State} {h : ImgHdr} :
    Upd [.mem, .bad, .loader] s (State.essentialAct body s h).2 := by
  unfold State.essentialAct
  extract_lets x5 x6
  clear_value x5
  clear_value x6
  split
  · exact .refl
  · refine Upd.ite_snd ?_ ?_
    · exact .refl
    · extract_lets
      split
      · exact .refl
      · extract_lets x17
        have hx17 : Upd [.mem, .bad, .loader] s x17 := Upd.after putWhole_upd rfl .refl
        clear_value x17
        refine Upd.ite_snd ?_ ?_
        · exact .refl
        · dsimp -zeta only
          exact Upd.after modLoad_upd rfl <| by with_reducible assumption

theorem frameAct_upd {body : List Byte} {s : State} {h : ImgHdr} :
    Upd [.regs, .fabric, .refs, .loader] s (State.frameAct body s h).2 := by
  unfold State.frameAct
  split
  · exact .refl
  · refine Upd.ite_snd ?_ ?_
    · exact .refl
    · split
      · exact .refl
      · rename_i t14 e14
        have ht14 : Upd [.regs, .fabric, .refs, .loader] s t14 := Upd.after (countFrames_upd _ e14) rfl .refl
        exact Upd.after writeFrames_upd rfl <| by with_reducible assumption

theorem repeatAct_upd {body : List Byte} {s : State} {h : ImgHdr} :
    Upd [.regs, .fabric, .refs, .loader] s (State.repeatAct body s h).2 := by
  unfold State.repeatAct
  extract_lets x5 x6
  clear_value x5
  clear_value x6
  split
  · exact .refl
  · refine Upd.ite_snd ?_ ?_
    · exact .refl
    · split
      · exact .refl
      · rename_i t16 e16
        have ht16 : Upd [.regs, .fabric, .refs, .loader] s t16 := Upd.after (countFrames_upd _ e16) rfl .refl
        exact Upd.after writeFrames_upd rfl <| by with_reducible assumption

theorem deadline_upd {s : State} :
    Upd [.regs, .out, .seq, .host, .loader, .g2, .selfTest, .cox] s (State.deadline s) := by
  unfold State.deadline
  exact Upd.ite .refl (Upd.after loadFail_upd rfl .refl)

theorem dmaRefuse_upd {s : State} {reason : Nat} :
    Upd [.regs] s (State.dmaRefuse s reason) := by
  unfold State.dmaRefuse
  exact Upd.after wrs_upd rfl .refl

theorem dmaGo_upd {s : State} :
    Upd [.regs, .out, .chunk, .loader] s (State.dmaGo s) := by
  unfold State.dmaGo
  extract_lets x5 x6 x7 x8
  have hx5 : Upd [.regs, .out, .chunk, .loader] s x5 := Upd.after step1_upd rfl .refl
  clear_value x5
  clear_value x6
  clear_value x7
  have hx8 : Upd [.regs, .out, .chunk, .loader] s x8 := Upd.after wrs_upd rfl <| Upd.after modLoad_upd rfl <| by
    with_reducible assumption
  clear_value x8
  refine Upd.ite ?_ ?_
  · exact .refl
  · refine Upd.ite ?_ ?_
    · exact Upd.after dmaRefuse_upd rfl <| by with_reducible assumption
    · refine Upd.ite ?_ ?_
      · exact Upd.after dmaRefuse_upd rfl <| by with_reducible assumption
      · refine Upd.ite ?_ ?_
        · exact Upd.after dmaRefuse_upd rfl <| by with_reducible assumption
        · refine Upd.ite ?_ ?_
          · exact Upd.after dmaRefuse_upd rfl <| by with_reducible assumption
          · refine Upd.after emit_upd rfl <| Upd.chunk ?_ rfl
            exact by with_reducible assumption

theorem cfgDeadline_upd {s : State} {ms : Nat} :
    Upd [.regs] s (State.cfgDeadline s ms) := by
  unfold State.cfgDeadline
  exact Upd.ite .refl (Upd.after wr_upd rfl .refl)

theorem progGo_upd {s : State} {owner : Nat} :
    Upd [.regs, .prog] s (State.progGo s owner) := by
  unfold State.progGo
  extract_lets x7 x8 x9 x10 x11
  clear_value x7
  clear_value x8
  clear_value x9
  have hx10 : ∀ a0 a1, Upd [.regs, .prog] s a0 → Upd [.regs, .prog] s (x10 a0 a1) := by
    intros
    exact Upd.after wrs_upd rfl <| by with_reducible assumption
  clear_value x10
  have hx11 : Upd [.regs, .prog] s x11 := Upd.after wr_upd rfl <| hx10 _ _ <| Upd.after step1_upd rfl .refl
  clear_value x11
  refine Upd.ite ?_ ?_
  · exact .refl
  · refine Upd.ite ?_ ?_
    · exact hx10 _ _ .refl
    · refine Upd.ite ?_ ?_
      · exact hx10 _ _ .refl
      · refine Upd.ite ?_ ?_
        · exact hx10 _ _ .refl
        · refine Upd.prog ?_ rfl
          exact by with_reducible assumption

theorem recGo_upd {s : State} {secure : Bool} {which : Nat} :
    Upd [.regs, .out, .host, .recClear, .cox] s (State.recGo s secure which) := by
  unfold State.recGo
  extract_lets x5 x6
  have hx5 : Upd [.regs, .out, .host, .recClear, .cox] s x5 := Upd.after wr_upd rfl <| Upd.after step1_upd rfl .refl
  clear_value x5
  have hx6 : ∀ a0, Upd [.regs, .out, .host, .recClear, .cox] s (x6 a0) := by
    intros
    exact Upd.after raise_upd rfl <| Upd.after wrs_upd rfl <| by with_reducible assumption
  clear_value x6
  refine Upd.ite ?_ ?_
  · exact .refl
  · refine Upd.ite ?_ ?_
    · exact hx6 _
    · refine Upd.ite ?_ ?_
      · exact hx6 _
      · refine Upd.ite ?_ ?_
        · exact hx6 _
        · refine Upd.ite ?_ ?_
          · exact hx6 _
          · refine Upd.after wrs_upd rfl <| Upd.recClear ?_ rfl
            exact by with_reducible assumption

theorem recClearBy_upd {s : State} {m : Master} {which : Nat} :
    Upd (Part.allBut [.pending, .held, .fuses, .straps, .cellar, .lines, .ids, .heatCopy, .stamps, .alloc, .prog,
      .chunk, .loader, .chain, .selfTest, .course]) s (State.recClearBy s m which) := by
  unfold State.recClearBy
  refine goTo_hupd rfl ?_ ?_ ?_
  · intro u z1
    exact Upd.after wr_upd rfl <| by with_reducible assumption
  · intro u z1
    exact Upd.after recGo_upd rfl <| by with_reducible assumption
  · exact .refl

theorem attBoot_upd {s : State} {v : Word} :
    Upd [.regs, .held, .attic] s (State.attBoot s v) := by
  unfold State.attBoot
  extract_lets x4 x5
  have hx4 : Upd [.regs, .held, .attic] s x4 := Upd.after store_upd rfl .refl
  clear_value x4
  clear_value x5
  refine Upd.attic ?_ rfl
  exact by with_reducible assumption

theorem progEnd_upd {s : State} {written : Nat} {verified : Bool} :
    Upd [.regs, .out, .draws, .host, .stackCtl, .frames, .attic, .prog, .cox, .gallery] s (State.progEnd s written
      verified) := by
  unfold State.progEnd
  split
  · exact .refl
  · extract_lets x9
    clear_value x9
    split
    rename_i t16 e16
    have ht16 : Upd [.regs, .out, .draws, .host, .stackCtl, .frames, .attic, .prog, .cox, .gallery] s t16 :=
      Upd.of_triple e16 <| Upd.after progCopy_upd rfl .refl
    extract_lets x19 x20
    have hx19 : Upd [.regs, .out, .draws, .host, .stackCtl, .frames, .attic, .prog, .cox, .gallery] s x19 := Upd.ite
      (by with_reducible assumption) (Upd.after progMix_upd rfl <| by with_reducible assumption)
    clear_value x19
    clear_value x20
    refine Upd.after raise_upd rfl <| Upd.after wrs_upd rfl <| Upd.prog ?_ rfl
    exact by with_reducible assumption

theorem stepEnd_upd {s : State} {code : Nat} :
    Upd [.regs, .loader] s (State.stepEnd s code) := by
  unfold State.stepEnd
  exact Upd.after wr_upd rfl <| Upd.after modLoad_upd rfl .refl

theorem lockStep_upd {s : State} :
    Upd [.regs, .loader] s (State.lockStep s) := by
  unfold State.lockStep
  exact Upd.ite (Upd.after stepEnd_upd rfl .refl) .refl

theorem chainShort_upd {s : State} :
    Upd [.regs, .out, .seq, .host, .loader, .g2, .selfTest, .cox] s (State.chainShort s) := by
  unfold State.chainShort
  exact Upd.ite (Upd.after loadFail_upd rfl .refl) .refl

theorem weStep_upd {s : State} :
    Upd [.regs, .out, .seq, .fabric, .blocks, .loader] s (State.weStep s) := by
  unfold State.weStep
  extract_lets x3 x4
  have hx3 : Upd [.regs, .out, .seq, .fabric, .blocks, .loader] s x3 := Upd.after modSeq_upd rfl .refl
  clear_value x3
  clear_value x4
  exact Upd.ite (Upd.after stepEnd_upd rfl <| Upd.foldl (fun t x ht => Upd.after fireBlock_upd rfl <| by
    with_reducible assumption) _ (by with_reducible assumption)) .refl

theorem chainWords_upd {s : State} {p : Packet} :
    Upd [.regs, .out, .host, .stackCtl, .frames, .attic, .cox, .gallery] s (State.chainWords s p).2 := by
  unfold State.chainWords
  extract_lets x3
  clear_value x3
  refine Upd.foldl_snd (fun b x hb => ?_) _ ?_
  · extract_lets x7
    clear_value x7
    split
    · rename_i t13 e13
      have ht13 : Upd [.regs, .out, .host, .stackCtl, .frames, .attic, .cox, .gallery] s t13 := Upd.of_pair e13 <|
        Upd.after readBytes_upd rfl <| by with_reducible assumption
      exact by with_reducible assumption
    · rename_i t12 e12
      have ht12 : Upd [.regs, .out, .host, .stackCtl, .frames, .attic, .cox, .gallery] s t12 := Upd.of_pair e12 <|
        Upd.after readBytes_upd rfl <| by with_reducible assumption
      exact by with_reducible assumption
  · exact .refl

theorem chainDecide_upd {s : State} {p : ChainPkt} :
    Upd [.regs, .out, .seq, .host, .loader, .chain, .g2, .selfTest, .cox] s (State.chainDecide s p) := by
  unfold State.chainDecide
  extract_lets x3
  have hx3 : Upd [.regs, .out, .seq, .host, .loader, .chain, .g2, .selfTest, .cox] s x3 := Upd.after modChain_upd
    rfl .refl
  clear_value x3
  split
  · exact Upd.ite (Upd.after loadFail_upd rfl <| by with_reducible assumption) (by with_reducible assumption)
  · extract_lets x10
    clear_value x10
    exact Upd.after modChain_upd rfl .refl

theorem chainNoImage_upd {s : State} {last : Bool} :
    Upd [.regs, .out, .seq, .host, .loader, .g2, .selfTest, .cox] s (State.chainNoImage s last) := by
  unfold State.chainNoImage
  exact Upd.ite (Upd.after loadFail_upd rfl .refl) (Upd.after chainShort_upd rfl .refl)

theorem chainTake_upd {s : State} {p : ChainPkt} :
    Upd [.regs, .out, .draws, .seq, .security, .host, .mem, .bad, .stackCtl, .frames, .alloc, .attic, .loader,
      .chain, .g2, .selfTest, .cox, .hatches, .gallery, .course] s (State.chainTake s p) := by
  unfold State.chainTake
  extract_lets x12 x13 x14 x15 x16 x17 x18 x19 x20 x21
  have hx12 : Upd [.regs, .out, .draws, .seq, .security, .host, .mem, .bad, .stackCtl, .frames, .alloc, .attic,
    .loader, .chain, .g2, .selfTest, .cox, .hatches, .gallery, .course] s x12 := Upd.after modChain_upd rfl .refl
  clear_value x12
  have hx13 : Upd [.regs, .out, .draws, .seq, .security, .host, .mem, .bad, .stackCtl, .frames, .alloc, .attic,
    .loader, .chain, .g2, .selfTest, .cox, .hatches, .gallery, .course] s x13 := Upd.ite (Upd.after chainDecide_upd
    rfl <| Upd.after chainShort_upd rfl <| by with_reducible assumption) (by with_reducible assumption)
  clear_value x13
  clear_value x14
  have hx15 : Upd [.regs, .out, .draws, .seq, .security, .host, .mem, .bad, .stackCtl, .frames, .alloc, .attic,
    .loader, .chain, .g2, .selfTest, .cox, .hatches, .gallery, .course] s x15 := Upd.ite (Upd.after modChain_upd rfl
    <| by with_reducible assumption) (by with_reducible assumption)
  clear_value x15
  have hx16 : Upd [.regs, .out, .draws, .seq, .security, .host, .mem, .bad, .stackCtl, .frames, .alloc, .attic,
    .loader, .chain, .g2, .selfTest, .cox, .hatches, .gallery, .course] s x16 := Upd.ite (Upd.after modLoad_upd rfl <|
    by with_reducible assumption) (by with_reducible assumption)
  clear_value x16
  clear_value x17
  clear_value x18
  have hx19 : Upd [.regs, .out, .draws, .seq, .security, .host, .mem, .bad, .stackCtl, .frames, .alloc, .attic,
    .loader, .chain, .g2, .selfTest, .cox, .hatches, .gallery, .course] s x19 := Upd.ite (Upd.ite (Upd.after bump_upd
    rfl <| Upd.after modChain_upd rfl <| by with_reducible assumption) (by with_reducible assumption)) (Upd.ite (by
    with_reducible assumption) (Upd.ite (Upd.after modChain_upd rfl <| by with_reducible assumption) (Upd.ite
    (Upd.after modChain_upd rfl <| by with_reducible assumption) (by with_reducible assumption))))
  clear_value x19
  have hx20 : Upd [.regs, .out, .draws, .seq, .security, .host, .mem, .bad, .stackCtl, .frames, .alloc, .attic,
    .loader, .chain, .g2, .selfTest, .cox, .hatches, .gallery, .course] s x20 := Upd.ite (Upd.after chainClose_upd rfl
    <| by with_reducible assumption) (by with_reducible assumption)
  clear_value x20
  have hx21 : Upd [.regs, .out, .draws, .seq, .security, .host, .mem, .bad, .stackCtl, .frames, .alloc, .attic,
    .loader, .chain, .g2, .selfTest, .cox, .hatches, .gallery, .course] s x21 := Upd.ite (Upd.after chainNoImage_upd
    rfl <| by with_reducible assumption) (by with_reducible assumption)
  clear_value x21
  exact Upd.after settleLoad_upd rfl <| Upd.after chainPump_upd rfl <| by with_reducible assumption

theorem chainPacket_upd {s : State} {p : ChainPkt} :
    Upd [.regs, .out, .draws, .seq, .security, .host, .mem, .bad, .stackCtl, .frames, .alloc, .attic, .loader,
      .chain, .g2, .selfTest, .cox, .hatches, .gallery, .course] s (State.chainPacket s p) := by
  unfold State.chainPacket
  refine Upd.ite ?_ ?_
  · exact .refl
  · extract_lets
    split
    · exact .refl
    · extract_lets x13 x14 x15 x16 x17
      have hx13 : Upd [.regs, .out, .draws, .seq, .security, .host, .mem, .bad, .stackCtl, .frames, .alloc, .attic,
        .loader, .chain, .g2, .selfTest, .cox, .hatches, .gallery, .course] s x13.2 := Upd.after chainWords_upd rfl
        .refl
      clear_value x13
      clear_value x14
      clear_value x15
      have hx16 : Upd [.regs, .out, .draws, .seq, .security, .host, .mem, .bad, .stackCtl, .frames, .alloc, .attic,
        .loader, .chain, .g2, .selfTest, .cox, .hatches, .gallery, .course] s x16 := Upd.after modHatch_upd rfl <| by
        with_reducible assumption
      clear_value x16
      have hx17 : Upd [.regs, .out, .draws, .seq, .security, .host, .mem, .bad, .stackCtl, .frames, .alloc, .attic,
        .loader, .chain, .g2, .selfTest, .cox, .hatches, .gallery, .course] s x17 := Upd.ite (Upd.after loadFail_upd
        rfl <| by with_reducible assumption) (by with_reducible assumption)
      clear_value x17
      refine Upd.ite ?_ ?_
      · exact .refl
      · split
        · exact Upd.ite (Upd.after bump_upd rfl <| by with_reducible assumption) (Upd.after chainTake_upd rfl <|
            by with_reducible assumption)
        · exact Upd.after chainTake_upd rfl <| by with_reducible assumption

theorem gsrRoom_upd {s : State} {r : Nat} :
    Upd [.fabric, .sigs, .blocks, .lines] s (State.gsrRoom s r) := by
  unfold State.gsrRoom
  exact Upd.after setLive_upd rfl <| Upd.after clearWires_upd rfl .refl

theorem gsrStep_upd {s : State} :
    Upd [.regs, .seq, .fabric, .sigs, .blocks, .lines, .loader] s (State.gsrStep s) := by
  unfold State.gsrStep
  extract_lets x2
  have hx2 : Upd [.regs, .seq, .fabric, .sigs, .blocks, .lines, .loader] s x2 := Upd.foldl (fun t x ht => Upd.after
    gsrRoom_upd rfl <| by with_reducible assumption) _ .refl
  clear_value x2
  exact Upd.ite (Upd.after stepEnd_upd rfl <| Upd.after modSeq_upd rfl <| by with_reducible assumption) .refl

theorem ioStep_upd {s : State} :
    Upd [.regs, .pins, .loader] s (State.ioStep s) := by
  unfold State.ioStep
  extract_lets x2
  clear_value x2
  refine Upd.ite ?_ ?_
  · refine Upd.after stepEnd_upd rfl <| Upd.pins ?_ rfl
    exact .refl
  · exact .refl

theorem recEnd_upd {s : State} {ok : Bool} :
    Upd [.regs, .out, .host, .attic, .recClear, .cox] s (State.recEnd s ok) := by
  unfold State.recEnd
  extract_lets x4 x5
  have hx4 : Upd [.regs, .out, .host, .attic, .recClear, .cox] s x4 := by
    unfold x4
    refine Upd.recClear ?_ rfl
    exact .refl
  clear_value x4
  clear_value x5
  split
  · exact .refl
  · extract_lets x11
    have hx11 : Upd [.regs, .out, .host, .attic, .recClear, .cox] s x11 := by
      unfold x11
      refine Upd.attic ?_ rfl
      exact by with_reducible assumption
    clear_value x11
    exact Upd.ite (Upd.after raise_upd rfl <| Upd.after wrs_upd rfl <| by with_reducible assumption) (Upd.after
      raise_upd rfl <| Upd.after wrs_upd rfl <| by with_reducible assumption)

theorem runEntry_upd {s : State} :
    Upd (Part.allBut [.pending, .held, .fuses, .straps, .cellar, .cross, .pins, .heatCopy, .prog, .recClear,
      .chunk]) s (State.runEntry s) := by
  unfold State.runEntry
  extract_lets x3 x4
  clear_value x3
  have hx4 : Upd (Part.allBut [.pending, .held, .fuses, .straps, .cellar, .cross, .pins, .heatCopy, .prog,
    .recClear, .chunk]) s x4 := Upd.after wr_upd rfl .refl
  clear_value x4
  exact Upd.ite (Upd.ite (Upd.after begin_upd rfl <| Upd.after g2Reserve_upd rfl <| by with_reducible assumption)
    (Upd.after begin_upd rfl <| by with_reducible assumption)) .refl

theorem lockLate_upd {s : State} :
    Upd [.regs, .out, .seq, .loader, .g2, .selfTest] s (State.lockLate s) := by
  unfold State.lockLate
  exact Upd.ite (Upd.after haltBoth_upd rfl <| Upd.after wr_upd rfl <| Upd.after loadErr_upd rfl .refl) .refl

theorem dmaEnd_upd {s : State} {ok : Bool} {bs : List Byte} :
    Upd [.regs, .out, .seq, .host, .loader, .g2, .selfTest, .cox] s (State.dmaEnd s ok bs) := by
  unfold State.dmaEnd
  extract_lets x4
  have hx4 : Upd [.regs, .out, .seq, .host, .loader, .g2, .selfTest, .cox] s x4 := Upd.ite (Upd.after modLoad_upd
    rfl .refl) .refl
  clear_value x4
  exact Upd.ite .refl (Upd.ite (Upd.after loadFail_upd rfl <| Upd.after wr_upd rfl .refl) (Upd.ite .refl (Upd.after
    raise_upd rfl <| Upd.after wr_upd rfl <| by with_reducible assumption)))

theorem chainStalled_upd {s : State} :
    Upd [.regs, .out, .seq, .host, .loader, .chain, .g2, .selfTest, .cox] s (State.chainStalled s) := by
  unfold State.chainStalled
  exact Upd.ite .refl (Upd.after settleLoad_upd rfl <| Upd.after modChain_upd rfl .refl)

theorem mapWait_upd {s : State} :
    Upd [.regs, .out, .course] s (State.mapWait s) := by
  unfold State.mapWait
  exact Upd.ite (Upd.after enumerate_upd rfl .refl) .refl

theorem crsReq_upd {s : State} {op : Nat} :
    Upd [.regs, .out, .host, .cox, .course] s (State.crsReq s op) := by
  unfold State.crsReq
  exact Upd.ite .refl (Upd.ite (Upd.after broadcast_upd rfl <| Upd.after modCourse_upd rfl <| Upd.after wr_upd rfl
    .refl) (Upd.ite (Upd.after openPorts_upd rfl <| Upd.after modCourse_upd rfl <| Upd.after wr_upd rfl .refl)
    (Upd.after crsReqEnd_upd rfl .refl)))

theorem crsReqBy_upd {s : State} {m : Master} {op : Nat} :
    Upd (Part.allBut [.pending, .held, .fuses, .straps, .cellar, .lines, .ids, .heatCopy, .stamps, .alloc, .prog,
      .recClear, .chunk, .loader, .chain, .selfTest]) s (State.crsReqBy s m op) := by
  unfold State.crsReqBy
  refine goTo_hupd rfl ?_ ?_ ?_
  · intro u z1
    exact Upd.after wr_upd rfl <| by with_reducible assumption
  · intro u z1
    exact Upd.after crsReq_upd rfl <| by with_reducible assumption
  · exact .refl

theorem nakIn_upd {s : State} {w : Bool} {ack : Nat} :
    Upd [.regs, .out, .course] s (State.nakIn s w ack) := by
  unfold State.nakIn
  extract_lets x7 x8 x9 x10
  have hx7 : Upd [.regs, .out, .course] s x7 := Upd.after bump_upd rfl .refl
  clear_value x7
  clear_value x8
  clear_value x9
  have hx10 : Upd [.regs, .out, .course] s x10 := Upd.after modLink_upd rfl <| by with_reducible assumption
  clear_value x10
  exact Upd.ite .refl (Upd.ite (Upd.after linkTrain_upd rfl <| by with_reducible assumption) (Upd.foldl (fun t x ht
    => Upd.after emit_upd rfl <| by with_reducible assumption) _ (by with_reducible assumption)))

theorem flitIn_upd {s : State} {w : Bool} {f : Flit} :
    Upd [.regs, .out, .course] s (State.flitIn s w f) := by
  unfold State.flitIn
  extract_lets x5 x6
  have hx5 : Upd [.regs, .out, .course] s x5 := Upd.after modLink_upd rfl .refl
  clear_value x5
  have hx6 : Upd [.regs, .out, .course] s x6 := Upd.after pumpAll_upd rfl <| by with_reducible assumption
  clear_value x6
  exact Upd.ite .refl (Upd.ite (Upd.after sendFlit_upd rfl .refl) (Upd.ite (Upd.after nakIn_upd rfl <| by
    with_reducible assumption) (Upd.ite (Upd.after sendIdle_upd rfl <| by with_reducible assumption) (by
    with_reducible assumption))))

theorem breakIn_upd {s : State} {pos : Nat} :
    Upd [.regs, .out, .host, .cox, .course] s (State.breakIn s pos) := by
  unfold State.breakIn
  exact Upd.ite (Upd.after setDown_upd rfl .refl) .refl

theorem replyIn_upd {s : State} {g : Segment} {typ : Nat} :
    Upd [.regs, .out, .draws, .seq, .security, .host, .mem, .bad, .stackCtl, .frames, .alloc, .attic, .loader,
      .chain, .g2, .selfTest, .cox, .hatches, .gallery, .course] s (State.replyIn s g typ) := by
  unfold State.replyIn
  extract_lets x6 x7 x8
  clear_value x6
  have hx7 : Upd [.regs, .out, .draws, .seq, .security, .host, .mem, .bad, .stackCtl, .frames, .alloc, .attic,
    .loader, .chain, .g2, .selfTest, .cox, .hatches, .gallery, .course] s x7 := Upd.after onReply_upd rfl .refl
  clear_value x7
  have hx8 : Upd [.regs, .out, .draws, .seq, .security, .host, .mem, .bad, .stackCtl, .frames, .alloc, .attic,
    .loader, .chain, .g2, .selfTest, .cox, .hatches, .gallery, .course] s x8 := Upd.ite (Upd.after chainAccepted_upd
    rfl <| by with_reducible assumption) (Upd.ite (Upd.after chainRefused_upd rfl <| by with_reducible assumption) (by
    with_reducible assumption))
  clear_value x8
  exact Upd.ite .refl (Upd.after settleLoad_upd rfl <| by with_reducible assumption)

theorem enumLate_upd {s : State} :
    Upd [.regs, .out, .host, .cox, .course] s (State.enumLate s) := by
  unfold State.enumLate
  exact Upd.ite .refl (Upd.after pgErr_upd rfl <| Upd.after modCourse_upd rfl <| Upd.after clearRing_upd rfl .refl)

theorem laneEnd_upd {s : State} {w ok : Bool} :
    Upd (Part.allBut [.pending, .held, .fuses, .straps, .cellar, .cross, .pins, .heatCopy, .prog, .recClear,
      .chunk]) s (State.laneEnd s w ok) := by
  unfold State.laneEnd
  exact Upd.ite (Upd.after unhold_upd rfl <| Upd.after wrs_upd rfl <| Upd.after modCourse_upd rfl .refl) .refl

theorem linkLost_upd {s : State} {w : Bool} :
    Upd [.regs] s (State.linkLost s w) := by
  unfold State.linkLost
  exact Upd.ite (Upd.after linkTrain_upd rfl .refl) .refl

theorem outFails_upd {s : State} {m : OutMsg} {code : Nat} :
    Upd [.regs, .out, .host, .chain, .cox, .course] s (State.outFails s m code) := by
  unfold State.outFails
  exact Upd.after chainRefused_upd rfl <| Upd.after crsFail_upd rfl <| Upd.after dropOut_upd rfl .refl

theorem resend_upd {s : State} {tag : Nat} :
    Upd [.regs, .out, .security, .host, .mem, .bad, .stackCtl, .frames, .attic, .chain, .cox, .hatches, .gallery,
      .course] s (State.resend s tag) := by
  unfold State.resend
  split
  · exact .refl
  · split
    · exact Upd.after outFails_upd rfl .refl
    · extract_lets x13
      clear_value x13
      exact Upd.after emitMsg_upd rfl <| Upd.after modCourse_upd rfl .refl

theorem linkTrained_upd {s : State} {w : Bool} {lanes serial : Nat} :
    Upd (Part.allBut [.pending, .held, .fuses, .straps, .cellar, .cross, .pins, .heatCopy, .prog, .recClear,
      .chunk]) s (State.linkTrained s w lanes serial) := by
  unfold State.linkTrained
  extract_lets x7 x8 x9
  clear_value x7
  have hx8 : Upd (Part.allBut [.pending, .held, .fuses, .straps, .cellar, .cross, .pins, .heatCopy, .prog,
    .recClear, .chunk]) s x8 := Upd.after linkUp_upd rfl .refl
  clear_value x8
  have hx9 : Upd (Part.allBut [.pending, .held, .fuses, .straps, .cellar, .cross, .pins, .heatCopy, .prog,
    .recClear, .chunk]) s x9 := Upd.after laneEnd_upd rfl <| by with_reducible assumption
  clear_value x9
  exact Upd.ite (Upd.after chainStart_upd rfl <| Upd.ite (Upd.after openChain_upd rfl <| by with_reducible
    assumption) (by with_reducible assumption)) (by with_reducible assumption)

theorem linkIsDown_upd {s : State} {w : Bool} :
    Upd [.regs, .out, .host, .cox, .course] s (State.linkIsDown s w) := by
  unfold State.linkIsDown
  extract_lets x3
  have hx3 : Upd [.regs, .out, .host, .cox, .course] s x3 := Upd.after setLink_upd rfl .refl
  clear_value x3
  exact Upd.ite .refl (Upd.ite (Upd.after setDown_upd rfl <| Upd.after sendCtl_upd rfl <| by with_reducible
    assumption) (by with_reducible assumption))

theorem unbuffer_upd {s : State} {g : Segment} :
    Upd [.out, .course] s (State.unbuffer s g) := by
  unfold State.unbuffer
  exact Upd.after freeBuffers_upd rfl .refl

theorem forward_upd {s : State} {g : Segment} {res : Nat} :
    Upd [.regs, .out, .course] s (State.forward s g res) := by
  unfold State.forward
  extract_lets x5 x6
  clear_value x5
  clear_value x6
  exact Upd.ite .refl (Upd.ite (Upd.after unbuffer_upd rfl <| Upd.after bump_upd rfl .refl) (Upd.ite (Upd.after
    unbuffer_upd rfl <| Upd.after bump_upd rfl .refl) (Upd.ite (Upd.after unbuffer_upd rfl <| Upd.after bump_upd rfl
    .refl) (Upd.after putSeg_upd rfl .refl))))

theorem mapped_upd {s : State} :
    Upd [.regs, .out, .draws, .seq, .security, .host, .mem, .bad, .stackCtl, .frames, .alloc, .attic, .loader,
      .chain, .g2, .selfTest, .cox, .hatches, .gallery, .course] s (State.mapped s) := by
  unfold State.mapped
  exact Upd.after settleLoad_upd rfl <| Upd.after chainStart_upd rfl <| Upd.ite (Upd.after openChain_upd rfl .refl)
    .refl

theorem beacon_upd {s : State} :
    Upd [.regs, .out, .host, .cox, .course] s (State.beacon s) := by
  unfold State.beacon
  extract_lets x2
  have hx2 : Upd [.regs, .out, .host, .cox, .course] s x2 := Upd.ite .refl (Upd.after becomeBow_upd rfl .refl)
  clear_value x2
  exact Upd.ite (Upd.after broadcast_upd rfl <| by with_reducible assumption) .refl

theorem segmentIn_upd {s : State} {g : Segment} :
    Upd (Part.allBut [.pending, .held, .fuses, .straps, .cellar, .lines, .ids, .heatCopy, .stamps, .alloc, .prog,
      .recClear, .chunk, .loader, .chain, .selfTest]) s (State.segmentIn s g) := by
  unfold State.segmentIn
  extract_lets x3
  have hx3 : Upd (Part.allBut [.pending, .held, .fuses, .straps, .cellar, .lines, .ids, .heatCopy, .stamps, .alloc,
    .prog, .recClear, .chunk, .loader, .chain, .selfTest]) s x3 := Upd.after arriveAny_upd rfl <| Upd.after
    unbuffer_upd rfl .refl
  clear_value x3
  exact Upd.ite .refl (Upd.ite (Upd.after unbuffer_upd rfl <| Upd.after bump_upd rfl .refl) (Upd.ite (Upd.after
    wakeSource_upd rfl <| by with_reducible assumption) (by with_reducible assumption)))

theorem presentAgain_upd {s : State} {src tag : Nat} :
    Upd [.regs, .out, .security, .host, .mem, .bad, .stackCtl, .frames, .attic, .cox, .hatches, .gallery, .course] s
      (State.presentAgain s src tag) := by
  unfold State.presentAgain
  split
  · exact .refl
  · exact Upd.ite .refl (Upd.ite (Upd.after reply_upd rfl <| Upd.after dropIn_upd rfl .refl) (Upd.ite (Upd.after
      present_upd rfl .refl) .refl))

theorem enumAgain_upd {s : State} :
    Upd [.regs, .out, .course] s (State.enumAgain s) := by
  unfold State.enumAgain
  exact Upd.ite (Upd.after enumerate_upd rfl .refl) .refl

theorem ingressAged_upd {s : State} {src tag : Nat} :
    Upd [.regs, .out, .host, .cox, .course] s (State.ingressAged s src tag) := by
  unfold State.ingressAged
  extract_lets x4
  have hx4 : Upd [.regs, .out, .host, .cox, .course] s x4 := Upd.after dropIn_upd rfl .refl
  clear_value x4
  split
  · exact .refl
  · exact Upd.ite (Upd.after reply_upd rfl <| by with_reducible assumption) (by with_reducible assumption)

theorem drain_upd {s : State} {w : Bool} :
    Upd [.out, .course] s (State.drain s w) := by
  unfold State.drain
  exact Upd.after pump_upd rfl .refl

theorem trainRetry_upd {s : State} {w : Bool} :
    Upd [.regs] s (State.trainRetry s w) := by
  unfold State.trainRetry
  exact Upd.ite (Upd.after bump_upd rfl .refl) .refl

theorem leaveEnd_upd {s : State} :
    Upd [.regs, .out, .host, .chain, .cox, .course] s (State.leaveEnd s) := by
  unfold State.leaveEnd
  extract_lets x6 x7 x8 x9 x10
  have hx6 : Upd [.regs, .out, .host, .chain, .cox, .course] s x6 := Upd.foldl (fun t x ht => Upd.after outFails_upd
    rfl <| by with_reducible assumption) _ .refl
  clear_value x6
  have hx7 : Upd [.regs, .out, .host, .chain, .cox, .course] s x7 := Upd.after drain_upd rfl <| Upd.after drain_upd
    rfl <| by with_reducible assumption
  clear_value x7
  clear_value x8
  clear_value x9
  have hx10 : Upd [.regs, .out, .host, .chain, .cox, .course] s x10 := Upd.after modCourse_upd rfl <| by
    with_reducible assumption
  clear_value x10
  exact Upd.ite .refl (Upd.after crsReqEnd_upd rfl <| Upd.after wr_upd rfl <| Upd.after closePorts_upd rfl <| by
    with_reducible assumption)

theorem healIn_upd {s : State} {pos : Nat} :
    Upd [.regs, .out, .host, .cox, .course] s (State.healIn s pos) := by
  unfold State.healIn
  exact Upd.ite (Upd.after setDown_upd rfl .refl) .refl

theorem retrainFail_upd {s : State} {w : Bool} {now : Nat} :
    Upd (Part.allBut [.pending, .held, .fuses, .straps, .cellar, .cross, .pins, .heatCopy, .prog, .recClear,
      .chunk]) s (State.retrainFail s w now) := by
  unfold State.retrainFail
  extract_lets x7 x8 x9 x10
  clear_value x7
  clear_value x8
  have hx9 : Upd (Part.allBut [.pending, .held, .fuses, .straps, .cellar, .cross, .pins, .heatCopy, .prog,
    .recClear, .chunk]) s x9 := Upd.after modLink_upd rfl .refl
  clear_value x9
  have hx10 : Upd (Part.allBut [.pending, .held, .fuses, .straps, .cellar, .cross, .pins, .heatCopy, .prog,
    .recClear, .chunk]) s x10 := Upd.ite (by with_reducible assumption) (Upd.after bump_upd rfl <| by with_reducible
    assumption)
  clear_value x10
  exact Upd.ite .refl (Upd.after laneEnd_upd rfl <| by with_reducible assumption)

theorem outExpires_upd {s : State} {tag : Nat} :
    Upd [.regs, .out, .host, .chain, .cox, .course] s (State.outExpires s tag) := by
  unfold State.outExpires
  split
  · exact .refl
  · exact Upd.after outFails_upd rfl .refl

theorem portWrite_upd {s : State} {n v : Nat} :
    Upd [.regs, .out, .draws, .g2] s (State.portWrite s n v) := by
  unfold State.portWrite
  extract_lets x6 x7 x8
  clear_value x6
  have hx7 : Upd [.regs, .out, .draws, .g2] s x7 := Upd.after g2PortWake_upd rfl .refl
  clear_value x7
  have hx8 : Upd [.regs, .out, .draws, .g2] s x8 := Upd.ite (Upd.after g2GatedAcc_upd rfl <| by with_reducible
    assumption) (Upd.after g2Write_upd rfl <| by with_reducible assumption)
  clear_value x8
  exact Upd.ite (Upd.after emit_upd rfl <| by with_reducible assumption) .refl

theorem regWrite_upd {s : State} {m : Master} {n v : Nat} :
    Upd (Part.allBut [.pending, .held, .fuses, .straps, .cellar, .lines, .ids, .heatCopy, .stamps, .alloc, .prog,
      .recClear, .chunk, .loader, .chain, .selfTest, .course]) s (State.regWrite s m n v) := by
  unfold State.regWrite
  refine toPage_hupd rfl ?_ ?_
  · intro u z1
    exact Upd.after g2Write_upd rfl <| by with_reducible assumption
  · exact .refl

theorem powerWrite_upd {s : State} {m : Option Master} {v : Nat} :
    Upd (Part.allBut [.pending, .held, .fuses, .straps, .cellar, .lines, .ids, .heatCopy, .stamps, .alloc, .prog,
      .recClear, .chunk, .loader, .chain, .selfTest, .course]) s (State.powerWrite s m v) := by
  unfold State.powerWrite
  split
  · exact Upd.after portWrite_upd rfl .refl
  · exact Upd.after regWrite_upd rfl .refl

theorem userWrite_upd {s : State} {n v : Nat} :
    Upd [.regs] s (State.userWrite s n v) := by
  unfold State.userWrite
  exact Upd.ite (Upd.after g2Put_upd rfl .refl) .refl

theorem g2With_upd {s : State} {also : List G2Also} :
    Upd (Part.allBut [.pending, .held, .fuses, .straps, .cellar, .lines, .ids, .heatCopy, .stamps, .alloc, .prog,
      .recClear, .chunk, .loader, .chain, .selfTest, .course]) s (State.g2With s also) := by
  unfold State.g2With
  extract_lets x3
  have hx3 : Upd (Part.allBut [.pending, .held, .fuses, .straps, .cellar, .lines, .ids, .heatCopy, .stamps, .alloc,
    .prog, .recClear, .chunk, .loader, .chain, .selfTest, .course]) s x3 := by
    unfold x3
    refine Upd.foldl (fun t x ht => ?_) _ ?_
    · split
      · exact Upd.after regWrite_upd rfl <| by with_reducible assumption
      · exact by with_reducible assumption
    · exact .refl
  clear_value x3
  refine Upd.foldl (fun t x ht => ?_) _ ?_
  · split
    · exact by with_reducible assumption
    · exact Upd.after userWrite_upd rfl <| by with_reducible assumption
  · exact by with_reducible assumption

theorem portRead_upd {s : State} {n : Nat} :
    Upd [.regs, .out, .draws] s (State.portRead s n) := by
  unfold State.portRead
  extract_lets x4 x5
  have hx4 : Upd [.regs, .out, .draws] s x4.2 := Upd.after g2Read_upd rfl .refl
  clear_value x4
  have hx5 : Upd [.regs, .out, .draws] s x5 := Upd.after g2PortWake_upd rfl <| by with_reducible assumption
  clear_value x5
  exact Upd.ite (Upd.after emit_upd rfl <| by with_reducible assumption) .refl

theorem modTest_upd {s : State} {h : Half} {f : SelfTest → SelfTest} :
    Upd [.selfTest] s (State.modTest s h f) := by
  unfold State.modTest
  refine Upd.selfTest ?_ rfl
  exact .refl

theorem scrubPass_upd {s : State} {h : Half} {lastMs : Nat} :
    Upd [.regs, .selfTest] s (State.scrubPass s h lastMs) := by
  unfold State.scrubPass
  extract_lets x4
  have hx4 : Upd [.regs, .selfTest] s x4 := Upd.after modTest_upd rfl .refl
  clear_value x4
  exact Upd.ite (by with_reducible assumption) (Upd.after wr_upd rfl <| Upd.after step1_upd rfl <| by with_reducible
    assumption)

theorem upkeepGo_hupd {K s t m p g argF arg op} (hk : Part.sub (Part.allBut [.pending, .held, .fuses, .straps, .cellar, .lines, .ids, .heatCopy, .stamps, .alloc, .prog, .recClear, .chunk, .loader, .chain, .selfTest, .course]) K = true)
    (hf : ∀ u, Upd K s u → Upd K s (op u)) (h : Upd K s t) : Upd K s (State.upkeepGo t m p g argF arg op) := by
  unfold State.upkeepGo
  have hr : Part.sub [.regs] K = true :=
    Part.sub_trans (K := [.regs]) rfl hk
  exact goTo_hupd hk (fun u hu => Upd.after wr_upd hr hu)
    (fun u hu => Upd.ite hu (hf _ (Upd.after goBusy_upd hr hu))) h

theorem coxImage_upd {s : State} {h : Half} :
    Upd [.regs, .out, .host, .stackCtl, .frames, .attic, .cox, .gallery] s (State.coxImage s h).2 := by
  unfold State.coxImage
  extract_lets x3
  clear_value x3
  split
  · rename_i t9 e9
    have ht9 : Upd [.regs, .out, .host, .stackCtl, .frames, .attic, .cox, .gallery] s t9 := Upd.of_pair e9 <|
      Upd.after readMem_upd rfl .refl
    exact by with_reducible assumption
  · rename_i t9 e9
    have ht9 : Upd [.regs, .out, .host, .stackCtl, .frames, .attic, .cox, .gallery] s t9 := Upd.of_pair e9 <|
      Upd.after readMem_upd rfl .refl
    extract_lets x12 x13
    clear_value x12
    clear_value x13
    exact by with_reducible assumption

theorem clearPage_upd {s : State} {p : Nat} {kept : List Nat} :
    Upd [.regs, .held] s (State.clearPage s p kept) := by
  unfold State.clearPage
  exact Upd.regs_held .refl rfl (fun c => ⟨c.mem, c.fabric, c.regs_filter _, c.crews, c.hatches⟩)

theorem coxGroup_upd {s : State} {h : Half} {kept : List Nat} :
    Upd [.regs, .held, .out, .host, .cox] s (State.coxGroup s h kept) := by
  unfold State.coxGroup
  extract_lets x5 x6
  clear_value x5
  have hx6 : Upd [.regs, .held, .out, .host, .cox] s x6 := Upd.after clearPage_upd rfl <| Upd.after mbClose_upd rfl
    .refl
  clear_value x6
  exact Upd.foldl (fun t x ht => Upd.after clearPage_upd rfl <| by with_reducible assumption) _ (by with_reducible
    assumption)

theorem holdMoves_upd {s : State} {src dst : Half} :
    Upd [.regs] s (State.holdMoves s src dst) := by
  unfold State.holdMoves
  exact Upd.after bump_upd rfl <| Upd.after wr_upd rfl .refl

theorem handOver_upd {s : State} :
    Upd [.regs, .out] s (State.handOver s) := by
  unfold State.handOver
  extract_lets x7 x8 x9 x10 x11 x12
  clear_value x7
  clear_value x8
  have hx9 : ∀ a0 a1, Upd [.regs, .out] s a0 → Upd [.regs, .out] s (x9 a0 a1) := by
    intros
    exact Upd.after wr_upd rfl <| Upd.after step1_upd rfl <| by with_reducible assumption
  clear_value x9
  have hx10 : Upd [.regs, .out] s x10 := hx9 _ _ <| hx9 _ _ <| Upd.after emit_upd rfl .refl
  clear_value x10
  have hx11 : Upd [.regs, .out] s x11 := Upd.after wr_upd rfl <| Upd.after wr_upd rfl <| by with_reducible assumption
  clear_value x11
  have hx12 : Upd [.regs, .out] s x12 := Upd.ite (Upd.after holdMoves_upd rfl <| by with_reducible assumption) (by
    with_reducible assumption)
  clear_value x12
  exact Upd.ite (Upd.after holdMoves_upd rfl <| by with_reducible assumption) (by with_reducible assumption)

theorem coxStart_upd {s : State} {h : Half} {arg : Nat} {image : List Byte} :
    Upd (Part.allBut [.pending, .fuses, .straps, .cellar, .cross, .pins, .heatCopy, .prog, .recClear, .chunk]) s
      (State.coxStart s h arg image) := by
  unfold State.coxStart
  extract_lets x9 x10 x11 x12 x13
  have hx9 : Upd (Part.allBut [.pending, .fuses, .straps, .cellar, .cross, .pins, .heatCopy, .prog, .recClear,
    .chunk]) s x9 := Upd.after hold_upd rfl .refl
  clear_value x9
  clear_value x10
  have hx11 : Upd (Part.allBut [.pending, .fuses, .straps, .cellar, .cross, .pins, .heatCopy, .prog, .recClear,
    .chunk]) s x11 := Upd.after coxGroup_upd rfl <| Upd.ite (Upd.after handOver_upd rfl <| by with_reducible
    assumption) (by with_reducible assumption)
  clear_value x11
  clear_value x12
  clear_value x13
  refine Upd.security_cox ?_ rfl
  exact by with_reducible assumption

theorem coxGo_upd {s : State} {m : Master} {h : Half} {arg : Nat} :
    Upd (Part.allBut [.pending, .fuses, .straps, .cellar, .cross, .pins, .heatCopy, .prog, .recClear, .chunk]) s
      (State.coxGo s m h arg) := by
  unfold State.coxGo
  extract_lets x5
  clear_value x5
  refine Upd.ite ?_ ?_
  · exact Upd.after goRefused_upd rfl .refl
  · refine Upd.ite ?_ ?_
    · exact Upd.after goRefused_upd rfl .refl
    · refine Upd.ite ?_ ?_
      · exact Upd.after goRefused_upd rfl .refl
      · refine Upd.ite ?_ ?_
        · exact Upd.after goRefused_upd rfl .refl
        · refine Upd.ite ?_ ?_
          · split
            · rename_i t10 e10
              have ht10 : Upd (Part.allBut [.pending, .fuses, .straps, .cellar, .cross, .pins, .heatCopy, .prog,
                .recClear, .chunk]) s t10 := Upd.of_pair e10 <| Upd.after coxImage_upd rfl .refl
              exact Upd.after goRefused_upd rfl <| by with_reducible assumption
            · rename_i t11 e11
              have ht11 : Upd (Part.allBut [.pending, .fuses, .straps, .cellar, .cross, .pins, .heatCopy, .prog,
                .recClear, .chunk]) s t11 := Upd.of_pair e11 <| Upd.after coxImage_upd rfl .refl
              exact Upd.after coxStart_upd rfl <| by with_reducible assumption
          · exact Upd.after coxStart_upd rfl .refl

theorem coxUpd_upd {s : State} {m : Master} {h : Half} {arg : Nat} :
    Upd (Part.allBut [.pending, .fuses, .straps, .cellar, .heatCopy, .prog, .recClear, .chunk]) s (State.coxUpd s m
      h arg) := by
  unfold State.coxUpd
  refine upkeepGo_hupd rfl ?_ ?_
  · intro u z1
    exact Upd.after coxGo_upd rfl <| by with_reducible assumption
  · exact .refl

theorem reeqGo_upd {s : State} {arg : Nat} :
    Upd (Part.allBut [.pending, .held, .fuses, .straps, .cellar, .cross, .pins, .heatCopy, .prog, .recClear,
      .chunk]) s (State.reeqGo s arg) := by
  unfold State.reeqGo
  exact Upd.ite (Upd.after goRefused_upd rfl .refl) (Upd.ite (Upd.after goRefused_upd rfl .refl) (Upd.after
    modHost_upd rfl <| Upd.after hold_upd rfl .refl))

theorem reeqReq_upd {s : State} {m : Master} {arg : Nat} :
    Upd (Part.allBut [.pending, .held, .fuses, .straps, .cellar, .heatCopy, .prog, .recClear, .chunk]) s
      (State.reeqReq s m arg) := by
  unfold State.reeqReq
  refine upkeepGo_hupd rfl ?_ ?_
  · intro u z1
    exact Upd.after reeqGo_upd rfl <| by with_reducible assumption
  · exact .refl

theorem laneGo_upd {s : State} {arg : Nat} :
    Upd (Part.allBut [.pending, .held, .fuses, .straps, .cellar, .cross, .pins, .heatCopy, .prog, .recClear,
      .chunk]) s (State.laneGo s arg) := by
  unfold State.laneGo
  extract_lets x5 x6 x7
  clear_value x5
  have hx6 : Upd (Part.allBut [.pending, .held, .fuses, .straps, .cellar, .cross, .pins, .heatCopy, .prog,
    .recClear, .chunk]) s x6 := Upd.after modCourse_upd rfl <| Upd.after hold_upd rfl .refl
  clear_value x6
  have hx7 : Upd (Part.allBut [.pending, .held, .fuses, .straps, .cellar, .cross, .pins, .heatCopy, .prog,
    .recClear, .chunk]) s x7 := Upd.ite (by with_reducible assumption) (Upd.after modLink_upd rfl <| by with_reducible
    assumption)
  clear_value x7
  exact Upd.ite (Upd.after goRefused_upd rfl .refl) (Upd.ite (Upd.after goRefused_upd rfl .refl) (Upd.ite (Upd.after
    goRefused_upd rfl .refl) (Upd.ite (Upd.after linkTrain_upd rfl <| by with_reducible assumption) (by with_reducible
    assumption))))

theorem laneReq_upd {s : State} {m : Master} {arg : Nat} :
    Upd (Part.allBut [.pending, .held, .fuses, .straps, .cellar, .heatCopy, .prog, .recClear, .chunk]) s
      (State.laneReq s m arg) := by
  unfold State.laneReq
  refine upkeepGo_hupd rfl ?_ ?_
  · intro u z1
    exact Upd.after laneGo_upd rfl <| by with_reducible assumption
  · exact .refl

theorem bstEnd_upd {s : State} {h : Half} {evict : Bool} {reason : Nat} :
    Upd (Part.allBut [.pending, .held, .fuses, .straps, .cellar, .cross, .pins, .heatCopy, .prog, .recClear,
      .chunk]) s (State.bstEnd s h evict reason) := by
  unfold State.bstEnd
  extract_lets x6 x7
  clear_value x6
  have hx7 : Upd (Part.allBut [.pending, .held, .fuses, .straps, .cellar, .cross, .pins, .heatCopy, .prog,
    .recClear, .chunk]) s x7 := Upd.after raise_upd rfl <| Upd.ite (Upd.after goDone_upd rfl .refl) (Upd.after
    goRefused_upd rfl .refl)
  clear_value x7
  exact Upd.ite (Upd.after unhold_upd rfl <| by with_reducible assumption) (by with_reducible assumption)

theorem bstGo_upd {s : State} {h : Half} {arg : Nat} :
    Upd (Part.allBut [.pending, .held, .fuses, .straps, .cellar, .cross, .pins, .heatCopy, .prog, .recClear,
      .chunk]) s (State.bstGo s h arg) := by
  unfold State.bstGo
  extract_lets x9 x10 x11 x12 x13 x14
  clear_value x9
  clear_value x10
  clear_value x11
  clear_value x12
  have hx13 : Upd (Part.allBut [.pending, .held, .fuses, .straps, .cellar, .cross, .pins, .heatCopy, .prog,
    .recClear, .chunk]) s x13 := Upd.after hold_upd rfl <| Upd.after modTest_upd rfl .refl
  clear_value x13
  have hx14 : Upd (Part.allBut [.pending, .held, .fuses, .straps, .cellar, .cross, .pins, .heatCopy, .prog,
    .recClear, .chunk]) s x14 := Upd.after modRoom_upd rfl <| by with_reducible assumption
  clear_value x14
  exact Upd.ite (Upd.after bstEnd_upd rfl .refl) (Upd.ite (Upd.after bstEnd_upd rfl .refl) (Upd.ite (Upd.after
    bstEnd_upd rfl .refl) (Upd.ite (Upd.after modTest_upd rfl .refl) (Upd.ite (Upd.ite (Upd.after bstEnd_upd rfl
    .refl) (Upd.after settlePorts_upd rfl <| Upd.after startDrain_upd rfl <| by with_reducible assumption)) (Upd.after
    bstEnd_upd rfl .refl)))))

theorem bstReq_upd {s : State} {m : Master} {h : Half} {arg : Nat} :
    Upd (Part.allBut [.pending, .held, .fuses, .straps, .cellar, .heatCopy, .prog, .recClear, .chunk]) s
      (State.bstReq s m h arg) := by
  unfold State.bstReq
  refine goTo_hupd rfl ?_ ?_ ?_
  · intro u z1
    exact Upd.after wr_upd rfl <| by with_reducible assumption
  · intro u z1
    exact Upd.ite (by with_reducible assumption) (Upd.after bstGo_upd rfl <| Upd.after goBusy_upd rfl <| by
      with_reducible assumption)
  · exact .refl

theorem memEnd_upd {s : State} {k reason : Nat} :
    Upd [.regs, .out, .host, .cox] s (State.memEnd s k reason) := by
  unfold State.memEnd
  exact Upd.after raise_upd rfl <| Upd.ite (Upd.after goDone_upd rfl .refl) (Upd.after goRefused_upd rfl .refl)

theorem modStacks_upd {s : State} {f : Stacks → Stacks} :
    Upd [.stackCtl] s (State.modStacks s f) := by
  unfold State.modStacks
  refine Upd.stackCtl ?_ rfl
  exact .refl

theorem migrateTo_upd {s : State} {k : Nat} {world : Bool} :
    ∀ a t, State.migrateTo s k world = some (a, t) → Upd [.regs, .out, .draws, .host, .mem, .bad, .frames, .cox] s t
      := by
  intro a t h
  unfold State.migrateTo at h
  extract_lets near at h
  split at h
  · rename_i e; cases h; exact takeFrom_upd _ _ e
  · exact takeFrom_upd _ _ h

theorem migrateEntry_upd {s : State} {k id page a : Nat} :
    Upd [.regs, .out, .draws, .host, .wings, .mem, .bad, .stackCtl, .frames, .attic, .cox, .gallery] s
      (State.migrateEntry s k id page a) := by
  unfold State.migrateEntry
  split
  · rename_i t10 e10
    have ht10 : Upd [.regs, .out, .draws, .host, .wings, .mem, .bad, .stackCtl, .frames, .attic, .cox, .gallery] s
      t10 := Upd.of_pair e10 <| Upd.after readBytes_upd rfl .refl
    exact by with_reducible assumption
  · rename_i t11 e11
    have ht11 : Upd [.regs, .out, .draws, .host, .wings, .mem, .bad, .stackCtl, .frames, .attic, .cox, .gallery] s
      t11 := Upd.of_pair e11 <| Upd.after readBytes_upd rfl .refl
    extract_lets x14 x15
    clear_value x14
    clear_value x15
    refine Upd.ite ?_ ?_
    · extract_lets
      split
      · rename_i t20 e20
        have ht20 : Upd [.regs, .out, .draws, .host, .wings, .mem, .bad, .stackCtl, .frames, .attic, .cox, .gallery]
          s t20 := Upd.of_pair e20 <| Upd.after readMem_upd rfl <| by with_reducible assumption
        exact by with_reducible assumption
      · rename_i t20 e20
        have ht20 : Upd [.regs, .out, .draws, .host, .wings, .mem, .bad, .stackCtl, .frames, .attic, .cox, .gallery]
          s t20 := Upd.of_pair e20 <| Upd.after readMem_upd rfl <| by with_reducible assumption
        split
        · exact by with_reducible assumption
        · rename_i t27 e27
          have ht27 : Upd [.regs, .out, .draws, .host, .wings, .mem, .bad, .stackCtl, .frames, .attic, .cox,
            .gallery] s t27 := Upd.after (migrateTo_upd _ _ e27) rfl <| by with_reducible assumption
          extract_lets x30 x31
          have hx30 : Upd [.regs, .out, .draws, .host, .wings, .mem, .bad, .stackCtl, .frames, .attic, .cox,
            .gallery] s x30 := Upd.after putWhole_upd rfl <| by with_reducible assumption
          clear_value x30
          have hx31 : Upd [.regs, .out, .draws, .host, .wings, .mem, .bad, .stackCtl, .frames, .attic, .cox,
            .gallery] s x31 := Upd.after writeBytes_upd rfl <| by with_reducible assumption
          clear_value x31
          exact Upd.after releaseFrame_upd rfl <| Upd.after inval_upd rfl <| by with_reducible assumption
    · exact by with_reducible assumption

theorem migrateTable_upd {s : State} {k id i table : Nat} :
    Upd [.regs, .out, .draws, .host, .wings, .mem, .bad, .stackCtl, .frames, .attic, .cox, .gallery] s
      (State.migrateTable s k id i table) := by
  unfold State.migrateTable
  exact Upd.foldl (fun t x ht => Upd.after migrateEntry_upd rfl <| by with_reducible assumption) _ .refl

theorem migrateCrew_upd {s : State} {k id : Nat} :
    Upd [.regs, .out, .draws, .host, .wings, .mem, .bad, .stackCtl, .frames, .attic, .cox, .gallery] s
      (State.migrateCrew s k id) := by
  unfold State.migrateCrew
  split
  · exact .refl
  · refine Upd.foldl (fun t x ht => ?_) _ ?_
    · split
      · rename_i t16 e16
        have ht16 : Upd [.regs, .out, .draws, .host, .wings, .mem, .bad, .stackCtl, .frames, .attic, .cox, .gallery]
          s t16 := Upd.of_pair e16 <| Upd.after readBytes_upd rfl <| by with_reducible assumption
        exact by with_reducible assumption
      · rename_i t17 e17
        have ht17 : Upd [.regs, .out, .draws, .host, .wings, .mem, .bad, .stackCtl, .frames, .attic, .cox, .gallery]
          s t17 := Upd.of_pair e17 <| Upd.after readBytes_upd rfl <| by with_reducible assumption
        exact Upd.ite (Upd.after migrateTable_upd rfl <| by with_reducible assumption) (by with_reducible assumption)
    · exact .refl

theorem memGo_upd {s : State} {m : Master} {k arg : Nat} :
    Upd (Part.allBut [.pending, .held, .fuses, .straps, .cellar, .cross, .pins, .heatCopy, .prog, .recClear,
      .chunk]) s (State.memGo s m k arg) := by
  unfold State.memGo
  extract_lets x7 x8 x9
  clear_value x7
  have hx8 : Upd (Part.allBut [.pending, .held, .fuses, .straps, .cellar, .cross, .pins, .heatCopy, .prog,
    .recClear, .chunk]) s x8 := Upd.after modStacks_upd rfl <| Upd.after hold_upd rfl .refl
  clear_value x8
  have hx9 : Upd (Part.allBut [.pending, .held, .fuses, .straps, .cellar, .cross, .pins, .heatCopy, .prog,
    .recClear, .chunk]) s x9 := Upd.ite (Upd.foldl (fun t x ht => Upd.after migrateCrew_upd rfl <| by with_reducible
    assumption) _ (by with_reducible assumption)) (by with_reducible assumption)
  clear_value x9
  exact Upd.ite (Upd.after memEnd_upd rfl .refl) (Upd.ite (Upd.after memEnd_upd rfl .refl) (Upd.ite (Upd.after
    memEnd_upd rfl .refl) (Upd.ite (Upd.after memEnd_upd rfl .refl) (Upd.after wr_upd rfl <| Upd.after modStacks_upd
    rfl <| by with_reducible assumption))))

theorem memRetrain_upd {s : State} {m : Master} {k arg : Nat} :
    Upd (Part.allBut [.pending, .held, .fuses, .straps, .cellar, .heatCopy, .prog, .recClear, .chunk]) s
      (State.memRetrain s m k arg) := by
  unfold State.memRetrain
  refine upkeepGo_hupd rfl ?_ ?_
  · intro u z1
    exact Upd.after memGo_upd rfl <| by with_reducible assumption
  · exact .refl

theorem reeqEnd_upd {s : State} {reason : Nat} :
    Upd (Part.allBut [.pending, .held, .fuses, .straps, .cellar, .cross, .pins, .heatCopy, .prog, .recClear,
      .chunk]) s (State.reeqEnd s reason) := by
  unfold State.reeqEnd
  extract_lets x3
  have hx3 : Upd (Part.allBut [.pending, .held, .fuses, .straps, .cellar, .cross, .pins, .heatCopy, .prog,
    .recClear, .chunk]) s x3 := Upd.after modHost_upd rfl .refl
  clear_value x3
  exact Upd.ite .refl (Upd.after unhold_upd rfl <| Upd.ite (Upd.after goDone_upd rfl <| by with_reducible
    assumption) (Upd.after goRefused_upd rfl <| by with_reducible assumption))

theorem linkL0_upd {s : State} :
    Upd (Part.allBut [.pending, .held, .fuses, .straps, .cellar, .cross, .pins, .heatCopy, .prog, .recClear,
      .chunk]) s (State.linkL0 s) := by
  unfold State.linkL0
  exact Upd.ite .refl (Upd.after reeqEnd_upd rfl <| Upd.after wr_upd rfl .refl)

theorem essential_upd {s : State} {map : Option Nat} {bytes : List Nat} :
    Upd [.regs, .out, .host, .stackCtl, .frames, .attic, .cox, .gallery] s (State.essential s map bytes).2 := by
  unfold State.essential
  split
  · exact .refl
  · split
    · rename_i t10 e10
      have ht10 : Upd [.regs, .out, .host, .stackCtl, .frames, .attic, .cox, .gallery] s t10 := Upd.of_pair e10 <|
        Upd.after readBytes_upd rfl .refl
      exact by with_reducible assumption
    · rename_i t11 e11
      have ht11 : Upd [.regs, .out, .host, .stackCtl, .frames, .attic, .cox, .gallery] s t11 := Upd.of_pair e11 <|
        Upd.after readBytes_upd rfl .refl
      exact by with_reducible assumption

theorem memTrained_upd {s : State} {k : Nat} {trained : Bool} {repairs : Nat} :
    Upd [.regs, .out, .host, .stackCtl, .cox] s (State.memTrained s k trained repairs) := by
  unfold State.memTrained
  extract_lets x7 x8 x9
  have hx7 : Upd [.regs, .out, .host, .stackCtl, .cox] s x7 := Upd.after modStacks_upd rfl .refl
  clear_value x7
  have hx8 : Upd [.regs, .out, .host, .stackCtl, .cox] s x8 := Upd.after wr_upd rfl <| by with_reducible assumption
  clear_value x8
  have hx9 : Upd [.regs, .out, .host, .stackCtl, .cox] s x9 := Upd.ite (Upd.after wr_upd rfl <| by with_reducible
    assumption) (by with_reducible assumption)
  clear_value x9
  exact Upd.after memEnd_upd rfl <| by with_reducible assumption

theorem flipBits_upd {s : State} {r frame : Nat} {l : List (Nat × Byte)} :
    Upd [.fabric] s (State.flipBits s r frame l) := by
  unfold State.flipBits
  extract_lets x5
  clear_value x5
  exact Upd.foldl (fun t x ht => Upd.fabric (by with_reducible assumption) rfl (fun c => ⟨c.mem, Memory.wf_store
    c.fabric _ _, c.regs, c.crews, c.hatches⟩)) _ .refl

theorem essentialUpset_upd {s : State} {r info : Nat} :
    Upd [.regs, .out, .draws, .doorway, .porches, .host, .rooms, .fabric, .sigs, .blocks, .crews, .wings, .portOps,
      .mem, .bad, .stackCtl, .frames, .reads, .attic, .cox, .hatches, .gallery] s (State.essentialUpset s r info) :=
      by
  unfold State.essentialUpset
  extract_lets x5 x6
  clear_value x5
  have hx6 : Upd [.regs, .out, .draws, .doorway, .porches, .host, .rooms, .fabric, .sigs, .blocks, .crews, .wings,
    .portOps, .mem, .bad, .stackCtl, .frames, .reads, .attic, .cox, .hatches, .gallery] s x6 := Upd.after notify_upd
    rfl .refl
  clear_value x6
  split
  · exact .refl
  · exact Upd.ite .refl (Upd.ite (by with_reducible assumption) (Upd.ite (Upd.after settlePorts_upd rfl <|
      Upd.after startDrain_upd rfl <| Upd.after dropStaged_upd rfl <| Upd.after modCrew_upd rfl <| by with_reducible
      assumption) (Upd.ite (by with_reducible assumption) (Upd.ite (Upd.after modWing_upd rfl <| by with_reducible
      assumption) (Upd.after startReconfig_upd rfl <| by with_reducible assumption)))))

theorem upset_upd {s : State} {r frame diff : Nat} {ess unrep : Bool} :
    Upd [.regs, .out, .draws, .doorway, .porches, .host, .rooms, .fabric, .sigs, .blocks, .crews, .wings, .portOps,
      .mem, .bad, .stackCtl, .frames, .reads, .attic, .cox, .hatches, .gallery] s (State.upset s r frame diff ess
      unrep) := by
  unfold State.upset
  extract_lets x11 x12 x13 x14 x15
  clear_value x11
  have hx12 : Upd [.regs, .out, .draws, .doorway, .porches, .host, .rooms, .fabric, .sigs, .blocks, .crews, .wings,
    .portOps, .mem, .bad, .stackCtl, .frames, .reads, .attic, .cox, .hatches, .gallery] s x12 := Upd.after wrs_upd rfl
    <| Upd.after step1_upd rfl .refl
  clear_value x12
  have hx13 : Upd [.regs, .out, .draws, .doorway, .porches, .host, .rooms, .fabric, .sigs, .blocks, .crews, .wings,
    .portOps, .mem, .bad, .stackCtl, .frames, .reads, .attic, .cox, .hatches, .gallery] s x13 := Upd.after raise_upd
    rfl <| by with_reducible assumption
  clear_value x13
  have hx14 : Upd [.regs, .out, .draws, .doorway, .porches, .host, .rooms, .fabric, .sigs, .blocks, .crews, .wings,
    .portOps, .mem, .bad, .stackCtl, .frames, .reads, .attic, .cox, .hatches, .gallery] s x14 := Upd.ite (Upd.after
    raise_upd rfl <| Upd.after bump_upd rfl <| by with_reducible assumption) (Upd.after bump_upd rfl <| by
    with_reducible assumption)
  clear_value x14
  have hx15 : Upd [.regs, .out, .draws, .doorway, .porches, .host, .rooms, .fabric, .sigs, .blocks, .crews, .wings,
    .portOps, .mem, .bad, .stackCtl, .frames, .reads, .attic, .cox, .hatches, .gallery] s x15 := Upd.ite (Upd.after
    raise_upd rfl <| Upd.after bump_upd rfl <| by with_reducible assumption) (by with_reducible assumption)
  clear_value x15
  exact Upd.ite (Upd.ite (by with_reducible assumption) (Upd.after raise_upd rfl <| Upd.after bump_upd rfl <| by
    with_reducible assumption)) (Upd.ite (Upd.after essentialUpset_upd rfl <| by with_reducible assumption) (by
    with_reducible assumption))

theorem scrubCheck.unrepaired_upd {r frame : Nat} {s : State} {map : Option Nat} :
    Upd [.regs, .out, .draws, .doorway, .porches, .host, .rooms, .fabric, .sigs, .blocks, .crews, .wings, .portOps,
      .mem, .bad, .stackCtl, .frames, .reads, .attic, .cox, .hatches, .gallery] s (State.scrubCheck.unrepaired r frame
      s map) := by
  unfold State.scrubCheck.unrepaired
  split
  rename_i t10 e10
  have ht10 : Upd [.regs, .out, .draws, .doorway, .porches, .host, .rooms, .fabric, .sigs, .blocks, .crews, .wings,
    .portOps, .mem, .bad, .stackCtl, .frames, .reads, .attic, .cox, .hatches, .gallery] s t10 := Upd.of_pair e10 <|
    Upd.after essential_upd rfl .refl
  exact Upd.after upset_upd rfl <| by with_reducible assumption

theorem scrubCheck_upd {s : State} {r frame : Nat} :
    Upd [.regs, .out, .draws, .doorway, .porches, .host, .rooms, .fabric, .sigs, .blocks, .crews, .wings, .portOps,
      .mem, .bad, .stackCtl, .frames, .reads, .attic, .cox, .hatches, .gallery] s (State.scrubCheck s r frame) := by
  unfold State.scrubCheck
  extract_lets x6 x7 x8
  clear_value x6
  clear_value x7
  clear_value x8
  split
  · exact .refl
  · refine Upd.ite ?_ ?_
    · exact .refl
    · extract_lets
      split
      · rename_i t18 e18
        have ht18 : Upd [.regs, .out, .draws, .doorway, .porches, .host, .rooms, .fabric, .sigs, .blocks, .crews,
          .wings, .portOps, .mem, .bad, .stackCtl, .frames, .reads, .attic, .cox, .hatches, .gallery] s t18 :=
          Upd.of_pair e18 <| Upd.after readBytes_upd rfl .refl
        extract_lets x20
        have hx20 : Upd [.regs, .out, .draws, .doorway, .porches, .host, .rooms, .fabric, .sigs, .blocks, .crews,
          .wings, .portOps, .mem, .bad, .stackCtl, .frames, .reads, .attic, .cox, .hatches, .gallery] s x20 :=
          Upd.fabric (by with_reducible assumption) rfl (fun c => ⟨c.mem, Memory.wf_putBytes c.fabric _ _, c.regs,
          c.crews, c.hatches⟩)
        clear_value x20
        refine Upd.ite ?_ ?_
        · split
          rename_i t27 e27
          have ht27 : Upd [.regs, .out, .draws, .doorway, .porches, .host, .rooms, .fabric, .sigs, .blocks, .crews,
            .wings, .portOps, .mem, .bad, .stackCtl, .frames, .reads, .attic, .cox, .hatches, .gallery] s t27 :=
            Upd.of_pair e27 <| Upd.after essential_upd rfl <| by with_reducible assumption
          exact Upd.after upset_upd rfl <| by with_reducible assumption
        · exact Upd.after State.scrubCheck.unrepaired_upd rfl <| by with_reducible assumption
      · rename_i t17 e17
        have ht17 : Upd [.regs, .out, .draws, .doorway, .porches, .host, .rooms, .fabric, .sigs, .blocks, .crews,
          .wings, .portOps, .mem, .bad, .stackCtl, .frames, .reads, .attic, .cox, .hatches, .gallery] s t17 :=
          Upd.of_pair e17 <| Upd.after readBytes_upd rfl .refl
        exact Upd.after State.scrubCheck.unrepaired_upd rfl <| by with_reducible assumption

theorem scrubFrame_upd {s : State} {r frame : Nat} {upsets : List (Nat × Byte)} :
    Upd (Part.allBut [.pending, .held, .fuses, .straps, .cellar, .seq, .power, .cross, .security, .pins, .refs,
      .lines, .ids, .heatCopy, .stamps, .alloc, .prog, .recClear, .retiring, .chunk, .loader, .chain, .g2, .course]) s
      (State.scrubFrame s r frame upsets) := by
  unfold State.scrubFrame
  extract_lets x9 x10 x11 x12 x13
  clear_value x9
  have hx10 : Upd (Part.allBut [.pending, .held, .fuses, .straps, .cellar, .seq, .power, .cross, .security, .pins,
    .refs, .lines, .ids, .heatCopy, .stamps, .alloc, .prog, .recClear, .retiring, .chunk, .loader, .chain, .g2,
    .course]) s x10 := Upd.after flipBits_upd rfl .refl
  clear_value x10
  clear_value x11
  have hx12 : Upd (Part.allBut [.pending, .held, .fuses, .straps, .cellar, .seq, .power, .cross, .security, .pins,
    .refs, .lines, .ids, .heatCopy, .stamps, .alloc, .prog, .recClear, .retiring, .chunk, .loader, .chain, .g2,
    .course]) s x12 := Upd.after modTest_upd rfl <| by with_reducible assumption
  clear_value x12
  have hx13 : Upd (Part.allBut [.pending, .held, .fuses, .straps, .cellar, .seq, .power, .cross, .security, .pins,
    .refs, .lines, .ids, .heatCopy, .stamps, .alloc, .prog, .recClear, .retiring, .chunk, .loader, .chain, .g2,
    .course]) s x13 := Upd.ite (Upd.after essentialUpset_upd rfl <| by with_reducible assumption) (by with_reducible
    assumption)
  clear_value x13
  exact Upd.ite .refl (Upd.ite (by with_reducible assumption) (Upd.after scrubCheck_upd rfl <| by with_reducible
    assumption))

theorem stackBack_upd {s : State} {h : Half} :
    Upd (Part.allBut [.pending, .held, .fuses, .straps, .cellar, .pins, .heatCopy, .prog, .recClear, .chunk]) s
      (State.stackBack s h) := by
  unfold State.stackBack
  extract_lets x6 x7 x8 x9
  have hx6 : Upd (Part.allBut [.pending, .held, .fuses, .straps, .cellar, .pins, .heatCopy, .prog, .recClear,
    .chunk]) s x6 := Upd.after unhold_upd rfl .refl
  clear_value x6
  have hx7 : Upd (Part.allBut [.pending, .held, .fuses, .straps, .cellar, .pins, .heatCopy, .prog, .recClear,
    .chunk]) s x7 := Upd.after latePorts_upd rfl <| Upd.after releaseAccesses_upd rfl <| Upd.after releaseAccesses_upd
    rfl <| by with_reducible assumption
  clear_value x7
  have hx8 : Upd (Part.allBut [.pending, .held, .fuses, .straps, .cellar, .pins, .heatCopy, .prog, .recClear,
    .chunk]) s x8 := Upd.after retireAct_upd rfl <| Upd.after retireAct_upd rfl <| by with_reducible assumption
  clear_value x8
  have hx9 : Upd (Part.allBut [.pending, .held, .fuses, .straps, .cellar, .pins, .heatCopy, .prog, .recClear,
    .chunk]) s x9 := by
    unfold x9
    refine Upd.foldl (fun t x ht => ?_) _ ?_
    · extract_lets x13
      clear_value x13
      exact Upd.after nextWait_upd rfl <| by with_reducible assumption
    · exact by with_reducible assumption
  clear_value x9
  exact Upd.after settlePorts_upd rfl <| Upd.after decision_upd rfl <| Upd.after decision_upd rfl <| by
    with_reducible assumption

theorem reqGone_upd {s : State} {h : Half} :
    Upd (Part.allBut [.pending, .held, .fuses, .straps, .cellar, .cross, .pins, .heatCopy, .prog, .recClear,
      .chunk]) s (State.reqGone s h) := by
  unfold State.reqGone
  split
  · exact Upd.ite (Upd.after bstEnd_upd rfl <| Upd.after modTest_upd rfl .refl) .refl
  · exact .refl

theorem sliceTake_upd {s : State} {h : Half} {r : Nat} :
    Upd [.rooms, .selfTest] s (State.sliceTake s h r) := by
  unfold State.sliceTake
  extract_lets x7 x8 x9 x10
  clear_value x7
  clear_value x8
  clear_value x9
  have hx10 : Upd [.rooms, .selfTest] s x10 := Upd.after modRoom_upd rfl .refl
  clear_value x10
  exact Upd.after modTest_upd rfl <| by with_reducible assumption

theorem roundEnd_upd {s : State} {h : Half} :
    Upd [.regs, .selfTest] s (State.roundEnd s h) := by
  unfold State.roundEnd
  extract_lets x4 x5
  clear_value x4
  have hx5 : Upd [.regs, .selfTest] s x5 := Upd.after wrs_upd rfl <| Upd.after step1_upd rfl .refl
  clear_value x5
  exact Upd.after modTest_upd rfl <| by with_reducible assumption

theorem roundStep_upd {s : State} {h : Half} {x2 : List Nat} :
    Upd [.regs, .rooms, .selfTest] s (State.roundStep s h x2) := by
  unfold State.roundStep
  split
  · exact Upd.after roundEnd_upd rfl .refl
  · extract_lets x8 x9
    clear_value x8
    have hx9 : Upd [.regs, .rooms, .selfTest] s x9 := Upd.after sliceTake_upd rfl <| Upd.after modTest_upd rfl .refl
    clear_value x9
    exact Upd.ite (Upd.ite (Upd.ite (Upd.after roundEnd_upd rfl <| by with_reducible assumption) (by with_reducible
      assumption)) (Upd.after modTest_upd rfl .refl)) (Upd.after roundStep_upd rfl <| Upd.after modTest_upd rfl .refl)

theorem roundGo_upd {s : State} {h : Half} :
    Upd [.regs, .rooms, .selfTest] s (State.roundGo s h) := by
  unfold State.roundGo
  extract_lets x5 x6 x7
  have hx5 : ∀ a0, Upd [.regs, .rooms, .selfTest] s a0 → Upd [.regs, .rooms, .selfTest] s (x5 a0) := by
    intros
    exact Upd.after roundStep_upd rfl <| by with_reducible assumption
  clear_value x5
  have hx6 : Upd [.regs, .rooms, .selfTest] s x6 := hx5 _ .refl
  clear_value x6
  have hx7 : Upd [.regs, .rooms, .selfTest] s x7 := hx5 _ <| by with_reducible assumption
  clear_value x7
  exact Upd.ite (by with_reducible assumption) (Upd.ite (by with_reducible assumption) (by with_reducible assumption))

theorem sliceStart_upd {s : State} {h : Half} :
    Upd (Part.allBut [.pending, .held, .fuses, .straps, .cellar, .cross, .pins, .heatCopy, .prog, .recClear,
      .chunk]) s (State.sliceStart s h) := by
  unfold State.sliceStart
  extract_lets x5 x6 x7
  have hx5 : Upd (Part.allBut [.pending, .held, .fuses, .straps, .cellar, .cross, .pins, .heatCopy, .prog,
    .recClear, .chunk]) s x5 := Upd.after reqGone_upd rfl .refl
  clear_value x5
  clear_value x6
  clear_value x7
  refine Upd.ite ?_ ?_
  · exact by with_reducible assumption
  · split
    · exact Upd.after sliceTake_upd rfl <| by with_reducible assumption
    · exact Upd.after sliceTake_upd rfl <| by with_reducible assumption
    · exact Upd.ite (Upd.after roundGo_upd rfl <| by with_reducible assumption) (by with_reducible assumption)

theorem coxDone_upd {s : State} {h : Half} :
    Upd (Part.allBut [.pending, .held, .fuses, .straps, .cellar, .cross, .pins, .heatCopy, .prog, .recClear,
      .chunk]) s (State.coxDone s h) := by
  unfold State.coxDone
  extract_lets x4 x5
  clear_value x4
  clear_value x5
  split
  · exact .refl
  · extract_lets x16 x17 x18 x19 x20
    clear_value x16
    have hx17 : Upd (Part.allBut [.pending, .held, .fuses, .straps, .cellar, .cross, .pins, .heatCopy, .prog,
      .recClear, .chunk]) s x17 := by
      unfold x17
      refine Upd.ite ?_ ?_
      · refine Upd.attic ?_ rfl
        exact .refl
      · exact .refl
    clear_value x17
    have hx18 : Upd (Part.allBut [.pending, .held, .fuses, .straps, .cellar, .cross, .pins, .heatCopy, .prog,
      .recClear, .chunk]) s x18 := Upd.ite (Upd.after handOver_upd rfl <| by with_reducible assumption) (by
      with_reducible assumption)
    clear_value x18
    have hx19 : Upd (Part.allBut [.pending, .held, .fuses, .straps, .cellar, .cross, .pins, .heatCopy, .prog,
      .recClear, .chunk]) s x19 := by
      unfold x19
      refine Upd.cox ?_ rfl
      exact by with_reducible assumption
    clear_value x19
    have hx20 : Upd (Part.allBut [.pending, .held, .fuses, .straps, .cellar, .cross, .pins, .heatCopy, .prog,
      .recClear, .chunk]) s x20 := Upd.foldl (fun t x ht => Upd.after emit_upd rfl <| by with_reducible assumption) _
      (by with_reducible assumption)
    clear_value x20
    exact Upd.after unhold_upd rfl <| Upd.ite (Upd.after goDone_upd rfl <| by with_reducible assumption) (Upd.after
      goRefused_upd rfl <| by with_reducible assumption)

theorem sliceReport_upd {s : State} {r failed ticks : Nat} :
    Upd (Part.allBut [.pending, .held, .fuses, .straps, .cellar, .cross, .pins, .heatCopy, .prog, .recClear,
      .chunk]) s (State.sliceReport s r failed ticks) := by
  unfold State.sliceReport
  extract_lets x6 x7
  clear_value x6
  clear_value x7
  split
  · exact .refl
  · extract_lets x20 x21 x22 x23 x24 x25 x26 x27 x28
    clear_value x20
    have hx21 : Upd (Part.allBut [.pending, .held, .fuses, .straps, .cellar, .cross, .pins, .heatCopy, .prog,
      .recClear, .chunk]) s x21 := Upd.after blankRoom_upd rfl <| Upd.after modTest_upd rfl .refl
    clear_value x21
    have hx22 : Upd (Part.allBut [.pending, .held, .fuses, .straps, .cellar, .cross, .pins, .heatCopy, .prog,
      .recClear, .chunk]) s x22 := Upd.after modRoom_upd rfl <| by with_reducible assumption
    clear_value x22
    have hx23 : Upd (Part.allBut [.pending, .held, .fuses, .straps, .cellar, .cross, .pins, .heatCopy, .prog,
      .recClear, .chunk]) s x23 := Upd.ite (by with_reducible assumption) (Upd.after retireRoom_upd rfl <| by
      with_reducible assumption)
    clear_value x23
    have hx24 : Upd (Part.allBut [.pending, .held, .fuses, .straps, .cellar, .cross, .pins, .heatCopy, .prog,
      .recClear, .chunk]) s x24 := Upd.after step1_upd rfl <| Upd.after step1_upd rfl <| by with_reducible assumption
    clear_value x24
    have hx25 : Upd (Part.allBut [.pending, .held, .fuses, .straps, .cellar, .cross, .pins, .heatCopy, .prog,
      .recClear, .chunk]) s x25 := Upd.after wrs_upd rfl <| by with_reducible assumption
    clear_value x25
    have hx26 : Upd (Part.allBut [.pending, .held, .fuses, .straps, .cellar, .cross, .pins, .heatCopy, .prog,
      .recClear, .chunk]) s x26 := Upd.after raise_upd rfl <| by with_reducible assumption
    clear_value x26
    have hx27 : Upd (Part.allBut [.pending, .held, .fuses, .straps, .cellar, .cross, .pins, .heatCopy, .prog,
      .recClear, .chunk]) s x27 := Upd.ite (by with_reducible assumption) (Upd.after raise_upd rfl <| by
      with_reducible assumption)
    clear_value x27
    have hx28 : Upd (Part.allBut [.pending, .held, .fuses, .straps, .cellar, .cross, .pins, .heatCopy, .prog,
      .recClear, .chunk]) s x28 := Upd.ite (Upd.after bstEnd_upd rfl <| by with_reducible assumption) (by
      with_reducible assumption)
    clear_value x28
    exact Upd.after settlePorts_upd rfl <| Upd.after standbyGo_upd rfl <| Upd.after decision_upd rfl <| by
      with_reducible assumption

theorem memDoneTraining_upd {s : State} {k : Nat} {trained : Bool} {repairs : Nat} :
    Upd (Part.allBut [.pending, .held, .fuses, .straps, .cellar, .pins, .heatCopy, .prog, .recClear, .chunk]) s
      (State.memDoneTraining s k trained repairs) := by
  unfold State.memDoneTraining
  exact Upd.ite .refl (Upd.after stackBack_upd rfl <| Upd.after memTrained_upd rfl .refl)

theorem clearReg_upd {s : State} {p off : Nat} :
    Upd [.regs] s (State.clearReg s p off) := by
  unfold State.clearReg
  exact Upd.after clearSpan_upd rfl .refl

theorem softStw_upd {s : State} {p : Nat} :
    Upd [.regs, .held] s (State.softStw s p) := by
  unfold State.softStw
  extract_lets x5 x6 x7
  have hx5 : Upd [.regs, .held] s x5 := Upd.after thawPage_upd rfl .refl
  clear_value x5
  have hx6 : Upd [.regs, .held] s x6 := Upd.ite (by with_reducible assumption) (Upd.after clearSpan_upd rfl <| by
    with_reducible assumption)
  clear_value x6
  have hx7 : Upd [.regs, .held] s x7 := Upd.ite (by with_reducible assumption) (Upd.after clearReg_upd rfl <| by
    with_reducible assumption)
  clear_value x7
  exact Upd.after clearSpan_upd rfl <| by with_reducible assumption

theorem softPgt_upd {s : State} {p : Nat} :
    Upd [.regs, .held] s (State.softPgt s p) := by
  unfold State.softPgt
  extract_lets x3
  have hx3 : Upd [.regs, .held] s x3 := Upd.after thawPage_upd rfl .refl
  clear_value x3
  exact Upd.after clearReg_upd rfl <| Upd.ite (by with_reducible assumption) (Upd.after clearSpan_upd rfl <| by
    with_reducible assumption)

theorem softHat_upd {s : State} {p : Nat} :
    Upd [.regs, .held] s (State.softHat s p) := by
  unfold State.softHat
  extract_lets x3
  have hx3 : Upd [.regs, .held] s x3 := Upd.after thawPage_upd rfl .refl
  clear_value x3
  exact Upd.after clearSpan_upd rfl <| Upd.ite (by with_reducible assumption) (Upd.after clearSpan_upd rfl <| by
    with_reducible assumption)

theorem softMem_upd {s : State} {p : Nat} :
    Upd [.regs, .held] s (State.softMem s p) := by
  unfold State.softMem
  extract_lets x3
  have hx3 : Upd [.regs, .held] s x3 := Upd.after clearSpan_upd rfl <| Upd.after thawPage_upd rfl .refl
  clear_value x3
  exact Upd.ite (by with_reducible assumption) (Upd.after clearReg_upd rfl <| by with_reducible assumption)

theorem clearBlock_upd {s : State} {p : Nat} :
    Upd [.regs, .held] s (State.clearBlock s p) := by
  unfold State.clearBlock
  exact Upd.after clearPage_upd rfl .refl

theorem softGal_upd {s : State} :
    Upd [.regs, .held, .gallery] s (State.softGal s) := by
  unfold State.softGal
  extract_lets x5 x6 x7 x8
  clear_value x5
  have hx6 : Upd [.regs, .held, .gallery] s x6 := Upd.after clearBlock_upd rfl <| Upd.after clearBlock_upd rfl .refl
  clear_value x6
  clear_value x7
  have hx8 : Upd [.regs, .held, .gallery] s x8 := by
    unfold x8
    refine Upd.gallery ?_ rfl
    exact by with_reducible assumption
  clear_value x8
  exact Upd.ite (Upd.after wrs_upd rfl <| Upd.after wrs_upd rfl <| by with_reducible assumption) (by with_reducible
    assumption)

theorem softWng_upd {s : State} {p : Nat} :
    Upd [.regs, .held, .wings] s (State.softWng s p) := by
  unfold State.softWng
  extract_lets x3
  clear_value x3
  exact Upd.ite (Upd.after setWing_upd rfl <| Upd.after clearBlock_upd rfl .refl) (Upd.after pgErr_upd rfl .refl)

theorem softCfg_upd {s : State} :
    Upd [.regs, .held, .porches, .rooms, .fabric, .refs, .crews, .ids, .heatCopy, .wings, .alloc, .loader] s
      (State.softCfg s) := by
  unfold State.softCfg
  extract_lets x3 x4
  clear_value x3
  have hx4 : Upd [.regs, .held, .porches, .rooms, .fabric, .refs, .crews, .ids, .heatCopy, .wings, .alloc, .loader]
    s x4 := Upd.after clearBlock_upd rfl <| Upd.after modLoad_upd rfl <| Upd.after cleanLoad_upd rfl .refl
  clear_value x4
  exact Upd.ite (Upd.ite (Upd.after loadStart_upd rfl <| by with_reducible assumption) (Upd.after wrs_upd rfl <| by
    with_reducible assumption)) (Upd.after clearPage_upd rfl .refl)

theorem softAtt_upd {s : State} :
    Upd [.regs, .held, .prog, .recClear] s (State.softAtt s) := by
  unfold State.softAtt
  refine Upd.after setReg_upd rfl <| Upd.after clearBlock_upd rfl <| Upd.prog_recClear ?_ rfl
  exact .refl

theorem softHlk_upd {s : State} :
    Upd (Part.allBut [.pending, .fuses, .straps, .cellar, .cross, .pins, .heatCopy, .prog, .recClear, .chunk]) s
      (State.softHlk s) := by
  unfold State.softHlk
  extract_lets x2
  clear_value x2
  exact Upd.after setReg_upd rfl <| Upd.after perst_upd rfl .refl

theorem softCrs_upd {s : State} :
    Upd (Part.allBut [.pending, .fuses, .straps, .cellar, .cross, .pins, .heatCopy, .prog, .recClear, .chunk]) s
      (State.softCrs s) := by
  unfold State.softCrs
  extract_lets x3 x4
  clear_value x3
  have hx4 : Upd (Part.allBut [.pending, .fuses, .straps, .cellar, .cross, .pins, .heatCopy, .prog, .recClear,
    .chunk]) s x4 := Upd.ite (Upd.after unhold_upd rfl .refl) .refl
  clear_value x4
  refine Upd.after wr_upd rfl <| Upd.after clearBlock_upd rfl <| Upd.course ?_ rfl
  exact by with_reducible assumption

theorem softG2c_upd {s : State} :
    Upd [.regs, .held, .rooms, .g2] s (State.softG2c s) := by
  unfold State.softG2c
  extract_lets x5 x6 x7 x8
  clear_value x5
  have hx6 : Upd [.regs, .held, .rooms, .g2] s x6 := Upd.after clearBlock_upd rfl .refl
  clear_value x6
  clear_value x7
  have hx8 : Upd [.regs, .held, .rooms, .g2] s x8 := by
    unfold x8
    refine Upd.g2 ?_ rfl
    exact by with_reducible assumption
  clear_value x8
  exact Upd.ite (Upd.after g2Clearing_upd rfl <| by with_reducible assumption) (by with_reducible assumption)

theorem softClk_upd {s : State} {h : Half} :
    Upd [.regs, .held, .out, .draws, .power, .cross, .porches, .host, .cox] s (State.softClk s h) := by
  unfold State.softClk
  extract_lets x6 x7 x8 x9
  clear_value x6
  have hx7 : Upd [.regs, .held, .out, .draws, .power, .cross, .porches, .host, .cox] s x7 := Upd.ite (Upd.after
    opEnd_upd rfl .refl) .refl
  clear_value x7
  have hx8 : Upd [.regs, .held, .out, .draws, .power, .cross, .porches, .host, .cox] s x8 := Upd.foldl (fun t x ht
    => Upd.after setSrcReady_upd rfl <| by with_reducible assumption) _ (by with_reducible assumption)
  clear_value x8
  have hx9 : Upd [.regs, .held, .out, .draws, .power, .cross, .porches, .host, .cox] s x9 := Upd.after modPow_upd
    rfl <| Upd.after clearBlock_upd rfl <| by with_reducible assumption
  clear_value x9
  exact Upd.after wr_upd rfl <| Upd.after setSrcReady_upd rfl <| by with_reducible assumption

theorem softPwr_upd {s : State} {h : Half} :
    Upd [.regs, .held, .power] s (State.softPwr s h) := by
  unfold State.softPwr
  extract_lets x6 x7 x8 x9
  clear_value x6
  have hx7 : Upd [.regs, .held, .power] s x7 := Upd.after clearPage_upd rfl .refl
  clear_value x7
  have hx8 : Upd [.regs, .held, .power] s x8 := Upd.after modPow_upd rfl <| by with_reducible assumption
  clear_value x8
  have hx9 : Upd [.regs, .held, .power] s x9 := Upd.foldl (fun t x ht => Upd.after wr_upd rfl <| by with_reducible
    assumption) _ (by with_reducible assumption)
  clear_value x9
  exact Upd.after vfabGo_upd rfl <| Upd.after wr_upd rfl <| by with_reducible assumption

theorem softBst_upd {s : State} {h : Half} :
    Upd (Part.allBut [.pending, .fuses, .straps, .cellar, .cross, .pins, .heatCopy, .prog, .recClear, .chunk]) s
      (State.softBst s h) := by
  unfold State.softBst
  extract_lets x8 x9 x10 x11 x12 x13
  clear_value x8
  clear_value x9
  have hx10 : Upd (Part.allBut [.pending, .fuses, .straps, .cellar, .cross, .pins, .heatCopy, .prog, .recClear,
    .chunk]) s x10 := Upd.foldl (fun t x ht => Upd.after modRoom_upd rfl <| Upd.after blankRoom_upd rfl <| by
    with_reducible assumption) _ .refl
  clear_value x10
  clear_value x11
  have hx12 : Upd (Part.allBut [.pending, .fuses, .straps, .cellar, .cross, .pins, .heatCopy, .prog, .recClear,
    .chunk]) s x12 := by
    unfold x12
    refine Upd.selfTest ?_ rfl
    exact by with_reducible assumption
  clear_value x12
  have hx13 : Upd (Part.allBut [.pending, .fuses, .straps, .cellar, .cross, .pins, .heatCopy, .prog, .recClear,
    .chunk]) s x13 := Upd.after setReg_upd rfl <| Upd.after clearBlock_upd rfl <| by with_reducible assumption
  clear_value x13
  exact Upd.after standbyGo_upd rfl <| Upd.foldl (fun t x ht => Upd.after unhold_upd rfl <| by with_reducible
    assumption) _ (by with_reducible assumption)

theorem softPin_upd {s : State} {h : Half} :
    Upd [.regs, .held, .draws, .cross, .doorway, .porches] s (State.softPin s h) := by
  unfold State.softPin
  extract_lets x9 x10 x11 x12 x13 x14 x15
  clear_value x9
  clear_value x10
  clear_value x11
  have hx12 : Upd [.regs, .held, .draws, .cross, .doorway, .porches] s x12 := Upd.after clearBlock_upd rfl .refl
  clear_value x12
  have hx13 : Upd [.regs, .held, .draws, .cross, .doorway, .porches] s x13 := Upd.foldl (fun t x ht => Upd.after
    porchWr_upd rfl <| Upd.after porchWr_upd rfl <| by with_reducible assumption) _ (by with_reducible assumption)
  clear_value x13
  have hx14 : Upd [.regs, .held, .draws, .cross, .doorway, .porches] s x14 := Upd.foldl (fun t x ht => Upd.after
    porchTake_upd rfl <| by with_reducible assumption) _ (by with_reducible assumption)
  clear_value x14
  have hx15 : Upd [.regs, .held, .draws, .cross, .doorway, .porches] s x15 := Upd.foldl (fun t x ht => Upd.after
    porchReset_upd rfl <| by with_reducible assumption) _ (by with_reducible assumption)
  clear_value x15
  refine Upd.after sideDrop_upd rfl <| Upd.doorway ?_ rfl
  exact by with_reducible assumption

theorem softPmx_upd {s : State} {h : Half} :
    Upd [.regs, .held, .pins] s (State.softPmx s h) := by
  unfold State.softPmx
  extract_lets x4 x5
  have hx4 : Upd [.regs, .held, .pins] s x4 := Upd.after clearBlock_upd rfl .refl
  clear_value x4
  clear_value x5
  refine Upd.ite ?_ ?_
  · refine Upd.pins ?_ rfl
    exact by with_reducible assumption
  · exact by with_reducible assumption

theorem softPint_upd {s : State} {h : Half} :
    Upd [.regs, .held, .draws, .cross] s (State.softPint s h) := by
  unfold State.softPint
  exact Upd.foldl (fun t x ht => Upd.after sideDrop_upd rfl <| by with_reducible assumption) _ (Upd.after
    clearBlock_upd rfl .refl)

theorem softReset_upd {s : State} {p : Nat} :
    Upd (Part.allBut [.pending, .fuses, .straps, .cellar, .chunk]) s (State.softReset s p) := by
  unfold State.softReset
  extract_lets x3
  clear_value x3
  split
  · exact .refl
  · exact .refl
  · exact .refl
  · exact .refl
  · exact .refl
  · exact .refl
  · exact .refl
  · exact Upd.after softStw_upd rfl .refl
  · exact Upd.after softPgt_upd rfl .refl
  · exact Upd.after softHat_upd rfl .refl
  · exact Upd.after softMem_upd rfl .refl
  · exact Upd.after softGal_upd rfl .refl
  · exact Upd.after softWng_upd rfl .refl
  · exact Upd.after softCfg_upd rfl .refl
  · exact Upd.after softAtt_upd rfl .refl
  · exact Upd.after softHlk_upd rfl .refl
  · exact Upd.after softCrs_upd rfl .refl
  · exact Upd.after softG2c_upd rfl .refl
  · exact Upd.after softClk_upd rfl .refl
  · exact Upd.after softPwr_upd rfl .refl
  · exact Upd.after softBst_upd rfl .refl
  · exact Upd.after modTest_upd rfl <| Upd.after clearBlock_upd rfl .refl
  · exact Upd.after clearBlock_upd rfl .refl
  · exact Upd.after softPin_upd rfl .refl
  · exact Upd.after softPmx_upd rfl .refl
  · exact Upd.after softPint_upd rfl .refl
  · exact Upd.after coxGroup_upd rfl .refl
  · exact Upd.after coxGroup_upd rfl .refl

theorem stwOp_upd {s : State} {p : Port} {v : Nat} :
    Upd (Part.allBut [.pending, .held, .fuses, .straps, .cellar, .heatCopy, .prog, .recClear, .chunk, .loader,
      .chain, .selfTest, .course]) s (State.stwOp s p v) := by
  unfold State.stwOp
  split
  · exact Upd.after createCmd_upd rfl .refl
  · exact Upd.after queryCmd_upd rfl .refl
  · exact Upd.after updateCmd_upd rfl .refl
  · exact Upd.after runAt_upd rfl .refl
  · exact Upd.after parkAt_upd rfl .refl
  · exact Upd.after resumeAt_upd rfl .refl
  · exact Upd.after restartAt_upd rfl .refl
  · exact Upd.after reconfigAt_upd rfl .refl
  · exact Upd.after destroyAt_upd rfl .refl
  · exact Upd.after hintAt_upd rfl .refl
  · refine stwGo_hupd rfl ?_ ?_
    · intro u z1
      exact Upd.after stwEnd_upd rfl <| by with_reducible assumption
    · exact .refl

theorem pgtOp_upd {s : State} {p : Port} {op : Nat} :
    Upd (Part.allBut [.pending, .held, .fuses, .straps, .cellar, .lines, .ids, .heatCopy, .stamps, .prog, .recClear,
      .chunk, .loader, .chain, .selfTest, .course]) s (State.pgtOp s p op) := by
  unfold State.pgtOp
  refine toPort_hupd rfl ?_ ?_
  · intro u z1
    split
    · exact Upd.after frameTake_upd rfl <| by with_reducible assumption
    · exact Upd.after frameGive_upd rfl <| by with_reducible assumption
    · exact Upd.after granTake_upd rfl <| by with_reducible assumption
    · exact Upd.after granGive_upd rfl <| by with_reducible assumption
    · exact Upd.after invalOf_upd rfl <| by with_reducible assumption
    · exact Upd.after invalOf_upd rfl <| by with_reducible assumption
    · exact Upd.after invalAll_upd rfl <| by with_reducible assumption
    · exact Upd.ite (by with_reducible assumption) (Upd.after pgtEnd_upd rfl <| Upd.after portStart_upd rfl <| by
        with_reducible assumption)
  · exact .refl

theorem hatOp_upd {s : State} {p : Port} {op : Nat} :
    Upd (Part.allBut [.pending, .held, .fuses, .straps, .cellar, .lines, .ids, .heatCopy, .stamps, .alloc, .prog,
      .recClear, .chunk, .loader, .chain, .selfTest, .course]) s (State.hatOp s p op) := by
  unfold State.hatOp
  refine Upd.ite ?_ ?_
  · exact Upd.after hatGo_upd rfl .refl
  · refine toPort_hupd rfl ?_ ?_
    · intro u z1
      exact Upd.ite (by with_reducible assumption) (Upd.after hatEnd_upd rfl <| Upd.after portStart_upd rfl <| by
        with_reducible assumption)
    · exact .refl

theorem regGo_upd {s : State} {m : Master} {p o : Nat} {v : Word} :
    ∀ t, State.regGo s m p o v = some t → Upd (Part.allBut [.pending, .straps]) s t := by
  refine Upd.opt_out ?_
  unfold State.regGo
  extract_lets x8 x9 x10
  clear_value x8
  clear_value x9
  clear_value x10
  split
  · exact Upd.opt_ite (Upd.opt_some <| Upd.after modeReqBy_upd rfl .refl) (Upd.opt_ite (Upd.opt_some <| Upd.after
      coxUpd_upd rfl .refl) Upd.opt_none)
  · refine Upd.opt_ite ?_ ?_
    · exact Upd.opt_none
    · split
      · refine Upd.opt_ite ?_ ?_
        · refine Upd.opt_some <| goTo_hupd rfl ?_ ?_ ?_
          · intro u z1
            exact Upd.after wrs_upd rfl <| by with_reducible assumption
          · intro u z1
            exact Upd.after unfreezeGo_upd rfl <| by with_reducible assumption
          · exact .refl
        · exact Upd.opt_ite (Upd.opt_some <| Upd.after keyRaw_upd rfl .refl) Upd.opt_none
      · exact Upd.opt_ite (Upd.opt_some <| Upd.after lcsReq_upd rfl .refl) Upd.opt_none
      · refine Upd.opt_ite ?_ ?_
        · refine Upd.opt_some <| goTo_hupd rfl ?_ ?_ ?_
          · intro u z1
            exact by with_reducible assumption
          · intro u z1
            exact Upd.after dmaGo_upd rfl <| by with_reducible assumption
          · exact .refl
        · exact Upd.opt_none
      · refine Upd.opt_ite ?_ ?_
        · refine Upd.opt_some <| goTo_hupd rfl ?_ ?_ ?_
          · intro u z1
            exact by with_reducible assumption
          · intro u z1
            exact Upd.after progGo_upd rfl <| by with_reducible assumption
          · exact .refl
        · exact Upd.opt_ite (Upd.opt_some <| Upd.after recClearBy_upd rfl .refl) Upd.opt_none
      · exact Upd.opt_ite (Upd.opt_some <| Upd.after reeqReq_upd rfl .refl) Upd.opt_none
      · exact Upd.opt_ite (Upd.opt_some <| Upd.after crsReqBy_upd rfl .refl) (Upd.opt_ite (Upd.opt_some <|
          Upd.after laneReq_upd rfl .refl) Upd.opt_none)
      · refine Upd.opt_ite ?_ ?_
        · refine Upd.opt_some <| goTo_hupd rfl ?_ ?_ ?_
          · intro u z1
            exact by with_reducible assumption
          · intro u z1
            exact Upd.after swGo_upd rfl <| by with_reducible assumption
          · exact .refl
        · exact Upd.opt_none
      · refine Upd.opt_ite ?_ ?_
        · refine Upd.opt_some <| goTo_hupd rfl ?_ ?_ ?_
          · intro u z1
            exact Upd.after wr_upd rfl <| by with_reducible assumption
          · intro u z1
            exact Upd.after opGo_upd rfl <| by with_reducible assumption
          · exact .refl
        · exact Upd.opt_none
      · refine Upd.opt_ite ?_ ?_
        · refine Upd.opt_some <| goTo_hupd rfl ?_ ?_ ?_
          · intro u z1
            exact by with_reducible assumption
          · intro u z1
            exact Upd.after fmcGo_upd rfl <| by with_reducible assumption
          · exact .refl
        · exact Upd.opt_none
      · exact Upd.opt_ite (Upd.opt_some <| Upd.after bstReq_upd rfl .refl) Upd.opt_none
      · refine Upd.opt_ite ?_ ?_
        · exact Upd.opt_some <| Upd.after stwOp_upd rfl .refl
        · refine Upd.opt_ite ?_ ?_
          · refine Upd.opt_some <| goTo_hupd rfl ?_ ?_ ?_
            · intro u z1
              exact Upd.after wr_upd rfl <| by with_reducible assumption
            · intro u z1
              exact Upd.after retireGo_upd rfl <| by with_reducible assumption
            · exact .refl
          · exact Upd.opt_none
      · exact Upd.opt_ite (Upd.opt_some <| Upd.after pgtOp_upd rfl .refl) Upd.opt_none
      · exact Upd.opt_ite (Upd.opt_some <| Upd.after hatOp_upd rfl .refl) Upd.opt_none
      · exact Upd.opt_ite (Upd.opt_some <| Upd.after memRetrain_upd rfl .refl) Upd.opt_none
      · exact Upd.opt_none

theorem ctrlWrite_upd {s : State} {p v : Nat} :
    Upd (Part.allBut [.pending, .fuses, .straps, .cellar, .chunk]) s (State.ctrlWrite s p v) := by
  unfold State.ctrlWrite
  extract_lets x5 x6
  have hx5 : Upd (Part.allBut [.pending, .fuses, .straps, .cellar, .chunk]) s x5 := Upd.after wr_upd rfl .refl
  clear_value x5
  have hx6 : Upd (Part.allBut [.pending, .fuses, .straps, .cellar, .chunk]) s x6 := Upd.ite (Upd.after
    freezePage_upd rfl <| by with_reducible assumption) (Upd.after thawPage_upd rfl <| by with_reducible assumption)
  clear_value x6
  exact Upd.ite (Upd.after softReset_upd rfl <| by with_reducible assumption) (by with_reducible assumption)

theorem headerWrite_upd {s : State} {m : Master} {p o v : Nat} :
    Upd (Part.allBut [.pending, .fuses, .straps, .cellar, .chunk]) s (State.headerWrite s m p o v) := by
  unfold State.headerWrite
  exact Upd.ite (Upd.after ctrlWrite_upd rfl .refl) (Upd.ite (Upd.after irqClear_upd rfl .refl) (Upd.ite (Upd.after
    irqEnable_upd rfl .refl) (Upd.ite (Upd.after irqForced_upd rfl .refl) (Upd.ite (Upd.after pageWorld_upd rfl .refl)
    (Upd.ite (Upd.ite (Upd.after errClear_upd rfl .refl) .refl) .refl)))))

theorem xstatWrite_upd {s : State} {h : Half} {v : Nat} :
    Upd [.regs, .held, .cross] s (State.xstatWrite s h v) := by
  unfold State.xstatWrite
  extract_lets x8 x9 x10 x11 x12
  have hx8 : Upd [.regs, .held, .cross] s x8 := Upd.after store_upd rfl .refl
  clear_value x8
  clear_value x9
  clear_value x10
  clear_value x11
  have hx12 : Upd [.regs, .held, .cross] s x12 := Upd.ite (Upd.after setCross_upd rfl <| by with_reducible
    assumption) (by with_reducible assumption)
  clear_value x12
  exact Upd.ite (Upd.after xstatFound_upd rfl <| by with_reducible assumption) (by with_reducible assumption)

theorem celCtrl_upd {s : State} {v : Nat} :
    Upd [.regs, .cellar] s (State.celCtrl s v) := by
  unfold State.celCtrl
  exact Upd.after tickGo_upd rfl <| Upd.after xtalSet_upd rfl <| Upd.after wr_upd rfl .refl

theorem fuseWrite_upd {s : State} {v : Nat} :
    Upd [.regs, .security] s (State.fuseWrite s v) := by
  unfold State.fuseWrite
  extract_lets x3
  have hx3 : Upd [.regs, .security] s x3 := Upd.ite (Upd.after fuseEnc_upd rfl .refl) .refl
  clear_value x3
  exact Upd.ite (Upd.after fuseFall_upd rfl <| by with_reducible assumption) (by with_reducible assumption)

theorem gateWrite_upd {s : State} {h : Half} {v : Nat} :
    Upd [.regs, .power] s (State.gateWrite s h v) := by
  unfold State.gateWrite
  refine Upd.foldl (fun t x ht => ?_) _ ?_
  · extract_lets x8 x9
    clear_value x8
    clear_value x9
    exact Upd.ite (Upd.after gateReopen_upd rfl <| by with_reducible assumption) (Upd.ite (Upd.after gateGo_upd rfl
      <| by with_reducible assumption) (by with_reducible assumption))
  · exact .refl

theorem ppllWrite_upd {s : State} {h : Half} {n v : Nat} :
    Upd [.regs, .draws, .cross, .porches] s (State.ppllWrite s h n v) := by
  unfold State.ppllWrite
  extract_lets x7 x8 x9
  clear_value x7
  clear_value x8
  have hx9 : Upd [.regs, .draws, .cross, .porches] s x9 := Upd.ite .refl (Upd.after wrs_upd rfl .refl)
  clear_value x9
  exact Upd.ite (by with_reducible assumption) (Upd.after wr_upd rfl <| Upd.after setSrcReady_upd rfl <| by
    with_reducible assumption)

theorem pinWrite_upd {s : State} {o v : Nat} :
    Upd (Part.allBut [.pending, .held, .fuses, .straps, .cellar, .lines, .ids, .heatCopy, .stamps, .alloc, .prog,
      .recClear, .chunk, .loader, .chain, .selfTest, .course]) s (State.pinWrite s o v) := by
  unfold State.pinWrite
  extract_lets x5 x6
  clear_value x5
  clear_value x6
  split
  all_goals exact Upd.after gpioWith_upd rfl .refl

theorem funcWrite_upd {s : State} {i v : Nat} :
    Upd [.regs, .pins] s (State.funcWrite s i v) := by
  unfold State.funcWrite
  exact Upd.foldl (fun t x ht => Upd.after pinSwitch_upd rfl <| by with_reducible assumption) _ .refl

theorem ldrWrite_upd {s : State} {w : Nat} {v : Word} :
    Upd [.regs, .held, .wings] s (State.ldrWrite s w v) := by
  unfold State.ldrWrite
  extract_lets x4
  have hx4 : Upd [.regs, .held, .wings] s x4 := Upd.after store_upd rfl .refl
  clear_value x4
  exact Upd.ite (Upd.after lcFlush_upd rfl <| by with_reducible assumption) (by with_reducible assumption)

theorem writeAt_upd {s : State} {m : Master} {p o : Nat} {v : Word} :
    Upd (Part.allBut [.pending, .fuses, .straps, .chunk]) s (State.writeAt s m p o v) := by
  unfold State.writeAt
  extract_lets x8 x9 x10
  clear_value x8
  clear_value x9
  have hx10 : Upd (Part.allBut [.pending, .fuses, .straps, .chunk]) s x10 := Upd.after store_upd rfl .refl
  clear_value x10
  refine Upd.ite ?_ ?_
  · exact Upd.after headerWrite_upd rfl .refl
  · split
    · exact Upd.ite (Upd.after xstatWrite_upd rfl .refl) (Upd.ite .refl (by with_reducible assumption))
    · exact Upd.ite (Upd.after celCtrl_upd rfl .refl) (Upd.ite (Upd.after wr_upd rfl .refl) (by with_reducible
        assumption))
    · exact Upd.ite (Upd.after setReg_upd rfl .refl) (by with_reducible assumption)
    · exact Upd.ite (Upd.after fuseWrite_upd rfl .refl) (by with_reducible assumption)
    · exact Upd.ite (Upd.after cfgDeadline_upd rfl .refl) (by with_reducible assumption)
    · exact Upd.ite (Upd.after attBoot_upd rfl .refl) (by with_reducible assumption)
    · exact Upd.ite (Upd.ite (Upd.after g2Prog_upd rfl <| by with_reducible assumption) (by with_reducible
        assumption)) (Upd.ite (Upd.after g2Write_upd rfl .refl) (by with_reducible assumption))
    · exact Upd.ite (Upd.after gateWrite_upd rfl .refl) (Upd.ite (Upd.after ppllWrite_upd rfl .refl) (by
        with_reducible assumption))
    · exact Upd.ite (Upd.after vfabWrite_upd rfl .refl) (by with_reducible assumption)
    · exact Upd.ite (Upd.ite (Upd.after pinWrite_upd rfl .refl) .refl) (by with_reducible assumption)
    · exact Upd.ite .refl (Upd.ite (Upd.after funcWrite_upd rfl .refl) (by with_reducible assumption))
    · exact Upd.ite .refl (by with_reducible assumption)
    · exact Upd.ite (Upd.after ldrWrite_upd rfl .refl) (Upd.ite (Upd.after roscCtrl_upd rfl .refl) (by
        with_reducible assumption))
    · exact Upd.ite (Upd.ite (Upd.after mbGo_upd rfl <| by with_reducible assumption) (by with_reducible
        assumption)) (Upd.ite .refl (by with_reducible assumption))
    · exact Upd.after poolWatch_upd rfl <| by with_reducible assumption
    all_goals with_reducible assumption

theorem barWrite_upd {s : State} {m : Master} {off : Nat} {v : Word} :
    Upd (Part.allBut [.pending, .straps]) s (State.barWrite s m off v) := by
  unfold State.barWrite
  extract_lets p o
  have hw : Upd (Part.allBut [.pending, .straps]) s (s.toPage m p o fun u => u.writeAt m p o v) :=
    toPage_hupd rfl (fun _ hu => Upd.after writeAt_upd rfl hu) .refl
  cases e : s.regGo m p o v with
  | none => exact hw
  | some t => exact Upd.after (regGo_upd _ e) rfl .refl

theorem vfIrqEn_upd {s : State} {n v : Nat} :
    Upd [.regs, .out, .host] s (State.vfIrqEn s n v) := by
  unfold State.vfIrqEn
  extract_lets x6 x7 x8
  clear_value x6
  clear_value x7
  have hx8 : Upd [.regs, .out, .host] s x8 := Upd.after wr_upd rfl .refl
  clear_value x8
  exact Upd.foldl (fun t x ht => Upd.ite (Upd.after msix_upd rfl <| by with_reducible assumption) (by with_reducible
    assumption)) _ (by with_reducible assumption)

theorem vfWrite_upd {s : State} {n : BitVec 8} {o : Nat} {v : Word} :
    Upd (Part.allBut [.pending, .fuses, .straps, .cellar, .heatCopy, .prog, .recClear, .chunk, .loader, .chain,
      .selfTest, .course]) s (State.vfWrite s n o v) := by
  unfold State.vfWrite
  extract_lets x6 x7
  clear_value x6
  clear_value x7
  refine Upd.ite ?_ ?_
  · exact Upd.after doorbell_upd rfl .refl
  · refine Upd.ite ?_ ?_
    · exact Upd.after hatchSend_upd rfl .refl
    · refine Upd.ite ?_ ?_
      · exact Upd.after hatchReturn_upd rfl .refl
      · refine Upd.ite ?_ ?_
        · exact Upd.after stwOp_upd rfl .refl
        · refine Upd.ite ?_ ?_
          · exact Upd.after hatOp_upd rfl .refl
          · refine Upd.ite ?_ ?_
            · exact Upd.after pgtOp_upd rfl .refl
            · refine toVf_hupd rfl ?_ ?_
              · intro u z1
                exact Upd.ite (Upd.after vfIrqEn_upd rfl <| by with_reducible assumption) (Upd.after store_upd rfl
                  <| by with_reducible assumption)
              · exact .refl

theorem regWrite32_upd {s : State} {m : Master} {a : RegAddr} {d : Nat} {v : Word} :
    Upd (Part.allBut [.pending, .straps]) s (State.regWrite32 s m a d v) := by
  unfold State.regWrite32
  split
  · exact Upd.after barWrite_upd rfl .refl
  · exact Upd.after vfWrite_upd rfl .refl
  · exact .refl

theorem boardSwap_upd {s : State} {id : Nat} {c : Crew} :
    Upd (Part.allBut [.pending, .held, .fuses, .straps, .cellar, .power, .pins, .heatCopy, .prog, .recClear, .chunk,
      .loader, .chain, .g2, .selfTest, .course]) s (State.boardSwap s id c) := by
  unfold State.boardSwap
  extract_lets x6 x7 x8
  clear_value x6
  clear_value x7
  have hx8 : Upd (Part.allBut [.pending, .held, .fuses, .straps, .cellar, .power, .pins, .heatCopy, .prog,
    .recClear, .chunk, .loader, .chain, .g2, .selfTest, .course]) s x8 := Upd.after startSwap_upd rfl <| Upd.after
    drew_upd rfl .refl
  clear_value x8
  exact Upd.after swapReopen_upd rfl <| Upd.after swapRestore_upd rfl <| Upd.after swapFlip_upd rfl <| Upd.after
    swapLoad_upd rfl <| by with_reducible assumption

theorem boardCrew_upd {s : State} {e : LoadCrew} :
    Upd (Part.allBut [.pending, .held, .fuses, .straps, .cellar, .power, .pins, .heatCopy, .prog, .recClear, .chunk,
      .loader, .chain, .g2, .selfTest, .course]) s (State.boardCrew s e).2 := by
  unfold State.boardCrew
  split
  · exact .refl
  · refine Upd.ite_snd ?_ ?_
    · exact .refl
    · refine Upd.ite_snd ?_ ?_
      · exact .refl
      · refine Upd.ite_snd ?_ ?_
        · exact .refl
        · dsimp -zeta only
          exact Upd.ite (Upd.after boarded_upd rfl .refl) (Upd.after boardSwap_upd rfl .refl)

theorem boardCrews_upd {s : State} {x1 : List LoadCrew} :
    Upd (Part.allBut [.pending, .held, .fuses, .straps, .cellar, .power, .pins, .heatCopy, .prog, .recClear, .chunk,
      .loader, .chain, .g2, .selfTest, .course]) s (State.boardCrews s x1).2 := by
  unfold State.boardCrews
  split
  · exact .refl
  · split
    · rename_i t11 e11
      have ht11 : Upd (Part.allBut [.pending, .held, .fuses, .straps, .cellar, .power, .pins, .heatCopy, .prog,
        .recClear, .chunk, .loader, .chain, .g2, .selfTest, .course]) s t11 := Upd.of_pair e11 <| Upd.after
        boardCrew_upd rfl .refl
      exact by with_reducible assumption
    · rename_i t10 e10
      have ht10 : Upd (Part.allBut [.pending, .held, .fuses, .straps, .cellar, .power, .pins, .heatCopy, .prog,
        .recClear, .chunk, .loader, .chain, .g2, .selfTest, .course]) s t10 := Upd.of_pair e10 <| Upd.after
        boardCrew_upd rfl .refl
      exact Upd.after boardCrews_upd rfl <| by with_reducible assumption

theorem copyCrew_upd {s : State} {c : Crew} :
    Upd [.mem, .bad] s (State.copyCrew s c) := by
  unfold State.copyCrew
  refine Upd.foldl (fun t x ht => ?_) _ ?_
  · split
    exact Upd.after putWhole_upd rfl <| Upd.after putWhole_upd rfl <| by with_reducible assumption
  · exact .refl

theorem defaultMaps_upd {s : State} {e : LoadCrew} :
    Upd [.mem, .bad] s (State.defaultMaps s e) := by
  unfold State.defaultMaps
  split
  · exact .refl
  · exact Upd.ite (Upd.foldl (fun t x ht => Upd.after putWhole_upd rfl <| by with_reducible assumption) _ .refl) .refl

theorem hallWrite_upd {s : State} {w : Nat × Word} :
    Upd (Part.allBut [.pending, .fuses, .straps, .chunk]) s (State.hallWrite s w) := by
  unfold State.hallWrite
  exact Upd.ite .refl (Upd.after writeAt_upd rfl .refl)

theorem endAct_upd {body : List Byte} {s : State} {h : ImgHdr} :
    Upd (Part.allBut [.pending, .fuses, .straps, .chunk]) s (State.endAct body s h).2 := by
  unfold State.endAct
  extract_lets x4
  have hx4 : Upd (Part.allBut [.pending, .fuses, .straps, .chunk]) s x4 := Upd.foldl (fun t x ht => Upd.after
    defaultMaps_upd rfl <| by with_reducible assumption) _ (Upd.foldl (fun t x ht => Upd.after copyCrew_upd rfl <| by
    with_reducible assumption) _ .refl)
  clear_value x4
  split
  · exact .refl
  · split
    · rename_i t15 e15
      have ht15 : Upd (Part.allBut [.pending, .fuses, .straps, .chunk]) s t15 := Upd.of_pair e15 <| Upd.after
        boardCrews_upd rfl <| by with_reducible assumption
      exact by with_reducible assumption
    · rename_i t14 e14
      have ht14 : Upd (Part.allBut [.pending, .fuses, .straps, .chunk]) s t14 := Upd.of_pair e14 <| Upd.after
        boardCrews_upd rfl <| by with_reducible assumption
      extract_lets x17 x18
      have hx17 : Upd (Part.allBut [.pending, .fuses, .straps, .chunk]) s x17 := Upd.foldl (fun t x ht => Upd.after
        hallWrite_upd rfl <| by with_reducible assumption) _ (by with_reducible assumption)
      clear_value x17
      have hx18 : Upd (Part.allBut [.pending, .fuses, .straps, .chunk]) s x18 := Upd.after wr_upd rfl <| Upd.after
        modLoad_upd rfl <| by with_reducible assumption
      clear_value x18
      dsimp -zeta only
      exact Upd.after begin_upd rfl <| Upd.after raise_upd rfl <| by with_reducible assumption

end Sys2Proof.Machine.State
end

