-- ==== Sys2Proof/Laws/FrameCmds.lean ====
section
/-! SUPPORT. What each command may change (`Upd.Out`), command by command. -/

namespace Sys2Proof.Machine

open State

theorem execRoscWindowEnd_upd {wing : BitVec 4} {band : BitVec 2} {count : BitVec 24} {s : State} :
    Upd.Out [.regs, .out, .host, .cox] s (execRoscWindowEnd wing band count s) := by
  unfold execRoscWindowEnd
  extract_lets x6 x7
  clear_value x6
  clear_value x7
  exact Upd.out_next <| Upd.ite (Upd.after raise_upd rfl <| Upd.after wrs_upd rfl <| Upd.after step1_upd rfl .refl)
    .refl

theorem execTokenThroughStage_upd {wing : BitVec 4} {room : BitVec 8} {kind : StageKind} {n : BitVec 11} {s : State} :
    Upd.Out [.out, .doorway, .porches, .rooms, .fabric, .sigs, .blocks, .lines] s (execTokenThroughStage wing room
      kind n s) := by
  unfold execTokenThroughStage
  extract_lets x4
  clear_value x4
  exact Upd.out_next <| Upd.ite (Upd.after passToken_upd rfl .refl) .refl

theorem execOarMac_upd {room : BitVec 12} {oar : BitVec 3} {t : OarTok} {s : State} :
    Upd.Out [.out, .fabric, .blocks] s (execOarMac room oar t s) := by
  unfold execOarMac
  exact Upd.out_next <| Upd.after oarAsk_upd rfl .refl

theorem execOarMul_upd {room : BitVec 12} {oar : BitVec 3} {t : OarTok} {s : State} :
    Upd.Out [.out, .fabric, .blocks] s (execOarMul room oar t s) := by
  unfold execOarMul
  exact Upd.out_next <| Upd.after oarAsk_upd rfl .refl

theorem execOarClear_upd {room : BitVec 12} {oar : BitVec 3} {t : OarTok} {s : State} :
    Upd.Out [.out, .fabric, .blocks] s (execOarClear room oar t s) := by
  unfold execOarClear
  exact Upd.out_next <| Upd.after oarAsk_upd rfl .refl

theorem execOarMsub_upd {room : BitVec 12} {oar : BitVec 3} {t : OarTok} {s : State} :
    Upd.Out [.out, .fabric, .blocks] s (execOarMsub room oar t s) := by
  unfold execOarMsub
  exact Upd.out_next <| Upd.after oarAsk_upd rfl .refl

theorem execCupboardWrite_upd {room : BitVec 12} {cup : BitVec 2} {r : CupReq} {collide : Option CupReq} {s : State} :
    Upd.Out [.out, .draws, .fabric, .blocks] s (execCupboardWrite room cup r collide s) := by
  unfold execCupboardWrite
  exact Upd.out_next <| Upd.ite (Upd.after cupAccess_upd rfl .refl) .refl

theorem execOarReservedOp_upd {room : BitVec 12} {oar : BitVec 3} {t : OarTok} {s : State} :
    Upd.Out [.out, .fabric, .blocks] s (execOarReservedOp room oar t s) := by
  unfold execOarReservedOp
  exact Upd.out_next <| Upd.after oarAsk_upd rfl .refl

theorem execOarLoad_upd {room : BitVec 12} {oar : BitVec 3} {t : OarTok} {s : State} :
    Upd.Out [.out, .fabric, .blocks] s (execOarLoad room oar t s) := by
  unfold execOarLoad
  exact Upd.out_next <| Upd.after oarAsk_upd rfl .refl

theorem execCupboardRead_upd {room : BitVec 12} {cup : BitVec 2} {r : CupReq} {collide : Option CupReq} {s : State} :
    Upd.Out [.out, .draws, .fabric, .blocks] s (execCupboardRead room cup r collide s) := by
  unfold execCupboardRead
  exact Upd.out_next <| Upd.ite (Upd.after cupAccess_upd rfl .refl) .refl

theorem execIllegalCode_upd {room : BitVec 12} {cell : BitVec 11} {ins : Wires} {s : State} :
    Upd.Out [.rooms] s (execIllegalCode room cell ins s) := by
  unfold execIllegalCode
  extract_lets x6 x7
  clear_value x6
  clear_value x7
  exact Upd.out_next <| Upd.ite (Upd.after codeError_upd rfl .refl) .refl

theorem execOarEmit_upd {room : BitVec 12} {oar : BitVec 3} {t : OarTok} {s : State} :
    Upd.Out [.out, .fabric, .blocks] s (execOarEmit room oar t s) := by
  unfold execOarEmit
  exact Upd.out_next <| Upd.after oarAsk_upd rfl .refl

theorem execSwapRestore_upd {wing : BitVec 4} {cycles : Nat} {s : State} :
    Upd.Out (Part.allBut [.pending, .held, .fuses, .straps, .cellar, .power, .pins, .heatCopy, .prog, .recClear,
      .chunk, .loader, .chain, .g2, .selfTest, .course]) s (execSwapRestore wing cycles s) := by
  unfold execSwapRestore
  exact Upd.out_next <| Upd.after swapRestore_upd rfl .refl

theorem execSwapFlip_upd {wing : BitVec 4} {s : State} :
    Upd.Out [.draws, .cross, .porches, .rooms, .wings] s (execSwapFlip wing s) := by
  unfold execSwapFlip
  exact Upd.out_next <| Upd.after swapFlip_upd rfl .refl

theorem execSwapSave_upd {wing : BitVec 4} {now cycles : Nat} {s : State} :
    Upd.Out (Part.allBut [.pending, .held, .fuses, .straps, .cellar, .power, .pins, .heatCopy, .prog, .recClear,
      .chunk, .loader, .chain, .g2, .selfTest, .course]) s (execSwapSave wing now cycles s) := by
  unfold execSwapSave
  exact Upd.out_next <| Upd.after swapSave_upd rfl .refl

theorem execSwapReopen_upd {wing : BitVec 4} {cycles : Nat} {s : State} :
    Upd.Out (Part.allBut [.pending, .held, .fuses, .straps, .cellar, .power, .pins, .heatCopy, .prog, .recClear,
      .chunk, .loader, .chain, .g2, .selfTest, .course]) s (execSwapReopen wing cycles s) := by
  unfold execSwapReopen
  exact Upd.out_next <| Upd.after swapReopen_upd rfl .refl

theorem execIdCoolingExpiry_upd {id : BitVec 16} {s : State} :
    Upd.Out [.ids] s (execIdCoolingExpiry id s) := by
  unfold execIdCoolingExpiry
  refine Upd.out_next <| Upd.ids ?_ rfl
  exact .refl

theorem execCrewIdle_upd {id : BitVec 16} {s : State} :
    Upd.Out (Part.allBut [.pending, .held, .fuses, .straps, .cellar, .seq, .power, .security, .pins, .porches,
      .lines, .ids, .heatCopy, .stamps, .alloc, .prog, .recClear, .retiring, .chunk, .loader, .chain, .g2, .selfTest,
      .course]) s (execCrewIdle id s) := by
  unfold execCrewIdle
  exact Upd.out_next <| Upd.after idlePulse_upd rfl .refl

theorem execFaultNoticeRelease_upd {id : BitVec 16} {s : State} :
    Upd.Out [.regs, .out, .host, .crews, .mem, .bad, .stackCtl, .frames, .attic, .cox, .hatches, .gallery] s
      (execFaultNoticeRelease id s) := by
  unfold execFaultNoticeRelease
  refine Upd.out_next ?_
  split
  · exact .refl
  · exact Upd.after pushNotice_upd rfl <| Upd.after modCrew_upd rfl .refl

theorem execSwapLoad_upd {wing : BitVec 4} {cycles : Nat} {s : State} :
    Upd.Out (Part.allBut [.pending, .held, .fuses, .straps, .cellar, .power, .pins, .heatCopy, .prog, .recClear,
      .chunk, .loader, .chain, .g2, .selfTest, .course]) s (execSwapLoad wing cycles s) := by
  unfold execSwapLoad
  exact Upd.out_next <| Upd.after swapLoad_upd rfl .refl

theorem execAgeingPeriod_upd {id : BitVec 16} {s : State} :
    Upd.Out [.regs, .out, .draws, .doorway, .host, .rooms, .fabric, .refs, .sigs, .blocks, .crews, .stamps, .wings,
      .mem, .bad, .stackCtl, .frames, .reads, .attic, .cox, .hatches, .gallery] s (execAgeingPeriod id s) := by
  unfold execAgeingPeriod
  exact Upd.out_next <| Upd.after age_upd rfl .refl

theorem execSliceExpiry_upd {id : BitVec 16} {s : State} :
    Upd.Out [.regs, .out, .draws, .doorway, .host, .rooms, .fabric, .refs, .sigs, .blocks, .crews, .wings, .portOps,
      .mem, .bad, .stackCtl, .frames, .reads, .attic, .cox, .hatches, .gallery] s (execSliceExpiry id s) := by
  unfold execSliceExpiry
  exact Upd.out_next <| Upd.after sliceEnds_upd rfl .refl

theorem execHeatCopyUpdate_upd {hall : Half} {id : BitVec 16} {s : State} :
    Upd.Out [.regs, .out, .host, .heatCopy, .cox, .hatches] s (execHeatCopyUpdate hall id s) := by
  unfold execHeatCopyUpdate
  refine Upd.out_next ?_
  extract_lets x4
  have hx4 : Upd [.regs, .out, .host, .heatCopy, .cox, .hatches] s x4 := by
    unfold x4
    refine Upd.ite ?_ ?_
    · exact .refl
    · refine Upd.heatCopy ?_ rfl
      exact .refl
  clear_value x4
  exact Upd.ite .refl (Upd.foldl (fun t x ht => Upd.after settle_upd rfl <| by with_reducible assumption) _ (by
    with_reducible assumption))

theorem execWindowWrite_upd {id : BitVec 16} {pos : BitVec 6} {va : BitVec 40} {bytes : List Byte} {s : State} :
    Upd.Out (Part.allBut [.pending, .held, .fuses, .straps, .cellar, .seq, .power, .cross, .pins, .refs, .lines,
      .ids, .heatCopy, .portOps, .alloc, .prog, .recClear, .retiring, .chunk, .loader, .chain, .g2, .selfTest,
      .course]) s (execWindowWrite id pos va bytes s) := by
  unfold execWindowWrite
  exact Upd.out_next <| Upd.after windowWrite_upd rfl .refl

theorem execWindowRead_upd {id : BitVec 16} {pos : BitVec 6} {tag : BitVec 4} {va : BitVec 40} {len : BitVec 8} {s :
  State} :
    Upd.Out (Part.allBut [.pending, .held, .fuses, .straps, .cellar, .seq, .power, .cross, .pins, .refs, .lines,
      .ids, .heatCopy, .portOps, .alloc, .prog, .recClear, .retiring, .chunk, .loader, .chain, .g2, .selfTest,
      .course]) s (execWindowRead id pos tag va len s) := by
  unfold execWindowRead
  exact Upd.out_next <| Upd.after windowRead_upd rfl .refl

theorem execMemoryCompletion_upd {id : BitVec 16} {heat : BitVec 4} {tag : Option (BitVec 10)} {s : State} :
    Upd.Out [.regs, .out, .rooms, .blocks, .crews, .reads] s (execMemoryCompletion id heat tag s) := by
  unfold execMemoryCompletion
  exact Upd.out_next <| Upd.after memDone_upd rfl .refl

theorem execPatrolRead_upd {stack : BitVec 2} {s : State} :
    Upd.Out [.regs, .out, .host, .mem, .bad, .stackCtl, .frames, .attic, .cox, .gallery] s (execPatrolRead stack s)
      := by
  unfold execPatrolRead
  exact Upd.out_next <| Upd.after patrol_upd rfl .refl

theorem execReclaimWalk_upd {h : Half} {s : State} :
    Upd.Out [.regs, .out, .host, .stackCtl, .frames, .alloc, .attic, .cox, .gallery] s (execReclaimWalk h s) := by
  unfold execReclaimWalk
  exact Upd.out_next <| Upd.after reclaimWalk_upd rfl .refl

theorem execZeroingFrameDone_upd {h : Half} {s : State} :
    Upd.Out [.draws, .mem, .bad, .frames, .alloc] s (execZeroingFrameDone h s) := by
  unfold execZeroingFrameDone
  exact Upd.out_next <| Upd.after zeroOne_upd rfl .refl

theorem execStandbyEntryStart_upd {s : State} :
    Upd.Out [.draws, .seq, .doorway, .porches, .rooms, .fabric, .sigs, .blocks, .crews, .wings, .reads] s
      (execStandbyEntryStart s) := by
  unfold execStandbyEntryStart
  exact Upd.out_next <| Upd.after standbyStart_upd rfl .refl

theorem execPwrgdFall_upd {s : State} :
    Upd.Out (Part.allBut [.pending]) s (execPwrgdFall s) := by
  unfold execPwrgdFall
  refine Upd.out_next ?_
  extract_lets x2
  clear_value x2
  refine Upd.after railsLow_upd rfl <| Upd.straps ?_ rfl
  exact .refl

theorem execAlwaysOnSupplyLost_upd {s : State} :
    Upd.Out (Part.allBut [.pending, .straps]) s (execAlwaysOnSupplyLost s) := by
  unfold execAlwaysOnSupplyLost
  refine Upd.out_next ?_
  extract_lets x2
  clear_value x2
  exact Upd.after dark_upd rfl <| Upd.regs_cellar .refl rfl (fun c => ⟨c.mem, c.fabric, c.regs_filter _, c.crews,
    c.hatches⟩)

theorem execStackTemperatureRead_upd {stack : BitVec 2} {t : Byte} {s : State} :
    Upd.Out [.regs, .out, .seq, .power, .rooms, .loader, .g2, .selfTest] s (execStackTemperatureRead stack t s) := by
  unfold execStackTemperatureRead
  exact Upd.out_next <| Upd.after stackTemp_upd rfl .refl

theorem execModeReqHalt_upd {m : Master} {h : Half} {s : State} :
    Upd.Out (Part.allBut [.pending, .straps]) s (execModeReqHalt m h s) := by
  unfold execModeReqHalt
  exact Upd.out_next <| Upd.after modeReqBy_upd rfl .refl

theorem execModeReqBoot_upd {m : Master} {h : Half} {s : State} :
    Upd.Out (Part.allBut [.pending, .straps]) s (execModeReqBoot m h s) := by
  unfold execModeReqBoot
  exact Upd.out_next <| Upd.after modeReqBy_upd rfl .refl

theorem execStandbyPowerDown_upd {s : State} :
    Upd.Out [.regs, .out, .draws, .seq, .power, .cross, .porches] s (execStandbyPowerDown s) := by
  unfold execStandbyPowerDown
  exact Upd.out_next <| Upd.after powerDown_upd rfl .refl

theorem execPwrgdRise_upd {s : State} :
    Upd.Out (Part.allBut [.pending]) s (execPwrgdRise s) := by
  unfold execPwrgdRise
  refine Upd.out_next ?_
  extract_lets x2
  clear_value x2
  refine Upd.after maybeBoot_upd rfl <| Upd.straps ?_ rfl
  exact .refl

theorem execModeReqTest_upd {m : Master} {h : Half} {s : State} :
    Upd.Out (Part.allBut [.pending, .straps]) s (execModeReqTest m h s) := by
  unfold execModeReqTest
  exact Upd.out_next <| Upd.after modeReqBy_upd rfl .refl

theorem execLeaseAck_upd {s : State} :
    Upd.Out [.regs] s (execLeaseAck s) := by
  unfold execLeaseAck
  exact Upd.out_next <| Upd.after renewed_upd rfl .refl

theorem execBootStacksTrained_upd {repairs0 repairs1 repairs2 repairs3 : Byte} {s : State} :
    Upd.Out (Part.allBut [.pending, .held, .fuses, .straps, .cellar, .cross, .pins, .heatCopy, .prog, .recClear,
      .chunk]) s (execBootStacksTrained repairs0 repairs1 repairs2 repairs3 s) := by
  unfold execBootStacksTrained
  exact Upd.out_next <| Upd.after stacksTrained_upd rfl .refl

theorem execErrNWatchExpiry_upd {h : Half} {s : State} :
    Upd.Out [.regs, .out, .seq, .loader, .g2, .selfTest] s (execErrNWatchExpiry h s) := by
  unfold execErrNWatchExpiry
  exact Upd.out_next <| Upd.ite (Upd.after haltHalf_upd rfl .refl) .refl

theorem execLeaseRenewal_upd {s : State} :
    Upd.Out [.regs, .out] s (execLeaseRenewal s) := by
  unfold execLeaseRenewal
  exact Upd.out_next <| Upd.after renewal_upd rfl .refl

theorem execCoreRailLow_upd {h : Half} {fab : Bool} {s : State} :
    Upd.Out (Part.allBut [.pending, .straps]) s (execCoreRailLow h fab s) := by
  unfold execCoreRailLow
  refine Upd.out_next ?_
  extract_lets x4
  clear_value x4
  refine Upd.ite ?_ ?_
  · exact .refl
  · refine Upd.after railsLow_upd rfl <| Upd.cellar ?_ rfl
    exact .refl

theorem execRstNAssert_upd {s : State} :
    Upd.Out (Part.allBut [.pending]) s (execRstNAssert s) := by
  unfold execRstNAssert
  refine Upd.out_next ?_
  extract_lets x3 x4
  clear_value x3
  have hx4 : Upd (Part.allBut [.pending]) s x4 := by
    unfold x4
    refine Upd.straps ?_ rfl
    exact .refl
  exact Upd.ite (by with_reducible assumption) (Upd.after boot_upd rfl <| by with_reducible assumption)

theorem execLeaderLeaseLapse_upd {s : State} :
    Upd.Out [.regs, .out, .host, .cox] s (execLeaderLeaseLapse s) := by
  unfold execLeaderLeaseLapse
  exact Upd.out_next <| Upd.after leaderLapses_upd rfl .refl

theorem execAlwaysOnSupplyValid_upd {s : State} :
    Upd.Out [.cellar] s (execAlwaysOnSupplyValid s) := by
  unfold execAlwaysOnSupplyValid
  refine Upd.out_next ?_
  extract_lets x2
  clear_value x2
  refine Upd.ite ?_ ?_
  · refine Upd.cellar ?_ rfl
    exact .refl
  · exact .refl

theorem execThermalComparatorFire_upd {_h : Half} {s : State} :
    Upd.Out [.regs, .out, .draws, .cellar, .seq, .power, .cross, .porches, .rooms, .loader, .g2, .selfTest] s
      (execThermalComparatorFire _h s) := by
  unfold execThermalComparatorFire
  exact Upd.out_next <| Upd.after comparatorFires_upd rfl .refl

theorem execCoreRailRestored_upd {h : Half} {fab : Bool} {s : State} :
    Upd.Out (Part.allBut [.pending, .straps]) s (execCoreRailRestored h fab s) := by
  unfold execCoreRailRestored
  refine Upd.out_next ?_
  extract_lets x4
  clear_value x4
  refine Upd.after maybeBoot_upd rfl <| Upd.cellar ?_ rfl
  exact .refl

theorem execTestComplete_upd {failedRooms : List (BitVec 12)} {badFrames : List (BitVec 16)} {hallFail stackFail :
  Bool} {s : State} :
    Upd.Out (Part.allBut [.pending, .straps]) s (execTestComplete failedRooms badFrames hallFail stackFail s) := by
  unfold execTestComplete
  exact Upd.out_next <| Upd.after testEnds_upd rfl .refl

theorem execQuiesceLimitExpiry_upd {wing : BitVec 4} {pinned : Bool} {now cycles : Nat} {s : State} :
    Upd.Out (Part.allBut [.pending, .held, .fuses, .straps, .cellar, .pins, .heatCopy, .prog, .recClear, .chunk]) s
      (execQuiesceLimitExpiry wing pinned now cycles s) := by
  unfold execQuiesceLimitExpiry
  exact Upd.out_next <| Upd.ite (Upd.ite (Upd.after standbyPin_upd rfl .refl) .refl)
    (Upd.ite (Upd.after standbyLimit_upd rfl .refl) (Upd.after quiesceLimit_upd rfl .refl))

theorem execRomSelfCheckDone_upd {eastOk westOk : Bool} {s : State} :
    Upd.Out [.regs, .out, .draws, .seq, .cross, .porches, .loader, .g2, .selfTest, .cox] s (execRomSelfCheckDone
      eastOk westOk s) := by
  unfold execRomSelfCheckDone
  exact Upd.out_next <| Upd.after romChecked_upd rfl .refl

theorem execGalleryTrainTimeout_upd {s : State} :
    Upd.Out [.regs, .out, .seq, .loader, .g2, .selfTest] s (execGalleryTrainTimeout s) := by
  unfold execGalleryTrainTimeout
  exact Upd.out_next <| Upd.after bootNoGallery_upd rfl .refl

theorem execGalleryUp_upd {s : State} :
    Upd.Out (Part.allBut [.pending, .straps]) s (execGalleryUp s) := by
  unfold execGalleryUp
  exact Upd.out_next <| Upd.after bootGallery_upd rfl .refl

theorem execModeTransitionMessage_upd {s : State} :
    Upd.Out [.regs, .out, .seq, .loader, .g2, .selfTest] s (execModeTransitionMessage s) := by
  unfold execModeTransitionMessage
  exact Upd.out_next <| Upd.after followerChange_upd rfl .refl

theorem execStandbyWake_upd {sources : BitVec 4} {lines : BitVec 16} {pllReady : Bool} {s : State} :
    Upd.Out (Part.allBut [.pending, .held, .fuses, .straps, .cellar, .security, .lines, .ids, .heatCopy, .stamps,
      .alloc, .prog, .recClear, .chunk, .loader, .chain, .selfTest, .course]) s (execStandbyWake sources lines
      pllReady s) := by
  unfold execStandbyWake
  exact Upd.out_next <| Upd.after standbyWakes_upd rfl .refl

theorem execStackTrainTimeout_upd {stack : BitVec 2} {s : State} :
    Upd.Out [.regs, .out, .seq, .loader, .g2, .selfTest] s (execStackTrainTimeout stack s) := by
  unfold execStackTrainTimeout
  exact Upd.out_next <| Upd.ite (Upd.after haltHalf_upd rfl .refl) .refl

theorem execLeadConflict_upd {h : Half} {s : State} :
    Upd.Out [.regs, .out, .host, .cox] s (execLeadConflict h s) := by
  unfold execLeadConflict
  exact Upd.out_next <| Upd.after conflict_upd rfl .refl

theorem execModeReqInvalidTarget_upd {m : Master} {h : Half} {target : BitVec 4} {s : State} :
    Upd.Out (Part.allBut [.pending, .straps]) s (execModeReqInvalidTarget m h target s) := by
  unfold execModeReqInvalidTarget
  exact Upd.out_next <| Upd.after modeReqBy_upd rfl .refl

theorem execRstNRelease_upd {s : State} :
    Upd.Out [.regs, .out, .draws, .straps, .seq, .power, .rooms, .frames, .loader, .g2, .selfTest] s
      (execRstNRelease s) := by
  unfold execRstNRelease
  refine Upd.out_next ?_
  extract_lets x2
  clear_value x2
  refine Upd.after bootStep2_upd rfl <| Upd.straps ?_ rfl
  exact .refl

theorem execStandbyEntryTimeout_upd {s : State} :
    Upd.Out (Part.allBut [.pending, .held, .fuses, .straps, .cellar, .cross, .pins, .heatCopy, .prog, .recClear,
      .chunk]) s (execStandbyEntryTimeout s) := by
  unfold execStandbyEntryTimeout
  exact Upd.out_next <| Upd.ite (Upd.after standbyAbandon_upd rfl .refl) .refl

theorem execHalfHaltMessage_upd {h : Half} {s : State} :
    Upd.Out [.regs, .out, .seq, .loader, .g2, .selfTest] s (execHalfHaltMessage h s) := by
  unfold execHalfHaltMessage
  exact Upd.out_next <| Upd.ite (Upd.after haltHalf_upd rfl .refl) .refl

theorem execModeTransitionAck_upd {s : State} :
    Upd.Out (Part.allBut [.pending, .held, .fuses, .straps, .cellar, .cross, .pins, .heatCopy, .prog, .recClear,
      .chunk]) s (execModeTransitionAck s) := by
  unfold execModeTransitionAck
  exact Upd.out_next <| Upd.after leaderFollows_upd rfl .refl

theorem execModeReqStandby_upd {m : Master} {h : Half} {s : State} :
    Upd.Out (Part.allBut [.pending, .straps]) s (execModeReqStandby m h s) := by
  unfold execModeReqStandby
  exact Upd.out_next <| Upd.after modeReqBy_upd rfl .refl

theorem execGalleryRetry_upd {trained : Bool} {s : State} :
    Upd.Out (Part.allBut [.pending, .held, .fuses, .straps, .cellar, .pins, .heatCopy, .prog, .recClear, .chunk]) s
      (execGalleryRetry trained s) := by
  unfold execGalleryRetry
  exact Upd.out_next <| Upd.after galleryTries_upd rfl .refl

theorem execGalleryLinkFail_upd {retrained : Bool} {s : State} :
    Upd.Out [.regs, .out, .seq, .host, .loader, .g2, .selfTest, .cox, .gallery] s (execGalleryLinkFail retrained s)
      := by
  unfold execGalleryLinkFail
  exact Upd.out_next <| Upd.after galleryFails_upd rfl .refl

theorem execWakePllTimeout_upd {s : State} :
    Upd.Out (Part.allBut [.pending, .held, .fuses, .straps, .cellar, .power, .cross, .security, .lines, .ids,
      .heatCopy, .stamps, .alloc, .prog, .recClear, .chunk, .loader, .chain, .selfTest, .course]) s
      (execWakePllTimeout s) := by
  unfold execWakePllTimeout
  exact Upd.out_next <| Upd.after wakeLate_upd rfl .refl

theorem execAlwQualified_upd {s : State} :
    Upd.Out (Part.allBut [.pending, .straps]) s (execAlwQualified s) := by
  unfold execAlwQualified
  exact Upd.out_next <| Upd.ite (Upd.after maybeBoot_upd rfl <| Upd.after cellarEnter_upd rfl .refl) .refl

theorem execThermalSample_upd {readings : List Int} {s : State} :
    Upd.Out [.regs, .out, .cellar, .seq, .power, .rooms, .loader, .g2, .selfTest] s (execThermalSample readings s)
      := by
  unfold execThermalSample
  exact Upd.out_next <| Upd.after thermalSample_upd rfl .refl

theorem execFollowerLeaseLapse_upd {s : State} :
    Upd.Out [.regs] s (execFollowerLeaseLapse s) := by
  unfold execFollowerLeaseLapse
  exact Upd.out_next <| Upd.after followerLapses_upd rfl .refl

theorem execInvalCrew_upd {p : Port} {s : State} :
    Upd.Out (Part.allBut [.pending, .held, .fuses, .straps, .cellar, .lines, .ids, .heatCopy, .stamps, .alloc,
      .prog, .recClear, .chunk, .loader, .chain, .selfTest, .course]) s (execInvalCrew p s) := by
  unfold execInvalCrew
  refine Upd.out_next <| toPort_hupd rfl ?_ ?_
  · intro u z1
    exact Upd.after invalOf_upd rfl <| by with_reducible assumption
  · exact .refl

theorem execDoorbellInvalidOp_upd {fn : BitVec 8} {id : BitVec 16} {heat op : BitVec 4} {s : State} :
    Upd.Out (Part.allBut [.pending, .held, .fuses, .straps, .cellar, .lines, .ids, .heatCopy, .alloc, .prog,
      .recClear, .chunk, .loader, .chain, .selfTest, .course]) s (execDoorbellInvalidOp fn id heat op s) := by
  unfold execDoorbellInvalidOp
  exact Upd.out_next <| Upd.ite .refl (Upd.after doorbell_upd rfl .refl)

theorem execFrameTake_upd {p : Port} {s : State} :
    Upd.Out (Part.allBut [.pending, .held, .fuses, .straps, .cellar, .lines, .ids, .heatCopy, .stamps, .alloc,
      .prog, .recClear, .chunk, .loader, .chain, .selfTest, .course]) s (execFrameTake p s) := by
  unfold execFrameTake
  refine Upd.out_next <| toPort_hupd rfl ?_ ?_
  · intro u z1
    exact Upd.after frameTake_upd rfl <| by with_reducible assumption
  · exact .refl

theorem execDoorbellPark_upd {fn : BitVec 8} {id : BitVec 16} {heat : BitVec 4} {s : State} :
    Upd.Out (Part.allBut [.pending, .held, .fuses, .straps, .cellar, .lines, .ids, .heatCopy, .alloc, .prog,
      .recClear, .chunk, .loader, .chain, .selfTest, .course]) s (execDoorbellPark fn id heat s) := by
  unfold execDoorbellPark
  exact Upd.out_next <| Upd.after doorbell_upd rfl .refl

theorem execPgtBadOp_upd {p : Port} {op : BitVec 4} {s : State} :
    Upd.Out (Part.allBut [.pending, .held, .fuses, .straps, .cellar, .lines, .ids, .heatCopy, .stamps, .alloc,
      .prog, .recClear, .chunk, .loader, .chain, .selfTest, .course]) s (execPgtBadOp p op s) := by
  unfold execPgtBadOp
  refine Upd.out_next <| Upd.ite ?_ ?_
  · refine toPort_hupd rfl ?_ ?_
    · intro u z1
      exact Upd.ite (by with_reducible assumption) (Upd.after pgtEnd_upd rfl <| Upd.after portStart_upd rfl <| by
        with_reducible assumption)
    · exact .refl
  · exact .refl

theorem execHint_upd {p : Port} {s : State} :
    Upd.Out (Part.allBut [.pending, .held, .fuses, .straps, .cellar, .lines, .ids, .heatCopy, .stamps, .alloc,
      .prog, .recClear, .chunk, .loader, .chain, .selfTest, .course]) s (execHint p s) := by
  unfold execHint
  exact Upd.out_next <| Upd.after hintAt_upd rfl .refl

theorem execPark_upd {p : Port} {s : State} :
    Upd.Out (Part.allBut [.pending, .held, .fuses, .straps, .cellar, .lines, .ids, .heatCopy, .stamps, .alloc,
      .prog, .recClear, .chunk, .loader, .chain, .selfTest, .course]) s (execPark p s) := by
  unfold execPark
  exact Upd.out_next <| Upd.after parkAt_upd rfl .refl

theorem execStwBadOp_upd {p : Port} {op : BitVec 4} {s : State} :
    Upd.Out (Part.allBut [.pending, .held, .fuses, .straps, .cellar, .lines, .ids, .heatCopy, .stamps, .alloc,
      .prog, .recClear, .chunk, .loader, .chain, .selfTest, .course]) s (execStwBadOp p op s) := by
  unfold execStwBadOp
  refine Upd.out_next <| Upd.ite ?_ ?_
  · refine stwGo_hupd rfl ?_ ?_
    · intro u z1
      exact Upd.after stwEnd_upd rfl <| by with_reducible assumption
    · exact .refl
  · exact .refl

theorem execRoomRetire_upd {m : Master} {h : Half} {room : BitVec 12} {s : State} :
    Upd.Out (Part.allBut [.pending, .held, .fuses, .straps, .cellar, .lines, .ids, .heatCopy, .stamps, .alloc,
      .prog, .recClear, .chunk, .loader, .chain, .selfTest, .course]) s (execRoomRetire m h room s) := by
  unfold execRoomRetire
  refine Upd.out_next <| goTo_hupd rfl ?_ ?_ ?_
  · intro u z1
    exact Upd.after wr_upd rfl <| by with_reducible assumption
  · intro u z1
    exact Upd.after retireGo_upd rfl <| by with_reducible assumption
  · exact .refl

theorem execInvalPage_upd {p : Port} {s : State} :
    Upd.Out (Part.allBut [.pending, .held, .fuses, .straps, .cellar, .lines, .ids, .heatCopy, .stamps, .alloc,
      .prog, .recClear, .chunk, .loader, .chain, .selfTest, .course]) s (execInvalPage p s) := by
  unfold execInvalPage
  refine Upd.out_next <| toPort_hupd rfl ?_ ?_
  · intro u z1
    exact Upd.after invalOf_upd rfl <| by with_reducible assumption
  · exact .refl

theorem execRoscCtrlWrite_upd {m : Master} {wing : BitVec 4} {v : Word} {s : State} :
    Upd.Out (Part.allBut [.pending, .held, .fuses, .straps, .cellar, .lines, .ids, .heatCopy, .stamps, .alloc,
      .prog, .recClear, .chunk, .loader, .chain, .selfTest, .course]) s (execRoscCtrlWrite m wing v s) := by
  unfold execRoscCtrlWrite
  refine Upd.out_next <| toPage_hupd rfl ?_ ?_
  · intro u z1
    exact Upd.after roscCtrl_upd rfl <| by with_reducible assumption
  · exact .refl

theorem execInvalComplete_upd {p : Port} {s : State} :
    Upd.Out [.regs, .out, .host, .portOps, .cox] s (execInvalComplete p s) := by
  unfold execInvalComplete
  exact Upd.out_next <| Upd.after invalComplete_upd rfl .refl

theorem execQuery_upd {p : Port} {s : State} :
    Upd.Out (Part.allBut [.pending, .held, .fuses, .straps, .cellar, .lines, .ids, .heatCopy, .stamps, .alloc,
      .prog, .recClear, .chunk, .loader, .chain, .selfTest, .course]) s (execQuery p s) := by
  unfold execQuery
  exact Upd.out_next <| Upd.after queryCmd_upd rfl .refl

theorem execCreate_upd {p : Port} {s : State} :
    Upd.Out (Part.allBut [.pending, .held, .fuses, .straps, .cellar, .lines, .heatCopy, .alloc, .prog, .recClear,
      .chunk, .loader, .chain, .selfTest, .course]) s (execCreate p s) := by
  unfold execCreate
  exact Upd.out_next <| Upd.after createCmd_upd rfl .refl

theorem execFrameGive_upd {p : Port} {s : State} :
    Upd.Out (Part.allBut [.pending, .held, .fuses, .straps, .cellar, .lines, .ids, .heatCopy, .stamps, .alloc,
      .prog, .recClear, .chunk, .loader, .chain, .selfTest, .course]) s (execFrameGive p s) := by
  unfold execFrameGive
  refine Upd.out_next <| toPort_hupd rfl ?_ ?_
  · intro u z1
    exact Upd.after frameGive_upd rfl <| by with_reducible assumption
  · exact .refl

theorem execResume_upd {p : Port} {s : State} :
    Upd.Out (Part.allBut [.pending, .held, .fuses, .straps, .cellar, .lines, .ids, .heatCopy, .stamps, .alloc,
      .prog, .recClear, .chunk, .loader, .chain, .selfTest, .course]) s (execResume p s) := by
  unfold execResume
  exact Upd.out_next <| Upd.after resumeAt_upd rfl .refl

theorem execRun_upd {p : Port} {s : State} :
    Upd.Out (Part.allBut [.pending, .held, .fuses, .straps, .cellar, .lines, .ids, .heatCopy, .alloc, .prog,
      .recClear, .chunk, .loader, .chain, .selfTest, .course]) s (execRun p s) := by
  unfold execRun
  exact Upd.out_next <| Upd.after runAt_upd rfl .refl

theorem execDoorbellHint_upd {fn : BitVec 8} {id : BitVec 16} {heat : BitVec 4} {s : State} :
    Upd.Out (Part.allBut [.pending, .held, .fuses, .straps, .cellar, .lines, .ids, .heatCopy, .alloc, .prog,
      .recClear, .chunk, .loader, .chain, .selfTest, .course]) s (execDoorbellHint fn id heat s) := by
  unfold execDoorbellHint
  exact Upd.out_next <| Upd.after doorbell_upd rfl .refl

theorem execDoorbellRun_upd {fn : BitVec 8} {id : BitVec 16} {heat : BitVec 4} {s : State} :
    Upd.Out (Part.allBut [.pending, .held, .fuses, .straps, .cellar, .lines, .ids, .heatCopy, .alloc, .prog,
      .recClear, .chunk, .loader, .chain, .selfTest, .course]) s (execDoorbellRun fn id heat s) := by
  unfold execDoorbellRun
  exact Upd.out_next <| Upd.after doorbell_upd rfl .refl

theorem execReconfig_upd {p : Port} {s : State} :
    Upd.Out (Part.allBut [.pending, .held, .fuses, .straps, .cellar, .lines, .ids, .heatCopy, .stamps, .alloc,
      .prog, .recClear, .chunk, .loader, .chain, .selfTest, .course]) s (execReconfig p s) := by
  unfold execReconfig
  exact Upd.out_next <| Upd.after reconfigAt_upd rfl .refl

theorem execInvalAll_upd {p : Port} {s : State} :
    Upd.Out (Part.allBut [.pending, .held, .fuses, .straps, .cellar, .lines, .ids, .heatCopy, .stamps, .alloc,
      .prog, .recClear, .chunk, .loader, .chain, .selfTest, .course]) s (execInvalAll p s) := by
  unfold execInvalAll
  refine Upd.out_next <| toPort_hupd rfl ?_ ?_
  · intro u z1
    exact Upd.after invalAll_upd rfl <| by with_reducible assumption
  · exact .refl

theorem execGranTake_upd {p : Port} {s : State} :
    Upd.Out (Part.allBut [.pending, .held, .fuses, .straps, .cellar, .lines, .ids, .heatCopy, .stamps, .prog,
      .recClear, .chunk, .loader, .chain, .selfTest, .course]) s (execGranTake p s) := by
  unfold execGranTake
  refine Upd.out_next <| toPort_hupd rfl ?_ ?_
  · intro u z1
    exact Upd.after granTake_upd rfl <| by with_reducible assumption
  · exact .refl

theorem execGranGive_upd {p : Port} {s : State} :
    Upd.Out (Part.allBut [.pending, .held, .fuses, .straps, .cellar, .lines, .ids, .heatCopy, .stamps, .prog,
      .recClear, .chunk, .loader, .chain, .selfTest, .course]) s (execGranGive p s) := by
  unfold execGranGive
  refine Upd.out_next <| toPort_hupd rfl ?_ ?_
  · intro u z1
    exact Upd.after granGive_upd rfl <| by with_reducible assumption
  · exact .refl

theorem execUpdate_upd {p : Port} {image : Bool} {s : State} :
    Upd.Out (Part.allBut [.pending, .held, .fuses, .straps, .cellar, .lines, .ids, .heatCopy, .stamps, .alloc,
      .prog, .recClear, .chunk, .loader, .chain, .selfTest, .course]) s (execUpdate p image s) := by
  unfold execUpdate
  exact Upd.out_next <| Upd.after updateCmd_upd rfl .refl

theorem execLcFlush_upd {m : Master} {wing : BitVec 4} {s : State} :
    Upd.Out (Part.allBut [.pending, .held, .fuses, .straps, .cellar, .lines, .ids, .heatCopy, .stamps, .alloc,
      .prog, .recClear, .chunk, .loader, .chain, .selfTest, .course]) s (execLcFlush m wing s) := by
  unfold execLcFlush
  refine Upd.out_next <| toPage_hupd rfl ?_ ?_
  · intro u z1
    exact Upd.after lcFlush_upd rfl <| by with_reducible assumption
  · exact .refl

theorem execRestart_upd {p : Port} {s : State} :
    Upd.Out (Part.allBut [.pending, .held, .fuses, .straps, .cellar, .lines, .ids, .heatCopy, .stamps, .alloc,
      .prog, .recClear, .chunk, .loader, .chain, .selfTest, .course]) s (execRestart p s) := by
  unfold execRestart
  exact Upd.out_next <| Upd.after restartAt_upd rfl .refl

theorem execDestroy_upd {p : Port} {s : State} :
    Upd.Out (Part.allBut [.pending, .held, .fuses, .straps, .cellar, .heatCopy, .prog, .recClear, .chunk, .loader,
      .chain, .selfTest, .course]) s (execDestroy p s) := by
  unfold execDestroy
  exact Upd.out_next <| Upd.after destroyAt_upd rfl .refl

theorem execHatchDelivery_upd {hatch : BitVec 16} {words : BitVec 17} {s : State} :
    Upd.Out [.regs, .out, .draws, .doorway, .porches, .host, .rooms, .fabric, .sigs, .blocks, .crews, .wings, .mem,
      .bad, .stackCtl, .frames, .reads, .attic, .cox, .hatches, .gallery] s (execHatchDelivery hatch words s) := by
  unfold execHatchDelivery
  exact Upd.out_next <| Upd.after hatchDelivery_upd rfl .refl

theorem execHatchCloseComplete_upd {hatch : BitVec 16} {s : State} :
    Upd.Out [.regs, .out, .host, .portOps, .mem, .bad, .cox, .hatches] s (execHatchCloseComplete hatch s) := by
  unfold execHatchCloseComplete
  exact Upd.out_next <| Upd.after hatchClosed_upd rfl .refl

theorem execHatBadOp_upd {p : Port} {op : BitVec 4} {s : State} :
    Upd.Out (Part.allBut [.pending, .held, .fuses, .straps, .cellar, .lines, .ids, .heatCopy, .stamps, .alloc,
      .prog, .recClear, .chunk, .loader, .chain, .selfTest, .course]) s (execHatBadOp p op s) := by
  unfold execHatBadOp
  refine Upd.out_next <| Upd.ite ?_ ?_
  · refine toPort_hupd rfl ?_ ?_
    · intro u z1
      exact Upd.ite (by with_reducible assumption) (Upd.after hatEnd_upd rfl <| Upd.after portStart_upd rfl <| by
        with_reducible assumption)
    · exact .refl
  · exact .refl

theorem execHatchReturn_upd {fn : BitVec 8} {hatch count : BitVec 16} {s : State} :
    Upd.Out (Part.allBut [.pending, .held, .fuses, .straps, .cellar, .lines, .ids, .heatCopy, .stamps, .alloc,
      .prog, .recClear, .chunk, .loader, .chain, .selfTest, .course]) s (execHatchReturn fn hatch count s) := by
  unfold execHatchReturn
  exact Upd.out_next <| Upd.after hatchReturn_upd rfl .refl

theorem execHatchPush_upd {id : BitVec 16} {pos : BitVec 6} {hatch len : BitVec 16} {bytes : List Byte} {also : List
  SamePush} {s : State} :
    Upd.Out (Part.allBut [.pending, .held, .fuses, .straps, .cellar, .lines, .ids, .heatCopy, .stamps, .alloc,
      .prog, .recClear, .chunk, .loader, .chain, .selfTest, .course]) s (execHatchPush id pos hatch len bytes s also)
      := by
  unfold execHatchPush
  exact Upd.out_next <| Upd.after hatchPush_upd rfl .refl

theorem execHatchQuery_upd {p : Port} {s : State} :
    Upd.Out (Part.allBut [.pending, .held, .fuses, .straps, .cellar, .lines, .ids, .heatCopy, .stamps, .alloc,
      .prog, .recClear, .chunk, .loader, .chain, .selfTest, .course]) s (execHatchQuery p s) := by
  unfold execHatchQuery
  exact Upd.out_next <| Upd.after hatGo_upd rfl .refl

theorem execHatchClose_upd {p : Port} {s : State} :
    Upd.Out (Part.allBut [.pending, .held, .fuses, .straps, .cellar, .lines, .ids, .heatCopy, .stamps, .alloc,
      .prog, .recClear, .chunk, .loader, .chain, .selfTest, .course]) s (execHatchClose p s) := by
  unfold execHatchClose
  exact Upd.out_next <| Upd.after hatGo_upd rfl .refl

theorem execHatchOpen_upd {p : Port} {s : State} :
    Upd.Out (Part.allBut [.pending, .held, .fuses, .straps, .cellar, .lines, .ids, .heatCopy, .stamps, .alloc,
      .prog, .recClear, .chunk, .loader, .chain, .selfTest, .course]) s (execHatchOpen p s) := by
  unfold execHatchOpen
  exact Upd.out_next <| Upd.after hatGo_upd rfl .refl

theorem execRingHandoff_upd {hatch : BitVec 16} {s : State} :
    Upd.Out [.regs, .out, .draws, .security, .host, .mem, .bad, .stackCtl, .frames, .attic, .cox, .hatches,
      .gallery, .course] s (execRingHandoff hatch s) := by
  unfold execRingHandoff
  exact Upd.out_next <| Upd.after handoff_upd rfl .refl

theorem execNoticePost_upd {hatch : BitVec 16} {number : Word} {s : State} :
    Upd.Out (Part.allBut [.pending, .held, .fuses, .straps, .cellar, .seq, .power, .cross, .security, .pins,
      .porches, .lines, .ids, .heatCopy, .alloc, .prog, .recClear, .retiring, .chunk, .loader, .chain, .g2, .selfTest,
      .course]) s (execNoticePost hatch number s) := by
  unfold execNoticePost
  exact Upd.out_next <| Upd.after noticePost_upd rfl .refl

theorem execHostCopy_upd {hatch : BitVec 16} {s : State} :
    Upd.Out [.regs, .out, .host, .stackCtl, .frames, .attic, .cox, .hatches, .gallery] s (execHostCopy hatch s) := by
  unfold execHostCopy
  exact Upd.out_next <| Upd.after hostCopy_upd rfl .refl

theorem execHatchSend_upd {fn : BitVec 8} {hatch len : BitVec 16} {s : State} :
    Upd.Out (Part.allBut [.pending, .held, .fuses, .straps, .cellar, .lines, .ids, .heatCopy, .stamps, .alloc,
      .prog, .recClear, .chunk, .loader, .chain, .selfTest, .course]) s (execHatchSend fn hatch len s) := by
  unfold execHatchSend
  exact Upd.out_next <| Upd.after hatchSend_upd rfl .refl

theorem execUndefinedOffsetAccess_upd {m : Master} {off : Nat} {w : Option Word} {s : State} :
    Upd.Out (Part.allBut [.pending, .held, .fuses, .straps, .cellar, .lines, .ids, .heatCopy, .stamps, .alloc,
      .prog, .recClear, .chunk, .loader, .chain, .selfTest, .course]) s (execUndefinedOffsetAccess m off w s) := by
  unfold execUndefinedOffsetAccess
  exact Upd.out_next <| Upd.after gatedIf_upd rfl .refl

theorem execPerstAssert_upd {s : State} :
    Upd.Out (Part.allBut [.pending, .fuses, .straps, .cellar, .cross, .pins, .heatCopy, .prog, .recClear, .chunk]) s
      (execPerstAssert s) := by
  unfold execPerstAssert
  exact Upd.out_next <| Upd.after perst_upd rfl .refl

theorem execBar4Read_upd {fn : BitVec 8} {off : BitVec 40} {len : BitVec 13} {s : State} :
    Upd.Out (Part.allBut [.pending, .held, .fuses, .straps, .cellar, .lines, .ids, .heatCopy, .stamps, .alloc,
      .prog, .recClear, .chunk, .loader, .chain, .selfTest, .course]) s (execBar4Read fn off len s) := by
  unfold execBar4Read
  exact Upd.out_next <| Upd.after bar4Read_upd rfl .refl

theorem execClosedPageAccess_upd {m : Master} {off : Nat} {w : Option Word} {s : State} :
    Upd.Out (Part.allBut [.pending, .held, .fuses, .straps, .cellar, .lines, .ids, .heatCopy, .stamps, .alloc,
      .prog, .recClear, .chunk, .loader, .chain, .selfTest, .course]) s (execClosedPageAccess m off w s) := by
  unfold execClosedPageAccess
  exact Upd.out_next <| Upd.after gatedIf_upd rfl .refl

theorem execHostLinkDlUp_upd {speed : BitVec 4} {width : BitVec 5} {s : State} :
    Upd.Out [.regs, .out, .host, .cox] s (execHostLinkDlUp speed width s) := by
  unfold execHostLinkDlUp
  exact Upd.out_next <| Upd.after dlSet_upd rfl .refl

theorem execHostLinkDlDown_upd {s : State} :
    Upd.Out [.regs, .out, .host, .cox] s (execHostLinkDlDown s) := by
  unfold execHostLinkDlDown
  exact Upd.out_next <| Upd.after dlSet_upd rfl .refl

theorem execBar0OutOfRangeAccess_upd {m : Master} {off : Nat} {w : Option Word} {s : State} :
    Upd.Out (Part.allBut [.pending, .held, .fuses, .straps, .cellar, .lines, .ids, .heatCopy, .stamps, .alloc,
      .prog, .recClear, .chunk, .loader, .chain, .selfTest, .course]) s (execBar0OutOfRangeAccess m off w s) := by
  unfold execBar0OutOfRangeAccess
  exact Upd.out_next <| Upd.after gatedIf_upd rfl .refl

theorem execFunctionLevelReset_upd {fn : BitVec 8} {s : State} :
    Upd.Out (Part.allBut [.pending, .held, .fuses, .straps, .cellar, .security, .lines, .ids, .heatCopy, .stamps,
      .alloc, .prog, .recClear, .chunk, .loader, .chain, .selfTest, .course]) s (execFunctionLevelReset fn s) := by
  unfold execFunctionLevelReset
  exact Upd.out_next <| Upd.after flr_upd rfl .refl

theorem execBar0NarrowAccess_upd {m : Master} {off : Nat} {_w : Option (BitVec 16)} {s : State} :
    Upd.Out (Part.allBut [.pending, .held, .fuses, .straps, .cellar, .security, .lines, .ids, .heatCopy, .stamps,
      .alloc, .prog, .recClear, .chunk, .loader, .chain, .selfTest, .course]) s (execBar0NarrowAccess m off _w s) :=
      by
  unfold execBar0NarrowAccess
  refine Upd.out_next ?_
  split
  · exact .refl
  · exact Upd.after emit_upd rfl <| Upd.after hostWake_upd rfl .refl

theorem execUnreachableHalfAccess_upd {m : Master} {off : Nat} {w : Option Word} {s : State} :
    Upd.Out (Part.allBut [.pending, .held, .fuses, .straps, .cellar, .lines, .ids, .heatCopy, .stamps, .alloc,
      .prog, .recClear, .chunk, .loader, .chain, .selfTest, .course]) s (execUnreachableHalfAccess m off w s) := by
  unfold execUnreachableHalfAccess
  exact Upd.out_next <| Upd.after gatedIf_upd rfl .refl

theorem execBar4Write_upd {fn : BitVec 8} {off : BitVec 40} {bytes : List Byte} {s : State} :
    Upd.Out (Part.allBut [.pending, .held, .fuses, .straps, .cellar, .lines, .ids, .heatCopy, .stamps, .alloc,
      .prog, .recClear, .chunk, .loader, .chain, .selfTest, .course]) s (execBar4Write fn off bytes s) := by
  unfold execBar4Write
  exact Upd.out_next <| Upd.after bar4Write_upd rfl .refl

theorem execPageWorldViolation_upd {m : Master} {off : Nat} {w : Option Word} {s : State} :
    Upd.Out (Part.allBut [.pending, .held, .fuses, .straps, .cellar, .lines, .ids, .heatCopy, .stamps, .alloc,
      .prog, .recClear, .chunk, .loader, .chain, .selfTest, .course]) s (execPageWorldViolation m off w s) := by
  unfold execPageWorldViolation
  exact Upd.out_next <| Upd.after gatedIf_upd rfl .refl

theorem execConfigRequest_upd {fn : BitVec 8} {r : CfgReq} {s : State} :
    Upd.Out (Part.allBut [.pending, .held, .fuses, .straps, .cellar, .security, .lines, .ids, .heatCopy, .stamps,
      .alloc, .prog, .recClear, .chunk, .loader, .chain, .selfTest, .course]) s (execConfigRequest fn r s) := by
  unfold execConfigRequest
  exact Upd.out_next <| Upd.after configReq_upd rfl .refl

theorem execLcsReqEnd_upd {m : Master} {s : State} :
    Upd.Out (Part.allBut [.pending, .held, .fuses, .straps, .cellar, .lines, .ids, .heatCopy, .stamps, .alloc,
      .prog, .recClear, .chunk, .loader, .chain, .selfTest, .course]) s (execLcsReqEnd m s) := by
  unfold execLcsReqEnd
  exact Upd.out_next <| Upd.after lcsReq_upd rfl .refl

theorem execTapIdcode_upd {s : State} :
    Upd.Out [.out, .pins] s (execTapIdcode s) := by
  unfold execTapIdcode
  exact Upd.out_next <| Upd.after emit_upd rfl <| Upd.after tapSet_upd rfl .refl

theorem execTapClamp_upd {s : State} :
    Upd.Out [.regs, .out, .pins] s (execTapClamp s) := by
  unfold execTapClamp
  exact Upd.out_next <| Upd.after tapTest_upd rfl .refl

theorem execKeyCheck_upd {m : Master} {vbat : Bool} {index : BitVec 2} {s : State} :
    Upd.Out (Part.allBut [.pending, .held, .fuses, .straps, .cellar, .lines, .ids, .heatCopy, .stamps, .alloc,
      .prog, .recClear, .chunk, .loader, .chain, .selfTest, .course]) s (execKeyCheck m vbat index s) := by
  unfold execKeyCheck
  exact Upd.out_next <| Upd.after keyCtrl_upd rfl .refl

theorem execTapExtest_upd {s : State} :
    Upd.Out [.regs, .out, .pins] s (execTapExtest s) := by
  unfold execTapExtest
  exact Upd.out_next <| Upd.after tapTest_upd rfl .refl

theorem execKeyProgram_upd {m : Master} {vbat : Bool} {index : BitVec 2} {vbatGood : Bool} {s : State} :
    Upd.Out (Part.allBut [.pending, .held, .fuses, .straps, .cellar, .lines, .ids, .heatCopy, .stamps, .alloc,
      .prog, .recClear, .chunk, .loader, .chain, .selfTest, .course]) s (execKeyProgram m vbat index vbatGood s) := by
  unfold execKeyProgram
  exact Upd.out_next <| Upd.after keyCtrl_upd rfl .refl

theorem execLcsReqProd_upd {m : Master} {s : State} :
    Upd.Out (Part.allBut [.pending, .held, .fuses, .straps, .cellar, .lines, .ids, .heatCopy, .stamps, .alloc,
      .prog, .recClear, .chunk, .loader, .chain, .selfTest, .course]) s (execLcsReqProd m s) := by
  unfold execLcsReqProd
  exact Upd.out_next <| Upd.after lcsReq_upd rfl .refl

theorem execFuseFallbackEn_upd {m : Master} {s : State} :
    Upd.Out (Part.allBut [.pending, .held, .fuses, .straps, .cellar, .lines, .ids, .heatCopy, .stamps, .alloc,
      .prog, .recClear, .chunk, .loader, .chain, .selfTest, .course]) s (execFuseFallbackEn m s) := by
  unfold execFuseFallbackEn
  refine Upd.out_next <| toPage_hupd rfl ?_ ?_
  · intro u z1
    exact Upd.after fuseFall_upd rfl <| by with_reducible assumption
  · exact .refl

theorem execKeyOpDone_upd {burnt : BitVec 256} {s : State} :
    Upd.Out [.regs, .out, .security, .host, .cox] s (execKeyOpDone burnt s) := by
  unfold execKeyOpDone
  exact Upd.out_next <| Upd.after keyBurnt_upd rfl .refl

theorem execLcsReqDone_upd {burnt : Bool} {s : State} :
    Upd.Out [.regs, .out, .security, .host, .cox] s (execLcsReqDone burnt s) := by
  unfold execLcsReqDone
  exact Upd.out_next <| Upd.after lcsDone_upd rfl .refl

theorem execTapHighz_upd {s : State} :
    Upd.Out [.regs, .out, .pins] s (execTapHighz s) := by
  unfold execTapHighz
  exact Upd.out_next <| Upd.after tapTest_upd rfl .refl

theorem execTapBypass_upd {s : State} :
    Upd.Out [.out, .pins] s (execTapBypass s) := by
  unfold execTapBypass
  exact Upd.out_next <| Upd.after emit_upd rfl <| Upd.after tapSet_upd rfl .refl

theorem execFuseEncRequired_upd {m : Master} {s : State} :
    Upd.Out (Part.allBut [.pending, .held, .fuses, .straps, .cellar, .lines, .ids, .heatCopy, .stamps, .alloc,
      .prog, .recClear, .chunk, .loader, .chain, .selfTest, .course]) s (execFuseEncRequired m s) := by
  unfold execFuseEncRequired
  refine Upd.out_next <| toPage_hupd rfl ?_ ?_
  · intro u z1
    exact Upd.after fuseEnc_upd rfl <| by with_reducible assumption
  · exact .refl

theorem execLcsReqRma_upd {m : Master} {s : State} :
    Upd.Out (Part.allBut [.pending, .held, .fuses, .straps, .cellar, .lines, .ids, .heatCopy, .stamps, .alloc,
      .prog, .recClear, .chunk, .loader, .chain, .selfTest, .course]) s (execLcsReqRma m s) := by
  unfold execLcsReqRma
  exact Upd.out_next <| Upd.after lcsReq_upd rfl .refl

theorem execVbatLoss_upd {s : State} :
    Upd.Out [.security] s (execVbatLoss s) := by
  unfold execVbatLoss
  exact Upd.out_next <| Upd.after vbatLost_upd rfl .refl

theorem execTapSamplePreload_upd {bsr : List Bool} {s : State} :
    Upd.Out [.out, .draws, .pins] s (execTapSamplePreload bsr s) := by
  unfold execTapSamplePreload
  extract_lets x4 x5
  have hx4 : Upd [.out, .draws, .pins] s x4 := Upd.after drew_upd rfl <| Upd.after tapSet_upd rfl .refl
  clear_value x4
  clear_value x5
  refine Upd.out_next <| Upd.after emit_upd rfl <| Upd.pins ?_ rfl
  exact by with_reducible assumption

theorem execLcsReqInvalid_upd {m : Master} {target : BitVec 4} {s : State} :
    Upd.Out (Part.allBut [.pending, .held, .fuses, .straps, .cellar, .lines, .ids, .heatCopy, .stamps, .alloc,
      .prog, .recClear, .chunk, .loader, .chain, .selfTest, .course]) s (execLcsReqInvalid m target s) := by
  unfold execLcsReqInvalid
  exact Upd.out_next <| Upd.after lcsReq_upd rfl .refl

theorem execUnfreeze_upd {m : Master} {kind : BitVec 3} {id : BitVec 16} {s : State} :
    Upd.Out (Part.allBut [.pending, .held, .fuses, .straps, .cellar, .lines, .ids, .heatCopy, .stamps, .alloc,
      .prog, .recClear, .chunk, .loader, .chain, .selfTest, .course]) s (execUnfreeze m kind id s) := by
  unfold execUnfreeze
  refine Upd.out_next <| goTo_hupd rfl ?_ ?_ ?_
  · intro u z1
    exact Upd.after wrs_upd rfl <| by with_reducible assumption
  · intro u z1
    exact Upd.after unfreezeGo_upd rfl <| by with_reducible assumption
  · exact .refl

theorem execKeyZeroise_upd {m : Master} {vbat : Bool} {index : BitVec 2} {s : State} :
    Upd.Out (Part.allBut [.pending, .held, .fuses, .straps, .cellar, .lines, .ids, .heatCopy, .stamps, .alloc,
      .prog, .recClear, .chunk, .loader, .chain, .selfTest, .course]) s (execKeyZeroise m vbat index s) := by
  unfold execKeyZeroise
  exact Upd.out_next <| Upd.after keyCtrl_upd rfl .refl

theorem execPorchTokenBoundary_upd {h : Half} {j : BitVec 4} {seen : BitVec 16} {ins : List Byte} {acked : BitVec 16} {s : State} :
    Upd.Out [.regs, .out, .porches, .host, .fabric, .sigs, .cox] s (execPorchTokenBoundary h j seen ins acked s) := by
  unfold execPorchTokenBoundary
  exact Upd.out_next <| Upd.after porchBoundary_upd rfl .refl

theorem execPinFunctionSwitch_upd {m : Master} {pin : BitVec 6} {f : BitVec 4} {s : State} :
    Upd.Out (Part.allBut [.pending, .held, .fuses, .straps, .cellar, .lines, .ids, .heatCopy, .stamps, .alloc,
      .prog, .recClear, .chunk, .loader, .chain, .selfTest, .course]) s (execPinFunctionSwitch m pin f s) := by
  unfold execPinFunctionSwitch
  refine Upd.out_next <| toPage_hupd rfl ?_ ?_
  · intro u z1
    exact Upd.after pinSwitch_upd rfl <| by with_reducible assumption
  · exact .refl

theorem execSdwClr_upd {h : Half} {q : BitVec 2} {mask : BitVec 16} {also : List GpioWrite} {s : State} :
    Upd.Out (Part.allBut [.pending, .held, .fuses, .straps, .cellar, .lines, .ids, .heatCopy, .stamps, .alloc,
      .prog, .recClear, .chunk, .loader, .chain, .selfTest, .course]) s (execSdwClr h q mask also s) := by
  unfold execSdwClr
  exact Upd.out_next <| Upd.after gpioSdw_upd rfl .refl

theorem execPinOutWrite_upd {m : Master} {h : Half} {q : BitVec 2} {v : BitVec 16} {also : List GpioWrite} {s :
  State} :
    Upd.Out (Part.allBut [.pending, .held, .fuses, .straps, .cellar, .lines, .ids, .heatCopy, .stamps, .alloc,
      .prog, .recClear, .chunk, .loader, .chain, .selfTest, .course]) s (execPinOutWrite m h q v also s) := by
  unfold execPinOutWrite
  exact Upd.out_next <| Upd.after gpioHost_upd rfl .refl

theorem execPinClrWrite_upd {m : Master} {h : Half} {q : BitVec 2} {v : BitVec 16} {also : List GpioWrite} {s :
  State} :
    Upd.Out (Part.allBut [.pending, .held, .fuses, .straps, .cellar, .lines, .ids, .heatCopy, .stamps, .alloc,
      .prog, .recClear, .chunk, .loader, .chain, .selfTest, .course]) s (execPinClrWrite m h q v also s) := by
  unfold execPinClrWrite
  exact Upd.out_next <| Upd.after gpioHost_upd rfl .refl

theorem execSdwOe_upd {h : Half} {q : BitVec 2} {mask v : BitVec 16} {also : List GpioWrite} {s : State} :
    Upd.Out (Part.allBut [.pending, .held, .fuses, .straps, .cellar, .lines, .ids, .heatCopy, .stamps, .alloc,
      .prog, .recClear, .chunk, .loader, .chain, .selfTest, .course]) s (execSdwOe h q mask v also s) := by
  unfold execSdwOe
  exact Upd.out_next <| Upd.after gpioSdw_upd rfl .refl

theorem execSdwSet_upd {h : Half} {q : BitVec 2} {mask : BitVec 16} {also : List GpioWrite} {s : State} :
    Upd.Out (Part.allBut [.pending, .held, .fuses, .straps, .cellar, .lines, .ids, .heatCopy, .stamps, .alloc,
      .prog, .recClear, .chunk, .loader, .chain, .selfTest, .course]) s (execSdwSet h q mask also s) := by
  unfold execSdwSet
  exact Upd.out_next <| Upd.after gpioSdw_upd rfl .refl

theorem execFunctionSwitchWindowEnd_upd {pin : BitVec 6} {s : State} :
    Upd.Out [.pins] s (execFunctionSwitchWindowEnd pin s) := by
  unfold execFunctionSwitchWindowEnd
  refine Upd.out_next ?_
  extract_lets x3
  clear_value x3
  refine Upd.pins ?_ rfl
  exact .refl

theorem execSdwData_upd {h : Half} {q : BitVec 2} {mask v : BitVec 16} {also : List GpioWrite} {s : State} :
    Upd.Out (Part.allBut [.pending, .held, .fuses, .straps, .cellar, .lines, .ids, .heatCopy, .stamps, .alloc,
      .prog, .recClear, .chunk, .loader, .chain, .selfTest, .course]) s (execSdwData h q mask v also s) := by
  unfold execSdwData
  exact Upd.out_next <| Upd.after gpioSdw_upd rfl .refl

theorem execSmbusBlockRead_upd {addr : BitVec 7} {code : Byte} {pec : Bool} {s : State} :
    Upd.Out [.out] s (execSmbusBlockRead code s addr pec) := by
  unfold execSmbusBlockRead
  exact Upd.out_next <| Upd.after smbus_upd rfl .refl

theorem execCoxGpioWrite_upd {oe : Bool} {q : BitVec 2} {v : BitVec 16} {also : List GpioWrite} {s : State} :
    Upd.Out (Part.allBut [.pending, .held, .fuses, .straps, .cellar, .lines, .ids, .heatCopy, .stamps, .alloc,
      .prog, .recClear, .chunk, .loader, .chain, .selfTest, .course]) s (execCoxGpioWrite oe q v also s) := by
  unfold execCoxGpioWrite
  exact Upd.out_next <| Upd.ite (Upd.after gpioWith_upd rfl .refl) .refl

theorem execPinSetWrite_upd {m : Master} {h : Half} {q : BitVec 2} {v : BitVec 16} {also : List GpioWrite} {s :
  State} :
    Upd.Out (Part.allBut [.pending, .held, .fuses, .straps, .cellar, .lines, .ids, .heatCopy, .stamps, .alloc,
      .prog, .recClear, .chunk, .loader, .chain, .selfTest, .course]) s (execPinSetWrite m h q v also s) := by
  unfold execPinSetWrite
  exact Upd.out_next <| Upd.after gpioHost_upd rfl .refl

theorem execPinInputChange_upd {pin : BitVec 6} {level : Bool} {s : State} :
    Upd.Out (Part.allBut [.pending, .held, .fuses, .straps, .cellar, .security, .lines, .ids, .heatCopy, .stamps,
      .alloc, .prog, .recClear, .chunk, .loader, .chain, .selfTest, .course]) s (execPinInputChange pin level s) := by
  unfold execPinInputChange
  exact Upd.out_next <| Upd.after pinChange_upd rfl .refl

theorem execPinOeWrite_upd {m : Master} {h : Half} {q : BitVec 2} {v : BitVec 16} {also : List GpioWrite} {s :
  State} :
    Upd.Out (Part.allBut [.pending, .held, .fuses, .straps, .cellar, .lines, .ids, .heatCopy, .stamps, .alloc,
      .prog, .recClear, .chunk, .loader, .chain, .selfTest, .course]) s (execPinOeWrite m h q v also s) := by
  unfold execPinOeWrite
  exact Upd.out_next <| Upd.after gpioHost_upd rfl .refl

theorem execGovernorSample_upd {h : Half} {halfWatts : BitVec 11} {hottest : Int} {s : State} :
    Upd.Out [.regs, .draws, .power] s (execGovernorSample h halfWatts hottest s) := by
  unfold execGovernorSample
  exact Upd.out_next <| Upd.after govSample_upd rfl .refl

theorem execServiceMuxSwitch_upd {m : Master} {h : Half} {target : BitVec 2} {s : State} :
    Upd.Out (Part.allBut [.pending, .held, .fuses, .straps, .cellar, .lines, .ids, .heatCopy, .stamps, .alloc,
      .prog, .recClear, .chunk, .loader, .chain, .selfTest, .course]) s (execServiceMuxSwitch m h target s) := by
  unfold execServiceMuxSwitch
  refine Upd.out_next <| goTo_hupd rfl ?_ ?_ ?_
  · intro u z1
    exact Upd.after wrs_upd rfl <| by with_reducible assumption
  · intro u z1
    exact Upd.after swGo_upd rfl <| by with_reducible assumption
  · exact .refl

theorem execGateForced_upd {h : Half} {b : Gated} {off : BitVec 12} {s : State} :
    Upd.Out [.regs, .power] s (execGateForced h b off s) := by
  unfold execGateForced
  exact Upd.out_next <| Upd.after gateForce_upd rfl .refl

theorem execFmcMeasurementEnd_upd {h : Half} {edges : Nat} {s : State} :
    Upd.Out [.regs, .out, .host, .cox] s (execFmcMeasurementEnd h edges s) := by
  unfold execFmcMeasurementEnd
  exact Upd.out_next <| Upd.after fmcDone_upd rfl .refl

theorem execGovernorUndo_upd {h : Half} {s : State} :
    Upd.Out [.regs, .draws, .power, .cross, .porches] s (execGovernorUndo h s) := by
  unfold execGovernorUndo
  exact Upd.out_next <| Upd.after govUndo_upd rfl .refl

theorem execXtalStart_upd {m : Master} {s : State} :
    Upd.Out (Part.allBut [.pending, .held, .fuses, .straps, .cellar, .lines, .ids, .heatCopy, .stamps, .alloc,
      .prog, .recClear, .chunk, .loader, .chain, .selfTest, .course]) s (execXtalStart m s) := by
  unfold execXtalStart
  refine Upd.out_next <| toPage_hupd rfl ?_ ?_
  · intro u z1
    exact Upd.after xtalSet_upd rfl <| by with_reducible assumption
  · exact .refl

theorem execGateOpen_upd {m : Master} {h : Half} {b : Gated} {s : State} :
    Upd.Out (Part.allBut [.pending, .held, .fuses, .straps, .cellar, .lines, .ids, .heatCopy, .stamps, .alloc,
      .prog, .recClear, .chunk, .loader, .chain, .selfTest, .course]) s (execGateOpen m h b s) := by
  unfold execGateOpen
  refine Upd.out_next <| toPage_hupd rfl ?_ ?_
  · intro u z1
    exact Upd.after gateReopen_upd rfl <| by with_reducible assumption
  · exact .refl

theorem execTickSwitch_upd {m : Master} {crystal : Bool} {s : State} :
    Upd.Out (Part.allBut [.pending, .held, .fuses, .straps, .lines, .ids, .heatCopy, .stamps, .alloc, .prog,
      .recClear, .chunk, .loader, .chain, .selfTest, .course]) s (execTickSwitch m crystal s) := by
  unfold execTickSwitch
  refine Upd.out_next <| toPage_hupd rfl ?_ ?_
  · intro u z1
    exact Upd.after tickGo_upd rfl <| by with_reducible assumption
  · exact .refl

theorem execOpPllTimeout_upd {h : Half} {s : State} :
    Upd.Out [.regs, .out, .draws, .power, .cross, .porches, .host, .cox] s (execOpPllTimeout h s) := by
  unfold execOpPllTimeout
  exact Upd.out_next <| Upd.after opLate_upd rfl .refl

theorem execOpChange_upd {m : Master} {h : Half} {target : BitVec 3} {s : State} :
    Upd.Out (Part.allBut [.pending, .held, .fuses, .straps, .cellar, .lines, .ids, .heatCopy, .stamps, .alloc,
      .prog, .recClear, .chunk, .loader, .chain, .selfTest, .course]) s (execOpChange m h target s) := by
  unfold execOpChange
  refine Upd.out_next <| goTo_hupd rfl ?_ ?_ ?_
  · intro u z1
    exact Upd.after wr_upd rfl <| by with_reducible assumption
  · intro u z1
    exact Upd.after opGo_upd rfl <| by with_reducible assumption
  · exact .refl

theorem execGatePortIdle_upd {h : Half} {b : Gated} {s : State} :
    Upd.Out [.regs, .power] s (execGatePortIdle h b s) := by
  unfold execGatePortIdle
  exact Upd.out_next <| Upd.after gatePort_upd rfl .refl

theorem execMonitorWindow_upd {h : Half} {counts : List (ClockSrc × Nat)} {s : State} :
    Upd.Out [.regs, .out, .draws, .cellar, .seq, .power, .cross, .porches, .host, .loader, .g2, .selfTest, .cox] s
      (execMonitorWindow h counts s) := by
  unfold execMonitorWindow
  exact Upd.out_next <| Upd.after monitor_upd rfl .refl

theorem execFmcMeasure_upd {m : Master} {h : Half} {s : State} :
    Upd.Out (Part.allBut [.pending, .held, .fuses, .straps, .cellar, .lines, .ids, .heatCopy, .stamps, .alloc,
      .prog, .recClear, .chunk, .loader, .chain, .selfTest, .course]) s (execFmcMeasure m h s) := by
  unfold execFmcMeasure
  refine Upd.out_next <| goTo_hupd rfl ?_ ?_ ?_
  · intro u z1
    exact by with_reducible assumption
  · intro u z1
    exact Upd.after fmcGo_upd rfl <| by with_reducible assumption
  · exact .refl

theorem execAvsTransaction_upd {h : Half} {crcOk : List Bool} {s : State} :
    Upd.Out [.regs, .out, .draws, .power, .cross, .porches, .host, .cox] s (execAvsTransaction h crcOk s) := by
  unfold execAvsTransaction
  exact Upd.out_next <| Upd.after avsEnd_upd rfl .refl

theorem execCelTimerExpiry_upd {s : State} :
    Upd.Out (Part.allBut [.pending, .held, .fuses, .straps, .cellar, .security, .lines, .ids, .heatCopy, .stamps,
      .alloc, .prog, .recClear, .chunk, .loader, .chain, .selfTest, .course]) s (execCelTimerExpiry s) := by
  unfold execCelTimerExpiry
  exact Upd.out_next <| Upd.after timerEnd_upd rfl .refl

theorem execSwitchEscape_upd {x : Mux} {s : State} :
    Upd.Out [.regs, .out, .draws, .cellar, .power, .cross, .porches, .host, .cox] s (execSwitchEscape x s) := by
  unfold execSwitchEscape
  exact Upd.out_next <| Upd.after escape_upd rfl .refl

theorem execGateEngineDone_upd {h : Half} {b : Gated} {s : State} :
    Upd.Out [.power] s (execGateEngineDone h b s) := by
  unfold execGateEngineDone
  exact Upd.out_next <| Upd.after gateEngine_upd rfl .refl

theorem execSourceReady_upd {h : Half} {c : ClockSrc} {s : State} :
    Upd.Out (Part.allBut [.pending, .held, .fuses, .straps, .cellar, .security, .lines, .ids, .heatCopy, .stamps,
      .alloc, .prog, .recClear, .chunk, .chain, .course]) s (execSourceReady h c s) := by
  unfold execSourceReady
  exact Upd.out_next <| Upd.after sourceUp_upd rfl .refl

theorem execCelTimerWrite_upd {m : Master} {v : Word} {s : State} :
    Upd.Out (Part.allBut [.pending, .held, .fuses, .straps, .cellar, .lines, .ids, .heatCopy, .stamps, .alloc,
      .prog, .recClear, .chunk, .loader, .chain, .selfTest, .course]) s (execCelTimerWrite m v s) := by
  unfold execCelTimerWrite
  refine Upd.out_next <| toPage_hupd rfl ?_ ?_
  · intro u z1
    exact Upd.after wr_upd rfl <| by with_reducible assumption
  · exact .refl

theorem execOpVoltageSettled_upd {h : Half} {s : State} :
    Upd.Out [.regs, .out, .draws, .power, .cross, .porches, .host, .cox] s (execOpVoltageSettled h s) := by
  unfold execOpVoltageSettled
  exact Upd.out_next <| Upd.after opSettled_upd rfl .refl

theorem execGateClose_upd {m : Master} {h : Half} {b : Gated} {s : State} :
    Upd.Out (Part.allBut [.pending, .held, .fuses, .straps, .cellar, .lines, .ids, .heatCopy, .stamps, .alloc,
      .prog, .recClear, .chunk, .loader, .chain, .selfTest, .course]) s (execGateClose m h b s) := by
  unfold execGateClose
  refine Upd.out_next <| toPage_hupd rfl ?_ ?_
  · intro u z1
    exact Upd.after gateGo_upd rfl <| by with_reducible assumption
  · exact .refl

theorem execHallMuxSwitch_upd {m : Master} {h : Half} {target : BitVec 2} {s : State} :
    Upd.Out (Part.allBut [.pending, .held, .fuses, .straps, .cellar, .lines, .ids, .heatCopy, .stamps, .alloc,
      .prog, .recClear, .chunk, .loader, .chain, .selfTest, .course]) s (execHallMuxSwitch m h target s) := by
  unfold execHallMuxSwitch
  refine Upd.out_next <| goTo_hupd rfl ?_ ?_ ?_
  · intro u z1
    exact Upd.after wrs_upd rfl <| by with_reducible assumption
  · intro u z1
    exact Upd.after swGo_upd rfl <| by with_reducible assumption
  · exact .refl

theorem execFmcRefLost_upd {h : Half} {edges : Nat} {s : State} :
    Upd.Out [.regs, .out, .host, .cox] s (execFmcRefLost h edges s) := by
  unfold execFmcRefLost
  exact Upd.out_next <| Upd.after fmcEnd_upd rfl .refl

theorem execVfabTargetWrite_upd {m : Master} {h : Half} {mv : BitVec 16} {s : State} :
    Upd.Out (Part.allBut [.pending, .held, .fuses, .straps, .cellar, .lines, .ids, .heatCopy, .stamps, .alloc,
      .prog, .recClear, .chunk, .loader, .chain, .selfTest, .course]) s (execVfabTargetWrite m h mv s) := by
  unfold execVfabTargetWrite
  refine Upd.out_next <| toPage_hupd rfl ?_ ?_
  · intro u z1
    exact Upd.after vfabWrite_upd rfl <| by with_reducible assumption
  · exact .refl

theorem execVfabStep_upd {h : Half} {s : State} :
    Upd.Out [.power] s (execVfabStep h s) := by
  unfold execVfabStep
  exact Upd.out_next <| Upd.after vfabNext_upd rfl .refl

theorem execCrystalCheckWindow_upd {alw : Nat} {s : State} :
    Upd.Out [.regs, .out, .draws, .cross, .porches, .host, .cox] s (execCrystalCheckWindow alw s) := by
  unfold execCrystalCheckWindow
  exact Upd.out_next <| Upd.after crystalCheck_upd rfl .refl

theorem execGovernorAction_upd {h : Half} {s : State} :
    Upd.Out [.regs, .out, .draws, .power, .cross, .porches, .host, .cox] s (execGovernorAction h s) := by
  unfold execGovernorAction
  exact Upd.out_next <| Upd.after govAct_upd rfl .refl

theorem execCrossingResync_upd {h : Half} {kind : BitVec 4} {index : Byte} {s : State} :
    Upd.Out [.cross] s (execCrossingResync h kind index s) := by
  unfold execCrossingResync
  exact Upd.out_next <| Upd.after resync_upd rfl .refl

theorem execPgErrClear_upd {m : Master} {page : BitVec 9} {s : State} :
    Upd.Out (Part.allBut [.pending, .held, .fuses, .straps, .cellar, .lines, .ids, .heatCopy, .stamps, .alloc,
      .prog, .recClear, .chunk, .loader, .chain, .selfTest, .course]) s (execPgErrClear m page s) := by
  unfold execPgErrClear
  refine Upd.out_next <| toPage_hupd rfl ?_ ?_
  · intro u z1
    exact Upd.after errClear_upd rfl <| by with_reducible assumption
  · exact .refl

theorem execMbReply_upd {page : BitVec 9} {words : List Word} {s : State} :
    Upd.Out [.regs, .out, .host, .cox] s (execMbReply page words s) := by
  unfold execMbReply
  exact Upd.out_next <| Upd.ite (Upd.after mbEnd_upd rfl .refl) .refl

theorem execPulseArrival_upd {h : Half} {kind : BitVec 4} {index : Byte} {s : State} :
    Upd.Out [.regs, .cross] s (execPulseArrival h kind index s) := by
  unfold execPulseArrival
  exact Upd.out_next <| Upd.after pulseIn_upd rfl .refl

theorem execMbSend_upd {m : Master} {page len : BitVec 9} {s : State} :
    Upd.Out (Part.allBut [.pending, .held, .fuses, .straps, .cellar, .lines, .ids, .heatCopy, .stamps, .alloc,
      .prog, .recClear, .chunk, .loader, .chain, .selfTest, .course]) s (execMbSend m page len s) := by
  unfold execMbSend
  refine Upd.out_next <| Upd.ite ?_ ?_
  · refine toPage_hupd rfl ?_ ?_
    · intro u z1
      exact Upd.after mbGo_upd rfl <| Upd.after wr_upd rfl <| by with_reducible assumption
    · exact .refl
  · exact .refl

theorem execPulseHandshakeComplete_upd {h : Half} {kind : BitVec 4} {index : Byte} {s : State} :
    Upd.Out (Part.allBut [.pending, .held, .fuses, .straps, .cellar, .seq, .power, .security, .pins, .porches,
      .lines, .ids, .heatCopy, .stamps, .alloc, .prog, .recClear, .retiring, .chunk, .loader, .chain, .g2, .selfTest,
      .course]) s (execPulseHandshakeComplete h kind index s) := by
  unfold execPulseHandshakeComplete
  exact Upd.out_next <| Upd.after pulseDone_upd rfl .refl

theorem execIrqForce_upd {m : Master} {page : BitVec 9} {v : Word} {s : State} :
    Upd.Out (Part.allBut [.pending, .held, .fuses, .straps, .cellar, .lines, .ids, .heatCopy, .stamps, .alloc,
      .prog, .recClear, .chunk, .loader, .chain, .selfTest, .course]) s (execIrqForce m page v s) := by
  unfold execIrqForce
  refine Upd.out_next <| toPage_hupd rfl ?_ ?_
  · intro u z1
    exact Upd.after irqForced_upd rfl <| by with_reducible assumption
  · exact .refl

theorem execPgIrqRawClear_upd {m : Master} {page : BitVec 9} {v : Word} {s : State} :
    Upd.Out (Part.allBut [.pending, .held, .fuses, .straps, .cellar, .lines, .ids, .heatCopy, .stamps, .alloc,
      .prog, .recClear, .chunk, .loader, .chain, .selfTest, .course]) s (execPgIrqRawClear m page v s) := by
  unfold execPgIrqRawClear
  refine Upd.out_next <| toPage_hupd rfl ?_ ?_
  · intro u z1
    exact Upd.after irqClear_upd rfl <| by with_reducible assumption
  · exact .refl

theorem execPgWorldLock_upd {m : Master} {page : BitVec 9} {s : State} :
    Upd.Out (Part.allBut [.pending, .held, .fuses, .straps, .cellar, .lines, .ids, .heatCopy, .stamps, .alloc,
      .prog, .recClear, .chunk, .loader, .chain, .selfTest, .course]) s (execPgWorldLock m page s) := by
  unfold execPgWorldLock
  refine Upd.out_next <| toPage_hupd rfl ?_ ?_
  · intro u z1
    exact Upd.after pageWorld_upd rfl <| by with_reducible assumption
  · exact .refl

theorem execCrossingSideReset_upd {h : Half} {kind : BitVec 4} {index : Byte} {inFlight : BitVec 4} {s : State} :
    Upd.Out [.cross] s (execCrossingSideReset h kind index inFlight s) := by
  unfold execCrossingSideReset
  exact Upd.out_next <| Upd.after sideReset_upd rfl .refl

theorem execPageFreeze_upd {m : Master} {page : BitVec 9} {on : Bool} {s : State} :
    Upd.Out (Part.allBut [.pending, .fuses, .straps, .cellar, .lines, .ids, .heatCopy, .stamps, .alloc, .prog,
      .recClear, .chunk, .loader, .chain, .selfTest, .course]) s (execPageFreeze m page on s) := by
  unfold execPageFreeze
  refine Upd.out_next <| toPage_hupd rfl ?_ ?_
  · intro u z1
    exact Upd.ite (Upd.after freezePage_upd rfl <| by with_reducible assumption) (Upd.after thawPage_upd rfl <| by
      with_reducible assumption)
  · exact .refl

theorem execPgWorldWrite_upd {m : Master} {page : BitVec 9} {secure : Bool} {s : State} :
    Upd.Out (Part.allBut [.pending, .held, .fuses, .straps, .cellar, .lines, .ids, .heatCopy, .stamps, .alloc,
      .prog, .recClear, .chunk, .loader, .chain, .selfTest, .course]) s (execPgWorldWrite m page secure s) := by
  unfold execPgWorldWrite
  refine Upd.out_next <| toPage_hupd rfl ?_ ?_
  · intro u z1
    exact Upd.after pageWorld_upd rfl <| by with_reducible assumption
  · exact .refl

theorem execIrqEnableWrite_upd {m : Master} {page : BitVec 9} {v : Word} {s : State} :
    Upd.Out (Part.allBut [.pending, .held, .fuses, .straps, .cellar, .lines, .ids, .heatCopy, .stamps, .alloc,
      .prog, .recClear, .chunk, .loader, .chain, .selfTest, .course]) s (execIrqEnableWrite m page v s) := by
  unfold execIrqEnableWrite
  refine Upd.out_next <| toPage_hupd rfl ?_ ?_
  · intro u z1
    exact Upd.after irqEnable_upd rfl <| by with_reducible assumption
  · exact .refl

theorem execGcmSegment_upd {cipher tag : List Byte} {s : State} :
    Upd.Out [.regs, .out, .seq, .host, .loader, .g2, .selfTest, .cox] s (execGcmSegment cipher tag s) := by
  unfold execGcmSegment
  exact Upd.out_next <| Upd.after segment_upd rfl .refl

theorem execLoadCleanupDone_upd {s : State} :
    Upd.Out (Part.allBut [.pending, .held, .fuses, .straps, .cellar, .cross, .pins, .prog, .recClear, .chunk]) s
      (execLoadCleanupDone s) := by
  unfold execLoadCleanupDone
  exact Upd.out_next <| Upd.after loadCleaned_upd rfl .refl

theorem execHallRecord_upd {r : Rec} {s : State} :
    Upd.Out [.regs, .out, .seq, .host, .loader, .g2, .selfTest, .cox] s (execHallRecord r s) := by
  unfold execHallRecord
  refine Upd.out_next <| record_hupd rfl ?_ ?_
  · intro u x z2
    exact Upd.after hallAct_upd rfl <| by with_reducible assumption
  · exact .refl

theorem execCrewRecord_upd {r : Rec} {s : State} :
    Upd.Out [.regs, .out, .seq, .porches, .host, .rooms, .crews, .ids, .stamps, .mem, .bad, .alloc, .loader, .g2,
      .selfTest, .cox, .hatches] s (execCrewRecord r s) := by
  unfold execCrewRecord
  refine Upd.out_next <| record_hupd rfl ?_ ?_
  · intro u x z2
    exact Upd.after crewAct_upd rfl <| by with_reducible assumption
  · exact .refl

theorem execImageHeader_upd {bytes : List Byte} {s : State} :
    Upd.Out [.regs, .out, .seq, .host, .loader, .g2, .selfTest, .cox] s (execImageHeader bytes s) := by
  unfold execImageHeader
  exact Upd.out_next <| Upd.after header_upd rfl .refl

theorem execEssentialRecord_upd {r : Rec} {s : State} :
    Upd.Out [.regs, .out, .seq, .host, .mem, .bad, .loader, .g2, .selfTest, .cox] s (execEssentialRecord r s) := by
  unfold execEssentialRecord
  refine Upd.out_next <| record_hupd rfl ?_ ?_
  · intro u x z2
    exact Upd.after essentialAct_upd rfl <| by with_reducible assumption
  · exact .refl

theorem execFrameRecord_upd {r : Rec} {s : State} :
    Upd.Out [.regs, .out, .seq, .host, .fabric, .refs, .loader, .g2, .selfTest, .cox] s (execFrameRecord r s) := by
  unfold execFrameRecord
  refine Upd.out_next <| record_hupd rfl ?_ ?_
  · intro u x z2
    exact Upd.after frameAct_upd rfl <| by with_reducible assumption
  · exact .refl

theorem execZeroRecord_upd {r : Rec} {s : State} :
    Upd.Out [.regs, .out, .seq, .host, .fabric, .refs, .loader, .g2, .selfTest, .cox] s (execZeroRecord r s) := by
  unfold execZeroRecord
  refine Upd.out_next <| record_hupd rfl ?_ ?_
  · intro u x z2
    exact Upd.after zeroAct_upd rfl <| by with_reducible assumption
  · exact .refl

theorem execLoadDeadlineExpiry_upd {s : State} :
    Upd.Out [.regs, .out, .seq, .host, .loader, .g2, .selfTest, .cox] s (execLoadDeadlineExpiry s) := by
  unfold execLoadDeadlineExpiry
  exact Upd.out_next <| Upd.after deadline_upd rfl .refl

theorem execRepeatRecord_upd {r : Rec} {s : State} :
    Upd.Out [.regs, .out, .seq, .host, .fabric, .refs, .loader, .g2, .selfTest, .cox] s (execRepeatRecord r s) := by
  unfold execRepeatRecord
  refine Upd.out_next <| record_hupd rfl ?_ ?_
  · intro u x z2
    exact Upd.after repeatAct_upd rfl <| by with_reducible assumption
  · exact .refl

theorem execAttBootWrite_upd {m : Master} {v : Word} {s : State} :
    Upd.Out (Part.allBut [.pending, .fuses, .straps, .cellar, .lines, .ids, .heatCopy, .stamps, .alloc, .prog,
      .recClear, .chunk, .loader, .chain, .selfTest, .course]) s (execAttBootWrite m v s) := by
  unfold execAttBootWrite
  refine Upd.out_next <| toPage_hupd rfl ?_ ?_
  · intro u z1
    exact Upd.after attBoot_upd rfl <| by with_reducible assumption
  · exact .refl

theorem execAtticProg_upd {m : Master} {s : State} :
    Upd.Out (Part.allBut [.pending, .held, .fuses, .straps, .cellar, .lines, .ids, .heatCopy, .stamps, .alloc,
      .recClear, .chunk, .loader, .chain, .selfTest, .course]) s (execAtticProg m s) := by
  unfold execAtticProg
  refine Upd.out_next <| goTo_hupd rfl ?_ ?_ ?_
  · intro u z1
    exact by with_reducible assumption
  · intro u z1
    exact Upd.after progGo_upd rfl <| by with_reducible assumption
  · exact .refl

theorem execWeStep_upd {s : State} :
    Upd.Out [.regs, .out, .seq, .fabric, .blocks, .loader] s (execWeStep s) := by
  unfold execWeStep
  exact Upd.out_next <| Upd.after weStep_upd rfl .refl

theorem execDmaChunk_upd {m : Master} {s : State} :
    Upd.Out (Part.allBut [.pending, .held, .fuses, .straps, .cellar, .lines, .ids, .heatCopy, .stamps, .alloc,
      .prog, .recClear, .chain, .selfTest, .course]) s (execDmaChunk m s) := by
  unfold execDmaChunk
  refine Upd.out_next <| goTo_hupd rfl ?_ ?_ ?_
  · intro u z1
    exact by with_reducible assumption
  · intro u z1
    exact Upd.after dmaGo_upd rfl <| by with_reducible assumption
  · exact .refl

theorem execChainPacket_upd {p : ChainPkt} {s : State} :
    Upd.Out [.regs, .out, .draws, .seq, .security, .host, .mem, .bad, .stackCtl, .frames, .alloc, .attic, .loader,
      .chain, .g2, .selfTest, .cox, .hatches, .gallery, .course] s (execChainPacket p s) := by
  unfold execChainPacket
  exact Upd.out_next <| Upd.after chainPacket_upd rfl .refl

theorem execGsrStep_upd {s : State} :
    Upd.Out [.regs, .seq, .fabric, .sigs, .blocks, .lines, .loader] s (execGsrStep s) := by
  unfold execGsrStep
  exact Upd.out_next <| Upd.after gsrStep_upd rfl .refl

theorem execChainResend_upd {s : State} :
    Upd.Out [.regs, .out, .draws, .security, .host, .mem, .bad, .stackCtl, .frames, .attic, .chain, .cox, .hatches,
      .gallery, .course] s (execChainResend s) := by
  unfold execChainResend
  exact Upd.out_next <| Upd.after chainAgain_upd rfl .refl

theorem execRecClearDone_upd {ok : Bool} {s : State} :
    Upd.Out [.regs, .out, .host, .attic, .recClear, .cox] s (execRecClearDone ok s) := by
  unfold execRecClearDone
  exact Upd.out_next <| Upd.after recEnd_upd rfl .refl

theorem execLockStep_upd {s : State} :
    Upd.Out [.regs, .loader] s (execLockStep s) := by
  unfold execLockStep
  exact Upd.out_next <| Upd.after lockStep_upd rfl .refl

theorem execRecClearRooms_upd {m : Master} {s : State} :
    Upd.Out (Part.allBut [.pending, .held, .fuses, .straps, .cellar, .lines, .ids, .heatCopy, .stamps, .alloc,
      .prog, .chunk, .loader, .chain, .selfTest, .course]) s (execRecClearRooms m s) := by
  unfold execRecClearRooms
  exact Upd.out_next <| Upd.after recClearBy_upd rfl .refl

theorem execIoStep_upd {s : State} :
    Upd.Out [.regs, .pins, .loader] s (execIoStep s) := by
  unfold execIoStep
  exact Upd.out_next <| Upd.after ioStep_upd rfl .refl

theorem execCfgDeadlineWrite_upd {m : Master} {ms : BitVec 16} {s : State} :
    Upd.Out (Part.allBut [.pending, .held, .fuses, .straps, .cellar, .lines, .ids, .heatCopy, .stamps, .alloc,
      .prog, .recClear, .chunk, .loader, .chain, .selfTest, .course]) s (execCfgDeadlineWrite m ms s) := by
  unfold execCfgDeadlineWrite
  refine Upd.out_next <| toPage_hupd rfl ?_ ?_
  · intro u z1
    exact Upd.after cfgDeadline_upd rfl <| by with_reducible assumption
  · exact .refl

theorem execRunModeEntry_upd {s : State} :
    Upd.Out (Part.allBut [.pending, .held, .fuses, .straps, .cellar, .cross, .pins, .heatCopy, .prog, .recClear,
      .chunk]) s (execRunModeEntry s) := by
  unfold execRunModeEntry
  exact Upd.out_next <| Upd.after runEntry_upd rfl .refl

theorem execAtticProgDone_upd {written : BitVec 16} {verified : Bool} {s : State} :
    Upd.Out [.regs, .out, .draws, .host, .stackCtl, .frames, .attic, .prog, .cox, .gallery] s (execAtticProgDone
      written verified s) := by
  unfold execAtticProgDone
  exact Upd.out_next <| Upd.after progEnd_upd rfl .refl

theorem execLockTimeout_upd {s : State} :
    Upd.Out [.regs, .out, .seq, .loader, .g2, .selfTest] s (execLockTimeout s) := by
  unfold execLockTimeout
  exact Upd.out_next <| Upd.after lockLate_upd rfl .refl

theorem execChainStallExpiry_upd {s : State} :
    Upd.Out [.regs, .out, .seq, .host, .loader, .chain, .g2, .selfTest, .cox] s (execChainStallExpiry s) := by
  unfold execChainStallExpiry
  exact Upd.out_next <| Upd.after chainStalled_upd rfl .refl

theorem execRecClearFrames_upd {m : Master} {s : State} :
    Upd.Out (Part.allBut [.pending, .held, .fuses, .straps, .cellar, .lines, .ids, .heatCopy, .stamps, .alloc,
      .prog, .chunk, .loader, .chain, .selfTest, .course]) s (execRecClearFrames m s) := by
  unfold execRecClearFrames
  exact Upd.out_next <| Upd.after recClearBy_upd rfl .refl

theorem execDmaChunkDone_upd {ok : Bool} {bytes : List Byte} {s : State} :
    Upd.Out [.regs, .out, .seq, .host, .loader, .g2, .selfTest, .cox] s (execDmaChunkDone ok bytes s) := by
  unfold execDmaChunkDone
  exact Upd.out_next <| Upd.after dmaEnd_upd rfl .refl

theorem execRecClearBoth_upd {m : Master} {s : State} :
    Upd.Out (Part.allBut [.pending, .held, .fuses, .straps, .cellar, .lines, .ids, .heatCopy, .stamps, .alloc,
      .prog, .chunk, .loader, .chain, .selfTest, .course]) s (execRecClearBoth m s) := by
  unfold execRecClearBoth
  exact Upd.out_next <| Upd.after recClearBy_upd rfl .refl

theorem execMapWaitExpiry_upd {s : State} :
    Upd.Out [.regs, .out, .course] s (execMapWaitExpiry s) := by
  unfold execMapWaitExpiry
  exact Upd.out_next <| Upd.after mapWait_upd rfl .refl

theorem execReqJoin_upd {m : Master} {s : State} :
    Upd.Out (Part.allBut [.pending, .held, .fuses, .straps, .cellar, .lines, .ids, .heatCopy, .stamps, .alloc,
      .prog, .recClear, .chunk, .loader, .chain, .selfTest]) s (execReqJoin m s) := by
  unfold execReqJoin
  exact Upd.out_next <| Upd.after crsReqBy_upd rfl .refl

theorem execBreakLink_upd {pos : BitVec 10} {s : State} :
    Upd.Out [.regs, .out, .host, .cox, .course] s (execBreakLink pos s) := by
  unfold execBreakLink
  exact Upd.out_next <| Upd.after breakIn_upd rfl .refl

theorem execRefuse_upd {g : Segment} {s : State} :
    Upd.Out [.regs, .out, .draws, .seq, .security, .host, .mem, .bad, .stackCtl, .frames, .alloc, .attic, .loader,
      .chain, .g2, .selfTest, .cox, .hatches, .gallery, .course] s (execRefuse g s) := by
  unfold execRefuse
  exact Upd.out_next <| Upd.after replyIn_upd rfl .refl

theorem execEnumTimeout_upd {s : State} :
    Upd.Out [.regs, .out, .host, .cox, .course] s (execEnumTimeout s) := by
  unfold execEnumTimeout
  exact Upd.out_next <| Upd.after enumLate_upd rfl .refl

theorem execBusy_upd {g : Segment} {s : State} :
    Upd.Out [.regs, .out, .draws, .seq, .security, .host, .mem, .bad, .stackCtl, .frames, .alloc, .attic, .loader,
      .chain, .g2, .selfTest, .cox, .hatches, .gallery, .course] s (execBusy g s) := by
  unfold execBusy
  exact Upd.out_next <| Upd.after replyIn_upd rfl .refl

theorem execLinkRetrain_upd {westPort : Bool} {s : State} :
    Upd.Out [.regs] s (execLinkRetrain westPort s) := by
  unfold execLinkRetrain
  exact Upd.out_next <| Upd.after linkLost_upd rfl .refl

theorem execLinkFlit_upd {westPort : Bool} {f : Flit} {s : State} :
    Upd.Out [.regs, .out, .course] s (execLinkFlit westPort f s) := by
  unfold execLinkFlit
  exact Upd.out_next <| Upd.after flitIn_upd rfl .refl

theorem execBusyResend_upd {tag : BitVec 16} {s : State} :
    Upd.Out [.regs, .out, .security, .host, .mem, .bad, .stackCtl, .frames, .attic, .chain, .cox, .hatches,
      .gallery, .course] s (execBusyResend tag s) := by
  unfold execBusyResend
  exact Upd.out_next <| Upd.after resend_upd rfl .refl

theorem execSegmentForward_upd {g : Segment} {residence : BitVec 16} {s : State} :
    Upd.Out [.regs, .out, .course] s (execSegmentForward g residence s) := by
  unfold execSegmentForward
  exact Upd.out_next <| Upd.after forward_upd rfl .refl

theorem execEnum_upd {counter : BitVec 11} {serial : Nat} {dist : BitVec 10} {ringB : Bool} {taken : List Nat} {s :
  State} :
    Upd.Out [.regs, .out, .draws, .seq, .security, .host, .mem, .bad, .stackCtl, .frames, .alloc, .attic, .loader,
      .chain, .g2, .selfTest, .cox, .hatches, .gallery, .course] s (execEnum counter serial dist ringB s taken) := by
  unfold execEnum
  exact Upd.out_next <| Upd.after mapped_upd rfl <| Upd.after enumIn_upd rfl .refl

theorem execMapBeacon_upd {s : State} :
    Upd.Out [.regs, .out, .host, .cox, .course] s (execMapBeacon s) := by
  unfold execMapBeacon
  exact Upd.out_next <| Upd.after beacon_upd rfl .refl

theorem execSegmentArrival_upd {g : Segment} {s : State} :
    Upd.Out (Part.allBut [.pending, .held, .fuses, .straps, .cellar, .lines, .ids, .heatCopy, .stamps, .alloc,
      .prog, .recClear, .chunk, .loader, .chain, .selfTest]) s (execSegmentArrival g s) := by
  unfold execSegmentArrival
  exact Upd.out_next <| Upd.after segmentIn_upd rfl .refl

theorem execJoin_upd {serial : Nat} {pos : BitVec 10} {s : State} :
    Upd.Out [.regs, .out, .draws, .host, .cox, .course] s (execJoin serial pos s) := by
  unfold execJoin
  exact Upd.out_next <| Upd.after joinIn_upd rfl .refl

theorem execLinkDown_upd {westPort : Bool} {s : State} :
    Upd.Out [.regs, .out, .host, .cox, .course] s (execLinkDown westPort s) := by
  unfold execLinkDown
  exact Upd.out_next <| Upd.after linkIsDown_upd rfl .refl

theorem execMapBeaconIn_upd {members : List Member} {s : State} :
    Upd.Out [.regs, .out, .draws, .seq, .security, .host, .mem, .bad, .stackCtl, .frames, .alloc, .attic, .loader,
      .chain, .g2, .selfTest, .cox, .hatches, .gallery, .course] s (execMapBeaconIn members s) := by
  unfold execMapBeaconIn
  exact Upd.out_next <| Upd.after mapped_upd rfl <| Upd.after mapIn_upd rfl .refl

theorem execRingTagCoolingExpiry_upd {tag : BitVec 16} {s : State} :
    Upd.Out [.course] s (execRingTagCoolingExpiry tag s) := by
  unfold execRingTagCoolingExpiry
  exact Upd.out_next <| Upd.after modCourse_upd rfl .refl

theorem execAccept_upd {g : Segment} {s : State} :
    Upd.Out [.regs, .out, .draws, .seq, .security, .host, .mem, .bad, .stackCtl, .frames, .alloc, .attic, .loader,
      .chain, .g2, .selfTest, .cox, .hatches, .gallery, .course] s (execAccept g s) := by
  unfold execAccept
  exact Upd.out_next <| Upd.after replyIn_upd rfl .refl

theorem execIngressAgeExpiry_upd {src : BitVec 10} {tag : BitVec 16} {s : State} :
    Upd.Out [.regs, .out, .host, .cox, .course] s (execIngressAgeExpiry src tag s) := by
  unfold execIngressAgeExpiry
  exact Upd.out_next <| Upd.after ingressAged_upd rfl .refl

theorem execRingIdHoldExpiry_upd {id : BitVec 10} {bar : Bool} {s : State} :
    Upd.Out [.course] s (execRingIdHoldExpiry id s bar) := by
  unfold execRingIdHoldExpiry
  exact Upd.out_next <| Upd.after holdOver_upd rfl .refl

theorem execLinkNak_upd {westPort : Bool} {ack : BitVec 10} {s : State} :
    Upd.Out [.regs, .out, .course] s (execLinkNak westPort ack s) := by
  unfold execLinkNak
  exact Upd.out_next <| Upd.after nakIn_upd rfl .refl

theorem execLinkTrainRetry_upd {westPort : Bool} {s : State} :
    Upd.Out [.regs] s (execLinkTrainRetry westPort s) := by
  unfold execLinkTrainRetry
  exact Upd.out_next <| Upd.after trainRetry_upd rfl .refl

theorem execLeaveDrainEnd_upd {s : State} :
    Upd.Out [.regs, .out, .host, .chain, .cox, .course] s (execLeaveDrainEnd s) := by
  unfold execLeaveDrainEnd
  exact Upd.out_next <| Upd.after leaveEnd_upd rfl .refl

theorem execHeal_upd {pos : BitVec 10} {s : State} :
    Upd.Out [.regs, .out, .host, .cox, .course] s (execHeal pos s) := by
  unfold execHeal
  exact Upd.out_next <| Upd.after healIn_upd rfl .refl

theorem execLeave_upd {id : BitVec 10} {s : State} :
    Upd.Out [.regs, .out, .host, .cox, .course] s (execLeave id s) := by
  unfold execLeave
  exact Upd.out_next <| Upd.ite .refl (Upd.after memberGone_upd rfl .refl)

theorem execMessageExpiry_upd {tag : BitVec 16} {s : State} :
    Upd.Out [.regs, .out, .host, .chain, .cox, .course] s (execMessageExpiry tag s) := by
  unfold execMessageExpiry
  exact Upd.out_next <| Upd.after outExpires_upd rfl .refl

theorem execEnumRetry_upd {s : State} :
    Upd.Out [.regs, .out, .course] s (execEnumRetry s) := by
  unfold execEnumRetry
  exact Upd.out_next <| Upd.after enumAgain_upd rfl .refl

theorem execCourseRetrainFail_upd {westPort : Bool} {now : BitVec 64} {s : State} :
    Upd.Out (Part.allBut [.pending, .held, .fuses, .straps, .cellar, .cross, .pins, .heatCopy, .prog, .recClear,
      .chunk]) s (execCourseRetrainFail westPort s now) := by
  unfold execCourseRetrainFail
  exact Upd.out_next <| Upd.after retrainFail_upd rfl .refl

theorem execReqLeave_upd {m : Master} {s : State} :
    Upd.Out (Part.allBut [.pending, .held, .fuses, .straps, .cellar, .lines, .ids, .heatCopy, .stamps, .alloc,
      .prog, .recClear, .chunk, .loader, .chain, .selfTest]) s (execReqLeave m s) := by
  unfold execReqLeave
  exact Upd.out_next <| Upd.after crsReqBy_upd rfl .refl

theorem execCourseLinkTrained_upd {westPort : Bool} {lanes : BitVec 2} {serial : Nat} {s : State} :
    Upd.Out (Part.allBut [.pending, .held, .fuses, .straps, .cellar, .cross, .pins, .heatCopy, .prog, .recClear,
      .chunk]) s (execCourseLinkTrained westPort lanes serial s) := by
  unfold execCourseLinkTrained
  exact Upd.out_next <| Upd.after linkTrained_upd rfl .refl

theorem execCourseRepresent_upd {src : BitVec 10} {tag : BitVec 16} {s : State} :
    Upd.Out [.regs, .out, .security, .host, .mem, .bad, .stackCtl, .frames, .attic, .cox, .hatches, .gallery,
      .course] s (execCourseRepresent src tag s) := by
  unfold execCourseRepresent
  exact Upd.out_next <| Upd.after presentAgain_upd rfl .refl

theorem execG2Prog_upd {m : Master} {s : State} :
    Upd.Out (Part.allBut [.pending, .held, .fuses, .straps, .cellar, .lines, .ids, .heatCopy, .stamps, .alloc,
      .prog, .recClear, .chunk, .loader, .chain, .selfTest, .course]) s (execG2Prog m s) := by
  unfold execG2Prog
  refine Upd.out_next <| toPage_hupd rfl ?_ ?_
  · intro u z1
    exact Upd.after g2Prog_upd rfl <| by with_reducible assumption
  · exact .refl

theorem execG2TimerExpiry_upd {s : State} :
    Upd.Out [.regs] s (execG2TimerExpiry s) := by
  unfold execG2TimerExpiry
  exact Upd.out_next <| Upd.after g2TimerEnds_upd rfl .refl

theorem execDesignInterruptRequest_upd {bits : BitVec 7} {s : State} :
    Upd.Out [.regs] s (execDesignInterruptRequest bits s) := by
  unfold execDesignInterruptRequest
  exact Upd.out_next <| Upd.ite (Upd.after g2Put_upd rfl .refl) .refl

theorem execG2Calibration_upd {s : State} :
    Upd.Out [.g2] s (execG2Calibration s) := by
  unfold execG2Calibration
  refine Upd.out_next ?_
  extract_lets x2
  clear_value x2
  refine Upd.ite ?_ ?_
  · refine Upd.g2 ?_ rfl
    exact .refl
  · exact .refl

theorem execG2Run_upd {m : Option Master} {s : State} :
    Upd.Out (Part.allBut [.pending, .held, .fuses, .straps, .cellar, .lines, .ids, .heatCopy, .stamps, .alloc,
      .prog, .recClear, .chunk, .loader, .chain, .selfTest, .course]) s (execG2Run m s) := by
  unfold execG2Run
  exact Upd.out_next <| Upd.after powerWrite_upd rfl .refl

theorem execG2DeepSleep_upd {m : Option Master} {s : State} :
    Upd.Out (Part.allBut [.pending, .held, .fuses, .straps, .cellar, .lines, .ids, .heatCopy, .stamps, .alloc,
      .prog, .recClear, .chunk, .loader, .chain, .selfTest, .course]) s (execG2DeepSleep m s) := by
  unfold execG2DeepSleep
  exact Upd.out_next <| Upd.after powerWrite_upd rfl .refl

theorem execG2StreamHeader_upd {devId fmt : Byte} {nframes : BitVec 16} {resv : Word} {s : State} :
    Upd.Out [.regs, .out, .host, .g2, .cox] s (execG2StreamHeader devId fmt nframes resv s) := by
  unfold execG2StreamHeader
  exact Upd.out_next <| Upd.after g2Header_upd rfl .refl

theorem execG2ClearDone_upd {s : State} :
    Upd.Out [.regs, .out, .host, .mem, .bad, .g2, .cox] s (execG2ClearDone s) := by
  unfold execG2ClearDone
  exact Upd.out_next <| Upd.after g2Cleared_upd rfl .refl

theorem execG2HostRead_upd {addr : BitVec 6} {also : List G2Also} {s : State} :
    Upd.Out (Part.allBut [.pending, .held, .fuses, .straps, .cellar, .lines, .ids, .heatCopy, .stamps, .alloc,
      .prog, .recClear, .chunk, .loader, .chain, .selfTest, .course]) s (execG2HostRead addr s also) := by
  unfold execG2HostRead
  exact Upd.out_next <| Upd.after g2With_upd rfl <| Upd.after portRead_upd rfl .refl

theorem execProgNLow_upd {s : State} :
    Upd.Out (Part.allBut [.pending, .held, .fuses, .straps, .cellar, .security, .lines, .ids, .heatCopy, .stamps,
      .alloc, .prog, .recClear, .chunk, .loader, .chain, .selfTest, .course]) s (execProgNLow s) := by
  unfold execProgNLow
  refine Upd.out_next ?_
  extract_lets x2
  have hx2 : Upd (Part.allBut [.pending, .held, .fuses, .straps, .cellar, .security, .lines, .ids, .heatCopy,
    .stamps, .alloc, .prog, .recClear, .chunk, .loader, .chain, .selfTest, .course]) s x2 := Upd.after pinChange_upd
    rfl .refl
  clear_value x2
  exact Upd.ite (Upd.after g2Prog_upd rfl <| by with_reducible assumption) (by with_reducible assumption)

theorem execG2CalibrationDone_upd {count : Nat} {s : State} :
    Upd.Out [.regs, .out, .host, .g2, .cox] s (execG2CalibrationDone count s) := by
  unfold execG2CalibrationDone
  exact Upd.out_next <| Upd.after g2Calibrated_upd rfl .refl

theorem execG2HostWrite_upd {addr : BitVec 6} {v : Byte} {also : List G2Also} {s : State} :
    Upd.Out (Part.allBut [.pending, .held, .fuses, .straps, .cellar, .lines, .ids, .heatCopy, .stamps, .alloc,
      .prog, .recClear, .chunk, .loader, .chain, .selfTest, .course]) s (execG2HostWrite addr v s also) := by
  unfold execG2HostWrite
  exact Upd.out_next <| Upd.after g2With_upd rfl <| Upd.after portWrite_upd rfl .refl

theorem execG2Frame_upd {faddr : BitVec 16} {data : List Byte} {s : State} :
    Upd.Out [.regs, .out, .host, .mem, .bad, .g2, .cox] s (execG2Frame faddr data s) := by
  unfold execG2Frame
  exact Upd.out_next <| Upd.after g2FrameIn_upd rfl .refl

theorem execCclkFallingEdge_upd {din : Bool} {s : State} :
    Upd.Out [.g2] s (execCclkFallingEdge din s) := by
  unfold execCclkFallingEdge
  refine Upd.out_next ?_
  extract_lets x3
  clear_value x3
  refine Upd.ite ?_ ?_
  · refine Upd.g2 ?_ rfl
    exact .refl
  · exact .refl

theorem execG2StartDone_upd {s : State} :
    Upd.Out (Part.allBut [.pending, .held, .fuses, .straps, .cellar, .power, .pins, .heatCopy, .prog, .recClear,
      .chunk, .loader, .chain, .selfTest, .course]) s (execG2StartDone s) := by
  unfold execG2StartDone
  exact Upd.out_next <| Upd.after g2Start_upd rfl .refl

theorem execG2Sync_upd {s : State} :
    Upd.Out [.regs] s (execG2Sync s) := by
  unfold execG2Sync
  exact Upd.out_next <| Upd.ite (Upd.after wr_upd rfl .refl) .refl

theorem execG2UserWrite_upd {n : BitVec 4} {v : Byte} {s : State} :
    Upd.Out [.regs] s (execG2UserWrite n v s) := by
  unfold execG2UserWrite
  exact Upd.out_next <| Upd.after userWrite_upd rfl .refl

theorem execG2cRegWrite_upd {m : Master} {addr : BitVec 6} {v : Byte} {also : List G2Also} {s : State} :
    Upd.Out (Part.allBut [.pending, .held, .fuses, .straps, .cellar, .lines, .ids, .heatCopy, .stamps, .alloc,
      .prog, .recClear, .chunk, .loader, .chain, .selfTest, .course]) s (execG2cRegWrite m addr v s also) := by
  unfold execG2cRegWrite
  exact Upd.out_next <| Upd.after g2With_upd rfl <| Upd.after regWrite_upd rfl .refl

theorem execG2Crc_upd {crc : BitVec 16} {s : State} :
    Upd.Out [.regs, .out, .host, .g2, .cox] s (execG2Crc crc s) := by
  unfold execG2Crc
  exact Upd.out_next <| Upd.after g2CrcIn_upd rfl .refl

theorem execG2Sleep_upd {m : Option Master} {s : State} :
    Upd.Out (Part.allBut [.pending, .held, .fuses, .straps, .cellar, .lines, .ids, .heatCopy, .stamps, .alloc,
      .prog, .recClear, .chunk, .loader, .chain, .selfTest, .course]) s (execG2Sleep m s) := by
  unfold execG2Sleep
  exact Upd.out_next <| Upd.after powerWrite_upd rfl .refl

theorem execBstReq_upd {m : Master} {h : Half} {arg : BitVec 16} {s : State} :
    Upd.Out (Part.allBut [.pending, .held, .fuses, .straps, .cellar, .heatCopy, .prog, .recClear, .chunk]) s
      (execBstReq m h arg s) := by
  unfold execBstReq
  exact Upd.out_next <| Upd.after bstReq_upd rfl .refl

theorem execCoxFirmwareUpdate_upd {m : Master} {h : Half} {arg : BitVec 16} {s : State} :
    Upd.Out (Part.allBut [.pending, .fuses, .straps, .cellar, .heatCopy, .prog, .recClear, .chunk]) s
      (execCoxFirmwareUpdate m h arg s) := by
  unfold execCoxFirmwareUpdate
  exact Upd.out_next <| Upd.after coxUpd_upd rfl .refl

theorem execMemRetrainMigrate_upd {m : Master} {stack : BitVec 2} {s : State} :
    Upd.Out (Part.allBut [.pending, .held, .fuses, .straps, .cellar, .heatCopy, .prog, .recClear, .chunk]) s
      (execMemRetrainMigrate m stack s) := by
  unfold execMemRetrainMigrate
  exact Upd.out_next <| Upd.after memRetrain_upd rfl .refl

theorem execSliceStart_upd {h : Half} {s : State} :
    Upd.Out (Part.allBut [.pending, .held, .fuses, .straps, .cellar, .cross, .pins, .heatCopy, .prog, .recClear,
      .chunk]) s (execSliceStart h s) := by
  unfold execSliceStart
  exact Upd.out_next <| Upd.after sliceStart_upd rfl .refl

theorem execCoxRestartDone_upd {h : Half} {s : State} :
    Upd.Out (Part.allBut [.pending, .held, .fuses, .straps, .cellar, .cross, .pins, .heatCopy, .prog, .recClear,
      .chunk]) s (execCoxRestartDone h s) := by
  unfold execCoxRestartDone
  exact Upd.out_next <| Upd.after coxDone_upd rfl .refl

theorem execCoxRestart_upd {m : Master} {h : Half} {arg : BitVec 16} {s : State} :
    Upd.Out (Part.allBut [.pending, .fuses, .straps, .cellar, .heatCopy, .prog, .recClear, .chunk]) s
      (execCoxRestart m h arg s) := by
  unfold execCoxRestart
  exact Upd.out_next <| Upd.after coxUpd_upd rfl .refl

theorem execHostLinkReeq_upd {m : Master} {s : State} :
    Upd.Out (Part.allBut [.pending, .held, .fuses, .straps, .cellar, .heatCopy, .prog, .recClear, .chunk]) s
      (execHostLinkReeq m s) := by
  unfold execHostLinkReeq
  exact Upd.out_next <| Upd.after reeqReq_upd rfl .refl

theorem execSliceReport_upd {room : BitVec 12} {failed : BitVec 4} {duration : BitVec 32} {s : State} :
    Upd.Out (Part.allBut [.pending, .held, .fuses, .straps, .cellar, .cross, .pins, .heatCopy, .prog, .recClear,
      .chunk]) s (execSliceReport room failed duration s) := by
  unfold execSliceReport
  exact Upd.out_next <| Upd.after sliceReport_upd rfl .refl

theorem execHostLinkReturnToL0_upd {s : State} :
    Upd.Out (Part.allBut [.pending, .held, .fuses, .straps, .cellar, .cross, .pins, .heatCopy, .prog, .recClear,
      .chunk]) s (execHostLinkReturnToL0 s) := by
  unfold execHostLinkReturnToL0
  exact Upd.out_next <| Upd.after linkL0_upd rfl .refl

theorem execHostLinkRecovery_upd {m : Master} {s : State} :
    Upd.Out (Part.allBut [.pending, .held, .fuses, .straps, .cellar, .heatCopy, .prog, .recClear, .chunk]) s
      (execHostLinkRecovery m s) := by
  unfold execHostLinkRecovery
  exact Upd.out_next <| Upd.after reeqReq_upd rfl .refl

theorem execCourseLaneRetrain_upd {m : Master} {arg : BitVec 16} {s : State} :
    Upd.Out (Part.allBut [.pending, .held, .fuses, .straps, .cellar, .heatCopy, .prog, .recClear, .chunk]) s
      (execCourseLaneRetrain m arg s) := by
  unfold execCourseLaneRetrain
  exact Upd.out_next <| Upd.after laneReq_upd rfl .refl

theorem execMemRetrain_upd {m : Master} {stack : BitVec 2} {s : State} :
    Upd.Out (Part.allBut [.pending, .held, .fuses, .straps, .cellar, .heatCopy, .prog, .recClear, .chunk]) s
      (execMemRetrain m stack s) := by
  unfold execMemRetrain
  exact Upd.out_next <| Upd.after memRetrain_upd rfl .refl

theorem execStackRetrainDone_upd {stack : BitVec 2} {trained : Bool} {repairs : Byte} {s : State} :
    Upd.Out (Part.allBut [.pending, .held, .fuses, .straps, .cellar, .pins, .heatCopy, .prog, .recClear, .chunk]) s
      (execStackRetrainDone stack trained repairs s) := by
  unfold execStackRetrainDone
  exact Upd.out_next <| Upd.after memDoneTraining_upd rfl .refl

theorem execScrubFrame_upd {room : BitVec 12} {frame : Byte} {upsets : List (BitVec 9 × Byte)} {s : State} :
    Upd.Out (Part.allBut [.pending, .held, .fuses, .straps, .cellar, .seq, .power, .cross, .security, .pins, .refs,
      .lines, .ids, .heatCopy, .stamps, .alloc, .prog, .recClear, .retiring, .chunk, .loader, .chain, .g2, .course]) s
      (execScrubFrame room frame upsets s) := by
  unfold execScrubFrame
  exact Upd.out_next <| Upd.after scrubFrame_upd rfl .refl

theorem execReeqTimeout_upd {s : State} :
    Upd.Out (Part.allBut [.pending, .held, .fuses, .straps, .cellar, .cross, .pins, .heatCopy, .prog, .recClear,
      .chunk]) s (execReeqTimeout s) := by
  unfold execReeqTimeout
  exact Upd.out_next <| Upd.after reeqEnd_upd rfl .refl

theorem execScrubPassStart_upd {h : Half} {lastMs : BitVec 16} {s : State} :
    Upd.Out [.regs, .selfTest] s (execScrubPassStart h lastMs s) := by
  unfold execScrubPassStart
  exact Upd.out_next <| Upd.after scrubPass_upd rfl .refl

theorem execSoftReset_upd {m : Master} {page : BitVec 9} {s : State} :
    Upd.Out (Part.allBut [.pending, .fuses, .straps, .cellar, .chunk]) s (execSoftReset m page s) := by
  unfold execSoftReset
  refine Upd.out_next <| toPage_hupd rfl ?_ ?_
  · intro u z1
    exact Upd.after softReset_upd rfl <| by with_reducible assumption
  · exact .refl

theorem execRegisterWrite_upd {m : Master} {a : RegAddr} {v : Word} {high : Option Word} {s : State} :
    Upd.Out (Part.allBut [.pending, .straps]) s (execRegisterWrite m a v s high) := by
  unfold execRegisterWrite
  refine Upd.out_next ?_
  split
  · exact Upd.after regWrite32_upd rfl .refl
  · exact Upd.after regWrite32_upd rfl <| Upd.after regWrite32_upd rfl .refl

theorem execEndRecord_upd {r : Rec} {s : State} :
    Upd.Out (Part.allBut [.pending, .fuses, .straps, .chunk]) s (execEndRecord r s) := by
  unfold execEndRecord
  refine Upd.out_next <| record_hupd rfl ?_ ?_
  · intro u x z2
    exact Upd.after endAct_upd rfl <| by with_reducible assumption
  · exact .refl

end Sys2Proof.Machine
end

