-- ==== Sys2Proof/Laws/Regs.lean ====
section
/-! SUPPORT. The laws of registers: a field reads what was last written to it, and a write of one field leaves every
other field as it was. -/

namespace Sys2Proof.Machine

/-- A field's bits lie in its word. -/
def Fld.ok (f : Fld) : Bool := f.lo ≤ f.hi && f.hi < 32

/-- Two fields share no bit of a register of a page: another offset, or other bits. -/
def Fld.sep (f g : Fld) : Bool := f.off % 0x1000 != g.off % 0x1000 || f.hi < g.lo || g.hi < f.lo

theorem Fld.put_toNat (f : Fld) (h : f.ok = true) (v : Nat) (w : Word) :
    (f.put v w).toNat = w.toNat % 2 ^ f.lo + v % 2 ^ (f.hi - f.lo + 1) * 2 ^ f.lo + w.toNat / 2 ^ (f.hi + 1) * 2 ^ (f.hi + 1) := by
  simp only [Fld.ok, Bool.and_eq_true, decide_eq_true_eq] at h
  rw [Fld.put, BitVec.toNat_ofNat, Nat.mod_eq_of_lt]
  have hw : w.toNat < 2 ^ 32 := w.isLt
  have h₁ : w.toNat % 2 ^ f.lo < 2 ^ f.lo := Nat.mod_lt _ (Nat.two_pow_pos _)
  have h₂ : v % 2 ^ (f.hi - f.lo + 1) < 2 ^ (f.hi - f.lo + 1) := Nat.mod_lt _ (Nat.two_pow_pos _)
  have e₁ : 2 ^ (f.hi - f.lo + 1) * 2 ^ f.lo = 2 ^ (f.hi + 1) := by rw [← Nat.pow_add]; congr 1; omega
  have e₂ : 2 ^ (31 - f.hi) * 2 ^ (f.hi + 1) = 2 ^ 32 := by rw [← Nat.pow_add]; congr 1; omega
  have h₃ : w.toNat / 2 ^ (f.hi + 1) < 2 ^ (31 - f.hi) := by
    rw [Nat.div_lt_iff_lt_mul (Nat.two_pow_pos _), e₂]; exact hw
  have h₄ : v % 2 ^ (f.hi - f.lo + 1) * 2 ^ f.lo + 2 ^ f.lo ≤ 2 ^ (f.hi + 1) := by
    rw [← e₁, ← Nat.succ_mul]; exact Nat.mul_le_mul_right _ h₂
  have h₅ : w.toNat / 2 ^ (f.hi + 1) * 2 ^ (f.hi + 1) + 2 ^ (f.hi + 1) ≤ 2 ^ 32 := by
    rw [← e₂, ← Nat.succ_mul]; exact Nat.mul_le_mul_right _ h₃
  omega

theorem Fld.put_testBit (f : Fld) (h : f.ok = true) (v : Nat) (w : Word) (i : Nat) :
    (f.put v w).toNat.testBit i =
      if i < f.lo then w.toNat.testBit i else if i ≤ f.hi then v.testBit (i - f.lo) else w.toNat.testBit i := by
  rw [f.put_toNat h]
  simp only [Fld.ok, Bool.and_eq_true, decide_eq_true_eq] at h
  have h₁ : w.toNat % 2 ^ f.lo < 2 ^ f.lo := Nat.mod_lt _ (Nat.two_pow_pos _)
  have h₂ : v % 2 ^ (f.hi - f.lo + 1) < 2 ^ (f.hi - f.lo + 1) := Nat.mod_lt _ (Nat.two_pow_pos _)
  have e₁ : 2 ^ (f.hi - f.lo + 1) * 2 ^ f.lo = 2 ^ (f.hi + 1) := by rw [← Nat.pow_add]; congr 1; omega
  have h₄ : v % 2 ^ (f.hi - f.lo + 1) * 2 ^ f.lo + w.toNat % 2 ^ f.lo < 2 ^ (f.hi + 1) := by
    have : v % 2 ^ (f.hi - f.lo + 1) * 2 ^ f.lo + 2 ^ f.lo ≤ 2 ^ (f.hi + 1) := by
      rw [← e₁, ← Nat.succ_mul]; exact Nat.mul_le_mul_right _ h₂
    omega
  rw [Nat.add_comm (w.toNat % 2 ^ f.lo), Nat.add_comm _ (_ * 2 ^ (f.hi + 1)),
    Nat.mul_comm _ (2 ^ (f.hi + 1)), Nat.testBit_two_pow_mul_add _ h₄, Nat.mul_comm _ (2 ^ f.lo)]
  by_cases hi : i < f.hi + 1
  · rw [if_pos hi, Nat.testBit_two_pow_mul_add _ h₁]
    by_cases hl : i < f.lo
    · simp [hl, Nat.testBit_mod_two_pow]
    · have : i - f.lo < f.hi - f.lo + 1 := by omega
      simp [hl, Nat.testBit_mod_two_pow, this, Nat.lt_succ_iff.mp hi]
  · have hl : ¬ i < f.lo := by omega
    have hh : ¬ i ≤ f.hi := by omega
    rw [if_neg hi, if_neg hl, if_neg hh, Nat.testBit_div_two_pow]
    congr 1; omega

theorem Fld.get_testBit (f : Fld) (w : Word) (i : Nat) :
    (f.get w).testBit i = (decide (i < f.hi - f.lo + 1) && w.toNat.testBit (i + f.lo)) := by
  rw [Fld.get, Nat.testBit_mod_two_pow, Nat.testBit_div_two_pow]

/-- A field reads what was put into it, cut to its width. -/
theorem Fld.get_put (f : Fld) (h : f.ok = true) (v : Nat) (w : Word) : f.get (f.put v w) = v % 2 ^ (f.hi - f.lo + 1) := by
  refine Nat.eq_of_testBit_eq fun i => ?_
  rw [Fld.get_testBit, f.put_testBit h, Nat.testBit_mod_two_pow]
  simp only [Fld.ok, Bool.and_eq_true, decide_eq_true_eq] at h
  by_cases hi : i < f.hi - f.lo + 1
  · have h₁ : ¬ i + f.lo < f.lo := by omega
    have h₂ : i + f.lo ≤ f.hi := by omega
    rw [if_neg h₁, if_pos h₂, Nat.add_sub_cancel]
  · simp [hi]

/-- A field that shares no bit with another is not changed by a write of it. -/
theorem Fld.get_put_of_disjoint (f g : Fld) (hg : g.ok = true) (h : f.hi < g.lo ∨ g.hi < f.lo) (hf : f.lo ≤ f.hi)
    (v : Nat) (w : Word) : f.get (g.put v w) = f.get w := by
  refine Nat.eq_of_testBit_eq fun i => ?_
  rw [Fld.get_testBit, Fld.get_testBit, g.put_testBit hg]
  by_cases hi : i < f.hi - f.lo + 1
  · by_cases h₁ : i + f.lo < g.lo
    · rw [if_pos h₁]
    · have h₂ : ¬ i + f.lo ≤ g.hi := by omega
      rw [if_neg h₁, if_neg h₂]
  · simp [hi]

namespace State

variable (s : State)

@[simp] theorem reg_setReg (a b : Nat) (w : Word) : (s.setReg a w).reg b = if b = a then w else s.reg b := by
  show (Tbl.find (Tbl.store s.regs (regReset a) a w) b).getD (regReset b) = _
  by_cases h : b = a
  · subst h; simpa [Tbl.get] using Tbl.get_store s.regs (regReset b) b b w
  · have : Tbl.find (Tbl.store s.regs (regReset a) a w) b = Tbl.find s.regs b := by
      unfold Tbl.store; split <;> simp [h]
    rw [this, if_neg h]; rfl

/-- A field reads what was written to it. -/
theorem rd_wr (p : Nat) (f : Fld) (v : Nat) (h : f.ok = true) : (s.wr p f v).rd p f = v % 2 ^ (f.hi - f.lo + 1) := by
  unfold rd wr
  rw [reg_setReg, if_pos rfl, Fld.get_put f h]

/-- A write of a field leaves each field that shares no bit with it, in any page. -/
theorem rd_wr_sep (p q : Nat) (f g : Fld) (v : Nat) (h : f.sep g = true) (hf : f.ok = true) (hg : g.ok = true) :
    (s.wr q g v).rd p f = s.rd p f := by
  unfold rd wr
  rw [reg_setReg]
  split
  · rename_i e
    rw [e]
    refine Fld.get_put_of_disjoint f g hg ?_ ?_ v _
    · simp only [Fld.sep, Bool.or_eq_true, decide_eq_true_eq, bne_iff_ne] at h
      have : (p * 0x1000 + f.off) % 0x1000 = (q * 0x1000 + g.off) % 0x1000 := by rw [e]
      omega
    · simp only [Fld.ok, Bool.and_eq_true, decide_eq_true_eq] at hf; exact hf.1
  · rfl

/-- A write of a field of one page leaves every field of another. -/
theorem rd_wr_page (p q : Nat) (f g : Fld) (v : Nat) (h : p ≠ q) (hf : f.off < 0x1000) (hg : g.off < 0x1000) :
    (s.wr q g v).rd p f = s.rd p f := by
  unfold rd wr
  rw [reg_setReg, if_neg (by omega)]

end State

end Sys2Proof.Machine
end

