-- ==== Sys2Proof/Laws/State.lean ====
section
/-! SUPPORT. The fields of the state under each operation that writes a field of it: one lemma for each such operation,
an equation for every field that the operation leaves, and what a field of a register reads after it. -/

namespace Sys2Proof.Machine

/-- Two states agree in every listed part, as equations joined by `∧`. -/
def Part.agree : List Part → State → State → Prop
  | [], _, _ => True
  | [p], s, t => p.same s t
  | p :: q :: l, s, t => p.same s t ∧ Part.agree (q :: l) s t

/-- What an operation leaves, as equations. -/
theorem Upd.agree {K : List Part} {s t : State} (h : Upd K s t) : Part.agree (Part.allBut K) s t := by
  have hk : ∀ p ∈ Part.allBut K, p.same s t := fun p hp => h.frame p fun hm => by
    have := (List.mem_filter.mp hp).2
    rw [(Part.testBit_mask K p).mpr hm] at this
    exact Bool.noConfusion this
  generalize Part.allBut K = l at hk
  induction l with
  | nil => trivial
  | cons p l ih =>
    cases l with
    | nil => exact hk p (.head _)
    | cons q l => exact ⟨hk p (.head _), ih fun r hr => hk r (.tail _ hr)⟩

namespace State

variable {s : State}

theorem rd_congr {s t : State} (h : t.regs = s.regs) (p : Nat) (f : Fld) : t.rd p f = s.rd p f := by
  unfold rd reg; rw [h]

theorem reg_congr {s t : State} (h : t.regs = s.regs) (a : Nat) : t.reg a = s.reg a := by
  unfold reg; rw [h]

@[simp] theorem setReg_fields {a : Nat} {w : Word} :
    (s.setReg a w).pending = s.pending ∧ (s.setReg a w).held = s.held ∧ (s.setReg a w).out = s.out ∧ (s.setReg a
    w).draws = s.draws ∧ (s.setReg a w).fuses = s.fuses ∧ (s.setReg a w).straps = s.straps ∧ (s.setReg a w).cellar =
    s.cellar ∧ (s.setReg a w).seq = s.seq ∧ (s.setReg a w).power = s.power ∧ (s.setReg a w).cross = s.cross ∧ (s.setReg
    a w).security = s.security ∧ (s.setReg a w).pins = s.pins ∧ (s.setReg a w).doorway = s.doorway ∧ (s.setReg a
    w).porches = s.porches ∧ (s.setReg a w).host = s.host ∧ (s.setReg a w).rooms = s.rooms ∧ (s.setReg a w).fabric =
    s.fabric ∧ (s.setReg a w).refs = s.refs ∧ (s.setReg a w).sigs = s.sigs ∧ (s.setReg a w).blocks = s.blocks ∧
    (s.setReg a w).lines = s.lines ∧ (s.setReg a w).crews = s.crews ∧ (s.setReg a w).ids = s.ids ∧ (s.setReg a
    w).heatCopy = s.heatCopy ∧ (s.setReg a w).stamps = s.stamps ∧ (s.setReg a w).wings = s.wings ∧ (s.setReg a
    w).portOps = s.portOps ∧ (s.setReg a w).mem = s.mem ∧ (s.setReg a w).bad = s.bad ∧ (s.setReg a w).stackCtl =
    s.stackCtl ∧ (s.setReg a w).frames = s.frames ∧ (s.setReg a w).alloc = s.alloc ∧ (s.setReg a w).reads = s.reads ∧
    (s.setReg a w).attic = s.attic ∧ (s.setReg a w).prog = s.prog ∧ (s.setReg a w).recClear = s.recClear ∧ (s.setReg a
    w).retiring = s.retiring ∧ (s.setReg a w).chunk = s.chunk ∧ (s.setReg a w).loader = s.loader ∧ (s.setReg a w).chain
    = s.chain ∧ (s.setReg a w).g2 = s.g2 ∧ (s.setReg a w).selfTest = s.selfTest ∧ (s.setReg a w).cox = s.cox ∧ (s.setReg
    a w).hatches = s.hatches ∧ (s.setReg a w).gallery = s.gallery ∧ (s.setReg a w).course = s.course :=
  (setReg_upd : Upd [.regs] s (s.setReg a w)).agree

@[simp] theorem wr_fields {p : Nat} {f : Fld} {v : Nat} :
    (s.wr p f v).pending = s.pending ∧ (s.wr p f v).held = s.held ∧ (s.wr p f v).out = s.out ∧ (s.wr p f v).draws =
    s.draws ∧ (s.wr p f v).fuses = s.fuses ∧ (s.wr p f v).straps = s.straps ∧ (s.wr p f v).cellar = s.cellar ∧ (s.wr p f
    v).seq = s.seq ∧ (s.wr p f v).power = s.power ∧ (s.wr p f v).cross = s.cross ∧ (s.wr p f v).security = s.security ∧
    (s.wr p f v).pins = s.pins ∧ (s.wr p f v).doorway = s.doorway ∧ (s.wr p f v).porches = s.porches ∧ (s.wr p f v).host
    = s.host ∧ (s.wr p f v).rooms = s.rooms ∧ (s.wr p f v).fabric = s.fabric ∧ (s.wr p f v).refs = s.refs ∧ (s.wr p f
    v).sigs = s.sigs ∧ (s.wr p f v).blocks = s.blocks ∧ (s.wr p f v).lines = s.lines ∧ (s.wr p f v).crews = s.crews ∧
    (s.wr p f v).ids = s.ids ∧ (s.wr p f v).heatCopy = s.heatCopy ∧ (s.wr p f v).stamps = s.stamps ∧ (s.wr p f v).wings
    = s.wings ∧ (s.wr p f v).portOps = s.portOps ∧ (s.wr p f v).mem = s.mem ∧ (s.wr p f v).bad = s.bad ∧ (s.wr p f
    v).stackCtl = s.stackCtl ∧ (s.wr p f v).frames = s.frames ∧ (s.wr p f v).alloc = s.alloc ∧ (s.wr p f v).reads =
    s.reads ∧ (s.wr p f v).attic = s.attic ∧ (s.wr p f v).prog = s.prog ∧ (s.wr p f v).recClear = s.recClear ∧ (s.wr p f
    v).retiring = s.retiring ∧ (s.wr p f v).chunk = s.chunk ∧ (s.wr p f v).loader = s.loader ∧ (s.wr p f v).chain =
    s.chain ∧ (s.wr p f v).g2 = s.g2 ∧ (s.wr p f v).selfTest = s.selfTest ∧ (s.wr p f v).cox = s.cox ∧ (s.wr p f
    v).hatches = s.hatches ∧ (s.wr p f v).gallery = s.gallery ∧ (s.wr p f v).course = s.course :=
  (wr_upd : Upd [.regs] s (s.wr p f v)).agree

@[simp] theorem wrs_fields {p : Nat} {l : List (Fld × Nat)} :
    (s.wrs p l).pending = s.pending ∧ (s.wrs p l).held = s.held ∧ (s.wrs p l).out = s.out ∧ (s.wrs p l).draws = s.draws
    ∧ (s.wrs p l).fuses = s.fuses ∧ (s.wrs p l).straps = s.straps ∧ (s.wrs p l).cellar = s.cellar ∧ (s.wrs p l).seq =
    s.seq ∧ (s.wrs p l).power = s.power ∧ (s.wrs p l).cross = s.cross ∧ (s.wrs p l).security = s.security ∧ (s.wrs p
    l).pins = s.pins ∧ (s.wrs p l).doorway = s.doorway ∧ (s.wrs p l).porches = s.porches ∧ (s.wrs p l).host = s.host ∧
    (s.wrs p l).rooms = s.rooms ∧ (s.wrs p l).fabric = s.fabric ∧ (s.wrs p l).refs = s.refs ∧ (s.wrs p l).sigs = s.sigs
    ∧ (s.wrs p l).blocks = s.blocks ∧ (s.wrs p l).lines = s.lines ∧ (s.wrs p l).crews = s.crews ∧ (s.wrs p l).ids =
    s.ids ∧ (s.wrs p l).heatCopy = s.heatCopy ∧ (s.wrs p l).stamps = s.stamps ∧ (s.wrs p l).wings = s.wings ∧ (s.wrs p
    l).portOps = s.portOps ∧ (s.wrs p l).mem = s.mem ∧ (s.wrs p l).bad = s.bad ∧ (s.wrs p l).stackCtl = s.stackCtl ∧
    (s.wrs p l).frames = s.frames ∧ (s.wrs p l).alloc = s.alloc ∧ (s.wrs p l).reads = s.reads ∧ (s.wrs p l).attic =
    s.attic ∧ (s.wrs p l).prog = s.prog ∧ (s.wrs p l).recClear = s.recClear ∧ (s.wrs p l).retiring = s.retiring ∧ (s.wrs
    p l).chunk = s.chunk ∧ (s.wrs p l).loader = s.loader ∧ (s.wrs p l).chain = s.chain ∧ (s.wrs p l).g2 = s.g2 ∧ (s.wrs
    p l).selfTest = s.selfTest ∧ (s.wrs p l).cox = s.cox ∧ (s.wrs p l).hatches = s.hatches ∧ (s.wrs p l).gallery =
    s.gallery ∧ (s.wrs p l).course = s.course :=
  (wrs_upd : Upd [.regs] s (s.wrs p l)).agree

@[simp] theorem bump_fields {p : Nat} {f : Fld} {n : optParam Nat 1} :
    (s.bump p f n).pending = s.pending ∧ (s.bump p f n).held = s.held ∧ (s.bump p f n).out = s.out ∧ (s.bump p f
    n).draws = s.draws ∧ (s.bump p f n).fuses = s.fuses ∧ (s.bump p f n).straps = s.straps ∧ (s.bump p f n).cellar =
    s.cellar ∧ (s.bump p f n).seq = s.seq ∧ (s.bump p f n).power = s.power ∧ (s.bump p f n).cross = s.cross ∧ (s.bump p
    f n).security = s.security ∧ (s.bump p f n).pins = s.pins ∧ (s.bump p f n).doorway = s.doorway ∧ (s.bump p f
    n).porches = s.porches ∧ (s.bump p f n).host = s.host ∧ (s.bump p f n).rooms = s.rooms ∧ (s.bump p f n).fabric =
    s.fabric ∧ (s.bump p f n).refs = s.refs ∧ (s.bump p f n).sigs = s.sigs ∧ (s.bump p f n).blocks = s.blocks ∧ (s.bump
    p f n).lines = s.lines ∧ (s.bump p f n).crews = s.crews ∧ (s.bump p f n).ids = s.ids ∧ (s.bump p f n).heatCopy =
    s.heatCopy ∧ (s.bump p f n).stamps = s.stamps ∧ (s.bump p f n).wings = s.wings ∧ (s.bump p f n).portOps = s.portOps
    ∧ (s.bump p f n).mem = s.mem ∧ (s.bump p f n).bad = s.bad ∧ (s.bump p f n).stackCtl = s.stackCtl ∧ (s.bump p f
    n).frames = s.frames ∧ (s.bump p f n).alloc = s.alloc ∧ (s.bump p f n).reads = s.reads ∧ (s.bump p f n).attic =
    s.attic ∧ (s.bump p f n).prog = s.prog ∧ (s.bump p f n).recClear = s.recClear ∧ (s.bump p f n).retiring = s.retiring
    ∧ (s.bump p f n).chunk = s.chunk ∧ (s.bump p f n).loader = s.loader ∧ (s.bump p f n).chain = s.chain ∧ (s.bump p f
    n).g2 = s.g2 ∧ (s.bump p f n).selfTest = s.selfTest ∧ (s.bump p f n).cox = s.cox ∧ (s.bump p f n).hatches =
    s.hatches ∧ (s.bump p f n).gallery = s.gallery ∧ (s.bump p f n).course = s.course :=
  (bump_upd : Upd [.regs] s (s.bump p f n)).agree

@[simp] theorem step1_fields {p : Nat} {f : Fld} :
    (s.step1 p f).pending = s.pending ∧ (s.step1 p f).held = s.held ∧ (s.step1 p f).out = s.out ∧ (s.step1 p f).draws =
    s.draws ∧ (s.step1 p f).fuses = s.fuses ∧ (s.step1 p f).straps = s.straps ∧ (s.step1 p f).cellar = s.cellar ∧
    (s.step1 p f).seq = s.seq ∧ (s.step1 p f).power = s.power ∧ (s.step1 p f).cross = s.cross ∧ (s.step1 p f).security =
    s.security ∧ (s.step1 p f).pins = s.pins ∧ (s.step1 p f).doorway = s.doorway ∧ (s.step1 p f).porches = s.porches ∧
    (s.step1 p f).host = s.host ∧ (s.step1 p f).rooms = s.rooms ∧ (s.step1 p f).fabric = s.fabric ∧ (s.step1 p f).refs =
    s.refs ∧ (s.step1 p f).sigs = s.sigs ∧ (s.step1 p f).blocks = s.blocks ∧ (s.step1 p f).lines = s.lines ∧ (s.step1 p
    f).crews = s.crews ∧ (s.step1 p f).ids = s.ids ∧ (s.step1 p f).heatCopy = s.heatCopy ∧ (s.step1 p f).stamps =
    s.stamps ∧ (s.step1 p f).wings = s.wings ∧ (s.step1 p f).portOps = s.portOps ∧ (s.step1 p f).mem = s.mem ∧ (s.step1
    p f).bad = s.bad ∧ (s.step1 p f).stackCtl = s.stackCtl ∧ (s.step1 p f).frames = s.frames ∧ (s.step1 p f).alloc =
    s.alloc ∧ (s.step1 p f).reads = s.reads ∧ (s.step1 p f).attic = s.attic ∧ (s.step1 p f).prog = s.prog ∧ (s.step1 p
    f).recClear = s.recClear ∧ (s.step1 p f).retiring = s.retiring ∧ (s.step1 p f).chunk = s.chunk ∧ (s.step1 p
    f).loader = s.loader ∧ (s.step1 p f).chain = s.chain ∧ (s.step1 p f).g2 = s.g2 ∧ (s.step1 p f).selfTest = s.selfTest
    ∧ (s.step1 p f).cox = s.cox ∧ (s.step1 p f).hatches = s.hatches ∧ (s.step1 p f).gallery = s.gallery ∧ (s.step1 p
    f).course = s.course :=
  (step1_upd : Upd [.regs] s (s.step1 p f)).agree

@[simp] theorem pgErr_fields {p code addr : Nat} :
    (s.pgErr p code addr).pending = s.pending ∧ (s.pgErr p code addr).held = s.held ∧ (s.pgErr p code addr).out = s.out
    ∧ (s.pgErr p code addr).draws = s.draws ∧ (s.pgErr p code addr).fuses = s.fuses ∧ (s.pgErr p code addr).straps =
    s.straps ∧ (s.pgErr p code addr).cellar = s.cellar ∧ (s.pgErr p code addr).seq = s.seq ∧ (s.pgErr p code addr).power
    = s.power ∧ (s.pgErr p code addr).cross = s.cross ∧ (s.pgErr p code addr).security = s.security ∧ (s.pgErr p code
    addr).pins = s.pins ∧ (s.pgErr p code addr).doorway = s.doorway ∧ (s.pgErr p code addr).porches = s.porches ∧
    (s.pgErr p code addr).host = s.host ∧ (s.pgErr p code addr).rooms = s.rooms ∧ (s.pgErr p code addr).fabric =
    s.fabric ∧ (s.pgErr p code addr).refs = s.refs ∧ (s.pgErr p code addr).sigs = s.sigs ∧ (s.pgErr p code addr).blocks
    = s.blocks ∧ (s.pgErr p code addr).lines = s.lines ∧ (s.pgErr p code addr).crews = s.crews ∧ (s.pgErr p code
    addr).ids = s.ids ∧ (s.pgErr p code addr).heatCopy = s.heatCopy ∧ (s.pgErr p code addr).stamps = s.stamps ∧ (s.pgErr
    p code addr).wings = s.wings ∧ (s.pgErr p code addr).portOps = s.portOps ∧ (s.pgErr p code addr).mem = s.mem ∧
    (s.pgErr p code addr).bad = s.bad ∧ (s.pgErr p code addr).stackCtl = s.stackCtl ∧ (s.pgErr p code addr).frames =
    s.frames ∧ (s.pgErr p code addr).alloc = s.alloc ∧ (s.pgErr p code addr).reads = s.reads ∧ (s.pgErr p code
    addr).attic = s.attic ∧ (s.pgErr p code addr).prog = s.prog ∧ (s.pgErr p code addr).recClear = s.recClear ∧ (s.pgErr
    p code addr).retiring = s.retiring ∧ (s.pgErr p code addr).chunk = s.chunk ∧ (s.pgErr p code addr).loader = s.loader
    ∧ (s.pgErr p code addr).chain = s.chain ∧ (s.pgErr p code addr).g2 = s.g2 ∧ (s.pgErr p code addr).selfTest =
    s.selfTest ∧ (s.pgErr p code addr).cox = s.cox ∧ (s.pgErr p code addr).hatches = s.hatches ∧ (s.pgErr p code
    addr).gallery = s.gallery ∧ (s.pgErr p code addr).course = s.course :=
  (pgErr_upd : Upd [.regs] s (s.pgErr p code addr)).agree

@[simp] theorem goBusy_fields {p : Nat} {g : GoFlds} :
    (s.goBusy p g).pending = s.pending ∧ (s.goBusy p g).held = s.held ∧ (s.goBusy p g).out = s.out ∧ (s.goBusy p
    g).draws = s.draws ∧ (s.goBusy p g).fuses = s.fuses ∧ (s.goBusy p g).straps = s.straps ∧ (s.goBusy p g).cellar =
    s.cellar ∧ (s.goBusy p g).seq = s.seq ∧ (s.goBusy p g).power = s.power ∧ (s.goBusy p g).cross = s.cross ∧ (s.goBusy
    p g).security = s.security ∧ (s.goBusy p g).pins = s.pins ∧ (s.goBusy p g).doorway = s.doorway ∧ (s.goBusy p
    g).porches = s.porches ∧ (s.goBusy p g).host = s.host ∧ (s.goBusy p g).rooms = s.rooms ∧ (s.goBusy p g).fabric =
    s.fabric ∧ (s.goBusy p g).refs = s.refs ∧ (s.goBusy p g).sigs = s.sigs ∧ (s.goBusy p g).blocks = s.blocks ∧
    (s.goBusy p g).lines = s.lines ∧ (s.goBusy p g).crews = s.crews ∧ (s.goBusy p g).ids = s.ids ∧ (s.goBusy p
    g).heatCopy = s.heatCopy ∧ (s.goBusy p g).stamps = s.stamps ∧ (s.goBusy p g).wings = s.wings ∧ (s.goBusy p
    g).portOps = s.portOps ∧ (s.goBusy p g).mem = s.mem ∧ (s.goBusy p g).bad = s.bad ∧ (s.goBusy p g).stackCtl =
    s.stackCtl ∧ (s.goBusy p g).frames = s.frames ∧ (s.goBusy p g).alloc = s.alloc ∧ (s.goBusy p g).reads = s.reads ∧
    (s.goBusy p g).attic = s.attic ∧ (s.goBusy p g).prog = s.prog ∧ (s.goBusy p g).recClear = s.recClear ∧ (s.goBusy p
    g).retiring = s.retiring ∧ (s.goBusy p g).chunk = s.chunk ∧ (s.goBusy p g).loader = s.loader ∧ (s.goBusy p g).chain
    = s.chain ∧ (s.goBusy p g).g2 = s.g2 ∧ (s.goBusy p g).selfTest = s.selfTest ∧ (s.goBusy p g).cox = s.cox ∧ (s.goBusy
    p g).hatches = s.hatches ∧ (s.goBusy p g).gallery = s.gallery ∧ (s.goBusy p g).course = s.course :=
  (goBusy_upd : Upd [.regs] s (s.goBusy p g)).agree

@[simp] theorem goDone_fields {p : Nat} {g : GoFlds} :
    (s.goDone p g).pending = s.pending ∧ (s.goDone p g).held = s.held ∧ (s.goDone p g).out = s.out ∧ (s.goDone p
    g).draws = s.draws ∧ (s.goDone p g).fuses = s.fuses ∧ (s.goDone p g).straps = s.straps ∧ (s.goDone p g).cellar =
    s.cellar ∧ (s.goDone p g).seq = s.seq ∧ (s.goDone p g).power = s.power ∧ (s.goDone p g).cross = s.cross ∧ (s.goDone
    p g).security = s.security ∧ (s.goDone p g).pins = s.pins ∧ (s.goDone p g).doorway = s.doorway ∧ (s.goDone p
    g).porches = s.porches ∧ (s.goDone p g).host = s.host ∧ (s.goDone p g).rooms = s.rooms ∧ (s.goDone p g).fabric =
    s.fabric ∧ (s.goDone p g).refs = s.refs ∧ (s.goDone p g).sigs = s.sigs ∧ (s.goDone p g).blocks = s.blocks ∧
    (s.goDone p g).lines = s.lines ∧ (s.goDone p g).crews = s.crews ∧ (s.goDone p g).ids = s.ids ∧ (s.goDone p
    g).heatCopy = s.heatCopy ∧ (s.goDone p g).stamps = s.stamps ∧ (s.goDone p g).wings = s.wings ∧ (s.goDone p
    g).portOps = s.portOps ∧ (s.goDone p g).mem = s.mem ∧ (s.goDone p g).bad = s.bad ∧ (s.goDone p g).stackCtl =
    s.stackCtl ∧ (s.goDone p g).frames = s.frames ∧ (s.goDone p g).alloc = s.alloc ∧ (s.goDone p g).reads = s.reads ∧
    (s.goDone p g).attic = s.attic ∧ (s.goDone p g).prog = s.prog ∧ (s.goDone p g).recClear = s.recClear ∧ (s.goDone p
    g).retiring = s.retiring ∧ (s.goDone p g).chunk = s.chunk ∧ (s.goDone p g).loader = s.loader ∧ (s.goDone p g).chain
    = s.chain ∧ (s.goDone p g).g2 = s.g2 ∧ (s.goDone p g).selfTest = s.selfTest ∧ (s.goDone p g).cox = s.cox ∧ (s.goDone
    p g).hatches = s.hatches ∧ (s.goDone p g).gallery = s.gallery ∧ (s.goDone p g).course = s.course :=
  (goDone_upd : Upd [.regs] s (s.goDone p g)).agree

@[simp] theorem goRefused_fields {p : Nat} {g : GoFlds} {reason : Nat} :
    (s.goRefused p g reason).pending = s.pending ∧ (s.goRefused p g reason).held = s.held ∧ (s.goRefused p g reason).out
    = s.out ∧ (s.goRefused p g reason).draws = s.draws ∧ (s.goRefused p g reason).fuses = s.fuses ∧ (s.goRefused p g
    reason).straps = s.straps ∧ (s.goRefused p g reason).cellar = s.cellar ∧ (s.goRefused p g reason).seq = s.seq ∧
    (s.goRefused p g reason).power = s.power ∧ (s.goRefused p g reason).cross = s.cross ∧ (s.goRefused p g
    reason).security = s.security ∧ (s.goRefused p g reason).pins = s.pins ∧ (s.goRefused p g reason).doorway =
    s.doorway ∧ (s.goRefused p g reason).porches = s.porches ∧ (s.goRefused p g reason).host = s.host ∧ (s.goRefused p g
    reason).rooms = s.rooms ∧ (s.goRefused p g reason).fabric = s.fabric ∧ (s.goRefused p g reason).refs = s.refs ∧
    (s.goRefused p g reason).sigs = s.sigs ∧ (s.goRefused p g reason).blocks = s.blocks ∧ (s.goRefused p g reason).lines
    = s.lines ∧ (s.goRefused p g reason).crews = s.crews ∧ (s.goRefused p g reason).ids = s.ids ∧ (s.goRefused p g
    reason).heatCopy = s.heatCopy ∧ (s.goRefused p g reason).stamps = s.stamps ∧ (s.goRefused p g reason).wings =
    s.wings ∧ (s.goRefused p g reason).portOps = s.portOps ∧ (s.goRefused p g reason).mem = s.mem ∧ (s.goRefused p g
    reason).bad = s.bad ∧ (s.goRefused p g reason).stackCtl = s.stackCtl ∧ (s.goRefused p g reason).frames = s.frames ∧
    (s.goRefused p g reason).alloc = s.alloc ∧ (s.goRefused p g reason).reads = s.reads ∧ (s.goRefused p g reason).attic
    = s.attic ∧ (s.goRefused p g reason).prog = s.prog ∧ (s.goRefused p g reason).recClear = s.recClear ∧ (s.goRefused p
    g reason).retiring = s.retiring ∧ (s.goRefused p g reason).chunk = s.chunk ∧ (s.goRefused p g reason).loader =
    s.loader ∧ (s.goRefused p g reason).chain = s.chain ∧ (s.goRefused p g reason).g2 = s.g2 ∧ (s.goRefused p g
    reason).selfTest = s.selfTest ∧ (s.goRefused p g reason).cox = s.cox ∧ (s.goRefused p g reason).hatches = s.hatches
    ∧ (s.goRefused p g reason).gallery = s.gallery ∧ (s.goRefused p g reason).course = s.course :=
  (goRefused_upd : Upd [.regs] s (s.goRefused p g reason)).agree

@[simp] theorem emit_fields {e : Emission} :
    (s.emit e).pending = s.pending ∧ (s.emit e).regs = s.regs ∧ (s.emit e).held = s.held ∧ (s.emit e).draws = s.draws ∧
    (s.emit e).fuses = s.fuses ∧ (s.emit e).straps = s.straps ∧ (s.emit e).cellar = s.cellar ∧ (s.emit e).seq = s.seq ∧
    (s.emit e).power = s.power ∧ (s.emit e).cross = s.cross ∧ (s.emit e).security = s.security ∧ (s.emit e).pins =
    s.pins ∧ (s.emit e).doorway = s.doorway ∧ (s.emit e).porches = s.porches ∧ (s.emit e).host = s.host ∧ (s.emit
    e).rooms = s.rooms ∧ (s.emit e).fabric = s.fabric ∧ (s.emit e).refs = s.refs ∧ (s.emit e).sigs = s.sigs ∧ (s.emit
    e).blocks = s.blocks ∧ (s.emit e).lines = s.lines ∧ (s.emit e).crews = s.crews ∧ (s.emit e).ids = s.ids ∧ (s.emit
    e).heatCopy = s.heatCopy ∧ (s.emit e).stamps = s.stamps ∧ (s.emit e).wings = s.wings ∧ (s.emit e).portOps =
    s.portOps ∧ (s.emit e).mem = s.mem ∧ (s.emit e).bad = s.bad ∧ (s.emit e).stackCtl = s.stackCtl ∧ (s.emit e).frames =
    s.frames ∧ (s.emit e).alloc = s.alloc ∧ (s.emit e).reads = s.reads ∧ (s.emit e).attic = s.attic ∧ (s.emit e).prog =
    s.prog ∧ (s.emit e).recClear = s.recClear ∧ (s.emit e).retiring = s.retiring ∧ (s.emit e).chunk = s.chunk ∧ (s.emit
    e).loader = s.loader ∧ (s.emit e).chain = s.chain ∧ (s.emit e).g2 = s.g2 ∧ (s.emit e).selfTest = s.selfTest ∧
    (s.emit e).cox = s.cox ∧ (s.emit e).hatches = s.hatches ∧ (s.emit e).gallery = s.gallery ∧ (s.emit e).course =
    s.course :=
  (emit_upd : Upd [.out] s (s.emit e)).agree

@[simp] theorem rd_emit {e : Emission} (pg : Nat) (g : Fld) : (s.emit e).rd pg g = s.rd pg g :=
  rd_congr emit_fields.2.1 pg g

@[simp] theorem drew_fields  :
    (s.drew).pending = s.pending ∧ (s.drew).regs = s.regs ∧ (s.drew).held = s.held ∧ (s.drew).out = s.out ∧
    (s.drew).fuses = s.fuses ∧ (s.drew).straps = s.straps ∧ (s.drew).cellar = s.cellar ∧ (s.drew).seq = s.seq ∧
    (s.drew).power = s.power ∧ (s.drew).cross = s.cross ∧ (s.drew).security = s.security ∧ (s.drew).pins = s.pins ∧
    (s.drew).doorway = s.doorway ∧ (s.drew).porches = s.porches ∧ (s.drew).host = s.host ∧ (s.drew).rooms = s.rooms ∧
    (s.drew).fabric = s.fabric ∧ (s.drew).refs = s.refs ∧ (s.drew).sigs = s.sigs ∧ (s.drew).blocks = s.blocks ∧
    (s.drew).lines = s.lines ∧ (s.drew).crews = s.crews ∧ (s.drew).ids = s.ids ∧ (s.drew).heatCopy = s.heatCopy ∧
    (s.drew).stamps = s.stamps ∧ (s.drew).wings = s.wings ∧ (s.drew).portOps = s.portOps ∧ (s.drew).mem = s.mem ∧
    (s.drew).bad = s.bad ∧ (s.drew).stackCtl = s.stackCtl ∧ (s.drew).frames = s.frames ∧ (s.drew).alloc = s.alloc ∧
    (s.drew).reads = s.reads ∧ (s.drew).attic = s.attic ∧ (s.drew).prog = s.prog ∧ (s.drew).recClear = s.recClear ∧
    (s.drew).retiring = s.retiring ∧ (s.drew).chunk = s.chunk ∧ (s.drew).loader = s.loader ∧ (s.drew).chain = s.chain ∧
    (s.drew).g2 = s.g2 ∧ (s.drew).selfTest = s.selfTest ∧ (s.drew).cox = s.cox ∧ (s.drew).hatches = s.hatches ∧
    (s.drew).gallery = s.gallery ∧ (s.drew).course = s.course :=
  (drew_upd : Upd [.draws] s (s.drew)).agree

@[simp] theorem rd_drew  (pg : Nat) (g : Fld) : (s.drew).rd pg g = s.rd pg g :=
  rd_congr drew_fields.2.1 pg g

@[simp] theorem setRoom_fields {r : Nat} {x : Room} :
    (s.setRoom r x).pending = s.pending ∧ (s.setRoom r x).regs = s.regs ∧ (s.setRoom r x).held = s.held ∧ (s.setRoom r
    x).out = s.out ∧ (s.setRoom r x).draws = s.draws ∧ (s.setRoom r x).fuses = s.fuses ∧ (s.setRoom r x).straps =
    s.straps ∧ (s.setRoom r x).cellar = s.cellar ∧ (s.setRoom r x).seq = s.seq ∧ (s.setRoom r x).power = s.power ∧
    (s.setRoom r x).cross = s.cross ∧ (s.setRoom r x).security = s.security ∧ (s.setRoom r x).pins = s.pins ∧ (s.setRoom
    r x).doorway = s.doorway ∧ (s.setRoom r x).porches = s.porches ∧ (s.setRoom r x).host = s.host ∧ (s.setRoom r
    x).fabric = s.fabric ∧ (s.setRoom r x).refs = s.refs ∧ (s.setRoom r x).sigs = s.sigs ∧ (s.setRoom r x).blocks =
    s.blocks ∧ (s.setRoom r x).lines = s.lines ∧ (s.setRoom r x).crews = s.crews ∧ (s.setRoom r x).ids = s.ids ∧
    (s.setRoom r x).heatCopy = s.heatCopy ∧ (s.setRoom r x).stamps = s.stamps ∧ (s.setRoom r x).wings = s.wings ∧
    (s.setRoom r x).portOps = s.portOps ∧ (s.setRoom r x).mem = s.mem ∧ (s.setRoom r x).bad = s.bad ∧ (s.setRoom r
    x).stackCtl = s.stackCtl ∧ (s.setRoom r x).frames = s.frames ∧ (s.setRoom r x).alloc = s.alloc ∧ (s.setRoom r
    x).reads = s.reads ∧ (s.setRoom r x).attic = s.attic ∧ (s.setRoom r x).prog = s.prog ∧ (s.setRoom r x).recClear =
    s.recClear ∧ (s.setRoom r x).retiring = s.retiring ∧ (s.setRoom r x).chunk = s.chunk ∧ (s.setRoom r x).loader =
    s.loader ∧ (s.setRoom r x).chain = s.chain ∧ (s.setRoom r x).g2 = s.g2 ∧ (s.setRoom r x).selfTest = s.selfTest ∧
    (s.setRoom r x).cox = s.cox ∧ (s.setRoom r x).hatches = s.hatches ∧ (s.setRoom r x).gallery = s.gallery ∧ (s.setRoom
    r x).course = s.course :=
  (setRoom_upd : Upd [.rooms] s (s.setRoom r x)).agree

@[simp] theorem rd_setRoom {r : Nat} {x : Room} (pg : Nat) (g : Fld) : (s.setRoom r x).rd pg g = s.rd pg g :=
  rd_congr setRoom_fields.2.1 pg g

@[simp] theorem modRoom_fields {r : Nat} {f : Room → Room} :
    (s.modRoom r f).pending = s.pending ∧ (s.modRoom r f).regs = s.regs ∧ (s.modRoom r f).held = s.held ∧ (s.modRoom r
    f).out = s.out ∧ (s.modRoom r f).draws = s.draws ∧ (s.modRoom r f).fuses = s.fuses ∧ (s.modRoom r f).straps =
    s.straps ∧ (s.modRoom r f).cellar = s.cellar ∧ (s.modRoom r f).seq = s.seq ∧ (s.modRoom r f).power = s.power ∧
    (s.modRoom r f).cross = s.cross ∧ (s.modRoom r f).security = s.security ∧ (s.modRoom r f).pins = s.pins ∧ (s.modRoom
    r f).doorway = s.doorway ∧ (s.modRoom r f).porches = s.porches ∧ (s.modRoom r f).host = s.host ∧ (s.modRoom r
    f).fabric = s.fabric ∧ (s.modRoom r f).refs = s.refs ∧ (s.modRoom r f).sigs = s.sigs ∧ (s.modRoom r f).blocks =
    s.blocks ∧ (s.modRoom r f).lines = s.lines ∧ (s.modRoom r f).crews = s.crews ∧ (s.modRoom r f).ids = s.ids ∧
    (s.modRoom r f).heatCopy = s.heatCopy ∧ (s.modRoom r f).stamps = s.stamps ∧ (s.modRoom r f).wings = s.wings ∧
    (s.modRoom r f).portOps = s.portOps ∧ (s.modRoom r f).mem = s.mem ∧ (s.modRoom r f).bad = s.bad ∧ (s.modRoom r
    f).stackCtl = s.stackCtl ∧ (s.modRoom r f).frames = s.frames ∧ (s.modRoom r f).alloc = s.alloc ∧ (s.modRoom r
    f).reads = s.reads ∧ (s.modRoom r f).attic = s.attic ∧ (s.modRoom r f).prog = s.prog ∧ (s.modRoom r f).recClear =
    s.recClear ∧ (s.modRoom r f).retiring = s.retiring ∧ (s.modRoom r f).chunk = s.chunk ∧ (s.modRoom r f).loader =
    s.loader ∧ (s.modRoom r f).chain = s.chain ∧ (s.modRoom r f).g2 = s.g2 ∧ (s.modRoom r f).selfTest = s.selfTest ∧
    (s.modRoom r f).cox = s.cox ∧ (s.modRoom r f).hatches = s.hatches ∧ (s.modRoom r f).gallery = s.gallery ∧ (s.modRoom
    r f).course = s.course :=
  (modRoom_upd : Upd [.rooms] s (s.modRoom r f)).agree

@[simp] theorem rd_modRoom {r : Nat} {f : Room → Room} (pg : Nat) (g : Fld) : (s.modRoom r f).rd pg g = s.rd pg g :=
  rd_congr modRoom_fields.2.1 pg g

@[simp] theorem setCrew_fields {id : Nat} {c : Crew} :
    (s.setCrew id c).pending = s.pending ∧ (s.setCrew id c).regs = s.regs ∧ (s.setCrew id c).held = s.held ∧ (s.setCrew
    id c).out = s.out ∧ (s.setCrew id c).draws = s.draws ∧ (s.setCrew id c).fuses = s.fuses ∧ (s.setCrew id c).straps =
    s.straps ∧ (s.setCrew id c).cellar = s.cellar ∧ (s.setCrew id c).seq = s.seq ∧ (s.setCrew id c).power = s.power ∧
    (s.setCrew id c).cross = s.cross ∧ (s.setCrew id c).security = s.security ∧ (s.setCrew id c).pins = s.pins ∧
    (s.setCrew id c).doorway = s.doorway ∧ (s.setCrew id c).porches = s.porches ∧ (s.setCrew id c).host = s.host ∧
    (s.setCrew id c).rooms = s.rooms ∧ (s.setCrew id c).fabric = s.fabric ∧ (s.setCrew id c).refs = s.refs ∧ (s.setCrew
    id c).sigs = s.sigs ∧ (s.setCrew id c).blocks = s.blocks ∧ (s.setCrew id c).lines = s.lines ∧ (s.setCrew id c).ids =
    s.ids ∧ (s.setCrew id c).heatCopy = s.heatCopy ∧ (s.setCrew id c).stamps = s.stamps ∧ (s.setCrew id c).wings =
    s.wings ∧ (s.setCrew id c).portOps = s.portOps ∧ (s.setCrew id c).mem = s.mem ∧ (s.setCrew id c).bad = s.bad ∧
    (s.setCrew id c).stackCtl = s.stackCtl ∧ (s.setCrew id c).frames = s.frames ∧ (s.setCrew id c).alloc = s.alloc ∧
    (s.setCrew id c).reads = s.reads ∧ (s.setCrew id c).attic = s.attic ∧ (s.setCrew id c).prog = s.prog ∧ (s.setCrew id
    c).recClear = s.recClear ∧ (s.setCrew id c).retiring = s.retiring ∧ (s.setCrew id c).chunk = s.chunk ∧ (s.setCrew id
    c).loader = s.loader ∧ (s.setCrew id c).chain = s.chain ∧ (s.setCrew id c).g2 = s.g2 ∧ (s.setCrew id c).selfTest =
    s.selfTest ∧ (s.setCrew id c).cox = s.cox ∧ (s.setCrew id c).hatches = s.hatches ∧ (s.setCrew id c).gallery =
    s.gallery ∧ (s.setCrew id c).course = s.course :=
  (setCrew_upd : Upd [.crews] s (s.setCrew id c)).agree

@[simp] theorem rd_setCrew {id : Nat} {c : Crew} (pg : Nat) (g : Fld) : (s.setCrew id c).rd pg g = s.rd pg g :=
  rd_congr setCrew_fields.2.1 pg g

@[simp] theorem modCrew_fields {id : Nat} {f : Crew → Crew} :
    (s.modCrew id f).pending = s.pending ∧ (s.modCrew id f).regs = s.regs ∧ (s.modCrew id f).held = s.held ∧ (s.modCrew
    id f).out = s.out ∧ (s.modCrew id f).draws = s.draws ∧ (s.modCrew id f).fuses = s.fuses ∧ (s.modCrew id f).straps =
    s.straps ∧ (s.modCrew id f).cellar = s.cellar ∧ (s.modCrew id f).seq = s.seq ∧ (s.modCrew id f).power = s.power ∧
    (s.modCrew id f).cross = s.cross ∧ (s.modCrew id f).security = s.security ∧ (s.modCrew id f).pins = s.pins ∧
    (s.modCrew id f).doorway = s.doorway ∧ (s.modCrew id f).porches = s.porches ∧ (s.modCrew id f).host = s.host ∧
    (s.modCrew id f).rooms = s.rooms ∧ (s.modCrew id f).fabric = s.fabric ∧ (s.modCrew id f).refs = s.refs ∧ (s.modCrew
    id f).sigs = s.sigs ∧ (s.modCrew id f).blocks = s.blocks ∧ (s.modCrew id f).lines = s.lines ∧ (s.modCrew id f).ids =
    s.ids ∧ (s.modCrew id f).heatCopy = s.heatCopy ∧ (s.modCrew id f).stamps = s.stamps ∧ (s.modCrew id f).wings =
    s.wings ∧ (s.modCrew id f).portOps = s.portOps ∧ (s.modCrew id f).mem = s.mem ∧ (s.modCrew id f).bad = s.bad ∧
    (s.modCrew id f).stackCtl = s.stackCtl ∧ (s.modCrew id f).frames = s.frames ∧ (s.modCrew id f).alloc = s.alloc ∧
    (s.modCrew id f).reads = s.reads ∧ (s.modCrew id f).attic = s.attic ∧ (s.modCrew id f).prog = s.prog ∧ (s.modCrew id
    f).recClear = s.recClear ∧ (s.modCrew id f).retiring = s.retiring ∧ (s.modCrew id f).chunk = s.chunk ∧ (s.modCrew id
    f).loader = s.loader ∧ (s.modCrew id f).chain = s.chain ∧ (s.modCrew id f).g2 = s.g2 ∧ (s.modCrew id f).selfTest =
    s.selfTest ∧ (s.modCrew id f).cox = s.cox ∧ (s.modCrew id f).hatches = s.hatches ∧ (s.modCrew id f).gallery =
    s.gallery ∧ (s.modCrew id f).course = s.course :=
  (modCrew_upd : Upd [.crews] s (s.modCrew id f)).agree

@[simp] theorem rd_modCrew {id : Nat} {f : Crew → Crew} (pg : Nat) (g : Fld) : (s.modCrew id f).rd pg g = s.rd pg g :=
  rd_congr modCrew_fields.2.1 pg g

@[simp] theorem setWing_fields {w : Nat} {x : Wing} :
    (s.setWing w x).pending = s.pending ∧ (s.setWing w x).regs = s.regs ∧ (s.setWing w x).held = s.held ∧ (s.setWing w
    x).out = s.out ∧ (s.setWing w x).draws = s.draws ∧ (s.setWing w x).fuses = s.fuses ∧ (s.setWing w x).straps =
    s.straps ∧ (s.setWing w x).cellar = s.cellar ∧ (s.setWing w x).seq = s.seq ∧ (s.setWing w x).power = s.power ∧
    (s.setWing w x).cross = s.cross ∧ (s.setWing w x).security = s.security ∧ (s.setWing w x).pins = s.pins ∧ (s.setWing
    w x).doorway = s.doorway ∧ (s.setWing w x).porches = s.porches ∧ (s.setWing w x).host = s.host ∧ (s.setWing w
    x).rooms = s.rooms ∧ (s.setWing w x).fabric = s.fabric ∧ (s.setWing w x).refs = s.refs ∧ (s.setWing w x).sigs =
    s.sigs ∧ (s.setWing w x).blocks = s.blocks ∧ (s.setWing w x).lines = s.lines ∧ (s.setWing w x).crews = s.crews ∧
    (s.setWing w x).ids = s.ids ∧ (s.setWing w x).heatCopy = s.heatCopy ∧ (s.setWing w x).stamps = s.stamps ∧ (s.setWing
    w x).portOps = s.portOps ∧ (s.setWing w x).mem = s.mem ∧ (s.setWing w x).bad = s.bad ∧ (s.setWing w x).stackCtl =
    s.stackCtl ∧ (s.setWing w x).frames = s.frames ∧ (s.setWing w x).alloc = s.alloc ∧ (s.setWing w x).reads = s.reads ∧
    (s.setWing w x).attic = s.attic ∧ (s.setWing w x).prog = s.prog ∧ (s.setWing w x).recClear = s.recClear ∧ (s.setWing
    w x).retiring = s.retiring ∧ (s.setWing w x).chunk = s.chunk ∧ (s.setWing w x).loader = s.loader ∧ (s.setWing w
    x).chain = s.chain ∧ (s.setWing w x).g2 = s.g2 ∧ (s.setWing w x).selfTest = s.selfTest ∧ (s.setWing w x).cox = s.cox
    ∧ (s.setWing w x).hatches = s.hatches ∧ (s.setWing w x).gallery = s.gallery ∧ (s.setWing w x).course = s.course :=
  (setWing_upd : Upd [.wings] s (s.setWing w x)).agree

@[simp] theorem rd_setWing {w : Nat} {x : Wing} (pg : Nat) (g : Fld) : (s.setWing w x).rd pg g = s.rd pg g :=
  rd_congr setWing_fields.2.1 pg g

@[simp] theorem modWing_fields {w : Nat} {f : Wing → Wing} :
    (s.modWing w f).pending = s.pending ∧ (s.modWing w f).regs = s.regs ∧ (s.modWing w f).held = s.held ∧ (s.modWing w
    f).out = s.out ∧ (s.modWing w f).draws = s.draws ∧ (s.modWing w f).fuses = s.fuses ∧ (s.modWing w f).straps =
    s.straps ∧ (s.modWing w f).cellar = s.cellar ∧ (s.modWing w f).seq = s.seq ∧ (s.modWing w f).power = s.power ∧
    (s.modWing w f).cross = s.cross ∧ (s.modWing w f).security = s.security ∧ (s.modWing w f).pins = s.pins ∧ (s.modWing
    w f).doorway = s.doorway ∧ (s.modWing w f).porches = s.porches ∧ (s.modWing w f).host = s.host ∧ (s.modWing w
    f).rooms = s.rooms ∧ (s.modWing w f).fabric = s.fabric ∧ (s.modWing w f).refs = s.refs ∧ (s.modWing w f).sigs =
    s.sigs ∧ (s.modWing w f).blocks = s.blocks ∧ (s.modWing w f).lines = s.lines ∧ (s.modWing w f).crews = s.crews ∧
    (s.modWing w f).ids = s.ids ∧ (s.modWing w f).heatCopy = s.heatCopy ∧ (s.modWing w f).stamps = s.stamps ∧ (s.modWing
    w f).portOps = s.portOps ∧ (s.modWing w f).mem = s.mem ∧ (s.modWing w f).bad = s.bad ∧ (s.modWing w f).stackCtl =
    s.stackCtl ∧ (s.modWing w f).frames = s.frames ∧ (s.modWing w f).alloc = s.alloc ∧ (s.modWing w f).reads = s.reads ∧
    (s.modWing w f).attic = s.attic ∧ (s.modWing w f).prog = s.prog ∧ (s.modWing w f).recClear = s.recClear ∧ (s.modWing
    w f).retiring = s.retiring ∧ (s.modWing w f).chunk = s.chunk ∧ (s.modWing w f).loader = s.loader ∧ (s.modWing w
    f).chain = s.chain ∧ (s.modWing w f).g2 = s.g2 ∧ (s.modWing w f).selfTest = s.selfTest ∧ (s.modWing w f).cox = s.cox
    ∧ (s.modWing w f).hatches = s.hatches ∧ (s.modWing w f).gallery = s.gallery ∧ (s.modWing w f).course = s.course :=
  (modWing_upd : Upd [.wings] s (s.modWing w f)).agree

@[simp] theorem rd_modWing {w : Nat} {f : Wing → Wing} (pg : Nat) (g : Fld) : (s.modWing w f).rd pg g = s.rd pg g :=
  rd_congr modWing_fields.2.1 pg g

@[simp] theorem setHatch_fields {n : Nat} {h : Hatch} :
    (s.setHatch n h).pending = s.pending ∧ (s.setHatch n h).regs = s.regs ∧ (s.setHatch n h).held = s.held ∧ (s.setHatch
    n h).out = s.out ∧ (s.setHatch n h).draws = s.draws ∧ (s.setHatch n h).fuses = s.fuses ∧ (s.setHatch n h).straps =
    s.straps ∧ (s.setHatch n h).cellar = s.cellar ∧ (s.setHatch n h).seq = s.seq ∧ (s.setHatch n h).power = s.power ∧
    (s.setHatch n h).cross = s.cross ∧ (s.setHatch n h).security = s.security ∧ (s.setHatch n h).pins = s.pins ∧
    (s.setHatch n h).doorway = s.doorway ∧ (s.setHatch n h).porches = s.porches ∧ (s.setHatch n h).host = s.host ∧
    (s.setHatch n h).rooms = s.rooms ∧ (s.setHatch n h).fabric = s.fabric ∧ (s.setHatch n h).refs = s.refs ∧ (s.setHatch
    n h).sigs = s.sigs ∧ (s.setHatch n h).blocks = s.blocks ∧ (s.setHatch n h).lines = s.lines ∧ (s.setHatch n h).crews
    = s.crews ∧ (s.setHatch n h).ids = s.ids ∧ (s.setHatch n h).heatCopy = s.heatCopy ∧ (s.setHatch n h).stamps =
    s.stamps ∧ (s.setHatch n h).wings = s.wings ∧ (s.setHatch n h).portOps = s.portOps ∧ (s.setHatch n h).mem = s.mem ∧
    (s.setHatch n h).bad = s.bad ∧ (s.setHatch n h).stackCtl = s.stackCtl ∧ (s.setHatch n h).frames = s.frames ∧
    (s.setHatch n h).alloc = s.alloc ∧ (s.setHatch n h).reads = s.reads ∧ (s.setHatch n h).attic = s.attic ∧ (s.setHatch
    n h).prog = s.prog ∧ (s.setHatch n h).recClear = s.recClear ∧ (s.setHatch n h).retiring = s.retiring ∧ (s.setHatch n
    h).chunk = s.chunk ∧ (s.setHatch n h).loader = s.loader ∧ (s.setHatch n h).chain = s.chain ∧ (s.setHatch n h).g2 =
    s.g2 ∧ (s.setHatch n h).selfTest = s.selfTest ∧ (s.setHatch n h).cox = s.cox ∧ (s.setHatch n h).gallery = s.gallery
    ∧ (s.setHatch n h).course = s.course :=
  (setHatch_upd : Upd [.hatches] s (s.setHatch n h)).agree

@[simp] theorem rd_setHatch {n : Nat} {h : Hatch} (pg : Nat) (g : Fld) : (s.setHatch n h).rd pg g = s.rd pg g :=
  rd_congr setHatch_fields.2.1 pg g

@[simp] theorem modHatch_fields {n : Nat} {f : Hatch → Hatch} :
    (s.modHatch n f).pending = s.pending ∧ (s.modHatch n f).regs = s.regs ∧ (s.modHatch n f).held = s.held ∧ (s.modHatch
    n f).out = s.out ∧ (s.modHatch n f).draws = s.draws ∧ (s.modHatch n f).fuses = s.fuses ∧ (s.modHatch n f).straps =
    s.straps ∧ (s.modHatch n f).cellar = s.cellar ∧ (s.modHatch n f).seq = s.seq ∧ (s.modHatch n f).power = s.power ∧
    (s.modHatch n f).cross = s.cross ∧ (s.modHatch n f).security = s.security ∧ (s.modHatch n f).pins = s.pins ∧
    (s.modHatch n f).doorway = s.doorway ∧ (s.modHatch n f).porches = s.porches ∧ (s.modHatch n f).host = s.host ∧
    (s.modHatch n f).rooms = s.rooms ∧ (s.modHatch n f).fabric = s.fabric ∧ (s.modHatch n f).refs = s.refs ∧ (s.modHatch
    n f).sigs = s.sigs ∧ (s.modHatch n f).blocks = s.blocks ∧ (s.modHatch n f).lines = s.lines ∧ (s.modHatch n f).crews
    = s.crews ∧ (s.modHatch n f).ids = s.ids ∧ (s.modHatch n f).heatCopy = s.heatCopy ∧ (s.modHatch n f).stamps =
    s.stamps ∧ (s.modHatch n f).wings = s.wings ∧ (s.modHatch n f).portOps = s.portOps ∧ (s.modHatch n f).mem = s.mem ∧
    (s.modHatch n f).bad = s.bad ∧ (s.modHatch n f).stackCtl = s.stackCtl ∧ (s.modHatch n f).frames = s.frames ∧
    (s.modHatch n f).alloc = s.alloc ∧ (s.modHatch n f).reads = s.reads ∧ (s.modHatch n f).attic = s.attic ∧ (s.modHatch
    n f).prog = s.prog ∧ (s.modHatch n f).recClear = s.recClear ∧ (s.modHatch n f).retiring = s.retiring ∧ (s.modHatch n
    f).chunk = s.chunk ∧ (s.modHatch n f).loader = s.loader ∧ (s.modHatch n f).chain = s.chain ∧ (s.modHatch n f).g2 =
    s.g2 ∧ (s.modHatch n f).selfTest = s.selfTest ∧ (s.modHatch n f).cox = s.cox ∧ (s.modHatch n f).gallery = s.gallery
    ∧ (s.modHatch n f).course = s.course :=
  (modHatch_upd : Upd [.hatches] s (s.modHatch n f)).agree

@[simp] theorem rd_modHatch {n : Nat} {f : Hatch → Hatch} (pg : Nat) (g : Fld) : (s.modHatch n f).rd pg g = s.rd pg g :=
  rd_congr modHatch_fields.2.1 pg g

@[simp] theorem setCross_fields {h : Half} {kind index : Nat} {x : Cross} :
    (s.setCross h kind index x).pending = s.pending ∧ (s.setCross h kind index x).regs = s.regs ∧ (s.setCross h kind
    index x).held = s.held ∧ (s.setCross h kind index x).out = s.out ∧ (s.setCross h kind index x).draws = s.draws ∧
    (s.setCross h kind index x).fuses = s.fuses ∧ (s.setCross h kind index x).straps = s.straps ∧ (s.setCross h kind
    index x).cellar = s.cellar ∧ (s.setCross h kind index x).seq = s.seq ∧ (s.setCross h kind index x).power = s.power ∧
    (s.setCross h kind index x).security = s.security ∧ (s.setCross h kind index x).pins = s.pins ∧ (s.setCross h kind
    index x).doorway = s.doorway ∧ (s.setCross h kind index x).porches = s.porches ∧ (s.setCross h kind index x).host =
    s.host ∧ (s.setCross h kind index x).rooms = s.rooms ∧ (s.setCross h kind index x).fabric = s.fabric ∧ (s.setCross h
    kind index x).refs = s.refs ∧ (s.setCross h kind index x).sigs = s.sigs ∧ (s.setCross h kind index x).blocks =
    s.blocks ∧ (s.setCross h kind index x).lines = s.lines ∧ (s.setCross h kind index x).crews = s.crews ∧ (s.setCross h
    kind index x).ids = s.ids ∧ (s.setCross h kind index x).heatCopy = s.heatCopy ∧ (s.setCross h kind index x).stamps =
    s.stamps ∧ (s.setCross h kind index x).wings = s.wings ∧ (s.setCross h kind index x).portOps = s.portOps ∧
    (s.setCross h kind index x).mem = s.mem ∧ (s.setCross h kind index x).bad = s.bad ∧ (s.setCross h kind index
    x).stackCtl = s.stackCtl ∧ (s.setCross h kind index x).frames = s.frames ∧ (s.setCross h kind index x).alloc =
    s.alloc ∧ (s.setCross h kind index x).reads = s.reads ∧ (s.setCross h kind index x).attic = s.attic ∧ (s.setCross h
    kind index x).prog = s.prog ∧ (s.setCross h kind index x).recClear = s.recClear ∧ (s.setCross h kind index
    x).retiring = s.retiring ∧ (s.setCross h kind index x).chunk = s.chunk ∧ (s.setCross h kind index x).loader =
    s.loader ∧ (s.setCross h kind index x).chain = s.chain ∧ (s.setCross h kind index x).g2 = s.g2 ∧ (s.setCross h kind
    index x).selfTest = s.selfTest ∧ (s.setCross h kind index x).cox = s.cox ∧ (s.setCross h kind index x).hatches =
    s.hatches ∧ (s.setCross h kind index x).gallery = s.gallery ∧ (s.setCross h kind index x).course = s.course :=
  (setCross_upd : Upd [.cross] s (s.setCross h kind index x)).agree

@[simp] theorem rd_setCross {h : Half} {kind index : Nat} {x : Cross} (pg : Nat) (g : Fld) : (s.setCross h kind index x).rd pg g = s.rd pg g :=
  rd_congr setCross_fields.2.1 pg g

@[simp] theorem setPorch_fields {k : Nat} {p : Porch} :
    (s.setPorch k p).pending = s.pending ∧ (s.setPorch k p).regs = s.regs ∧ (s.setPorch k p).held = s.held ∧ (s.setPorch
    k p).out = s.out ∧ (s.setPorch k p).draws = s.draws ∧ (s.setPorch k p).fuses = s.fuses ∧ (s.setPorch k p).straps =
    s.straps ∧ (s.setPorch k p).cellar = s.cellar ∧ (s.setPorch k p).seq = s.seq ∧ (s.setPorch k p).power = s.power ∧
    (s.setPorch k p).cross = s.cross ∧ (s.setPorch k p).security = s.security ∧ (s.setPorch k p).pins = s.pins ∧
    (s.setPorch k p).doorway = s.doorway ∧ (s.setPorch k p).host = s.host ∧ (s.setPorch k p).rooms = s.rooms ∧
    (s.setPorch k p).fabric = s.fabric ∧ (s.setPorch k p).refs = s.refs ∧ (s.setPorch k p).sigs = s.sigs ∧ (s.setPorch k
    p).blocks = s.blocks ∧ (s.setPorch k p).lines = s.lines ∧ (s.setPorch k p).crews = s.crews ∧ (s.setPorch k p).ids =
    s.ids ∧ (s.setPorch k p).heatCopy = s.heatCopy ∧ (s.setPorch k p).stamps = s.stamps ∧ (s.setPorch k p).wings =
    s.wings ∧ (s.setPorch k p).portOps = s.portOps ∧ (s.setPorch k p).mem = s.mem ∧ (s.setPorch k p).bad = s.bad ∧
    (s.setPorch k p).stackCtl = s.stackCtl ∧ (s.setPorch k p).frames = s.frames ∧ (s.setPorch k p).alloc = s.alloc ∧
    (s.setPorch k p).reads = s.reads ∧ (s.setPorch k p).attic = s.attic ∧ (s.setPorch k p).prog = s.prog ∧ (s.setPorch k
    p).recClear = s.recClear ∧ (s.setPorch k p).retiring = s.retiring ∧ (s.setPorch k p).chunk = s.chunk ∧ (s.setPorch k
    p).loader = s.loader ∧ (s.setPorch k p).chain = s.chain ∧ (s.setPorch k p).g2 = s.g2 ∧ (s.setPorch k p).selfTest =
    s.selfTest ∧ (s.setPorch k p).cox = s.cox ∧ (s.setPorch k p).hatches = s.hatches ∧ (s.setPorch k p).gallery =
    s.gallery ∧ (s.setPorch k p).course = s.course :=
  (setPorch_upd : Upd [.porches] s (s.setPorch k p)).agree

@[simp] theorem rd_setPorch {k : Nat} {p : Porch} (pg : Nat) (g : Fld) : (s.setPorch k p).rd pg g = s.rd pg g :=
  rd_congr setPorch_fields.2.1 pg g

@[simp] theorem modSeq_fields {f : Sequencer → Sequencer} :
    (s.modSeq f).pending = s.pending ∧ (s.modSeq f).regs = s.regs ∧ (s.modSeq f).held = s.held ∧ (s.modSeq f).out =
    s.out ∧ (s.modSeq f).draws = s.draws ∧ (s.modSeq f).fuses = s.fuses ∧ (s.modSeq f).straps = s.straps ∧ (s.modSeq
    f).cellar = s.cellar ∧ (s.modSeq f).power = s.power ∧ (s.modSeq f).cross = s.cross ∧ (s.modSeq f).security =
    s.security ∧ (s.modSeq f).pins = s.pins ∧ (s.modSeq f).doorway = s.doorway ∧ (s.modSeq f).porches = s.porches ∧
    (s.modSeq f).host = s.host ∧ (s.modSeq f).rooms = s.rooms ∧ (s.modSeq f).fabric = s.fabric ∧ (s.modSeq f).refs =
    s.refs ∧ (s.modSeq f).sigs = s.sigs ∧ (s.modSeq f).blocks = s.blocks ∧ (s.modSeq f).lines = s.lines ∧ (s.modSeq
    f).crews = s.crews ∧ (s.modSeq f).ids = s.ids ∧ (s.modSeq f).heatCopy = s.heatCopy ∧ (s.modSeq f).stamps = s.stamps
    ∧ (s.modSeq f).wings = s.wings ∧ (s.modSeq f).portOps = s.portOps ∧ (s.modSeq f).mem = s.mem ∧ (s.modSeq f).bad =
    s.bad ∧ (s.modSeq f).stackCtl = s.stackCtl ∧ (s.modSeq f).frames = s.frames ∧ (s.modSeq f).alloc = s.alloc ∧
    (s.modSeq f).reads = s.reads ∧ (s.modSeq f).attic = s.attic ∧ (s.modSeq f).prog = s.prog ∧ (s.modSeq f).recClear =
    s.recClear ∧ (s.modSeq f).retiring = s.retiring ∧ (s.modSeq f).chunk = s.chunk ∧ (s.modSeq f).loader = s.loader ∧
    (s.modSeq f).chain = s.chain ∧ (s.modSeq f).g2 = s.g2 ∧ (s.modSeq f).selfTest = s.selfTest ∧ (s.modSeq f).cox =
    s.cox ∧ (s.modSeq f).hatches = s.hatches ∧ (s.modSeq f).gallery = s.gallery ∧ (s.modSeq f).course = s.course :=
  (modSeq_upd : Upd [.seq] s (s.modSeq f)).agree

@[simp] theorem rd_modSeq {f : Sequencer → Sequencer} (pg : Nat) (g : Fld) : (s.modSeq f).rd pg g = s.rd pg g :=
  rd_congr modSeq_fields.2.1 pg g

@[simp] theorem modPow_fields {h : Half} {f : HalfPower → HalfPower} :
    (s.modPow h f).pending = s.pending ∧ (s.modPow h f).regs = s.regs ∧ (s.modPow h f).held = s.held ∧ (s.modPow h
    f).out = s.out ∧ (s.modPow h f).draws = s.draws ∧ (s.modPow h f).fuses = s.fuses ∧ (s.modPow h f).straps = s.straps
    ∧ (s.modPow h f).cellar = s.cellar ∧ (s.modPow h f).seq = s.seq ∧ (s.modPow h f).cross = s.cross ∧ (s.modPow h
    f).security = s.security ∧ (s.modPow h f).pins = s.pins ∧ (s.modPow h f).doorway = s.doorway ∧ (s.modPow h
    f).porches = s.porches ∧ (s.modPow h f).host = s.host ∧ (s.modPow h f).rooms = s.rooms ∧ (s.modPow h f).fabric =
    s.fabric ∧ (s.modPow h f).refs = s.refs ∧ (s.modPow h f).sigs = s.sigs ∧ (s.modPow h f).blocks = s.blocks ∧
    (s.modPow h f).lines = s.lines ∧ (s.modPow h f).crews = s.crews ∧ (s.modPow h f).ids = s.ids ∧ (s.modPow h
    f).heatCopy = s.heatCopy ∧ (s.modPow h f).stamps = s.stamps ∧ (s.modPow h f).wings = s.wings ∧ (s.modPow h
    f).portOps = s.portOps ∧ (s.modPow h f).mem = s.mem ∧ (s.modPow h f).bad = s.bad ∧ (s.modPow h f).stackCtl =
    s.stackCtl ∧ (s.modPow h f).frames = s.frames ∧ (s.modPow h f).alloc = s.alloc ∧ (s.modPow h f).reads = s.reads ∧
    (s.modPow h f).attic = s.attic ∧ (s.modPow h f).prog = s.prog ∧ (s.modPow h f).recClear = s.recClear ∧ (s.modPow h
    f).retiring = s.retiring ∧ (s.modPow h f).chunk = s.chunk ∧ (s.modPow h f).loader = s.loader ∧ (s.modPow h f).chain
    = s.chain ∧ (s.modPow h f).g2 = s.g2 ∧ (s.modPow h f).selfTest = s.selfTest ∧ (s.modPow h f).cox = s.cox ∧ (s.modPow
    h f).hatches = s.hatches ∧ (s.modPow h f).gallery = s.gallery ∧ (s.modPow h f).course = s.course :=
  (modPow_upd : Upd [.power] s (s.modPow h f)).agree

@[simp] theorem rd_modPow {h : Half} {f : HalfPower → HalfPower} (pg : Nat) (g : Fld) : (s.modPow h f).rd pg g = s.rd pg g :=
  rd_congr modPow_fields.2.1 pg g

@[simp] theorem modSec_fields {f : Security → Security} :
    (s.modSec f).pending = s.pending ∧ (s.modSec f).regs = s.regs ∧ (s.modSec f).held = s.held ∧ (s.modSec f).out =
    s.out ∧ (s.modSec f).draws = s.draws ∧ (s.modSec f).fuses = s.fuses ∧ (s.modSec f).straps = s.straps ∧ (s.modSec
    f).cellar = s.cellar ∧ (s.modSec f).seq = s.seq ∧ (s.modSec f).power = s.power ∧ (s.modSec f).cross = s.cross ∧
    (s.modSec f).pins = s.pins ∧ (s.modSec f).doorway = s.doorway ∧ (s.modSec f).porches = s.porches ∧ (s.modSec f).host
    = s.host ∧ (s.modSec f).rooms = s.rooms ∧ (s.modSec f).fabric = s.fabric ∧ (s.modSec f).refs = s.refs ∧ (s.modSec
    f).sigs = s.sigs ∧ (s.modSec f).blocks = s.blocks ∧ (s.modSec f).lines = s.lines ∧ (s.modSec f).crews = s.crews ∧
    (s.modSec f).ids = s.ids ∧ (s.modSec f).heatCopy = s.heatCopy ∧ (s.modSec f).stamps = s.stamps ∧ (s.modSec f).wings
    = s.wings ∧ (s.modSec f).portOps = s.portOps ∧ (s.modSec f).mem = s.mem ∧ (s.modSec f).bad = s.bad ∧ (s.modSec
    f).stackCtl = s.stackCtl ∧ (s.modSec f).frames = s.frames ∧ (s.modSec f).alloc = s.alloc ∧ (s.modSec f).reads =
    s.reads ∧ (s.modSec f).attic = s.attic ∧ (s.modSec f).prog = s.prog ∧ (s.modSec f).recClear = s.recClear ∧ (s.modSec
    f).retiring = s.retiring ∧ (s.modSec f).chunk = s.chunk ∧ (s.modSec f).loader = s.loader ∧ (s.modSec f).chain =
    s.chain ∧ (s.modSec f).g2 = s.g2 ∧ (s.modSec f).selfTest = s.selfTest ∧ (s.modSec f).cox = s.cox ∧ (s.modSec
    f).hatches = s.hatches ∧ (s.modSec f).gallery = s.gallery ∧ (s.modSec f).course = s.course :=
  (modSec_upd : Upd [.security] s (s.modSec f)).agree

@[simp] theorem rd_modSec {f : Security → Security} (pg : Nat) (g : Fld) : (s.modSec f).rd pg g = s.rd pg g :=
  rd_congr modSec_fields.2.1 pg g

@[simp] theorem modHost_fields {f : HostLink → HostLink} :
    (s.modHost f).pending = s.pending ∧ (s.modHost f).regs = s.regs ∧ (s.modHost f).held = s.held ∧ (s.modHost f).out =
    s.out ∧ (s.modHost f).draws = s.draws ∧ (s.modHost f).fuses = s.fuses ∧ (s.modHost f).straps = s.straps ∧ (s.modHost
    f).cellar = s.cellar ∧ (s.modHost f).seq = s.seq ∧ (s.modHost f).power = s.power ∧ (s.modHost f).cross = s.cross ∧
    (s.modHost f).security = s.security ∧ (s.modHost f).pins = s.pins ∧ (s.modHost f).doorway = s.doorway ∧ (s.modHost
    f).porches = s.porches ∧ (s.modHost f).rooms = s.rooms ∧ (s.modHost f).fabric = s.fabric ∧ (s.modHost f).refs =
    s.refs ∧ (s.modHost f).sigs = s.sigs ∧ (s.modHost f).blocks = s.blocks ∧ (s.modHost f).lines = s.lines ∧ (s.modHost
    f).crews = s.crews ∧ (s.modHost f).ids = s.ids ∧ (s.modHost f).heatCopy = s.heatCopy ∧ (s.modHost f).stamps =
    s.stamps ∧ (s.modHost f).wings = s.wings ∧ (s.modHost f).portOps = s.portOps ∧ (s.modHost f).mem = s.mem ∧
    (s.modHost f).bad = s.bad ∧ (s.modHost f).stackCtl = s.stackCtl ∧ (s.modHost f).frames = s.frames ∧ (s.modHost
    f).alloc = s.alloc ∧ (s.modHost f).reads = s.reads ∧ (s.modHost f).attic = s.attic ∧ (s.modHost f).prog = s.prog ∧
    (s.modHost f).recClear = s.recClear ∧ (s.modHost f).retiring = s.retiring ∧ (s.modHost f).chunk = s.chunk ∧
    (s.modHost f).loader = s.loader ∧ (s.modHost f).chain = s.chain ∧ (s.modHost f).g2 = s.g2 ∧ (s.modHost f).selfTest =
    s.selfTest ∧ (s.modHost f).cox = s.cox ∧ (s.modHost f).hatches = s.hatches ∧ (s.modHost f).gallery = s.gallery ∧
    (s.modHost f).course = s.course :=
  (modHost_upd : Upd [.host] s (s.modHost f)).agree

@[simp] theorem rd_modHost {f : HostLink → HostLink} (pg : Nat) (g : Fld) : (s.modHost f).rd pg g = s.rd pg g :=
  rd_congr modHost_fields.2.1 pg g

@[simp] theorem modLoad_fields {f : Loader → Loader} :
    (s.modLoad f).pending = s.pending ∧ (s.modLoad f).regs = s.regs ∧ (s.modLoad f).held = s.held ∧ (s.modLoad f).out =
    s.out ∧ (s.modLoad f).draws = s.draws ∧ (s.modLoad f).fuses = s.fuses ∧ (s.modLoad f).straps = s.straps ∧ (s.modLoad
    f).cellar = s.cellar ∧ (s.modLoad f).seq = s.seq ∧ (s.modLoad f).power = s.power ∧ (s.modLoad f).cross = s.cross ∧
    (s.modLoad f).security = s.security ∧ (s.modLoad f).pins = s.pins ∧ (s.modLoad f).doorway = s.doorway ∧ (s.modLoad
    f).porches = s.porches ∧ (s.modLoad f).host = s.host ∧ (s.modLoad f).rooms = s.rooms ∧ (s.modLoad f).fabric =
    s.fabric ∧ (s.modLoad f).refs = s.refs ∧ (s.modLoad f).sigs = s.sigs ∧ (s.modLoad f).blocks = s.blocks ∧ (s.modLoad
    f).lines = s.lines ∧ (s.modLoad f).crews = s.crews ∧ (s.modLoad f).ids = s.ids ∧ (s.modLoad f).heatCopy = s.heatCopy
    ∧ (s.modLoad f).stamps = s.stamps ∧ (s.modLoad f).wings = s.wings ∧ (s.modLoad f).portOps = s.portOps ∧ (s.modLoad
    f).mem = s.mem ∧ (s.modLoad f).bad = s.bad ∧ (s.modLoad f).stackCtl = s.stackCtl ∧ (s.modLoad f).frames = s.frames ∧
    (s.modLoad f).alloc = s.alloc ∧ (s.modLoad f).reads = s.reads ∧ (s.modLoad f).attic = s.attic ∧ (s.modLoad f).prog =
    s.prog ∧ (s.modLoad f).recClear = s.recClear ∧ (s.modLoad f).retiring = s.retiring ∧ (s.modLoad f).chunk = s.chunk ∧
    (s.modLoad f).chain = s.chain ∧ (s.modLoad f).g2 = s.g2 ∧ (s.modLoad f).selfTest = s.selfTest ∧ (s.modLoad f).cox =
    s.cox ∧ (s.modLoad f).hatches = s.hatches ∧ (s.modLoad f).gallery = s.gallery ∧ (s.modLoad f).course = s.course :=
  (modLoad_upd : Upd [.loader] s (s.modLoad f)).agree

@[simp] theorem rd_modLoad {f : Loader → Loader} (pg : Nat) (g : Fld) : (s.modLoad f).rd pg g = s.rd pg g :=
  rd_congr modLoad_fields.2.1 pg g

@[simp] theorem modChain_fields {f : Chain → Chain} :
    (s.modChain f).pending = s.pending ∧ (s.modChain f).regs = s.regs ∧ (s.modChain f).held = s.held ∧ (s.modChain
    f).out = s.out ∧ (s.modChain f).draws = s.draws ∧ (s.modChain f).fuses = s.fuses ∧ (s.modChain f).straps = s.straps
    ∧ (s.modChain f).cellar = s.cellar ∧ (s.modChain f).seq = s.seq ∧ (s.modChain f).power = s.power ∧ (s.modChain
    f).cross = s.cross ∧ (s.modChain f).security = s.security ∧ (s.modChain f).pins = s.pins ∧ (s.modChain f).doorway =
    s.doorway ∧ (s.modChain f).porches = s.porches ∧ (s.modChain f).host = s.host ∧ (s.modChain f).rooms = s.rooms ∧
    (s.modChain f).fabric = s.fabric ∧ (s.modChain f).refs = s.refs ∧ (s.modChain f).sigs = s.sigs ∧ (s.modChain
    f).blocks = s.blocks ∧ (s.modChain f).lines = s.lines ∧ (s.modChain f).crews = s.crews ∧ (s.modChain f).ids = s.ids
    ∧ (s.modChain f).heatCopy = s.heatCopy ∧ (s.modChain f).stamps = s.stamps ∧ (s.modChain f).wings = s.wings ∧
    (s.modChain f).portOps = s.portOps ∧ (s.modChain f).mem = s.mem ∧ (s.modChain f).bad = s.bad ∧ (s.modChain
    f).stackCtl = s.stackCtl ∧ (s.modChain f).frames = s.frames ∧ (s.modChain f).alloc = s.alloc ∧ (s.modChain f).reads
    = s.reads ∧ (s.modChain f).attic = s.attic ∧ (s.modChain f).prog = s.prog ∧ (s.modChain f).recClear = s.recClear ∧
    (s.modChain f).retiring = s.retiring ∧ (s.modChain f).chunk = s.chunk ∧ (s.modChain f).loader = s.loader ∧
    (s.modChain f).g2 = s.g2 ∧ (s.modChain f).selfTest = s.selfTest ∧ (s.modChain f).cox = s.cox ∧ (s.modChain
    f).hatches = s.hatches ∧ (s.modChain f).gallery = s.gallery ∧ (s.modChain f).course = s.course :=
  (modChain_upd : Upd [.chain] s (s.modChain f)).agree

@[simp] theorem rd_modChain {f : Chain → Chain} (pg : Nat) (g : Fld) : (s.modChain f).rd pg g = s.rd pg g :=
  rd_congr modChain_fields.2.1 pg g

@[simp] theorem modCourse_fields {f : Course → Course} :
    (s.modCourse f).pending = s.pending ∧ (s.modCourse f).regs = s.regs ∧ (s.modCourse f).held = s.held ∧ (s.modCourse
    f).out = s.out ∧ (s.modCourse f).draws = s.draws ∧ (s.modCourse f).fuses = s.fuses ∧ (s.modCourse f).straps =
    s.straps ∧ (s.modCourse f).cellar = s.cellar ∧ (s.modCourse f).seq = s.seq ∧ (s.modCourse f).power = s.power ∧
    (s.modCourse f).cross = s.cross ∧ (s.modCourse f).security = s.security ∧ (s.modCourse f).pins = s.pins ∧
    (s.modCourse f).doorway = s.doorway ∧ (s.modCourse f).porches = s.porches ∧ (s.modCourse f).host = s.host ∧
    (s.modCourse f).rooms = s.rooms ∧ (s.modCourse f).fabric = s.fabric ∧ (s.modCourse f).refs = s.refs ∧ (s.modCourse
    f).sigs = s.sigs ∧ (s.modCourse f).blocks = s.blocks ∧ (s.modCourse f).lines = s.lines ∧ (s.modCourse f).crews =
    s.crews ∧ (s.modCourse f).ids = s.ids ∧ (s.modCourse f).heatCopy = s.heatCopy ∧ (s.modCourse f).stamps = s.stamps ∧
    (s.modCourse f).wings = s.wings ∧ (s.modCourse f).portOps = s.portOps ∧ (s.modCourse f).mem = s.mem ∧ (s.modCourse
    f).bad = s.bad ∧ (s.modCourse f).stackCtl = s.stackCtl ∧ (s.modCourse f).frames = s.frames ∧ (s.modCourse f).alloc =
    s.alloc ∧ (s.modCourse f).reads = s.reads ∧ (s.modCourse f).attic = s.attic ∧ (s.modCourse f).prog = s.prog ∧
    (s.modCourse f).recClear = s.recClear ∧ (s.modCourse f).retiring = s.retiring ∧ (s.modCourse f).chunk = s.chunk ∧
    (s.modCourse f).loader = s.loader ∧ (s.modCourse f).chain = s.chain ∧ (s.modCourse f).g2 = s.g2 ∧ (s.modCourse
    f).selfTest = s.selfTest ∧ (s.modCourse f).cox = s.cox ∧ (s.modCourse f).hatches = s.hatches ∧ (s.modCourse
    f).gallery = s.gallery :=
  (modCourse_upd : Upd [.course] s (s.modCourse f)).agree

@[simp] theorem rd_modCourse {f : Course → Course} (pg : Nat) (g : Fld) : (s.modCourse f).rd pg g = s.rd pg g :=
  rd_congr modCourse_fields.2.1 pg g

@[simp] theorem modLink_fields {westPort : Bool} {f : CLink → CLink} :
    (s.modLink westPort f).pending = s.pending ∧ (s.modLink westPort f).regs = s.regs ∧ (s.modLink westPort f).held =
    s.held ∧ (s.modLink westPort f).out = s.out ∧ (s.modLink westPort f).draws = s.draws ∧ (s.modLink westPort f).fuses
    = s.fuses ∧ (s.modLink westPort f).straps = s.straps ∧ (s.modLink westPort f).cellar = s.cellar ∧ (s.modLink
    westPort f).seq = s.seq ∧ (s.modLink westPort f).power = s.power ∧ (s.modLink westPort f).cross = s.cross ∧
    (s.modLink westPort f).security = s.security ∧ (s.modLink westPort f).pins = s.pins ∧ (s.modLink westPort f).doorway
    = s.doorway ∧ (s.modLink westPort f).porches = s.porches ∧ (s.modLink westPort f).host = s.host ∧ (s.modLink
    westPort f).rooms = s.rooms ∧ (s.modLink westPort f).fabric = s.fabric ∧ (s.modLink westPort f).refs = s.refs ∧
    (s.modLink westPort f).sigs = s.sigs ∧ (s.modLink westPort f).blocks = s.blocks ∧ (s.modLink westPort f).lines =
    s.lines ∧ (s.modLink westPort f).crews = s.crews ∧ (s.modLink westPort f).ids = s.ids ∧ (s.modLink westPort
    f).heatCopy = s.heatCopy ∧ (s.modLink westPort f).stamps = s.stamps ∧ (s.modLink westPort f).wings = s.wings ∧
    (s.modLink westPort f).portOps = s.portOps ∧ (s.modLink westPort f).mem = s.mem ∧ (s.modLink westPort f).bad = s.bad
    ∧ (s.modLink westPort f).stackCtl = s.stackCtl ∧ (s.modLink westPort f).frames = s.frames ∧ (s.modLink westPort
    f).alloc = s.alloc ∧ (s.modLink westPort f).reads = s.reads ∧ (s.modLink westPort f).attic = s.attic ∧ (s.modLink
    westPort f).prog = s.prog ∧ (s.modLink westPort f).recClear = s.recClear ∧ (s.modLink westPort f).retiring =
    s.retiring ∧ (s.modLink westPort f).chunk = s.chunk ∧ (s.modLink westPort f).loader = s.loader ∧ (s.modLink westPort
    f).chain = s.chain ∧ (s.modLink westPort f).g2 = s.g2 ∧ (s.modLink westPort f).selfTest = s.selfTest ∧ (s.modLink
    westPort f).cox = s.cox ∧ (s.modLink westPort f).hatches = s.hatches ∧ (s.modLink westPort f).gallery = s.gallery :=
  (modLink_upd : Upd [.course] s (s.modLink westPort f)).agree

@[simp] theorem rd_modLink {westPort : Bool} {f : CLink → CLink} (pg : Nat) (g : Fld) : (s.modLink westPort f).rd pg g = s.rd pg g :=
  rd_congr modLink_fields.2.1 pg g

@[simp] theorem modAlloc_fields {h : Half} {f : Alloc → Alloc} :
    (s.modAlloc h f).pending = s.pending ∧ (s.modAlloc h f).regs = s.regs ∧ (s.modAlloc h f).held = s.held ∧ (s.modAlloc
    h f).out = s.out ∧ (s.modAlloc h f).draws = s.draws ∧ (s.modAlloc h f).fuses = s.fuses ∧ (s.modAlloc h f).straps =
    s.straps ∧ (s.modAlloc h f).cellar = s.cellar ∧ (s.modAlloc h f).seq = s.seq ∧ (s.modAlloc h f).power = s.power ∧
    (s.modAlloc h f).cross = s.cross ∧ (s.modAlloc h f).security = s.security ∧ (s.modAlloc h f).pins = s.pins ∧
    (s.modAlloc h f).doorway = s.doorway ∧ (s.modAlloc h f).porches = s.porches ∧ (s.modAlloc h f).host = s.host ∧
    (s.modAlloc h f).rooms = s.rooms ∧ (s.modAlloc h f).fabric = s.fabric ∧ (s.modAlloc h f).refs = s.refs ∧ (s.modAlloc
    h f).sigs = s.sigs ∧ (s.modAlloc h f).blocks = s.blocks ∧ (s.modAlloc h f).lines = s.lines ∧ (s.modAlloc h f).crews
    = s.crews ∧ (s.modAlloc h f).ids = s.ids ∧ (s.modAlloc h f).heatCopy = s.heatCopy ∧ (s.modAlloc h f).stamps =
    s.stamps ∧ (s.modAlloc h f).wings = s.wings ∧ (s.modAlloc h f).portOps = s.portOps ∧ (s.modAlloc h f).mem = s.mem ∧
    (s.modAlloc h f).bad = s.bad ∧ (s.modAlloc h f).stackCtl = s.stackCtl ∧ (s.modAlloc h f).frames = s.frames ∧
    (s.modAlloc h f).reads = s.reads ∧ (s.modAlloc h f).attic = s.attic ∧ (s.modAlloc h f).prog = s.prog ∧ (s.modAlloc h
    f).recClear = s.recClear ∧ (s.modAlloc h f).retiring = s.retiring ∧ (s.modAlloc h f).chunk = s.chunk ∧ (s.modAlloc h
    f).loader = s.loader ∧ (s.modAlloc h f).chain = s.chain ∧ (s.modAlloc h f).g2 = s.g2 ∧ (s.modAlloc h f).selfTest =
    s.selfTest ∧ (s.modAlloc h f).cox = s.cox ∧ (s.modAlloc h f).hatches = s.hatches ∧ (s.modAlloc h f).gallery =
    s.gallery ∧ (s.modAlloc h f).course = s.course :=
  (modAlloc_upd : Upd [.alloc] s (s.modAlloc h f)).agree

@[simp] theorem rd_modAlloc {h : Half} {f : Alloc → Alloc} (pg : Nat) (g : Fld) : (s.modAlloc h f).rd pg g = s.rd pg g :=
  rd_congr modAlloc_fields.2.1 pg g

@[simp] theorem modStacks_fields {f : Stacks → Stacks} :
    (s.modStacks f).pending = s.pending ∧ (s.modStacks f).regs = s.regs ∧ (s.modStacks f).held = s.held ∧ (s.modStacks
    f).out = s.out ∧ (s.modStacks f).draws = s.draws ∧ (s.modStacks f).fuses = s.fuses ∧ (s.modStacks f).straps =
    s.straps ∧ (s.modStacks f).cellar = s.cellar ∧ (s.modStacks f).seq = s.seq ∧ (s.modStacks f).power = s.power ∧
    (s.modStacks f).cross = s.cross ∧ (s.modStacks f).security = s.security ∧ (s.modStacks f).pins = s.pins ∧
    (s.modStacks f).doorway = s.doorway ∧ (s.modStacks f).porches = s.porches ∧ (s.modStacks f).host = s.host ∧
    (s.modStacks f).rooms = s.rooms ∧ (s.modStacks f).fabric = s.fabric ∧ (s.modStacks f).refs = s.refs ∧ (s.modStacks
    f).sigs = s.sigs ∧ (s.modStacks f).blocks = s.blocks ∧ (s.modStacks f).lines = s.lines ∧ (s.modStacks f).crews =
    s.crews ∧ (s.modStacks f).ids = s.ids ∧ (s.modStacks f).heatCopy = s.heatCopy ∧ (s.modStacks f).stamps = s.stamps ∧
    (s.modStacks f).wings = s.wings ∧ (s.modStacks f).portOps = s.portOps ∧ (s.modStacks f).mem = s.mem ∧ (s.modStacks
    f).bad = s.bad ∧ (s.modStacks f).frames = s.frames ∧ (s.modStacks f).alloc = s.alloc ∧ (s.modStacks f).reads =
    s.reads ∧ (s.modStacks f).attic = s.attic ∧ (s.modStacks f).prog = s.prog ∧ (s.modStacks f).recClear = s.recClear ∧
    (s.modStacks f).retiring = s.retiring ∧ (s.modStacks f).chunk = s.chunk ∧ (s.modStacks f).loader = s.loader ∧
    (s.modStacks f).chain = s.chain ∧ (s.modStacks f).g2 = s.g2 ∧ (s.modStacks f).selfTest = s.selfTest ∧ (s.modStacks
    f).cox = s.cox ∧ (s.modStacks f).hatches = s.hatches ∧ (s.modStacks f).gallery = s.gallery ∧ (s.modStacks f).course
    = s.course :=
  (modStacks_upd : Upd [.stackCtl] s (s.modStacks f)).agree

@[simp] theorem rd_modStacks {f : Stacks → Stacks} (pg : Nat) (g : Fld) : (s.modStacks f).rd pg g = s.rd pg g :=
  rd_congr modStacks_fields.2.1 pg g

@[simp] theorem modTest_fields {h : Half} {f : SelfTest → SelfTest} :
    (s.modTest h f).pending = s.pending ∧ (s.modTest h f).regs = s.regs ∧ (s.modTest h f).held = s.held ∧ (s.modTest h
    f).out = s.out ∧ (s.modTest h f).draws = s.draws ∧ (s.modTest h f).fuses = s.fuses ∧ (s.modTest h f).straps =
    s.straps ∧ (s.modTest h f).cellar = s.cellar ∧ (s.modTest h f).seq = s.seq ∧ (s.modTest h f).power = s.power ∧
    (s.modTest h f).cross = s.cross ∧ (s.modTest h f).security = s.security ∧ (s.modTest h f).pins = s.pins ∧ (s.modTest
    h f).doorway = s.doorway ∧ (s.modTest h f).porches = s.porches ∧ (s.modTest h f).host = s.host ∧ (s.modTest h
    f).rooms = s.rooms ∧ (s.modTest h f).fabric = s.fabric ∧ (s.modTest h f).refs = s.refs ∧ (s.modTest h f).sigs =
    s.sigs ∧ (s.modTest h f).blocks = s.blocks ∧ (s.modTest h f).lines = s.lines ∧ (s.modTest h f).crews = s.crews ∧
    (s.modTest h f).ids = s.ids ∧ (s.modTest h f).heatCopy = s.heatCopy ∧ (s.modTest h f).stamps = s.stamps ∧ (s.modTest
    h f).wings = s.wings ∧ (s.modTest h f).portOps = s.portOps ∧ (s.modTest h f).mem = s.mem ∧ (s.modTest h f).bad =
    s.bad ∧ (s.modTest h f).stackCtl = s.stackCtl ∧ (s.modTest h f).frames = s.frames ∧ (s.modTest h f).alloc = s.alloc
    ∧ (s.modTest h f).reads = s.reads ∧ (s.modTest h f).attic = s.attic ∧ (s.modTest h f).prog = s.prog ∧ (s.modTest h
    f).recClear = s.recClear ∧ (s.modTest h f).retiring = s.retiring ∧ (s.modTest h f).chunk = s.chunk ∧ (s.modTest h
    f).loader = s.loader ∧ (s.modTest h f).chain = s.chain ∧ (s.modTest h f).g2 = s.g2 ∧ (s.modTest h f).cox = s.cox ∧
    (s.modTest h f).hatches = s.hatches ∧ (s.modTest h f).gallery = s.gallery ∧ (s.modTest h f).course = s.course :=
  (modTest_upd : Upd [.selfTest] s (s.modTest h f)).agree

@[simp] theorem rd_modTest {h : Half} {f : SelfTest → SelfTest} (pg : Nat) (g : Fld) : (s.modTest h f).rd pg g = s.rd pg g :=
  rd_congr modTest_fields.2.1 pg g

@[simp] theorem modSwap_fields {w : Nat} {f : Swap → Swap} :
    (s.modSwap w f).pending = s.pending ∧ (s.modSwap w f).regs = s.regs ∧ (s.modSwap w f).held = s.held ∧ (s.modSwap w
    f).out = s.out ∧ (s.modSwap w f).draws = s.draws ∧ (s.modSwap w f).fuses = s.fuses ∧ (s.modSwap w f).straps =
    s.straps ∧ (s.modSwap w f).cellar = s.cellar ∧ (s.modSwap w f).seq = s.seq ∧ (s.modSwap w f).power = s.power ∧
    (s.modSwap w f).cross = s.cross ∧ (s.modSwap w f).security = s.security ∧ (s.modSwap w f).pins = s.pins ∧ (s.modSwap
    w f).doorway = s.doorway ∧ (s.modSwap w f).porches = s.porches ∧ (s.modSwap w f).host = s.host ∧ (s.modSwap w
    f).rooms = s.rooms ∧ (s.modSwap w f).fabric = s.fabric ∧ (s.modSwap w f).refs = s.refs ∧ (s.modSwap w f).sigs =
    s.sigs ∧ (s.modSwap w f).blocks = s.blocks ∧ (s.modSwap w f).lines = s.lines ∧ (s.modSwap w f).crews = s.crews ∧
    (s.modSwap w f).ids = s.ids ∧ (s.modSwap w f).heatCopy = s.heatCopy ∧ (s.modSwap w f).stamps = s.stamps ∧ (s.modSwap
    w f).portOps = s.portOps ∧ (s.modSwap w f).mem = s.mem ∧ (s.modSwap w f).bad = s.bad ∧ (s.modSwap w f).stackCtl =
    s.stackCtl ∧ (s.modSwap w f).frames = s.frames ∧ (s.modSwap w f).alloc = s.alloc ∧ (s.modSwap w f).reads = s.reads ∧
    (s.modSwap w f).attic = s.attic ∧ (s.modSwap w f).prog = s.prog ∧ (s.modSwap w f).recClear = s.recClear ∧ (s.modSwap
    w f).retiring = s.retiring ∧ (s.modSwap w f).chunk = s.chunk ∧ (s.modSwap w f).loader = s.loader ∧ (s.modSwap w
    f).chain = s.chain ∧ (s.modSwap w f).g2 = s.g2 ∧ (s.modSwap w f).selfTest = s.selfTest ∧ (s.modSwap w f).cox = s.cox
    ∧ (s.modSwap w f).hatches = s.hatches ∧ (s.modSwap w f).gallery = s.gallery ∧ (s.modSwap w f).course = s.course :=
  (modSwap_upd : Upd [.wings] s (s.modSwap w f)).agree

@[simp] theorem rd_modSwap {w : Nat} {f : Swap → Swap} (pg : Nat) (g : Fld) : (s.modSwap w f).rd pg g = s.rd pg g :=
  rd_congr modSwap_fields.2.1 pg g

@[simp] theorem setLive_fields {room off : Nat} {bs : List Byte} :
    (s.setLive room off bs).pending = s.pending ∧ (s.setLive room off bs).regs = s.regs ∧ (s.setLive room off bs).held =
    s.held ∧ (s.setLive room off bs).out = s.out ∧ (s.setLive room off bs).draws = s.draws ∧ (s.setLive room off
    bs).fuses = s.fuses ∧ (s.setLive room off bs).straps = s.straps ∧ (s.setLive room off bs).cellar = s.cellar ∧
    (s.setLive room off bs).seq = s.seq ∧ (s.setLive room off bs).power = s.power ∧ (s.setLive room off bs).cross =
    s.cross ∧ (s.setLive room off bs).security = s.security ∧ (s.setLive room off bs).pins = s.pins ∧ (s.setLive room
    off bs).doorway = s.doorway ∧ (s.setLive room off bs).porches = s.porches ∧ (s.setLive room off bs).host = s.host ∧
    (s.setLive room off bs).rooms = s.rooms ∧ (s.setLive room off bs).refs = s.refs ∧ (s.setLive room off bs).sigs =
    s.sigs ∧ (s.setLive room off bs).blocks = s.blocks ∧ (s.setLive room off bs).lines = s.lines ∧ (s.setLive room off
    bs).crews = s.crews ∧ (s.setLive room off bs).ids = s.ids ∧ (s.setLive room off bs).heatCopy = s.heatCopy ∧
    (s.setLive room off bs).stamps = s.stamps ∧ (s.setLive room off bs).wings = s.wings ∧ (s.setLive room off
    bs).portOps = s.portOps ∧ (s.setLive room off bs).mem = s.mem ∧ (s.setLive room off bs).bad = s.bad ∧ (s.setLive
    room off bs).stackCtl = s.stackCtl ∧ (s.setLive room off bs).frames = s.frames ∧ (s.setLive room off bs).alloc =
    s.alloc ∧ (s.setLive room off bs).reads = s.reads ∧ (s.setLive room off bs).attic = s.attic ∧ (s.setLive room off
    bs).prog = s.prog ∧ (s.setLive room off bs).recClear = s.recClear ∧ (s.setLive room off bs).retiring = s.retiring ∧
    (s.setLive room off bs).chunk = s.chunk ∧ (s.setLive room off bs).loader = s.loader ∧ (s.setLive room off bs).chain
    = s.chain ∧ (s.setLive room off bs).g2 = s.g2 ∧ (s.setLive room off bs).selfTest = s.selfTest ∧ (s.setLive room off
    bs).cox = s.cox ∧ (s.setLive room off bs).hatches = s.hatches ∧ (s.setLive room off bs).gallery = s.gallery ∧
    (s.setLive room off bs).course = s.course :=
  (setLive_upd : Upd [.fabric] s (s.setLive room off bs)).agree

@[simp] theorem rd_setLive {room off : Nat} {bs : List Byte} (pg : Nat) (g : Fld) : (s.setLive room off bs).rd pg g = s.rd pg g :=
  rd_congr setLive_fields.2.1 pg g

@[simp] theorem putState_fields {room : Nat} {t : Tbl Byte} :
    (s.putState room t).pending = s.pending ∧ (s.putState room t).regs = s.regs ∧ (s.putState room t).held = s.held ∧
    (s.putState room t).out = s.out ∧ (s.putState room t).draws = s.draws ∧ (s.putState room t).fuses = s.fuses ∧
    (s.putState room t).straps = s.straps ∧ (s.putState room t).cellar = s.cellar ∧ (s.putState room t).seq = s.seq ∧
    (s.putState room t).power = s.power ∧ (s.putState room t).cross = s.cross ∧ (s.putState room t).security =
    s.security ∧ (s.putState room t).pins = s.pins ∧ (s.putState room t).doorway = s.doorway ∧ (s.putState room
    t).porches = s.porches ∧ (s.putState room t).host = s.host ∧ (s.putState room t).rooms = s.rooms ∧ (s.putState room
    t).refs = s.refs ∧ (s.putState room t).sigs = s.sigs ∧ (s.putState room t).blocks = s.blocks ∧ (s.putState room
    t).lines = s.lines ∧ (s.putState room t).crews = s.crews ∧ (s.putState room t).ids = s.ids ∧ (s.putState room
    t).heatCopy = s.heatCopy ∧ (s.putState room t).stamps = s.stamps ∧ (s.putState room t).wings = s.wings ∧ (s.putState
    room t).portOps = s.portOps ∧ (s.putState room t).mem = s.mem ∧ (s.putState room t).bad = s.bad ∧ (s.putState room
    t).stackCtl = s.stackCtl ∧ (s.putState room t).frames = s.frames ∧ (s.putState room t).alloc = s.alloc ∧ (s.putState
    room t).reads = s.reads ∧ (s.putState room t).attic = s.attic ∧ (s.putState room t).prog = s.prog ∧ (s.putState room
    t).recClear = s.recClear ∧ (s.putState room t).retiring = s.retiring ∧ (s.putState room t).chunk = s.chunk ∧
    (s.putState room t).loader = s.loader ∧ (s.putState room t).chain = s.chain ∧ (s.putState room t).g2 = s.g2 ∧
    (s.putState room t).selfTest = s.selfTest ∧ (s.putState room t).cox = s.cox ∧ (s.putState room t).hatches =
    s.hatches ∧ (s.putState room t).gallery = s.gallery ∧ (s.putState room t).course = s.course :=
  (putState_upd : Upd [.fabric] s (s.putState room t)).agree

@[simp] theorem rd_putState {room : Nat} {t : Tbl Byte} (pg : Nat) (g : Fld) : (s.putState room t).rd pg g = s.rd pg g :=
  rd_congr putState_fields.2.1 pg g

@[simp] theorem tapSet_fields {i : TapInstr} :
    (s.tapSet i).pending = s.pending ∧ (s.tapSet i).regs = s.regs ∧ (s.tapSet i).held = s.held ∧ (s.tapSet i).out =
    s.out ∧ (s.tapSet i).draws = s.draws ∧ (s.tapSet i).fuses = s.fuses ∧ (s.tapSet i).straps = s.straps ∧ (s.tapSet
    i).cellar = s.cellar ∧ (s.tapSet i).seq = s.seq ∧ (s.tapSet i).power = s.power ∧ (s.tapSet i).cross = s.cross ∧
    (s.tapSet i).security = s.security ∧ (s.tapSet i).doorway = s.doorway ∧ (s.tapSet i).porches = s.porches ∧ (s.tapSet
    i).host = s.host ∧ (s.tapSet i).rooms = s.rooms ∧ (s.tapSet i).fabric = s.fabric ∧ (s.tapSet i).refs = s.refs ∧
    (s.tapSet i).sigs = s.sigs ∧ (s.tapSet i).blocks = s.blocks ∧ (s.tapSet i).lines = s.lines ∧ (s.tapSet i).crews =
    s.crews ∧ (s.tapSet i).ids = s.ids ∧ (s.tapSet i).heatCopy = s.heatCopy ∧ (s.tapSet i).stamps = s.stamps ∧ (s.tapSet
    i).wings = s.wings ∧ (s.tapSet i).portOps = s.portOps ∧ (s.tapSet i).mem = s.mem ∧ (s.tapSet i).bad = s.bad ∧
    (s.tapSet i).stackCtl = s.stackCtl ∧ (s.tapSet i).frames = s.frames ∧ (s.tapSet i).alloc = s.alloc ∧ (s.tapSet
    i).reads = s.reads ∧ (s.tapSet i).attic = s.attic ∧ (s.tapSet i).prog = s.prog ∧ (s.tapSet i).recClear = s.recClear
    ∧ (s.tapSet i).retiring = s.retiring ∧ (s.tapSet i).chunk = s.chunk ∧ (s.tapSet i).loader = s.loader ∧ (s.tapSet
    i).chain = s.chain ∧ (s.tapSet i).g2 = s.g2 ∧ (s.tapSet i).selfTest = s.selfTest ∧ (s.tapSet i).cox = s.cox ∧
    (s.tapSet i).hatches = s.hatches ∧ (s.tapSet i).gallery = s.gallery ∧ (s.tapSet i).course = s.course :=
  (tapSet_upd : Upd [.pins] s (s.tapSet i)).agree

@[simp] theorem rd_tapSet {i : TapInstr} (pg : Nat) (g : Fld) : (s.tapSet i).rd pg g = s.rd pg g :=
  rd_congr tapSet_fields.2.1 pg g

@[simp] theorem toEgress_fields {h : Half} {e : Egress} :
    (s.toEgress h e).pending = s.pending ∧ (s.toEgress h e).regs = s.regs ∧ (s.toEgress h e).held = s.held ∧ (s.toEgress
    h e).out = s.out ∧ (s.toEgress h e).draws = s.draws ∧ (s.toEgress h e).fuses = s.fuses ∧ (s.toEgress h e).straps =
    s.straps ∧ (s.toEgress h e).cellar = s.cellar ∧ (s.toEgress h e).seq = s.seq ∧ (s.toEgress h e).power = s.power ∧
    (s.toEgress h e).cross = s.cross ∧ (s.toEgress h e).security = s.security ∧ (s.toEgress h e).pins = s.pins ∧
    (s.toEgress h e).doorway = s.doorway ∧ (s.toEgress h e).porches = s.porches ∧ (s.toEgress h e).host = s.host ∧
    (s.toEgress h e).rooms = s.rooms ∧ (s.toEgress h e).fabric = s.fabric ∧ (s.toEgress h e).refs = s.refs ∧ (s.toEgress
    h e).sigs = s.sigs ∧ (s.toEgress h e).blocks = s.blocks ∧ (s.toEgress h e).lines = s.lines ∧ (s.toEgress h e).crews
    = s.crews ∧ (s.toEgress h e).ids = s.ids ∧ (s.toEgress h e).heatCopy = s.heatCopy ∧ (s.toEgress h e).stamps =
    s.stamps ∧ (s.toEgress h e).wings = s.wings ∧ (s.toEgress h e).portOps = s.portOps ∧ (s.toEgress h e).mem = s.mem ∧
    (s.toEgress h e).bad = s.bad ∧ (s.toEgress h e).stackCtl = s.stackCtl ∧ (s.toEgress h e).frames = s.frames ∧
    (s.toEgress h e).alloc = s.alloc ∧ (s.toEgress h e).reads = s.reads ∧ (s.toEgress h e).attic = s.attic ∧ (s.toEgress
    h e).prog = s.prog ∧ (s.toEgress h e).recClear = s.recClear ∧ (s.toEgress h e).retiring = s.retiring ∧ (s.toEgress h
    e).chunk = s.chunk ∧ (s.toEgress h e).loader = s.loader ∧ (s.toEgress h e).chain = s.chain ∧ (s.toEgress h e).g2 =
    s.g2 ∧ (s.toEgress h e).selfTest = s.selfTest ∧ (s.toEgress h e).cox = s.cox ∧ (s.toEgress h e).hatches = s.hatches
    ∧ (s.toEgress h e).course = s.course :=
  (toEgress_upd : Upd [.gallery] s (s.toEgress h e)).agree

@[simp] theorem rd_toEgress {h : Half} {e : Egress} (pg : Nat) (g : Fld) : (s.toEgress h e).rd pg g = s.rd pg g :=
  rd_congr toEgress_fields.2.1 pg g

@[simp] theorem msix_fields {fn vector : Nat} :
    (s.msix fn vector).pending = s.pending ∧ (s.msix fn vector).regs = s.regs ∧ (s.msix fn vector).held = s.held ∧
    (s.msix fn vector).draws = s.draws ∧ (s.msix fn vector).fuses = s.fuses ∧ (s.msix fn vector).straps = s.straps ∧
    (s.msix fn vector).cellar = s.cellar ∧ (s.msix fn vector).seq = s.seq ∧ (s.msix fn vector).power = s.power ∧ (s.msix
    fn vector).cross = s.cross ∧ (s.msix fn vector).security = s.security ∧ (s.msix fn vector).pins = s.pins ∧ (s.msix
    fn vector).doorway = s.doorway ∧ (s.msix fn vector).porches = s.porches ∧ (s.msix fn vector).rooms = s.rooms ∧
    (s.msix fn vector).fabric = s.fabric ∧ (s.msix fn vector).refs = s.refs ∧ (s.msix fn vector).sigs = s.sigs ∧ (s.msix
    fn vector).blocks = s.blocks ∧ (s.msix fn vector).lines = s.lines ∧ (s.msix fn vector).crews = s.crews ∧ (s.msix fn
    vector).ids = s.ids ∧ (s.msix fn vector).heatCopy = s.heatCopy ∧ (s.msix fn vector).stamps = s.stamps ∧ (s.msix fn
    vector).wings = s.wings ∧ (s.msix fn vector).portOps = s.portOps ∧ (s.msix fn vector).mem = s.mem ∧ (s.msix fn
    vector).bad = s.bad ∧ (s.msix fn vector).stackCtl = s.stackCtl ∧ (s.msix fn vector).frames = s.frames ∧ (s.msix fn
    vector).alloc = s.alloc ∧ (s.msix fn vector).reads = s.reads ∧ (s.msix fn vector).attic = s.attic ∧ (s.msix fn
    vector).prog = s.prog ∧ (s.msix fn vector).recClear = s.recClear ∧ (s.msix fn vector).retiring = s.retiring ∧
    (s.msix fn vector).chunk = s.chunk ∧ (s.msix fn vector).loader = s.loader ∧ (s.msix fn vector).chain = s.chain ∧
    (s.msix fn vector).g2 = s.g2 ∧ (s.msix fn vector).selfTest = s.selfTest ∧ (s.msix fn vector).cox = s.cox ∧ (s.msix
    fn vector).hatches = s.hatches ∧ (s.msix fn vector).gallery = s.gallery ∧ (s.msix fn vector).course = s.course :=
  (msix_upd : Upd [.out, .host] s (s.msix fn vector)).agree

@[simp] theorem rd_msix {fn vector : Nat} (pg : Nat) (g : Fld) : (s.msix fn vector).rd pg g = s.rd pg g :=
  rd_congr msix_fields.2.1 pg g

@[simp] theorem toCox_fields {h : Half} {e : Emission} :
    (s.toCox h e).pending = s.pending ∧ (s.toCox h e).regs = s.regs ∧ (s.toCox h e).held = s.held ∧ (s.toCox h e).draws
    = s.draws ∧ (s.toCox h e).fuses = s.fuses ∧ (s.toCox h e).straps = s.straps ∧ (s.toCox h e).cellar = s.cellar ∧
    (s.toCox h e).seq = s.seq ∧ (s.toCox h e).power = s.power ∧ (s.toCox h e).cross = s.cross ∧ (s.toCox h e).security =
    s.security ∧ (s.toCox h e).pins = s.pins ∧ (s.toCox h e).doorway = s.doorway ∧ (s.toCox h e).porches = s.porches ∧
    (s.toCox h e).host = s.host ∧ (s.toCox h e).rooms = s.rooms ∧ (s.toCox h e).fabric = s.fabric ∧ (s.toCox h e).refs =
    s.refs ∧ (s.toCox h e).sigs = s.sigs ∧ (s.toCox h e).blocks = s.blocks ∧ (s.toCox h e).lines = s.lines ∧ (s.toCox h
    e).crews = s.crews ∧ (s.toCox h e).ids = s.ids ∧ (s.toCox h e).heatCopy = s.heatCopy ∧ (s.toCox h e).stamps =
    s.stamps ∧ (s.toCox h e).wings = s.wings ∧ (s.toCox h e).portOps = s.portOps ∧ (s.toCox h e).mem = s.mem ∧ (s.toCox
    h e).bad = s.bad ∧ (s.toCox h e).stackCtl = s.stackCtl ∧ (s.toCox h e).frames = s.frames ∧ (s.toCox h e).alloc =
    s.alloc ∧ (s.toCox h e).reads = s.reads ∧ (s.toCox h e).attic = s.attic ∧ (s.toCox h e).prog = s.prog ∧ (s.toCox h
    e).recClear = s.recClear ∧ (s.toCox h e).retiring = s.retiring ∧ (s.toCox h e).chunk = s.chunk ∧ (s.toCox h
    e).loader = s.loader ∧ (s.toCox h e).chain = s.chain ∧ (s.toCox h e).g2 = s.g2 ∧ (s.toCox h e).selfTest = s.selfTest
    ∧ (s.toCox h e).hatches = s.hatches ∧ (s.toCox h e).gallery = s.gallery ∧ (s.toCox h e).course = s.course :=
  (toCox_upd : Upd [.out, .cox] s (s.toCox h e)).agree

@[simp] theorem rd_toCox {h : Half} {e : Emission} (pg : Nat) (g : Fld) : (s.toCox h e).rd pg g = s.rd pg g :=
  rd_congr toCox_fields.2.1 pg g

@[simp] theorem raise_fields {p b : Nat} :
    (s.raise p b).pending = s.pending ∧ (s.raise p b).held = s.held ∧ (s.raise p b).draws = s.draws ∧ (s.raise p
    b).fuses = s.fuses ∧ (s.raise p b).straps = s.straps ∧ (s.raise p b).cellar = s.cellar ∧ (s.raise p b).seq = s.seq ∧
    (s.raise p b).power = s.power ∧ (s.raise p b).cross = s.cross ∧ (s.raise p b).security = s.security ∧ (s.raise p
    b).pins = s.pins ∧ (s.raise p b).doorway = s.doorway ∧ (s.raise p b).porches = s.porches ∧ (s.raise p b).rooms =
    s.rooms ∧ (s.raise p b).fabric = s.fabric ∧ (s.raise p b).refs = s.refs ∧ (s.raise p b).sigs = s.sigs ∧ (s.raise p
    b).blocks = s.blocks ∧ (s.raise p b).lines = s.lines ∧ (s.raise p b).crews = s.crews ∧ (s.raise p b).ids = s.ids ∧
    (s.raise p b).heatCopy = s.heatCopy ∧ (s.raise p b).stamps = s.stamps ∧ (s.raise p b).wings = s.wings ∧ (s.raise p
    b).portOps = s.portOps ∧ (s.raise p b).mem = s.mem ∧ (s.raise p b).bad = s.bad ∧ (s.raise p b).stackCtl = s.stackCtl
    ∧ (s.raise p b).frames = s.frames ∧ (s.raise p b).alloc = s.alloc ∧ (s.raise p b).reads = s.reads ∧ (s.raise p
    b).attic = s.attic ∧ (s.raise p b).prog = s.prog ∧ (s.raise p b).recClear = s.recClear ∧ (s.raise p b).retiring =
    s.retiring ∧ (s.raise p b).chunk = s.chunk ∧ (s.raise p b).loader = s.loader ∧ (s.raise p b).chain = s.chain ∧
    (s.raise p b).g2 = s.g2 ∧ (s.raise p b).selfTest = s.selfTest ∧ (s.raise p b).hatches = s.hatches ∧ (s.raise p
    b).gallery = s.gallery ∧ (s.raise p b).course = s.course :=
  (raise_upd : Upd [.regs, .out, .host, .cox] s (s.raise p b)).agree

@[simp] theorem zeroFrame_fields {f : Nat} :
    (s.zeroFrame f).pending = s.pending ∧ (s.zeroFrame f).regs = s.regs ∧ (s.zeroFrame f).held = s.held ∧ (s.zeroFrame
    f).out = s.out ∧ (s.zeroFrame f).draws = s.draws ∧ (s.zeroFrame f).fuses = s.fuses ∧ (s.zeroFrame f).straps =
    s.straps ∧ (s.zeroFrame f).cellar = s.cellar ∧ (s.zeroFrame f).seq = s.seq ∧ (s.zeroFrame f).power = s.power ∧
    (s.zeroFrame f).cross = s.cross ∧ (s.zeroFrame f).security = s.security ∧ (s.zeroFrame f).pins = s.pins ∧
    (s.zeroFrame f).doorway = s.doorway ∧ (s.zeroFrame f).porches = s.porches ∧ (s.zeroFrame f).host = s.host ∧
    (s.zeroFrame f).rooms = s.rooms ∧ (s.zeroFrame f).fabric = s.fabric ∧ (s.zeroFrame f).refs = s.refs ∧ (s.zeroFrame
    f).sigs = s.sigs ∧ (s.zeroFrame f).blocks = s.blocks ∧ (s.zeroFrame f).lines = s.lines ∧ (s.zeroFrame f).crews =
    s.crews ∧ (s.zeroFrame f).ids = s.ids ∧ (s.zeroFrame f).heatCopy = s.heatCopy ∧ (s.zeroFrame f).stamps = s.stamps ∧
    (s.zeroFrame f).wings = s.wings ∧ (s.zeroFrame f).portOps = s.portOps ∧ (s.zeroFrame f).stackCtl = s.stackCtl ∧
    (s.zeroFrame f).frames = s.frames ∧ (s.zeroFrame f).alloc = s.alloc ∧ (s.zeroFrame f).reads = s.reads ∧ (s.zeroFrame
    f).attic = s.attic ∧ (s.zeroFrame f).prog = s.prog ∧ (s.zeroFrame f).recClear = s.recClear ∧ (s.zeroFrame
    f).retiring = s.retiring ∧ (s.zeroFrame f).chunk = s.chunk ∧ (s.zeroFrame f).loader = s.loader ∧ (s.zeroFrame
    f).chain = s.chain ∧ (s.zeroFrame f).g2 = s.g2 ∧ (s.zeroFrame f).selfTest = s.selfTest ∧ (s.zeroFrame f).cox = s.cox
    ∧ (s.zeroFrame f).hatches = s.hatches ∧ (s.zeroFrame f).gallery = s.gallery ∧ (s.zeroFrame f).course = s.course :=
  (zeroFrame_upd : Upd [.mem, .bad] s (s.zeroFrame f)).agree

@[simp] theorem rd_zeroFrame {f : Nat} (pg : Nat) (g : Fld) : (s.zeroFrame f).rd pg g = s.rd pg g :=
  rd_congr zeroFrame_fields.2.1 pg g

@[simp] theorem putWhole_fields {a n : Nat} {t : Tbl Byte} :
    (s.putWhole a n t).pending = s.pending ∧ (s.putWhole a n t).regs = s.regs ∧ (s.putWhole a n t).held = s.held ∧
    (s.putWhole a n t).out = s.out ∧ (s.putWhole a n t).draws = s.draws ∧ (s.putWhole a n t).fuses = s.fuses ∧
    (s.putWhole a n t).straps = s.straps ∧ (s.putWhole a n t).cellar = s.cellar ∧ (s.putWhole a n t).seq = s.seq ∧
    (s.putWhole a n t).power = s.power ∧ (s.putWhole a n t).cross = s.cross ∧ (s.putWhole a n t).security = s.security ∧
    (s.putWhole a n t).pins = s.pins ∧ (s.putWhole a n t).doorway = s.doorway ∧ (s.putWhole a n t).porches = s.porches ∧
    (s.putWhole a n t).host = s.host ∧ (s.putWhole a n t).rooms = s.rooms ∧ (s.putWhole a n t).fabric = s.fabric ∧
    (s.putWhole a n t).refs = s.refs ∧ (s.putWhole a n t).sigs = s.sigs ∧ (s.putWhole a n t).blocks = s.blocks ∧
    (s.putWhole a n t).lines = s.lines ∧ (s.putWhole a n t).crews = s.crews ∧ (s.putWhole a n t).ids = s.ids ∧
    (s.putWhole a n t).heatCopy = s.heatCopy ∧ (s.putWhole a n t).stamps = s.stamps ∧ (s.putWhole a n t).wings = s.wings
    ∧ (s.putWhole a n t).portOps = s.portOps ∧ (s.putWhole a n t).stackCtl = s.stackCtl ∧ (s.putWhole a n t).frames =
    s.frames ∧ (s.putWhole a n t).alloc = s.alloc ∧ (s.putWhole a n t).reads = s.reads ∧ (s.putWhole a n t).attic =
    s.attic ∧ (s.putWhole a n t).prog = s.prog ∧ (s.putWhole a n t).recClear = s.recClear ∧ (s.putWhole a n t).retiring
    = s.retiring ∧ (s.putWhole a n t).chunk = s.chunk ∧ (s.putWhole a n t).loader = s.loader ∧ (s.putWhole a n t).chain
    = s.chain ∧ (s.putWhole a n t).g2 = s.g2 ∧ (s.putWhole a n t).selfTest = s.selfTest ∧ (s.putWhole a n t).cox = s.cox
    ∧ (s.putWhole a n t).hatches = s.hatches ∧ (s.putWhole a n t).gallery = s.gallery ∧ (s.putWhole a n t).course =
    s.course :=
  (putWhole_upd : Upd [.mem, .bad] s (s.putWhole a n t)).agree

@[simp] theorem rd_putWhole {a n : Nat} {t : Tbl Byte} (pg : Nat) (g : Fld) : (s.putWhole a n t).rd pg g = s.rd pg g :=
  rd_congr putWhole_fields.2.1 pg g

end State

end Sys2Proof.Machine
end

