-- ==== Sys2Proof/WellFormed.lean ====
section
/-! DEFINITION. The shape of a command that the world can send: its operands lie in the ranges that the spec gives its
fields. Nothing of the machine depends on it: `exec` is defined on every command. -/

namespace Sys2Proof

/-- BAR0: 288 pages of 4 KiB in a window of 16 MiB (R439). -/
def barBytes : Nat := 0x1000000

/-- The offset of a 32-bit access: naturally aligned (R10). -/
def wordAt (off : Nat) : Bool := off % 4 == 0

/-- An 8-bit or a 16-bit access: a value, where it writes, of 16 bits at an even offset or of 8 bits. -/
def narrow (off : Nat) (w : Option (BitVec 16)) : Bool :=
  match w with
  | some v => off % 2 == 0 || v.toNat < 256
  | none => true

/-- A register address: an aligned offset in one of the 288 pages, or in a virtual function's page. -/
def regAddrOk : RegAddr → Bool
  | .bar0 off => wordAt off && off / 0x1000 < 288
  | .vf off => wordAt off.toNat

/-- A room number (R6): wing × 256 + one of 192 rooms. -/
def roomExists (room : BitVec 12) : Bool := room.toNat % 256 < 192

/-- A stage of a room's fabric: 2,048 cells, 128 doorway channels, 18 ports of hard blocks. -/
def stageExists (k : StageKind) (n : BitVec 11) : Bool :=
  match k with
  | .cell => true
  | .door => n.toNat < 128
  | .block => n.toNat < 18

/-- A collision is with a request at the other port of the cupboard (R65). -/
def otherPort (r : CupReq) (collide : Option CupReq) : Bool :=
  match collide with
  | some q => q.portB != r.portB
  | none => true

/-- A push of another room in the same cycle carries the words that its LEN counts. -/
def samePush : SamePush → Bool
  | .room _ len bytes => bytes.length == 64 * len.toNat
  | .pop _ | .send _ _ => true

/-- The targets that SYS.MODE_REQ serves (R39): STANDBY, BOOT, TEST and HALT. -/
def modeTargets : List Nat := [2, 3, 10, 11]

/-- A crossing that exists (R372, Table 14.6): kind and index. -/
def crossing (h : Half) (kind index : Nat) : Bool :=
  match kind with
  | 1 | 2 => index < 12
  | 3 => index == 0
  | 4 => index < 16 && h == .east
  | 5 => index < 8
  | 6 => index == 0
  | _ => false

/-- A member of a map (R224): ring ID and position of 10 bits, die serial of 64. -/
def memberOk (m : Member) : Bool := m.id < 1024 && m.pos < 1024 && m.serial < 2 ^ 64

/-- A command that the world can send. -/
def WellFormed (i : Instr) : Bool :=
  match i with
  | .thermalSample readings => readings.length == 18
  | .modeReqInvalidTarget _ _ target => !(modeTargets.contains target.toNat)
  | .testComplete failedRooms _ _ _ => failedRooms.all roomExists
  | .bar0NarrowAccess _ off w => off < barBytes && narrow off w
  | .bar0OutOfRangeAccess _ off _ => wordAt off && 288 ≤ off / 0x1000 && off < barBytes
  | .undefinedOffsetAccess _ off _ => wordAt off && off / 0x1000 < 288
  | .pageWorldViolation _ off _ => wordAt off && off / 0x1000 < 288
  | .closedPageAccess _ off _ => wordAt off && off / 0x1000 < 288
  | .unreachableHalfAccess _ off _ => wordAt off && off / 0x1000 < 288
  | .registerWrite _ a _ _ => regAddrOk a
  | .bar4Read _ _ len => 1 ≤ len.toNat && len.toNat ≤ 4096
  | .bar4Write _ _ bytes => 1 ≤ bytes.length && bytes.length ≤ 4096
  | .doorbellInvalidOp _ _ _ op => !([1, 2, 3].contains op.toNat)
  | .stwBadOp _ op => op == 0 || 0xB ≤ op.toNat
  | .roomRetire _ _ room => roomExists room
  | .illegalCode room _ _ => roomExists room
  | .cupboardRead room _ r collide => roomExists room && !r.write && otherPort r collide
  | .cupboardWrite room _ r collide => roomExists room && r.write && otherPort r collide
  | .oarMul room _ _ => roomExists room
  | .oarMac room _ _ => roomExists room
  | .oarMsub room _ _ => roomExists room
  | .oarLoad room _ _ => roomExists room
  | .oarClear room _ _ => roomExists room
  | .oarEmit room _ _ => roomExists room
  | .oarReservedOp room _ _ => roomExists room
  | .windowRead _ _ _ _ len => 1 ≤ len.toNat && len.toNat ≤ 64
  | .windowWrite _ _ _ bytes => 1 ≤ bytes.length && bytes.length ≤ 64
  | .pgtBadOp _ op => op == 0 || 8 ≤ op.toNat
  | .hatchPush _ _ _ len bytes also => bytes.length == 64 * len.toNat && also.all samePush
  | .hatBadOp _ op => op == 0 || 4 ≤ op.toNat
  | .linkFlit _ f => f.payload.length == 64
  | .courseLinkTrained _ _ serial => serial < 2 ^ 64
  | .segmentForward s _ => s.words.length == 64 * s.seglen.toNat
  | .segmentArrival s => s.words.length == 64 * s.seglen.toNat
  | .accept s => s.words.length == 64 * s.seglen.toNat
  | .refuse s => s.words.length == 64 * s.seglen.toNat
  | .busy s => s.words.length == 64 * s.seglen.toNat
  | .enum _ serial _ _ _ => serial < 2 ^ 64
  | .mapBeaconIn members => members.all memberOk
  | .join serial _ => serial < 2 ^ 64
  | .imageHeader bytes => bytes.length == 256
  | .frameRecord r => r.body.length == r.bodyLen && r.bodyLen < 2 ^ 32
  | .repeatRecord r => r.body.length == r.bodyLen && r.bodyLen < 2 ^ 32
  | .zeroRecord r => r.body.length == r.bodyLen && r.bodyLen < 2 ^ 32
  | .essentialRecord r => r.body.length == r.bodyLen && r.bodyLen < 2 ^ 32
  | .crewRecord r => r.body.length == r.bodyLen && r.bodyLen < 2 ^ 32
  | .hallRecord r => r.body.length == r.bodyLen && r.bodyLen < 2 ^ 32
  | .endRecord r => r.body.length == r.bodyLen && r.bodyLen < 2 ^ 32
  | .gcmSegment cipher tag => tag.length == 16 && 1 ≤ cipher.length && cipher.length ≤ 0x10000
  | .chainPacket p => p.bytes.length == p.nbytes && p.nbytes < 2 ^ 32
  | .g2Frame _ data => data.length == 192
  | .hallMuxSwitch _ _ target => target != 3
  | .monitorWindow _ counts => counts.length ≤ 6
  | .avsTransaction _ crcOk => 1 ≤ crcOk.length && crcOk.length ≤ 4
  | .fmcMeasurementEnd _ edges => edges < 2 ^ 32
  | .fmcRefLost _ edges => edges < 2 ^ 32
  | .pulseArrival h kind index => crossing h kind.toNat index.toNat
  | .pulseHandshakeComplete h kind index => crossing h kind.toNat index.toNat
  | .crossingSideReset h kind index _ => crossing h kind.toNat index.toNat
  | .crossingResync h kind index => crossing h kind.toNat index.toNat
  | .softReset _ page => page.toNat < 288
  | .sliceReport room _ _ => roomExists room
  | .scrubFrame room frame _ => roomExists room && frame.toNat < 180
  | .porchTokenBoundary _ j _ _ _ => j.toNat < 12
  | .pageFreeze _ page _ => page.toNat < 288
  | .irqForce _ page _ => page.toNat < 288
  | .irqEnableWrite _ page _ => page.toNat < 288
  | .pgIrqRawClear _ page _ => page.toNat < 288
  | .pgErrClear _ page => page.toNat < 288
  | .pgWorldWrite _ page _ => page.toNat < 288
  | .pgWorldLock _ page => page.toNat < 288
  | .mbSend _ page _ => page.toNat < 288
  | .mbReply page words => page.toNat < 288 && words.length ≤ 256
  | .tokenThroughStage _ room kind n => room.toNat < 192 && stageExists kind n
  | .alwaysOnSupplyValid | .alwQualified | .alwaysOnSupplyLost | .pwrgdRise | .pwrgdFall | .coreRailLow ..
  | .rstNAssert | .rstNRelease | .galleryUp | .galleryTrainTimeout | .romSelfCheckDone .. | .bootStacksTrained ..
  | .stackTrainTimeout .. | .halfHaltMessage .. | .errNWatchExpiry .. | .thermalComparatorFire ..
  | .modeTransitionMessage | .modeTransitionAck | .modeReqStandby .. | .modeReqBoot .. | .modeReqTest ..
  | .modeReqHalt .. | .standbyEntryStart | .standbyPowerDown | .standbyEntryTimeout | .standbyWake ..
  | .wakePllTimeout | .leaseRenewal | .leaseAck | .followerLeaseLapse | .leaderLeaseLapse | .leadConflict ..
  | .galleryLinkFail .. | .galleryRetry .. | .configRequest .. | .perstAssert | .functionLevelReset ..
  | .hostLinkDlUp .. | .hostLinkDlDown | .doorbellRun .. | .doorbellHint .. | .doorbellPark .. | .create ..
  | .query .. | .update .. | .run .. | .park .. | .resume .. | .restart .. | .reconfig .. | .destroy .. | .hint ..
  | .sliceExpiry .. | .crewIdle .. | .ageingPeriod .. | .swapSave .. | .swapLoad .. | .swapFlip ..
  | .swapRestore .. | .swapReopen .. | .quiesceLimitExpiry .. | .faultNoticeRelease .. | .heatCopyUpdate ..
  | .idCoolingExpiry .. | .lcFlush .. | .roscWindowEnd .. | .roscCtrlWrite .. | .memoryCompletion ..
  | .patrolRead .. | .zeroingFrameDone .. | .reclaimWalk .. | .frameTake .. | .frameGive .. | .granTake ..
  | .granGive .. | .invalCrew .. | .invalPage .. | .invalAll .. | .invalComplete .. | .hatchSend ..
  | .noticePost .. | .hatchDelivery .. | .hostCopy .. | .hatchReturn .. | .ringHandoff .. | .hatchOpen ..
  | .hatchQuery .. | .hatchClose .. | .hatchCloseComplete .. | .linkNak .. | .linkRetrain .. | .linkTrainRetry ..
  | .linkDown .. | .breakLink .. | .heal .. | .courseRepresent .. | .ingressAgeExpiry .. | .busyResend ..
  | .messageExpiry .. | .mapWaitExpiry | .enumTimeout | .enumRetry | .mapBeacon | .leave .. | .reqLeave ..
  | .reqJoin .. | .leaveDrainEnd | .ringIdHoldExpiry .. | .loadDeadlineExpiry | .loadCleanupDone | .chainResend
  | .chainStallExpiry | .dmaChunk .. | .dmaChunkDone .. | .cfgDeadlineWrite .. | .attBootWrite .. | .atticProg ..
  | .atticProgDone .. | .recClearRooms .. | .recClearFrames .. | .recClearBoth .. | .recClearDone .. | .lockStep
  | .lockTimeout | .ioStep | .gsrStep | .weStep | .runModeEntry | .progNLow | .g2Prog .. | .g2ClearDone | .g2Sync
  | .g2StreamHeader .. | .g2Crc .. | .g2StartDone | .g2Calibration | .g2CalibrationDone .. | .g2HostRead ..
  | .g2HostWrite .. | .g2cRegWrite .. | .g2UserWrite .. | .g2Sleep .. | .g2DeepSleep .. | .g2Run ..
  | .g2TimerExpiry | .celTimerExpiry | .celTimerWrite .. | .tickSwitch .. | .xtalStart .. | .sourceReady ..
  | .serviceMuxSwitch .. | .switchEscape .. | .gateClose .. | .gateEngineDone .. | .gatePortIdle ..
  | .gateForced .. | .gateOpen .. | .opChange .. | .opPllTimeout .. | .opVoltageSettled .. | .vfabTargetWrite ..
  | .vfabStep .. | .governorSample .. | .governorAction .. | .governorUndo .. | .fmcMeasure .. | .sliceStart ..
  | .bstReq .. | .scrubPassStart .. | .coxRestart .. | .coxFirmwareUpdate .. | .coxRestartDone .. | .memRetrain ..
  | .memRetrainMigrate .. | .stackRetrainDone .. | .courseLaneRetrain .. | .hostLinkRecovery .. | .hostLinkReeq ..
  | .reeqTimeout | .unfreeze .. | .lcsReqProd .. | .lcsReqRma .. | .lcsReqEnd .. | .lcsReqInvalid ..
  | .lcsReqDone .. | .fuseEncRequired .. | .fuseFallbackEn .. | .keyProgram .. | .keyZeroise .. | .keyCheck ..
  | .keyOpDone .. | .vbatLoss | .tapBypass | .tapIdcode | .tapSamplePreload .. | .tapExtest | .tapClamp | .tapHighz
  | .pinFunctionSwitch .. | .functionSwitchWindowEnd .. | .pinOutWrite .. | .pinSetWrite .. | .pinClrWrite ..
  | .pinOeWrite .. | .coxGpioWrite .. | .sdwData .. | .sdwSet .. | .sdwClr .. | .sdwOe .. | .pinInputChange ..
  | .smbusBlockRead .. | .crystalCheckWindow .. | .stackTemperatureRead .. | .ringTagCoolingExpiry ..
  | .coreRailRestored .. | .cclkFallingEdge .. | .hostLinkReturnToL0 | .courseRetrainFail ..
  | .designInterruptRequest .. => true

end Sys2Proof
end

