-- ==== Sys2Proof/Tests/Slice0.lean ====
section
/-! SUPPORT. For each clause of the statements that has hypotheses, a state and operands that meet them all together; the shape
of commands, with an ill-formed term for each check; a few values worked out by hand. -/

namespace Sys2Proof.Tests
open Sys2Proof Sys2Proof.Machine State
set_option Elab.async false
set_option linter.unusedVariables false
set_option linter.unreachableTactic false
set_option linter.unusedTactic false

/-! ## States -/

/-- A device in a mode: the East half leads, both halves and the Gallery are up, every clock source is READY. -/
def up (m : Nat) : State :=
  (((((({ State.reset with seq := { State.reset.seq with boot := 0, romOk := true, gsr := true, we := true } }).wrs
    (pgSys .east) [(SYS_MODE_MODE, m), (SYS_ROLE_LEADER, 1), (SYS_ROLE_LEASE_OK, 1)]).wrs
    (pgSys .west) [(SYS_MODE_MODE, m), (SYS_ROLE_LEASE_OK, 1)]).wrs (pgGal .east) [(GAL_LINK_STATE, 2)]).wrs
    (pgGal .west) [(GAL_LINK_STATE, 2)]).wrs (pgClk .east) [(CLK_SRC_STAT_READY, 63), (CLK_SRC_STAT_HALL_SEL, 0)]).wrs
    (pgClk .west) [(CLK_SRC_STAT_READY, 63), (CLK_SRC_STAT_HALL_SEL, 0)]

/-- RUN-NATIVE. -/
def run : State := up mRunNative

theorem admits_of {s : State} {m : Master} {p off : Nat} (h : s.gate m p off true = (.pass, s)) : s.Admits m p off := h

/-- A word list that CREATE takes: a swappable crew of one room for wing E0. -/
def ws : List Word := [0, 0x100, 0x00010101, 0, 0x100, 0x102, 0x103, 0x104, 0x200, 0, 0, 0, 0, 0, 0, 0]

/-- A crew of the cox secure partition at heat 1, PARKED. -/
def crew0 : Crew := Crew.ofWords 1 0x101 ws

/-- RUN-NATIVE with a crew at ID 0x0123, which the Steward's port names. -/
def with1 (c : Crew) : State :=
  ({ run with crews := [(0x123, c)], ids := [(0x123, ⟨1, 0, false, []⟩)] }).wrs (pgStw .east)
    [(STW_CMD_ARG_ID, 0x123), (STW_CMD_ARG_HEAT, 1)]

/-- The Steward's window holds the words. -/
def filled (s : State) : State :=
  ws.zipIdx.foldl (fun s e => s.wr (pgStw .east) (STW_CMD_DESC_WORD.at 4 e.2) e.1.toNat) s

/-- The secure cox's port of the East half. -/
def ep : Port := .page .east .coxS

/-- A crew that holds room 0 of wing E0. -/
def inRoom (c : Crew) : Crew := { c with state := .running, suite := [0] }

theorem triple (x : Nat × Nat × Nat) : x = (x.1, x.2.1, x.2.2) := rfl

theorem ok_pair {α β ε : Type} [DecidableEq α] (x : Except ε α × β) (a : α)
    (h : (match x.1 with | .ok y => decide (y = a) | .error _ => false) = true) : x = (.ok a, x.2) := by
  obtain ⟨y, u⟩ := x
  cases y <;> simp_all

theorem some_pair {α β : Type} [DecidableEq α] (x : Option α × β) (a : α) (h : x.1 = some a) : x = (some a, x.2) := by
  obtain ⟨y, u⟩ := x
  simp_all

theorem no_errors {s : State} (h : s.bad = []) (k : Nat) : (s.sectorErr k).length ≤ 2 := by
  simp [State.sectorErr, h, Tbl.slice]

theorem takes_of {s : State} {m : Master} {p off : Nat} (h : s.gate m p off true = (.pass, s))
    (he : s.on p PG_CTRL_EN = true) : s.Takes m p off := ⟨h, he⟩

theorem bytes_empty (a n : Nat) : Tbl.bytes ([] : Tbl Byte) a n = List.replicate n 0 := by
  induction n generalizing a with
  | zero => rfl
  | succ n ih => simp [Tbl.bytes, ih, List.replicate_succ, Tbl.get, Tbl.find]

/-- The CRC over some zeros followed by bytes is the CRC of the bytes from where the zeros leave it. -/
theorem crc_zeros (n c d : Nat) (bs : List Byte) (h : (List.replicate n 0).foldl crc16Byte c = d) :
    (List.replicate n (0 : Byte) ++ bs).foldl crc16Byte c = bs.foldl crc16Byte d := by
  rw [List.foldl_append, h]

theorem crc_z (bs : List Byte) : crc16 (List.replicate 511 0 ++ bs) = bs.foldl crc16Byte 48960 := by
  have e : List.replicate 511 (0 : Byte) = List.replicate 64 0 ++ (List.replicate 64 0 ++ (List.replicate 64 0 ++
      (List.replicate 64 0 ++ (List.replicate 64 0 ++ (List.replicate 64 0 ++ (List.replicate 64 0 ++
      List.replicate 63 0)))))) := by decide +kernel
  unfold crc16
  rw [e]
  simp only [List.append_assoc]
  rw [crc_zeros 64 65535 55002 _ (by decide +kernel), crc_zeros 64 55002 61450 _ (by decide +kernel),
    crc_zeros 64 61450 33778 _ (by decide +kernel), crc_zeros 64 33778 16872 _ (by decide +kernel),
    crc_zeros 64 16872 7401 _ (by decide +kernel), crc_zeros 64 7401 60547 _ (by decide +kernel),
    crc_zeros 64 60547 36663 _ (by decide +kernel), crc_zeros 63 36663 48960 _ (by decide +kernel)]

theorem refOf_none {s : State} (h : s.refs = []) (a : Nat) : s.refOf a = crc16 (List.replicate 512 0) := by
  rw [State.refOf, h]
  show (none : Option Nat).getD (crc16 (List.replicate 512 0)) = _
  generalize crc16 (List.replicate 512 0) = k
  exact Option.getD_none

/-- The crc of 512 zeros. -/
theorem crc_zero : crc16 (List.replicate 512 0) = 5684 := by
  rw [show List.replicate 512 (0 : Byte) = List.replicate 511 0 ++ [0] by decide +kernel, crc_z]; decide +kernel

/-- A room of the G2 block whose plane has one byte wrong. -/
def wrongPlane : State :=
  { run.wr (pgScr .east) SCR_CFG_EN 1 with rooms := [(0, { run.room 0 with state := .g2 })], fabric := [(511, 1)] }

theorem plane_zero : State.plane run (run.room 0).active 0 0 512 = List.replicate 512 0 := by decide +kernel
theorem plane_wrong : State.plane wrongPlane (wrongPlane.room 0).active 0 0 512 = List.replicate 511 0 ++ [1] := by
  decide +kernel

/-- A member of a ring of two devices: ring ID 5 at position 0, the other device at ID 9 and position 1. -/
def ring : State :=
  ({ run with course := { run.course with map := [⟨5, 0, 2⟩, ⟨9, 1, 77⟩] } }).wrs pgCrs
    [(CRS_PORT_STATE, 3), (CRS_ID_VALID, 1), (CRS_ID_RING_ID, 5), (CRS_PORT_E_LINK, 2), (CRS_PORT_W_LINK, 2),
     (CRS_RING_SIZE, 2)]

/-- A segment of one word for device 5 from device 9, with its checksum. -/
def seg (typ age : Nat) : Segment :=
  let g : Segment := ⟨5, false, 9, BitVec.ofNat 8 typ, false, false, true, 3, 1, 0, BitVec.ofNat 16 age, 0x8123, 1, 0, 0x8005, 1, 0, 1, 0,
    List.replicate 8 0⟩
  { g with crc := segSum g }

/-- The first segment of a long message. -/
def longSeg : Segment :=
  let g : Segment := { seg sgData 0 with len := 0xFFFF, last := false }
  { g with crc := segSum g }

/-- The device's own message with tag 3. -/
def msg (busy : Bool) : OutMsg := ⟨3, 1, 9, false, false, 0x8123, 1, 0x8005, 1, List.replicate 8 0, 0, busy⟩

/-- The member with that message in its egress store. -/
def ringOut (busy : Bool) : State := { ring with course := { ring.course with egress := [msg busy] } }

/-- The message of `seg`, whole. -/
def got : InMsg := ⟨seg 0 0, 1, List.replicate 8 0⟩

/-- The member with that message in its ingress store. -/
def ringIn : State := { ring with course := { ring.course with ingress := [got] } }

/-- The first flit of a link. -/
def flit (typ : BitVec 4) : Flit :=
  let f : Flit := ⟨0, 1023, 4, typ, [], 0⟩
  { f with crc := crc32c (flitBody f) }

/-- An open hatch of the crew at 0x0123 toward the other device. -/
def hat0 : Hatch :=
  { Hatch.fresh with isOpen := true, srcKind := endCrew, src := 0x123, srcHeat := 1, dstKind := endRing, dst := 9, depth := 3, nslots := 3 }

/-- A posted packet of one word at the head of a ring. -/
def pk : Packet := ⟨0, false, 1, 0x123, 1, endCrew, 1, true, 0, false, false⟩

/-- The member whose hatch 0x8005 takes packets from the ring. -/
def ringHat : State := { ringIn with hatches := [(0x8005, { hat0 with srcKind := endRing, src := 9, dstKind := endCrew })] }

/-- RUN-G2 with the subsystem in a state, every pin of the East half at a function, every level high but PC3's. -/
def g2at (st fn : Nat) : State :=
  ({ up mRunG2 with pins := { State.reset.pins with levels := 2 ^ 64 - 1 - 2 ^ 35 } }.wr pgG2c G2C_STAT_STATE st).wrs (pgPmx .east)
    ((List.range 8).map fun k => (PMX_FUNC_F.at 4 k, fn * 0x11111111))

/-- The receiver past the load stream's header, with one frame to come. -/
def g2in (frames : Nat) : State :=
  { g2at gsReceiving 8 with g2 := { State.reset.g2 with header := true, nframes := 1, frames := frames, crc := 0x1234 } }

theorem true_pair {α : Type} (x : Bool × α) (h : x.1 = true) : x = (true, x.2) := by
  obtain ⟨y, u⟩ := x
  simp_all

theorem none_pair {α β : Type} (x : Option α × β) (h : x.1.isNone = true) : x = (none, x.2) := by
  obtain ⟨y, u⟩ := x
  cases y <;> simp_all

theorem error_pair {α β ε : Type} [DecidableEq ε] (x : Except ε α × β) (e : ε)
    (h : (match x.1 with | .error y => decide (y = e) | .ok _ => false) = true) : x = (.error e, x.2) := by
  obtain ⟨y, u⟩ := x
  cases y <;> simp_all

/-! ## Images -/

/-- The first 32 bytes of an image header: unencrypted, uncompressed, any device, one frame, 16 payload bytes. -/
def hdr0 : List Byte :=
  [0x54, 0x4C, 0x59, 0x54, 0, 1, 0, 0, 0xA7, 0x00, 0x63, 0x0C, 0, 0, 0, 0x80, 0, 0, 0, 0, 0xE4, 0, 0, 0, 1, 0, 0, 0, 16, 0, 0, 0]

/-- The whole header, with its CRC32C. -/
def hdrB : List Byte := hdr0 ++ List.replicate 220 0 ++ [0xBA, 0x6C, 0x2D, 0x32]

theorem crc_part (n : Nat) (c d : Word) (bs : List Byte) (h : (List.replicate n 0).foldl crcByte c = d) :
    (List.replicate n (0 : Byte) ++ bs).foldl crcByte c = bs.foldl crcByte d := by
  rw [List.foldl_append, h]

theorem hdr_crc : crc32c (hdrB.take 0xFC) = 0x322D6CBA#32 := by
  rw [show hdrB.take 0xFC = (hdr0 ++ List.replicate 32 0) ++ (List.replicate 64 0 ++ (List.replicate 64 0 ++
    (List.replicate 60 0 ++ []))) by decide +kernel]
  unfold crc32c
  have e : (hdr0 ++ List.replicate 32 0).foldl crcByte 0xFFFFFFFF#32 = 0x0CB2E2FC#32 := by decide +kernel
  rw [List.foldl_append, e,
    crc_part 64 _ 0x27FA9243#32 _ (by decide +kernel), crc_part 64 _ 0xF572382C#32 _ (by decide +kernel),
    crc_part 60 _ 0xCDD29345#32 _ (by decide +kernel)]
  decide +kernel

theorem hdr_ok : hdrCheck hdrB none = .ok (hdrOf hdrB) := by
  simp only [hdrCheck]
  rw [if_neg (by decide +kernel), if_neg (by rw [hdr_crc]; decide +kernel), if_neg (by decide +kernel),
    if_neg (by decide +kernel)]

/-- LOAD-HOST at an image header. -/
def atHeader (bs : List Byte) : State :=
  { up mLoadHost with loader := { Loader.fresh 0 with stream := bs } }.wrs pgCfg [(CFG_STAT_PHASE, 1), (CFG_STAT_SOURCE, 3)]

/-- An image of compressed units whose payload holds `n` bytes. -/
def img (n : Nat) : ImgHdr := ⟨true, false, false, 0x80000000, 0xE4, 0, 5, n, []⟩

/-- The header of a record. -/
def recHead (typ n : Nat) : List Byte := BitVec.ofNat 8 typ :: 0 :: 0 :: 0 :: leBytes 4 n

/-- The record of a body. -/
def recOf (body : List Byte) : Rec := ⟨0, body.length, body⟩

/-- LOAD-HOST at a record of an image that ends with it. -/
def atRecord (typ : Nat) (body : List Byte) : State :=
  { up mLoadHost with loader := { Loader.fresh 0 with
      hdr := some (img (8 + body.length)), pos := hdrBytes, stream := recHead typ body.length ++ body } }.wrs pgCfg
    [(CFG_STAT_PHASE, 2), (CFG_STAT_SOURCE, 3)]

/-- The body of a FRAME record of zeros for frame 0 of room 0. -/
def frameBody : List Byte := List.replicate 9 0 ++ [0x82] ++ List.replicate 6 0

theorem some_snd {α β : Type} {x : Option (α × β)} {b : β} (h : x.map (·.2) = some b) : ∃ a, x = some (a, b) := by
  obtain _ | ⟨a, c⟩ := x
  · simp at h
  · exact ⟨a, by simpa using h⟩

theorem pair_eta {α β : Type} (x : α × β) : x = (x.1, x.2) := rfl

/-- The body of an ESSENTIAL record of crew 0x0123, position 0, whose map is all zeros. -/
def essBody : List Byte := [0x23, 1, 0, 0, 0, 0, 0, 0] ++ ((List.replicate 22 [0, 0x82]).flatten ++ [0, 0x81, 0, 0])

/-- The body of the END record that closes an image whose CRC is 0 so far. -/
def endBody : List Byte := [0xC7, 0x9D, 0xD9, 0xB1, 0, 0, 0, 0]

theorem error_of {α ε : Type} [DecidableEq ε] {x : Except ε α} {e : ε}
    (h : (match x with | .error y => decide (y = e) | .ok _ => false) = true) : x = .error e := by
  cases x <;> simp_all

theorem tri_pair {α β γ : Type} {a : α} {b : β} (x : α × β × γ) (h : x.1 = a) (k : x.2.1 = b) : x = (a, b, x.2.2) := by
  subst h k; rfl

/-- The start-up sequence with one step of the default order due. -/
def startup (stage : Nat) : State :=
  { up mStartup with loader := { Loader.fresh 0 with stage := stage } }.wrs pgCfg [(CFG_STAT_PHASE, 4), (CFG_STAT_ORDER, 0xE4)]

/-- RUN-NATIVE whose page pool of stack 0 the host may read and write. -/
def shared : State := run.wrs (pgMem 0) [(MEM_RGN_CTRL_HOSTACC.at 8 2, 2), (MEM_RGN_CTRL_ANYFUNC.at 8 2, 1)]

theorem cup_zero (k : Nat) : (cupReach k 0).1 = 0 := by unfold cupReach; split <;> rfl

theorem pair_pair {α β γ : Type} (x : (α × β) × γ) (a : α) (b : β) (h : x.1 = (a, b)) : x = ((a, b), x.2) := by
  obtain ⟨y, u⟩ := x
  simp_all
theorem test_SupplyCommandsAct_0 : ∃ s : State, s.devMode = mOff :=
  ⟨up mOff, by decide +kernel⟩
theorem test_SupplyCommandsAct_1 : ∃ s : State, s.devMode = mOff ∧ s.cellar.alwaysOn = true :=
  ⟨up mOff, by and_intros <;> decide +kernel⟩
theorem test_SupplyCommandsAct_3 : ∃ s : State, s.devMode = mCellar ∧ s.cellar.alwQual = true ∧ s.cellar.railLow = [] :=
  ⟨up mCellar, by and_intros <;> decide +kernel⟩
theorem test_SupplyCommandsAct_4 : ∃ s : State, s.devMode ≠ mOff ∧ s.devMode ≠ mCellar :=
  ⟨run, by and_intros <;> decide +kernel⟩
theorem test_SupplyCommandsAct_5 : ∃ (s : State) (h : Half) (fab : Bool), s.devMode ≠ mOff ∧ s.devMode ≠ mCellar :=
  ⟨run, .west, true, by and_intros <;> decide +kernel⟩
theorem test_SupplyCommandsAct_6 : ∃ (s : State) (h : Half) (fab : Bool), s.devMode = mCellar ∧ s.straps.pwrgd = true ∧ s.cellar.alwQual = true ∧ s.cellar.railLow = [(h, fab)] :=
  ⟨{ up mCellar with cellar := { (up mCellar).cellar with railLow := [(.west, true)] } }, .west, true, by and_intros <;> decide +kernel⟩
theorem test_SupplyCommandsAct_7 : ∃ s : State, s.devMode ≠ mOff ∧ s.devMode ≠ mCellar :=
  ⟨run, by and_intros <;> decide +kernel⟩
theorem test_SupplyCommandsAct_8 : ∃ s : State, s.seq.boot ≠ 1 :=
  ⟨run, by decide +kernel⟩
theorem test_SupplyCommandsAct_9 : ∃ s : State, s.seq.boot = 1 ∧ s.srcReady .east .irc = true ∧ s.srcReady .west .irc = true ∧ s.fuses.readFails = false ∧ s.cellar.hottest < 100 :=
  ⟨(State.reset.wrs (pgClk .east) [(CLK_SRC_STAT_READY, 1)]).wrs (pgClk .west) [(CLK_SRC_STAT_READY, 1)], by and_intros <;> decide +kernel⟩
theorem test_BootAdvances_0 : ∃ s : State, s.seq.boot = 3 ∧ s.mode .east = mBoot ∧ s.mode .west = mBoot ∧ s.rd (pgSys .east) SYS_ROLE_LEAD_SEL = s.rd (pgSys .west) SYS_ROLE_LEAD_SEL ∧ s.fuses.serial.east ≠ s.fuses.serial.west :=
  ⟨{ up mBoot with seq := { (up mBoot).seq with boot := 3 } }, by and_intros <;> decide +kernel⟩
theorem test_BootAdvances_1 : ∃ s : State, s.seq.boot = 5 :=
  ⟨{ up mBoot with seq := { (up mBoot).seq with boot := 5 } }, by decide +kernel⟩
theorem test_BootAdvances_2 : ∃ (s : State) (a b c d : Byte), s.seq.boot = 6 ∧ s.lapsed s.leader = false :=
  ⟨{ up mBoot with seq := { (up mBoot).seq with boot := 6 } }, 0, 1, 2, 3, by and_intros <;> decide +kernel⟩
theorem test_HaltCausesAct_0 : ∃ s : State, s.seq.boot = 3 ∧ s.mode .east = mBoot ∧ s.mode .west = mBoot :=
  ⟨{ up mBoot with seq := { (up mBoot).seq with boot := 3 } }, by and_intros <;> decide +kernel⟩
theorem test_HaltCausesAct_1 : ∃ (s : State) (e w : Bool), s.seq.boot = 5 ∧ s.mode .east = mBoot ∧ s.mode .west = mBoot ∧ ((e = false ∨ w = false)) :=
  ⟨{ up mBoot with seq := { (up mBoot).seq with boot := 5 } }, true, false, by and_intros <;> decide +kernel⟩
theorem test_HaltCausesAct_2 : ∃ (s : State) (k : BitVec 2), s.seq.boot = 6 ∧ s.mode (halfOf (k.toNat / 2)) = mBoot :=
  ⟨{ up mBoot with seq := { (up mBoot).seq with boot := 6 } }, 3, by and_intros <;> decide +kernel⟩
theorem test_HaltCausesAct_3 : ∃ (s : State) (h : Half), s.mode (other h) = mHalt ∧ s.galleryUp = true ∧ mBoot ≤ s.mode h ∧ s.mode h < mHalt :=
  ⟨run.wr (pgSys .west) SYS_MODE_MODE mHalt, .east, by and_intros <;> decide +kernel⟩
theorem test_HaltCausesAct_4 : ∃ s : State, s.errN = true ∧ mBoot ≤ s.mode s.follower ∧ s.mode s.follower < mHalt :=
  ⟨run.wr (pgSys .east) SYS_MODE_MODE mHalt, by and_intros <;> decide +kernel⟩
theorem test_HaltCausesAct_5 : ∃ (s : State) (l : List Int), ((∀ h, mBoot ≤ s.mode h ∧ s.mode h < mHalt)) ∧ ((∃ n ∈ hotRuns s.cellar.hot l, 3 ≤ n)) :=
  ⟨{ run with cellar := { (run).cellar with hot := [2] } }, [110], by
    refine ⟨fun h => by cases h <;> decide +kernel, 3, ?_, ?_⟩ <;> decide +kernel⟩
theorem test_HaltCausesAct_6 : ∃ (s : State) (l : List Int), s.sensorsRun = true ∧ ((∀ n ∈ hotRuns s.cellar.hot l, n < 3)) ∧ ((∀ k, k < 4 → s.rd (pgMem k) MEM_STAT_TEMP < 105)) :=
  ⟨run, [109], by
    refine ⟨?_, ?_, fun k hk => by
    have : k = 0 ∨ k = 1 ∨ k = 2 ∨ k = 3 := by omega
    rcases this with rfl | rfl | rfl | rfl <;> decide +kernel⟩ <;> decide +kernel⟩
theorem test_HaltCausesAct_7 : ∃ (s : State) (h : Half), s.seq.standby = .asleep ∧ ((∀ k, s.mode k = mStandby)) :=
  ⟨{ up mStandby with seq := { (up mStandby).seq with standby := .asleep } }, .east, by
    refine ⟨?_, fun k => by cases k <;> decide +kernel⟩ <;> decide +kernel⟩
theorem test_HaltCausesAct_8 : ∃ (s : State) (k : BitVec 2) (c : Byte), s.sensorsRun = true ∧ c.toNat < 105 :=
  ⟨run, 3, 104, by and_intros <;> decide +kernel⟩
theorem test_HaltCausesAct_9 : ∃ (s : State) (k : BitVec 2) (c : Byte), ((∀ h, mBoot ≤ s.mode h ∧ s.mode h < mHalt)) ∧ 105 ≤ c.toNat :=
  ⟨run, 0, 105, by
    refine ⟨fun h => by cases h <;> decide +kernel, ?_⟩ <;> decide +kernel⟩
theorem test_ModeRequestsAct_0 : ∃ (s : State) (m : Master) (v : BitVec 4), s.Takes m (pgSys s.leader) 0x54 ∧ s.rd (pgSys s.leader) SYS_MODE_TRANSIT = 0 ∧ s.orphan .east = false ∧ s.orphan .west = false ∧ v ≠ 2 ∧ v ≠ 3 ∧ v ≠ 10 ∧ v ≠ 11 :=
  ⟨run, .coxS, 7, by
    repeat' first | decide +kernel | apply admits_of | refine And.intro ?_ ?_ | constructor | rfl⟩
theorem test_ModeRequestsAct_1 : ∃ (s : State) (m : Master), s.Takes m (pgSys s.leader) 0x54 ∧ s.rd (pgSys s.leader) SYS_MODE_TRANSIT = 1 :=
  ⟨run.wr (pgSys .east) SYS_MODE_TRANSIT 1, .coxS, by
    repeat' first | decide +kernel | apply admits_of | refine And.intro ?_ ?_ | constructor | rfl⟩
theorem test_ModeRequestsAct_2 : ∃ (s : State) (m : Master), s.Takes m (pgSys s.leader) 0x54 ∧ s.rd (pgSys s.leader) SYS_MODE_TRANSIT = 0 ∧ s.devMode ≠ mHalt ∧ s.lapsed s.leader = false :=
  ⟨run, .coxS, by
    repeat' first | decide +kernel | apply admits_of | refine And.intro ?_ ?_ | constructor | rfl⟩
theorem test_ModeRequestsAct_3 : ∃ (s : State) (m : Master), s.Takes m (pgSys s.leader) 0x54 ∧ s.rd (pgSys s.leader) SYS_MODE_TRANSIT = 0 ∧ mBoot ≤ s.devMode ∧ s.devMode < mHalt ∧ s.lapsed s.leader = true :=
  ⟨(run.wr (pgSys .east) SYS_ROLE_LEASE_OK 0).wr (pgSys .west) SYS_ROLE_LEASE_OK 0, .coxS, by
    repeat' first | decide +kernel | apply admits_of | refine And.intro ?_ ?_ | constructor | rfl⟩
theorem test_ModeRequestsAct_4 : ∃ (s : State) (m : Master), s.Takes m (pgSys s.leader) 0x54 ∧ s.rd (pgSys s.leader) SYS_MODE_TRANSIT = 0 ∧ s.orphan .east = false ∧ s.orphan .west = false :=
  ⟨run, .coxS, by
    repeat' first | decide +kernel | apply admits_of | refine And.intro ?_ ?_ | constructor | rfl⟩
theorem test_ModeRequestsAct_5 : ∃ (s : State) (m : Master), s.Takes m (pgSys s.leader) 0x54 ∧ s.rd (pgSys s.leader) SYS_MODE_TRANSIT = 0 ∧ s.orphan .east = false ∧ s.orphan .west = false ∧ inService s.devMode = true ∧ s.lapsed s.leader = false ∧ ((s.rd pgLcs LCS_STATE_STATE = 1 ∨ s.rd pgLcs LCS_STATE_STATE = 4)) :=
  ⟨run.wr pgLcs LCS_STATE_STATE 4, .coxS, by
    repeat' first | decide +kernel | apply admits_of | refine And.intro ?_ ?_ | constructor | rfl⟩
theorem test_ModeRequestsAct_6 : ∃ (s : State) (m : Master), s.Takes m (pgSys s.leader) 0x54 ∧ s.rd (pgSys s.leader) SYS_MODE_TRANSIT = 0 ∧ s.orphan .east = false ∧ s.orphan .west = false ∧ inService s.devMode = true ∧ s.rd pgLcs LCS_STATE_STATE ≠ 1 ∧ s.rd pgLcs LCS_STATE_STATE ≠ 4 :=
  ⟨run.wr pgLcs LCS_STATE_STATE 2, .coxS, by
    repeat' first | decide +kernel | apply admits_of | refine And.intro ?_ ?_ | constructor | rfl⟩
theorem test_ModeRequestsAct_7 : ∃ (s : State) (m : Master), s.Takes m (pgSys s.leader) 0x54 ∧ s.rd (pgSys s.leader) SYS_MODE_TRANSIT = 0 ∧ s.orphan .east = false ∧ s.orphan .west = false ∧ isRun s.devMode = true :=
  ⟨run, .coxS, by
    repeat' first | decide +kernel | apply admits_of | refine And.intro ?_ ?_ | constructor | rfl⟩
theorem test_ModeRequestsAct_8 : ∃ (s : State) (m : Master), s.Takes m (pgSys s.leader) 0x54 ∧ s.rd (pgSys s.leader) SYS_MODE_TRANSIT = 0 ∧ s.orphan .east = false ∧ s.orphan .west = false ∧ s.devMode = mService :=
  ⟨up mService, .coxS, by
    repeat' first | decide +kernel | apply admits_of | refine And.intro ?_ ?_ | constructor | rfl⟩
theorem test_TransitionsAct_0 : ∃ (s : State) (m : Nat), s.seq.txn = some (m, false) ∧ m ≠ mHalt :=
  ⟨{ run with seq := { (run).seq with txn := some (9, false) } }, 9, by and_intros <;> decide +kernel⟩
theorem test_TransitionsAct_1 : ∃ s : State, s.seq.txn = some (mHalt, false) ∧ mBoot ≤ s.mode s.follower ∧ s.mode s.follower < mHalt :=
  ⟨{ run with seq := { (run).seq with txn := some (mHalt, false) } }, by and_intros <;> decide +kernel⟩
theorem test_TransitionsAct_2 : ∃ s : State, s.seq.txn = some (mHalt, true) ∧ mBoot ≤ s.mode s.leader ∧ s.mode s.leader < mHalt :=
  ⟨{ run with seq := { (run).seq with txn := some (mHalt, true) } }, by and_intros <;> decide +kernel⟩
theorem test_TransitionsAct_3 : ∃ (s : State) (m : Nat), s.seq.txn = some (m, true) ∧ m ≠ mHalt :=
  ⟨{ run with seq := { (run).seq with txn := some (9, true) } }, 9, by and_intros <;> decide +kernel⟩
theorem test_TransitionsAct_4 : ∃ s : State, s.seq.standby = .accepted :=
  ⟨{ run with seq := { (run).seq with standby := .accepted } }, by decide +kernel⟩
theorem test_TransitionsAct_5 : ∃ s : State, s.standbyQuiet = true :=
  ⟨{ run with seq := { (run).seq with standby := .entering } }, by decide +kernel⟩
theorem test_TransitionsAct_6 : ∃ s : State, s.seq.standby = .entering :=
  ⟨{ run with seq := { (run).seq with standby := .entering } }, by decide +kernel⟩
theorem test_TransitionsAct_7 : ∃ (s : State) (src : BitVec 4) (lines : BitVec 16), s.seq.standby = .asleep ∧ (s.wakeOn src.toNat ||| s.seq.wakePend) ≠ 0 :=
  ⟨{ up mStandby with seq := { (up mStandby).seq with standby := .asleep, wakePend := 4 } }, 2, 0, by and_intros <;> decide +kernel⟩
theorem test_TransitionsAct_8 : ∃ (s : State) (src : BitVec 4) (lines : BitVec 16), s.seq.standby = .asleep ∧ (s.wakeOn src.toNat ||| s.seq.wakePend) ≠ 0 :=
  ⟨{ up mStandby with seq := { (up mStandby).seq with standby := .asleep, wakePend := 1 } }, 0, 0, by and_intros <;> decide +kernel⟩
theorem test_TransitionsAct_9 : ∃ s : State, s.seq.standby = .waking :=
  ⟨{ up mStandby with seq := { (up mStandby).seq with standby := .waking } }, by decide +kernel⟩
theorem test_TransitionsAct_10 : ∃ (s : State) (rooms : List (BitVec 12)) (frames : List (BitVec 16)) (hf sf : Bool), s.devMode = mTest ∧ s.seq.txn = none :=
  ⟨up mTest, [0], [0], false, false, by and_intros <;> decide +kernel⟩
theorem test_LeaseAndGalleryAct_0 : ∃ s : State, s.galleryUp = true ∧ s.devMode ≠ mStandby ∧ s.lapsed s.leader = false ∧ s.orphan s.follower = false :=
  ⟨run, by and_intros <;> decide +kernel⟩
theorem test_LeaseAndGalleryAct_1 : ∃ s : State, s.galleryUp = true ∧ s.devMode ≠ mStandby ∧ s.lapsed s.leader = false ∧ s.orphan s.follower = false :=
  ⟨run, by and_intros <;> decide +kernel⟩
theorem test_LeaseAndGalleryAct_2 : ∃ s : State, s.leaseRuns = true ∧ s.lapsed s.follower = false :=
  ⟨run, by and_intros <;> decide +kernel⟩
theorem test_LeaseAndGalleryAct_3 : ∃ s : State, s.leaseRuns = true ∧ s.lapsed s.leader = false :=
  ⟨run, by and_intros <;> decide +kernel⟩
theorem test_LeaseAndGalleryAct_4 : ∃ (s : State) (h : Half), s.on (pgSys h) SYS_ROLE_LEADER = true :=
  ⟨run, .east, by decide +kernel⟩
theorem test_LeaseAndGalleryAct_5 : ∃ s : State, s.galleryUp = true :=
  ⟨run, by decide +kernel⟩
theorem test_LeaseAndGalleryAct_6 : ∃ s : State, s.galleryUp = true :=
  ⟨run, by decide +kernel⟩
theorem test_LeaseAndGalleryAct_7 : ∃ s : State, s.galleryUp = false ∧ s.seq.boot = 0 ∧ s.devMode ≠ mOff ∧ s.devMode ≠ mCellar ∧ s.devMode ≠ mStandby :=
  ⟨run.wr (pgGal .east) GAL_LINK_STATE 0, by and_intros <;> decide +kernel⟩
theorem test_LeaseAndGalleryAct_8 : ∃ s : State, s.galleryUp = false :=
  ⟨run.wr (pgGal .east) GAL_LINK_STATE 0, by decide +kernel⟩
theorem test_ClockSourcesAct_0 : ∃ s : State, s.devMode = mCellar ∧ s.seq.standby ≠ .asleep ∧ s.rd pgCel CEL_TIMER_COUNT ≠ 0 :=
  ⟨(up mCellar).wr pgCel CEL_TIMER_COUNT 1, by and_intros <;> decide +kernel⟩
theorem test_ClockSourcesAct_1 : ∃ s : State, s.devMode ≠ mOff ∧ s.devMode ≠ mCellar ∧ s.seq.standby = .none ∧ s.rd pgCel CEL_TIMER_COUNT ≠ 0 :=
  ⟨run.wr pgCel CEL_TIMER_COUNT 1, by and_intros <;> decide +kernel⟩
theorem test_ClockSourcesAct_2 : ∃ (s : State) (m : Master) (v : Word), s.Admits m pgCel 0x50 :=
  ⟨run, .coxS, 0, by
    repeat' first | decide +kernel | apply admits_of | refine And.intro ?_ ?_ | constructor | rfl⟩
theorem test_ClockSourcesAct_3 : ∃ (s : State) (m : Master) (c : Bool), s.Admits m pgCel 0x40 ∧ s.srcReady .east .crystal = true :=
  ⟨run.wr pgCel CEL_STAT_XTAL_READY 1, .coxS, true, by
    repeat' first | decide +kernel | apply admits_of | refine And.intro ?_ ?_ | constructor | rfl⟩
theorem test_ClockSourcesAct_4 : ∃ (s : State) (m : Master), s.Admits m pgCel 0x40 ∧ s.srcReady .east .crystal = false ∧ s.rd pgCel CEL_STAT_TICK_NOW = 0 :=
  ⟨run, .coxS, by
    repeat' first | decide +kernel | apply admits_of | refine And.intro ?_ ?_ | constructor | rfl⟩
theorem test_ClockSourcesAct_5 : ∃ (s : State) (m : Master), s.Admits m pgCel 0x40 ∧ s.rd pgCel CEL_CTRL_XTAL_EN = 0 :=
  ⟨run.wr pgCel CEL_CTRL_XTAL_EN 0, .coxS, by
    repeat' first | decide +kernel | apply admits_of | refine And.intro ?_ ?_ | constructor | rfl⟩
theorem test_ClockSourcesAct_6 : ∃ (s : State) (h : Half) (c : ClockSrc), s.hallRuns h = true ∧ s.devMode ≠ mOff ∧ s.srcReady h c = false ∧ s.srcRuns h c = true :=
  ⟨run.wr (pgClk .west) CLK_SRC_STAT_READY 0x37, .west, .pllA, by and_intros <;> decide +kernel⟩
theorem test_ClockSourcesAct_7 : ∃ (s : State) (a : Nat), s.srcReady .east .crystal = true ∧ (if 15625 ≤ 2 * a then 2 * a - 15625 else 15625 - 2 * a) * s.tolDiv s.leader ≤ 15625 :=
  ⟨run.wr pgCel CEL_STAT_XTAL_READY 1, 7812, by and_intros <;> decide +kernel⟩
theorem test_ClockSourcesAct_8 : ∃ (s : State) (a : Nat), s.srcReady .east .crystal = true ∧ s.rd pgCel CEL_STAT_TICK_NOW = 1 ∧ 15625 < (if 15625 ≤ 2 * a then 2 * a - 15625 else 15625 - 2 * a) * s.tolDiv s.leader :=
  ⟨run.wrs pgCel [(CEL_STAT_XTAL_READY, 1), (CEL_STAT_TICK_NOW, 1)], 0, by and_intros <;> decide +kernel⟩
theorem test_ClockSwitchesAct_0 : ∃ (s : State) (m : Master) (h : Half) (v : BitVec 2), s.Takes m (pgClk h) 0x48 ∧ s.rd (pgClk h) CLK_SW_STATUS ≠ 1 ∧ (s.pow h).op = none ∧ (s.pow h).hallPend = none ∧ v ≠ 3 ∧ s.hallSel h ≠ v.toNat ∧ s.srcReady h (hallSrc v.toNat) = true ∧ s.srcReady h (hallSrc (s.hallSel h)) = true :=
  ⟨run, .coxS, .east, 1, by
    repeat' first | decide +kernel | apply admits_of | refine And.intro ?_ ?_ | constructor | rfl⟩
theorem test_ClockSwitchesAct_1 : ∃ (s : State) (m : Master) (h : Half), s.Takes m (pgClk h) 0x48 ∧ s.rd (pgClk h) CLK_SW_STATUS ≠ 1 :=
  ⟨run, .coxS, .west, by
    repeat' first | decide +kernel | apply admits_of | refine And.intro ?_ ?_ | constructor | rfl⟩
theorem test_ClockSwitchesAct_2 : ∃ (s : State) (m : Master) (h : Half) (v : BitVec 2), s.Takes m (pgClk h) 0x48 ∧ s.rd (pgClk h) CLK_SW_STATUS ≠ 1 ∧ (s.pow h).svcPend = none ∧ (v = 0 ∨ v = 2) ∧ s.svcSel h ≠ v.toNat ∧ s.srcReady h (svcSrc v.toNat) = true ∧ s.srcReady h (svcSrc (s.svcSel h)) = true :=
  ⟨run, .coxS, .east, 2, by
    repeat' first | decide +kernel | apply admits_of | refine And.intro ?_ ?_ | constructor | rfl⟩
theorem test_ClockSwitchesAct_3 : ∃ (s : State) (h : Half) (v : Nat) (b : Bool), (s.pow h).hallPend = some (v, b) ∧ (s.pow h).op = none :=
  ⟨{ run with power := { run.power with east := { run.power.east with hallPend := some (1, true) } } }, .east, 1, true, by and_intros <;> decide +kernel⟩
theorem test_ClockSwitchesAct_4 : ∃ (s : State) (h : Half) (v : Nat) (b : Bool), (s.pow h).svcPend = some (v, b) :=
  ⟨{ run with power := { run.power with east := { run.power.east with svcPend := some (2, false) } } }, .east, 2, false, by decide +kernel⟩
theorem test_ClockSwitchesAct_5 : ∃ (s : State) (c : Bool), s.cellar.tickPend = some c :=
  ⟨{ run with cellar := { (run).cellar with tickPend := some true } }, true, by decide +kernel⟩
theorem test_ClockSwitchesAct_6 : ∃ (s : State) (h : Half) (l : List (ClockSrc × Nat)), ((∀ e ∈ l, s.countBad h e.1 e.2 = false)) ∧ s.hallDead h = false :=
  ⟨run, .east, [], by
    repeat' first | decide +kernel | apply admits_of | refine And.intro ?_ ?_ | constructor | rfl⟩
theorem test_ClockSwitchesAct_7 : ∃ (s : State) (h : Half) (n : Nat), s.hallRuns h = true ∧ s.srcReady h .pllA = true ∧ s.countBad h .pllA n = true ∧ 0 < n ∧ s.hallSel h = 0 ∧ s.srcReady h .irc = true ∧ (s.pow h).op = none ∧ (s.pow h).hallPend = none :=
  ⟨run, .east, 1, by and_intros <;> decide +kernel⟩
theorem test_GatesAndCounterAct_0 : ∃ (s : State) (m : Master) (h : Half) (b : Gated), s.Admits m (pgClk h) 0x60 ∧ s.gateHere h b = true ∧ s.rd (pgClk h) (gateFld b) = 0 ∧ (b ≠ .fmc ∨ s.rd (pgFmc h) FMC_RESULT_BUSY = 0) :=
  ⟨run, .coxS, .east, .bst, by
    repeat' first | decide +kernel | apply admits_of | refine And.intro ?_ ?_ | constructor | rfl⟩
theorem test_GatesAndCounterAct_1 : ∃ (s : State) (m : Master) (h : Half), s.Admits m (pgClk h) 0x60 ∧ s.rd (pgClk h) CLK_GATE_FMC = 0 ∧ s.rd (pgFmc h) FMC_RESULT_BUSY = 1 :=
  ⟨run.wr (pgFmc .west) FMC_RESULT_BUSY 1, .coxS, .west, by
    repeat' first | decide +kernel | apply admits_of | refine And.intro ?_ ?_ | constructor | rfl⟩
theorem test_GatesAndCounterAct_2 : ∃ (s : State) (h : Half) (b : Gated), s.gateStage h b = some .engine ∧ s.engineBusy h b = false :=
  ⟨{ run with power := { run.power with east := { run.power.east with closing := [(.scr, .engine)] } } }, .east, .scr, by and_intros <;> decide +kernel⟩
theorem test_GatesAndCounterAct_3 : ∃ (s : State) (h : Half) (b : Gated), s.gateStage h b = some .port :=
  ⟨{ run with power := { run.power with east := { run.power.east with closing := [(.scr, .port)] } } }, .east, .scr, by decide +kernel⟩
theorem test_GatesAndCounterAct_4 : ∃ (s : State) (h : Half) (b : Gated) (off : BitVec 12), s.gateStage h b = some .port ∧ s.rd (gatePage h b) PG_ERR_VALID = 0 :=
  ⟨{ run with power := { run.power with east := { run.power.east with closing := [(.scr, .port)] } } }, .east, .scr, 0xFFF, by and_intros <;> decide +kernel⟩
theorem test_GatesAndCounterAct_5 : ∃ (s : State) (m : Master) (h : Half) (b : Gated), s.Admits m (pgClk h) 0x60 ∧ s.gateHere h b = true :=
  ⟨run, .coxS, .east, .att, by
    repeat' first | decide +kernel | apply admits_of | refine And.intro ?_ ?_ | constructor | rfl⟩
theorem test_GatesAndCounterAct_6 : ∃ (s : State) (m : Master) (h : Half), s.Takes m (pgFmc h) 0x44 ∧ s.rd (pgFmc h) FMC_RESULT_BUSY = 0 ∧ s.rd (pgClk h) CLK_GATE_FMC = 0 :=
  ⟨run, .coxS, .west, by
    repeat' first | decide +kernel | apply admits_of | refine And.intro ?_ ?_ | constructor | rfl⟩
theorem test_GatesAndCounterAct_7 : ∃ (s : State) (h : Half) (n : Nat), s.rd (pgFmc h) FMC_RESULT_BUSY = 1 ∧ s.rd (pgFmc h) FMC_CFG_MEAS_SRC ≠ s.rd (pgFmc h) FMC_CFG_REF_SRC :=
  ⟨run.wrs (pgFmc .east) [(FMC_RESULT_BUSY, 1), (FMC_CFG_MEAS_SRC, 1), (FMC_CFG_REF_SRC, 2)], .east, 5, by and_intros <;> decide +kernel⟩
theorem test_GatesAndCounterAct_8 : ∃ (s : State) (h : Half) (n : Nat), s.rd (pgFmc h) FMC_RESULT_BUSY = 1 :=
  ⟨run.wr (pgFmc .east) FMC_RESULT_BUSY 1, .east, 5, by decide +kernel⟩
theorem test_PowerAct_0 : ∃ (s : State) (m : Master) (h : Half) (v : BitVec 3), s.Takes m (pgPwr h) 0x40 ∧ s.rd (pgPwr h) PWR_OP_REQ_STATUS ≠ 1 ∧ s.seq.standby = .none ∧ v.toNat ≤ s.opCeiling h ∧ (s.pow h).op = none ∧ (s.opNow h ≠ v.toNat ∨ s.onIrc h = true) :=
  ⟨run, .coxS, .east, 7, by
    repeat' first | decide +kernel | apply admits_of | refine And.intro ?_ ?_ | constructor | rfl⟩
theorem test_PowerAct_1 : ∃ (s : State) (h : Half) (v : Nat), (s.pow h).op = none :=
  ⟨run, .east, 3, by decide +kernel⟩
theorem test_PowerAct_2 : ∃ (s : State) (m : Master) (h : Half) (v : BitVec 3), s.Takes m (pgPwr h) 0x40 ∧ s.rd (pgPwr h) PWR_OP_REQ_STATUS ≠ 1 ∧ s.seq.standby = .none ∧ s.opCeiling h < v.toNat :=
  ⟨{ run with power := { run.power with east := { run.power.east with gov := [.lowerOp] } } }, .coxS, .east, 7, by
    repeat' first | decide +kernel | apply admits_of | refine And.intro ?_ ?_ | constructor | rfl⟩
theorem test_PowerAct_3 : ∃ (s : State) (h : Half) (c : OpChange), (s.pow h).op = some c ∧ c.pllReady = false ∧ c.byGov = false :=
  ⟨{ run with power := { run.power with east := { run.power.east with op := some ⟨3, false, false, 0, false, false, false⟩ } } }, .east, ⟨3, false, false, 0, false, false, false⟩, by and_intros <;> decide +kernel⟩
theorem test_PowerAct_4 : ∃ (s : State) (h : Half) (c : OpChange), (s.pow h).op = some c ∧ (s.pow h).avs = [] ∧ c.voltDone = false ∧ c.raise = false ∧ c.switched = true ∧ c.byGov = false :=
  ⟨{ run with power := { run.power with east := { run.power.east with op := some ⟨3, false, false, 0, false, false, true⟩ } } }, .east, ⟨3, false, false, 0, false, false, true⟩, by and_intros <;> decide +kernel⟩
theorem test_PowerAct_5 : ∃ (s : State) (h : Half) (w : AvsWrite) (l : List AvsWrite) (k : Nat), (s.pow h).avs = w :: l ∧ k < 4 :=
  ⟨{ run with power := { run.power with east := { run.power.east with avs := [⟨0, 1500, true⟩] } } }, .east, ⟨0, 1500, true⟩, [], 3, by and_intros <;> decide +kernel⟩
theorem test_PowerAct_6 : ∃ (s : State) (h : Half) (w : AvsWrite) (l : List AvsWrite), (s.pow h).avs = w :: l ∧ w.forOp = false :=
  ⟨{ run with power := { run.power with east := { run.power.east with avs := [⟨1, 1500, false⟩] } } }, .east, ⟨1, 1500, false⟩, [], by and_intros <;> decide +kernel⟩
theorem test_PowerAct_7 : ∃ (s : State) (m : Master) (h : Half) (mv : BitVec 16), s.Admits m (pgPwr h) 0x48 :=
  ⟨run, .coxS, .west, 0xFFFF, by
    repeat' first | decide +kernel | apply admits_of | refine And.intro ?_ ?_ | constructor | rfl⟩
theorem test_PowerAct_8 : ∃ (s : State) (h : Half), railWaits (s.pow h).avs 1 = false ∧ (s.pow h).vfab2 < max (s.pow h).vgoal2 (s.vfabLeast h) ∧ s.anyBundled h = true :=
  ⟨{ up mRunG2 with power := { run.power with east := { run.power.east with vgoal2 := 1500, vfab2 := 1400 } }, fabric := [(planeFrame false 0 0 * 512 + 179 * 512 + 0x80, 1)], rooms := [(0, { (up mRunG2).room 0 with state := .g2 })] }, .east, by and_intros <;> decide +kernel⟩
theorem test_PowerAct_9 : ∃ (s : State) (h : Half) (w : BitVec 11) (c : Int) (l : List Nat), s.governs h = true ∧ s.hallRuns h = true ∧ l = (w.toNat :: (s.pow h).samples).take 10 :=
  ⟨run, .east, 300, 50, [300], by and_intros <;> decide +kernel⟩
theorem test_PowerAct_10 : ∃ (s : State) (h : Half), s.governs h = true ∧ s.hallRuns h = true ∧ (s.pow h).overCap = true ∧ ((∀ g ∈ s.governed h, s.govCount g .holdSlices = 0)) :=
  ⟨{ run with power := { run.power with east := { run.power.east with overCap := true } } }, .east, by
    refine ⟨?_, ?_, ?_, ?_⟩ <;> decide +kernel⟩
theorem test_PowerAct_11 : ∃ (s : State) (h : Half), s.governs h = true ∧ s.hallRuns h = true ∧ (s.pow h).overCap = true ∧ ((∀ a ∈ govOrder, ∃ g ∈ s.governed h, s.govFree g a = false)) :=
  ⟨({ run with power := { run.power with east := { run.power.east with overCap := true, gov := [.holdSlices, .slowScrub, .paceSwaps], vgoal2 := 1200 } } }).wr (pgClk .east) CLK_SRC_STAT_HALL_SEL 2, .east, by decide +kernel⟩
theorem test_PowerAct_12 : ∃ (s : State) (h : Half) (a : GovAct) (l : List GovAct), s.governs h = true ∧ s.hallRuns h = true ∧ (s.pow h).overCap = false ∧ s.rd (pgPwr h) PWR_GOV_STAT_POWER_W + s.rd (pgPwr h) PWR_CAP_HYST_W ≤ s.capW h ∧ s.governed h = [h] ∧ (s.pow h).gov = a :: l ∧ (a = .holdSlices ∨ a = .slowScrub ∨ a = .paceSwaps) :=
  ⟨({ run with power := { run.power with east := { run.power.east with gov := [.paceSwaps] } } }).wr (pgSys .east) SYS_ROLE_LEASE_OK 0, .east, .paceSwaps, [], by and_intros <;> decide +kernel⟩
theorem test_UnfreezeAndLifeCycleAct_0 : ∃ (s : State) (m : Master) (id : BitVec 16), s.Takes m pgSec 0x64 ∧ idOk id.toNat = true ∧ s.frozenCrew id.toNat = true ∧ (idHalf id.toNat = s.leader ∨ s.cut s.leader = false) :=
  ⟨{ run with security := { (run).security with crews := [0x123] } }, .coxS, 0x123, by
    repeat' first | decide +kernel | apply admits_of | refine And.intro ?_ ?_ | constructor | rfl⟩
theorem test_UnfreezeAndLifeCycleAct_1 : ∃ (s : State) (m : Master) (id : BitVec 16), s.Takes m pgSec 0x64 ∧ id.toNat ≤ 0x3FF ∧ id.toNat ∉ s.security.peers :=
  ⟨run, .coxS, 0x3FF, by
    repeat' first | decide +kernel | apply admits_of | refine And.intro ?_ ?_ | constructor | rfl⟩
theorem test_UnfreezeAndLifeCycleAct_2 : ∃ (s : State) (m : Master) (k : BitVec 3) (id : BitVec 16), s.Takes m pgSec 0x64 ∧ 3 < k.toNat :=
  ⟨run, .coxS, 4, 0, by
    repeat' first | decide +kernel | apply admits_of | refine And.intro ?_ ?_ | constructor | rfl⟩
theorem test_UnfreezeAndLifeCycleAct_3 : ∃ (s : State) (m : Master), s.Takes m pgLcs 0x44 ∧ s.rd pgLcs LCS_REQ_STATUS ≠ 1 ∧ s.lifeCycle = lcDev ∧ s.rd pgLcs LCS_STATE_PENDING = lcDev :=
  ⟨run.wrs pgLcs [(LCS_STATE_STATE, 2), (LCS_STATE_PENDING, 2)], .coxS, by
    repeat' first | decide +kernel | apply admits_of | refine And.intro ?_ ?_ | constructor | rfl⟩
theorem test_UnfreezeAndLifeCycleAct_4 : ∃ (s : State) (m : Master), s.Takes m pgLcs 0x44 ∧ s.rd pgLcs LCS_REQ_STATUS ≠ 1 ∧ s.rd pgLcs LCS_STATE_PENDING = s.lifeCycle ∧ lcsAllowed s.lifeCycle lcEnd = true :=
  ⟨run.wrs pgLcs [(LCS_STATE_STATE, 1), (LCS_STATE_PENDING, 1)], .coxS, by
    repeat' first | decide +kernel | apply admits_of | refine And.intro ?_ ?_ | constructor | rfl⟩
theorem test_UnfreezeAndLifeCycleAct_5 : ∃ (s : State) (m : Master), s.Takes m pgLcs 0x44 ∧ s.rd pgLcs LCS_REQ_STATUS ≠ 1 ∧ s.rd pgLcs LCS_STATE_PENDING = s.lifeCycle ∧ lcsAllowed s.lifeCycle lcRma = true :=
  ⟨run.wrs pgLcs [(LCS_STATE_STATE, 3), (LCS_STATE_PENDING, 3)], .coxS, by
    repeat' first | decide +kernel | apply admits_of | refine And.intro ?_ ?_ | constructor | rfl⟩
theorem test_UnfreezeAndLifeCycleAct_6 : ∃ (s : State) (m : Master) (v : BitVec 4), s.Takes m pgLcs 0x44 ∧ s.rd pgLcs LCS_REQ_STATUS ≠ 1 ∧ s.rd pgLcs LCS_STATE_PENDING = s.lifeCycle ∧ lcsAllowed s.lifeCycle v.toNat = false :=
  ⟨run.wrs pgLcs [(LCS_STATE_STATE, 5), (LCS_STATE_PENDING, 5)], .coxS, 5, by
    repeat' first | decide +kernel | apply admits_of | refine And.intro ?_ ?_ | constructor | rfl⟩
theorem test_UnfreezeAndLifeCycleAct_7 : ∃ (s : State) (v : Nat), s.security.lcsBurn = some v :=
  ⟨{ run with security := { (run).security with lcsBurn := some 3 } }, 3, by decide +kernel⟩
theorem test_UnfreezeAndLifeCycleAct_8 : ∃ (s : State) (v : Nat), s.security.lcsBurn = some v :=
  ⟨{ run with security := { (run).security with lcsBurn := some 3 } }, 3, by decide +kernel⟩
theorem test_UnfreezeAndLifeCycleAct_9 : ∃ (s : State) (m : Master), s.Admits m pgLcs 0x4C ∧ (s.lifeCycle = lcDev ∨ s.lifeCycle = lcProd) :=
  ⟨run.wr pgLcs LCS_STATE_STATE 3, .coxS, by
    repeat' first | decide +kernel | apply admits_of | refine And.intro ?_ ?_ | constructor | rfl⟩
theorem test_UnfreezeAndLifeCycleAct_10 : ∃ (s : State) (m : Master), s.Admits m pgLcs 0x4C ∧ s.lifeCycle = lcDev :=
  ⟨run.wr pgLcs LCS_STATE_STATE 2, .coxS, by
    repeat' first | decide +kernel | apply admits_of | refine And.intro ?_ ?_ | constructor | rfl⟩
theorem test_KeysAndTapAct_0 : ∃ (s : State) (m : Master) (i : BitVec 2), s.Takes m pgSec 0xA0 ∧ s.rd pgSec SEC_KEY_CTRL_STATUS ≠ 1 ∧ i.toNat < 2 ∧ (s.lifeCycle = lcDev ∨ s.lifeCycle = lcProd) :=
  ⟨run.wr pgLcs LCS_STATE_STATE 2, .coxS, 1, by
    repeat' first | decide +kernel | apply admits_of | refine And.intro ?_ ?_ | constructor | rfl⟩
theorem test_KeysAndTapAct_1 : ∃ (s : State) (m : Master) (i : BitVec 2) (g : Bool), s.Takes m pgSec 0xA0 ∧ s.rd pgSec SEC_KEY_CTRL_STATUS ≠ 1 ∧ s.lifeCycle = lcDev ∧ (s.slot i.toNat).state = .empty :=
  ⟨run.wr pgLcs LCS_STATE_STATE 2, .coxS, 3, true, by
    repeat' first | decide +kernel | apply admits_of | refine And.intro ?_ ?_ | constructor | rfl⟩
theorem test_KeysAndTapAct_2 : ∃ (s : State) (m : Master) (i : BitVec 2), s.Takes m pgSec 0xA0 ∧ s.rd pgSec SEC_KEY_CTRL_STATUS ≠ 1 ∧ i.toNat < 2 :=
  ⟨run, .coxS, 1, by
    repeat' first | decide +kernel | apply admits_of | refine And.intro ?_ ?_ | constructor | rfl⟩
theorem test_KeysAndTapAct_3 : ∃ (s : State) (m : Master) (i : BitVec 2), s.Takes m pgSec 0xA0 ∧ s.rd pgSec SEC_KEY_CTRL_STATUS ≠ 1 :=
  ⟨run, .coxS, 3, by
    repeat' first | decide +kernel | apply admits_of | refine And.intro ?_ ?_ | constructor | rfl⟩
theorem test_KeysAndTapAct_4 : ∃ (s : State) (m : Master) (v : Bool) (i : BitVec 2), s.Takes m pgSec 0xA0 ∧ s.rd pgSec SEC_KEY_CTRL_STATUS ≠ 1 ∧ (v = false ∨ i.toNat < 2) ∧ (s.slot (keySlot v i.toNat)).state = .valid :=
  ⟨{ run with security := { (run).security with keys := [⟨.empty, 0⟩, ⟨.valid, 5⟩, ⟨.empty, 0⟩, ⟨.empty, 0⟩, ⟨.empty, 0⟩, ⟨.empty, 0⟩] } }, .coxS, false, 1, by
    repeat' first | decide +kernel | apply admits_of | refine And.intro ?_ ?_ | constructor | rfl⟩
theorem test_KeysAndTapAct_5 : ∃ (s : State) (i : Nat) (k : BitVec 256), s.security.burning = some ⟨i, some k⟩ :=
  ⟨{ run with security := { (run).security with burning := some ⟨3, some 7⟩ } }, 3, 7, by decide +kernel⟩
theorem test_KeysAndTapAct_6 : ∃ (s : State) (i : Nat) (k b : BitVec 256), s.security.burning = some ⟨i, some k⟩ :=
  ⟨{ run with security := { (run).security with burning := some ⟨3, some 7⟩ } }, 3, 7, 8, by decide +kernel⟩
theorem test_KeysAndTapAct_7 : ∃ (s : State) (a b c d e f : KeySlot), s.security.keys = [a, b, c, d, e, f] ∧ e.state = .valid ∧ f.state = .empty :=
  ⟨{ run with security := { (run).security with keys := [⟨.empty, 0⟩, ⟨.empty, 5⟩, ⟨.empty, 0⟩, ⟨.empty, 0⟩, ⟨.valid, 9⟩, ⟨.empty, 0⟩] } }, _, _, _, _, _, _, by
    repeat' first | decide +kernel | apply admits_of | refine And.intro ?_ ?_ | constructor | rfl⟩
theorem test_KeysAndTapAct_11 : ∃ s : State, s.tapOpen = true :=
  ⟨(up mHalt).wr pgLcs LCS_STATE_STATE 2, by decide +kernel⟩
theorem test_KeysAndTapAct_12 : ∃ s : State, s.tapOpen = false ∧ s.devMode ≠ mOff ∧ s.devMode ≠ mCellar :=
  ⟨run, by and_intros <;> decide +kernel⟩
theorem test_CrossingsAct_0 : ∃ (s : State) (h : Half) (k : BitVec 4) (i : Byte), crossOk h k.toNat i.toNat = true ∧ crossPulse k.toNat = true ∧ (s.crossing h k.toNat i.toNat).isOpen = false ∧ (s.crossing h k.toNat i.toNat).notReady = false :=
  ⟨run, .east, 4, 15, by and_intros <;> decide +kernel⟩
theorem test_CrossingsAct_1 : ∃ (s : State) (h : Half) (k : BitVec 4) (i : Byte), crossOk h k.toNat i.toNat = true ∧ crossPulse k.toNat = true ∧ ((s.crossing h k.toNat i.toNat).isOpen = true ∨ (s.crossing h k.toNat i.toNat).notReady = true) ∧ (s.crossing h k.toNat i.toNat).pending < 15 :=
  ⟨run.setCross .east 4 3 { Cross.fresh with isOpen := true, pending := 14 }, .east, 4, 3, by and_intros <;> decide +kernel⟩
theorem test_CrossingsAct_2 : ∃ (s : State) (h : Half) (k : BitVec 4) (i : Byte), crossOk h k.toNat i.toNat = true ∧ crossPulse k.toNat = true ∧ ((s.crossing h k.toNat i.toNat).isOpen = true ∨ (s.crossing h k.toNat i.toNat).notReady = true) ∧ (s.crossing h k.toNat i.toNat).pending = 15 ∧ s.rd (crossPage h k.toNat i.toNat) PG_ERR_VALID = 0 :=
  ⟨run.setCross .east 4 3 { Cross.fresh with notReady := true, pending := 15 }, .east, 4, 3, by and_intros <;> decide +kernel⟩
theorem test_CrossingsAct_3 : ∃ (s : State) (h : Half) (k : BitVec 4) (i : Byte), crossOk h k.toNat i.toNat = true ∧ (s.crossing h k.toNat i.toNat).isOpen = true :=
  ⟨run.setCross .east 4 3 { Cross.fresh with isOpen := true }, .east, 4, 3, by and_intros <;> decide +kernel⟩
theorem test_CrossingsAct_4 : ∃ (s : State) (h : Half) (k : BitVec 4) (i : Byte) (n : BitVec 4), crossOk h k.toNat i.toNat = true ∧ (s.crossing h k.toNat i.toNat).notReady = false :=
  ⟨run, .west, 1, 11, 15, by and_intros <;> decide +kernel⟩
theorem test_CrossingsAct_5 : ∃ (s : State) (h : Half) (k : BitVec 4) (i : Byte), crossOk h k.toNat i.toNat = true ∧ (s.crossing h k.toNat i.toNat).notReady = true :=
  ⟨run.setCross .east 4 3 { Cross.fresh with notReady := true }, .east, 4, 3, by and_intros <;> decide +kernel⟩
theorem test_PagesAct_0 : ∃ (s : State) (m : Master) (p : BitVec 9), s.Admits m p.toNat 0x08 ∧ s.on p.toNat PG_CTRL_FREEZE = false ∧ pageKind p.toNat ≠ .cwn ∧ pageKind p.toNat ≠ .hwn :=
  ⟨run, .coxS, 18, by
    repeat' first | decide +kernel | apply admits_of | refine And.intro ?_ ?_ | constructor | rfl⟩
theorem test_PagesAct_1 : ∃ (s : State) (m : Master) (p : BitVec 9), s.Admits m p.toNat 0x08 :=
  ⟨run.wr 18 PG_CTRL_FREEZE 1, .coxS, 18, by
    repeat' first | decide +kernel | apply admits_of | refine And.intro ?_ ?_ | constructor | rfl⟩
theorem test_PagesAct_2 : ∃ (s : State) (m : Master) (p : BitVec 9) (v : Word) (b : Nat), s.Admits m p.toNat 0x18 ∧ s.rd pgLcs LCS_STATE_STATE ∈ [0, 1, 2, 4] ∧ b < 32 ∧ (v.toNat &&& irqMask (pageKind p.toNat)).testBit b = true :=
  ⟨run.wr pgLcs LCS_STATE_STATE 2, .coxS, 18, 4, 2, by
    repeat' first | decide +kernel | apply admits_of | refine And.intro ?_ ?_ | constructor | rfl⟩
theorem test_PagesAct_3 : ∃ (s : State) (m : Master) (p : BitVec 9) (v : Word), s.Admits m p.toNat 0x18 ∧ s.rd pgLcs LCS_STATE_STATE ∉ [0, 1, 2, 4] :=
  ⟨run.wr pgLcs LCS_STATE_STATE 5, .coxS, 0, 4, by
    repeat' first | decide +kernel | apply admits_of | refine And.intro ?_ ?_ | constructor | rfl⟩
theorem test_PagesAct_4 : ∃ (s : State) (m : Master) (p : BitVec 9) (v : Word), s.Admits m p.toNat 0x14 :=
  ⟨run, .coxS, 18, 7, by
    repeat' first | decide +kernel | apply admits_of | refine And.intro ?_ ?_ | constructor | rfl⟩
theorem test_PagesAct_5 : ∃ (s : State) (m : Master) (p : BitVec 9) (v : Word), s.Admits m p.toNat 0x10 ∧ p.toNat ≠ pgPint .east :=
  ⟨run, .coxS, 18, 7, by
    repeat' first | decide +kernel | apply admits_of | refine And.intro ?_ ?_ | constructor | rfl⟩
theorem test_PagesAct_6 : ∃ (s : State) (m : Master) (p : BitVec 9), s.Admits m p.toNat 0x20 ∧ s.rd p.toNat PG_ERR_CODE ≠ 3 :=
  ⟨run.wrs 18 [(PG_ERR_VALID, 1), (PG_ERR_CODE, 2)], .coxS, 18, by
    repeat' first | decide +kernel | apply admits_of | refine And.intro ?_ ?_ | constructor | rfl⟩
theorem test_PagesAct_7 : ∃ (s : State) (m : Master) (p : BitVec 9) (w : Bool), s.Admits m p.toNat 0x1C ∧ worldFixed p.toNat = none ∧ s.masterWorld m = true ∧ s.on p.toNat PG_WORLD_LOCK = false :=
  ⟨run, .coxS, 18, true, by
    repeat' first | decide +kernel | apply admits_of | refine And.intro ?_ ?_ | constructor | rfl⟩
theorem test_PagesAct_8 : ∃ (s : State) (m : Master) (p : BitVec 9), s.Admits m p.toNat 0x1C ∧ worldFixed p.toNat = none ∧ s.masterWorld m = true :=
  ⟨run.wr 18 PG_WORLD_LOCK 1, .coxS, 18, by
    repeat' first | decide +kernel | apply admits_of | refine And.intro ?_ ?_ | constructor | rfl⟩
theorem test_PagesAct_9 : ∃ (s : State) (m : Master) (p n : BitVec 9), s.Admits m p.toNat 0x40 ∧ isMbx p.toNat = true ∧ s.rd p.toNat MBX_MB_STAT_BUSY = 0 ∧ 1 ≤ n.toNat ∧ n.toNat ≤ 256 ∧ (s.cox.get (s.serves p.toNat)).op = none :=
  ⟨run, .coxS, 55, 256, by
    repeat' first | decide +kernel | apply admits_of | refine And.intro ?_ ?_ | constructor | rfl⟩
theorem test_PagesAct_10 : ∃ (s : State) (m : Master) (p n : BitVec 9), s.Admits m p.toNat 0x40 ∧ isMbx p.toNat = true ∧ s.rd p.toNat MBX_MB_STAT_BUSY = 0 ∧ (n = 0 ∨ 256 < n.toNat) :=
  ⟨run, .coxS, 55, 257, by
    repeat' first | decide +kernel | apply admits_of | refine And.intro ?_ ?_ | constructor | rfl⟩
theorem test_PagesAct_11 : ∃ (s : State) (p : BitVec 9) (l : List Word), isMbx p.toNat = true ∧ s.rd p.toNat MBX_MB_STAT_BUSY = 1 ∧ (s.cox.get (s.serves p.toNat)).op = none ∧ l.length ≤ 256 :=
  ⟨run.wr 55 MBX_MB_STAT_BUSY 1, 55, [1, 2], by and_intros <;> decide +kernel⟩
theorem test_RegisterWritesAct_0 : ∃ (s : State) (m : Master) (off : Nat) (v : Word) (r : RegRow), s.Admits m (off / 0x1000) (off % 0x1000) ∧ pageKind (off / 0x1000) ∈ plainKinds ∧ 0x40 ≤ off % 0x1000 ∧ v.getLsbD 31 = false ∧ regAt (off / 0x1000) (off % 0x1000) = some r :=
  ⟨run, .coxS, 0x12040, 1, _, by
    repeat' first | decide +kernel | apply admits_of | refine And.intro ?_ ?_ | constructor | rfl⟩
theorem test_RegisterWritesAct_1 : ∃ (s : State) (m : Master) (off : Nat) (v : Word) (r : RegRow), s.Admits m (off / 0x1000) (off % 0x1000) ∧ pageKind (off / 0x1000) = .mem ∧ 0x40 ≤ off % 0x1000 ∧ v.getLsbD 31 = false ∧ regAt (off / 0x1000) (off % 0x1000) = some r :=
  ⟨run, .coxS, pgMem 3 * 0x1000 + 0x40, 5, _, by
    repeat' first | decide +kernel | apply admits_of | refine And.intro ?_ ?_ | constructor | rfl⟩
theorem test_RegisterWritesAct_3 : ∃ (s : State) (n : BitVec 8) (o : BitVec 12) (v : Word) (r : RegRow), s.VfServed n.toNat ∧ o.toNat ∉ [0x000, 0x008, 0x00C, 0x304] ∧ v.getLsbD 31 = false ∧ regAt (pgVf n.toNat) o.toNat = some r :=
  ⟨{ run with host := { run.host with vfs := 255 } }, 255, 0x044, 5, _, by
    repeat' first | decide +kernel | apply admits_of | refine And.intro ?_ ?_ | constructor | rfl⟩
theorem test_RegisterWritesAct_4 : ∃ (s : State) (m : Master) (p : BitVec 9), s.Admits m p.toNat 0x08 ∧ (pageKind p.toNat = .fmc ∨ pageKind p.toNat = .scr) :=
  ⟨run, .coxS, 16, by
    repeat' first | decide +kernel | apply admits_of | refine And.intro ?_ ?_ | constructor | rfl⟩
theorem test_RegisterWritesAct_5 : ∃ (s : State) (m : Master) (p : BitVec 9), s.Admits m p.toNat 0x08 ∧ pageKind p.toNat ∈ [.cel, .sys, .sec, .lcs] :=
  ⟨run, .coxS, 3, by
    repeat' first | decide +kernel | apply admits_of | refine And.intro ?_ ?_ | constructor | rfl⟩
theorem test_PinsAct_0 : ∃ (s : State) (m : Master) (n : BitVec 6) (f : BitVec 4), s.Admits m (pgPmx .east) (0x40 + 4 * (n.toNat / 8)) ∧ s.pinFunc n.toNat ≠ f.toNat :=
  ⟨run, .coxS, 63, 1, by
    repeat' first | decide +kernel | apply admits_of | refine And.intro ?_ ?_ | constructor | rfl⟩
theorem test_PinsAct_2 : ∃ (s : State) (m : Master) (q : BitVec 2) (v : BitVec 16), s.Admits m (pgPin .east) (0x40 + 0x10 * q.toNat) :=
  ⟨run, .coxS, 3, 0xFFFF, by
    repeat' first | decide +kernel | apply admits_of | refine And.intro ?_ ?_ | constructor | rfl⟩
theorem test_PinsAct_3 : ∃ (s : State) (m : Master) (q : BitVec 2) (v : BitVec 16), s.Admits m (pgPin .east) (0x44 + 0x10 * q.toNat) :=
  ⟨run, .coxS, 3, 0xFFFF, by
    repeat' first | decide +kernel | apply admits_of | refine And.intro ?_ ?_ | constructor | rfl⟩
theorem test_PinsAct_4 : ∃ (s : State) (m : Master) (q : BitVec 2) (v : BitVec 16), s.Admits m (pgPin .east) (0x48 + 0x10 * q.toNat) :=
  ⟨run, .coxS, 0, 0xFFFF, by
    repeat' first | decide +kernel | apply admits_of | refine And.intro ?_ ?_ | constructor | rfl⟩
theorem test_PinsAct_5 : ∃ (s : State) (m : Master) (q : BitVec 2) (v : BitVec 16), s.Admits m (pgPin .east) (0x4C + 0x10 * q.toNat) :=
  ⟨run, .coxS, 0, 0xFFFF, by
    repeat' first | decide +kernel | apply admits_of | refine And.intro ?_ ?_ | constructor | rfl⟩
theorem test_PinsAct_6 : ∃ (s : State) (m : Master) (q : BitVec 2) (v w : BitVec 16), s.Admits m (pgPin .east) (0x44 + 0x10 * q.toNat) ∧ s.coxPort = true :=
  ⟨run, .coxS, 0, 1, 2, by
    repeat' first | decide +kernel | apply admits_of | refine And.intro ?_ ?_ | constructor | rfl⟩
theorem test_PinsAct_8 : ∃ (s : State) (q : BitVec 2) (v : BitVec 16), s.coxPort = true :=
  ⟨run, 3, 0xFFFF, by decide +kernel⟩
theorem test_PinsAct_9 : ∃ (s : State) (h : Half) (q : BitVec 2) (k v o : BitVec 16), s.doorwayTakes h = true ∧ o = BitVec.ofNat 16 (s.rd (pgPin .east) (PIN_OUT_DATA.at 0x10 q.toNat)) :=
  ⟨{ run with doorway := { run.doorway with east := { run.doorway.east with edge := some (0, 0) } }, rooms := [(0, { run.room 0 with state := .occupied, crew := 0x123 })] }, .east, 3, 1, 1, _, by
    repeat' first | decide +kernel | apply admits_of | refine And.intro ?_ ?_ | constructor | rfl⟩
theorem test_PinsAct_10 : ∃ (s : State) (n : BitVec 6) (b : Bool), s.pins.levels.testBit n.toNat ≠ b ∧ n ≠ 35 ∧ n.toNat ∈ s.pins.windows :=
  ⟨{ run with pins := { run.pins with windows := [5] } }, 5, true, by and_intros <;> decide +kernel⟩
theorem test_PinsAct_11 : ∃ (s : State) (n : BitVec 6) (b : Bool) (l : Nat), s.pins.levels.testBit n.toNat ≠ b ∧ n ≠ 35 ∧ n.toNat ∉ s.pins.windows ∧ mStandby ≤ s.devMode ∧ s.seq.standby = .none ∧ s.linesFor n.toNat b = [l] ∧ (s.crossing .east xkLine l).isOpen = false ∧ (s.crossing .east xkLine l).notReady = false :=
  ⟨run.wrs (pgPint .east) [(PINT_CFG_PORT.at 4 5, 0), (PINT_CFG_MODE.at 4 5, 1)], 5, true, 5, by and_intros <;> decide +kernel⟩
theorem test_PinsAct_12 : ∃ (s : State) (h : Half) (j : BitVec 4) (v : BitVec 16) (i : List Byte) (a : BitVec 16), j.toNat < 12 ∧ s.porchClocked (j.toNat + 12 * halfBit h) = true ∧ (s.porch (j.toNat + 12 * halfBit h)).edge = none :=
  ⟨run.wr (pgClk .west) (CLK_PPLL_READY.at 4 11) 1, .west, 11, 0, [], 0, by and_intros <;> decide +kernel⟩
theorem test_PinsAct_13 : ∃ (s : State) (h : Half) (j : BitVec 4) (v : BitVec 16) (i : List Byte) (a : BitVec 16) (r e : Nat), j.toNat < 12 ∧ s.porchLive (j.toNat + 12 * halfBit h) xkPorchOut = true ∧ s.porchLive (j.toNat + 12 * halfBit h) xkPorchIn = true ∧ (s.porch (j.toNat + 12 * halfBit h)).edge = some (r, e) ∧ ((∀ n, s.doorToken r (32 * e + 16 + n) = none)) ∧ j.toNat + 12 * halfBit h ∉ s.straps.unpowered ∧ s.porchRd (j.toNat + 12 * halfBit h) PIN_PDIR_OUT = 0 ∧ s.porchRd (j.toNat + 12 * halfBit h) PIN_PORCH_GEAR = 3 :=
  ⟨{ (run.wr (pgClk .east) (CLK_PPLL_READY.at 4 3) 1).wr (pgPin .east) (PIN_PORCH_GEAR.at 4 3) 3 with porches := [(3, { Porch.fresh with claimed := true, edge := some (0, 0) })], pins := { run.pins with ioDone := true } }, .east, 3, 0, [0], 1, 0, 0, by
    refine ⟨?_, ?_, ?_, ?_, fun n => by
      simp only [State.doorToken, State.live]
      exact (congrArg (fun bs => if (byteAt bs 1).getLsbD 0 then some (byteAt bs 0) else none) (bytes_empty _ 2)).trans rfl, ?_, ?_, ?_⟩ <;> decide +kernel⟩
theorem test_PinsAct_14 : ∃ (s : State) (c : Byte) (pec : Bool), s.devMode ≠ mOff :=
  ⟨up mCellar, 4, true, by decide +kernel⟩
theorem test_PinsAct_15 : ∃ (s : State) (a : BitVec 7) (c : Byte) (pec : Bool), (s.devMode = mOff ∨ a.toNat ≠ s.smbusAddr) :=
  ⟨up mCellar, 5, 4, false, by decide +kernel⟩
theorem test_PinsAct_16 : ∃ (s : State) (w : BitVec 4) (n c : Nat) (x : Swap), s.seq.standby ≠ .entering ∧ s.swapAt w.toNat 3 = none ∧ s.swapAt w.toNat 4 = some x ∧ x.kind = .reconfig :=
  ⟨{ run with wings := [(3, { run.wing 3 with swap := some ⟨.reconfig, 4, [0x123], [0x300], none, [0x300], false, false, false, false⟩ })] }, 3, 0, 0, ⟨.reconfig, 4, [0x123], [0x300], none, [0x300], false, false, false, false⟩, by and_intros <;> decide +kernel⟩
theorem test_StewardCommandsAct_0 : ∃ (s : State) (p : Port) (c : Crew), s.PortFree .stw p ∧ noName p (s.stwId p) = false ∧ idOk (s.stwId p) = true ∧ portServes p (idHalf (s.stwId p)) = true ∧ s.crew (s.stwId p) = none ∧ ((∀ x, Tbl.find s.ids (s.stwId p) = some x → x.cooling = false)) ∧ c = Crew.ofWords (s.nextHeat (s.stwId p)) (portOwner p) (s.stwWindow p) ∧ c.isPinned = false ∧ c.porches = 0 ∧ c.start = false ∧ (c.world = false ∨ portOwner p = 0x101) ∧ (s.portStart .stw p).descOk (idHalf (s.stwId p)) (s.stwWindow p) c = true :=
  ⟨filled (run.wr (pgStw .east) STW_CMD_ARG_ID 0x123), ep, crew0, by
    repeat' first | decide +kernel | apply admits_of | refine And.intro ?_ ?_ | constructor | rfl⟩
theorem test_StewardCommandsAct_1 : ∃ (s : State) (p : Port) (id : Nat) (c : Crew), s.StwNames p id c :=
  ⟨with1 crew0, ep, 0x123, crew0, by
    repeat' first | decide +kernel | apply admits_of | refine And.intro ?_ ?_ | constructor | rfl⟩
theorem test_StewardCommandsAct_2 : ∃ (s : State) (p : Port) (id : Nat) (c n : Crew), s.StwNames p id c ∧ c.isPinned = false ∧ n = Crew.ofWords c.heat c.owner (s.stwWindow p) ∧ reshapes c n (s.stwWindow p) = false ∧ (s.portStart .stw p).descOk (idHalf id) (s.stwWindow p) n = true :=
  ⟨filled (with1 crew0), ep, 0x123, crew0, _, by
    repeat' first | decide +kernel | apply admits_of | refine And.intro ?_ ?_ | constructor | rfl⟩
theorem test_StewardCommandsAct_3 : ∃ (s : State) (p : Port) (id : Nat) (c : Crew), s.StwNames p id c ∧ c.state = .ready :=
  ⟨with1 { crew0 with state := .ready }, ep, 0x123, { crew0 with state := .ready }, by
    repeat' first | decide +kernel | apply admits_of | refine And.intro ?_ ?_ | constructor | rfl⟩
theorem test_StewardCommandsAct_4 : ∃ (s : State) (p : Port) (id : Nat) (c : Crew), s.StwNames p id c ∧ c.state = .ready :=
  ⟨with1 { crew0 with state := .ready }, ep, 0x123, { crew0 with state := .ready }, by
    repeat' first | decide +kernel | apply admits_of | refine And.intro ?_ ?_ | constructor | rfl⟩
theorem test_StewardCommandsAct_5 : ∃ (s : State) (p : Port) (id : Nat) (c : Crew), s.StwNames p id c ∧ c.isPinned = false ∧ (s.portStart .stw p).resumeOk id c = true ∧ s.frozenCrew id = false :=
  ⟨with1 { crew0 with state := .faulted, fault := 2 }, ep, 0x123, { crew0 with state := .faulted, fault := 2 }, by
    repeat' first | decide +kernel | apply admits_of | refine And.intro ?_ ?_ | constructor | rfl⟩
theorem test_StewardCommandsAct_6 : ∃ (s : State) (p : Port) (id : Nat) (c : Crew), s.StwNames p id c ∧ c.isPinned = false ∧ restartOk c = true ∧ s.frozenCrew id = false :=
  ⟨with1 crew0, ep, 0x123, crew0, by
    repeat' first | decide +kernel | apply admits_of | refine And.intro ?_ ?_ | constructor | rfl⟩
theorem test_StewardCommandsAct_7 : ∃ (s : State) (p : Port) (id : Nat) (c : Crew), s.StwNames p id c ∧ c.state = .pinned ∧ s.orphan (idHalf id) = false ∧ s.inPlace id c = false ∧ s.wingBusy (crewWing c) = false :=
  ⟨with1 { crew0 with state := .pinned, isPinned := true, suite := [0] }, ep, 0x123, { crew0 with state := .pinned, isPinned := true, suite := [0] }, by
    repeat' first | decide +kernel | apply admits_of | refine And.intro ?_ ?_ | constructor | rfl⟩
theorem test_StewardCommandsAct_8 : ∃ (s : State) (p : Port) (id : Nat) (c : Crew), s.StwNames p id c ∧ (c.state = .parked ∨ c.state = .ready) :=
  ⟨with1 crew0, ep, 0x123, crew0, by
    repeat' first | decide +kernel | apply admits_of | refine And.intro ?_ ?_ | constructor | rfl⟩
theorem test_StewardCommandsAct_9 : ∃ (s : State) (p : Port) (id : Nat) (c : Crew), s.StwNames p id c ∧ (c.state = .parked ∨ c.state = .ready) :=
  ⟨with1 { crew0 with state := .ready }, ep, 0x123, { crew0 with state := .ready }, by
    repeat' first | decide +kernel | apply admits_of | refine And.intro ?_ ?_ | constructor | rfl⟩
theorem test_StewardCommandsAct_10 : ∃ (s : State) (p : Port) (o : BitVec 4), s.PortFree .stw p ∧ (o = 0 ∨ 11 ≤ o.toNat) :=
  ⟨run, ep, 15, by
    repeat' first | decide +kernel | apply admits_of | refine And.intro ?_ ?_ | constructor | rfl⟩
theorem test_StewardCommandsAct_11 : ∃ (s : State) (p : Port), s.PortFree .stw p ∧ s.crew (s.stwId p) = none :=
  ⟨run.wr (pgStw .east) STW_CMD_ARG_ID 0x123, ep, by
    repeat' first | decide +kernel | apply admits_of | refine And.intro ?_ ?_ | constructor | rfl⟩
theorem test_DoorbellsAndRoomsAct_0 : ∃ (s : State) (fn : BitVec 8) (id : BitVec 16) (h : BitVec 4) (c : Crew), s.BellNames fn.toNat id.toNat h.toNat c ∧ c.state = .ready :=
  ⟨{ with1 { crew0 with owner := 0, state := .ready } with host := run.host }, 0, 0x123, 1, { crew0 with owner := 0, state := .ready }, by
    repeat' first | decide +kernel | apply admits_of | refine And.intro ?_ ?_ | constructor | rfl⟩
theorem test_DoorbellsAndRoomsAct_1 : ∃ (s : State) (fn : BitVec 8) (id : BitVec 16) (h : BitVec 4) (c : Crew), s.BellNames fn.toNat id.toNat h.toNat c ∧ (c.state = .parked ∨ c.state = .ready) :=
  ⟨{ with1 { crew0 with owner := 0, state := .parked } with host := run.host }, 0, 0x123, 1, { crew0 with owner := 0, state := .parked }, by
    repeat' first | decide +kernel | apply admits_of | refine And.intro ?_ ?_ | constructor | rfl⟩
theorem test_DoorbellsAndRoomsAct_2 : ∃ (s : State) (fn : BitVec 8) (id : BitVec 16) (h : BitVec 4) (c : Crew), s.BellNames fn.toNat id.toNat h.toNat c ∧ c.state = .ready :=
  ⟨{ with1 { crew0 with owner := 0, state := .ready } with host := run.host }, 0, 0x123, 1, { crew0 with owner := 0, state := .ready }, by
    repeat' first | decide +kernel | apply admits_of | refine And.intro ?_ ?_ | constructor | rfl⟩
theorem test_DoorbellsAndRoomsAct_3 : ∃ (s : State) (fn : BitVec 8) (id : BitVec 16) (h o : BitVec 4) (c : Crew), s.BellNames fn.toNat id.toNat h.toNat c ∧ o ≠ 1 ∧ o ≠ 2 ∧ o ≠ 3 :=
  ⟨with1 { crew0 with owner := 0 }, 0, 0x123, 1, 15, _, by
    repeat' first | decide +kernel | apply admits_of | refine And.intro ?_ ?_ | constructor | rfl⟩
theorem test_DoorbellsAndRoomsAct_4 : ∃ (s : State) (m : Master) (h : Half) (r : BitVec 12), s.Takes m (pgStw h) 0x404 ∧ s.rd (pgStw h) STW_ROOM_RETIRE_STATUS ≠ 1 ∧ roomHalf r.toNat = h ∧ r.toNat % 256 < 192 ∧ (s.room r.toNat).state = .free :=
  ⟨run, .coxS, .west, 0xFBF, by
    repeat' first | decide +kernel | apply admits_of | refine And.intro ?_ ?_ | constructor | rfl⟩
theorem test_DoorbellsAndRoomsAct_5 : ∃ (s : State) (m : Master) (h : Half) (r : BitVec 12), s.Takes m (pgStw h) 0x404 ∧ s.rd (pgStw h) STW_ROOM_RETIRE_STATUS ≠ 1 ∧ (roomHalf r.toNat ≠ h ∨ 192 ≤ r.toNat % 256) :=
  ⟨run, .coxS, .east, 0x0C0, by
    repeat' first | decide +kernel | apply admits_of | refine And.intro ?_ ?_ | constructor | rfl⟩
theorem test_DoorbellsAndRoomsAct_6 : ∃ (s : State) (m : Master) (w : BitVec 4), s.Admits m (pgWng w.toNat) 0x100 :=
  ⟨run, .coxS, 15, by
    repeat' first | decide +kernel | apply admits_of | refine And.intro ?_ ?_ | constructor | rfl⟩
theorem test_DoorbellsAndRoomsAct_7 : ∃ (s : State) (m : Master) (w : BitVec 4) (v : Word), s.Admits m (pgWng w.toNat) 0x300 ∧ (w ≠ 0 ∨ s.g2Mode = false) :=
  ⟨up mRunG2, .coxS, 1, 3, by
    repeat' first | decide +kernel | apply admits_of | refine And.intro ?_ ?_ | constructor | rfl⟩
theorem test_AllocatorCommandsAct_0 : ∃ (s : State) (h : Half) (m : Master) (f : Nat) (u : State), s.PortFree .pgt (.page h m) ∧ s.pgtReserved (.page h m) 1 = false ∧ ((s.pgtArg (.page h m) false).testBit 0 = false ∨ s.ownerWorld (ownerOf m) = true) ∧ (s.pgtArg (.page h m) false / 2 % 4 ≠ 3 ∨ s.orphan .east = false ∧ s.orphan .west = false) ∧ (s.portStart .pgt (.page h m)).takeFrom ((s.portStart .pgt (.page h m)).takeStack h (s.pgtArg (.page h m) false / 2 % 4) ((s.pgtArg (.page h m) false).testBit 0)) ((s.pgtArg (.page h m) false).testBit 0) = some (f, u) := by
  have h : ((State.portStart ((run).wrs (pgPgt .east) [(PGT_ARG0_ARG, 2), (PGT_ARG1_ARG, 0)]) .pgt (.page .east .coxS)).takeFrom ((State.portStart ((run).wrs (pgPgt .east) [(PGT_ARG0_ARG, 2), (PGT_ARG1_ARG, 0)]) .pgt (.page .east .coxS)).takeStack .east (State.pgtArg ((run).wrs (pgPgt .east) [(PGT_ARG0_ARG, 2), (PGT_ARG1_ARG, 0)]) (.page .east .coxS) false / 2 % 4) ((State.pgtArg ((run).wrs (pgPgt .east) [(PGT_ARG0_ARG, 2), (PGT_ARG1_ARG, 0)]) (.page .east .coxS) false).testBit 0)) ((State.pgtArg ((run).wrs (pgPgt .east) [(PGT_ARG0_ARG, 2), (PGT_ARG1_ARG, 0)]) (.page .east .coxS) false).testBit 0)).isSome = true := by decide +kernel
  obtain ⟨⟨f, u⟩, e⟩ := Option.isSome_iff_exists.mp h
  refine ⟨(run).wrs (pgPgt .east) [(PGT_ARG0_ARG, 2), (PGT_ARG1_ARG, 0)], .east, .coxS, f, u, ?_⟩
  refine ⟨?_, ?_, ?_, ?_, e⟩
  · exact ⟨⟨admits_of (by decide +kernel), by decide +kernel⟩, by decide +kernel⟩
  all_goals decide +kernel
theorem test_AllocatorCommandsAct_1 : ∃ (s : State) (h : Half) (m : Master) (f : Nat), s.PortFree .pgt (.page h m) ∧ s.pgtArg (.page h m) false = f ∧ (s.portStart .pgt (.page h m)).inPool h f = true ∧ s.pgtReserved (.page h m) 2 = false ∧ s.ownerWorld (ownerOf m) = true ∧ Tbl.find s.frames f = some .taken :=
  ⟨{ (run).wrs (pgPgt .east) [(PGT_ARG0_ARG, 0x2000), (PGT_ARG1_ARG, 0)] with frames := [(0x2000, .taken)] }, .east, .coxS, 0x2000, by
    repeat' first | decide +kernel | apply admits_of | refine And.intro ?_ ?_ | constructor | rfl⟩
theorem test_AllocatorCommandsAct_2 : ∃ (s : State) (h : Half) (m : Master) (g : Nat) (u : State), s.PortFree .pgt (.page h m) ∧ s.pgtReserved (.page h m) 3 = false ∧ s.pgtArg (.page h m) false ≠ 0 ∧ (s.portStart .pgt (.page h m)).granPick h (s.pgtArg (.page h m) false) = some (g, u) := by
  have h : ((State.portStart ((run).wrs (pgPgt .east) [(PGT_ARG0_ARG, 1), (PGT_ARG1_ARG, 0)]) .pgt (.page .east .coxS)).granPick .east (State.pgtArg ((run).wrs (pgPgt .east) [(PGT_ARG0_ARG, 1), (PGT_ARG1_ARG, 0)]) (.page .east .coxS) false)).isSome = true := by decide +kernel
  obtain ⟨⟨f, u⟩, e⟩ := Option.isSome_iff_exists.mp h
  refine ⟨(run).wrs (pgPgt .east) [(PGT_ARG0_ARG, 1), (PGT_ARG1_ARG, 0)], .east, .coxS, f, u, ?_⟩
  refine ⟨?_, ?_, ?_, e⟩
  · exact ⟨⟨admits_of (by decide +kernel), by decide +kernel⟩, by decide +kernel⟩
  all_goals decide +kernel
theorem test_AllocatorCommandsAct_3 : ∃ (s : State) (h : Half) (m : Master), s.PortFree .pgt (.page h m) ∧ s.pgtReserved (.page h m) 4 = false ∧ s.pgtArg (.page h m) true ≠ 0 ∧ (s.portStart .pgt (.page h m)).inStore h (s.pgtArg (.page h m) false) (s.pgtArg (.page h m) true) = true ∧ s.granAll h (s.pgtArg (.page h m) false) (s.pgtArg (.page h m) true) = true :=
  ⟨{ (run).wrs (pgPgt .east) [(PGT_ARG0_ARG, 0x100), (PGT_ARG1_ARG, 1)] with alloc := { run.alloc with east := { run.alloc.east with grans := [(0x100, 1)] } } }, .east, .coxS, by
    repeat' first | decide +kernel | apply admits_of | refine And.intro ?_ ?_ | constructor | rfl⟩
theorem test_AllocatorCommandsAct_4 : ∃ (s : State) (p : Port) (id : Nat) (c : Crew), s.PortFree .pgt p ∧ s.pgtReserved p 5 = false ∧ s.pgtArg p false / 2 ^ 16 = id ∧ idOk id = true ∧ idHalf id = s.pgtHalf p ∧ s.crew id = some c ∧ mayAct (portOwner p) c.owner = true :=
  ⟨({ run with crews := [(0x123, crew0)] }).wrs (pgPgt .east) [(PGT_ARG0_ARG, 0x123 * 2 ^ 16), (PGT_ARG1_ARG, 0)], ep, 0x123, crew0, by
    repeat' first | decide +kernel | apply admits_of | refine And.intro ?_ ?_ | constructor | rfl⟩
theorem test_AllocatorCommandsAct_5 : ∃ (s : State) (p : Port) (id : Nat) (c : Crew), s.PortFree .pgt p ∧ s.pgtReserved p 6 = false ∧ s.pgtArg p false / 2 ^ 16 = id ∧ idOk id = true ∧ idHalf id = s.pgtHalf p ∧ s.crew id = some c ∧ mayAct (portOwner p) c.owner = true :=
  ⟨({ run with crews := [(0x123, crew0)] }).wrs (pgPgt .east) [(PGT_ARG0_ARG, 0x123 * 2 ^ 16), (PGT_ARG1_ARG, 7)], ep, 0x123, crew0, by
    repeat' first | decide +kernel | apply admits_of | refine And.intro ?_ ?_ | constructor | rfl⟩
theorem test_AllocatorCommandsAct_6 : ∃ (s : State) (h : Half) (m : Master), s.PortFree .pgt (.page h m) ∧ s.pgtReserved (.page h m) 7 = false :=
  ⟨(run).wrs (pgPgt .east) [(PGT_ARG0_ARG, 0), (PGT_ARG1_ARG, 0)], .east, .coxS, by
    repeat' first | decide +kernel | apply admits_of | refine And.intro ?_ ?_ | constructor | rfl⟩
theorem test_AllocatorCommandsAct_7 : ∃ (s : State) (p : Port) (o : PortOp), (s.portOps.find? fun o => o.port == p && o.block == .pgt && s.invalClear o) = some o ∧ o.discard = false :=
  ⟨{ run with portOps := [⟨ep, .pgt, 7, 0, 0, false, [], 0, none⟩] }, ep, ⟨ep, .pgt, 7, 0, 0, false, [], 0, none⟩, by and_intros <;> decide +kernel⟩
theorem test_AllocatorCommandsAct_8 : ∃ (s : State) (p : Port) (o : BitVec 4), s.PortFree .pgt p ∧ (o = 0 ∨ 8 ≤ o.toNat) :=
  ⟨run, ep, 15, by
    repeat' first | decide +kernel | apply admits_of | refine And.intro ?_ ?_ | constructor | rfl⟩
theorem test_FabricAct_0 : ∃ (s : State) (w : BitVec 4) (m : BitVec 8) (k : StageKind) (n : BitVec 11) (r : Nat) (g : Stage), r = w.toNat * 256 + m.toNat ∧ g = stageNamed k n ∧ roomOk r = true ∧ s.tokensMove r = true :=
  ⟨run, 0, 0, .cell, 0, 0, .cell 0, by and_intros <;> decide +kernel⟩
theorem test_FabricAct_1 : ∃ (s : State) (r : Nat) (c : BitVec 11) (w : Wires), w = s.cellWires r c.toNat ∧ (s.cellCfg r c.toNat).seesIllegal (s.bundled r) w = false :=
  ⟨run, 0, 0, _, by
    repeat' first | decide +kernel | apply admits_of | refine And.intro ?_ ?_ | constructor | rfl⟩
theorem test_FabricAct_2 : ∃ (s : State) (r : BitVec 12) (c : BitVec 11) (w v : Wires), roomOk r.toNat = true ∧ s.tokensMove r.toNat = true ∧ v = s.cellWires r.toNat c.toNat ∧ (s.cellCfg r.toNat c.toNat).seesIllegal (s.bundled r.toNat) ⟨v.t ||| w.t, v.f ||| w.f, v.req ||| w.req⟩ = true ∧ (s.control (s.room r.toNat).active r.toNat).testBit 5 = true :=
  ⟨{ run with fabric := [(20, 0x10), (23, 0x10), (179 * 512 + 0x80, 32)] }, 0, 0, ⟨1, 1, 0⟩, _, by
    repeat' first | decide +kernel | apply admits_of | refine And.intro ?_ ?_ | constructor | rfl⟩
theorem test_FabricAct_3 : ∃ (s : State) (r : BitVec 12) (c : BitVec 2) (q : CupReq) (w l n v : Nat), roomOk r.toNat = true ∧ s.tokensMove r.toNat = true ∧ cupReach (s.cupShape r.toNat c.toNat q.portB) q.addr.toNat = (w, l, n) ∧ s.block r.toNat (cupPort c.toNat q) = Block.fresh ∧ v = bits (s.cupWord r.toNat c.toNat w) (9 * (l + n) - 1) (9 * l) :=
  ⟨run, 0xFBF, 3, ⟨false, false, 0xFFF, 5, 15⟩, _, _, _, _, by
    refine ⟨?_, ?_, triple _, ?_, rfl⟩ <;> decide +kernel⟩
theorem test_FabricAct_4 : ∃ (s : State) (r : BitVec 12) (c : BitVec 2) (q : CupReq) (w l n : Nat), roomOk r.toNat = true ∧ s.tokensMove r.toNat = true ∧ s.seq.we = true ∧ cupReach (s.cupShape r.toNat c.toNat q.portB) q.addr.toNat = (w, l, n) ∧ s.block r.toNat (cupPort c.toNat q) = Block.fresh :=
  ⟨run, 0, 0, ⟨true, true, 0, 5, 15⟩, _, _, _, by
    refine ⟨?_, ?_, ?_, triple _, ?_⟩ <;> decide +kernel⟩
theorem test_FabricAct_5 : ∃ (s : State) (r : BitVec 12) (c : BitVec 2) (q : CupReq), roomOk r.toNat = true ∧ s.tokensMove r.toNat = true ∧ s.seq.we = false ∧ s.block r.toNat (cupPort c.toNat q) = Block.fresh :=
  ⟨{ run with seq := { run.seq with we := false } }, 0, 0, ⟨true, true, 0, 5, 15⟩, by and_intros <;> decide +kernel⟩
theorem test_FabricAct_6 : ∃ (s : State) (r : BitVec 12) (c : BitVec 2) (q x : CupReq), roomOk r.toNat = true ∧ q.portB ≠ x.portB ∧ s.cupTarget r.toNat c.toNat q = s.cupTarget r.toNat c.toNat x :=
  ⟨run, 0, 0, ⟨true, true, 0, 5, 15⟩, ⟨false, true, 0, 6, 15⟩, by
    refine ⟨?_, ?_, (cup_zero _).trans (cup_zero _).symm⟩ <;> decide +kernel⟩
theorem test_FabricAct_7 : ∃ (s : State) (r : BitVec 12) (n : BitVec 3) (x : OarTok), roomOk r.toNat = true ∧ s.tokensMove r.toNat = true ∧ s.block r.toNat (8 + n.toNat) = Block.fresh :=
  ⟨run, 0, 7, ⟨1, 2, true, false, true⟩, by and_intros <;> decide +kernel⟩
theorem test_FabricAct_8 : ∃ (s : State) (w : BitVec 4) (b : BitVec 2) (n : BitVec 24), (s.rd (pgWng w.toNat) WNG_ROSC_CTRL_EN).testBit b.toNat = true :=
  ⟨run.wr (pgWng 15) WNG_ROSC_CTRL_EN 8, 15, 3, 5, by decide +kernel⟩
theorem test_PagingAct_0 : ∃ (s u : State) (id : BitVec 16) (p : BitVec 6) (g : BitVec 4) (va : BitVec 40) (n : BitVec 8) (c : Crew) (r : Nat) (x : Trans) (bs : List Byte), s.windowRoom id.toNat p.toNat = some (c, r) ∧ (s.room r).issued.testBit g.toNat = false ∧ inPage va.toNat n.toNat = true ∧ s.translate (wingOf r) id.toNat c.heat va.toNat false = (.ok x, u) ∧ u.mustWait id.toNat x false = false ∧ (u.readBytes ueWindow (x.frame * frameBytes + va.toNat % frameBytes) n.toNat).1 = some bs :=
  ⟨{ with1 (inRoom crew0) with wings := [(0, { Wing.fresh with tlb := [⟨0x123, 1, 0, 0x4000, true, true, false⟩] })] }, _, 0x123, 0, 3, 0x1FF8, 8, inRoom crew0, 0, ⟨0x123, 1, 0, 0x4000, true, true, false⟩, List.replicate 8 0, by
    refine ⟨?_, ?_, ?_, ok_pair _ _ ?_, ?_, ?_⟩ <;> decide +kernel⟩
theorem test_PagingAct_1 : ∃ (s : State) (id : BitVec 16) (p : BitVec 6) (va : BitVec 40) (bs : List Byte) (c : Crew) (r : Nat) (x : Trans), s.windowRoom id.toNat p.toNat = some (c, r) ∧ inPage va.toNat bs.length = true ∧ s.tlbFind (wingOf r) id.toNat c.heat (bits va.toNat 39 21) = some x ∧ x.w = true ∧ s.mustWait id.toNat x true = false ∧ ((∀ k, (x.frame * frameBytes + va.toNat % frameBytes) / 32 ≤ k → k * 32 < x.frame * frameBytes + va.toNat % frameBytes + bs.length → (s.sectorErr k).length ≤ 2)) :=
  ⟨{ with1 (inRoom crew0) with wings := [(0, { Wing.fresh with tlb := [⟨0x123, 1, 0, 0x4000, true, true, false⟩] })] }, 0x123, 0, 0x1FF8, [1, 2, 3, 4, 5, 6, 7, 8], inRoom crew0, 0, ⟨0x123, 1, 0, 0x4000, true, true, false⟩, by
    refine ⟨?_, ?_, ?_, ?_, ?_, fun k _ _ => no_errors ?_ k⟩ <;> decide +kernel⟩
theorem test_PagingAct_2 : ∃ (s : State) (id : BitVec 16) (h : BitVec 4) (c : Crew), s.crewLive id.toNat h.toNat = true ∧ s.crew id.toNat = some c :=
  ⟨with1 crew0, 0x123, 1, crew0, by and_intros <;> decide +kernel⟩
theorem test_PagingAct_3 : ∃ (s : State) (id : BitVec 16) (h : BitVec 4) (g : BitVec 10) (r : ReadOut), s.crewLive id.toNat h.toNat = true ∧ (s.reads.find? fun r => r.id == id.toNat && r.heat == h.toNat && r.pos * 16 + r.tag == g.toNat && !r.arrived) = some r :=
  ⟨{ with1 crew0 with reads := [⟨0x123, 1, 0, 3, 0, 1, [], false, false, false⟩] }, 0x123, 1, 3, ⟨0x123, 1, 0, 3, 0, 1, [], false, false, false⟩, by and_intros <;> decide +kernel⟩
theorem test_PagingAct_4 : ∃ (s : State) (id : BitVec 16) (h : BitVec 4), s.crewLive id.toNat h.toNat = false :=
  ⟨with1 crew0, 0x123, 2, by decide +kernel⟩
theorem test_PagingAct_5 : ∃ (s : State) (k : BitVec 2) (i : Nat), s.rd (pgMem k.toNat) MEM_PATROL_HOURS ≠ 0 ∧ s.stackServes k.toNat = true ∧ s.memUp (halfOf (k.toNat / 2)) = true ∧ s.stackCtl.patrol.getD k.toNat 0 = i ∧ i + 1 < 2 ^ 30 ∧ (s.sectorErr (k.toNat * 2 ^ 30 + i)).length ≤ 2 :=
  ⟨run.wr (pgMem 3) MEM_PATROL_HOURS 24, 3, 0, by and_intros <;> decide +kernel⟩
theorem test_PagingAct_6 : ∃ (s : State) (h : Half), s.memUp h = true ∧ s.halfZeroed h (s.alloc.get h).turn < s.rd (pgPgt h) PGT_ALOC_CFG_ZPOOL ∧ s.halfZeroed h (s.alloc.get h).turn < s.halfFree h (s.alloc.get h).turn :=
  ⟨(run.wr (pgPgt .west) PGT_ALOC_CFG_ZPOOL 0xFFFF), .west, by and_intros <;> decide +kernel⟩
theorem test_PagingAct_7 : ∃ (s : State) (h : Half) (r : Reclaim) (l : List Reclaim), s.memUp h = true ∧ (s.alloc.get h).reclaim = r :: l :=
  ⟨{ run with alloc := { run.alloc with east := { run.alloc.east with reclaim := [⟨0, false⟩] } } }, .east, ⟨0, false⟩, [], by and_intros <;> decide +kernel⟩
theorem test_SlicesAndScrubAct_0 : ∃ (s : State) (h : Half) (r : Nat) (e : Bool), s.sliceMay h = true ∧ (s.selfTest.get h).req = some (r, e) ∧ r % 256 < 192 ∧ s.roomIdle r = true ∧ s.wingSpare r = true ∧ ((s.sliceLife = true → ∀ q ∈ halfRooms h, (s.room q).state ≠ .withdrawn)) :=
  ⟨{ run with selfTest := { run.selfTest with east := { run.selfTest.east with req := some (5, true) } } }, .east, 5, true, by
    refine ⟨?_, ?_, ?_, ?_, ?_, fun _ => ?_⟩ <;> decide +kernel⟩
theorem test_SlicesAndScrubAct_1 : ∃ (s : State) (r : BitVec 12) (failed : BitVec 4) (n : BitVec 32) (x : Slice), ((s.slices (roomHalf r.toNat)).find? fun x => x.room == r.toNat) = some x ∧ x.req = false ∧ r.toNat % 256 < 192 :=
  ⟨{ run with selfTest := { run.selfTest with west := { run.selfTest.west with slices := [⟨0x8BF, 3, 2, false, false⟩] } } }, 0x8BF, 1, 4780, ⟨0x8BF, 3, 2, false, false⟩, by and_intros <;> decide +kernel⟩
theorem test_SlicesAndScrubAct_2 : ∃ (s : State) (m : Master) (h : Half) (arg : BitVec 16), s.Takes m (pgBst h) 0x44 ∧ s.rd (pgBst h) BST_REQ_STATUS ≠ 1 ∧ s.gateOpen h .bst = true ∧ s.lifeCycle ≠ 0 ∧ s.lifeCycle ≠ lcEnd ∧ arg.toNat < 0x2000 ∧ roomHalf (arg.toNat % 4096) = h ∧ s.roomIdle (arg.toNat % 4096) = true :=
  ⟨run.wr pgLcs LCS_STATE_STATE 2, .coxS, .east, 0x1005, by
    repeat' first | decide +kernel | apply admits_of | refine And.intro ?_ ?_ | constructor | rfl⟩
theorem test_SlicesAndScrubAct_3 : ∃ (s : State) (m : Master) (h : Half) (arg : BitVec 16), s.Takes m (pgBst h) 0x44 ∧ s.rd (pgBst h) BST_REQ_STATUS ≠ 1 ∧ s.gateOpen h .bst = true ∧ s.lifeCycle ≠ 0 ∧ s.lifeCycle ≠ lcEnd ∧ 0x2000 ≤ arg.toNat :=
  ⟨run.wr pgLcs LCS_STATE_STATE 2, .coxS, .west, 0x2000, by
    repeat' first | decide +kernel | apply admits_of | refine And.intro ?_ ?_ | constructor | rfl⟩
theorem test_SlicesAndScrubAct_4 : ∃ (s : State) (h : Half) (n : BitVec 16), n ≠ 0 :=
  ⟨run, .west, 0xFFFF, by decide +kernel⟩
theorem test_SlicesAndScrubAct_6 : ∃ (s : State) (r : BitVec 12) (f : Byte), (s.room r.toNat).codeFlag = false ∧ crc16 (s.plane (s.room r.toNat).active r.toNat (f.toNat * 512) 512) = s.refOf (planeFrame (s.room r.toNat).active r.toNat f.toNat) :=
  ⟨run, 0, 0, by
    refine ⟨by decide +kernel, ?_⟩
    rw [refOf_none (by decide +kernel)]; exact congrArg crc16 plane_zero⟩
theorem test_SlicesAndScrubAct_7 : ∃ (s u : State) (r : BitVec 12) (f : Byte) (img : List Byte), r.toNat % 256 < 192 ∧ f.toNat < 180 ∧ s.on (pgScr (roomHalf r.toNat)) SCR_CFG_EN = true ∧ s.gateOpen (roomHalf r.toNat) .scr = true ∧ inService (s.mode (roomHalf r.toNat)) = true ∧ (s.room r.toNat).state = .g2 ∧ (s.selfTest.get (roomHalf r.toNat)).scrubAt ≤ r.toNat * 180 + f.toNat ∧ (s.modTest (roomHalf r.toNat) fun x => { x with scrubAt := r.toNat * 180 + f.toNat + 1 }).readBytes ueScrub (s.g2Addr r.toNat false + f.toNat * 512) 512 = (some img, u) ∧ crc16 img = s.refOf (planeFrame (s.room r.toNat).active r.toNat f.toNat) ∧ crc16 (s.plane (s.room r.toNat).active r.toNat (f.toNat * 512) 512) ≠ s.refOf (planeFrame (s.room r.toNat).active r.toNat f.toNat) :=
  ⟨wrongPlane, _, 0, 0, List.replicate 512 0, by
    refine ⟨?_, ?_, ?_, ?_, ?_, ?_, ?_, some_pair _ _ ?_, (refOf_none ?_ _).symm, ?_⟩
    case refine_10 => rw [refOf_none (by decide +kernel), crc_zero]; exact fun h => absurd ((congrArg crc16 plane_wrong).symm.trans h) (by rw [crc_z]; decide +kernel)
    all_goals decide +kernel⟩
theorem test_UpkeepAct_0 : ∃ (s : State) (m : Master) (h : Half) (arg : BitVec 16), s.Takes m (pgSys h) SYS_COX_UPD_ARG.off ∧ s.rd (pgSys h) SYS_COX_UPD_STATUS ≠ 1 ∧ s.masterWorld m = true ∧ arg.toNat < 8 ∧ (s.cox.get h).op = none ∧ s.upkeepBar = 0 :=
  ⟨run, .coxS, .west, 7, by
    repeat' first | decide +kernel | apply admits_of | refine And.intro ?_ ?_ | constructor | rfl⟩
theorem test_UpkeepAct_1 : ∃ (s : State) (m : Master) (h : Half) (arg : BitVec 16), s.Takes m (pgSys h) SYS_COX_UPD_ARG.off ∧ s.rd (pgSys h) SYS_COX_UPD_STATUS ≠ 1 ∧ s.masterWorld m = true ∧ arg.toNat < 8 ∧ (s.cox.get h).op = none ∧ s.upkeepBar = 0 :=
  ⟨run, .coxS, .east, 0, by
    repeat' first | decide +kernel | apply admits_of | refine And.intro ?_ ?_ | constructor | rfl⟩
theorem test_UpkeepAct_2 : ∃ (u : State) (h : Half) (arg : Nat) (img : List Byte), h ≠ (u.hold h).leader :=
  ⟨run, .west, 0, [], by decide +kernel⟩
theorem test_UpkeepAct_3 : ∃ (s : State) (h : Half) (arg : Nat) (img : List Byte), (s.cox.get h).op = some (arg, false, img) ∧ arg.testBit 2 = false ∧ (s.cox.get h).held = [] :=
  ⟨{ run with cox := { (run).cox with east := { (run).cox.east with op := some (0, false, []) } } }, .east, 0, [], by and_intros <;> decide +kernel⟩
theorem test_UpkeepAct_4 : ∃ (s : State) (h : Half) (arg : Nat) (img : List Byte), (s.cox.get h).op = some (arg, false, img) ∧ arg.testBit 2 = true ∧ arg.testBit 0 = true ∧ (s.cox.get h).held = [] :=
  ⟨{ run with cox := { (run).cox with west := { (run).cox.west with op := some (5, false, [1]) } } }, .west, 5, [1], by and_intros <;> decide +kernel⟩
theorem test_UpkeepAct_5 : ∃ (s : State) (m : Master) (k : BitVec 2), s.Takes m (pgMem k.toNat) MEM_RETRAIN_ARG.off ∧ s.rd (pgMem k.toNat) MEM_RETRAIN_STATUS ≠ 1 ∧ s.masterWorld m = true ∧ ((∀ j ∈ s.stackCtl.retrain, j / 2 ≠ k.toNat / 2)) ∧ s.upkeepBar = 0 :=
  ⟨run, .coxS, 3, by
    repeat' first | decide +kernel | apply admits_of | refine And.intro ?_ ?_ | constructor | rfl⟩
theorem test_UpkeepAct_6 : ∃ (s : State) (m : Master) (k : BitVec 2), s.Takes m (pgMem k.toNat) MEM_RETRAIN_ARG.off ∧ s.rd (pgMem k.toNat) MEM_RETRAIN_STATUS ≠ 1 ∧ s.masterWorld m = true ∧ ((∀ j ∈ s.stackCtl.retrain, j / 2 ≠ k.toNat / 2)) ∧ s.upkeepBar = 0 :=
  ⟨run, .coxS, 0, by
    repeat' first | decide +kernel | apply admits_of | refine And.intro ?_ ?_ | constructor | rfl⟩
theorem test_UpkeepAct_7 : ∃ (s : State) (m : Master) (k : BitVec 2), s.Takes m (pgMem k.toNat) MEM_RETRAIN_ARG.off ∧ s.rd (pgMem k.toNat) MEM_RETRAIN_STATUS ≠ 1 ∧ s.masterWorld m = false :=
  ⟨run, .fn 0, 3, by
    repeat' first | decide +kernel | apply admits_of | refine And.intro ?_ ?_ | constructor | rfl⟩
theorem test_UpkeepAct_8 : ∃ (s : State) (k : BitVec 2) (trained : Bool) (n : Byte), k.toNat ∈ s.stackCtl.retrain :=
  ⟨{ run with stackCtl := { run.stackCtl with retrain := [3] } }, 3, true, 2, by decide +kernel⟩
theorem test_UpkeepAct_9 : ∃ (s : State) (m : Master) (arg : BitVec 16), s.Takes m pgCrs CRS_LANE_ARG.off ∧ s.rd pgCrs CRS_LANE_STATUS ≠ 1 ∧ arg.toNat < 2 ∧ s.upkeepBar = 0 ∧ s.portOpen = true :=
  ⟨run.wr pgCrs CRS_PORT_STATE 4, .coxS, 1, by
    repeat' first | decide +kernel | apply admits_of | refine And.intro ?_ ?_ | constructor | rfl⟩
theorem test_UpkeepAct_10 : ∃ (s : State) (m : Master), s.Takes m pgHlk HLK_REEQ_ARG.off ∧ s.rd pgHlk HLK_REEQ_STATUS ≠ 1 ∧ s.upkeepBar = 0 :=
  ⟨run, .coxS, by
    repeat' first | decide +kernel | apply admits_of | refine And.intro ?_ ?_ | constructor | rfl⟩
theorem test_UpkeepAct_11 : ∃ (s : State) (b : Bool), s.host.reeq = some b :=
  ⟨{ run with host := { run.host with reeq := some false } }, false, by decide +kernel⟩
theorem test_CourseLinksAct_0 : ∃ (s : State) (w : Bool) (f : Flit), s.linkState w = 2 ∧ s.flitGood w f = true ∧ f.typ.toNat = ftData ∧ State.waitingFlits (s.cLink w) = 0 :=
  ⟨ring, false, flit 0, by and_intros <;> decide +kernel⟩
theorem test_CourseLinksAct_1 : ∃ (s : State) (w : Bool) (f : Flit), s.linkState w = 2 ∧ s.flitGood w f = true ∧ f.typ.toNat = 1 ∧ State.waitingFlits (s.cLink w) = 0 :=
  ⟨ring, false, flit 1, by and_intros <;> decide +kernel⟩
theorem test_CourseLinksAct_2 : ∃ (s : State) (w : Bool) (f : Flit), s.linkState w = 2 ∧ s.flitGood w f = true ∧ f.typ.toNat = ftNak :=
  ⟨ring, false, flit (BitVec.ofNat 4 ftNak), by and_intros <;> decide +kernel⟩
theorem test_CourseLinksAct_3 : ∃ (s : State) (w : Bool) (f : Flit), s.linkState w = 2 ∧ s.flitGood w f = false :=
  ⟨ring, true, { flit 0 with crc := 0 }, by and_intros <;> decide +kernel⟩
theorem test_CourseLinksAct_5 : ∃ (s : State) (w : Bool) (ack : BitVec 10), s.linkState w = 2 ∧ ((s.cLink w).nakRun = 0 ∨ (s.cLink w).nakAck ≠ ack.toNat) :=
  ⟨ring, true, 1023, by and_intros <;> decide +kernel⟩
theorem test_CourseLinksAct_6 : ∃ (s : State) (w : Bool) (ack : BitVec 10), s.linkState w = 2 ∧ (s.cLink w).nakRun = 7 ∧ (s.cLink w).nakAck = ack.toNat :=
  ⟨{ ring with course := { (ring).course with east := { (ring).course.east with nakRun := 7, nakAck := 5 } } }, false, 5, by and_intros <;> decide +kernel⟩
theorem test_CourseLinksAct_7 : ∃ (s : State) (w : Bool), s.linkState w = 2 :=
  ⟨ring, true, by decide +kernel⟩
theorem test_CourseLinksAct_8 : ∃ (s : State) (w : Bool), (s.cLink w).slow = true ∧ (s.linkState w = 1 ∨ s.linkState w = 3) :=
  ⟨{ (run).wrs pgCrs [(CRS_PORT_W_LINK, 1)] with course := { ((run).wrs pgCrs [(CRS_PORT_W_LINK, 1)]).course with west := { ((run).wrs pgCrs [(CRS_PORT_W_LINK, 1)]).course.west with slow := true } } }, true, by and_intros <;> decide +kernel⟩
theorem test_CourseLinksAct_9 : ∃ (s : State) (w : Bool) (now : BitVec 64), s.linkState w = 1 ∧ s.course.lane ≠ some w :=
  ⟨(run).wrs pgCrs [(CRS_PORT_W_LINK, 1)], true, 5000000, by and_intros <;> decide +kernel⟩
theorem test_CourseLinksAct_10 : ∃ (s : State) (w : Bool) (lanes : BitVec 2) (serial : Nat), s.crsState ≠ 0 ∧ s.linkState w = 1 ∧ lanes.toNat &&& (s.cLink w).offers = 3 ∧ s.course.lane ≠ some w ∧ s.devMode ≠ mLoadLocal ∧ (s.cLink w).neighbour = some serial ∧ (s.cLink w).replay = [] ∧ State.waitingFlits (s.cLink w) = 0 :=
  ⟨{ (run).wrs pgCrs [(CRS_PORT_W_LINK, 1), (CRS_PORT_STATE, 1)] with course := { ((run).wrs pgCrs [(CRS_PORT_W_LINK, 1), (CRS_PORT_STATE, 1)]).course with west := { ((run).wrs pgCrs [(CRS_PORT_W_LINK, 1), (CRS_PORT_STATE, 1)]).course.west with neighbour := some 77 } } }, true, 3, 77, by and_intros <;> decide +kernel⟩
theorem test_CourseLinksAct_11 : ∃ (s : State) (w : Bool), s.linkState w = 1 ∧ s.hasRingId = true :=
  ⟨(run).wrs pgCrs [(CRS_ID_VALID, 1), (CRS_PORT_E_LINK, 1)], false, by and_intros <;> decide +kernel⟩
theorem test_CourseLinksAct_12 : ∃ (s : State) (w : Bool), s.linkState w = 2 :=
  ⟨ring, true, by decide +kernel⟩
theorem test_CourseLinksAct_13 : ∃ (s : State) (p : BitVec 10), s.hasRingId = true :=
  ⟨ring, 1023, by decide +kernel⟩
theorem test_CourseLinksAct_14 : ∃ (s : State) (g : Segment) (n : BitVec 16), csRelay ≤ s.crsState ∧ s.hasRingId = true ∧ g.typ.toNat = sgBreak ∧ g.bcast = true ∧ g.age.toNat + n.toNat + 1 < ageEnd ∧ s.linkState g.ringB ≠ 3 :=
  ⟨(run).wrs pgCrs [(CRS_PORT_STATE, 2), (CRS_ID_VALID, 1)], { seg sgBreak 7997 with bcast := true }, 1, by and_intros <;> decide +kernel⟩
theorem test_CourseLinksAct_15 : ∃ (s : State) (g : Segment) (n : BitVec 16), csRelay ≤ s.crsState ∧ s.hasRingId = false ∧ g.typ.toNat = sgData ∧ s.linkState g.ringB ≠ 3 :=
  ⟨(run).wrs pgCrs [(CRS_PORT_STATE, 2)], seg sgData 7998, 1, by and_intros <;> decide +kernel⟩
theorem test_CourseLinksAct_16 : ∃ (s : State) (g : Segment) (n : BitVec 16), csRelay ≤ s.crsState ∧ s.hasRingId = true ∧ g.typ.toNat = sgBreak ∧ g.bcast = true ∧ ageEnd ≤ g.age.toNat + n.toNat + 1 :=
  ⟨(run).wrs pgCrs [(CRS_PORT_STATE, 2), (CRS_ID_VALID, 1)], { seg sgBreak 7998 with bcast := true }, 1, by and_intros <;> decide +kernel⟩
theorem test_CourseMessagesAct_0 : ∃ (s : State) (g : Segment), s.mine g = true ∧ ageEnd ≤ g.age.toNat :=
  ⟨ring, seg 0 8000, by and_intros <;> decide +kernel⟩
theorem test_CourseMessagesAct_1 : ∃ (s : State) (g : Segment), s.mine g = true ∧ g.typ.toNat = sgData ∧ s.ringSize ≤ g.hops.toNat :=
  ⟨ring, { seg sgData 0 with hops := 2 }, by and_intros <;> decide +kernel⟩
theorem test_CourseMessagesAct_2 : ∃ (s : State) (g : Segment), s.mine g = true ∧ g.age.toNat < ageEnd ∧ g.typ.toNat = sgData ∧ g.crc = segSum g ∧ g.hops.toNat < s.ringSize ∧ g.src.toNat ∈ s.security.peers ∧ s.seq.standby = .none :=
  ⟨{ ring with security := { ring.security with peers := [9] } }, seg sgData 7999, by and_intros <;> decide +kernel⟩
theorem test_CourseMessagesAct_3 : ∃ (s : State) (g : Segment), s.mine g = true ∧ g.age.toNat < ageEnd ∧ g.typ.toNat = sgData ∧ g.crc = segSum g ∧ g.hops.toNat < s.ringSize ∧ g.src.toNat ∉ s.security.peers ∧ s.seq.standby = .none ∧ s.devMode ≠ mStandby ∧ g.seg = 0 ∧ s.crsState = csMember ∧ s.course.leaving = false ∧ 64 < g.len.toNat ∧ s.course.ingress = [] ∧ g.len.toNat * 64 ≤ storeSize :=
  ⟨ring, longSeg, by and_intros <;> decide +kernel⟩
theorem test_CourseMessagesAct_4 : ∃ (s : State) (src : BitVec 10) (tag : BitVec 16) (m : InMsg), s.inMsg src.toNat tag.toNat = some m ∧ State.inDone m = true ∧ s.devMode ≠ mStandby ∧ s.crsState ≠ csMember :=
  ⟨(ringIn).wrs pgCrs [(CRS_PORT_STATE, 2)], 9, 3, got, by and_intros <;> decide +kernel⟩
theorem test_CourseMessagesAct_5 : ∃ (s : State) (src : BitVec 10) (tag : BitVec 16) (m : InMsg), s.inMsg src.toNat tag.toNat = some m ∧ State.inDone m = true ∧ s.devMode ≠ mStandby ∧ s.crsState = csMember ∧ s.inTurn m = true ∧ s.cut .west = false ∧ s.pushCheck m.first.rhatch.toNat (.ring m.first.src.toNat m.first.crew.toNat m.first.crewHeat.toNat m.first.world) m.first.len.toNat = .admitted :=
  ⟨ringHat, 9, 3, got, by and_intros <;> decide +kernel⟩
theorem test_CourseMessagesAct_6 : ∃ (s : State) (src : BitVec 10) (tag : BitVec 16) (m : InMsg), s.inMsg src.toNat tag.toNat = some m ∧ State.inDone m = true ∧ s.devMode ≠ mStandby ∧ s.crsState = csMember ∧ s.inTurn m = true ∧ s.cut .west = false ∧ s.pushCheck m.first.rhatch.toNat (.ring m.first.src.toNat m.first.crew.toNat m.first.crewHeat.toNat m.first.world) m.first.len.toNat = .refuse hcFull :=
  ⟨{ ringHat with hatches := [(0x8005, { hat0 with srcKind := endRing, src := 9, dstKind := endCrew, nslots := 0, packets := [pk] })] }, 9, 3, got, by and_intros <;> decide +kernel⟩
theorem test_CourseMessagesAct_7 : ∃ (s : State) (src : BitVec 10) (tag : BitVec 16) (m : InMsg), s.inMsg src.toNat tag.toNat = some m ∧ State.inDone m = true ∧ s.devMode ≠ mStandby ∧ s.crsState = csMember ∧ s.inTurn m = false :=
  ⟨{ ringIn with course := { ringIn.course with ingress := [{ got with first := { seg 0 0 with tag := 2 } }, got] } }, 9, 3, got, by and_intros <;> decide +kernel⟩
theorem test_CourseMessagesAct_8 : ∃ (s : State) (src : BitVec 10) (tag : BitVec 16) (m : InMsg), s.inMsg src.toNat tag.toNat = some m :=
  ⟨ringIn, 9, 3, got, by decide +kernel⟩
theorem test_CourseMessagesAct_9 : ∃ (s : State) (g : Segment) (m : OutMsg), s.mine g = true ∧ g.typ.toNat = sgAccept ∧ g.crc = segSum g ∧ s.outMsg g.tag.toNat g.tagHeat.toNat g.src.toNat = some m ∧ s.chain.sending = none ∧ s.loader.deferred = false :=
  ⟨ringOut true, seg sgAccept 0, msg true, by and_intros <;> decide +kernel⟩
theorem test_CourseMessagesAct_10 : ∃ (s : State) (g : Segment) (m : OutMsg), s.mine g = true ∧ g.typ.toNat = sgRefuse ∧ g.crc = segSum g ∧ s.outMsg g.tag.toNat g.tagHeat.toNat g.src.toNat = some m ∧ s.chain.sending = none ∧ s.loader.deferred = false :=
  ⟨ringOut true, seg sgRefuse 0, msg true, by and_intros <;> decide +kernel⟩
theorem test_CourseMessagesAct_11 : ∃ (s : State) (g : Segment) (m : OutMsg), s.mine g = true ∧ g.typ.toNat = sgBusy ∧ g.crc = segSum g ∧ s.outMsg g.tag.toNat g.tagHeat.toNat g.src.toNat = some m ∧ s.loader.deferred = false :=
  ⟨ringOut true, seg sgBusy 0, msg true, by and_intros <;> decide +kernel⟩
theorem test_CourseMessagesAct_12 : ∃ (s : State) (g : Segment), s.mine g = true ∧ g.typ.toNat = sgAccept ∧ g.crc = segSum g ∧ s.outMsg g.tag.toNat g.tagHeat.toNat g.src.toNat = none ∧ s.loader.deferred = false :=
  ⟨ring, seg sgAccept 0, by and_intros <;> decide +kernel⟩
theorem test_CourseMessagesAct_13 : ∃ (s : State) (tag : BitVec 16) (m : OutMsg) (b : Bool), s.msgOf tag.toNat = some m ∧ m.busy = true ∧ s.wayTo m.dst = .inr b :=
  ⟨{ ringOut true with course := { (ringOut true).course with ways := [(9, some false)] } }, 3, msg true, false, by and_intros <;> decide +kernel⟩
theorem test_CourseMessagesAct_14 : ∃ (s : State) (tag : BitVec 16) (m : OutMsg) (code : Nat), s.msgOf tag.toNat = some m ∧ m.busy = true ∧ s.wayTo m.dst = .inl code ∧ s.chain.sending = none :=
  ⟨{ ringOut true with course := { (ringOut true).course with map := [⟨5, 0, 2⟩] } }, 3, msg true, cfNoDest, by and_intros <;> decide +kernel⟩
theorem test_CourseMessagesAct_15 : ∃ (s : State) (tag : BitVec 16) (m : OutMsg), s.msgOf tag.toNat = some m ∧ s.chain.sending = none :=
  ⟨ringOut true, 3, msg true, by and_intros <;> decide +kernel⟩
theorem test_CourseMessagesAct_16 : ∃ (s : State) (tag : BitVec 16) (r : TagRec), Tbl.find s.course.tags tag.toNat = some r :=
  ⟨{ ring with course := { (ring).course with tags := [(3, ⟨15, true⟩)] } }, 3, ⟨15, true⟩, by decide +kernel⟩
theorem test_CourseRingAct_0 : ∃ (s : State) (c : BitVec 11) (serial : Nat) (d : BitVec 10) (b : Bool) (taken : List Nat), csRelay ≤ s.crsState ∧ s.on pgCrs CRS_ID_BOW = false ∧ s.hasRingId = false ∧ c.toNat < 1024 ∧ s.devMode ≠ mLoadLocal ∧ s.loader.deferred = false :=
  ⟨(run).wrs pgCrs [(CRS_PORT_STATE, 2)], 1023, 77, 5, false, [], by and_intros <;> decide +kernel⟩
theorem test_CourseRingAct_1 : ∃ (s : State) (c : BitVec 11) (serial : Nat) (d : BitVec 10) (b : Bool) (taken : List Nat), csRelay ≤ s.crsState ∧ s.on pgCrs CRS_ID_BOW = true ∧ serial ≠ s.ownSerial ∧ s.devMode ≠ mLoadLocal ∧ s.loader.deferred = false :=
  ⟨(run).wrs pgCrs [(CRS_PORT_STATE, 2), (CRS_ID_BOW, 1)], 3, 77, 5, true, [4], by and_intros <;> decide +kernel⟩
theorem test_CourseRingAct_2 : ∃ (s : State) (c : BitVec 11) (d : BitVec 10) (taken : List Nat), csRelay ≤ s.crsState ∧ s.on pgCrs CRS_ID_BOW = true ∧ s.course.enum = 1 ∧ s.linkState true ≠ 3 ∧ s.devMode ≠ mLoadLocal ∧ s.loader.deferred = false :=
  ⟨({ run with course := { (run).course with enum := 1 } }).wrs pgCrs [(CRS_PORT_STATE, 2), (CRS_ID_BOW, 1)], 3, 5, [4], by and_intros <;> decide +kernel⟩
theorem test_CourseRingAct_3 : ∃ (s : State), s.portOpen = true ∧ s.crsState ≠ csTraining ∧ s.on pgCrs CRS_ID_BOW = false ∧ s.devMode ≠ mLoadLocal ∧ s.loader.deferred = false :=
  ⟨(run).wrs pgCrs [(CRS_PORT_STATE, 2)], by and_intros <;> decide +kernel⟩
theorem test_CourseRingAct_4 : ∃ (s : State) (x : Member), s.portOpen = true ∧ s.crsState ≠ csTraining ∧ s.on pgCrs CRS_ID_BOW = false ∧ s.devMode ≠ mLoadLocal ∧ s.loader.deferred = false ∧ x.serial = s.ownSerial ∧ x.serial ≠ 0 ∧ s.hasRingId = false ∧ s.course.joining = false :=
  ⟨(run).wrs pgCrs [(CRS_PORT_STATE, 2)], ⟨3, 1, 2⟩, by and_intros <;> decide +kernel⟩
theorem test_CourseRingAct_5 : ∃ s : State, s.crsState = csRelay ∧ s.on pgCrs CRS_ID_BOW = true ∧ s.course.sawMap = false ∧ s.hasRingId = false ∧ s.course.twoBows = false ∧ s.course.enum = 0 ∧ s.linkState false ≠ 3 :=
  ⟨(run).wrs pgCrs [(CRS_PORT_STATE, 2), (CRS_ID_BOW, 1)], by and_intros <;> decide +kernel⟩
theorem test_CourseRingAct_6 : ∃ s : State, s.course.enum ≠ 0 :=
  ⟨{ run with course := { (run).course with enum := 1 } }, by decide +kernel⟩
theorem test_CourseRingAct_7 : ∃ s : State, s.course.failed = true ∧ s.course.enum = 0 ∧ s.course.twoBows = false ∧ s.linkState false ≠ 3 :=
  ⟨{ run with course := { (run).course with failed := true } }, by and_intros <;> decide +kernel⟩
theorem test_CourseRingAct_8 : ∃ s : State, s.portOpen = true ∧ s.lowestHere = true ∧ s.course.enum = 0 ∧ s.course.map ≠ [] ∧ s.on pgCrs CRS_ID_ACTING = true :=
  ⟨({ run with course := { (run).course with map := [⟨0, 0, 2⟩] } }).wrs pgCrs [(CRS_PORT_STATE, 2), (CRS_ID_VALID, 1), (CRS_ID_ACTING, 1)], by and_intros <;> decide +kernel⟩
theorem test_CourseRingAct_9 : ∃ s : State, s.portOpen = true ∧ s.lowestHere = true ∧ s.course.enum = 0 ∧ s.course.map ≠ [] ∧ s.on pgCrs CRS_ID_ACTING = false :=
  ⟨({ run with course := { (run).course with map := [⟨0, 0, 2⟩] } }).wrs pgCrs [(CRS_PORT_STATE, 2), (CRS_ID_VALID, 1)], by and_intros <;> decide +kernel⟩
theorem test_CourseRingAct_10 : ∃ (s : State) (serial : Nat) (p : BitVec 10), s.on pgCrs CRS_ID_ACTING = true ∧ ((∃ x ∈ s.course.map, x.serial = serial)) ∧ serial ≠ 0 :=
  ⟨(ring).wrs pgCrs [(CRS_ID_ACTING, 1)], 77, 1023, by
    repeat' first | decide +kernel | apply admits_of | refine And.intro ?_ ?_ | constructor | rfl⟩
theorem test_CourseRingAct_11 : ∃ (s : State) (serial i : Nat) (p : BitVec 10), s.on pgCrs CRS_ID_ACTING = true ∧ ((∀ x ∈ s.course.map, x.serial ≠ serial)) ∧ s.course.map.length < 1024 ∧ s.course.heldIds = [⟨i, serial, false, true⟩] :=
  ⟨({ ring with course := { (ring).course with heldIds := [⟨3, 88, false, true⟩] } }).wrs pgCrs [(CRS_ID_ACTING, 1)], 88, 3, 2, by
    repeat' first | decide +kernel | apply admits_of | refine And.intro ?_ ?_ | constructor | rfl⟩
theorem test_CourseRingAct_12 : ∃ (s : State) (serial i : Nat) (p : BitVec 10), s.on pgCrs CRS_ID_ACTING = true ∧ ((∀ x ∈ s.course.map, x.serial ≠ serial)) ∧ s.course.heldIds = [⟨i, serial, true, true⟩] :=
  ⟨({ ring with course := { (ring).course with heldIds := [⟨3, 88, true, true⟩] } }).wrs pgCrs [(CRS_ID_ACTING, 1)], 88, 3, 2, by
    repeat' first | decide +kernel | apply admits_of | refine And.intro ?_ ?_ | constructor | rfl⟩
theorem test_CourseRingAct_13 : ∃ (s : State) (id : BitVec 10) (x : Member), s.hasRingId = true ∧ s.ringId ≠ id.toNat ∧ s.member id.toNat = some x :=
  ⟨(ring).wrs pgCrs [(CRS_ID_ACTING, 1)], 9, ⟨9, 1, 77⟩, by and_intros <;> decide +kernel⟩
theorem test_CourseRingAct_14 : ∃ (s : State) (m : Master), s.Takes m pgCrs 0x6C ∧ s.rd pgCrs CRS_REQ_STATUS ≠ 1 ∧ s.crsState = csMember :=
  ⟨ring, .coxS, by
    repeat' first | decide +kernel | apply admits_of | refine And.intro ?_ ?_ | constructor | rfl⟩
theorem test_CourseRingAct_15 : ∃ (s : State) (m : Master), s.Takes m pgCrs 0x6C ∧ s.rd pgCrs CRS_REQ_STATUS ≠ 1 ∧ s.crsState ≠ csMember :=
  ⟨run, .coxS, by
    repeat' first | decide +kernel | apply admits_of | refine And.intro ?_ ?_ | constructor | rfl⟩
theorem test_CourseRingAct_16 : ∃ (s : State) (m : Master), s.Takes m pgCrs 0x6C ∧ s.rd pgCrs CRS_REQ_STATUS ≠ 1 ∧ s.crsState = csBypass ∧ s.course.left = true ∧ inService s.devMode = true :=
  ⟨{ run with course := { (run).course with left := true } }, .coxS, by
    repeat' first | decide +kernel | apply admits_of | refine And.intro ?_ ?_ | constructor | rfl⟩
theorem test_CourseRingAct_17 : ∃ s : State, s.course.leaving = true ∧ s.course.egress = [] :=
  ⟨{ ring with course := { (ring).course with leaving := true } }, by and_intros <;> decide +kernel⟩
theorem test_G2LoadAct_0 : ∃ s : State, s.g2Serves = true ∧ s.g2State ≠ gsOff ∧ s.g2State ≠ gsStarting ∧ s.g2State ≠ gsReceiving ∧ s.pinsAre 8 [35] = true ∧ s.pins.levels.testBit 35 = false :=
  ⟨g2at gsWait 8, by and_intros <;> decide +kernel⟩
theorem test_G2LoadAct_1 : ∃ (s : State) (m : Master), s.Admits m pgG2c 0x40 ∧ s.g2Serves = true ∧ s.g2State ≠ gsOff ∧ s.g2State ≠ gsStarting ∧ s.g2State ≠ gsReceiving :=
  ⟨g2at gsError 0, .coxS, by
    repeat' first | decide +kernel | apply admits_of | refine And.intro ?_ ?_ | constructor | rfl⟩
theorem test_G2LoadAct_2 : ∃ (s : State) (m : Master), s.Admits m pgG2c 0x40 ∧ s.g2Serves = true ∧ s.g2State = gsReceiving :=
  ⟨g2at gsReceiving 0, .coxS, by
    repeat' first | decide +kernel | apply admits_of | refine And.intro ?_ ?_ | constructor | rfl⟩
theorem test_G2LoadAct_3 : ∃ (s : State) (m : Master), s.Admits m pgG2c 0x40 ∧ s.g2Serves = true ∧ s.g2State = gsStarting :=
  ⟨g2at gsStarting 0, .coxS, by
    repeat' first | decide +kernel | apply admits_of | refine And.intro ?_ ?_ | constructor | rfl⟩
theorem test_G2LoadAct_4 : ∃ s : State, s.g2Serves = true ∧ s.g2State = gsClearing ∧ s.progNHigh = true ∧ s.g2.src = false :=
  ⟨g2at gsClearing 0, by and_intros <;> decide +kernel⟩
theorem test_G2LoadAct_5 : ∃ s : State, s.g2Serves = true ∧ s.g2State = gsWait ∧ s.g2.src = false ∧ s.pinsAre 8 [32, 33] = true :=
  ⟨g2at gsWait 8, by and_intros <;> decide +kernel⟩
theorem test_G2LoadAct_6 : ∃ (s : State) (n : BitVec 16), s.g2Serves = true ∧ s.g2State = gsReceiving ∧ s.g2.src = false ∧ s.pinsAre 8 [32, 33] = true ∧ s.g2.header = false ∧ 0 < n.toNat ∧ n.toNat ≤ 6144 :=
  ⟨g2at gsReceiving 8, 6144, by and_intros <;> decide +kernel⟩
theorem test_G2LoadAct_7 : ∃ (s : State) (d : Byte) (n : BitVec 16) (r : Word), s.g2Serves = true ∧ s.g2State = gsReceiving ∧ s.g2.src = false ∧ s.pinsAre 8 [32, 33] = true ∧ s.g2.header = false ∧ d ≠ 0x96 :=
  ⟨g2at gsReceiving 8, 0x95, 0, 0, by and_intros <;> decide +kernel⟩
theorem test_G2LoadAct_8 : ∃ (s : State) (a : BitVec 16) (data : List Byte), s.g2Serves = true ∧ s.g2State = gsReceiving ∧ s.g2.src = false ∧ s.pinsAre 8 [32, 33] = true ∧ s.g2.header = true ∧ s.g2.frames < s.g2.nframes ∧ data.length = 192 ∧ a.toNat < 2 ^ 14 ∧ bits a.toNat 13 8 ≤ 47 ∧ a.toNat.testBit 7 = false :=
  ⟨g2in 0, 0x2F7F, List.replicate 192 0, by and_intros <;> decide +kernel⟩
theorem test_G2LoadAct_9 : ∃ (s : State) (a : BitVec 16) (data : List Byte), s.g2Serves = true ∧ s.g2State = gsReceiving ∧ s.g2.src = false ∧ s.pinsAre 8 [32, 33] = true ∧ s.g2.header = true ∧ s.g2.frames < s.g2.nframes ∧ data.length = 192 ∧ 47 < bits a.toNat 13 8 :=
  ⟨g2in 0, 0x3000, List.replicate 192 0, by and_intros <;> decide +kernel⟩
theorem test_G2LoadAct_10 : ∃ (s : State) (c : BitVec 16), s.g2Serves = true ∧ s.g2State = gsReceiving ∧ s.g2.src = false ∧ s.pinsAre 8 [32, 33] = true ∧ s.g2.header = true ∧ s.g2.frames = s.g2.nframes ∧ c.toNat = s.g2.crc :=
  ⟨g2in 1, 0x1234, by and_intros <;> decide +kernel⟩
theorem test_G2LoadAct_11 : ∃ (s : State) (c : BitVec 16), s.g2Serves = true ∧ s.g2State = gsReceiving ∧ s.g2.src = false ∧ s.pinsAre 8 [32, 33] = true ∧ s.g2.header = true ∧ s.g2.frames = s.g2.nframes ∧ c.toNat ≠ s.g2.crc :=
  ⟨g2in 1, 0x1235, by and_intros <;> decide +kernel⟩
theorem test_G2LoadAct_12 : ∃ s u : State, s.g2Serves = true ∧ s.g2State = gsStarting ∧ s.g2.calRun = false ∧ (s.wing 0).swap = none ∧ s.selfTest.east.slices = [] ∧ u.g2.progDue = false ∧ (List.range 48).foldl (fun (a : Bool × State) r => if a.1 then a.2.g2Room r else a) (true, s) = (true, u) :=
  ⟨g2at gsStarting 0, _, by
    refine ⟨?_, ?_, ?_, ?_, ?_, ?_, true_pair _ ?_⟩ <;> decide +kernel⟩
theorem test_G2LoadAct_13 : ∃ s : State, s.g2Serves = true ∧ s.on pgG2c G2C_CTRL_RECAL_EN = true :=
  ⟨g2at gsConfigured 0, by and_intros <;> decide +kernel⟩
theorem test_G2LoadAct_14 : ∃ (s : State) (n : Nat), s.g2.calRun = true ∧ 0 < n ∧ 34 * n ≤ 40 * s.g2.ref ∧ 40 * s.g2.ref ≤ 60 * n :=
  ⟨{ run with g2 := { run.g2 with calRun := true } }, 20480, by and_intros <;> decide +kernel⟩
theorem test_G2LoadAct_15 : ∃ (s : State) (n : Nat), s.g2.calRun = true ∧ 0 < n ∧ (40 * s.g2.ref < 34 * n ∨ 60 * n < 40 * s.g2.ref) :=
  ⟨{ run with g2 := { run.g2 with calRun := true } }, 13653, by and_intros <;> decide +kernel⟩
theorem test_G2LoadAct_16 : ∃ s : State, s.g2.calRun = true :=
  ⟨{ run with g2 := { run.g2 with calRun := true } }, by decide +kernel⟩
theorem test_G2RegistersAct_0 : ∃ (s : State) (a : BitVec 6), s.hostPort false = true ∧ s.g2Shut a.toNat = false ∧ (a.toNat < 8 ∨ 10 < a.toNat) :=
  ⟨g2at gsConfigured 7, 63, by and_intros <;> decide +kernel⟩
theorem test_G2RegistersAct_1 : ∃ (s : State) (a : BitVec 6), s.hostPort false = true ∧ 8 ≤ a.toNat ∧ a.toNat ≤ 10 :=
  ⟨g2at gsConfigured 7, 8, by and_intros <;> decide +kernel⟩
theorem test_G2RegistersAct_2 : ∃ (s : State) (a : BitVec 6), s.hostPort false = true ∧ s.g2Shut a.toNat = true ∧ (s.g2Raw 5).testBit 1 = false :=
  ⟨(g2at gsConfigured 7).wr pgG2c (G2C_REG_VALUE.at 4 4) 2, 0x10, by and_intros <;> decide +kernel⟩
theorem test_G2RegistersAct_4 : ∃ (s : State) (n : BitVec 4) (v : Byte), s.hostPort true = true ∧ (s.g2Raw 4) % 4 ≠ 2 ∧ (s.g2Raw 5).testBit 1 = false :=
  ⟨g2at gsConfigured 7, 15, 0xFF, by and_intros <;> decide +kernel⟩
theorem test_G2RegistersAct_5 : ∃ (s t u : State) (a k : BitVec 6) (v y x : Byte) (m : Master) (n : BitVec 4), exec (.g2HostWrite a v []) s = .next t ∧ exec (.g2cRegWrite m k y []) t = .next u :=
  ⟨g2at gsConfigured 7, _, _, 15, 16, 0xFF, 5, 6, .coxS, 3, ⟨rfl, rfl⟩⟩
theorem test_G2RegistersAct_6 : ∃ (s : State) (m : Master) (n : BitVec 4) (v : Byte), s.Admits m pgG2c (0x140 + 4 * n.toNat) ∧ (s.g2Raw 4) % 4 ≠ 2 :=
  ⟨g2at gsConfigured 7, .coxS, 15, 0xFF, by
    repeat' first | decide +kernel | apply admits_of | refine And.intro ?_ ?_ | constructor | rfl⟩
theorem test_G2RegistersAct_7 : ∃ (s : State) (m : Master) (v : Byte), s.Admits m pgG2c 0x11C ∧ (s.g2Raw 4) % 4 = 2 :=
  ⟨(g2at gsConfigured 7).wr pgG2c (G2C_REG_VALUE.at 4 4) 2, .coxS, 1, by
    repeat' first | decide +kernel | apply admits_of | refine And.intro ?_ ?_ | constructor | rfl⟩
theorem test_G2RegistersAct_8 : ∃ (s : State) (m : Master) (v : Byte), s.Admits m pgG2c 0x118 ∧ (s.g2Raw 4) % 4 ≠ 2 :=
  ⟨g2at gsConfigured 7, .coxS, 7, by
    repeat' first | decide +kernel | apply admits_of | refine And.intro ?_ ?_ | constructor | rfl⟩
theorem test_G2RegistersAct_9 : ∃ (s : State) (m : Master), s.Admits m pgG2c 0x110 :=
  ⟨g2at gsConfigured 7, .coxS, by
    repeat' first | decide +kernel | apply admits_of | refine And.intro ?_ ?_ | constructor | rfl⟩
theorem test_G2RegistersAct_10 : ∃ s : State, s.hostPort true = true :=
  ⟨g2at gsConfigured 7, by decide +kernel⟩
theorem test_G2RegistersAct_11 : ∃ (s : State) (n : BitVec 4) (v : Byte), s.g2Runs = true :=
  ⟨g2at gsConfigured 0, 15, 0xFF, by decide +kernel⟩
theorem test_G2RegistersAct_12 : ∃ (s : State) (b : BitVec 7), s.g2Runs = true :=
  ⟨g2at gsConfigured 0, 127, by decide +kernel⟩
theorem test_G2RegistersAct_13 : ∃ s : State, s.g2Mode = true ∧ (s.g2Raw 0xB).testBit 0 = true ∧ s.g2Left ≠ 0 :=
  ⟨((g2at gsConfigured 7).wr pgG2c (G2C_REG_VALUE.at 4 11) 1).wr pgG2c (G2C_REG_VALUE.at 4 8) 1, by and_intros <;> decide +kernel⟩
theorem test_G2RegistersAct_14 : ∃ (s : State) (d : Bool), s.g2Serves = true ∧ (s.g2State = gsStarting ∨ s.g2State = gsConfigured) ∧ s.g2.src = false ∧ s.pinsAre 8 [32, 33] = true :=
  ⟨g2at gsConfigured 8, true, by and_intros <;> decide +kernel⟩
theorem test_G2RegistersAct_15 : ∃ s : State, s.g2Mode = true ∧ s.mode .east ≠ mHalt ∧ s.g2State ≠ gsOff :=
  ⟨g2at gsWait 7, by and_intros <;> decide +kernel⟩
theorem test_G2RegistersAct_16 : ∃ (s : State) (n : Nat), (s.g2Mode = false ∨ s.mode .east = mHalt ∨ s.g2State = gsOff) :=
  ⟨run, 35, by decide +kernel⟩
theorem test_HatchesAct_0 : ∃ (s : State) (id : BitVec 16) (p : BitVec 6) (n len : BitVec 16) (bs : List Byte) (c : Crew) (r : Nat), s.crew id.toNat = some c ∧ (c.state = .running ∨ c.state = .pinned) ∧ c.suite[p.toNat]? = some r ∧ s.tokensMove r = true ∧ (s.room r).quiesce = false ∧ hatchHalf n.toNat = idHalf id.toNat ∧ s.pushCheck n.toNat (.crew id.toNat c.heat) len.toNat = .admitted :=
  ⟨{ (with1 (inRoom crew0)) with hatches := [(5, { hat0 with world := false })] }, 0x123, 0, 5, 8, [], inRoom crew0, 0, by and_intros <;> decide +kernel⟩
theorem test_HatchesAct_1 : ∃ (s : State) (id : BitVec 16) (p : BitVec 6) (n len : BitVec 16) (bs : List Byte) (c : Crew) (r code : Nat), s.crew id.toNat = some c ∧ (c.state = .running ∨ c.state = .pinned) ∧ c.suite[p.toNat]? = some r ∧ s.tokensMove r = true ∧ (s.room r).quiesce = false ∧ hatchHalf n.toNat = idHalf id.toNat ∧ s.pushCheck n.toNat (.crew id.toNat c.heat) len.toNat = .refuse code ∧ hatchNumOk n.toNat = true :=
  ⟨{ (with1 (inRoom crew0)) with hatches := [(5, { hat0 with world := false })] }, 0x123, 0, 5, 9, [], inRoom crew0, 0, hcTooLong, by and_intros <;> decide +kernel⟩
theorem test_HatchesAct_2 : ∃ (s t u : State) (id : BitVec 16) (p q : BitVec 6) (n len len' : BitVec 16) (bs bs' : List Byte) (fn : BitVec 8), p.toNat < q.toNat ∧ exec (.hatchReturn fn n 1) s = .next t ∧ exec (.hatchPush id p n len bs []) t = .next u :=
  ⟨{ (with1 (inRoom crew0)) with hatches := [(5, { hat0 with world := false })] }, _, _, 0x123, 0, 1, 5, 8, 8, [], [], 3, by
    refine ⟨?_, rfl, rfl⟩ <;> decide +kernel⟩
theorem test_HatchesAct_3 : ∃ (s t : State) (id : BitVec 16) (p : BitVec 6) (n len len' : BitVec 16) (bs : List Byte) (fn : BitVec 8), exec (.hatchPush id p n len bs []) s = .next t :=
  ⟨{ (with1 (inRoom crew0)) with hatches := [(5, { hat0 with world := false })] }, _, 0x123, 0, 5, 8, 8, [], 3, rfl⟩
theorem test_HatchesAct_4 : ∃ (s : State) (n : Nat) (who : Pusher) (len : Nat), hatchNumOk n = true ∧ (s.hatch n).isOpen = true ∧ (s.hatch n).closing = false ∧ isProducer (s.hatch n) who = true ∧ s.pusherWorld who = (s.hatch n).world :=
  ⟨{ (with1 (inRoom crew0)) with hatches := [(5, { hat0 with world := false })] }, 5, .crew 0x123 1, 8, by and_intros <;> decide +kernel⟩
theorem test_HatchesAct_5 : ∃ (s : State) (fn : BitVec 8) (n len : BitVec 16), s.BellServed fn.toNat ∧ s.hatchReached n.toNat = true ∧ s.pushCheck n.toNat (.host fn.toNat) len.toNat = .admitted :=
  ⟨{ { run with host := { run.host with vfs := 255, bme := [255] } } with hatches := [(5, { hat0 with srcKind := endHost, src := 255 })] }, 255, 5, 8, by
    refine ⟨⟨?_, ?_, ?_, ?_⟩, ?_, ?_⟩ <;> decide +kernel⟩
theorem test_HatchesAct_6 : ∃ (s : State) (n : BitVec 16) (k : Word) (p : Packet) (j : Nat), ((s.hatch n.toNat).packets.zipIdx.find? fun e => e.1.number == k.toNat && !e.1.posted) = some (p, j) :=
  ⟨{ run with hatches := [(5, { hat0 with packets := [{ pk with posted := false }] })] }, 5, 1, { pk with posted := false }, 0, by decide +kernel⟩
theorem test_HatchesAct_7 : ∃ (s : State) (n : BitVec 16) (c : Crew) (p : Packet), s.settle n.toNat = s ∧ (s.hatch n.toNat).isOpen = true ∧ (s.hatch n.toNat).closing = false ∧ (s.hatch n.toNat).dstKind = endCrew ∧ s.crew (s.hatch n.toNat).dst = some c ∧ (c.state = .running ∨ c.state = .pinned) ∧ s.tokensMove (c.suite.headD 0) = true ∧ (s.room (c.suite.headD 0)).quiesce = false ∧ (s.hatch n.toNat).head = some p ∧ p.shown = false :=
  ⟨{ (with1 (inRoom crew0)) with hatches := [(5, { hat0 with srcKind := endRing, src := 9, dstKind := endCrew, dst := 0x123, dstHeat := 1, packets := [pk] })] }, 5, inRoom crew0, pk, by and_intros <;> decide +kernel⟩
theorem test_HatchesAct_8 : ∃ (s u : State) (n : BitVec 16) (c : Crew) (p : Packet) (bs : List Byte), s.settle n.toNat = s ∧ (s.hatch n.toNat).isOpen = true ∧ (s.hatch n.toNat).closing = false ∧ (s.hatch n.toNat).dstKind = endCrew ∧ s.crew (s.hatch n.toNat).dst = some c ∧ (c.state = .running ∨ c.state = .pinned) ∧ s.tokensMove (c.suite.headD 0) = true ∧ (s.room (c.suite.headD 0)).quiesce = false ∧ (s.hatch n.toNat).head = some p ∧ p.shown = true ∧ p.words + 1 < p.len ∧ s.ringWord (s.hatch n.toNat) p p.words = (some bs, u) :=
  ⟨{ (with1 (inRoom crew0)) with hatches := [(5, { hat0 with srcKind := endRing, src := 9, dstKind := endCrew, dst := 0x123, dstHeat := 1, packets := [{ pk with len := 3, words := 1, shown := true }] })] }, _, 5, inRoom crew0, { pk with len := 3, words := 1, shown := true }, List.replicate 64 0, by
    refine ⟨?_, ?_, ?_, ?_, ?_, ?_, ?_, ?_, ?_, ?_, ?_, some_pair _ _ ?_⟩ <;> decide +kernel⟩
theorem test_HatchesAct_9 : ∃ (s u : State) (n : BitVec 16) (c : Crew) (p : Packet) (bs : List Byte), s.settle n.toNat = s ∧ (s.hatch n.toNat).isOpen = true ∧ (s.hatch n.toNat).closing = false ∧ (s.hatch n.toNat).dstKind = endCrew ∧ s.crew (s.hatch n.toNat).dst = some c ∧ (c.state = .running ∨ c.state = .pinned) ∧ s.tokensMove (c.suite.headD 0) = true ∧ (s.room (c.suite.headD 0)).quiesce = false ∧ (s.hatch n.toNat).head = some p ∧ p.shown = true ∧ p.words + 1 = p.len ∧ s.ringWord (s.hatch n.toNat) p p.words = (some bs, u) :=
  ⟨{ (with1 (inRoom crew0)) with hatches := [(5, { hat0 with srcKind := endRing, src := 9, dstKind := endCrew, dst := 0x123, dstHeat := 1, packets := [{ pk with shown := true }] })] }, _, 5, inRoom crew0, { pk with shown := true }, List.replicate 64 0, by
    refine ⟨?_, ?_, ?_, ?_, ?_, ?_, ?_, ?_, ?_, ?_, ?_, some_pair _ _ ?_⟩ <;> decide +kernel⟩
theorem test_HatchesAct_10 : ∃ (s : State) (n : BitVec 16) (p : Packet) (j : Nat), (s.hatch n.toNat).isOpen = true ∧ (s.hatch n.toNat).closing = false ∧ (s.hatch n.toNat).dstKind = endHost ∧ (s.hatch n.toNat).dst ∉ s.security.fns ∧ (s.hatch n.toNat).dst ∈ s.host.bme ∧ inService (s.mode .east) = true ∧ s.hatchReached n.toNat = true ∧ State.copyNext (s.hatch n.toNat) = some (p, j) ∧ s.sourceStale n.toNat (s.hatch n.toNat) p = false :=
  ⟨{ { run with host := { run.host with vfs := 255, bme := [255] } } with hatches := [(5, { hat0 with srcKind := endRing, src := 9, dstKind := endHost, dst := 255, packets := [pk] })] }, 5, pk, 0, by and_intros <;> decide +kernel⟩
theorem test_HatchesAct_11 : ∃ (s : State) (n : BitVec 16) (p : Packet) (j : Nat), (s.hatch n.toNat).isOpen = true ∧ (s.hatch n.toNat).closing = false ∧ (s.hatch n.toNat).dstKind = endHost ∧ (s.hatch n.toNat).dst ∉ s.security.fns ∧ (s.hatch n.toNat).dst ∈ s.host.bme ∧ inService (s.mode .east) = true ∧ s.hatchReached n.toNat = true ∧ State.copyNext (s.hatch n.toNat) = some (p, j) ∧ s.sourceStale n.toNat (s.hatch n.toNat) p = true :=
  ⟨{ { run with host := { run.host with vfs := 255, bme := [255] } } with hatches := [(5, { hat0 with srcKind := endCrew, src := 0x123, dstKind := endHost, dst := 255, packets := [{ pk with kind := 0 }] })] }, 5, { pk with kind := 0 }, 0, by and_intros <;> decide +kernel⟩
theorem test_HatchesAct_12 : ∃ (s : State) (fn : BitVec 8) (n : BitVec 16) (p : Packet), s.BellServed fn.toNat ∧ s.hatchReached n.toNat = true ∧ hatchNumOk n.toNat = true ∧ (s.hatch n.toNat).isOpen = true ∧ (s.hatch n.toNat).dstKind = endHost ∧ (s.hatch n.toNat).dst = fn.toNat ∧ s.ownerWorld fn.toNat = (s.hatch n.toNat).world ∧ (s.hatch n.toNat).head = some p :=
  ⟨{ { run with host := { run.host with vfs := 255, bme := [255] } } with hatches := [(5, { hat0 with srcKind := endRing, src := 9, dstKind := endHost, dst := 255, packets := [pk] })] }, 255, 5, pk, by
    refine ⟨⟨?_, ?_, ?_, ?_⟩, ?_, ?_, ?_, ?_, ?_, ?_, ?_⟩ <;> decide +kernel⟩
theorem test_HatchesAct_13 : ∃ (s : State) (fn : BitVec 8) (n c : BitVec 16), s.BellServed fn.toNat ∧ s.hatchReached n.toNat = true ∧ hatchNumOk n.toNat = true ∧ (s.hatch n.toNat).isOpen = true ∧ (s.hatch n.toNat).dstKind = endHost ∧ (s.hatch n.toNat).dst = fn.toNat ∧ s.ownerWorld fn.toNat = (s.hatch n.toNat).world ∧ (s.hatch n.toNat).head = none ∧ c ≠ 0 :=
  ⟨{ { run with host := { run.host with vfs := 255, bme := [255] } } with hatches := [(5, { hat0 with dstKind := endHost, dst := 255 })] }, 255, 5, 1, by
    refine ⟨⟨?_, ?_, ?_, ?_⟩, ?_, ?_, ?_, ?_, ?_, ?_, ?_, ?_⟩ <;> decide +kernel⟩
theorem test_HatchesAct_14 : ∃ (s u : State) (n : BitVec 16) (p : Packet) (bs : List Byte), s.settle n.toNat = s ∧ (s.hatch n.toNat).head = some p ∧ (s.hatch n.toNat).dstKind = endRing ∧ (s.hatch n.toNat).isOpen = true ∧ p.copied = false ∧ s.cut (hatchHalf n.toNat) = false ∧ s.takesPacket p.len = true ∧ p.len = 1 ∧ s.ringWord (s.hatch n.toNat) p 0 = (some bs, u) :=
  ⟨{ ring with hatches := [(5, { hat0 with srcKind := endHost, src := 255, packets := [pk] })] }, _, 5, pk, List.replicate 64 0, by
    refine ⟨?_, ?_, ?_, ?_, ?_, ?_, ?_, ?_, some_pair _ _ ?_⟩ <;> decide +kernel⟩
theorem test_HatchesAct_15 : ∃ (s : State) (n : BitVec 16), s.settle n.toNat = s ∧ s.cut (hatchHalf n.toNat) = false ∧ s.crsState ≠ csMember :=
  ⟨run, 5, by and_intros <;> decide +kernel⟩
theorem test_HatchesAct_16 : ∃ (s : State) (p : Port) (n : Nat), s.PortFree .hat p ∧ s.portRd .hat p HAT_ARG_HATCH = n ∧ hatchNumOk n = true ∧ portServes p (hatchHalf n) = true ∧ (s.hatch n).closing = false ∧ s.mayName (portOwner p) (Hatch.ofWords (s.hatWindow p)) = true ∧ (s.hatch n).isOpen = false ∧ s.hatchDescOk n (Hatch.ofWords (s.hatWindow p)) = true ∧ s.endsLive (Hatch.ofWords (s.hatWindow p)) = true ∧ (Hatch.ofWords (s.hatWindow p)).world = false :=
  ⟨((run).wr (pgHat .east) HAT_ARG_HATCH 5).wrs (pgHat .east) [(HAT_DESC_WORD, 0x13610000), (HAT_DESC_WORD.at 4 1, 0xFF0000), (HAT_DESC_WORD.at 4 2, 0x3FF0000), (HAT_DESC_WORD.at 4 4, 0x1000)], ep, 5, by
    refine ⟨⟨takes_of ?_ ?_, ?_⟩, ?_, ?_, ?_, ?_, ?_, ?_, ?_, ?_, ?_⟩ <;> decide +kernel⟩
theorem test_HatchesAct_17 : ∃ (s : State) (p : Port) (n : Nat), s.PortFree .hat p ∧ s.portRd .hat p HAT_ARG_HATCH = n ∧ hatchNumOk n = false :=
  ⟨(run).wr (pgHat .east) HAT_ARG_HATCH 4096, ep, 0x1000, by
    refine ⟨⟨takes_of ?_ ?_, ?_⟩, ?_, ?_⟩ <;> decide +kernel⟩
theorem test_HatchesAct_18 : ∃ (s : State) (p : Port) (n : Nat), s.PortFree .hat p ∧ s.portRd .hat p HAT_ARG_HATCH = n ∧ hatchNumOk n = true ∧ portServes p (hatchHalf n) = true ∧ (s.hatch n).closing = false :=
  ⟨(run).wr (pgHat .east) HAT_ARG_HATCH 4095, ep, 0xFFF, by
    refine ⟨⟨takes_of ?_ ?_, ?_⟩, ?_, ?_, ?_, ?_⟩ <;> decide +kernel⟩
theorem test_HatchesAct_19 : ∃ (s : State) (p : Port) (n : Nat), s.PortFree .hat p ∧ s.portRd .hat p HAT_ARG_HATCH = n ∧ hatchNumOk n = true ∧ portServes p (hatchHalf n) = true ∧ (s.hatch n).closing = false ∧ (s.hatch n).isOpen = true ∧ s.mayName (portOwner p) (s.hatch n) = true :=
  ⟨({ run with hatches := [(5, { hat0 with world := false })] }).wr (pgHat .east) HAT_ARG_HATCH 5, ep, 5, by
    refine ⟨⟨takes_of ?_ ?_, ?_⟩, ?_, ?_, ?_, ?_, ?_, ?_⟩ <;> decide +kernel⟩
theorem test_HatchesAct_20 : ∃ (s : State) (n : BitVec 16) (o : PortOp), (s.hatch n.toNat).closing = true ∧ ((∀ p ∈ (s.hatch n.toNat).packets, p.posted = true)) ∧ (s.portOps.find? fun o => o.block == .hat && o.id == n.toNat && o.op == 3) = some o ∧ o.discard = false :=
  ⟨({ (let s := { run with hatches := [(5, { hat0 with closing := true, packets := [pk] })] }; { s with portOps := [⟨ep, .hat, 3, 5, 0, false, [], 0, none⟩] }) with draws := 0 } : State), 5, ⟨ep, .hat, 3, 5, 0, false, [], 0, none⟩, by
    repeat' first | decide +kernel | apply admits_of | refine And.intro ?_ ?_ | constructor | rfl⟩
theorem test_HatchesAct_21 : ∃ (s : State) (p : Port) (op : BitVec 4), s.PortFree .hat p ∧ (op = 0 ∨ 4 ≤ op.toNat) :=
  ⟨run, ep, 15, by
    refine ⟨⟨takes_of ?_ ?_, ?_⟩, ?_⟩ <;> decide +kernel⟩
theorem test_SwapStepsAct_0 : ∃ (s u : State) (w : BitVec 4) (now n : Nat) (x : Swap) (fl : Bool), s.swapAt w.toNat 3 = some x ∧ s.saveCrews x.outs now false = (fl, u) ∧ (u.wing w.toNat).swap = some x ∧ x.kind ≠ .standby ∧ s.unquiet x.rooms = [] ∧ u.codeOut x.rooms = false :=
  ⟨{ (with1 { inRoom crew0 with target := .parked }) with wings := [(0, { Wing.fresh with swap := some ⟨.swap, 3, [0x123], [0], some (0x123, 1), [0], false, false, false, false⟩ })] }, (State.saveCrews ({ (with1 { inRoom crew0 with target := .parked }) with wings := [(0, { Wing.fresh with swap := some ⟨.swap, 3, [0x123], [0], some (0x123, 1), [0], false, false, false, false⟩ })] }) [0x123] 5 false).2, 0, 5, 6, ⟨.swap, 3, [0x123], [0], some (0x123, 1), [0], false, false, false, false⟩, (State.saveCrews ({ (with1 { inRoom crew0 with target := .parked }) with wings := [(0, { Wing.fresh with swap := some ⟨.swap, 3, [0x123], [0], some (0x123, 1), [0], false, false, false, false⟩ })] }) [0x123] 5 false).1, by
    refine ⟨?_, rfl, ?_, ?_, ?_, ?_⟩ <;> decide +kernel⟩
theorem test_SwapStepsAct_1 : ∃ (s : State) (w : BitVec 4) (now n : Nat) (x : Swap), s.swapAt w.toNat 3 = some x ∧ s.unquiet x.rooms ≠ [] :=
  ⟨{ with1 (inRoom crew0) with blocks := [(0, { Block.fresh with flight := [none] })], wings := [(0, { Wing.fresh with swap := some ⟨.swap, 3, [0x123], [0], some (0x123, 1), [0], false, false, false, false⟩ })] }, 0, 5, 6, ⟨.swap, 3, [0x123], [0], some (0x123, 1), [0], false, false, false, false⟩, by and_intros <;> decide +kernel⟩
theorem test_SwapStepsAct_2 : ∃ (s : State) (id now r : Nat) (c : Crew), s.crew id = some c ∧ c.target = .parked ∧ c.suite = [r] ∧ r % 256 < 192 ∧ (s.room r).codeFlag = false :=
  ⟨with1 { inRoom crew0 with target := .parked }, 0x123, 5, 0, { inRoom crew0 with target := .parked }, by and_intros <;> decide +kernel⟩
theorem test_SwapStepsAct_3 : ∃ (s u : State) (w : BitVec 4) (n id heat r k : Nat) (c : Crew) (x : Swap), s.swapAt w.toNat 4 = some x ∧ x.inc = some (id, heat) ∧ x.lost = false ∧ s.crewLive id heat = true ∧ s.crew id = some c ∧ x.suite = [r] ∧ ((x.kind = .reconfig → s.unquiet x.rooms = [])) ∧ (s.modCrew id fun c => { c with rewritten := false }).loadRoom w.toNat id c r 0 (x.kind == .swap) = (.ok k, u) ∧ (u.wing w.toNat).swap = some x :=
  ⟨{ (with1 (inRoom crew0)) with wings := [(0, { Wing.fresh with swap := some ⟨.swap, 4, [], [0], some (0x123, 1), [0], false, false, false, false⟩ })], rooms := [(0, { Room.fresh with svalid := true, screw := 0x123, sheat := 1 })] }, _, 0, 5, 0x123, 1, 0, 0, inRoom crew0, ⟨.swap, 4, [], [0], some (0x123, 1), [0], false, false, false, false⟩, by
    refine ⟨?_, ?_, ?_, ?_, ?_, ?_, ?_, ok_pair _ _ ?_, ?_⟩ <;> decide +kernel⟩
theorem test_SwapStepsAct_4 : ∃ (s u : State) (w : BitVec 4) (n id heat r : Nat) (c : Crew) (x : Swap) (f : FaultInfo), s.swapAt w.toNat 4 = some x ∧ x.inc = some (id, heat) ∧ x.lost = false ∧ s.crewLive id heat = true ∧ s.crew id = some c ∧ x.suite = [r] ∧ ((x.kind = .reconfig → s.unquiet x.rooms = [])) ∧ (s.modCrew id fun c => { c with rewritten := false }).loadRoom w.toNat id c r 0 (x.kind == .swap) = (.error f, u) :=
  ⟨{ (with1 (inRoom crew0)).wr (pgWng 0) WNG_LDR_CFG_LC_EN 1 with wings := [(0, { Wing.fresh with cache := [⟨0x123, 1, 0, [(91776, 1)]⟩], swap := some ⟨.reconfig, 4, [], [0], some (0x123, 1), [0], false, false, false, false⟩ })] }, _, 0, 5, 0x123, 1, 0, inRoom crew0, ⟨.reconfig, 4, [], [0], some (0x123, 1), [0], false, false, false, false⟩, ⟨7, 0, 536871091⟩, by
    refine ⟨?_, ?_, ?_, ?_, ?_, ?_, ?_, error_pair _ _ ?_⟩ <;> decide +kernel⟩
theorem test_SwapStepsAct_5 : ∃ (s : State) (w : BitVec 4) (id heat r : Nat) (x : Swap), s.swapAt w.toNat 5 = some x ∧ x.inc = some (id, heat) ∧ x.lost = false ∧ x.kind = .swap ∧ x.suite = [r] ∧ r % 256 < 192 :=
  ⟨{ (with1 (inRoom crew0)) with wings := [(0, { Wing.fresh with swap := some ⟨.swap, 5, [], [0], some (0x123, 1), [0], false, false, false, false⟩ })] }, 0, 0x123, 1, 0, ⟨.swap, 5, [], [0], some (0x123, 1), [0], false, false, false, false⟩, by and_intros <;> decide +kernel⟩
theorem test_SwapStepsAct_6 : ∃ (s u : State) (w : BitVec 4) (n id heat r : Nat) (c : Crew) (x : Swap) (img : Tbl Byte), s.swapAt w.toNat 6 = some x ∧ x.inc = some (id, heat) ∧ x.lost = false ∧ s.crewLive id heat = true ∧ s.crew id = some c ∧ x.suite = [r] ∧ x.kind = .swap ∧ r % 256 < 192 ∧ c.isPinned = false ∧ ((s.wing w.toNat).staged.find? fun y => y.crew == id && y.heat == heat && y.pos == 0) = none ∧ s.readMem ueLoader (stateAddr c c.useFirst 0) imageBytes = (.ok img, u) :=
  ⟨{ (with1 (inRoom crew0)) with wings := [(0, { Wing.fresh with swap := some ⟨.swap, 6, [], [0], some (0x123, 1), [0], false, false, false, false⟩ })] }, _, 0, 5, 0x123, 1, 0, inRoom crew0, ⟨.swap, 6, [], [0], some (0x123, 1), [0], false, false, false, false⟩, [], by
    refine ⟨?_, ?_, ?_, ?_, ?_, ?_, ?_, ?_, ?_, ?_, ok_pair _ _ ?_⟩ <;> decide +kernel⟩
theorem test_SwapStepsAct_7 : ∃ (s : State) (w : BitVec 4) (n id heat : Nat) (c : Crew) (x : Swap), s.swapAt w.toNat 7 = some x ∧ x.inc = some (id, heat) ∧ x.lost = false ∧ s.crewLive id heat = true ∧ s.crew id = some c ∧ c.isPinned = false ∧ x.kind = .swap ∧ x.rooms = x.suite :=
  ⟨{ (with1 (inRoom crew0)) with wings := [(0, { Wing.fresh with swap := some ⟨.swap, 7, [], [0], some (0x123, 1), [0], false, false, false, false⟩ })] }, 0, 5, 0x123, 1, inRoom crew0, ⟨.swap, 7, [], [0], some (0x123, 1), [0], false, false, false, false⟩, by and_intros <;> decide +kernel⟩
theorem test_SwapStepsAct_8 : ∃ (s : State) (w : BitVec 4) (n : Nat) (x : Swap), s.swapAt w.toNat 7 = some x ∧ x.inc = none ∧ x.kind = .swap :=
  ⟨{ (with1 (inRoom crew0)) with wings := [(0, { Wing.fresh with swap := some ⟨.swap, 7, [], [0], none, [], false, false, false, false⟩ })] }, 0, 5, ⟨.swap, 7, [], [0], none, [], false, false, false, false⟩, by and_intros <;> decide +kernel⟩
theorem test_SwapStepsAct_9 : ∃ (s : State) (id : BitVec 16) (c : Crew), s.crew id.toNat = some c ∧ c.state = .running ∧ c.waiting = false ∧ s.orphan (idHalf id.toNat) = false :=
  ⟨(with1 (inRoom crew0)), 0x123, inRoom crew0, by and_intros <;> decide +kernel⟩
theorem test_SwapStepsAct_10 : ∃ (s : State) (id : BitVec 16) (c : Crew), s.crew id.toNat = some c ∧ c.state ≠ .running :=
  ⟨with1 crew0, 0x123, crew0, by and_intros <;> decide +kernel⟩
theorem test_SwapStepsAct_11 : ∃ (s : State) (id : BitVec 16) (c : Crew), s.crew id.toNat = some c ∧ c.state = .running ∧ swapMode (s.mode (idHalf id.toNat)) = true ∧ c.parkOnIdle = true ∧ c.wakePending = false ∧ c.waiting = false ∧ (s.crossing (idHalf id.toNat) xkIdle (crewWing c % 8)).isOpen = false ∧ (s.crossing (idHalf id.toNat) xkIdle (crewWing c % 8)).notReady = false :=
  ⟨with1 { inRoom crew0 with parkOnIdle := true }, 0x123, { inRoom crew0 with parkOnIdle := true }, by and_intros <;> decide +kernel⟩
theorem test_SwapStepsAct_12 : ∃ (s : State) (id : BitVec 16) (c : Crew), s.crew id.toNat = some c ∧ c.state = .running ∧ swapMode (s.mode (idHalf id.toNat)) = true ∧ c.wakePending = true ∧ c.waiting = true ∧ (s.crossing (idHalf id.toNat) xkIdle (crewWing c % 8)).isOpen = false ∧ (s.crossing (idHalf id.toNat) xkIdle (crewWing c % 8)).notReady = false :=
  ⟨with1 { inRoom crew0 with waiting := true, wakePending := true }, 0x123, { inRoom crew0 with waiting := true, wakePending := true }, by and_intros <;> decide +kernel⟩
theorem test_SwapStepsAct_13 : ∃ (s : State) (id : BitVec 16) (c : Crew), s.crew id.toNat = some c ∧ c.state = .running ∧ (s.crossing (idHalf id.toNat) xkIdle (crewWing c % 8)).isOpen = true :=
  ⟨((with1 (inRoom crew0))).setCross .east xkIdle 0 { Cross.fresh with isOpen := true }, 0x123, inRoom crew0, by and_intros <;> decide +kernel⟩
theorem test_SwapStepsAct_14 : ∃ (s : State) (id : BitVec 16) (c : Crew), s.crew id.toNat = some c ∧ c.state = .ready ∧ s.eff id.toNat c < 7 ∧ s.rd (pgStw (idHalf id.toNat)) STW_SCHED_AGE ≠ 0 :=
  ⟨(with1 { crew0 with state := .ready }).wr (pgStw .east) STW_SCHED_AGE 1, 0x123, { crew0 with state := .ready }, by and_intros <;> decide +kernel⟩
theorem test_SwapStepsAct_15 : ∃ (s : State) (id : BitVec 16) (c : Crew), s.crew id.toNat = some c ∧ c.state = .ready ∧ 7 ≤ s.eff id.toNat c ∧ s.rd (pgStw (idHalf id.toNat)) STW_SCHED_AGE ≠ 0 :=
  ⟨(with1 { crew0 with state := .ready, prio := 7 }).wr (pgStw .east) STW_SCHED_AGE 1, 0x123, { crew0 with state := .ready, prio := 7 }, by and_intros <;> decide +kernel⟩
theorem test_SwapStepsAct_16 : ∃ (s : State) (id : BitVec 16) (c : Crew) (bs : List Byte), s.crew id.toNat = some c ∧ c.held = some bs :=
  ⟨with1 { crew0 with held := some [1] }, 0x123, { crew0 with held := some [1] }, [1], by and_intros <;> decide +kernel⟩
theorem test_SwapStepsAct_17 : ∃ (s : State) (h : Half) (id : BitVec 16), idHalf id.toNat = other h ∧ s.cut (other h) = false ∧ s.hatches = [] :=
  ⟨run, .east, 0x8000, by and_intros <;> decide +kernel⟩
theorem test_SwapStepsAct_18 : ∃ (s : State) (id : BitVec 16) (r : IdRec), Tbl.find s.ids id.toNat = some r :=
  ⟨with1 crew0, 0x123, ⟨1, 0, false, []⟩, by decide +kernel⟩
theorem test_LoaderAct_0 : ∃ (s : State) (bs : List Byte) (h : ImgHdr), s.loading = true ∧ s.phase = phHeader ∧ bs.length = hdrBytes ∧ s.storedPeek 0 hdrBytes = some bs ∧ s.sourceLost 0 hdrBytes = false ∧ hdrCheck bs (if s.fromAttic then some (slotBytes - s.loader.base) else none) = .ok h ∧ s.hdrMatches h = true ∧ hdrLate h = none ∧ s.hdrKey h = none ∧ 0 < h.plainLen :=
  ⟨atHeader hdrB, hdrB, hdrOf hdrB, by
    refine ⟨?_, ?_, ?_, ?_, ?_, (congrArg (hdrCheck hdrB) (if_neg ?_)).trans hdr_ok, ?_, ?_, ?_, ?_⟩ <;> decide +kernel⟩
theorem test_LoaderAct_1 : ∃ (s : State) (bs : List Byte) (code : Nat), s.loading = true ∧ s.phase = phHeader ∧ bs.length = hdrBytes ∧ s.storedPeek 0 hdrBytes = some bs ∧ s.sourceLost 0 hdrBytes = false ∧ hdrCheck bs (if s.fromAttic then some (slotBytes - s.loader.base) else none) = .error code :=
  ⟨atHeader (List.replicate 256 0), List.replicate 256 0, lfBadMagic, by
    refine ⟨?_, ?_, ?_, ?_, ?_, error_of ?_⟩ <;> decide +kernel⟩
theorem test_LoaderAct_2 : ∃ (s : State) (c tag : List Byte) (h : ImgHdr) (k : BitVec 256), s.loader.hdr = some h ∧ s.loading = true ∧ s.phase = phRecords ∧ h.encrypted = true ∧ s.loader.seg < h.segments ∧ tag.length = 16 ∧ c.length = min segBytes (h.plainLen - s.loader.seg * segBytes) ∧ s.storedPeek (hdrBytes + s.loader.seg * segStored) (c.length + 16) = some (c ++ tag) ∧ s.sourceLost (hdrBytes + s.loader.seg * segStored) (c.length + 16) = false ∧ s.keyUsable h.keySlot = some k :=
  ⟨{ ({ (up mLoadHost).wr pgLcs LCS_STATE_STATE 2 with security := { ((up mLoadHost).wr pgLcs LCS_STATE_STATE 2).security with keys := [⟨.valid, 5⟩, ⟨.empty, 0⟩, ⟨.empty, 0⟩, ⟨.empty, 0⟩, ⟨.empty, 0⟩, ⟨.empty, 0⟩] } }).wrs pgCfg [(CFG_STAT_PHASE, 2), (CFG_STAT_SOURCE, 3)] with loader := { Loader.fresh 0 with hdr := some { img 24 with encrypted := true }, pos := hdrBytes, stream := List.replicate 24 7 } }, List.replicate 8 7, List.replicate 16 7, { img 24 with encrypted := true }, 5, by and_intros <;> decide +kernel⟩
theorem test_LoaderAct_3 : ∃ (s : State) (r : Rec) (h : ImgHdr) (hd data rest : List Byte), s.RecordNext rtFrame r h hd ∧ unitOf h.compressed 512 (r.body.drop 8) = some (data, rest) ∧ padOk rest = true ∧ 8 ≤ r.body.length ∧ leAt r.body 4 4 = 0 ∧ s.rd pgCfg CFG_FRAMES_WRITES + 1 ≤ h.frameCount ∧ h.frameCount ≤ maxFrames ∧ s.frameGood (leAt r.body 0 4) = true :=
  ⟨atRecord rtFrame (frameBody), recOf (frameBody), img (8 + (frameBody).length), recHead rtFrame (frameBody).length, List.replicate 512 0, List.replicate 6 0, by
    refine ⟨{ image := ?_, head := ?_, live := ⟨?_, ?_⟩, kind := ?_, resv := ⟨?_, ?_⟩, len := ⟨?_, ?_⟩, fits := ?_, last := ?_, body := ?_, read := ?_ }, ?_, ?_, ?_, ?_, ?_, ?_, ?_⟩ <;> decide +kernel⟩
theorem test_LoaderAct_4 : ∃ (s : State) (r : Rec) (h : ImgHdr) (hd data rest : List Byte), s.RecordNext rtFrame r h hd ∧ unitOf h.compressed 512 (r.body.drop 8) = some (data, rest) ∧ padOk rest = true ∧ 8 ≤ r.body.length ∧ leAt r.body 4 4 = 0 ∧ h.frameCount < s.rd pgCfg CFG_FRAMES_WRITES + 1 :=
  ⟨(atRecord rtFrame frameBody).wr pgCfg CFG_FRAMES_WRITES 5, recOf (frameBody), img (8 + (frameBody).length), recHead rtFrame (frameBody).length, List.replicate 512 0, List.replicate 6 0, by
    refine ⟨{ image := ?_, head := ?_, live := ⟨?_, ?_⟩, kind := ?_, resv := ⟨?_, ?_⟩, len := ⟨?_, ?_⟩, fits := ?_, last := ?_, body := ?_, read := ?_ }, ?_, ?_, ?_, ?_, ?_⟩ <;> decide +kernel⟩
theorem test_LoaderAct_5 : ∃ (s u : State) (r : Rec) (h : ImgHdr) (hd data rest : List Byte), s.RecordNext rtRepeat r h hd ∧ unitOf h.compressed 512 (r.body.drop (8 + (4 * leAt r.body 0 4 + 7) / 8 * 8)) = some (data, rest) ∧ padOk rest = true ∧ 0 < leAt r.body 0 4 ∧ leAt r.body 0 4 ≤ 65535 ∧ leAt r.body 4 4 = 0 ∧ 8 + (4 * leAt r.body 0 4 + 7) / 8 * 8 ≤ r.body.length ∧ leAt r.body (8 + 4 * leAt r.body 0 4) ((4 * leAt r.body 0 4 + 7) / 8 * 8 - 4 * leAt r.body 0 4) = 0 ∧ s.rd pgCfg CFG_FRAMES_WRITES + leAt r.body 0 4 ≤ h.frameCount ∧ (s.wr pgCfg CFG_FRAMES_WRITES (s.rd pgCfg CFG_FRAMES_WRITES + leAt r.body 0 4)).writeFrames (Tbl.putBytes [] 0 data) ((List.range (leAt r.body 0 4)).map fun i => leAt r.body (8 + 4 * i) 4) = (none, u) :=
  ⟨atRecord rtRepeat ([1, 0, 0, 0, 0, 0, 0, 0, 0, 0, 0, 0, 0, 0, 0, 0, 0, 0x82] ++ List.replicate 6 0), _, recOf ([1, 0, 0, 0, 0, 0, 0, 0, 0, 0, 0, 0, 0, 0, 0, 0, 0, 0x82] ++ List.replicate 6 0), img (8 + ([1, 0, 0, 0, 0, 0, 0, 0, 0, 0, 0, 0, 0, 0, 0, 0, 0, 0x82] ++ List.replicate 6 0).length), recHead rtRepeat ([1, 0, 0, 0, 0, 0, 0, 0, 0, 0, 0, 0, 0, 0, 0, 0, 0, 0x82] ++ List.replicate 6 0).length, List.replicate 512 0, List.replicate 6 0, by
    refine ⟨{ image := ?_, head := ?_, live := ⟨?_, ?_⟩, kind := ?_, resv := ⟨?_, ?_⟩, len := ⟨?_, ?_⟩, fits := ?_, last := ?_, body := ?_, read := ?_ }, ?_, ?_, ?_, ?_, ?_, ?_, ?_, ?_, none_pair _ ?_⟩ <;> decide +kernel⟩
theorem test_LoaderAct_6 : ∃ (s : State) (r : Rec) (h : ImgHdr) (hd : List Byte) (a b : Nat), s.RecordNext rtZero r h hd ∧ r.body.length = 8 ∧ leAt r.body 0 4 = a ∧ leAt r.body 4 4 = b ∧ frameOk a = true ∧ frameOk b = true ∧ a / 2 ^ 29 = b / 2 ^ 29 ∧ addrRoom a = addrRoom b ∧ addrFrame a ≤ addrFrame b ∧ addrKind a = 1 ∧ s.rd pgCfg CFG_FRAMES_WRITES + (addrFrame b + 1 - addrFrame a) ≤ h.frameCount ∧ h.frameCount ≤ maxFrames :=
  ⟨atRecord rtZero ([0, 0, 0, 0x40, 4, 0, 0, 0x40]), recOf ([0, 0, 0, 0x40, 4, 0, 0, 0x40]), img (8 + ([0, 0, 0, 0x40, 4, 0, 0, 0x40]).length), recHead rtZero ([0, 0, 0, 0x40, 4, 0, 0, 0x40]).length, 0x40000000, 0x40000004, by
    refine ⟨{ image := ?_, head := ?_, live := ⟨?_, ?_⟩, kind := ?_, resv := ⟨?_, ?_⟩, len := ⟨?_, ?_⟩, fits := ?_, last := ?_, body := ?_, read := ?_ }, ?_, ?_, ?_, ?_, ?_, ?_, ?_, ?_, ?_, ?_⟩ <;> decide +kernel⟩
theorem test_LoaderAct_7 : ∃ (s : State) (r : Rec) (h : ImgHdr) (hd : List Byte), s.RecordNext rtZero r h hd ∧ r.body.length = 8 ∧ addrFrame (leAt r.body 4 4) < addrFrame (leAt r.body 0 4) :=
  ⟨atRecord rtZero ([1, 0, 0, 0, 0, 0, 0, 0]), recOf ([1, 0, 0, 0, 0, 0, 0, 0]), img (8 + ([1, 0, 0, 0, 0, 0, 0, 0]).length), recHead rtZero ([1, 0, 0, 0, 0, 0, 0, 0]).length, by
    refine ⟨{ image := ?_, head := ?_, live := ⟨?_, ?_⟩, kind := ?_, resv := ⟨?_, ?_⟩, len := ⟨?_, ?_⟩, fits := ?_, last := ?_, body := ?_, read := ?_ }, ?_, ?_⟩ <;> decide +kernel⟩
theorem test_LoaderAct_8 : ∃ (s : State) (r : Rec) (h : ImgHdr) (hd map rest : List Byte) (c : Crew), s.RecordNext rtEssential r h hd ∧ unitOf h.compressed mapBytes (r.body.drop 8) = some (map, rest) ∧ padOk rest = true ∧ leAt r.body 3 5 = 0 ∧ (s.loader.crews.any fun e => e.id == leAt r.body 0 2 && (e.data || e.adopt)) = true ∧ s.crew (leAt r.body 0 2) = some c ∧ leAt r.body 2 1 < c.w * c.h := by
  have h : (unitOf true mapBytes (essBody.drop 8)).map (·.2) = some [0, 0] := by decide +kernel
  obtain ⟨m, e⟩ := some_snd h
  refine ⟨{ atRecord rtEssential essBody with crews := [(0x123, crew0)], loader := { (atRecord rtEssential essBody).loader with crews := [⟨0x123, false, true, []⟩] } },
    recOf essBody, img (8 + essBody.length), recHead rtEssential essBody.length, m, [0, 0], crew0, { image := ?_, head := ?_, live := ⟨?_, ?_⟩, kind := ?_, resv := ⟨?_, ?_⟩, len := ⟨?_, ?_⟩, fits := ?_, last := ?_, body := ?_, read := ?_ }, e, ?_, ?_, ?_, ?_, ?_⟩ <;> decide +kernel
theorem test_LoaderAct_9 : ∃ (s u : State) (r : Rec) (h : ImgHdr) (hd : List Byte) (b : Option LoadBad), s.RecordNext rtCrew r h hd ∧ State.crewAct r.body s h = (b, u) :=
  ⟨atRecord rtCrew (List.replicate 72 0), _, recOf (List.replicate 72 0), img (8 + (List.replicate 72 0).length), recHead rtCrew (List.replicate 72 0).length, _, by
    refine ⟨{ image := ?_, head := ?_, live := ⟨?_, ?_⟩, kind := ?_, resv := ⟨?_, ?_⟩, len := ⟨?_, ?_⟩, fits := ?_, last := ?_, body := ?_, read := ?_ }, pair_eta _⟩ <;> decide +kernel⟩
theorem test_LoaderAct_10 : ∃ (s : State) (r : Rec) (h : ImgHdr) (hd : List Byte), s.RecordNext rtHall r h hd ∧ 8 ≤ r.body.length ∧ ((∀ i, i < r.body.length / 8 → hallOk (leAt r.body (8 * i) 4) = true)) :=
  ⟨atRecord rtHall ([0x14, 0x20, 1, 0, 0, 0, 0, 0]), recOf ([0x14, 0x20, 1, 0, 0, 0, 0, 0]), img (8 + ([0x14, 0x20, 1, 0, 0, 0, 0, 0]).length), recHead rtHall ([0x14, 0x20, 1, 0, 0, 0, 0, 0]).length, by
    refine ⟨{ image := ?_, head := ?_, live := ⟨?_, ?_⟩, kind := ?_, resv := ⟨?_, ?_⟩, len := ⟨?_, ?_⟩, fits := ?_, last := ?_, body := ?_, read := ?_ }, ?_, ?_⟩ <;> decide +kernel⟩
theorem test_LoaderAct_11 : ∃ (s : State) (r : Rec) (h : ImgHdr) (hd : List Byte), s.RecordNext rtHall r h hd ∧ 8 ≤ r.body.length ∧ hallOk (leAt r.body 0 4) = false :=
  ⟨atRecord rtHall (List.replicate 8 0), recOf (List.replicate 8 0), img (8 + (List.replicate 8 0).length), recHead rtHall (List.replicate 8 0).length, by
    refine ⟨{ image := ?_, head := ?_, live := ⟨?_, ?_⟩, kind := ?_, resv := ⟨?_, ?_⟩, len := ⟨?_, ?_⟩, fits := ?_, last := ?_, body := ?_, read := ?_ }, ?_, ?_⟩ <;> decide +kernel⟩
theorem test_LoaderAct_12 : ∃ (s : State) (r : Rec) (h : ImgHdr) (hd : List Byte), s.RecordNext rtEnd r h hd ∧ s.endCheck h r.body = none ∧ s.loader.crews = [] ∧ s.loader.hall = [] :=
  ⟨(atRecord rtEnd endBody).wr pgCfg CFG_FRAMES_WRITES 5, recOf (endBody), img (8 + (endBody).length), recHead rtEnd (endBody).length, by
    refine ⟨{ image := ?_, head := ?_, live := ⟨?_, ?_⟩, kind := ?_, resv := ⟨?_, ?_⟩, len := ⟨?_, ?_⟩, fits := ?_, last := ?_, body := ?_, read := ?_ }, ?_, ?_, ?_⟩ <;> decide +kernel⟩
theorem test_LoaderAct_13 : ∃ (s : State) (r : Rec) (h : ImgHdr) (hd : List Byte) (b : LoadBad), s.RecordNext rtEnd r h hd ∧ s.endCheck h r.body = some b :=
  ⟨atRecord rtEnd (List.replicate 8 0), recOf (List.replicate 8 0), img (8 + (List.replicate 8 0).length), recHead rtEnd (List.replicate 8 0).length, ⟨lfBadCheck, 1, none⟩, by
    refine ⟨{ image := ?_, head := ?_, live := ⟨?_, ?_⟩, kind := ?_, resv := ⟨?_, ?_⟩, len := ⟨?_, ?_⟩, fits := ?_, last := ?_, body := ?_, read := ?_ }, ?_⟩ <;> decide +kernel⟩
theorem test_LoaderAct_14 : ∃ s : State, s.devMode = mLoadHost ∧ s.on pgHlk HLK_LINK_DL_UP = true ∧ s.loading = true :=
  ⟨(atHeader []).wr pgHlk HLK_LINK_DL_UP 1, by and_intros <;> decide +kernel⟩
theorem test_LoaderAct_15 : ∃ s : State, s.devMode = mLoadHost ∧ s.on pgHlk HLK_LINK_DL_UP = false :=
  ⟨atHeader [], by and_intros <;> decide +kernel⟩
theorem test_LoaderAct_16 : ∃ s : State, s.loader.cleaning = some .otherSlot :=
  ⟨{ run with loader := { run.loader with cleaning := some .otherSlot } }, by decide +kernel⟩
theorem test_LoaderAct_17 : ∃ s : State, s.loader.cleaning = some .host :=
  ⟨{ run with loader := { run.loader with cleaning := some .host } }, by decide +kernel⟩
theorem test_LoaderAct_18 : ∃ (s : State) (bs : List Byte), s.loading = true ∧ s.phase = phHeader ∧ s.sourceLost 0 hdrBytes = true :=
  ⟨{ (up mLoadLocal).wrs pgCfg [(CFG_STAT_PHASE, 1), (CFG_STAT_SOURCE, 1)] with attic := { State.reset.attic with lost := [5] } }, [], by and_intros <;> decide +kernel⟩
theorem test_LoadCommandsAct_0 : ∃ (s u : State) (p : ChainPkt) (k : Packet) (bs : List Byte), s.on pgCfg CFG_CHAIN_FORWARDING = true ∧ (s.hatch chainHatch).packets.head? = some k ∧ s.chainWords k = ((bs, false), u) ∧ pktOf bs = p ∧ s.chain.got = none :=
  ⟨({ run with hatches := [(chainHatch, { hat0 with packets := [pk] })] }).wr pgCfg CFG_CHAIN_FORWARDING 1, _, ⟨0, 0, false, false, false, []⟩, pk, List.replicate 64 0, by
    refine ⟨?_, ?_, pair_pair _ _ _ ?_, ?_, ?_⟩ <;> decide +kernel⟩
theorem test_LoadCommandsAct_1 : ∃ (s u : State) (p : ChainPkt) (k : Packet) (bs : List Byte) (g : Nat), s.on pgCfg CFG_CHAIN_FORWARDING = true ∧ (s.hatch chainHatch).packets.head? = some k ∧ s.chainWords k = ((bs, false), u) ∧ pktOf bs = p ∧ u.chain.got = some g ∧ p.pkt.toNat ≤ g :=
  ⟨({ run with hatches := [(chainHatch, { hat0 with packets := [pk] })], chain := { run.chain with got := some 0 } }).wr pgCfg CFG_CHAIN_FORWARDING 1, _, ⟨0, 0, false, false, false, []⟩, pk, List.replicate 64 0, 0, by
    refine ⟨?_, ?_, pair_pair _ _ _ ?_, ?_, ?_, ?_⟩ <;> decide +kernel⟩
theorem test_LoadCommandsAct_2 : ∃ (s u : State) (p : ChainPkt) (k : Packet) (bs : List Byte) (lost : Bool), s.on pgCfg CFG_CHAIN_FORWARDING = true ∧ (s.hatch chainHatch).packets.head? = some k ∧ s.chainWords k = ((bs, lost), u) ∧ ((lost = false → pktOf bs = p)) ∧ s.chain.got = none ∧ s.devMode ≠ mLoadLocal :=
  ⟨({ run with hatches := [(chainHatch, { hat0 with packets := [pk] })] }).wr pgCfg CFG_CHAIN_FORWARDING 1, _, ⟨0, 0, false, false, false, []⟩, pk, List.replicate 64 0, _, by
    refine ⟨?_, ?_, rfl, ?_, ?_, ?_⟩ <;> decide +kernel⟩
theorem test_LoadCommandsAct_3 : ∃ (s : State) (t : Nat) (p : ChainPkt), s.chain.sending = some (t, p) ∧ s.chain.again = true :=
  ⟨{ run with chain := { run.chain with sending := some (3, ⟨0, 0, false, false, false, []⟩), again := true } }, 3, ⟨0, 0, false, false, false, []⟩, by and_intros <;> decide +kernel⟩
theorem test_LoadCommandsAct_4 : ∃ s : State, s.chain.ended = false ∧ s.loader.deferred = false :=
  ⟨run, by and_intros <;> decide +kernel⟩
theorem test_LoadCommandsAct_5 : ∃ (s : State) (m : Master), s.Takes m pgCfg 0x5C ∧ s.rd pgCfg CFG_DMA_CTRL_STATUS ≠ 1 ∧ s.devMode = mLoadHost ∧ s.rd pgCfg CFG_DMA_LEN_LEN ≠ 0 ∧ s.rd pgCfg CFG_DMA_LEN_LEN % 8 = 0 ∧ 0 ∈ s.host.bme ∧ s.loader.done = false :=
  ⟨{ (atHeader []).wr pgCfg CFG_DMA_LEN_LEN 0xFFFFFF8 with host := { run.host with bme := [0] } }, .coxS, by
    repeat' first | decide +kernel | apply admits_of | refine And.intro ?_ ?_ | constructor | rfl⟩
theorem test_LoadCommandsAct_6 : ∃ (s : State) (m : Master), s.Takes m pgCfg 0x5C ∧ s.rd pgCfg CFG_DMA_CTRL_STATUS ≠ 1 ∧ s.devMode ≠ mLoadHost :=
  ⟨run, .coxS, by
    repeat' first | decide +kernel | apply admits_of | refine And.intro ?_ ?_ | constructor | rfl⟩
theorem test_LoadCommandsAct_7 : ∃ (s : State) (bs : List Byte), s.rd pgCfg CFG_DMA_CTRL_STATUS = 1 ∧ bs.length = s.chunk ∧ s.loading = true :=
  ⟨{ (atHeader []).wr pgCfg CFG_DMA_CTRL_STATUS 1 with chunk := 8 }, List.replicate 8 0, by and_intros <;> decide +kernel⟩
theorem test_LoadCommandsAct_8 : ∃ (s : State) (m : Master) (ms : BitVec 16), s.Admits m pgCfg 0x4C ∧ s.loader.fixed = false :=
  ⟨run, .coxS, 0xFFFF, by
    repeat' first | decide +kernel | apply admits_of | refine And.intro ?_ ?_ | constructor | rfl⟩
theorem test_LoadCommandsAct_9 : ∃ (s : State) (m : Master) (ms : BitVec 16), s.Admits m pgCfg 0x4C ∧ s.loader.fixed = true :=
  ⟨{ run with loader := { run.loader with fixed := true } }, .coxS, 0, by
    repeat' first | decide +kernel | apply admits_of | refine And.intro ?_ ?_ | constructor | rfl⟩
theorem test_LoadCommandsAct_10 : ∃ (s : State) (m : Master) (v : Word), s.Admits m pgAtt 0x40 :=
  ⟨run, .coxS, 0xFFFFFFFF, by
    repeat' first | decide +kernel | apply admits_of | refine And.intro ?_ ?_ | constructor | rfl⟩
theorem test_LoadCommandsAct_11 : ∃ (s : State) (m : Master), s.Takes m pgAtt 0x5C ∧ s.on pgAtt ATT_PROG_CTRL_BUSY = false ∧ inService s.devMode = true ∧ s.rd pgAtt ATT_PROG_LEN_LEN ≠ 0 ∧ s.rd pgAtt ATT_PROG_DST_OFFSET + s.rd pgAtt ATT_PROG_LEN_LEN ≤ 0xF800 ∧ s.progSource (ownerOf m) (s.rd pgAtt ATT_PROG_SRC_DPA * 0x1000) (s.rd pgAtt ATT_PROG_LEN_LEN * 0x1000) = true :=
  ⟨run.wrs pgAtt [(ATT_PROG_LEN_LEN, 63488), (ATT_PROG_DST_OFFSET, 0)], .coxS, by
    repeat' first | decide +kernel | apply admits_of | refine And.intro ?_ ?_ | constructor | rfl⟩
theorem test_LoadCommandsAct_12 : ∃ (s : State) (m : Master), s.Takes m pgAtt 0x5C ∧ s.on pgAtt ATT_PROG_CTRL_BUSY = false ∧ inService s.devMode = true ∧ 0xF800 < s.rd pgAtt ATT_PROG_DST_OFFSET + s.rd pgAtt ATT_PROG_LEN_LEN :=
  ⟨run.wrs pgAtt [(ATT_PROG_LEN_LEN, 1), (ATT_PROG_DST_OFFSET, 63488)], .coxS, by
    repeat' first | decide +kernel | apply admits_of | refine And.intro ?_ ?_ | constructor | rfl⟩
theorem test_LoadCommandsAct_13 : ∃ (s u : State) (g : Prog) (n : BitVec 16), s.prog = some g ∧ s.progCopy g g.len = (g.len, false, u) :=
  ⟨{ run with prog := some ⟨0, 0, 1, 0⟩ }, _, ⟨0, 0, 1, 0⟩, 5, by
    refine ⟨?_, tri_pair _ ?_ ?_⟩ <;> decide +kernel⟩
theorem test_LoadCommandsAct_14 : ∃ (s : State) (m : Master), s.Takes m pgAtt 0x60 ∧ s.rd pgAtt ATT_REC_CLEAR_STATUS ≠ 1 ∧ s.lifeCycle = lcRma ∧ s.masterWorld m = true ∧ inService s.devMode = true :=
  ⟨run.wr pgLcs LCS_STATE_STATE 4, .coxS, by
    repeat' first | decide +kernel | apply admits_of | refine And.intro ?_ ?_ | constructor | rfl⟩
theorem test_LoadCommandsAct_15 : ∃ (s : State) (m : Master), s.Takes m pgAtt 0x60 ∧ s.rd pgAtt ATT_REC_CLEAR_STATUS ≠ 1 ∧ s.lifeCycle ≠ lcRma :=
  ⟨run, .coxS, by
    repeat' first | decide +kernel | apply admits_of | refine And.intro ?_ ?_ | constructor | rfl⟩
theorem test_LoadCommandsAct_16 : ∃ (s : State) (w : Nat), s.recClear = some w :=
  ⟨{ run with recClear := some 3 }, 3, by decide +kernel⟩
theorem test_LoadCommandsAct_17 : ∃ s : State, s.stepDue 0 = true ∧ s.loader.hall = [] :=
  ⟨startup 0, by and_intros <;> decide +kernel⟩
theorem test_LoadCommandsAct_18 : ∃ s : State, s.stepDue 0 = true :=
  ⟨startup 0, by decide +kernel⟩
theorem test_LoadCommandsAct_19 : ∃ s : State, s.stepDue 1 = true ∧ s.pins.tap = .other :=
  ⟨startup 1, by and_intros <;> decide +kernel⟩
theorem test_LoadCommandsAct_20 : ∃ s : State, s.stepDue 2 = true :=
  ⟨startup 2, by decide +kernel⟩
theorem test_LoadCommandsAct_21 : ∃ s : State, s.stepDue 3 = true :=
  ⟨startup 3, by decide +kernel⟩
theorem test_LoadCommandsAct_22 : ∃ s : State, s.devMode = mStartup ∧ s.seq.txn = none ∧ s.phase = phStartup ∧ s.loader.stage = 4 :=
  ⟨startup 4, by and_intros <;> decide +kernel⟩
theorem test_LoadCommandsAct_23 : ∃ (s : State) (r : Nat), r < 48 :=
  ⟨run, 47, by decide +kernel⟩
theorem test_HostLinkAct_0 : ∃ (s : State) (off : Nat) (w : Option (BitVec 16)), inService (s.mode .east) = true ∧ s.seq.standby = .none :=
  ⟨run, 0x12040, some 5, by and_intros <;> decide +kernel⟩
theorem test_HostLinkAct_1 : ∃ (s : State) (m : Master) (off : Nat) (w : Option Word), s.Served m (off / 0x1000) (off % 0x1000) w.isSome ∧ s.unreachable m (off / 0x1000) = true :=
  ⟨(run.wr (pgGal .east) GAL_LINK_STATE 0), .coxS, (pgSys .west * 0x1000), none, by
    refine ⟨{ on := ⟨?_, ?_⟩, awake := ?_, thawed := ?_, mode := ?_ }, ?_⟩ <;> decide +kernel⟩
theorem test_HostLinkAct_2 : ∃ (s : State) (m : Master) (off : Nat) (w : Option Word), s.Served m (off / 0x1000) (off % 0x1000) w.isSome ∧ s.unreachable m (off / 0x1000) = false ∧ numPages ≤ off / 0x1000 :=
  ⟨run, .fn 0, numPages * 0x1000, some 1, by
    refine ⟨{ on := ⟨?_, ?_⟩, awake := ?_, thawed := ?_, mode := ?_ }, ?_, ?_⟩ <;> decide +kernel⟩
theorem test_HostLinkAct_3 : ∃ (s : State) (m : Master) (off : Nat) (w : Option Word), s.Served m (off / 0x1000) (off % 0x1000) w.isSome ∧ s.unreachable m (off / 0x1000) = false ∧ off / 0x1000 < numPages ∧ ((s.pageSecure (off / 0x1000) = true → s.masterWorld m = true)) ∧ s.pageShut (off / 0x1000) = false ∧ regAt (off / 0x1000) (off % 0x1000) = none ∧ s.rd (off / 0x1000) PG_ERR_VALID = 0 :=
  ⟨run, .fn 0, 0x12FFC, none, by
    refine ⟨{ on := ⟨?_, ?_⟩, awake := ?_, thawed := ?_, mode := ?_ }, ?_, ?_, ?_, ?_, ?_, ?_⟩ <;> decide +kernel⟩
theorem test_HostLinkAct_4 : ∃ (s : State) (m : Master) (off : Nat) (w : Option Word), s.Served m (off / 0x1000) (off % 0x1000) w.isSome ∧ s.unreachable m (off / 0x1000) = false ∧ off / 0x1000 < numPages ∧ ((s.pageSecure (off / 0x1000) = true → s.masterWorld m = true)) ∧ s.pageShut (off / 0x1000) = true :=
  ⟨run.wr pgLcs LCS_STATE_STATE 5, .coxNs, pgBst .east * 0x1000 + 0x40, none, by
    refine ⟨{ on := ⟨?_, ?_⟩, awake := ?_, thawed := ?_, mode := ?_ }, ?_, ?_, ?_, ?_⟩ <;> decide +kernel⟩
theorem test_HostLinkAct_5 : ∃ (s : State) (m : Master) (off : Nat) (w : Option Word), s.Served m (off / 0x1000) (off % 0x1000) w.isSome ∧ s.unreachable m (off / 0x1000) = false ∧ off / 0x1000 < numPages ∧ s.pageSecure (off / 0x1000) = true ∧ s.masterWorld m = false ∧ s.pageShut (off / 0x1000) = false :=
  ⟨run.wr 18 PG_WORLD_WORLD 1, .fn 0, 0x12040, some 1, by
    refine ⟨{ on := ⟨?_, ?_⟩, awake := ?_, thawed := ?_, mode := ?_ }, ?_, ?_, ?_, ?_, ?_⟩ <;> decide +kernel⟩
theorem test_HostLinkAct_6 : ∃ (s : State) (m : Master) (off : Nat) (w : Option Word), s.masterWorld m = true ∧ s.seq.standby = .none :=
  ⟨run, .coxS, 0x12040, none, by and_intros <;> decide +kernel⟩
theorem test_HostLinkAct_7 : ∃ (s u : State) (fn : BitVec 8) (off : BitVec 40) (n : BitVec 13) (bs : List Byte), s.seq.standby = .none ∧ inService (s.mode .east) = true ∧ fn.toNat ≤ s.host.vfs ∧ fn.toNat ∉ s.security.fns ∧ n ≠ 0 ∧ s.spanReached fn.toNat (s.bar4Addr fn.toNat off.toNat) n.toNat false = true ∧ s.bar4Cut (s.bar4Addr fn.toNat off.toNat) = false ∧ s.readBytes ueHost (s.bar4Addr fn.toNat off.toNat) n.toNat = (some bs, u) :=
  ⟨shared, _, 0, 0x201000000, 64, List.replicate 64 0, by
    refine ⟨?_, ?_, ?_, ?_, ?_, ?_, ?_, some_pair _ _ ?_⟩ <;> decide +kernel⟩
theorem test_HostLinkAct_8 : ∃ (s : State) (fn : BitVec 8) (off : BitVec 40) (n : BitVec 13), inService (s.mode .east) = true ∧ s.seq.standby = .none ∧ fn.toNat ∈ s.security.fns :=
  ⟨{ run with security := { run.security with fns := [255] } }, 255, 0, 64, by and_intros <;> decide +kernel⟩
theorem test_HostLinkAct_9 : ∃ (s : State) (fn : BitVec 8) (off : BitVec 40) (bs : List Byte) (a : Nat), s.seq.standby = .none ∧ inService (s.mode .east) = true ∧ fn.toNat ≤ s.host.vfs ∧ fn.toNat ∉ s.security.fns ∧ bs ≠ [] ∧ s.bar4Addr fn.toNat off.toNat = a ∧ s.spanReached fn.toNat a bs.length true = true ∧ s.bar4Cut a = false ∧ ((∀ k, a / 32 ≤ k → k * 32 < a + bs.length → (s.sectorErr k).length ≤ 2)) :=
  ⟨shared, 0, 0x201000000, [1, 2, 3], 0x201000000, by
    refine ⟨?_, ?_, ?_, ?_, ?_, ?_, ?_, ?_, fun k _ _ => no_errors ?_ k⟩ <;> decide +kernel⟩
theorem test_HostLinkAct_10 : ∃ (s : State) (fn : BitVec 8) (off : BitVec 40) (bs : List Byte), inService (s.mode .east) = true ∧ s.seq.standby = .none ∧ fn.toNat ∈ s.security.fns :=
  ⟨{ run with security := { run.security with fns := [255] } }, 255, 0, [1], by and_intros <;> decide +kernel⟩
theorem test_HostLinkAct_11 : ∃ (s : State) (fn : BitVec 8) (r : CfgReq), s.mode .east = mBoot :=
  ⟨State.reset, 0, .read 0, by decide +kernel⟩
theorem test_HostLinkAct_12 : ∃ (s : State) (fn : BitVec 8) (on : Bool), inService (s.mode .east) = true ∧ s.seq.standby = .none ∧ fn.toNat ≤ s.host.vfs ∧ s.orphan .east = false :=
  ⟨{ run with host := { run.host with vfs := 255 } }, 255, true, by and_intros <;> decide +kernel⟩
theorem test_HostLinkAct_13 : ∃ (s : State) (n : BitVec 8), inService (s.mode .east) = true ∧ s.seq.standby = .none ∧ s.orphan .east = false ∧ n ≠ 0 :=
  ⟨run, 255, by and_intros <;> decide +kernel⟩
theorem test_HostLinkAct_14 : ∃ (s : State) (fn : BitVec 8), inService (s.mode .east) = true ∧ s.seq.standby = .none ∧ s.host.vfs < fn.toNat :=
  ⟨run, 1, by and_intros <;> decide +kernel⟩
theorem test_HostLinkAct_15 : ∃ s : State, inService (s.mode .east) = true ∧ s.seq.standby = .none :=
  ⟨run, by and_intros <;> decide +kernel⟩
theorem test_HostLinkAct_16 : ∃ (s : State) (fn : BitVec 8) (v : BitVec 11) (on : Bool), inService (s.mode .east) = true ∧ s.seq.standby = .none ∧ fn.toNat ≤ s.host.vfs ∧ s.orphan .east = false :=
  ⟨{ run with host := { run.host with vfs := 255 } }, 255, 5, true, by and_intros <;> decide +kernel⟩
theorem test_HostLinkAct_17 : ∃ (s : State) (fn v : Nat), s.host.pba = [] :=
  ⟨run, 255, 7, by decide +kernel⟩
theorem test_HostLinkAct_18 : ∃ s : State, s.devMode ≠ mOff ∧ s.devMode ≠ mCellar ∧ s.host.reeq = none :=
  ⟨run, by and_intros <;> decide +kernel⟩
theorem test_HostLinkAct_19 : ∃ (s : State) (fn : BitVec 8), inService (s.mode .east) = true ∧ s.seq.standby = .none ∧ fn ≠ 0 ∧ fn.toNat ≤ s.host.vfs :=
  ⟨{ run with host := { run.host with vfs := 255 } }, 255, by and_intros <;> decide +kernel⟩
theorem test_HostLinkAct_20 : ∃ (s : State) (speed : BitVec 4) (width : BitVec 5), s.devMode ≠ mOff ∧ s.devMode ≠ mCellar ∧ s.on pgHlk HLK_LINK_DL_UP = false :=
  ⟨run, 5, 16, by and_intros <;> decide +kernel⟩
theorem test_HostLinkAct_21 : ∃ s : State, s.devMode ≠ mOff ∧ s.devMode ≠ mCellar ∧ s.on pgHlk HLK_LINK_DL_UP = true :=
  ⟨run.wr pgHlk HLK_LINK_DL_UP 1, by and_intros <;> decide +kernel⟩
theorem test_StepRunsTheCommandInFront_0 : ∃ (s : State) (c : Instr) (l : List Instr), s.pending = c :: l :=
  ⟨{ run with pending := [.rstNAssert, .rstNAssert] }, .rstNAssert, [.rstNAssert], by decide +kernel⟩
theorem test_StepRunsTheCommandInFront_1 : ∃ s : State, s.pending = [] :=
  ⟨State.reset, by decide +kernel⟩
theorem test_EveryCommandKeepsToItsFootprint_0 : ∃ (s t : State) (c : Instr), exec c s = .next t :=
  ⟨State.reset, _, .rstNAssert, rfl⟩
theorem test_MemoryAndFabricOutsideTheFootprint_0 : ∃ (s t : State) (c : Instr), exec c s = .next t :=
  ⟨State.reset, _, .rstNAssert, rfl⟩
theorem test_EveryStepKeepsTheCanonicalForm_0 : ∃ s t : State, s.Canon ∧ step s = .next t :=
  ⟨{ run with mem := [(5, 1)] }, _, by
    refine ⟨⟨?_, ?_, ⟨?_, ?_⟩, ?_, ?_⟩, rfl⟩ <;> decide +kernel⟩
theorem test_FieldsFollowTheirAccessCodes_0 : ∃ (p o : Nat) (r : RegRow), regAt p o = some r :=
  ⟨pgHlk, 0x200, (regAt pgHlk 0x200).getD ⟨0, 0, 0, .plain, []⟩, by decide +kernel⟩
theorem test_CrewWindowsShowTheCrews_0 : ∃ (s : State) (m : Master) (h : Half) (w i id p : Nat), w < 64 ∧ i < 512 ∧ id = 0x8000 * halfBit h + w * 512 + i ∧ p = 96 + 64 * halfBit h + w :=
  ⟨run, .coxS, .west, 63, 511, 0xFFFF, 223, by and_intros <;> decide +kernel⟩
theorem test_HatchWindowsShowTheHatches_0 : ∃ (s : State) (m : Master) (h : Half) (w i k n p : Nat), w < 32 ∧ i < 128 ∧ k < 4 ∧ n = 0x8000 * halfBit h + w * 128 + i ∧ p = 224 + 32 * halfBit h + w :=
  ⟨run, .coxS, .west, 31, 127, 3, 0x8FFF, 287, by and_intros <;> decide +kernel⟩
theorem test_CupboardsStoreTheirWords_0 : ∃ a, a < 2048 :=
  ⟨2047, by decide +kernel⟩
theorem test_CupboardsStoreTheirWords_1 : ∃ a, a < 4096 :=
  ⟨4095, by decide +kernel⟩
theorem test_CupboardsStoreTheirWords_2 : ∃ a, a < 1024 :=
  ⟨1023, by decide +kernel⟩
theorem test_CupboardsStoreTheirWords_3 : ∃ old lane data l : Nat, lane < 4 ∧ l < 4 :=
  ⟨2 ^ 36 - 1, 3, 0, 3, by and_intros <;> decide +kernel⟩
theorem test_CupboardsStoreTheirWords_5 : ∃ (s : State) (r cup w v : Nat), r < 4096 ∧ cup < 4 ∧ w < 1024 :=
  ⟨run, 4095, 3, 1023, 5, by and_intros <;> decide +kernel⟩
theorem test_MemoryReadsBackWhatWasWritten_0 : ∃ (s : State) (from_ reader a : Nat) (bs : List Byte), s.bad = [] :=
  ⟨run, 0, 1, 0xFFFFFFFFFF, [1, 2], by decide +kernel⟩
theorem test_RunAndParkKeepTheWake_0 : ∃ (s : State) (p : Port) (id : Nat) (c : Crew), s.StwNames p id c :=
  ⟨with1 { crew0 with state := .ready }, ep, 0x123, { crew0 with state := .ready }, by
    refine { free := ⟨takes_of ?_ ?_, ?_⟩, arg := ?_, ok := ?_, half := ?_, crew := ?_, owner := ?_, heat := ?_ } <;> decide +kernel⟩
theorem test_StrangersAndStaleHeatsAreRefused_0 : ∃ (s : State) (p : Port) (c : Crew), s.PortFree .stw p ∧ idOk (s.stwId p) = true ∧ portServes p (idHalf (s.stwId p)) = true ∧ s.crew (s.stwId p) = some c :=
  ⟨with1 { crew0 with owner := 0x100, heat := 2 }, ep, { crew0 with owner := 0x100, heat := 2 }, by
    refine ⟨⟨takes_of ?_ ?_, ?_⟩, ?_, ?_, ?_⟩ <;> decide +kernel⟩
theorem test_HeatsAdvanceAtCreateAlone_0 : ∃ s : State, s.devMode ≠ mOff ∧ s.devMode ≠ mCellar :=
  ⟨run, by and_intros <;> decide +kernel⟩
theorem test_HeatsAdvanceAtCreateAlone_2 : ∃ (s : State) (p : Port) (id : Nat) (c : Crew), s.StwNames p id c ∧ s.heat id = c.heat ∧ (c.state = .parked ∨ c.state = .ready) :=
  ⟨with1 crew0, ep, 0x123, crew0, by
    refine ⟨{ free := ⟨takes_of ?_ ?_, ?_⟩, arg := ?_, ok := ?_, half := ?_, crew := ?_, owner := ?_, heat := ?_ }, ?_, ?_⟩ <;> decide +kernel⟩
theorem test_SecurePagesAreOutOfReach_0 : ∃ (s : State) (m : Master) (off : Nat) (v : Word), s.Served m (off / 0x1000) (off % 0x1000) true ∧ s.unreachable m (off / 0x1000) = false ∧ off / 0x1000 < numPages ∧ s.pageSecure (off / 0x1000) = true ∧ s.masterWorld m = false :=
  ⟨run.wr 18 PG_WORLD_WORLD 1, .coxNs, 0x12040, 1, by
    refine ⟨{ on := ⟨?_, ?_⟩, awake := ?_, thawed := ?_, mode := ?_ }, ?_, ?_, ?_, ?_⟩ <;> decide +kernel⟩
theorem test_SecurePagesAreOutOfReach_1 : ∃ (s : State) (m : Master) (off : Nat) (v : Word), s.frozenMaster m = true ∧ s.hostWake m (off / 0x1000) (off % 0x1000) true = s :=
  ⟨{ run with security := { run.security with fns := [255] } }, .fn 255, 0x12040, 1, by and_intros <;> decide +kernel⟩
theorem test_FrozenPagesShowHeldValues_0 : ∃ (s t u : State) (m : Master) (p : BitVec 9) (o : Nat) (r : RegRow), s.Admits m p.toNat 0x08 ∧ s.on p.toNat PG_CTRL_FREEZE = false ∧ pageKind p.toNat ≠ .cwn ∧ pageKind p.toNat ≠ .hwn ∧ exec (.pageFreeze m p true) s = .next t ∧ u.held = t.held ∧ 0x40 ≤ o ∧ o < 0x1000 ∧ regAt p.toNat o = some r ∧ Tbl.find s.held (p.toNat * 0x1000 + o) = none :=
  ⟨run, _, _, .coxS, 18, 0x44, (regAt 18 0x44).getD ⟨0, 0, 0, .plain, []⟩, by
    refine ⟨admits_of ?_, ?_, ?_, ?_, rfl, rfl, ?_, ?_, ?_, ?_⟩ <;> decide +kernel⟩
theorem test_PageErrorsKeepTheFirst_0 : ∃ (s : State) (m : Master) (off : Nat) (v : Word), s.Served m (off / 0x1000) (off % 0x1000) true ∧ s.unreachable m (off / 0x1000) = false ∧ off / 0x1000 < numPages ∧ ((s.pageSecure (off / 0x1000) = false ∨ s.masterWorld m = true)) ∧ s.pageShut (off / 0x1000) = false ∧ regAt (off / 0x1000) (off % 0x1000) = none :=
  ⟨run.wr 18 PG_ERR_VALID 1, .coxS, 0x12FFC, 1, by
    refine ⟨{ on := ⟨?_, ?_⟩, awake := ?_, thawed := ?_, mode := ?_ }, ?_, ?_, ?_, ?_, ?_⟩ <;> decide +kernel⟩
theorem test_WordsOfTheWorkedExamples_4 : ∃ (s : State) (m : Master) (c : Crew), s.crew 0x456 = some c ∧ c.heat = 3 ∧ c.state = .running ∧ c.wakePending = false ∧ c.fault = 0 ∧ s.sees m c.world = true :=
  ⟨{ run with crews := [(0x456, { crew0 with heat := 3, state := .running })] }, .coxS, { crew0 with heat := 3, state := .running }, by and_intros <;> decide +kernel⟩
theorem test_WakeEnableOfTheHostIsHardWired_0 : ∃ (s : State) (m : Master) (v : Word), s.Admits m pgCel 0x48 :=
  ⟨run, .coxS, 0xFFFFFFFF, by
    repeat' first | decide +kernel | apply admits_of | refine And.intro ?_ ?_ | constructor | rfl⟩
theorem test_CommandsThatHaltComplete_0 : ∃ s : State, s.seq.boot = 3 ∧ s.mode .east = mBoot ∧ s.mode .west = mBoot :=
  ⟨{ up mBoot with seq := { (up mBoot).seq with boot := 3 } }, by and_intros <;> decide +kernel⟩
theorem test_CommandsThatHaltComplete_1 : ∃ (s : State) (h : Half), s.seq.boot = 3 ∧ s.mode h = mBoot ∧ s.mode (other h) ≠ mBoot :=
  ⟨({ up mBoot with seq := { (up mBoot).seq with boot := 3 } }).wr (pgSys .west) SYS_MODE_MODE mHalt, .east, by and_intros <;> decide +kernel⟩
theorem test_CommandsThatHaltComplete_2 : ∃ s : State, s.seq.boot ≠ 3 :=
  ⟨run, by decide +kernel⟩
theorem test_CommandsThatHaltComplete_3 : ∃ (s : State) (k : BitVec 2), s.seq.boot = 6 ∧ s.mode (halfOf (k.toNat / 2)) = mBoot :=
  ⟨{ up mBoot with seq := { (up mBoot).seq with boot := 6 } }, 3, by and_intros <;> decide +kernel⟩
theorem test_CommandsThatHaltComplete_4 : ∃ (s : State) (k : BitVec 2), s.seq.boot ≠ 6 :=
  ⟨run, 3, by decide +kernel⟩
theorem test_CommandsThatHaltComplete_5 : ∃ (s : State) (h : Half), s.mode (other h) = mHalt ∧ s.galleryUp = true ∧ mBoot ≤ s.mode h ∧ s.mode h < mHalt :=
  ⟨run.wr (pgSys .west) SYS_MODE_MODE mHalt, .east, by and_intros <;> decide +kernel⟩
theorem test_CommandsThatHaltComplete_6 : ∃ (s : State) (h : Half), (s.mode (other h) ≠ mHalt ∨ s.galleryUp = false) :=
  ⟨run, .west, by decide +kernel⟩
theorem test_CommandsThatHaltComplete_7 : ∃ s : State, s.errN = true ∧ mBoot ≤ s.mode s.follower ∧ s.mode s.follower < mHalt :=
  ⟨run.wr (pgSys .east) SYS_MODE_MODE mHalt, by and_intros <;> decide +kernel⟩
theorem test_CommandsThatHaltComplete_8 : ∃ (s : State) (h : Half), (s.errN = false ∨ h = s.leader) :=
  ⟨run, .east, by decide +kernel⟩
theorem test_CommandsThatHaltComplete_9 : ∃ (s : State) (h : Half), s.seq.standby = .asleep ∧ ((∀ k, s.mode k = mStandby)) :=
  ⟨{ up mStandby with seq := { (up mStandby).seq with standby := .asleep } }, .east, by
    refine ⟨?_, fun k => by cases k <;> decide +kernel⟩ <;> decide +kernel⟩
theorem test_CommandsThatHaltComplete_10 : ∃ (s : State) (h : Half), s.seq.standby ≠ .asleep :=
  ⟨run, .west, by decide +kernel⟩
theorem test_CommandsThatHaltComplete_11 : ∃ s : State, s.stepDue 0 = true ∧ ((∀ h, mBoot ≤ s.mode h ∧ s.mode h < mHalt)) :=
  ⟨startup 0, by
    refine ⟨?_, fun h => by cases h <;> decide +kernel⟩ <;> decide +kernel⟩
theorem test_CommandsThatHaltComplete_12 : ∃ s : State, s.stepDue 0 = false :=
  ⟨run, by decide +kernel⟩
theorem test_CommandsThatHaltComplete_13 : ∃ s : State, s.devMode = mLoadHost ∧ s.on pgHlk HLK_LINK_DL_UP = true ∧ s.loading = true ∧ ((∀ h, mBoot ≤ s.mode h ∧ s.mode h < mHalt)) :=
  ⟨(atHeader []).wr pgHlk HLK_LINK_DL_UP 1, by
    refine ⟨?_, ?_, ?_, fun h => by cases h <;> decide +kernel⟩ <;> decide +kernel⟩
theorem test_CommandsThatHaltComplete_14 : ∃ s : State, s.loading = false :=
  ⟨run, by decide +kernel⟩
theorem test_RefusedOperationsComplete_0 : ∃ (s : State) (m : Master) (v : BitVec 4), s.Takes m (pgSys s.leader) 0x54 ∧ s.rd (pgSys s.leader) SYS_MODE_TRANSIT = 0 ∧ s.orphan .east = false ∧ s.orphan .west = false ∧ v ≠ 2 ∧ v ≠ 3 ∧ v ≠ 10 ∧ v ≠ 11 :=
  ⟨run, .coxS, 7, by
    repeat' first | decide +kernel | apply admits_of | refine And.intro ?_ ?_ | constructor | rfl⟩
theorem test_RefusedOperationsComplete_1 : ∃ (s : State) (fn : BitVec 8) (id : BitVec 16) (h o : BitVec 4) (c : Crew), s.BellNames fn.toNat id.toNat h.toNat c ∧ o ≠ 1 ∧ o ≠ 2 ∧ o ≠ 3 :=
  ⟨{ with1 { crew0 with owner := 0 } with host := run.host }, 0, 0x123, 1, 15, { crew0 with owner := 0 }, by
    repeat' first | decide +kernel | apply admits_of | refine And.intro ?_ ?_ | constructor | rfl⟩
theorem test_RefusedOperationsComplete_2 : ∃ (s : State) (fn : BitVec 8) (id : BitVec 16) (h o : BitVec 4), (o = 1 ∨ o = 2 ∨ o = 3) :=
  ⟨run, 0, 0x123, 1, 2, by decide +kernel⟩
theorem test_RefusedOperationsComplete_3 : ∃ (s : State) (p : Port) (o : BitVec 4), s.PortFree .stw p ∧ (o = 0 ∨ 11 ≤ o.toNat) :=
  ⟨run, ep, 15, by
    repeat' first | decide +kernel | apply admits_of | refine And.intro ?_ ?_ | constructor | rfl⟩
theorem test_RefusedOperationsComplete_4 : ∃ (s : State) (p : Port) (o : BitVec 4), s.PortFree .pgt p ∧ (o = 0 ∨ 8 ≤ o.toNat) :=
  ⟨run, ep, 15, by
    repeat' first | decide +kernel | apply admits_of | refine And.intro ?_ ?_ | constructor | rfl⟩
theorem test_RefusedOperationsComplete_5 : ∃ (s : State) (p : Port) (o : BitVec 4), s.PortFree .hat p ∧ (o = 0 ∨ 4 ≤ o.toNat) :=
  ⟨run, ep, 15, by
    repeat' first | decide +kernel | apply admits_of | refine And.intro ?_ ?_ | constructor | rfl⟩
theorem test_RefusedOperationsComplete_6 : ∃ (s : State) (p : Port) (o : BitVec 4), 0 < o.toNat :=
  ⟨run, ep, 3, by decide +kernel⟩
theorem test_RefusedOperationsComplete_7 : ∃ (s : State) (m : Master) (v : BitVec 4), s.Takes m pgLcs 0x44 ∧ s.rd pgLcs LCS_REQ_STATUS ≠ 1 ∧ s.rd pgLcs LCS_STATE_PENDING = s.lifeCycle ∧ lcsAllowed s.lifeCycle v.toNat = false :=
  ⟨run.wrs pgLcs [(LCS_STATE_STATE, 2), (LCS_STATE_PENDING, 2)], .coxS, 15, by
    repeat' first | decide +kernel | apply admits_of | refine And.intro ?_ ?_ | constructor | rfl⟩
theorem test_RefusedOperationsComplete_8 : ∃ (s : State) (r : BitVec 12) (n : BitVec 3) (x : OarTok), roomOk r.toNat = true ∧ s.tokensMove r.toNat = true ∧ s.block r.toNat (8 + n.toNat) = Block.fresh :=
  ⟨run, 0, 7, ⟨1, 2, true, false, true⟩, by and_intros <;> decide +kernel⟩
theorem test_RefusedOperationsComplete_9 : ∃ (s : State) (r : BitVec 12) (c : BitVec 11) (w v : Wires), roomOk r.toNat = true ∧ s.tokensMove r.toNat = true ∧ v = s.cellWires r.toNat c.toNat ∧ (s.cellCfg r.toNat c.toNat).seesIllegal (s.bundled r.toNat) ⟨v.t ||| w.t, v.f ||| w.f, v.req ||| w.req⟩ = true ∧ (s.control (s.room r.toNat).active r.toNat).testBit 5 = true :=
  ⟨{ run with fabric := [(20, 0x10), (23, 0x10), (179 * 512 + 0x80, 32)] }, 0, 0, ⟨1, 1, 0⟩, _, by
    repeat' first | decide +kernel | apply admits_of | refine And.intro ?_ ?_ | constructor | rfl⟩
theorem test_GatedAccessesComplete_0 : ∃ (s : State) (m : Master) (off : Nat) (w : Option (BitVec 16)), s.modeGate m (off / 0x1000) false false = .drop :=
  ⟨up mOff, .coxS, 0x12040, none, by decide +kernel⟩
theorem test_GatedAccessesComplete_1 : ∃ (s : State) (m : Master) (off : Nat) (w : Option (BitVec 16)), s.modeGate m (off / 0x1000) false false ≠ .drop ∧ s.hostWake m (off / 0x1000) (off % 0x1000) true = s :=
  ⟨run, .coxS, 0x12040, some 5, by and_intros <;> decide +kernel⟩
theorem test_GatedAccessesComplete_2 : ∃ (s : State) (m : Master) (off : Nat) (w : Option Word), s.Served m (off / 0x1000) (off % 0x1000) w.isSome ∧ s.unreachable m (off / 0x1000) = true :=
  ⟨(run.wr (pgGal .east) GAL_LINK_STATE 0), .coxS, (pgSys .west * 0x1000), none, by
    refine ⟨{ on := ⟨?_, ?_⟩, awake := ?_, thawed := ?_, mode := ?_ }, ?_⟩ <;> decide +kernel⟩
theorem test_GatedAccessesComplete_3 : ∃ (s : State) (m : Master) (off : Nat) (w : Option Word), s.Served m (off / 0x1000) (off % 0x1000) w.isSome ∧ s.unreachable m (off / 0x1000) = false ∧ numPages ≤ off / 0x1000 :=
  ⟨run, .fn 0, numPages * 0x1000, some 1, by
    refine ⟨{ on := ⟨?_, ?_⟩, awake := ?_, thawed := ?_, mode := ?_ }, ?_, ?_⟩ <;> decide +kernel⟩
theorem test_GatedAccessesComplete_4 : ∃ (s : State) (m : Master) (off : Nat) (w : Option Word), s.Served m (off / 0x1000) (off % 0x1000) w.isSome ∧ s.unreachable m (off / 0x1000) = false ∧ off / 0x1000 < numPages ∧ s.pageSecure (off / 0x1000) = true ∧ s.masterWorld m = false ∧ s.pageShut (off / 0x1000) = false :=
  ⟨run.wr 18 PG_WORLD_WORLD 1, .fn 0, 0x12040, some 1, by
    refine ⟨{ on := ⟨?_, ?_⟩, awake := ?_, thawed := ?_, mode := ?_ }, ?_, ?_, ?_, ?_, ?_⟩ <;> decide +kernel⟩
theorem test_GatedAccessesComplete_5 : ∃ (s : State) (m : Master) (off : Nat) (w : Option Word), s.Served m (off / 0x1000) (off % 0x1000) w.isSome ∧ s.unreachable m (off / 0x1000) = false ∧ off / 0x1000 < numPages ∧ ((s.pageSecure (off / 0x1000) = true → s.masterWorld m = true)) ∧ s.pageShut (off / 0x1000) = true :=
  ⟨run.wr pgLcs LCS_STATE_STATE 5, .coxNs, pgBst .east * 0x1000 + 0x40, none, by
    refine ⟨{ on := ⟨?_, ?_⟩, awake := ?_, thawed := ?_, mode := ?_ }, ?_, ?_, ?_, ?_⟩ <;> decide +kernel⟩
theorem test_GatedAccessesComplete_6 : ∃ (s : State) (m : Master) (off : Nat) (w : Option Word), s.Served m (off / 0x1000) (off % 0x1000) w.isSome ∧ s.unreachable m (off / 0x1000) = false ∧ off / 0x1000 < numPages ∧ ((s.pageSecure (off / 0x1000) = true → s.masterWorld m = true)) ∧ s.pageShut (off / 0x1000) = false ∧ regAt (off / 0x1000) (off % 0x1000) = none :=
  ⟨run, .fn 0, 0x12FFC, none, by
    refine ⟨{ on := ⟨?_, ?_⟩, awake := ?_, thawed := ?_, mode := ?_ }, ?_, ?_, ?_, ?_, ?_⟩ <;> decide +kernel⟩
theorem test_TimeLimitsComplete_0 : ∃ s : State, s.seq.standby = .entering :=
  ⟨{ run with seq := { (run).seq with standby := .entering } }, by decide +kernel⟩
theorem test_TimeLimitsComplete_1 : ∃ s : State, s.seq.standby ≠ .entering :=
  ⟨run, by decide +kernel⟩
theorem test_TimeLimitsComplete_2 : ∃ s : State, s.seq.standby = .waking :=
  ⟨{ up mStandby with seq := { (up mStandby).seq with standby := .waking } }, by decide +kernel⟩
theorem test_TimeLimitsComplete_3 : ∃ s : State, s.seq.standby ≠ .waking :=
  ⟨run, by decide +kernel⟩
theorem test_TimeLimitsComplete_4 : ∃ (s : State) (w : BitVec 4) (p : Bool) (now n id : Nat) (c : Crew) (x : Swap), s.seq.standby ≠ .entering ∧ s.pinSwap w.toNat = p ∧ s.swapAt w.toNat 3 = some x ∧ x.outs = [id] ∧ s.crew id = some c ∧ s.unquiet c.suite ≠ [] ∧ c.qto < 3 :=
  ⟨{ with1 (inRoom crew0) with blocks := [(0, { Block.fresh with flight := [none] })], wings := [(0, { Wing.fresh with swap := some ⟨.swap, 3, [0x123], [0], some (0x123, 1), [0], false, false, false, false⟩ })] }, 0, false, 5, 6, 0x123, inRoom crew0, ⟨.swap, 3, [0x123], [0], some (0x123, 1), [0], false, false, false, false⟩, by and_intros <;> decide +kernel⟩
theorem test_TimeLimitsComplete_5 : ∃ (s u : State) (w : BitVec 4) (p : Bool) (now n id : Nat) (c : Crew) (x : Swap) (fl : Bool), s.seq.standby ≠ .entering ∧ s.pinSwap w.toNat = p ∧ s.swapAt w.toNat 3 = some x ∧ x.outs = [id] ∧ s.crew id = some c ∧ s.unquiet c.suite ≠ [] ∧ 3 ≤ c.qto ∧ (s.modRooms c.suite fun y => { y with stopped := true }).saveCrews [id] now true = (fl, u) :=
  ⟨{ with1 ({ inRoom crew0 with qto := 3 }) with blocks := [(0, { Block.fresh with flight := [none] })], wings := [(0, { Wing.fresh with swap := some ⟨.swap, 3, [0x123], [0], some (0x123, 1), [0], false, false, false, false⟩ })] }, _, 0, false, 5, 6, 0x123, { inRoom crew0 with qto := 3 }, ⟨.swap, 3, [0x123], [0], some (0x123, 1), [0], false, false, false, false⟩, _, by
    refine ⟨?_, ?_, ?_, ?_, ?_, ?_, ?_, rfl⟩ <;> decide +kernel⟩
theorem test_TimeLimitsComplete_6 : ∃ (s : State) (w : BitVec 4) (p : Bool) (now n : Nat), s.seq.standby ≠ .entering ∧ (s.pinSwap w.toNat ≠ p ∨ (s.swapAt w.toNat 3 = none ∧ s.swapAt w.toNat 4 = none)) :=
  ⟨run, 3, false, 5, 6, by and_intros <;> decide +kernel⟩
theorem test_TimeLimitsComplete_7 : ∃ s : State, s.chain.ended = false ∧ s.loader.deferred = false :=
  ⟨run, by and_intros <;> decide +kernel⟩
theorem test_TimeLimitsComplete_8 : ∃ s : State, s.chain.ended = true :=
  ⟨{ run with chain := { run.chain with ended := true } }, by decide +kernel⟩
theorem test_TimeLimitsComplete_9 : ∃ (s : State) (h : Half) (c : OpChange), (s.pow h).op = some c ∧ c.pllReady = false ∧ c.byGov = false :=
  ⟨{ run with power := { run.power with east := { run.power.east with op := some ⟨3, false, false, 0, false, false, false⟩ } } }, .east, ⟨3, false, false, 0, false, false, false⟩, by and_intros <;> decide +kernel⟩
theorem test_TimeLimitsComplete_10 : ∃ (s : State) (h : Half), (s.pow h).op = none :=
  ⟨run, .west, by decide +kernel⟩
theorem test_TimeLimitsComplete_11 : ∃ (s : State) (b : Bool), s.host.reeq = some b :=
  ⟨{ run with host := { run.host with reeq := some true } }, true, by decide +kernel⟩
theorem test_TimeLimitsComplete_12 : ∃ s : State, s.host.reeq = none :=
  ⟨run, by decide +kernel⟩
theorem test_TimeLimitsComplete_13 : ∃ (s : State) (h : Half) (n : Nat), s.rd (pgFmc h) FMC_RESULT_BUSY = 1 :=
  ⟨run.wr (pgFmc .east) FMC_RESULT_BUSY 1, .east, 5, by decide +kernel⟩
theorem test_TimeLimitsComplete_14 : ∃ (s : State) (h : Half) (n : Nat), s.rd (pgFmc h) FMC_RESULT_BUSY = 0 :=
  ⟨run, .west, 5, by decide +kernel⟩
theorem test_TimeLimitsComplete_15 : ∃ (s : State) (w : Bool) (now : BitVec 64), s.linkState w = 1 ∧ s.course.lane ≠ some w :=
  ⟨(run).wrs pgCrs [(CRS_PORT_W_LINK, 1)], true, 5000000, by and_intros <;> decide +kernel⟩
theorem test_TimeLimitsComplete_16 : ∃ (s : State) (w : Bool) (now : BitVec 64), s.linkState w ≠ 1 ∧ s.linkState w ≠ 3 :=
  ⟨ring, true, 7, by and_intros <;> decide +kernel⟩
theorem test_TimeLimitsComplete_17 : ∃ s : State, s.course.enum ≠ 0 :=
  ⟨{ run with course := { (run).course with enum := 1 } }, by decide +kernel⟩
theorem test_TimeLimitsComplete_18 : ∃ s : State, s.course.enum = 0 :=
  ⟨run, by decide +kernel⟩
theorem test_HeatsAdvanceAtCreateAlone_1 : ∃ (s t : State) (p : Port), exec (.create p) s = .next t :=
  ⟨run, _, ep, rfl⟩

/-! ## The shape of a command: an ill-formed term for each check, and its well-formed neighbour -/

/-- A segment of one chunk with `words`. -/
def segOf (words : List Byte) : Segment := ⟨1, false, 2, 0, false, false, true, 0, 0, 0, 0, 0, 0, 0, 0, 0, 0, 1, 0, words⟩
/-- A cupboard request of a port. -/
def cup (b w : Bool) : CupReq := ⟨b, w, 0, 0, 0⟩
/-- A room number that names no room. -/
def noRoom : BitVec 12 := 0x1C0

theorem test_shape_lengths :
    [Instr.thermalSample [], .bar4Read 0 0 0, .bar4Read 0 0 4097, .bar4Write 0 0 [], .windowRead 1 0 0 0 65,
      .windowWrite 1 0 0 [], .hatchPush 1 0 0x21 1 [] [], .hatchPush 1 0 0x21 0 [] [.room 2 1 []], .linkFlit false ⟨0, 0, 0, 0, [], 0⟩, .segmentForward (segOf []) 0,
      .segmentArrival (segOf []), .accept (segOf []), .refuse (segOf []), .busy (segOf []), .imageHeader [], .gcmSegment [0] [],
      .gcmSegment [] (List.replicate 16 0), .chainPacket ⟨0, 1, false, false, false, []⟩, .g2Frame 0 [],
      .mbReply 65 (List.replicate 257 0), .avsTransaction .east [], .avsTransaction .east [false, false, false, false, true],
      .monitorWindow .east (List.replicate 7 (.irc, 1))].all (fun i => !WellFormed i) = true := by decide +kernel

theorem test_shape_records :
    [Instr.frameRecord ⟨0, 1, []⟩, .repeatRecord ⟨0, 1, []⟩, .zeroRecord ⟨0, 1, []⟩, .essentialRecord ⟨0, 1, []⟩,
      .crewRecord ⟨0, 1, []⟩, .hallRecord ⟨0, 1, []⟩, .endRecord ⟨0, 1, []⟩].all (fun i => !WellFormed i) = true := by
  decide +kernel

theorem test_shape_addresses :
    [Instr.bar0NarrowAccess .coxS 1 (some 0x100), .bar0NarrowAccess .coxS barBytes none, .bar0OutOfRangeAccess .coxS 0 none,
      .bar0OutOfRangeAccess .coxS 0x120001 none, .undefinedOffsetAccess .coxS 0x120000 none, .pageWorldViolation .coxS 2 none,
      .closedPageAccess .coxS 1 none, .unreachableHalfAccess .coxS 0x120000 none, .registerWrite .coxS (.bar0 2) 0 none,
      .registerWrite .coxS (.vf 1) 0 none, .softReset .coxS 288, .pageFreeze .coxS 288 true, .irqForce .coxS 288 0,
      .irqEnableWrite .coxS 288 0, .pgIrqRawClear .coxS 288 0, .pgErrClear .coxS 288, .pgWorldWrite .coxS 288 true,
      .pgWorldLock .coxS 288, .mbSend .coxS 288 0, .mbReply 288 []].all (fun i => !WellFormed i) = true := by decide +kernel

theorem test_shape_rooms :
    [Instr.testComplete [noRoom] [] false false, .roomRetire .coxS .east noRoom, .illegalCode noRoom 0 ⟨0, 0, 0⟩,
      .cupboardRead noRoom 0 (cup false false) none, .cupboardWrite noRoom 0 (cup false true) none,
      .oarMul noRoom 0 ⟨0, 0, false, false, false⟩, .oarMac noRoom 0 ⟨0, 0, false, false, false⟩,
      .oarMsub noRoom 0 ⟨0, 0, false, false, false⟩, .oarLoad noRoom 0 ⟨0, 0, false, false, false⟩,
      .oarClear noRoom 0 ⟨0, 0, false, false, false⟩, .oarEmit noRoom 0 ⟨0, 0, false, false, false⟩,
      .oarReservedOp noRoom 0 ⟨0, 0, false, false, false⟩, .sliceReport noRoom 0 0, .scrubFrame noRoom 0 [],
      .scrubFrame 0 180 [], .tokenThroughStage 0 192 .cell 0, .tokenThroughStage 0 0 .door 128, .tokenThroughStage 0 0 .block 18].all (fun i => !WellFormed i) = true := by decide +kernel

theorem test_shape_choices :
    [Instr.modeReqInvalidTarget .coxS .east 2, .doorbellInvalidOp 0 0x123 1 1, .stwBadOp (.vf 1) 0xA, .pgtBadOp (.vf 1) 7,
      .hatBadOp (.vf 1) 3, .cupboardRead 0 0 (cup false true) none, .cupboardWrite 0 0 (cup false false) none,
      .cupboardRead 0 0 (cup false false) (some (cup false true)), .hallMuxSwitch .coxS .east 3, .pulseArrival .west 4 0,
      .pulseHandshakeComplete .east 0 0, .crossingSideReset .east 1 12 0, .crossingResync .east 5 8,
      .porchTokenBoundary .east 12 0 [] 0].all (fun i => !WellFormed i) = true := by decide +kernel

theorem test_shape_numbers :
    [Instr.courseLinkTrained true 0 (2 ^ 64), .enum 1 (2 ^ 64) 0 false [], .mapBeaconIn [⟨1024, 0, 1⟩], .join (2 ^ 64) 0,
      .fmcMeasurementEnd .east (2 ^ 32), .fmcRefLost .east (2 ^ 32)].all (fun i => !WellFormed i) = true := by decide +kernel

theorem test_shape_met :
    [Instr.thermalSample (List.replicate 18 40), .bar4Read 0 0 4096, .bar4Write 0 0 [0], .windowRead 1 0 0 0 64,
      .windowWrite 1 0 0 [0], .hatchPush 1 0 0x21 0 [] [.room 2 0 [], .pop 3], .accept (segOf (List.replicate 64 0)), .bar0OutOfRangeAccess .coxS 0x120000 none,
      .undefinedOffsetAccess .coxS 0x11FFFC none, .cupboardRead 0 0 (cup false false) (some (cup true true)),
      .pulseArrival .east 4 15, .modeReqInvalidTarget .coxS .east 4, .mapBeaconIn [⟨1023, 1023, 2 ^ 64 - 1⟩],
      .frameRecord ⟨0, 1, [0]⟩, .roomRetire .coxS .east 0xBBF, .alwaysOnSupplyValid].all WellFormed = true := by
  decide +kernel

/-! ## The queue -/

/-- An empty queue: the block idles. -/
theorem test_step_idles : step State.reset = .next State.reset := rfl

/-- The front command runs and leaves the queue. -/
theorem test_step_takes_the_front (s : State) (c d : Instr) (h : s.pending = [c, d]) :
    step s = exec c { s with pending := [d] } := by
  unfold step; rw [h]

/-- The opcode table gives no row any bits (notes/assumptions/5). -/
theorem test_no_row_has_bits : decodeTableWord 8 0 = none ∧ decodeTableWord 32 0xFFFFFFFF = none := ⟨rfl, rfl⟩

/-! ## Values worked out by hand from the spec's definitions -/

/-- CRC-32C with R217's parameters over the four zero bytes, and over the byte 0xFF: bit by bit from the polynomial. -/
theorem test_crc32c : crc32c [0, 0, 0, 0] = 0x48674BC7#32 ∧ crc32c [0xFF] = 0xFF000000#32 := by decide +kernel

/-- The room at row 5, column 7 of wing W3 is 0xB43 (chapter 0's worked example): it lies in wing 11, in the West half. -/
theorem test_room_number : wingOf 0xB43 = 11 ∧ roomHalf 0xB43 = .west ∧ 0xB43 % 256 = 5 * 12 + 7 := by decide +kernel

/-- Room 0x237 after the swap that chapter 3 traces (Table 3.20), and a number that names no room (R116). -/
theorem test_map_entry :
    ({ State.reset with rooms := [(0x237, { Room.fresh with
        crew := 0x456, heat := 3, pos := 1, state := .occupied, screw := 0x123, sheat := 1, spos := 1, svalid := true,
        active := true })] }).mapEntry 0x237 = (0x04563041, 0x01231070) ∧
    State.reset.mapEntry 0x2C0 = (5, 0) := by decide +kernel

end Sys2Proof.Tests
end

section
/-! PROOFS. O44: the words of the cupboards as bits of the fabric's table. A 36-bit word lies at 36 bits of a room's live
state, so it shares a byte with its neighbour; that a store of one leaves the other is seen bit by bit. -/

namespace Sys2Proof.Machine

/-! ## Bits of numbers -/

/-- A number with `n` bits from `lo` replaced. -/
def insertBits (old lo n v : Nat) : Nat :=
  old % 2 ^ lo + v % 2 ^ n * 2 ^ lo + old / 2 ^ (n + lo) * 2 ^ (n + lo)

theorem insertBits_testBit (old lo n v i : Nat) :
    (insertBits old lo n v).testBit i = if lo ≤ i ∧ i < lo + n then v.testBit (i - lo) else old.testBit i := by
  have hlow : old % 2 ^ lo < 2 ^ lo := Nat.mod_lt _ (Nat.two_pow_pos _)
  have hmid : 2 ^ lo * (v % 2 ^ n) + old % 2 ^ lo < 2 ^ (n + lo) := by
    have := Nat.mul_le_mul_left (2 ^ lo) (Nat.mod_lt v (Nat.two_pow_pos n))
    rw [Nat.pow_add, Nat.mul_comm (2 ^ n)]
    rw [Nat.mul_succ] at this
    omega
  have hsplit : insertBits old lo n v =
      2 ^ (n + lo) * (old / 2 ^ (n + lo)) + (2 ^ lo * (v % 2 ^ n) + old % 2 ^ lo) := by
    unfold insertBits; ring
  rw [hsplit, Nat.testBit_two_pow_mul_add _ hmid]
  by_cases hhi : i < n + lo
  · rw [if_pos hhi, Nat.testBit_two_pow_mul_add _ hlow]
    by_cases hlo : i < lo
    · simp [hlo, Nat.testBit_mod_two_pow]
    · have : i - lo < n := by omega
      simp [hlo, Nat.testBit_mod_two_pow, this, Nat.not_lt.mp hlo, Nat.add_comm lo n, hhi]
  · have : ¬ i < lo + n := by omega
    rw [if_neg hhi, if_neg fun h => this h.2, Nat.testBit_div_two_pow, Nat.sub_add_cancel (Nat.not_lt.mp hhi)]

theorem bits_testBit (x hi lo i : Nat) :
    (bits x hi lo).testBit i = (decide (i < hi - lo + 1) && x.testBit (i + lo)) := by
  rw [bits, Nat.testBit_mod_two_pow, Nat.testBit_div_two_pow]

/-- A field of a number reads what was put there. -/
theorem bits_insertBits_same (old lo n v : Nat) : bits (insertBits old lo (n + 1) v) (lo + n) lo = v % 2 ^ (n + 1) := by
  refine Nat.eq_of_testBit_eq fun i => ?_
  rw [bits_testBit, insertBits_testBit, Nat.testBit_mod_two_pow, Nat.add_sub_cancel_left]
  by_cases hi : i < n + 1
  · have : i + lo < lo + (n + 1) := by omega
    simp [hi, this]
  · simp [hi]

/-- A field of a number that shares no bit with those replaced reads as before. -/
theorem bits_insertBits_disjoint (old lo n v hi' lo' : Nat) (hle : lo' ≤ hi') (h : hi' < lo ∨ lo + n ≤ lo') :
    bits (insertBits old lo n v) hi' lo' = bits old hi' lo' := by
  refine Nat.eq_of_testBit_eq fun i => ?_
  rw [bits_testBit, bits_testBit, insertBits_testBit]
  by_cases hi : i < hi' - lo' + 1
  · rw [if_neg (by omega)]
  · simp [hi]

/-! ## Bits of bytes -/

@[simp] theorem leBytes_length (n v : Nat) : (leBytes n v).length = n := by
  induction n generalizing v with
  | zero => rfl
  | succ n ih => simp [leBytes, ih]

theorem byteAt_leBytes_getLsbD (n v j b : Nat) (hj : j < n) (hb : b < 8) :
    (byteAt (leBytes n v) j).getLsbD b = v.testBit (8 * j + b) := by
  induction n generalizing v j with
  | zero => omega
  | succ n ih =>
    cases j with
    | zero =>
      rw [Nat.mul_zero, Nat.zero_add]
      change (BitVec.ofNat 8 v).getLsbD b = _
      rw [BitVec.getLsbD_ofNat, decide_eq_true hb, Bool.true_and]
    | succ j =>
      have hrest : byteAt (leBytes (n + 1) v) (j + 1) = byteAt (leBytes n (v / 256)) j := rfl
      rw [hrest, ih (v / 256) j (Nat.lt_of_succ_lt_succ hj), show 256 = 2 ^ 8 from rfl, Nat.testBit_div_two_pow]
      congr 1; omega

namespace Tbl

/-- Bit `k` of a table of bytes, bit 0 of each byte first. -/
def bitAt (t : Tbl Byte) (k : Nat) : Bool := (get t 0 (k / 8)).getLsbD (k % 8)

theorem get_putBytes (t : Tbl Byte) (a : Nat) (bs : List Byte) (k : Nat) :
    get (putBytes t a bs) 0 k = if a ≤ k ∧ k < a + bs.length then byteAt bs (k - a) else get t 0 k := by
  induction bs generalizing a with
  | nil => rw [if_neg (by simp only [List.length_nil]; omega)]; rfl
  | cons b bs ih =>
    rw [putBytes, get_store, ih, List.length_cons]
    by_cases hk : k = a
    · subst hk; simp [byteAt]
    · by_cases hin : a + 1 ≤ k ∧ k < a + 1 + bs.length
      · have hidx : k - a = k - (a + 1) + 1 := by omega
        rw [if_neg hk, if_pos hin, if_pos (by omega), hidx]; rfl
      · rw [if_neg hk, if_neg hin, if_neg (by omega)]

theorem leNat_bytes_testBit (t : Tbl Byte) (a n i : Nat) :
    (leNat (bytes t a n)).testBit i = (decide (i < 8 * n) && bitAt t (8 * a + i)) := by
  induction n generalizing a i with
  | zero => simp [bytes, leNat]
  | succ n ih =>
    have hval : leNat (bytes t a (n + 1)) = 2 ^ 8 * leNat (bytes t (a + 1) n) + (get t 0 a).toNat := by
      rw [bytes, leNat, Nat.add_comm, show 256 = 2 ^ 8 from rfl]
    rw [hval, Nat.testBit_two_pow_mul_add _ (get t 0 a).isLt]
    by_cases hi : i < 8
    · have hdiv : (8 * a + i) / 8 = a := by omega
      have hmod : (8 * a + i) % 8 = i := by omega
      have hlt : i < 8 * (n + 1) := by omega
      rw [if_pos hi, bitAt, hdiv, hmod, BitVec.testBit_toNat]
      simp [hlt]
    · have hpos : 8 * (a + 1) + (i - 8) = 8 * a + i := by omega
      have hlt : i - 8 < 8 * n ↔ i < 8 * (n + 1) := by omega
      rw [if_neg hi, ih, hpos, decide_eq_decide.mpr hlt]

theorem bitAt_putBytes_leBytes (t : Tbl Byte) (a n v k : Nat) :
    bitAt (putBytes t a (leBytes n v)) k =
      if 8 * a ≤ k ∧ k < 8 * (a + n) then v.testBit (k - 8 * a) else bitAt t k := by
  rw [bitAt, get_putBytes, leBytes_length]
  by_cases hk : 8 * a ≤ k ∧ k < 8 * (a + n)
  · have hpos : 8 * (k / 8 - a) + k % 8 = k - 8 * a := by omega
    rw [if_pos (by omega), if_pos hk, byteAt_leBytes_getLsbD _ _ _ _ (by omega) (Nat.mod_lt _ (by decide)), hpos]
  · rw [if_neg (by omega), if_neg hk]; rfl

end Tbl

/-! ## Words of cupboards (R63) -/

/-- The place of a cupboard's word in the fabric's table, in bits: frame 2 + 9 × cup of the room's live state on. -/
def cupBase (r cup w : Nat) : Nat := 8 * (frameKey (stateFrame r 0) + (2 + 9 * cup) * 512) + 36 * w

/-- Words of cupboards do not overlap. -/
theorem cupBase_disjoint {r cup w r' cup' w' : Nat} (hc : cup < 4) (hw : w < 1024) (hc' : cup' < 4) (hw' : w' < 1024)
    (hne : (r', cup', w') ≠ (r, cup, w)) :
    cupBase r' cup' w' + 36 ≤ cupBase r cup w ∨ cupBase r cup w + 36 ≤ cupBase r' cup' w' := by
  have : r' ≠ r ∨ cup' ≠ cup ∨ w' ≠ w := by
    by_contra! h
    obtain ⟨rfl, rfl, rfl⟩ := h
    exact hne rfl
  simp only [cupBase, frameKey, stateFrame]
  rcases lt_trichotomy r' r with hr | rfl | hr <;> omega

/-- The first of the five bytes that hold a cupboard's word. -/
def cupByte (r cup w : Nat) : Nat := frameKey (stateFrame r 0) + ((2 + 9 * cup) * 512 + 36 * w / 8)

theorem cupBase_eq (r cup w : Nat) : cupBase r cup w = 8 * cupByte r cup w + 36 * w % 8 := by
  unfold cupBase cupByte; omega

namespace State

variable (s : State)

theorem cupWord_testBit (r cup w i : Nat) :
    (s.cupWord r cup w).testBit i = (decide (i < 36) && Tbl.bitAt s.fabric (cupBase r cup w + i)) := by
  rw [cupWord, live, ← cupByte, Nat.testBit_mod_two_pow, Nat.testBit_div_two_pow, Tbl.leNat_bytes_testBit, cupBase_eq]
  by_cases hi : i < 36
  · have hlt : i + 36 * w % 8 < 8 * 5 := by omega
    have hpos : 8 * cupByte r cup w + (i + 36 * w % 8) = 8 * cupByte r cup w + 36 * w % 8 + i := by omega
    simp [hi, hlt, hpos]
  · simp [hi]

theorem setCupWord_fabric (r cup w v : Nat) :
    (s.setCupWord r cup w v).fabric = Tbl.putBytes s.fabric (cupByte r cup w)
      (leBytes 5 (insertBits (leNat (Tbl.bytes s.fabric (cupByte r cup w) 5)) (36 * w % 8) 36 v)) := rfl

theorem setCupWord_bitAt (r cup w v k : Nat) :
    Tbl.bitAt (s.setCupWord r cup w v).fabric k =
      if cupBase r cup w ≤ k ∧ k < cupBase r cup w + 36 then v.testBit (k - cupBase r cup w) else Tbl.bitAt s.fabric k := by
  rw [setCupWord_fabric, Tbl.bitAt_putBytes_leBytes, insertBits_testBit, Tbl.leNat_bytes_testBit, cupBase_eq]
  by_cases hbytes : 8 * cupByte r cup w ≤ k ∧ k < 8 * (cupByte r cup w + 5)
  · rw [if_pos hbytes]
    by_cases hword : 8 * cupByte r cup w + 36 * w % 8 ≤ k ∧ k < 8 * cupByte r cup w + 36 * w % 8 + 36
    · rw [if_pos (by omega), if_pos hword, Nat.sub_sub]
    · have hlt : k - 8 * cupByte r cup w < 8 * 5 := by omega
      rw [if_neg (by omega), if_neg hword, Nat.add_sub_cancel' hbytes.1]
      simp [hlt]
  · rw [if_neg hbytes, if_neg (by omega)]

/-- A word that is stored is read back, cut to its 36 bits. -/
theorem cupWord_setCupWord_same (r cup w v : Nat) : (s.setCupWord r cup w v).cupWord r cup w = v % 2 ^ 36 := by
  refine Nat.eq_of_testBit_eq fun i => ?_
  rw [cupWord_testBit, setCupWord_bitAt, Nat.testBit_mod_two_pow]
  by_cases hi : i < 36 <;> simp [hi]

/-- A store of a word leaves every other word of every cupboard of every room. -/
theorem cupWord_setCupWord_other {r cup w r' cup' w' : Nat} (v : Nat) (hc : cup < 4) (hw : w < 1024) (hc' : cup' < 4)
    (hw' : w' < 1024) (hne : (r', cup', w') ≠ (r, cup, w)) :
    (s.setCupWord r cup w v).cupWord r' cup' w' = s.cupWord r' cup' w' := by
  refine Nat.eq_of_testBit_eq fun i => ?_
  rw [cupWord_testBit, cupWord_testBit, setCupWord_bitAt]
  by_cases hi : i < 36
  · have := cupBase_disjoint hc hw hc' hw' hne
    rw [if_neg (by omega)]
  · simp [hi]

end State

/-! ## Addresses and lanes (R63) -/

theorem cupReach_x18 {a : Nat} (h : a < 2048) : cupReach 1 a = (a >>> 1, 2 * (a &&& 1), 2) := by
  rw [cupReach, Nat.mod_eq_of_lt h, Nat.and_one_is_mod, Nat.shiftRight_eq_div_pow, Nat.pow_one]

theorem cupReach_x9 {a : Nat} (h : a < 4096) : cupReach 2 a = (a >>> 2, a &&& 3, 1) := by
  rw [cupReach, Nat.mod_eq_of_lt h, Nat.shiftRight_eq_div_pow, show 3 = 2 ^ 2 - 1 from rfl,
    Nat.and_two_pow_sub_one_eq_mod]

theorem cupReach_x36 {a : Nat} (h : a < 1024) : cupReach 0 a = (a, 0, 4) := by
  simp [cupReach, Nat.mod_eq_of_lt h]

/-- No address of any shape reaches outside the cupboard. -/
theorem cupReach_within (shape a : Nat) :
    (cupReach shape a).1 < 1024 ∧ (cupReach shape a).2.1 + (cupReach shape a).2.2 ≤ 4 := by
  unfold cupReach
  split <;> constructor <;> dsimp only <;> omega

/-- A ×9 port replaces the nine bits of its lane. -/
theorem cupMerge_one (old lane lanes data : Nat) :
    cupMerge old lane 1 lanes data = insertBits old (9 * lane) 9 data := by
  have hmerge : cupMerge old lane 1 lanes data =
      old - bits old (9 * lane + 8) (9 * lane) * 2 ^ (9 * lane) + bits data 8 0 * 2 ^ (9 * lane) := by
    simp [cupMerge, List.range_succ]
  have hdata : bits data 8 0 = data % 2 ^ 9 := by simp [bits]
  have hfield : bits old (9 * lane + 8) (9 * lane) = old / 2 ^ (9 * lane) % 2 ^ 9 := by
    rw [bits, Nat.add_sub_cancel_left]
  have hlow := Nat.div_add_mod old (2 ^ (9 * lane))
  have hhigh := Nat.div_add_mod (old / 2 ^ (9 * lane)) (2 ^ 9)
  have hdiv : old / 2 ^ (9 + 9 * lane) = old / 2 ^ (9 * lane) / 2 ^ 9 := by
    rw [Nat.div_div_eq_div_mul, ← Nat.pow_add, Nat.add_comm]
  have hold : old = old % 2 ^ (9 * lane) + old / 2 ^ (9 + 9 * lane) * 2 ^ (9 + 9 * lane) +
      old / 2 ^ (9 * lane) % 2 ^ 9 * 2 ^ (9 * lane) := by
    calc old = 2 ^ (9 * lane) * (2 ^ 9 * (old / 2 ^ (9 * lane) / 2 ^ 9) + old / 2 ^ (9 * lane) % 2 ^ 9) +
          old % 2 ^ (9 * lane) := by rw [hhigh, hlow]
      _ = _ := by rw [hdiv]; ring
  rw [hmerge, hdata, hfield, insertBits]
  omega

/-- A ×9 write changes its lane alone, which then reads the data. -/
theorem cupMerge_one_lane (old lane lanes data l : Nat) :
    bits (cupMerge old lane 1 lanes data) (9 * l + 8) (9 * l) =
      if l = lane then data % 512 else bits old (9 * l + 8) (9 * l) := by
  rw [cupMerge_one]
  by_cases hl : l = lane
  · subst hl
    rw [if_pos rfl]
    exact bits_insertBits_same old (9 * l) 8 data
  · rw [if_neg hl, bits_insertBits_disjoint _ _ _ _ _ _ (by omega) (by omega)]

/-- Settles O44: the reach of each shape, the lane of a ×9 write, and the words seen as bits of the fabric's table. -/
theorem cupboardsStoreTheirWords : Obligations.CupboardsStoreTheirWords :=
  ⟨fun _ => cupReach_x18, fun _ => cupReach_x9, fun _ => cupReach_x36,
    fun old lane data l _ _ => cupMerge_one_lane old lane 1 data l, cupReach_within,
    fun s r cup w v _ hc hw => ⟨s.cupWord_setCupWord_same r cup w v,
      fun _ _ _ _ hc' hw' hne => s.cupWord_setCupWord_other v hc hw hc' hw' hne, State.setCupWord_upd.frame⟩⟩

end Sys2Proof.Machine
end

section
/-! PROOFS. O46: RUN and PARK at the Steward's port. A GO at a port that is free reaches its command, whose checks read the
port's argument as the issuer wrote it; then each of the two commands is followed to the crew's entry. -/

namespace Sys2Proof.Machine

/-- An operation that does not change the table of crews leaves every crew. -/
theorem Upd.crew_eq {K : List Part} {s t : State} (h : Upd K s t) (hk : Part.crews ∉ K) (id : Nat) :
    t.crew id = s.crew id :=
  congrArg (Tbl.find · id) (h.frame .crews hk)

namespace State

variable {s : State} {p : Port} {id : Nat} {c : Crew}

/-! ## A GO at a free port (R156, R157, R440) -/

/-- Nothing wakes a device that is neither in STANDBY nor on its way there. -/
theorem wakeSource_of_not_standby (h : s.seq.standby = .none) (sources : Nat) : s.wakeSource sources = s := by
  unfold wakeSource
  rw [h]
  exact ite_self s

theorem goTo_of_takes {m : Master} {pg off : Nat} (h : s.Takes m pg off) (f : State → State) :
    s.goTo m pg off (fun s => s) f = f s := by
  obtain ⟨hpass, hen⟩ := h
  unfold Admits at hpass
  simp [goTo, toPage, hpass, hen]

theorem toVf_of_served {n : Nat} (h : s.VfServed n) (f : State → State) : s.toVf n f = f s := by
  obtain ⟨hn, hvfs, hfns, hmode, hstandby⟩ := h
  have hon : ¬ (n = 0 ∨ s.mode .east = mOff ∨ s.mode .east = mCellar) := by
    rintro (h0 | hm | hm)
    · exact hn h0
    all_goals rw [hm] at hmode; revert hmode; decide
  have hopen : ¬ (s.host.vfs < n ∨ s.security.fns.contains n = true ∨
      (!(inService (s.mode .east) || s.mode .east == mStartup)) = true) := by
    simp only [not_or, not_lt, List.contains_iff_mem, Bool.not_eq_true', Bool.not_eq_false, Bool.or_eq_true, beq_iff_eq]
    exact ⟨hvfs, hfns, hmode⟩
  simp only [toVf, wakeSource_of_not_standby hstandby, if_neg hon, if_neg hopen]

theorem toPort_of_takes {b : PortBlock} (h : s.PortTakes b p) (f : State → State) : s.toPort b p f = f s := by
  cases p with
  | page _ m => exact goTo_of_takes h f
  | vf n => exact toVf_of_served h f

theorem stwGo_of_free (h : s.PortFree .stw p) (f : State → State) : s.stwGo p f = f (s.portStart .stw p) := by
  obtain ⟨htakes, hfree, hmode⟩ := h
  have hgo : ¬ (s.portBusy .stw p || s.mode (idHalf (s.stwId p)) == mHalt) = true := by
    have : s.mode (idHalf (s.stwId p)) ≠ mHalt := hmode
    simp [hfree, this]
  rw [stwGo, toPort_of_takes htakes, if_neg hgo]

/-- The fields of a Steward port lie at their page's offsets in every page that holds one. -/
@[simp] theorem portFld_stw (p : Port) (f : Fld) : portFld .stw p f = f := by cases p <;> rfl

/-- A write of a register leaves the fields at every other offset, in any page. -/
theorem rd_wr_off (s : State) (pg q : Nat) {f g : Fld} {v : Nat} (hf : f.ok = true) (hg : g.ok = true)
    (hoff : f.off % 0x1000 ≠ g.off % 0x1000) : (s.wr q g v).rd pg f = s.rd pg f :=
  s.rd_wr_sep pg q f g v (by simp [Fld.sep, hoff]) hf hg

/-- A GO writes the port's RESULT alone. -/
theorem portRd_portStart_stw (s : State) (p : Port) {f : Fld} (hok : f.ok = true)
    (hoff : f.off % 0x1000 ≠ STW_CMD_RESULT_VALID.off) : (s.portStart .stw p).portRd .stw p f = s.portRd .stw p f := by
  simp only [portStart, resultFlds, portRd, portWr, portFld_stw]
  rw [rd_wr_off (g := STW_CMD_RESULT_VALID) _ _ _ hok rfl hoff, rd_wr_off (g := STW_CMD_RESULT_BUSY) _ _ _ hok rfl hoff,
    rd_wr_off (g := STW_CMD_RESULT_SEQ) _ _ _ hok rfl hoff]

@[simp] theorem stwId_portStart (s : State) (p : Port) : (s.portStart .stw p).stwId p = s.stwId p :=
  portRd_portStart_stw s p rfl (by decide)

@[simp] theorem crew_portStart (s : State) (b : PortBlock) (p : Port) (id : Nat) : (s.portStart b p).crew id = s.crew id :=
  portStart_upd.crew_eq (by decide) id

/-- A command that names a crew, its heat and an owner that may act on it is carried out. -/
theorem stwOn_of_names (h : s.StwNames p id c) (f : State → Nat → Crew → State) :
    s.stwOn p f = f (s.portStart .stw p) id c := by
  have hheat : (s.portStart .stw p).portRd .stw p STW_CMD_ARG_HEAT = c.heat :=
    (portRd_portStart_stw s p rfl (by decide)).trans h.heat
  rw [stwOn, stwGo_of_free h.free]
  simp [hheat, h.arg, h.ok, h.half, h.crew, h.owner]

/-! ## A crew after an operation on it -/

theorem crew_modCrew (h : s.crew id = some c) (f : Crew → Crew) : (s.modCrew id f).crew id = some (f c) := by
  have hfind : Tbl.find s.crews id = some c := h
  simp [crew, modCrew, hfind]

@[simp] theorem crew_settlePorts (s : State) (id : Nat) : s.settlePorts.crew id = s.crew id :=
  settlePorts_upd.crew_eq (by decide) id

@[simp] theorem crew_waitPort (s : State) (p : Port) (op k id : Nat) : (s.waitPort p op k).crew id = s.crew id :=
  waitPort_upd.crew_eq (by decide) id

@[simp] theorem crew_stwEnd (s : State) (p : Port) (code k id : Nat) : (s.stwEnd p code k).crew id = s.crew id :=
  stwEnd_upd.crew_eq (by decide) id

/-- Counting a crew's run time changes RUN_US alone. -/
theorem crew_tally (h : s.crew id = some c) : ∃ n, (s.tally id).crew id = some { c with runUs := n } := by
  simp only [tally, h]
  split
  · exact ⟨_, (drew_upd.crew_eq (by decide) id).trans ((Tbl.find_put ..).trans (if_pos rfl))⟩
  · exact ⟨c.runUs, h⟩

/-- A crew that starts to drain has the target given; its other fields but RUN_US and the slice's end are as they were. -/
theorem crew_startDrain (h : s.crew id = some c) (tgt : Target) :
    ∃ n, (s.startDrain id tgt).crew id =
      some { c with runUs := n, state := .draining, target := tgt, expired := false } := by
  obtain ⟨n, hn⟩ := crew_tally h
  refine ⟨n, ?_⟩
  simp only [startDrain, h]
  split
  · rw [modWing_upd.crew_eq (by decide), crew_modCrew hn]
  · rw [startSwap_upd.crew_eq (by decide), crew_modCrew hn]

/-! ## RUN and PARK on a crew (R134, R135) -/

theorem crew_runCmd_wakes (h : s.crew id = some c) (hst : c.state = .ready ∨ c.state = .boarding ∨ c.state = .running) :
    ∃ d, (s.runCmd id c).crew id = some d ∧ d.wakePending = true := by
  rcases hst with hst | hst | hst <;> simp only [runCmd, hst]
  · exact ⟨_, crew_modCrew h _, rfl⟩
  · exact ⟨_, (crew_settlePorts _ id).trans (crew_modCrew h _), rfl⟩
  · exact ⟨_, (crew_settlePorts _ id).trans (crew_modCrew h _), rfl⟩

theorem crew_runCmd_retargets (h : s.crew id = some c) (hst : c.state = .draining) (htgt : c.target = .parked) :
    (s.runCmd id c).crew id = some { c with target := .ready } := by
  have hrun : s.runCmd id c = (s.modCrew id fun c =>
      if c.target = .parked then { c with target := .ready } else { c with wakePending := true }).settlePorts := by
    simp only [runCmd, hst]
  rw [hrun, crew_settlePorts, crew_modCrew h, if_pos htgt]

/-- PARK clears WAKE_PENDING first; what it then does, by the crew's state, leaves it clear. -/
theorem crew_parkCmd (h : s.crew id = some c) : ∃ d, (s.parkCmd id c).crew id = some d ∧ d.wakePending = false := by
  have hclear := crew_modCrew h fun c => { c with wakePending := false }
  unfold parkCmd
  generalize s.modCrew id (fun c => { c with wakePending := false }) = u at hclear
  cases hst : c.state with
  | ready | boarding => exact ⟨_, crew_modCrew hclear _, rfl⟩
  | running =>
    by_cases hw : c.waiting = true
    · exact ⟨_, by simpa [hw] using crew_modCrew hclear _, rfl⟩
    · obtain ⟨n, hn⟩ := crew_startDrain hclear .parked
      exact ⟨_, by simpa [hw] using hn, rfl⟩
  | draining =>
    by_cases ht : c.target = .ready
    · exact ⟨_, by simpa [ht] using crew_modCrew hclear _, rfl⟩
    · exact ⟨_, by simpa [ht] using hclear, rfl⟩
  | parked | pinned | faulted => exact ⟨_, hclear, rfl⟩

/-- RUN does not wait: its port answers first, and the crew's part follows. -/
theorem runAt_of_names (h : s.StwNames p id c) (hok : runOk c = true) :
    s.runAt p = ((s.portStart .stw p).stwEnd p scOk id).runCmd id c := by
  rw [runAt, stwOn_of_names h, if_pos hok]

/-- PARK acts first, and its port then waits for the crew to be PARKED. -/
theorem parkAt_of_names (h : s.StwNames p id c) (hok : parkOk c = true) :
    s.parkAt p = ((s.portStart .stw p).parkCmd id c).waitPort p 5 id := by
  rw [parkAt, stwOn_of_names h, if_pos hok]

/-- The port's answer leaves the crew that it names. -/
theorem StwNames.crew_answered (h : s.StwNames p id c) (code : Nat) :
    ((s.portStart .stw p).stwEnd p code id).crew id = some c := by
  simpa using h.crew

end State

/-- Settles O46: at a port that names the crew the command reaches its entry, by the case of its state. -/
theorem runAndParkKeepTheWake : Obligations.RunAndParkKeepTheWake := by
  intro s p id c h
  refine ⟨fun hst => ?_, fun hst htgt => ?_, fun hok => ?_⟩
  · have hok : State.runOk c = true := by rcases hst with e | e | e <;> simp [State.runOk, e]
    obtain ⟨d, hd, hwake⟩ := State.crew_runCmd_wakes (h.crew_answered scOk) hst
    exact ⟨s.runAt p, d, rfl, State.runAt_of_names h hok ▸ hd, hwake⟩
  · have hok : State.runOk c = true := by simp [State.runOk, hst]
    exact ⟨s.runAt p, rfl, State.runAt_of_names h hok ▸ State.crew_runCmd_retargets (h.crew_answered scOk) hst htgt⟩
  · obtain ⟨d, hd, hwake⟩ := State.crew_parkCmd ((State.crew_portStart s .stw p id).trans h.crew)
    refine ⟨s.parkAt p, d, rfl, ?_, hwake⟩
    rw [State.parkAt_of_names h hok, State.crew_waitPort, hd]

end Sys2Proof.Machine
end

section
/-! PROOFS. O42 and O43: crew and hatch windows. The body of a window page is one array of 512 registers, none of them
of a kind that FREEZE holds (R460); so a window word is the live entry of the crew or hatch that the page and the
offset name. -/

namespace Sys2Proof.Machine

/-! ## The registers of a window page -/

/-- An array of registers at the head of a list holds the offset of each of its entries. -/
theorem rowAt_array {r : RegRow} {i : Nat} (rows : List RegRow) (hs : 0 < r.stride) (hi : i < r.n) :
    rowAt (r.off + r.stride * i) (r :: rows) = some r := by
  simp [rowAt, hs, hi]

/-- Past the header, a page other than a virtual function's holds the registers of its type. -/
theorem regAt_body {p off : Nat} (hvf : pageKind p ≠ .vfp) (hoff : 0x40 ≤ off) :
    regAt p off = rowAt off (regRows (pageKind p)) := by
  unfold regAt
  split
  · contradiction
  · exact if_neg (Nat.not_lt.mpr hoff)

/-- The body of a window page: 512 words at 0x040, each one plain field. -/
theorem regAt_window {p i : Nat} {f : Fld} (hvf : pageKind p ≠ .vfp)
    (hrows : regRows (pageKind p) = [⟨0x040, 512, 4, .plain, [f]⟩]) (hi : i < 512) :
    regAt p (0x40 + 4 * i) = some ⟨0x040, 512, 4, .plain, [f]⟩ := by
  rw [regAt_body hvf (Nat.le_add_right ..), hrows]
  exact rowAt_array (r := ⟨0x040, 512, 4, .plain, [f]⟩) [] (Nat.succ_pos 3) hi

/-! ## The pages of the windows (Table 15.1) -/

theorem halfBit_le_one (h : Half) : halfBit h ≤ 1 := by cases h <;> decide

theorem pageKind_crewWindow (h : Half) {w : Nat} (hw : w < 64) : pageKind (96 + 64 * halfBit h + w) = .cwn := by
  have := halfBit_le_one h
  simp (disch := omega) only [pageKind, if_neg, if_pos]

theorem pageKind_hatchWindow (h : Half) {w : Nat} (hw : w < 32) : pageKind (224 + 32 * halfBit h + w) = .hwn := by
  have := halfBit_le_one h
  have hpages : numPages = 288 := rfl
  simp (disch := omega) only [pageKind, if_neg, if_pos]

@[simp] theorem halfOf_halfBit (h : Half) : halfOf (halfBit h) = h := by cases h <;> rfl

namespace State

variable (s : State) (m : Master)

theorem serves_crewWindow (h : Half) {w : Nat} (hw : w < 64) : s.serves (96 + 64 * halfBit h + w) = h := by
  have hbit : (96 + 64 * halfBit h + w - 96) / 64 = halfBit h := by omega
  simp only [serves, pageKind_crewWindow h hw, hbit, halfOf_halfBit]

theorem serves_hatchWindow (h : Half) {w : Nat} (hw : w < 32) : s.serves (224 + 32 * halfBit h + w) = h := by
  have hbit : (224 + 32 * halfBit h + w - 224) / 32 = halfBit h := by omega
  simp only [serves, pageKind_hatchWindow h hw, hbit, halfOf_halfBit]

/-! ## What a window word shows -/

variable {s m}

/-- A plain register without count fields shows its live word, whatever FREEZE holds. -/
theorem view_of_plain {p off : Nat} {r : RegRow} (hr : regAt p off = some r) (hplain : r.kind = .plain)
    (hcounts : r.counts = []) : s.view m p off = s.liveWord m p off := by
  unfold view
  rw [hr]
  cases Tbl.find s.held (p * 0x1000 + off) with
  | none => rfl
  | some old => simp [hplain, hcounts]

theorem shown_crewWindow {p i : Nat} (hp : pageKind p = .cwn) (hi : i < 512) :
    s.shown m p (0x40 + 4 * i) = some (s.crewEntry m (0x8000 * halfBit (s.serves p) + (p - 96) % 64 * 512 + i)) := by
  have hidx : (0x40 + 4 * i - 0x40) / 4 = i := by omega
  simp (disch := omega) only [shown, hp, hidx, if_neg, if_pos]

theorem shown_hatchWindow {p i : Nat} (hp : pageKind p = .hwn) (hi : i < 512) :
    s.shown m p (0x40 + 4 * i) =
      some (s.hatchEntry m (0x8000 * halfBit (s.serves p) + (p - 224) % 32 * 128 + i / 4) (i % 4)) := by
  have hidx : (0x40 + 4 * i - 0x40) / 4 = i := by omega
  simp (disch := omega) only [shown, hp, hidx, if_neg, if_pos]

theorem view_crewWindow (h : Half) {w i : Nat} (hw : w < 64) (hi : i < 512) :
    s.view m (96 + 64 * halfBit h + w) (0x40 + 4 * i) =
      BitVec.ofNat 32 (s.crewEntry m (0x8000 * halfBit h + w * 512 + i)) := by
  have hp := pageKind_crewWindow h hw
  have hwin : (96 + 64 * halfBit h + w - 96) % 64 = w := by omega
  have hreg := regAt_window (by simp [hp]) (congrArg regRows hp) hi
  rw [view_of_plain hreg rfl rfl, liveWord, shown_crewWindow hp hi, serves_crewWindow s h hw, hwin]

theorem view_hatchWindow (h : Half) {w i k : Nat} (hw : w < 32) (hi : i < 128) (hk : k < 4) :
    s.view m (224 + 32 * halfBit h + w) (0x40 + 16 * i + 4 * k) =
      BitVec.ofNat 32 (s.hatchEntry m (0x8000 * halfBit h + w * 128 + i) k) := by
  have hp := pageKind_hatchWindow h hw
  have hwin : (224 + 32 * halfBit h + w - 224) % 32 = w := by omega
  have hoff : 0x40 + 16 * i + 4 * k = 0x40 + 4 * (4 * i + k) := by omega
  have hlt : 4 * i + k < 512 := by omega
  have hhatch : (4 * i + k) / 4 = i := by omega
  have hword : (4 * i + k) % 4 = k := by omega
  have hreg := regAt_window (by simp [hp]) (congrArg regRows hp) hlt
  rw [hoff, view_of_plain hreg rfl rfl, liveWord, shown_hatchWindow hp hlt,
    serves_hatchWindow s h hw, hwin, hhatch, hword]

/-! ## The entry of a crew (R458, R460) -/

variable {id : Nat} {c : Crew}

theorem crewEntry_of_reserved (h : id = 0 ∨ id = 0x8000) : s.crewEntry m id = 0 := by
  rcases h with rfl | rfl <;> rfl

theorem idOk_of_ne (h0 : id ≠ 0) (h8 : id ≠ 0x8000) : idOk id = true := by simp [idOk, h0, h8]

theorem crewEntry_of_empty (hid : idOk id = true) (hc : s.crew id = none) :
    s.crewEntry m id = id * 0x10000 + s.heat id * 0x1000 := by
  simp [crewEntry, hid, hc]

/-- Word 0 of the descriptor (Table 4.1), to a master that sees the crew's world. -/
theorem ofNat_crewEntry_of_seen (hid : idOk id = true) (hc : s.crew id = some c) (hsees : s.sees m c.world = true) :
    BitVec.ofNat 32 (s.crewEntry m id) = BitVec.ofNat 32
      (id * 0x10000 + c.heat * 0x1000 + c.state.code * 0x200 + bit c.wakePending * 0x100 + c.fault) := by
  have hentry : s.crewEntry m id = ((c.words id).headD 0).toNat := by simp [crewEntry, hid, hc, hsees]
  rw [hentry, BitVec.ofNat_toNat, BitVec.setWidth_eq]
  rfl

theorem crewEntry_of_unseen (hid : idOk id = true) (hc : s.crew id = some c) (hsees : s.sees m c.world = false) :
    s.crewEntry m id = 0 := by
  simp [crewEntry, hid, hc, hsees]

end State

/-- Settles O42: the window's word is the crew's entry, which each of the four cases evaluates. -/
theorem crewWindowsShowTheCrews : Obligations.CrewWindowsShowTheCrews := by
  rintro s m h w i id p hw hi rfl rfl
  rw [State.view_crewWindow h hw hi]
  refine ⟨fun hres => ?_, fun h0 h8 hc => ?_, fun c h0 h8 hc hsees => ?_, fun c h0 h8 hc hsees => ?_⟩
  · rw [State.crewEntry_of_reserved hres]; rfl
  · rw [State.crewEntry_of_empty (State.idOk_of_ne h0 h8) hc]
  · exact State.ofNat_crewEntry_of_seen (State.idOk_of_ne h0 h8) hc hsees
  · rw [State.crewEntry_of_unseen (State.idOk_of_ne h0 h8) hc hsees]; rfl

/-- Settles O43: the window's word is the hatch's entry, 0 where the hatch is closed or not seen. -/
theorem hatchWindowsShowTheHatches : Obligations.HatchWindowsShowTheHatches := by
  rintro s m h w i k n p hw hi hk rfl rfl
  rw [State.view_hatchWindow h hw hi hk]
  exact apply_ite (BitVec.ofNat 32) _ _ _

end Sys2Proof.Machine
end

section
/-! PROOFS. O34 to O40: the footprint and the canonical form of each command, from the frame lemma of its meaning; the step; the state after reset. -/

namespace Sys2Proof.Machine

theorem exec_upd (s : State) : ∀ c : Instr, Upd.Out c.touches s (exec c s)
  | .alwaysOnSupplyValid => execAlwaysOnSupplyValid_upd
  | .alwQualified => execAlwQualified_upd
  | .alwaysOnSupplyLost => execAlwaysOnSupplyLost_upd
  | .pwrgdRise => execPwrgdRise_upd
  | .pwrgdFall => execPwrgdFall_upd
  | .coreRailLow .. => execCoreRailLow_upd
  | .rstNAssert => execRstNAssert_upd
  | .rstNRelease => execRstNRelease_upd
  | .galleryUp => execGalleryUp_upd
  | .galleryTrainTimeout => execGalleryTrainTimeout_upd
  | .romSelfCheckDone .. => execRomSelfCheckDone_upd
  | .bootStacksTrained .. => execBootStacksTrained_upd
  | .stackTrainTimeout .. => execStackTrainTimeout_upd
  | .halfHaltMessage .. => execHalfHaltMessage_upd
  | .errNWatchExpiry .. => execErrNWatchExpiry_upd
  | .thermalSample .. => execThermalSample_upd
  | .thermalComparatorFire h => execThermalComparatorFire_upd (_h := h)
  | .modeTransitionMessage => execModeTransitionMessage_upd
  | .modeTransitionAck => execModeTransitionAck_upd
  | .modeReqStandby .. => execModeReqStandby_upd
  | .modeReqBoot .. => execModeReqBoot_upd
  | .modeReqTest .. => execModeReqTest_upd
  | .modeReqHalt .. => execModeReqHalt_upd
  | .modeReqInvalidTarget .. => execModeReqInvalidTarget_upd
  | .standbyEntryStart => execStandbyEntryStart_upd
  | .standbyPowerDown => execStandbyPowerDown_upd
  | .standbyEntryTimeout => execStandbyEntryTimeout_upd
  | .standbyWake .. => execStandbyWake_upd
  | .wakePllTimeout => execWakePllTimeout_upd
  | .testComplete .. => execTestComplete_upd
  | .leaseRenewal => execLeaseRenewal_upd
  | .leaseAck => execLeaseAck_upd
  | .followerLeaseLapse => execFollowerLeaseLapse_upd
  | .leaderLeaseLapse => execLeaderLeaseLapse_upd
  | .leadConflict .. => execLeadConflict_upd
  | .galleryLinkFail .. => execGalleryLinkFail_upd
  | .galleryRetry .. => execGalleryRetry_upd
  | .bar0NarrowAccess _ _ w => execBar0NarrowAccess_upd (_w := w)
  | .bar0OutOfRangeAccess .. => execBar0OutOfRangeAccess_upd
  | .undefinedOffsetAccess .. => execUndefinedOffsetAccess_upd
  | .pageWorldViolation .. => execPageWorldViolation_upd
  | .closedPageAccess .. => execClosedPageAccess_upd
  | .unreachableHalfAccess .. => execUnreachableHalfAccess_upd
  | .registerWrite .. => execRegisterWrite_upd
  | .bar4Read .. => execBar4Read_upd
  | .bar4Write .. => execBar4Write_upd
  | .configRequest .. => execConfigRequest_upd
  | .perstAssert => execPerstAssert_upd
  | .functionLevelReset .. => execFunctionLevelReset_upd
  | .hostLinkDlUp .. => execHostLinkDlUp_upd
  | .hostLinkDlDown => execHostLinkDlDown_upd
  | .doorbellRun .. => execDoorbellRun_upd
  | .doorbellHint .. => execDoorbellHint_upd
  | .doorbellPark .. => execDoorbellPark_upd
  | .doorbellInvalidOp .. => execDoorbellInvalidOp_upd
  | .create .. => execCreate_upd
  | .query .. => execQuery_upd
  | .update .. => execUpdate_upd
  | .run .. => execRun_upd
  | .park .. => execPark_upd
  | .resume .. => execResume_upd
  | .restart .. => execRestart_upd
  | .reconfig .. => execReconfig_upd
  | .destroy .. => execDestroy_upd
  | .hint .. => execHint_upd
  | .stwBadOp .. => execStwBadOp_upd
  | .sliceExpiry .. => execSliceExpiry_upd
  | .crewIdle .. => execCrewIdle_upd
  | .ageingPeriod .. => execAgeingPeriod_upd
  | .swapSave .. => execSwapSave_upd
  | .swapLoad .. => execSwapLoad_upd
  | .swapFlip .. => execSwapFlip_upd
  | .swapRestore .. => execSwapRestore_upd
  | .swapReopen .. => execSwapReopen_upd
  | .quiesceLimitExpiry .. => execQuiesceLimitExpiry_upd
  | .faultNoticeRelease .. => execFaultNoticeRelease_upd
  | .heatCopyUpdate .. => execHeatCopyUpdate_upd
  | .idCoolingExpiry .. => execIdCoolingExpiry_upd
  | .roomRetire .. => execRoomRetire_upd
  | .lcFlush .. => execLcFlush_upd
  | .illegalCode .. => execIllegalCode_upd
  | .cupboardRead .. => execCupboardRead_upd
  | .cupboardWrite .. => execCupboardWrite_upd
  | .oarMul .. => execOarMul_upd
  | .oarMac .. => execOarMac_upd
  | .oarMsub .. => execOarMsub_upd
  | .oarLoad .. => execOarLoad_upd
  | .oarClear .. => execOarClear_upd
  | .oarEmit .. => execOarEmit_upd
  | .oarReservedOp .. => execOarReservedOp_upd
  | .roscWindowEnd .. => execRoscWindowEnd_upd
  | .roscCtrlWrite .. => execRoscCtrlWrite_upd
  | .windowRead .. => execWindowRead_upd
  | .windowWrite .. => execWindowWrite_upd
  | .memoryCompletion .. => execMemoryCompletion_upd
  | .patrolRead .. => execPatrolRead_upd
  | .zeroingFrameDone .. => execZeroingFrameDone_upd
  | .reclaimWalk .. => execReclaimWalk_upd
  | .frameTake .. => execFrameTake_upd
  | .frameGive .. => execFrameGive_upd
  | .granTake .. => execGranTake_upd
  | .granGive .. => execGranGive_upd
  | .invalCrew .. => execInvalCrew_upd
  | .invalPage .. => execInvalPage_upd
  | .invalAll .. => execInvalAll_upd
  | .invalComplete .. => execInvalComplete_upd
  | .pgtBadOp .. => execPgtBadOp_upd
  | .hatchPush .. => execHatchPush_upd
  | .hatchSend .. => execHatchSend_upd
  | .noticePost .. => execNoticePost_upd
  | .hatchDelivery .. => execHatchDelivery_upd
  | .hostCopy .. => execHostCopy_upd
  | .hatchReturn .. => execHatchReturn_upd
  | .ringHandoff .. => execRingHandoff_upd
  | .hatchOpen .. => execHatchOpen_upd
  | .hatchQuery .. => execHatchQuery_upd
  | .hatchClose .. => execHatchClose_upd
  | .hatchCloseComplete .. => execHatchCloseComplete_upd
  | .hatBadOp .. => execHatBadOp_upd
  | .linkFlit .. => execLinkFlit_upd
  | .linkNak .. => execLinkNak_upd
  | .linkRetrain .. => execLinkRetrain_upd
  | .linkTrainRetry .. => execLinkTrainRetry_upd
  | .courseLinkTrained .. => execCourseLinkTrained_upd
  | .linkDown .. => execLinkDown_upd
  | .breakLink .. => execBreakLink_upd
  | .heal .. => execHeal_upd
  | .segmentForward .. => execSegmentForward_upd
  | .segmentArrival .. => execSegmentArrival_upd
  | .courseRepresent .. => execCourseRepresent_upd
  | .ingressAgeExpiry .. => execIngressAgeExpiry_upd
  | .accept .. => execAccept_upd
  | .refuse .. => execRefuse_upd
  | .busy .. => execBusy_upd
  | .busyResend .. => execBusyResend_upd
  | .messageExpiry .. => execMessageExpiry_upd
  | .enum .. => execEnum_upd
  | .mapBeaconIn .. => execMapBeaconIn_upd
  | .mapWaitExpiry => execMapWaitExpiry_upd
  | .enumTimeout => execEnumTimeout_upd
  | .enumRetry => execEnumRetry_upd
  | .mapBeacon => execMapBeacon_upd
  | .join .. => execJoin_upd
  | .leave .. => execLeave_upd
  | .reqLeave .. => execReqLeave_upd
  | .reqJoin .. => execReqJoin_upd
  | .leaveDrainEnd => execLeaveDrainEnd_upd
  | .ringIdHoldExpiry .. => execRingIdHoldExpiry_upd
  | .imageHeader .. => execImageHeader_upd
  | .frameRecord .. => execFrameRecord_upd
  | .repeatRecord .. => execRepeatRecord_upd
  | .zeroRecord .. => execZeroRecord_upd
  | .essentialRecord .. => execEssentialRecord_upd
  | .crewRecord .. => execCrewRecord_upd
  | .hallRecord .. => execHallRecord_upd
  | .endRecord .. => execEndRecord_upd
  | .gcmSegment .. => execGcmSegment_upd
  | .loadDeadlineExpiry => execLoadDeadlineExpiry_upd
  | .loadCleanupDone => execLoadCleanupDone_upd
  | .chainPacket .. => execChainPacket_upd
  | .chainResend => execChainResend_upd
  | .chainStallExpiry => execChainStallExpiry_upd
  | .dmaChunk .. => execDmaChunk_upd
  | .dmaChunkDone .. => execDmaChunkDone_upd
  | .cfgDeadlineWrite .. => execCfgDeadlineWrite_upd
  | .attBootWrite .. => execAttBootWrite_upd
  | .atticProg .. => execAtticProg_upd
  | .atticProgDone .. => execAtticProgDone_upd
  | .recClearRooms .. => execRecClearRooms_upd
  | .recClearFrames .. => execRecClearFrames_upd
  | .recClearBoth .. => execRecClearBoth_upd
  | .recClearDone .. => execRecClearDone_upd
  | .lockStep => execLockStep_upd
  | .lockTimeout => execLockTimeout_upd
  | .ioStep => execIoStep_upd
  | .gsrStep => execGsrStep_upd
  | .weStep => execWeStep_upd
  | .runModeEntry => execRunModeEntry_upd
  | .progNLow => execProgNLow_upd
  | .g2Prog .. => execG2Prog_upd
  | .g2ClearDone => execG2ClearDone_upd
  | .g2Sync => execG2Sync_upd
  | .g2StreamHeader .. => execG2StreamHeader_upd
  | .g2Frame .. => execG2Frame_upd
  | .g2Crc .. => execG2Crc_upd
  | .g2StartDone => execG2StartDone_upd
  | .g2Calibration => execG2Calibration_upd
  | .g2CalibrationDone .. => execG2CalibrationDone_upd
  | .g2HostRead .. => execG2HostRead_upd
  | .g2HostWrite .. => execG2HostWrite_upd
  | .g2cRegWrite .. => execG2cRegWrite_upd
  | .g2UserWrite .. => execG2UserWrite_upd
  | .g2Sleep .. => execG2Sleep_upd
  | .g2DeepSleep .. => execG2DeepSleep_upd
  | .g2Run .. => execG2Run_upd
  | .g2TimerExpiry => execG2TimerExpiry_upd
  | .celTimerExpiry => execCelTimerExpiry_upd
  | .celTimerWrite .. => execCelTimerWrite_upd
  | .tickSwitch .. => execTickSwitch_upd
  | .xtalStart .. => execXtalStart_upd
  | .sourceReady .. => execSourceReady_upd
  | .hallMuxSwitch .. => execHallMuxSwitch_upd
  | .serviceMuxSwitch .. => execServiceMuxSwitch_upd
  | .switchEscape .. => execSwitchEscape_upd
  | .monitorWindow .. => execMonitorWindow_upd
  | .gateClose .. => execGateClose_upd
  | .gateEngineDone .. => execGateEngineDone_upd
  | .gatePortIdle .. => execGatePortIdle_upd
  | .gateForced .. => execGateForced_upd
  | .gateOpen .. => execGateOpen_upd
  | .opChange .. => execOpChange_upd
  | .opPllTimeout .. => execOpPllTimeout_upd
  | .opVoltageSettled .. => execOpVoltageSettled_upd
  | .avsTransaction .. => execAvsTransaction_upd
  | .vfabTargetWrite .. => execVfabTargetWrite_upd
  | .vfabStep .. => execVfabStep_upd
  | .governorSample .. => execGovernorSample_upd
  | .governorAction .. => execGovernorAction_upd
  | .governorUndo .. => execGovernorUndo_upd
  | .fmcMeasure .. => execFmcMeasure_upd
  | .fmcMeasurementEnd .. => execFmcMeasurementEnd_upd
  | .fmcRefLost .. => execFmcRefLost_upd
  | .pulseArrival .. => execPulseArrival_upd
  | .pulseHandshakeComplete .. => execPulseHandshakeComplete_upd
  | .crossingSideReset .. => execCrossingSideReset_upd
  | .crossingResync .. => execCrossingResync_upd
  | .softReset .. => execSoftReset_upd
  | .sliceStart .. => execSliceStart_upd
  | .sliceReport .. => execSliceReport_upd
  | .bstReq .. => execBstReq_upd
  | .scrubPassStart .. => execScrubPassStart_upd
  | .scrubFrame .. => execScrubFrame_upd
  | .coxRestart .. => execCoxRestart_upd
  | .coxFirmwareUpdate .. => execCoxFirmwareUpdate_upd
  | .coxRestartDone .. => execCoxRestartDone_upd
  | .memRetrain .. => execMemRetrain_upd
  | .memRetrainMigrate .. => execMemRetrainMigrate_upd
  | .stackRetrainDone .. => execStackRetrainDone_upd
  | .courseLaneRetrain .. => execCourseLaneRetrain_upd
  | .hostLinkRecovery .. => execHostLinkRecovery_upd
  | .hostLinkReeq .. => execHostLinkReeq_upd
  | .reeqTimeout => execReeqTimeout_upd
  | .unfreeze .. => execUnfreeze_upd
  | .lcsReqProd .. => execLcsReqProd_upd
  | .lcsReqRma .. => execLcsReqRma_upd
  | .lcsReqEnd .. => execLcsReqEnd_upd
  | .lcsReqInvalid .. => execLcsReqInvalid_upd
  | .lcsReqDone .. => execLcsReqDone_upd
  | .fuseEncRequired .. => execFuseEncRequired_upd
  | .fuseFallbackEn .. => execFuseFallbackEn_upd
  | .keyProgram .. => execKeyProgram_upd
  | .keyZeroise .. => execKeyZeroise_upd
  | .keyCheck .. => execKeyCheck_upd
  | .keyOpDone .. => execKeyOpDone_upd
  | .vbatLoss => execVbatLoss_upd
  | .tapBypass => execTapBypass_upd
  | .tapIdcode => execTapIdcode_upd
  | .tapSamplePreload .. => execTapSamplePreload_upd
  | .tapExtest => execTapExtest_upd
  | .tapClamp => execTapClamp_upd
  | .tapHighz => execTapHighz_upd
  | .pinFunctionSwitch .. => execPinFunctionSwitch_upd
  | .functionSwitchWindowEnd .. => execFunctionSwitchWindowEnd_upd
  | .pinOutWrite .. => execPinOutWrite_upd
  | .pinSetWrite .. => execPinSetWrite_upd
  | .pinClrWrite .. => execPinClrWrite_upd
  | .pinOeWrite .. => execPinOeWrite_upd
  | .coxGpioWrite .. => execCoxGpioWrite_upd
  | .sdwData .. => execSdwData_upd
  | .sdwSet .. => execSdwSet_upd
  | .sdwClr .. => execSdwClr_upd
  | .sdwOe .. => execSdwOe_upd
  | .pinInputChange .. => execPinInputChange_upd
  | .porchTokenBoundary .. => execPorchTokenBoundary_upd
  | .smbusBlockRead .. => execSmbusBlockRead_upd
  | .pageFreeze .. => execPageFreeze_upd
  | .irqForce .. => execIrqForce_upd
  | .irqEnableWrite .. => execIrqEnableWrite_upd
  | .pgIrqRawClear .. => execPgIrqRawClear_upd
  | .pgErrClear .. => execPgErrClear_upd
  | .pgWorldWrite .. => execPgWorldWrite_upd
  | .pgWorldLock .. => execPgWorldLock_upd
  | .mbSend .. => execMbSend_upd
  | .mbReply .. => execMbReply_upd
  | .tokenThroughStage .. => execTokenThroughStage_upd
  | .crystalCheckWindow .. => execCrystalCheckWindow_upd
  | .stackTemperatureRead .. => execStackTemperatureRead_upd
  | .ringTagCoolingExpiry .. => execRingTagCoolingExpiry_upd
  | .coreRailRestored .. => execCoreRailRestored_upd
  | .cclkFallingEdge .. => execCclkFallingEdge_upd
  | .hostLinkReturnToL0 => execHostLinkReturnToL0_upd
  | .courseRetrainFail .. => execCourseRetrainFail_upd
  | .designInterruptRequest .. => execDesignInterruptRequest_upd

/-- Settles O36: each command's own frame lemma says it. -/
theorem everyCommandKeepsToItsFootprint : Obligations.EveryCommandKeepsToItsFootprint :=
  fun s _ c h => (exec_upd s c _ h).frame

/-- Settles O37: what the footprint leaves out is the same data, so it reads the same. -/
theorem memoryAndFabricOutsideTheFootprint : Obligations.MemoryAndFabricOutsideTheFootprint := by
  intro s t c h
  have frame := (exec_upd s c _ h).frame
  refine ⟨fun hm a => ?_, fun hf p r off n => ?_, fun hl => ?_⟩
  · have e : t.mem = s.mem := frame .mem hm
    rw [e]
  · have e : t.fabric = s.fabric := frame .fabric hf
    constructor
    · unfold State.plane; rw [e]
    · unfold State.live; rw [e]
  · have e : t.fuses = s.fuses := frame .fuses hl
    rw [e]

/-- Settles O38: the queue is no table, and every command keeps the tables' form. -/
theorem everyStepKeepsTheCanonicalForm : Obligations.EveryStepKeepsTheCanonicalForm := by
  intro s t hs h
  unfold step at h
  split at h
  next => exact Host.Outcome.next.inj h ▸ hs
  next c rest _ => exact (exec_upd _ c _ h).canon ⟨hs.mem, hs.fabric, hs.regs, hs.crews, hs.hatches⟩

/-- Settles O39: after reset every table is empty. -/
theorem resetIsCanonical : Obligations.ResetIsCanonical :=
  ⟨rfl, rfl, ⟨rfl, fun _ h => nomatch h⟩, rfl, rfl⟩

/-- Settles O34: the two cases of `step`. -/
theorem stepRunsTheCommandInFront : Obligations.StepRunsTheCommandInFront :=
  ⟨fun s c l h => by unfold step; rw [h], fun s h => by unfold step; rw [h]⟩

/-- Every command's meaning is a next state, without a case. -/
theorem exec_next (s : State) (c : Instr) : ∃ t, exec c s = .next t := by
  cases c <;> exact ⟨_, rfl⟩

/-- No footprint holds the queue. -/
theorem pending_not_mem_touches (c : Instr) : Part.pending ∉ c.touches := by
  have hsub : Part.sub c.touches (Part.allBut [.pending]) = true := by
    cases c <;> simp only [Instr.touches] <;> rfl
  exact fun hp => (Part.mem_allBut [.pending] .pending).mp (Part.mem_of_sub hsub hp) (List.mem_singleton_self _)

/-- Settles O35: a meaning answers a state, and no footprint holds the queue. -/
theorem everyCommandCompletes : Obligations.EveryCommandCompletes := by
  intro s c
  obtain ⟨t, ht⟩ := exec_next s c
  exact ⟨t, ht, (exec_upd s c t ht).frame .pending (pending_not_mem_touches c)⟩

/-- Settles O40: each table is empty after reset, so each value is that of an entry that is not listed. -/
theorem resetValues : Obligations.ResetValues :=
  ⟨rfl, rfl, rfl, fun _ => rfl, fun _ => ⟨rfl, rfl⟩, fun _ => rfl, rfl, rfl, rfl, rfl, rfl⟩

end Sys2Proof.Machine
end

section
/-! PROOFS. O41: a write of a register, field by field. -/

namespace Sys2Proof.Machine

/-! ## A field under a write of its register -/

/-- The value that a write of `v` leaves in a field that held `n`, by the field's access code (Table 0.4). -/
def Fld.written (f : Fld) (locked : Bool) (v : Word) (n : Nat) : Nat :=
  match f.acc with
  | .rw => f.get v
  | .rwl => if locked then n else f.get v
  | .w1c => n &&& (f.max - f.get v)
  | .w1s => n ||| f.get v
  | .cnt => 0
  | .ro | .wo => n

/-- Two fields lie in words and share no bit. -/
def Fld.apart (f g : Fld) : Prop := f.hi < g.lo ∨ g.hi < f.lo

theorem Fld.get_lt (f : Fld) (w : Word) : f.get w < 2 ^ (f.hi - f.lo + 1) := Nat.mod_lt _ (Nat.two_pow_pos _)

theorem Fld.written_lt (f : Fld) (l : Bool) (v w : Word) : f.written l v (f.get w) < 2 ^ (f.hi - f.lo + 1) := by
  unfold Fld.written
  cases f.acc with
  | rwl => cases l <;> exact f.get_lt _
  | w1c => exact Nat.lt_of_le_of_lt Nat.and_le_left (f.get_lt w)
  | w1s => exact Nat.or_lt_two_pow (f.get_lt w) (f.get_lt v)
  | cnt => exact Nat.two_pow_pos _
  | rw => exact f.get_lt _
  | ro => exact f.get_lt _
  | wo => exact f.get_lt _

/-- A write of one field is that of its value, or none. -/
theorem Fld.write_eq (f : Fld) (l : Bool) (v w : Word) :
    f.write l v w = w ∧ f.written l v (f.get w) = f.get w ∨ f.write l v w = f.put (f.written l v (f.get w)) w := by
  unfold Fld.write Fld.written
  cases f.acc <;> cases l <;> simp

theorem Fld.get_write (f : Fld) (hf : f.ok = true) (l : Bool) (v w : Word) :
    f.get (f.write l v w) = f.written l v (f.get w) := by
  rcases f.write_eq l v w with ⟨hw, hn⟩ | hw
  · rw [hw, hn]
  · rw [hw, Fld.get_put f hf, Nat.mod_eq_of_lt (f.written_lt l v w)]

theorem Fld.get_write_of_apart (f g : Fld) (hf : f.ok = true) (hg : g.ok = true) (h : f.apart g) (l : Bool) (v w : Word) :
    f.get (g.write l v w) = f.get w := by
  rcases g.write_eq l v w with ⟨hw, -⟩ | hw
  · rw [hw]
  · rw [hw]
    refine Fld.get_put_of_disjoint f g hg h ?_ _ _
    simp only [Fld.ok, Bool.and_eq_true, decide_eq_true_eq] at hf
    exact hf.1

theorem Fld.getLsbD_write_of_outside (f : Fld) (hf : f.ok = true) {i : Nat} (h : i < f.lo ∨ f.hi < i) (l : Bool)
    (v w : Word) : (f.write l v w).getLsbD i = w.getLsbD i := by
  rcases f.write_eq l v w with ⟨hw, -⟩ | hw
  · rw [hw]
  · rw [hw, BitVec.getLsbD, BitVec.getLsbD, f.put_testBit hf]
    split
    · rfl
    · exact if_neg (by omega)

/-! ## The fields of a register -/

/-- The fields of a register lie in its word and share no bit. -/
@[reducible] def RegRow.ok (r : RegRow) : Prop :=
  (∀ f ∈ r.fields, f.ok = true) ∧ r.fields.Pairwise fun f g => f.hi < g.lo ∨ g.hi < f.lo

theorem foldl_write_get_of_apart {f : Fld} {gs : List Fld} (hf : f.ok = true) (hgs : ∀ g ∈ gs, g.ok = true)
    (h : ∀ g ∈ gs, f.apart g) (l : Bool) (v w : Word) :
    f.get (gs.foldl (fun w g => g.write l v w) w) = f.get w := by
  induction gs generalizing w with
  | nil => rfl
  | cons g gs ih =>
    rw [List.foldl_cons, ih (fun x hx => hgs x (.tail _ hx)) (fun x hx => h x (.tail _ hx)),
      Fld.get_write_of_apart f g hf (hgs g (.head _)) (h g (.head _))]

theorem foldl_write_get {f : Fld} {gs : List Fld} (hgs : ∀ g ∈ gs, g.ok = true)
    (hp : gs.Pairwise fun f g => f.hi < g.lo ∨ g.hi < f.lo) (hf : f ∈ gs) (l : Bool) (v w : Word) :
    f.get (gs.foldl (fun w g => g.write l v w) w) = f.written l v (f.get w) := by
  induction gs generalizing w with
  | nil => nomatch hf
  | cons g gs ih =>
    have hgs' : ∀ x ∈ gs, x.ok = true := fun x hx => hgs x (.tail _ hx)
    obtain ⟨hhead, htail⟩ := List.pairwise_cons.mp hp
    rw [List.foldl_cons]
    rcases List.mem_cons.mp hf with rfl | hmem
    · rw [foldl_write_get_of_apart (hgs f (.head _)) hgs' hhead, Fld.get_write f (hgs f (.head _))]
    · rw [ih hgs' htail hmem,
        Fld.get_write_of_apart f g (hgs f hf) (hgs g (.head _)) (hhead f hmem).symm]

theorem RegRow.get_write {r : RegRow} (hr : r.ok) {f : Fld} (hf : f ∈ r.fields) (l : Bool) (v w : Word) :
    f.get (r.write l v w) = f.written l v (f.get w) :=
  foldl_write_get hr.1 hr.2 hf l v w

theorem foldl_write_getLsbD_of_outside {gs : List Fld} (hgs : ∀ g ∈ gs, g.ok = true) {i : Nat}
    (h : ∀ g ∈ gs, i < g.lo ∨ g.hi < i) (l : Bool) (v w : Word) :
    (gs.foldl (fun w g => g.write l v w) w).getLsbD i = w.getLsbD i := by
  induction gs generalizing w with
  | nil => rfl
  | cons g gs ih =>
    rw [List.foldl_cons, ih (fun x hx => hgs x (.tail _ hx)) (fun x hx => h x (.tail _ hx)),
      Fld.getLsbD_write_of_outside g (hgs g (.head _)) (h g (.head _))]

/-! ## The register map -/

theorem headRows_ok : ∀ r ∈ headRows, r.ok := by decide

theorem regRows_ok (k : PageKind) : ∀ r ∈ regRows k, r.ok := by cases k <;> decide

theorem mem_of_rowAt {o : Nat} {rows : List RegRow} {r : RegRow} (h : rowAt o rows = some r) : r ∈ rows :=
  List.mem_of_find?_eq_some h

theorem regAt_ok {p o : Nat} {r : RegRow} (h : regAt p o = some r) : r.ok := by
  unfold regAt at h
  split at h
  · exact regRows_ok _ r (mem_of_rowAt h)
  · split at h
    · exact headRows_ok r (mem_of_rowAt h)
    · exact regRows_ok _ r (mem_of_rowAt h)

theorem Fld.written_w1c_testBit {f : Fld} (hacc : f.acc = .w1c) (l : Bool) (v w : Word) (i : Nat) :
    (f.written l v (f.get w)).testBit i = ((f.get w).testBit i && !(f.get v).testBit i) := by
  have hmax : f.max - f.get v = 2 ^ (f.hi - f.lo + 1) - (f.get v + 1) := by unfold Fld.max; omega
  unfold Fld.written
  rw [hacc]
  show (f.get w &&& (f.max - f.get v)).testBit i = _
  rw [hmax, Nat.testBit_and, Nat.testBit_two_pow_sub_succ (f.get_lt v)]
  rw [Fld.get_testBit f w]
  by_cases hi : i < f.hi - f.lo + 1 <;> simp [hi]

/-- Settles O41: a register's fields share no bit, so each is written alone, by its access code. -/
theorem fieldsFollowTheirAccessCodes : Obligations.FieldsFollowTheirAccessCodes := by
  intro p o r hr l v w
  have hok := regAt_ok hr
  refine ⟨fun f hf => ?_, fun i hi => foldl_write_getLsbD_of_outside hok.1 hi l v w⟩
  rw [RegRow.get_write hok hf]
  refine ⟨?_, ?_, ?_, ?_, fun hacc i => Fld.written_w1c_testBit hacc l v w i, ?_⟩
  · intro hacc; simp [Fld.written, hacc]
  · rintro (hacc | hacc) <;> simp [Fld.written, hacc]
  · intro hacc; simp [Fld.written, hacc]
  · intro hacc; simp [Fld.written, hacc]
  · intro hacc i; simp [Fld.written, hacc]

end Sys2Proof.Machine
end

section
/-! PROOFS. The reads of a field after the shared operations on registers, and PG_IRQ_RAW after an event. -/

namespace Sys2Proof.Machine

@[simp] theorem other_other (h : Half) : other (other h) = h := by cases h <;> rfl

theorem other_ne (h : Half) : other h ≠ h := by cases h <;> decide

namespace State

variable (s : State)

/-! ## Reads of a field after writes -/

theorem rd_lt (p : Nat) (f : Fld) : s.rd p f < 2 ^ (f.hi - f.lo + 1) := Nat.mod_lt _ (Nat.two_pow_pos _)

/-- A field reads a value that fits it. -/
@[simp] theorem rd_wr_fit (p : Nat) {f : Fld} {v : Nat} (h : f.ok = true) (hv : v < 2 ^ (f.hi - f.lo + 1)) :
    (s.wr p f v).rd p f = v := by
  rw [rd_wr s p f v h, Nat.mod_eq_of_lt hv]

theorem bit_lt_two (b : Bool) : bit b < 2 := by cases b <;> decide

@[simp] theorem wrs_nil (p : Nat) : s.wrs p [] = s := rfl

@[simp] theorem wrs_cons (p : Nat) (f : Fld) (v : Nat) (l : List (Fld × Nat)) :
    s.wrs p ((f, v) :: l) = (s.wr p f v).wrs p l := rfl

@[simp] theorem rd_bump (p : Nat) {f : Fld} {n : Nat} (h : f.ok = true) :
    (s.bump p f n).rd p f = min f.max (s.rd p f + n) := by
  have hpos := Nat.two_pow_pos (f.hi - f.lo + 1)
  exact rd_wr_fit s p h (by unfold Fld.max; omega)

@[simp] theorem rd_bump_sep (p q : Nat) {f g : Fld} {n : Nat} (h : f.sep g = true) (hf : f.ok = true) (hg : g.ok = true) :
    (s.bump q g n).rd p f = s.rd p f :=
  rd_wr_sep s p q f g _ h hf hg

@[simp] theorem rd_bump_page (p q : Nat) {f g : Fld} {n : Nat} (h : p ≠ q) (hf : f.off < 0x1000) (hg : g.off < 0x1000) :
    (s.bump q g n).rd p f = s.rd p f :=
  rd_wr_page s p q f g _ h hf hg

@[simp] theorem rd_step1 (p : Nat) {f : Fld} (h : f.ok = true) :
    (s.step1 p f).rd p f = (s.rd p f + 1) % 2 ^ (f.hi - f.lo + 1) :=
  rd_wr s p f _ h

@[simp] theorem rd_step1_sep (p q : Nat) {f g : Fld} (h : f.sep g = true) (hf : f.ok = true) (hg : g.ok = true) :
    (s.step1 q g).rd p f = s.rd p f :=
  rd_wr_sep s p q f g _ h hf hg

@[simp] theorem rd_step1_page (p q : Nat) {f g : Fld} (h : p ≠ q) (hf : f.off < 0x1000) (hg : g.off < 0x1000) :
    (s.step1 q g).rd p f = s.rd p f :=
  rd_wr_page s p q f g _ h hf hg

/-- An update that keeps the registers keeps every read. -/
@[simp] theorem rd_mk (u : State) {x0 x2 x3 x4 x5 x6 x7 x8 x9 x10 x11 x12 x13 x14 x15 x16 x17 x18 x19 x20 x21 x22 x23 x24 x25 x26 x27 x28 x29 x30 x31 x32 x33 x34 x35 x36 x37 x38 x39 x40 x41 x42 x43 x44 x45 x46} (p : Nat) (f : Fld) :
    (State.mk x0 u.regs x2 x3 x4 x5 x6 x7 x8 x9 x10 x11 x12 x13 x14 x15 x16 x17 x18 x19 x20 x21 x22 x23 x24 x25 x26 x27 x28 x29 x30 x31 x32 x33 x34 x35 x36 x37 x38 x39 x40 x41 x42 x43 x44 x45 x46).rd p f = u.rd p f := rfl

/-! ## Events (R451) -/

/-- An event writes PG_IRQ_RAW of its page and no other register. -/
theorem regs_raise (p b : Nat) :
    (s.raise p b).regs =
      if (s.rd p PG_IRQ_RAW).testBit b then s.regs else (s.wr p PG_IRQ_RAW (s.rd p PG_IRQ_RAW + 2 ^ b)).regs := by
  unfold raise
  by_cases h : (s.rd p PG_IRQ_RAW).testBit b = true
  · simp [h]
  · simp only [h, Bool.false_eq_true, if_false]
    split <;> simp

theorem rd_raise (p q b : Nat) (f : Fld) :
    (s.raise q b).rd p f =
      if (s.rd q PG_IRQ_RAW).testBit b then s.rd p f
      else (s.wr q PG_IRQ_RAW (s.rd q PG_IRQ_RAW + 2 ^ b)).rd p f := by
  have h := s.regs_raise q b
  split at h
  next hb => rw [if_pos hb]; exact rd_congr h p f
  next hb => rw [if_neg hb]; exact rd_congr h p f

@[simp] theorem rd_raise_sep (p q b : Nat) {f : Fld} (h : f.sep PG_IRQ_RAW = true) (hf : f.ok = true) :
    (s.raise q b).rd p f = s.rd p f := by
  rw [rd_raise, rd_wr_sep s p q f PG_IRQ_RAW _ h hf rfl, ite_self]

@[simp] theorem rd_raise_page (p q b : Nat) {f : Fld} (h : p ≠ q) (hf : f.off < 0x1000) :
    (s.raise q b).rd p f = s.rd p f := by
  rw [rd_raise, rd_wr_page s p q f PG_IRQ_RAW _ h hf (by decide), ite_self]

/-- PG_IRQ_RAW after an event: its bit is set, the others are as they were. -/
theorem raw_raise_eq (p : Nat) {b : Nat} (hb : b < 32) :
    (s.raise p b).rd p PG_IRQ_RAW = s.rd p PG_IRQ_RAW ||| 2 ^ b := by
  have hlt : s.rd p PG_IRQ_RAW < 2 ^ 32 := s.rd_lt p PG_IRQ_RAW
  have hpow : 2 ^ b < 2 ^ 32 := Nat.pow_lt_pow_right (by decide) hb
  rw [rd_raise]
  split
  next h =>
    refine Nat.eq_of_testBit_eq fun i => ?_
    rw [Nat.testBit_or, Nat.testBit_two_pow]
    by_cases hi : b = i
    · subst hi; simp [h]
    · simp [hi]
  next h =>
    have hand : s.rd p PG_IRQ_RAW &&& 2 ^ b = 0 := by
      refine Nat.eq_of_testBit_eq fun i => ?_
      rw [Nat.testBit_and, Nat.testBit_two_pow, Nat.zero_testBit]
      by_cases hi : b = i
      · subst hi; simp [h]
      · simp [hi]
    have hbits : BitVec.ofNat 32 (s.rd p PG_IRQ_RAW) &&& BitVec.ofNat 32 (2 ^ b) = 0#32 := by
      rw [← BitVec.ofNat_and, hand]
    have hsum := congrArg BitVec.toNat (BitVec.add_eq_or_of_and_eq_zero _ _ hbits)
    rw [← BitVec.ofNat_add, ← BitVec.ofNat_or, BitVec.toNat_ofNat, BitVec.toNat_ofNat,
      Nat.mod_eq_of_lt (Nat.or_lt_two_pow hlt hpow)] at hsum
    rw [rd_wr s p PG_IRQ_RAW _ rfl]
    exact hsum

theorem raw_raise (p : Nat) {b : Nat} (hb : b < 32) : ((s.raise p b).rd p PG_IRQ_RAW).testBit b = true := by
  rw [raw_raise_eq s p hb, Nat.testBit_or, Nat.testBit_two_pow_self, Bool.or_true]

end State
end Sys2Proof.Machine
end

section
/-! PROOFS. O1: supplies and resets. -/

namespace Sys2Proof.Machine
namespace State

variable (s : State)

/-! ## The state that a reset leaves (R366, R369) -/

theorem rd_of_regs_filter {s t : State} {q : Nat → Bool} (h : t.regs = s.regs.filter fun e => q (e.1 / 0x1000))
    {p : Nat} {f : Fld} (hoff : f.off < 0x1000) (hq : q p = false) :
    t.rd p f = f.get (regReset (p * 0x1000 + f.off)) := by
  have hpage : (p * 0x1000 + f.off) / 0x1000 = p := by omega
  unfold rd reg
  rw [h, Tbl.find_filter s.regs (fun a => q (a / 0x1000)), hpage, hq]
  rfl

/-- A field outside the CEL page shows its reset value, but for those that a reset writes (SYS.ERR.LAST, SYS.ROLE.LEAD_SEL and
CRS.ID.BOW). -/
theorem rd_resetAll (a b : Bool) {p : Nat} {f : Fld} (hp : p ≠ pgCel) (hok : f.ok = true) (hoff : f.off < 0x1000)
    (hlast : f.sep SYS_ERR_LAST = true) (hlead : f.sep SYS_ROLE_LEAD_SEL = true) (hbow : f.sep CRS_ID_BOW = true) :
    (s.resetAll a b).rd p f = f.get (regReset (p * 0x1000 + f.off)) := by
  unfold resetAll
  extract_lets _ _ _ _ _ _ t t₁ t₂ t₃
  have hbase : t.rd p f = f.get (regReset (p * 0x1000 + f.off)) :=
    rd_of_regs_filter (s := s) (q := fun x => x == pgCel) rfl hoff (by simpa using hp)
  have h₁ : t₁.rd p f = t.rd p f := rd_wr_page t p pgCel f CEL_STAT_NO_CLOCK 0 hp hoff (by decide)
  have h₂ : t₂.rd p f = t₁.rd p f := by
    simp only [t₂]
    split
    · rfl
    · rw [rd_wr_sep _ _ _ _ _ _ hlast hok rfl, rd_wr_sep _ _ _ _ _ _ hlast hok rfl]
  rw [rd_wr_sep _ _ _ _ _ _ hbow hok rfl]
  simp only [t₃]
  rw [rd_wr_sep _ _ _ _ _ _ hlead hok rfl, rd_wr_sep _ _ _ _ _ _ hlead hok rfl, h₂, h₁, hbase]

theorem resetAll_parts (a b : Bool) :
    (s.resetAll a b).seq = State.reset.seq ∧ (s.resetAll a b).mem = (if b then s.mem else []) ∧
      (s.resetAll a b).straps = s.straps ∧
      (s.resetAll a b).cellar = { s.cellar with noClock := ⟨false, false⟩, tickPend := s.cellar.tickPend } ∧
      (s.resetAll a b).crews = [] ∧ (s.resetAll a b).ids = [] := by
  unfold resetAll
  cases a <;> simp [State.reset]

@[simp] theorem mode_resetAll (a b : Bool) (h : Half) : (s.resetAll a b).mode h = mBoot := by
  unfold mode
  rw [rd_resetAll s a b (by cases h <;> decide) rfl (by decide) rfl rfl rfl]
  cases h <;> decide

/-! ## BOOT, CELLAR and OFF -/

theorem mode_wrs_mode (h : Half) {m v : Nat} (hm : m < 16) :
    (s.wrs (pgSys h) [(SYS_MODE_MODE, m), (SYS_MODE_PREV, v)]).mode h = m ∧
      (s.wrs (pgSys h) [(SYS_MODE_MODE, m), (SYS_MODE_PREV, v)]).rd (pgSys h) SYS_MODE_PREV = v % 16 := by
  refine ⟨?_, rd_wr _ _ SYS_MODE_PREV v rfl⟩
  exact (rd_wr_sep _ _ _ SYS_MODE_MODE SYS_MODE_PREV _ rfl rfl rfl).trans (rd_wr_fit s _ rfl hm)

/-- A mode and PREV written in both halves, East's first. -/
theorem rd_both_modes (h : Half) {m v : Nat} (hm : m < 16) :
    let t := (s.wrs (pgSys .east) [(SYS_MODE_MODE, m), (SYS_MODE_PREV, v)]).wrs (pgSys .west)
      [(SYS_MODE_MODE, m), (SYS_MODE_PREV, v)]
    t.mode h = m ∧ t.rd (pgSys h) SYS_MODE_PREV = v % 16 := by
  cases h with
  | west => exact mode_wrs_mode _ .west hm
  | east =>
    obtain ⟨hmode, hprev⟩ := mode_wrs_mode s .east (v := v) hm
    simp only [wrs_cons, wrs_nil, mode] at hmode hprev ⊢
    simp (disch := decide) only [rd_wr_page _ (pgSys .east) (pgSys .west), hmode, hprev, and_self]

@[simp] theorem mode_dark {m : Nat} (hm : m < 16) (h : Half) : (s.dark m).mode h = m := (rd_both_modes _ h hm).1

theorem prev_dark {m : Nat} (hm : m < 16) (h : Half) : (s.dark m).rd (pgSys h) SYS_MODE_PREV = s.devMode % 16 :=
  (rd_both_modes _ h hm).2

theorem devMode_of_modes {t : State} {m : Nat} (h : ∀ k, t.mode k = m) : t.devMode = m := h _

theorem dark_parts (m : Nat) :
    (s.dark m).seq.boot = 0 ∧ (s.dark m).mem = [] ∧ (s.dark m).straps = s.straps ∧
      (s.dark m).cellar = { s.cellar with noClock := ⟨false, false⟩ } := by
  have hcut : Upd _ s s.progCut.bootCut := Upd.after bootCut_upd rfl (progCut_upd (s := s))
  have hstraps : s.progCut.bootCut.straps = s.straps := hcut.frame .straps (by decide)
  have hcellar : s.progCut.bootCut.cellar = s.cellar := hcut.frame .cellar (by decide)
  obtain ⟨-, hmem, hst, hcel, -⟩ := s.progCut.bootCut.resetAll_parts false false
  unfold dark
  refine ⟨rfl, ?_, ?_, ?_⟩
  · simpa [modSeq] using hmem
  · simpa [modSeq] using hst.trans hstraps
  · simpa [modSeq, hcellar] using hcel

@[simp] theorem mode_boot (a b : Bool) (h : Half) : (s.boot a b).mode h = mBoot := mode_resetAll ..

theorem boot_parts (a b : Bool) :
    (s.boot a b).seq = State.reset.seq ∧ (s.boot a b).mem = (if b then s.mem else []) ∧
      (s.boot a b).straps = s.straps ∧ (s.boot a b).cellar = { s.cellar with noClock := ⟨false, false⟩ } ∧
      (s.boot a b).crews = [] ∧ (s.boot a b).ids = [] := by
  have hcut := progCut_upd (s := s)
  have hmem : s.progCut.mem = s.mem := hcut.frame .mem (by decide)
  have hstraps : s.progCut.straps = s.straps := hcut.frame .straps (by decide)
  have hcellar : s.progCut.cellar = s.cellar := hcut.frame .cellar (by decide)
  have := s.progCut.resetAll_parts a b
  simpa only [boot, hmem, hstraps, hcellar] using this

/-- The device leaves CELLAR at once where PWRGD and the rails allow it, and stays there else. -/
theorem maybeBoot_of_cellar (hmode : ∀ k, s.mode k = mCellar) (hqual : s.cellar.alwQual = true) :
    s.maybeBoot = if s.railsGood then s.boot true false else s := by
  have hdev : s.devMode = mCellar := devMode_of_modes hmode
  simp [maybeBoot, hdev, hqual]

theorem maybeBoot_boots (hdev : s.devMode = mCellar) (hqual : s.cellar.alwQual = true) (hrails : s.railsGood = true) :
    s.maybeBoot = s.boot true false := by
  simp [maybeBoot, hdev, hqual, hrails]

theorem railsLow_above_cellar (hoff : s.devMode ≠ mOff) (hcellar : s.devMode ≠ mCellar) :
    s.railsLow = s.dark mCellar := by
  simp [railsLow, hoff, hcellar]

/-- CELLAR entered from OFF: both halves there, the always-on supply qualified, the supplies' levels as they were. -/
theorem cellarEnter_parts :
    (∀ k, s.cellarEnter.mode k = mCellar) ∧ s.cellarEnter.cellar.alwQual = true ∧ s.cellarEnter.mem = [] ∧
      s.cellarEnter.railsGood = s.railsGood := by
  unfold cellarEnter
  extract_lets c u v
  obtain ⟨-, hmem, hstraps, hcellar⟩ := dark_parts u mCellar
  refine ⟨fun k => ?_, ?_, ?_, ?_⟩
  · have hv : v.mode k = mCellar := mode_dark u (by decide) k
    simp only [mode] at hv ⊢
    rw [rd_wr_sep _ _ _ _ _ _ rfl rfl rfl, rd_wr_sep _ _ _ _ _ _ rfl rfl rfl, hv]
  · simp [v, hcellar, u, c]
  · simp [v, hmem]
  · simp [railsGood, v, hstraps, hcellar, u, c]

end State

/-! ## The always-on supply, PWRGD, the rails and RST_N -/

open State

theorem exec_alwQualified (s : State) (hoff : s.devMode = mOff) (hon : s.cellar.alwaysOn = true) :
    exec .alwQualified s = .next s.cellarEnter.maybeBoot :=
  congrArg Host.Outcome.next (if_pos ⟨hoff, hon⟩)

/-- The end of CELLAR's entry: in BOOT, or in CELLAR still. -/
theorem cellarEnter_maybeBoot_parts (s : State) :
    (∀ h, s.cellarEnter.maybeBoot.mode h = if s.railsGood then mBoot else mCellar) ∧
      s.cellarEnter.maybeBoot.cellar.alwQual = true ∧ s.cellarEnter.maybeBoot.mem = [] := by
  obtain ⟨hmode, hqual, hmem, hrails⟩ := cellarEnter_parts s
  rw [maybeBoot_of_cellar _ hmode hqual, hrails]
  obtain ⟨-, hbmem, -, hbcellar, -⟩ := boot_parts s.cellarEnter true false
  split
  · exact ⟨fun h => mode_boot _ _ _ h, by rw [hbcellar]; exact hqual, hbmem⟩
  · exact ⟨hmode, hqual, hmem⟩

/-- BOOT's second step, where the fuses read and no junction is hot, leads to its third. -/
theorem State.bootStep2_boot (s : State) (hboot : s.seq.boot = 1) (hrst : s.straps.rstLow = false)
    (heast : s.srcReady .east .irc = true) (hwest : s.srcReady .west .irc = true) (hfuse : s.fuses.readFails = false)
    (hcool : s.cellar.hottest < 100) : s.bootStep2.seq.boot = 3 := by
  have hhot : ¬ 100 ≤ s.cellar.hottest := by omega
  have hports : (s.readFuses.modSeq fun q => { q with boot := 3 }).openPorts.seq.boot = 3 :=
    congrArg Sequencer.boot (openPorts_upd.frame .seq (by decide))
  simp [bootStep2, hboot, hrst, heast, hwest, hfuse, hhot, hports]

theorem State.bootStep2_of_not_due (s : State) (hboot : s.seq.boot ≠ 1) : s.bootStep2 = s := by
  simp [bootStep2, hboot]

/-- Settles O1: each command is one of CELLAR's entry, a fall into the dark, BOOT, and BOOT's second step. -/
theorem supplyCommandsAct : Obligations.SupplyCommandsAct := by
  refine ⟨fun s hoff => ?_, fun s hoff hon => ?_, fun s => ?_, fun s hmode hqual hrails => ?_, fun s hoff hcellar => ?_,
    fun s h fab hoff hcellar => ?_, fun s h fab hmode hpwrgd hqual hrails => ?_, fun s hoff hcellar => ?_,
    fun s hboot => ?_, fun s hboot heast hwest hfuse hcool => ?_⟩
  · exact ⟨_, congrArg Host.Outcome.next (if_pos hoff), rfl, (Upd.cellar .refl rfl).frame⟩
  · obtain ⟨hm, hq, hmem⟩ := cellarEnter_maybeBoot_parts s
    exact ⟨_, exec_alwQualified s hoff hon, hq, hmem, hm⟩
  · obtain ⟨-, hmem, -, hcel⟩ := dark_parts
      { s with regs := s.regs.filter fun e => e.1 / 0x1000 != pgCel
               cellar := { s.cellar with alwaysOn := false, alwQual := false, tickPend := none, noClock := ⟨false, false⟩ } } mOff
    exact ⟨_, rfl, by rw [hcel], hmem, fun h => mode_dark _ (by decide) h⟩
  · have hboots := maybeBoot_boots { s with straps := { s.straps with pwrgd := true } } hmode hqual (by simp [railsGood, hrails])
    obtain ⟨hseq, -, hst, -⟩ := boot_parts { s with straps := { s.straps with pwrgd := true } } true false
    exact ⟨_, congrArg Host.Outcome.next hboots, by rw [hst], by rw [hseq]; rfl, fun h => mode_boot _ _ _ h⟩
  · have hdark := railsLow_above_cellar { s with straps := { s.straps with pwrgd := false } } hoff hcellar
    obtain ⟨-, hmem, hst, -⟩ := dark_parts { s with straps := { s.straps with pwrgd := false } } mCellar
    exact ⟨_, congrArg Host.Outcome.next hdark, by rw [hst], hmem,
      fun h => ⟨mode_dark _ (by decide) h, prev_dark _ (by decide) h⟩⟩
  · let u := { s with cellar := { s.cellar with railLow := (h, fab) :: s.cellar.railLow.erase (h, fab) } }
    have hdark : u.railsLow = u.dark mCellar := railsLow_above_cellar u hoff hcellar
    obtain ⟨-, hmem, -, hcel⟩ := dark_parts u mCellar
    refine ⟨u.dark mCellar, congrArg Host.Outcome.next ((if_neg hoff).trans hdark), ?_, hmem, fun k => mode_dark _ (by decide) k⟩
    rw [hcel]
    exact List.mem_cons_self
  · let u := { s with cellar := { s.cellar with railLow := s.cellar.railLow.erase (h, fab) } }
    have hlow : u.cellar.railLow = [] := by simp [u, hrails]
    have hboots : u.maybeBoot = u.boot true false := maybeBoot_boots u hmode hqual (by simp [railsGood, hrails, hpwrgd, u])
    obtain ⟨-, -, -, hcel, -⟩ := boot_parts u true false
    exact ⟨_, congrArg Host.Outcome.next hboots, by rw [hcel]; exact hlow, fun k => mode_boot _ _ _ k⟩
  · let u := { s with straps := { s.straps with rstLow := true } }
    have hon : ¬ (u.devMode = mOff ∨ u.devMode = mCellar) := not_or.mpr ⟨hoff, hcellar⟩
    obtain ⟨hseq, hmem, hst, -⟩ := boot_parts u false true
    exact ⟨u.boot false true, congrArg Host.Outcome.next (if_neg hon), by rw [hst], by rw [hseq]; rfl, hmem,
      fun h => mode_boot _ _ _ h⟩
  · exact ⟨_, congrArg Host.Outcome.next (bootStep2_of_not_due { s with straps := { s.straps with rstLow := false } } hboot), rfl,
      (Upd.straps .refl rfl).frame⟩
  · refine ⟨_, rfl, ?_, bootStep2_boot { s with straps := { s.straps with rstLow := false } } hboot rfl heast hwest hfuse hcool⟩
    exact congrArg Straps.rstLow (bootStep2_upd.frame .straps (by decide))

end Sys2Proof.Machine
end

section
/-! PROOFS. HALT: what entering it writes, and what it leaves of the other half. -/

namespace Sys2Proof.Machine
namespace State

variable (s : State)

/-! ## Operations that leave the registers of the modes -/

/-- Operations that each leave a field leave it one after another. -/
theorem rd_foldl {α : Type} {g : State → α → State} {p : Nat} {f : Fld} (l : List α)
    (h : ∀ t x, (g t x).rd p f = t.rd p f) : (l.foldl g s).rd p f = s.rd p f := by
  induction l generalizing s with
  | nil => rfl
  | cons x l ih => exact (ih (g s x)).trans (h s x)

/-- A write leaves a field of another page, and one that shares no bit with it. -/
theorem rd_wr_apart {p q : Nat} {f g : Fld} {v : Nat} (h : p ≠ q ∧ f.off < 0x1000 ∨ f.sep g = true) (hf : f.ok = true)
    (hg : g.ok = true) (hoff : g.off < 0x1000) : (s.wr q g v).rd p f = s.rd p f :=
  h.elim (fun hp => rd_wr_page s p q f g v hp.1 hp.2 hoff) fun hs => rd_wr_sep s p q f g v hs hf hg

theorem rd_crsByMode {p : Nat} {f : Fld} (h : p ≠ pgCrs ∧ f.off < 0x1000 ∨ f.sep CRS_PORT_STATE = true) (hf : f.ok = true) :
    s.crsByMode.rd p f = s.rd p f := by
  unfold crsByMode
  extract_lets st m serving
  split
  · rfl
  · exact rd_wr_apart s h hf rfl (by decide)

theorem rd_g2Leave {p : Nat} {f : Fld} (h : p ≠ pgG2c ∧ f.off < 0x1000 ∨ f.sep G2C_STAT_STATE = true) (hf : f.ok = true) :
    s.g2Leave.rd p f = s.rd p f := by
  unfold g2Leave
  rw [rd_mk, rd_wr_apart s h hf rfl (by decide)]

@[simp] theorem rd_avsCommit (h : Half) (rail v p : Nat) {f : Fld} (hf : f.ok = true)
    (hhall : f.sep PWR_OP_STAT_VHALL_MV = true) (hfab : f.sep PWR_VFAB_NOW_MV = true) :
    (s.avsCommit h rail v).rd p f = s.rd p f := by
  unfold avsCommit
  extract_lets t
  have ht : t.rd p f = s.rd p f := rd_emit p f
  split
  · rw [rd_wr_sep _ _ _ _ _ _ hhall hf rfl, rd_modPow, ht]
  · rw [rd_wr_sep _ _ _ _ _ _ hfab hf rfl, rd_modPow, ht]

/-! ## HALT (R34) -/

/-- A half that HALT can take: neither in HALT nor without its supplies. -/
def Runs (h : Half) : Prop := s.mode h ≠ mHalt ∧ s.mode h ≠ mOff ∧ s.mode h ≠ mCellar

theorem runs_of_range {h : Half} (hlo : mBoot ≤ s.mode h) (hhi : s.mode h < mHalt) : s.Runs h := by
  simp only [mBoot, mHalt] at hlo hhi
  refine ⟨?_, ?_, ?_⟩ <;> simp only [mHalt, mOff, mCellar] <;> omega

theorem runs_of_mode {h : Half} {m : Nat} (hm : s.mode h = m) (h₁ : m ≠ mHalt) (h₂ : m ≠ mOff) (h₃ : m ≠ mCellar) :
    s.Runs h := by
  subst hm; exact ⟨h₁, h₂, h₃⟩

variable {s} {h : Half}

/-- What entering HALT writes: MODE, PREV, ERR and ORPHAN of the half, TRANSIT of both, the G2 block's and the Course's
states. -/
theorem Runs.rd_haltHalf (hrun : s.Runs h) (code : Nat) {p : Nat} {f : Fld} (hf : f.ok = true)
    (hg2 : p ≠ pgG2c ∧ f.off < 0x1000 ∨ f.sep G2C_STAT_STATE = true)
    (hcrs : p ≠ pgCrs ∧ f.off < 0x1000 ∨ f.sep CRS_PORT_STATE = true) :
    (s.haltHalf h code).rd p f =
      ((((s.setMode h mHalt).wrs (pgSys h) [(SYS_ERR_CODE, code), (SYS_ERR_LAST, code), (SYS_MODE_ORPHAN, 0)]).transit false).rd
        p f) := by
  obtain ⟨hhalt, hoff, hcellar⟩ := hrun
  unfold haltHalf
  rw [if_neg (by simp [hhalt, hoff, hcellar])]
  extract_lets t u a b v w
  have hu : u.rd p f = (t.transit false).rd p f := rd_modSeq p f
  clear_value u
  have hv : v.rd p f = u.rd p f := rd_mk u p f
  have hw : w.rd p f = v.rd p f := by
    simp only [w]
    split
    · exact rd_g2Leave v hg2 hf
    · rfl
  rw [rd_emit]
  split
  · rw [rd_crsByMode w hcrs hf, hw, hv, hu]
  · rw [hw, hv, hu]

/-- The same for a field of a SYS page, whatever half has it. -/
theorem Runs.rd_haltHalf_sys (hrun : s.Runs h) (code p : Nat) {f : Fld} (hf : f.ok = true)
    (hg2 : f.sep G2C_STAT_STATE = true) (hcrs : f.sep CRS_PORT_STATE = true) :
    (s.haltHalf h code).rd p f =
      ((((s.setMode h mHalt).wrs (pgSys h) [(SYS_ERR_CODE, code), (SYS_ERR_LAST, code), (SYS_MODE_ORPHAN, 0)]).transit false).rd
        p f) :=
  hrun.rd_haltHalf code hf (.inr hg2) (.inr hcrs)

theorem Runs.haltHalf_halted (hrun : s.Runs h) {code : Nat} (hcode : code < 256) : (s.haltHalf h code).Halted h code := by
  refine ⟨?_, ?_, ?_⟩
  · simp (disch := decide) [mode, hrun.rd_haltHalf_sys, setMode, transit, rd_wr_sep]
  · simp (disch := decide) only [hrun.rd_haltHalf_sys, setMode, transit, wrs_cons, wrs_nil, rd_wr_sep]
    exact rd_wr_fit _ _ rfl hcode
  · simp (disch := decide) only [hrun.rd_haltHalf_sys, setMode, transit, wrs_cons, wrs_nil, rd_wr_sep]
    exact rd_wr_fit _ _ rfl hcode

theorem haltHalf_of_not_runs (hrun : ¬ s.Runs h) {code : Nat} : s.haltHalf h code = s := by
  unfold haltHalf
  exact if_pos (by simpa only [Runs, not_and_or, not_not] using hrun)

/-- HALT of one half leaves MODE and ERR of the other. -/
theorem rd_haltHalf_other (s : State) (h : Half) (code : Nat) {f : Fld}
    (hmem : f ∈ [SYS_MODE_MODE, SYS_ERR_CODE, SYS_ERR_LAST]) :
    (s.haltHalf h code).rd (pgSys (other h)) f = s.rd (pgSys (other h)) f := by
  by_cases hrun : s.Runs h
  · simp only [List.mem_cons, List.not_mem_nil, or_false] at hmem
    cases h <;> rcases hmem with rfl | rfl | rfl <;>
      simp (disch := decide) [hrun.rd_haltHalf_sys, setMode, transit, rd_wr_sep, rd_wr_page, other]
  · rw [haltHalf_of_not_runs hrun]

theorem mode_haltHalf_other (s : State) (h : Half) (code : Nat) :
    (s.haltHalf h code).mode (other h) = s.mode (other h) :=
  rd_haltHalf_other s h code (.head _)

theorem Halted.haltHalf_other {c code : Nat} (hh : s.Halted (other h) c) : (s.haltHalf h code).Halted (other h) c := by
  obtain ⟨hm, he, hl⟩ := hh
  exact ⟨(mode_haltHalf_other s h code).trans hm, (rd_haltHalf_other s h code (by simp)).trans he,
    (rd_haltHalf_other s h code (by simp)).trans hl⟩

theorem Runs.haltHalf_other (hrun : s.Runs (other h)) (code : Nat) : (s.haltHalf h code).Runs (other h) := by
  unfold Runs
  rwa [mode_haltHalf_other]

theorem errN_of_halt (hm : s.mode h = mHalt) : s.errN = true := by
  cases h <;> simp [errN, hm]

theorem Runs.haltHalf_did (hrun : s.Runs h) {code : Nat} (hcode : code < 256) : s.HaltDid h code (s.haltHalf h code) :=
  have hhalted := hrun.haltHalf_halted hcode
  ⟨hhalted, mode_haltHalf_other s h code, errN_of_halt hhalted.1, haltHalf_upd.frame⟩

theorem haltBoth_halted (heast : s.Runs .east) (hwest : s.Runs .west) {code : Nat} (hcode : code < 256) (k : Half) :
    (s.haltBoth code).Halted k code := by
  cases k with
  | east => exact Halted.haltHalf_other (h := .west) (heast.haltHalf_halted hcode)
  | west => exact (Runs.haltHalf_other (h := .east) hwest code).haltHalf_halted hcode

theorem seq_haltHalf (hrun : s.Runs h) (code : Nat) :
    (s.haltHalf h code).seq = { s.seq with boot := 0, txn := none, standby := .none, wakePend := 0, drained := [] } := by
  obtain ⟨hhalt, hoff, hcellar⟩ := hrun
  unfold haltHalf
  rw [if_neg (by simp [hhalt, hoff, hcellar])]
  extract_lets t u a b v w
  have hu : u.seq = { s.seq with boot := 0, txn := none, standby := .none, wakePend := 0, drained := [] } := by
    simp [u, modSeq, transit, t, setMode]
  clear_value u
  have hw : w.seq = u.seq := by
    simp only [w]
    split
    · rw [(g2Leave_upd (s := v)).frame .seq (by decide)]
    · rfl
  rw [show (∀ x : State, ∀ e, (x.emit e).seq = x.seq) from fun _ _ => rfl]
  split
  · rw [(crsByMode_upd (s := w)).frame .seq (by decide), hw, hu]
  · rw [hw, hu]

end State
end Sys2Proof.Machine
end

section
/-! PROOFS. O2: the release sequence where its checks pass. -/

namespace Sys2Proof.Machine
namespace State

variable {s t : State}

/-- The leader is read from LEADER of both halves and LEAD_SEL of the East half. -/
theorem leader_congr (h : ∀ k, t.rd (pgSys k) SYS_ROLE_LEADER = s.rd (pgSys k) SYS_ROLE_LEADER)
    (hsel : t.rd (pgSys .east) SYS_ROLE_LEAD_SEL = s.rd (pgSys .east) SYS_ROLE_LEAD_SEL) : t.leader = s.leader := by
  unfold leader on
  rw [h, h, hsel]

theorem lapsed_congr {h : Half} (hok : t.rd (pgSys h) SYS_ROLE_LEASE_OK = s.rd (pgSys h) SYS_ROLE_LEASE_OK) :
    t.lapsed h = s.lapsed h := by
  unfold lapsed on
  rw [hok]

/-! ## The Gallery and the leader check (Table 11.8) -/

theorem rd_setGallery (s : State) (up : Bool) (p : Nat) {f : Fld} (hf : f.ok = true) (hlink : f.sep GAL_LINK_STATE = true)
    (hraw : f.sep PG_IRQ_RAW = true) : (s.setGallery up).rd p f = s.rd p f := by
  simp only [setGallery]
  rw [rd_raise_sep _ _ _ _ hraw hf, rd_wr_sep _ _ _ _ _ _ hlink hf rfl, rd_raise_sep _ _ _ _ hraw hf,
    rd_wr_sep _ _ _ _ _ _ hlink hf rfl]

theorem link_setGallery (s : State) (up : Bool) (h : Half) :
    (s.setGallery up).rd (pgGal h) GAL_LINK_STATE = if up then 2 else 0 := by
  cases h <;> cases up <;> simp (disch := decide) [setGallery, rd_wr_page]

theorem galleryUp_setGallery (s : State) (up : Bool) : (s.setGallery up).galleryUp = up := by
  unfold galleryUp
  rw [link_setGallery]
  cases up <;> rfl

/-- The state that the leader check leaves where it passes: the leader, and the lease of both halves. -/
theorem leaderCheck_passes (s : State)
    (hsel : s.rd (pgSys .east) SYS_ROLE_LEAD_SEL = s.rd (pgSys .west) SYS_ROLE_LEAD_SEL)
    (hserial : s.fuses.serial.east ≠ s.fuses.serial.west) :
    s.leaderCheck.galleryUp = s.galleryUp ∧ s.leaderCheck.seq.boot = 5 ∧
      s.leaderCheck.rd (pgSys (if s.on (pgSys .east) SYS_ROLE_LEAD_SEL then .west else .east)) SYS_ROLE_LEADER = 1 ∧
      ∀ h, s.leaderCheck.rd (pgSys h) SYS_ROLE_LEASE_OK = 1 ∧ s.leaderCheck.rd (pgSys h) SYS_LEASE_AGE = 0 := by
  have hon : s.on (pgSys .west) SYS_ROLE_LEAD_SEL = s.on (pgSys .east) SYS_ROLE_LEAD_SEL := by simp only [on, hsel]
  obtain ⟨u, hu⟩ : ∃ u, s.leaderCheck = u := ⟨_, rfl⟩
  rw [hu]
  unfold leaderCheck at hu
  simp only [hon, bne_self_eq_false, Bool.false_eq_true, if_false, hserial] at hu
  subst hu
  generalize (if s.on (pgSys .east) SYS_ROLE_LEAD_SEL = true then Half.west else Half.east) = l
  refine ⟨?_, rfl, ?_, fun h => ?_⟩
  · simp (disch := decide) [galleryUp, rd_wr_sep]
  · simp (disch := decide) [rd_wr_sep]
  · cases h <;> simp (disch := decide) [rd_wr_page, rd_wr_sep]

/-! ## The end of BOOT's steps 5 and 6 -/

theorem list_range_four : List.range 4 = [0, 1, 2, 3] := rfl

theorem rd_setSrcReady (s : State) (h : Half) {c : ClockSrc} (hc : ∀ n, c ≠ .porch n) (b : Bool) (p : Nat) {f : Fld}
    (hf : f.ok = true) (hready : f.sep CLK_SRC_STAT_READY = true) (hxtal : f.sep CEL_STAT_XTAL_READY = true) :
    (s.setSrcReady h c b).rd p f = s.rd p f := by
  cases c with
  | porch n => exact absurd rfl (hc n)
  | crystal => exact rd_wr_sep s _ _ _ _ _ hxtal hf rfl
  | irc | refH | refC | pllA | pllB | svc => exact rd_wr_sep s _ _ _ _ _ hready hf rfl

/-- What BOOT reads in a half's pages once its hall is up. -/
def HallAtOp4 (t : State) (h : Half) : Prop :=
  t.rd (pgPwr h) PWR_OP_STAT_OP = 4 ∧ t.rd (pgPwr h) PWR_OP_STAT_ON_IRC = 0 ∧ t.rd (pgClk h) CLK_SRC_STAT_HALL_SEL = 0

theorem hallUp_both (s : State) (h : Half) : HallAtOp4 ((s.hallUp .east).hallUp .west) h := by
  cases h <;> simp (disch := decide) [HallAtOp4, hallUp, setSrcReady, srcBit, rd_wr_page, rd_wr_sep]

/-- The ROM self-check passes in both halves. -/
theorem romChecked_passes (s : State) (hboot : s.seq.boot = 5) :
    (s.romChecked true true).seq.boot = 6 ∧ ∀ h, HallAtOp4 (s.romChecked true true) h ∧
      ((s.romChecked true true).cox.get h).image = s.attic.firmware.headD [] := by
  simp only [romChecked, hboot, ne_eq, not_true_eq_false, if_false, Bool.and_self, if_true]
  generalize hu : ({ s with cox := ⟨{ s.cox.east with image := s.attic.firmware.headD [] },
    { s.cox.west with image := s.attic.firmware.headD [] }⟩ } : State) = u
  have hcox : ((u.hallUp .east).hallUp .west).cox = u.cox :=
    (Upd.after hallUp_upd rfl (hallUp_upd (s := u))).frame .cox (by decide)
  refine ⟨rfl, fun h => ⟨?_, ?_⟩⟩
  · have := hallUp_both u h
    simpa only [HallAtOp4, rd_modSeq] using this
  · have hget : (u.cox.get h).image = s.attic.firmware.headD [] := by subst hu; cases h <;> rfl
    rw [modSeq_upd.frame .cox (by decide), hcox, hget]

/-! ## A transition begins (R30) -/

theorem transit_on (s : State) (b : Bool) (h : Half) : (s.transit b).rd (pgSys h) SYS_MODE_TRANSIT = bit b := by
  cases h <;> cases b <;> simp (disch := decide) [transit, rd_wr_page, bit]

theorem rd_transit (s : State) (b : Bool) (p : Nat) {f : Fld} (hf : f.ok = true) (h : f.sep SYS_MODE_TRANSIT = true) :
    (s.transit b).rd p f = s.rd p f := by
  unfold transit
  rw [rd_wr_sep _ _ _ _ _ _ h hf rfl, rd_wr_sep _ _ _ _ _ _ h hf rfl]

theorem mode_transit (s : State) (b : Bool) (h : Half) : (s.transit b).mode h = s.mode h := rd_transit s b _ rfl rfl

/-- A leader that holds the lease tells its follower and sets TRANSIT in both halves. -/
theorem begin_leased (s : State) (m : Nat) (h : s.lapsed s.leader = false) :
    s.begin m =
      ((s.transit true).modSeq fun q => { q with txn := some (m, false) }).emit (.gallery s.leader gmMode [m]) := by
  have hrd : ∀ p f, f.ok = true → f.sep SYS_MODE_TRANSIT = true →
      ((s.transit true).modSeq fun q => { q with txn := some (m, false) }).rd p f = s.rd p f := fun p f hf hs => by
    rw [rd_modSeq, rd_transit s true p hf hs]
  have hleader := leader_congr (s := s) (fun k => hrd (pgSys k) SYS_ROLE_LEADER rfl rfl) (hrd _ _ rfl rfl)
  have hlapsed := lapsed_congr (h := s.leader) (hrd _ SYS_ROLE_LEASE_OK rfl rfl)
  unfold begin
  extract_lets u
  rw [show u.leader = s.leader from hleader, show u.lapsed s.leader = s.lapsed s.leader from hlapsed, h]
  rfl

theorem begin_leased_parts (s : State) (m : Nat) (h : s.lapsed s.leader = false) :
    (s.begin m).seq = { s.seq with txn := some (m, false) } ∧ (∀ k, (s.begin m).rd (pgSys k) SYS_MODE_TRANSIT = 1) ∧
      ∀ p f, f.ok = true → f.sep SYS_MODE_TRANSIT = true → (s.begin m).rd p f = s.rd p f := by
  rw [begin_leased s m h]
  refine ⟨?_, fun k => ?_, fun p f hf hs => ?_⟩
  · simp [modSeq, transit]
  · rw [rd_emit, rd_modSeq, transit_on]; rfl
  · rw [rd_emit, rd_modSeq, rd_transit s true p hf hs]

/-- BOOT's last state before LOAD-LOCAL or TEST. -/
def stacksUp (s : State) (repairs : List Byte) : State :=
  ((List.range 4).foldl
    (fun s k => s.wrs (pgMem k) [(MEM_STAT_TRAINED, 1), (MEM_STAT_LANE_REPAIRS, (byteAt repairs k).toNat)]) s).modSeq
    fun q => { q with boot := 0 }

theorem rd_stacksUp (s : State) (l : List Byte) {p : Nat} {f : Fld} (hp : p < 34) (hoff : f.off < 0x1000) :
    (s.stacksUp l).rd p f = s.rd p f := by
  unfold stacksUp
  rw [rd_modSeq]
  refine rd_foldl s _ fun t k => ?_
  have hne : p ≠ pgMem k := by unfold pgMem; omega
  rw [wrs_cons, wrs_cons, wrs_nil, rd_wr_page _ _ _ _ _ _ hne hoff (by decide),
    rd_wr_page _ _ _ _ _ _ hne hoff (by decide)]

theorem trained_stacksUp (s : State) (l : List Byte) {k : Nat} (hk : k < 4) :
    (s.stacksUp l).rd (pgMem k) MEM_STAT_TRAINED = 1 ∧
      (s.stacksUp l).rd (pgMem k) MEM_STAT_LANE_REPAIRS = (byteAt l k).toNat := by
  have hfit (b : Byte) : b.toNat % 2 ^ (MEM_STAT_LANE_REPAIRS.hi - MEM_STAT_LANE_REPAIRS.lo + 1) = b.toNat :=
    Nat.mod_eq_of_lt b.isLt
  interval_cases k <;>
    simp (disch := decide) [stacksUp, list_range_four, rd_wr_page, rd_wr_sep, rd_wr, hfit]

theorem stacksTrained_begins (s : State) (l : List Byte) (hboot : s.seq.boot = 6) :
    s.stacksTrained l = (s.stacksUp l).begin
      (if s.on pgCel CEL_CTRL_BOOT_TEST && (s.rd pgLcs LCS_STATE_STATE == 1 || s.rd pgLcs LCS_STATE_STATE == 4)
        then mTest else mLoadLocal) := by
  have htest : (s.stacksUp l).on pgCel CEL_CTRL_BOOT_TEST = s.on pgCel CEL_CTRL_BOOT_TEST :=
    congrArg (· == 1) (rd_stacksUp s l (by decide) (by decide))
  have hlcs : (s.stacksUp l).rd pgLcs LCS_STATE_STATE = s.rd pgLcs LCS_STATE_STATE :=
    rd_stacksUp s l (by decide) (by decide)
  rw [← htest, ← hlcs]
  simp only [stacksTrained, hboot, ne_eq, not_true_eq_false, if_false]
  rfl

end State

open State

/-- Settles O2: the leader check that passes, both halls at OP4, and the transition that the leader begins. -/
theorem bootAdvances : Obligations.BootAdvances := by
  refine ⟨fun s hboot heast hwest hsel hserial => ?_, fun s hboot => ?_, fun s a b c d hboot hlease => ?_⟩
  · have hgal : s.bootGallery = (s.setGallery true).leaderCheck := by
      simp [bootGallery, hboot, booting, heast, hwest]
    have hrd : ∀ k, (s.setGallery true).rd (pgSys k) SYS_ROLE_LEAD_SEL = s.rd (pgSys k) SYS_ROLE_LEAD_SEL :=
      fun k => rd_setGallery s true _ rfl rfl rfl
    have hfuses : (s.setGallery true).fuses = s.fuses := setGallery_upd.frame .fuses (by decide)
    obtain ⟨hup, hseq, hleader, hlease⟩ :=
      leaderCheck_passes (s.setGallery true) (by rw [hrd, hrd, hsel]) (by rw [hfuses]; exact hserial)
    refine ⟨_, congrArg Host.Outcome.next hgal, hup.trans (galleryUp_setGallery s true), hseq, ?_, hlease⟩
    have hon : (s.setGallery true).on (pgSys .east) SYS_ROLE_LEAD_SEL = s.on (pgSys .east) SYS_ROLE_LEAD_SEL := by
      unfold on; rw [hrd]
    rw [← hon]
    exact hleader
  · obtain ⟨hseq, hhalves⟩ := romChecked_passes s hboot
    refine ⟨_, rfl, hseq, fun h => ?_⟩
    obtain ⟨⟨hop, hirc, hsel⟩, himage⟩ := hhalves h
    exact ⟨hop, hirc, hsel, himage⟩
  · have hrd : ∀ k f, f.off < 0x1000 → (s.stacksUp [a, b, c, d]).rd (pgSys k) f = s.rd (pgSys k) f := fun k f hoff =>
      rd_stacksUp s _ (by cases k <;> decide) hoff
    have hlead : (s.stacksUp [a, b, c, d]).leader = s.leader :=
      leader_congr (fun k => hrd k _ (by decide)) (hrd _ _ (by decide))
    have hlapsed : (s.stacksUp [a, b, c, d]).lapsed (s.stacksUp [a, b, c, d]).leader = false := by
      rw [hlead, lapsed_congr (hrd _ _ (by decide)), hlease]
    refine ⟨_, congrArg Host.Outcome.next (stacksTrained_begins s _ hboot), ?_⟩
    obtain ⟨hseq, htransit, hkeeps⟩ := begin_leased_parts _ (if s.on pgCel CEL_CTRL_BOOT_TEST &&
      (s.rd pgLcs LCS_STATE_STATE == 1 || s.rd pgLcs LCS_STATE_STATE == 4) then mTest else mLoadLocal) hlapsed
    rw [hseq]
    refine ⟨rfl, rfl, htransit, fun k hk => ?_, ?_, ?_⟩
    · rw [hkeeps _ _ rfl rfl, (trained_stacksUp s _ hk).1]
    · rw [hkeeps _ _ rfl rfl, (trained_stacksUp s _ (by decide)).2]; rfl
    · rw [hkeeps _ _ rfl rfl, (trained_stacksUp s _ (by decide)).2]; rfl

end Sys2Proof.Machine
end

section
/-! PROOFS. O3: the causes of HALT. -/

namespace Sys2Proof.Machine
namespace State

variable {s : State}

/-! ## The checks of BOOT that fail (R17, R369) -/

theorem runs_of_boot {h : Half} (hm : s.mode h = mBoot) : s.Runs h :=
  runs_of_mode s hm (by decide) (by decide) (by decide)

theorem bootNoGallery_both (hboot : s.seq.boot = 3) (heast : s.mode .east = mBoot) (hwest : s.mode .west = mBoot) :
    s.bootNoGallery = s.haltBoth ecGalleryTrain := by
  simp [bootNoGallery, hboot, booting, heast, hwest]

theorem romChecked_fails {e w : Bool} (hboot : s.seq.boot = 5) (heast : s.Runs .east) (hwest : s.Runs .west)
    (hbad : e = false ∨ w = false) :
    (e = false → (s.romChecked e w).Halted .east ecRomCheck) ∧ (w = false → (s.romChecked e w).Halted .west ecRomCheck) := by
  have heast' := heast.haltHalf_halted (code := ecRomCheck) (by decide)
  have hwest' := hwest.haltHalf_halted (code := ecRomCheck) (by decide)
  cases e <;> cases w <;> simp [romChecked, hboot] at hbad ⊢
  · exact ⟨heast'.haltHalf_other (h := .west), (hwest.haltHalf_other (h := .east) _).haltHalf_halted (by decide)⟩
  · exact heast'
  · exact hwest'

/-! ## A thermal trip (R474) -/

theorem mode_quiesceAll (s : State) (h : Half) : s.quiesceAll.mode h = s.mode h := rd_mk s _ _

theorem mode_avsCommit (s : State) (k : Half) (rail v : Nat) (h : Half) : (s.avsCommit k rail v).mode h = s.mode h :=
  rd_avsCommit s k rail v _ rfl rfl rfl

theorem thermalTrip_halts (heast : s.Runs .east) (hwest : s.Runs .west) (h : Half) : s.thermalTrip.mode h = mHalt := by
  unfold thermalTrip
  extract_lets t u
  have ht : t.mode h = mHalt := (mode_quiesceAll _ h).trans (haltBoth_halted heast hwest (by decide) h).1
  have hu : u.mode h = t.mode h := rd_foldl t _ fun x k => rd_wr_sep x _ _ _ _ _ rfl rfl rfl
  rw [mode_avsCommit, mode_avsCommit, hu, ht]

theorem Runs.haltHalf_east (hwest : s.Runs .west) (code : Nat) : (s.haltHalf .east code).Runs .west :=
  Runs.haltHalf_other (h := .east) hwest code

theorem standby_thermalTrip (hwest : s.Runs .west) : s.thermalTrip.seq.standby = .none := by
  have hboth : (s.haltBoth ecThermal).seq.standby = .none :=
    congrArg Sequencer.standby (seq_haltHalf (hwest.haltHalf_east ecThermal) ecThermal)
  rw [← hboth]
  unfold thermalTrip
  extract_lets t u
  have hu : Upd _ t u := Upd.foldl (K := [.regs]) (fun _ _ hx => Upd.after wr_upd rfl hx) _ .refl
  have htrip : Upd _ t ((u.avsCommit .east 1 1100).avsCommit .west 1 1100) :=
    Upd.after avsCommit_upd rfl (Upd.after avsCommit_upd rfl (Upd.after (K := [.regs, .out, .power]) hu rfl .refl))
  exact congrArg Sequencer.standby (htrip.frame .seq (by decide))

theorem mode_wakeHalf (s : State) (k h : Half) : (s.wakeHalf k).mode h = s.mode h := by
  unfold wakeHalf
  extract_lets t u v
  rw [mode_avsCommit, mode_avsCommit]
  simp only [mode, u, t, wrs_cons, wrs_nil]
  rw [rd_wr_sep _ _ _ _ _ _ rfl rfl rfl, rd_wr_sep _ _ _ _ _ _ rfl rfl rfl, rd_wr_sep _ _ _ _ _ _ rfl rfl rfl,
    rd_setSrcReady _ _ (by simp) _ _ rfl rfl rfl]

theorem runs_wakeHalf (k : Half) {h : Half} (hr : s.Runs h) : (s.wakeHalf k).Runs h := by
  unfold Runs; rwa [mode_wakeHalf]

/-- A comparator that fires in STANDBY wakes the device into HALT. -/
theorem comparatorFires_asleep (hs : s.seq.standby = .asleep) (hm : ∀ k, s.mode k = mStandby) :
    s.comparatorFires.seq.standby = .none ∧ (∀ k, s.comparatorFires.mode k = mHalt) ∧ s.comparatorFires.mem = s.mem ∧
      s.comparatorFires.crews = s.crews := by
  refine ⟨?_, fun k => ?_, comparatorFires_upd.frame .mem (by decide), comparatorFires_upd.frame .crews (by decide)⟩
  all_goals
    have hruns (k : Half) : Runs { s with cellar := { s.cellar with hottest := 115 } } k :=
      runs_of_mode s (hm k) (by decide) (by decide) (by decide)
    have hawake (k : Half) := runs_wakeHalf .west (runs_wakeHalf .east (hruns k))
    simp only [comparatorFires, hs, beq_self_eq_true, if_true]
  · exact standby_thermalTrip (hawake .west)
  · exact thermalTrip_halts (hawake .east) (hawake .west) k

/-! ## Samples and readings -/

theorem sensorsRun_of_range (hm : mBoot ≤ s.devMode) : s.sensorsRun = true := by
  simp only [mBoot] at hm
  simp only [sensorsRun, bne_iff_ne, Bool.and_eq_true, mOff, mCellar, mStandby]
  omega

/-- What a sample keeps: the runs of hot samples, and the hottest junction. -/
def sampled (s : State) (l : List Int) : State :=
  { s with cellar := { s.cellar with hot := hotRuns s.cellar.hot l, hottest := l.foldl max (l.headD s.cellar.hottest) } }

theorem sample_hot {l : List Int} (hmodes : ∀ h, mBoot ≤ s.mode h ∧ s.mode h < mHalt)
    (hhot : ∃ n ∈ hotRuns s.cellar.hot l, 3 ≤ n) :
    s.thermalSample l = (s.sampled l).thermalTrip := by
  have hrun : s.sensorsRun = true := sensorsRun_of_range (hmodes _).1
  have hany : ((hotRuns s.cellar.hot l).any fun n => 3 ≤ n) = true := by simpa using hhot
  have hnot : (s.devMode == mHalt) = false := by
    have := (hmodes s.leader).2
    simpa [devMode] using Nat.ne_of_lt this
  simp only [thermalSample, hrun, if_true, hany, Bool.true_or]
  exact if_neg (Bool.eq_false_iff.mp hnot)

theorem sample_cool {l : List Int} (hrun : s.sensorsRun = true) (hcool : ∀ n ∈ hotRuns s.cellar.hot l, n < 3)
    (hstacks : ∀ k, k < 4 → s.rd (pgMem k) MEM_STAT_TEMP < 105) :
    s.thermalSample l = s.sampled l := by
  have hany : ((hotRuns s.cellar.hot l).any fun n => 3 ≤ n) = false := by simpa using hcool
  simp only [thermalSample, hrun, if_true, hany, Bool.false_or, rd_mk]
  refine if_neg ?_
  rw [Bool.not_eq_true, List.any_eq_false]
  exact fun k hk => ne_true_of_eq_false (decide_eq_false (Nat.not_le.mpr (hstacks k (List.mem_range.mp hk))))

theorem mode_wr_temp (s : State) (k v : Nat) (h : Half) : (s.wr (pgMem k) MEM_STAT_TEMP v).mode h = s.mode h :=
  rd_wr_sep s _ _ _ _ _ rfl rfl rfl

theorem devMode_wr_temp (s : State) (k v : Nat) : (s.wr (pgMem k) MEM_STAT_TEMP v).devMode = s.devMode := by
  have hlead : (s.wr (pgMem k) MEM_STAT_TEMP v).leader = s.leader :=
    leader_congr (fun _ => rd_wr_sep s _ _ _ _ _ rfl rfl rfl) (rd_wr_sep s _ _ _ _ _ rfl rfl rfl)
  rw [devMode, mode_wr_temp, hlead, devMode]

theorem stackTemp_cool (hrun : s.sensorsRun = true) (k : Nat) {c : Byte} (hc : c.toNat < 105) :
    s.stackTemp k c = s.wr (pgMem k) MEM_STAT_TEMP c.toNat := by
  have : ¬ 105 ≤ c.toNat := Nat.not_le.mpr hc
  simp [stackTemp, hrun, this]

theorem stackTemp_hot (hmodes : ∀ h, mBoot ≤ s.mode h ∧ s.mode h < mHalt) {k : Nat} {c : Byte} (hc : 105 ≤ c.toNat) :
    s.stackTemp k c = (s.wr (pgMem k) MEM_STAT_TEMP c.toNat).thermalTrip := by
  have hrun : s.sensorsRun = true := sensorsRun_of_range (hmodes _).1
  have hnot : s.devMode ≠ mHalt := Nat.ne_of_lt (hmodes s.leader).2
  simp [stackTemp, hrun, hc, devMode_wr_temp, hnot]

end State

open State

/-- Settles O3: each cause reaches `haltHalf`, `haltBoth` or a thermal trip, which take a half that runs to HALT. -/
theorem haltCausesAct : Obligations.HaltCausesAct := by
  refine ⟨fun s hboot heast hwest => ?_, fun s e w hboot heast hwest hbad => ?_, fun s k hboot hm => ?_,
    fun s h hother hup hlo hhi => ?_, fun s herr hlo hhi => ?_, fun s l hmodes hhot => ?_, fun s l hrun hcool hstacks => ?_,
    fun s h hs hm => ?_, fun s k c hrun hc => ?_, fun s k c hmodes hc => ?_⟩
  · exact ⟨_, congrArg Host.Outcome.next (bootNoGallery_both hboot heast hwest),
      haltBoth_halted (runs_of_boot heast) (runs_of_boot hwest) (by decide)⟩
  · exact ⟨_, rfl, romChecked_fails hboot (runs_of_boot heast) (runs_of_boot hwest) hbad⟩
  · exact ⟨_, congrArg Host.Outcome.next (if_pos hboot), (runs_of_boot hm).haltHalf_halted (by decide)⟩
  · have hhalted := (runs_of_range s hlo hhi).haltHalf_halted (code := ecHalfHalt) (by decide)
    exact ⟨_, congrArg Host.Outcome.next (if_pos ⟨hother, hup⟩), hhalted, errN_of_halt hhalted.1⟩
  · exact ⟨_, congrArg Host.Outcome.next (if_pos ⟨rfl, Nat.ne_of_lt hhi, herr⟩),
      (runs_of_range s hlo hhi).haltHalf_halted (by decide)⟩
  · have hruns (h : Half) : (s.sampled l).Runs h := runs_of_range s (hmodes h).1 (hmodes h).2
    refine ⟨_, congrArg Host.Outcome.next (sample_hot hmodes hhot), ?_, thermalTrip_halts (hruns _) (hruns _)⟩
    exact congrArg Cellar.hot (thermalTrip_upd.frame .cellar (by decide))
  · exact ⟨_, congrArg Host.Outcome.next (sample_cool hrun hcool hstacks), rfl, (Upd.cellar .refl rfl).frame⟩
  · obtain ⟨hstandby, hmode, -, -⟩ := comparatorFires_asleep hs hm
    exact ⟨_, rfl, hstandby, hmode⟩
  · exact ⟨_, congrArg Host.Outcome.next (stackTemp_cool hrun _ hc), rd_wr_fit _ _ rfl c.isLt, wr_upd.frame⟩
  · have hruns (h : Half) : (s.wr (pgMem k.toNat) MEM_STAT_TEMP c.toNat).Runs h := by
      refine runs_of_range _ ?_ ?_ <;> rw [mode_wr_temp]
      exacts [(hmodes h).1, (hmodes h).2]
    exact ⟨_, congrArg Host.Outcome.next (stackTemp_hot hmodes hc), thermalTrip_halts (hruns _) (hruns _)⟩

end Sys2Proof.Machine
end

section
/-! PROOFS. O54: the commands whose own effect is a HALT. -/

namespace Sys2Proof.Machine
namespace State

variable {s : State}

/-! ## A load or a start-up that fails into HALT (R272, R284) -/

theorem rd_loadErr (s : State) (code record detail pos : Nat) {p : Nat} {f : Fld} (hp : p ≠ pgCfg) (hoff : f.off < 0x1000) :
    (s.loadErr code record detail pos).rd p f = s.rd p f := by
  unfold loadErr
  extract_lets t
  have ht : t.rd p f = s.rd p f := by
    simp only [t, wrs_cons, wrs_nil]
    simp (disch := decide) only [rd_wr_page _ _ _ _ _ _ hp hoff]
  split
  · rw [rd_wr_page _ _ _ _ _ _ hp hoff (by decide), ht]
  · exact ht

theorem rd_loadErr_code (s : State) {code record detail pos : Nat} (hcode : code < 256) :
    (s.loadErr code record detail pos).rd pgCfg CFG_ERR_CODE = code := by
  unfold loadErr
  extract_lets t
  have ht : t.rd pgCfg CFG_ERR_CODE = code := by
    simp only [t, wrs_cons, wrs_nil]
    simp (disch := decide) only [rd_wr_sep]
    exact rd_wr_fit s pgCfg rfl hcode
  split
  · rw [rd_wr_sep _ _ _ _ _ _ rfl rfl rfl, ht]
  · exact ht

/-- HALT leaves every page but SYS, the G2 block's and the Course's. -/
theorem rd_haltHalf_page (s : State) (h : Half) (code : Nat) {p : Nat} {f : Fld} (hf : f.ok = true) (hp : 2 ≤ p)
    (hg2 : p ≠ pgG2c) (hcrs : p ≠ pgCrs) (hoff : f.off < 0x1000) : (s.haltHalf h code).rd p f = s.rd p f := by
  by_cases hrun : s.Runs h
  · have hne (k : Half) : p ≠ pgSys k := by
      have : pgSys k ≤ 1 := by cases k <;> decide
      omega
    rw [hrun.rd_haltHalf code hf (.inl ⟨hg2, hoff⟩) (.inl ⟨hcrs, hoff⟩)]
    simp only [transit, setMode, wrs_cons, wrs_nil]
    simp (disch := decide) only [rd_wr_page _ _ _ _ _ _ (hne _) hoff]
  · rw [haltHalf_of_not_runs hrun]

theorem rd_haltBoth_page (s : State) (code : Nat) {p : Nat} {f : Fld} (hf : f.ok = true) (hp : 2 ≤ p)
    (hg2 : p ≠ pgG2c) (hcrs : p ≠ pgCrs) (hoff : f.off < 0x1000) : (s.haltBoth code).rd p f = s.rd p f := by
  unfold haltBoth
  rw [rd_haltHalf_page _ _ _ hf hp hg2 hcrs hoff, rd_haltHalf_page _ _ _ hf hp hg2 hcrs hoff]

theorem pgSys_ne_cfg (h : Half) : pgSys h ≠ pgCfg := by cases h <;> decide

/-- A load's error and its phase FAILED, written in CFG. -/
theorem failWritten {e : State} {code record detail pos : Nat}
    (he : ∀ p f, e.rd p f = (s.loadErr code record detail pos).rd p f) (hcode : code < 256) :
    let t := e.wr pgCfg CFG_STAT_PHASE phFailed
    t.rd pgCfg CFG_ERR_CODE = code ∧ t.rd pgCfg CFG_STAT_PHASE = phFailed ∧
      ∀ k f, f.off < 0x1000 → t.rd (pgSys k) f = s.rd (pgSys k) f := by
  refine ⟨?_, rd_wr_fit _ _ rfl (by decide), fun k f hoff => ?_⟩
  · rw [rd_wr_sep _ _ _ _ _ _ rfl rfl rfl, he, rd_loadErr_code s hcode]
  · rw [rd_wr_page _ _ _ _ _ _ (pgSys_ne_cfg k) hoff (by decide), he, rd_loadErr s _ _ _ _ (pgSys_ne_cfg k) hoff]

theorem devMode_congr {t : State} (h : ∀ k f, f.off < 0x1000 → t.rd (pgSys k) f = s.rd (pgSys k) f) :
    t.devMode = s.devMode := by
  have hlead : t.leader = s.leader := leader_congr (fun k => h k _ (by decide)) (h _ _ (by decide))
  rw [devMode, hlead, mode, h _ _ (by decide), devMode, mode]

theorem defers_of_host {t : State} (hmode : t.devMode = mLoadHost) : t.defers = false := by
  simp [defers, hmode]

theorem loadOutcome_host {t : State} (hmode : t.devMode = mLoadHost) :
    t.loadOutcome = (((t.modLoad fun l => { l with deferred := false }).wr pgCfg CFG_STAT_PHASE phFailed).raise pgCfg
      2).haltBoth ecLoadFailed := by
  have hdev : ((t.modLoad fun l => { l with deferred := false }).wr pgCfg CFG_STAT_PHASE phFailed).devMode = mLoadHost := by
    rw [← hmode]
    refine devMode_congr fun k f hoff => ?_
    rw [rd_wr_page _ _ _ _ _ _ (pgSys_ne_cfg k) hoff (by decide), rd_modLoad]
  unfold loadOutcome
  simp only [hdev]
  simp

/-- A load of LOAD-HOST that fails: HALT with LOAD_FAILED. -/
theorem loadFail_host (hmode : s.devMode = mLoadHost) (hload : s.loading = true) (code record detail pos : Nat) :
    s.loadFail code record detail pos =
      ((((s.loadErr code record detail pos).modLoad fun l => { l with deferred := false }).wr pgCfg CFG_STAT_PHASE
        phFailed).raise pgCfg 2).haltBoth ecLoadFailed := by
  have herr : (s.loadErr code record detail pos).devMode = mLoadHost := by
    rw [← hmode]
    exact devMode_congr fun k f hoff => rd_loadErr s _ _ _ _ (pgSys_ne_cfg k) hoff
  unfold loadFail
  rw [if_pos hload]
  simp only [defers_of_host herr, Bool.false_eq_true, if_false]
  exact loadOutcome_host herr

end State

open State

/-- A state whose failure is written in CFG halts with it. -/
theorem haltBoth_of_failed {s t : State} {lf ec : Nat} (hmodes : ∀ h, mBoot ≤ s.mode h ∧ s.mode h < mHalt)
    (hsame : ∀ h, t.mode h = s.mode h) (hcode : t.rd pgCfg CFG_ERR_CODE = lf)
    (hphase : t.rd pgCfg CFG_STAT_PHASE = phFailed) (hec : ec < 256) :
    (∀ h, (t.haltBoth ec).Halted h ec) ∧ (t.haltBoth ec).rd pgCfg CFG_ERR_CODE = lf ∧ (t.haltBoth ec).phase = phFailed := by
  have hruns (h : Half) : t.Runs h := by
    refine runs_of_range _ ?_ ?_ <;> rw [hsame]
    exacts [(hmodes h).1, (hmodes h).2]
  refine ⟨haltBoth_halted (hruns _) (hruns _) hec, ?_, ?_⟩
  · rw [rd_haltBoth_page _ _ rfl (by decide) (by decide) (by decide) (by decide), hcode]
  · rw [phase, rd_haltBoth_page _ _ rfl (by decide) (by decide) (by decide) (by decide), hphase]

/-- Settles O54: each cause takes the halves that run to HALT, and does nothing where its event is not there. -/
theorem commandsThatHaltComplete : Obligations.CommandsThatHaltComplete := by
  refine ⟨fun s hboot heast hwest => ?_, fun s h hboot hm hother => ?_, fun s hboot => ?_, fun s k hboot hm => ?_,
    fun s k hboot => ?_, fun s h hother hup hlo hhi => ?_, fun s h hnot => ?_, fun s herr hlo hhi => ?_, fun s h hnot => ?_,
    fun s h hs hm => ?_, fun s h hs => ?_, fun s hdue hmodes => ?_, fun s hdue => ?_, fun s hmode hup hload hmodes => ?_,
    fun s hload => ?_⟩
  · have hhalted := haltBoth_halted (runs_of_boot heast) (runs_of_boot hwest) (code := ecGalleryTrain) (by decide)
    exact ⟨_, congrArg Host.Outcome.next (bootNoGallery_both hboot heast hwest), hhalted, errN_of_halt (hhalted .east).1,
      haltBoth_upd.frame⟩
  · have hone : s.bootNoGallery = s.haltHalf h ecGalleryTrain := by
      cases h <;> simp [bootNoGallery, hboot, booting, hm] at hother ⊢ <;> simp [other] at hother <;> simp [hother]
    exact ⟨_, congrArg Host.Outcome.next hone, (runs_of_boot hm).haltHalf_did (by decide)⟩
  · exact congrArg Host.Outcome.next (if_neg hboot)
  · exact ⟨_, congrArg Host.Outcome.next (if_pos hboot), (runs_of_boot hm).haltHalf_did (by decide)⟩
  · exact congrArg Host.Outcome.next (if_neg hboot)
  · exact ⟨_, congrArg Host.Outcome.next (if_pos ⟨hother, hup⟩), (runs_of_range s hlo hhi).haltHalf_did (by decide)⟩
  · refine congrArg Host.Outcome.next (if_neg ?_)
    rintro ⟨hm, hup⟩
    exact hnot.elim (· hm) fun h => Bool.false_ne_true (h.symm.trans hup)
  · exact ⟨_, congrArg Host.Outcome.next (if_pos ⟨rfl, Nat.ne_of_lt hhi, herr⟩),
      (runs_of_range s hlo hhi).haltHalf_did (by decide)⟩
  · refine congrArg Host.Outcome.next (if_neg ?_)
    rintro ⟨hf, -, herr⟩
    rcases hnot with hn | hl
    · exact Bool.false_ne_true (hn.symm.trans herr)
    · exact other_ne s.leader (hf.symm.trans hl)
  · exact ⟨_, rfl, comparatorFires_asleep hs hm⟩
  · exact congrArg Host.Outcome.next (if_neg (by simpa using hs))
  · obtain ⟨hcode, hphase, hsys⟩ := failWritten (s := s) (code := lfLockTimeout) (record := 0) (detail := 0) (pos := noPos) (fun _ _ => rfl) (by decide)
    obtain ⟨hhalted, hc, hp⟩ := haltBoth_of_failed hmodes (fun h => hsys h _ (by decide)) hcode hphase (ec := ecStartup) (by decide)
    refine ⟨_, congrArg Host.Outcome.next (if_pos hdue), hhalted, hc, hp, ?_⟩
    exact (Upd.after haltBoth_upd rfl (Upd.after wr_upd rfl (Upd.after loadErr_upd rfl .refl))).frame
  · exact congrArg Host.Outcome.next (if_neg (by simp [hdue]))
  · obtain ⟨hcode, hphase, hsys⟩ :=
      failWritten (code := lfTruncated) (record := s.recordInHand) (detail := 0) (pos := noPos)
        (fun p f => rd_modLoad (f := fun l => { l with deferred := false }) p f) (by decide)
    have hraise : ∀ (t : State) p f, f.sep PG_IRQ_RAW = true → f.ok = true → (t.raise pgCfg 2).rd p f = t.rd p f :=
      fun t p f hs hf => rd_raise_sep t p pgCfg 2 hs hf
    have hdeadline : s.deadline = _ := (if_neg (by simp [hup])).trans (loadFail_host hmode hload lfTruncated s.recordInHand 0 noPos)
    exact ⟨_, congrArg Host.Outcome.next hdeadline,
      haltBoth_of_failed hmodes (fun h => (hraise _ _ _ rfl rfl).trans (hsys h _ (by decide)))
        ((hraise _ _ _ rfl rfl).trans hcode) ((hraise _ _ _ rfl rfl).trans hphase) (by decide)⟩
  · refine congrArg Host.Outcome.next ?_
    simp [deadline, loadFail, hload]

end Sys2Proof.Machine
end

section
/-! PROOFS. O52, O53: the words of the worked examples and the hard-wired wake enable -/

namespace Sys2Proof.Machine
namespace State
variable {s : State}

/-- An access that its page takes writes what the page's write says. -/
theorem toPage_of_admits {m : Master} {p off : Nat} (h : s.Admits m p off) (f : State → State) : s.toPage m p off f = f s := by
  unfold Admits at h
  simp only [toPage, h]

theorem goTo_of_takes_store {m : Master} {p off : Nat} (h : s.Takes m p off) {store : State → State}
    (hen : (store s).on p PG_CTRL_EN = s.on p PG_CTRL_EN) (f : State → State) : s.goTo m p off store f = f (store s) := by
  obtain ⟨hpass, hon⟩ := h
  rw [goTo, toPage_of_admits hpass]
  simp only [hen, hon, if_true]

end State
open State

/-- Settles O53: a write of CEL.WAKE_EN stores its low bits with bit 1 set. -/
theorem wakeEnableOfTheHostIsHardWired : Obligations.WakeEnableOfTheHostIsHardWired := by
  intro s m v h
  have hgo : s.regGo m pgCel 0x48 v = none := by
    show (if !v.toNat.testBit 31 then none else none) = none
    exact ite_self none
  have hwrite : s.regWrite32 m (.bar0 (pgCel * 0x1000 + 0x48)) 0 v = s.wr pgCel CEL_WAKE_EN_EN (v.toNat % 16 ||| 2) := by
    show (s.regGo m pgCel 0x48 v).getD (s.toPage m pgCel 0x48 fun s => s.writeAt m pgCel 0x48 v) = _
    rw [hgo]
    exact toPage_of_admits h _
  refine ⟨_, congrArg Host.Outcome.next hwrite, fun i hi => ?_, fun a ha => ?_, wr_upd.frame⟩
  · rw [rd_wr_fit _ _ rfl (Nat.or_lt_two_pow (n := 4) (Nat.mod_lt _ (by decide)) (by decide)), Nat.testBit_or,
      show 16 = 2 ^ 4 from rfl, Nat.testBit_mod_two_pow, show 2 = 2 ^ 1 from rfl, Nat.testBit_two_pow, BitVec.testBit_toNat]
    simp [hi, Bool.or_comm, Bool.beq_eq_decide_eq, eq_comm]
  · unfold wr
    rw [reg_setReg]
    exact if_neg ha

/-- Settles O52: the words evaluate field by field, and a crew window's word is its crew's entry. -/
theorem wordsOfTheWorkedExamples : Obligations.WordsOfTheWorkedExamples := by
  refine ⟨by decide, by decide, by decide, by decide, fun s m c hc hheat hstate hwake hfault hsees => ?_⟩
  have hentry := crewWindowsShowTheCrews s m .east 2 86 0x456 98 (by decide) (by decide) rfl rfl
  rw [hentry.2.2.1 c (by decide) (by decide) hc hsees, hheat, hstate, hwake, hfault]
  rfl
end Sys2Proof.Machine
end

section
/-! PROOFS. O45: memory reads back what was written -/

namespace Sys2Proof.Machine

namespace Tbl

theorem find_map_sub {V : Type} (l : Tbl V) (a i : Nat) (h : ∀ e ∈ l, a ≤ e.1) :
    find (l.map fun e => (e.1 - a, e.2)) i = find l (a + i) := by
  induction l with
  | nil => rfl
  | cons e l ih =>
    have ha : a ≤ e.1 := h e (.head _)
    rw [List.map_cons]
    simp only [find]
    rw [ih fun x hx => h x (.tail _ hx)]
    by_cases he : e.1 = a + i
    · rw [if_pos (by omega), if_pos he]
    · rw [if_neg (by omega), if_neg he]

theorem get_slice {V : Type} (t : Tbl V) (d : V) (a n i : Nat) (hi : i < n) : get (slice t a n) d i = get t d (a + i) := by
  unfold get slice
  rw [find_map_sub _ a i fun e he => ?_, find_filter t (fun k => decide (a ≤ k) && decide (k < a + n))]
  · simp [hi]
  · have := (List.mem_filter.mp he).2
    simp only [Bool.and_eq_true, decide_eq_true_eq] at this
    exact this.1

theorem bytes_eq_of_get {t : Tbl Byte} {a : Nat} {bs : List Byte} (h : ∀ i, i < bs.length → get t 0 (a + i) = byteAt bs i) :
    bytes t a bs.length = bs := by
  induction bs generalizing a with
  | nil => rfl
  | cons b bs ih =>
    have hhead : get t 0 a = b := h 0 (Nat.succ_pos _)
    have htail : bytes t (a + 1) bs.length = bs := ih fun i hi => by
      have := h (i + 1) (Nat.succ_lt_succ hi)
      rwa [Nat.add_comm i 1, ← Nat.add_assoc, Nat.add_comm 1 i] at this
    rw [List.length_cons, bytes, hhead, htail]

theorem byteAt_bytes (t : Tbl Byte) (a n i : Nat) (hi : i < n) : byteAt (bytes t a n) i = get t 0 (a + i) := by
  induction n generalizing a i with
  | zero => omega
  | succ n ih =>
    cases i with
    | zero => rfl
    | succ i =>
      have := ih (a + 1) i (by omega)
      rw [Nat.add_assoc, Nat.add_comm 1 i] at this
      exact this

theorem length_bytes (t : Tbl Byte) (a n : Nat) : (bytes t a n).length = n := by
  induction n generalizing a with
  | zero => rfl
  | succ n ih => rw [bytes, List.length_cons, ih]

/-- Bytes put back where they were read change nothing. -/
theorem get_putBytes_bytes (t : Tbl Byte) (a n k : Nat) : get (putBytes t a (bytes t a n)) 0 k = get t 0 k := by
  rw [get_putBytes, length_bytes]
  split
  · rw [byteAt_bytes _ _ _ _ (by omega)]
    congr 1; omega
  · rfl

end Tbl

namespace State

/-- A state after bytes were written to memory that holds no bad codeword. -/
structure Holds (s : State) (a : Nat) (bs : List Byte) (t : State) : Prop where
  bad  : t.bad = []
  mem  : ∀ k, Tbl.get t.mem 0 k = if a ≤ k ∧ k < a + bs.length then byteAt bs (k - a) else Tbl.get s.mem 0 k
  rest : Unchanged [.mem] s t

variable {s : State}

theorem readSector_good (h : s.bad = []) (source sector : Nat) :
    s.readSector source sector = (some (s.sectorData sector), s) := by
  have herr : (s.sectorErr sector).length = 0 := by simp [sectorErr, h, Tbl.slice]
  simp only [readSector, herr]

theorem unchanged_mem_of_bad (h : s.bad = []) {m : List Host.Cell} : Unchanged [.mem] s { s with mem := m, bad := [] } := by
  intro p hp
  cases p
  case mem => exact absurd (.head _) hp
  case bad => exact h.symm
  all_goals rfl

theorem writePiece_good (h : s.bad = []) (source a : Nat) (bs : List Byte) :
    ∃ t, s.writePiece source a bs = (true, t) ∧ s.Holds a bs t := by
  have hheld {m : List Host.Cell} (hm : ∀ k, Tbl.get m 0 k = if a ≤ k ∧ k < a + bs.length then byteAt bs (k - a) else Tbl.get s.mem 0 k) :
      s.Holds a bs { s with mem := m, bad := Tbl.splice s.bad (a / 32 * 36) 36 [] } := by
    have hnil : Tbl.splice s.bad (a / 32 * 36) 36 [] = [] := by rw [h]; rfl
    rw [hnil]
    exact ⟨rfl, hm, unchanged_mem_of_bad h⟩
  unfold writePiece
  by_cases hlen : bs.length = 32
  · rw [if_pos hlen]
    exact ⟨_, rfl, hheld (Tbl.get_putBytes s.mem a bs)⟩
  · rw [if_neg hlen, readSector_good h]
    refine ⟨_, rfl, hheld fun k => ?_⟩
    simp only [sectorData]
    rw [Tbl.get_putBytes, Tbl.get_putBytes_bytes]

theorem byteAt_take {bs : List Byte} {n i : Nat} (h : i < n) : byteAt (bs.take n) i = byteAt bs i := by
  simp [byteAt, List.getD_eq_getElem?_getD, h]

theorem byteAt_drop (bs : List Byte) (n i : Nat) : byteAt (bs.drop n) i = byteAt bs (n + i) := by
  simp [byteAt, List.getD_eq_getElem?_getD]

/-- Two writes, one where the other ends, are one write. -/
theorem Holds.append {u t : State} {a n : Nat} {bs : List Byte} (h₁ : s.Holds a (bs.take n) u)
    (h₂ : u.Holds (a + n) (bs.drop n) t) : s.Holds a bs t where
  bad := h₂.bad
  mem k := by
    rw [h₂.mem, h₁.mem, List.length_take, List.length_drop]
    by_cases hlow : k < a + n
    · rw [if_neg (by omega)]
      by_cases hin : a ≤ k ∧ k < a + bs.length
      · rw [if_pos (by omega), if_pos hin, byteAt_take (by omega)]
      · rw [if_neg (by omega), if_neg hin]
    · by_cases hin : k < a + bs.length
      · have hidx : n + (k - (a + n)) = k - a := by omega
        rw [if_pos (by omega), if_pos (by omega), byteAt_drop, hidx]
      · rw [if_neg (by omega), if_neg (by omega), if_neg (by omega)]
  rest := fun p hp => Part.same_trans (h₁.rest p hp) (h₂.rest p hp)

theorem pieces_written {k : Nat} (source : Nat) {a : Nat} {bs : List Byte} (hbad : s.bad = []) (hk : bs.length < k) :
    ∃ t, (pieces k a bs).foldl
        (fun acc p => let (ok, s) := acc.2.writePiece source p.1 p.2; (acc.1 && ok, s)) (true, s) = (true, t) ∧
      s.Holds a bs t := by
  induction k generalizing s a bs with
  | zero => omega
  | succ k ih =>
    cases bs with
    | nil => exact ⟨s, rfl, hbad, fun k => by simp, fun p _ => p.same_refl s⟩
    | cons b bs =>
      obtain ⟨u, hu, hold⟩ := writePiece_good hbad source a ((b :: bs).take (32 - a % 32))
      have hrest : ((b :: bs).drop (32 - a % 32)).length < k := by
        rw [List.length_drop, List.length_cons] at *; omega
      obtain ⟨t, ht, hold'⟩ := ih (a := a + (32 - a % 32)) hold.bad hrest
      refine ⟨t, ?_, hold.append hold'⟩
      rw [pieces, List.foldl_cons]
      simp only [hu, Bool.and_self]
      exact ht
      exact nofun

theorem readBytes_good (h : s.bad = []) (source a n : Nat) :
    s.readBytes source a n = (some (Tbl.bytes (Tbl.slice s.mem a n) 0 n), s) := by
  have hnone : s.badSectors a n = [] := by simp [badSectors, h]
  simp [readBytes, readMem, hnone]

end State

/-- Settles O45: the pieces of a write join, and a read of their span finds them. -/
theorem memoryReadsBackWhatWasWritten : Obligations.MemoryReadsBackWhatWasWritten := by
  intro s source reader a bs hbad
  obtain ⟨t, ht, hold⟩ := State.pieces_written source (a := a) hbad (Nat.lt_succ_self bs.length)
  refine ⟨t, ht, ?_, fun b hb => ?_, hold.rest⟩
  · rw [State.readBytes_good hold.bad]
    have hread : Tbl.bytes (Tbl.slice t.mem a bs.length) 0 bs.length = bs := Tbl.bytes_eq_of_get fun i hi => by
      rw [Nat.zero_add, Tbl.get_slice _ _ _ _ _ hi, hold.mem, if_pos (by omega), Nat.add_sub_cancel_left]
    rw [hread]
  · rw [hold.mem, if_neg (by omega)]

end Sys2Proof.Machine
end

section
/-! PROOFS. The registers that an operation may write -/

namespace Sys2Proof.Machine
namespace State

/-- Every register but those at the addresses of `P` is as it was. -/
def RegsIn (P : Nat → Prop) (s t : State) : Prop := ∀ a, ¬ P a → t.reg a = s.reg a

/-- The registers of a page. -/
def ofPage (p a : Nat) : Prop := a / 0x1000 = p

/-- The registers of the pages' headers. -/
def inHeader (a : Nat) : Prop := a % 0x1000 < 0x40

theorem ofPage_at (p : Nat) {o : Nat} (h : o < 0x1000) : ofPage p (p * 0x1000 + o) := by
  unfold ofPage; omega

theorem inHeader_at (p : Nat) {o : Nat} (h : o < 0x40) : inHeader (p * 0x1000 + o) := by
  unfold inHeader; omega

theorem not_inHeader_at (p : Nat) {o : Nat} (h : o < 0x1000) (h40 : 0x40 ≤ o) : ¬ inHeader (p * 0x1000 + o) := by
  unfold inHeader; omega

theorem not_ofPage_at {p q : Nat} {o : Nat} (h : o < 0x1000) (hne : p ≠ q) : ¬ ofPage q (p * 0x1000 + o) := by
  unfold ofPage; omega

variable {P Q : Nat → Prop} {s t u : State}

namespace RegsIn

theorem refl : RegsIn P s s := fun _ _ => rfl

theorem trans (h : RegsIn P s t) (h' : RegsIn P t u) : RegsIn P s u := fun a ha => (h' a ha).trans (h a ha)

theorem mono (h : RegsIn P s t) (hPQ : ∀ a, P a → Q a) : RegsIn Q s t := fun a ha => h a fun hp => ha (hPQ a hp)

theorem of_regs (h : t.regs = s.regs) : RegsIn P s t := fun a _ => by unfold reg; rw [h]

theorem after (h : RegsIn P s t) (hregs : u.regs = t.regs) : RegsIn P s u := h.trans (of_regs hregs)

theorem ite {c : Prop} [Decidable c] (h : RegsIn P s t) (h' : RegsIn P s u) : RegsIn P s (if c then t else u) := by
  split <;> assumption

theorem wr (h : RegsIn P s t) {p : Nat} {f : Fld} {v : Nat} (hp : P (p * 0x1000 + f.off)) : RegsIn P s (t.wr p f v) := by
  intro a ha
  unfold State.wr
  rw [reg_setReg, if_neg fun he => ha (by rw [he]; exact hp)]
  exact h a ha

theorem wrs (h : RegsIn P s t) {p : Nat} {l : List (Fld × Nat)} (hp : ∀ e ∈ l, P (p * 0x1000 + e.1.off)) :
    RegsIn P s (t.wrs p l) := by
  induction l generalizing t with
  | nil => exact h
  | cons e l ih => exact ih (h.wr (hp e (.head _))) fun x hx => hp x (.tail _ hx)

theorem step1 (h : RegsIn P s t) {p : Nat} {f : Fld} (hp : P (p * 0x1000 + f.off)) : RegsIn P s (t.step1 p f) := h.wr hp

theorem bump (h : RegsIn P s t) {p : Nat} {f : Fld} {n : Nat} (hp : P (p * 0x1000 + f.off)) : RegsIn P s (t.bump p f n) :=
  h.wr hp

theorem emit (h : RegsIn P s t) {e : Emission} : RegsIn P s (t.emit e) := h.after rfl

theorem raise (h : RegsIn P s t) {p b : Nat} (hp : P (p * 0x1000 + 0x10)) : RegsIn P s (t.raise p b) := by
  have hr := t.regs_raise p b
  split at hr
  · exact h.after hr
  · exact (h.wr hp).after hr

theorem foldl {α : Type} {f : State → α → State} {l : List α} (h : RegsIn P s t)
    (hf : ∀ u, ∀ x ∈ l, RegsIn P s u → RegsIn P s (f u x)) : RegsIn P s (l.foldl f t) := by
  induction l generalizing t with
  | nil => exact h
  | cons x l ih => exact ih (hf t x (.head _) h) fun u y hy => hf u y (.tail _ hy)

/-- A field of a register that no write reaches reads as it did. -/
theorem rd (h : RegsIn P s t) {p : Nat} {f : Fld} (hp : ¬ P (p * 0x1000 + f.off)) : t.rd p f = s.rd p f := by
  unfold State.rd
  rw [h _ hp]

theorem rd_page {q : Nat} (h : RegsIn (ofPage q) s t) {p : Nat} {f : Fld} (hne : p ≠ q) (hf : f.off < 0x1000) :
    t.rd p f = s.rd p f := h.rd (not_ofPage_at hf hne)

end RegsIn

/-- A page error is recorded in the page's header. -/
theorem pgErr_regsIn {p code addr : Nat} (hP : ∀ o, o < 0x40 → P (p * 0x1000 + o)) : RegsIn P s (s.pgErr p code addr) := by
  unfold pgErr
  simp only [wrs_cons, wrs_nil]
  refine (RegsIn.refl.wr ?_).ite (((RegsIn.refl.wr ?_).wr ?_).wr ?_) <;> exact hP _ (by decide)

end State
end Sys2Proof.Machine
end

section
/-! PROOFS. O56: the gate's answer, reason by reason -/

namespace Sys2Proof.Machine
namespace State
variable {s t : State} {m : Master} {p off : Nat} {write : Bool}

/-! ## The gate of an access that the link serves, reason by reason -/

section
variable (h : s.Served m p off write)
include h

theorem Served.gate_of_unreachable (hu : s.unreachable m p = true) :
    s.gate m p off write = (.ends (.word 0xFFFFFFFF#32), s.lostAccess m) := by
  obtain ⟨⟨hoff, hcel⟩, hawake, hthaw, hmode⟩ := h
  simp [gate, hoff, hcel, hawake, hthaw, hmode, hu]

variable (hu : s.unreachable m p = false)
include hu

theorem Served.gate_of_out_of_range (hp : numPages ≤ p) : s.gate m p off write = (.ends .unsupported, s) := by
  obtain ⟨⟨hoff, hcel⟩, hawake, hthaw, hmode⟩ := h
  simp [gate, hoff, hcel, hawake, hthaw, hmode, hu, hp]

variable (hp : p < numPages)
include hp

theorem Served.gate_of_violation (hsec : s.pageSecure p = true) (hw : s.masterWorld m = false) :
    s.gate m p off write =
      (.ends .unsupported, (if s.pageShut p then s else s.pgErr p 1 (accessAddr p off write)).freezeMaster m vPage) := by
  obtain ⟨⟨hoff, hcel⟩, hawake, hthaw, hmode⟩ := h
  simp [gate, hoff, hcel, hawake, hthaw, hmode, hu, Nat.not_le.mpr hp, hsec, hw]

variable (hsec : s.pageSecure p = true → s.masterWorld m = true)
include hsec

theorem Served.gate_of_shut (hs : s.pageShut p = true) : s.gate m p off write = (.ends (.word 0), s.ghost p) := by
  obtain ⟨⟨hoff, hcel⟩, hawake, hthaw, hmode⟩ := h
  simp [gate, hoff, hcel, hawake, hthaw, hmode, hu, Nat.not_le.mpr hp, hs]
  exact hsec

theorem Served.gate_of_undefined (hs : s.pageShut p = false) (hr : regAt p off = none) :
    s.gate m p off write = (.ends (.word 0), s.pgErr p 2 (accessAddr p off write)) := by
  obtain ⟨⟨hoff, hcel⟩, hawake, hthaw, hmode⟩ := h
  simp [gate, hoff, hcel, hawake, hthaw, hmode, hu, Nat.not_le.mpr hp, hs, hr]
  exact hsec

end

/-- An access that the gate ends for the reason named completes with the gate's answer. -/
theorem gatedIf_of_ends {off : Nat} {why : State → Nat → Bool} {r : Reply}
    (hawake : s.hostWake m (off / 0x1000) (off % 0x1000) write = s) (hwhy : why s (off / 0x1000) = true)
    (h : s.gate m (off / 0x1000) (off % 0x1000) write = (.ends r, t)) : s.gatedIf m off write why = t.complete m write r := by
  simp only [gatedIf, gated, hawake, hwhy, h, if_true]

theorem gatedIf_of_not {off : Nat} {why : State → Nat → Bool} 
    (hwhy : why (s.hostWake m (off / 0x1000) (off % 0x1000) write) (off / 0x1000) = false) : s.gatedIf m off write why = s := by
  simp only [gatedIf, hwhy, Bool.false_eq_true, if_false]

/-! ## The freeze of a master (R407) -/

theorem freezeLast_regsIn {kind cause id : Nat} : RegsIn (ofPage pgSec) s (s.freezeLast kind cause id) := by
  unfold freezeLast
  simp only [wrs_cons, wrs_nil]
  refine RegsIn.emit (.raise (.wr (.wr (.wr (.wr (.step1 .refl ?_) ?_) ?_) ?_) ?_) ?_) <;> exact ofPage_at _ (by decide)

theorem freezeRecord_regsIn {holder : Half} {kind cause id : Nat} :
    RegsIn (ofPage pgSec) s (s.freezeRecord holder kind cause id) := by
  unfold freezeRecord
  exact .ite (.of_regs rfl) freezeLast_regsIn

theorem freezeCox_regsIn {h : Half} {cause : Nat} : RegsIn (ofPage pgSec) s (s.freezeCox h cause) :=
  .trans (.of_regs rfl) freezeRecord_regsIn

theorem freezeMaster_regsIn {cause : Nat} : RegsIn (ofPage pgSec) s (s.freezeMaster m cause) := by
  unfold freezeMaster
  split
  · exact .trans (.of_regs rfl) freezeRecord_regsIn
  · exact freezeCox_regsIn
  · exact freezeCox_regsIn
  · exact .refl
  · exact .refl

theorem leader_of_regsIn {P : Nat → Prop} (h : RegsIn P s t) (hP : ∀ k, ¬ P (pgSys k * 0x1000 + SYS_ROLE_LEADER.off))
    (hsel : ¬ P (pgSys .east * 0x1000 + SYS_ROLE_LEAD_SEL.off)) : t.leader = s.leader :=
  leader_congr (fun k => h.rd (hP k)) (h.rd hsel)

theorem freezeRecord_masters {holder : Half} {kind cause id : Nat} :
    (s.freezeRecord holder kind cause id).security.fns = s.security.fns ∧
      (s.freezeRecord holder kind cause id).security.cox = s.security.cox := by
  unfold freezeRecord
  split
  · exact ⟨rfl, rfl⟩
  · have hsec : (s.freezeLast kind cause id).security = s.security := freezeLast_upd.frame .security (by decide)
    exact ⟨congrArg _ hsec, congrArg _ hsec⟩

theorem leader_freezeMaster {cause : Nat} : (s.freezeMaster m cause).leader = s.leader :=
  leader_of_regsIn freezeMaster_regsIn (fun k => by cases k <;> exact not_ofPage_at (by decide) (by decide))
    (not_ofPage_at (by decide) (by decide))

/-- A non-secure master is frozen by its violation. -/
theorem freezeMaster_frozen {cause : Nat} (h : s.masterWorld m = false) : (s.freezeMaster m cause).frozenMaster m = true := by
  have hcox (k : Half) : (s.freezeCox k cause).security.cox.get k = true := by
    rw [freezeCox, freezeRecord_masters.2]
    cases k <;> rfl
  cases m with
  | fn n =>
    show ((s.freezeMaster (.fn n) cause).security.fns).contains n.toNat = true
    rw [freezeMaster, freezeRecord_masters.1]
    simp
  | coxNs =>
    show (s.freezeMaster .coxNs cause).security.cox.get (s.freezeMaster .coxNs cause).leader = true
    rw [leader_freezeMaster]
    exact hcox _
  | coxS => exact absurd h (by simp [masterWorld, ownerOf, ownerWorld])
  | coxF b =>
    cases b with
    | true => exact absurd h (by simp [masterWorld, ownerOf, ownerWorld])
    | false =>
      show (s.freezeMaster (.coxF false) cause).security.cox.get (s.freezeMaster (.coxF false) cause).follower = true
      rw [follower, leader_freezeMaster]
      exact hcox _

/-- The worlds of the masters do not stand in the pages' headers. -/
theorem masterWorld_of_regsIn {P : Nat → Prop} (h : RegsIn P s t)
    (hP : ∀ i, i < 8 → ¬ P (pgSec * 0x1000 + (SEC_FN_WORLD_WORLD.at 4 i).off)) : t.masterWorld m = s.masterWorld m := by
  unfold masterWorld ownerWorld
  split
  next hlt => rw [h.rd (hP _ (by omega))]
  · rfl

theorem masterWorld_pgErr (p code addr : Nat) : (s.pgErr p code addr).masterWorld m = s.masterWorld m :=
  masterWorld_of_regsIn (pgErr_regsIn (P := inHeader) fun _ ho => inHeader_at p ho) fun i hi => by
    refine not_inHeader_at _ ?_ ?_ <;> simp only [Fld.at, SEC_FN_WORLD_WORLD] <;> omega

end State
open State

/-- Settles O56: each access reaches the clause of the gate that its state names, and the gate's answer is its effect. -/
theorem gatedAccessesComplete : Obligations.GatedAccessesComplete := by
  refine ⟨fun s m off w hdrop => ?_, fun s m off w hnot hawake => ?_, fun s m off w h hu => ?_, fun s m off w h hu hp => ?_,
    fun s m off w h hu hp hsec hw hs => ?_, fun s m off w h hu hp hsec hs => ?_, fun s m off w h hu hp hsec hs hr => ?_⟩
  · show execBar0NarrowAccess m off w s = _
    simp only [execBar0NarrowAccess, hdrop]
  · show execBar0NarrowAccess m off w s = _
    unfold execBar0NarrowAccess
    split
    next hd => exact absurd hd hnot
    · rw [hawake]
  · exact congrArg Host.Outcome.next (gatedIf_of_ends h.awake hu (h.gate_of_unreachable hu))
  · exact congrArg Host.Outcome.next (gatedIf_of_ends h.awake (decide_eq_true hp) (h.gate_of_out_of_range hu hp))
  · have hgate := h.gate_of_violation hu hp hsec hw
    simp only [hs, Bool.false_eq_true, if_false] at hgate
    have hfrozen := freezeMaster_frozen (cause := vPage) ((masterWorld_pgErr (off / 0x1000) 1 (accessAddr (off / 0x1000) (off % 0x1000) w.isSome)).trans hw)
    refine ⟨_, congrArg Host.Outcome.next (gatedIf_of_ends h.awake (by simp [hp, hsec, hw]) hgate), ?_, ?_, ?_⟩
    · cases w with
      | some w => exact hfrozen
      | none => exact hfrozen
    · rintro rfl
      rfl
    · exact (Upd.after complete_upd rfl <| Upd.after freezeMaster_upd rfl <| Upd.after pgErr_upd rfl .refl).frame
  · exact congrArg Host.Outcome.next (gatedIf_of_ends h.awake (by simp [hp, hs]) (h.gate_of_shut hu hp hsec hs))
  · have hgate := h.gate_of_undefined hu hp hsec hs hr
    have hend := gatedIf_of_ends (why := fun _ p => p < numPages && (regAt p (off % 0x1000)).isNone) h.awake
      (by simp [hp, hr]) hgate
    have hexec : exec (.undefinedOffsetAccess m off w) s =
      .next (s.gatedIf m off w.isSome fun _ p => p < numPages && (regAt p (off % 0x1000)).isNone) := rfl
    rw [hexec, hend]
    cases w <;> simp only [complete, Option.isSome, if_true, Bool.false_eq_true, if_false]

end Sys2Proof.Machine
end

section
/-! PROOFS. O51: the first error of a page -/

namespace Sys2Proof.Machine
namespace State
variable {s : State} {p code addr : Nat}

theorem rd_zero_or_one {f : Fld} (h : f.hi = f.lo) : s.rd p f = 0 ∨ s.rd p f = 1 := by
  have := s.rd_lt p f
  rw [h, Nat.sub_self] at this
  omega

/-- The first error of a page is recorded. -/
theorem pgErr_first (h : s.rd p PG_ERR_VALID = 0) (hc : code < 256) (ha : addr < 2 ^ 32) :
    (s.pgErr p code addr).rd p PG_ERR_VALID = 1 ∧ (s.pgErr p code addr).rd p PG_ERR_CODE = code ∧
      (s.pgErr p code addr).rd p PG_ERR_ADDR = addr ∧ (s.pgErr p code addr).rd p PG_ERR_MORE = s.rd p PG_ERR_MORE := by
  have hoff : s.on p PG_ERR_VALID = false := by simp [on, h]
  simp (disch := decide) only [pgErr, hoff, rd_wr_sep, rd_wr, wrs_cons, wrs_nil, Bool.false_eq_true, if_false]
  exact ⟨rfl, Nat.mod_eq_of_lt hc, Nat.mod_eq_of_lt ha, trivial⟩

/-- A later one sets MORE alone. -/
theorem pgErr_later (h : s.rd p PG_ERR_VALID = 1) :
    (s.pgErr p code addr).rd p PG_ERR_VALID = 1 ∧ (s.pgErr p code addr).rd p PG_ERR_CODE = s.rd p PG_ERR_CODE ∧
      (s.pgErr p code addr).rd p PG_ERR_ADDR = s.rd p PG_ERR_ADDR ∧ (s.pgErr p code addr).rd p PG_ERR_MORE = 1 := by
  have hon : s.on p PG_ERR_VALID = true := by simp [on, h]
  simp (disch := decide) [pgErr, hon, rd_wr_sep, h]

/-- An access of a page of the map names its offset within BAR0. -/
theorem accessAddr_split (off : Nat) (write : Bool) : accessAddr (off / 0x1000) (off % 0x1000) write = bit write * 2 ^ 31 + off := by
  unfold accessAddr; omega

end State
open State

/-- Settles O51: the gate records the undefined offset, by PG_ERR's two cases. -/
theorem pageErrorsKeepTheFirst : Obligations.PageErrorsKeepTheFirst := by
  intro s m off v h hu hp hsec hs hr
  have hsec' : s.pageSecure (off / 0x1000) = true → s.masterWorld m = true := fun hsecure =>
    hsec.resolve_left (by simp [hsecure])
  have haddr : accessAddr (off / 0x1000) (off % 0x1000) true = 2 ^ 31 + off := accessAddr_split off true
  have hrange : off < 2 ^ 31 := by
    have : off / 0x1000 < 288 := hp
    omega
  have hexec := gatedAccessesComplete.2.2.2.2.2.2 s m off (some v) h hu hp hsec' hs hr
  simp only [Option.isSome, if_true, haddr] at hexec
  have hmod : (2 ^ 31 + off) % 2 ^ 32 = 2 ^ 31 + off := Nat.mod_eq_of_lt (by omega)
  have hfirst := fun h0 => pgErr_first (s := s) (p := off / 0x1000) (code := 2) (addr := 2 ^ 31 + off) h0 (by decide) (by omega)
  have hlater := fun h1 => pgErr_later (s := s) (p := off / 0x1000) (code := 2) (addr := 2 ^ 31 + off) h1
  refine ⟨_, hexec, ?_, fun h0 => ?_, fun h1 => (hlater h1).2, pgErr_upd.frame⟩
  · obtain h0 | h1 := rd_zero_or_one (s := s) (p := off / 0x1000) (f := PG_ERR_VALID) rfl
    · exact (hfirst h0).1
    · exact (hlater h1).1
  · obtain ⟨_, hcode, ha, hmore⟩ := hfirst h0
    exact ⟨hcode, ha.trans hmod.symm, hmore⟩
end Sys2Proof.Machine
end

section
/-! PROOFS. O49: a write acts past its gate alone -/

namespace Sys2Proof.Machine

/-- The page that a kind of page with registers that take a GO has in a half. -/
def goPage : PageKind → Half → Nat → Nat
  | .sys, h, _ => pgSys h | .sec, _, _ => pgSec | .lcs, _, _ => pgLcs | .cfg, _, _ => pgCfg | .att, _, _ => pgAtt
  | .hlk, _, _ => pgHlk | .crs, _, _ => pgCrs | .clk, h, _ => pgClk h | .pwr, h, _ => pgPwr h | .fmc, h, _ => pgFmc h
  | .bst, h, _ => pgBst h | .stw, h, _ => pgStw h | .pgt, h, _ => pgPgt h | .hat, h, _ => pgHat h
  | _, _, p => p

theorem goPage_pageKind (p : Nat) : goPage (pageKind p) (halfOf (p % 2)) p = p := by
  by_cases hp : p < 38
  · revert p; decide
  · have hkind : pageKind p = .wng ∨ pageKind p = .mbs ∨ pageKind p = .mbx ∨ pageKind p = .cwn ∨ pageKind p = .hwn ∨ pageKind p = .vfp := by
      simp only [pageKind, show ¬ p < 2 by omega, show ¬ p < 10 by omega, show ¬ p < 34 by omega, hp, if_false]
      split <;> [simp; split <;> [simp; split <;> [simp; split <;> [simp; split <;> simp]]]]
    obtain h | h | h | h | h | h := hkind <;> rw [h] <;> rfl
namespace State
variable {s t : State} {m : Master} {p o : Nat} {v : Word}

theorem stwOp_toPage (h : Half) (n : Nat) : ∃ f, s.stwOp (.page h m) n = s.toPage m (pgStw h) 0x40 f := by
  unfold stwOp
  split <;> exact ⟨_, rfl⟩

theorem hatOp_toPage (h : Half) (n : Nat) : ∃ f, s.hatOp (.page h m) n = s.toPage m (pgHat h) 0x40 f := by
  unfold hatOp
  split <;> exact ⟨_, rfl⟩

theorem of_ite_some {α : Type} {c d : Prop} [Decidable c] [Decidable d] {x y z : α}
    (h : (if c then some x else if d then some y else none) = some z) : (c ∧ x = z) ∨ (d ∧ y = z) := by
  split at h
  next hc => exact .inl ⟨hc, Option.some.inj h⟩
  · split at h
    next hd => exact .inr ⟨hd, Option.some.inj h⟩
    · cases h

/-- A write with a GO in it passes the gate of its own page and offset. -/
theorem regGo_toPage (hgo : s.regGo m p o v = some t) : ∃ f, t = s.toPage m p o f := by
  have hpage := goPage_pageKind p
  unfold regGo at hgo
  generalize halfOf (p % 2) = h at hgo hpage
  generalize hk : pageKind p = k at hgo hpage
  cases k <;> simp only [goPage] at hpage <;> simp at hgo
  case sys => obtain ⟨⟨rfl, -⟩, rfl⟩ | ⟨⟨rfl, -⟩, rfl⟩ := of_ite_some hgo <;> subst hpage <;> exact ⟨_, rfl⟩
  case sec => obtain ⟨rfl, rfl⟩ | ⟨rfl, rfl⟩ := of_ite_some hgo.2 <;> subst hpage <;> exact ⟨_, rfl⟩
  case att => obtain ⟨rfl, rfl⟩ | ⟨rfl, rfl⟩ := of_ite_some hgo.2 <;> subst hpage <;> exact ⟨_, rfl⟩
  case crs => obtain ⟨rfl, rfl⟩ | ⟨rfl, rfl⟩ := of_ite_some hgo.2 <;> subst hpage <;> exact ⟨_, rfl⟩
  case stw =>
    obtain ⟨rfl, rfl⟩ | ⟨rfl, rfl⟩ := of_ite_some hgo.2 <;> subst hpage
    · exact stwOp_toPage h _
    · exact ⟨_, rfl⟩
  case hat =>
    obtain ⟨-, rfl, rfl⟩ := hgo
    subst hpage
    exact hatOp_toPage h _
  case mem =>
    obtain ⟨-, rfl, rfl⟩ := hgo
    have hlow : ∀ q < 34, pageKind q ≠ .mem := by decide
    have hp : pgMem (p - 34) = p := Nat.add_sub_of_le (Nat.le_of_not_lt fun hlt => hlow p hlt hk)
    exact ⟨_, by rw [memRetrain, upkeepGo, hp]; rfl⟩
  all_goals
    obtain ⟨-, rfl, rfl⟩ := hgo
    subst hpage
    exact ⟨_, rfl⟩

/-- A write through BAR0, whatever it commands, acts past the gate of its page and offset alone. -/
theorem barWrite_toPage (off : Nat) : ∃ f, s.barWrite m off v = s.toPage m (off / 0x1000) (off % 0x1000) f := by
  simp only [barWrite]
  cases hgo : s.regGo m (off / 0x1000) (off % 0x1000) v with
  | none => exact ⟨_, rfl⟩
  | some t => exact regGo_toPage hgo

theorem toPage_of_ends {r : Reply} {f : State → State} (h : s.gate m p o true = (.ends r, t)) : s.toPage m p o f = t := by
  simp only [toPage, h]

/-- A frozen master's write has no effect. -/
theorem toPage_of_frozen {f : State → State} (h : s.frozenMaster m = true) (hawake : s.hostWake m p o true = s) :
    s.toPage m p o f = s := by
  have hgate : (s.gate m p o true).1 ≠ .pass ∧ (s.gate m p o true).2 = s := by
    unfold gate
    simp only [hawake, h, if_true]
    split <;> exact ⟨nofun, rfl⟩
  unfold toPage
  split
  next t hpass => exact absurd (by rw [hpass]) hgate.1
  next t hends => exact (congrArg Prod.snd hends).symm.trans hgate.2

end State
open State

/-- Settles O49: whatever a write commands, it acts past the gate alone, which freezes the master. -/
theorem securePagesAreOutOfReach : Obligations.SecurePagesAreOutOfReach := by
  refine ⟨fun s m off v h hu hp hsec hw => ?_, fun s m off v hfrozen hawake => ?_⟩
  · obtain ⟨f, hf⟩ := barWrite_toPage (s := s) (m := m) (v := v) off
    refine ⟨_, congrArg Host.Outcome.next (hf.trans (toPage_of_ends (h.gate_of_violation hu hp hsec hw))), ?_, ?_, ?_⟩
    · refine freezeMaster_frozen ?_
      split
      · exact hw
      · exact (masterWorld_pgErr ..).trans hw
    · intro q o hq ho ho'
      have herr : RegsIn (fun a => ofPage pgSec a ∨ inHeader a) s
          (if s.pageShut (off / 0x1000) then s else s.pgErr (off / 0x1000) 1 (accessAddr (off / 0x1000) (off % 0x1000) true)) :=
        .ite .refl (pgErr_regsIn fun _ hlt => .inr (inHeader_at _ hlt))
      refine (herr.trans (freezeMaster_regsIn.mono fun _ => .inl)) _ ?_
      rintro (hpage | hheader)
      · exact not_ofPage_at ho' hq hpage
      · exact not_inHeader_at q ho' ho hheader
    · exact (Upd.after freezeMaster_upd rfl <| Upd.ite .refl <| Upd.after pgErr_upd rfl .refl).frame
  · obtain ⟨f, hf⟩ := barWrite_toPage (s := s) (m := m) (v := v) off
    exact congrArg Host.Outcome.next (hf.trans (toPage_of_frozen hfrozen hawake))
end Sys2Proof.Machine
end

section
/-! PROOFS. O50: the words that FREEZE holds -/

namespace Sys2Proof.Machine

theorem goReg_counts (k : PageKind) : ∀ r ∈ regRows k, r.kind = .goReg ∨ r.kind = .portReg → r.counts = [] := by
  cases k <;> decide

theorem regAt_past_header {p o : Nat} (h : 0x40 ≤ o) : regAt p o = rowAt o (regRows (pageKind p)) := by
  by_cases hvf : pageKind p = .vfp
  · simp only [regAt, hvf]
  · exact regAt_body hvf h

/-- A register of a kind that FREEZE holds is among those held. -/
theorem mem_heldOffs {rows : List RegRow} {r : RegRow} {o : Nat} (h : rowAt o rows = some r) (hh : r.holds = true) :
    (o, r) ∈ heldOffs rows := by
  have hat := List.find?_some h
  simp only [Bool.and_eq_true, decide_eq_true_eq, beq_iff_eq] at hat
  obtain ⟨⟨hlow, hmod⟩, hidx⟩ := hat
  refine List.mem_flatMap.mpr ⟨r, List.mem_filter.mpr ⟨mem_of_rowAt h, hh⟩, List.mem_map.mpr ⟨_, List.mem_range.mpr hidx, ?_⟩⟩
  have hdiv := Nat.div_add_mod' (o - r.off) r.stride
  rw [hmod, Nat.add_zero] at hdiv
  rw [hdiv, Nat.add_sub_of_le hlow]

/-- Puts at keys made from the entries' offsets: the last one of a key stands. -/
theorem Tbl.find_foldl_put {V : Type} (g : Nat → V) (base o : Nat) (r : RegRow) (t : Tbl V) {l : List (Nat × RegRow)}
    (h : (o, r) ∈ l) : Tbl.find (l.foldl (fun t e => Tbl.put t (base + e.1) (g e.1)) t) (base + o) = some (g o) := by
  have hkeep : ∀ (l : List (Nat × RegRow)) (t : Tbl V), Tbl.find t (base + o) = some (g o) →
      Tbl.find (l.foldl (fun t e => Tbl.put t (base + e.1) (g e.1)) t) (base + o) = some (g o) := by
    intro l
    induction l with
    | nil => exact fun t ht => ht
    | cons e l ih =>
      refine fun t ht => ih _ ?_
      rw [Tbl.find_put]
      split
      next he => rw [show o = e.1 by omega]
      · exact ht
  induction l generalizing t with
  | nil => nomatch h
  | cons e l ih =>
    rcases List.mem_cons.mp h with rfl | hmem
    · exact hkeep l _ (by rw [Tbl.find_put, if_pos rfl])
    · exact ih _ hmem

/-- A field of its own among fields set in a word holds the value set. -/
theorem foldl_put_get {f : Fld} {gs : List Fld} (hgs : ∀ g ∈ gs, g.ok = true)
    (hp : gs.Pairwise fun f g => f.hi < g.lo ∨ g.hi < f.lo) (hf : f ∈ gs) (old w : Word) :
    f.get (gs.foldl (fun w g => g.put (g.get old) w) w) = f.get old := by
  have hkeep : ∀ (gs : List Fld) (w : Word), (∀ g ∈ gs, g.ok = true) → (∀ g ∈ gs, f.hi < g.lo ∨ g.hi < f.lo) → f.ok = true →
      f.get (gs.foldl (fun w g => g.put (g.get old) w) w) = f.get w := by
    intro gs
    induction gs with
    | nil => exact fun w _ _ _ => rfl
    | cons g gs ih =>
      intro w hok hap hfok
      simp only [Fld.ok, Bool.and_eq_true, decide_eq_true_eq] at hfok
      rw [List.foldl_cons, ih _ (fun x hx => hok x (.tail _ hx)) (fun x hx => hap x (.tail _ hx)) (by simp [Fld.ok, hfok]),
        Fld.get_put_of_disjoint f g (hok g (.head _)) (hap g (.head _)) hfok.1]
  induction gs generalizing w with
  | nil => nomatch hf
  | cons g gs ih =>
    obtain ⟨hhead, htail⟩ := List.pairwise_cons.mp hp
    have hgs' : ∀ x ∈ gs, x.ok = true := fun x hx => hgs x (.tail _ hx)
    rcases List.mem_cons.mp hf with rfl | hmem
    · rw [List.foldl_cons, hkeep gs _ hgs' hhead (hgs f (.head _)), Fld.get_put f (hgs f (.head _)),
        Nat.mod_eq_of_lt (f.get_lt old)]
    · exact ih hgs' htail hmem _

namespace State
variable {s u : State} {m : Master} {p o : Nat} {r : RegRow}

theorem freezePage_held (hoff : s.on p PG_CTRL_FREEZE = false) (hc : pageKind p ≠ .cwn) (hw : pageKind p ≠ .hwn)
    (ho : 0x40 ≤ o) (hr : regAt p o = some r) (hh : r.holds = true) :
    Tbl.find (s.freezePage p).held (p * 0x1000 + o) = some (s.liveWord .coxS p o) := by
  rw [regAt_past_header ho] at hr
  simp only [freezePage, hoff, Bool.false_or, beq_eq_false_iff_ne.mpr hc, beq_eq_false_iff_ne.mpr hw, Bool.false_eq_true, if_false]
  exact Tbl.find_foldl_put (fun o => s.liveWord .coxS p o) _ _ _ _ (mem_heldOffs hr hh)

theorem view_of_free (h : Tbl.find s.held (p * 0x1000 + o) = none) : s.view m p o = s.liveWord m p o := by
  simp only [view, h]
  cases regAt p o <;> rfl

end State
open State

/-- Settles O50: FREEZE holds the words of the registers that a read then shows. -/
theorem frozenPagesShowHeldValues : Obligations.FrozenPagesShowHeldValues := by
  intro s t u m p o r hadm hoff hc hw hexec hheld ho ho' hr hfree
  have ht : t = s.freezePage p.toNat := by
    have h : exec (.pageFreeze m p true) s = .next (s.toPage m p.toNat 0x08 fun s => s.freezePage p.toNat) := rfl
    rw [h, toPage_of_admits hadm] at hexec
    exact (Host.Outcome.next.inj hexec).symm
  have hfound (hh : r.holds = true) : Tbl.find u.held (p.toNat * 0x1000 + o) = some (s.liveWord .coxS p.toNat o) := by
    rw [hheld, ht]
    exact freezePage_held hoff hc hw ho hr hh
  rw [view_of_free hfree]
  refine ⟨fun hk => ?_, fun hk f hf hcnt => ?_, fun hk => ?_⟩
  · simp only [view, hr, hfound (by simp [RegRow.holds, hk]), hk, if_true]
  · have hmem : f ∈ r.counts := List.mem_filter.mpr ⟨hf, by simp [hcnt]⟩
    have hne : r.holds = true := by
      simp only [RegRow.holds, hk]
      simpa using List.ne_nil_of_mem hmem
    have hok := regAt_ok hr
    simp only [view, hr, hfound hne, hk]
    exact foldl_put_get (fun g hg => hok.1 g (List.mem_of_mem_filter hg)) (hok.2.sublist (List.filter_sublist ..)) hmem _ _
  · have hempty := goReg_counts _ r (mem_of_rowAt (regAt_past_header ho ▸ hr)) hk
    have hnot : r.kind ≠ .result := by rcases hk with hk | hk <;> rw [hk] <;> decide
    cases hf : Tbl.find u.held (p.toNat * 0x1000 + o) with
    | none => exact view_of_free hf
    | some old => simp only [view, hr, hf, hempty, hnot, if_false, List.foldl_nil]
end Sys2Proof.Machine
end

section
/-! PROOFS. Bytes written where the code corrects what it reads -/

namespace Sys2Proof.Machine

namespace Tbl

theorem length_slice_splice {V : Type} (t : Tbl V) (a n b m : Nat) :
    (slice (splice t a n []) b m).length ≤ (slice t b m).length := by
  simp only [slice, splice, List.filter_nil, List.map_nil, List.append_nil, List.length_map, List.filter_append,
    List.length_append, List.filter_filter]
  induction t with
  | nil => simp
  | cons e t ih =>
    simp only [List.filter_cons, Bool.and_eq_true, decide_eq_true_eq]
    grind

end Tbl

namespace State
variable {s t u : State}

/-- A state after bytes were written to memory whose codewords could be corrected. -/
structure Wrote (s : State) (a : Nat) (bs : List Byte) (t : State) : Prop where
  mem : ∀ k, Tbl.get t.mem 0 k = if a ≤ k ∧ k < a + bs.length then byteAt bs (k - a) else Tbl.get s.mem 0 k
  err : ∀ k, (t.sectorErr k).length ≤ (s.sectorErr k).length

/-- Two writes, one where the other ends, are one write. -/
theorem Wrote.append {a n : Nat} {bs : List Byte} (h₁ : s.Wrote a (bs.take n) u) (h₂ : u.Wrote (a + n) (bs.drop n) t) :
    s.Wrote a bs t where
  err k := (h₂.err k).trans (h₁.err k)
  mem k := by
    rw [h₂.mem, h₁.mem, List.length_take, List.length_drop]
    by_cases hlow : k < a + n
    · rw [if_neg (by omega)]
      by_cases hin : a ≤ k ∧ k < a + bs.length
      · rw [if_pos (by omega), if_pos hin, byteAt_take (by omega)]
      · rw [if_neg (by omega), if_neg hin]
    · by_cases hin : k < a + bs.length
      · have hidx : n + (k - (a + n)) = k - a := by omega
        rw [if_pos (by omega), if_pos (by omega), byteAt_drop, hidx]
      · rw [if_neg (by omega), if_neg (by omega), if_neg (by omega)]

/-- A sector with at most two bad symbols is read. -/
theorem readSector_corrected {source sector : Nat} (h : (s.sectorErr sector).length ≤ 2) :
    ∃ u, s.readSector source sector = (some (s.sectorData sector), u) ∧ u.mem = s.mem ∧ u.bad = s.bad := by
  unfold readSector
  generalize (s.sectorErr sector).length = n at h ⊢
  match n, h with
  | 0, _ => exact ⟨s, rfl, rfl, rfl⟩
  | 1, _ => exact ⟨_, rfl, bump_upd.frame .mem (by decide), bump_upd.frame .bad (by decide)⟩
  | 2, _ => exact ⟨_, rfl, bump_upd.frame .mem (by decide), bump_upd.frame .bad (by decide)⟩

theorem writePiece_corrected {source a : Nat} {bs : List Byte} (h : (s.sectorErr (a / 32)).length ≤ 2) :
    ∃ t, s.writePiece source a bs = (true, t) ∧ s.Wrote a bs t := by
  unfold writePiece
  by_cases hlen : bs.length = 32
  · rw [if_pos hlen]
    exact ⟨_, rfl, Tbl.get_putBytes s.mem a bs, fun k => Tbl.length_slice_splice ..⟩
  · obtain ⟨u, hu, hmem, hbad⟩ := readSector_corrected (source := source) h
    rw [if_neg hlen, hu]
    refine ⟨_, rfl, fun k => ?_, fun k => ?_⟩
    · show Tbl.get (Tbl.putBytes (Tbl.putBytes u.mem _ _) a bs) 0 k = _
      rw [Tbl.get_putBytes, hmem, sectorData, Tbl.get_putBytes_bytes]
    · show (Tbl.slice (Tbl.splice u.bad _ _ _) _ _).length ≤ _
      rw [hbad]
      exact Tbl.length_slice_splice ..

theorem writeBytes_corrected (source : Nat) {a : Nat} {bs : List Byte}
    (h : ∀ k, a / 32 ≤ k → k * 32 < a + bs.length → (s.sectorErr k).length ≤ 2) :
    ∃ t, s.writeBytes source a bs = (true, t) ∧ s.Wrote a bs t := by
  suffices hsteps : ∀ k, bs.length < k → ∃ t, (pieces k a bs).foldl
      (fun acc p => let (ok, s) := acc.2.writePiece source p.1 p.2; (acc.1 && ok, s)) (true, s) = (true, t) ∧ s.Wrote a bs t from
    hsteps _ (Nat.lt_succ_self _)
  intro k hk
  induction k generalizing s a bs with
  | zero => omega
  | succ k ih =>
    cases bs with
    | nil => exact ⟨s, rfl, fun k => by simp, fun _ => Nat.le_refl _⟩
    | cons b bs =>
      have hfirst : (s.sectorErr (a / 32)).length ≤ 2 := h _ (Nat.le_refl _) (by rw [List.length_cons]; omega)
      obtain ⟨u, hu, hw⟩ := writePiece_corrected (source := source) (bs := (b :: bs).take (32 - a % 32)) hfirst
      have hlen : ((b :: bs).drop (32 - a % 32)).length = (b :: bs).length - (32 - a % 32) := List.length_drop
      obtain ⟨t, ht, hw'⟩ := ih (s := u) (a := a + (32 - a % 32)) (bs := (b :: bs).drop (32 - a % 32))
        (fun k hlow hhigh => (hw.err k).trans (h k (by omega) (by rw [hlen] at hhigh; omega)))
        (by rw [hlen]; simp only [List.length_cons] at *; omega)
      refine ⟨t, ?_, hw.append hw'⟩
      rw [pieces, List.foldl_cons]
      simp only [hu, Bool.and_self]
      exact ht
      exact nofun

end State
end Sys2Proof.Machine
end

section
/-! PROOFS. Accesses through BAR0 that the gate ends -/

namespace Sys2Proof.Machine
namespace State
variable {s t u : State} {m : Master} {off : Nat}

/-! ## The half in service and the wake that it does not need -/

/-- A mode of service is none of those in which the link is away. -/
theorem inService_modes {x : Nat} (h : inService x = true) : x ≠ mOff ∧ x ≠ mCellar ∧ x ≠ mBoot ∧ x ≠ mLoadHost := by
  simp only [inService, isRun, Bool.or_eq_true, beq_iff_eq] at h
  obtain (rfl | rfl) | rfl := h <;> decide

theorem hostWake_of_awake (h : s.seq.standby = .none) (m : Master) (p off : Nat) (write : Bool) :
    s.hostWake m p off write = s := by
  unfold hostWake
  split
  · rw [wakeSource_of_not_standby h, ite_self]
  · rfl

/-- The link of a half in service lets the physical function's access through or answers it; it drops none. -/
theorem modeGate_fn_ne_drop (h : inService (s.mode .east) = true) (p : Nat) (write raw : Bool) :
    s.modeGate (.fn 0) p write raw ≠ .drop := by
  have hmode : s.masterMode (.fn 0) = s.mode .east := rfl
  obtain ⟨hoff, hcel, hboot, -⟩ := inService_modes h
  unfold modeGate
  rw [hmode]
  generalize hmd : (if p < numPages ∧ s.mode (s.serves p) = mHalt ∧ inService (s.mode .east) then mHalt else s.mode .east) = md
  have hmd' : md ≠ mOff ∧ md ≠ mCellar ∧ md ≠ mBoot := by
    rw [← hmd]
    split
    · decide
    · exact ⟨hoff, hcel, hboot⟩
  obtain ⟨h0, h1, h3⟩ := hmd'
  simp only [beq_eq_false_iff_ne.mpr h0, beq_eq_false_iff_ne.mpr h1, beq_eq_false_iff_ne.mpr h3, Bool.or_false, bne_self_eq_false]
  simp only [Bool.false_eq_true, if_false]
  split
  · split <;> nofun
  · split
    · split <;> nofun
    · split
      · split <;> nofun
      · nofun

theorem out_complete (write : Bool) (r : Reply) :
    (s.complete m write r).out = if write then s.out else .completion m r :: s.out := by
  cases write <;> rfl

theorem regs_complete (write : Bool) (r : Reply) : (s.complete m write r).regs = s.regs := by
  cases write <;> rfl

theorem rd_complete (write : Bool) (r : Reply) (p : Nat) (f : Fld) : (s.complete m write r).rd p f = s.rd p f :=
  rd_congr (regs_complete write r) p f

end State
open State

/-- An access to the unreachable half is lost, and a host's counts. -/
theorem unreachable_access (s : State) (m : Master) (off : Nat) (w : Option Word)
    (h : s.Served m (off / 0x1000) (off % 0x1000) w.isSome) (hu : s.unreachable m (off / 0x1000) = true) :
    ∃ t, exec (.unreachableHalfAccess m off w) s = .next t ∧
      (∀ n, m = .fn n → t.rd (pgSys .east) SYS_ROLE_LOST_ACCESS =
        min SYS_ROLE_LOST_ACCESS.max (s.rd (pgSys .east) SYS_ROLE_LOST_ACCESS + 1)) ∧
      ((∀ n, m ≠ .fn n) → t.regs = s.regs) ∧
      t.out = (if w.isSome then s.out else .completion m (.word 0xFFFFFFFF) :: s.out) ∧ Unchanged [.regs, .out] s t := by
  refine ⟨_, congrArg Host.Outcome.next (gatedIf_of_ends h.awake hu (h.gate_of_unreachable hu)), ?_, fun hm => ?_, ?_, ?_⟩
  · rintro n rfl
    rw [rd_complete]
    exact s.rd_bump (pgSys .east) (f := SYS_ROLE_LOST_ACCESS) (n := 1) rfl
  · rw [regs_complete]
    cases m with
    | fn n => exact absurd rfl (hm n)
    | coxNs => rfl
    | coxS => rfl
    | coxF b => rfl
  · rw [out_complete, lostAccess_upd.frame .out (by decide)]
    rfl
  · exact (Upd.after complete_upd rfl <| Upd.after lostAccess_upd rfl .refl).frame

theorem outOfRange_access (s : State) (m : Master) (off : Nat) (w : Option Word)
    (h : s.Served m (off / 0x1000) (off % 0x1000) w.isSome) (hu : s.unreachable m (off / 0x1000) = false)
    (hp : numPages ≤ off / 0x1000) :
    ∃ t, exec (.bar0OutOfRangeAccess m off w) s = .next t ∧
      t.out = (if w.isSome then s.out else .completion m .unsupported :: s.out) ∧ Unchanged [.out] s t :=
  ⟨_, congrArg Host.Outcome.next (gatedIf_of_ends h.awake (decide_eq_true hp) (h.gate_of_out_of_range hu hp)),
    out_complete _ _, complete_upd.frame⟩

section
variable (s : State) (m : Master) (off : Nat) (w : Option Word) (h : s.Served m (off / 0x1000) (off % 0x1000) w.isSome)
  (hu : s.unreachable m (off / 0x1000) = false) (hp : off / 0x1000 < numPages)
include h hu hp

theorem undefined_access (hsec : s.pageSecure (off / 0x1000) = true → s.masterWorld m = true)
    (hs : s.pageShut (off / 0x1000) = false) (hr : regAt (off / 0x1000) (off % 0x1000) = none)
    (h0 : s.rd (off / 0x1000) PG_ERR_VALID = 0) :
    ∃ t, exec (.undefinedOffsetAccess m off w) s = .next t ∧ t.rd (off / 0x1000) PG_ERR_VALID = 1 ∧
      t.rd (off / 0x1000) PG_ERR_CODE = 2 ∧ t.rd (off / 0x1000) PG_ERR_ADDR = bit w.isSome * 2 ^ 31 + off ∧
      t.out = (if w.isSome then s.out else .completion m (.word 0) :: s.out) ∧ Unchanged [.regs, .out] s t := by
  have hrange : bit w.isSome * 2 ^ 31 + off < 2 ^ 32 := by
    have hpage : off / 0x1000 < 288 := hp
    have := bit_lt_two w.isSome
    omega
  have hend := gatedIf_of_ends (why := fun _ p => p < numPages && (regAt p (off % 0x1000)).isNone) h.awake
    (by simp [hp, hr]) (h.gate_of_undefined hu hp hsec hs hr)
  rw [accessAddr_split] at hend
  obtain ⟨hvalid, hcode, haddr, -⟩ := pgErr_first (code := 2) h0 (by decide) hrange
  have hexec : exec (.undefinedOffsetAccess m off w) s =
    .next (s.gatedIf m off w.isSome fun _ p => p < numPages && (regAt p (off % 0x1000)).isNone) := rfl
  rw [hexec, hend]
  refine ⟨_, rfl, (rd_complete ..).trans hvalid, (rd_complete ..).trans hcode, (rd_complete ..).trans haddr, ?_,
    (Upd.after complete_upd rfl <| Upd.after pgErr_upd rfl .refl).frame⟩
  rw [out_complete, pgErr_upd.frame .out (by decide)]

theorem closed_access (hsec : s.pageSecure (off / 0x1000) = true → s.masterWorld m = true)
    (hs : s.pageShut (off / 0x1000) = true) :
    ∃ t, exec (.closedPageAccess m off w) s = .next t ∧
      t.rd (pgClk (s.serves (off / 0x1000))) CLK_GHOST_COUNT =
        min CLK_GHOST_COUNT.max (s.rd (pgClk (s.serves (off / 0x1000))) CLK_GHOST_COUNT + 1) ∧
      t.rd (pgClk (s.serves (off / 0x1000))) CLK_GHOST_PAGE = off / 0x1000 ∧
      t.out = (if w.isSome then s.out else .completion m (.word 0) :: s.out) ∧ Unchanged [.regs, .out] s t := by
  have hpage : off / 0x1000 < 288 := hp
  refine ⟨_, congrArg Host.Outcome.next (gatedIf_of_ends h.awake (by simp [hp, hs]) (h.gate_of_shut hu hp hsec hs)),
    (rd_complete ..).trans ?_, (rd_complete ..).trans ?_, ?_, (Upd.after complete_upd rfl <| Upd.after ghost_upd rfl .refl).frame⟩
  · simp (disch := decide) [ghost, rd_wr_sep]
  · exact rd_wr_fit _ _ rfl (by simp only [CLK_GHOST_PAGE]; omega)
  · rw [out_complete, ghost_upd.frame .out (by decide)]

theorem violating_access (hsec : s.pageSecure (off / 0x1000) = true) (hw : s.masterWorld m = false)
    (hs : s.pageShut (off / 0x1000) = false) :
    ∃ u : State, exec (.pageWorldViolation m off w) s =
        .next (if w.isSome then u.freezeMaster m vPage else (u.freezeMaster m vPage).emit (.completion m .unsupported)) ∧
      u.rd (off / 0x1000) PG_ERR_VALID = 1 ∧
      (s.rd (off / 0x1000) PG_ERR_VALID = 0 → u.rd (off / 0x1000) PG_ERR_CODE = 1) ∧ Unchanged [.regs] s u := by
  have hpage : off / 0x1000 < 288 := hp
  have hrange : bit w.isSome * 2 ^ 31 + off < 2 ^ 32 := by
    have := bit_lt_two w.isSome
    omega
  have hgate := h.gate_of_violation hu hp hsec hw
  simp only [hs, Bool.false_eq_true, if_false, accessAddr_split] at hgate
  refine ⟨_, congrArg Host.Outcome.next (gatedIf_of_ends h.awake (by simp [hp, hsec, hw]) hgate), ?_, fun h0 => ?_, pgErr_upd.frame⟩
  · obtain h0 | h1 := rd_zero_or_one (s := s) (p := off / 0x1000) (f := PG_ERR_VALID) rfl
    · exact (pgErr_first h0 (by decide) hrange).1
    · exact (pgErr_later h1).1
  · exact (pgErr_first h0 (by decide) hrange).2.1

end
end Sys2Proof.Machine
end

section
/-! PROOFS. O33: the host link -/

namespace Sys2Proof.Machine
namespace State
variable {s t u : State} {m : Master} {off : Nat}

/-! ## BAR4 -/

theorem bar4Gate_in_service (hmode : inService (s.mode .east) = true) (hsb : s.seq.standby = .none) (fn : Nat) :
    s.bar4Gate fn = (some ((fn == 0 || decide (fn ≤ s.host.vfs)) && !s.security.fns.contains fn), s) := by
  obtain ⟨hoff, hcel, hboot, -⟩ := inService_modes hmode
  simp [bar4Gate, hoff, hcel, hboot, wakeSource_of_not_standby hsb, hmode]

theorem bar4Gate_served {fn : Nat} (hmode : inService (s.mode .east) = true) (hsb : s.seq.standby = .none)
    (hfn : fn ≤ s.host.vfs) (hfree : fn ∉ s.security.fns) : s.bar4Gate fn = (some true, s) := by
  simp [bar4Gate_in_service hmode hsb, hfn, hfree]

theorem bar4Gate_frozen {fn : Nat} (hmode : inService (s.mode .east) = true) (hsb : s.seq.standby = .none)
    (hfrozen : fn ∈ s.security.fns) : s.bar4Gate fn = (some false, s) := by
  simp [bar4Gate_in_service hmode hsb, hfrozen]

/-! ## Configuration requests -/

section
variable (hmode : inService (s.mode .east) = true) (hsb : s.seq.standby = .none)
include hmode hsb

/-- A configuration write of a function that is there, while the link's half may take it, acts and is answered. -/
theorem configReq_write {fn : BitVec 8} (hfn : fn.toNat ≤ s.host.vfs ∨ fn = 0) (horph : s.orphan .east = false) :
    (∀ on, s.configReq fn (.busMaster on) =
      (s.modHost fun l => { l with bme := if on then fn.toNat :: l.bme.erase fn.toNat else l.bme.erase fn.toNat }).emit
        (.completion (.fn fn) .done)) ∧
    (∀ v on, s.configReq fn (.vectorMask v on) = (s.maskVector fn.toNat v.toNat on).emit (.completion (.fn fn) .done)) := by
  obtain ⟨hoff, hcel, hboot, hload⟩ := inService_modes hmode
  have hthere : ¬ (fn ≠ 0 ∧ (s.mode .east = mLoadHost ∨ s.host.vfs < fn.toNat)) := by
    rintro ⟨hne, hl | hv⟩
    · exact hload hl
    · exact hfn.elim (fun h => by omega) hne
  constructor <;> intros <;>
    simp only [configReq, hoff, hcel, hboot, wakeSource_of_not_standby hsb, hthere, horph, or_self, and_false, if_false, Bool.false_eq_true]

theorem configReq_vfEnable {n : BitVec 8} (horph : s.orphan .east = false) (hn : n ≠ 0) :
    s.configReq 0 (.vfEnable n) = (s.modHost fun l => { l with vfs := n.toNat }).emit (.completion (.fn 0) .done) := by
  obtain ⟨hoff, hcel, hboot, hload⟩ := inService_modes hmode
  have hn' : n ≠ 0#8 := hn
  simp [configReq, hoff, hcel, hboot, hload, wakeSource_of_not_standby hsb, horph, hn']

theorem configReq_absent {fn : BitVec 8} (r : CfgReq) (hfn : s.host.vfs < fn.toNat) :
    s.configReq fn r = s.emit (.completion (.fn fn) .unsupported) := by
  obtain ⟨hoff, hcel, hboot, hload⟩ := inService_modes hmode
  have hne : fn ≠ 0#8 := by rintro rfl; exact absurd hfn (by simp)
  simp [configReq, hoff, hcel, hboot, wakeSource_of_not_standby hsb, hne, hfn]

theorem configReq_identity :
    s.configReq 0 (.read 0) =
      s.drew.emit (.completion (.fn 0) (.word (BitVec.ofNat 32 (0x6300 * 2 ^ 16 + Config.vendorId % 2 ^ 16)))) := by
  obtain ⟨hoff, hcel, hboot, hload⟩ := inService_modes hmode
  simp [configReq, hoff, hcel, hboot, wakeSource_of_not_standby hsb, configWord]

end

theorem msixGo_open (h : s.host.pba = []) : s.msixGo.host.open_ = s.host.open_ := by
  simp [msixGo, modHost, h]

/-! ## Resets of the link and of a function -/

theorem reg_clearSpan (p lo hi a : Nat) :
    (s.clearSpan p lo hi).reg a = if p * 0x1000 + lo ≤ a ∧ a < p * 0x1000 + hi then regReset a else s.reg a := by
  unfold clearSpan reg
  dsimp only
  rw [Tbl.find_filter s.regs (fun k => !(decide (p * 0x1000 + lo ≤ k) && decide (k < p * 0x1000 + hi)))]
  by_cases h : p * 0x1000 + lo ≤ a ∧ a < p * 0x1000 + hi
  · simp [h]
  · rw [if_neg h, if_pos (by simp only [Bool.not_eq_true', Bool.and_eq_false_iff, decide_eq_false_iff_not]; omega)]

theorem clearSpan_regsIn {p lo hi : Nat} (h : hi ≤ 0x1000) : RegsIn (ofPage p) s (s.clearSpan p lo hi) := by
  intro a ha
  rw [reg_clearSpan, if_neg]
  unfold ofPage at ha
  omega

theorem resetFn_regsIn {fn : Nat} (h : fn ≠ 0) : RegsIn (ofPage (pgVf fn)) s (s.resetFn fn) := by
  unfold resetFn
  simp only [h, if_false]
  exact .trans (.of_regs (closeHost_upd.frame .regs (by decide))) (clearSpan_regsIn (Nat.le_refl _))

theorem vfs_raise (p b : Nat) : (s.raise p b).host.vfs = s.host.vfs := by
  have hmsix (u : State) (fn v : Nat) : (u.msix fn v).host.vfs = u.host.vfs := by unfold msix; split <;> rfl
  have htoCox (u : State) (h : Half) (e : Emission) : (u.toCox h e).host = u.host := toCox_upd.frame .host (by decide)
  unfold raise
  extract_lets raw v
  have hv : v.host = s.host := wr_upd.frame .host (by decide)
  split
  · rfl
  · split
    · rw [htoCox, hmsix, hv]
    · rw [hv]

theorem vfs_resetFn {fn : Nat} (h : fn ≠ 0) : (s.resetFn fn).host.vfs = s.host.vfs := by
  have hclose : (s.closeHost fun f => f == fn).host = s.host := closeHost_upd.frame .host (by decide)
  simp only [resetFn, h, if_false]
  show (s.closeHost fun f => f == fn).host.vfs = s.host.vfs
  rw [hclose]

/-- A Function Level Reset of an enabled virtual function is recorded, and VF Enable stays. -/
theorem flr_of_vf {fn : Nat} (hmode : inService (s.mode .east) = true) (hsb : s.seq.standby = .none) (hne : fn ≠ 0)
    (hfn : fn ≤ s.host.vfs) :
    s.flr fn = (((s.resetFn fn).step1 pgHlk HLK_FLR_LAST_SEQ).wrs pgHlk [(HLK_FLR_LAST_VALID, 1), (HLK_FLR_LAST_FUNC, fn)]).raise
      pgHlk 1 := by
  obtain ⟨hoff, hcel, hboot, hload⟩ := inService_modes hmode
  have hnot : ¬ s.host.vfs < fn := Nat.not_lt.mpr hfn
  simp only [flr, hoff, hcel, hboot, wakeSource_of_not_standby hsb, hne, hnot, hload, or_self, and_false, if_false]

/-- PERST resets the host link, its page and what its functions held. -/
theorem perst_of_no_reeq (hoff : s.devMode ≠ mOff) (hcel : s.devMode ≠ mCellar) (hreeq : s.host.reeq = none) :
    ∃ u : State, Unchanged [.regs, .host, .portOps, .hatches] s u ∧
      s.perst = { u.clearSpan pgHlk 0 0x1000 with held := s.held.filter fun e => e.1 / 0x1000 != pgHlk } ∧
      u.host = { bme := [], vfs := 0, msix := [], pba := [], open_ := [], reeq := none } := by
  have hupd : Upd [.regs, .host, .portOps, .hatches] s
      ((s.closeHost fun _ => true).vfsOff.modHost fun _ => { bme := [], vfs := 0, msix := [], pba := [], open_ := [], reeq := none }) :=
    Upd.after modHost_upd rfl <| Upd.after vfsOff_upd rfl <| Upd.after closeHost_upd rfl .refl
  refine ⟨_, hupd.frame, ?_, rfl⟩
  have hheld := hupd.frame .held (by decide)
  simp only [perst, hoff, hcel, hreeq, or_self, if_false, Option.isSome, Bool.false_eq_true]
  rw [hheld]

/-! ## The Data Link Layer -/

theorem dlSet_change {up : Bool} {speed width : Nat} (hoff : s.devMode ≠ mOff) (hcel : s.devMode ≠ mCellar)
    (hup : s.on pgHlk HLK_LINK_DL_UP = !up) :
    s.dlSet up speed width =
      (s.wrs pgHlk [(HLK_LINK_DL_UP, bit up), (HLK_LINK_SPEED, speed), (HLK_LINK_WIDTH, width)]).raise pgHlk 0 := by
  simp [dlSet, hoff, hcel, hup]

theorem dlSet_reads {up : Bool} {speed width : Nat} (hoff : s.devMode ≠ mOff) (hcel : s.devMode ≠ mCellar)
    (hup : s.on pgHlk HLK_LINK_DL_UP = !up) (hs : speed < 16) (hw : width < 32) :
    (s.dlSet up speed width).on pgHlk HLK_LINK_DL_UP = up ∧ (s.dlSet up speed width).rd pgHlk HLK_LINK_SPEED = speed ∧
      (s.dlSet up speed width).rd pgHlk HLK_LINK_WIDTH = width ∧
      ((s.dlSet up speed width).rd pgHlk PG_IRQ_RAW).testBit 0 = true := by
  have hbit : bit up < 2 := bit_lt_two up
  rw [dlSet_change hoff hcel hup]
  refine ⟨?_, ?_, ?_, raw_raise _ _ (by decide)⟩
  · have hrd : ((s.wrs pgHlk [(HLK_LINK_DL_UP, bit up), (HLK_LINK_SPEED, speed), (HLK_LINK_WIDTH, width)]).raise pgHlk 0).rd pgHlk
        HLK_LINK_DL_UP = bit up := by
      simp (disch := decide) only [rd_raise_sep, wrs_cons, wrs_nil, rd_wr_sep]
      exact rd_wr_fit s _ rfl hbit
    rw [on, hrd]
    cases up <;> rfl
  · simp (disch := decide) only [rd_raise_sep, wrs_cons, wrs_nil, rd_wr_sep]
    exact rd_wr_fit _ _ rfl hs
  · simp (disch := decide) only [rd_raise_sep, wrs_cons, wrs_nil]
    exact rd_wr_fit _ _ rfl hw

end State
open State

/-- A function in service that an address's frames allow reads what memory delivers. -/
theorem bar4Read_delivers (s u : State) (fn : BitVec 8) (off : BitVec 40) (n : BitVec 13) (bs : List Byte)
    (hsb : s.seq.standby = .none) (hmode : inService (s.mode .east) = true) (hfn : fn.toNat ≤ s.host.vfs)
    (hfree : fn.toNat ∉ s.security.fns) (hn : n ≠ 0)
    (hspan : s.spanReached fn.toNat (s.bar4Addr fn.toNat off.toNat) n.toNat false = true)
    (hcut : s.bar4Cut (s.bar4Addr fn.toNat off.toNat) = false)
    (hread : s.readBytes ueHost (s.bar4Addr fn.toNat off.toNat) n.toNat = (some bs, u)) :
    ∃ t, exec (.bar4Read fn off n) s = .next t ∧ t.out = .completion (.fn fn) (.data bs) :: u.out ∧ t.mem = u.mem := by
  have hn0 : n.toNat ≠ 0 := fun h => hn (BitVec.eq_of_toNat_eq h)
  have hop : s.bar4Read fn off.toNat n.toNat = u.emit (.completion (.fn fn) (.data bs)) := by
    simp only [bar4Read, bar4Gate_served hmode hsb hfn hfree, hn0, hspan, hcut, hread, if_false, Bool.not_true, Bool.false_eq_true]
  exact ⟨_, congrArg Host.Outcome.next hop, rfl, rfl⟩

theorem bar4Write_stores (s : State) (fn : BitVec 8) (off : BitVec 40) (bs : List Byte) (a : Nat)
    (hsb : s.seq.standby = .none) (hmode : inService (s.mode .east) = true) (hfn : fn.toNat ≤ s.host.vfs)
    (hfree : fn.toNat ∉ s.security.fns) (hbs : bs ≠ []) (ha : s.bar4Addr fn.toNat off.toNat = a)
    (hspan : s.spanReached fn.toNat a bs.length true = true) (hcut : s.bar4Cut a = false)
    (herr : ∀ k, a / 32 ≤ k → k * 32 < a + bs.length → (s.sectorErr k).length ≤ 2) :
    ∃ t, exec (.bar4Write fn off bs) s = .next t ∧
      (∀ b, Tbl.get t.mem 0 b = if a ≤ b ∧ b < a + bs.length then byteAt bs (b - a) else Tbl.get s.mem 0 b) ∧
      Unchanged [.regs, .out, .host, .mem, .bad, .stackCtl, .frames, .attic, .cox, .gallery] s t := by
  obtain ⟨t, ht, hwrote⟩ := writeBytes_corrected ueHost herr
  have hempty : bs.isEmpty = false := by cases bs with | nil => exact absurd rfl hbs | cons => rfl
  have hop : s.bar4Write fn off.toNat bs = (s.writeBytes ueHost a bs).2 := by
    simp only [bar4Write, bar4Gate_served hmode hsb hfn hfree, ha, hempty, hspan, hcut, if_false, Bool.not_true, Bool.false_eq_true]
  refine ⟨_, congrArg Host.Outcome.next hop, ?_, writeBytes_upd.frame⟩
  rw [ht]
  exact hwrote.mem

theorem perst_resets (s : State) (hoff : s.devMode ≠ mOff) (hcel : s.devMode ≠ mCellar) (hreeq : s.host.reeq = none) :
    ∃ t, exec .perstAssert s = .next t ∧ t.host = { bme := [], vfs := 0, msix := [], pba := [], open_ := [], reeq := none } ∧
      (∀ f : Fld, f.off < 0x1000 → t.reg (pgHlk * 0x1000 + f.off) = State.reset.reg (pgHlk * 0x1000 + f.off)) ∧
      Unchanged [.regs, .held, .host, .portOps, .hatches] s t := by
  obtain ⟨u, hu, hop, hhost⟩ := perst_of_no_reeq hoff hcel hreeq
  refine ⟨_, congrArg Host.Outcome.next hop, hhost, fun f hf => ?_, fun p hp => ?_⟩
  · show (u.clearSpan pgHlk 0 0x1000).reg _ = _
    rw [reg_clearSpan, if_pos (by omega)]
    rfl
  · have hsame := hu p fun h =>
      hp ((by decide : [Part.regs, .host, .portOps, .hatches] ⊆ [.regs, .held, .host, .portOps, .hatches]) h)
    cases p
    case regs | held => exact absurd (by decide) hp
    all_goals exact hsame

theorem flr_acts (s : State) (fn : BitVec 8) (hmode : inService (s.mode .east) = true) (hsb : s.seq.standby = .none)
    (hne : fn ≠ 0) (hfn : fn.toNat ≤ s.host.vfs) :
    ∃ t, exec (.functionLevelReset fn) s = .next t ∧ t.rd pgHlk HLK_FLR_LAST_VALID = 1 ∧
      t.rd pgHlk HLK_FLR_LAST_FUNC = fn.toNat ∧
      t.rd pgHlk HLK_FLR_LAST_SEQ = (s.rd pgHlk HLK_FLR_LAST_SEQ + 1) % 16 ∧
      (t.rd pgHlk PG_IRQ_RAW).testBit 1 = true ∧ t.host.vfs = s.host.vfs ∧
      Unchanged [.regs, .out, .host, .portOps, .cox, .hatches] s t := by
  have hpage : pgHlk ≠ pgVf fn.toNat := by unfold pgHlk pgVf numPages; omega
  have hne' : fn.toNat ≠ 0 := fun h => hne (BitVec.eq_of_toNat_eq h)
  have hkeep (f : Fld) (hf : f.off < 0x1000) : (s.resetFn fn.toNat).rd pgHlk f = s.rd pgHlk f :=
    (resetFn_regsIn hne').rd_page hpage hf
  refine ⟨_, congrArg Host.Outcome.next (flr_of_vf hmode hsb hne' hfn), ?_, ?_, ?_, raw_raise _ _ (by decide), ?_, ?_⟩
  · simp (disch := decide) [rd_wr_sep]
  · simp (disch := decide) only [rd_raise_sep, wrs_cons, wrs_nil]
    exact rd_wr_fit _ _ rfl (Nat.lt_of_lt_of_le fn.isLt (by decide))
  · simp (disch := decide) only [rd_raise_sep, wrs_cons, wrs_nil, rd_wr_sep, rd_step1, hkeep]
    rfl
  · have hhost (u : State) : ((u.step1 pgHlk HLK_FLR_LAST_SEQ).wrs pgHlk
        [(HLK_FLR_LAST_VALID, 1), (HLK_FLR_LAST_FUNC, fn.toNat)]).host = u.host :=
      (Upd.after (K := [.regs]) wrs_upd rfl <| Upd.after step1_upd rfl .refl).frame .host (by decide)
    rw [vfs_raise, hhost]
    exact vfs_resetFn hne'
  · exact (Upd.after raise_upd rfl <| Upd.after wrs_upd rfl <| Upd.after step1_upd rfl <| Upd.after resetFn_upd rfl .refl).frame

/-- Settles O33, by what the gate of each access answers. -/
theorem hostLinkAct : Obligations.HostLinkAct := by
  refine ⟨fun s off w hmode hsb => ?_, unreachable_access, outOfRange_access, undefined_access, closed_access, violating_access,
    fun s m off w hw hsb => ?_, bar4Read_delivers, fun s fn off n hmode hsb hfrozen => ?_, bar4Write_stores,
    fun s fn off bs hmode hsb hfrozen => ?_, fun s fn r hboot => ?_, fun s fn on hmode hsb hfn horph => ?_,
    fun s n hmode hsb horph hn => ?_, fun s fn hmode hsb hfn => ?_, fun s hmode hsb => ?_,
    fun s fn v on hmode hsb hfn horph => ?_, fun s fn v hpba => ?_, fun s hoff hcel hreeq => ?_,
    fun s fn hmode hsb hne hfn => ?_, fun s speed width hoff hcel hup => ?_, fun s hoff hcel hup => ?_⟩
  · exact ⟨_, gatedAccessesComplete.2.1 s (.fn 0) off w (modeGate_fn_ne_drop hmode _ _ _) (hostWake_of_awake hsb ..), rfl,
      emit_upd.frame⟩
  · refine congrArg Host.Outcome.next (gatedIf_of_not ?_)
    rw [hostWake_of_awake hsb, hw]
    exact Bool.and_false _
  · have hop : s.bar4Read fn off.toNat n.toNat = s.emit (.completion (.fn fn) .unsupported) := by
      simp only [bar4Read, bar4Gate_frozen hmode hsb hfrozen]
    exact ⟨_, congrArg Host.Outcome.next hop, rfl, emit_upd.frame⟩
  · refine congrArg Host.Outcome.next ?_
    simp only [bar4Write, bar4Gate_frozen hmode hsb hfrozen]
  · have hop : s.configReq fn r = s.emit (.completion (.fn fn) .retry) := by simp [configReq, hboot]
    exact ⟨_, congrArg Host.Outcome.next hop, rfl, emit_upd.frame⟩
  · exact ⟨_, congrArg Host.Outcome.next ((configReq_write hmode hsb (.inl hfn) horph).1 on), rfl, rfl,
      (Upd.after emit_upd rfl <| Upd.after modHost_upd rfl .refl).frame⟩
  · exact ⟨_, congrArg Host.Outcome.next (configReq_vfEnable hmode hsb horph hn), rfl, rfl,
      (Upd.after emit_upd rfl <| Upd.after modHost_upd rfl .refl).frame⟩
  · exact ⟨_, congrArg Host.Outcome.next (configReq_absent hmode hsb _ hfn), rfl, emit_upd.frame⟩
  · exact ⟨_, congrArg Host.Outcome.next (configReq_identity hmode hsb), rfl,
      (Upd.after emit_upd rfl <| Upd.after drew_upd rfl .refl).frame⟩
  · exact congrArg Host.Outcome.next ((configReq_write hmode hsb (.inl hfn) horph).2 v on)
  · exact ⟨msixGo_open hpba, msixGo_open hpba⟩
  · exact perst_resets s hoff hcel hreeq
  · exact flr_acts s fn hmode hsb hne hfn
  · obtain ⟨h1, h2, h3, h4⟩ := dlSet_reads (up := true) hoff hcel hup speed.isLt width.isLt
    exact ⟨_, rfl, h1, h2, h3, h4, dlSet_upd.frame⟩
  · obtain ⟨h1, h2, h3, h4⟩ := dlSet_reads (up := false) (speed := 0) (width := 0) hoff hcel hup (by decide) (by decide)
    exact ⟨_, rfl, h1, h2, h3, h4, dlSet_upd.frame⟩
end Sys2Proof.Machine
end

section
/-! PROOFS. The registers of the command ports -/

namespace Sys2Proof.Machine

/-- A field of a port's registers, by its offset on the block's page. -/
@[reducible] def Fld.inPort (f : Fld) : Prop := (0x40 ≤ f.off ∧ f.off < 0xC0) ∧ f.ok = true

theorem resultFlds_inPort (b : PortBlock) :
    (resultFlds b).1.inPort ∧ (resultFlds b).2.1.inPort ∧ (resultFlds b).2.2.1.inPort ∧ (resultFlds b).2.2.2.inPort := by
  cases b <;> decide

theorem portShift_le (b : PortBlock) (p : Port) : portShift b p ≤ 0x1C0 := by
  cases b <;> cases p <;> simp [portShift]

@[simp] theorem portFld_ok (b : PortBlock) (p : Port) (f : Fld) : (portFld b p f).ok = f.ok := rfl

theorem portFld_sep {b : PortBlock} {p : Port} {f g : Fld} (h : f.sep g = true) (hf : f.inPort) (hg : g.inPort) :
    (portFld b p f).sep (portFld b p g) = true := by
  have hshift := portShift_le b p
  obtain ⟨⟨hf1, hf2⟩, -⟩ := hf
  obtain ⟨⟨hg1, hg2⟩, -⟩ := hg
  simp only [Fld.sep, portFld, Bool.or_eq_true, bne_iff_ne, decide_eq_true_eq] at h ⊢
  rcases h with (h | h) | h
  · exact .inl (.inl (by omega))
  · exact .inl (.inr (decide_eq_true h))
  · exact .inr (decide_eq_true h)

namespace State
variable (s : State) (b : PortBlock) (p : Port) {f g : Fld} {v code : Nat} {l : List (Fld × Nat)}

/-! ## The fields of a port (R156, R186, R210) -/

@[simp] theorem portRd_portWr_same (h : f.inPort) :
    (s.portWr b p f v).portRd b p f = v % 2 ^ (f.hi - f.lo + 1) := rd_wr s _ _ v h.2

theorem portRd_portWr_sep (h : f.sep g = true) (hf : f.inPort) (hg : g.inPort) :
    (s.portWr b p g v).portRd b p f = s.portRd b p f :=
  rd_wr_sep s _ _ _ _ v (portFld_sep h hf hg) hf.2 hg.2

theorem portRd_of_regs {s t : State} (h : t.regs = s.regs) (b : PortBlock) (p : Port) (f : Fld) :
    t.portRd b p f = s.portRd b p f := rd_congr h _ _

/-- The event of a completion is no part of the port. -/
@[simp] theorem portRd_portEvent (h : f.inPort) : (s.portEvent b p).portRd b p f = s.portRd b p f := by
  obtain ⟨⟨hlo, hhi⟩, hok⟩ := h
  have hshift := portShift_le b p
  cases p with
  | page hf m =>
    refine rd_raise_sep s _ _ _ ?_ hok
    simp only [Fld.sep, portFld, PG_IRQ_RAW, Bool.or_eq_true, bne_iff_ne]
    omega
  | vf n =>
    have hsep : (portFld b (.vf n) f).sep VFP_VF_IRQ_IRQ = true := by
      simp only [Fld.sep, portFld, VFP_VF_IRQ_IRQ, Bool.or_eq_true, bne_iff_ne]
      omega
    have hwr (u : State) (x : Nat) : (u.wr (pgVf n.toNat) VFP_VF_IRQ_IRQ x).portRd b (.vf n) f = u.portRd b (.vf n) f :=
      rd_wr_sep u _ _ _ _ x hsep hok rfl
    simp only [portEvent]
    split
    · rfl
    · split
      · exact (portRd_of_regs (msix_upd.frame .regs (by decide)) ..).trans (hwr s _)
      · exact hwr s _

/-- A field of the port that a completion does not set is as it was. -/
theorem portRd_portEnd_sep (hf : f.inPort) (hl : ∀ e ∈ l, f.sep e.1 = true ∧ e.1.inPort)
    (hv : f.sep (resultFlds b).1 = true) (hy : f.sep (resultFlds b).2.1 = true) (hc : f.sep (resultFlds b).2.2.2 = true) :
    (s.portEnd b p code l).portRd b p f = s.portRd b p f := by
  obtain ⟨iv, iy, -, ic⟩ := resultFlds_inPort b
  have hfold : ∀ (l : List (Fld × Nat)) (u : State), (∀ e ∈ l, f.sep e.1 = true ∧ e.1.inPort) →
      (l.foldl (fun s e => s.portWr b p e.1 e.2) u).portRd b p f = u.portRd b p f := by
    intro l
    induction l with
    | nil => exact fun u _ => rfl
    | cons e l ih =>
      intro u hl
      obtain ⟨hsep, hin⟩ := hl e (.head _)
      rw [List.foldl_cons, ih _ fun x hx => hl x (.tail _ hx), portRd_portWr_sep u b p hsep hf hin]
  unfold portEnd
  rw [portRd_portEvent _ _ _ hf, portRd_portWr_sep _ _ _ hv hf iv, portRd_portWr_sep _ _ _ hy hf iy, hfold]
  intro e he
  rcases List.mem_append.mp he with he | he
  · exact hl e he
  · obtain rfl := List.mem_singleton.mp he
    exact ⟨hc, ic⟩

/-- A completion answers with its code. -/
theorem portEnd_answered (hcode : code < 16) : (s.portEnd b p code l).Answered b p code := by
  obtain ⟨iv, iy, -, ic⟩ := resultFlds_inPort b
  have hseps : (resultFlds b).2.1.sep (resultFlds b).1 = true ∧ (resultFlds b).2.2.2.sep (resultFlds b).1 = true ∧
      (resultFlds b).2.2.2.sep (resultFlds b).2.1 = true ∧ (resultFlds b).2.2.2.hi - (resultFlds b).2.2.2.lo + 1 = 4 ∧
      (resultFlds b).2.1.hi = (resultFlds b).2.1.lo ∧ (resultFlds b).1.hi = (resultFlds b).1.lo := by cases b <;> decide
  obtain ⟨hyv, hcv, hcy, hwide, hy1, hv1⟩ := hseps
  unfold portEnd Answered portBusy
  refine ⟨?_, ?_, ?_⟩
  · rw [portRd_portEvent _ _ _ iy, portRd_portWr_sep _ _ _ hyv iy iv, portRd_portWr_same _ _ _ iy, Nat.zero_mod]
    rfl
  · rw [portRd_portEvent _ _ _ iv, portRd_portWr_same _ _ _ iv, hv1, Nat.sub_self]
    rfl
  · rw [portRd_portEvent _ _ _ ic, portRd_portWr_sep _ _ _ hcv ic iv, portRd_portWr_sep _ _ _ hcy ic iy, List.foldl_append]
    simp only [List.foldl_cons, List.foldl_nil]
    rw [portRd_portWr_same _ _ _ ic, hwide]
    exact Nat.mod_eq_of_lt hcode

theorem stwEnd_answered {id : Nat} (hcode : code < 16) : (s.stwEnd p code id).Answered .stw p code :=
  portEnd_answered s .stw p hcode

theorem pgtEnd_answered {value : Nat} (hcode : code < 16) : (s.pgtEnd p code value).Answered .pgt p code :=
  portEnd_answered s .pgt p hcode

theorem hatEnd_answered {n : Nat} (hcode : code < 16) : (s.hatEnd p code n).Answered .hat p code :=
  portEnd_answered s .hat p hcode

/-- A GO advances SEQ. -/
theorem seq_portStart : (s.portStart b p).portRd b p (resultFlds b).2.2.1 = (s.portRd b p (resultFlds b).2.2.1 + 1) % 16 := by
  obtain ⟨iv, iy, iq, -⟩ := resultFlds_inPort b
  have hseps : (resultFlds b).2.2.1.sep (resultFlds b).1 = true ∧ (resultFlds b).2.2.1.sep (resultFlds b).2.1 = true ∧
      (resultFlds b).2.2.1.hi - (resultFlds b).2.2.1.lo + 1 = 4 := by cases b <;> decide
  obtain ⟨hqv, hqy, hwide⟩ := hseps
  unfold portStart
  rw [portRd_portWr_sep _ _ _ hqv iq iv, portRd_portWr_sep _ _ _ hqy iq iy, portRd_portWr_same _ _ _ iq, hwide]
  rfl

/-- A GO sets BUSY. -/
theorem portBusy_portStart : (s.portStart b p).portBusy b p = true := by
  obtain ⟨iv, iy, iq, -⟩ := resultFlds_inPort b
  have hseps : (resultFlds b).2.1.sep (resultFlds b).1 = true ∧ (resultFlds b).2.1.hi = (resultFlds b).2.1.lo := by
    cases b <;> decide
  unfold portStart portBusy
  rw [portRd_portWr_sep _ _ _ hseps.1 iy iv, portRd_portWr_same _ _ _ iy, hseps.2, Nat.sub_self]
  rfl

/-- A GO writes the port's RESULT alone. -/
theorem portRd_portStart (hf : f.inPort) (hoff : f.off ≠ (resultFlds b).1.off) :
    (s.portStart b p).portRd b p f = s.portRd b p f := by
  obtain ⟨iv, iy, iq, -⟩ := resultFlds_inPort b
  have hoffs : (resultFlds b).2.1.off = (resultFlds b).1.off ∧ (resultFlds b).2.2.1.off = (resultFlds b).1.off := by
    cases b <;> decide
  have hsep {g : Fld} (hg : g.inPort) (h : g.off = (resultFlds b).1.off) : f.sep g = true := by
    obtain ⟨⟨hf1, hf2⟩, -⟩ := hf
    obtain ⟨⟨hg1, hg2⟩, -⟩ := hg
    simp only [Fld.sep, Bool.or_eq_true, bne_iff_ne]
    omega
  unfold portStart
  rw [portRd_portWr_sep _ _ _ (hsep iv rfl) hf iv, portRd_portWr_sep _ _ _ (hsep iy hoffs.1) hf iy,
    portRd_portWr_sep _ _ _ (hsep iq hoffs.2) hf iq]

end State
end Sys2Proof.Machine
end

section
/-! PROOFS. Commands on a crew: the refusals and the heats -/

namespace Sys2Proof.Machine
namespace State
variable {s t : State} {p : Port} {c : Crew} {id : Nat}

/-! ## The commands on a crew that their checks refuse (R157) -/

/-- The command of an OP that acts on a crew. -/
theorem crewCommand_eq (i : Instr)
    (hi : i ∈ [Instr.update p true, .update p false, .run p, .park p, .resume p, .restart p, .reconfig p, .destroy p, .hint p])
    (s : State) : ∃ f, exec i s = .next (s.stwOn p f) := by
  simp only [List.mem_cons, List.not_mem_nil, or_false] at hi
  obtain rfl | rfl | rfl | rfl | rfl | rfl | rfl | rfl | rfl := hi <;> exact ⟨_, rfl⟩

theorem stwOn_of_bad_id (h : s.PortFree .stw p) (hc : s.crew (s.stwId p) = none) (f : State → Nat → Crew → State) :
    s.stwOn p f = (s.portStart .stw p).stwEnd p scBadId (s.stwId p) := by
  rw [stwOn, stwGo_of_free h]
  simp only [stwId_portStart, crew_portStart, hc, ite_self]

section
variable (h : s.PortFree .stw p) (hid : idOk (s.stwId p) = true) (hhalf : portServes p (idHalf (s.stwId p)) = true)
  (hc : s.crew (s.stwId p) = some c) (f : State → Nat → Crew → State)
include h hid hhalf hc

theorem stwOn_of_stranger (hact : mayAct (portOwner p) c.owner = false) :
    s.stwOn p f = (s.portStart .stw p).stwEnd p scNotOwner (s.stwId p) := by
  rw [stwOn, stwGo_of_free h]
  simp [hid, hhalf, hc, hact]

theorem stwOn_of_stale_heat (hact : mayAct (portOwner p) c.owner = true)
    (hheat : s.portRd .stw p STW_CMD_ARG_HEAT ≠ c.heat) :
    s.stwOn p f = (s.portStart .stw p).stwEnd p scStaleHeat (s.stwId p) := by
  have hstale : (s.portStart .stw p).portRd .stw p STW_CMD_ARG_HEAT ≠ c.heat := by
    rwa [portRd_portStart_stw s p rfl (by decide)]
  rw [stwOn, stwGo_of_free h]
  simp [hid, hhalf, hc, hact, hstale]

end

/-- A command that ends at its checks changes the port and the events of its completion. -/
theorem refused_unchanged (s : State) (p : Port) (code id : Nat) :
    Unchanged [.regs, .out, .host, .cox] s ((s.portStart .stw p).stwEnd p code id) :=
  (Upd.after stwEnd_upd rfl <| Upd.after portStart_upd rfl .refl).frame

/-! ## Heats (R127) -/

theorem heat_of_ids (h : t.ids = s.ids) (id : Nat) : t.heat id = s.heat id := by
  unfold heat; rw [h]

theorem crew_of_crews (h : t.crews = s.crews) (id : Nat) : t.crew id = s.crew id := by
  unfold crew; rw [h]

/-- Where a port takes a GO or does not, its command starts with the heats as they are. -/
theorem ids_toPort {b : PortBlock} {f : State → State} :
    ∃ u : State, u.ids = s.ids ∧ (s.toPort b p f = u ∨ s.toPort b p f = f u) := by
  cases p with
  | page h m =>
    have hgate : (s.gate m (portPage b (.page h m)) 0x40 true).2.ids = s.ids := gate_upd.frame .ids (by decide)
    show ∃ u : State, u.ids = s.ids ∧ (s.goTo m _ 0x40 (fun s => s) f = u ∨ s.goTo m _ 0x40 (fun s => s) f = f u)
    unfold goTo toPage
    generalize s.gate m (portPage b (.page h m)) 0x40 true = g at hgate
    refine ⟨g.2, hgate, ?_⟩
    split
    · dsimp only
      split
      · exact .inr rfl
      · exact .inl rfl
    · exact .inl rfl
  | vf n =>
    have hwake : (s.wakeSource 2).ids = s.ids := wakeSource_upd.frame .ids (by decide)
    show ∃ u : State, u.ids = s.ids ∧ (s.toVf n.toNat f = u ∨ s.toVf n.toNat f = f u)
    unfold toVf
    split
    · exact ⟨s, rfl, .inl rfl⟩
    · dsimp only
      split
      · exact ⟨_, hwake, .inl rfl⟩
      · exact ⟨_, hwake, .inr rfl⟩

theorem heat_newCrew (s : State) (id k : Nat) (c : Crew) : (s.newCrew id c).heat k = if k = id then c.heat else s.heat k := by
  have hids : (s.newCrew id c).ids = Tbl.put s.ids id ⟨c.heat, 0, false, []⟩ := settleOf_upd.frame .ids (by decide)
  unfold heat
  rw [hids, Tbl.find_put]
  split <;> rfl

/-- The heats after a CREATE: an ID's has advanced, or none has. -/
def HeatsAdvance (s t : State) : Prop :=
  (∀ id, t.heat id = s.heat id) ∨ ∃ id, t.heat id = (s.heat id + 1) % 16 ∧ ∀ k, k ≠ id → t.heat k = s.heat k

theorem HeatsAdvance.of_ids (h : t.ids = s.ids) : HeatsAdvance s t := .inl (heat_of_ids h)

theorem HeatsAdvance.after {u : State} (h : HeatsAdvance s t) (hids : u.ids = t.ids) : HeatsAdvance s u := by
  have hheat := heat_of_ids hids
  rcases h with h | ⟨id, h, hrest⟩
  · exact .inl fun k => (hheat k).trans (h k)
  · exact .inr ⟨id, (hheat id).trans h, fun k hk => (hheat k).trans (hrest k hk)⟩

theorem HeatsAdvance.of_start {u : State} (h : HeatsAdvance u t) (hids : u.ids = s.ids) : HeatsAdvance s t := by
  unfold HeatsAdvance at h ⊢
  simp only [heat_of_ids hids] at h
  exact h

theorem createAs_heats (s : State) (p : Port) (id : Nat) (ws : List Word) : HeatsAdvance s (s.createAs p id ws) := by
  have hnew : HeatsAdvance s (s.newCrew id (Crew.ofWords (s.nextHeat id) (portOwner p) ws)) :=
    .inr ⟨id, by rw [heat_newCrew, if_pos rfl]; rfl, fun k hk => by rw [heat_newCrew, if_neg hk]⟩
  unfold createAs
  dsimp only
  split
  · split
    · exact .of_ids (stwEnd_upd.frame .ids (by decide))
    · refine hnew.after ?_
      rw [waitPort_upd.frame .ids (by decide), boardPinned_upd.frame .ids (by decide), claimPorches_upd.frame .ids (by decide)]
  · have hend := hnew.after (stwEnd_upd (p := p) (code := scOk) (id := id).frame .ids (by decide))
    split
    · refine hend.after ?_
      rw [settlePorts_upd.frame .ids (by decide), wake_upd.frame .ids (by decide)]
    · exact hend

end State
end Sys2Proof.Machine
end

section
/-! PROOFS. O47, O48: refused commands and the heats -/

namespace Sys2Proof.Machine
open State

/-- Settles O47: the port's checks come before the command's own part. -/
theorem strangersAndStaleHeatsAreRefused : Obligations.StrangersAndStaleHeatsAreRefused := by
  intro s p c hfree hid hhalf hc i hi
  obtain ⟨f, hf⟩ := crewCommand_eq i hi s
  refine ⟨fun hact => ?_, fun hact hheat => ?_⟩
  · exact ⟨_, hf.trans (congrArg _ (stwOn_of_stranger hfree hid hhalf hc f hact)), stwEnd_answered _ _ (by decide),
      refused_unchanged _ _ _ _⟩
  · exact ⟨_, hf.trans (congrArg _ (stwOn_of_stale_heat hfree hid hhalf hc f hact hheat)), stwEnd_answered _ _ (by decide),
      refused_unchanged _ _ _ _⟩

namespace State
variable {s t : State} {p : Port} {c : Crew} {id : Nat}

theorem HeatsAdvance.ite {u : State} {q : Prop} [Decidable q] (ht : HeatsAdvance s t) (hu : HeatsAdvance s u) :
    HeatsAdvance s (if q then t else u) := by
  split <;> assumption

theorem stwEnd_heats (s : State) (p : Port) (code id : Nat) : HeatsAdvance s (s.stwEnd p code id) :=
  .of_ids (stwEnd_upd.frame .ids (by decide))

theorem createCmd_heats (s : State) (p : Port) : HeatsAdvance s (s.createCmd p) := by
  unfold createCmd stwGo
  obtain ⟨u, hu, hstop | hgo⟩ := ids_toPort (s := s) (b := .stw) (p := p) (f := fun s =>
    if s.portBusy .stw p || s.mode (idHalf (s.stwId p)) == mHalt then s else _)
  · rw [hstop]
    exact .of_ids hu
  · rw [hgo]
    have hstart : (u.portStart .stw p).ids = s.ids := (portStart_upd.frame .ids (by decide)).trans hu
    refine .ite (.of_ids hu) (.of_start ?_ hstart)
    generalize u.portStart .stw p = w
    refine .ite (stwEnd_heats ..) <| .ite (stwEnd_heats ..) <| .ite (stwEnd_heats ..) <| .ite (stwEnd_heats ..) <|
      .ite (stwEnd_heats ..) <| .ite (stwEnd_heats ..) <| .ite (createAs_heats ..) ?_
    split
    · exact createAs_heats ..
    · refine HeatsAdvance.of_ids ((stwEnd_upd.frame .ids (by decide)).trans ?_)
      split
      · exact raise_upd.frame .ids (by decide)
      · rfl

/-! ## The release of an ID (R128) -/

/-- A release takes the crew from the table and puts its heat, cooling, beside its ID. -/
theorem release_eq (h : s.crew id = some c) :
    ∃ (u : State) (x : IdRec), s.release id = u.settleOf id ∧ u.crew id = none ∧ u.ids = Tbl.put s.ids id x ∧
      x.heat = c.heat ∧ x.cooling = true := by
  obtain ⟨n, hn⟩ := crew_tally h
  simp only [release, hn]
  refine ⟨_, ⟨c.heat, _, true, _⟩, rfl, (Tbl.find_del ..).trans (if_pos rfl), congrArg (Tbl.put · id _) ?_, rfl, rfl⟩
  show (State.modAlloc _ _ _).ids = s.ids
  rw [modAlloc_upd.frame .ids (by decide), dropImage_upd.frame .ids (by decide), dropTlb_upd.frame .ids (by decide),
    detach_upd.frame .ids (by decide), stamp_upd.frame .ids (by decide), tally_upd.frame .ids (by decide)]

theorem release_crew (h : s.crew id = some c) : (s.release id).crew id = none := by
  obtain ⟨u, x, hr, hgone, -⟩ := release_eq h
  rw [hr, crew_of_crews (settleOf_upd.frame .crews (by decide)), hgone]

theorem release_ids (h : s.crew id = some c) :
    ∃ x : IdRec, (s.release id).ids = Tbl.put s.ids id x ∧ x.heat = c.heat ∧ x.cooling = true := by
  obtain ⟨u, x, hr, -, hids, hx⟩ := release_eq h
  exact ⟨x, by rw [hr, settleOf_upd.frame .ids (by decide), hids], hx⟩

theorem release_heat (h : s.crew id = some c) (k : Nat) : (s.release id).heat k = if k = id then c.heat else s.heat k := by
  obtain ⟨x, hids, hheat, -⟩ := release_ids h
  unfold heat
  rw [hids, Tbl.find_put]
  split
  · exact hheat
  · rfl

/-- DESTROY of a crew that waits releases its ID at once. -/
theorem destroyAt_waits (h : s.StwNames p id c) (hst : c.state = .parked ∨ c.state = .ready) :
    s.destroyAt p = (((s.portStart .stw p).release id).settlePorts).stwEnd p scOk id := by
  rw [destroyAt, stwOn_of_names h]
  obtain hst | hst := hst <;> simp only [hst]

end State
open State

/-- Settles O48: CREATE and DESTROY write the IDs' table, and a reset empties it. -/
theorem heatsAdvanceAtCreateAlone : Obligations.HeatsAdvanceAtCreateAlone := by
  refine ⟨fun s hoff hcel => ?_, fun s t p hexec => ?_, fun s p id c h hheat hst => ?_⟩
  · have hnot : ¬ (({ s with straps := { s.straps with rstLow := true } } : State).devMode = mOff ∨
        ({ s with straps := { s.straps with rstLow := true } } : State).devMode = mCellar) := not_or.mpr ⟨hoff, hcel⟩
    refine ⟨_, congrArg Host.Outcome.next (if_neg hnot), fun id => ?_⟩
    obtain ⟨-, -, -, -, hcrews, hids⟩ := boot_parts { s with straps := { s.straps with rstLow := true } } false true
    simp only [crew, heat, hcrews, hids]
    exact ⟨rfl, rfl⟩
  · obtain rfl : s.createCmd p = t := Host.Outcome.next.inj hexec
    exact createCmd_heats s p
  · have hc : (s.portStart .stw p).crew id = some c := (crew_portStart ..).trans h.crew
    refine ⟨_, congrArg Host.Outcome.next (destroyAt_waits h hst), ?_, fun k => ?_⟩
    · rw [crew_stwEnd, crew_settlePorts, release_crew hc]
    · rw [heat_of_ids (stwEnd_upd.frame .ids (by decide)), heat_of_ids (settlePorts_upd.frame .ids (by decide)), release_heat hc,
        heat_of_ids (portStart_upd.frame .ids (by decide))]
      split
      next hk => rw [hk, hheat]
      · rfl
end Sys2Proof.Machine
end

section
/-! PROOFS. The pages of the ports and what a GO leaves -/

namespace Sys2Proof.Machine
namespace State
variable {s t u : State} {p : Port} {c : Crew} {id : Nat}

/-! ## What a port's GO and answer leave -/

theorem portWr_regsIn {b : PortBlock} {f : Fld} {v : Nat} (hf : f.inPort) :
    RegsIn (ofPage (portPage b p)) s (s.portWr b p f v) := by
  have hshift := portShift_le b p
  obtain ⟨⟨-, hhi⟩, -⟩ := hf
  exact RegsIn.refl.wr (ofPage_at _ (by simp only [portFld]; omega))

theorem portStart_regsIn {b : PortBlock} : RegsIn (ofPage (portPage b p)) s (s.portStart b p) := by
  obtain ⟨iv, iy, iq, -⟩ := resultFlds_inPort b
  exact ((portWr_regsIn iq).trans (portWr_regsIn iy)).trans (portWr_regsIn iv)

/-- The pages of the ports stand apart from those of the halves' modes, of the design and of the Cellar. -/
theorem portPage_high (b : PortBlock) (p : Port) : 28 ≤ portPage b p ∧ (portPage b p < 34 ∨ 288 ≤ portPage b p) := by
  have hbit (h : Half) : halfBit h ≤ 1 := halfBit_le_one h
  cases p with
  | page h m =>
    have := hbit h
    cases b <;> simp only [portPage, pgStw, pgPgt, pgHat] <;> omega
  | vf n => cases b <;> simp only [portPage, pgVf, numPages] <;> omega

/-- A GO keeps the fields of every page below the ports'. -/
theorem rd_portStart_low {b : PortBlock} {q : Nat} {f : Fld} (hq : q < 28) (hf : f.off < 0x1000) :
    (s.portStart b p).rd q f = s.rd q f :=
  portStart_regsIn.rd_page (by have := (portPage_high b p).1; omega) hf

@[simp] theorem stwWindow_portStart (s : State) (p : Port) : (s.portStart .stw p).stwWindow p = s.stwWindow p := by
  unfold stwWindow
  refine List.map_congr_left fun i hi => ?_
  have hi16 : i < 16 := List.mem_range.mp hi
  rw [portRd_portStart _ _ _ ⟨⟨by simp only [Fld.at, STW_CMD_DESC_WORD]; omega, by simp only [Fld.at, STW_CMD_DESC_WORD]; omega⟩, rfl⟩]
  simp only [Fld.at, STW_CMD_DESC_WORD, resultFlds, STW_CMD_RESULT_VALID]
  omega

theorem orphan_portStart (b : PortBlock) (p : Port) (h : Half) : (s.portStart b p).orphan h = s.orphan h := by
  unfold orphan on
  rw [rd_portStart_low (by cases h <;> decide) (by decide)]

theorem runMode_congr {h : Half} (hm : t.rd (pgSys h) SYS_MODE_MODE = s.rd (pgSys h) SYS_MODE_MODE)
    (hp : t.rd (pgSys h) SYS_MODE_PREV = s.rd (pgSys h) SYS_MODE_PREV) : t.runMode h = s.runMode h := by
  unfold runMode mode
  rw [hm, hp]

theorem wingBusy_portStart (b : PortBlock) (p : Port) (w : Nat) : (s.portStart b p).wingBusy w = s.wingBusy w := by
  have hwings : (s.portStart b p).wings = s.wings := portStart_upd.frame .wings (by decide)
  have hstacks : (s.portStart b p).stackCtl = s.stackCtl := portStart_upd.frame .stackCtl (by decide)
  have hrun : (s.portStart b p).runMode .east = s.runMode .east :=
    runMode_congr (rd_portStart_low (by decide) (by decide)) (rd_portStart_low (by decide) (by decide))
  unfold wingBusy wing g2Mode
  rw [hwings, hstacks, hrun, rd_portStart_low (by decide) (by decide)]

/-! ## QUERY's count of the run time -/

/-- Counting a crew's run time advances RUN_US of a crew that runs, and changes no other crew. -/
theorem tally_crews (h : s.crew id = some c) :
    ∃ n, (s.tally id).crew id = some { c with runUs := n } ∧ (c.state ≠ .running → c.state ≠ .pinned → n = c.runUs) ∧
      ∀ j, j ≠ id → (s.tally id).crew j = s.crew j := by
  unfold tally
  simp only [h]
  split
  next hst =>
    refine ⟨_, (Tbl.find_put ..).trans (if_pos rfl), fun h1 h2 => absurd hst (by simp [h1, h2]), fun j hj => ?_⟩
    exact (Tbl.find_put ..).trans (if_neg hj)
  · exact ⟨c.runUs, h, fun _ _ => rfl, fun j _ => rfl⟩

/-- Words written into the descriptor's window are read back. -/
theorem portRd_descWords (s : State) (p : Port) (ws : List Word) (k i : Nat) (w : Word) (hk : k + ws.length ≤ 16)
    (hi : k ≤ i) (hw : ws[i - k]? = some w) :
    ((ws.zipIdx k).foldl (fun s (e : Word × Nat) => s.portWr .stw p (STW_CMD_DESC_WORD.at 4 e.2) e.1.toNat) s).portRd .stw p
      (STW_CMD_DESC_WORD.at 4 i) = w.toNat := by
  have hin (j : Nat) (hj : j < 16) : (STW_CMD_DESC_WORD.at 4 j).inPort :=
    ⟨⟨by simp only [Fld.at, STW_CMD_DESC_WORD]; omega, by simp only [Fld.at, STW_CMD_DESC_WORD]; omega⟩, rfl⟩
  have hkeep : ∀ (ws : List Word) (k : Nat) (u : State), i < k → k + ws.length ≤ 16 →
      ((ws.zipIdx k).foldl (fun s (e : Word × Nat) => s.portWr .stw p (STW_CMD_DESC_WORD.at 4 e.2) e.1.toNat) u).portRd .stw p
        (STW_CMD_DESC_WORD.at 4 i) = u.portRd .stw p (STW_CMD_DESC_WORD.at 4 i) := by
    intro ws
    induction ws with
    | nil => exact fun k u _ _ => rfl
    | cons x ws ih =>
      intro k u hik hk
      rw [List.length_cons] at hk
      rw [List.zipIdx_cons, List.foldl_cons, ih _ _ (by omega) (by omega)]
      refine portRd_portWr_sep _ _ _ ?_ (hin i (by omega)) (hin k (by omega))
      simp only [Fld.sep, Fld.at, STW_CMD_DESC_WORD, Bool.or_eq_true, bne_iff_ne]
      omega
  induction ws generalizing s k with
  | nil => simp at hw
  | cons x ws ih =>
    rw [List.length_cons] at hk
    rw [List.zipIdx_cons, List.foldl_cons]
    by_cases hik : i = k
    · subst hik
      rw [Nat.sub_self] at hw
      obtain rfl : x = w := by simpa using hw
      rw [hkeep _ _ _ (by omega) (by omega), portRd_portWr_same _ _ _ (hin i (by omega))]
      exact Nat.mod_eq_of_lt x.isLt
    · refine ih _ (k + 1) (by omega) (by omega) ?_
      rw [show i - k = (i - (k + 1)) + 1 by omega] at hw
      exact hw

end State
end Sys2Proof.Machine
end

section
/-! PROOFS. O17: the Steward's commands -/

namespace Sys2Proof.Machine
namespace State
variable {s t u : State} {p : Port} {c : Crew} {id : Nat}

theorem Answered.of_regs {b : PortBlock} {code : Nat} (h : t.Answered b p code) (hregs : u.regs = t.regs) :
    u.Answered b p code := by
  unfold Answered portBusy at *
  simpa only [portRd_of_regs hregs] using h

/-- CREATE of a swappable crew at a free ID that it names. -/
theorem createCmd_named (hfree : s.PortFree .stw p) (hname : noName p (s.stwId p) = false) (hid : idOk (s.stwId p) = true)
    (hhalf : portServes p (idHalf (s.stwId p)) = true) (hempty : s.crew (s.stwId p) = none)
    (hcool : ∀ x, Tbl.find s.ids (s.stwId p) = some x → x.cooling = false)
    (hc : c = Crew.ofWords (s.nextHeat (s.stwId p)) (portOwner p) (s.stwWindow p)) (hpin : c.isPinned = false)
    (hporch : c.porches = 0) (hstart : c.start = false) (hworld : c.world = false ∨ portOwner p = 0x101)
    (hdesc : (s.portStart .stw p).descOk (idHalf (s.stwId p)) (s.stwWindow p) c = true) :
    s.createCmd p = ((s.portStart .stw p).newCrew (s.stwId p) c).stwEnd p scOk (s.stwId p) := by
  have hids : (s.portStart .stw p).ids = s.ids := portStart_upd.frame .ids (by decide)
  have hnext : (s.portStart .stw p).nextHeat (s.stwId p) = s.nextHeat (s.stwId p) := by
    unfold nextHeat; rw [heat_of_ids hids]
  generalize hc0 : Crew.ofWords 0 (portOwner p) (s.stwWindow p) = c0
  have hsame : c0 = { c with heat := 0 } := by rw [hc, ← hc0]; rfl
  have hworld' : ¬ (c0.world && portOwner p != 0x101) = true := by
    rw [hsame]
    rcases hworld with h | h <;> simp [h]
  have hpin' : c0.isPinned = false := by rw [hsame]; exact hpin
  have hporch' : c0.porches = 0 := by rw [hsame]; exact hporch
  have hcool' : ((Tbl.find s.ids (s.stwId p)).map (·.cooling)).getD false = false := by
    cases hf : Tbl.find s.ids (s.stwId p) with
    | none => rfl
    | some x => exact hcool x hf
  have hdesc' : (s.portStart .stw p).descOk (idHalf (s.stwId p)) (s.stwWindow p) c0 = true := by rw [hsame]; exact hdesc
  have hok : (s.portStart .stw p).createOk (idHalf (s.stwId p)) (s.stwWindow p) c0 true = true := by
    simp [createOk, hdesc', hpin', hporch']
  rw [createCmd, stwGo_of_free hfree]
  simp only [stwId_portStart, stwWindow_portStart, crew_portStart, hids, hname, hid, hhalf, hempty, hcool', hc0, hworld', hpin', hok,
    g2Porches, hporch', Bool.not_false, Bool.true_and, Bool.not_true, Bool.false_and, Bool.false_eq_true, if_false, Option.isSome,
    Bool.or_false, if_true, Nat.zero_mod, bne_self_eq_false, Bool.and_false]
  simp only [createAs, hnext, ← hc, hpin, hstart, Bool.false_eq_true, if_false]

theorem crew_newCrew (s : State) (id : Nat) (c : Crew) : (s.newCrew id c).crew id = some c := by
  rw [newCrew, crew_of_crews (settleOf_upd.frame .crews (by decide))]
  exact (Tbl.find_put ..).trans (if_pos rfl)

/-- UPDATE that changes no field of the shape. -/
theorem crew_of_reshapes {n : Crew} {ws : List Word} (h : reshapes c n ws = false) :
    n.w = c.w ∧ n.h = c.h ∧ n.drain = c.drain ∧ n.planes = c.planes ∧ n.firstState = c.firstState ∧ n.savedState = c.savedState ∧
      n.emap = c.emap ∧ n.root = c.root := by
  simp [reshapes, and_assoc] at h
  exact h.2

/-- A command that waits on a crew whose state it already has is answered at once, where no other command waits. -/
theorem waitPort_settled {op code : Nat} (h : s.portOps = []) (hres :
      ({ s with portOps := [⟨p, .stw, op, id, s.heat id, false, [], 0, none⟩] } : State).stwResult
        ⟨p, .stw, op, id, s.heat id, false, [], 0, none⟩ = some code) (hcode : code < 16) :
    (s.waitPort p op id).Answered .stw p code := by
  unfold waitPort settlePorts
  simp only [h, List.nil_append, List.foldl_cons, List.foldl_nil, if_true, hres, Bool.false_eq_true, if_false]
  exact stwEnd_answered _ _ hcode

theorem wing_modWing (s : State) (w : Nat) (f : Wing → Wing) : (s.modWing w f).wing w = f (s.wing w) := by
  unfold wing modWing setWing
  exact (Tbl.get_store ..).trans (if_pos rfl)

theorem wing_of_wings (h : t.wings = s.wings) (w : Nat) : t.wing w = s.wing w := by
  unfold wing; rw [h]

theorem crew_modCrew_ne (s : State) (f : Crew → Crew) {j : Nat} (hj : j ≠ id) : (s.modCrew id f).crew j = s.crew j := by
  unfold crew modCrew
  exact (Tbl.find_mod ..).trans (if_neg hj)

/-- A reconfiguration in place starts: the crew's accesses no longer wait, and its wing has the sequence. -/
theorem startReconfig_did (h : s.crew id = some c) :
    (s.startReconfig id).crew id = some { c with waiting := false } ∧
      ((s.startReconfig id).wing (crewWing c)).swap =
        some ⟨.reconfig, 4, [id], c.suite, some (id, c.heat), c.suite, false, false, false, false⟩ ∧
      ∀ j, j ≠ id → (s.startReconfig id).crew j = s.crew j := by
  have hq : (s.quiesceRooms c.suite [id] false).crews = s.crews := quiesceRooms_upd.frame .crews (by decide)
  simp only [startReconfig, h]
  refine ⟨?_, ?_, fun j hj => ?_⟩
  · rw [crew_of_crews (modWing_upd.frame .crews (by decide)), crew_of_crews (modRooms_upd.frame .crews (by decide)),
      crew_of_crews (parkPorches_upd.frame .crews (by decide)), crew_of_crews (modRooms_upd.frame .crews (by decide))]
    refine crew_modCrew ?_ _
    exact (crew_of_crews hq id).trans h
  · rw [wing_modWing]
  · rw [crew_of_crews (modWing_upd.frame .crews (by decide)), crew_of_crews (modRooms_upd.frame .crews (by decide)),
      crew_of_crews (parkPorches_upd.frame .crews (by decide)), crew_of_crews (modRooms_upd.frame .crews (by decide))]
    refine (crew_modCrew_ne _ _ hj).trans ?_
    exact crew_of_crews hq j

theorem inPlace_of_wings (h : t.wings = s.wings) (id : Nat) (c : Crew) : t.inPlace id c = s.inPlace id c := by
  unfold inPlace wing; rw [h]

theorem StwNames.crew_started (h : s.StwNames p id c) : (s.portStart .stw p).crew id = some c :=
  (crew_portStart ..).trans h.crew

theorem crew_emptied (h : s.StwNames p id c) (hst : c.state = .ready) :
    ((s.portStart .stw p).parkCmd id c).crew id = some { c with wakePending := false, state := .parked } := by
  unfold parkCmd
  simp only [hst]
  exact crew_modCrew (crew_modCrew h.crew_started _) _

theorem parkCmd_ready_upd (s : State) (id : Nat) (hst : c.state = .ready) : Upd [.crews] s (s.parkCmd id c) := by
  unfold parkCmd
  simp only [hst]
  exact Upd.after modCrew_upd rfl modCrew_upd

/-! ## The commands of a port that names a crew (Table 4.13) -/

theorem create_acts (s : State) (p : Port) (c : Crew) (hfree : s.PortFree .stw p) (hname : noName p (s.stwId p) = false)
    (hid : idOk (s.stwId p) = true) (hhalf : portServes p (idHalf (s.stwId p)) = true) (hempty : s.crew (s.stwId p) = none)
    (hcool : ∀ x, Tbl.find s.ids (s.stwId p) = some x → x.cooling = false)
    (hc : c = Crew.ofWords (s.nextHeat (s.stwId p)) (portOwner p) (s.stwWindow p)) (hpin : c.isPinned = false)
    (hporch : c.porches = 0) (hstart : c.start = false) (hworld : c.world = false ∨ portOwner p = 0x101)
    (hdesc : (s.portStart .stw p).descOk (idHalf (s.stwId p)) (s.stwWindow p) c = true) :
    ∃ t, exec (.create p) s = .next t ∧ t.crew (s.stwId p) = some c ∧
      Tbl.find t.ids (s.stwId p) = some ⟨c.heat, 0, false, []⟩ ∧ t.Answered .stw p scOk ∧
      Unchanged [.regs, .out, .host, .crews, .ids, .cox, .hatches] s t := by
  refine ⟨_, congrArg Host.Outcome.next
    (createCmd_named hfree hname hid hhalf hempty hcool hc hpin hporch hstart hworld hdesc), ?_, ?_, stwEnd_answered _ _ (by decide),
    (Upd.after stwEnd_upd rfl <| Upd.after newCrew_upd rfl <| Upd.after portStart_upd rfl .refl).frame⟩
  · rw [crew_stwEnd, crew_newCrew]
  · rw [stwEnd_upd.frame .ids (by decide), newCrew, settleOf_upd.frame .ids (by decide)]
    exact (Tbl.find_put ..).trans (if_pos rfl)

/-- A field of the port that a Steward's answer does not set is as it was. -/
theorem portRd_stwEnd (s : State) {f : Fld} {code : Nat} (hf : f.inPort)
    (h : ∀ g ∈ [STW_CMD_RESULT_HEAT, STW_CMD_RESULT_ID, STW_CMD_RESULT_VALID, STW_CMD_RESULT_BUSY, STW_CMD_RESULT_CODE],
      f.sep g = true) : (s.stwEnd p code id).portRd .stw p f = s.portRd .stw p f := by
  refine portRd_portEnd_sep s .stw p hf (fun e he => ?_) (h _ (by decide)) (h _ (by decide)) (h _ (by decide))
  simp only [List.mem_cons, List.not_mem_nil, or_false] at he
  have hin : STW_CMD_RESULT_HEAT.inPort ∧ STW_CMD_RESULT_ID.inPort := by decide
  obtain rfl | rfl := he
  · exact ⟨h STW_CMD_RESULT_HEAT (by decide), hin.1⟩
  · exact ⟨h STW_CMD_RESULT_ID (by decide), hin.2⟩

/-- Words written into the descriptor's window of a port. -/
def descShown (s : State) (p : Port) (ws : List Word) : State :=
  ws.zipIdx.foldl (fun (s : State) (e : Word × Nat) => s.portWr .stw p (STW_CMD_DESC_WORD.at 4 e.2) e.1.toNat) s

theorem descShown_upd {ws : List Word} : Upd [.regs] s (s.descShown p ws) :=
  Upd.foldl (fun _ _ ht => Upd.after portWr_upd rfl ht) _ .refl

theorem query_acts (s : State) (p : Port) (id : Nat) (c : Crew) (h : s.StwNames p id c) :
    ∃ t n, exec (.query p) s = .next t ∧ t.Answered .stw p scOk ∧ t.crew id = some { c with runUs := n } ∧
      (c.state ≠ .running → c.state ≠ .pinned → n = c.runUs) ∧
      (∀ i w, i < 16 → ({ c with runUs := n }.words id)[i]? = some w →
        t.portRd .stw p (STW_CMD_DESC_WORD.at 4 i) = w.toNat) ∧ (∀ j, j ≠ id → t.crew j = s.crew j) ∧
      Unchanged [.regs, .out, .host, .draws, .crews, .cox] s t := by
  obtain ⟨n, hn, hrun, hrest⟩ := tally_crews h.crew_started
  have hop : s.queryCmd p = (((s.portStart .stw p).tally id).descShown p ({ c with runUs := n }.words id)).stwEnd p scOk id := by
    rw [queryCmd, stwGo_of_free h.free]
    simp only [stwId_portStart, h.arg, h.ok, h.half, h.crew_started, h.owner, hn, Option.getD_some, Bool.and_self, Bool.not_true,
      Bool.false_eq_true, if_false, descShown]
  have hcrews (v : State) (ws : List Word) : (v.descShown p ws).crews = v.crews := descShown_upd.frame .crews (by decide)
  refine ⟨_, n, congrArg Host.Outcome.next hop, stwEnd_answered _ _ (by decide), ?_, hrun, fun i w hi hw => ?_, fun j hj => ?_,
    (Upd.after stwEnd_upd rfl <| Upd.after descShown_upd rfl <| Upd.after tally_upd rfl <| Upd.after portStart_upd rfl .refl).frame⟩
  · rw [crew_stwEnd, crew_of_crews (hcrews ..), hn]
  · have hin : (STW_CMD_DESC_WORD.at 4 i).inPort :=
      ⟨⟨by simp only [Fld.at, STW_CMD_DESC_WORD]; omega, by simp only [Fld.at, STW_CMD_DESC_WORD]; omega⟩, rfl⟩
    have hoff (g : Fld) (hg : g.off = 0x48) : (STW_CMD_DESC_WORD.at 4 i).sep g = true := by
      simp only [Fld.sep, Fld.at, STW_CMD_DESC_WORD, hg, Bool.or_eq_true, bne_iff_ne]
      omega
    have hsep : ∀ g ∈ [STW_CMD_RESULT_HEAT, STW_CMD_RESULT_ID, STW_CMD_RESULT_VALID, STW_CMD_RESULT_BUSY, STW_CMD_RESULT_CODE],
        g.off = 0x48 := by decide
    rw [portRd_stwEnd _ hin fun g hg => hoff g (hsep g hg), descShown, portRd_descWords _ _ _ 0 i w (by simp [Crew.words]) (Nat.zero_le _) hw]
  · rw [crew_stwEnd, crew_of_crews (hcrews ..), hrest j hj, crew_portStart]

theorem update_acts (s : State) (p : Port) (id : Nat) (c n : Crew) (h : s.StwNames p id c) (hpin : c.isPinned = false)
    (hn : n = Crew.ofWords c.heat c.owner (s.stwWindow p)) (hshape : reshapes c n (s.stwWindow p) = false)
    (hdesc : (s.portStart .stw p).descOk (idHalf id) (s.stwWindow p) n = true) :
    ∃ t, exec (.update p false) s = .next t ∧ t.Answered .stw p scOk ∧
      t.crew id = some { c with
        prio := n.prio, slice := n.slice, wingMask := n.wingMask, parkOnIdle := n.parkOnIdle,
        wakeOnNotice := n.wakeOnNotice, autoReset := n.autoReset, faultHatch := n.faultHatch, growLimit := n.growLimit
        newMask := c.newMask || n.wingMask != c.wingMask } ∧
      Unchanged [.regs, .out, .host, .crews, .cox] s t := by
  obtain ⟨hw, hh, hdrain, hplanes, hfirst, hsaved, hemap, hroot⟩ := crew_of_reshapes hshape
  have hop : s.updateCmd p false = ((s.portStart .stw p).modCrew id fun c =>
        { c with prio := n.prio, slice := n.slice, wingMask := n.wingMask, parkOnIdle := n.parkOnIdle,
                 wakeOnNotice := n.wakeOnNotice, autoReset := n.autoReset, faultHatch := n.faultHatch, growLimit := n.growLimit,
                 w := n.w, h := n.h, drain := n.drain, planes := n.planes, firstState := n.firstState,
                 savedState := n.savedState, emap := n.emap, root := n.root,
                 rewritten := c.rewritten || (false && !c.suite.isEmpty), newImage := c.newImage || false
                 newMask := c.newMask || n.wingMask != c.wingMask }).stwEnd p scOk id := by
    rw [updateCmd, stwOn_of_names h]
    simp only [stwWindow_portStart, ← hn, hshape, hdesc, hpin, hplanes, bne_self_eq_false, Bool.or_self, Bool.false_and, Bool.not_true,
      Bool.false_eq_true, if_false]
  refine ⟨_, congrArg Host.Outcome.next hop, stwEnd_answered _ _ (by decide), ?_,
    (Upd.after stwEnd_upd rfl <| Upd.after modCrew_upd rfl <| Upd.after portStart_upd rfl .refl).frame⟩
  rw [crew_stwEnd, crew_modCrew h.crew_started, hw, hh, hdrain, hplanes, hfirst, hsaved, hemap, hroot, Bool.false_and, Bool.or_false,
    Bool.or_false]

theorem run_acts (s : State) (p : Port) (id : Nat) (c : Crew) (h : s.StwNames p id c) (hst : c.state = .ready) :
    ∃ t, exec (.run p) s = .next t ∧ t.Answered .stw p scOk ∧ t.crew id = some { c with wakePending := true } ∧
      Unchanged [.regs, .out, .host, .crews, .cox] s t := by
  have hop : s.runAt p = ((s.portStart .stw p).stwEnd p scOk id).modCrew id fun c => { c with wakePending := true } := by
    rw [runAt_of_names h (by simp [runOk, hst]), runCmd]
    simp only [hst]
  refine ⟨_, congrArg Host.Outcome.next hop, ?_, crew_modCrew (h.crew_answered _) _,
    (Upd.after modCrew_upd rfl <| Upd.after stwEnd_upd rfl <| Upd.after portStart_upd rfl .refl).frame⟩
  exact (stwEnd_answered _ _ (by decide)).of_regs rfl

theorem park_acts (s : State) (p : Port) (id : Nat) (c : Crew) (h : s.StwNames p id c) (hst : c.state = .ready) :
    ∃ t, exec (.park p) s = .next t ∧ t.crew id = some { c with wakePending := false, state := .parked } ∧
      (s.portOps = [] → s.heat id = c.heat → t.Answered .stw p scOk) ∧
      Unchanged [.regs, .out, .host, .crews, .portOps, .cox] s t := by
  have hcrew := crew_emptied h hst
  refine ⟨_, congrArg Host.Outcome.next (parkAt_of_names h (by simp [parkOk, hst])), by rw [crew_waitPort, hcrew], fun hops _ => ?_, ?_⟩
  · have hupd : Upd [.regs, .crews] s ((s.portStart .stw p).parkCmd id c) :=
      Upd.after (parkCmd_ready_upd _ id hst) rfl <| Upd.after portStart_upd rfl .refl
    generalize (s.portStart .stw p).parkCmd id c = u at hcrew hupd
    refine waitPort_settled ((hupd.frame .portOps (by decide)).trans hops) ?_ (by decide)
    have hlive : ({ u with portOps := [⟨p, .stw, 5, id, u.heat id, false, [], 0, none⟩] } : State).crewLive id (u.heat id) = true := by
      have hsome : (u.crew id).isSome = true := by rw [hcrew]; rfl
      exact Bool.and_eq_true_iff.mpr ⟨hsome, beq_self_eq_true (u.heat id)⟩
    have hfind : ({ u with portOps := [⟨p, .stw, 5, id, u.heat id, false, [], 0, none⟩] } : State).crew id = _ := hcrew
    simp only [stwResult, hlive, hfind, if_true]
  · exact (Upd.after waitPort_upd rfl <| Upd.after (parkCmd_ready_upd _ id hst) rfl <| Upd.after portStart_upd rfl .refl).frame

theorem resume_acts (s : State) (p : Port) (id : Nat) (c : Crew) (h : s.StwNames p id c) (hpin : c.isPinned = false)
    (hok : (s.portStart .stw p).resumeOk id c = true) (hfrozen : s.frozenCrew id = false) :
    ∃ t, exec (.resume p) s = .next t ∧ t.Answered .stw p scOk ∧ t.crew id = some { c with state := .parked, fault := 0 } ∧
      Unchanged [.regs, .out, .host, .crews, .cox] s t := by
  have hsec : (s.portStart .stw p).frozenCrew id = false := by
    unfold frozenCrew
    rw [portStart_upd.frame .security (by decide)]
    exact hfrozen
  have hop : s.resumeAt p = ((s.portStart .stw p).modCrew id fun c => { c with state := .parked, fault := 0 }).stwEnd p scOk id := by
    rw [resumeAt, stwOn_of_names h]
    simp only [hok, hsec, hpin, Bool.not_true, Bool.false_eq_true, if_false]
  exact ⟨_, congrArg Host.Outcome.next hop, stwEnd_answered _ _ (by decide), by rw [crew_stwEnd, crew_modCrew h.crew_started],
    (Upd.after stwEnd_upd rfl <| Upd.after modCrew_upd rfl <| Upd.after portStart_upd rfl .refl).frame⟩

theorem restart_acts (s : State) (p : Port) (id : Nat) (c : Crew) (h : s.StwNames p id c) (hpin : c.isPinned = false)
    (hok : restartOk c = true) (hfrozen : s.frozenCrew id = false) :
    ∃ t, exec (.restart p) s = .next t ∧ t.Answered .stw p scOk ∧
      t.crew id = some { c with state := .parked, fault := 0, useFirst := true } ∧
      Unchanged [.regs, .out, .host, .crews, .wings, .cox] s t := by
  have hsec : (s.portStart .stw p).frozenCrew id = false := by
    unfold frozenCrew
    rw [portStart_upd.frame .security (by decide)]
    exact hfrozen
  have hop : s.restartAt p = (((s.portStart .stw p).modCrew id fun c =>
      { c with state := .parked, fault := 0, useFirst := true }).dropStaged id).stwEnd p scOk id := by
    rw [restartAt, stwOn_of_names h]
    simp only [hok, hsec, hpin, Bool.not_true, Bool.false_and, Bool.false_eq_true, if_false]
  refine ⟨_, congrArg Host.Outcome.next hop, stwEnd_answered _ _ (by decide), ?_,
    (Upd.after stwEnd_upd rfl <| Upd.after dropStaged_upd rfl <| Upd.after modCrew_upd rfl <| Upd.after portStart_upd rfl .refl).frame⟩
  rw [crew_stwEnd, crew_of_crews (dropStaged_upd.frame .crews (by decide)), crew_modCrew h.crew_started]

theorem reconfig_acts (s : State) (p : Port) (id : Nat) (c : Crew) (h : s.StwNames p id c) (hst : c.state = .pinned)
    (horph : s.orphan (idHalf id) = false) (hplace : s.inPlace id c = false) (hbusy : s.wingBusy (crewWing c) = false) :
    ∃ t, exec (.reconfig p) s = .next t ∧ t.crew id = some { c with waiting := false } ∧
      (t.wing (crewWing c)).swap =
        some ⟨.reconfig, 4, [id], c.suite, some (id, c.heat), c.suite, false, false, false, false⟩ ∧
      (∀ j, j ≠ id → t.crew j = s.crew j) ∧
      Unchanged [.regs, .out, .doorway, .porches, .host, .rooms, .fabric, .sigs, .blocks, .crews, .wings, .portOps, .reads,
        .cox, .gallery] s t := by
  have hop : s.reconfigAt p = ((s.portStart .stw p).startReconfig id).waitPort p 8 id := by
    rw [reconfigAt, stwOn_of_names h]
    simp only [reconfigSoon, orphan_portStart, horph, hst, inPlace_of_wings (portStart_upd.frame .wings (by decide)), hplace,
      wingBusy_portStart, hbusy, Bool.and_false, Bool.false_eq_true, ne_eq, not_true_eq_false, if_false]
  obtain ⟨hcrew, hswap, hrest⟩ := startReconfig_did h.crew_started
  refine ⟨_, congrArg Host.Outcome.next hop, by rw [crew_waitPort, hcrew], ?_, fun j hj => ?_,
    (Upd.after waitPort_upd rfl <| Upd.after startReconfig_upd rfl <| Upd.after portStart_upd rfl .refl).frame⟩
  · rw [wing_of_wings (waitPort_upd.frame .wings (by decide)), hswap]
  · rw [crew_waitPort, hrest j hj, crew_portStart]

end State
open State

/-- Settles O17, command by command. -/
theorem stewardCommandsAct : Obligations.StewardCommandsAct := by
  refine ⟨create_acts, query_acts, update_acts, run_acts, park_acts, resume_acts, restart_acts, reconfig_acts,
    fun s p id c h hst => ?_, fun s p id c h hst => ?_, fun s p o hfree ho => ?_, fun s p hfree hempty i hi => ?_⟩
  · have hc := h.crew_started
    obtain ⟨x, hids, hheat, hcool⟩ := release_ids hc
    refine ⟨_, congrArg Host.Outcome.next (destroyAt_waits h hst), stwEnd_answered _ _ (by decide), ?_, ⟨x, ?_, hheat, hcool⟩, ?_, ?_⟩
    · rw [crew_stwEnd, crew_settlePorts, release_crew hc]
    · rw [stwEnd_upd.frame .ids (by decide), settlePorts_upd.frame .ids (by decide), hids]
      exact (Tbl.find_put ..).trans (if_pos rfl)
    · rw [stwEnd_upd.frame .mem (by decide), settlePorts_upd.frame .mem (by decide), release_upd.frame .mem (by decide),
        portStart_upd.frame .mem (by decide)]
    · rw [stwEnd_upd.frame .fabric (by decide), settlePorts_upd.frame .fabric (by decide), release_upd.frame .fabric (by decide),
        portStart_upd.frame .fabric (by decide)]
  · have hok : hintOk c = true := by obtain hst | hst := hst <;> simp [hintOk, hst]
    have hop : s.hintAt p = ((s.portStart .stw p).stwEnd p scOk id).hint id := by
      rw [hintAt, stwOn_of_names h, if_pos hok]
    have hend : Upd [.regs, .out, .host, .cox] s ((s.portStart .stw p).stwEnd p scOk id) :=
      Upd.after stwEnd_upd rfl <| Upd.after portStart_upd rfl .refl
    exact ⟨_, congrArg Host.Outcome.next hop, stwEnd_answered _ _ (by decide), hend.frame,
      (hint_upd.frame .crews (by decide)).trans (hend.frame .crews (by decide)),
      (hint_upd.frame .mem (by decide)).trans (hend.frame .mem (by decide))⟩
  · have ho' : o.toNat = 0 ∨ 11 ≤ o.toNat := ho.imp (fun h => by rw [h]; rfl) id
    refine ⟨_, congrArg Host.Outcome.next ((if_pos ho').trans (stwGo_of_free hfree _)), stwEnd_answered _ _ (by decide), ?_,
      refused_unchanged _ _ _ _⟩
    exact (portRd_stwEnd _ (by decide) (by decide)).trans (seq_portStart s .stw p)
  · obtain ⟨f, hf⟩ := crewCommand_eq i hi s
    exact ⟨_, hf.trans (congrArg _ (stwOn_of_bad_id hfree hempty f)), stwEnd_answered _ _ (by decide), refused_unchanged _ _ _ _⟩
end Sys2Proof.Machine
end

section
/-! PROOFS. O18: doorbells, room requests, landing caches and ring oscillators -/

namespace Sys2Proof.Machine

theorem Both.get_set_same {α : Type} (b : Both α) (h : Half) (x : α) : (b.set h x).get h = x := by cases h <;> rfl

namespace State
variable {s t u : State} {p : Port} {c : Crew} {id : Nat}

/-! ## Doorbells (R147, R148) -/

theorem toBar2_of_served {fn : Nat} (h : s.BellServed fn) (f : State → State) : s.toBar2 fn f = f s := by
  obtain ⟨hvfs, hfns, hmode, hsb⟩ := h
  by_cases h0 : fn = 0
  · have hon : ¬ (s.mode .east = mOff ∨ s.mode .east = mCellar) := by
      rintro (hm | hm) <;> rw [hm] at hmode <;> revert hmode <;> decide
    have hopen : ¬ (s.security.fns.contains 0 = true ∨ (!(inService (s.mode .east) || s.mode .east == mStartup)) = true) := by
      subst h0
      simp only [not_or, List.contains_iff_mem, Bool.not_eq_true', Bool.not_eq_false, Bool.or_eq_true, beq_iff_eq]
      exact ⟨hfns, hmode⟩
    simp only [toBar2, h0, ne_eq, not_true_eq_false, wakeSource_of_not_standby hsb, if_neg hon, if_neg hopen, if_false]
  · rw [toBar2, if_pos h0]
    exact toVf_of_served ⟨h0, hvfs, hfns, hmode, hsb⟩ f

/-- A doorbell that names a crew does what its OP says, and one of an OP that is not defined is dropped. -/
theorem doorbell_of_names {fn heat : Nat} (h : s.BellNames fn id heat c) (op : Nat) :
    s.doorbell fn id heat op =
      if op = 1 ∨ op = 2 ∨ op = 3 then s.doorbellOp id c op else s.bump (pgStw (idHalf id)) STW_DB_DROP_DROPPED := by
  have hreach : ¬ (s.mode (idHalf id) = mHalt ∨ (idHalf id = .west ∧ ((!s.galleryUp) = true ∨ s.cut .east = true))) := by
    rintro (hm | ⟨hw, hg⟩)
    · exact h.mode hm
    · rcases h.reach with he | ⟨hup, hcut⟩
      · rw [he] at hw; cases hw
      · simp [hup, hcut] at hg
  rw [doorbell, toBar2_of_served h.served]
  dsimp only
  rw [if_neg hreach]
  simp only [h.ok, h.crew, h.heat, h.world, h.owner, if_true, if_false, ne_eq, not_true_eq_false, bne_self_eq_false,
    Bool.false_eq_true, Bool.not_true, Bool.false_or]
  by_cases ho : op = 1 ∨ op = 2 ∨ op = 3
  · have hb : ((op == 1 || op == 2) || op == 3) = true := by simpa [or_assoc] using ho
    rw [if_pos ho, hb]
    rfl
  · have hb : ((op == 1 || op == 2) || op == 3) = false :=
      Bool.eq_false_iff.mpr fun hb => ho (by simpa [or_assoc] using hb)
    rw [if_neg ho, hb]
    rfl

/-! ## Answers of waiting commands, and the fields they leave -/

/-- The registers that the answer of a command port writes: its RESULT, and the event of a page or of a function. -/
def portAnswer (a : Nat) : Prop := a % 0x1000 = 0x48 ∨ a % 0x1000 = 0x10 ∨ a % 0x1000 = 0x300

theorem stwEnd_regsIn (s : State) (p : Port) (code id : Nat) : RegsIn portAnswer s (s.stwEnd p code id) := by
  have hwr {u : State} {f : Fld} {v : Nat} (hu : RegsIn portAnswer s u) (hf : f.off = 0x48) :
      RegsIn portAnswer s (u.portWr .stw p f v) := by
    refine hu.wr (.inl ?_)
    rw [portFld_stw, hf]
    omega
  unfold stwEnd portEnd
  simp only [resultFlds, List.cons_append, List.nil_append, List.foldl_cons, List.foldl_nil]
  have hall : RegsIn portAnswer s (((((s.portWr .stw p STW_CMD_RESULT_HEAT (s.heat id)).portWr .stw p STW_CMD_RESULT_ID id).portWr
      .stw p STW_CMD_RESULT_CODE code).portWr .stw p STW_CMD_RESULT_BUSY 0).portWr .stw p STW_CMD_RESULT_VALID 1) :=
    hwr (hwr (hwr (hwr (hwr .refl rfl) rfl) rfl) rfl) rfl
  generalize ((((s.portWr .stw p STW_CMD_RESULT_HEAT (s.heat id)).portWr .stw p STW_CMD_RESULT_ID id).portWr
      .stw p STW_CMD_RESULT_CODE code).portWr .stw p STW_CMD_RESULT_BUSY 0).portWr .stw p STW_CMD_RESULT_VALID 1 = u at hall
  cases p with
  | page h m => exact hall.raise (.inr (.inl (by omega)))
  | vf n =>
    have hirq (x : Nat) : RegsIn portAnswer s (u.wr (pgVf n.toNat) VFP_VF_IRQ_IRQ x) :=
      hall.wr (.inr (.inr (by simp only [VFP_VF_IRQ_IRQ]; omega)))
    simp only [portEvent]
    split
    · exact hall
    · split
      · exact (hirq _).after (msix_upd.frame .regs (by decide))
      · exact hirq _

theorem settlePorts_regsIn (s : State) : RegsIn portAnswer s s.settlePorts := by
  unfold settlePorts
  refine RegsIn.refl.foldl fun u o _ hu => ?_
  split
  · split
    · exact hu
    · dsimp only
      split
      · exact hu.after rfl
      · exact RegsIn.trans (t := { u with portOps := u.portOps.erase o }) (hu.after rfl) (stwEnd_regsIn _ _ _ _)
  · exact hu

theorem rd_settlePorts (s : State) {q : Nat} {f : Fld} (hf : f.off < 0x1000 ∧ f.off ≠ 0x48 ∧ f.off ≠ 0x10 ∧ f.off ≠ 0x300) :
    s.settlePorts.rd q f = s.rd q f :=
  (settlePorts_regsIn s).rd (by unfold portAnswer; omega)

/-! ## Retirement of a room (R118) -/

theorem room_modRoom (s : State) {r : Nat} (hr : r % 256 < 192) (f : Room → Room) : (s.modRoom r f).room r = f (s.room r) := by
  unfold modRoom setRoom
  rw [if_pos hr, room, if_pos hr]
  exact (Tbl.get_store ..).trans (if_pos rfl)

theorem room_of_rooms (h : t.rooms = s.rooms) (r : Nat) : t.room r = s.room r := by
  unfold room; rw [h]

/-- A room that is retired in service is listed by the leader, or by the half that cannot reach it. -/
theorem retireRoom_did (s : State) {r : Nat} (hr : r % 256 < 192) :
    ((s.retireRoom r 3).room r).state = .retired ∧ ((s.retireRoom r 3).room r).retire = 3 ∧
      ∃ n, (r, n) ∈ (s.retireRoom r 3).attic.rooms ∨ s.orphan (roomHalf r) = true ∧ (r, n) ∈ (s.retireRoom r 3).gallery.rooms := by
  generalize hx : (fun x : Room => { x with state := .retired, retire := 3, crew := 0, heat := 0, pos := 0 }) = f
  have hroom := room_modRoom s hr f
  have horph : (s.modRoom r f).orphan (roomHalf r) = s.orphan (roomHalf r) := by
    unfold orphan on; rw [rd_modRoom]
  have hdone : ((s.modRoom r f).room r).state = .retired ∧ ((s.modRoom r f).room r).retire = 3 := by
    rw [hroom, ← hx]; exact ⟨rfl, rfl⟩
  unfold retireRoom
  rw [hx]
  generalize s.modRoom r f = u at *
  dsimp only
  by_cases hlist : u.attic.rooms.any (fun e => e.1 == r) = true
  · rw [if_pos (.inr hlist)]
    obtain ⟨e, he, heq⟩ := List.any_eq_true.mp hlist
    refine ⟨hdone.1, hdone.2, e.2, .inl ?_⟩
    rwa [show r = e.1 from (beq_iff_eq.mp heq).symm]
  · rw [if_neg (by simp only [hlist]; decide)]
    by_cases ho : u.orphan (roomHalf r) = true
    · rw [if_pos ho]
      exact ⟨hdone.1, hdone.2, 3, .inr ⟨horph ▸ ho, List.mem_append_right _ (.head _)⟩⟩
    · rw [if_neg ho]
      exact ⟨hdone.1, hdone.2, 3, .inl (List.mem_append_right _ (.head _))⟩

theorem rd_retireEnd (s : State) (h : Half) (status reason q : Nat) (f : Fld) :
    (s.retireEnd h status reason).rd q f =
      ((s.wr (pgStw h) STW_ROOM_RETIRE_STATUS status).wr (pgStw h) STW_ROOM_RETIRE_REASON reason).rd q f := by
  unfold retireEnd
  exact rd_mk _ q f

theorem retireEnd_reads (s : State) (h : Half) {status reason : Nat} (hs : status < 4) (hr : reason < 16) :
    (s.retireEnd h status reason).rd (pgStw h) STW_ROOM_RETIRE_STATUS = status ∧
      (s.retireEnd h status reason).rd (pgStw h) STW_ROOM_RETIRE_REASON = reason := by
  rw [rd_retireEnd, rd_retireEnd]
  refine ⟨?_, rd_wr_fit _ _ rfl hr⟩
  rw [rd_wr_sep _ _ _ _ _ _ rfl rfl rfl]
  exact rd_wr_fit _ _ rfl hs

/-- STW.ROOM_RETIRE's GO records the room, and the request acts at once. -/
theorem retireGo_of_idle {h : Half} {r : Nat} (hidle : s.rd (pgStw h) STW_ROOM_RETIRE_STATUS ≠ 1)
    (hr : s.rd (pgStw h) STW_ROOM_RETIRE_ROOM = r) :
    ∃ u : State, s.retireGo h = (u.retireAct h).settlePorts ∧ u.retiring.get h = some r ∧ u.rooms = s.rooms ∧ u.attic = s.attic ∧
      u.orphan h = s.orphan h := by
  unfold retireGo
  rw [if_neg hidle, hr]
  refine ⟨_, rfl, ?_, ?_, ?_, ?_⟩
  · rw [wrs_upd.frame .retiring (by decide)]
    exact Both.get_set_same ..
  · rw [wrs_upd.frame .rooms (by decide)]
  · rw [wrs_upd.frame .attic (by decide)]
  · unfold orphan on
    rw [wrs_cons, wrs_cons, wrs_nil, rd_wr_page _ _ _ _ _ _ (by cases h <;> decide) (by decide) (by decide),
      rd_wr_page _ _ _ _ _ _ (by cases h <;> decide) (by decide) (by decide)]
    rfl

theorem roomRetire_store (h : Half) (r : BitVec 12) :
    (s.wr (pgStw h) STW_ROOM_RETIRE_ROOM r.toNat).rd (pgStw h) STW_ROOM_RETIRE_ROOM = r.toNat ∧
      (s.wr (pgStw h) STW_ROOM_RETIRE_ROOM r.toNat).rd (pgStw h) STW_ROOM_RETIRE_STATUS = s.rd (pgStw h) STW_ROOM_RETIRE_STATUS ∧
      (s.wr (pgStw h) STW_ROOM_RETIRE_ROOM r.toNat).orphan h = s.orphan h := by
  refine ⟨rd_wr_fit _ _ rfl r.isLt, rd_wr_sep _ _ _ _ _ _ rfl rfl rfl, ?_⟩
  unfold orphan on
  rw [rd_wr_page _ _ _ _ _ _ (by cases h <;> decide) (by decide) (by decide)]

/-- The effect of STW.ROOM_RETIRE where its GO acts and no request is under way. -/
theorem execRoomRetire_of_idle {m : Master} {h : Half} {r : BitVec 12} (ht : s.Takes m (pgStw h) 0x404)
    (hidle : s.rd (pgStw h) STW_ROOM_RETIRE_STATUS ≠ 1) :
    ∃ u : State, exec (.roomRetire m h r) s = .next (u.retireAct h).settlePorts ∧ u.retiring.get h = some r.toNat ∧
      u.rooms = s.rooms ∧ u.orphan h = s.orphan h := by
  obtain ⟨hroom, hstat, horph⟩ := roomRetire_store (s := s) h r
  obtain ⟨u, hu, hret, hrooms, -, huorph⟩ := retireGo_of_idle (by rwa [hstat]) hroom
  have hgo := goTo_of_takes_store ht (store := fun s => s.wr (pgStw h) STW_ROOM_RETIRE_ROOM r.toNat)
    (by unfold on; rw [rd_wr_sep _ _ _ _ _ _ rfl rfl rfl]) fun s => s.retireGo h
  exact ⟨u, congrArg Host.Outcome.next (hgo.trans hu), hret, hrooms, huorph.trans horph⟩

/-! ## Ring oscillators (R124) -/

theorem rd_ite {q : Prop} [Decidable q] (pg : Nat) (f : Fld) : (if q then s else t).rd pg f = if q then s.rd pg f else t.rd pg f :=
  apply_ite (·.rd pg f) q s t

/-- Outside RUN-G2, or in another wing than E0, ROSC_CTRL takes the enables written; an oscillator turned off loses VALID. -/
theorem roscCtrl_reads {w v : Nat} (hg2 : w ≠ 0 ∨ s.g2Mode = false) :
    (s.roscCtrl w v).rd (pgWng w) WNG_ROSC_CTRL_EN = v % 16 ∧ (s.roscCtrl w v).rd (pgWng w) WNG_ROSC_CTRL_WINDOW = v / 256 % 256 ∧
      ∀ b, b < 4 → v.testBit b = false → (s.roscCtrl w v).rd (pgWng w) (WNG_ROSC_COUNT_VALID.at 4 b) = 0 := by
  have hen : ¬ (w = 0 ∧ s.g2Mode = true) := by
    rintro ⟨hw, hg⟩
    rcases hg2 with h | h <;> simp_all
  have hlow : v % 16 < 2 ^ 4 := Nat.mod_lt _ (by decide)
  unfold roscCtrl
  simp only [if_neg hen, list_range_four, List.foldl_cons, List.foldl_nil, wrs_cons, wrs_nil]
  refine ⟨?_, ?_, fun b hb hbit => ?_⟩
  · simp (disch := decide) only [rd_ite, rd_wr_sep, ite_self]
    exact rd_wr_fit _ _ rfl hlow
  · simp (disch := decide) only [rd_ite, rd_wr_sep, ite_self]
    exact rd_wr _ _ _ _ rfl
  · have hoff : (v % 16).testBit b = false := by
      rw [show 16 = 2 ^ 4 from rfl, Nat.testBit_mod_two_pow, hbit, Bool.and_false]
    have hcases : b = 0 ∨ b = 1 ∨ b = 2 ∨ b = 3 := by omega
    obtain rfl | rfl | rfl | rfl := hcases <;>
      simp (disch := decide) [rd_ite, rd_wr_sep, hoff]

end State
open State

/-- Settles O18. -/
theorem doorbellsAndRoomsAct : Obligations.DoorbellsAndRoomsAct := by
  refine ⟨fun s fn id h c hb hst => ?_, fun s fn id h c hb hst => ?_, fun s fn id h c hb hst => ?_, fun s fn id h o c hb h1 h2 h3 => ?_,
    fun s m h r ht hidle hhalf hr hfree => ?_, fun s m h r ht hidle hbad => ?_, fun s m w ha => ?_, fun s m w v ha hg2 => ?_⟩
  · have hop : s.doorbell fn.toNat id.toNat h.toNat 1 = s.modCrew id.toNat fun c => { c with wakePending := true } := by
      rw [doorbell_of_names hb, if_pos (.inl rfl), doorbellOp, if_pos (by simp [runOk, hst]), runCmd]
      simp only [hst]
    exact ⟨_, congrArg Host.Outcome.next hop, crew_modCrew hb.crew _, modCrew_upd.frame⟩
  · have hok : hintOk c = true := by obtain hst | hst := hst <;> simp [hintOk, hst]
    have hop : s.doorbell fn.toNat id.toNat h.toNat 2 = s.hint id.toNat := by
      rw [doorbell_of_names hb, if_pos (.inr (.inl rfl)), doorbellOp, if_pos hok]
    exact ⟨_, congrArg Host.Outcome.next hop, rfl, hint_upd.frame .crews (by decide), hint_upd.frame .mem (by decide)⟩
  · have hop : s.doorbell fn.toNat id.toNat h.toNat 3 = (s.parkCmd id.toNat c).settlePorts := by
      rw [doorbell_of_names hb, if_pos (.inr (.inr rfl)), doorbellOp]
      · exact if_pos (by simp [parkOk, hst])
      all_goals nofun
    refine ⟨_, congrArg Host.Outcome.next hop, ?_, (Upd.after settlePorts_upd rfl <| Upd.after (parkCmd_ready_upd _ _ hst) rfl .refl).frame⟩
    rw [crew_settlePorts, parkCmd]
    simp only [hst]
    exact crew_modCrew (crew_modCrew hb.crew _) _
  · have ho : ¬ (o = 1 ∨ o = 2 ∨ o = 3) := by tauto
    have ho' : ¬ (o.toNat = 1 ∨ o.toNat = 2 ∨ o.toNat = 3) := by
      rintro (e | e | e) <;> [exact h1 (BitVec.eq_of_toNat_eq e); exact h2 (BitVec.eq_of_toNat_eq e); exact h3 (BitVec.eq_of_toNat_eq e)]
    refine ⟨_, congrArg Host.Outcome.next ((if_neg ho).trans ((doorbell_of_names hb _).trans (if_neg ho'))), ?_, bump_upd.frame⟩
    exact rd_bump _ _ rfl
  · obtain ⟨u, hu, hret, hrooms, horph⟩ := execRoomRetire_of_idle (r := r) ht hidle
    have hact : u.retireAct h = (u.retireRoom r.toNat 3).retireEnd h 2 0 := by
      have hok : ¬ (r.toNat % 256 ≥ 192 ∨ roomHalf r.toNat ≠ h) := by rintro (h' | h') <;> [omega; exact h' hhalf]
      simp only [retireAct, hret, if_neg hok, room_of_rooms hrooms, hfree]
    obtain ⟨hstate, hcode, n, hn⟩ := retireRoom_did u hr
    have hend {v : State} : Upd [.regs, .retiring] v (v.retireEnd h 2 0) := retireEnd_upd
    rw [hact] at hu
    refine ⟨_, hu, ?_, ?_, ?_, n, ?_⟩
    · rw [room_of_rooms (settlePorts_upd.frame .rooms (by decide)), room_of_rooms (hend.frame .rooms (by decide)), hstate]
    · rw [room_of_rooms (settlePorts_upd.frame .rooms (by decide)), room_of_rooms (hend.frame .rooms (by decide)), hcode]
    · rw [rd_settlePorts _ (by decide), (retireEnd_reads _ h (by decide) (by decide)).1]
    · rw [settlePorts_upd.frame .attic (by decide), settlePorts_upd.frame .gallery (by decide), hend.frame .attic (by decide),
        hend.frame .gallery (by decide), ← horph, ← hhalf]
      exact hn
  · obtain ⟨u, hu, hret, hrooms, -⟩ := execRoomRetire_of_idle (r := r) ht hidle
    have hact : u.retireAct h = u.retireEnd h 3 1 := by
      simp only [retireAct, hret, ge_iff_le, if_pos hbad.symm]
    rw [hact] at hu
    refine ⟨_, hu, ?_, ?_, ?_⟩
    · rw [settlePorts_upd.frame .rooms (by decide), retireEnd_upd.frame .rooms (by decide), hrooms]
    · rw [rd_settlePorts _ (by decide), (retireEnd_reads _ h (by decide) (by decide)).1]
    · rw [rd_settlePorts _ (by decide), (retireEnd_reads _ h (by decide) (by decide)).2]
  · refine ⟨_, congrArg Host.Outcome.next (toPage_of_admits ha _), wing_modWing .., fun v hv => ?_, modWing_upd.frame⟩
    exact (Tbl.get_store ..).trans (if_neg hv)
  · have hop : s.toPage m (pgWng w.toNat) 0x300 (fun s => s.roscCtrl w.toNat v.toNat) = s.roscCtrl w.toNat v.toNat := toPage_of_admits ha _
    have hw : w.toNat ≠ 0 ∨ s.g2Mode = false := hg2.imp (fun h h0 => h (BitVec.eq_of_toNat_eq h0)) id
    obtain ⟨hen, hwin, hvalid⟩ := roscCtrl_reads (v := v.toNat) hw
    exact ⟨_, congrArg Host.Outcome.next hop, hen, hwin, hvalid, roscCtrl_upd.frame⟩
end Sys2Proof.Machine
end

section
/-! PROOFS. O19: the allocator's command port -/

namespace Sys2Proof.Machine
namespace State
variable {s t u : State} {p : Port} {c : Crew} {id : Nat}

/-! ## The allocator's port (R186, R187) -/

@[simp] theorem pgtArg_portStart (s : State) (p : Port) (one : Bool) : (s.portStart .pgt p).pgtArg p one = s.pgtArg p one := by
  unfold pgtArg
  cases one
  · rw [if_neg (by decide), portRd_portStart s .pgt p (by decide) (by decide)]
  · rw [if_pos rfl, portRd_portStart s .pgt p (by decide) (by decide)]

@[simp] theorem pgtHalf_portStart (s : State) (p : Port) : (s.portStart .pgt p).pgtHalf p = s.pgtHalf p := by
  cases p with
  | page h m => simp only [pgtHalf]
  | vf n =>
    simp only [pgtHalf]
    rw [portRd_portStart _ _ _ (by decide) (by decide)]

theorem pgtHalf_page (s : State) (h : Half) (m : Master) : s.pgtHalf (.page h m) = h := rfl

@[simp] theorem pgtReserved_portStart (s : State) (p : Port) (op : Nat) :
    (s.portStart .pgt p).pgtReserved p op = s.pgtReserved p op := by
  unfold pgtReserved
  simp only [pgtArg_portStart]

/-- A command of the allocator that its port offers, with no reserved bit set, is carried out. -/
theorem pgtGo_of_free {op : Nat} (h : s.PortFree .pgt p) (hoff : pgtOffers p op = true) (hres : s.pgtReserved p op = false)
    (f : State → State) : s.toPort .pgt p (fun s => s.pgtGo p op f) = f (s.portStart .pgt p) := by
  obtain ⟨htakes, hfree, hmode⟩ := h
  have hm : (s.mode (s.pgtHalf p) == mHalt) = false := beq_eq_false_iff_ne.mpr hmode
  rw [toPort_of_takes htakes]
  simp [pgtGo, hfree, hm, hoff, hres]

theorem portRd_pgtEnd_value (s : State) (p : Port) (code value : Nat) :
    (s.pgtEnd p code value).portRd .pgt p PGT_RESULT_VALUE = value % 2 ^ 21 := by
  unfold pgtEnd portEnd
  simp only [resultFlds, List.cons_append, List.nil_append, List.foldl_cons, List.foldl_nil]
  rw [portRd_portEvent _ _ _ (by decide), portRd_portWr_sep _ _ _ rfl (by decide) (by decide),
    portRd_portWr_sep _ _ _ rfl (by decide) (by decide), portRd_portWr_sep _ _ _ rfl (by decide) (by decide),
    portRd_portWr_same _ _ _ (by decide)]
  rfl

theorem seq_pgtEnd (s : State) (p : Port) (code value : Nat) :
    (s.pgtEnd p code value).portRd .pgt p PGT_RESULT_SEQ = s.portRd .pgt p PGT_RESULT_SEQ := by
  have hin : PGT_RESULT_SEQ.sep PGT_RESULT_VALUE = true ∧ PGT_RESULT_VALUE.inPort := by decide
  refine portRd_portEnd_sep s .pgt p (by decide) (fun e he => ?_) rfl rfl rfl
  obtain rfl := List.mem_singleton.mp he
  exact hin

theorem ownerWorld_congr (h : ∀ i, i < 8 → t.rd pgSec (SEC_FN_WORLD_WORLD.at 4 i) = s.rd pgSec (SEC_FN_WORLD_WORLD.at 4 i))
    (owner : Nat) : t.ownerWorld owner = s.ownerWorld owner := by
  unfold ownerWorld
  split
  next hlt => rw [h _ (by omega)]
  · rfl

theorem ownerWorld_portStart (s : State) (b : PortBlock) (p : Port) (owner : Nat) :
    (s.portStart b p).ownerWorld owner = s.ownerWorld owner :=
  ownerWorld_congr (fun i hi => rd_portStart_low (by decide) (by simp only [Fld.at, SEC_FN_WORLD_WORLD]; omega)) owner

theorem takeFrom_taken {stack f : Nat} {world : Bool} (h : s.takeFrom stack world = some (f, u)) :
    Tbl.find u.frames f = some .taken := by
  have hput (v : State) (k : Nat) {w : Half} {b : Bool} {n : Nat} :
      Tbl.find ((({ v with frames := Tbl.put v.frames k .taken } : State)).poolLow w b n).frames k = some .taken := by
    rw [poolLow_upd.frame .frames (by decide)]
    exact (Tbl.find_put ..).trans (if_pos rfl)
  unfold takeFrom at h
  dsimp only at h
  split at h
  · cases h
  · split at h
    · obtain ⟨rfl, rfl⟩ := Prod.mk.inj (Option.some.inj h)
      exact hput ..
    · split at h
      · obtain ⟨rfl, rfl⟩ := Prod.mk.inj (Option.some.inj h)
        exact hput ..
      · cases h

theorem releaseFrame_find (s : State) (f : Nat) :
    Tbl.find (s.releaseFrame f).frames f = if f ∈ s.stackCtl.retireDue then some .retired else none := by
  unfold releaseFrame
  split
  next h =>
    rw [if_pos (List.contains_iff_mem.mp h)]
    exact (Tbl.find_put ..).trans (if_pos rfl)
  next h =>
    rw [if_neg fun hm => h (List.contains_iff_mem.mpr hm)]
    exact (Tbl.find_del ..).trans (if_pos rfl)

/-! ## Invalidation (R180, R181) -/

theorem wing_modWing_ne (s : State) {w v : Nat} (f : Wing → Wing) (h : v ≠ w) : (s.modWing w f).wing v = s.wing v :=
  (Tbl.get_store ..).trans (if_neg h)

theorem wing_foldl_modWing (s : State) (b a : Nat) (f : Wing → Wing) {l : List Nat} (hl : l.Nodup) :
    (l.foldl (fun s k => s.modWing (b + k) f) s).wing (b + a) = if a ∈ l then f (s.wing (b + a)) else s.wing (b + a) := by
  induction l generalizing s with
  | nil => rfl
  | cons k l ih =>
    obtain ⟨hk, hl⟩ := List.nodup_cons.mp hl
    rw [List.foldl_cons, ih _ hl]
    by_cases ha : a = k
    · subst ha
      rw [if_neg hk, if_pos (.head _), wing_modWing]
    · have hmem : a ∈ k :: l ↔ a ∈ l := by simp [ha]
      simp only [hmem, wing_modWing_ne s f (show b + a ≠ b + k by omega)]

theorem wing_modWings (s : State) (h : Half) (f : Wing → Wing) {k : Nat} (hk : k < 8) :
    (s.modWings h f).wing (8 * halfBit h + k) = f (s.wing (8 * halfBit h + k)) := by
  unfold modWings
  rw [wing_foldl_modWing _ _ _ _ List.nodup_range, if_pos (List.mem_range.mpr hk)]

/-- An INVAL that waits: its entries are gone, and it stands last among the waiting commands. -/
theorem invalWait_did (s : State) (p : Port) (op id : Nat) (page : Option Nat) :
    (s.invalWait p op id page).regs = s.regs ∧
      (s.invalWait p op id page).portOps = s.portOps ++ [⟨p, .pgt, op, id, s.heat id, false, [], s.stamps, page⟩] ∧
      ∀ k, k < 8 →
        ((s.invalWait p op id page).wing (8 * halfBit (s.pgtHalf p) + k)).tlb =
          (s.wing (8 * halfBit (s.pgtHalf p) + k)).tlb.filter (fun t => !invalNames op id page t.id t.page) ∧
        ((s.invalWait p op id page).wing (8 * halfBit (s.pgtHalf p) + k)).first =
          (s.wing (8 * halfBit (s.pgtHalf p) + k)).first.filter
            (fun t => !(op == 7 || (t.id == id && (page.isNone || page.map (· / 1024) == some t.index)))) := by
  have hinval := inval_upd (s := s) (h := s.pgtHalf p) (op := op) (id := id) (page := page)
  have hwing := fun k (hk : k < 8) => wing_modWings s (s.pgtHalf p) (fun w =>
    { w with tlb := w.tlb.filter fun t => !invalNames op id page t.id t.page
             first := w.first.filter fun t => !(op == 7 || (t.id == id && (page.isNone || page.map (· / 1024) == some t.index))) }) hk
  change ∀ k, k < 8 → (s.inval (s.pgtHalf p) op id page).wing _ = _ at hwing
  unfold invalWait
  generalize s.inval (s.pgtHalf p) op id page = u at hinval hwing
  have hheat : u.heat id = s.heat id := heat_of_ids (hinval.frame .ids (by decide)) id
  have hops : u.portOps = s.portOps := hinval.frame .portOps (by decide)
  have hstamps : u.stamps = s.stamps := hinval.frame .stamps (by decide)
  dsimp only
  refine ⟨hinval.frame .regs (by decide), by rw [hheat, hops, hstamps], fun k hk => ?_⟩
  show (u.wing _).tlb = _ ∧ (u.wing _).first = _
  rw [hwing k hk]
  exact ⟨rfl, rfl⟩

theorem granDel_alloc (h : t.alloc = s.alloc) (k : Half) (first count : Nat) :
    (t.granDel k first count).alloc = (s.granDel k first count).alloc := by
  unfold granDel modAlloc
  dsimp only
  rw [h]

/-- What INVAL_CREW and INVAL_PAGE do for a crew that its issuer may act on. -/
theorem invalOf_of_names {op : Nat} (hop : op = 5 ∨ op = 6) (hp : s.PortFree .pgt p) (hres : s.pgtReserved p op = false)
    (hid : s.pgtArg p false / 2 ^ 16 = id) (hok : idOk id = true) (hhalf : idHalf id = s.pgtHalf p) (hc : s.crew id = some c)
    (hact : mayAct (portOwner p) c.owner = true) :
    s.toPort .pgt p (fun s => s.invalOf p op) =
      (s.portStart .pgt p).invalWait p op id (if op = 5 then none else some (s.pgtArg p true)) := by
  have hoff : pgtOffers p op = true := by
    cases p with
    | page h m => rfl
    | vf n => obtain rfl | rfl := hop <;> rfl
  unfold invalOf
  rw [pgtGo_of_free hp hoff hres]
  simp only [pgtArg_portStart, pgtHalf_portStart, crew_portStart, hid, hok, hhalf, hc, hact, Bool.not_true, bne_self_eq_false,
    Bool.or_self, Bool.false_eq_true, if_false]

/-- The state of an INVAL that waits. -/
theorem invalWait_waits (s : State) (p : Port) (op id : Nat) (page : Option Nat) :
    ((s.portStart .pgt p).invalWait p op id page).portBusy .pgt p = true ∧
      ((s.portStart .pgt p).invalWait p op id page).portOps =
        s.portOps ++ [⟨p, .pgt, op, id, s.heat id, false, [], s.stamps, page⟩] ∧
      Unchanged [.regs, .wings, .portOps] s ((s.portStart .pgt p).invalWait p op id page) := by
  have hstart : Upd [.regs] s (s.portStart .pgt p) := portStart_upd
  obtain ⟨hregs, hops, -⟩ := invalWait_did (s.portStart .pgt p) p op id page
  refine ⟨?_, ?_, (Upd.after invalWait_upd rfl <| Upd.after hstart rfl .refl).frame⟩
  · exact (congrArg (· == 1) (portRd_of_regs hregs _ _ _)).trans (portBusy_portStart s .pgt p)
  · rw [hops, hstart.frame .portOps (by decide), hstart.frame .stamps (by decide), heat_of_ids (hstart.frame .ids (by decide))]

/-- The translations that an INVAL leaves are those that it does not name. -/
theorem invalWait_leaves (s : State) (p : Port) (op id : Nat) (page : Option Nat) {k : Nat} (hk : k < 8) :
    (∀ x ∈ ((s.invalWait p op id page).wing (8 * halfBit (s.pgtHalf p) + k)).tlb, invalNames op id page x.id x.page = false) ∧
      ∀ x ∈ ((s.invalWait p op id page).wing (8 * halfBit (s.pgtHalf p) + k)).first,
        (op == 7 || (x.id == id && (page.isNone || page.map (· / 1024) == some x.index))) = false := by
  obtain ⟨-, -, hleft⟩ := invalWait_did s p op id page
  obtain ⟨htlb, hfirst⟩ := hleft k hk
  rw [htlb, hfirst]
  exact ⟨fun x hx => by simpa using (List.mem_filter.mp hx).2, fun x hx => by simpa only [Bool.not_eq_true'] using (List.mem_filter.mp hx).2⟩

end State
open State

/-- Settles O19. -/
theorem allocatorCommandsAct : Obligations.AllocatorCommandsAct := by
  refine ⟨fun s h m f u hp hres hworld horph htake => ?_, fun s h m f hp harg hpool hres hworld hfind => ?_,
    fun s h m g u hp hres hn hpick => ?_, fun s h m hp hres hn hstore hall => ?_,
    fun s p id c hp hres hid hok hhalf hc hact => ?_, fun s p id c hp hres hid hok hhalf hc hact => ?_,
    fun s h m hp hres => ?_, fun s p o hfind hkeep => ?_, fun s p o hp ho => ?_⟩
  · have hop : s.toPort .pgt (.page h m) (fun s => s.frameTake (.page h m)) = u.pgtEnd (.page h m) pcOk f := by
      have hw : ((s.pgtArg (.page h m) false).testBit 0 && !s.ownerWorld (ownerOf m)) = false := by
        obtain hw | hw := hworld <;> simp [hw]
      have ho : ¬ (s.pgtArg (.page h m) false / 2 % 4 = 3 ∧ (s.orphan .east = true ∨ s.orphan .west = true)) := by
        rintro ⟨h3, ho⟩
        obtain hne | ⟨he, hw⟩ := horph
        · exact hne h3
        · simp [he, hw] at ho
      unfold frameTake
      rw [pgtGo_of_free hp rfl hres]
      simp only [pgtArg_portStart, pgtHalf, portOwner, ownerWorld_portStart, orphan_portStart, hw, Bool.false_eq_true, if_false,
        Bool.and_eq_true, decide_eq_true_eq, Bool.or_eq_true, if_neg ho, htake]
    refine ⟨_, congrArg Host.Outcome.next hop, pgtEnd_answered _ _ (by decide), portRd_pgtEnd_value .., ?_,
      (Upd.after pgtEnd_upd rfl <| Upd.after (takeFrom_upd _ _ htake) rfl <| Upd.after portStart_upd rfl .refl).frame⟩
    rw [pgtEnd_upd.frame .frames (by decide)]
    exact takeFrom_taken htake
  · have hstart : Upd [.regs] s (s.portStart .pgt (.page h m)) := portStart_upd
    have hop : s.toPort .pgt (.page h m) (fun s => s.frameGive (.page h m)) =
        ((s.portStart .pgt (.page h m)).releaseFrame f).pgtEnd (.page h m) pcOk f := by
      have hframes : (s.portStart .pgt (.page h m)).frames = s.frames := hstart.frame .frames (by decide)
      unfold frameGive
      rw [pgtGo_of_free hp rfl hres]
      simp [pgtHalf, portOwner, ownerWorld_portStart, harg, hpool, hworld, hframes, hfind]
    refine ⟨_, congrArg Host.Outcome.next hop, pgtEnd_answered _ _ (by decide), portRd_pgtEnd_value .., ?_,
      (Upd.after pgtEnd_upd rfl <| Upd.after releaseFrame_upd rfl <| Upd.after hstart rfl .refl).frame⟩
    rw [pgtEnd_upd.frame .frames (by decide), releaseFrame_find, hstart.frame .stackCtl (by decide)]
  · have hop : s.toPort .pgt (.page h m) (fun s => s.granTake (.page h m)) = u.pgtEnd (.page h m) pcOk g := by
      unfold granTake
      rw [pgtGo_of_free hp rfl hres]
      dsimp only
      rw [pgtArg_portStart, if_neg hn, pgtHalf_page, hpick]
    refine ⟨_, congrArg Host.Outcome.next hop, pgtEnd_answered _ _ (by decide), by rw [pgtEnd_upd.frame .alloc (by decide)],
      portRd_pgtEnd_value .., (Upd.after pgtEnd_upd rfl <| Upd.after (granPick_upd _ _ hpick) rfl <|
        Upd.after portStart_upd rfl .refl).frame⟩
  · have hstart : Upd [.regs] s (s.portStart .pgt (.page h m)) := portStart_upd
    have halloc : (s.portStart .pgt (.page h m)).alloc = s.alloc := hstart.frame .alloc (by decide)
    have hall' : (s.portStart .pgt (.page h m)).granAll h (s.pgtArg (.page h m) false) (s.pgtArg (.page h m) true) = true := by
      unfold granAll at hall ⊢
      rwa [halloc]
    have hop : s.toPort .pgt (.page h m) (fun s => s.granGive (.page h m)) =
        ((s.portStart .pgt (.page h m)).granDel h (s.pgtArg (.page h m) false) (s.pgtArg (.page h m) true)).pgtEnd (.page h m) pcOk
          (s.pgtArg (.page h m) false) := by
      unfold granGive
      rw [pgtGo_of_free hp rfl hres]
      simp [pgtHalf, hn, hstore, hall']
    refine ⟨_, congrArg Host.Outcome.next hop, pgtEnd_answered _ _ (by decide), ?_,
      (Upd.after pgtEnd_upd rfl <| Upd.after granDel_upd rfl <| Upd.after hstart rfl .refl).frame⟩
    rw [pgtEnd_upd.frame .alloc (by decide)]
    exact granDel_alloc halloc ..
  · obtain ⟨hbusy, hops, hsame⟩ := invalWait_waits s p 5 id none
    have hwing := fun k hk => invalWait_leaves (s.portStart .pgt p) p 5 id none (k := k) hk
    rw [pgtHalf_portStart, ← hhalf] at hwing
    refine ⟨_, congrArg Host.Outcome.next (invalOf_of_names (.inl rfl) hp hres hid hok hhalf hc hact), hbusy,
      fun k hk x hx => ?_, fun k hk x hx => ?_, hops, hsame⟩
    · simpa [invalNames] using (hwing k hk).1 x hx
    · simpa using (hwing k hk).2 x hx
  · obtain ⟨hbusy, hops, hsame⟩ := invalWait_waits s p 6 id (some (s.pgtArg p true))
    have hwing := fun k hk => invalWait_leaves (s.portStart .pgt p) p 6 id (some (s.pgtArg p true)) (k := k) hk
    rw [pgtHalf_portStart, ← hhalf] at hwing
    refine ⟨_, congrArg Host.Outcome.next (invalOf_of_names (.inr rfl) hp hres hid hok hhalf hc hact), hbusy,
      fun k hk x hx => ?_, fun k hk x hx => ?_, hops, hsame⟩
    · rintro ⟨h1, h2⟩
      simpa [invalNames, h1, h2] using (hwing k hk).1 x hx
    · rintro ⟨h1, h2⟩
      simpa [h1, h2] using (hwing k hk).2 x hx
  · obtain ⟨hbusy, hops, hsame⟩ := invalWait_waits s (.page h m) 7 0 none
    have hwing := fun k hk => invalWait_leaves (s.portStart .pgt (.page h m)) (.page h m) 7 0 none (k := k) hk
    rw [pgtHalf_portStart] at hwing
    have hop : s.toPort .pgt (.page h m) (fun s => s.invalAll (.page h m)) =
        (s.portStart .pgt (.page h m)).invalWait (.page h m) 7 0 none := by
      unfold invalAll
      exact pgtGo_of_free hp rfl hres _
    refine ⟨_, congrArg Host.Outcome.next hop, hbusy, fun k hk => ?_, hsame⟩
    refine ⟨List.eq_nil_iff_forall_not_mem.mpr fun x hx => ?_, List.eq_nil_iff_forall_not_mem.mpr fun x hx => ?_⟩
    · simpa [invalNames] using (hwing k hk).1 x hx
    · simpa using (hwing k hk).2 x hx
  · have hop : s.invalComplete p = ({ s with portOps := s.portOps.erase o } : State).pgtEnd p pcOk 0 := by
      simp [invalComplete, hfind, hkeep]
    refine ⟨_, congrArg Host.Outcome.next hop, pgtEnd_answered _ _ (by decide), pgtEnd_upd.frame .portOps (by decide),
      (Upd.after pgtEnd_upd rfl <| Upd.portOps .refl rfl).frame⟩
  · obtain ⟨htakes, hfree, -⟩ := hp
    have hbad : o.toNat = 0 ∨ 8 ≤ o.toNat := ho.imp (fun h => congrArg BitVec.toNat h) id
    have hop : s.toPort .pgt p (fun s => if s.portBusy .pgt p then s else (s.portStart .pgt p).pgtEnd p pcBadOp 0) =
        (s.portStart .pgt p).pgtEnd p pcBadOp 0 := by
      rw [toPort_of_takes htakes, hfree]; rfl
    refine ⟨_, congrArg Host.Outcome.next ((if_pos hbad).trans hop), pgtEnd_answered _ _ (by decide), ?_,
      (Upd.after pgtEnd_upd rfl <| Upd.after portStart_upd rfl .refl).frame⟩
    rw [seq_pgtEnd]
    exact seq_portStart s .pgt p

end Sys2Proof.Machine
end

section
/-! PROOFS. O4: requests in SYS.MODE_REQ -/

namespace Sys2Proof.Machine
namespace State
variable {s t u : State}

/-! ## Requests in SYS.MODE_REQ (R31, R39) -/

/-- A request's TARGET stored in the leader's SYS.MODE_REQ: by the write, and by the GO. -/
def asked (s : State) (v : Nat) : State :=
  (s.wr (pgSys s.leader) SYS_MODE_REQ_TARGET v).wr (pgSys s.leader) SYS_MODE_REQ_TARGET v

theorem rd_asked (s : State) (v p : Nat) {f : Fld} (hf : f.ok = true) (h : f.sep SYS_MODE_REQ_TARGET = true) :
    (s.asked v).rd p f = s.rd p f := by
  unfold asked
  rw [rd_wr_sep _ _ _ _ _ _ h hf rfl, rd_wr_sep _ _ _ _ _ _ h hf rfl]

/-- STATUS and REASON of the leader's request. -/
theorem rd_reqEnd_sep (s : State) (a r p : Nat) {f : Fld} (hf : f.ok = true) (h1 : f.sep SYS_MODE_REQ_STATUS = true)
    (h2 : f.sep SYS_MODE_REQ_REASON = true) : (s.reqEnd a r).rd p f = s.rd p f := by
  unfold reqEnd
  rw [wrs_cons, wrs_cons, wrs_nil, rd_wr_sep _ _ _ _ _ _ h2 hf rfl, rd_wr_sep _ _ _ _ _ _ h1 hf rfl]

theorem reqEnd_reads (s : State) {a r : Nat} (ha : a < 4) (hr : r < 16) :
    (s.reqEnd a r).rd (pgSys s.leader) SYS_MODE_REQ_STATUS = a ∧ (s.reqEnd a r).rd (pgSys s.leader) SYS_MODE_REQ_REASON = r := by
  unfold reqEnd
  rw [wrs_cons, wrs_cons, wrs_nil]
  exact ⟨(rd_wr_sep _ _ _ _ _ _ rfl rfl rfl).trans (rd_wr_fit _ _ rfl ha), rd_wr_fit _ _ rfl hr⟩

theorem leader_asked (s : State) (v : Nat) : (s.asked v).leader = s.leader :=
  leader_congr (fun _ => rd_asked s v _ rfl rfl) (rd_asked s v _ rfl rfl)

theorem leader_reqEnd (s : State) (a r : Nat) : (s.reqEnd a r).leader = s.leader :=
  leader_congr (fun _ => rd_reqEnd_sep s a r _ rfl rfl rfl) (rd_reqEnd_sep s a r _ rfl rfl rfl)

theorem orphan_congr {h : Half} (hrd : t.rd (pgSys h) SYS_MODE_ORPHAN = s.rd (pgSys h) SYS_MODE_ORPHAN) : t.orphan h = s.orphan h := by
  unfold orphan on
  rw [hrd]

/-- What a request does at the leader (Tables 1.6 and 1.8): the tests read the state as it was before the request. -/
theorem modeReqBy_leader {m : Master} (ht : s.Takes m (pgSys s.leader) 0x54) (v : Nat) :
    s.modeReqBy m s.leader v =
      if s.on (pgSys s.leader) SYS_MODE_TRANSIT then (s.asked v).reqEnd 2 rqInTransition
      else if (s.orphan .east || s.orphan .west) ∧ v ≠ mBoot ∧ v ≠ mHalt then (s.asked v).reqEnd 2 rqOrphaned
      else if v ≠ mStandby ∧ v ≠ mBoot ∧ v ≠ mTest ∧ v ≠ mHalt then (s.asked v).reqEnd 2 rqBadTarget
      else if v = mStandby ∧ s.devMode = mService then (s.asked v).reqEnd 2 rqInService
      else if (v = mStandby ∧ !isRun s.devMode) ∨ (v = mTest ∧ !inService s.devMode) ∨ (v = mHalt ∧ s.devMode = mHalt) then
        (s.asked v).reqEnd 2 rqNotFromHere
      else if v = mTest ∧ s.rd pgLcs LCS_STATE_STATE ≠ 1 ∧ s.rd pgLcs LCS_STATE_STATE ≠ 4 then (s.asked v).reqEnd 2 rqLifecycle
      else if v = mStandby then (((s.asked v).reqEnd 1 0).transit true).modSeq fun q => { q with standby := .accepted }
      else if v = mHalt then
        (((s.asked v).reqEnd 1 0).modSeq fun q => { q with standby := .none, wakePend := 0, drained := [] }).begin mHalt
      else if v = mTest then ((s.asked v).reqEnd 1 0).begin mTest
      else if s.orphan .east || s.orphan .west then modeReq.bootAlone ((s.asked v).reqEnd 1 0) s.leader
      else ((s.asked v).reqEnd 1 0).boot false true := by
  have hstore : (s.wr (pgSys s.leader) SYS_MODE_REQ_TARGET v).on (pgSys s.leader) PG_CTRL_EN = s.on (pgSys s.leader) PG_CTRL_EN := by
    unfold on
    rw [rd_wr_sep _ _ _ _ _ _ rfl rfl rfl]
  have hlead : s.leader = (s.wr (pgSys s.leader) SYS_MODE_REQ_TARGET v).leader :=
    (leader_congr (fun _ => rd_wr_sep _ _ _ _ _ _ rfl rfl rfl) (rd_wr_sep _ _ _ _ _ _ rfl rfl rfl)).symm
  have hgo : s.modeReqBy m s.leader v = (s.wr (pgSys s.leader) SYS_MODE_REQ_TARGET v).modeReq s.leader v := by
    have hif : (if s.leader = s.leader then s.wr (pgSys s.leader) SYS_MODE_REQ_TARGET v else s) =
        s.wr (pgSys s.leader) SYS_MODE_REQ_TARGET v := if_pos rfl
    have hen := congrArg (fun u : State => u.on (pgSys s.leader) PG_CTRL_EN) hif
    refine (goTo_of_takes_store ht
      (store := fun u => if s.leader = u.leader then u.wr (pgSys s.leader) SYS_MODE_REQ_TARGET v else u) (hen.trans hstore) _).trans ?_
    exact congrArg (fun u : State => u.modeReq s.leader v) hif
  have hrd (f : Fld) (hf : f.ok = true) (h : f.sep SYS_MODE_REQ_TARGET = true) (p : Nat) : (s.asked v).rd p f = s.rd p f :=
    rd_asked s v p hf h
  have hdev : (s.asked v).devMode = s.devMode := by
    unfold devMode mode
    rw [leader_asked, hrd _ rfl rfl]
  have horph (h : Half) : (s.asked v).orphan h = s.orphan h := orphan_congr (hrd _ rfl rfl _)
  have horph' (h : Half) : ((s.asked v).reqEnd 1 0).orphan h = s.orphan h :=
    (orphan_congr (rd_reqEnd_sep _ _ _ _ rfl rfl rfl)).trans (horph h)
  have hon : (s.asked v).on (pgSys s.leader) SYS_MODE_TRANSIT = s.on (pgSys s.leader) SYS_MODE_TRANSIT := by
    unfold on
    rw [hrd _ rfl rfl]
  have hlc : (s.asked v).rd pgLcs LCS_STATE_STATE = s.rd pgLcs LCS_STATE_STATE := hrd _ rfl rfl _
  rw [hgo]
  unfold modeReq
  rw [if_neg (not_not.mpr hlead)]
  have hasked : (s.wr (pgSys s.leader) SYS_MODE_REQ_TARGET v).wr (pgSys s.leader) SYS_MODE_REQ_TARGET v = s.asked v := rfl
  dsimp only
  rw [hasked]
  generalize s.asked v = w at *
  simp only [hon, horph, horph', hdev, hlc]

theorem modSeq_id (s : State) : s.modSeq (fun q => q) = s := rfl

/-- A leader whose lease has lapsed changes alone. -/
theorem begin_lapsed (s : State) (m : Nat) (h : s.lapsed s.leader = true) :
    s.begin m = ((s.transit true).modSeq fun q => { q with txn := some (m, false) }).leaderChange m := by
  have hrd : ∀ p f, f.ok = true → f.sep SYS_MODE_TRANSIT = true →
      ((s.transit true).modSeq fun q => { q with txn := some (m, false) }).rd p f = s.rd p f := fun p f hf hs => by
    rw [rd_modSeq, rd_transit s true p hf hs]
  have hleader := leader_congr (s := s) (fun k => hrd (pgSys k) SYS_ROLE_LEADER rfl rfl) (hrd _ _ rfl rfl)
  have hlapsed := lapsed_congr (h := s.leader) (hrd _ SYS_ROLE_LEASE_OK rfl rfl)
  unfold begin
  extract_lets u
  rw [show u.leader = s.leader from hleader, show u.lapsed s.leader = s.lapsed s.leader from hlapsed, h]
  rfl

/-- The answer of a request that is not accepted: STATUS and REASON, and nothing but registers changes. -/
theorem asked_reqEnd_reads (s : State) (v : Nat) {a r : Nat} (ha : a < 4) (hr : r < 16) :
    ((s.asked v).reqEnd a r).rd (pgSys s.leader) SYS_MODE_REQ_STATUS = a ∧
      ((s.asked v).reqEnd a r).rd (pgSys s.leader) SYS_MODE_REQ_REASON = r := by
  have h := reqEnd_reads (s.asked v) ha hr
  rwa [leader_asked] at h

theorem asked_target (s : State) {v : Nat} (hv : v < 16) (a r : Nat) :
    ((s.asked v).reqEnd a r).rd (pgSys s.leader) SYS_MODE_REQ_TARGET = v := by
  rw [rd_reqEnd_sep _ _ _ _ rfl rfl rfl]
  exact rd_wr_fit _ _ rfl hv

theorem asked_reqEnd_upd (s : State) (v a r : Nat) : Upd [.regs] s ((s.asked v).reqEnd a r) := by
  unfold asked
  exact Upd.after reqEnd_upd rfl <| Upd.after wr_upd rfl wr_upd

/-- A field beside SYS.MODE_REQ is as it was before the request. -/
theorem rd_asked_reqEnd (s : State) (v a r p : Nat) {f : Fld} (hf : f.ok = true) (h : f.sep SYS_MODE_REQ_TARGET = true)
    (h1 : f.sep SYS_MODE_REQ_STATUS = true) (h2 : f.sep SYS_MODE_REQ_REASON = true) :
    ((s.asked v).reqEnd a r).rd p f = s.rd p f := by
  rw [rd_reqEnd_sep _ _ _ _ hf h1 h2, rd_asked _ _ _ hf h]

theorem leader_asked_reqEnd (s : State) (v a r : Nat) : ((s.asked v).reqEnd a r).leader = s.leader := by
  rw [leader_reqEnd, leader_asked]

theorem lapsed_asked_reqEnd (s : State) (v a r : Nat) (h : Half) : ((s.asked v).reqEnd a r).lapsed h = s.lapsed h :=
  lapsed_congr (rd_asked_reqEnd s v a r _ rfl rfl rfl rfl)

/-- What an accepted request that waits for the follower leaves: the transition, TRANSIT in both halves, the answer. -/
theorem begins_asked (s : State) (v m : Nat) (f : Sequencer → Sequencer) (h : s.lapsed s.leader = false) :
    (((((s.asked v).reqEnd 1 0).modSeq f).begin m).seq = { f s.seq with txn := some (m, false) }) ∧
      (∀ k, (((s.asked v).reqEnd 1 0).modSeq f |>.begin m).mode k = s.mode k) ∧
      (∀ k, (((s.asked v).reqEnd 1 0).modSeq f |>.begin m).rd (pgSys k) SYS_MODE_TRANSIT = 1) ∧
      (((s.asked v).reqEnd 1 0).modSeq f |>.begin m).rd (pgSys s.leader) SYS_MODE_REQ_STATUS = 1 := by
  have hans := (asked_reqEnd_reads s v (a := 1) (r := 0) (by decide) (by decide)).1
  have hrd := fun p f hf h1 h2 h3 => rd_asked_reqEnd s v 1 0 p (f := f) hf h1 h2 h3
  have hseq : ((s.asked v).reqEnd 1 0).seq = s.seq := (asked_reqEnd_upd s v 1 0).frame .seq (by decide)
  have hlapsed : (((s.asked v).reqEnd 1 0).modSeq f).lapsed (((s.asked v).reqEnd 1 0).modSeq f).leader = false := by
    have hl : (((s.asked v).reqEnd 1 0).modSeq f).leader = s.leader :=
      (leader_congr (fun _ => rd_modSeq _ _) (rd_modSeq _ _)).trans (leader_asked_reqEnd s v 1 0)
    rw [hl, lapsed_congr (rd_modSeq _ _), lapsed_asked_reqEnd, h]
  obtain ⟨hs, htr, hkeep⟩ := begin_leased_parts _ m hlapsed
  refine ⟨?_, fun k => ?_, htr, ?_⟩
  · rw [hs]
    show ({ f ((s.asked v).reqEnd 1 0).seq with txn := some (m, false) } : Sequencer) = _
    rw [hseq]
  · unfold mode
    rw [hkeep _ _ rfl rfl, rd_modSeq, hrd _ _ rfl rfl rfl rfl]
  · rw [hkeep _ _ rfl rfl, rd_modSeq, hans]

/-- A HALT that a lapsed leader begins is its own at once. -/
theorem begin_halts (hlead : u.leader = s.leader) (hmode : u.mode s.leader = s.mode s.leader)
    (hlaps : u.lapsed s.leader = s.lapsed s.leader) (hrange : mBoot ≤ s.mode s.leader ∧ s.mode s.leader < mHalt)
    (h : s.lapsed s.leader = true) : (u.begin mHalt).Halted s.leader ecRequested := by
  rw [begin_lapsed u mHalt (by rw [hlead, hlaps, h])]
  generalize hv : ((u.transit true).modSeq fun q => { q with txn := some (mHalt, false) }) = v
  have hrd (p : Nat) {f : Fld} (hf : f.ok = true) (hs : f.sep SYS_MODE_TRANSIT = true) : v.rd p f = u.rd p f := by
    rw [← hv, rd_modSeq, rd_transit u true p hf hs]
  have hl : v.leader = s.leader := (leader_congr (fun _ => hrd _ rfl rfl) (hrd _ rfl rfl)).trans hlead
  have hm : v.mode s.leader = s.mode s.leader := (hrd _ rfl rfl).trans hmode
  rw [leaderChange, if_pos rfl, hl]
  exact (runs_of_range v (by rw [hm]; exact hrange.1) (by rw [hm]; exact hrange.2)).haltHalf_halted (by decide)

end State
open State

/-- Settles O4. -/
theorem modeRequestsAct : Obligations.ModeRequestsAct := by
  have hoff (s : State) (h : s.rd (pgSys s.leader) SYS_MODE_TRANSIT = 0) : s.on (pgSys s.leader) SYS_MODE_TRANSIT = false := by
    unfold on; rw [h]; rfl
  refine ⟨fun s m v ht htr he hw h2 h3 h10 h11 => ?_, fun s m ht htr c hc => ?_, fun s m ht htr hhalt hok => ?_,
    fun s m ht htr hlo hhi hlapsed => ?_, fun s m ht htr he hw => ?_, fun s m ht htr he hw hin hok hlc => ?_,
    fun s m ht htr he hw hin h1 h4 => ?_, fun s m ht htr he hw hrun => ?_, fun s m ht htr he hw hsvc => ?_⟩
  · have hne (k : BitVec 4) (hk : v ≠ k) : v.toNat ≠ k.toNat := fun e => hk (BitVec.eq_of_toNat_eq e)
    have hbad : v.toNat ≠ mStandby ∧ v.toNat ≠ mBoot ∧ v.toNat ≠ mTest ∧ v.toNat ≠ mHalt :=
      ⟨hne 2 h2, hne 3 h3, hne 10 h10, hne 11 h11⟩
    have hop : s.modeReqBy m s.leader v.toNat = (s.asked v.toNat).reqEnd 2 rqBadTarget := by
      rw [modeReqBy_leader ht, hoff s htr, he, hw, if_neg (by decide), if_neg (by simp), if_pos hbad]
    obtain ⟨hst, hre⟩ := asked_reqEnd_reads s v.toNat (a := 2) (r := rqBadTarget) (by decide) (by decide)
    exact ⟨_, congrArg Host.Outcome.next hop, asked_target s v.isLt _ _, hst, hre, (asked_reqEnd_upd ..).frame⟩
  · have hon : s.on (pgSys s.leader) SYS_MODE_TRANSIT = true := by unfold on; rw [htr]; rfl
    have hop (v : Nat) : s.modeReqBy m s.leader v = (s.asked v).reqEnd 2 rqInTransition := by
      rw [modeReqBy_leader ht, if_pos hon]
    have hans (v : Nat) := asked_reqEnd_reads s v (a := 2) (r := rqInTransition) (by decide) (by decide)
    simp only [List.mem_cons, List.not_mem_nil, or_false] at hc
    obtain rfl | rfl | rfl | rfl := hc <;>
      exact ⟨_, congrArg Host.Outcome.next (hop _), (hans _).1, (hans _).2, (asked_reqEnd_upd ..).frame⟩
  · have hop : s.modeReqBy m s.leader mHalt = (((s.asked mHalt).reqEnd 1 0).modSeq
        fun q => { q with standby := .none, wakePend := 0, drained := [] }).begin mHalt := by
      rw [modeReqBy_leader ht, hoff s htr]
      simp [mHalt, mStandby, mBoot, mTest, hhalt]
    obtain ⟨hseq, hmode, htrans, hst⟩ := begins_asked s mHalt mHalt (fun q => { q with standby := .none, wakePend := 0, drained := [] }) hok
    exact ⟨_, congrArg Host.Outcome.next hop, congrArg Sequencer.txn hseq, hmode, htrans, hst⟩
  · have hrange : mBoot ≤ s.mode s.leader ∧ s.mode s.leader < mHalt := ⟨hlo, hhi⟩
    have hhalt : s.devMode ≠ mHalt := Nat.ne_of_lt hhi
    have hop : s.modeReqBy m s.leader mHalt = (((s.asked mHalt).reqEnd 1 0).modSeq
        fun q => { q with standby := .none, wakePend := 0, drained := [] }).begin mHalt := by
      rw [modeReqBy_leader ht, hoff s htr]
      simp [mHalt, mStandby, mBoot, mTest, hhalt]
    refine ⟨_, congrArg Host.Outcome.next hop, ?_⟩
    generalize hu : ((s.asked mHalt).reqEnd 1 0).modSeq (fun q => { q with standby := .none, wakePend := 0, drained := [] }) = u
    have hrd (p : Nat) {f : Fld} (hf : f.ok = true) (h1 : f.sep SYS_MODE_REQ_TARGET = true) (h2 : f.sep SYS_MODE_REQ_STATUS = true)
        (h3 : f.sep SYS_MODE_REQ_REASON = true) : u.rd p f = s.rd p f := by
      rw [← hu, rd_modSeq, rd_asked_reqEnd s mHalt 1 0 p hf h1 h2 h3]
    exact begin_halts (leader_congr (fun _ => hrd _ rfl rfl rfl rfl) (hrd _ rfl rfl rfl rfl)) (hrd _ rfl rfl rfl rfl)
      (lapsed_congr (hrd _ rfl rfl rfl rfl)) hrange hlapsed
  · have hop : s.modeReqBy m s.leader mBoot = ((s.asked mBoot).reqEnd 1 0).boot false true := by
      rw [modeReqBy_leader ht, hoff s htr, he, hw]
      simp [mHalt, mStandby, mBoot, mTest]
    obtain ⟨hseq, hmem, -⟩ := boot_parts ((s.asked mBoot).reqEnd 1 0) false true
    refine ⟨_, congrArg Host.Outcome.next hop, by rw [hseq]; rfl, ?_, fun h => mode_boot _ _ _ h⟩
    rw [hmem, if_pos rfl]
    exact (asked_reqEnd_upd s mBoot 1 0).frame .mem (by decide)
  · have hop : s.modeReqBy m s.leader mTest = ((s.asked mTest).reqEnd 1 0).begin mTest := by
      rw [modeReqBy_leader ht, hoff s htr, he, hw, hin]
      obtain h | h := hlc <;> simp [mTest, mStandby, mBoot, mHalt, h]
    obtain ⟨hseq, -, htrans, hst⟩ := begins_asked s mTest mTest (fun q => q) hok
    rw [modSeq_id] at hseq htrans hst
    exact ⟨_, congrArg Host.Outcome.next hop, congrArg Sequencer.txn hseq, htrans, hst⟩
  · have hop : s.modeReqBy m s.leader mTest = (s.asked mTest).reqEnd 2 rqLifecycle := by
      rw [modeReqBy_leader ht, hoff s htr, he, hw, hin]
      simp [mTest, mStandby, mBoot, mHalt, h1, h4]
    obtain ⟨hst, hre⟩ := asked_reqEnd_reads s mTest (a := 2) (r := rqLifecycle) (by decide) (by decide)
    exact ⟨_, congrArg Host.Outcome.next hop, hst, hre, (asked_reqEnd_upd ..).frame⟩
  · have hne : s.devMode ≠ mService := by
      intro hm
      rw [hm] at hrun
      revert hrun
      decide
    have hop : s.modeReqBy m s.leader mStandby =
        (((s.asked mStandby).reqEnd 1 0).transit true).modSeq fun q => { q with standby := .accepted } := by
      rw [modeReqBy_leader ht, hoff s htr, he, hw, hrun]
      simp [mTest, mStandby, mBoot, mHalt, hne]
    have hupd : Upd [.regs] s (((s.asked mStandby).reqEnd 1 0).transit true) :=
      Upd.after transit_upd rfl (asked_reqEnd_upd ..)
    have hst := (asked_reqEnd_reads s mStandby (a := 1) (r := 0) (by decide) (by decide)).1
    refine ⟨_, congrArg Host.Outcome.next hop, ?_, fun h => ?_, ?_, (Upd.after modSeq_upd rfl <| Upd.after hupd rfl .refl).frame⟩
    · have hseq : (((s.asked mStandby).reqEnd 1 0).transit true).seq = s.seq := hupd.frame .seq (by decide)
      generalize ((s.asked mStandby).reqEnd 1 0).transit true = u at hseq
      unfold modSeq
      dsimp only
      rw [hseq]
    · rw [rd_modSeq, transit_on]; rfl
    · rw [rd_modSeq, rd_transit _ _ _ rfl rfl, hst]
  · have hop : s.modeReqBy m s.leader mStandby = (s.asked mStandby).reqEnd 2 rqInService := by
      rw [modeReqBy_leader ht, hoff s htr, he, hw, hsvc]
      simp [mStandby, mTest, mBoot, mHalt]
    obtain ⟨hst, hre⟩ := asked_reqEnd_reads s mStandby (a := 2) (r := rqInService) (by decide) (by decide)
    exact ⟨_, congrArg Host.Outcome.next hop, hst, hre, (asked_reqEnd_upd ..).frame⟩
end Sys2Proof.Machine
end

section
/-! PROOFS. O5: transitions, STANDBY and the end of TEST -/

namespace Sys2Proof.Machine
namespace State
variable {s t u : State} {h : Half}

/-! ## Modes of the halves (R30) -/

theorem setMode_reads (s : State) (h : Half) (m : Nat) :
    (s.setMode h m).mode h = m % 16 ∧ (s.setMode h m).rd (pgSys h) SYS_MODE_PREV = s.mode h := by
  have hfit : s.mode h < 2 ^ 4 := s.rd_lt _ _
  unfold setMode mode at *
  rw [wrs_cons, wrs_cons, wrs_nil]
  refine ⟨rd_wr _ _ _ _ rfl, ?_⟩
  rw [rd_wr_sep _ _ _ _ _ _ rfl rfl rfl]
  exact rd_wr_fit _ _ rfl hfit

theorem rd_setMode_sep (s : State) (h : Half) (m p : Nat) {f : Fld} (hf : f.ok = true) (h1 : f.sep SYS_MODE_PREV = true)
    (h2 : f.sep SYS_MODE_MODE = true) : (s.setMode h m).rd p f = s.rd p f := by
  unfold setMode
  rw [wrs_cons, wrs_cons, wrs_nil, rd_wr_sep _ _ _ _ _ _ h2 hf rfl, rd_wr_sep _ _ _ _ _ _ h1 hf rfl]

theorem rd_setMode_page (s : State) (h : Half) (m : Nat) {p : Nat} {f : Fld} (hp : p ≠ pgSys h) (hf : f.off < 0x1000) :
    (s.setMode h m).rd p f = s.rd p f := by
  unfold setMode
  rw [wrs_cons, wrs_cons, wrs_nil, rd_wr_page _ _ _ _ _ _ hp hf (by decide), rd_wr_page _ _ _ _ _ _ hp hf (by decide)]

theorem pgSys_other_ne (h : Half) : pgSys (other h) ≠ pgSys h := by cases h <;> decide

theorem mode_setMode_other (s : State) (h : Half) (m : Nat) : (s.setMode h m).mode (other h) = s.mode (other h) :=
  rd_setMode_page s h m (pgSys_other_ne h) (by decide)

theorem leader_eq_other_follower (s : State) : s.leader = other s.follower := (other_other _).symm

/-- SERVICE neither begins nor ends where the device is in no mode of user service. -/
theorem service_of_out (hrun : isRun s.devMode = false) (hsvc : s.devMode ≠ mService) : s.service = s := by
  have hb : (s.devMode == mService) = false := beq_eq_false_iff_ne.mpr hsvc
  unfold service
  simp only [hrun, hb, Bool.false_and, Bool.false_eq_true, if_false, ite_self]

/-- The leader's own HALT ends the transition. -/
theorem leaderFollows_halt (htxn : s.seq.txn = some (mHalt, true)) (hrun : s.Runs s.leader) :
    s.leaderFollows = s.haltHalf s.leader ecRequested := by
  have hop : s.leaderFollows = (s.haltHalf s.leader ecRequested).service := by
    unfold leaderFollows
    simp only [htxn]
    rw [leaderChange, if_pos rfl]
  have hlead : (s.haltHalf s.leader ecRequested).leader = s.leader := by
    refine leader_congr (fun k => ?_) ?_
    all_goals
      simp (disch := decide) only [hrun.rd_haltHalf_sys, transit, wrs_cons, wrs_nil, rd_wr_sep, rd_setMode_sep]
  have hmode : (s.haltHalf s.leader ecRequested).devMode = mHalt := by
    rw [devMode, hlead]
    exact (hrun.haltHalf_halted (by decide)).1
  rw [hop, service_of_out (by rw [hmode]; decide) (by rw [hmode]; decide)]

theorem Runs.transit_haltHalf (hrun : s.Runs h) (code : Nat) (k : Half) :
    (s.haltHalf h code).rd (pgSys k) SYS_MODE_TRANSIT = 0 := by
  rw [hrun.rd_haltHalf_sys _ _ rfl rfl rfl, transit_on]
  rfl

/-! ## STANDBY (R32, R325) -/

/-- A clock source's READY bit stands in the CLK page of its half, or in the CEL page. -/
theorem rd_setSrcReady_page (s : State) (h : Half) (c : ClockSrc) (b : Bool) {p : Nat} {f : Fld} (hclk : p ≠ pgClk h)
    (hcel : p ≠ pgCel) (hf : f.off < 0x1000) : (s.setSrcReady h c b).rd p f = s.rd p f := by
  cases c with
  | porch n =>
    have hn : n.toNat < 16 := n.isLt
    unfold setSrcReady
    dsimp only
    rw [rd_wr_page _ _ _ _ _ _ hclk hf (by simp only [Fld.at, CLK_PPLL_READY]; omega)]
    split
    · exact rd_congr (porchReset_upd.frame .regs (by decide)) _ _
    · rfl
  | crystal => exact rd_wr_page s _ _ _ _ _ hcel hf (by decide)
  | irc | refH | refC | pllA | pllB | svc => exact rd_wr_page s _ _ _ _ _ hclk hf (by decide)

/-- The sleep of a half leaves the SYS pages. -/
theorem rd_sleepHalf (s : State) (h k : Half) {f : Fld} (hf : f.ok = true) (hoff : f.off < 0x1000)
    (hhall : f.sep PWR_OP_STAT_VHALL_MV = true) (hfab : f.sep PWR_VFAB_NOW_MV = true) :
    (s.sleepHalf h).rd (pgSys k) f = s.rd (pgSys k) f := by
  have hclk : pgSys k ≠ pgClk h := by cases h <;> cases k <;> decide
  have hcel : pgSys k ≠ pgCel := by cases k <;> decide
  have hmem (n : Nat) : pgSys k ≠ pgMem n := by cases k <;> simp only [pgSys, pgMem, halfBit] <;> omega
  unfold sleepHalf
  extract_lets x6 x7 x8 x9
  have h8 : x8.rd (pgSys k) f = x7.rd (pgSys k) f := rd_foldl x7 _ fun u n => rd_setSrcReady_page u h _ _ hclk hcel hoff
  rw [rd_wr_page _ _ _ _ _ _ (hmem _) hoff (by decide), rd_wr_page _ _ _ _ _ _ (hmem _) hoff (by decide)]
  calc x9.rd (pgSys k) f = x8.rd (pgSys k) f := rd_modPow _ _
    _ = x7.rd (pgSys k) f := h8
    _ = x6.rd (pgSys k) f := rd_wr_page _ _ _ _ _ _ hclk hoff (by decide)
    _ = s.rd (pgSys k) f := by rw [rd_avsCommit _ _ _ _ _ hf hhall hfab, rd_avsCommit _ _ _ _ _ hf hhall hfab]

theorem mode_sleepHalf (s : State) (h k : Half) : (s.sleepHalf h).mode k = s.mode k :=
  rd_sleepHalf s h k rfl (by decide) rfl rfl

/-- Both halves in a mode, West's first. -/
theorem both_setMode (s : State) {m : Nat} (hm : m < 16) (k : Half) :
    ((s.setMode .west m).setMode .east m).mode k = m ∧ ((s.setMode .west m).setMode .east m).rd (pgSys k) SYS_MODE_PREV = s.mode k := by
  have hmod : m % 16 = m := Nat.mod_eq_of_lt hm
  cases k with
  | east =>
    obtain ⟨h1, h2⟩ := setMode_reads (s.setMode .west m) .east m
    exact ⟨h1.trans hmod, h2.trans (mode_setMode_other s .west m)⟩
  | west =>
    obtain ⟨h1, h2⟩ := setMode_reads s .west m
    exact ⟨(mode_setMode_other _ .east m).trans (h1.trans hmod), (rd_setMode_page _ .east m (by decide) (by decide)).trans h2⟩

theorem powerDown_reads (hq : s.standbyQuiet = true) (k : Half) :
    s.powerDown.seq.standby = .asleep ∧ s.powerDown.mode k = mStandby ∧ s.powerDown.rd (pgSys k) SYS_MODE_PREV = s.mode k ∧
      s.powerDown.rd (pgSys k) SYS_MODE_TRANSIT = 0 := by
  have hu (k : Half) : ((s.sleepHalf .east).sleepHalf .west).mode k = s.mode k :=
    (mode_sleepHalf _ .west k).trans (mode_sleepHalf s .east k)
  have hop : s.powerDown = (((((((s.sleepHalf .east).sleepHalf .west).setMode .west mStandby).setMode .east mStandby).wr pgHlk
      HLK_LINK_L1 (((s.sleepHalf .east).sleepHalf .west).rd pgHlk HLK_LINK_DL_UP)).transit false).modSeq
        fun q => { q with standby := .asleep }).crsByMode := by
    unfold powerDown
    rw [if_pos hq]
  rw [hop]
  generalize (s.sleepHalf .east).sleepHalf .west = u at hu
  obtain ⟨hmode, hprev⟩ := both_setMode u (m := mStandby) (by decide) k
  generalize hw : (u.setMode .west mStandby).setMode .east mStandby = w at hmode hprev
  generalize hv' : w.wr pgHlk HLK_LINK_L1 (u.rd pgHlk HLK_LINK_DL_UP) = v
  have hv {f : Fld} (hoff : f.off < 0x1000) : v.rd (pgSys k) f = w.rd (pgSys k) f := by
    rw [← hv', rd_wr_page _ _ _ _ _ _ (by cases k <;> decide) hoff (by decide)]
  have hcrs : pgSys k ≠ pgCrs := by cases k <;> decide
  refine ⟨?_, ?_, ?_, ?_⟩
  · rw [crsByMode_upd.frame .seq (by decide)]
    rfl
  · unfold mode at *
    rw [rd_crsByMode _ (.inl ⟨hcrs, by decide⟩) rfl, rd_modSeq, rd_transit _ _ _ rfl rfl, hv (f := SYS_MODE_MODE) (by decide), hmode]
  · rw [rd_crsByMode _ (.inl ⟨hcrs, by decide⟩) rfl, rd_modSeq, rd_transit _ _ _ rfl rfl, hv (f := SYS_MODE_PREV) (by decide), hprev, hu]
  · rw [rd_crsByMode _ (.inl ⟨hcrs, by decide⟩) rfl, rd_modSeq, transit_on]
    rfl

/-- An event that the device delivers to the cox in any case writes what an event writes. -/
theorem regs_raiseCox (s : State) (h : Half) (b : Nat) : (s.raiseCox h b).regs = (s.raise (pgSys h) b).regs := by
  unfold raiseCox
  dsimp only
  split
  · rfl
  · exact toCox_upd.frame .regs (by decide)

theorem rd_raiseCox_sep (s : State) (h : Half) (b p : Nat) {f : Fld} (hs : f.sep PG_IRQ_RAW = true) (hf : f.ok = true) :
    (s.raiseCox h b).rd p f = s.rd p f :=
  (rd_congr (regs_raiseCox s h b) p f).trans (rd_raise_sep s p _ b hs hf)

/-- The first part of an entry's abandon (R33): the crews on their way out stay. -/
def standbyKept (s : State) : State :=
  (List.range 16).foldl
    (fun s w =>
      match (s.wing w).swap with
      | some x => if x.kind = .standby then (x.outs.foldl (fun s id => s.keepCrew id false) (s.wingFree w)) else s
      | none => s) (s.modSeq fun q => { q with standby := .none, wakePend := 0, drained := [] })

/-- The second part: the pinned crews that it quiesced reopen. -/
def standbyReopened (s : State) : State :=
  (s.crews.filter fun e => e.2.state == .pinned && (s.room (e.2.suite.headD 0)).quiesce &&
    !((s.wing (crewWing e.2)).swap.map fun x => x.outs.contains e.1).getD false).foldl
    (fun s e => (s.reopenRooms e.1 e.2).unparkPorches e.2) s

/-- What is left of an entry that is abandoned before the Steward's decisions. -/
def standbyLeft (s : State) : State :=
  let u := (s.standbyKept.standbyReopened.transit false).reqEnd 2 rqEntryFailed
  u.raiseCox u.leader 3

theorem standbyAbandon_eq (s : State) : s.standbyAbandon =
    (((((s.standbyLeft.retireAct .east).retireAct .west).decision .east).decision .west).settlePorts).service := rfl

theorem seq_standbyReopened (s : State) : s.standbyReopened.seq = s.seq := by
  have hupd : Upd [.out, .doorway, .rooms, .fabric, .sigs, .blocks, .reads, .porches] s s.standbyReopened := by
    unfold standbyReopened
    exact Upd.foldl (fun _ _ hx => Upd.after unparkPorches_upd rfl <| Upd.after reopenRooms_upd rfl hx) _ .refl
  exact hupd.frame .seq (by decide)

theorem standby_standbyKept (s : State) : s.standbyKept.seq.standby = .none := by
  have hupd : Upd [.out, .draws, .doorway, .rooms, .fabric, .sigs, .blocks, .crews, .wings, .reads]
      (s.modSeq fun q => { q with standby := .none, wakePend := 0, drained := [] }) s.standbyKept := by
    unfold standbyKept
    refine Upd.foldl (fun t w ht => ?_) _ .refl
    split
    · split
      · exact Upd.foldl (fun _ _ hx => Upd.after keepCrew_upd rfl hx) _ (Upd.after wingFree_upd rfl ht)
      · exact ht
    · exact ht
  exact congrArg Sequencer.standby (hupd.frame .seq (by decide))

theorem standbyLeft_reads (s : State) : s.standbyLeft.seq.standby = .none ∧
    (∀ h, s.standbyLeft.rd (pgSys h) SYS_MODE_TRANSIT = 0) ∧
    s.standbyLeft.rd (pgSys s.standbyLeft.leader) SYS_MODE_REQ_STATUS = 2 ∧
      s.standbyLeft.rd (pgSys s.standbyLeft.leader) SYS_MODE_REQ_REASON = rqEntryFailed := by
  have hst : s.standbyKept.standbyReopened.seq.standby = .none := by rw [seq_standbyReopened, standby_standbyKept]
  unfold standbyLeft
  generalize s.standbyKept.standbyReopened = v at hst
  have hu : Upd [.regs] v ((v.transit false).reqEnd 2 rqEntryFailed) := Upd.after reqEnd_upd rfl transit_upd
  have htr (h : Half) : ((v.transit false).reqEnd 2 rqEntryFailed).rd (pgSys h) SYS_MODE_TRANSIT = 0 := by
    rw [rd_reqEnd_sep _ _ _ _ rfl rfl rfl, transit_on]; rfl
  obtain ⟨hs, hr⟩ := reqEnd_reads (v.transit false) (a := 2) (r := rqEntryFailed) (by decide) (by decide)
  rw [← leader_reqEnd (v.transit false) 2 rqEntryFailed] at hs hr
  generalize (v.transit false).reqEnd 2 rqEntryFailed = u at *
  have hlead : (u.raiseCox u.leader 3).leader = u.leader :=
    leader_congr (fun _ => rd_raiseCox_sep _ _ _ _ rfl rfl) (rd_raiseCox_sep _ _ _ _ rfl rfl)
  have hseq : (u.raiseCox u.leader 3).seq = v.seq := (raiseCox_upd.frame .seq (by decide)).trans (hu.frame .seq (by decide))
  dsimp only
  rw [hlead, hseq]
  refine ⟨hst, fun h => ?_, ?_, ?_⟩
  · rw [rd_raiseCox_sep _ _ _ _ rfl rfl, htr]
  · rw [rd_raiseCox_sep _ _ _ _ rfl rfl, hs]
  · rw [rd_raiseCox_sep _ _ _ _ rfl rfl, hr]

/-! ## The wake from STANDBY (R322, R326) -/

theorem rd_avsCommit_page (s : State) (h : Half) (rail v : Nat) {p : Nat} {f : Fld} (hp : p ≠ pgPwr h) (hf : f.off < 0x1000) :
    (s.avsCommit h rail v).rd p f = s.rd p f := by
  unfold avsCommit
  extract_lets t
  have ht : t.rd p f = s.rd p f := rd_emit p f
  split <;> rw [rd_wr_page _ _ _ _ _ _ hp hf (by decide), rd_modPow, ht]

/-- The step of a wake that puts a half's hall on IRC. -/
theorem wakeHalf_reads (s : State) (h : Half) :
    (s.wakeHalf h).rd (pgClk h) CLK_SRC_STAT_HALL_SEL = 2 ∧ (s.wakeHalf h).rd (pgPwr h) PWR_OP_STAT_ON_IRC = 1 := by
  have hne : pgClk h ≠ pgPwr h := by cases h <;> decide
  unfold wakeHalf
  extract_lets t u v
  refine ⟨?_, ?_⟩
  · rw [rd_avsCommit_page _ _ _ _ hne (by decide), rd_avsCommit_page _ _ _ _ hne (by decide)]
    show (((t.wrs (pgClk h) [(CLK_SRC_STAT_HALL_SEL, 2), (CLK_SRC_STAT_SVC_SEL, 2)]).wr (pgPwr h) PWR_OP_STAT_ON_IRC 1).rd
      (pgClk h) CLK_SRC_STAT_HALL_SEL) = 2
    rw [rd_wr_page _ _ _ _ _ _ hne (by decide) (by decide), wrs_cons, wrs_cons, wrs_nil, rd_wr_sep _ _ _ _ _ _ rfl rfl rfl]
    exact rd_wr_fit _ _ rfl (by decide)
  · rw [rd_avsCommit _ _ _ _ _ rfl rfl rfl, rd_avsCommit _ _ _ _ _ rfl rfl rfl]
    exact rd_wr_fit _ _ rfl (by decide)

/-- It writes the CLK and PWR pages of its half alone. -/
theorem rd_wakeHalf_page (s : State) (h : Half) {p : Nat} {f : Fld} (hclk : p ≠ pgClk h) (hpwr : p ≠ pgPwr h) (hcel : p ≠ pgCel)
    (hf : f.off < 0x1000) : (s.wakeHalf h).rd p f = s.rd p f := by
  unfold wakeHalf
  extract_lets t u v
  rw [rd_avsCommit_page _ _ _ _ hpwr hf, rd_avsCommit_page _ _ _ _ hpwr hf]
  show ((t.wrs (pgClk h) [(CLK_SRC_STAT_HALL_SEL, 2), (CLK_SRC_STAT_SVC_SEL, 2)]).wr (pgPwr h) PWR_OP_STAT_ON_IRC 1).rd p f = _
  rw [rd_wr_page _ _ _ _ _ _ hpwr hf (by decide), wrs_cons, wrs_cons, wrs_nil, rd_wr_page _ _ _ _ _ _ hclk hf (by decide),
    rd_wr_page _ _ _ _ _ _ hclk hf (by decide)]
  exact rd_setSrcReady_page s h .irc true hclk hcel hf

theorem wakeCause_reads (s : State) (on : Nat) :
    (s.wakeCause on).rd pgCel CEL_WAKE_CAUSE_CAUSE = on % 16 ∧ (s.wakeCause on).rd pgCel CEL_WAKE_CAUSE_VALID = 1 := by
  unfold wakeCause
  rw [wrs_cons, wrs_cons, wrs_nil]
  refine ⟨rd_wr _ _ _ _ rfl, ?_⟩
  rw [rd_wr_sep _ _ _ _ _ _ rfl rfl rfl]
  exact rd_wr_fit _ _ rfl (by decide)

theorem rd_wakeHalf_cel (s : State) (h : Half) {f : Fld} (hf : f.off = CEL_WAKE_CAUSE_CAUSE.off) :
    (s.wakeHalf h).rd pgCel f = s.rd pgCel f := by
  have hclk : pgCel ≠ pgClk h := by cases h <;> decide
  have hpwr : pgCel ≠ pgPwr h := by cases h <;> decide
  have hoff : f.off < 0x1000 := by rw [hf]; decide
  unfold wakeHalf
  extract_lets t u v
  rw [rd_avsCommit_page _ _ _ _ hpwr hoff, rd_avsCommit_page _ _ _ _ hpwr hoff]
  show ((t.wrs (pgClk h) [(CLK_SRC_STAT_HALL_SEL, 2), (CLK_SRC_STAT_SVC_SEL, 2)]).wr (pgPwr h) PWR_OP_STAT_ON_IRC 1).rd pgCel f = _
  rw [rd_wr_page _ _ _ _ _ _ hpwr hoff (by decide), wrs_cons, wrs_cons, wrs_nil, rd_wr_page _ _ _ _ _ _ hclk hoff (by decide),
    rd_wr_page _ _ _ _ _ _ hclk hoff (by decide)]
  exact rd_wr_page _ _ _ _ _ _ hclk hoff (by decide)

theorem seq_wakeUp (s : State) : s.wakeUp.seq = { s.seq with standby := .none, wakePend := 0, drained := [] } := by
  unfold wakeUp
  extract_lets run half a lines wake b c g d pins e
  have hhalf (u : State) (h : Half) : Upd [.regs] u (half u h) :=
    Upd.after setMode_upd rfl <| Upd.after wrs_upd rfl <| Upd.after step1_upd rfl <| Upd.after wr_upd rfl wr_upd
  have ha : a.seq = s.seq := (Upd.after (hhalf _ .west) rfl (hhalf s .east)).frame .seq (by decide)
  have hb : b.seq = { s.seq with standby := .none, wakePend := 0, drained := [] } := by
    rw [← ha]
    rfl
  have hc : Upd (Part.allBut [.seq]) b c :=
    Upd.foldl (fun _ _ ht => Upd.ite (Upd.after raise_upd rfl ht) ht) _ .refl
  have hd : Upd (Part.allBut [.seq]) b d := by
    exact Upd.ite (Upd.g2 hc rfl) hc
  have he : Upd (Part.allBut [.seq]) b e :=
    Upd.foldl (fun _ _ ht => Upd.after unparkPorches_upd rfl <| Upd.after reopenRooms_upd rfl ht) _ hd
  have hfin : Upd (Part.allBut [.seq]) b ((((e.crsByMode.retireAct .east).retireAct .west).decision .east).decision .west).settlePorts :=
    Upd.after settlePorts_upd rfl <| Upd.after decision_upd rfl <| Upd.after decision_upd rfl <| Upd.after
      retireAct_upd rfl <| Upd.after retireAct_upd rfl <| Upd.after crsByMode_upd rfl he
  exact (hfin.frame .seq (by decide)).trans hb

theorem wakeUp_ends (s : State) : s.wakeUp.seq.standby = .none ∧ s.wakeUp.seq.wakePend = 0 := by
  rw [seq_wakeUp]
  exact ⟨rfl, rfl⟩

theorem wakeLate_wakes (hst : s.seq.standby = .waking) : ∃ u : State, s.wakeLate = u.wakeUp := by
  unfold wakeLate
  rw [hst]
  exact ⟨_, if_pos rfl⟩

/-- The state in which a wake from STANDBY leaves the halls on IRC. -/
def woken (s : State) (on lines : Nat) : State :=
  ((({ s with pins := { s.pins with wakeLines := s.pins.wakeLines ||| (if on.testBit 0 then lines else 0) } } :
    State).wakeCause on).wakeHalf .east).wakeHalf .west

theorem standbyWakes_asleep (src lines : Nat) (ready : Bool) (hst : s.seq.standby = .asleep)
    (hon : (s.wakeOn src ||| s.seq.wakePend) ≠ 0) :
    s.standbyWakes src lines ready =
      if ready then (((s.woken (s.wakeOn src ||| s.seq.wakePend) lines).plls .east).plls .west).wakeUp
      else (s.woken (s.wakeOn src ||| s.seq.wakePend) lines).modSeq fun q => { q with standby := .waking } := by
  have hbne : (s.wakeOn src ||| s.seq.wakePend != 0) = true := bne_iff_ne.mpr hon
  unfold standbyWakes
  simp only [hst, hbne, beq_self_eq_true, Bool.and_self, if_true]
  rfl

theorem woken_reads (s : State) (on lines : Nat) :
    (s.woken on lines).rd pgCel CEL_WAKE_CAUSE_CAUSE = on % 16 ∧ (s.woken on lines).rd pgCel CEL_WAKE_CAUSE_VALID = 1 ∧
      ∀ h, (s.woken on lines).rd (pgClk h) CLK_SRC_STAT_HALL_SEL = 2 ∧ (s.woken on lines).rd (pgPwr h) PWR_OP_STAT_ON_IRC = 1 := by
  unfold woken
  obtain ⟨hcause, hvalid⟩ := wakeCause_reads { s with pins := { s.pins with
    wakeLines := s.pins.wakeLines ||| (if on.testBit 0 then lines else 0) } } on
  generalize State.wakeCause _ on = u at *
  refine ⟨?_, ?_, fun h => ?_⟩
  · rw [rd_wakeHalf_cel _ _ rfl, rd_wakeHalf_cel _ _ rfl, hcause]
  · rw [rd_wakeHalf_cel _ _ (f := CEL_WAKE_CAUSE_VALID) rfl, rd_wakeHalf_cel _ _ (f := CEL_WAKE_CAUSE_VALID) rfl, hvalid]
  · cases h with
    | west => exact wakeHalf_reads _ .west
    | east =>
      rw [rd_wakeHalf_page _ .west (p := pgClk .east) (by decide) (by decide) (by decide) (by decide),
        rd_wakeHalf_page _ .west (p := pgPwr .east) (by decide) (by decide) (by decide) (by decide)]
      exact wakeHalf_reads u .east

/-- A wake whose PLLs are late waits on IRC. -/
theorem standbyWakes_late {src : Nat} (lines : Nat) (hst : s.seq.standby = .asleep) (hon : (s.wakeOn src ||| s.seq.wakePend) ≠ 0) :
    ∃ w : State, s.standbyWakes src lines false = w.modSeq (fun q => { q with standby := .waking }) ∧
      Upd [.regs, .out, .draws, .power, .cross, .porches, .pins] s w ∧
      w.rd pgCel CEL_WAKE_CAUSE_CAUSE = (s.wakeOn src ||| s.seq.wakePend) % 16 ∧ w.rd pgCel CEL_WAKE_CAUSE_VALID = 1 ∧
        ∀ h, w.rd (pgClk h) CLK_SRC_STAT_HALL_SEL = 2 ∧ w.rd (pgPwr h) PWR_OP_STAT_ON_IRC = 1 := by
  refine ⟨s.woken (s.wakeOn src ||| s.seq.wakePend) lines, ?_, ?_, woken_reads s _ lines⟩
  · rw [standbyWakes_asleep src lines false hst hon, if_neg (by decide)]
  · exact Upd.after wakeHalf_upd rfl <| Upd.after wakeHalf_upd rfl <| Upd.after wakeCause_upd rfl <| Upd.pins .refl rfl

/-! ## TEST's summary outlasts BOOT (R387) -/

/-- The Attic's summary of TEST is as it was. -/
def KeepsSum (s t : State) : Prop := t.attic.testSum = s.attic.testSum

theorem KeepsSum.of_attic (h : t.attic = s.attic) : KeepsSum s t := congrArg Attic.testSum h

theorem KeepsSum.trans (h : KeepsSum s t) (h' : KeepsSum t u) : KeepsSum s u := Eq.trans h' h

theorem recordFrame_keepsSum (s : State) (f : Nat) : KeepsSum s (s.recordFrame f) := by
  unfold recordFrame
  split
  · rfl
  · split
    · rfl
    · exact .of_attic (pgErr_upd.frame .attic (by decide))

theorem retireFrame_keepsSum (s : State) (f : Nat) : KeepsSum s (s.retireFrame f) := by
  have hput (v : State) (b : State) (h : Half) (hv : KeepsSum s v) : KeepsSum s (v.poolWatch h b) :=
    hv.trans (.of_attic (poolWatch_upd.frame .attic (by decide)))
  unfold retireFrame
  split
  · rfl
  · extract_lets h ctl a b gal
    have ha : KeepsSum s a := by unfold a; split <;> rfl
    have hb : KeepsSum s b := hput a s h ha
    clear_value a b
    split
    · exact hb
    · exact hb.trans (recordFrame_keepsSum b f)

theorem ueRecord_keepsSum (s : State) (source sector : Nat) : KeepsSum s (s.ueRecord source sector) := by
  have hrec : Upd [.regs, .out, .host, .cox] s (((s.step1 (pgMem (sectorStack sector)) MEM_UE_SEQ).wrs (pgMem (sectorStack sector))
      [(MEM_UE_ADDR_SECTOR, sector), (MEM_UE_VALID, 1), (MEM_UE_SOURCE, source)]).raise (pgMem (sectorStack sector)) 0) :=
    Upd.after raise_upd rfl <| Upd.after wrs_upd rfl <| Upd.after step1_upd rfl .refl
  obtain ⟨b, hb, heq⟩ : ∃ b : State, KeepsSum s b ∧ s.ueRecord source sector =
      if source = uePatrol ∨ b.stackCtl.ueOnce.contains sector then b.retireFrame (sector / 0x10000)
      else { b with stackCtl := { b.stackCtl with ueOnce := sector :: b.stackCtl.ueOnce } } :=
    ⟨_, .of_attic (hrec.frame .attic (by decide)), rfl⟩
  rw [heq]
  split
  · exact hb.trans (retireFrame_keepsSum b _)
  · exact hb

theorem readSector_keepsSum (s : State) (source sector : Nat) : KeepsSum s (s.readSector source sector).2 := by
  unfold readSector
  extract_lets p
  split
  · rfl
  · exact .of_attic (bump_upd.frame .attic (by decide))
  · exact .of_attic (bump_upd.frame .attic (by decide))
  · split
    · exact ueRecord_keepsSum s source sector
    · exact .of_attic (bump_upd.frame .attic (by decide))

theorem readMem_keepsSum (s : State) (source a n : Nat) : KeepsSum s (s.readMem source a n).2 := by
  unfold readMem
  extract_lets start
  have hstart : KeepsSum s start.2 := rfl
  clear_value start
  generalize s.badSectors a n = l
  induction l generalizing start with
  | nil => exact hstart
  | cons sec l ih =>
    refine ih _ ?_
    dsimp only
    split
    · exact hstart
    · have hsec := readSector_keepsSum start.2 source sec
      generalize start.2.readSector source sec = r at hsec
      obtain ⟨d, v⟩ := r
      cases d <;> exact hstart.trans hsec

theorem progCopy_keepsSum (s : State) (g : Prog) (n : Nat) : KeepsSum s (s.progCopy g n).2.2 := by
  have hall (l : List Nat) (b : Nat × Bool × State) (hb : KeepsSum s b.2.2) :
      KeepsSum s (l.foldl (fun (acc : Nat × Bool × State) i =>
        let (done, bad, s) := acc
        if bad then acc
        else
          match s.readMem ueAttic ((g.src + i) * 0x1000) 0x1000 with
          | (.error _, s) => (done, true, s)
          | (.ok t, s) =>
            (done + 1, false, { s with attic := { s.attic with
              data := Tbl.splice s.attic.data ((g.dst + i) * 0x1000) 0x1000 t
              lost := s.attic.lost.filter fun a => a / 0x1000 != g.dst + i } })) b).2.2 := by
    induction l generalizing b with
    | nil => exact hb
    | cons i l ih =>
      refine ih _ ?_
      obtain ⟨done, bad, v⟩ := b
      dsimp only
      split
      · exact hb
      · have hread := readMem_keepsSum v ueAttic ((g.src + i) * 0x1000) 0x1000
        generalize v.readMem ueAttic ((g.src + i) * 0x1000) 0x1000 = r at hread
        obtain ⟨d, w⟩ := r
        cases d <;> exact KeepsSum.trans hb hread
  exact hall _ _ rfl

theorem progCut_keepsSum (s : State) : KeepsSum s s.progCut := by
  unfold progCut
  split
  · rfl
  · next g hg =>
    extract_lets n
    have hcopy : KeepsSum s (s.drew.progCopy g n).2.2 := progCopy_keepsSum s.drew g n
    generalize s.drew.progCopy g n = r at hcopy
    obtain ⟨done, bad, v⟩ := r
    dsimp only
    split
    · exact hcopy
    · exact hcopy

theorem attic_resetAll (s : State) (a b : Bool) : (s.resetAll a b).attic = s.attic := by
  unfold resetAll
  extract_lets _ _ _ _ _ _ t t₁ t₂ t₃
  have ht : t.attic = s.attic := rfl
  clear_value t
  rw [wr_upd.frame .attic (by decide)]
  cases a <;> exact ht

theorem boot_keepsSum (s : State) (a b : Bool) : KeepsSum s (s.boot a b) :=
  (progCut_keepsSum s).trans (.of_attic (attic_resetAll _ a b))

/-- The fields of TEST's summary. -/
theorem testSum_reads {v : Word} {pass hf sf : Bool} {n k m : Nat} (hv : v =
    [(BST_TEST_SUM_VALID, 1), (BST_TEST_SUM_PASS, bit pass), (BST_TEST_SUM_HALL_FAIL, bit hf), (BST_TEST_SUM_STACK_FAIL, bit sf),
      (BST_TEST_SUM_SEQ, n), (BST_TEST_SUM_FAILED_ROOMS, k), (BST_TEST_SUM_TESTED_ROOMS, m)].foldl
      (fun (w : Word) (e : Fld × Nat) => e.1.put e.2 w) 0) :
    BST_TEST_SUM_VALID.get v = 1 ∧ BST_TEST_SUM_HALL_FAIL.get v = bit hf ∧ BST_TEST_SUM_STACK_FAIL.get v = bit sf ∧
      BST_TEST_SUM_PASS.get v = bit pass := by
  have hone (b : Bool) : bit b % 2 = bit b := Nat.mod_eq_of_lt (bit_lt_two b)
  subst hv
  simp only [List.foldl_cons, List.foldl_nil]
  refine ⟨?_, ?_, ?_, ?_⟩
  · simp (disch := decide) only [Fld.get_put_of_disjoint]
    exact Fld.get_put _ rfl _ _
  · simp (disch := decide) only [Fld.get_put_of_disjoint]
    exact (Fld.get_put _ rfl _ _).trans (hone hf)
  · simp (disch := decide) only [Fld.get_put_of_disjoint]
    exact (Fld.get_put _ rfl _ _).trans (hone sf)
  · simp (disch := decide) only [Fld.get_put_of_disjoint]
    exact (Fld.get_put _ rfl _ _).trans (hone pass)

/-- The end of TEST is a BOOT with the summary in the Attic. -/
theorem testEnds_boots (rooms frames : List Nat) (hf sf : Bool) (hm : s.devMode = mTest) (htxn : s.seq.txn = none) :
    ∃ u : State, s.testEnds rooms frames hf sf = u.boot false false ∧ BST_TEST_SUM_VALID.get u.attic.testSum = 1 ∧
      BST_TEST_SUM_HALL_FAIL.get u.attic.testSum = bit hf ∧ BST_TEST_SUM_STACK_FAIL.get u.attic.testSum = bit sf ∧
        BST_TEST_SUM_PASS.get u.attic.testSum = bit ((rooms.eraseDups.filter roomOk).isEmpty && !hf && !sf) := by
  have hcond : (s.devMode == mTest && s.seq.txn.isNone) = true := by simp [hm, htxn]
  unfold testEnds
  rw [if_pos hcond]
  exact ⟨_, rfl, testSum_reads rfl⟩

end State
open State

/-- Settles O5. -/
theorem transitionsAct : Obligations.TransitionsAct := by
  refine ⟨fun s m htxn hm => ?_, fun s htxn hlo hhi => ?_, fun s htxn hlo hhi => ?_, fun s m htxn hm => ?_, fun s hst => ?_,
    fun s hq => ?_, fun s hst => ?_, fun s src lines hst hon => ?_, fun s src lines hst hon => ?_, fun s hst => ?_,
    fun s rooms frames hf sf hm htxn => ?_⟩
  · have hop : s.followerChange = (s.setMode s.follower m).modSeq fun q => { q with txn := some (m, true) } := by
      unfold followerChange
      simp only [htxn, if_neg hm]
    obtain ⟨hmode, hprev⟩ := setMode_reads s s.follower m
    have hseq : (s.setMode s.follower m).seq = s.seq := setMode_upd.frame .seq (by decide)
    refine ⟨_, congrArg Host.Outcome.next hop, ?_, ?_, ?_, ?_, (Upd.after modSeq_upd rfl <| Upd.after setMode_upd rfl .refl).frame⟩
    · exact (rd_modSeq _ _).trans hmode
    · rw [leader_eq_other_follower]
      exact (rd_modSeq _ _).trans (mode_setMode_other s s.follower m)
    · exact (rd_modSeq _ _).trans hprev
    · show { (s.setMode s.follower m).seq with txn := some (m, true) } = _
      rw [hseq]
  · have hrun := runs_of_range s hlo hhi
    have hop : s.followerChange = ((s.haltHalf s.follower ecRequested).transit true).modSeq fun q => { q with txn := some (mHalt, true) } := by
      unfold followerChange
      simp only [htxn, if_true]
    obtain ⟨hmode, hcode, hlast⟩ := hrun.haltHalf_halted (code := ecRequested) (by decide)
    have hrd (p : Nat) {f : Fld} (hf : f.ok = true) (hs : f.sep SYS_MODE_TRANSIT = true) :
        (((s.haltHalf s.follower ecRequested).transit true).modSeq fun q => { q with txn := some (mHalt, true) }).rd p f =
          (s.haltHalf s.follower ecRequested).rd p f := by
      rw [rd_modSeq, rd_transit _ _ _ hf hs]
    refine ⟨_, congrArg Host.Outcome.next hop, ⟨?_, ?_, ?_⟩, ?_, rfl, fun k => ?_⟩
    · exact (hrd _ rfl rfl).trans hmode
    · exact (hrd _ rfl rfl).trans hcode
    · exact (hrd _ rfl rfl).trans hlast
    · rw [leader_eq_other_follower]
      exact (hrd _ rfl rfl).trans (mode_haltHalf_other s s.follower ecRequested)
    · rw [rd_modSeq, transit_on]; rfl
  · have hrun := runs_of_range s hlo hhi
    exact ⟨_, congrArg Host.Outcome.next (leaderFollows_halt htxn hrun), hrun.haltHalf_halted (by decide),
      hrun.transit_haltHalf _, congrArg Sequencer.txn (seq_haltHalf hrun _)⟩
  · have hop : s.leaderFollows =
        ((((s.setMode s.leader m).transit false).modSeq fun q => { q with txn := none }).entered m).service := by
      unfold leaderFollows
      simp only [htxn]
      rw [leaderChange, if_neg hm]
    obtain ⟨hmode, hprev⟩ := setMode_reads s s.leader m
    have hupd : Upd [.regs] s ((s.setMode s.leader m).transit false) := Upd.after transit_upd rfl setMode_upd
    have hseq : ((s.setMode s.leader m).transit false).seq = s.seq := hupd.frame .seq (by decide)
    refine ⟨_, congrArg Host.Outcome.next hop, ?_, ?_, fun k => ?_, ?_, (Upd.after modSeq_upd rfl <| Upd.after hupd rfl .refl).frame⟩
    · exact (rd_modSeq _ _).trans ((mode_transit _ _ _).trans hmode)
    · exact (rd_modSeq _ _).trans ((rd_transit _ _ _ rfl rfl).trans hprev)
    · rw [rd_modSeq, transit_on]; rfl
    · show { ((s.setMode s.leader m).transit false).seq with txn := none } = _
      rw [hseq]
  · have hop : s.standbyStart = (s.modSeq fun q => { q with standby := .entering }).standbyGo := by
      unfold standbyStart
      rw [hst]
      rfl
    exact ⟨_, congrArg Host.Outcome.next hop, rfl, modSeq_upd.frame⟩
  · have hread := powerDown_reads hq
    exact ⟨_, rfl, (hread .east).1, powerDown_upd.frame .mem (by decide), powerDown_upd.frame .fabric (by decide),
      powerDown_upd.frame .crews (by decide), fun k => (hread k).2⟩
  · exact ⟨s.standbyLeft, congrArg Host.Outcome.next ((if_pos hst).trans (standbyAbandon_eq s)), standbyLeft_reads s⟩
  · have hop : s.standbyWakes src.toNat lines.toNat true = _ := (standbyWakes_asleep _ _ true hst hon).trans (if_pos rfl)
    exact ⟨_, congrArg Host.Outcome.next hop, wakeUp_ends _⟩
  · obtain ⟨w, hop, hupd, hcause, hvalid, hhalls⟩ := standbyWakes_late lines.toNat hst hon
    refine ⟨_, congrArg Host.Outcome.next hop, rfl, hupd.frame .mem (by decide), hupd.frame .crews (by decide), ?_, ?_, fun h => ⟨?_, ?_⟩⟩
    · exact (rd_modSeq _ _).trans hcause
    · exact (rd_modSeq _ _).trans hvalid
    · exact (rd_modSeq _ _).trans (hhalls h).1
    · exact (rd_modSeq _ _).trans (hhalls h).2
  · obtain ⟨u, hlate⟩ := wakeLate_wakes hst
    exact ⟨_, congrArg Host.Outcome.next hlate, wakeUp_ends _⟩
  · obtain ⟨u, hop, hvalid, hhall, hstack, hpass⟩ := testEnds_boots (rooms.map (·.toNat)) (frames.map (·.toNat)) hf sf hm htxn
    obtain ⟨hseq, -⟩ := boot_parts u false false
    have hsum : (u.boot false false).attic.testSum = u.attic.testSum := boot_keepsSum u false false
    refine ⟨_, congrArg Host.Outcome.next hop, fun h => mode_boot _ _ _ h, by rw [hseq]; rfl, ?_⟩
    rw [hsum]
    exact ⟨hvalid, hhall, hstack, hpass⟩

end Sys2Proof.Machine
end

section
/-! PROOFS. O6: the lease and the Gallery -/

namespace Sys2Proof.Machine
namespace State
variable {s t u : State} {h : Half}

/-! ## Renewals and lapses of the lease (R373 to R375) -/

/-- A renewal that arrives: EPOCH advances and AGE restarts. -/
theorem renewed_reads (s : State) (h : Half) (u : State)
    (hu : u = (s.step1 (pgSys h) SYS_LEASE_EPOCH).wr (pgSys h) SYS_LEASE_AGE 0) :
    u.rd (pgSys h) SYS_LEASE_EPOCH = (s.rd (pgSys h) SYS_LEASE_EPOCH + 1) % 2 ^ 16 ∧ u.rd (pgSys h) SYS_LEASE_AGE = 0 := by
  subst hu
  refine ⟨?_, rd_wr_fit _ _ rfl (by decide)⟩
  rw [rd_wr_sep _ _ _ _ _ _ rfl rfl rfl]
  exact rd_step1 _ _ rfl

/-- A renewal acts where the Gallery is up and the device is neither in STANDBY nor cut off. -/
theorem renewal_due (hup : s.galleryUp = true) (hst : s.devMode ≠ mStandby) (hl : s.lapsed s.leader = false)
    (ho : s.orphan s.follower = false) :
    (s.galleryUp && s.devMode != mStandby && !s.lapsed s.leader && !s.orphan s.follower) = true := by
  simp [hup, hst, hl, ho]

/-- A lapse: LEASE_OK falls and LAPSES counts it. -/
theorem lapse_reads (s : State) (h : Half) :
    (s.lapse h).rd (pgSys h) SYS_ROLE_LEASE_OK = 0 ∧
      (s.lapse h).rd (pgSys h) SYS_ROLE_LAPSES = min 255 (s.rd (pgSys h) SYS_ROLE_LAPSES + 1) := by
  unfold lapse
  rw [wrs_cons, wrs_cons, wrs_nil]
  refine ⟨?_, ?_⟩
  · rw [rd_bump_sep _ _ _ rfl rfl rfl, rd_wr_sep _ _ _ _ _ _ rfl rfl rfl]
    exact rd_wr_fit _ _ rfl (by decide)
  · rw [rd_bump _ _ rfl, rd_wr_sep _ _ _ _ _ _ rfl rfl rfl, rd_wr_sep _ _ _ _ _ _ rfl rfl rfl]
    rfl

theorem rd_lapse_sep (s : State) (h : Half) (p : Nat) {f : Fld} (hf : f.ok = true) (h1 : f.sep SYS_ROLE_LEASE_OK = true)
    (h2 : f.sep SYS_LEASE_AGE = true) (h3 : f.sep SYS_ROLE_LAPSES = true) : (s.lapse h).rd p f = s.rd p f := by
  unfold lapse
  rw [wrs_cons, wrs_cons, wrs_nil, rd_bump_sep _ _ _ h3 hf rfl, rd_wr_sep _ _ _ _ _ _ h2 hf rfl, rd_wr_sep _ _ _ _ _ _ h1 hf rfl]

theorem raw_raiseCox (s : State) (h : Half) {b : Nat} (hb : b < 32) : ((s.raiseCox h b).rd (pgSys h) PG_IRQ_RAW).testBit b = true := by
  rw [rd_congr (regs_raiseCox s h b)]
  exact raw_raise s _ hb

theorem rd_raiseCox_page (s : State) (h : Half) (b : Nat) {p : Nat} {f : Fld} (hp : p ≠ pgSys h) (hf : f.off < 0x1000) :
    (s.raiseCox h b).rd p f = s.rd p f :=
  (rd_congr (regs_raiseCox s h b) p f).trans (rd_raise_page s p _ b hp hf)

/-- The record of a conflict of leaders in a half. -/
def conflictOf (s : State) (k : Half) : State := (s.wr (pgSys k) SYS_ROLE_LEAD_CONFLICT 1).raiseCox k 2

theorem conflictOf_reads (s : State) (k : Half) :
    (s.conflictOf k).rd (pgSys k) SYS_ROLE_LEAD_CONFLICT = 1 ∧ ((s.conflictOf k).rd (pgSys k) PG_IRQ_RAW).testBit 2 = true := by
  unfold conflictOf
  refine ⟨?_, raw_raiseCox _ _ (by decide)⟩
  rw [rd_raiseCox_sep _ _ _ _ rfl rfl]
  exact rd_wr_fit _ _ rfl (by decide)

theorem rd_conflictOf_page (s : State) (k : Half) {p : Nat} {f : Fld} (hp : p ≠ pgSys k) (hf : f.off < 0x1000) :
    (s.conflictOf k).rd p f = s.rd p f := by
  unfold conflictOf
  rw [rd_raiseCox_page _ _ _ hp hf, rd_wr_page _ _ _ _ _ _ hp hf (by decide)]

theorem rd_conflictOf_sep (s : State) (k : Half) (p : Nat) {f : Fld} (hf : f.ok = true) (h1 : f.sep PG_IRQ_RAW = true)
    (h2 : f.sep SYS_ROLE_LEAD_CONFLICT = true) : (s.conflictOf k).rd p f = s.rd p f := by
  unfold conflictOf
  rw [rd_raiseCox_sep _ _ _ _ h1 hf, rd_wr_sep _ _ _ _ _ _ h2 hf rfl]

/-- The half that the bits of LEADER name. -/
theorem leader_of_bits {k : Half} (hon : t.rd (pgSys k) SYS_ROLE_LEADER = 1) (hoff : t.rd (pgSys (other k)) SYS_ROLE_LEADER = 0) :
    t.leader = k := by
  unfold leader on
  cases k with
  | east => rw [hon]; rfl
  | west =>
    rw [show pgSys .east = pgSys (other .west) from rfl, hoff, hon]
    rfl

theorem conflict_yields (s : State) (h : Half) (hl : s.on (pgSys h) SYS_ROLE_LEADER = true) (low : Half)
    (hlow : low = if s.fuses.serial.east < s.fuses.serial.west then .east else .west) :
    s.conflict h = (((s.wr (pgSys low) SYS_ROLE_LEADER 0).wr (pgSys (other low)) SYS_ROLE_LEADER 1).conflictOf .east).conflictOf .west := by
  subst hlow
  exact if_pos hl

/-! ## The Gallery's link (R376) -/

theorem rd_setGallery_raw (s : State) (up : Bool) (h : Half) : ((s.setGallery up).rd (pgGal h) PG_IRQ_RAW).testBit (bit up) = true := by
  have hb : bit up < 32 := by cases up <;> decide
  unfold setGallery
  cases h with
  | west => exact raw_raise _ _ hb
  | east =>
    dsimp only
    rw [rd_raise_page _ _ _ _ (by decide) (by decide), rd_wr_page _ _ _ _ _ _ (by decide) (by decide) (by decide)]
    exact raw_raise _ _ hb

/-- A retry that trains the link again: the Gallery is up, and re-adoption follows in a mode of user service. -/
theorem galleryTries_up (hdown : s.galleryUp = false) (hboot : s.seq.boot = 0) (hoff : s.devMode ≠ mOff) (hcel : s.devMode ≠ mCellar)
    (hst : s.devMode ≠ mStandby) (v : State) (hv : v = { s with gallery := { s.gallery with fails := 0 } }) :
    s.galleryTries true = if inService s.devMode && (s.lapsed s.leader || s.lapsed s.follower) then (v.setGallery true).readopt
      else v.setGallery true := by
  have hrd (p : Nat) {f : Fld} (hf : f.ok = true) (h1 : f.sep GAL_LINK_STATE = true) (h2 : f.sep PG_IRQ_RAW = true) :
      (v.setGallery true).rd p f = s.rd p f := by
    rw [rd_setGallery _ _ _ hf h1 h2, hv]
    exact rd_mk s p f
  have hlead : (v.setGallery true).leader = s.leader := leader_congr (fun _ => hrd _ rfl rfl rfl) (hrd _ rfl rfl rfl)
  have hdev : (v.setGallery true).devMode = s.devMode := by
    unfold devMode mode
    rw [hlead, hrd _ rfl rfl rfl]
  have hlaps (h : Half) : (v.setGallery true).lapsed h = s.lapsed h := lapsed_congr (hrd _ rfl rfl rfl)
  have hfol : (v.setGallery true).follower = s.follower := congrArg other hlead
  have hdue : (!s.galleryUp && s.seq.boot == 0 && s.devMode != mOff && s.devMode != mCellar && s.devMode != mStandby && true) = true := by
    simp [hdown, hboot, hoff, hcel, hst]
  rw [← hlaps, ← hlaps, ← hdev, ← hlead, ← hfol]
  unfold galleryTries
  rw [if_pos hdue, ← hv]

end State
open State

/-- Settles O6. -/
theorem leaseAndGalleryAct : Obligations.LeaseAndGalleryAct := by
  refine ⟨fun s hup hst hl ho => ?_, fun s hup hst hl ho => ?_, fun s hruns hl => ?_, fun s hruns hl => ?_, fun s h hon => ?_,
    fun s hup => ?_, fun s hup => ?_, fun s hdown hboot hoff hcel hst => ?_, fun s hdown => ?_⟩
  · have hop : s.renewal = (((s.step1 (pgSys s.follower) SYS_LEASE_EPOCH).wr (pgSys s.follower) SYS_LEASE_AGE 0).wr
        (pgSys s.follower) SYS_ROLE_LEASE_OK 1).emit (s.renewalMsg rnPlain) := if_pos (renewal_due hup hst hl ho)
    obtain ⟨hepoch, hage⟩ := renewed_reads s s.follower _ rfl
    have hupd : Upd [.regs] s (((s.step1 (pgSys s.follower) SYS_LEASE_EPOCH).wr (pgSys s.follower) SYS_LEASE_AGE 0).wr
        (pgSys s.follower) SYS_ROLE_LEASE_OK 1) := Upd.after wr_upd rfl <| Upd.after wr_upd rfl step1_upd
    refine ⟨_, congrArg Host.Outcome.next hop, ?_, ?_, ?_, ?_, (Upd.after emit_upd rfl <| Upd.after hupd rfl .refl).frame⟩
    · rw [rd_emit, rd_wr_sep _ _ _ _ _ _ rfl rfl rfl, hepoch]
    · rw [rd_emit, rd_wr_sep _ _ _ _ _ _ rfl rfl rfl, hage]
    · rw [rd_emit]
      exact rd_wr_fit _ _ rfl (by decide)
    · exact congrArg (s.renewalMsg rnPlain :: ·) (hupd.frame .out (by decide))
  · have hop : s.renewed = (s.step1 (pgSys s.leader) SYS_LEASE_EPOCH).wr (pgSys s.leader) SYS_LEASE_AGE 0 :=
      if_pos (renewal_due hup hst hl ho)
    obtain ⟨hepoch, hage⟩ := renewed_reads s s.leader _ rfl
    exact ⟨_, congrArg Host.Outcome.next hop, hepoch, hage, (Upd.after wr_upd rfl <| Upd.after step1_upd rfl .refl).frame⟩
  · have hop : s.followerLapses = if inService (s.mode s.follower) then (s.lapse s.follower).wr (pgSys s.follower) SYS_MODE_ORPHAN 1
        else s.lapse s.follower := by
      have hmode : (s.lapse s.follower).mode s.follower = s.mode s.follower := rd_lapse_sep _ _ _ rfl rfl rfl rfl
      unfold followerLapses
      simp only [hruns, hl, Bool.not_false, Bool.and_self, if_true, hmode]
    obtain ⟨hok, hlaps⟩ := lapse_reads s s.follower
    refine ⟨_, congrArg Host.Outcome.next hop, ?_, ?_, ?_, ?_⟩
    · split
      · exact rd_wr_fit _ _ rfl (by decide)
      · exact rd_lapse_sep _ _ _ rfl rfl rfl rfl
    · split
      · rw [rd_wr_sep _ _ _ _ _ _ rfl rfl rfl, hok]
      · exact hok
    · split
      · rw [rd_wr_sep _ _ _ _ _ _ rfl rfl rfl, hlaps]
      · exact hlaps
    · exact (Upd.ite (Upd.after wr_upd rfl lapse_upd) lapse_upd).frame
  · have hop : s.leaderLapses = (s.lapse s.leader).raiseCox s.leader 0 := by
      unfold leaderLapses
      simp only [hruns, hl, Bool.not_false, Bool.and_self, if_true]
    obtain ⟨hok, hlaps⟩ := lapse_reads s s.leader
    refine ⟨_, congrArg Host.Outcome.next hop, ?_, ?_, raw_raiseCox _ _ (by decide), ?_⟩
    · rw [rd_raiseCox_sep _ _ _ _ rfl rfl, hok]
    · rw [rd_raiseCox_sep _ _ _ _ rfl rfl, hlaps]
    · rw [rd_raiseCox_sep _ _ _ _ rfl rfl, rd_lapse_sep _ _ _ rfl rfl rfl rfl]
  · obtain ⟨low, hlow⟩ : ∃ low : Half, low = if s.fuses.serial.east < s.fuses.serial.west then .east else .west := ⟨_, rfl⟩
    have hother : other low = if s.fuses.serial.east < s.fuses.serial.west then .west else .east := by
      rw [hlow]; split <;> rfl
    refine ⟨_, congrArg Host.Outcome.next (conflict_yields s h hon low hlow), ?_, fun k => ?_⟩
    · rw [← hother]
      refine leader_of_bits ?_ ?_
      · rw [rd_conflictOf_sep _ _ _ rfl rfl rfl, rd_conflictOf_sep _ _ _ rfl rfl rfl]
        exact rd_wr_fit _ _ rfl (by decide)
      · rw [other_other, rd_conflictOf_sep _ _ _ rfl rfl rfl, rd_conflictOf_sep _ _ _ rfl rfl rfl,
          rd_wr_page _ _ _ _ _ _ (by cases low <;> decide) (by decide) (by decide)]
        exact rd_wr_fit _ _ rfl (by decide)
    · cases k with
      | west => exact conflictOf_reads _ .west
      | east =>
        rw [rd_conflictOf_page _ .west (by decide) (by decide), rd_conflictOf_page _ .west (by decide) (by decide)]
        exact conflictOf_reads _ .east
  · have hop : s.galleryFails true = (s.bump (pgGal .east) GAL_LINK_RETRAINS 1).bump (pgGal .west) GAL_LINK_RETRAINS 1 := by
      unfold galleryFails
      rw [if_pos hup]
      rfl
    refine ⟨_, congrArg Host.Outcome.next hop, ?_, fun h => ?_, (Upd.after bump_upd rfl <| Upd.after bump_upd rfl .refl).frame⟩
    · rw [← hup]
      unfold galleryUp
      rw [rd_bump_sep _ _ _ rfl rfl rfl, rd_bump_sep _ _ _ rfl rfl rfl]
    · cases h with
      | west => rw [rd_bump _ _ rfl, rd_bump_page _ _ _ (by decide) (by decide) (by decide)]; rfl
      | east => rw [rd_bump_page _ _ _ (by decide) (by decide) (by decide), rd_bump _ _ rfl]; rfl
  · obtain ⟨v, hv⟩ : ∃ v : State, v = (s.bump (pgGal .east) GAL_LINK_RETRAINS 3).bump (pgGal .west) GAL_LINK_RETRAINS 3 := ⟨_, rfl⟩
    have hop : s.galleryFails false = (({ v with gallery := { v.gallery with fails := 3 } } : State).setGallery false).galleryLost := by
      unfold galleryFails
      simp only [hup, if_true, Bool.false_eq_true, if_false, ← hv]
    have hcount (h : Half) : v.rd (pgGal h) GAL_LINK_RETRAINS = min 65535 (s.rd (pgGal h) GAL_LINK_RETRAINS + 3) := by
      rw [hv]
      cases h with
      | west => rw [rd_bump _ _ rfl, rd_bump_page _ _ _ (by decide) (by decide) (by decide)]; rfl
      | east => rw [rd_bump_page _ _ _ (by decide) (by decide) (by decide), rd_bump _ _ rfl]; rfl
    refine ⟨_, congrArg Host.Outcome.next hop, galleryUp_setGallery _ false, ?_, fun h => ⟨link_setGallery _ false h, ?_⟩⟩
    · rw [setGallery_upd.frame .gallery (by decide)]
    · rw [rd_setGallery _ _ _ rfl rfl rfl, rd_mk, hcount]
  · obtain ⟨v, hv⟩ : ∃ v : State, v = { s with gallery := { s.gallery with fails := 0 } } := ⟨_, rfl⟩
    refine ⟨v.setGallery true, congrArg Host.Outcome.next (galleryTries_up hdown hboot hoff hcel hst v hv), galleryUp_setGallery v true, ?_,
      rd_setGallery_raw v true⟩
    rw [setGallery_upd.frame .gallery (by decide), hv]
  · have hop : s.galleryTries false = s := by
      unfold galleryTries
      rw [Bool.and_false]
      rfl
    exact congrArg Host.Outcome.next hop
end Sys2Proof.Machine
end

section
/-! PROOFS. O7: clock sources and the Cellar's timer -/

namespace Sys2Proof.Machine

/-! ## A bit of a number set or cleared -/

theorem add_eq_or_of_disjoint {a b : Nat} (h : a &&& b = 0) : a + b = a ||| b := by
  have hsum : a + b < 2 ^ (a + b) := Nat.lt_two_pow_self
  have hor : a ||| b < 2 ^ (a + b) := Nat.or_lt_two_pow (by omega) (by omega)
  have hbits : BitVec.ofNat (a + b) a &&& BitVec.ofNat (a + b) b = 0#(a + b) := by rw [← BitVec.ofNat_and, h]
  have hadd := congrArg BitVec.toNat (BitVec.add_eq_or_of_and_eq_zero _ _ hbits)
  rw [← BitVec.ofNat_add, ← BitVec.ofNat_or, BitVec.toNat_ofNat, BitVec.toNat_ofNat, Nat.mod_eq_of_lt hsum, Nat.mod_eq_of_lt hor] at hadd
  exact hadd

theorem add_two_pow_eq_or {n i : Nat} (h : n.testBit i = false) : n + 2 ^ i = n ||| 2 ^ i := by
  refine add_eq_or_of_disjoint (Nat.eq_of_testBit_eq fun j => ?_)
  rw [Nat.testBit_and, Nat.testBit_two_pow, Nat.zero_testBit]
  by_cases hj : i = j
  · subst hj; simp [h]
  · simp [hj]

theorem sub_two_pow_eq_xor {n i : Nat} (h : n.testBit i = true) : n - 2 ^ i = n ^^^ 2 ^ i := by
  have hclear : (n ^^^ 2 ^ i).testBit i = false := by simp [h]
  have hback : n ^^^ 2 ^ i ||| 2 ^ i = n := by
    refine Nat.eq_of_testBit_eq fun j => ?_
    rw [Nat.testBit_or, Nat.testBit_xor, Nat.testBit_two_pow]
    by_cases hj : i = j
    · subst hj; simp [h]
    · simp [hj]
  have := add_two_pow_eq_or hclear
  omega

theorem testBit_setBit (n i : Nat) (b : Bool) (j : Nat) : (setBit n i b).testBit j = if j = i then b else n.testBit j := by
  by_cases hj : j = i
  · subst hj
    rw [if_pos rfl]
    unfold setBit
    by_cases hn : n.testBit j = true
    · rw [if_pos hn]
      cases b
      · rw [if_neg (by decide), sub_two_pow_eq_xor hn]; simp [hn]
      · rw [if_pos rfl, hn]
    · rw [if_neg hn]
      rw [Bool.not_eq_true] at hn
      cases b
      · rw [if_neg (by decide), hn]
      · rw [if_pos rfl, add_two_pow_eq_or hn]; simp
  · rw [if_neg hj]
    have hj' : i ≠ j := fun h => hj h.symm
    unfold setBit
    by_cases hn : n.testBit i = true
    · rw [if_pos hn]
      cases b
      · rw [if_neg (by decide), sub_two_pow_eq_xor hn, Nat.testBit_xor, Nat.testBit_two_pow]; simp [hj']
      · rw [if_pos rfl]
    · rw [if_neg hn]
      cases b
      · rw [if_neg (by decide)]
      · rw [Bool.not_eq_true] at hn
        rw [if_pos rfl, add_two_pow_eq_or hn, Nat.testBit_or, Nat.testBit_two_pow]; simp [hj']

theorem setBit_lt {n i w : Nat} (b : Bool) (hn : n < 2 ^ w) (hi : i < w) : setBit n i b < 2 ^ w := by
  refine Nat.lt_pow_two_of_testBit _ fun j hj => ?_
  rw [testBit_setBit, if_neg (by omega)]
  exact Nat.testBit_lt_two_pow (Nat.lt_of_lt_of_le hn (Nat.pow_le_pow_right (by decide) hj))

namespace State
variable {s t u : State} {h : Half} {c : ClockSrc}

/-! ## Clock sources (R328, R329) -/

theorem srcReady_of_bit {i : Nat} (hc : srcBit c = some i) (s : State) (h : Half) :
    s.srcReady h c = (s.rd (pgClk h) CLK_SRC_STAT_READY).testBit i := by
  cases c <;> simp only [srcBit, reduceCtorEq, Option.some.injEq] at hc <;> subst hc <;> rfl

theorem setSrcReady_of_bit {i : Nat} (hc : srcBit c = some i) (s : State) (h : Half) (b : Bool) :
    s.setSrcReady h c b = s.wr (pgClk h) CLK_SRC_STAT_READY (setBit (s.rd (pgClk h) CLK_SRC_STAT_READY) i b) := by
  cases c <;> simp only [srcBit, reduceCtorEq, Option.some.injEq] at hc <;> subst hc <;> rfl

theorem srcBit_lt {i : Nat} (hc : srcBit c = some i) : i < 6 := by
  cases c <;> simp only [srcBit, reduceCtorEq, Option.some.injEq] at hc <;> subst hc <;> decide

theorem on_wr_bit (s : State) (p : Nat) {f : Fld} (hf : f.ok = true) (h1 : f.hi = f.lo) (b : Bool) : (s.wr p f (bit b)).on p f = b := by
  unfold on
  rw [rd_wr_fit _ _ hf (by rw [h1, Nat.sub_self]; exact bit_lt_two b)]
  cases b <;> rfl

/-- The READY bits of the sources of a half's CLK.SRC_STAT. -/
theorem srcReady_setSrcReady {i j : Nat} {d : ClockSrc} (hc : srcBit c = some i) (hd : srcBit d = some j) (s : State) (h : Half) (b : Bool) :
    (s.setSrcReady h c b).srcReady h d = if j = i then b else s.srcReady h d := by
  have hfit : setBit (s.rd (pgClk h) CLK_SRC_STAT_READY) i b < 2 ^ 6 := setBit_lt b (s.rd_lt _ _) (srcBit_lt hc)
  rw [srcReady_of_bit hd, srcReady_of_bit hd, setSrcReady_of_bit hc, rd_wr_fit _ _ rfl hfit, testBit_setBit]

theorem srcReady_set_self (s : State) (h : Half) (c : ClockSrc) (b : Bool) : (s.setSrcReady h c b).srcReady h c = b := by
  cases c with
  | porch n => exact on_wr_bit _ _ rfl rfl b
  | crystal => exact on_wr_bit _ _ rfl rfl b
  | irc | refH | refC | pllA | pllB | svc => exact (srcReady_setSrcReady rfl rfl s h b).trans (if_pos rfl)

/-- A source that becomes READY writes its bit alone. -/
theorem setSrcReady_true_upd (s : State) (h : Half) (c : ClockSrc) : Upd [.regs] s (s.setSrcReady h c true) := by
  cases c with
  | porch n =>
    unfold setSrcReady
    simp only [Bool.not_true, Bool.and_false, Bool.false_eq_true, if_false]
    exact wr_upd
  | crystal => exact wr_upd
  | irc | refH | refC | pllA | pllB | svc => exact wr_upd

/-- What a write of a field of CEL keeps of the crystal. -/
theorem crystal_congr (hrd : t.rd pgCel CEL_STAT_XTAL_READY = s.rd pgCel CEL_STAT_XTAL_READY) (h : Half) :
    t.srcReady h .crystal = s.srcReady h .crystal := by
  show t.on _ _ = s.on _ _
  unfold on
  rw [hrd]

theorem rd_of_on {p : Nat} {f : Fld} {b : Bool} (h1 : f.hi = f.lo) (hon : s.on p f = b) : s.rd p f = bit b := by
  have hlt : s.rd p f < 2 ^ (f.hi - f.lo + 1) := s.rd_lt p f
  rw [h1, Nat.sub_self] at hlt
  unfold on at hon
  cases b
  · have := beq_eq_false_iff_ne.mp hon
    show s.rd p f = 0
    omega
  · simpa [bit] using hon

/-! ## The slow clock's source (R331, Table 10.3) -/

/-- A source of the Cellar's tick that may be taken is taken at once. -/
theorem tickGo_takes (s : State) (b : Bool) (hready : s.srcReady .east .crystal = true) :
    (s.tickGo b).rd pgCel CEL_STAT_TICK_NOW = bit b ∧ (s.tickGo b).rd pgCel CEL_CTRL_TICK = bit b ∧
      (s.tickGo b).rd pgCel CEL_STAT_TICK_REFUSED = 0 := by
  have hb : bit b < 2 := bit_lt_two b
  unfold tickGo
  dsimp only
  by_cases hsame : (b == s.on pgCel CEL_STAT_TICK_NOW) = true
  · have hnow : s.rd pgCel CEL_STAT_TICK_NOW = bit b := rd_of_on rfl (beq_iff_eq.mp hsame).symm
    rw [if_pos hsame]
    simp only [rd_mk, wrs_cons, wrs_nil]
    refine ⟨?_, ?_, rd_wr_fit _ _ rfl (by decide)⟩
    · rw [rd_wr_sep _ _ _ _ _ _ rfl rfl rfl, rd_wr_sep _ _ _ _ _ _ rfl rfl rfl, hnow]
    · rw [rd_wr_sep _ _ _ _ _ _ rfl rfl rfl]
      exact rd_wr_fit _ _ rfl hb
  · have hr1 : ¬ (b && !s.srcReady .east .crystal) = true := by simp [hready]
    have hr2 : (s.wrs pgCel [(CEL_CTRL_TICK, bit b), (CEL_STAT_TICK_REFUSED, 0), (CEL_STAT_TICK_ESCAPED, 0)]).srcReady .east .crystal = true := by
      rw [← hready]
      refine crystal_congr ?_ _
      rw [wrs_cons, wrs_cons, wrs_cons, wrs_nil, rd_wr_sep _ _ _ _ _ _ rfl rfl rfl, rd_wr_sep _ _ _ _ _ _ rfl rfl rfl,
        rd_wr_sep _ _ _ _ _ _ rfl rfl rfl]
    rw [if_neg hsame, if_neg hr1, if_neg (by rw [hr2]; simp)]
    refine ⟨rd_wr_fit _ _ rfl hb, ?_, ?_⟩
    · rw [rd_wr_sep _ _ _ _ _ _ rfl rfl rfl, wrs_cons, wrs_cons, wrs_cons, wrs_nil, rd_wr_sep _ _ _ _ _ _ rfl rfl rfl,
        rd_wr_sep _ _ _ _ _ _ rfl rfl rfl]
      exact rd_wr_fit _ _ rfl hb
    · rw [rd_wr_sep _ _ _ _ _ _ rfl rfl rfl, wrs_cons, wrs_cons, wrs_cons, wrs_nil, rd_wr_sep _ _ _ _ _ _ rfl rfl rfl]
      exact rd_wr_fit _ _ rfl (by decide)

/-! ## The Cellar's timer (R324) -/

theorem devMode_of_timer (s : State) : (s.wr pgCel CEL_TIMER_COUNT 0).devMode = s.devMode :=
  devMode_congr fun k f hf => rd_wr_page _ _ _ _ _ _ (by cases k <;> decide) hf (by decide)

/-- The timer's end: COUNT is 0, and what follows depends on the mode. -/
theorem timerEnd_runs (hc : s.rd pgCel CEL_TIMER_COUNT ≠ 0) (hoff : s.devMode ≠ mOff) :
    ∃ u : State, Upd [.regs] s u ∧ u.rd pgCel CEL_TIMER_COUNT = 0 ∧ u.devMode = s.devMode ∧ u.seq = s.seq ∧
      s.timerEnd = if u.seq.standby = .asleep then u.wakeSource 8
        else if u.devMode = mCellar then u.wr pgCel PG_IRQ_RAW (setBit (u.rd pgCel PG_IRQ_RAW) 0 true)
        else (u.raise pgCel 0).wakeSource 8 := by
  obtain ⟨u, hu⟩ : ∃ u, s.wr pgCel CEL_TIMER_COUNT 0 = u := ⟨_, rfl⟩
  have hupd : Upd [.regs] s u := by rw [← hu]; exact wr_upd
  refine ⟨u, hupd, by rw [← hu]; exact rd_wr_fit _ _ rfl (by decide), by rw [← hu]; exact devMode_of_timer s,
    hupd.frame .seq (by decide), ?_⟩
  unfold timerEnd
  rw [if_neg (not_or.mpr ⟨hc, hoff⟩), hu]

end State
open State

/-- Settles O7. -/
theorem clockSourcesAct : Obligations.ClockSourcesAct := by
  refine ⟨fun s hm hst hc => ?_, fun s hoff hcel hst hc => ?_, fun s m v ha => ?_, fun s m c ha hr => ?_, fun s m ha hr hnow => ?_,
    fun s m ha hx => ?_, fun s h c hruns hoff hr hsrc => ?_, fun s a hr hok => ?_, fun s a hr hnow hbad => ?_⟩
  · obtain ⟨u, hupd, hcount, hdev, hseq, hop⟩ := timerEnd_runs hc (by rw [hm]; decide)
    rw [if_neg (by rw [hseq]; exact hst), if_pos (hdev.trans hm)] at hop
    have hlt : u.rd pgCel PG_IRQ_RAW < 2 ^ 32 := rd_lt _ _ _
    have hfit : setBit (u.rd pgCel PG_IRQ_RAW) 0 true < 2 ^ 32 := setBit_lt (w := 32) true hlt (by decide)
    refine ⟨_, congrArg Host.Outcome.next hop, ?_, ?_, (Upd.after wr_upd rfl hupd).frame⟩
    · rw [rd_wr_sep _ _ _ _ _ _ rfl rfl rfl, hcount]
    · rw [rd_wr_fit _ _ rfl hfit, testBit_setBit, if_pos rfl]
  · obtain ⟨u, hupd, hcount, hdev, hseq, hop⟩ := timerEnd_runs hc hoff
    have hawake : (u.raise pgCel 0).seq.standby = .none :=
      (congrArg Sequencer.standby ((raise_upd.frame .seq (by decide)).trans hseq)).trans hst
    rw [if_neg (by rw [hseq, hst]; decide), if_neg (hdev.trans_ne hcel), wakeSource_of_not_standby hawake] at hop
    refine ⟨_, congrArg Host.Outcome.next hop, ?_, raw_raise _ _ (by decide), (Upd.after raise_upd rfl <| Upd.after hupd rfl .refl).frame⟩
    rw [rd_raise_sep _ _ _ _ rfl rfl, hcount]
  · exact ⟨_, congrArg Host.Outcome.next (toPage_of_admits ha _), rd_wr_fit _ _ rfl v.isLt, wr_upd.frame⟩
  · exact ⟨_, congrArg Host.Outcome.next (toPage_of_admits ha _), tickGo_takes s c hr⟩
  · have hop : s.tickGo true = s.wrs pgCel [(CEL_CTRL_TICK, 0), (CEL_STAT_TICK_REFUSED, 1)] := by
      have hon : s.on pgCel CEL_STAT_TICK_NOW = false := by unfold on; rw [hnow]; rfl
      unfold tickGo
      simp only [hon, hr]
      rfl
    refine ⟨_, congrArg Host.Outcome.next ((toPage_of_admits ha _).trans hop), ?_, ?_, ?_⟩
    · rw [wrs_cons, wrs_cons, wrs_nil, rd_wr_sep _ _ _ _ _ _ rfl rfl rfl, rd_wr_sep _ _ _ _ _ _ rfl rfl rfl, hnow]
    · rw [wrs_cons, wrs_cons, wrs_nil, rd_wr_sep _ _ _ _ _ _ rfl rfl rfl]
      exact rd_wr_fit _ _ rfl (by decide)
    · exact rd_wr_fit _ _ rfl (by decide)
  · have hop : s.xtalSet true = (s.wr pgCel CEL_CTRL_XTAL_EN 1).wr pgCel CEL_STAT_XTAL_READY 0 := by
      have hon : s.on pgCel CEL_CTRL_XTAL_EN = false := by unfold on; rw [hx]; rfl
      unfold xtalSet
      rw [hon]
      rfl
    refine ⟨_, congrArg Host.Outcome.next ((toPage_of_admits ha _).trans hop), ?_, ?_, (Upd.after wr_upd rfl wr_upd).frame⟩
    · rw [rd_wr_sep _ _ _ _ _ _ rfl rfl rfl]
      exact rd_wr_fit _ _ rfl (by decide)
    · exact on_wr_bit _ _ rfl rfl false
  · have hop : s.sourceUp h c = (s.setSrcReady h c true).sourceFed h c := by
      have hr' : (if c = .crystal then s.devMode != mOff else s.hallRuns h) = true := by
        split
        · exact bne_iff_ne.mpr hoff
        · exact hruns
      unfold sourceUp
      simp only [hr', hr, hsrc, Bool.not_false, Bool.and_self, if_true]
    exact ⟨_, congrArg Host.Outcome.next hop, srcReady_set_self .., (setSrcReady_true_upd ..).frame⟩
  · have hd : decide (15625 < (if 15625 ≤ 2 * a then 2 * a - 15625 else 15625 - 2 * a) * s.tolDiv s.leader) = false :=
      decide_eq_false (Nat.not_lt.mpr hok)
    have hop : s.crystalCheck a = s := by
      unfold crystalCheck
      simp only [hd, Bool.and_false, Bool.false_eq_true, if_false]
    exact congrArg Host.Outcome.next hop
  · have hd : decide (15625 < (if 15625 ≤ 2 * a then 2 * a - 15625 else 15625 - 2 * a) * s.tolDiv s.leader) = true :=
      decide_eq_true hbad
    have hon : (s.setSrcReady .east .crystal false).on pgCel CEL_STAT_TICK_NOW = true := by
      unfold on
      rw [show (s.setSrcReady .east .crystal false).rd pgCel CEL_STAT_TICK_NOW = s.rd pgCel CEL_STAT_TICK_NOW from
        rd_wr_sep _ _ _ _ _ _ rfl rfl rfl, hnow]
      rfl
    have hop : s.crystalCheck a =
        ((s.setSrcReady .east .crystal false).wrs pgCel [(CEL_STAT_TICK_NOW, 0), (CEL_CTRL_TICK, 0)]).raise pgCel 2 := by
      unfold crystalCheck
      simp only [hr, hd, Bool.and_self, if_true, hon]
    refine ⟨_, congrArg Host.Outcome.next hop, ?_, ?_, raw_raise _ _ (by decide)⟩
    · rw [rd_raise_sep _ _ _ _ rfl rfl, wrs_cons, wrs_cons, wrs_nil, rd_wr_sep _ _ _ _ _ _ rfl rfl rfl]
      exact rd_wr_fit _ _ rfl (by decide)
    · refine (crystal_congr (s := s.setSrcReady .east .crystal false) ?_ _).trans (srcReady_set_self ..)
      rw [rd_raise_sep _ _ _ _ rfl rfl, wrs_cons, wrs_cons, wrs_nil, rd_wr_sep _ _ _ _ _ _ rfl rfl rfl,
        rd_wr_sep _ _ _ _ _ _ rfl rfl rfl]

end Sys2Proof.Machine
end

section
/-! PROOFS. O8: clock switches. -/

namespace Sys2Proof.Machine
namespace State
variable {s t u : State} {h : Half} {c : ClockSrc}

theorem pow_congr (hp : t.power = s.power) (h : Half) : t.pow h = s.pow h := congrArg (fun b : Both HalfPower => b.get h) hp

theorem pow_modPow (s : State) (h : Half) (f : HalfPower → HalfPower) : (s.modPow h f).pow h = f (s.pow h) := Both.get_set_same ..

/-! ## The results of a switch (R331, R332) -/

theorem swEnd_reads (s : State) (h : Half) {reason : Nat} (hr : reason < 16) :
    (s.swEnd h reason).rd (pgClk h) CLK_SW_STATUS = (if reason = 0 then 2 else 3) ∧ (s.swEnd h reason).rd (pgClk h) CLK_SW_REASON = reason := by
  unfold swEnd
  rw [wrs_cons, wrs_cons, wrs_nil]
  refine ⟨?_, rd_wr_fit _ _ rfl hr⟩
  rw [rd_wr_sep _ _ _ _ _ _ rfl rfl rfl]
  exact rd_wr_fit _ _ rfl (by split <;> decide)

theorem rd_swEnd_sep (s : State) (h : Half) (reason p : Nat) {f : Fld} (hf : f.ok = true) (h1 : f.sep CLK_SW_STATUS = true)
    (h2 : f.sep CLK_SW_REASON = true) : (s.swEnd h reason).rd p f = s.rd p f := by
  unfold swEnd
  rw [wrs_cons, wrs_cons, wrs_nil, rd_wr_sep _ _ _ _ _ _ h2 hf rfl, rd_wr_sep _ _ _ _ _ _ h1 hf rfl]

/-- How the end of a switch is told: the escape, and the result of a switch that software asked for. -/
def switchTold (s : State) (h : Half) (bySw escaped : Bool) : State :=
  let s := if escaped then (s.wr (pgClk h) CLK_SW_SW_ESCAPED 1).raise (pgClk h) 2 else s
  if bySw then (s.swEnd h 0).raise (pgClk h) 1 else s

theorem switchTold_upd {b e : Bool} : Upd [.regs, .out, .host, .cox] s (s.switchTold h b e) := by
  unfold switchTold
  have hesc : Upd [.regs, .out, .host, .cox] s
      (if e then (s.wr (pgClk h) CLK_SW_SW_ESCAPED 1).raise (pgClk h) 2 else s) :=
    Upd.ite (Upd.after raise_upd rfl <| Upd.after wr_upd rfl .refl) .refl
  exact Upd.ite (Upd.after raise_upd rfl <| Upd.after swEnd_upd rfl hesc) hesc

/-- The fields in which the end of a switch is told. -/
def toldFlds : List Fld := [CLK_SW_SW_ESCAPED, CLK_SW_STATUS, CLK_SW_REASON, PG_IRQ_RAW]

theorem rd_switchTold (s : State) (h : Half) (b e : Bool) (p : Nat) {f : Fld} (hf : f.ok = true)
    (hs : ∀ g ∈ toldFlds, f.sep g = true) : (s.switchTold h b e).rd p f = s.rd p f := by
  have h1 := hs CLK_SW_SW_ESCAPED (by simp [toldFlds])
  have h2 := hs CLK_SW_STATUS (by simp [toldFlds])
  have h3 := hs CLK_SW_REASON (by simp [toldFlds])
  have h4 := hs PG_IRQ_RAW (by simp [toldFlds])
  have hesc : (if e then (s.wr (pgClk h) CLK_SW_SW_ESCAPED 1).raise (pgClk h) 2 else s).rd p f = s.rd p f := by
    split
    · rw [rd_raise_sep _ _ _ _ h4 hf, rd_wr_sep _ _ _ _ _ _ h1 hf rfl]
    · rfl
  unfold switchTold
  generalize (if e then (s.wr (pgClk h) CLK_SW_SW_ESCAPED 1).raise (pgClk h) 2 else s) = u at hesc
  dsimp only
  split
  · rw [rd_raise_sep _ _ _ _ h4 hf, rd_swEnd_sep _ _ _ _ hf h2 h3, hesc]
  · exact hesc

theorem switchTold_bySw (s : State) (h : Half) (e : Bool) :
    (s.switchTold h true e).rd (pgClk h) CLK_SW_STATUS = 2 ∧ (s.switchTold h true e).rd (pgClk h) CLK_SW_REASON = 0 ∧
      ((s.switchTold h true e).rd (pgClk h) PG_IRQ_RAW).testBit 1 = true := by
  unfold switchTold
  rw [if_pos rfl]
  generalize (if e then (s.wr (pgClk h) CLK_SW_SW_ESCAPED 1).raise (pgClk h) 2 else s) = u
  obtain ⟨hst, hre⟩ := swEnd_reads u h (reason := 0) (by decide)
  refine ⟨?_, ?_, raw_raise _ _ (by decide)⟩
  · rw [rd_raise_sep _ _ _ _ rfl rfl, hst, if_pos rfl]
  · rw [rd_raise_sep _ _ _ _ rfl rfl, hre]

theorem switchTold_escaped (s : State) (h : Half) (b : Bool) : (s.switchTold h b true).rd (pgClk h) CLK_SW_SW_ESCAPED = 1 := by
  have hesc : ((s.wr (pgClk h) CLK_SW_SW_ESCAPED 1).raise (pgClk h) 2).rd (pgClk h) CLK_SW_SW_ESCAPED = 1 := by
    rw [rd_raise_sep _ _ _ _ rfl rfl]
    exact rd_wr_fit _ _ rfl (by decide)
  unfold switchTold
  rw [if_pos rfl]
  generalize (s.wr (pgClk h) CLK_SW_SW_ESCAPED 1).raise (pgClk h) 2 = u at hesc
  split
  · rw [rd_raise_sep _ _ _ _ rfl rfl, rd_swEnd_sep _ _ _ _ rfl rfl rfl, hesc]
  · exact hesc

/-! ## The ends of the hall's and the service multiplexer's switch -/

/-- The hall on its new source, before the end of the switch is told. -/
def hallMoved (s : State) (h : Half) (t : Nat) : State :=
  ((s.modPow h fun p => { p with hallPend := none }).wr (pgClk h) CLK_SRC_STAT_HALL_SEL t).wr (pgPwr h) PWR_OP_STAT_ON_IRC (bit (t == 2))

theorem pow_hallMoved (s : State) (h : Half) (t : Nat) : (s.hallMoved h t).pow h = { s.pow h with hallPend := none } := by
  unfold hallMoved
  rw [pow_congr (wr_upd.frame .power (by decide)), pow_congr (wr_upd.frame .power (by decide)), pow_modPow]

theorem rd_hallMoved (s : State) (h : Half) (t p : Nat) {f : Fld} (hf : f.ok = true) (h1 : f.sep CLK_SRC_STAT_HALL_SEL = true)
    (h2 : f.sep PWR_OP_STAT_ON_IRC = true) : (s.hallMoved h t).rd p f = s.rd p f := by
  unfold hallMoved
  rw [rd_wr_sep _ _ _ _ _ _ h2 hf rfl, rd_wr_sep _ _ _ _ _ _ h1 hf rfl, rd_modPow]

theorem rd_hallMoved_page (s : State) (h : Half) (t : Nat) {f : Fld} (ho : f.off < 4096) (hf : f.ok = true) (h1 : f.sep CLK_SRC_STAT_HALL_SEL = true) :
    (s.hallMoved h t).rd (pgClk h) f = s.rd (pgClk h) f := by
  unfold hallMoved
  rw [rd_wr_page _ _ _ _ _ _ (by cases h <;> decide) ho (by decide), rd_wr_sep _ _ _ _ _ _ h1 hf rfl, rd_modPow]

theorem hallMoved_reads (s : State) (h : Half) (t : Nat) :
    (s.hallMoved h t).rd (pgClk h) CLK_SRC_STAT_HALL_SEL = t % 4 ∧ (s.hallMoved h t).rd (pgPwr h) PWR_OP_STAT_ON_IRC = bit (t == 2) := by
  unfold hallMoved
  refine ⟨?_, rd_wr_fit _ _ rfl (bit_lt_two _)⟩
  rw [rd_wr_sep _ _ _ _ _ _ rfl rfl rfl]
  exact rd_wr _ _ _ _ rfl

/-- A switch of the hall that no change of the operating point waits for. -/
theorem hallDone_idle (s : State) (h : Half) (t : Nat) (b e : Bool) (hop : (s.pow h).op = none) :
    s.hallDone h t b e = (s.hallMoved h t).switchTold h b e := by
  have hpow : (((s.hallMoved h t).switchTold h b e).pow h).op = none := by
    rw [pow_congr (switchTold_upd.frame .power (by decide)), pow_hallMoved]
    exact hop
  have hdone : s.hallDone h t b e =
      match (((s.hallMoved h t).switchTold h b e).pow h).op with
      | some c => if c.pll == t && c.pllReady && !c.switched then ((s.hallMoved h t).switchTold h b e).opSwitched h c
          else (s.hallMoved h t).switchTold h b e
      | none => (s.hallMoved h t).switchTold h b e := rfl
  rw [hdone, hpow]

theorem hallDone_reads (s : State) (h : Half) (t : Nat) (b e : Bool) (hop : (s.pow h).op = none) :
    (s.hallDone h t b e).hallSel h = t % 4 ∧ (s.hallDone h t b e).rd (pgPwr h) PWR_OP_STAT_ON_IRC = bit (t == 2) ∧
      ((s.hallDone h t b e).pow h).hallPend = none := by
  obtain ⟨hsel, hirc⟩ := hallMoved_reads s h t
  rw [hallDone_idle s h t b e hop]
  refine ⟨?_, ?_, ?_⟩
  · unfold hallSel
    rw [rd_switchTold _ _ _ _ _ rfl (by decide), hsel]
  · rw [rd_switchTold _ _ _ _ _ rfl (by decide), hirc]
  · rw [pow_congr (switchTold_upd.frame .power (by decide)), pow_hallMoved]

/-- The service multiplexer on its new source, before the end of the switch is told. -/
def svcMoved (s : State) (h : Half) (t : Nat) : State :=
  (s.modPow h fun p => { p with svcPend := none }).wr (pgClk h) CLK_SRC_STAT_SVC_SEL t

theorem svcDone_eq (s : State) (h : Half) (t : Nat) (b e : Bool) : s.svcDone h t b e = (s.svcMoved h t).switchTold h b e := rfl

theorem pow_svcMoved (s : State) (h : Half) (t : Nat) : (s.svcMoved h t).pow h = { s.pow h with svcPend := none } := by
  unfold svcMoved
  rw [pow_congr (wr_upd.frame .power (by decide)), pow_modPow]

theorem svcDone_reads (s : State) (h : Half) (t : Nat) (b e : Bool) :
    (s.svcDone h t b e).svcSel h = t % 4 ∧ (s.svcDone h t b e).hallSel h = s.hallSel h ∧ ((s.svcDone h t b e).pow h).svcPend = none := by
  rw [svcDone_eq]
  refine ⟨?_, ?_, ?_⟩
  · unfold svcSel
    rw [rd_switchTold _ _ _ _ _ rfl (by decide)]
    exact rd_wr _ _ _ _ rfl
  · unfold hallSel
    rw [rd_switchTold _ _ _ _ _ rfl (by decide), svcMoved, rd_wr_sep _ _ _ _ _ _ rfl rfl rfl, rd_modPow]
  · rw [pow_congr (switchTold_upd.frame .power (by decide)), pow_svcMoved]

theorem srcReady_congr {i : Nat} (hc : srcBit c = some i)
    (hrd : t.rd (pgClk h) CLK_SRC_STAT_READY = s.rd (pgClk h) CLK_SRC_STAT_READY) : t.srcReady h c = s.srcReady h c := by
  rw [srcReady_of_bit hc, srcReady_of_bit hc, hrd]

theorem srcBit_hallSrc (k : Nat) : ∃ i, srcBit (hallSrc k) = some i := by
  unfold hallSrc
  split
  · exact ⟨_, rfl⟩
  · split <;> exact ⟨_, rfl⟩

theorem srcBit_svcSrc (k : Nat) : ∃ i, srcBit (svcSrc k) = some i := by
  unfold svcSrc
  split <;> exact ⟨_, rfl⟩

/-! ## CLK.SW at GO (R331 to R333) -/

/-- The start of a switch that software asks for: MUX and TARGET stored, by the write and by the GO, and SEQ advanced. -/
def swAsked (s : State) (h : Half) (svc : Bool) (t : Nat) : State :=
  ((((s.wrs (pgClk h) [(CLK_SW_MUX, bit svc), (CLK_SW_TARGET, t)]).wrs (pgClk h) [(CLK_SW_MUX, bit svc), (CLK_SW_TARGET, t)]).step1
    (pgClk h) CLK_SW_SEQ).wrs (pgClk h) [(CLK_SW_SW_ESCAPED, 0), (CLK_SW_STATUS, 1), (CLK_SW_REASON, 0)])

theorem rd_swAsked (s : State) (h : Half) (svc : Bool) (t p : Nat) {f : Fld} (hf : f.ok = true)
    (hs : ∀ g ∈ [CLK_SW_MUX, CLK_SW_TARGET, CLK_SW_SEQ, CLK_SW_SW_ESCAPED, CLK_SW_STATUS, CLK_SW_REASON], f.sep g = true) :
    (s.swAsked h svc t).rd p f = s.rd p f := by
  unfold swAsked
  simp only [wrs_cons, wrs_nil]
  rw [rd_wr_sep _ _ _ _ _ _ (hs _ (by simp)) hf rfl, rd_wr_sep _ _ _ _ _ _ (hs _ (by simp)) hf rfl,
    rd_wr_sep _ _ _ _ _ _ (hs _ (by simp)) hf rfl, rd_step1_sep _ _ _ (hs _ (by simp)) hf rfl,
    rd_wr_sep _ _ _ _ _ _ (hs _ (by simp)) hf rfl, rd_wr_sep _ _ _ _ _ _ (hs _ (by simp)) hf rfl,
    rd_wr_sep _ _ _ _ _ _ (hs _ (by simp)) hf rfl, rd_wr_sep _ _ _ _ _ _ (hs _ (by simp)) hf rfl]

theorem seq_swAsked (s : State) (h : Half) (svc : Bool) (t : Nat) :
    (s.swAsked h svc t).rd (pgClk h) CLK_SW_SEQ = (s.rd (pgClk h) CLK_SW_SEQ + 1) % 16 := by
  unfold swAsked
  simp only [wrs_cons, wrs_nil]
  rw [rd_wr_sep _ _ _ _ _ _ rfl rfl rfl, rd_wr_sep _ _ _ _ _ _ rfl rfl rfl, rd_wr_sep _ _ _ _ _ _ rfl rfl rfl, rd_step1 _ _ rfl,
    rd_wr_sep _ _ _ _ _ _ rfl rfl rfl, rd_wr_sep _ _ _ _ _ _ rfl rfl rfl, rd_wr_sep _ _ _ _ _ _ rfl rfl rfl,
    rd_wr_sep _ _ _ _ _ _ rfl rfl rfl]
  rfl

theorem swAsked_upd {svc : Bool} {t : Nat} : Upd [.regs] s (s.swAsked h svc t) :=
  Upd.after wrs_upd rfl <| Upd.after step1_upd rfl <| Upd.after wrs_upd rfl wrs_upd

/-- The checks of a GO in CLK.SW whose request no other waits for; they read the state as it was before the GO. -/
theorem swGo_checks {m : Master} (ht : s.Takes m (pgClk h) 0x48) (hst : s.rd (pgClk h) CLK_SW_STATUS ≠ 1) (svc : Bool) (t : Nat) :
    s.goTo m (pgClk h) 0x48 (fun s => s.wrs (pgClk h) [(CLK_SW_MUX, bit svc), (CLK_SW_TARGET, t)]) (fun s => s.swGo h svc t) =
      if t = 3 ∨ (svc ∧ t = 1) then (s.swAsked h svc t).swEnd h 2
      else if svc then
        if s.svcSel h = t then ((s.swAsked h svc t).swEnd h 0).raise (pgClk h) 1
        else if s.srcReady h (svcSrc t) then (s.swAsked h svc t).svcSwitch h t true (s.srcReady h (svcSrc (s.svcSel h)))
        else (s.swAsked h svc t).swEnd h 1
      else if (s.pow h).op.isSome then (s.swAsked h svc t).swEnd h 3
      else if s.hallSel h = t then ((s.swAsked h svc t).swEnd h 0).raise (pgClk h) 1
      else if s.srcReady h (hallSrc t) then (s.swAsked h svc t).hallSwitch h t true (s.srcReady h (hallSrc (s.hallSel h)))
      else (s.swAsked h svc t).swEnd h 1 := by
  have hrd (p : Nat) {f : Fld} (hf : f.ok = true)
      (hs : ∀ g ∈ [CLK_SW_MUX, CLK_SW_TARGET, CLK_SW_SEQ, CLK_SW_SW_ESCAPED, CLK_SW_STATUS, CLK_SW_REASON], f.sep g = true) :
      (s.swAsked h svc t).rd p f = s.rd p f := rd_swAsked s h svc t p hf hs
  have hsvc : (s.swAsked h svc t).svcSel h = s.svcSel h := hrd _ rfl (by decide)
  have hhall : (s.swAsked h svc t).hallSel h = s.hallSel h := hrd _ rfl (by decide)
  have hbits := hrd (pgClk h) (f := CLK_SRC_STAT_READY) rfl (by decide)
  have hready (k : Nat) := srcReady_congr (srcBit_hallSrc k).choose_spec hbits
  have hready' (k : Nat) := srcReady_congr (srcBit_svcSrc k).choose_spec hbits
  have hpow : (s.swAsked h svc t).pow h = s.pow h := pow_congr (swAsked_upd.frame .power (by decide)) h
  have hstatus : ((s.wrs (pgClk h) [(CLK_SW_MUX, bit svc), (CLK_SW_TARGET, t)]).wrs (pgClk h)
      [(CLK_SW_MUX, bit svc), (CLK_SW_TARGET, t)]).rd (pgClk h) CLK_SW_STATUS ≠ 1 := by
    simp only [wrs_cons, wrs_nil]
    rw [rd_wr_sep _ _ _ _ _ _ rfl rfl rfl, rd_wr_sep _ _ _ _ _ _ rfl rfl rfl, rd_wr_sep _ _ _ _ _ _ rfl rfl rfl,
      rd_wr_sep _ _ _ _ _ _ rfl rfl rfl]
    exact hst
  have hen : (s.wrs (pgClk h) [(CLK_SW_MUX, bit svc), (CLK_SW_TARGET, t)]).on (pgClk h) PG_CTRL_EN = s.on (pgClk h) PG_CTRL_EN := by
    unfold on
    simp only [wrs_cons, wrs_nil]
    rw [rd_wr_sep _ _ _ _ _ _ rfl rfl rfl, rd_wr_sep _ _ _ _ _ _ rfl rfl rfl]
  refine (goTo_of_takes_store ht (store := fun s => s.wrs (pgClk h) [(CLK_SW_MUX, bit svc), (CLK_SW_TARGET, t)]) hen _).trans ?_
  have hasked : (((s.wrs (pgClk h) [(CLK_SW_MUX, bit svc), (CLK_SW_TARGET, t)]).wrs (pgClk h) [(CLK_SW_MUX, bit svc), (CLK_SW_TARGET, t)]).step1
    (pgClk h) CLK_SW_SEQ).wrs (pgClk h) [(CLK_SW_SW_ESCAPED, 0), (CLK_SW_STATUS, 1), (CLK_SW_REASON, 0)] = s.swAsked h svc t := rfl
  unfold swGo
  dsimp only
  rw [if_neg hstatus, hasked]
  generalize s.swAsked h svc t = w at hsvc hhall hready hready' hpow
  simp only [hsvc, hhall, hready, hready', hpow]

/-- A switch to a source that is READY, from one that still gives edges, with no other waiting. -/
theorem hallSwitch_idle (s : State) (h : Half) (t : Nat) (b : Bool) (hpend : (s.pow h).hallPend = none) :
    s.hallSwitch h t b true = s.hallDone h t b false := by
  unfold hallSwitch preempt
  rw [hpend]
  rfl

theorem svcSwitch_idle (s : State) (h : Half) (t : Nat) (b : Bool) (hpend : (s.pow h).svcPend = none) :
    s.svcSwitch h t b true = s.svcDone h t b false := by
  unfold svcSwitch preempt
  rw [hpend]
  rfl

/-! ## The monitor (R334 to R337) -/

theorem monitorOne_good {n : Nat} (hgood : s.countBad h c n = false) : s.monitorOne h c n = s := by
  unfold monitorOne
  exact if_pos (.inr (.inr (by rw [hgood]; rfl)))

theorem noClockCheck_alive (halive : s.hallDead h = false) : s.noClockCheck h = s := by
  unfold noClockCheck
  rw [halive]
  rfl

theorem monitor_good {l : List (ClockSrc × Nat)} (hgood : ∀ e ∈ l, s.countBad h e.1 e.2 = false) (halive : s.hallDead h = false) :
    s.monitor h l = s := by
  have hfold : l.foldl (fun s e => s.monitorOne h e.1 e.2) s = s := by
    induction l with
    | nil => rfl
    | cons e l ih =>
      rw [List.foldl_cons, monitorOne_good (hgood e (.head _))]
      exact ih fun x hx => hgood x (.tail _ hx)
  unfold monitor
  rw [hfold, noClockCheck_alive halive, ite_self]

/-- Hall PLL A found failed, before the switch that follows (R335). -/
def pllAFailed (s : State) (h : Half) : State :=
  (((s.setSrcReady h .pllA false).wr (pgClk h) CLK_SRC_STAT_FAIL
    (setBit ((s.setSrcReady h .pllA false).rd (pgClk h) CLK_SRC_STAT_FAIL) 3 true)).raise (pgClk h) 0).emit (.coxNmi h)

theorem pllAFailed_reads (s : State) (h : Half) :
    (s.pllAFailed h).srcReady h .pllA = false ∧ (s.pllAFailed h).srcReady h .irc = s.srcReady h .irc ∧
      ((s.pllAFailed h).rd (pgClk h) CLK_SRC_STAT_FAIL).testBit 3 = true ∧
      ((s.pllAFailed h).rd (pgClk h) PG_IRQ_RAW).testBit 0 = true ∧ (s.pllAFailed h).hallSel h = s.hallSel h ∧
      (s.pllAFailed h).power = s.power := by
  have hupd : Upd [.regs, .out, .host, .cox] s (s.pllAFailed h) :=
    Upd.after emit_upd rfl <| Upd.after raise_upd rfl <| Upd.after wr_upd rfl <| Upd.after (K := [.regs, .out, .host, .cox]) wr_upd rfl .refl
  have hrest : (s.setSrcReady h .pllA false).hallSel h = s.hallSel h := rd_wr_sep _ _ _ _ _ _ rfl rfl rfl
  have ha : (s.setSrcReady h .pllA false).srcReady h .pllA = false := srcReady_set_self ..
  have hi : (s.setSrcReady h .pllA false).srcReady h .irc = s.srcReady h .irc :=
    (srcReady_setSrcReady rfl rfl s h false).trans (if_neg (by decide))
  unfold pllAFailed at *
  generalize s.setSrcReady h .pllA false = u at *
  have hlt : u.rd (pgClk h) CLK_SRC_STAT_FAIL < 2 ^ 6 := rd_lt _ _ _
  have hfit : setBit (u.rd (pgClk h) CLK_SRC_STAT_FAIL) 3 true < 2 ^ 6 := setBit_lt (w := 6) true hlt (by decide)
  have hready : (((u.wr (pgClk h) CLK_SRC_STAT_FAIL (setBit (u.rd (pgClk h) CLK_SRC_STAT_FAIL) 3 true)).raise (pgClk h) 0).emit
      (.coxNmi h)).rd (pgClk h) CLK_SRC_STAT_READY = u.rd (pgClk h) CLK_SRC_STAT_READY := by
    rw [rd_emit, rd_raise_sep _ _ _ _ rfl rfl, rd_wr_sep _ _ _ _ _ _ rfl rfl rfl]
  refine ⟨?_, ?_, ?_, ?_, ?_, hupd.frame .power (by decide)⟩
  · rw [srcReady_congr (c := .pllA) rfl hready, ha]
  · rw [srcReady_congr (c := .irc) rfl hready, hi]
  · rw [rd_emit, rd_raise_sep _ _ _ _ rfl rfl, rd_wr_fit _ _ rfl hfit, testBit_setBit, if_pos rfl]
  · rw [rd_emit]
    exact raw_raise _ _ (by decide)
  · unfold hallSel at *
    rw [rd_emit, rd_raise_sep _ _ _ _ rfl rfl, rd_wr_sep _ _ _ _ _ _ rfl rfl rfl, hrest]

/-- A hall on PLL A goes to IRC where IRC is READY (Table 10.6). -/
theorem srcFail_pllA {e : Bool} (hsel : s.hallSel h = 0) (hirc : (s.pllAFailed h).srcReady h .irc = true) :
    s.srcFail h .pllA e = (s.pllAFailed h).hallSwitch h 2 false e := by
  obtain ⟨v, x, y, hv, heq⟩ : ∃ v x y : State, v.emit (.coxNmi h) = s.pllAFailed h ∧ s.srcFail h .pllA e =
      if v.hallSel h = 0 then (if (s.pllAFailed h).srcReady h .irc then (s.pllAFailed h).hallSwitch h 2 false e else x) else y :=
    ⟨_, _, _, rfl, rfl⟩
  have hvsel : v.hallSel h = 0 := by
    have hsel' : (s.pllAFailed h).hallSel h = s.hallSel h := (pllAFailed_reads s h).2.2.2.2.1
    rw [← hv] at hsel'
    exact (rd_emit _ _).symm.trans (hsel'.trans hsel)
  rw [heq, if_pos hvsel, if_pos hirc]

/-- A switch that nobody asked for and that waited for nothing tells nothing. -/
theorem hallDone_untold (s : State) (h : Half) (t : Nat) (hop : (s.pow h).op = none) :
    s.hallDone h t false false = s.hallMoved h t := hallDone_idle s h t false false hop

/-- A hall that loses PLL A while IRC is READY runs on IRC. -/
theorem monitor_pllA {n : Nat} (hruns : s.hallRuns h = true) (hready : s.srcReady h .pllA = true) (hbad : s.countBad h .pllA n = true)
    (hn : 0 < n) (hsel : s.hallSel h = 0) (hirc : s.srcReady h .irc = true) (hop : (s.pow h).op = none) (hpend : (s.pow h).hallPend = none) :
    s.monitor h [(.pllA, n)] = (s.pllAFailed h).hallDone h 2 false false := by
  obtain ⟨-, hirc', -, -, hsel', hpow⟩ := pllAFailed_reads s h
  have hnone : ((s.pllAFailed h).pow h).op = none := by rw [pow_congr hpow, hop]
  have hone : s.monitorOne h .pllA n = (s.pllAFailed h).hallDone h 2 false false := by
    have hgo : ¬ (ClockSrc.pllA = .crystal ∨ (!s.srcReady h .pllA) = true ∨ (!s.countBad h .pllA n) = true) := by
      rw [hready, hbad]
      simp
    have hfail : s.monitorOne h .pllA n = s.srcFail h .pllA (decide (0 < n)) := if_neg hgo
    rw [hfail, decide_eq_true hn, srcFail_pllA hsel (hirc'.trans hirc), hallSwitch_idle _ _ _ _ (by rw [pow_congr hpow, hpend])]
  have halive : ((s.pllAFailed h).hallDone h 2 false false).hallDead h = false := by
    have hsel2 := (hallDone_reads (s.pllAFailed h) h 2 false false hnone).1
    have hirc2 : ((s.pllAFailed h).hallDone h 2 false false).srcReady h .irc = true := by
      rw [hallDone_untold _ _ _ hnone, srcReady_congr (c := .irc) rfl (rd_hallMoved_page _ _ _ (by decide) rfl rfl), hirc', hirc]
    unfold hallDead
    rw [hirc2]
    simp
  unfold monitor
  rw [if_pos hruns, List.foldl_cons, List.foldl_nil, hone, noClockCheck_alive halive]

end State
open State

/-- Settles O8. -/
theorem clockSwitchesAct : Obligations.ClockSwitchesAct := by
  refine ⟨fun s m h v ht hst hop hpend hv hne hto hfrom => ?_, fun s m h ht hst => ?_, fun s m h v ht hst hpend hv hne hto hfrom => ?_,
    fun s h v b hpend hop => ?_, fun s h v b hpend => ?_, fun s c hpend => ?_, fun s h l hgood halive => ?_,
    fun s h n hruns hready hbad hn hsel hirc hop hpend => ?_⟩
  · have hv3 : v.toNat ≠ 3 := fun e => hv (BitVec.eq_of_toNat_eq e)
    have hpow : (s.swAsked h false v.toNat).pow h = s.pow h := pow_congr (swAsked_upd.frame .power (by decide)) h
    have hgo := swGo_checks ht hst false v.toNat
    simp only [hv3, Bool.false_eq_true, false_and, or_self, if_false, hop, Option.isSome_none, hne, hto, hfrom, if_true] at hgo
    rw [hallSwitch_idle _ _ _ _ (by rw [hpow, hpend])] at hgo
    obtain ⟨hhall, honirc, -⟩ := hallDone_reads (s.swAsked h false v.toNat) h v.toNat true false (by rw [hpow, hop])
    have hdone := hallDone_idle (s.swAsked h false v.toNat) h v.toNat true false (by rw [hpow, hop])
    obtain ⟨hs, hr, hraw⟩ := switchTold_bySw ((s.swAsked h false v.toNat).hallMoved h v.toNat) h false
    refine ⟨_, congrArg Host.Outcome.next hgo, hhall.trans (Nat.mod_eq_of_lt v.isLt), honirc, ?_, ?_, ?_, ?_⟩
    · rw [hdone, hs]
    · rw [hdone, hr]
    · rw [hdone, rd_switchTold _ _ _ _ _ rfl (by decide), rd_hallMoved _ _ _ _ rfl rfl rfl, seq_swAsked]
    · rw [hdone, hraw]
  · have hgo := (swGo_checks ht hst false 3).trans (if_pos (.inl rfl))
    obtain ⟨hs, hr⟩ := swEnd_reads (s.swAsked h false 3) h (reason := 2) (by decide)
    refine ⟨_, congrArg Host.Outcome.next hgo, ?_, hs, hr⟩
    unfold hallSel
    rw [rd_swEnd_sep _ _ _ _ rfl rfl rfl, rd_swAsked _ _ _ _ _ rfl (by decide)]
  · have hv3 : ¬ (v.toNat = 3 ∨ v.toNat = 1) := by obtain rfl | rfl := hv <;> decide
    have hpow : (s.swAsked h true v.toNat).pow h = s.pow h := pow_congr (swAsked_upd.frame .power (by decide)) h
    have hgo := swGo_checks ht hst true v.toNat
    simp only [true_and, if_neg hv3, if_true, if_neg hne, hto, hfrom] at hgo
    rw [svcSwitch_idle _ _ _ _ (by rw [hpow, hpend])] at hgo
    obtain ⟨hsvc, hhall, -⟩ := svcDone_reads (s.swAsked h true v.toNat) h v.toNat true false
    obtain ⟨hs, hr, hraw⟩ := switchTold_bySw ((s.swAsked h true v.toNat).svcMoved h v.toNat) h false
    refine ⟨_, congrArg Host.Outcome.next hgo, hsvc.trans (Nat.mod_eq_of_lt v.isLt), hhall.trans ?_, hs, hr, hraw⟩
    exact rd_swAsked _ _ _ _ _ rfl (by decide)
  · have hesc : s.escape (.hall h) = s.hallDone h v b true := by
      unfold escape
      simp only [hpend]
    obtain ⟨hhall, -, hnone⟩ := hallDone_reads s h v b true hop
    refine ⟨_, congrArg Host.Outcome.next hesc, hhall, ?_, hnone⟩
    rw [hallDone_idle _ _ _ _ _ hop]
    exact switchTold_escaped _ h b
  · have hesc : s.escape (.service h) = s.svcDone h v b true := by
      unfold escape
      simp only [hpend]
    obtain ⟨hsvc, -, hnone⟩ := svcDone_reads s h v b true
    exact ⟨_, congrArg Host.Outcome.next hesc, hsvc, switchTold_escaped _ h b, hnone⟩
  · have hesc : s.escape .tick = (({ s with cellar := { s.cellar with tickPend := none } } : State).wrs pgCel
        [(CEL_STAT_TICK_NOW, bit c), (CEL_STAT_TICK_ESCAPED, 1)]).raise pgCel 1 := by
      unfold escape
      simp only [hpend]
    refine ⟨_, congrArg Host.Outcome.next hesc, ?_, ?_, ?_⟩
    · rw [rd_raise_sep _ _ _ _ rfl rfl, wrs_cons, wrs_cons, wrs_nil, rd_wr_sep _ _ _ _ _ _ rfl rfl rfl]
      exact rd_wr_fit _ _ rfl (bit_lt_two c)
    · rw [rd_raise_sep _ _ _ _ rfl rfl, wrs_cons, wrs_cons, wrs_nil]
      exact rd_wr_fit _ _ rfl (by decide)
    · rw [raise_upd.frame .cellar (by decide), wrs_upd.frame .cellar (by decide)]
  · exact congrArg Host.Outcome.next (monitor_good hgood halive)
  · obtain ⟨hdead, hirc', hfail, hraw, hsel', hpow⟩ := pllAFailed_reads s h
    have hop' : ((s.pllAFailed h).pow h).op = none := by rw [pow_congr hpow, hop]
    obtain ⟨hhall, honirc, -⟩ := hallDone_reads (s.pllAFailed h) h 2 false false hop'
    have hdone := hallDone_untold (s.pllAFailed h) h 2 hop'
    refine ⟨_, congrArg Host.Outcome.next (monitor_pllA hruns hready hbad hn hsel hirc hop hpend), hhall, ?_, ?_, ?_, honirc⟩
    · rw [hdone, srcReady_congr (c := .pllA) rfl (rd_hallMoved_page _ _ _ (by decide) rfl rfl), hdead]
    · rw [hdone, rd_hallMoved _ _ _ _ rfl rfl rfl, hfail]
    · rw [hdone, rd_hallMoved _ _ _ _ rfl rfl rfl, hraw]

end Sys2Proof.Machine
end

section
/-! PROOFS. O9: gates and the frequency-measuring counter. -/

namespace Sys2Proof.Machine
namespace State
variable {s t u : State} {h : Half} {b : Gated}

/-! ## The gates (R340 to R342) -/

theorem gateStage_congr (hp : t.power = s.power) : t.gateStage h b = s.gateStage h b := by
  unfold gateStage
  rw [pow_congr hp]

theorem gateStage_setGateStage (s : State) (h : Half) (b : Gated) (st : Option GateStage) : (s.setGateStage h b st).gateStage h b = st := by
  unfold gateStage setGateStage
  rw [pow_modPow]
  cases st with
  | some x => simp
  | none =>
    have hnone : ((s.pow h).closing.filter fun e => e.1 != b).find? (fun e => e.1 == b) = none :=
      List.find?_eq_none.mpr fun e he => by simpa using (List.mem_filter.mp he).2
    dsimp only
    rw [hnone]
    rfl

theorem rd_setGateStage (s : State) (h : Half) (b : Gated) (st : Option GateStage) (p : Nat) (f : Fld) :
    (s.setGateStage h b st).rd p f = s.rd p f := rd_modPow p f

theorem gateFld_facts (b : Gated) : (gateFld b).ok = true ∧ (gateFld b).hi - (gateFld b).lo + 1 = 2 ∧ (gateFld b).off = 0x60 := by
  cases b <;> decide

/-- A gate's stage kept in the power state and its field in CLK.GATE set. -/
theorem gateSet_reads (s : State) (h : Half) (b : Gated) (st : Option GateStage) {v : Nat} (hv : v < 4) :
    ((s.setGateStage h b st).wr (pgClk h) (gateFld b) v).gateStage h b = st ∧
      ((s.setGateStage h b st).wr (pgClk h) (gateFld b) v).rd (pgClk h) (gateFld b) = v := by
  obtain ⟨hok, hwidth, -⟩ := gateFld_facts b
  refine ⟨?_, ?_⟩
  · rw [gateStage_congr (wr_upd.frame .power (by decide)), gateStage_setGateStage]
  · rw [rd_wr _ _ _ _ hok, hwidth]
    exact Nat.mod_eq_of_lt hv

theorem gateSet_upd {st : Option GateStage} {v : Nat} :
    Upd [.regs, .power] s ((s.setGateStage h b st).wr (pgClk h) (gateFld b) v) :=
  Upd.after wr_upd rfl <| Upd.after setGateStage_upd rfl .refl

/-- What a gate's field does not share a bit with stays as it was. -/
theorem rd_gateSet (s : State) (h : Half) (b : Gated) (st : Option GateStage) (v p : Nat) {f : Fld} (hf : f.ok = true)
    (hs : f.off % 4096 ≠ 0x60) : ((s.setGateStage h b st).wr (pgClk h) (gateFld b) v).rd p f = s.rd p f := by
  obtain ⟨hok, -, hoff⟩ := gateFld_facts b
  have hsep : f.sep (gateFld b) = true := by
    unfold Fld.sep
    rw [hoff]
    simp [hs]
  rw [rd_wr_sep _ _ _ _ _ _ hsep hf hok, rd_setGateStage]

/-- A close asked for at an open gate: the block's engine stage or its port stage begins. -/
theorem gateGo_open (hhere : s.gateHere h b = true) (hopen : s.rd (pgClk h) (gateFld b) = 0)
    (hidle : b ≠ .fmc ∨ s.rd (pgFmc h) FMC_RESULT_BUSY = 0) :
    s.gateGo h b = (s.setGateStage h b (some (if s.engineBusy h b || b = .scr then .engine else .port))).wr (pgClk h) (gateFld b) 2 := by
  have hfmc : ¬ (b = .fmc ∧ s.on (pgFmc h) FMC_RESULT_BUSY = true) := by
    rintro ⟨hb, hon⟩
    obtain hb' | hz := hidle
    · exact hb' hb
    · simp [on, hz] at hon
  unfold gateGo
  rw [if_neg (by simp [hhere, hopen])]
  simp only [if_neg hfmc]

/-- A measurement under way is cancelled with the close of its counter (R342). -/
theorem gateGo_measuring (hopen : s.rd (pgClk h) CLK_GATE_FMC = 0) (hbusy : s.rd (pgFmc h) FMC_RESULT_BUSY = 1) :
    s.gateGo h .fmc = ((s.wrs (pgFmc h) [(FMC_RESULT_BUSY, 0), (FMC_RESULT_VALID, 0)]).setGateStage h .fmc (some .port)).wr (pgClk h) CLK_GATE_FMC 2 := by
  have hgo : ¬ ((!s.gateHere h .fmc || s.rd (pgClk h) (gateFld .fmc) != 0) = true) := by
    have hopen' : s.rd (pgClk h) (gateFld .fmc) = 0 := hopen
    simp [gateHere, hopen']
  have hon : s.on (pgFmc h) FMC_RESULT_BUSY = true := by simp [on, hbusy]
  unfold gateGo
  rw [if_neg hgo]
  simp only [hon, and_self, if_true]
  rfl

theorem gateShut_reads (s : State) (h : Half) (b : Gated) :
    (s.gateShut h b).gateStage h b = none ∧ (s.gateShut h b).rd (pgClk h) (gateFld b) = 1 := gateSet_reads s h b none (by decide)

/-! ## The frequency-measuring counter (R356) -/

theorem fmcGo_idle (hbusy : s.rd (pgFmc h) FMC_RESULT_BUSY = 0) (hopen : s.rd (pgClk h) CLK_GATE_FMC = 0) :
    s.fmcGo h = (s.step1 (pgFmc h) FMC_RESULT_SEQ).wrs (pgFmc h) [(FMC_RESULT_BUSY, 1), (FMC_RESULT_VALID, 0)] := by
  have hopen' : s.gateOpen h .fmc = true := by
    have hfld : s.rd (pgClk h) (gateFld .fmc) = 0 := hopen
    simp [gateOpen, hfld]
  unfold fmcGo
  exact if_neg (by simp [on, hbusy, hopen'])

theorem fmcEnd_busy (s : State) (h : Half) {count stat : Nat} (hbusy : s.rd (pgFmc h) FMC_RESULT_BUSY = 1) (hc : count < 2 ^ 24) (hst : stat < 4) :
    (s.fmcEnd h count stat).rd (pgFmc h) FMC_RESULT_BUSY = 0 ∧ (s.fmcEnd h count stat).rd (pgFmc h) FMC_RESULT_VALID = 1 ∧
      (s.fmcEnd h count stat).rd (pgFmc h) FMC_RESULT_COUNT = count ∧ (s.fmcEnd h count stat).rd (pgFmc h) FMC_RESULT_STAT = stat ∧
      ((s.fmcEnd h count stat).rd (pgFmc h) PG_IRQ_RAW).testBit 0 = true := by
  have hon : s.on (pgFmc h) FMC_RESULT_BUSY = true := by simp [on, hbusy]
  unfold fmcEnd
  rw [if_pos hon]
  simp only [wrs_cons, wrs_nil]
  refine ⟨?_, ?_, ?_, ?_, raw_raise _ _ (by decide)⟩
  · rw [rd_raise_sep _ _ _ _ rfl rfl, rd_wr_fit _ _ rfl (by decide)]
  · rw [rd_raise_sep _ _ _ _ rfl rfl, rd_wr_sep _ _ _ _ _ _ rfl rfl rfl, rd_wr_fit _ _ rfl (by decide)]
  · rw [rd_raise_sep _ _ _ _ rfl rfl, rd_wr_sep _ _ _ _ _ _ rfl rfl rfl, rd_wr_sep _ _ _ _ _ _ rfl rfl rfl, rd_wr_sep _ _ _ _ _ _ rfl rfl rfl,
      rd_wr_fit _ _ rfl hc]
  · rw [rd_raise_sep _ _ _ _ rfl rfl, rd_wr_sep _ _ _ _ _ _ rfl rfl rfl, rd_wr_sep _ _ _ _ _ _ rfl rfl rfl, rd_wr_fit _ _ rfl hst]

/-- The count of a measurement whose two sources differ. -/
theorem fmcDone_counts (s : State) (h : Half) (n : Nat) (hsrc : s.rd (pgFmc h) FMC_CFG_MEAS_SRC ≠ s.rd (pgFmc h) FMC_CFG_REF_SRC) :
    s.fmcDone h n = s.fmcEnd h (min 0xFFFFFF n) (if 0xFFFFFF < n then fmOverflow else 0) := by
  unfold fmcDone
  simp only [if_neg hsrc]
  split
  · rw [Nat.min_eq_left (by omega)]
  · rw [Nat.min_eq_right (by omega)]

end State
open State

/-- Settles O9. -/
theorem gatesAndCounterAct : Obligations.GatesAndCounterAct := by
  refine ⟨fun s m h b ha hhere hopen hidle => ?_, fun s m h ha hopen hbusy => ?_, fun s h b hst hidle => ?_, fun s h b hst => ?_,
    fun s h b off hst hv => ?_, fun s m h b ha hhere => ?_, fun s m h ht hbusy hopen => ?_, fun s h n hbusy hsrc => ?_, fun s h n hbusy => ?_⟩
  · obtain ⟨hstage, hfld⟩ := gateSet_reads s h b (some (if s.engineBusy h b || b = .scr then .engine else .port)) (v := 2) (by decide)
    exact ⟨_, congrArg Host.Outcome.next ((toPage_of_admits ha _).trans (gateGo_open hhere hopen hidle)), hfld, hstage, gateSet_upd.frame⟩
  · have hop := (toPage_of_admits ha fun s => s.gateGo h .fmc).trans (gateGo_measuring hopen hbusy)
    refine ⟨_, congrArg Host.Outcome.next hop, (gateSet_reads _ h .fmc _ (by decide)).2, ?_, ?_⟩
    · refine (rd_gateSet _ h .fmc _ _ _ rfl (by decide)).trans ?_
      rw [wrs_cons, wrs_cons, wrs_nil, rd_wr_sep _ _ _ _ _ _ rfl rfl rfl]
      exact rd_wr_fit _ _ rfl (by decide)
    · refine (rd_gateSet _ h .fmc _ _ _ rfl (by decide)).trans ?_
      rw [wrs_cons, wrs_cons, wrs_nil]
      exact rd_wr_fit _ _ rfl (by decide)
  · have hop : s.gateEngine h b = s.setGateStage h b (some .port) := if_pos ⟨hst, by rw [hidle]; rfl⟩
    exact ⟨_, congrArg Host.Outcome.next hop, gateStage_setGateStage .., setGateStage_upd.frame⟩
  · obtain ⟨hstage, hfld⟩ := gateShut_reads s h b
    exact ⟨_, congrArg Host.Outcome.next (if_pos hst), hstage, hfld, gateShut_upd.frame⟩
  · obtain ⟨hstage, hfld⟩ := gateShut_reads s h b
    have hclear : (s.gateShut h b).rd (gatePage h b) PG_ERR_VALID = 0 := by
      unfold gateShut
      rw [rd_gateSet _ _ _ _ _ _ rfl (by decide), hv]
    have hgate : ((s.gateShut h b).pgErr (gatePage h b) 4 off.toNat).rd (pgClk h) (gateFld b) = (s.gateShut h b).rd (pgClk h) (gateFld b) := by
      have hpages : pgClk h ≠ gatePage h b := by cases h <;> cases b <;> decide
      have hoff : (gateFld b).off < 0x1000 := by cases b <;> decide
      unfold pgErr
      simp only [wrs_cons, wrs_nil]
      split
      · exact rd_wr_page _ _ _ _ _ _ hpages hoff (by decide)
      · rw [rd_wr_page _ _ _ _ _ _ hpages hoff (by decide), rd_wr_page _ _ _ _ _ _ hpages hoff (by decide),
          rd_wr_page _ _ _ _ _ _ hpages hoff (by decide)]
    obtain ⟨hvalid, hcode, haddr, -⟩ := pgErr_first hclear (code := 4) (addr := off.toNat) (by decide) (by omega)
    refine ⟨_, congrArg Host.Outcome.next (if_pos hst), ?_, hgate.trans hfld, hvalid, hcode, haddr,
      (Upd.after pgErr_upd rfl gateShut_upd).frame⟩
    rw [gateStage_congr (pgErr_upd.frame .power (by decide)), hstage]
  · obtain ⟨hstage, hfld⟩ := gateSet_reads s h b none (v := 0) (by decide)
    exact ⟨_, congrArg Host.Outcome.next ((toPage_of_admits ha _).trans (if_pos hhere)), hstage, hfld, gateSet_upd.frame⟩
  · have hop := (goTo_of_takes_store ht (store := fun s => s) rfl fun s => s.fmcGo h).trans (fmcGo_idle hbusy hopen)
    rw [wrs_cons, wrs_cons, wrs_nil] at hop
    refine ⟨_, congrArg Host.Outcome.next hop, ?_, rd_wr_fit _ _ rfl (by decide), ?_,
      (Upd.after wr_upd rfl <| Upd.after wr_upd rfl step1_upd).frame⟩
    · rw [rd_wr_sep _ _ _ _ _ _ rfl rfl rfl, rd_wr_fit _ _ rfl (by decide)]
    · rw [rd_wr_sep _ _ _ _ _ _ rfl rfl rfl, rd_wr_sep _ _ _ _ _ _ rfl rfl rfl]
      exact rd_step1 _ _ rfl
  · obtain ⟨h1, h2, h3, h4, h5⟩ := fmcEnd_busy s h (count := min 0xFFFFFF n) (stat := if 0xFFFFFF < n then fmOverflow else 0) hbusy
      (by omega) (by split <;> decide)
    exact ⟨_, congrArg Host.Outcome.next (fmcDone_counts s h n hsrc), h1, h2, h3, h4, h5, fmcEnd_upd.frame⟩
  · obtain ⟨h1, h2, h3, h4, -⟩ := fmcEnd_busy s h (count := min 0xFFFFFF n) (stat := fmRefLost) hbusy (by omega) (by decide)
    exact ⟨_, rfl, h1, h2, h4, h3⟩

end Sys2Proof.Machine
end

section
/-! PROOFS. O10: operating points, rails and the governor. -/

namespace Sys2Proof.Machine
namespace State
variable {s t u : State} {h : Half}

/-! ## Changes of the operating point (R344, R345) -/

/-- PWR.OP_REQ at GO: TARGET stored, SEQ advanced, STATUS BUSY. -/
def opAsked (s : State) (h : Half) (v : Nat) : State :=
  (((s.wr (pgPwr h) PWR_OP_REQ_TARGET v).step1 (pgPwr h) PWR_OP_REQ_SEQ).wr (pgPwr h) PWR_OP_REQ_STATUS 1).wr (pgPwr h) PWR_OP_REQ_REASON 0

theorem opAsked_upd {v : Nat} : Upd [.regs] s (s.opAsked h v) :=
  Upd.after wr_upd rfl <| Upd.after wr_upd rfl <| Upd.after step1_upd rfl wr_upd

theorem rd_opAsked_sep (s : State) (h : Half) (v p : Nat) {f : Fld} (hf : f.ok = true)
    (hs : ∀ g ∈ [PWR_OP_REQ_TARGET, PWR_OP_REQ_SEQ, PWR_OP_REQ_STATUS, PWR_OP_REQ_REASON], f.sep g = true) :
    (s.opAsked h v).rd p f = s.rd p f := by
  unfold opAsked
  rw [rd_wr_sep _ _ _ _ _ _ (hs _ (by simp)) hf rfl, rd_wr_sep _ _ _ _ _ _ (hs _ (by simp)) hf rfl,
    rd_step1_sep _ _ _ (hs _ (by simp)) hf rfl, rd_wr_sep _ _ _ _ _ _ (hs _ (by simp)) hf rfl]

theorem opAsked_reads (s : State) (h : Half) {v : Nat} (hv : v < 8) :
    (s.opAsked h v).rd (pgPwr h) PWR_OP_REQ_STATUS = 1 ∧ (s.opAsked h v).rd (pgPwr h) PWR_OP_REQ_TARGET = v ∧
      (s.opAsked h v).rd (pgPwr h) PWR_OP_REQ_SEQ = (s.rd (pgPwr h) PWR_OP_REQ_SEQ + 1) % 16 := by
  unfold opAsked
  refine ⟨?_, ?_, ?_⟩
  · rw [rd_wr_sep _ _ _ _ _ _ rfl rfl rfl, rd_wr_fit _ _ rfl (by decide)]
  · rw [rd_wr_sep _ _ _ _ _ _ rfl rfl rfl, rd_wr_sep _ _ _ _ _ _ rfl rfl rfl, rd_step1_sep _ _ _ rfl rfl rfl]
    exact rd_wr_fit _ _ rfl hv
  · rw [rd_wr_sep _ _ _ _ _ _ rfl rfl rfl, rd_wr_sep _ _ _ _ _ _ rfl rfl rfl, rd_step1 _ _ rfl, rd_wr_sep _ _ _ _ _ _ rfl rfl rfl]
    rfl

theorem govCount_congr (hp : t.power = s.power) (h : Half) (a : GovAct) : t.govCount h a = s.govCount h a := by
  unfold govCount
  rw [pow_congr hp]

theorem opCeiling_congr (hp : t.power = s.power) (h : Half) : t.opCeiling h = s.opCeiling h := by
  unfold opCeiling
  rw [govCount_congr hp]

theorem opResult_reads (s : State) (h : Half) {reason : Nat} (hr : reason < 16) :
    (s.opResult h reason).rd (pgPwr h) PWR_OP_REQ_STATUS = (if reason = 0 then 2 else 3) ∧
      (s.opResult h reason).rd (pgPwr h) PWR_OP_REQ_REASON = reason := by
  unfold opResult
  simp only [wrs_cons, wrs_nil]
  split
  · rename_i h0
    rw [rd_raise_sep _ _ _ _ rfl rfl, rd_raise_sep _ _ _ _ rfl rfl, rd_wr_sep _ _ _ _ _ _ rfl rfl rfl, rd_wr_fit _ _ rfl (by decide)]
    exact ⟨rfl, (rd_wr_fit _ _ rfl (by decide)).trans h0.symm⟩
  · rw [rd_wr_sep _ _ _ _ _ _ rfl rfl rfl, rd_wr_fit _ _ rfl (by decide)]
    exact ⟨rfl, rd_wr_fit _ _ rfl hr⟩

theorem opResult_raises (s : State) (h : Half) : ((s.opResult h 0).rd (pgPwr h) PG_IRQ_RAW).testBit 0 = true := by
  unfold opResult
  rw [if_pos rfl]
  exact raw_raise _ _ (by decide)

theorem opResult_refused_upd {reason : Nat} (hr : reason ≠ 0) : Upd [.regs] s (s.opResult h reason) := by
  unfold opResult
  rw [if_neg hr]
  exact wrs_upd

/-- A GO outside STANDBY's stages: no answer is outstanding. -/
theorem opGo_asked (s : State) (h : Half) (v : Nat) (hst : s.rd (pgPwr h) PWR_OP_REQ_STATUS ≠ 1) (hseq : s.seq.standby = .none) (hv : v < 8) :
    (s.wr (pgPwr h) PWR_OP_REQ_TARGET v).opGo h =
      if s.opCeiling h < v then (s.opAsked h v).opResult h 1
      else if (s.pow h).op.isSome then s.opAsked h v else (s.opAsked h v).opBegin h := by
  have hst' : (s.wr (pgPwr h) PWR_OP_REQ_TARGET v).rd (pgPwr h) PWR_OP_REQ_STATUS ≠ 1 :=
    (rd_wr_sep _ _ _ _ _ _ rfl rfl rfl).trans_ne hst
  have hasked : ((s.wr (pgPwr h) PWR_OP_REQ_TARGET v).step1 (pgPwr h) PWR_OP_REQ_SEQ).wrs (pgPwr h)
      [(PWR_OP_REQ_STATUS, 1), (PWR_OP_REQ_REASON, 0)] = s.opAsked h v := rfl
  have hpower : (s.opAsked h v).power = s.power := opAsked_upd.frame .power (by decide)
  have hseq' : (s.opAsked h v).seq = s.seq := opAsked_upd.frame .seq (by decide)
  have htarget := (opAsked_reads s h hv).2.1
  unfold opGo
  dsimp only
  rw [if_neg hst', hasked]
  generalize s.opAsked h v = u at hpower hseq' htarget
  rw [hseq', hseq, htarget, opCeiling_congr hpower, pow_congr hpower, if_neg (fun hne => hne rfl)]

theorem opBegin_starts {v : Nat} (htarget : s.rd (pgPwr h) PWR_OP_REQ_TARGET = v) (hceil : v ≤ s.opCeiling h)
    (hnew : s.opNow h ≠ v ∨ s.onIrc h = true) : s.opBegin h = s.opStart h v false := by
  have hno : ¬ (s.opNow h = v ∧ (!s.onIrc h) = true) := by
    rintro ⟨hv, hirc⟩
    obtain hne | hon := hnew
    · exact hne hv
    · simp [hon] at hirc
  unfold opBegin
  rw [htarget, if_neg (Nat.not_lt.mpr hceil), if_neg hno]

theorem opStart_op (s : State) (h : Half) (v : Nat) (g : Bool) :
    ((s.opStart h v g).pow h).op = some ⟨v, g, s.onIrc h || decide (s.opNow h < v), if s.hallSel h = 0 then 1 else 0, false, false, false⟩ := by
  unfold opStart
  dsimp only
  split
  · unfold avsPut
    rw [pow_modPow, pow_modPow]
  · rw [pow_modPow]

/-- A change that software asked for ends. -/
theorem opEnd_asked {c : OpChange} (hop : (s.pow h).op = some c) (hby : c.byGov = false) (reason : Nat) :
    s.opEnd h reason = (s.modPow h fun p => { p with op := none }).opResult h reason := by
  unfold opEnd
  simp only [hop, hby]
  rfl

theorem op_opResult_modPow (s : State) (h : Half) (reason : Nat) :
    (((s.modPow h fun p => { p with op := none }).opResult h reason).pow h).op = none := by
  rw [pow_congr (opResult_upd.frame .power (by decide)), pow_modPow]

/-! ## Rails (R346) -/

theorem avsCommit_pow (s : State) (h : Half) (rail v : Nat) :
    ((s.avsCommit h rail v).pow h).avs = (s.pow h).avs ∧
      (if rail = 0 then ((s.avsCommit h rail v).pow h).vhall2 else ((s.avsCommit h rail v).pow h).vfab2) = v := by
  unfold avsCommit
  dsimp only
  split
  · rw [pow_congr (wr_upd.frame .power (by decide)), pow_modPow]
    exact ⟨rfl, rfl⟩
  · rw [pow_congr (wr_upd.frame .power (by decide)), pow_modPow]
    exact ⟨rfl, rfl⟩

theorem out_avsCommit (s : State) (h : Half) (rail v : Nat) : (s.avsCommit h rail v).out.head? = some (.avs h rail (v / 2)) := by
  unfold avsCommit
  dsimp only
  split
  · rw [wr_upd.frame .out (by decide), modPow_upd.frame .out (by decide)]
    rfl
  · rw [wr_upd.frame .out (by decide), modPow_upd.frame .out (by decide)]
    rfl

/-- The transaction is over, and what waited longest is off the list. -/
def avsTaken (s : State) (h : Half) : State := s.modPow h fun p => { p with avs := p.avs.tail }

theorem avsEnd_committed {w : AvsWrite} {l : List AvsWrite} {k : Nat} (havs : (s.pow h).avs = w :: l) (hk : k < 4) :
    s.avsEnd h (List.replicate k false ++ [true]) = (s.avsTaken h).avsCommit h w.rail w.half2 := by
  have htries : (List.replicate k false ++ [true]).take 4 = List.replicate k false ++ [true] :=
    List.take_of_length_le (by simp; omega)
  have hok : (List.replicate k false ++ [true]).contains true = true := by simp
  unfold avsEnd
  simp only [htries, hok, havs]
  rfl

theorem avsEnd_failed {w : AvsWrite} {l : List AvsWrite} (havs : (s.pow h).avs = w :: l) (hw : w.forOp = false) :
    s.avsEnd h [false, false, false, false] = ((s.avsTaken h).bump (pgPwr h) PWR_AVS_ERRS).raise (pgPwr h) 2 := by
  unfold avsEnd
  simp only [havs, List.head?_cons, hw]
  rw [if_neg (by decide), if_neg (by decide), if_neg (by decide)]
  rfl

theorem vfabNext_bundled (hwait : railWaits (s.pow h).avs 1 = false) (hlow : (s.pow h).vfab2 < max (s.pow h).vgoal2 (s.vfabLeast h))
    (hb : s.anyBundled h = true) :
    s.vfabNext h = s.avsPut h 1 (min (max (s.pow h).vgoal2 (s.vfabLeast h)) ((s.pow h).vfab2 + 25)) false := by
  unfold vfabNext
  simp only [hwait, Bool.false_or, beq_iff_eq, if_neg (Nat.ne_of_lt hlow), hb, Bool.not_true, Bool.false_eq_true, if_false, if_pos hlow]

/-! ## The governor (R350, R351) -/

theorem capW_congr (hcap : t.rd (pgPwr h) PWR_CAP_CAP_W = s.rd (pgPwr h) PWR_CAP_CAP_W)
    (horph : t.rd (pgSys h) SYS_MODE_ORPHAN = s.rd (pgSys h) SYS_MODE_ORPHAN) : t.capW h = s.capW h := by
  unfold capW
  rw [hcap, orphan_congr horph]

/-- POWER_W and TJ_OVER as a sample shows them. -/
def govShown (s : State) (h : Half) (l : List Nat) (above : Bool) : State :=
  ((s.drew.modPow h fun p => { p with samples := l }).wr (pgPwr h) PWR_GOV_STAT_POWER_W (s.govMean l)).wr (pgPwr h) PWR_GOV_STAT_TJ_OVER (bit above)

theorem govSample_runs {w : Nat} {c : Int} {l : List Nat} (hg : s.governs h = true) (hr : s.hallRuns h = true)
    (hl : l = (w :: (s.pow h).samples).take 10) : ∃ above, above = decide ((s.rd (pgPwr h) PWR_GOV_CFG_TJ_LIMIT : Int) < c) ∧
      s.govSample h w c = (s.govShown h l above).modPow h fun p => { p with overCap := decide ((s.govShown h l above).capW h < s.govMean l) || above } := by
  refine ⟨_, rfl, ?_⟩
  subst hl
  unfold govSample
  rw [if_neg (by simp [hg, hr])]
  rfl

theorem govMean_le (s : State) (l : List Nat) : s.govMean l ≤ 1023 := Nat.min_le_left ..

theorem govShown_reads (s : State) (h : Half) (l : List Nat) (above : Bool) :
    (s.govShown h l above).rd (pgPwr h) PWR_GOV_STAT_POWER_W = s.govMean l ∧ (s.govShown h l above).capW h = s.capW h ∧
      ((s.govShown h l above).pow h).samples = l := by
  have hmean := govMean_le s l
  unfold govShown
  refine ⟨?_, capW_congr ?_ ?_, ?_⟩
  · rw [rd_wr_sep _ _ _ _ _ _ rfl rfl rfl]
    exact rd_wr_fit _ _ rfl (Nat.lt_succ_of_le hmean)
  · rw [rd_wr_sep _ _ _ _ _ _ rfl rfl rfl, rd_wr_sep _ _ _ _ _ _ rfl rfl rfl, rd_modPow, rd_drew]
  · rw [rd_wr_sep _ _ _ _ _ _ rfl rfl rfl, rd_wr_sep _ _ _ _ _ _ rfl rfl rfl, rd_modPow, rd_drew]
  · rw [pow_congr (wr_upd.frame .power (by decide)), pow_congr (wr_upd.frame .power (by decide)), pow_modPow]

/-- One more action in force. -/
def govHeld (s : State) (h : Half) : State := s.modPow h fun p => { p with gov := .holdSlices :: p.gov }

theorem govTake_hold (s : State) (h : Half) : s.govTake .holdSlices h = s.govHeld h := rfl

theorem govHeld_gov (s : State) (h g : Half) : ((s.govHeld h).pow g).gov = if g = h then .holdSlices :: (s.pow h).gov else (s.pow g).gov := by
  unfold govHeld
  cases h <;> cases g <;> rfl

theorem governed_cases (s : State) (h : Half) : s.governed h = [h] ∨ s.governed h = [.east, .west] := by
  unfold governed
  split
  · exact .inl rfl
  · exact .inr rfl

/-- A first action where none of its kind is in force. -/
theorem govAct_holds (hg : s.governs h = true) (hr : s.hallRuns h = true) (hover : (s.pow h).overCap = true)
    (hfree : ∀ g ∈ s.governed h, s.govCount g .holdSlices = 0) :
    s.govAct h = (((s.governed h).foldl (fun s g => s.govHeld g) s).govShow h).wr (pgPwr h) PWR_GOV_STAT_AT_FLOOR 0 := by
  have hfind : govOrder.find? (fun a => (s.governed h).all fun g => s.govFree g a) = some .holdSlices := by
    have hall : ((s.governed h).all fun g => s.govFree g .holdSlices) = true :=
      List.all_eq_true.mpr fun g hmem => by simp [govFree, hfree g hmem]
    unfold govOrder
    rw [List.find?_cons, hall]
  unfold govAct
  rw [if_neg (by simp [hg, hr, hover])]
  dsimp only
  rw [hfind]
  rfl

theorem govAct_floor (hg : s.governs h = true) (hr : s.hallRuns h = true) (hover : (s.pow h).overCap = true)
    (hnone : ∀ a ∈ govOrder, ∃ g ∈ s.governed h, s.govFree g a = false) :
    s.govAct h = (s.wr (pgPwr h) PWR_GOV_STAT_AT_FLOOR 1).raise (pgPwr h) 1 := by
  have hfind : govOrder.find? (fun a => (s.governed h).all fun g => s.govFree g a) = none :=
    List.find?_eq_none.mpr fun a ha => by
      obtain ⟨g, hmem, hno⟩ := hnone a ha
      intro hall
      rw [List.all_eq_true.mp hall g hmem] at hno
      exact absurd hno (by decide)
  unfold govAct
  rw [if_neg (by simp [hg, hr, hover])]
  dsimp only
  rw [hfind]

theorem govUndo_plain {a : GovAct} {l : List GovAct} (hg : s.governs h = true) (hr : s.hallRuns h = true) (hover : (s.pow h).overCap = false)
    (hlow : s.rd (pgPwr h) PWR_GOV_STAT_POWER_W + s.rd (pgPwr h) PWR_CAP_HYST_W ≤ s.capW h) (hown : s.governed h = [h])
    (hgov : (s.pow h).gov = a :: l) (ha : a = .holdSlices ∨ a = .slowScrub ∨ a = .paceSwaps) :
    s.govUndo h = ((s.modPow h fun p => { p with gov := l }).govShow h).wr (pgPwr h) PWR_GOV_STAT_AT_FLOOR 0 := by
  have hdrop : s.govDrop h = s.modPow h fun p => { p with gov := l } := by
    unfold govDrop
    rw [hgov]
    obtain rfl | rfl | rfl := ha <;> rfl
  unfold govUndo
  rw [if_neg (by simp [hg, hr, hover, hlow, hgov]), hown, List.foldl_cons, List.foldl_nil, hdrop]

theorem atFloor_wr (s : State) (h : Half) : (s.wr (pgPwr h) PWR_GOV_STAT_AT_FLOOR 0).rd (pgPwr h) PWR_GOV_STAT_AT_FLOOR = 0 :=
  rd_wr_fit _ _ rfl (by decide)

end State
open State

/-- Settles O10. -/
theorem powerAct : Obligations.PowerAct := by
  refine ⟨fun s m h v ht hst hseq hceil hop hnew => ?_, fun s h v hop => ?_, fun s m h v ht hst hseq hceil => ?_, fun s h c hop hr hby => ?_,
    fun s h c hop havs hv hraise hsw hby => ?_, fun s h w l k havs hk => ?_, fun s h w l havs hw => ?_, fun s m h mv ha => ?_,
    fun s h hwait hlow hb => ?_, fun s h w c l hg hr hl => ?_, fun s h hg hr hover hfree => ?_, fun s h hg hr hover hnone => ?_,
    fun s h a l hg hr hover hlow hown hgov ha => ?_⟩
  · have hgo := (goTo_of_takes_store ht (store := fun s => s.wr (pgPwr h) PWR_OP_REQ_TARGET v.toNat)
      (congrArg (· == 1) (rd_wr_sep _ _ _ _ _ _ rfl rfl rfl)) fun s => s.opGo h).trans (opGo_asked s h v.toNat hst hseq v.isLt)
    rw [if_neg (Nat.not_lt.mpr hceil), hop, if_neg (by decide)] at hgo
    obtain ⟨hstatus, htarget, hsq⟩ := opAsked_reads s h v.isLt
    have hpower : (s.opAsked h v.toNat).power = s.power := opAsked_upd.frame .power (by decide)
    have hbegin : (s.opAsked h v.toNat).opBegin h = (s.opAsked h v.toNat).opStart h v.toNat false := by
      refine opBegin_starts htarget ?_ ?_
      · rw [opCeiling_congr hpower]
        exact hceil
      · unfold opNow onIrc hallSel at *
        rw [rd_opAsked_sep _ _ _ _ rfl (by decide), rd_opAsked_sep _ _ _ _ rfl (by decide)]
        exact hnew
    exact ⟨_, congrArg Host.Outcome.next (hgo.trans hbegin), hstatus, htarget, hsq, opAsked_upd.frame⟩
  · exact ⟨_, opStart_op s h v false, rfl, rfl, rfl, rfl⟩
  · have hgo := (goTo_of_takes_store ht (store := fun s => s.wr (pgPwr h) PWR_OP_REQ_TARGET v.toNat)
      (congrArg (· == 1) (rd_wr_sep _ _ _ _ _ _ rfl rfl rfl)) fun s => s.opGo h).trans (opGo_asked s h v.toNat hst hseq v.isLt)
    rw [if_pos hceil] at hgo
    obtain ⟨hstatus, hreason⟩ := opResult_reads (s.opAsked h v.toNat) h (reason := 1) (by decide)
    exact ⟨_, congrArg Host.Outcome.next hgo, hstatus, hreason, (Upd.after (opResult_refused_upd (by decide)) rfl opAsked_upd).frame⟩
  · have hlate : s.opLate h = (s.modPow h fun p => { p with op := none }).opResult h 2 := by
      unfold opLate
      simp only [hop, hr]
      exact opEnd_asked hop hby 2
    obtain ⟨hstatus, hreason⟩ := opResult_reads (s.modPow h fun p => { p with op := none }) h (reason := 2) (by decide)
    exact ⟨_, congrArg Host.Outcome.next hlate, op_opResult_modPow s h 2, hstatus, hreason,
      (Upd.after (opResult_refused_upd (reason := 2) (by decide)) rfl <| Upd.after modPow_upd rfl .refl).frame⟩
  · have hset : s.opSettled h = (s.modPow h fun p => { p with op := none }).opResult h 0 := by
      unfold opSettled
      simp only [hop, havs, hv, hraise, hsw, List.any_nil, Bool.or_false, Bool.false_eq_true, if_false, if_true]
      exact opEnd_asked hop hby 0
    obtain ⟨hstatus, hreason⟩ := opResult_reads (s.modPow h fun p => { p with op := none }) h (reason := 0) (by decide)
    exact ⟨_, congrArg Host.Outcome.next hset, op_opResult_modPow s h 0, hstatus, hreason, opResult_raises _ h⟩
  · have htaken : ((s.avsTaken h).pow h).avs = l := by
      unfold avsTaken
      rw [pow_modPow, havs]
      rfl
    obtain ⟨h1, h2⟩ := avsCommit_pow (s.avsTaken h) h w.rail w.half2
    exact ⟨_, congrArg Host.Outcome.next (avsEnd_committed havs hk), h1.trans htaken, h2, out_avsCommit ..⟩
  · have hpow : ((((s.avsTaken h).bump (pgPwr h) PWR_AVS_ERRS).raise (pgPwr h) 2).pow h) = { s.pow h with avs := l } := by
      rw [pow_congr (raise_upd.frame .power (by decide)), pow_congr (bump_upd.frame .power (by decide))]
      unfold avsTaken
      rw [pow_modPow, havs]
      rfl
    refine ⟨_, congrArg Host.Outcome.next (avsEnd_failed havs hw), by rw [hpow], by rw [hpow], by rw [hpow], ?_, raw_raise _ _ (by decide)⟩
    rw [rd_raise_sep _ _ _ _ rfl rfl, rd_bump _ _ rfl]
    unfold avsTaken
    rw [rd_modPow]
    rfl
  · have hle : min 900 (max 600 mv.toNat) < 2 ^ 16 := by omega
    refine ⟨_, congrArg Host.Outcome.next (toPage_of_admits ha fun s => s.vfabWrite h mv.toNat), ?_, vfabWrite_upd.frame⟩
    have hfit : (s.wr (pgPwr h) PWR_VFAB_TARGET_MV (min 900 (max 600 mv.toNat))).rd (pgPwr h) PWR_VFAB_TARGET_MV = min 900 (max 600 mv.toNat) :=
      rd_wr_fit _ _ rfl hle
    unfold vfabWrite
    generalize s.wr (pgPwr h) PWR_VFAB_TARGET_MV (min 900 (max 600 mv.toNat)) = u at hfit
    dsimp only
    split
    · rw [rd_congr (vfabGo_upd.frame .regs (by decide)), hfit]
    · exact hfit
  · refine ⟨_, congrArg Host.Outcome.next (vfabNext_bundled hwait hlow hb), ?_, avsPut_upd.frame⟩
    unfold avsPut
    rw [pow_modPow]
  · obtain ⟨above, habove, hop⟩ := govSample_runs hg hr hl
    obtain ⟨hpower, hcap, hsamples⟩ := govShown_reads s h l above
    have hrd : ((s.govShown h l above).modPow h fun p => { p with overCap := decide ((s.govShown h l above).capW h < s.govMean l) || above }).rd
        (pgPwr h) PWR_GOV_STAT_POWER_W = s.govMean l := (rd_modPow _ _).trans hpower
    refine ⟨_, congrArg Host.Outcome.next hop, ?_, hrd, fun hdiv => hrd.trans ?_, ?_, ?_⟩
    · rw [pow_modPow]
      exact hsamples
    · unfold govMean
      rw [if_pos hdiv, Nat.add_zero]
    · rw [pow_modPow]
      dsimp only
      rw [hcap, habove]
    · exact (Upd.after modPow_upd rfl <| Upd.after wr_upd rfl <| Upd.after wr_upd rfl <| Upd.after modPow_upd rfl <| Upd.after drew_upd rfl .refl).frame
  · refine ⟨_, congrArg Host.Outcome.next (govAct_holds hg hr hover hfree), atFloor_wr _ _, fun g hmem => ?_,
      (Upd.after wr_upd rfl <| Upd.after govShow_upd rfl <| Upd.foldl (fun _ _ ht => Upd.after modPow_upd rfl ht) _ .refl).frame⟩
    rw [pow_congr (wr_upd.frame .power (by decide)), pow_congr (govShow_upd.frame .power (by decide))]
    obtain hone | hboth := governed_cases s h
    · rw [hone] at hmem ⊢
      rw [List.mem_singleton.mp hmem, List.foldl_cons, List.foldl_nil, govHeld_gov, if_pos rfl]
    · rw [hboth, List.foldl_cons, List.foldl_cons, List.foldl_nil, govHeld_gov, govHeld_gov]
      cases g <;> simp [govHeld_gov]
  · refine ⟨_, congrArg Host.Outcome.next (govAct_floor hg hr hover hnone), ?_, raw_raise _ _ (by decide), ?_⟩
    · rw [rd_raise_sep _ _ _ _ rfl rfl]
      exact rd_wr_fit _ _ rfl (by decide)
    · rw [raise_upd.frame .power (by decide), wr_upd.frame .power (by decide)]
  · refine ⟨_, congrArg Host.Outcome.next (govUndo_plain hg hr hover hlow hown hgov ha), ?_, atFloor_wr _ _⟩
    rw [pow_congr (wr_upd.frame .power (by decide)), pow_congr (govShow_upd.frame .power (by decide)), pow_modPow]

end Sys2Proof.Machine
end

section
/-! PROOFS. O11: release of frozen masters, life-cycle requests and fuses. -/

namespace Sys2Proof.Machine
namespace State
variable {s t u : State} {m : Master}

/-! ## UNFREEZE (R408, R409) -/

/-- An UNFREEZE with its kind and ID stored and SEQ advanced. -/
def thawAsked (s : State) (kind id : Nat) : State :=
  ((s.wr pgSec SEC_UNFREEZE_KIND kind).wr pgSec SEC_UNFREEZE_ID id).step1 pgSec SEC_UNFREEZE_SEQ

theorem thawAsked_upd {kind id : Nat} : Upd [.regs] s (s.thawAsked kind id) :=
  Upd.after step1_upd rfl <| Upd.after wr_upd rfl wr_upd

theorem rd_thawAsked_sep (s : State) (kind id p : Nat) {f : Fld} (hf : f.ok = true)
    (hs : ∀ g ∈ [SEC_UNFREEZE_KIND, SEC_UNFREEZE_ID, SEC_UNFREEZE_SEQ], f.sep g = true) : (s.thawAsked kind id).rd p f = s.rd p f := by
  unfold thawAsked
  rw [rd_step1_sep _ _ _ (hs _ (by simp)) hf rfl, rd_wr_sep _ _ _ _ _ _ (hs _ (by simp)) hf rfl,
    rd_wr_sep _ _ _ _ _ _ (hs _ (by simp)) hf rfl]

theorem seq_thawAsked (s : State) (kind id : Nat) :
    (s.thawAsked kind id).rd pgSec SEC_UNFREEZE_SEQ = (s.rd pgSec SEC_UNFREEZE_SEQ + 1) % 16 := by
  unfold thawAsked
  rw [rd_step1 _ _ rfl, rd_wr_sep _ _ _ _ _ _ rfl rfl rfl, rd_wr_sep _ _ _ _ _ _ rfl rfl rfl]
  rfl

theorem unfreezeEnd_reads (s : State) {status reason : Nat} (hst : status < 4) (hr : reason < 16) :
    (s.unfreezeEnd status reason).rd pgSec SEC_UNFREEZE_STATUS = status ∧ (s.unfreezeEnd status reason).rd pgSec SEC_UNFREEZE_REASON = reason ∧
      (s.unfreezeEnd status reason).rd pgSec SEC_UNFREEZE_SEQ = s.rd pgSec SEC_UNFREEZE_SEQ ∧
      ((s.unfreezeEnd status reason).rd pgSec PG_IRQ_RAW).testBit 1 = true := by
  unfold unfreezeEnd
  simp only [wrs_cons, wrs_nil]
  refine ⟨?_, ?_, ?_, raw_raise _ _ (by decide)⟩
  · rw [rd_raise_sep _ _ _ _ rfl rfl, rd_wr_sep _ _ _ _ _ _ rfl rfl rfl]
    exact rd_wr_fit _ _ rfl hst
  · rw [rd_raise_sep _ _ _ _ rfl rfl]
    exact rd_wr_fit _ _ rfl hr
  · rw [rd_raise_sep _ _ _ _ rfl rfl, rd_wr_sep _ _ _ _ _ _ rfl rfl rfl, rd_wr_sep _ _ _ _ _ _ rfl rfl rfl]

/-- The GO of an UNFREEZE acts on the state with its operands stored. -/
theorem unfreeze_exec {kind : BitVec 3} {id : BitVec 16} (ht : s.Takes m pgSec 0x64) :
    s.goTo m pgSec 0x64 (fun s => s.wrs pgSec [(SEC_UNFREEZE_KIND, kind.toNat), (SEC_UNFREEZE_ID, id.toNat)])
        (fun s => s.unfreezeGo kind.toNat id.toNat) =
      ((s.wr pgSec SEC_UNFREEZE_KIND kind.toNat).wr pgSec SEC_UNFREEZE_ID id.toNat).unfreezeGo kind.toNat id.toNat := by
  refine goTo_of_takes_store ht (store := fun s => s.wrs pgSec [(SEC_UNFREEZE_KIND, kind.toNat), (SEC_UNFREEZE_ID, id.toNat)]) ?_ _
  unfold on
  simp only [wrs_cons, wrs_nil]
  rw [rd_wr_sep _ _ _ _ _ _ rfl rfl rfl, rd_wr_sep _ _ _ _ _ _ rfl rfl rfl]

/-- The checks of an UNFREEZE in the order of R409. -/
theorem unfreezeGo_checks (s : State) (kind id : Nat) :
    ((s.wr pgSec SEC_UNFREEZE_KIND kind).wr pgSec SEC_UNFREEZE_ID id).unfreezeGo kind id =
      match (s.thawAsked kind id).freezeHolder kind id with
      | none => (s.thawAsked kind id).unfreezeEnd 3 1
      | some h =>
        if !(s.thawAsked kind id).isFrozen kind id then (s.thawAsked kind id).unfreezeEnd 3 2
        else if h != (s.thawAsked kind id).leader && (s.thawAsked kind id).cut (s.thawAsked kind id).leader then
          (s.thawAsked kind id).unfreezeEnd 3 3
        else ((s.thawAsked kind id).thaw kind id).unfreezeEnd 2 0 := rfl

theorem cut_congr {h : Half} (hseq : t.seq = s.seq) (hlead : t.leader = s.leader)
    (hrole : t.rd (pgSys h) SYS_ROLE_LEADER = s.rd (pgSys h) SYS_ROLE_LEADER)
    (hok : t.rd (pgSys h) SYS_ROLE_LEASE_OK = s.rd (pgSys h) SYS_ROLE_LEASE_OK)
    (horph : t.rd (pgSys h) SYS_MODE_ORPHAN = s.rd (pgSys h) SYS_MODE_ORPHAN) : t.cut h = s.cut h := by
  unfold cut on
  rw [hseq, hlead, hrole, lapsed_congr hok, orphan_congr horph]

/-- A frozen crew whose half answers is released. -/
theorem unfreezeGo_crew {id : Nat} (hid : idOk id = true) (hfrozen : s.frozenCrew id = true)
    (hreach : idHalf id = s.leader ∨ s.cut s.leader = false) :
    ((s.wr pgSec SEC_UNFREEZE_KIND 0).wr pgSec SEC_UNFREEZE_ID id).unfreezeGo 0 id =
      ((s.thawAsked 0 id).modSec fun x => { x with crews := x.crews.erase id }).unfreezeEnd 2 0 := by
  have hrd (p : Nat) {f : Fld} (hf : f.ok = true) (hs : ∀ g ∈ [SEC_UNFREEZE_KIND, SEC_UNFREEZE_ID, SEC_UNFREEZE_SEQ], f.sep g = true) :
      (s.thawAsked 0 id).rd p f = s.rd p f := rd_thawAsked_sep s 0 id p hf hs
  have hholder : (s.thawAsked 0 id).freezeHolder 0 id = some (idHalf id) := by
    unfold freezeHolder
    rw [if_pos rfl, if_pos hid]
  have hsec : (s.thawAsked 0 id).security = s.security := thawAsked_upd.frame .security (by decide)
  have hfr : (s.thawAsked 0 id).isFrozen 0 id = true := by
    unfold isFrozen frozenCrew at *
    rw [if_pos rfl, hsec, hfrozen]
  have hlead : (s.thawAsked 0 id).leader = s.leader := leader_congr (fun k => hrd _ rfl (by decide)) (hrd _ rfl (by decide))
  have hcut : (s.thawAsked 0 id).cut s.leader = s.cut s.leader :=
    cut_congr (thawAsked_upd.frame .seq (by decide)) hlead (hrd _ rfl (by decide)) (hrd _ rfl (by decide)) (hrd _ rfl (by decide))
  rw [unfreezeGo_checks]
  generalize s.thawAsked 0 id = u at *
  have hgo : ¬ ((idHalf id != u.leader && u.cut u.leader) = true) := by
    rw [hlead, hcut]
    obtain h | h := hreach <;> simp [h]
  simp only [hholder, hfr, Bool.not_true, Bool.false_eq_true, if_false, if_neg hgo]
  rfl

/-- A peer that is not frozen (R409). -/
theorem unfreezeGo_peer {id : Nat} (hid : id ≤ 0x3FF) (hfree : id ∉ s.security.peers) :
    ((s.wr pgSec SEC_UNFREEZE_KIND 3).wr pgSec SEC_UNFREEZE_ID id).unfreezeGo 3 id = (s.thawAsked 3 id).unfreezeEnd 3 2 := by
  have hholder : (s.thawAsked 3 id).freezeHolder 3 id = some .west := by
    unfold freezeHolder
    rw [if_neg (by decide), if_neg (by decide), if_neg (by decide), if_pos rfl, if_pos hid]
  have hsec : (s.thawAsked 3 id).security = s.security := thawAsked_upd.frame .security (by decide)
  have hfr : (s.thawAsked 3 id).isFrozen 3 id = false := by
    unfold isFrozen
    rw [if_neg (by decide), if_neg (by decide), if_neg (by decide), hsec]
    simp [hfree]
  rw [unfreezeGo_checks]
  generalize s.thawAsked 3 id = u at *
  simp only [hholder, hfr, Bool.not_false, if_true]

/-- A kind that is not defined. -/
theorem unfreezeGo_undefined {kind : Nat} (id : Nat) (hk : 3 < kind) :
    ((s.wr pgSec SEC_UNFREEZE_KIND kind).wr pgSec SEC_UNFREEZE_ID id).unfreezeGo kind id = (s.thawAsked kind id).unfreezeEnd 3 1 := by
  have hholder : (s.thawAsked kind id).freezeHolder kind id = none := by
    unfold freezeHolder
    rw [if_neg (by simp only [fkCrew]; omega), if_neg (by simp only [fkFn]; omega), if_neg (by simp only [fkCox]; omega),
      if_neg (by simp only [fkPeer]; omega)]
  rw [unfreezeGo_checks]
  generalize s.thawAsked kind id = u at *
  simp only [hholder]

/-! ## Life-cycle requests (R412 to R414) -/

theorem lifeCycle_congr (hrd : t.rd pgLcs LCS_STATE_STATE = s.rd pgLcs LCS_STATE_STATE) : t.lifeCycle = s.lifeCycle := hrd

/-- The state in which a request's checks are made: its target stored and SEQ advanced. -/
def lcsAsked (s : State) (target : Nat) : State := (s.wr pgLcs LCS_REQ_TARGET target).step1 pgLcs LCS_REQ_SEQ

theorem rd_lcsAsked (s : State) (target : Nat) {f : Fld} (hf : f.ok = true) (h1 : f.sep LCS_REQ_TARGET = true) (h2 : f.sep LCS_REQ_SEQ = true) :
    (s.lcsAsked target).rd pgLcs f = s.rd pgLcs f := by
  unfold lcsAsked
  rw [rd_step1_sep _ _ _ h2 hf rfl, rd_wr_sep _ _ _ _ _ _ h1 hf rfl]

theorem lcsAsked_upd {target : Nat} : Upd [.regs] s (s.lcsAsked target) := Upd.after step1_upd rfl wr_upd

/-- A request is accepted: its burn begins, after the key slots are zeroised where the target asks for it. -/
def lcsAccept (s : State) (target : Nat) : State :=
  ((if target = lcProd then s else s.zeroKeys).modSec fun x => { x with lcsBurn := some target }).wrs pgLcs
    [(LCS_REQ_STATUS, 1), (LCS_REQ_REASON, 0)]

theorem lcsAccept_upd {target : Nat} : Upd [.regs, .security] s (s.lcsAccept target) :=
  Upd.after wrs_upd rfl <| Upd.after modSec_upd rfl <| Upd.ite .refl (Upd.after zeroKeys_upd rfl .refl)

theorem lcsAccept_status (s : State) (target : Nat) : (s.lcsAccept target).rd pgLcs LCS_REQ_STATUS = 1 := by
  unfold lcsAccept
  simp only [wrs_cons, wrs_nil]
  rw [rd_wr_sep _ _ _ _ _ _ rfl rfl rfl]
  exact rd_wr_fit _ _ rfl (by decide)

theorem zeroKeys_zeroised (s : State) : ∀ k ∈ s.zeroKeys.security.keys, k.state = .zeroised := by
  intro k hk
  obtain ⟨e, -, rfl⟩ := List.mem_map.mp hk
  rfl

/-- Acceptance of a target that zeroises: the burn, and no key left. -/
theorem lcsAccept_zeroises (s : State) {target : Nat} (h : target ≠ lcProd) :
    (s.lcsAccept target).security.lcsBurn = some target ∧ ∀ k ∈ (s.lcsAccept target).security.keys, k.state = .zeroised := by
  have hsec : (s.lcsAccept target).security = { s.zeroKeys.security with lcsBurn := some target } := by
    unfold lcsAccept
    rw [if_neg h, wrs_upd.frame .security (by decide)]
    rfl
  rw [hsec]
  exact ⟨rfl, zeroKeys_zeroised s⟩

theorem lcsRefuse_reads (s : State) {reason : Nat} (hr : reason < 16) :
    (s.lcsRefuse reason).rd pgLcs LCS_REQ_STATUS = 3 ∧ (s.lcsRefuse reason).rd pgLcs LCS_REQ_REASON = reason ∧
      ((s.lcsRefuse reason).rd pgLcs PG_IRQ_RAW).testBit 0 = true := by
  unfold lcsRefuse
  simp only [wrs_cons, wrs_nil]
  refine ⟨?_, ?_, raw_raise _ _ (by decide)⟩
  · rw [rd_raise_sep _ _ _ _ rfl rfl, rd_wr_sep _ _ _ _ _ _ rfl rfl rfl]
    exact rd_wr_fit _ _ rfl (by decide)
  · rw [rd_raise_sep _ _ _ _ rfl rfl]
    exact rd_wr_fit _ _ rfl hr

/-- The checks of a request that no other waits for (R412, R413). -/
theorem lcsReq_checks {target : Nat} (ht : s.Takes m pgLcs 0x44) (hst : s.rd pgLcs LCS_REQ_STATUS ≠ 1)
    (hpend : s.rd pgLcs LCS_STATE_PENDING = s.lifeCycle) :
    s.lcsReq m target =
      if !lcsAllowed s.lifeCycle target then (s.lcsAsked target).lcsRefuse 1
      else if target = lcRma then
        (if (s.lcsAsked target).certGood.1 then (s.lcsAsked target).certGood.2.lcsAccept target else (s.lcsAsked target).certGood.2.lcsRefuse 2)
      else (s.lcsAsked target).lcsAccept target := by
  have hgo : s.lcsReq m target = (s.wr pgLcs LCS_REQ_TARGET target).lcsGo target :=
    goTo_of_takes_store ht (store := fun s => s.wr pgLcs LCS_REQ_TARGET target)
      (congrArg (· == 1) (rd_wr_sep _ _ _ _ _ _ rfl rfl rfl)) _
  have hst' : (s.wr pgLcs LCS_REQ_TARGET target).rd pgLcs LCS_REQ_STATUS ≠ 1 := (rd_wr_sep _ _ _ _ _ _ rfl rfl rfl).trans_ne hst
  have hstart : (s.wr pgLcs LCS_REQ_TARGET target).step1 pgLcs LCS_REQ_SEQ = s.lcsAsked target := rfl
  have hlife : (s.lcsAsked target).lifeCycle = s.lifeCycle := lifeCycle_congr (rd_lcsAsked s target rfl rfl rfl)
  have hpend' : (s.lcsAsked target).rd pgLcs LCS_STATE_PENDING = s.lifeCycle := (rd_lcsAsked s target rfl rfl rfl).trans hpend
  rw [hgo]
  unfold lcsGo
  dsimp only
  rw [if_neg hst', hstart]
  generalize s.lcsAsked target = u at hlife hpend'
  rw [hpend', hlife, if_neg (fun hne => hne rfl)]
  rcases u.certGood with ⟨_ | _, v⟩
  · simp only [Bool.false_eq_true, if_false, lcsAccept]
  · simp only [if_true, lcsAccept]

end State
open State

/-- Settles O11. -/
theorem unfreezeAndLifeCycleAct : Obligations.UnfreezeAndLifeCycleAct := by
  refine ⟨fun s m id ht hid hfrozen hreach => ?_, fun s m id ht hid hfree => ?_, fun s m k id ht hk => ?_, fun s m ht hst hdev hpend => ?_,
    fun s m ht hst hpend hok => ?_, fun s m ht hst hpend hok => ?_, fun s m v ht hst hpend hno => ?_, fun s v hburn => ?_, fun s v hburn => ?_,
    fun s m ha hlc => ?_, fun s m ha hlc => ?_⟩
  · have hop := (unfreeze_exec (kind := 0) (id := id) ht).trans (unfreezeGo_crew hid hfrozen hreach)
    obtain ⟨hstatus, hreason, hseq, hraw⟩ := unfreezeEnd_reads ((s.thawAsked 0 id.toNat).modSec fun x => { x with crews := x.crews.erase id.toNat })
      (status := 2) (reason := 0) (by decide) (by decide)
    refine ⟨_, congrArg Host.Outcome.next hop, ?_, hstatus, hreason, hseq.trans ?_, hraw⟩
    · have hsec : (s.thawAsked 0 id.toNat).security = s.security := thawAsked_upd.frame .security (by decide)
      rw [unfreezeEnd_upd.frame .security (by decide)]
      unfold modSec
      rw [hsec]
    · exact (rd_modSec _ _).trans (seq_thawAsked s 0 id.toNat)
  · have hop := (unfreeze_exec (kind := 3) (id := id) ht).trans (unfreezeGo_peer hid hfree)
    obtain ⟨hstatus, hreason, -⟩ := unfreezeEnd_reads (s.thawAsked 3 id.toNat) (status := 3) (reason := 2) (by decide) (by decide)
    exact ⟨_, congrArg Host.Outcome.next hop, (Upd.after unfreezeEnd_upd rfl <| Upd.after (K := [.regs, .out, .host, .cox]) thawAsked_upd rfl .refl).frame
      .security (by decide), hstatus, hreason⟩
  · have hop := (unfreeze_exec (kind := k) (id := id) ht).trans (unfreezeGo_undefined id.toNat hk)
    obtain ⟨hstatus, hreason, -⟩ := unfreezeEnd_reads (s.thawAsked k.toNat id.toNat) (status := 3) (reason := 1) (by decide) (by decide)
    exact ⟨_, congrArg Host.Outcome.next hop, (Upd.after unfreezeEnd_upd rfl <| Upd.after (K := [.regs, .out, .host, .cox]) thawAsked_upd rfl .refl).frame
      .security (by decide), hstatus, hreason⟩
  · have hop := lcsReq_checks (target := lcProd) ht hst (hpend.trans hdev.symm)
    rw [hdev, if_neg (by decide), if_neg (by decide)] at hop
    refine ⟨_, congrArg Host.Outcome.next hop, ?_, lcsAccept_status _ _, ?_,
      (Upd.after lcsAccept_upd rfl <| Upd.after lcsAsked_upd rfl .refl).frame⟩
    · have hsec : (s.lcsAsked lcProd).security = s.security := lcsAsked_upd.frame .security (by decide)
      unfold lcsAccept
      rw [if_pos rfl, wrs_upd.frame .security (by decide)]
      unfold modSec
      rw [hsec]
    · have hlife : (s.lcsAsked lcProd).lifeCycle = lcDev := (lifeCycle_congr (rd_lcsAsked s lcProd rfl rfl rfl)).trans hdev
      unfold lcsAccept lifeCycle at *
      rw [if_pos rfl, wrs_cons, wrs_cons, wrs_nil, rd_wr_sep _ _ _ _ _ _ rfl rfl rfl, rd_wr_sep _ _ _ _ _ _ rfl rfl rfl, rd_modSec, hlife]
  · have hop := lcsReq_checks (target := lcEnd) ht hst hpend
    rw [hok, if_neg (by decide), if_neg (by decide)] at hop
    obtain ⟨hburn, hkeys⟩ := lcsAccept_zeroises (s.lcsAsked lcEnd) (target := lcEnd) (by decide)
    exact ⟨_, congrArg Host.Outcome.next hop, hburn, hkeys, lcsAccept_status _ _,
      (Upd.after lcsAccept_upd rfl <| Upd.after lcsAsked_upd rfl .refl).frame⟩
  · have hop := lcsReq_checks (target := lcRma) ht hst hpend
    rw [hok, if_neg (by decide), if_pos rfl] at hop
    refine ⟨_, congrArg Host.Outcome.next hop, ?_⟩
    have hsec : (s.lcsAsked lcRma).certGood.2.security = s.security :=
      (certGood_upd.frame .security (by decide)).trans (lcsAsked_upd.frame .security (by decide))
    change if (s.lcsAsked lcRma).certGood.1 = true then _ else _
    split
    · obtain ⟨hburn, hkeys⟩ := lcsAccept_zeroises (s.lcsAsked lcRma).certGood.2 (target := lcRma) (by decide)
      exact ⟨hburn, hkeys, lcsAccept_status _ _⟩
    · obtain ⟨hstatus, hreason, -⟩ := lcsRefuse_reads (s.lcsAsked lcRma).certGood.2 (reason := 2) (by decide)
      exact ⟨(lcsRefuse_upd.frame .security (by decide)).trans hsec, hstatus, hreason⟩
  · have hop := lcsReq_checks (target := v.toNat) ht hst hpend
    rw [hno, if_pos (by decide)] at hop
    obtain ⟨hstatus, hreason, hraw⟩ := lcsRefuse_reads (s.lcsAsked v.toNat) (reason := 1) (by decide)
    exact ⟨_, congrArg Host.Outcome.next hop, (lcsRefuse_upd.frame .security (by decide)).trans (lcsAsked_upd.frame .security (by decide)),
      hstatus, hreason, hraw⟩
  · have hop : s.lcsDone true = (((s.modSec fun x => { x with lcsBurn := none }).modSec fun x => { x with nextLc := v }).wrs pgLcs
        [(LCS_STATE_PENDING, v), (LCS_REQ_STATUS, 2), (LCS_REQ_REASON, 0)]).raise pgLcs 0 := by
      unfold lcsDone
      simp only [hburn, if_true]
    refine ⟨_, congrArg Host.Outcome.next hop, ?_, ?_, ?_, ?_, raw_raise _ _ (by decide)⟩
    · rw [raise_upd.frame .security (by decide), wrs_upd.frame .security (by decide)]
      rfl
    · rw [rd_raise_sep _ _ _ _ rfl rfl, wrs_cons, wrs_cons, wrs_cons, wrs_nil, rd_wr_sep _ _ _ _ _ _ rfl rfl rfl,
        rd_wr_sep _ _ _ _ _ _ rfl rfl rfl]
      exact rd_wr _ _ _ _ rfl
    · unfold lifeCycle
      rw [rd_raise_sep _ _ _ _ rfl rfl, wrs_cons, wrs_cons, wrs_cons, wrs_nil, rd_wr_sep _ _ _ _ _ _ rfl rfl rfl,
        rd_wr_sep _ _ _ _ _ _ rfl rfl rfl, rd_wr_sep _ _ _ _ _ _ rfl rfl rfl, rd_modSec, rd_modSec]
    · rw [rd_raise_sep _ _ _ _ rfl rfl, wrs_cons, wrs_cons, wrs_cons, wrs_nil, rd_wr_sep _ _ _ _ _ _ rfl rfl rfl]
      exact rd_wr_fit _ _ rfl (by decide)
  · have hop : s.lcsDone false = (s.modSec fun x => { x with lcsBurn := none }).lcsRefuse 4 := by
      unfold lcsDone
      simp only [hburn, Bool.false_eq_true, if_false]
    obtain ⟨hstatus, hreason, -⟩ := lcsRefuse_reads (s.modSec fun x => { x with lcsBurn := none }) (reason := 4) (by decide)
    refine ⟨_, congrArg Host.Outcome.next hop, ?_, hstatus, hreason⟩
    rw [lcsRefuse_upd.frame .security (by decide)]
    rfl
  · have hop := (toPage_of_admits ha fun s => s.fuseEnc).trans (if_pos hlc)
    refine ⟨_, congrArg Host.Outcome.next hop, ?_, rd_wr_fit _ _ rfl (by decide), ?_⟩
    · rw [wr_upd.frame .security (by decide)]
      rfl
    · rw [wr_upd.frame .fuses (by decide)]
      rfl
  · have hop := (toPage_of_admits ha fun s => s.fuseFall).trans (if_pos hlc)
    refine ⟨_, congrArg Host.Outcome.next hop, ?_, rd_wr_fit _ _ rfl (by decide), ?_⟩
    · rw [wr_upd.frame .security (by decide)]
      rfl
    · rw [wr_upd.frame .fuses (by decide)]
      rfl

end Sys2Proof.Machine
end

section
/-! PROOFS. O12: key slots and the test access port. -/

namespace Sys2Proof.Machine
namespace State
variable {s t u : State} {m : Master}

/-! ## Key operations (R415 to R418) -/

/-- The operands of a GO in SEC.KEY_CTRL, stored. -/
def keyStored (s : State) (op : Nat) (vbat : Bool) (index : Nat) : State :=
  ((s.wr pgSec SEC_KEY_CTRL_OP op).wr pgSec SEC_KEY_CTRL_BANK (bit vbat)).wr pgSec SEC_KEY_CTRL_INDEX index

theorem keyStored_upd {op index : Nat} {vbat : Bool} : Upd [.regs] s (s.keyStored op vbat index) :=
  Upd.after wr_upd rfl <| Upd.after wr_upd rfl wr_upd

theorem rd_keyStored (s : State) (op : Nat) (vbat : Bool) (index p : Nat) {f : Fld} (hf : f.ok = true)
    (hs : ∀ g ∈ [SEC_KEY_CTRL_OP, SEC_KEY_CTRL_BANK, SEC_KEY_CTRL_INDEX], f.sep g = true) :
    (s.keyStored op vbat index).rd p f = s.rd p f := by
  unfold keyStored
  rw [rd_wr_sep _ _ _ _ _ _ (hs _ (by simp)) hf rfl, rd_wr_sep _ _ _ _ _ _ (hs _ (by simp)) hf rfl,
    rd_wr_sep _ _ _ _ _ _ (hs _ (by simp)) hf rfl]

theorem keyWord_ok (i : Nat) (hi : i < 8) : (SEC_KEY_DATA_DATA.at 4 i).ok = true ∧ (SEC_KEY_DATA_DATA.at 4 i).off = 0x80 + 4 * i ∧
    ∀ g ∈ [SEC_KEY_CTRL_OP, SEC_KEY_CTRL_BANK, SEC_KEY_CTRL_INDEX, SEC_KEY_CTRL_SEQ, SEC_KEY_CTRL_STATUS, SEC_KEY_CTRL_REASON, SEC_KEY_STAT_KCV,
      PG_IRQ_RAW], (SEC_KEY_DATA_DATA.at 4 i).sep g = true := by
  refine (by decide : ∀ i : Fin 8, (SEC_KEY_DATA_DATA.at 4 i).ok = true ∧ (SEC_KEY_DATA_DATA.at 4 i).off = 0x80 + 4 * i ∧
    ∀ g ∈ [SEC_KEY_CTRL_OP, SEC_KEY_CTRL_BANK, SEC_KEY_CTRL_INDEX, SEC_KEY_CTRL_SEQ, SEC_KEY_CTRL_STATUS, SEC_KEY_CTRL_REASON, SEC_KEY_STAT_KCV,
      PG_IRQ_RAW], (SEC_KEY_DATA_DATA.at 4 i).sep g = true) ⟨i, hi⟩

theorem keyData_congr (hrd : ∀ i, i < 8 → t.rd pgSec (SEC_KEY_DATA_DATA.at 4 i) = s.rd pgSec (SEC_KEY_DATA_DATA.at 4 i)) : t.keyData = s.keyData := by
  unfold keyData
  exact List.foldl_ext _ _ _ fun k i hi => by rw [hrd i (List.mem_range.mp hi)]

theorem rd_foldl_mem {α : Type} {g : State → α → State} {p : Nat} {f : Fld} (l : List α)
    (h : ∀ t, ∀ x ∈ l, (g t x).rd p f = t.rd p f) : (l.foldl g s).rd p f = s.rd p f := by
  induction l generalizing s with
  | nil => rfl
  | cons x l ih =>
    rw [List.foldl_cons, ih fun t y hy => h t y (.tail _ hy)]
    exact h s x (.head _)

theorem rd_clearKeyData_sep (s : State) (p : Nat) {f : Fld} (hf : f.ok = true) (hs : ∀ i, i < 8 → f.sep (SEC_KEY_DATA_DATA.at 4 i) = true) :
    s.clearKeyData.rd p f = s.rd p f := by
  unfold clearKeyData
  exact rd_foldl_mem _ fun t i hi => rd_wr_sep _ _ _ _ _ _ (hs i (List.mem_range.mp hi)) hf (keyWord_ok i (List.mem_range.mp hi)).1

/-- Writes of 0 to a list of key words: a word of the list, and one that held 0, holds 0. -/
theorem foldl_wr_zero {j : Nat} (hj : j < 8) (l : List Nat) (hl : ∀ i ∈ l, i < 8)
    (h : j ∈ l ∨ s.rd pgSec (SEC_KEY_DATA_DATA.at 4 j) = 0) :
    (l.foldl (fun s i => s.wr pgSec (SEC_KEY_DATA_DATA.at 4 i) 0) s).rd pgSec (SEC_KEY_DATA_DATA.at 4 j) = 0 := by
  induction l generalizing s with
  | nil => exact h.resolve_left (List.not_mem_nil)
  | cons i l ih =>
    obtain ⟨hok, hoff, -⟩ := keyWord_ok j hj
    have hi8 := hl i (.head _)
    obtain ⟨hoki, hoffi, -⟩ := keyWord_ok i hi8
    rw [List.foldl_cons]
    refine ih (fun x hx => hl x (.tail _ hx)) ?_
    by_cases hij : j = i
    · rw [hij, rd_wr_fit _ _ hoki (Nat.two_pow_pos _)]
      exact .inr rfl
    · have hsep : (SEC_KEY_DATA_DATA.at 4 j).sep (SEC_KEY_DATA_DATA.at 4 i) = true := by
        simp only [Fld.sep, hoff, hoffi, Bool.or_eq_true, bne_iff_ne]
        left
        left
        omega
      rw [rd_wr_sep _ _ _ _ _ _ hsep hok hoki]
      exact h.imp (fun hmem => (List.mem_cons.mp hmem).resolve_left hij) id

theorem clearKeyData_zero (s : State) {j : Nat} (hj : j < 8) : s.clearKeyData.rd pgSec (SEC_KEY_DATA_DATA.at 4 j) = 0 :=
  foldl_wr_zero hj _ (fun _ hi => List.mem_range.mp hi) (.inl (List.mem_range.mpr hj))

/-- The state in which the checks of a key operation are made: SEQ advanced, the key words cleared. -/
def keyAsked (s : State) (op : Nat) (vbat : Bool) (index : Nat) : State :=
  ((s.keyStored op vbat index).step1 pgSec SEC_KEY_CTRL_SEQ).clearKeyData

theorem keyAsked_upd {op index : Nat} {vbat : Bool} : Upd [.regs] s (s.keyAsked op vbat index) :=
  Upd.after clearKeyData_upd rfl <| Upd.after step1_upd rfl keyStored_upd

theorem slot_congr (h : t.security = s.security) (i : Nat) : t.slot i = s.slot i := by
  unfold slot
  rw [h]

/-- A GO that no other key operation waits for: its checks in the order of R416. -/
theorem keyCtrl_checks {op index : Nat} {vbat good : Bool} (ht : s.Takes m pgSec 0xA0) (hst : s.rd pgSec SEC_KEY_CTRL_STATUS ≠ 1) :
    s.keyCtrl m op vbat index good =
      if op = 0 ∨ (vbat ∧ 2 ≤ index) then (s.keyAsked op vbat index).keyEnd 1 none
      else if op = 1 then
        if s.lifeCycle ≠ lcDev ∧ !(vbat ∧ s.lifeCycle = lcProd) then (s.keyAsked op vbat index).keyEnd 2 none
        else if vbat then
          if good then ((s.keyAsked op vbat index).setSlot (keySlot vbat index) ⟨.valid, s.keyData⟩).keyEnd 0 (some (keyCheckValue s.keyData))
          else (s.keyAsked op vbat index).keyEnd 4 none
        else if (s.slot (keySlot vbat index)).state ≠ .empty then (s.keyAsked op vbat index).keyEnd 3 none
        else (s.keyAsked op vbat index).keyBurn (keySlot vbat index) (some s.keyData)
      else if op = 2 then
        (if vbat then ((s.keyAsked op vbat index).setSlot (keySlot vbat index) ⟨.zeroised, 0⟩).keyEnd 0 none
         else (s.keyAsked op vbat index).keyBurn (keySlot vbat index) none)
      else if (s.slot (keySlot vbat index)).state = .valid then
        (s.keyAsked op vbat index).keyEnd 0 (some (keyCheckValue (s.slot (keySlot vbat index)).key))
      else (s.keyAsked op vbat index).keyEnd 5 none := by
  have hgo : s.keyCtrl m op vbat index good = (s.keyStored op vbat index).keyGo op vbat index good := by
    refine goTo_of_takes_store ht (store := fun s => s.wrs pgSec [(SEC_KEY_CTRL_OP, op), (SEC_KEY_CTRL_BANK, bit vbat), (SEC_KEY_CTRL_INDEX, index)]) ?_ _
    exact congrArg (· == 1) (rd_keyStored s op vbat index pgSec rfl (by decide))
  have hst' : (s.keyStored op vbat index).rd pgSec SEC_KEY_CTRL_STATUS ≠ 1 := (rd_keyStored s op vbat index pgSec rfl (by decide)).trans_ne hst
  have hdata : (s.keyStored op vbat index).keyData = s.keyData := keyData_congr fun i hi => by
    obtain ⟨hok, -, hsep⟩ := keyWord_ok i hi
    exact rd_keyStored s op vbat index pgSec hok fun g hg => hsep g (by simp at hg ⊢; tauto)
  have hlife : (s.keyAsked op vbat index).lifeCycle = s.lifeCycle := by
    refine lifeCycle_congr ?_
    unfold keyAsked
    rw [rd_clearKeyData_sep _ _ rfl (by decide), rd_step1_sep _ _ _ rfl rfl rfl, rd_keyStored _ _ _ _ _ rfl (by decide)]
  have hslot := slot_congr (keyAsked_upd.frame .security (by decide) : (s.keyAsked op vbat index).security = s.security)
  have hasked : ((s.keyStored op vbat index).step1 pgSec SEC_KEY_CTRL_SEQ).clearKeyData = s.keyAsked op vbat index := rfl
  rw [hgo]
  unfold keyGo
  dsimp only
  rw [if_neg hst', hasked, hdata]
  generalize s.keyAsked op vbat index = u at hlife hslot
  rw [hlife, hslot]

/-- The end of a key operation. -/
theorem keyEnd_reads (s : State) {reason : Nat} (hr : reason < 16) (kcv : Option Nat) :
    (s.keyEnd reason kcv).rd pgSec SEC_KEY_CTRL_STATUS = (if reason = 0 then 2 else 3) ∧
      (s.keyEnd reason kcv).rd pgSec SEC_KEY_CTRL_REASON = reason ∧ ((s.keyEnd reason kcv).rd pgSec PG_IRQ_RAW).testBit 2 = true ∧
      (∀ v, kcv = some v → (s.keyEnd reason kcv).rd pgSec SEC_KEY_STAT_KCV = v % 65536) ∧ (s.keyEnd reason kcv).security = s.security := by
  have hsec : (s.keyEnd reason kcv).security = s.security := keyEnd_upd.frame .security (by decide)
  have hstatus : ((s.wr pgSec SEC_KEY_CTRL_STATUS (if reason = 0 then 2 else 3)).wr pgSec SEC_KEY_CTRL_REASON reason).rd pgSec SEC_KEY_CTRL_STATUS =
      if reason = 0 then 2 else 3 := by
    rw [rd_wr_sep _ _ _ _ _ _ rfl rfl rfl]
    exact rd_wr_fit _ _ rfl (by split <;> decide)
  have hreason : ((s.wr pgSec SEC_KEY_CTRL_STATUS (if reason = 0 then 2 else 3)).wr pgSec SEC_KEY_CTRL_REASON reason).rd pgSec SEC_KEY_CTRL_REASON =
      reason := rd_wr_fit _ _ rfl hr
  refine ⟨?_, ?_, raw_raise _ _ (by decide), fun v hv => ?_, hsec⟩
  · unfold keyEnd
    rw [wrs_cons, wrs_cons, wrs_nil]
    dsimp only
    rw [rd_raise_sep _ _ _ _ rfl rfl]
    cases kcv with
    | some v => exact (rd_wr_sep _ _ _ _ _ _ rfl rfl rfl).trans hstatus
    | none => exact hstatus
  · unfold keyEnd
    rw [wrs_cons, wrs_cons, wrs_nil]
    dsimp only
    rw [rd_raise_sep _ _ _ _ rfl rfl]
    cases kcv with
    | some v => exact (rd_wr_sep _ _ _ _ _ _ rfl rfl rfl).trans hreason
    | none => exact hreason
  · subst hv
    unfold keyEnd
    rw [rd_raise_sep _ _ _ _ rfl rfl]
    exact rd_wr _ _ _ _ rfl

theorem rd_keyEnd_word (s : State) (reason : Nat) (kcv : Option Nat) {j : Nat} (hj : j < 8) :
    (s.keyEnd reason kcv).rd pgSec (SEC_KEY_DATA_DATA.at 4 j) = s.rd pgSec (SEC_KEY_DATA_DATA.at 4 j) := by
  obtain ⟨hok, -, hsep⟩ := keyWord_ok j hj
  unfold keyEnd
  rw [wrs_cons, wrs_cons, wrs_nil]
  dsimp only
  rw [rd_raise_sep _ _ _ _ (hsep _ (by simp)) hok]
  cases kcv with
  | some v =>
    dsimp only
    rw [rd_wr_sep _ _ _ _ _ _ (hsep _ (by simp)) hok rfl, rd_wr_sep _ _ _ _ _ _ (hsep _ (by simp)) hok rfl,
      rd_wr_sep _ _ _ _ _ _ (hsep _ (by simp)) hok rfl]
  | none =>
    dsimp only
    rw [rd_wr_sep _ _ _ _ _ _ (hsep _ (by simp)) hok rfl, rd_wr_sep _ _ _ _ _ _ (hsep _ (by simp)) hok rfl]

theorem keyBurn_reads (s : State) (i : Nat) (k : Option (BitVec 256)) :
    (s.keyBurn i k).security = { s.security with burning := some ⟨i, k⟩ } ∧ (s.keyBurn i k).rd pgSec SEC_KEY_CTRL_STATUS = 1 := by
  unfold keyBurn
  rw [wrs_cons, wrs_cons, wrs_nil]
  refine ⟨?_, ?_⟩
  · rw [wr_upd.frame .security (by decide), wr_upd.frame .security (by decide)]
    rfl
  · rw [rd_wr_sep _ _ _ _ _ _ rfl rfl rfl]
    exact rd_wr_fit _ _ rfl (by decide)

/-- The end of an eFuse PROGRAM: DONE where what the fuses now hold has the check value of the key. -/
theorem keyBurnt_program {i : Nat} {k : BitVec 256} (hburn : s.security.burning = some ⟨i, some k⟩) (b : BitVec 256) :
    ∃ u : State, u.security = { s.security with burning := none, keys := s.security.keys.set i ⟨.valid, b⟩ } ∧
      s.keyBurnt b = if keyCheckValue b = keyCheckValue k then u.keyEnd 0 (some (keyCheckValue b)) else u.keyEnd 6 none := by
  refine ⟨(s.modSec fun x => { x with burning := none }).setSlot i ⟨.valid, b⟩, rfl, ?_⟩
  unfold keyBurnt
  simp only [hburn]

/-! ## The test access port (R419, R420) -/

theorem tapTest_open (h : s.tapOpen = true) (i : TapInstr) (n : Nat) :
    (s.tapTest i n).pins = { s.pins with tap := i } ∧ (s.tapTest i n).out = .tap n s.pins.bsr :: s.out := by
  unfold tapTest
  rw [if_pos h]
  exact ⟨rfl, rfl⟩

theorem tapTest_blocked (h : s.tapOpen = false) (hoff : s.devMode ≠ mOff) (hcel : s.devMode ≠ mCellar) (i : TapInstr) (n : Nat) :
    (s.tapTest i n).pins = { s.pins with tap := .other } ∧ (s.tapTest i n).out = .tap 0 [] :: s.out ∧
      (s.tapTest i n).rd pgSec SEC_DBG_BSCAN_BLOCKED = 1 := by
  have hclosed : ¬ (s.tapOpen = true) := by simp [h]
  have hmode : ((s.tapSet .other).emit (.tap 0 [])).devMode = s.devMode := devMode_congr fun _ _ _ => rfl
  have hop : s.tapTest i n = ((s.tapSet .other).emit (.tap 0 [])).wr pgSec SEC_DBG_BSCAN_BLOCKED 1 := by
    unfold tapTest
    rw [if_neg hclosed]
    dsimp only
    rw [hmode, if_neg (not_or.mpr ⟨hoff, hcel⟩)]
  rw [hop, wr_upd.frame .pins (by decide), wr_upd.frame .out (by decide)]
  exact ⟨rfl, rfl, rd_wr_fit _ _ rfl (by decide)⟩

end State
open State

/-- Settles O12. -/
theorem keysAndTapAct : Obligations.KeysAndTapAct := by
  refine ⟨fun s m i ht hst hi hlc => ?_, fun s m i g ht hst hlc hempty => ?_, fun s m i ht hst hi => ?_, fun s m i ht hst => ?_,
    fun s m v i ht hst hi hvalid => ?_, fun s i k hburn => ?_, fun s i k b hburn => ?_, fun s a b c d e f hkeys he hf => ?_, fun s => rfl,
    fun s => ⟨_, _, rfl, rfl, rfl, by decide⟩, fun s l => ⟨_, rfl, rfl, rfl⟩, fun s hopen => ⟨?_, ?_, ?_⟩, fun s hclosed hoff hcel c hc => ?_⟩
  · have hop := keyCtrl_checks (op := 1) (index := i.toNat) (vbat := true) (good := true) ht hst
    have hlife : ¬ (s.lifeCycle ≠ lcDev ∧ (!decide (true = true ∧ s.lifeCycle = lcProd)) = true) := by
      obtain h | h := hlc <;> simp [h]
    rw [if_neg (by omega), if_pos rfl, if_neg hlife, if_pos rfl, if_pos rfl] at hop
    obtain ⟨hstatus, -, hraw, hkcv, hsec⟩ := keyEnd_reads ((s.keyAsked 1 true i.toNat).setSlot (keySlot true i.toNat) ⟨.valid, s.keyData⟩)
      (reason := 0) (by decide) (some (keyCheckValue s.keyData))
    refine ⟨_, congrArg Host.Outcome.next hop, ?_, fun j hj => ?_, hstatus, hkcv _ rfl, hraw⟩
    · have hasked : (s.keyAsked 1 true i.toNat).security = s.security := keyAsked_upd.frame .security (by decide)
      rw [hsec]
      unfold setSlot modSec
      rw [hasked]
      rfl
    · rw [rd_keyEnd_word _ _ _ hj]
      exact (rd_modSec _ _).trans (clearKeyData_zero _ hj)
  · have hop := keyCtrl_checks (op := 1) (index := i.toNat) (vbat := false) (good := g) ht hst
    have hslot : (s.slot (keySlot false i.toNat)).state = .empty := hempty
    have hlife : ¬ (s.lifeCycle ≠ lcDev ∧ (!decide (false = true ∧ s.lifeCycle = lcProd)) = true) := fun h => h.1 hlc
    rw [if_neg (by simp), if_pos rfl, if_neg hlife, if_neg Bool.false_ne_true, if_neg (fun hne => hne hslot)] at hop
    obtain ⟨hsec, hstatus⟩ := keyBurn_reads (s.keyAsked 1 false i.toNat) (keySlot false i.toNat) (some s.keyData)
    have hasked : (s.keyAsked 1 false i.toNat).security = s.security := keyAsked_upd.frame .security (by decide)
    exact ⟨_, congrArg Host.Outcome.next hop, by rw [hsec, hasked]; rfl, hstatus⟩
  · have hop := keyCtrl_checks (op := 2) (index := i.toNat) (vbat := true) (good := true) ht hst
    rw [if_neg (by omega), if_neg (by decide), if_pos rfl, if_pos rfl] at hop
    obtain ⟨hstatus, -, -, -, hsec⟩ := keyEnd_reads ((s.keyAsked 2 true i.toNat).setSlot (keySlot true i.toNat) ⟨.zeroised, 0⟩)
      (reason := 0) (by decide) none
    have hasked : (s.keyAsked 2 true i.toNat).security = s.security := keyAsked_upd.frame .security (by decide)
    refine ⟨_, congrArg Host.Outcome.next hop, ?_, hstatus⟩
    rw [hsec]
    unfold setSlot modSec
    rw [hasked]
    rfl
  · have hop := keyCtrl_checks (op := 2) (index := i.toNat) (vbat := false) (good := true) ht hst
    rw [if_neg (by simp), if_neg (by decide), if_pos rfl, if_neg Bool.false_ne_true] at hop
    obtain ⟨hsec, hstatus⟩ := keyBurn_reads (s.keyAsked 2 false i.toNat) (keySlot false i.toNat) none
    have hasked : (s.keyAsked 2 false i.toNat).security = s.security := keyAsked_upd.frame .security (by decide)
    exact ⟨_, congrArg Host.Outcome.next hop, by rw [hsec, hasked]; rfl, hstatus⟩
  · have hop := keyCtrl_checks (op := 3) (index := i.toNat) (vbat := v) (good := true) ht hst
    have hslots : ¬ (3 = 0 ∨ (v = true ∧ 2 ≤ i.toNat)) := by
      obtain h | h := hi
      · simp [h]
      · omega
    rw [if_neg hslots, if_neg (by decide), if_neg (by decide), if_pos hvalid] at hop
    obtain ⟨hstatus, -, -, hkcv, hsec⟩ := keyEnd_reads (s.keyAsked 3 v i.toNat) (reason := 0) (by decide)
      (some (keyCheckValue (s.slot (keySlot v i.toNat)).key))
    exact ⟨_, congrArg Host.Outcome.next hop, hsec.trans (keyAsked_upd.frame .security (by decide)), hstatus, hkcv _ rfl⟩
  · obtain ⟨u, hu, hop⟩ := keyBurnt_program hburn k
    rw [if_pos rfl] at hop
    obtain ⟨hstatus, -, -, -, hsec⟩ := keyEnd_reads u (reason := 0) (by decide) (some (keyCheckValue k))
    exact ⟨_, congrArg Host.Outcome.next hop, by rw [hsec, hu], by rw [hsec, hu], hstatus⟩
  · obtain ⟨u, hu, hop⟩ := keyBurnt_program hburn b
    have hexec : exec (.keyOpDone b) s = .next (s.keyBurnt b) := rfl
    refine ⟨_, hexec, ?_⟩
    rw [hop]
    split
    · obtain ⟨hstatus, hreason, -, -, hsec⟩ := keyEnd_reads u (reason := 0) (by decide) (some (keyCheckValue b))
      exact ⟨by rw [hsec, hu], hstatus, hreason⟩
    · obtain ⟨hstatus, hreason, -, -, hsec⟩ := keyEnd_reads u (reason := 6) (by decide) none
      exact ⟨by rw [hsec, hu], hstatus, hreason⟩
  · have hlost : s.vbatLost.security.keys = [a, b, c, d, ⟨.lost, 0⟩, f] := by
      have hmap : s.vbatLost.security.keys =
          s.security.keys.zipIdx.map fun e => if 4 ≤ e.2 ∧ e.1.state = .valid then (⟨.lost, 0⟩ : KeySlot) else e.1 := rfl
      rw [hmap, hkeys]
      simp [List.zipIdx, he, hf]
    exact ⟨_, rfl, hlost, vbatLost_upd.frame⟩
  · obtain ⟨h1, h2⟩ := tapTest_open hopen .extest 3
    exact ⟨_, rfl, h1, h2⟩
  · obtain ⟨h1, h2⟩ := tapTest_open hopen .clamp 4
    exact ⟨_, rfl, h1, h2⟩
  · obtain ⟨h1, h2⟩ := tapTest_open hopen .highz 5
    exact ⟨_, rfl, h1, h2⟩
  · simp only [List.mem_cons, List.not_mem_nil, or_false] at hc
    obtain rfl | rfl | rfl := hc
    · exact ⟨_, rfl, tapTest_blocked hclosed hoff hcel .extest 3⟩
    · exact ⟨_, rfl, tapTest_blocked hclosed hoff hcel .clamp 4⟩
    · exact ⟨_, rfl, tapTest_blocked hclosed hoff hcel .highz 5⟩

end Sys2Proof.Machine
end

section
/-! PROOFS. O13: crossings with status. -/

namespace Sys2Proof.Machine
namespace State
variable {s t u : State} {h : Half} {kind index : Nat}

/-! ## Crossings (R363, R364, R370, R371) -/

theorem crossing_congr (hc : t.cross = s.cross) (h : Half) (kind index : Nat) : t.crossing h kind index = s.crossing h kind index := by
  unfold crossing
  rw [hc]

theorem crossing_setCross (s : State) (h : Half) (kind index : Nat) (x : Cross) : (s.setCross h kind index x).crossing h kind index = x := by
  unfold crossing setCross
  rw [Tbl.get_store, if_pos rfl]

/-- The crews that the pulses of a crossing carry, with one more. -/
def carriesWith (x : Cross) (kind id : Nat) : List Nat := if kind = xkIdle then x.carries ++ [id] else []

theorem pulseIn_defined (hok : crossOk h kind index = true) (hpulse : crossPulse kind = true) :
    s.pulseIn h kind index =
      if !(s.crossing h kind index).isOpen && !(s.crossing h kind index).notReady then
        s.setCross h kind index { s.crossing h kind index with isOpen := true, carries := carriesWith (s.crossing h kind index) kind 0xFFFF }
      else if (s.crossing h kind index).pending < 15 then
        s.setCross h kind index { s.crossing h kind index with
          pending := (s.crossing h kind index).pending + 1, carries := carriesWith (s.crossing h kind index) kind 0xFFFF }
      else s.crossLose h kind index := by
  unfold pulseIn pulseFor
  rw [if_neg (by simp [hok, hpulse])]
  rfl

theorem pulseDone_open (hok : crossOk h kind index = true) (hopen : (s.crossing h kind index).isOpen = true) :
    s.pulseDone h kind index =
      if kind = xkLine then (s.pulseAway h kind index).raise (pgPint h) index
      else if kind = xkIdle then (s.pulseAway h kind index).idle ((s.crossing h kind index).carries.headD 0xFFFF)
      else s.pulseAway h kind index := by
  unfold pulseDone
  rw [if_neg (by simp [hok, hopen])]

theorem crossing_pulseDone (hok : crossOk h kind index = true) (hopen : (s.crossing h kind index).isOpen = true) :
    (s.pulseDone h kind index).crossing h kind index =
      pulseNext { s.crossing h kind index with carries := (s.crossing h kind index).carries.tail } := by
  have haway : (s.pulseAway h kind index).crossing h kind index =
      pulseNext { s.crossing h kind index with carries := (s.crossing h kind index).carries.tail } := crossing_setCross ..
  rw [pulseDone_open hok hopen, ← haway]
  generalize s.pulseAway h kind index = u
  split
  · exact crossing_congr (raise_upd.frame .cross (by decide)) ..
  · split
    · exact crossing_congr (idle_upd.frame .cross (by decide)) ..
    · rfl

theorem toNat_eq_of_kind {k : BitVec 4} {n : Nat} (hk : k = BitVec.ofNat 4 n) (hn : n < 16) : k.toNat = n := by
  rw [hk, BitVec.toNat_ofNat, Nat.mod_eq_of_lt hn]

end State
open State

/-- Settles O13. -/
theorem crossingsAct : Obligations.CrossingsAct := by
  refine ⟨fun s h k i hok hpulse hclosed hready => ?_, fun s h k i hok hpulse hbusy hroom => ?_, fun s h k i hok hpulse hbusy hfull hv => ?_,
    fun s h k i hok hopen => ?_, fun s h k i n hok hready => ?_, fun s h k i hok hnot => ?_⟩
  · have hop := (pulseIn_defined (s := s) hok hpulse).trans (if_pos (by simp [hclosed, hready]))
    have hx := crossing_setCross s h k.toNat i.toNat { s.crossing h k.toNat i.toNat with
      isOpen := true, carries := carriesWith (s.crossing h k.toNat i.toNat) k.toNat 0xFFFF }
    refine ⟨_, congrArg Host.Outcome.next hop, by rw [hx], fun hk => ?_, setCross_upd.frame⟩
    rw [hx]
    exact if_pos (toNat_eq_of_kind hk (by decide))
  · have hop := (pulseIn_defined (s := s) hok hpulse).trans ((if_neg (by obtain hb | hb := hbusy <;> simp [hb])).trans (if_pos hroom))
    have hx := crossing_setCross s h k.toNat i.toNat { s.crossing h k.toNat i.toNat with
      pending := (s.crossing h k.toNat i.toNat).pending + 1, carries := carriesWith (s.crossing h k.toNat i.toNat) k.toNat 0xFFFF }
    refine ⟨_, congrArg Host.Outcome.next hop, by rw [hx], fun hk => ?_, setCross_upd.frame⟩
    rw [hx]
    exact if_pos (toNat_eq_of_kind hk (by decide))
  · have hop := (pulseIn_defined (s := s) hok hpulse).trans
      ((if_neg (by obtain hb | hb := hbusy <;> simp [hb])).trans (if_neg (by rw [hfull]; decide)))
    obtain ⟨h1, h2, h3, -⟩ := pgErr_first (s := s.setCross h k.toNat i.toNat { s.crossing h k.toNat i.toNat with lost := true })
      (p := crossPage h k.toNat i.toNat) (code := 3) (addr := k.toNat * 256 + i.toNat) ((rd_setCross _ _).trans hv) (by decide) (by omega)
    refine ⟨_, congrArg Host.Outcome.next hop, ?_, h1, h2, h3, crossLose_upd.frame⟩
    unfold crossLose
    rw [crossing_congr (pgErr_upd.frame .cross (by decide)), crossing_setCross]
  · have hop := pulseDone_open hok hopen
    have haway : Unchanged [.cross] s (s.pulseAway h k.toNat i.toNat) := pulseAway_upd.frame
    refine ⟨_, rfl, crossing_pulseDone hok hopen, fun hk => ?_, fun hk => ?_, fun h4 h5 => ?_⟩
    · have hk4 : k.toNat = xkLine := toNat_eq_of_kind hk (by decide)
      have hline : h = .east ∧ i.toNat < 16 := by
        rw [hk4] at hok
        cases h <;> simp_all [crossOk, xkLine]
      rw [hop, if_pos hk4, hline.1]
      exact raw_raise _ _ (by omega)
    · have hk5 : k.toNat = xkIdle := toNat_eq_of_kind hk (by decide)
      rw [if_neg (by rw [hk5]; decide), if_pos hk5] at hop
      exact ⟨_, haway, hop⟩
    · have hk4 : ¬ k.toNat = xkLine := fun e => h4 (BitVec.eq_of_toNat_eq e)
      have hk5 : ¬ k.toNat = xkIdle := fun e => h5 (BitVec.eq_of_toNat_eq e)
      rw [if_neg hk4, if_neg hk5] at hop
      rw [hop]
      exact haway
  · have hop : s.sideReset h k.toNat i.toNat n.toNat = s.setCross h k.toNat i.toNat { s.crossing h k.toNat i.toNat with
        notReady := true, isOpen := false, pending := 0, carries := [],
        drop := min 0xFFFF ((s.crossing h k.toNat i.toNat).drop + ((s.crossing h k.toNat i.toNat).pending +
          if crossPulse k.toNat then bit (s.crossing h k.toNat i.toNat).isOpen else n.toNat)) } := by
      unfold sideReset
      exact if_neg (by simp [hok, hready])
    exact ⟨_, congrArg Host.Outcome.next hop, crossing_setCross .., setCross_upd.frame⟩
  · have hop : s.resync h k.toNat i.toNat = s.setCross h k.toNat i.toNat (pulseNext { s.crossing h k.toNat i.toNat with notReady := false }) := by
      unfold resync
      exact if_neg (by simp [hok, hnot])
    exact ⟨_, congrArg Host.Outcome.next hop, crossing_setCross .., setCross_upd.frame⟩

end Sys2Proof.Machine
end

section
/-! PROOFS. O15: register writes and soft resets. -/

namespace Sys2Proof.Machine
namespace State
variable {s t u : State} {m : Master} {p o : Nat} {v : Word} {r : RegRow}

/-! ## Plain writes (R11, R13) -/

/-- A register of the map takes what its fields' access codes give, and no other changes. -/
theorem reg_store (hr : regAt p o = some r) (a : Nat) :
    (s.store p o v).reg a = if a = p * 0x1000 + o then r.write (s.pageLocked p) v (s.reg a) else s.reg a := by
  have hstore : (s.store p o v).reg a = (s.setReg (p * 0x1000 + o) (r.write (s.pageLocked p) v (s.reg (p * 0x1000 + o)))).reg a := by
    unfold store
    rw [hr]
    rfl
  rw [hstore, reg_setReg]
  split
  · rename_i ha
    rw [ha]
  · rfl

/-- What a plain write does at its register and at every other. -/
theorem store_reads {a : Nat} (hr : regAt p o = some r) (ha : a = p * 0x1000 + o) :
    (s.store p o v).reg a = r.write (s.pageLocked p) v (s.reg a) ∧ (∀ b, b ≠ a → (s.store p o v).reg b = s.reg b) := by
  subst ha
  exact ⟨(reg_store hr _).trans (if_pos rfl), fun b hb => (reg_store hr b).trans (if_neg hb)⟩

/-- A word without a GO writes no register that holds one. -/
theorem regGo_none (hk : pageKind p ≠ .sys) (hv : v.getLsbD 31 = false) : s.regGo m p o v = none := by
  have hgo : ¬ (v.toNat.testBit 31 = true) := by
    rw [BitVec.testBit_toNat, hv]
    decide
  unfold regGo
  dsimp only
  split
  · rename_i h
    exact absurd h hk
  · exact if_pos (by simp [hgo])

theorem barWrite_admitted {off : Nat} (ha : s.Admits m (off / 0x1000) (off % 0x1000)) (hk : pageKind (off / 0x1000) ≠ .sys)
    (hv : v.getLsbD 31 = false) : s.barWrite m off v = s.writeAt m (off / 0x1000) (off % 0x1000) v := by
  unfold barWrite
  dsimp only
  rw [regGo_none hk hv]
  exact toPage_of_admits ha _

theorem writeAt_plain (hk : pageKind p ∈ plainKinds) (ho : 0x40 ≤ o) : s.writeAt m p o v = s.store p o v := by
  unfold writeAt
  dsimp only
  rw [if_neg (Nat.not_lt.mpr ho)]
  generalize pageKind p = k at hk
  simp only [plainKinds, List.mem_cons, List.not_mem_nil, or_false] at hk
  obtain rfl | rfl | rfl | rfl | rfl | rfl | rfl | rfl | rfl := hk <;> rfl

theorem writeAt_mem (hk : pageKind p = .mem) (ho : 0x40 ≤ o) :
    s.writeAt m p o v = (s.store p o v).poolWatch (halfOf ((p - 34) / 2)) s := by
  unfold writeAt
  dsimp only
  rw [if_neg (Nat.not_lt.mpr ho), hk]

/-- PG_IRQ_RAW of the pages. -/
def isRaw (a : Nat) : Prop := a % 0x1000 = 0x10

theorem poolLow_regsIn {h : Half} {w : Bool} {n : Nat} : RegsIn isRaw s (s.poolLow h w n) := by
  unfold poolLow
  refine RegsIn.ite (RegsIn.refl.raise ?_) .refl
  unfold isRaw
  omega

theorem poolWatch_regsIn {h : Half} : RegsIn isRaw s (s.poolWatch h u) := poolLow_regsIn.trans poolLow_regsIn

/-! ## A virtual function's page (Table 14.12) -/

theorem vfWrite_plain {n : BitVec 8} (hs : s.VfServed n.toNat) (ho : o ∉ [0x000, 0x008, 0x00C, 0x304]) (hv : v.getLsbD 31 = false) :
    s.vfWrite n o v = s.store (pgVf n.toNat) o v := by
  have hgo : v.toNat.testBit 31 = false := by rw [BitVec.testBit_toNat, hv]
  simp only [List.mem_cons, List.not_mem_nil, or_false, not_or] at ho
  obtain ⟨h0, h8, hC, h304⟩ := ho
  unfold vfWrite
  simp only [h0, h8, hC, h304, hgo, and_false, Bool.false_eq_true, if_false]
  exact toVf_of_served hs _

/-! ## Soft resets (R368) -/

theorem reg_clearBlock (p a : Nat) :
    (s.clearBlock p).reg a = if a / 0x1000 = p ∧ a % 0x1000 ≠ 0x1C then regReset a else s.reg a := by
  unfold clearBlock clearPage reg
  dsimp only
  rw [Tbl.find_filter _ (fun k => k / 0x1000 != p || [0x1C].contains (k % 0x1000))]
  by_cases hp : a / 0x1000 = p <;> by_cases ho : a % 0x1000 = 0x1C <;> simp [hp, ho]

end State
open State

/-- Settles O15. -/
theorem registerWritesAct : Obligations.RegisterWritesAct := by
  refine ⟨fun s m off v r ha hk ho hv hr => ?_, fun s m off v r ha hk ho hv hr => ?_, fun s m off v w => ⟨_, rfl, rfl⟩,
    fun s n o v r hs ho hv hr => ?_, fun s m p ha hk => ?_, fun s m p ha hk => ?_⟩
  · have hsys : pageKind (off / 0x1000) ≠ .sys := by
      intro e
      rw [e] at hk
      revert hk
      decide
    obtain ⟨hself, hother⟩ := store_reads (s := s) (v := v) hr (a := off) (by omega)
    exact ⟨_, congrArg Host.Outcome.next ((barWrite_admitted ha hsys hv).trans (writeAt_plain hk ho)), hself, hother, store_upd.frame⟩
  · have hsys : pageKind (off / 0x1000) ≠ .sys := by
      rw [hk]
      decide
    obtain ⟨hself, hother⟩ := store_reads (s := s) (v := v) hr (a := off) (by omega)
    have hraw : RegsIn isRaw (s.store (off / 0x1000) (off % 0x1000) v)
      ((s.store (off / 0x1000) (off % 0x1000) v).poolWatch (halfOf ((off / 0x1000 - 34) / 2)) s) := poolWatch_regsIn
    refine ⟨_, congrArg Host.Outcome.next ((barWrite_admitted ha hsys hv).trans (writeAt_mem hk ho)), ?_, fun a hne hnraw => ?_,
      (Upd.after poolWatch_upd rfl <| Upd.after store_upd rfl .refl).frame⟩
    · exact (hraw off (by unfold isRaw; omega)).trans hself
    · exact (hraw a hnraw).trans (hother a hne)
  · obtain ⟨hself, hother⟩ := store_reads (s := s) (v := v) hr rfl
    exact ⟨_, congrArg Host.Outcome.next (vfWrite_plain hs ho hv), hself, hother, store_upd.frame⟩
  · have hclear := reg_clearBlock (s := s) p.toNat
    have hsoft : ∃ t, s.softReset p.toNat = t ∧ t.regs = (s.clearBlock p.toNat).regs ∧ Upd [.regs, .held, .selfTest] s t ∧
        (pageKind p.toNat = .fmc → Upd [.regs, .held] s t) := by
      unfold softReset
      dsimp only
      obtain hf | hsc := hk
      · rw [hf]
        exact ⟨_, rfl, rfl, Upd.after clearBlock_upd rfl .refl, fun _ => clearBlock_upd⟩
      · rw [hsc]
        exact ⟨_, rfl, modTest_upd.frame .regs (by decide), Upd.after modTest_upd rfl <| Upd.after clearBlock_upd rfl .refl,
          fun e => by cases e⟩
    obtain ⟨t, ht, hregs, hupd, hfmc⟩ := hsoft
    have hreg (a : Nat) : t.reg a = (s.clearBlock p.toNat).reg a := by
      unfold reg
      rw [hregs]
    refine ⟨t, congrArg Host.Outcome.next ((toPage_of_admits ha _).trans ht), fun o ho hne => ?_, ?_, fun a hne => ?_, hupd.frame,
      fun e => (hfmc e).frame⟩
    · rw [hreg, hclear, if_pos (by omega)]
    · rw [hreg, hclear, if_neg (by omega)]
    · rw [hreg, hclear, if_neg (fun h => hne h.1)]
  · have hsoft : s.softReset p.toNat = s := by
      unfold softReset
      dsimp only
      generalize pageKind p.toNat = k at hk
      simp only [List.mem_cons, List.not_mem_nil, or_false] at hk
      obtain rfl | rfl | rfl | rfl := hk <;> rfl
    exact congrArg Host.Outcome.next ((toPage_of_admits ha _).trans hsoft)

end Sys2Proof.Machine
end

section
/-! PROOFS. O16: service pins, porches, SMBus and the quiesce limit. -/

namespace Sys2Proof.Machine

/-! ## GPIO registers (R427, R428) -/

/-- The registers of a cycle: PIN.OUTq and PIN.OEq of the four ports. -/
def gpioPorts : List (Bool × Nat) := [(false, 0), (false, 1), (false, 2), (false, 3), (true, 0), (true, 1), (true, 2), (true, 3)]

theorem gpioReg_facts : ∀ e ∈ gpioPorts, (gpioReg e.1 e.2).ok = true ∧ (gpioReg e.1 e.2).hi - (gpioReg e.1 e.2).lo + 1 = 16 ∧
    ∀ d ∈ gpioPorts, e ≠ d → (gpioReg e.1 e.2).sep (gpioReg d.1 d.2) = true := by decide

theorem mem_gpioPorts (oe : Bool) (q : BitVec 2) : (oe, q.toNat) ∈ gpioPorts := by
  have hq : q.toNat < 4 := q.isLt
  revert hq
  generalize q.toNat = n
  cases oe <;> intro hn <;> interval_cases n <;> decide

/-- A host's value is taken whole. -/
theorem gpioForm_all (v old : BitVec 16) : gpioForm ⟨none, 0 ||| v, 0 ||| ~~~v⟩ old = v := by
  ext i
  simp [gpioForm]

theorem gpioForm_set (v old : BitVec 16) : gpioForm ⟨none, 0 ||| v, 0⟩ old = old ||| v := by
  have hall : ~~~(0 : BitVec 16) = BitVec.allOnes 16 := rfl
  show (old &&& ~~~(0 : BitVec 16)) ||| (0#16 ||| v) = old ||| v
  rw [hall, BitVec.and_allOnes, BitVec.zero_or]

theorem gpioForm_clr (v old : BitVec 16) : gpioForm ⟨none, 0, 0 ||| v⟩ old = old &&& ~~~v := by
  ext i
  simp [gpioForm]

theorem gpioForm_mask (k v old : BitVec 16) : gpioForm ⟨none, 0 ||| (k &&& v), 0 ||| (k &&& ~~~v)⟩ old = (old &&& ~~~k) ||| (k &&& v) := by
  ext i hi
  have hzero : (0 : BitVec 16)[i] = false := BitVec.getElem_zero hi
  simp only [gpioForm, Option.getD_none, BitVec.getElem_or, BitVec.getElem_and, BitVec.getElem_not, hzero]
  cases k[i] <;> cases v[i] <;> cases old[i] <;> rfl

namespace State
variable {s t u : State} {m : Master} {h : Half}

/-- What the register of a port holds after a cycle with its writes. -/
def gpioNext (s : State) (ws : List GpioWrite) (oe : Bool) (q : Nat) : BitVec 16 :=
  gpioForm (ws.foldl (gpioAsk oe q) ⟨none, 0, 0⟩) (BitVec.ofNat 16 (s.rd (pgPin .east) (gpioReg oe q)))

/-- One register of a cycle. -/
def gpioPut (ws : List GpioWrite) (s : State) (e : Bool × Nat) : State :=
  s.wr (pgPin .east) (gpioReg e.1 e.2) (s.gpioNext ws e.1 e.2).toNat

theorem gpioCycle_eq (s : State) (ws : List GpioWrite) : s.gpioCycle ws = gpioPorts.foldl (gpioPut ws) s := rfl

theorem rd_gpioPut_ne (ws : List GpioWrite) {e d : Bool × Nat} (he : e ∈ gpioPorts) (hd : d ∈ gpioPorts) (hne : e ≠ d) :
    (gpioPut ws s d).rd (pgPin .east) (gpioReg e.1 e.2) = s.rd (pgPin .east) (gpioReg e.1 e.2) := by
  obtain ⟨hok, -, hsep⟩ := gpioReg_facts e he
  exact rd_wr_sep _ _ _ _ _ _ (hsep d hd hne) hok (gpioReg_facts d hd).1

theorem rd_gpioPut_self (ws : List GpioWrite) {e : Bool × Nat} (he : e ∈ gpioPorts) :
    (gpioPut ws s e).rd (pgPin .east) (gpioReg e.1 e.2) = (s.gpioNext ws e.1 e.2).toNat := by
  obtain ⟨hok, hwidth, -⟩ := gpioReg_facts e he
  unfold gpioPut
  rw [rd_wr _ _ _ _ hok, hwidth]
  exact Nat.mod_eq_of_lt (s.gpioNext ws e.1 e.2).isLt

/-- Every register of a list without repeats is formed from what stood before the cycle. -/
theorem rd_gpioFold (ws : List GpioWrite) {e : Bool × Nat} (he : e ∈ gpioPorts) (l : List (Bool × Nat)) (hl : ∀ d ∈ l, d ∈ gpioPorts) (hnd : l.Nodup) :
    (l.foldl (gpioPut ws) s).rd (pgPin .east) (gpioReg e.1 e.2) =
      if e ∈ l then (s.gpioNext ws e.1 e.2).toNat else s.rd (pgPin .east) (gpioReg e.1 e.2) := by
  induction l generalizing s with
  | nil => rfl
  | cons d l ih =>
    obtain ⟨hdl, hnd'⟩ := List.nodup_cons.mp hnd
    have hd := hl d (.head _)
    rw [List.foldl_cons, ih (fun x hx => hl x (.tail _ hx)) hnd']
    by_cases hed : e = d
    · subst hed
      rw [if_neg hdl, if_pos (.head _), rd_gpioPut_self ws he]
    · have hrd := rd_gpioPut_ne (s := s) ws he hd hed
      have hnext : (gpioPut ws s d).gpioNext ws e.1 e.2 = s.gpioNext ws e.1 e.2 := by
        unfold gpioNext
        rw [hrd]
      rw [hrd, hnext]
      simp [hed]

theorem rd_gpioCycle (s : State) (ws : List GpioWrite) (oe : Bool) (q : BitVec 2) :
    (s.gpioCycle ws).rd (pgPin .east) (gpioReg oe q.toNat) = (s.gpioNext ws oe q.toNat).toNat := by
  have hmem := mem_gpioPorts oe q
  rw [gpioCycle_eq, rd_gpioFold (e := (oe, q.toNat)) ws hmem _ (fun _ hd => hd) (by decide), if_pos hmem]

/-- A write that lands alone, and what it leaves of the register of its port. -/
theorem gpio_alone {oe : Bool} {q : BitVec 2} {w : GpioWrite} {x : BitVec 16}
    (hx : gpioForm (gpioAsk oe q.toNat ⟨none, 0, 0⟩ w) (BitVec.ofNat 16 (s.rd (pgPin .east) (gpioReg oe q.toNat))) = x) :
    (s.gpioWith w []).rd (pgPin .east) (gpioReg oe q.toNat) = x.toNat ∧ Unchanged [.regs] s (s.gpioWith w []) := by
  refine ⟨?_, (gpioCycle_upd : Upd [.regs] s (s.gpioCycle [w])).frame⟩
  rw [← hx]
  exact rd_gpioCycle s [w] oe q

theorem gpio_out {q : BitVec 2} {w : GpioWrite} {x : BitVec 16}
    (hx : gpioForm (gpioAsk false q.toNat ⟨none, 0, 0⟩ w) (BitVec.ofNat 16 (s.rd (pgPin .east) (PIN_OUT_DATA.at 0x10 q.toNat))) = x) :
    (s.gpioWith w []).rd (pgPin .east) (PIN_OUT_DATA.at 0x10 q.toNat) = x.toNat ∧ Unchanged [.regs] s (s.gpioWith w []) := by
  have hreg : PIN_OUT_DATA.at 0x10 q.toNat = gpioReg false q.toNat := rfl
  rw [hreg] at hx ⊢
  exact gpio_alone hx

theorem gpio_oe {q : BitVec 2} {w : GpioWrite} {x : BitVec 16}
    (hx : gpioForm (gpioAsk true q.toNat ⟨none, 0, 0⟩ w) (BitVec.ofNat 16 (s.rd (pgPin .east) (PIN_OE_EN.at 0x10 q.toNat))) = x) :
    (s.gpioWith w []).rd (pgPin .east) (PIN_OE_EN.at 0x10 q.toNat) = x.toNat ∧ Unchanged [.regs] s (s.gpioWith w []) := by
  have hreg : PIN_OE_EN.at 0x10 q.toNat = gpioReg true q.toNat := rfl
  rw [hreg] at hx ⊢
  exact gpio_alone hx

theorem gpioHost_east {w : GpioWrite} {off : Nat} (hoff : (gpioOff w).getD 0x40 = off) (ha : s.Admits m (pgPin .east) off) (l : List GpioWrite) :
    s.gpioHost m .east w l = s.gpioWith w l := by
  unfold gpioHost
  rw [hoff]
  exact toPage_of_admits ha _

theorem gpioHost_west {w : GpioWrite} {off : Nat} (hoff : (gpioOff w).getD 0x40 = off) (ha : s.Admits m (pgPin .west) off) (l : List GpioWrite) :
    s.gpioHost m .west w l = s := by
  unfold gpioHost
  rw [hoff]
  exact toPage_of_admits ha _

theorem gpioSdw_taken {w : GpioWrite} (ht : s.doorwayTakes h = true) : s.gpioSdw h w [] = s.gpioWith w [] := if_pos ht

/-- The cox's plain data in the cycle of a host's write. -/
theorem gpioWith_cox {w : GpioWrite} {q : BitVec 2} {v : BitVec 16} (hport : s.coxPort = true) :
    s.gpioWith w [.coxOut q v] = s.gpioCycle [w, .coxOut q v] := by
  have hlands : s.gpioLands (.coxOut q v) = (true, s) := by
    have hdef : s.gpioLands (.coxOut q v) = (s.coxPort, s) := rfl
    rw [hdef, hport]
  unfold gpioWith
  rw [List.foldl_cons, List.foldl_nil, hlands]
  rfl

/-! ## Functions (R423 to R425) -/

/-- A nibble of a number set. -/
theorem nibble_set {k old f : Nat} (hk : k < 8) (hf : f < 16) :
    (old - old / 16 ^ k % 16 * 16 ^ k + f * 16 ^ k) % 2 ^ 32 / 16 ^ k % 16 = f := by
  have hle : old / 16 ^ k % 16 * 16 ^ k ≤ old :=
    (Nat.mul_le_mul_right _ (Nat.mod_le _ _)).trans (Nat.div_mul_le_self _ _)
  interval_cases k <;> omega

/-- The word of PMX.FUNC with a pin's function changed. -/
theorem pinFunc_wr (s : State) {n f : Nat} (hf : f < 16) :
    (s.wr (pgPmx .east) (PMX_FUNC_F.at 4 (n / 8))
      (s.rd (pgPmx .east) (PMX_FUNC_F.at 4 (n / 8)) - s.pinFunc n * 16 ^ (n % 8) + f * 16 ^ (n % 8))).pinFunc n = f := by
  unfold pinFunc
  rw [rd_wr _ _ _ _ (by rfl)]
  exact nibble_set (Nat.mod_lt _ (by decide)) hf

theorem pinSwitch_new {n f : Nat} (hf : f < 16) (hne : s.pinFunc n ≠ f) :
    (s.pinSwitch n f).pinFunc n = f ∧
      (s.pinSwitch n f).pins.windows = if s.pins.ioDone then n :: s.pins.windows.erase n else s.pins.windows := by
  obtain ⟨u, hfunc, hpins, hop⟩ : ∃ u : State, u.pinFunc n = f ∧ u.pins = s.pins ∧ s.pinSwitch n f =
      if u.pins.ioDone then { u with pins := { u.pins with windows := n :: u.pins.windows.erase n } } else u :=
    ⟨_, pinFunc_wr s hf, wr_upd.frame .pins (by decide), if_neg hne⟩
  rw [hop, ← hpins]
  split
  · exact ⟨hfunc, rfl⟩
  · exact ⟨hfunc, rfl⟩

/-! ## Inputs (R428 to R430) -/

/-- A pin with a new level. -/
def leveled (s : State) (n : Nat) (b : Bool) : State := { s with pins := { s.pins with levels := setBit s.pins.levels n b } }

theorem leveled_upd {n : Nat} {b : Bool} : Upd [.pins] s (s.leveled n b) := Upd.pins .refl rfl

/-- A change of a pin that is not PROG_N, before its lines are looked at. -/
theorem pinChange_plain {n : Nat} {b : Bool} (hnew : s.pins.levels.testBit n ≠ b) (hprog : n ≠ 35) :
    s.pinChange n b =
      if (s.leveled n b).devMode < mStandby || (s.leveled n b).pins.windows.contains n then s.leveled n b
      else
        let u := s.leveled n b
        let lines := u.linesFor n b
        let wake := lines.filter fun n => u.on (pgPint .east) (PINT_CFG_WAKE.at 4 n)
        if u.seq.standby = .asleep then
          if wake.isEmpty || u.wakeOn 1 % 2 = 0 then u
          else
            ({ u with pins := { u.pins with wakeLines := wake.foldl (fun w n => setBit w n true) u.pins.wakeLines } }).wakeSource 1
        else
          let u := lines.foldl (fun s n => s.linePulse n) u
          let u := (u.snapshotFor n .east).snapshotFor n .west
          if wake.isEmpty then u else u.wakeSource 1 := by
  have hno : ¬ (n = 35 ∧ b = false ∧ (s.leveled n b).pinsAre 8 [35] = true) := fun h => hprog h.1
  have hdef : s.pinChange n b = if s.pins.levels.testBit n = b then s else
      let u := if n = 35 ∧ b = false ∧ (s.leveled n b).pinsAre 8 [35] = true then (s.leveled n b).g2Prog else s.leveled n b
      if u.devMode < mStandby || u.pins.windows.contains n then u
      else
        let lines := u.linesFor n b
        let wake := lines.filter fun n => u.on (pgPint .east) (PINT_CFG_WAKE.at 4 n)
        if u.seq.standby = .asleep then
          if wake.isEmpty || u.wakeOn 1 % 2 = 0 then u
          else
            ({ u with pins := { u.pins with wakeLines := wake.foldl (fun w n => setBit w n true) u.pins.wakeLines } }).wakeSource 1
        else
          let u := lines.foldl (fun s n => s.linePulse n) u
          let u := (u.snapshotFor n .east).snapshotFor n .west
          if wake.isEmpty then u else u.wakeSource 1 := rfl
  rw [hdef, if_neg hnew, if_neg hno]

theorem linePulse_ready {l : Nat} (hl : l < 16) (hclosed : (s.crossing .east xkLine l).isOpen = false)
    (hready : (s.crossing .east xkLine l).notReady = false) : s.linePulse l = s.raise (pgPint .east) l := by
  have hok : crossOk .east xkLine l = true := by simp [crossOk, hl]
  unfold linePulse
  exact if_pos (by simp [hclosed, hready, hok])

/-- A watched pin of an awake device: its one line, whose crossing is idle, takes its event at once. -/
theorem pinChange_line {n l : Nat} {b : Bool} (hnew : s.pins.levels.testBit n ≠ b) (hprog : n ≠ 35) (hwin : n ∉ s.pins.windows)
    (hmode : mStandby ≤ s.devMode) (hseq : s.seq.standby = .none) (hlines : s.linesFor n b = [l])
    (hclosed : (s.crossing .east xkLine l).isOpen = false) (hready : (s.crossing .east xkLine l).notReady = false) :
    s.pinChange n b = (((s.leveled n b).raise (pgPint .east) l).snapshotFor n .east).snapshotFor n .west := by
  have hl : l < 16 := List.mem_range.mp (List.mem_filter.mp (hlines ▸ List.mem_singleton.mpr rfl : l ∈ s.linesFor n b)).1
  have hop := pinChange_plain hnew hprog
  have hmode' : (s.leveled n b).devMode = s.devMode := devMode_congr fun _ _ _ => rfl
  have hwin' : (s.leveled n b).pins.windows = s.pins.windows := rfl
  have hlines' : (s.leveled n b).linesFor n b = [l] := hlines
  have hseq' : (s.leveled n b).seq = s.seq := rfl
  have hpulse : (s.leveled n b).linePulse l = (s.leveled n b).raise (pgPint .east) l := linePulse_ready hl hclosed hready
  generalize s.leveled n b = u at *
  have hend : (((u.raise (pgPint .east) l).snapshotFor n .east).snapshotFor n .west).seq.standby = .none := by
    rw [snapshotFor_upd.frame .seq (by decide), snapshotFor_upd.frame .seq (by decide), raise_upd.frame .seq (by decide), hseq', hseq]
  have hgo : ¬ ((decide (u.devMode < mStandby) || u.pins.windows.contains n) = true) := by
    rw [hmode', hwin']
    simp only [List.contains_iff_mem, hwin, Bool.or_eq_true, decide_eq_true_eq, or_false, Nat.not_lt.mpr hmode, not_false_eq_true]
  rw [if_neg hgo] at hop
  simp only [hseq', hseq, hlines', List.foldl_cons, List.foldl_nil, hpulse] at hop
  rw [if_neg (by decide)] at hop
  rw [hop, wakeSource_of_not_standby hend, ite_self]

/-! ## Porches (R432 to R434) -/

theorem porch_setPorch (s : State) (k : Nat) (p : Porch) : (s.setPorch k p).porch k = p := (Tbl.get_store ..).trans (if_pos rfl)

/-- A porch with the settings that its registers hold. -/
def porchTaken (s : State) (k : Nat) : Porch :=
  { s.porch k with
    gear := s.porchRd k PIN_PORCH_GEAR, drive := s.porchRd k PIN_PORCH_DRIVE, pull := s.porchRd k PIN_PORCH_PULL
    dir := s.porchRd k PIN_PDIR_OUT }

theorem porch_porchTake (s : State) (k : Nat) : (s.porchTake k).porch k = s.porchTaken k := porch_setPorch ..

theorem porchOut_dead {k : Nat} (hlive : s.porchLive k xkPorchOut = false) (seen : BitVec 16) : s.porchOut k seen = s := by
  unfold porchOut
  exact if_pos (by rw [hlive]; simp)

theorem porchOut_inputs {k : Nat} (hdir : (s.porch k).dir = 0) (seen : BitVec 16) : s.porchOut k seen = s := by
  have hempty : ((List.range 16).filter (s.porch k).dir.testBit).isEmpty = true := by
    rw [hdir]
    decide
  unfold porchOut
  exact if_pos (by simp only [hempty, Bool.true_or])

theorem porchIn_dead {k : Nat} (hlive : s.porchLive k xkPorchIn = false) (ins : List Byte) (acked : BitVec 16) : s.porchIn k ins acked = s := by
  unfold porchIn
  simp only [hlive, Bool.not_false, Bool.or_true, if_true]

theorem porchLive_unattached {k : Nat} (hedge : (s.porch k).edge = none) (kind : Nat) : s.porchLive k kind = false := by
  unfold porchLive
  simp [hedge]

theorem bytes_putBytes_pair (t : Tbl Byte) (a c d : Nat) (x y : Byte) :
    Tbl.bytes (Tbl.putBytes t (a + 4 * c) [x, y]) (a + 4 * d) 2 = if d = c then [x, y] else Tbl.bytes t (a + 4 * d) 2 := by
  have hpair (u : Tbl Byte) (k : Nat) : Tbl.bytes u k 2 = [Tbl.get u 0 k, Tbl.get u 0 (k + 1)] := rfl
  have hlen : ([x, y] : List Byte).length = 2 := rfl
  rw [hpair, hpair, Tbl.get_putBytes, Tbl.get_putBytes, hlen]
  by_cases hd : d = c
  · subst hd
    rw [if_pos (by omega), if_pos (by omega), if_pos rfl, Nat.sub_self, Nat.add_sub_cancel_left]
    rfl
  · rw [if_neg (by omega), if_neg (by omega), if_neg hd]

theorem live_setDoor (s : State) (r c d : Nat) (b : Byte) (ack : Bool) :
    (s.setDoor r c (some b) ack).live r (39 * 512 + 4 * d) 2 = if d = c then [b, 1] else s.live r (39 * 512 + 4 * d) 2 := by
  have hfab : (s.setDoor r c (some b) ack).fabric = Tbl.putBytes s.fabric (frameKey (stateFrame r 0) + (39 * 512 + 4 * c)) [b, 1] := rfl
  unfold live
  rw [hfab, ← Nat.add_assoc, ← Nat.add_assoc]
  exact bytes_putBytes_pair ..

theorem doorToken_setDoor (s : State) (r c d : Nat) (b : Byte) (ack : Bool) :
    (s.setDoor r c (some b) ack).doorToken r d = if d = c then some b else s.doorToken r d := by
  unfold doorToken
  rw [live_setDoor]
  split
  · have hfull : (byteAt [b, 1] 1).getLsbD 0 = true := by simp [byteAt]
    exact if_pos hfull
  · rfl

/-- Tokens presented on distinct channels of a room, in the order of a list of pins. -/
def presented (s : State) (r c : Nat) (ins : List Byte) (l : List Nat) : State :=
  l.foldl (fun s n => s.setDoor r (c + n) (some (byteAt ins n)) (s.doorAck r (c + n))) s

theorem doorToken_presented (s : State) (r c : Nat) (ins : List Byte) (l : List Nat) (n : Nat) :
    (s.presented r c ins l).doorToken r (c + n) = if n ∈ l then some (byteAt ins n) else s.doorToken r (c + n) := by
  induction l generalizing s with
  | nil => rfl
  | cons k l ih =>
    unfold presented at *
    rw [List.foldl_cons, ih, doorToken_setDoor]
    by_cases hk : n = k
    · subst hk
      simp
    · simp [hk]

theorem doorToken_congr (hf : t.fabric = s.fabric) (r c : Nat) : t.doorToken r c = s.doorToken r c := by
  unfold doorToken live
  rw [hf]

theorem geared_full {p : Porch} (hp : p.gear = 3) (b : Byte) : geared p b = b := by
  unfold geared
  rw [hp]
  exact BitVec.eq_of_toNat_eq (by simp; exact b.isLt)

/-- Each input channel whose last token is acknowledged takes the token of its pin. -/
theorem porchIn_inputs {k r e : Nat} {ins : List Byte} {acked : BitVec 16} (hdir : (s.porch k).dir = 0) (hgear : (s.porch k).gear = 3)
    (hlive : s.porchLive k xkPorchIn = true) (hedge : (s.porch k).edge = some (r, e)) (hpower : k ∉ s.straps.unpowered)
    (hfree : ∀ n, s.doorToken r (32 * e + 16 + n) = none) :
    (s.porchIn k ins acked).fabric = (s.presented r (32 * e + 16) ins ((List.range 16).filter acked.getLsbD)).fabric := by
  have hins : ins.map (geared (s.porch k)) = ins := by
    conv_rhs => rw [← List.map_id ins]
    exact List.map_congr_left fun b _ => geared_full hgear b
  have hpins : ((List.range 16).filter fun n => !(s.porch k).dir.testBit n) = List.range 16 := by
    rw [hdir]
    decide
  have hsome : (List.range 16).isEmpty = false := rfl
  have hpow : s.straps.unpowered.contains k = false := by simpa using hpower
  obtain ⟨g, late, hop⟩ : ∃ g late, s.porchIn k ins acked =
      (if g = true then (s.presented r (32 * e + 16) ins ((List.range 16).filter acked.getLsbD)).porchCount k PIN_PSTAT_OVERRUN 1 late else
        ((s.presented r (32 * e + 16) ins ((List.range 16).filter acked.getLsbD)).porchCount k PIN_PSTAT_OVERRUN 1 late).emit
          (.porch k true (tokenNat ((List.range 16).map fun n => if ((List.range 16).filter acked.getLsbD).contains n then byteAt ins n else 0)))) := by
    unfold porchIn
    simp only [hpow, hins, hpins, hlive, hedge, hsome, hfree, Option.isNone_none, Bool.and_true, Bool.false_eq_true, if_false, Bool.not_true,
      Bool.or_false]
    exact ⟨_, _, rfl⟩
  rw [hop]
  split
  · exact porchCount_upd.frame .fabric (by decide)
  · exact (emit_upd.frame .fabric (by decide)).trans (porchCount_upd.frame .fabric (by decide))

theorem porchBoundary_clocked {j : Nat} (hj : j < 12) (hclk : s.porchClocked (j + 12 * halfBit h) = true) (seen acked : BitVec 16) (ins : List Byte) :
    s.porchBoundary h j seen ins acked = ((s.porchTake (j + 12 * halfBit h)).porchOut (j + 12 * halfBit h) seen).porchIn (j + 12 * halfBit h) ins acked := by
  unfold porchBoundary
  exact if_neg (by simp only [hclk, decide_eq_false (Nat.not_le.mpr hj), Bool.not_true, Bool.or_self, Bool.false_eq_true, not_false_eq_true])

theorem porchLive_clocked {k kind : Nat} (hlive : s.porchLive k kind = true) : s.porchClocked k = true := by
  unfold porchLive at hlive
  simp only [Bool.and_eq_true] at hlive
  tauto

/-- A boundary leaves a porch in service in service. -/
theorem porchLive_porchTake (s : State) (k kind : Nat) : (s.porchTake k).porchLive k kind = s.porchLive k kind := by
  obtain ⟨u, hu⟩ : ∃ u, u = s.porchTake k := ⟨_, rfl⟩
  have hupd : Upd [.porches] s u := hu ▸ porchTake_upd
  have hedge : (u.porch k).edge = (s.porch k).edge := by rw [hu, porch_porchTake]; rfl
  have hpark : (u.porch k).park = (s.porch k).park := by rw [hu, porch_porchTake]; rfl
  have hregs : u.regs = s.regs := hupd.frame .regs (by decide)
  have hpins : u.pins = s.pins := hupd.frame .pins (by decide)
  have hseq : u.seq = s.seq := hupd.frame .seq (by decide)
  have hcel : u.cellar = s.cellar := hupd.frame .cellar (by decide)
  have hcross := crossing_congr (hupd.frame .cross (by decide)) (porchHalf k) kind (k % 12)
  have hclk : u.porchClocked k = s.porchClocked k := by unfold porchClocked on; rw [rd_congr hregs]
  have hmode : u.mode (porchHalf k) = s.mode (porchHalf k) := rd_congr hregs _ _
  have hg2 : u.g2Mode = s.g2Mode := by unfold g2Mode runMode mode; rw [rd_congr hregs, rd_congr hregs]
  rw [← hu]
  unfold porchLive
  simp only [hedge, hpark, hpins, hseq, hcel, hcross, hclk, hmode, hg2]

/-! ## SMBus (R436) and the quiesce limit (R107) -/

theorem smbus_answered {code : Nat} (hon : s.devMode ≠ mOff) (pec : Bool) :
    ∃ f : Nat → List Byte, (∀ w, (f w).length = bit pec) ∧
      s.smbus s.smbusAddr code pec = s.emit (.smbus ((s.smbusWord code).map fun w => 4 :: leBytes 4 w ++ f w)) := by
  have hgo : ¬ (s.devMode = mOff ∨ s.smbusAddr ≠ s.smbusAddr) := not_or.mpr ⟨hon, fun h => h rfl⟩
  unfold smbus
  rw [if_neg hgo]
  cases pec
  · exact ⟨fun _ => [], fun _ => rfl, by simp⟩
  · exact ⟨fun w => [crc8 ([BitVec.ofNat 8 (2 * s.smbusAddr), BitVec.ofNat 8 code, BitVec.ofNat 8 (2 * s.smbusAddr + 1)] ++ 4 :: leBytes 4 w)],
      fun _ => rfl, by simp⟩

theorem smbusWord_none {code : Nat} (hc : 4 < code) : s.smbusWord code = none := by
  obtain ⟨n, rfl⟩ : ∃ n, code = n + 5 := ⟨code - 5, by omega⟩
  rfl

theorem smbusAddr_lt (s : State) : s.smbusAddr < 128 := by
  unfold smbusAddr
  omega

theorem room_modRoom_ne (s : State) {r k : Nat} (hne : r ≠ k) (f : Room → Room) : (s.modRoom k f).room r = s.room r := by
  unfold modRoom setRoom
  split
  · unfold room
    dsimp only
    rw [Tbl.get_store, if_neg hne]
  · rfl

/-- Rooms of a list are stopped; one that was stopped stays so. -/
theorem stopped_modRooms {l : List Nat} {r : Nat} (hr : r % 256 < 192) (h : r ∈ l ∨ (s.room r).stopped = true) :
    ((s.modRooms l fun y => { y with stopped := true }).room r).stopped = true := by
  induction l generalizing s with
  | nil => exact h.resolve_left List.not_mem_nil
  | cons k l ih =>
    refine ih (s := s.modRoom k fun y => { y with stopped := true }) ?_
    by_cases hk : r = k
    · subst hk
      right
      rw [room_modRoom s hr]
    · rw [room_modRoom_ne s hk]
      exact h.imp (fun hmem => (List.mem_cons.mp hmem).resolve_left hk) id

theorem quiesceLimit_reconfig {w n c : Nat} {x : Swap} (h3 : s.swapAt w 3 = none) (h4 : s.swapAt w 4 = some x) (hx : x.kind = .reconfig) :
    s.quiesceLimit w n c = s.modRooms (s.unquiet x.rooms) fun y => { y with stopped := true } := by
  unfold quiesceLimit
  rw [h3]
  dsimp only
  rw [h4]
  exact if_pos hx

theorem pinSwap_of_step {w k : Nat} {x : Swap} (h : s.swapAt w k = some x) (hx : x.kind = .reconfig) : s.pinSwap w = true := by
  have hswap : (s.wing w).swap = some x := by
    unfold swapAt at h
    split at h
    · exact (Option.filter_eq_some_iff.mp h).1
    · exact absurd h (by simp)
  unfold pinSwap
  rw [hswap]
  simp [hx]

end State
open State

/-- Settles O16. -/
theorem pinsAct : Obligations.PinsAct := by
  refine ⟨fun s m n f ha hne => ?_, fun s n => ⟨_, rfl, rfl, Upd.frame (Upd.pins .refl rfl)⟩, fun s m q v ha => ?_, fun s m q v ha => ?_,
    fun s m q v ha => ?_, fun s m q v ha => ?_, fun s m q v w ha hport => ?_, fun s m q v l => ⟨fun ha => ?_, fun ha => ?_, fun ha => ?_, fun ha => ?_⟩,
    fun s q v hport => ⟨?_, ?_⟩, fun s h q k v o ht ho => ⟨?_, ?_, ?_, ?_⟩, fun s n b hnew hprog hwin => ?_,
    fun s n b l hnew hprog hwin hmode hseq hlines hclosed hready => ?_, fun s h j v i a hj hclk hedge => ?_,
    fun s h j v i a r e hj hout hin hedge hfree hpower hdir hgear => ?_, fun s c pec hon => ?_, fun s a c pec hno => congrArg Host.Outcome.next (if_pos hno),
    fun s w n c x hseq h3 h4 hx => ?_⟩
  · obtain ⟨hfunc, hwin⟩ := pinSwitch_new (s := s) f.isLt hne
    exact ⟨_, congrArg Host.Outcome.next (toPage_of_admits ha fun s => s.pinSwitch n.toNat f.toNat), hfunc, hwin, pinSwitch_upd.frame⟩
  · have hform := gpioForm_all v (BitVec.ofNat 16 (s.rd (pgPin .east) (PIN_OUT_DATA.at 0x10 q.toNat)))
    obtain ⟨hrd, hframe⟩ := gpio_out (s := s) (q := q) (w := .hostOut q v) (x := v) (by simpa [gpioAsk] using hform)
    exact ⟨s.gpioWith (.hostOut q v) [], congrArg Host.Outcome.next (gpioHost_east (w := .hostOut q v) rfl ha []), hrd, hframe⟩
  · have hform := gpioForm_set v (BitVec.ofNat 16 (s.rd (pgPin .east) (PIN_OUT_DATA.at 0x10 q.toNat)))
    obtain ⟨hrd, hframe⟩ := gpio_out (s := s) (q := q) (w := .hostSet q v) (by simpa [gpioAsk] using hform)
    exact ⟨s.gpioWith (.hostSet q v) [], congrArg Host.Outcome.next (gpioHost_east (w := .hostSet q v) rfl ha []), hrd, hframe⟩
  · have hform := gpioForm_clr v (BitVec.ofNat 16 (s.rd (pgPin .east) (PIN_OUT_DATA.at 0x10 q.toNat)))
    obtain ⟨hrd, hframe⟩ := gpio_out (s := s) (q := q) (w := .hostClr q v) (by simpa [gpioAsk] using hform)
    exact ⟨s.gpioWith (.hostClr q v) [], congrArg Host.Outcome.next (gpioHost_east (w := .hostClr q v) rfl ha []), hrd, hframe⟩
  · have hform := gpioForm_all v (BitVec.ofNat 16 (s.rd (pgPin .east) (PIN_OE_EN.at 0x10 q.toNat)))
    obtain ⟨hrd, hframe⟩ := gpio_oe (s := s) (q := q) (w := .hostOe q v) (x := v) (by simpa [gpioAsk] using hform)
    exact ⟨s.gpioWith (.hostOe q v) [], congrArg Host.Outcome.next (gpioHost_east (w := .hostOe q v) rfl ha []), hrd, hframe⟩
  · have hop := (gpioHost_east (w := .hostSet q v) rfl ha [.coxOut q w]).trans (gpioWith_cox hport)
    have hnext : s.gpioNext [.hostSet q v, .coxOut q w] false q.toNat = w := by
      simp [gpioNext, gpioAsk, gpioForm]
    exact ⟨s.gpioCycle [.hostSet q v, .coxOut q w], congrArg Host.Outcome.next hop, (rd_gpioCycle s _ false q).trans (congrArg _ hnext)⟩
  · exact congrArg Host.Outcome.next (gpioHost_west (w := .hostOut q v) rfl ha l)
  · exact congrArg Host.Outcome.next (gpioHost_west (w := .hostSet q v) rfl ha l)
  · exact congrArg Host.Outcome.next (gpioHost_west (w := .hostClr q v) rfl ha l)
  · exact congrArg Host.Outcome.next (gpioHost_west (w := .hostOe q v) rfl ha l)
  · obtain ⟨hrd, hframe⟩ := gpio_out (s := s) (q := q) (w := .coxOut q v) (x := v) (by simp [gpioAsk, gpioForm])
    exact ⟨s.gpioWith (.coxOut q v) [], congrArg Host.Outcome.next (if_pos hport), hrd, hframe⟩
  · obtain ⟨hrd, hframe⟩ := gpio_oe (s := s) (q := q) (w := .coxOe q v) (x := v) (by simp [gpioAsk, gpioForm])
    exact ⟨s.gpioWith (.coxOe q v) [], congrArg Host.Outcome.next (if_pos hport), hrd, hframe⟩
  · subst ho
    have hform := gpioForm_mask k v (BitVec.ofNat 16 (s.rd (pgPin .east) (PIN_OUT_DATA.at 0x10 q.toNat)))
    obtain ⟨hrd, hframe⟩ := gpio_out (s := s) (q := q) (w := .sdwData q k v) (by simpa [gpioAsk] using hform)
    exact ⟨s.gpioWith (.sdwData q k v) [], congrArg Host.Outcome.next (gpioSdw_taken ht), hrd, hframe⟩
  · subst ho
    have hform := gpioForm_set k (BitVec.ofNat 16 (s.rd (pgPin .east) (PIN_OUT_DATA.at 0x10 q.toNat)))
    obtain ⟨hrd, hframe⟩ := gpio_out (s := s) (q := q) (w := .sdwSet q k) (by simpa [gpioAsk] using hform)
    exact ⟨s.gpioWith (.sdwSet q k) [], congrArg Host.Outcome.next (gpioSdw_taken ht), hrd, hframe⟩
  · subst ho
    have hform := gpioForm_clr k (BitVec.ofNat 16 (s.rd (pgPin .east) (PIN_OUT_DATA.at 0x10 q.toNat)))
    obtain ⟨hrd, hframe⟩ := gpio_out (s := s) (q := q) (w := .sdwClr q k) (by simpa [gpioAsk] using hform)
    exact ⟨s.gpioWith (.sdwClr q k) [], congrArg Host.Outcome.next (gpioSdw_taken ht), hrd, hframe⟩
  · have hform := gpioForm_mask k v (BitVec.ofNat 16 (s.rd (pgPin .east) (PIN_OE_EN.at 0x10 q.toNat)))
    obtain ⟨hrd, hframe⟩ := gpio_oe (s := s) (q := q) (w := .sdwOe q k v) (by simpa [gpioAsk] using hform)
    exact ⟨s.gpioWith (.sdwOe q k v) [], congrArg Host.Outcome.next (gpioSdw_taken ht), hrd, hframe⟩
  · have hop := pinChange_plain hnew (fun e => hprog (BitVec.eq_of_toNat_eq e))
    have hin : (decide ((s.leveled n.toNat b).devMode < mStandby) || (s.leveled n.toNat b).pins.windows.contains n.toNat) = true := by
      have hwin' : (s.leveled n.toNat b).pins.windows = s.pins.windows := rfl
      rw [hwin']
      simp [hwin]
    rw [if_pos hin] at hop
    exact ⟨_, congrArg Host.Outcome.next hop, rfl, leveled_upd.frame⟩
  · have hop := pinChange_line hnew (fun e => hprog (BitVec.eq_of_toNat_eq e)) hwin hmode hseq hlines hclosed hready
    have hl : l < 16 := List.mem_range.mp (List.mem_filter.mp (hlines ▸ List.mem_singleton.mpr rfl : l ∈ s.linesFor n.toNat b)).1
    have hpins : ((((s.leveled n.toNat b).raise (pgPint .east) l).snapshotFor n.toNat .east).snapshotFor n.toNat .west).pins = (s.leveled n.toNat b).pins := by
      rw [snapshotFor_upd.frame .pins (by decide), snapshotFor_upd.frame .pins (by decide), raise_upd.frame .pins (by decide)]
    refine ⟨_, congrArg Host.Outcome.next hop, ?_, ?_⟩
    · rw [hpins]
      exact (testBit_setBit ..).trans (if_pos rfl)
    · rw [rd_congr (snapshotFor_upd.frame .regs (by decide)), rd_congr (snapshotFor_upd.frame .regs (by decide))]
      exact raw_raise _ _ (by omega)
  · have hop := porchBoundary_clocked (h := h) hj hclk v a i
    have hnone : ((s.porchTake (j.toNat + 12 * halfBit h)).porch (j.toNat + 12 * halfBit h)).edge = none := by
      rw [porch_porchTake]
      exact hedge
    rw [porchOut_dead (porchLive_unattached hnone _), porchIn_dead (porchLive_unattached hnone _)] at hop
    exact ⟨_, congrArg Host.Outcome.next hop, porch_porchTake .., porchTake_upd.frame⟩
  · have hop := porchBoundary_clocked (h := h) hj (porchLive_clocked hout) v a i
    have htaken := porch_porchTake s (j.toNat + 12 * halfBit h)
    have hdir' : ((s.porchTake (j.toNat + 12 * halfBit h)).porch (j.toNat + 12 * halfBit h)).dir = 0 := by rw [htaken]; exact hdir
    have hgear' : ((s.porchTake (j.toNat + 12 * halfBit h)).porch (j.toNat + 12 * halfBit h)).gear = 3 := by rw [htaken]; exact hgear
    have hedge' : ((s.porchTake (j.toNat + 12 * halfBit h)).porch (j.toNat + 12 * halfBit h)).edge = some (r, e) := by rw [htaken]; exact hedge
    have hstraps : (s.porchTake (j.toNat + 12 * halfBit h)).straps = s.straps := porchTake_upd.frame .straps (by decide)
    have hdoors (c : Nat) : (s.porchTake (j.toNat + 12 * halfBit h)).doorToken r c = s.doorToken r c :=
      doorToken_congr (porchTake_upd.frame .fabric (by decide)) r c
    have hfab := porchIn_inputs (ins := i) (acked := a) hdir' hgear' ((porchLive_porchTake ..).trans hin) hedge' (by rw [hstraps]; exact hpower)
      (fun n => (hdoors _).trans (hfree n))
    rw [porchOut_inputs hdir'] at hop
    refine ⟨_, congrArg Host.Outcome.next hop, fun n hn hlen hack => ?_⟩
    rw [doorToken_congr hfab, doorToken_presented, if_pos (List.mem_filter.mpr ⟨List.mem_range.mpr hn, hack⟩)]
    rfl
  · have haddr : (BitVec.ofNat 7 s.smbusAddr).toNat = s.smbusAddr := by
      rw [BitVec.toNat_ofNat]
      exact Nat.mod_eq_of_lt (smbusAddr_lt s)
    obtain ⟨f, hf, hop⟩ := smbus_answered (code := c.toNat) hon pec
    have hexec : exec (.smbusBlockRead c (BitVec.ofNat 7 s.smbusAddr) pec) s = .next (s.smbus (BitVec.ofNat 7 s.smbusAddr).toNat c.toNat pec) := rfl
    rw [hexec, haddr, hop]
    refine ⟨_, rfl, fun hc => ?_, fun w hw => ⟨f w, ?_, hf w⟩, emit_upd.frame⟩
    · rw [smbusWord_none hc]
      rfl
    · rw [hw]
      rfl
  · have hpin := pinSwap_of_step h4 hx
    have hop : exec (.quiesceLimitExpiry w true n c) s = .next (s.modRooms (s.unquiet x.rooms) fun y => { y with stopped := true }) := by
      refine congrArg Host.Outcome.next ?_
      rw [if_neg (fun hne => hne hpin.symm), if_neg hseq, quiesceLimit_reconfig h3 h4 hx]
    refine ⟨_, hop, fun r hr hcore hquiet => stopped_modRooms hcore (.inl ?_), modRooms_upd.frame⟩
    exact List.mem_filter.mpr ⟨hr, by rw [hquiet]; rfl⟩

end Sys2Proof.Machine
end

section
/-! PROOFS. The fabric: cells, cupboards, oars and rating oscillators -/

namespace Sys2Proof.Machine

/-! ## Bytes of a number, and of a table -/

theorem leNat_leBytes (n v : Nat) : leNat (leBytes n v) = v % 256 ^ n := by
  induction n generalizing v with
  | zero => simp [leBytes, leNat, Nat.mod_one]
  | succ n ih =>
    rw [leBytes, leNat, ih, BitVec.toNat_ofNat]
    show v % 256 + 256 * (v / 256 % 256 ^ n) = v % 256 ^ (n + 1)
    rw [Nat.pow_succ', Nat.mod_mul]

theorem bytes_putBytes_self (t : Tbl Byte) (a : Nat) (bs : List Byte) : Tbl.bytes (Tbl.putBytes t a bs) a bs.length = bs := by
  refine Tbl.bytes_eq_of_get fun i hi => ?_
  rw [Tbl.get_putBytes, if_pos (by omega), Nat.add_sub_cancel_left]

/-- An accumulator that 64 bits hold. -/
def Oar.fits (o : Oar) : Prop := (BitVec.ofInt 64 o.acc).toInt = o.acc

namespace State
variable {s t u : State} {r p : Nat}

theorem live_setLive (s : State) (r off : Nat) (bs : List Byte) : (s.setLive r off bs).live r off bs.length = bs := bytes_putBytes_self ..

/-! ## Cells (R43 to R53) -/

theorem cellBits_setCellBits (s : State) (r cell v : Nat) : (s.setCellBits r cell v).cellBits r cell = v % 16 := by
  have hbyte : ∃ b : Nat, b < 256 ∧ b / 16 ^ (cell % 2) % 16 = v % 16 ∧
      s.setCellBits r cell v = s.setLive r (cell / 2) [BitVec.ofNat 8 b] := by
    have hold := ((byteAt (s.live r (cell / 2) 1) 0)).isLt
    unfold setCellBits
    dsimp only
    generalize (byteAt (s.live r (cell / 2) 1) 0).toNat = old at hold
    refine ⟨_, ?_, ?_, rfl⟩
    · split <;> omega
    · obtain hpar | hpar : cell % 2 = 0 ∨ cell % 2 = 1 := by omega
      · rw [hpar, if_pos rfl]
        omega
      · rw [hpar, if_neg (by decide)]
        omega
  obtain ⟨b, hlt, hb, hset⟩ := hbyte
  have hlive := live_setLive s r (cell / 2) [BitVec.ofNat 8 b]
  unfold cellBits
  rw [hset]
  have hone : ([BitVec.ofNat 8 b] : List Byte).length = 1 := rfl
  rw [hone] at hlive
  rw [hlive]
  have hval : (byteAt [BitVec.ofNat 8 b] 0).toNat = b := by
    rw [byteAt, List.getD_cons_zero, BitVec.toNat_ofNat, Nat.mod_eq_of_lt hlt]
  rw [hval, hb]

/-- The state bits of a cell that stands in a given way. -/
def cellWord (x : CellNow) : Nat := bit x.v0 + 2 * bit x.p0 + 4 * bit x.v1 + 8 * bit x.p1

theorem cellWord_bits (x : CellNow) : cellWord x % 16 = cellWord x ∧ (cellWord x).testBit 0 = x.v0 ∧ (cellWord x).testBit 1 = x.p0 ∧
    (cellWord x).testBit 2 = x.v1 ∧ (cellWord x).testBit 3 = x.p1 := by
  have hbits : ∀ v0 p0 v1 p1 : Bool, let n := bit v0 + 2 * bit p0 + 4 * bit v1 + 8 * bit p1
      n % 16 = n ∧ n.testBit 0 = v0 ∧ n.testBit 1 = p0 ∧ n.testBit 2 = v1 ∧ n.testBit 3 = p1 := by decide
  exact hbits x.v0 x.p0 x.v1 x.p1

theorem cellNow_congr (hf : t.fabric = s.fabric) (hs : t.sigs = s.sigs) (hr : t.rooms = s.rooms) (cell : Nat) :
    t.cellNow r cell = s.cellNow r cell := by
  unfold cellNow restSig cellBits cellCfg plane live
  rw [hf, hs, room_of_rooms hr]

/-- A cell that is set stands as it is set. -/
theorem cellNow_setCell (s : State) (r cell : Nat) (x : CellNow) : (s.setCell r cell x).cellNow r cell = x := by
  obtain ⟨u, l, hset, hl, hbits⟩ : ∃ (u : State) (l : Tbl Sig), s.setCell r cell x = { u with sigs := l } ∧
      l = (if x.sig = u.restSig r cell then Tbl.del u.sigs (r * 4096 + cell) else Tbl.put u.sigs (r * 4096 + cell) x.sig) ∧
        u.cellBits r cell = cellWord x :=
    ⟨s.setCellBits r cell (cellWord x), _, rfl, rfl, (cellBits_setCellBits ..).trans (cellWord_bits x).1⟩
  obtain ⟨-, h0, h1, h2, h3⟩ := cellWord_bits x
  have hsig : (Tbl.find l (r * 4096 + cell)).getD (u.restSig r cell) = x.sig := by
    rw [hl]
    split
    · rename_i he
      rw [Tbl.find_del, if_pos rfl]
      exact he.symm
    · rw [Tbl.find_put, if_pos rfl]
      rfl
  have hnow : ({ u with sigs := l } : State).cellNow r cell = ⟨(Tbl.find l (r * 4096 + cell)).getD (u.restSig r cell),
      (u.cellBits r cell).testBit 0, (u.cellBits r cell).testBit 1, (u.cellBits r cell).testBit 2, (u.cellBits r cell).testBit 3⟩ := rfl
  rw [hset, hnow, hbits, hsig, h0, h1, h2, h3]

theorem fire_cell (s : State) (r : Nat) (c : BitVec 11)
    (hlegal : (s.cellCfg r c.toNat).seesIllegal (s.bundled r) (s.cellWires r c.toNat) = false) :
    s.fire r (.cell c) = (s.setCell r c.toNat (s.cellNext r c.toNat (s.cellWires r c.toNat))).lineSet r c.toNat := by
  have hdef : s.fire r (.cell c) = s.fireCell r c.toNat (s.cellWires r c.toNat) := rfl
  rw [hdef]
  unfold fireCell
  rw [hlegal]
  rfl

/-! ## Hard blocks (R64 to R69) -/

theorem block_setBlock (s : State) (r p : Nat) (x : Block) : (s.setBlock r p x).block r p = x := (Tbl.get_store ..).trans (if_pos rfl)

theorem block_congr (hb : t.blocks = s.blocks) (r p : Nat) : t.block r p = s.block r p := by
  unfold block
  rw [hb]

/-- A port whose only token is a request that waits has no result to move on. -/
theorem blockSent_waiting {q : BlockReq} (hb : s.block r p = { Block.fresh with waiting := some q }) :
    s.blockSent r p = s.setBlock r p { Block.fresh with waiting := some q } := by
  unfold blockSent
  rw [hb]
  simp [Block.fresh]

/-- A request at an idle port waits at it until the port takes it. -/
theorem ask_fresh {q : BlockReq} (hmove : s.tokensMove r = true) (hfresh : s.block r p = Block.fresh) :
    ∃ u : State, u.block r p = { Block.fresh with waiting := some q } ∧ Upd [.blocks] s u ∧ s.ask r p q = u.blockTakes r p := by
  have hreq : s.request r p q = s.setBlock r p { Block.fresh with waiting := some q } := by
    unfold request
    rw [hfresh]
    rfl
  have hsent := blockSent_waiting (s := s.request r p q) (q := q) (by rw [hreq, block_setBlock])
  refine ⟨(s.request r p q).blockSent r p, ?_, ?_, if_pos hmove⟩
  · rw [hsent, block_setBlock]
  · rw [hsent, hreq]
    exact Upd.after setBlock_upd rfl setBlock_upd

theorem blockTakes_cup {q : CupReq} (hb : s.block r p = { Block.fresh with waiting := some (.cup q) }) (hp : p < 8)
    (hwe : q.write = false ∨ s.seq.we = true) :
    s.blockTakes r p = ((s.cupOne r (p / 2) q).2.setBlock r p { waiting := none, ack := true, flight := [some (s.cupOne r (p / 2) q).1], gap := false }).emit
      (.token r (2048 + p) (s.cupOne r (p / 2) q).1) := by
  have hgo : ¬ (q.write = true ∧ (!s.seq.we) = true) := by
    obtain h | h := hwe <;> simp [h]
  have hroom : ¬ ((Block.fresh.ack || !blockRoom p { Block.fresh with waiting := some (.cup q) }) = true) := by
    simp [Block.fresh, blockRoom, hp]
  unfold blockTakes
  rw [hb]
  exact (if_neg hroom).trans (if_neg hgo)

theorem blockTakes_barred {q : CupReq} (hb : s.block r p = { Block.fresh with waiting := some (.cup q) }) (hq : q.write = true)
    (hwe : s.seq.we = false) : s.blockTakes r p = s := by
  unfold blockTakes
  rw [hb]
  refine (congrArg (ite _ s) ?_).trans (ite_self s)
  exact if_pos (by simp [hq, hwe])

theorem cupPort_lt (c : BitVec 2) (q : CupReq) : cupPort c.toNat q < 8 ∧ cupPort c.toNat q / 2 = c.toNat := by
  have hc : c.toNat < 4 := c.isLt
  have hb := bit_lt_two q.portB
  unfold cupPort
  omega

theorem cupWord_congr (hf : t.fabric = s.fabric) (r c w : Nat) : t.cupWord r c w = s.cupWord r c w := by
  unfold cupWord live
  rw [hf]

theorem cupShape_congr (hf : t.fabric = s.fabric) (hr : t.rooms = s.rooms) (r c : Nat) (b : Bool) : t.cupShape r c b = s.cupShape r c b := by
  unfold cupShape plane
  rw [hf, room_of_rooms hr]

/-! ## Oars (R67 to R69) -/

theorem fits_toInt (x : BitVec 64) (v e : Bool) : Oar.fits ⟨x.toInt, v, e⟩ := congrArg BitVec.toInt BitVec.ofInt_toInt

theorem fits_wrap64 (x : Int) (v e : Bool) : Oar.fits ⟨wrap64 x, v, e⟩ := fits_toInt ..

theorem fits_of_range {o : Oar} (hlo : -2 ^ 63 ≤ o.acc) (hhi : o.acc < 2 ^ 63) : o.fits := by
  exact BitVec.toInt_ofInt_eq_self (by decide) hlo hhi

theorem fits_load (o : Oar) (x : OarTok) : (o.load x).fits := by
  have hlo := (x.a ++ x.b).le_toInt
  have hhi := (x.a ++ x.b).toInt_lt
  have hnat := (x.a ++ x.b).isLt
  unfold Oar.load
  generalize (x.a ++ x.b).toInt = i at hlo hhi
  generalize (x.a ++ x.b).toNat = k at hnat
  refine fits_of_range ?_ ?_
  · show -2 ^ 63 ≤ if x.sa then i else (k : Int)
    split <;> omega
  · show (if x.sa then i else (k : Int)) < 2 ^ 63
    split <;> omega

theorem fits_clear (o : Oar) (x : OarTok) : (o.clear x).fits :=
  fits_of_range (o := ⟨0, false, false⟩) (by decide) (by decide)

theorem fits_mul (o : Oar) (x : OarTok) : (o.mul x).fits := fits_wrap64 (product x) false false

theorem fits_mac (o : Oar) (x : OarTok) : (o.mac x).fits := fits_wrap64 (o.acc + product x) _ _

theorem fits_msub (o : Oar) (x : OarTok) : (o.msub x).fits := fits_wrap64 (o.acc + -product x) _ _

theorem fits_oar (s : State) (r n : Nat) : (s.oar r n).fits := by
  exact fits_toInt _ _ _

theorem fits_reserved {o : Oar} (ho : o.fits) (x : OarTok) : (o.reserved x).fits := ho

theorem oar_congr (hf : t.fabric = s.fabric) (r n : Nat) : t.oar r n = s.oar r n := by
  unfold oar live
  rw [hf]

theorem leBytes_length (n v : Nat) : (leBytes n v).length = n := by
  induction n generalizing v with
  | zero => rfl
  | succ n ih => rw [leBytes, List.length_cons, ih]

/-- An oar whose accumulator 64 bits hold reads as it is set. -/
theorem oar_setOar (s : State) (r n : Nat) {o : Oar} (ho : o.fits) : (s.setOar r n o).oar r n = o := by
  obtain ⟨bs, x, hbs, hx⟩ : ∃ (bs : List Byte) (x : Byte), bs = leBytes 8 (BitVec.ofInt 64 o.acc).toNat ∧
      x = BitVec.ofNat 8 (bit o.ovf + 2 * bit o.operr) := ⟨_, _, rfl, rfl⟩
  have hlen : bs.length = 8 := hbs ▸ leBytes_length ..
  have hset : s.setOar r n o = s.setLive r (38 * 512 + 16 * n) (bs ++ [x]) := by rw [hbs, hx]; rfl
  have hlive := live_setLive s r (38 * 512 + 16 * n) (bs ++ [x])
  rw [List.length_append, hlen] at hlive
  have hle : leAt (bs ++ [x]) 0 8 = (BitVec.ofInt 64 o.acc).toNat := by
    show leNat (((bs ++ [x]).drop 0).take 8) = _
    rw [List.drop_zero, List.take_left' hlen, hbs, leNat_leBytes]
    exact Nat.mod_eq_of_lt (BitVec.isLt _)
  have hbyte : byteAt (bs ++ [x]) 8 = x := by
    rw [byteAt, List.getD_append_right _ _ _ _ (by omega), hlen]
    rfl
  have hflags : ∀ v e : Bool, (BitVec.ofNat 8 (bit v + 2 * bit e)).getLsbD 0 = v ∧
      (BitVec.ofNat 8 (bit v + 2 * bit e)).getLsbD 1 = e := by decide
  obtain ⟨hv, he⟩ := hflags o.ovf o.operr
  have hoar : ∀ u : State, u.oar r n = ⟨(BitVec.ofNat 64 (leAt (u.live r (38 * 512 + 16 * n) (8 + [x].length)) 0 8)).toInt,
      (byteAt (u.live r (38 * 512 + 16 * n) (8 + [x].length)) 8).getLsbD 0,
      (byteAt (u.live r (38 * 512 + 16 * n) (8 + [x].length)) 8).getLsbD 1⟩ := fun u => rfl
  rw [hset, hoar, hlive, hle, hbyte, hx, hv, he, BitVec.ofNat_toNat, BitVec.setWidth_eq, ho]

theorem blockTakes_oar {n op : Nat} {x : OarTok} {send : Bool} (hsend : send = (x.emit || op == 5))
    (hb : s.block r (8 + n) = { Block.fresh with waiting := some (.oar op x) }) :
    s.blockTakes r (8 + n) =
      if send then ((s.setOar r n (oarFn op (s.oar r n) x)).setBlock r (8 + n)
          { waiting := none, ack := true, flight := [some (oarFn op (s.oar r n) x).token], gap := false }).emit
            (.token r (2056 + n) (oarFn op (s.oar r n) x).token)
      else (s.setOar r n (oarFn op (s.oar r n) x)).setBlock r (8 + n)
        { waiting := none, ack := true, flight := [], gap := false } := by
  have hroom : ¬ ((Block.fresh.ack || !blockRoom (8 + n) { Block.fresh with waiting := some (.oar op x) }) = true) := by
    simp [Block.fresh, blockRoom]
  have hn : 8 + n - 8 = n := by omega
  have hp : 2048 + (8 + n) = 2056 + n := by omega
  unfold blockTakes
  rw [hb]
  refine (if_neg hroom).trans ?_
  dsimp only [oarOne]
  rw [hn, hp, ← hsend]
  cases send <;> rfl

/-- What an operation does at an idle oar: its accumulator, its result token where one is sent, and its acknowledge. -/
theorem oarAsk_did {room : BitVec 12} {n : BitVec 3} {op : Nat} {x : OarTok} {send : Bool} (hok : roomOk room.toNat = true)
    (hmove : s.tokensMove room.toNat = true) (hfresh : s.block room.toNat (8 + n.toNat) = Block.fresh)
    (hsend : send = (x.emit || op == 5)) (hfits : (oarFn op (s.oar room.toNat n.toNat) x).fits) :
    s.OarDid room.toNat n.toNat send (oarFn op (s.oar room.toNat n.toNat) x) (s.oarAsk room n op x) := by
  have hrest : Unchanged [.out, .fabric, .blocks] s (s.oarAsk room n op x) := oarAsk_upd.frame
  obtain ⟨u, hblock, hupd, hask⟩ := ask_fresh (q := .oar op x) hmove hfresh
  have hdef : s.oarAsk room n op x = u.blockTakes room.toNat (8 + n.toNat) := (if_pos hok).trans hask
  have hfab : u.fabric = s.fabric := hupd.frame .fabric (by decide)
  have hout : u.out = s.out := hupd.frame .out (by decide)
  rw [blockTakes_oar hsend hblock, oar_congr hfab] at hdef
  generalize oarFn op (s.oar room.toNat n.toNat) x = o at hdef hfits
  have hone : ∀ (fl : List (Option Nat)) (w : State), w = (u.setOar room.toNat n.toNat o).setBlock room.toNat (8 + n.toNat)
      { waiting := none, ack := true, flight := fl, gap := false } →
      w.oar room.toNat n.toNat = o ∧ w.out = s.out ∧
        w.block room.toNat (8 + n.toNat) = { waiting := none, ack := true, flight := fl, gap := false } := by
    rintro fl w rfl
    exact ⟨(oar_congr (setBlock_upd.frame .fabric (by decide)) ..).trans (oar_setOar _ _ _ hfits),
      ((Upd.after setBlock_upd rfl <| Upd.after setOar_upd rfl .refl : Upd [.fabric, .blocks] u _).frame .out (by decide)).trans hout,
      block_setBlock ..⟩
  cases send with
  | false =>
    obtain ⟨ho, hw, hb⟩ := hone _ _ (hdef.trans (if_neg (by decide)))
    exact ⟨ho, hw, hb, hrest⟩
  | true =>
    rw [if_pos rfl] at hdef
    obtain ⟨ho, hw, hb⟩ := hone _ _ rfl
    refine ⟨?_, ?_, ?_, hrest⟩
    · rw [hdef]
      exact ho
    · rw [hdef]
      exact congrArg _ hw
    · rw [hdef]
      exact hb

/-! ## Cupboards, upsets and rating oscillators -/

/-- A wire code that an upset makes in a room whose control plane counts it sets the cluster's flag. -/
theorem illegalCode_flags (s : State) (r : BitVec 12) (c : BitVec 11) (w v : Wires) (hok : roomOk r.toNat = true)
    (hmove : s.tokensMove r.toNat = true) (hv : v = s.cellWires r.toNat c.toNat)
    (hill : (s.cellCfg r.toNat c.toNat).seesIllegal (s.bundled r.toNat) ⟨v.t ||| w.t, v.f ||| w.f, v.req ||| w.req⟩ = true)
    (hctl : (s.control (s.room r.toNat).active r.toNat).testBit 5 = true) :
    ∃ t, exec (.illegalCode r c w) s = .next t ∧ (t.room r.toNat).codeFlag = true ∧ Unchanged [.rooms] s t := by
  subst hv
  have hr : r.toNat % 256 < 192 := by
    have := hok
    rw [roomOk, Bool.and_eq_true, decide_eq_true_eq, decide_eq_true_eq] at this
    exact this.2
  have hcode : s.codeError r.toNat = s.modRoom r.toNat fun x => { x with codeFlag := true } := if_pos hctl
  refine ⟨s.codeError r.toNat, congrArg Host.Outcome.next (if_pos ?_), ?_, codeError_upd.frame⟩
  · rw [hok, hmove]
    exact hill
  · rw [hcode, room_modRoom s hr]

/-- An access of one port of a cupboard that is idle: the request waits at the port until the port takes it. -/
theorem cupOne_asked {r : BitVec 12} {c : BitVec 2} {q : CupReq} (hmove : s.tokensMove r.toNat = true)
    (hfresh : s.block r.toNat (cupPort c.toNat q) = Block.fresh) (hwe : q.write = false ∨ s.seq.we = true) :
    ∃ u : State, Upd [.blocks] s u ∧ s.ask r.toNat (cupPort c.toNat q) (.cup q) =
      ((u.cupOne r.toNat c.toNat q).2.setBlock r.toNat (cupPort c.toNat q)
        { waiting := none, ack := true, flight := [some (u.cupOne r.toNat c.toNat q).1], gap := false }).emit
          (.token r.toNat (2048 + cupPort c.toNat q) (u.cupOne r.toNat c.toNat q).1) := by
  obtain ⟨u, hblock, hupd, hask⟩ := ask_fresh (q := .cup q) hmove hfresh
  obtain ⟨hlt, hdiv⟩ := cupPort_lt c q
  have hseq : u.seq = s.seq := hupd.frame .seq (by decide)
  have htakes := blockTakes_cup hblock hlt (by rw [hseq]; exact hwe)
  rw [hdiv] at htakes
  exact ⟨u, hupd, hask.trans htakes⟩

theorem cupReach_congr (hu : Upd [.blocks] s u) (r c : Nat) (q : CupReq) :
    cupReach (u.cupShape r c q.portB) q.addr.toNat = cupReach (s.cupShape r c q.portB) q.addr.toNat := by
  rw [cupShape_congr (hu.frame .fabric (by decide)) (hu.frame .rooms (by decide))]

theorem cupOne_read {r c : Nat} {q : CupReq} (hq : q.write = false) {w l n : Nat}
    (hreach : cupReach (u.cupShape r c q.portB) q.addr.toNat = (w, l, n)) :
    u.cupOne r c q = (bits (u.cupWord r c w) (9 * (l + n) - 1) (9 * l), u) := by
  unfold cupOne
  rw [hreach]
  exact if_neg (by rw [hq]; decide)

theorem cupOne_write {r c : Nat} {q : CupReq} (hq : q.write = true) {w l n : Nat}
    (hreach : cupReach (u.cupShape r c q.portB) q.addr.toNat = (w, l, n)) :
    u.cupOne r c q = (0, u.setCupWord r c w (cupMerge (u.cupWord r c w) l n q.lanes.toNat q.data.toNat)) := by
  unfold cupOne
  rw [hreach]
  exact if_pos hq

/-- A read that an idle port of a cupboard takes. -/
theorem cupRead_takes {r : BitVec 12} {c : BitVec 2} {q : CupReq} {p w l n : Nat} (hq : q.write = false) (hp : p = cupPort c.toNat q)
    (hmove : s.tokensMove r.toNat = true) (hreach : cupReach (s.cupShape r.toNat c.toNat q.portB) q.addr.toNat = (w, l, n))
    (hfresh : s.block r.toNat p = Block.fresh) :
    ∃ u : State, Upd [.blocks] s u ∧ s.ask r.toNat p (.cup q) =
      (u.setBlock r.toNat p { waiting := none, ack := true, gap := false,
                              flight := [some (bits (s.cupWord r.toNat c.toNat w) (9 * (l + n) - 1) (9 * l))] }).emit
        (.token r.toNat (2048 + p) (bits (s.cupWord r.toNat c.toNat w) (9 * (l + n) - 1) (9 * l))) := by
  subst hp
  obtain ⟨u, hu, hask⟩ := cupOne_asked hmove hfresh (.inl hq)
  rw [cupOne_read hq ((cupReach_congr hu _ _ _).trans hreach), cupWord_congr (hu.frame .fabric (by decide))] at hask
  exact ⟨u, hu, hask⟩

/-- A write that an idle port of a cupboard takes. -/
theorem cupWrite_takes {r : BitVec 12} {c : BitVec 2} {q : CupReq} {p w l n : Nat} (hq : q.write = true) (hp : p = cupPort c.toNat q)
    (hmove : s.tokensMove r.toNat = true) (hwe : s.seq.we = true)
    (hreach : cupReach (s.cupShape r.toNat c.toNat q.portB) q.addr.toNat = (w, l, n)) (hfresh : s.block r.toNat p = Block.fresh) :
    ∃ u : State, Upd [.blocks] s u ∧ s.ask r.toNat p (.cup q) =
      ((u.setCupWord r.toNat c.toNat w (cupMerge (s.cupWord r.toNat c.toNat w) l n q.lanes.toNat q.data.toNat)).setBlock r.toNat p
        { waiting := none, ack := true, flight := [some 0], gap := false }).emit (.token r.toNat (2048 + p) 0) := by
  subst hp
  obtain ⟨u, hu, hask⟩ := cupOne_asked hmove hfresh (.inr hwe)
  rw [cupOne_write hq ((cupReach_congr hu _ _ _).trans hreach), cupWord_congr (hu.frame .fabric (by decide))] at hask
  exact ⟨u, hu, hask⟩

theorem rosc_fields : ∀ k < 4, (WNG_ROSC_COUNT_SEQ.at 4 k).ok = true ∧ (WNG_ROSC_COUNT_COUNT.at 4 k).ok = true ∧
    (WNG_ROSC_COUNT_VALID.at 4 k).ok = true ∧ (WNG_ROSC_COUNT_COUNT.at 4 k).sep (WNG_ROSC_COUNT_VALID.at 4 k) = true ∧
    (WNG_ROSC_COUNT_SEQ.at 4 k).sep (WNG_ROSC_COUNT_VALID.at 4 k) = true ∧
    (WNG_ROSC_COUNT_SEQ.at 4 k).sep (WNG_ROSC_COUNT_COUNT.at 4 k) = true ∧
    (WNG_ROSC_COUNT_COUNT.at 4 k).sep PG_IRQ_RAW = true ∧ (WNG_ROSC_COUNT_VALID.at 4 k).sep PG_IRQ_RAW = true ∧
    (WNG_ROSC_COUNT_SEQ.at 4 k).sep PG_IRQ_RAW = true := by decide

/-- The window of an enabled rating oscillator ends with its count. -/
theorem roscWindow_counts (s : State) (w : BitVec 4) (b : BitVec 2) (n : BitVec 24)
    (hen : (s.rd (pgWng w.toNat) WNG_ROSC_CTRL_EN).testBit b.toNat = true) :
    ∃ t, exec (.roscWindowEnd w b n) s = .next t ∧ t.rd (pgWng w.toNat) (WNG_ROSC_COUNT_COUNT.at 4 b.toNat) = n.toNat ∧
      t.rd (pgWng w.toNat) (WNG_ROSC_COUNT_VALID.at 4 b.toNat) = 1 ∧
      t.rd (pgWng w.toNat) (WNG_ROSC_COUNT_SEQ.at 4 b.toNat) =
        (s.rd (pgWng w.toNat) (WNG_ROSC_COUNT_SEQ.at 4 b.toNat) + 1) % 16 ∧
      (t.rd (pgWng w.toNat) PG_IRQ_RAW).testBit 1 = true ∧ Unchanged [.regs, .out, .host, .cox] s t := by
  obtain ⟨hseq, hcount, hvalid, hcv, hsv, hsc, hcr, hvr, hsr⟩ := rosc_fields b.toNat b.isLt
  refine ⟨_, congrArg Host.Outcome.next (if_pos hen), ?_, ?_, ?_, raw_raise _ _ (by decide),
    (Upd.after raise_upd rfl <| Upd.after wrs_upd rfl <| Upd.after step1_upd rfl .refl).frame⟩
  · rw [rd_raise_sep _ _ _ _ hcr hcount, wrs_cons, wrs_cons, wrs_nil, rd_wr_sep _ _ _ _ _ _ hcv hcount hvalid,
      rd_wr_fit _ _ hcount n.isLt]
  · rw [rd_raise_sep _ _ _ _ hvr hvalid, wrs_cons, wrs_cons, wrs_nil, rd_wr_fit _ _ hvalid (show 1 < 2 by decide)]
  · rw [rd_raise_sep _ _ _ _ hsr hseq, wrs_cons, wrs_cons, wrs_nil, rd_wr_sep _ _ _ _ _ _ hsv hseq hvalid,
      rd_wr_sep _ _ _ _ _ _ hsc hseq hcount, rd_step1 _ _ hseq]
    rfl

/-- Settles O20: each clause is one of the fabric's moves above, the hard blocks' by way of an idle port that takes its
request at once. -/
theorem fabricAct : Obligations.FabricAct := by
  unfold Obligations.FabricAct
  refine ⟨?_, ?_, illegalCode_flags, ?_, ?_, ?_, ?_, ?_, roscWindow_counts⟩
  · intro s w m k n r g hr hg hok hmove
    subst hr hg
    refine ⟨_, congrArg Host.Outcome.next (if_pos ?_), rfl, passToken_upd.frame⟩
    rw [hok, hmove]
    rfl
  · intro s r c w hw hlegal
    subst hw
    rw [fire_cell s r c hlegal]
    refine ⟨?_, (Upd.after lineSet_upd rfl <| Upd.after setCell_upd rfl .refl).frame⟩
    rw [cellNow_congr (lineSet_upd.frame .fabric (by decide)) (lineSet_upd.frame .sigs (by decide))
      (lineSet_upd.frame .rooms (by decide)), cellNow_setCell]
    rfl
  · intro s r c q w l n v hok hmove hreach hfresh hv
    obtain ⟨u, hu, hask⟩ := cupRead_takes (q := { q with write := false }) rfl rfl hmove hreach hfresh
    rw [← hv] at hask
    refine ⟨_, congrArg Host.Outcome.next ((if_pos hok).trans hask), ?_, ?_, ?_⟩
    · exact congrArg (List.cons _) (hu.frame .out (by decide))
    · exact (block_congr (emit_upd.frame .blocks (by decide)) ..).trans (block_setBlock u ..)
    · exact (Upd.after emit_upd rfl <| Upd.after setBlock_upd rfl <| Upd.after hu rfl .refl).frame
  · intro s r c q w l n hok hmove hwe hreach hfresh
    obtain ⟨u, hu, hask⟩ := cupWrite_takes (q := { q with write := true }) rfl rfl hmove hwe hreach hfresh
    refine ⟨_, congrArg Host.Outcome.next ((if_pos hok).trans hask), ?_, ?_, ?_, ?_⟩
    · exact cupWord_setCupWord_same u ..
    · refine congrArg (List.cons _) ?_
      exact (Upd.after setBlock_upd rfl <| Upd.after setCupWord_upd rfl <| Upd.after hu rfl .refl :
        Upd [.fabric, .blocks] s _).frame .out (by decide)
    · exact (block_congr (emit_upd.frame .blocks (by decide)) ..).trans (block_setBlock (u.setCupWord ..) ..)
    · exact (Upd.after emit_upd rfl <| Upd.after setBlock_upd rfl <| Upd.after setCupWord_upd rfl <| Upd.after hu rfl .refl).frame
  · intro s r c q hok hmove hwe hfresh
    obtain ⟨u, hblock, hu, hask⟩ := ask_fresh (q := .cup { q with write := true }) hmove hfresh
    have hbarred := blockTakes_barred hblock rfl ((congrArg Sequencer.we (hu.frame .seq (by decide))).trans hwe)
    exact ⟨u, congrArg Host.Outcome.next ((if_pos hok).trans (hask.trans hbarred)), hblock, hu.frame⟩
  · intro s r c q x hok hport htarget
    have hgo : s.cupAccess r.toNat c.toNat { q with write := true } (some x) =
        if s.drawn 2 = 1 then (s.drew.ask r.toNat (cupPort c.toNat x) (.cup x)).ask r.toNat (cupPort c.toNat q) (.cup { q with write := true })
        else (s.drew.ask r.toNat (cupPort c.toNat q) (.cup { q with write := true })).ask r.toNat (cupPort c.toNat x) (.cup x) :=
      (if_neg (Ne.symm hport)).trans (if_neg (not_not_intro htarget))
    refine ⟨_, s.drew, congrArg Host.Outcome.next (if_pos hok), drew_upd.frame, ?_⟩
    rw [hgo]
    split
    · exact .inr rfl
    · exact .inl rfl
  · intro s r n x hok hmove hfresh
    have did {op : Nat} {send : Bool} {o : Oar} (hsend : send = (x.emit || op == 5)) (ho : oarFn op (s.oar r.toNat n.toNat) x = o)
        (hfits : o.fits) : s.OarDid r.toNat n.toNat send o (s.oarAsk r n op x) := by
      rw [← ho] at hfits ⊢
      exact oarAsk_did hok hmove hfresh hsend hfits
    have hany (k : Nat) (hk : k ≠ 5) : x.emit = (x.emit || k == 5) := by simp [hk]
    refine ⟨⟨_, rfl, ?_⟩, ⟨_, rfl, ?_⟩, ⟨_, rfl, ?_⟩, ⟨_, rfl, ?_⟩, ⟨_, rfl, ?_⟩, ⟨_, rfl, ?_⟩, ⟨_, rfl, ?_⟩⟩
    · exact did (hany 0 (by decide)) (o := Oar.mul (s.oar r.toNat n.toNat) x) rfl (fits_mul ..)
    · exact did (hany 1 (by decide)) (o := Oar.mac _ x) rfl (fits_mac ..)
    · rw [Int.sub_eq_add_neg]
      exact did (hany 2 (by decide)) (o := Oar.msub _ x) rfl (fits_msub ..)
    · exact did (hany 3 (by decide)) (o := Oar.load (s.oar r.toNat n.toNat) x) rfl (fits_load ..)
    · exact did (hany 4 (by decide)) (o := Oar.clear (s.oar r.toNat n.toNat) x) rfl (fits_clear ..)
    · exact did (op := 5) (by simp) rfl (fits_oar ..)
    · exact did (hany 6 (by decide)) (o := Oar.reserved _ x) rfl (fits_reserved (fits_oar ..) x)

end State
end Sys2Proof.Machine
end

section
/-! PROOFS. O55: operations that end with a code -/

namespace Sys2Proof.Machine
open State

/-- A free HAT port refuses an operation that Table 6.8 does not define. -/
theorem hatBadOp_refused (s : State) (p : Port) (o : BitVec 4) (hfree : s.PortFree .hat p) (ho : o = 0 ∨ 4 ≤ o.toNat) :
    ∃ t, exec (.hatBadOp p o) s = .next t ∧ t.Answered .hat p htBadOp ∧ t.hatches = s.hatches ∧ Unchanged [.regs, .out, .host, .cox] s t := by
  have ho' : o.toNat = 0 ∨ 4 ≤ o.toNat := ho.imp (congrArg BitVec.toNat) id
  obtain ⟨htakes, hidle, -⟩ := hfree
  have hop : s.toPort .hat p (fun s => if s.portBusy .hat p then s else (s.portStart .hat p).hatEnd p htBadOp (s.portRd .hat p HAT_ARG_HATCH)) =
      (s.portStart .hat p).hatEnd p htBadOp (s.portRd .hat p HAT_ARG_HATCH) :=
    (toPort_of_takes htakes _).trans (if_neg (by rw [hidle]; decide))
  have hupd : Upd [.regs, .out, .host, .cox] s ((s.portStart .hat p).hatEnd p htBadOp (s.portRd .hat p HAT_ARG_HATCH)) :=
    Upd.after hatEnd_upd rfl <| Upd.after portStart_upd rfl .refl
  exact ⟨_, congrArg Host.Outcome.next ((if_pos ho').trans hop), hatEnd_answered _ _ (by decide), hupd.frame .hatches (by decide), hupd.frame⟩

/-- Settles O55: the refusals are those of the families that define the operations; an operand that is a defined operation
is turned away by the command's own guard. -/
theorem refusedOperationsComplete : Obligations.RefusedOperationsComplete := by
  obtain ⟨hmodeReq, -⟩ := modeRequestsAct
  obtain ⟨-, -, -, hdoorbell, -⟩ := doorbellsAndRoomsAct
  obtain ⟨-, -, -, -, -, -, -, -, -, -, hstw, -⟩ := stewardCommandsAct
  obtain ⟨-, -, -, -, -, -, -, -, hpgt⟩ := allocatorCommandsAct
  obtain ⟨-, -, -, -, -, -, hlcs, -⟩ := unfreezeAndLifeCycleAct
  obtain ⟨-, -, -, -, -, -, -, hoar, -⟩ := fabricAct
  refine ⟨hmodeReq, hdoorbell, fun s fn id h o ho => ?_, fun s p o hp ho => ?_, fun s p o hp ho => ?_, fun s p o hp ho => ?_,
    fun s p o hpos => ⟨fun h => ?_, fun h => ?_, fun h => ?_⟩, fun s m v ht hst hpend hno => ?_, fun s r n x hok hmove hfresh => ?_,
    illegalCode_flags⟩
  · exact congrArg Host.Outcome.next (if_pos ho)
  · obtain ⟨t, ht, hans, -, hrest⟩ := hstw s p o hp ho
    exact ⟨t, ht, hans, hrest⟩
  · obtain ⟨t, ht, hans, -, hrest⟩ := hpgt s p o hp ho
    exact ⟨t, ht, hans, hrest⟩
  · obtain ⟨t, ht, hans, -, hrest⟩ := hatBadOp_refused s p o hp ho
    exact ⟨t, ht, hans, hrest⟩
  · exact congrArg Host.Outcome.next (if_neg (by omega))
  · exact congrArg Host.Outcome.next (if_neg (by omega))
  · exact congrArg Host.Outcome.next (if_neg (by omega))
  · exact hlcs s m v ht hst hpend hno
  · obtain ⟨-, -, -, -, -, -, hreserved⟩ := hoar s r n x hok hmove hfresh
    exact hreserved

end Sys2Proof.Machine
end

section
/-! PROOFS. O57: time limits -/

namespace Sys2Proof.Machine
namespace State
variable {s t u : State}

/-! ## The quiesce limit of a swap that takes one crew out (R107, R108) -/

theorem saveCrews_nil (s : State) (now : Nat) (forced : Bool) : (s.saveCrews [] now forced).2 = s := rfl

/-- The crew that a swap takes out alone is late for the third time at most: the swap is abandoned and the crew stays. -/
theorem quiesceLimit_abandons {w now n id : Nat} {c : Crew} {x : Swap} (h3 : s.swapAt w 3 = some x) (houts : x.outs = [id])
    (hc : s.crew id = some c) (hlate : s.unquiet c.suite ≠ []) (hq : c.qto < 3) :
    s.quiesceLimit w now n = (((((s.backToReady x.inc).emptyRooms (x.rooms.filter fun r => !c.suite.contains r)).swapRecord w 3 n).wingFree
      w).keepCrew id true).wingDone w := by
  have hl : s.crewLate id = true := by simp [crewLate, hc, hlate]
  have hf : ¬ 3 ≤ c.qto := by omega
  unfold quiesceLimit
  rw [h3]
  dsimp only
  rw [houts]
  simp only [List.filter_cons, List.filter_nil, hl, if_true, List.isEmpty_cons, List.contains_cons, List.contains_nil, beq_self_eq_true,
    Bool.or_false, hc, Option.map_some, Option.getD_some, hf, decide_false, Bool.and_false, Bool.false_eq_true, if_false, List.all_cons,
    List.all_nil, Bool.not_true]
  rw [if_neg (by decide), List.foldl_nil, saveCrews_nil, saveCrews_nil]
  have hkeep : (if (!false) = true then [id] else []) = [id] := rfl
  have hkept : [id].flatMap (fun id => ((s.crew id).map (·.suite)).getD []) = c.suite := by simp [hc]
  rw [hkeep, hkept, List.foldl_cons, List.foldl_nil, beq_self_eq_true]

/-- Late for the fourth time: its rooms stop and it is saved as they stand. -/
theorem quiesceLimit_forces {w now n id : Nat} {c : Crew} {x : Swap} {fl : Bool} (h3 : s.swapAt w 3 = some x) (houts : x.outs = [id])
    (hc : s.crew id = some c) (hlate : s.unquiet c.suite ≠ []) (hq : 3 ≤ c.qto)
    (hsave : (s.modRooms c.suite fun y => { y with stopped := true }).saveCrews [id] now true = (fl, u)) :
    s.quiesceLimit w now n = u.afterSave w x fl n := by
  have hl : s.crewLate id = true := by simp [crewLate, hc, hlate]
  unfold quiesceLimit
  simp only [h3, houts, hl, hc, hq, List.filter_cons_of_pos, List.filter_nil, List.isEmpty_cons, Bool.false_eq_true, if_false,
    List.contains_cons, List.contains_nil, beq_self_eq_true, Bool.or_false, Bool.true_and, Option.map_some, Option.getD_some, decide_true,
    List.filter_cons_of_neg, not_false_eq_true, List.foldl_nil, List.all_cons, List.all_nil, Bool.not_true, List.foldl_cons, hsave,
    Bool.or_true, Bool.and_true, if_true]

theorem quiesceLimit_none {w now n : Nat} (h3 : s.swapAt w 3 = none) (h4 : s.swapAt w 4 = none) : s.quiesceLimit w now n = s := by
  unfold quiesceLimit
  simp only [h3, h4]

/-! ## The Course: a retrain that fails, an enumeration that is late (R219, R224) -/

theorem setMap_map (s : State) (l : List Member) : (s.setMap l).course.map = l := by
  have hset (u : State) (n : Nat) : (u.setSize n).course = u.course := setSize_upd.frame .course (by decide)
  have hput (u : State) (d : List Nat) : (u.putDown d).course.map = u.course.map := by
    have hdown : (u.putDown d).course = (u.modCourse fun c => { c with down := d }).course := wr_upd.frame .course (by decide)
    rw [hdown]
    rfl
  show (((s.modCourse _).putDown _).setSize _).course.map = l
  rw [hset, hput]
  rfl

theorem clearRing_map (s : State) : s.clearRing.course.map = [] := by
  have hid : s.clearRing.course = ((s.broadcast sgMap []).setMap []).course := clearId_upd.frame .course (by decide)
  rw [hid, setMap_map]

theorem cLink_modLink (s : State) (w : Bool) (f : CLink → CLink) : (s.modLink w f).cLink w = f (s.cLink w) := by
  cases w <;> rfl

theorem cLink_congr (h : t.course = s.course) (w : Bool) : t.cLink w = s.cLink w := by
  unfold cLink
  rw [h]

theorem laneEnd_idle {w ok : Bool} (h : s.course.lane ≠ some w) : s.laneEnd w ok = s := if_neg h

theorem lane_modLink (s : State) (w : Bool) (f : CLink → CLink) : (s.modLink w f).course.lane = s.course.lane := by
  cases w <;> rfl

/-- An enumeration that is late is over, and has failed. -/
theorem enumOver_reads (u : State) : (u.modCourse fun c => { c with enum := 0, failed := true }).course.enum = 0 ∧
    (u.modCourse fun c => { c with enum := 0, failed := true }).course.failed = true ∧
    (u.modCourse fun c => { c with enum := 0, failed := true }).course.map = u.course.map := ⟨rfl, rfl, rfl⟩

/-- A retrain that fails on a link that no repair of a lane holds. -/
theorem retrainFail_counts (w : Bool) (now : Nat) (hst : s.linkState w = 1) (hlane : s.course.lane ≠ some w) :
    ((s.retrainFail w now).cLink w).fails = now :: (s.cLink w).fails.filter (fun x => now < x + 1000000) ∧
      Upd [.regs, .course] s (s.retrainFail w now) := by
  have hgo : ¬ (s.linkState w ≠ 1 ∧ s.linkState w ≠ 3) := fun h => h.1 hst
  have hop : ∃ (f : CLink → CLink) (b : Bool) (g : Fld), (f (s.cLink w)).fails = now :: (s.cLink w).fails.filter (fun x => now < x + 1000000) ∧
      s.retrainFail w now = (if b then s.modLink w f else (s.modLink w f).bump pgCrs g).laneEnd w false :=
    ⟨fun x => { x with fails := now :: (s.cLink w).fails.filter (fun x => now < x + 1000000), slow := _ }, _, _, rfl, if_neg hgo⟩
  obtain ⟨f, b, g, hf, hop⟩ := hop
  have hcourse : (if b then s.modLink w f else (s.modLink w f).bump pgCrs g).course = (s.modLink w f).course := by
    cases b
    · exact bump_upd.frame .course (by decide)
    · rfl
  rw [laneEnd_idle (by rw [hcourse, lane_modLink]; exact hlane)] at hop
  rw [hop]
  refine ⟨?_, Upd.ite (Upd.after modLink_upd rfl .refl) (Upd.after bump_upd rfl <| Upd.after modLink_upd rfl .refl)⟩
  rw [cLink_congr hcourse, cLink_modLink, hf]

end State
open State

/-- Settles O57: the limits of STANDBY, of the operating points and of the counter are those of their families; the others
end or abandon what runs, and leave the state where nothing runs. -/
theorem timeLimitsComplete : Obligations.TimeLimitsComplete := by
  obtain ⟨-, -, -, -, -, -, hentry, -, -, hwake, -⟩ := transitionsAct
  obtain ⟨-, -, -, hpll, -⟩ := powerAct
  refine ⟨hentry, fun s hst => congrArg Host.Outcome.next (if_neg hst), hwake, fun s hst => ?_, fun s w p now n id c x hst hp h3 ho hc hl hq => ?_,
    fun s u w p now n id c x fl hst hp h3 ho hc hl hq hs => ?_, fun s w p now n hst h => ?_, fun s he hd => ?_,
    fun s he => congrArg Host.Outcome.next (if_pos he), hpll, fun s h hop => ?_, fun s b hb => ?_, fun s hb => ?_, fun s h n hb => ?_, fun s h n hb => ?_,
    fun s w now hst hlane => ?_, fun s w now h1 h3 => congrArg Host.Outcome.next (if_pos ⟨h1, h3⟩), fun s he => ?_,
    fun s he => congrArg Host.Outcome.next (if_pos he)⟩
  · exact congrArg Host.Outcome.next (if_neg (by simpa using hst))
  · exact congrArg Host.Outcome.next ((if_neg (not_not_intro hp.symm)).trans ((if_neg hst).trans (quiesceLimit_abandons h3 ho hc hl hq)))
  · exact congrArg Host.Outcome.next ((if_neg (not_not_intro hp.symm)).trans ((if_neg hst).trans (quiesceLimit_forces h3 ho hc hl hq hs)))
  · by_cases hp : p = s.pinSwap w.toNat
    · obtain h | ⟨h3, h4⟩ := h
      · exact absurd hp.symm h
      · exact congrArg Host.Outcome.next ((if_neg (not_not_intro hp)).trans ((if_neg hst).trans (quiesceLimit_none h3 h4)))
    · exact congrArg Host.Outcome.next ((if_pos hp).trans (if_neg (by simp [hst])))
  · have hop : s.chainStalled = s.modChain fun c => { c with ended := true, out := [], sending := none, again := false, feed := none } :=
      (if_neg (by rw [he]; decide)).trans (if_neg (by
        show ¬ (s.loader.deferred && _) = true
        rw [hd]
        exact Bool.false_ne_true))
    exact ⟨_, congrArg Host.Outcome.next hop, rfl, rfl, rfl, modChain_upd.frame⟩
  · have hop' : s.opLate h = s := by
      unfold opLate
      rw [hop]
    exact congrArg Host.Outcome.next hop'
  · have hbusy : ¬ s.host.reeq.isNone = true := by simp [hb]
    refine ⟨(s.modHost fun l => { l with reeq := none }).goRefused pgHlk gReeq 6, ?_, ?_, ?_, ?_, (Upd.after goRefused_upd rfl <| Upd.after modHost_upd rfl .refl).frame⟩
    · exact congrArg Host.Outcome.next (if_neg hbusy)
    · rw [goRefused, wrs_cons, wrs_cons, wrs_nil, rd_wr_sep _ _ _ _ _ _ rfl rfl rfl]
      exact rd_wr_fit _ _ rfl (by decide)
    · exact rd_wr_fit _ _ rfl (by decide)
    · exact congrArg HostLink.reeq (goRefused_upd.frame .host (by decide))
  · exact congrArg Host.Outcome.next (if_pos (by rw [hb]; rfl))
  · obtain ⟨h1, h2, h3, h4, h5⟩ := fmcEnd_busy s h (count := min 0xFFFFFF n) (stat := fmRefLost) hb (by omega) (by decide)
    exact ⟨_, rfl, h1, h2, h4, h3, h5, fmcEnd_upd.frame⟩
  · exact congrArg Host.Outcome.next (if_neg (by simp [on, hb]))
  · obtain ⟨hf, hu⟩ := retrainFail_counts w now.toNat hst hlane
    exact ⟨_, rfl, hf, hu.frame⟩
  · obtain ⟨v, hover, hop⟩ : ∃ v : State, (v.course.enum = 0 ∧ v.course.failed = true ∧ v.course.map = s.clearRing.course.map) ∧
        s.enumLate = v.pgErr pgCrs 0x33 0 := ⟨_, enumOver_reads s.clearRing, if_neg he⟩
    have hcourse : (v.pgErr pgCrs 0x33 0).course = v.course := pgErr_upd.frame .course (by decide)
    rw [← hcourse, clearRing_map, ← hop] at hover
    obtain ⟨henum, hfailed, hmap⟩ := hover
    exact ⟨_, rfl, henum, hfailed, hmap, enumLate_upd.frame⟩

end Sys2Proof.Machine
end

section
/-! PROOFS. O21: memory windows, patrol, zeroing and reclaim -/

namespace Sys2Proof.Machine

namespace Tbl

theorem slice_splice_self {V : Type} (t : Tbl V) (a n : Nat) : slice (splice t a n []) a n = [] := by
  have hnone : ∀ e ∈ splice t a n [], ¬ (a ≤ e.1 ∧ e.1 < a + n) := by
    intro e he
    simp only [splice, List.filter_nil, List.map_nil, List.append_nil, List.mem_append, List.mem_filter, decide_eq_true_eq] at he
    omega
  rw [slice, List.map_eq_nil_iff, List.filter_eq_nil_iff]
  intro e he
  simpa using hnone e he

theorem find_append {V : Type} (t u : Tbl V) (k : Nat) : find (t ++ u) k = (find t k).or (find u k) := by
  induction t with
  | nil => rfl
  | cons e t ih =>
    simp only [List.cons_append, find, ih]
    split <;> rfl

theorem get_splice_nil {V : Type} (t : Tbl V) (d : V) (a n k : Nat) :
    get (splice t a n []) d k = if a ≤ k ∧ k < a + n then d else get t d k := by
  rw [get, get, splice, List.filter_nil, List.map_nil, List.append_nil, find_append,
    find_filter t (fun j => decide (j < a)), find_filter t (fun j => decide (a + n ≤ j))]
  by_cases hlow : k < a
  · rw [if_pos (by simpa using hlow), if_neg (by simp; omega), if_neg (by omega), Option.or_none]
  · by_cases hhigh : a + n ≤ k
    · rw [if_neg (by simpa using hlow), if_pos (by simpa using hhigh), if_neg (by omega), Option.none_or]
    · rw [if_neg (by simpa using hlow), if_neg (by simpa using hhigh), if_pos (by omega)]
      rfl

end Tbl

namespace State
variable {s t u : State}

/-! ## The memory window (R175 to R178) -/

/-- A read of a window whose codewords can be decoded is on its way. -/
theorem windowFetch_issued {id room pos tag va a len : Nat} {c : Crew} {bs : List Byte} (h : (s.readBytes ueWindow a len).1 = some bs) :
    ∃ v, s.readBytes ueWindow a len = (some bs, v) ∧ s.windowFetch id c room pos tag va a len =
      { (v.modRoom room fun x => { x with issued := setBit x.issued tag true }).issue with
        reads := v.reads ++ [⟨id, c.heat, pos, tag, bits va 39 21, v.stamps + 1, bs, false, false, false⟩] } := by
  obtain ⟨v, hv⟩ : ∃ v, s.readBytes ueWindow a len = (some bs, v) := ⟨_, Prod.ext h rfl⟩
  have hrooms : Upd [.rooms] v (v.modRoom room fun x => { x with issued := setBit x.issued tag true }) := modRoom_upd
  have hreads := hrooms.frame .reads (by decide)
  have hstamps := hrooms.frame .stamps (by decide)
  refine ⟨v, hv, ?_⟩
  unfold windowFetch
  rw [hv]
  dsimp only
  generalize v.modRoom room (fun x => { x with issued := setBit x.issued tag true }) = w at hreads hstamps
  have hr : w.issue.reads = v.reads := hreads
  have hs : w.issue.stamps = v.stamps + 1 := congrArg (· + 1) hstamps
  rw [hr, hs]

theorem windowRead_asks {id pos tag va len r : Nat} {c : Crew} {x : Trans} (hroom : s.windowRoom id pos = some (c, r))
    (hfree : (s.room r).issued.testBit tag = false) (hin : inPage va len = true)
    (htrans : s.translate (wingOf r) id c.heat va false = (.ok x, u)) (hgo : u.mustWait id x false = false) :
    s.windowRead id pos tag va len = u.windowFetch id c r pos tag va (x.frame * frameBytes + va % frameBytes) len := by
  have haccess : s.windowAccess id c r pos va (some (tag, len)) [] =
      u.windowFetch id c r pos tag va (x.frame * frameBytes + va % frameBytes) len := by
    unfold windowAccess
    simp only [Option.isNone_some, htrans, hgo, Bool.false_eq_true, if_false]
  unfold windowRead
  rw [hroom]
  dsimp only
  rw [hfree, hin]
  exact haccess

/-! ## Completions (R102, R105, R178) -/

theorem memDone_write {id heat : Nat} (hlive : s.crewLive id heat = true) :
    s.memDone id heat none = s.modCrew id fun c => { c with posted := c.posted.tail } :=
  if_neg (by rw [hlive]; decide)

theorem memDone_read {id heat tag : Nat} {r : ReadOut} (hlive : s.crewLive id heat = true)
    (hfind : (s.reads.find? fun r => r.id == id && r.heat == heat && r.pos * 16 + r.tag == tag && !r.arrived) = some r) :
    s.memDone id heat (some tag) =
      if r.discard then { s with reads := s.reads.erase r }
      else if r.kept then { s with reads := s.reads.erase r ++ [{ r with arrived := true }] }
      else ({ s with reads := s.reads.erase r }).deliverRead r := by
  unfold memDone
  rw [if_neg (by rw [hlive]; decide)]
  simp only [hfind]

theorem deliverRead_out (s : State) (r : ReadOut) : (s.deliverRead r).out = .windowData r.id r.tag r.data :: s.out := by
  obtain ⟨u, hu, hop⟩ : ∃ u : State, Upd [.rooms, .blocks] s u ∧ s.deliverRead r = u.emit (.windowData r.id r.tag r.data) := by
    refine ⟨_, ?_, rfl⟩
    split
    · exact Upd.after windowSends_upd rfl <| Upd.after modRoom_upd rfl .refl
    · exact .refl
  rw [hop]
  exact congrArg (List.cons _) (hu.frame .out (by decide))

/-! ## The patrol (R167) -/

theorem readSector_counts {source sector : Nat} (h : (s.sectorErr sector).length ≤ 2) :
    ∃ u, s.readSector source sector = (some (s.sectorData sector), u) ∧ Upd [.regs] s u := by
  unfold readSector
  generalize (s.sectorErr sector).length = n at h ⊢
  match n, h with
  | 0, _ => exact ⟨s, rfl, .refl⟩
  | 1, _ => exact ⟨_, rfl, bump_upd⟩
  | 2, _ => exact ⟨_, rfl, bump_upd⟩

/-- The patrol's codeword after its read: corrected where it held an error. -/
def patrolled (s : State) (sec : Nat) : State :=
  match s.readSector uePatrol sec with
  | (none, s) => s
  | (some d, s) => if (s.sectorErr sec).isEmpty then s else (s.writePiece uePatrol (sec * 32) d).2

theorem patrolled_corrects {sec : Nat} (herr : (s.sectorErr sec).length ≤ 2) :
    (s.patrolled sec).stackCtl = s.stackCtl ∧ (s.patrolled sec).sectorErr sec = [] ∧
      ∀ a, Tbl.get (s.patrolled sec).mem 0 a = Tbl.get s.mem 0 a := by
  obtain ⟨u, hread, hu⟩ := readSector_counts (source := uePatrol) herr
  have hctl : u.stackCtl = s.stackCtl := hu.frame .stackCtl (by decide)
  have hmem : u.mem = s.mem := hu.frame .mem (by decide)
  have hlen : (s.sectorData sec).length = 32 := Tbl.length_bytes ..
  unfold patrolled
  rw [hread]
  dsimp only
  by_cases hclean : (u.sectorErr sec).isEmpty = true
  · rw [if_pos hclean]
    exact ⟨hctl, List.isEmpty_iff.mp hclean, fun a => by rw [hmem]⟩
  · have hsec : sec * 32 / 32 = sec := by omega
    have hwrite : (u.writePiece uePatrol (sec * 32) (s.sectorData sec)).2 =
        { u with mem := Tbl.putBytes u.mem (sec * 32) (s.sectorData sec), bad := Tbl.splice u.bad (sec * 36) 36 [] } := by
      unfold writePiece
      rw [if_pos hlen, hsec]
    rw [if_neg hclean, hwrite]
    refine ⟨hctl, Tbl.slice_splice_self .., fun a => ?_⟩
    show Tbl.get (Tbl.putBytes u.mem (sec * 32) (s.sectorData sec)) 0 a = _
    rw [hmem]
    exact Tbl.get_putBytes_bytes ..

/-- The patrol reads a sector that can be decoded, and moves on to the next. -/
theorem patrol_reads {k i : Nat} (hhours : s.rd (pgMem k) MEM_PATROL_HOURS ≠ 0) (hserves : s.stackServes k = true)
    (hup : s.memUp (halfOf (k / 2)) = true) (hat : s.stackCtl.patrol.getD k 0 = i) (hlast : i + 1 < 2 ^ 30)
    (herr : (s.sectorErr (k * 2 ^ 30 + i)).length ≤ 2) :
    (s.patrol k).stackCtl.patrol = s.stackCtl.patrol.set k (i + 1) ∧ (s.patrol k).sectorErr (k * 2 ^ 30 + i) = [] ∧
      ∀ a, Tbl.get (s.patrol k).mem 0 a = Tbl.get s.mem 0 a := by
  have hnext : (i + 1) % 2 ^ 30 = i + 1 := Nat.mod_eq_of_lt hlast
  have hgo : ¬ (s.rd (pgMem k) MEM_PATROL_HOURS = 0 ∨ (!s.stackServes k) = true ∨ (!s.memUp (halfOf (k / 2))) = true) := by
    simp [hhours, hserves, hup]
  obtain ⟨hctl, hclean, hmem⟩ := patrolled_corrects herr
  have hop : s.patrol k = { s.patrolled (k * 2 ^ 30 + i) with
      stackCtl := { (s.patrolled (k * 2 ^ 30 + i)).stackCtl with patrol := (s.patrolled (k * 2 ^ 30 + i)).stackCtl.patrol.set k ((i + 1) % 2 ^ 30) } } := by
    unfold patrol
    rw [if_neg hgo, hat]
    exact if_neg (by rw [hnext]; exact Nat.succ_ne_zero i)
  generalize s.patrolled (k * 2 ^ 30 + i) = v at hctl hclean hmem hop
  rw [hnext] at hop
  rw [hop]
  exact ⟨by rw [hctl], hclean, hmem⟩

/-! ## Zeroing and the reclaim walk (R183, R184) -/

theorem get_zeroFrame (s : State) (f a : Nat) :
    Tbl.get (s.zeroFrame f).mem 0 a = if f * frameBytes ≤ a ∧ a < f * frameBytes + frameBytes then 0 else Tbl.get s.mem 0 a :=
  Tbl.get_splice_nil ..

theorem zeroOne_turn {h : Half} (hup : s.memUp h = true)
    (hpool : s.halfZeroed h (s.alloc.get h).turn < s.rd (pgPgt h) PGT_ALOC_CFG_ZPOOL)
    (hfree : s.halfZeroed h (s.alloc.get h).turn < s.halfFree h (s.alloc.get h).turn) :
    ∃ f, s.zeroOne h = ({ (s.drew.zeroFrame f) with frames := Tbl.put (s.drew.zeroFrame f).frames f .zeroed }).modAlloc h fun a =>
      { a with turn := !(s.alloc.get h).turn } := by
  unfold zeroOne
  simp only [hup, hpool, hfree, decide_true, Bool.and_self, if_true]
  exact ⟨_, rfl⟩

theorem reclaimWalk_walks {h : Half} {r : Reclaim} {l : List Reclaim} (hup : s.memUp h = true) (hnext : (s.alloc.get h).reclaim = r :: l) :
    ∃ u : State, s.reclaimWalk h = u.modAlloc h fun a => { a with reclaim := l } := by
  unfold reclaimWalk
  simp only [hup, hnext, if_true]
  exact ⟨_, rfl⟩

/-! ## A write of the window (R176) -/

theorem windowWrite_posts {id pos va r : Nat} {c : Crew} {bs : List Byte} {x : Trans} (hroom : s.windowRoom id pos = some (c, r))
    (hin : inPage va bs.length = true) (htlb : s.tlbFind (wingOf r) id c.heat (bits va 39 21) = some x) (hw : x.w = true)
    (hgo : s.mustWait id x true = false) {v : State}
    (hwrite : s.writeBytes ueWindow (x.frame * frameBytes + va % frameBytes) bs = (true, v)) :
    s.windowWrite id pos va bs = v.issue.modCrew id fun c => { c with posted := c.posted ++ [(bits va 39 21, v.issueStamp)] } := by
  have htrans : s.translate (wingOf r) id c.heat va true = (.ok x, s) := by
    unfold translate
    simp [htlb, hw]
  have hpost : s.windowPost id r va (x.frame * frameBytes + va % frameBytes) bs =
      v.issue.modCrew id fun c => { c with posted := c.posted ++ [(bits va 39 21, v.issueStamp)] } := by
    unfold windowPost
    rw [hwrite]
    exact if_pos rfl
  have haccess : s.windowAccess id c r pos va none bs = s.windowPost id r va (x.frame * frameBytes + va % frameBytes) bs := by
    unfold windowAccess
    simp only [Option.isNone_none, htrans, hgo, Bool.false_eq_true, if_false]
  unfold windowWrite
  rw [hroom]
  exact (if_pos hin).trans (haccess.trans hpost)

theorem crew_of_windowRoom {id pos r : Nat} {c : Crew} (h : s.windowRoom id pos = some (c, r)) : s.crew id = some c := by
  unfold windowRoom at h
  split at h
  · exact absurd h nofun
  · rename_i c' hc
    split at h
    · obtain ⟨r', -, hr⟩ := Option.bind_eq_some_iff.mp h
      split at hr
      · rw [hc, (Prod.mk.inj (Option.some.inj hr)).1]
      · exact absurd hr nofun
    · exact absurd h nofun

end State
open State

/-- Settles O21. -/
theorem pagingAct : Obligations.PagingAct := by
  refine ⟨fun s u id p g va n c r x bs hroom hfree hin htrans hgo hread => ?_, fun s id p va bs c r x hroom hin htlb hw hgo herr => ?_,
    fun s id h c hlive hc => ?_, fun s id h g r hlive hfind => ⟨fun hd => ?_, fun hd hk => ?_, fun hd hk => ?_⟩, fun s id h hlive => ?_,
    fun s k i hhours hserves hup hat hlast herr => ?_, fun s h hup hpool hfree => ?_, fun s h r l hup hnext => ?_⟩
  · obtain ⟨v, hv, hfetch⟩ := windowFetch_issued (id := id.toNat) (room := r) (pos := p.toNat) (tag := g.toNat) (va := va.toNat) (c := c) hread
    have htup := translate_upd (s := s) (w := wingOf r) (id := id.toNat) (heat := c.heat) (va := va.toNat) (write := false)
    rw [htrans] at htup
    have hvup := readBytes_upd (s := u) (source := ueWindow) (a := x.frame * frameBytes + va.toNat % frameBytes) (n := n.toNat)
    rw [hv] at hvup
    have hreads : v.reads = s.reads := (hvup.frame .reads (by decide)).trans (htup.frame .reads (by decide))
    have hstamps : v.stamps = s.stamps := (hvup.frame .stamps (by decide)).trans (htup.frame .stamps (by decide))
    have hmem : v.mem = u.mem := hvup.frame .mem (by decide)
    rw [hreads, hstamps] at hfetch
    have hmod : Upd [.rooms] v (v.modRoom r fun x => { x with issued := setBit x.issued g.toNat true }) := modRoom_upd
    have hroom' : r % 256 < 192 → ((v.modRoom r fun x => { x with issued := setBit x.issued g.toNat true }).room r).issued.testBit g.toNat = true := by
      intro hr
      rw [room_modRoom v hr]
      exact (testBit_setBit ..).trans (if_pos rfl)
    refine ⟨_, congrArg Host.Outcome.next ((windowRead_asks hroom hfree hin htrans hgo).trans hfetch), rfl, ?_, hroom', ?_⟩
    · exact congrArg (· + 1) ((hmod.frame .stamps (by decide)).trans hstamps)
    · exact (hmod.frame .mem (by decide)).trans hmem
  · obtain ⟨v, hwrite, hwrote⟩ := writeBytes_corrected ueWindow herr
    have hvup := writeBytes_upd (s := s) (source := ueWindow) (a := x.frame * frameBytes + va.toNat % frameBytes) (bs := bs)
    rw [hwrite] at hvup
    have hc : v.issue.crew id.toNat = some c :=
      (crew_of_crews (hvup.frame .crews (by decide)) _).trans (crew_of_windowRoom hroom)
    have hstamp : v.issueStamp = s.stamps + 1 := congrArg (· + 1) (hvup.frame .stamps (by decide))
    refine ⟨_, congrArg Host.Outcome.next (windowWrite_posts hroom hin htlb hw hgo hwrite), ?_, hwrote.mem, ?_⟩
    · rw [crew_modCrew hc, hstamp]
    · exact (Upd.after modCrew_upd rfl <| Upd.after issue_upd rfl <| Upd.after hvup rfl .refl).frame
  · exact ⟨_, congrArg Host.Outcome.next (memDone_write hlive), crew_modCrew hc _, modCrew_upd.frame⟩
  · exact congrArg Host.Outcome.next ((memDone_read hlive hfind).trans (if_pos hd))
  · exact congrArg Host.Outcome.next ((memDone_read hlive hfind).trans ((if_neg (by rw [hd]; decide)).trans (if_pos hk)))
  · have hop := (memDone_read hlive hfind).trans ((if_neg (by rw [hd]; decide)).trans (if_neg (by rw [hk]; decide)))
    have hid : r.id = id.toNat := by
      have := List.find?_some hfind
      simp only [Bool.and_eq_true, beq_iff_eq] at this
      exact this.1.1.1
    refine ⟨_, congrArg Host.Outcome.next hop, ?_, ?_, ?_⟩
    · rw [deliverRead_out, hid]
    · exact deliverRead_upd.frame .reads (by decide)
    · exact (Upd.after deliverRead_upd rfl <| Upd.reads .refl rfl).frame
  · refine ⟨_, congrArg Host.Outcome.next (if_pos (by rw [hlive]; rfl)), rd_bump _ _ rfl, bump_upd.frame⟩
  · obtain ⟨hpatrol, hclean, hmem⟩ := patrol_reads hhours hserves hup hat hlast herr
    exact ⟨_, rfl, hpatrol, hclean, hmem, patrol_upd.frame⟩
  · obtain ⟨f, hop⟩ := zeroOne_turn hup hpool hfree
    refine ⟨s.zeroOne h, f, rfl, ?_, ?_, ?_, zeroOne_upd.frame⟩
    · rw [hop]
      exact (Tbl.find_put ..).trans (if_pos rfl)
    · rw [hop]
      exact get_zeroFrame s.drew f
    · rw [hop]
      exact congrArg Alloc.turn (Both.get_set_same ..)
  · obtain ⟨u, hop⟩ := reclaimWalk_walks hup hnext
    have halloc : (s.reclaimWalk h).alloc = u.alloc.set h { u.alloc.get h with reclaim := l } := congrArg State.alloc hop
    refine ⟨_, rfl, ?_, reclaimWalk_upd.frame .mem (by decide), reclaimWalk_upd.frame .crews (by decide)⟩
    rw [halloc, Both.get_set_same]

end Sys2Proof.Machine
end

section
/-! PROOFS. O22: self-test slices and the scrubber -/

namespace Sys2Proof.Machine

/-! ## The GO registers of Table 12.6 -/

/-- STATUS, SEQ and REASON of a GO register are fields of their own. -/
def GoFlds.good (g : GoFlds) : Bool :=
  g.status.ok && g.seq.ok && g.reason.ok && g.status.sep g.reason && g.reason.sep g.status && g.seq.sep g.status && g.seq.sep g.reason &&
    g.status.hi - g.status.lo == 1 && g.seq.hi - g.seq.lo == 3 && g.reason.hi - g.reason.lo == 3

/-- A field that shares no bit with STATUS, SEQ and REASON. -/
def GoFlds.apart (g : GoFlds) (f : Fld) : Bool := f.ok && f.sep g.status && f.sep g.seq && f.sep g.reason

namespace State
variable {s t u : State} {p : Nat} {g : GoFlds}

theorem goBusy_reads (s : State) (p : Nat) (hg : g.good = true) : (s.goBusy p g).rd p g.status = 1 ∧ (s.goBusy p g).rd p g.reason = 0 ∧
    (s.goBusy p g).rd p g.seq = (s.rd p g.seq + 1) % 16 := by
  simp only [GoFlds.good, Bool.and_eq_true, beq_iff_eq] at hg
  obtain ⟨⟨⟨⟨⟨⟨⟨⟨⟨hs, hq⟩, hr⟩, hsr⟩, -⟩, hqs⟩, hqr⟩, hs2⟩, hq4⟩, hr4⟩ := hg
  unfold goBusy
  rw [wrs_cons, wrs_cons, wrs_nil]
  refine ⟨?_, ?_, ?_⟩
  · rw [rd_wr_sep _ _ _ _ _ _ hsr hs hr, rd_wr_fit _ _ hs (by rw [hs2]; decide)]
  · exact rd_wr_fit _ _ hr (Nat.two_pow_pos _)
  · rw [rd_wr_sep _ _ _ _ _ _ hqr hq hr, rd_wr_sep _ _ _ _ _ _ hqs hq hs, rd_step1 _ _ hq, hq4]
    rfl

/-- An operation's end in its GO register. -/
theorem goEnd_reads (s : State) (p : Nat) (hg : g.good = true) {status reason : Nat} (hst : status < 4) (hre : reason < 16) :
    (s.wrs p [(g.status, status), (g.reason, reason)]).rd p g.status = status ∧
      (s.wrs p [(g.status, status), (g.reason, reason)]).rd p g.reason = reason := by
  simp only [GoFlds.good, Bool.and_eq_true, beq_iff_eq] at hg
  obtain ⟨⟨⟨⟨⟨⟨⟨⟨⟨hs, hq⟩, hr⟩, hsr⟩, -⟩, hqs⟩, hqr⟩, hs2⟩, hq4⟩, hr4⟩ := hg
  rw [wrs_cons, wrs_cons, wrs_nil]
  refine ⟨?_, ?_⟩
  · rw [rd_wr_sep _ _ _ _ _ _ hsr hs hr, rd_wr_fit _ _ hs (by rw [hs2]; omega)]
  · exact rd_wr_fit _ _ hr (by rw [hr4]; omega)

theorem rd_goBusy_apart (s : State) (p q : Nat) {f : Fld} (hf : g.apart f = true) (hg : g.good = true) : (s.goBusy q g).rd p f = s.rd p f := by
  simp only [GoFlds.good, Bool.and_eq_true, beq_iff_eq] at hg
  obtain ⟨⟨⟨⟨⟨⟨⟨⟨⟨hs, hq⟩, hr⟩, -⟩, -⟩, -⟩, -⟩, -⟩, -⟩, -⟩ := hg
  simp only [GoFlds.apart, Bool.and_eq_true] at hf
  obtain ⟨⟨⟨hf, hfs⟩, hfq⟩, hfr⟩ := hf
  unfold goBusy
  rw [wrs_cons, wrs_cons, wrs_nil, rd_wr_sep _ _ _ _ _ _ hfr hf hr, rd_wr_sep _ _ _ _ _ _ hfs hf hs, rd_step1_sep _ _ _ hfq hf hq]

theorem rd_goEnd_apart (s : State) (p q status reason : Nat) {f : Fld} (hf : g.apart f = true) (hg : g.good = true) :
    (s.wrs q [(g.status, status), (g.reason, reason)]).rd p f = s.rd p f := by
  simp only [GoFlds.good, Bool.and_eq_true, beq_iff_eq] at hg
  obtain ⟨⟨⟨⟨⟨⟨⟨⟨⟨hs, hq⟩, hr⟩, -⟩, -⟩, -⟩, -⟩, -⟩, -⟩, -⟩ := hg
  simp only [GoFlds.apart, Bool.and_eq_true] at hf
  obtain ⟨⟨⟨hf, hfs⟩, hfq⟩, hfr⟩ := hf
  rw [wrs_cons, wrs_cons, wrs_nil, rd_wr_sep _ _ _ _ _ _ hfr hf hr, rd_wr_sep _ _ _ _ _ _ hfs hf hs]

/-! ## Slices (R379 to R386) -/

theorem roomIdle_congr (h : t.rooms = s.rooms) (r : Nat) : t.roomIdle r = s.roomIdle r := by
  unfold roomIdle
  rw [room_of_rooms h]

/-- A slice that BST.REQ waits for starts where nothing else comes before it. -/
theorem sliceStart_asked {h : Half} {r : Nat} {e : Bool} (hmay : s.sliceMay h = true) (hreq : (s.selfTest.get h).req = some (r, e))
    (hidle : s.roomIdle r = true) (hspare : s.wingSpare r = true)
    (hnone : s.sliceLife = true → ∀ q ∈ halfRooms h, (s.room q).state ≠ .withdrawn) : s.sliceStart h = s.sliceTake h r := by
  have hkept : s.reqGone h = s := by
    unfold reqGone
    rw [hreq]
    refine if_neg fun hret => ?_
    simp [roomIdle, hret] at hidle
  have hdrawn : (if s.sliceLife then
      (halfRooms h).find? fun r => (s.room r).state == .withdrawn && s.roomIdle r && s.wingSpare r else none) = none := by
    split
    · rename_i hlife
      rw [List.find?_eq_none]
      intro q hq
      simp [hnone hlife q hq]
    · rfl
  unfold sliceStart
  rw [hkept]
  dsimp only
  rw [if_neg (by rw [hmay]; decide), hdrawn, hreq]
  simp only [hidle, hspare, Bool.and_self, if_true]

theorem sliceTake_asked (s : State) {h : Half} {r : Nat} {e : Bool} (hreq : (s.selfTest.get h).req = some (r, e)) :
    s.sliceTake h r = (s.modRoom r fun y =>
        { y with state := .lent, svalid := false, edgeN := .isolate, edgeE := .isolate, edgeS := .isolate, edgeW := .isolate }).modTest h
      fun t => { t with slices := t.slices ++ [⟨r, s.testParts h, (s.room r).failAs, true, e⟩], req := none } := by
  unfold sliceTake
  simp only [hreq, if_true, Option.isSome_some, Option.getD_some]

theorem retireRoom_rooms (s : State) (r code : Nat) : (s.retireRoom r code).rooms =
    (s.modRoom r fun x => { x with state := .retired, retire := code, crew := 0, heat := 0, pos := 0 }).rooms := by
  unfold retireRoom
  dsimp only
  split
  · rfl
  · split
    · rfl
    · rfl

/-- The result words and events of a slice's report. -/
def reported (s : State) (r bad parts ticks : Nat) : State :=
  let p := pgBst (roomHalf r)
  let s := (((s.step1 p BST_RESULT0_SEQ).step1 p BST_RESULT1_SEQ).wrs p
    [(BST_RESULT0_VALID, 1), (BST_RESULT0_PASS, bit (bad == 0)), (BST_RESULT0_COVER, parts), (BST_RESULT0_FAILED, bad),
     (BST_RESULT0_ROOM, r), (BST_RESULT1_VALID, 1), (BST_RESULT1_DURATION, min 0xFFFF ticks)]).raise p 0
  if bad = 0 then s else s.raise p 1

theorem reported_upd {r bad parts ticks : Nat} : Upd [.regs, .out, .host, .cox] s (s.reported r bad parts ticks) := by
  unfold reported
  refine Upd.ite ?_ (Upd.after raise_upd rfl ?_)
  all_goals exact Upd.after raise_upd rfl <| Upd.after wrs_upd rfl <| Upd.after step1_upd rfl <| Upd.after step1_upd rfl .refl

theorem reported_reads (s : State) {r : Nat} (bad parts ticks : Nat) (hr : r < 4096) :
    (s.reported r bad parts ticks).rd (pgBst (roomHalf r)) BST_RESULT0_VALID = 1 ∧
    (s.reported r bad parts ticks).rd (pgBst (roomHalf r)) BST_RESULT0_PASS = bit (bad == 0) ∧
    (s.reported r bad parts ticks).rd (pgBst (roomHalf r)) BST_RESULT0_ROOM = r ∧
    (s.reported r bad parts ticks).rd (pgBst (roomHalf r)) BST_RESULT0_FAILED = bad % 16 ∧
    (s.reported r bad parts ticks).rd (pgBst (roomHalf r)) BST_RESULT1_DURATION = min 0xFFFF ticks ∧
    (s.reported r bad parts ticks).rd (pgBst (roomHalf r)) BST_RESULT0_SEQ = (s.rd (pgBst (roomHalf r)) BST_RESULT0_SEQ + 1) % 16 ∧
    ((s.reported r bad parts ticks).rd (pgBst (roomHalf r)) PG_IRQ_RAW).testBit 0 = true := by
  generalize hp : pgBst (roomHalf r) = p
  obtain ⟨u, hu, hop⟩ : ∃ u : State, u = ((s.step1 p BST_RESULT0_SEQ).step1 p BST_RESULT1_SEQ).wrs p
      [(BST_RESULT0_VALID, 1), (BST_RESULT0_PASS, bit (bad == 0)), (BST_RESULT0_COVER, parts), (BST_RESULT0_FAILED, bad),
       (BST_RESULT0_ROOM, r), (BST_RESULT1_VALID, 1), (BST_RESULT1_DURATION, min 0xFFFF ticks)] ∧
      s.reported r bad parts ticks = if bad = 0 then u.raise p 0 else (u.raise p 0).raise p 1 := by
    subst hp
    exact ⟨_, rfl, rfl⟩
  have hsep (f : Fld) (hf : f.ok = true) (h : f.sep PG_IRQ_RAW = true) : (s.reported r bad parts ticks).rd p f = u.rd p f := by
    rw [hop]
    split
    · exact rd_raise_sep _ _ _ _ h hf
    · exact (rd_raise_sep _ _ _ _ h hf).trans (rd_raise_sep _ _ _ _ h hf)
  have hraw : ((s.reported r bad parts ticks).rd p PG_IRQ_RAW).testBit 0 = true := by
    rw [hop]
    split
    · exact raw_raise _ _ (by decide)
    · rw [raw_raise_eq _ _ (by decide), Nat.testBit_or, raw_raise _ _ (by decide), Bool.true_or]
  rw [hsep _ rfl rfl, hsep _ rfl rfl, hsep _ rfl rfl, hsep _ rfl rfl, hsep _ rfl rfl, hsep _ rfl rfl, hu]
  simp only [wrs_cons, wrs_nil]
  refine ⟨?_, ?_, ?_, ?_, ?_, ?_, hraw⟩
  · iterate 6 rw [rd_wr_sep _ _ _ _ _ _ rfl rfl rfl]
    exact rd_wr_fit _ _ rfl (by decide)
  · iterate 5 rw [rd_wr_sep _ _ _ _ _ _ rfl rfl rfl]
    exact rd_wr_fit _ _ rfl (bit_lt_two _)
  · iterate 2 rw [rd_wr_sep _ _ _ _ _ _ rfl rfl rfl]
    exact rd_wr_fit _ _ rfl hr
  · iterate 3 rw [rd_wr_sep _ _ _ _ _ _ rfl rfl rfl]
    exact rd_wr _ _ _ _ rfl
  · exact rd_wr_fit _ _ rfl (by show min 0xFFFF ticks < 65536; omega)
  · iterate 7 rw [rd_wr_sep _ _ _ _ _ _ rfl rfl rfl]
    rw [rd_step1_sep _ _ _ rfl rfl rfl, rd_step1 _ _ rfl]
    rfl

/-- A slice that reports: its room is given back or retired, and the report is written. -/
theorem sliceReport_did {r failed ticks : Nat} {x : Slice} (hfind : ((s.slices (roomHalf r)).find? fun x => x.room == r) = some x)
    (hreq : x.req = false) (hr : r % 256 < 192) :
    ∃ v : State, s.sliceReport r failed ticks =
        (((v.reported r (failed &&& x.parts) x.parts ticks).decision (roomHalf r)).standbyGo).settlePorts ∧
      (v.room r).state = (if failed &&& x.parts = 0 then .free else .retired) ∧ v.regs = s.regs := by
  obtain ⟨w, f, hw, hop⟩ : ∃ (w : State) (f : Room → Room), (w.regs = s.regs ∧ ∀ y, (f y).state = .free) ∧
      s.sliceReport r failed ticks = (((((if failed &&& x.parts = 0 then w.modRoom r f else (w.modRoom r f).retireRoom r x.code).reported r
        (failed &&& x.parts) x.parts ticks)).decision (roomHalf r)).standbyGo).settlePorts := by
    refine ⟨(s.modTest (roomHalf r) fun t => { t with slices := t.slices.erase x }).blankRoom r,
      fun y => { y with state := .free, crew := 0, heat := 0, pos := 0, svalid := false, codeFlag := false, retry := 0, issued := 0, failAs := 2 },
      ⟨(blankRoom_upd.frame .regs (by decide)).trans (modTest_upd.frame .regs (by decide)), fun _ => rfl⟩, ?_⟩
    unfold sliceReport
    simp only [hfind, hreq, Bool.false_eq_true, if_false]
    rfl
  obtain ⟨hregs, hfree⟩ := hw
  refine ⟨_, hop, ?_, ?_⟩
  · split
    · rw [room_modRoom w hr, hfree]
    · rw [room_of_rooms (retireRoom_rooms ..), room_modRoom _ hr]
  · split
    · exact (modRoom_upd.frame .regs (by decide)).trans hregs
    · exact (retireRoom_upd.frame .regs (by decide)).trans ((modRoom_upd.frame .regs (by decide)).trans hregs)

/-! ## BST.REQ (R386) -/

/-- The state in which a request of BST.REQ is checked. -/
def bstAsked (s : State) (h : Half) (arg : Nat) : State := (s.wr (pgBst h) BST_REQ_ARG arg).goBusy (pgBst h) gBst

theorem bstAsked_upd {h : Half} {arg : Nat} : Upd [.regs] s (s.bstAsked h arg) := Upd.after goBusy_upd rfl wr_upd

theorem rd_bstAsked (s : State) (h : Half) (arg p : Nat) {f : Fld} (hf : gBst.apart f = true) (harg : f.sep BST_REQ_ARG = true) :
    (s.bstAsked h arg).rd p f = s.rd p f := by
  have hok : f.ok = true := by
    simp only [GoFlds.apart, Bool.and_eq_true] at hf
    exact hf.1.1.1
  rw [bstAsked, rd_goBusy_apart _ _ _ hf rfl, rd_wr_sep _ _ _ _ _ _ harg hok rfl]

theorem bstReq_takes {m : Master} {h : Half} (ht : s.Takes m (pgBst h) 0x44) (hidle : s.rd (pgBst h) BST_REQ_STATUS ≠ 1)
    (hgate : s.gateOpen h .bst = true) (arg : Nat) : s.bstReq m h arg = (s.bstAsked h arg).bstGo h arg := by
  have hopen : (s.wr (pgBst h) BST_REQ_ARG arg).gateOpen h .bst = s.gateOpen h .bst := by
    have hrd : (s.wr (pgBst h) BST_REQ_ARG arg).rd (pgClk h) CLK_GATE_BST = s.rd (pgClk h) CLK_GATE_BST :=
      rd_wr_sep _ _ _ _ _ _ rfl rfl rfl
    unfold gateOpen
    rw [show gateFld .bst = CLK_GATE_BST from rfl, hrd]
    rfl
  have hst : (s.wr (pgBst h) BST_REQ_ARG arg).rd (pgBst h) BST_REQ_STATUS = s.rd (pgBst h) BST_REQ_STATUS :=
    rd_wr_sep _ _ _ _ _ _ rfl rfl rfl
  refine (goTo_of_takes_store ht (store := fun s => s.wr (pgBst h) BST_REQ_ARG arg) ?_ _).trans (if_neg ?_)
  · exact congrArg (· == 1) (rd_wr_sep _ _ _ _ _ _ rfl rfl rfl)
  · rw [hst, hopen, hgate]
    simp [hidle]

theorem lifeCycle_bstAsked (s : State) (h : Half) (arg : Nat) : (s.bstAsked h arg).lifeCycle = s.lifeCycle :=
  rd_bstAsked _ _ _ _ rfl rfl

theorem bstGo_accepts {h : Half} {arg : Nat} (h0 : s.lifeCycle ≠ 0) (hend : s.lifeCycle ≠ lcEnd) (harg : arg < 0x2000)
    (hhalf : roomHalf (arg % 4096) = h) (hidle : s.roomIdle (arg % 4096) = true) :
    (s.bstAsked h arg).bstGo h arg = (s.bstAsked h arg).modTest h fun t => { t with req := some (arg % 4096, false) } := by
  have hlc := lifeCycle_bstAsked s h arg
  have hroom : (s.bstAsked h arg).roomIdle (arg % 4096) = s.roomIdle (arg % 4096) := roomIdle_congr (bstAsked_upd.frame .rooms (by decide)) _
  unfold bstGo
  rw [if_neg (by rw [hlc]; exact not_or.mpr ⟨h0, hend⟩), if_neg (by omega), if_neg (not_not_intro hhalf), if_pos (hroom.trans hidle)]

theorem bstEnd_refused (s : State) (h : Half) (reason : Nat) :
    s.bstEnd h false (reason + 1) = (s.goRefused (pgBst h) gBst (reason + 1)).raise (pgBst h) 2 := by
  unfold bstEnd
  simp only [Nat.succ_ne_zero, Bool.false_eq_true, if_false]

theorem bstGo_refuses {h : Half} {arg : Nat} (h0 : s.lifeCycle ≠ 0) (hend : s.lifeCycle ≠ lcEnd) (harg : 0x2000 ≤ arg) :
    (s.bstAsked h arg).bstGo h arg = ((s.bstAsked h arg).goRefused (pgBst h) gBst urBadArg).raise (pgBst h) 2 := by
  have hlc := lifeCycle_bstAsked s h arg
  unfold bstGo
  rw [if_neg (by rw [hlc]; exact not_or.mpr ⟨h0, hend⟩), if_pos harg]
  exact bstEnd_refused _ _ 0

/-! ## The scrubber (R389 to R394) -/

theorem plane_congr (hf : t.fabric = s.fabric) (a : Bool) (r n k : Nat) : t.plane a r n k = s.plane a r n k := by
  unfold plane
  rw [hf]

theorem refOf_congr (hr : t.refs = s.refs) (a : Nat) : t.refOf a = s.refOf a := by
  unfold refOf
  rw [hr]

theorem scrubCheck_agrees {r f : Nat}
    (hcrc : crc16 (s.plane (s.room r).active r (f * 512) 512) = s.refOf (planeFrame (s.room r).active r f)) : s.scrubCheck r f = s := by
  unfold scrubCheck
  dsimp only
  split
  · rfl
  · exact if_pos hcrc

theorem scrubFrame_agrees {r f : Nat} (hflag : (s.room r).codeFlag = false)
    (hcrc : crc16 (s.plane (s.room r).active r (f * 512) 512) = s.refOf (planeFrame (s.room r).active r f)) :
    s.scrubFrame r f [] = s ∨ ∃ g, s.scrubFrame r f [] = s.modTest (roomHalf r) g := by
  unfold scrubFrame
  dsimp only [flipBits, List.foldl_nil]
  by_cases hout : (!roomOk r || decide (180 ≤ f)) = true
  · exact .inl (if_pos hout)
  rw [if_neg hout]
  split
  · exact .inl rfl
  · refine .inr ⟨fun t => { t with scrubAt := r * 180 + f + 1 }, ?_⟩
    rw [if_neg (fun h => by
      have hc : (s.room r).codeFlag = true := h.2.1
      rw [hflag] at hc
      exact Bool.false_ne_true hc)]
    exact scrubCheck_agrees hcrc

/-- A frame of a G2 room that the scrubber's pass has come to is checked. -/
theorem scrubFrame_checks {r f : Nat} (hok : roomOk r = true) (hf : f < 180) (hen : s.on (pgScr (roomHalf r)) SCR_CFG_EN = true)
    (hgate : s.gateOpen (roomHalf r) .scr = true) (hserv : inService (s.mode (roomHalf r)) = true) (hg : (s.room r).state = .g2)
    (hat : (s.selfTest.get (roomHalf r)).scrubAt ≤ r * 180 + f) :
    s.scrubFrame r f [] = (s.modTest (roomHalf r) fun t => { t with scrubAt := r * 180 + f + 1 }).scrubCheck r f := by
  unfold scrubFrame
  dsimp only [flipBits, List.foldl_nil]
  rw [if_neg (by simp [hok, hf]), if_neg (by simp [hen, hgate, hserv, hg, hat]), if_neg (fun h => by
    have hocc : (s.room r).state = .occupied := h.2.2
    rw [hg] at hocc
    exact nomatch hocc)]

/-- The log and counts of a repaired upset. -/
def upsetLog (s : State) (r frame diff : Nat) (ess : Bool) : State :=
  let p := pgScr (roomHalf r)
  let s := (((s.step1 p SCR_LOG_SEQ).wrs p
    [(SCR_LOG_VALID, 1), (SCR_LOG_ESSENTIAL, bit ess), (SCR_LOG_UNREPAIRED, 0), (SCR_LOG_BITS, min 15 diff),
     (SCR_LOG_ROOM, r), (SCR_LOG_FRAME, frame)]).raise p 0).bump p SCR_COUNTS_REPAIRED
  if ess then (s.bump p SCR_COUNTS_ESSENTIAL).raise p 1 else s

theorem upsetLog_upd {r frame diff : Nat} {ess : Bool} : Upd [.regs, .out, .host, .cox] s (s.upsetLog r frame diff ess) := by
  unfold upsetLog
  refine Upd.ite (Upd.after raise_upd rfl <| Upd.after bump_upd rfl ?_) ?_
  all_goals exact Upd.after bump_upd rfl <| Upd.after raise_upd rfl <| Upd.after wrs_upd rfl <| Upd.after step1_upd rfl .refl

theorem upset_g2 {r frame diff : Nat} (ess : Bool) (hg : (s.room r).state = .g2) : s.upset r frame diff ess false =
    ((s.upsetLog r frame diff ess).bump pgG2c G2C_UPSETS_COUNT).raise pgG2c 3 := by
  have hroom : ((s.upsetLog r frame diff ess).room r).state = .g2 := by
    rw [room_of_rooms (upsetLog_upd.frame .rooms (by decide)), hg]
  have hdef : s.upset r frame diff ess false = if ((s.upsetLog r frame diff ess).room r).state = .g2 then
      ((s.upsetLog r frame diff ess).bump pgG2c G2C_UPSETS_COUNT).raise pgG2c 3
      else if ess then (s.upsetLog r frame diff ess).essentialUpset r (planeFrame ((s.upsetLog r frame diff ess).room r).active r frame)
      else s.upsetLog r frame diff ess := by
    unfold upset upsetLog
    simp only [Bool.false_eq_true, if_false, show bit false = 0 from rfl]
  rw [hdef, if_pos hroom]

theorem upsetLog_reads (s : State) {r frame : Nat} (diff : Nat) (ess : Bool) (hr : r < 4096) (hf : frame < 256) :
    (s.upsetLog r frame diff ess).rd (pgScr (roomHalf r)) SCR_LOG_ROOM = r ∧
    (s.upsetLog r frame diff ess).rd (pgScr (roomHalf r)) SCR_LOG_FRAME = frame ∧
    (s.upsetLog r frame diff ess).rd (pgScr (roomHalf r)) SCR_LOG_UNREPAIRED = 0 ∧
    (s.upsetLog r frame diff ess).rd (pgScr (roomHalf r)) SCR_LOG_BITS = min 15 diff ∧
    (s.upsetLog r frame diff ess).rd pgG2c G2C_UPSETS_COUNT = s.rd pgG2c G2C_UPSETS_COUNT := by
  generalize hp : pgScr (roomHalf r) = p
  obtain ⟨u, v, hu, hv, hop⟩ : ∃ u v : State, u = (s.step1 p SCR_LOG_SEQ).wrs p
      [(SCR_LOG_VALID, 1), (SCR_LOG_ESSENTIAL, bit ess), (SCR_LOG_UNREPAIRED, 0), (SCR_LOG_BITS, min 15 diff),
       (SCR_LOG_ROOM, r), (SCR_LOG_FRAME, frame)] ∧ v = (u.raise p 0).bump p SCR_COUNTS_REPAIRED ∧
      s.upsetLog r frame diff ess = if ess then (v.bump p SCR_COUNTS_ESSENTIAL).raise p 1 else v := by
    subst hp
    exact ⟨_, _, rfl, rfl, rfl⟩
  have hsep (q : Nat) (f : Fld) (hf : f.ok = true) (h : f.sep PG_IRQ_RAW = true) (h1 : f.sep SCR_COUNTS_REPAIRED = true)
      (h2 : f.sep SCR_COUNTS_ESSENTIAL = true) : (s.upsetLog r frame diff ess).rd q f = u.rd q f := by
    have hvu : v.rd q f = u.rd q f := by rw [hv, rd_bump_sep _ _ _ h1 hf rfl, rd_raise_sep _ _ _ _ h hf]
    rw [hop]
    split
    · rw [rd_raise_sep _ _ _ _ h hf, rd_bump_sep _ _ _ h2 hf rfl, hvu]
    · exact hvu
  rw [hsep _ _ rfl rfl rfl rfl, hsep _ _ rfl rfl rfl rfl, hsep _ _ rfl rfl rfl rfl, hsep _ _ rfl rfl rfl rfl, hsep _ _ rfl rfl rfl rfl, hu]
  simp only [wrs_cons, wrs_nil]
  refine ⟨?_, ?_, ?_, ?_, ?_⟩
  · iterate 1 rw [rd_wr_sep _ _ _ _ _ _ rfl rfl rfl]
    exact rd_wr_fit _ _ rfl hr
  · exact rd_wr_fit _ _ rfl hf
  · iterate 3 rw [rd_wr_sep _ _ _ _ _ _ rfl rfl rfl]
    exact rd_wr_fit _ _ rfl (by decide)
  · iterate 2 rw [rd_wr_sep _ _ _ _ _ _ rfl rfl rfl]
    exact rd_wr_fit _ _ rfl (by show min 15 diff < 16; omega)
  · iterate 6 rw [rd_wr_sep _ _ _ _ _ _ rfl rfl rfl]
    exact rd_step1_sep _ _ _ rfl rfl rfl

/-- A frame of a G2 room whose bytes have changed is repaired from its image. -/
theorem scrubCheck_repairs {r f : Nat} {img : List Byte} (hg : (s.room r).state = .g2)
    (hread : s.readBytes ueScrub (s.g2Addr r false + f * 512) 512 = (some img, u))
    (himg : crc16 img = s.refOf (planeFrame (s.room r).active r f))
    (hbad : crc16 (s.plane (s.room r).active r (f * 512) 512) ≠ s.refOf (planeFrame (s.room r).active r f)) :
    s.scrubCheck r f = ({ u with fabric := Tbl.putBytes u.fabric (frameKey (planeFrame (s.room r).active r 0) + f * 512) img } : State).upset
      r f (bitsOff (s.plane (s.room r).active r (f * 512) 512) img)
        (!(bytesOff (s.plane (s.room r).active r (f * 512) 512) img).isEmpty) false := by
  have himage : s.imageOf r f = some (s.g2Addr r false + f * 512, none) := by
    unfold imageOf
    simp only [hg]
  unfold scrubCheck
  rw [himage]
  dsimp only
  rw [if_neg hbad, hread]
  dsimp only
  rw [if_pos himg]
  dsimp only [essential]

end State
open State

/-- Settles O22. -/
theorem slicesAndScrubAct : Obligations.SlicesAndScrubAct := by
  unfold Obligations.SlicesAndScrubAct
  refine ⟨fun s h r e hmay hreq hr hidle hspare hnone => ?_, fun s r failed n x hfind hreq hr => ?_,
    fun s m h arg ht hst hgate h0 hend harg hhalf hidle => ?_, fun s m h arg ht hst hgate h0 hend harg => ?_, fun s h n hn => ?_,
    fun s h => ?_, fun s r f hflag hcrc => ?_,
    fun s u r f img hr hf hen hgate hserv hg hat hread himg hbad => ?_⟩
  · have hop := (sliceStart_asked hmay hreq hidle hspare hnone).trans (sliceTake_asked s hreq)
    have hroom := room_modRoom s hr fun y =>
        { y with state := .lent, svalid := false, edgeN := .isolate, edgeE := .isolate, edgeS := .isolate, edgeW := .isolate }
    have hupd : Upd [.rooms] s (s.modRoom r fun y =>
        { y with state := .lent, svalid := false, edgeN := .isolate, edgeE := .isolate, edgeS := .isolate, edgeW := .isolate }) := modRoom_upd
    generalize (s.modRoom r fun y =>
        { y with state := .lent, svalid := false, edgeN := .isolate, edgeE := .isolate, edgeS := .isolate, edgeW := .isolate }) = v at hop hroom hupd
    have hslices : v.slices h = s.slices h := by
      unfold slices
      rw [hupd.frame .selfTest (by decide)]
    have hroom' (g : SelfTest → SelfTest) : (v.modTest h g).room r = v.room r := room_of_rooms (modTest_upd.frame .rooms (by decide)) r
    refine ⟨_, congrArg Host.Outcome.next hop, ?_, ?_, ?_, ?_, ?_, ?_, ?_, congrArg SelfTest.req (Both.get_set_same ..),
      (Upd.after modTest_upd rfl <| Upd.after hupd rfl .refl).frame⟩
    iterate 6 rw [hroom', hroom]
    rw [← hslices]
    exact congrArg SelfTest.slices (Both.get_set_same ..)
  · obtain ⟨v, hop, hstate, hregs⟩ := sliceReport_did (failed := failed.toNat) (ticks := n.toNat) hfind hreq hr
    obtain ⟨hvalid, hpass, hroom, hfailed, hdur, hseq, hraw⟩ := reported_reads v (failed.toNat &&& x.parts) x.parts n.toNat r.isLt
    refine ⟨_, congrArg Host.Outcome.next hop, ?_, hvalid, hpass, hroom, hfailed, hdur, ?_, hraw⟩
    · rw [room_of_rooms (reported_upd.frame .rooms (by decide)), hstate]
    · rw [hseq, rd_congr hregs]
  · have hop := (bstReq_takes ht hst hgate arg.toNat).trans (bstGo_accepts h0 hend harg hhalf hidle)
    obtain ⟨hbusy, -, hseq⟩ := goBusy_reads (s.wr (pgBst h) BST_REQ_ARG arg.toNat) (pgBst h) (g := gBst) rfl
    refine ⟨_, congrArg Host.Outcome.next hop, congrArg SelfTest.req (Both.get_set_same ..), ?_, ?_, ?_,
      (Upd.after modTest_upd rfl <| Upd.after bstAsked_upd rfl .refl).frame⟩
    · exact (rd_modTest _ _).trans hbusy
    · refine (rd_modTest _ _).trans (hseq.trans ?_)
      rw [rd_wr_sep _ _ _ _ _ _ rfl rfl rfl]
      rfl
    · exact (rd_modTest _ _).trans ((rd_goBusy_apart _ _ _ rfl rfl).trans (rd_wr_fit _ _ rfl arg.isLt))
  · have hop := (bstReq_takes ht hst hgate arg.toNat).trans (bstGo_refuses h0 hend harg)
    obtain ⟨hst', hre⟩ := goEnd_reads (s.bstAsked h arg.toNat) (pgBst h) (g := gBst) rfl (status := 3) (reason := 1) (by decide) (by decide)
    refine ⟨_, congrArg Host.Outcome.next hop, ?_, ?_, raw_raise _ _ (by decide), ?_⟩
    · exact (rd_raise_sep _ _ _ _ rfl rfl).trans hst'
    · exact (rd_raise_sep _ _ _ _ rfl rfl).trans hre
    · exact (Upd.after raise_upd rfl <| Upd.after goRefused_upd rfl <| Upd.after bstAsked_upd rfl .refl :
        Upd [.regs, .out, .host, .cox] s _).frame .selfTest (by decide)
  · have hn' : n.toNat ≠ 0 := fun h => hn (BitVec.eq_of_toNat_eq h)
    have hop : s.scrubPass h n.toNat =
        ((s.modTest h fun t => { t with scrubAt := 0 }).step1 (pgScr h) SCR_PASS_PASSES).wr (pgScr h) SCR_PASS_LAST_MS n.toNat := if_neg hn'
    refine ⟨_, congrArg Host.Outcome.next hop, rd_wr_fit _ _ rfl n.isLt, ?_, ?_,
      (Upd.after wr_upd rfl <| Upd.after step1_upd rfl <| Upd.after modTest_upd rfl .refl).frame⟩
    · rw [rd_wr_sep _ _ _ _ _ _ rfl rfl rfl, rd_step1 _ _ rfl, rd_modTest]
      rfl
    · have htest := (Upd.after wr_upd rfl <| Upd.after step1_upd rfl .refl : Upd [.regs] (s.modTest h fun t => { t with scrubAt := 0 })
        (((s.modTest h fun t => { t with scrubAt := 0 }).step1 (pgScr h) SCR_PASS_PASSES).wr (pgScr h) SCR_PASS_LAST_MS n.toNat)).frame
          .selfTest (by decide)
      rw [htest]
      exact congrArg SelfTest.scrubAt (Both.get_set_same ..)
  · have hop : s.scrubPass h 0 = s.modTest h fun t => { t with scrubAt := 0 } := by
      unfold scrubPass
      rw [if_pos rfl]
    exact ⟨_, congrArg Host.Outcome.next hop, congrArg SelfTest.scrubAt (Both.get_set_same ..), modTest_upd.frame⟩
  · obtain hop | ⟨g, hop⟩ := scrubFrame_agrees hflag hcrc
    · exact ⟨s, congrArg Host.Outcome.next hop, fun p _ => p.same_refl s⟩
    · exact ⟨_, congrArg Host.Outcome.next hop, modTest_upd.frame⟩
  · have hupd : Upd [.selfTest] s (s.modTest (roomHalf r.toNat) fun x => { x with scrubAt := r.toNat * 180 + f.toNat + 1 }) := modTest_upd
    have hat' : ((s.modTest (roomHalf r.toNat) fun x => { x with scrubAt := r.toNat * 180 + f.toNat + 1 }).selfTest.get (roomHalf r.toNat)).scrubAt =
        r.toNat * 180 + f.toNat + 1 := congrArg SelfTest.scrubAt (Both.get_set_same ..)
    have hok : roomOk r.toNat = true := by
      rw [roomOk, Bool.and_eq_true, decide_eq_true_eq, decide_eq_true_eq]
      exact ⟨r.isLt, hr⟩
    have hop : s.scrubFrame r.toNat f.toNat [] =
        (s.modTest (roomHalf r.toNat) fun x => { x with scrubAt := r.toNat * 180 + f.toNat + 1 }).scrubCheck r.toNat f.toNat :=
      scrubFrame_checks hok hf hen hgate hserv hg hat
    generalize (s.modTest (roomHalf r.toNat) fun x => { x with scrubAt := r.toNat * 180 + f.toNat + 1 }) = w at hupd hat' hop hread
    have hroom : w.room r.toNat = s.room r.toNat := room_of_rooms (hupd.frame .rooms (by decide)) _
    have hfab : w.fabric = s.fabric := hupd.frame .fabric (by decide)
    have hrefs : w.refs = s.refs := hupd.frame .refs (by decide)
    have haddr : w.g2Addr r.toNat false = s.g2Addr r.toNat false := by
      unfold g2Addr
      rw [hupd.frame .g2 (by decide)]
    have hrepair := scrubCheck_repairs (s := w) (f := f.toNat) (by rw [hroom]; exact hg) (by rw [haddr]; exact hread)
      (by rw [refOf_congr hrefs, hroom]; exact himg) (by rw [plane_congr hfab, refOf_congr hrefs, hroom]; exact hbad)
    have hu := readBytes_upd (s := w) (source := ueScrub) (a := s.g2Addr r.toNat false + f.toNat * 512) (n := 512)
    rw [hread] at hu
    have hufab : u.fabric = s.fabric := (hu.frame .fabric (by decide)).trans hfab
    rw [hroom, plane_congr hfab, hufab] at hrepair
    rw [hrepair] at hop
    obtain ⟨x, hxop, hxfab, hx, hxrd⟩ : ∃ x : State, s.scrubFrame r.toNat f.toNat [] = x.upset r.toNat f.toNat
          (bitsOff (s.plane (s.room r.toNat).active r.toNat (f.toNat * 512) 512) img)
          (!(bytesOff (s.plane (s.room r.toNat).active r.toNat (f.toNat * 512) 512) img).isEmpty) false ∧
        x.fabric = Tbl.putBytes s.fabric (frameKey (planeFrame (s.room r.toNat).active r.toNat 0) + f.toNat * 512) img ∧
        (x.rooms = u.rooms ∧ x.selfTest = u.selfTest) ∧ ∀ p g, x.rd p g = u.rd p g :=
      ⟨_, hop, rfl, ⟨rfl, rfl⟩, fun p g => rd_congr rfl p g⟩
    have hxg : (x.room r.toNat).state = .g2 := by
      rw [room_of_rooms (hx.1.trans (hu.frame .rooms (by decide))), hroom, hg]
    generalize (!(bytesOff (s.plane (s.room r.toNat).active r.toNat (f.toNat * 512) 512) img).isEmpty) = e at hxop
    generalize bitsOff (s.plane (s.room r.toNat).active r.toNat (f.toNat * 512) 512) img = d at hxop ⊢
    rw [upset_g2 e hxg] at hxop
    obtain ⟨hlroom, hlframe, hlrep, hlbits, hlcount⟩ := upsetLog_reads x d e r.isLt f.isLt
    have hlog : Upd [.regs, .out, .host, .cox] x (((x.upsetLog r.toNat f.toNat d e).bump pgG2c G2C_UPSETS_COUNT).raise pgG2c 3) :=
      Upd.after raise_upd rfl <| Upd.after bump_upd rfl <| Upd.after upsetLog_upd rfl .refl
    have hscr (g : Fld) (hg : g.ok = true) (h1 : g.sep PG_IRQ_RAW = true) (h2 : g.sep G2C_UPSETS_COUNT = true) (p : Nat) :
        (((x.upsetLog r.toNat f.toNat d e).bump pgG2c G2C_UPSETS_COUNT).raise pgG2c 3).rd p g = (x.upsetLog r.toNat f.toNat d e).rd p g := by
      rw [rd_raise_sep _ _ _ _ h1 hg, rd_bump_sep _ _ _ h2 hg rfl]
    refine ⟨_, congrArg Host.Outcome.next hxop, ?_, ?_, ?_, ?_, ?_, ?_, ?_, raw_raise _ _ (by decide)⟩
    · rw [hlog.frame .selfTest (by decide), hx.2, hu.frame .selfTest (by decide)]
      exact hat'
    · rw [hlog.frame .fabric (by decide), hxfab]
    · rw [hscr _ rfl rfl rfl, hlroom]
    · rw [hscr _ rfl rfl rfl, hlframe]
    · rw [hscr _ rfl rfl rfl, hlrep]
    · rw [hscr _ rfl rfl rfl, hlbits]
    · rw [rd_raise_sep _ _ _ _ rfl rfl, rd_bump _ _ rfl, hlcount, hxrd]

end Sys2Proof.Machine
end

section
/-! PROOFS. O23: the live-upkeep operations -/

namespace Sys2Proof.Machine
namespace State
variable {s t u : State} {p : Nat} {g : GoFlds} {argF : Fld}

/-! ## A GO of an upkeep operation (R395, Table 12.6) -/

/-- The state in which an upkeep operation starts: its ARG stored, its GO taken. -/
def upkeepAsked (s : State) (p : Nat) (g : GoFlds) (argF : Fld) (arg : Nat) : State := (s.wr p argF arg).goBusy p g

theorem upkeepAsked_upd {arg : Nat} : Upd [.regs] s (s.upkeepAsked p g argF arg) := Upd.after goBusy_upd rfl wr_upd

theorem rd_upkeepAsked (s : State) (p q arg : Nat) {f : Fld} (hg : g.good = true) (hf : g.apart f = true) (harg : f.sep argF = true)
    (hok : argF.ok = true) : (s.upkeepAsked p g argF arg).rd q f = s.rd q f := by
  have hfok : f.ok = true := by
    simp only [GoFlds.apart, Bool.and_eq_true] at hf
    exact hf.1.1.1
  rw [upkeepAsked, rd_goBusy_apart _ _ _ hf hg, rd_wr_sep _ _ _ _ _ _ harg hfok hok]

/-- What an upkeep operation's GO shows while it is under way. -/
theorem upkeepAsked_reads (s : State) (p : Nat) {arg : Nat} (hg : g.good = true) (harg : g.apart argF = true) (hseq : g.seq.sep argF = true)
    (hfit : arg < 2 ^ (argF.hi - argF.lo + 1)) :
    (s.upkeepAsked p g argF arg).rd p g.status = 1 ∧ (s.upkeepAsked p g argF arg).rd p g.reason = 0 ∧
      (s.upkeepAsked p g argF arg).rd p g.seq = (s.rd p g.seq + 1) % 16 ∧ (s.upkeepAsked p g argF arg).rd p argF = arg := by
  obtain ⟨hst, hre, hsq⟩ := goBusy_reads (s.wr p argF arg) p hg
  have hqok : g.seq.ok = true := by
    simp only [GoFlds.good, Bool.and_eq_true] at hg
    exact hg.1.1.1.1.1.1.1.1.2
  have haok : argF.ok = true := by
    simp only [GoFlds.apart, Bool.and_eq_true] at harg
    exact harg.1.1.1
  refine ⟨hst, hre, hsq.trans ?_, ?_⟩
  · rw [rd_wr_sep _ _ _ _ _ _ hseq hqok haok]
  · rw [upkeepAsked, rd_goBusy_apart _ _ _ harg hg, rd_wr_fit _ _ haok hfit]

theorem upkeepGo_takes {m : Master} {arg : Nat} (ht : s.Takes m p argF.off) (hst : s.rd p g.status ≠ 1) (hsep : g.status.sep argF = true)
    (hok : g.status.ok = true) (hen : PG_CTRL_EN.sep argF = true) (haok : argF.ok = true) (op : State → State) :
    s.upkeepGo m p g argF arg op = op (s.upkeepAsked p g argF arg) := by
  have hidle : (s.wr p argF arg).rd p g.status = s.rd p g.status := rd_wr_sep _ _ _ _ _ _ hsep hok haok
  refine (goTo_of_takes_store ht (store := fun s => s.wr p argF arg) ?_ _).trans (if_neg ?_)
  · exact congrArg (· == 1) (rd_wr_sep _ _ _ _ _ _ hen rfl haok)
  · rw [hidle]
    exact hst

theorem masterWorld_upkeepAsked (s : State) (p : Nat) (g : GoFlds) (arg : Nat) (hpage : pgSec ≠ p)
    (hoff : argF.off < 0x1000 ∧ g.status.off < 0x1000 ∧ g.seq.off < 0x1000 ∧ g.reason.off < 0x1000) (m : Master) :
    (s.upkeepAsked p g argF arg).masterWorld m = s.masterWorld m := by
  obtain ⟨ha, hs, hq, hr⟩ := hoff
  have hin : RegsIn (ofPage p) s (s.upkeepAsked p g argF arg) :=
    .wr (.wr (.step1 (.wr .refl (ofPage_at _ ha)) (ofPage_at _ hq)) (ofPage_at _ hs)) (ofPage_at _ hr)
  refine masterWorld_of_regsIn hin fun i hi => not_ofPage_at ?_ hpage
  simp only [Fld.at, SEC_FN_WORLD_WORLD]
  omega

theorem upkeepBar_congr (hs : t.seq = s.seq) (ho : ∀ h, t.rd (pgSys h) SYS_MODE_ORPHAN = s.rd (pgSys h) SYS_MODE_ORPHAN) :
    t.upkeepBar = s.upkeepBar := by
  unfold upkeepBar
  rw [hs, orphan_congr (ho .east), orphan_congr (ho .west)]

theorem upkeepBar_asked (s : State) (p arg : Nat) (hg : g.good = true) (hf : g.apart SYS_MODE_ORPHAN = true)
    (harg : SYS_MODE_ORPHAN.sep argF = true) (hok : argF.ok = true) : (s.upkeepAsked p g argF arg).upkeepBar = s.upkeepBar :=
  upkeepBar_congr (upkeepAsked_upd.frame .seq (by decide)) fun _ => rd_upkeepAsked _ _ _ _ hg hf harg hok

/-! ## Cox restart (R397, Table 12.7) -/

theorem testBit_even (n : Nat) : (n / 2 * 2).testBit 0 = false := by
  rw [Nat.testBit_zero, decide_eq_false_iff_not]
  omega

theorem testBit_odd (n : Nat) : (n / 2 * 2 + 1).testBit 0 = true := by
  rw [Nat.testBit_zero, decide_eq_true_eq]
  omega

/-- A cox restart that nothing bars. -/
theorem coxUpd_takes {m : Master} {h : Half} {arg : Nat} (ht : s.Takes m (pgSys h) SYS_COX_UPD_ARG.off)
    (hst : s.rd (pgSys h) SYS_COX_UPD_STATUS ≠ 1) (hworld : s.masterWorld m = true) (harg : arg < 8) (hop : (s.cox.get h).op = none)
    (hbar : s.upkeepBar = 0) :
    s.coxUpd m h arg =
      if arg.testBit 0 then
        match (s.upkeepAsked (pgSys h) gCox SYS_COX_UPD_ARG arg).coxImage h with
        | (none, u) => u.goRefused (pgSys h) gCox urFailed
        | (some img, u) => u.coxStart h arg img
      else (s.upkeepAsked (pgSys h) gCox SYS_COX_UPD_ARG arg).coxStart h arg (s.cox.get h).image := by
  have hgo := upkeepGo_takes (g := gCox) (arg := arg) ht hst rfl rfl rfl rfl fun s => s.coxGo m h arg
  have hw := (masterWorld_upkeepAsked (argF := SYS_COX_UPD_ARG) s (pgSys h) gCox arg (by cases h <;> decide) (by decide) m).trans hworld
  have hb := (upkeepBar_asked (g := gCox) (argF := SYS_COX_UPD_ARG) s (pgSys h) arg rfl rfl rfl rfl).trans hbar
  have hcox : (s.upkeepAsked (pgSys h) gCox SYS_COX_UPD_ARG arg).cox = s.cox := upkeepAsked_upd.frame .cox (by decide)
  refine hgo.trans ?_
  unfold coxGo
  generalize s.upkeepAsked (pgSys h) gCox SYS_COX_UPD_ARG arg = u at hw hb hcox
  rw [hw, hb, hcox, hop]
  simp only [Bool.not_true, Bool.false_eq_true, if_false, Nat.not_le.mpr harg, Option.isSome_none, ne_eq, not_true_eq_false] <;> rfl

/-- The cox that starts where the half does not lead: nothing is handed over. -/
theorem coxStart_cox {h : Half} {arg : Nat} {img : List Byte} (hne : h ≠ (s.hold h).leader) :
    ((s.coxStart h arg img).cox.get h).op = some (arg, false, img) ∧ ((s.coxStart h arg img).cox.get h).image = img := by
  have hled : (decide (h = (s.hold h).leader) && (s.hold h).canHandOver) = false := by simp [hne]
  obtain ⟨u, b, hb, hcox⟩ : ∃ (u : State) (b : Bool), b = (decide (h = (s.hold h).leader) && (s.hold h).canHandOver) ∧
      (s.coxStart h arg img).cox = u.cox.set h { u.cox.get h with op := some (arg, b, img), image := img } := ⟨_, _, rfl, rfl⟩
  rw [hcox, Both.get_set_same, hb, hled]
  exact ⟨rfl, rfl⟩

/-- The cox of a half runs again: nothing was handed over, and nothing was held for it. -/
theorem coxDone_ends {h : Half} {arg : Nat} {img : List Byte} (hop : (s.cox.get h).op = some (arg, false, img)) (hheld : (s.cox.get h).held = []) :
    s.coxDone h = ((({ (if arg.testBit 2 && arg.testBit 0 then
        { s with attic := { s.attic with firmware := img :: s.attic.firmware.take 1 } } else s) with
          cox := s.cox.set h { s.cox.get h with op := none, held := [] } } : State)).goDone (pgSys h) gCox).unhold h := by
  unfold coxDone
  simp only [hop, hheld, Bool.not_false, Bool.or_true, Bool.true_and, Bool.and_false, Bool.false_and, Bool.false_eq_true, if_false, if_true,
    List.foldl_nil]
  split <;> rfl

/-! ## Stack retraining (R398, Table 12.8) -/

theorem memRetrain_takes {m : Master} {k arg : Nat} (ht : s.Takes m (pgMem k) MEM_RETRAIN_ARG.off) (hst : s.rd (pgMem k) MEM_RETRAIN_STATUS ≠ 1) :
    s.memRetrain m k arg = (s.upkeepAsked (pgMem k) gMem MEM_RETRAIN_ARG arg).memGo m k arg :=
  upkeepGo_takes (g := gMem) (arg := arg) ht hst rfl rfl rfl rfl fun s => s.memGo m k arg

theorem memGo_starts {m : Master} {k arg : Nat} (hworld : s.masterWorld m = true) (harg : arg < 2)
    (hfree : ∀ j ∈ s.stackCtl.retrain, j / 2 ≠ k / 2) (hbar : s.upkeepBar = 0) :
    s.memGo m k arg = (((if arg.testBit 0 then
        (((s.hold (halfOf (k / 2))).modStacks fun x => { x with retrain := k :: x.retrain }).crews.map (·.1)).foldl (fun s id => s.migrateCrew k id)
          ((s.hold (halfOf (k / 2))).modStacks fun x => { x with retrain := k :: x.retrain })
        else (s.hold (halfOf (k / 2))).modStacks fun x => { x with retrain := k :: x.retrain })).modStacks fun x =>
          { x with away := k :: x.away }).wr (pgMem k) MEM_STAT_SELF_REFRESH 1 := by
  have hno : (s.stackCtl.retrain.any fun j => j / 2 == k / 2) = false := by
    rw [List.any_eq_false]
    intro j hj
    simpa using hfree j hj
  unfold memGo
  rw [hworld, if_neg (by decide), if_neg (by omega), hno, if_neg (by decide), if_neg (not_not_intro hbar)]

theorem pgSec_ne_pgMem (k : BitVec 2) : pgSec ≠ pgMem k.toNat := by
  revert k
  decide

/-- A retraining of a stack that nothing bars: its ARG says whether the pages move first. -/
theorem memRetrain_starts {m : Master} {k : BitVec 2} {arg : Nat} (ht : s.Takes m (pgMem k.toNat) MEM_RETRAIN_ARG.off)
    (hst : s.rd (pgMem k.toNat) MEM_RETRAIN_STATUS ≠ 1) (hworld : s.masterWorld m = true) (harg : arg < 2)
    (hfree : ∀ j ∈ s.stackCtl.retrain, j / 2 ≠ k.toNat / 2) (hbar : s.upkeepBar = 0) {u : State}
    (hu : u = s.upkeepAsked (pgMem k.toNat) gMem MEM_RETRAIN_ARG arg) :
    s.memRetrain m k.toNat arg = (((if arg.testBit 0 then
        (((u.hold (halfOf (k.toNat / 2))).modStacks fun x => { x with retrain := k.toNat :: x.retrain }).crews.map (·.1)).foldl
          (fun s id => s.migrateCrew k.toNat id) ((u.hold (halfOf (k.toNat / 2))).modStacks fun x => { x with retrain := k.toNat :: x.retrain })
        else (u.hold (halfOf (k.toNat / 2))).modStacks fun x => { x with retrain := k.toNat :: x.retrain })).modStacks fun x =>
          { x with away := k.toNat :: x.away }).wr (pgMem k.toNat) MEM_STAT_SELF_REFRESH 1 := by
  have hw := (masterWorld_upkeepAsked (argF := MEM_RETRAIN_ARG) s (pgMem k.toNat) gMem arg (pgSec_ne_pgMem k) (by decide) m).trans hworld
  have hb := (upkeepBar_asked (g := gMem) (argF := MEM_RETRAIN_ARG) s (pgMem k.toNat) arg rfl rfl rfl rfl).trans hbar
  have hctl : (s.upkeepAsked (pgMem k.toNat) gMem MEM_RETRAIN_ARG arg).stackCtl = s.stackCtl := upkeepAsked_upd.frame .stackCtl (by decide)
  rw [memRetrain_takes ht hst, ← hu] at *
  exact memGo_starts hw harg (by rw [hctl]; exact hfree) hb

theorem memEnd_reads (s : State) (k : Nat) {reason : Nat} (hre : reason < 16) :
    (s.memEnd k reason).rd (pgMem k) MEM_RETRAIN_STATUS = (if reason = 0 then 2 else 3) ∧
      (s.memEnd k reason).rd (pgMem k) MEM_RETRAIN_REASON = reason ∧ ((s.memEnd k reason).rd (pgMem k) PG_IRQ_RAW).testBit 1 = true ∧
        ∀ (p : Nat) (f : Fld), gMem.apart f = true → f.sep PG_IRQ_RAW = true → (s.memEnd k reason).rd p f = s.rd p f := by
  obtain ⟨n, hn, hop⟩ : ∃ n, n = (if reason = 0 then 2 else 3) ∧
      s.memEnd k reason = (s.wrs (pgMem k) [(gMem.status, n), (gMem.reason, reason)]).raise (pgMem k) 1 := by
    unfold memEnd
    split
    · rename_i h0
      exact ⟨2, rfl, by rw [h0]; rfl⟩
    · exact ⟨3, rfl, rfl⟩
  obtain ⟨hst, hre'⟩ := goEnd_reads s (pgMem k) (g := gMem) rfl (status := n) (by rw [hn]; split <;> decide) hre
  rw [hop, ← hn]
  refine ⟨(rd_raise_sep _ _ _ _ rfl rfl).trans hst, (rd_raise_sep _ _ _ _ rfl rfl).trans hre', raw_raise _ _ (by decide), fun p f hf hraw => ?_⟩
  have hok : f.ok = true := by
    simp only [GoFlds.apart, Bool.and_eq_true] at hf
    exact hf.1.1.1
  rw [rd_raise_sep _ _ _ _ hraw hok, rd_goEnd_apart _ _ _ _ _ hf rfl]

/-- A stack's training ends. -/
theorem memTrained_ends (s : State) (k : Nat) (trained : Bool) (repairs : Nat) :
    (s.memTrained k trained repairs).rd (pgMem k) MEM_RETRAIN_STATUS = (if trained then 2 else 3) ∧
      (s.memTrained k trained repairs).rd (pgMem k) MEM_RETRAIN_REASON = (if trained then 0 else 6) ∧
      (s.memTrained k trained repairs).rd (pgMem k) MEM_STAT_SELF_REFRESH = 0 ∧
      (s.memTrained k trained repairs).stackCtl = { s.stackCtl with retrain := s.stackCtl.retrain.erase k, away := s.stackCtl.away.erase k } ∧
      ((s.memTrained k trained repairs).rd (pgMem k) PG_IRQ_RAW).testBit 1 = true ∧ (s.memTrained k trained repairs).mem = s.mem := by
  obtain ⟨u, hop, hrefresh, hctl, hmem⟩ : ∃ u : State, s.memTrained k trained repairs = u.memEnd k (if trained then 0 else urFailed) ∧
      u.rd (pgMem k) MEM_STAT_SELF_REFRESH = 0 ∧
      u.stackCtl = { s.stackCtl with retrain := s.stackCtl.retrain.erase k, away := s.stackCtl.away.erase k } ∧ u.mem = s.mem := by
    cases trained with
    | true =>
      refine ⟨_, rfl, ?_, rfl, rfl⟩
      exact (rd_wr_sep _ _ _ _ _ _ rfl rfl rfl).trans (rd_wr_fit _ _ rfl (by decide))
    | false => exact ⟨_, rfl, rd_wr_fit _ _ rfl (by decide), rfl, rfl⟩
  obtain ⟨hst, hre, hraw, hrest⟩ := memEnd_reads u k (reason := if trained then 0 else urFailed) (by split <;> decide)
  rw [hop]
  refine ⟨hst.trans (by cases trained <;> rfl), hre, (hrest _ _ rfl rfl).trans hrefresh, (memEnd_upd.frame .stackCtl (by decide)).trans hctl, hraw,
    (memEnd_upd.frame .mem (by decide)).trans hmem⟩

/-! ## Course lanes and the host link (R399, R400) -/

theorem laneReq_takes {m : Master} {arg : Nat} (ht : s.Takes m pgCrs CRS_LANE_ARG.off) (hst : s.rd pgCrs CRS_LANE_STATUS ≠ 1) (harg : arg < 2)
    (hbar : s.upkeepBar = 0) (hopen : s.portOpen = true) {u t : State} (hu : u = s.upkeepAsked pgCrs gLane CRS_LANE_ARG arg)
    (hto : t = (u.hold u.follower).modCourse fun c => { c with lane := some (arg.testBit 0) }) :
    s.laneReq m arg = if t.linkState (arg.testBit 0) = 2 then t.linkTrain (arg.testBit 0) else t := by
  have hgo := upkeepGo_takes (g := gLane) (arg := arg) ht hst rfl rfl rfl rfl fun s => s.laneGo arg
  have hb : u.upkeepBar = 0 := by
    rw [hu]
    exact (upkeepBar_asked (g := gLane) (argF := CRS_LANE_ARG) s pgCrs arg rfl rfl rfl rfl).trans hbar
  have ho : u.portOpen = true := by
    have hstate : u.rd pgCrs CRS_PORT_STATE = s.rd pgCrs CRS_PORT_STATE := by
      rw [hu]
      exact rd_upkeepAsked _ _ _ _ rfl rfl rfl rfl
    unfold portOpen crsState at hopen ⊢
    rw [hstate, hopen]
  have hzero : arg / 2 = 0 := by omega
  refine hgo.trans ?_
  rw [← hu]
  unfold laneGo
  rw [if_neg (by omega), if_neg (not_not_intro hb), ho, if_neg (by decide)]
  dsimp only
  rw [if_pos hzero, ← hto]

theorem reeqReq_takes {m : Master} {arg : Nat} (ht : s.Takes m pgHlk HLK_REEQ_ARG.off) (hst : s.rd pgHlk HLK_REEQ_STATUS ≠ 1) (harg : arg < 2)
    (hbar : s.upkeepBar = 0) {u : State} (hu : u = s.upkeepAsked pgHlk gReeq HLK_REEQ_ARG arg) :
    s.reeqReq m arg = (u.hold u.leader).modHost fun l => { l with reeq := some (arg.testBit 0) } := by
  have hgo := upkeepGo_takes (g := gReeq) (arg := arg) ht hst rfl rfl rfl rfl fun s => s.reeqGo arg
  have hb : u.upkeepBar = 0 := by
    rw [hu]
    exact (upkeepBar_asked (g := gReeq) (argF := HLK_REEQ_ARG) s pgHlk arg rfl rfl rfl rfl).trans hbar
  refine hgo.trans ?_
  rw [← hu]
  unfold reeqGo
  rw [if_neg (by omega), if_neg (not_not_intro hb)]

/-- The retraining of the host link ends at 32.0 GT/s. -/
theorem linkL0_ends {b : Bool} (hb : s.host.reeq = some b) :
    s.linkL0 = (((s.wr pgHlk HLK_LINK_SPEED 5).modHost fun l => { l with reeq := none }).goDone pgHlk gReeq).unhold s.leader := by
  have hbusy : ¬ s.host.reeq.isNone = true := by simp [hb]
  have hhost : (s.wr pgHlk HLK_LINK_SPEED 5).host = s.host := wr_upd.frame .host (by decide)
  have hbusy' : ¬ (s.wr pgHlk HLK_LINK_SPEED 5).host.reeq.isNone = true := by rw [hhost]; exact hbusy
  have hleader : ((s.wr pgHlk HLK_LINK_SPEED 5).modHost fun l => { l with reeq := none }).leader = s.leader :=
    leader_congr (fun k => (rd_modHost _ _).trans (rd_wr_sep _ _ _ _ _ _ rfl rfl rfl))
      ((rd_modHost _ _).trans (rd_wr_sep _ _ _ _ _ _ rfl rfl rfl))
  unfold linkL0 reeqEnd
  rw [if_neg hbusy, if_neg hbusy']
  dsimp only
  rw [hleader, if_pos rfl]

end State
open State

/-- Settles O23. -/
theorem upkeepAct : Obligations.UpkeepAct := by
  unfold Obligations.UpkeepAct
  obtain ⟨-, -, -, -, -, -, -, -, -, -, -, hreeq, -⟩ := timeLimitsComplete
  refine ⟨fun s m h arg ht hst hw harg hop hbar => ?_, fun s m h arg ht hst hw harg hop hbar => ?_, fun u h arg img hne => coxStart_cox hne,
    fun s h arg img hop h2 hheld => ?_, fun s h arg img hop h2 h0 hheld => ?_, fun s m k ht hst hw hfree hbar => ?_,
    fun s m k ht hst hw hfree hbar => ?_, fun s m k ht hst hw => ?_, fun s k trained n hk => ?_, fun s m arg ht hst harg hbar hopen => ?_,
    fun s m ht hst hbar => ?_, fun s b hb => ?_⟩
  · have hgo := coxUpd_takes (arg := arg.toNat / 2 * 2) ht hst hw (by omega) hop hbar
    rw [testBit_even] at hgo
    obtain ⟨h1, h2, h3, -⟩ := upkeepAsked_reads s (pgSys h) (g := gCox) (argF := SYS_COX_UPD_ARG) (arg := arg.toNat / 2 * 2) rfl rfl rfl
      (by show arg.toNat / 2 * 2 < 65536; omega)
    exact ⟨_, congrArg Host.Outcome.next (hgo.trans (if_neg (by decide))), h1, h3, h2, upkeepAsked_upd.frame⟩
  · have hgo := coxUpd_takes (arg := arg.toNat / 2 * 2 + 1) ht hst hw (by omega) hop hbar
    rw [testBit_odd, if_pos rfl] at hgo
    refine ⟨_, congrArg Host.Outcome.next hgo, ?_⟩
    unfold upkeepAsked
    dsimp only
    generalize ((s.wr (pgSys h) SYS_COX_UPD_ARG (arg.toNat / 2 * 2 + 1)).goBusy (pgSys h) gCox).coxImage h = r
    obtain ⟨o, u⟩ := r
    cases o with
    | none =>
      obtain ⟨h1, h2⟩ := goEnd_reads u (pgSys h) (g := gCox) rfl (status := 3) (reason := 6) (by decide) (by decide)
      exact ⟨h1, h2, goRefused_upd.frame .cox (by decide)⟩
    | some img => rfl
  · have hgo := coxDone_ends hop hheld
    rw [h2, Bool.false_and, if_neg (by decide)] at hgo
    obtain ⟨u, hcox, hu, hgo⟩ : ∃ u : State, u.cox = s.cox.set h { s.cox.get h with op := none, held := [] } ∧ Upd [.cox] s u ∧
        s.coxDone h = (u.goDone (pgSys h) gCox).unhold h := ⟨_, rfl, Upd.cox .refl rfl, hgo⟩
    obtain ⟨h1, h2'⟩ := goEnd_reads u (pgSys h) (g := gCox) rfl (status := 2) (reason := 0) (by decide) (by decide)
    have hdone : (u.goDone (pgSys h) gCox).cox = u.cox := goDone_upd.frame .cox (by decide)
    refine ⟨u.goDone (pgSys h) gCox, congrArg Host.Outcome.next hgo, h1, h2', ?_, ?_, (Upd.after goDone_upd rfl <| Upd.after hu rfl .refl).frame⟩
    · rw [hdone, hcox, Both.get_set_same]
    · rw [hdone, hcox, Both.get_set_same]
  · have hgo := coxDone_ends hop hheld
    rw [h2, h0, Bool.true_and, if_pos rfl] at hgo
    obtain ⟨u, hattic, hgo⟩ : ∃ u : State, u.attic.firmware = img :: s.attic.firmware.take 1 ∧
        s.coxDone h = (u.goDone (pgSys h) gCox).unhold h := ⟨_, rfl, hgo⟩
    obtain ⟨h1, -⟩ := goEnd_reads u (pgSys h) (g := gCox) rfl (status := 2) (reason := 0) (by decide) (by decide)
    refine ⟨u.goDone (pgSys h) gCox, congrArg Host.Outcome.next hgo, h1, ?_⟩
    rw [goDone_upd.frame .attic (by decide), hattic]
  · obtain ⟨h1, -, -, harg⟩ := upkeepAsked_reads s (pgMem k.toNat) (g := gMem) (argF := MEM_RETRAIN_ARG) (arg := 0) rfl rfl rfl (by decide)
    have hgo := memRetrain_starts (arg := 0) ht hst hw (by decide) hfree hbar rfl
    rw [if_neg (by decide)] at hgo
    exact ⟨_, congrArg Host.Outcome.next hgo, _, rfl, h1, harg, upkeepAsked_upd.frame⟩
  · have hgo := memRetrain_starts (arg := 1) ht hst hw (by decide) hfree hbar rfl
    generalize (if Nat.testBit 1 0 = true then _ else _ : State) = v at hgo
    refine ⟨_, congrArg Host.Outcome.next hgo, ?_, rd_wr_fit _ _ rfl (by decide)⟩
    rw [wr_upd.frame .stackCtl (by decide)]
    exact List.mem_cons_self
  · have hw' := (masterWorld_upkeepAsked (argF := MEM_RETRAIN_ARG) s (pgMem k.toNat) gMem 0 (pgSec_ne_pgMem k) (by decide) m).trans hw
    have hgo := (memRetrain_takes (arg := 0) ht hst).trans (if_pos (by rw [hw']; rfl))
    obtain ⟨h1, h2, h3, -⟩ := memEnd_reads (s.upkeepAsked (pgMem k.toNat) gMem MEM_RETRAIN_ARG 0) k.toNat (reason := 5) (by decide)
    exact ⟨_, congrArg Host.Outcome.next hgo, h1, h2, h3, (memEnd_upd.frame .stackCtl (by decide)).trans (upkeepAsked_upd.frame .stackCtl (by decide))⟩
  · have hgo : s.memDoneTraining k.toNat trained n.toNat = (s.memTrained k.toNat trained n.toNat).stackBack (halfOf (k.toNat / 2)) :=
      if_neg (by simpa using hk)
    exact ⟨_, congrArg Host.Outcome.next hgo, memTrained_ends s k.toNat trained n.toNat⟩
  · obtain ⟨h1, -, -, harg'⟩ := upkeepAsked_reads s pgCrs (g := gLane) (argF := CRS_LANE_ARG) (arg := arg.toNat) rfl rfl rfl arg.isLt
    exact ⟨s.upkeepAsked pgCrs gLane CRS_LANE_ARG arg.toNat, congrArg Host.Outcome.next (laneReq_takes ht hst harg hbar hopen rfl rfl), h1, harg',
      upkeepAsked_upd.frame⟩
  · obtain ⟨h1, -, -, h2⟩ := upkeepAsked_reads s pgHlk (g := gReeq) (argF := HLK_REEQ_ARG) (arg := 0) rfl rfl rfl (by decide)
    obtain ⟨h3, -, -, h4⟩ := upkeepAsked_reads s pgHlk (g := gReeq) (argF := HLK_REEQ_ARG) (arg := 1) rfl rfl rfl (by decide)
    exact ⟨s.upkeepAsked pgHlk gReeq HLK_REEQ_ARG 0, s.upkeepAsked pgHlk gReeq HLK_REEQ_ARG 1,
      congrArg Host.Outcome.next (reeqReq_takes ht hst (by decide) hbar rfl), congrArg Host.Outcome.next (reeqReq_takes ht hst (by decide) hbar rfl),
      h1, h2, upkeepAsked_upd.frame, h3, h4, upkeepAsked_upd.frame⟩
  · obtain ⟨u, hu, h1, h2, h3, hrest⟩ := hreeq s b hb
    obtain ⟨v, hv, hspeed, hdone, hop⟩ : ∃ v : State, Upd [.regs, .host] s v ∧ v.rd pgHlk HLK_LINK_SPEED = 5 ∧ v.host.reeq = none ∧
        s.linkL0 = (v.goDone pgHlk gReeq).unhold s.leader :=
      ⟨_, Upd.after modHost_upd rfl <| Upd.after wr_upd rfl .refl, (rd_modHost _ _).trans (rd_wr_fit _ _ rfl (by decide)), rfl, linkL0_ends hb⟩
    obtain ⟨h4, h5⟩ := goEnd_reads v pgHlk (g := gReeq) rfl (status := 2) (reason := 0) (by decide) (by decide)
    refine ⟨u, v.goDone pgHlk gReeq, hu, h1, h2, h3, congrArg Host.Outcome.next hop, h4, h5, (rd_goEnd_apart _ _ _ _ _ rfl rfl).trans hspeed, ?_,
      hrest, (Upd.after goDone_upd rfl <| Upd.after hv rfl .refl).frame⟩
    rw [goDone_upd.frame .host (by decide), hdone]

end Sys2Proof.Machine
end

section
/-! PROOFS. The links of the Course: records, states, flits sent, and the DOWN links -/

namespace Sys2Proof.Machine
namespace State
variable {s t u : State} {w : Bool}

/-! ## A link's record -/

theorem cLink_modLink_other (f : CLink → CLink) : (s.modLink w f).cLink (!w) = s.cLink (!w) := by
  cases w <;> rfl

/-! ## The state of a link -/

theorem linkState_congr (h : t.regs = s.regs) (w : Bool) : t.linkState w = s.linkState w := rd_congr h _ _

theorem linkState_setLink {st lanes : Nat} (h : st < 4) : (s.setLink w st lanes).linkState w = st := by
  cases w
  · exact (rd_wr_sep _ _ _ _ _ _ rfl rfl rfl).trans (rd_wr_fit _ _ rfl h)
  · exact (rd_wr_sep _ _ _ _ _ _ rfl rfl rfl).trans (rd_wr_fit _ _ rfl h)

theorem linkState_setLink_other (st lanes : Nat) : (s.setLink w st lanes).linkState (!w) = s.linkState (!w) := by
  cases w
  · exact (rd_wr_sep _ _ _ _ _ _ rfl rfl rfl).trans (rd_wr_sep _ _ _ _ _ _ rfl rfl rfl)
  · exact (rd_wr_sep _ _ _ _ _ _ rfl rfl rfl).trans (rd_wr_sep _ _ _ _ _ _ rfl rfl rfl)

theorem linkState_linkTrain : (s.linkTrain w).linkState w = 1 := by
  refine Eq.trans ?_ (linkState_setLink (s := s) (w := w) (lanes := 0) (show 1 < 4 by decide))
  cases w
  · exact rd_bump_sep _ _ _ rfl rfl rfl
  · exact rd_bump_sep _ _ _ rfl rfl rfl

theorem linkState_linkTrain_other : (s.linkTrain w).linkState (!w) = s.linkState (!w) := by
  refine Eq.trans ?_ (linkState_setLink_other 1 0)
  cases w
  · exact rd_bump_sep _ _ _ rfl rfl rfl
  · exact rd_bump_sep _ _ _ rfl rfl rfl

/-! ## What a link sends -/

/-- Where nothing waits on a link, nothing goes. -/
theorem pumpAll_idle (h : waitingFlits (s.cLink w) = 0) : s.pumpAll w = s := by
  unfold pumpAll
  rw [h]
  rfl

/-- Only flits were emitted. -/
def FlitsOut (s t : State) : Prop := ∃ sent, t.out = sent ++ s.out ∧ ∀ e ∈ sent, ∃ w f, e = Emission.flit w f

theorem FlitsOut.of_out (h : t.out = s.out) : FlitsOut s t := ⟨[], h, fun _ he => nomatch he⟩

theorem FlitsOut.trans (h : FlitsOut s t) (h' : FlitsOut t u) : FlitsOut s u := by
  obtain ⟨a, ha, hfa⟩ := h
  obtain ⟨b, hb, hfb⟩ := h'
  refine ⟨b ++ a, by rw [hb, ha, List.append_assoc], fun e he => ?_⟩
  cases List.mem_append.mp he with
  | inl h => exact hfb e h
  | inr h => exact hfa e h

theorem sendFlit_flits (w : Bool) (typ : Nat) (p : List Byte) : FlitsOut s (s.sendFlit w typ p) :=
  ⟨[_], rfl, fun _ he => ⟨_, _, List.mem_singleton.mp he⟩⟩

theorem modLink_sendFlit_flits (w : Bool) (f : CLink → CLink) (p : List Byte) : FlitsOut s ((s.modLink w f).sendFlit w 0 p) :=
  (FlitsOut.of_out rfl).trans (sendFlit_flits w 0 p)

theorem sendIdle_flits (w : Bool) : FlitsOut s (s.sendIdle w) := by
  unfold sendIdle
  split
  · exact sendFlit_flits w 1 []
  · exact .of_out rfl

theorem freeBuffers_flits (w : Bool) (n : Nat) : FlitsOut s (s.freeBuffers w n) := by
  unfold freeBuffers
  dsimp only
  split
  · exact .of_out rfl
  · exact (FlitsOut.of_out rfl).trans (sendIdle_flits w)

theorem pump_flits (w drain : Bool) (fuel : Nat) : FlitsOut s (s.pump w drain fuel) := by
  induction fuel generalizing s with
  | zero => exact .of_out rfl
  | succ fuel ih =>
    unfold pump
    dsimp only
    split
    next => exact .of_out rfl
    next p rest _ =>
      split
      · refine FlitsOut.trans ?_ ih
        split
        · exact (modLink_sendFlit_flits w _ p).trans (freeBuffers_flits _ 1)
        · exact modLink_sendFlit_flits w _ p
      · exact .of_out rfl

theorem pumpAll_flits (w : Bool) : FlitsOut s (s.pumpAll w) := pump_flits w false _

/-- A control message goes out as a segment, and flits after it. -/
theorem sendCtl_out (typ : Nat) (b : Bool) (l : List Nat) : ∃ sent,
    (s.sendCtl typ b l).out = sent ++ .segment (segSeal (s.ctlSegment typ b l)) :: .ringCtl typ b l :: s.out ∧
      ∀ e ∈ sent, ∃ w f, e = Emission.flit w f := pumpAll_flits b

/-! ## Flits that come in (R217 to R219) -/

/-- What a good flit tells the link that it comes in by. -/
def flitTaken (f : Flit) (l : CLink) : CLink :=
  { l with rxSeq := f.seq.toNat, replay := unackedAfter f.ack.toNat l.replay, credit := l.credit + f.cred.toNat,
           held := l.held + bit (f.typ.toNat == ftData), nakRun := if f.typ.toNat = ftNak then l.nakRun else 0 }

theorem flitIn_bad {f : Flit} (hup : s.linkState w = 2) (hbad : s.flitGood w f = false) :
    s.flitIn w f = s.sendFlit w ftNak [] := by
  rw [flitIn, if_neg (not_not.mpr hup), hbad]
  rfl

theorem flitIn_nak {f : Flit} (hup : s.linkState w = 2) (hgood : s.flitGood w f = true) (ht : f.typ.toNat = ftNak) :
    s.flitIn w f = (s.modLink w (flitTaken f)).nakIn w f.ack.toNat := by
  rw [flitIn, if_neg (not_not.mpr hup), hgood]
  exact if_pos ht

/-- A flit that is no NAK, on a link on which nothing waits: an IDLE flit goes back for a DATA flit. -/
theorem flitIn_quiet {f : Flit} (hup : s.linkState w = 2) (hgood : s.flitGood w f = true) (ht : f.typ.toNat ≠ ftNak)
    (hnone : waitingFlits (s.cLink w) = 0) :
    s.flitIn w f = if f.typ.toNat = ftData then (s.modLink w (flitTaken f)).sendIdle w else s.modLink w (flitTaken f) := by
  have hidle : (s.modLink w (flitTaken f)).pumpAll w = s.modLink w (flitTaken f) :=
    pumpAll_idle (by rw [cLink_modLink]; exact hnone)
  have hin : s.flitIn w f = if f.typ.toNat = ftData ∧
      (((s.modLink w (flitTaken f)).pumpAll w).cLink w).txSeq = ((s.modLink w (flitTaken f)).cLink w).txSeq then
      ((s.modLink w (flitTaken f)).pumpAll w).sendIdle w else (s.modLink w (flitTaken f)).pumpAll w := by
    rw [flitIn, if_neg (not_not.mpr hup), hgood]
    exact if_neg ht
  rw [hin, hidle]
  simp only [and_true]

/-! ## NAKs (R218, R219) -/

theorem foldl_emit {α : Type} (e : α → Emission) (l : List α) :
    (l.foldl (fun s x => s.emit (e x)) s).out = (l.map e).reverse ++ s.out ∧
      (l.foldl (fun s x => s.emit (e x)) s).course = s.course := by
  induction l generalizing s with
  | nil => exact ⟨rfl, rfl⟩
  | cons x l ih =>
    obtain ⟨hout, hcourse⟩ := ih (s := s.emit (e x))
    refine ⟨?_, hcourse⟩
    rw [List.foldl_cons, hout, List.map_cons, List.reverse_cons, List.append_assoc]
    rfl

/-- What a NAK leaves of a link's record: the flits to send again, and how often in a row it named this SEQ. -/
def nakTaken (ack run : Nat) (l : CLink) : CLink := { l with replay := unackedAfter ack l.replay, nakAck := ack, nakRun := run % 8 }

/-- NAKs in a row that name a SEQ, with this one. -/
def nakCount (l : CLink) (ack : Nat) : Nat := if l.nakRun ≠ 0 ∧ l.nakAck = ack then l.nakRun + 1 else 1

theorem nakIn_eq (ack : Nat) (hup : s.linkState w = 2) : ∃ u : State, u.course = s.course ∧ u.out = s.out ∧ Upd [.regs] s u ∧
    s.nakIn w ack =
      if nakCount (s.cLink w) ack = 8 then (u.modLink w (nakTaken ack (nakCount (s.cLink w) ack))).linkTrain w
      else (unackedAfter ack (s.cLink w).replay).foldl (fun s f => s.emit (.flit w f))
        (u.modLink w (nakTaken ack (nakCount (s.cLink w) ack))) := by
  have hu : Upd [.regs] s (s.bump pgCrs (if w then CRS_LINK_W_REPLAYS else CRS_LINK_E_REPLAYS)) := bump_upd
  have hcourse := hu.frame .course (by decide)
  refine ⟨_, hcourse, hu.frame .out (by decide), hu, ?_⟩
  unfold nakIn
  rw [if_neg (not_not.mpr hup)]
  dsimp only
  rw [cLink_congr hcourse, cLink_modLink, cLink_congr hcourse]
  rfl

/-! ## Links that go down and come back (R240, R241) -/

theorem setDown_course (l : List Nat) : (s.setDown l).course = ((s.putDown l).chooseAll).course :=
  raise_upd.frame .course (by decide)

theorem putDown_course (l : List Nat) : (s.putDown l).course = { s.course with down := l } :=
  have h : (s.putDown l).course = (s.modCourse fun c => { c with down := l }).course := wr_upd.frame .course (by decide)
  h

theorem setDown_down (l : List Nat) : (s.setDown l).course.down = l := by
  rw [setDown_course]
  show (s.putDown l).course.down = l
  rw [putDown_course]

theorem setDown_map (l : List Nat) : (s.setDown l).course.map = s.course.map := by
  rw [setDown_course]
  show (s.putDown l).course.map = _
  rw [putDown_course]

theorem rd_chooseAll (p : Nat) (f : Fld) : s.chooseAll.rd p f = s.rd p f :=
  rd_congr (chooseAll_upd.frame .regs (by decide)) p f

theorem rd_setDown {f : Fld} (l : List Nat) (hraw : f.sep PG_IRQ_RAW = true) (hbreaks : f.sep CRS_RING_BREAKS = true)
    (hf : f.ok = true) : (s.setDown l).rd pgCrs f = s.rd pgCrs f := by
  unfold setDown putDown
  rw [rd_raise_sep _ _ _ _ hraw hf, rd_chooseAll, rd_wr_sep _ _ _ _ _ _ hbreaks hf rfl]
  exact rd_congr rfl _ _

theorem setDown_breaks (l : List Nat) : (s.setDown l).rd pgCrs CRS_RING_BREAKS = min 15 l.length := by
  unfold setDown putDown
  rw [rd_raise_sep _ _ _ _ rfl rfl, rd_chooseAll]
  exact rd_wr_fit _ _ rfl (Nat.lt_of_le_of_lt (Nat.min_le_left _ _) (by decide))

theorem setDown_raw (l : List Nat) : ((s.setDown l).rd pgCrs PG_IRQ_RAW).testBit 2 = true := raw_raise _ _ (by decide)

/-- The ring to a position depends on the map, the DOWN links and the ring's registers. -/
theorem ringFor_congr (hmap : t.course.map = s.course.map) (hdown : t.course.down = s.course.down)
    (hsize : t.rd pgCrs CRS_RING_SIZE = s.rd pgCrs CRS_RING_SIZE)
    (hid : t.rd pgCrs CRS_ID_RING_ID = s.rd pgCrs CRS_ID_RING_ID) (pos : Nat) : t.ringFor pos = s.ringFor pos := by
  have hsize' : t.ringSize = s.ringSize := hsize
  have hown : t.ownPos = s.ownPos := by
    unfold ownPos member ringId
    rw [hmap, hid]
  have hhops (b : Bool) : t.hopsTo pos b = s.hopsTo pos b := by
    unfold hopsTo
    rw [hsize', hown]
  have hclear (p n : Nat) : t.hopsClear p n = s.hopsClear p n := by
    unfold hopsClear
    rw [hdown, hsize']
  unfold ringFor
  simp only [hhops, hclear, hown]

theorem setDown_ways (l : List Nat) :
    (s.setDown l).course.ways = s.course.map.map fun m => (m.id, (s.setDown l).ringFor m.pos) := by
  have hmap : (s.putDown l).course.map = s.course.map := by rw [putDown_course]
  have hring (pos : Nat) : (s.setDown l).ringFor pos = (s.putDown l).ringFor pos :=
    ringFor_congr ((setDown_map l).trans hmap.symm) ((setDown_down l).trans (by rw [putDown_course]))
      (rd_raise_sep _ _ _ _ rfl rfl) (rd_raise_sep _ _ _ _ rfl rfl) pos
  rw [setDown_course]
  simp only [hring]
  show (s.putDown l).course.map.map (fun m => (m.id, (s.putDown l).ringFor m.pos)) = _
  rw [hmap]

theorem breakIn_id (pos : Nat) (hid : s.hasRingId = true) :
    s.breakIn pos = s.setDown (pos :: s.course.down.erase pos) := if_pos hid

theorem healIn_id (pos : Nat) (hid : s.hasRingId = true) : s.healIn pos = s.setDown (s.course.down.erase pos) := if_pos hid

end State
end Sys2Proof.Machine
end

section
/-! PROOFS. O24: the events of the Course's links -/

namespace Sys2Proof.Machine
namespace State
variable {s t u : State} {w : Bool}

/-! ## A link trains again with the neighbour that it had (R219) -/

/-- The ports reach RELAY where both links are up. -/
theorem toRelay_reads : (∀ b, ((s.wr pgCrs CRS_PORT_STATE csRelay).crsByMode).linkState b = s.linkState b) ∧
    ((s.wr pgCrs CRS_PORT_STATE csRelay).crsByMode).course = s.course ∧
    RegsIn (ofPage pgCrs) s (s.wr pgCrs CRS_PORT_STATE csRelay).crsByMode := by
  refine ⟨fun b => ?_, (Upd.after crsByMode_upd rfl <| (Upd.after wr_upd rfl .refl : Upd [.regs] s _)).frame .course (by decide), ?_⟩
  · cases b
    · exact (rd_crsByMode _ (.inr rfl) rfl).trans (rd_wr_sep _ _ _ _ _ _ rfl rfl rfl)
    · exact (rd_crsByMode _ (.inr rfl) rfl).trans (rd_wr_sep _ _ _ _ _ _ rfl rfl rfl)
  · unfold crsByMode
    have hrelay := (RegsIn.refl (s := s)).wr (p := pgCrs) (f := CRS_PORT_STATE) (v := csRelay) (ofPage_at pgCrs (by decide))
    exact hrelay.ite (hrelay.wr (ofPage_at pgCrs (by decide)))

theorem setLink_regsIn (st lanes : Nat) : RegsIn (ofPage pgCrs) s (s.setLink w st lanes) := by
  unfold setLink
  refine RegsIn.ite (RegsIn.wrs .refl ?_) (RegsIn.wrs .refl ?_) <;>
  · intro e he
    simp only [List.mem_cons, List.not_mem_nil, or_false] at he
    rcases he with rfl | rfl <;> exact ofPage_at pgCrs (o := 0x044) (by decide)

theorem linkUp_again {lanes serial : Nat} (hopen : s.crsState ≠ csBypass) (hlanes : lanes ≠ 0) (htrain : s.linkState w = 1)
    (hn : (s.cLink w).neighbour = some serial) (hreplay : (s.cLink w).replay = []) (hwait : waitingFlits (s.cLink w) = 0) :
    ∃ u, s.linkUp w lanes serial = u ∧ u.linkState w = 2 ∧ u.linkState (!w) = s.linkState (!w) ∧
      u.cLink w = { s.cLink w with neighbour := some serial, fails := [], slow := false, nakRun := 0 } ∧
      u.course.lane = s.course.lane ∧ RegsIn (ofPage pgCrs) s u := by
  obtain ⟨f, v, hf, hv, hup⟩ : ∃ (f : CLink → CLink) (v : State),
      f (s.cLink w) = { s.cLink w with neighbour := some serial, fails := [], slow := false, nakRun := 0 } ∧
      v = (s.setLink w 2 lanes).modLink w f ∧
      s.linkUp w lanes serial = if v.crsState = csTraining && v.linkState false = 2 && v.linkState true = 2 then
        (v.wr pgCrs CRS_PORT_STATE csRelay).crsByMode else v := by
    have hlink : (s.setLink w 2 lanes).cLink w = s.cLink w := cLink_congr (setLink_upd.frame .course (by decide)) w
    have hf : linkRestart (s.cLink w) serial (!s.course.map.any fun m => m.serial == serial && m.serial != 0) =
        { s.cLink w with neighbour := some serial, fails := [], slow := false, nakRun := 0 } := by
      rw [linkRestart, if_pos hn, ← hn]
    refine ⟨fun l => linkRestart l serial (!s.course.map.any fun m => m.serial == serial && m.serial != 0), _, hf, rfl, ?_⟩
    have hidle : waitingFlits (((s.setLink w 2 lanes).modLink w fun l =>
        linkRestart l serial (!s.course.map.any fun m => m.serial == serial && m.serial != 0)).cLink w) = 0 := by
      rw [cLink_modLink, hlink, hf]
      exact hwait
    unfold linkUp
    rw [if_neg (by simp [hopen, hlanes, htrain])]
    simp only [hn, htrain, hreplay, beq_self_eq_true, if_true, List.foldl_nil, pumpAll_idle hidle]
    rfl
  have hlink : v.cLink w = { s.cLink w with neighbour := some serial, fails := [], slow := false, nakRun := 0 } := by
    rw [hv, cLink_modLink, cLink_congr (setLink_upd.frame .course (by decide)), hf]
  have hlane : v.course.lane = s.course.lane := by
    rw [hv, lane_modLink, (setLink_upd : Upd [.regs] s _).frame .course (by decide)]
  have hregs : RegsIn (ofPage pgCrs) s v := by
    rw [hv]
    exact (setLink_regsIn 2 lanes).after (modLink_upd.frame .regs (by decide))
  have hstate (b : Bool) : v.linkState b = (s.setLink w 2 lanes).linkState b := by
    rw [hv]
    exact linkState_congr (modLink_upd.frame .regs (by decide)) b
  have hmine : v.linkState w = 2 := (hstate w).trans (linkState_setLink (by decide))
  have hother : v.linkState (!w) = s.linkState (!w) := (hstate _).trans (linkState_setLink_other 2 lanes)
  obtain ⟨hreads, hcourse, hrelay⟩ := toRelay_reads (s := v)
  refine ⟨_, hup, ?_⟩
  split
  · exact ⟨(hreads w).trans hmine, (hreads _).trans hother, (cLink_congr hcourse w).trans hlink, by rw [hcourse, hlane],
      hregs.trans hrelay⟩
  · exact ⟨hmine, hother, hlink, hlane, hregs⟩

/-! ## A link that goes down (R240) -/

theorem rd_setLink {f : Fld} (st lanes : Nat) (hoff : f.off ≠ 0x044 ∧ f.off < 0x1000) (hf : f.ok = true) :
    (s.setLink w st lanes).rd pgCrs f = s.rd pgCrs f := by
  obtain ⟨hne, hlt⟩ := hoff
  have hsep (g : Fld) (hg : g.off = 0x044) : f.sep g = true := by simp [Fld.sep, hg, Nat.mod_eq_of_lt hlt, hne]
  cases w
  · exact (rd_wr_sep _ _ _ _ _ _ (hsep _ rfl) hf rfl).trans (rd_wr_sep _ _ _ _ _ _ (hsep _ rfl) hf rfl)
  · exact (rd_wr_sep _ _ _ _ _ _ (hsep _ rfl) hf rfl).trans (rd_wr_sep _ _ _ _ _ _ (hsep _ rfl) hf rfl)

theorem linkState_setDown (b : Bool) (l : List Nat) : (s.setDown l).linkState b = s.linkState b := by
  cases b
  · exact rd_setDown l rfl rfl rfl
  · exact rd_setDown l rfl rfl rfl

/-- The position that names a link depends on the map and the ring's registers. -/
theorem linkPos_congr (hmap : t.course.map = s.course.map) (hsize : t.rd pgCrs CRS_RING_SIZE = s.rd pgCrs CRS_RING_SIZE)
    (hid : t.rd pgCrs CRS_ID_RING_ID = s.rd pgCrs CRS_ID_RING_ID) (b : Bool) : t.linkPos b = s.linkPos b := by
  unfold linkPos ownPos member ringId ringSize
  rw [hmap, hsize, hid]

theorem linkIsDown_id (htrain : s.linkState w = 1) (hid : s.hasRingId = true) :
    s.linkIsDown w =
      ((s.setLink w 3 0).sendCtl sgBreak (!w) [s.linkPos w]).setDown (s.linkPos w :: s.course.down.erase (s.linkPos w)) := by
  have hcourse : (s.setLink w 3 0).course = s.course := setLink_upd.frame .course (by decide)
  have hpos : (s.setLink w 3 0).linkPos w = s.linkPos w :=
    linkPos_congr (congrArg Course.map hcourse) (rd_setLink 3 0 (by decide) rfl) (rd_setLink 3 0 (by decide) rfl) w
  have hid' : (s.setLink w 3 0).hasRingId = true :=
    (congrArg (· == 1) (rd_setLink 3 0 (by decide) rfl)).trans hid
  unfold linkIsDown
  rw [if_neg (not_not.mpr htrain)]
  dsimp only
  rw [if_pos hid', hpos, hcourse]

/-! ## A retrain that fails -/

/-- What a failed retrain leaves of a link's record. -/
def retrainFailed (now : Nat) (l : CLink) : CLink :=
  { l with fails := now :: l.fails.filter fun t => now < t + 1000000
           slow := l.slow || decide (3 ≤ (now :: l.fails.filter fun t => now < t + 1000000).length) }

theorem retrainFail_course (now : Nat) (hst : s.linkState w = 1) (hlane : s.course.lane ≠ some w) :
    (s.retrainFail w now).course = (s.modLink w fun _ => retrainFailed now (s.cLink w)).course := by
  obtain ⟨f, b, g, hf, hop⟩ : ∃ (f : CLink → CLink) (b : Bool) (g : Fld), f (s.cLink w) = retrainFailed now (s.cLink w) ∧
      s.retrainFail w now = (if b then s.modLink w f else (s.modLink w f).bump pgCrs g).laneEnd w false :=
    ⟨fun x => { x with fails := _, slow := _ }, _, _, rfl, if_neg fun h => h.1 hst⟩
  have hcourse : (if b then s.modLink w f else (s.modLink w f).bump pgCrs g).course = (s.modLink w f).course := by
    cases b
    · exact bump_upd.frame .course (by decide)
    · rfl
  rw [hop, laneEnd_idle (by rw [hcourse, lane_modLink]; exact hlane), hcourse, ← hf]
  cases w <;> rfl

/-! ## Segments on their way (R229) -/

theorem onward_words (g : Segment) (n : Nat) : (onward g n).words = g.words := rfl

theorem forward_control {g : Segment} {n : Nat} (hrelay : csRelay ≤ s.crsState) (hid : s.hasRingId = true)
    (ht : g.typ.toNat = sgBreak) (hb : g.bcast = true) :
    s.forward g n = if ageEnd ≤ g.age.toNat + n + 1 then (s.bump pgCrs CRS_DROPS_AGED).unbuffer g
      else if s.linkState g.ringB = 3 then (s.bump pgCrs CRS_DROPS_NO_DEST).unbuffer g else s.putSeg true (onward g n) := by
  unfold forward
  have hopen : ¬ s.crsState < csRelay := Nat.not_lt.mpr hrelay
  simp [hopen, hid, ht, hb, sgData, sgBreak, sgHeal, sgBusy]

theorem forward_stranger {g : Segment} {n : Nat} (hrelay : csRelay ≤ s.crsState) (hid : s.hasRingId = false)
    (ht : g.typ.toNat = sgData) (hup : s.linkState g.ringB ≠ 3) : s.forward g n = s.putSeg true g := by
  unfold forward
  have hopen : ¬ s.crsState < csRelay := Nat.not_lt.mpr hrelay
  simp [hopen, hid, ht, hup, sgData, sgHeal]

end State

open State

/-- Settles O24, one lemma for each event of a link, on the links' records, states and DOWN links. -/
theorem courseLinksAct : Obligations.CourseLinksAct := by
  refine ⟨fun s w f hup hgood ht hnone => ?_, fun s w f hup hgood ht hnone => ?_, fun s w f hup hgood ht => ?_,
    fun s w f hup hbad => congrArg Host.Outcome.next (flitIn_bad hup hbad), fun s w typ p => ?_,
    fun s w ack hup hfirst => ?_, fun s w ack hup hrun hsame => ?_, fun s w hup => ?_, fun s w hslow hst => ?_,
    fun s w now hst hlane => ?_, fun s w lanes serial hopen htrain hlanes hlane hmode hn hreplay hwait => ?_,
    fun s w htrain hid => ?_, fun s w hup => ?_, fun s p hid => ?_, fun s g n hrelay hid ht hb hage hup => ?_,
    fun s g n hrelay hid ht hup => congrArg Host.Outcome.next (forward_stranger hrelay hid ht hup),
    fun s g n hrelay hid ht hb hage => ?_, fun s typ b l => ?_⟩
  · have hop := flitIn_quiet hup hgood (by rw [ht]; decide) hnone
    rw [if_pos ht] at hop
    refine (congrArg Host.Outcome.next hop).trans ?_
    have hf (l : CLink) : flitTaken f l = { l with
        rxSeq := f.seq.toNat, replay := unackedAfter f.ack.toNat l.replay, credit := l.credit + f.cred.toNat,
        held := l.held + 1, nakRun := 0 } := by
      unfold flitTaken
      rw [ht]
      rfl
    simp only [← hf]
  · have hop := flitIn_quiet hup hgood (by rw [ht]; decide) hnone
    rw [if_neg (by rw [ht]; decide)] at hop
    refine ⟨_, congrArg Host.Outcome.next hop, ?_, cLink_modLink_other _, modLink_upd.frame⟩
    rw [cLink_modLink, flitTaken, ht]
    rfl
  · refine (congrArg Host.Outcome.next (flitIn_nak hup hgood ht)).trans ?_
    have hf (l : CLink) : flitTaken f l = { l with
        rxSeq := f.seq.toNat, replay := unackedAfter f.ack.toNat l.replay, credit := l.credit + f.cred.toNat } := by
      unfold flitTaken
      rw [ht]
      rfl
    simp only [← hf]
  · refine ⟨_, rfl, rfl, rfl, rfl, rfl, rfl, ?_, ?_, sendFlit_upd.frame⟩
    · cases w <;> rfl
    · cases w <;> rfl
  · have hcount : nakCount (s.cLink w) ack.toNat = 1 := if_neg fun h => hfirst.elim h.1 fun hne => hne h.2
    obtain ⟨u, hcourse, hout, hu, hop⟩ := nakIn_eq ack.toNat hup
    rw [hcount, if_neg (by decide)] at hop
    obtain ⟨hsent, hkept⟩ := foldl_emit (s := u.modLink w (nakTaken ack.toNat 1)) (Emission.flit w)
      (unackedAfter ack.toNat (s.cLink w).replay)
    have hlink := (cLink_congr hkept w).trans (cLink_modLink u w _)
    rw [cLink_congr hcourse] at hlink
    refine ⟨_, congrArg Host.Outcome.next hop, ?_, ?_, ?_, ?_, ?_⟩
    · rw [hlink]; rfl
    · rw [hlink]; rfl
    · rw [hlink]; rfl
    · rw [hsent, show (u.modLink w (nakTaken ack.toNat 1)).out = s.out from hout]
    · exact hop ▸ nakIn_upd.frame
  · have hcount : nakCount (s.cLink w) ack.toNat = 8 := by
      rw [nakCount, if_pos ⟨by rw [hrun]; decide, hsame⟩, hrun]
    obtain ⟨u, _, _, hu, hop⟩ := nakIn_eq ack.toNat hup
    rw [if_pos hcount] at hop
    refine ⟨_, congrArg Host.Outcome.next hop, linkState_linkTrain, ?_⟩
    exact (Upd.after linkTrain_upd rfl <| Upd.after modLink_upd rfl <| hu.mono rfl).frame
  · exact ⟨_, congrArg Host.Outcome.next (if_pos hup), linkState_linkTrain, linkState_linkTrain_other, linkTrain_upd.frame⟩
  · refine ⟨_, congrArg Host.Outcome.next (if_pos ⟨hslow, hst⟩), ?_, bump_upd.frame⟩
    cases w <;> exact rd_bump _ _ rfl
  · have hcourse := retrainFail_course now.toNat hst hlane
    have hlink := (cLink_congr hcourse w).trans (cLink_modLink s w _)
    refine ⟨_, rfl, ?_, ?_, (cLink_congr hcourse _).trans (cLink_modLink_other _), (retrainFail_counts w now.toNat hst hlane).2.frame⟩
    · exact congrArg CLink.fails hlink
    · rw [hlink]
      simp [retrainFailed]
  · obtain ⟨u, hop, hmine, hother, hlink, hl, hregs⟩ := linkUp_again (lanes := 3) hopen (by decide) htrain hn hreplay hwait
    refine ⟨u, ?_, hmine, hother, hlink⟩
    have hdev : u.devMode = s.devMode := devMode_congr fun k f hf => hregs.rd_page (by cases k <;> decide) hf
    refine congrArg Host.Outcome.next ?_
    unfold linkTrained
    rw [hlanes]
    dsimp only
    rw [hop, if_pos hmine, laneEnd_idle (by rw [hl]; exact hlane), hdev, if_neg hmode]
  · have hst : ((s.setLink w 3 0).sendCtl sgBreak (!w) [s.linkPos w]).linkState w = 3 :=
      (linkState_congr (sendCtl_upd.frame .regs (by decide)) w).trans (linkState_setLink (by decide))
    refine ⟨_, congrArg Host.Outcome.next (linkIsDown_id htrain hid), rfl, ?_, setDown_down _, setDown_raw _⟩
    rw [linkState_setDown, hst]
  · exact congrArg Host.Outcome.next (if_pos (by rw [hup]; decide))
  · refine ⟨_, _, congrArg Host.Outcome.next (breakIn_id _ hid), setDown_down _, ?_, setDown_raw _, setDown_ways _,
      congrArg Host.Outcome.next (healIn_id _ hid), setDown_down _, ?_, setDown_raw _, setDown_ways _,
      setDown_upd.frame, setDown_upd.frame⟩
    · rw [setDown_breaks, setDown_down]
    · rw [setDown_breaks, setDown_down]
  · have hop := forward_control (n := n.toNat) hrelay hid ht hb
    rw [if_neg (Nat.not_le.mpr hage), if_neg hup] at hop
    refine ⟨congrArg Host.Outcome.next hop, rfl, ?_, onward_words g _⟩
    show (BitVec.ofNat 16 _).toNat = _
    rw [BitVec.toNat_ofNat, Nat.mod_eq_of_lt (by unfold ageEnd at hage; omega)]
  · have hop := forward_control (n := n.toNat) hrelay hid ht hb
    rw [if_pos hage] at hop
    refine ⟨_, congrArg Host.Outcome.next hop, ?_, (Upd.after unbuffer_upd rfl <| Upd.after bump_upd rfl .refl).frame⟩
    rw [rd_congr (unbuffer_upd.frame .regs (by decide))]
    exact rd_bump _ _ rfl
  · obtain ⟨sent, hout, hflits⟩ := sendCtl_out (s := s) typ b l
    exact ⟨sent, hout, hflits, sendCtl_upd.frame⟩

end Sys2Proof.Machine
end

section
/-! PROOFS. O25: the messages of the Course -/

namespace Sys2Proof.Machine
namespace State
variable {s t u : State} {w : Bool}

/-! ## What a link sends changes the two links' records alone -/

/-- Of the Course's state, only the records of the two links may differ. -/
def LinksIn (s t : State) : Prop := ∃ e w, t.course = { s.course with east := e, west := w }

theorem LinksIn.of_course (h : t.course = s.course) : LinksIn s t := ⟨s.course.east, s.course.west, h⟩

theorem LinksIn.trans (h : LinksIn s t) (h' : LinksIn t u) : LinksIn s u := by
  obtain ⟨_, _, ht⟩ := h
  obtain ⟨e, w, hu⟩ := h'
  exact ⟨e, w, by rw [hu, ht]⟩

theorem LinksIn.emit {e : Emission} (h : LinksIn s t) : LinksIn s (t.emit e) := h

theorem modLink_links (w : Bool) (f : CLink → CLink) : LinksIn s (s.modLink w f) := by
  cases w
  · exact ⟨f s.course.east, s.course.west, rfl⟩
  · exact ⟨s.course.east, f s.course.west, rfl⟩

theorem sendFlit_links (w : Bool) (typ : Nat) (p : List Byte) : LinksIn s (s.sendFlit w typ p) := by
  unfold sendFlit
  exact (modLink_links w _).emit

theorem sendIdle_links (w : Bool) : LinksIn s (s.sendIdle w) := by
  unfold sendIdle
  split
  · exact sendFlit_links w 1 []
  · exact .of_course rfl

theorem freeBuffers_links (w : Bool) (n : Nat) : LinksIn s (s.freeBuffers w n) := by
  unfold freeBuffers
  dsimp only
  split
  · exact .of_course rfl
  · exact (modLink_links w _).trans (sendIdle_links w)

theorem pump_links (w drain : Bool) (fuel : Nat) : LinksIn s (s.pump w drain fuel) := by
  induction fuel generalizing s with
  | zero => exact .of_course rfl
  | succ fuel ih =>
    unfold pump
    dsimp only
    split
    next => exact .of_course rfl
    next p rest _ =>
      split
      · refine LinksIn.trans ?_ ih
        have hsent (f : CLink → CLink) : LinksIn s ((s.modLink w f).sendFlit w 0 p) :=
          (modLink_links w f).trans (sendFlit_links w 0 p)
        split
        · exact (hsent _).trans (freeBuffers_links _ 1)
        · exact hsent _
      · exact .of_course rfl

theorem putSeg_links (thru : Bool) (g : Segment) : LinksIn s (s.putSeg thru g) :=
  LinksIn.trans (t := (s.modLink g.ringB _).emit (.segment g)) ((modLink_links _ _).trans (.of_course rfl)) (pump_links _ _ _)

theorem sendCtl_links (typ : Nat) (b : Bool) (l : List Nat) : LinksIn s (s.sendCtl typ b l) :=
  (LinksIn.of_course (t := s.emit _) rfl).trans (putSeg_links false _)

theorem broadcast_links (typ : Nat) (l : List Nat) : LinksIn s (s.broadcast typ l) :=
  (sendCtl_links typ false l).trans (sendCtl_links typ true l)

theorem unbuffer_links (g : Segment) : LinksIn s (s.unbuffer g) := freeBuffers_links _ _

/-! ## Segments that arrive (R229, R233) -/

theorem segmentIn_ends {g : Segment} (hmine : s.mine g = true)
    (hend : ageEnd ≤ g.age.toNat ∨ (g.typ.toNat = sgData ∧ s.ringSize ≤ g.hops.toNat)) :
    s.segmentIn g = (s.bump pgCrs CRS_DROPS_AGED).unbuffer g := by
  unfold segmentIn
  rw [hmine]
  exact if_pos hend

theorem dropped_reads {f : Fld} (g : Segment) (hf : f.ok = true) :
    ((s.bump pgCrs f).unbuffer g).rd pgCrs f = min f.max (s.rd pgCrs f + 1) ∧
      Unchanged [.regs, .out, .course] s ((s.bump pgCrs f).unbuffer g) :=
  ⟨(rd_congr (unbuffer_upd.frame .regs (by decide)) _ _).trans (rd_bump _ _ hf),
    (Upd.after unbuffer_upd rfl <| Upd.after bump_upd rfl .refl).frame⟩

/-- A DATA segment reaches the ingress store of a device that no STANDBY holds. -/
theorem segmentIn_data {g : Segment} (hmine : s.mine g = true) (hage : g.age.toNat < ageEnd) (ht : g.typ.toNat = sgData)
    (hhops : g.hops.toNat < s.ringSize) (hawake : s.seq.standby = .none) :
    s.segmentIn g = (s.unbuffer g).arrive g (s.devMode == mStandby) := by
  unfold segmentIn
  rw [hmine, if_neg (by decide), if_neg (by rw [not_or, not_and]; exact ⟨Nat.not_le.mpr hage, fun _ => Nat.not_le.mpr hhops⟩)]
  have hany : (s.unbuffer g).arriveAny g (s.devMode == mStandby) = (s.unbuffer g).arrive g (s.devMode == mStandby) := if_pos ht
  dsimp only
  rw [if_pos ht, hany]
  refine wakeSource_of_not_standby ?_ 4
  rw [arrive_upd.frame .seq (by decide), unbuffer_upd.frame .seq (by decide)]
  exact hawake

theorem arrive_frozen {g : Segment} {b : Bool} (hcrc : g.crc = segSum g) (hpeer : g.src.toNat ∈ s.security.peers) :
    s.arrive g b = s.bump pgCrs CRS_DROPS_FROZEN := by
  unfold arrive
  simp [hcrc, hpeer]

/-- The first segment of a message that has more, at an empty store. -/
theorem arrive_first {g : Segment} (hcrc : g.crc = segSum g) (hpeer : g.src.toNat ∉ s.security.peers) (hseg : g.seg = 0)
    (hmember : s.crsState = csMember) (hstay : s.course.leaving = false) (hlen : 64 < g.len.toNat)
    (hempty : s.course.ingress = []) (hfits : g.len.toNat * 64 ≤ storeSize) :
    s.arrive g false = (s.dropIn g.src.toNat g.tag.toNat).modCourse fun c => { c with ingress := c.ingress ++ [⟨g, 1, g.words⟩] } := by
  have hdone : inDone ⟨g, 1, g.words⟩ = false := by
    unfold inDone
    have : 1 ≠ (g.len.toNat + 63) / 64 := by omega
    simpa using this
  unfold arrive
  have hroom : ¬ 0 + g.len.toNat * 64 > storeSize := by omega
  simp only [hcrc, hpeer, hseg, hmember, hstay, hempty, hdone, bne_self_eq_false, List.contains_eq_mem, decide_false,
    Bool.false_eq_true, if_false, Bool.or_false, List.map_nil, List.sum_nil, hroom, Bool.false_and]
  simp

/-! ## Messages presented again (R232, R236) -/

theorem presentAgain_of {src tag : Nat} {m : InMsg} (hm : s.inMsg src tag = some m) (hdone : inDone m = true)
    (hmode : s.devMode ≠ mStandby) :
    s.presentAgain src tag = if s.crsState != csMember then (s.dropIn src tag).reply m.first sgRefuse cfNotServing
      else if s.inTurn m then s.present m else s := by
  unfold presentAgain
  rw [hm]
  simp [hdone, hmode]

theorem inMsg_key {src tag : Nat} {m : InMsg} (hm : s.inMsg src tag = some m) :
    m.first.src.toNat = src ∧ m.first.tag.toNat = tag := by
  simpa using List.find?_some hm

/-- The pusher that a ring message stands for. -/
def ringPusher (g : Segment) : Pusher := .ring g.src.toNat g.crew.toNat g.crewHeat.toNat g.world

theorem present_admitted {m : InMsg} (hcut : s.cut .west = false)
    (hcheck : s.pushCheck m.first.rhatch.toNat (ringPusher m.first) m.first.len.toNat = .admitted) :
    s.present m = ((s.dropIn m.first.src.toNat m.first.tag.toNat).admitted m.first.rhatch.toNat (ringPusher m.first)
      m.first.len.toNat m.bytes).reply m.first sgAccept 0 := by
  unfold ringPusher at hcheck
  unfold present
  simp only [hcut, hcheck, Bool.false_and, Bool.false_eq_true, if_false]
  rfl

theorem present_full {m : InMsg} (hcut : s.cut .west = false)
    (hcheck : s.pushCheck m.first.rhatch.toNat (ringPusher m.first) m.first.len.toNat = .refuse hcFull) :
    s.present m = s.refuse m.first.rhatch.toNat hcFull := by
  unfold ringPusher at hcheck
  unfold present
  simp only [hcut, hcheck, Bool.false_and, Bool.false_eq_true, if_false, beq_self_eq_true, Bool.true_or, if_true]

/-! ## Replies at the source (R230) -/

theorem settleLoad_of_not_deferred (h : s.loader.deferred = false) : s.settleLoad = s := by
  unfold settleLoad
  rw [h]
  rfl

theorem chainAccepted_idle (h : s.chain.sending = none) (tag : Nat) : s.chainAccepted tag = s := by
  unfold chainAccepted
  rw [h]

theorem chainRefused_idle (h : s.chain.sending = none) (tag : Nat) : s.chainRefused tag = s := by
  unfold chainRefused
  rw [h]

theorem replyIn_mine {g : Segment} {typ : Nat} (hmine : s.mine g = true) (ht : g.typ.toNat = typ) (hcrc : g.crc = segSum g) :
    s.replyIn g typ =
      (if (s.outMsg g.tag.toNat g.tagHeat.toNat g.src.toNat).isSome && typ == sgAccept then
        (s.onReply g).chainAccepted g.tag.toNat
      else if (s.outMsg g.tag.toNat g.tagHeat.toNat g.src.toNat).isSome && typ == sgRefuse then
        (s.onReply g).chainRefused g.tag.toNat
      else s.onReply g).settleLoad := by
  unfold replyIn
  rw [hmine, ht, bne_self_eq_false, ← hcrc, bne_self_eq_false]
  rfl

/-- A reply moves neither the chain on, where it sends nothing, nor a load that waits for it. -/
theorem replyIn_quiet {g : Segment} {typ : Nat} (hmine : s.mine g = true) (ht : g.typ.toNat = typ) (hcrc : g.crc = segSum g)
    (hchain : s.chain.sending = none ∨ typ = sgBusy ∨ s.outMsg g.tag.toNat g.tagHeat.toNat g.src.toNat = none)
    (hload : s.loader.deferred = false) :
    s.replyIn g typ = s.onReply g := by
  have hload' : (s.onReply g).loader.deferred = false := by rw [onReply_upd.frame .loader (by decide)]; exact hload
  have hsend : s.chain.sending = none → (s.onReply g).chain.sending = none := fun h => by
    rw [onReply_upd.frame .chain (by decide)]; exact h
  rw [replyIn_mine hmine ht hcrc]
  refine Eq.trans (congrArg settleLoad ?_) (settleLoad_of_not_deferred hload')
  rcases hchain with h | h | h
  · rw [chainAccepted_idle (hsend h), chainRefused_idle (hsend h), ite_self, ite_self]
  · rw [h, if_neg (by simp [sgBusy, sgAccept]), if_neg (by simp [sgBusy, sgRefuse])]
  · rw [h]
    rfl

theorem onReply_stale {g : Segment} (hm : s.outMsg g.tag.toNat g.tagHeat.toNat g.src.toNat = none) :
    s.onReply g = s.bump pgCrs CRS_DROPS_STALE := by
  unfold onReply
  rw [hm]

theorem onReply_held {g : Segment} {m : OutMsg} (hm : s.outMsg g.tag.toNat g.tagHeat.toNat g.src.toNat = some m) :
    s.onReply g = if g.typ.toNat = sgAccept then s.dropOut m.tag
      else if g.typ.toNat = sgRefuse then (s.dropOut m.tag).crsFail g.code.toNat m.dst m.crew m.cheat
      else s.modCourse fun c => { c with egress := c.egress.map fun x => if x.tag = m.tag then { x with busy := true } else x } := by
  unfold onReply
  rw [hm]

/-! ## Failures that CRS.REFUSE shows (R242) -/

/-- CRS.REFUSE after a failure: VALID, CODE and SEQ, with the event. -/
theorem crsFail_reads (code dst crew heat : Nat) :
    (s.crsFail code dst crew heat).rd pgCrs CRS_REFUSE0_VALID = 1 ∧
      (s.crsFail code dst crew heat).rd pgCrs CRS_REFUSE0_CODE = code % 16 ∧
      (s.crsFail code dst crew heat).rd pgCrs CRS_REFUSE0_SEQ = (s.rd pgCrs CRS_REFUSE0_SEQ + 1) % 16 ∧
      ((s.crsFail code dst crew heat).rd pgCrs PG_IRQ_RAW).testBit 1 = true ∧
      (s.crsFail code dst crew heat).course = s.course := by
  refine ⟨?_, ?_, ?_, raw_raise _ _ (by decide), crsFail_upd.frame .course (by decide)⟩
  · unfold crsFail
    rw [rd_raise_sep _ _ _ _ rfl rfl]
    simp only [wrs_cons, wrs_nil]
    rw [rd_wr_sep _ _ _ _ _ _ rfl rfl rfl, rd_wr_sep _ _ _ _ _ _ rfl rfl rfl, rd_wr_sep _ _ _ _ _ _ rfl rfl rfl,
      rd_wr_sep _ _ _ _ _ _ rfl rfl rfl, rd_wr_sep _ _ _ _ _ _ rfl rfl rfl, rd_wr _ _ _ _ rfl]
    rfl
  · unfold crsFail
    rw [rd_raise_sep _ _ _ _ rfl rfl]
    simp only [wrs_cons, wrs_nil]
    rw [rd_wr_sep _ _ _ _ _ _ rfl rfl rfl, rd_wr_sep _ _ _ _ _ _ rfl rfl rfl, rd_wr_sep _ _ _ _ _ _ rfl rfl rfl,
      rd_wr_sep _ _ _ _ _ _ rfl rfl rfl, rd_wr _ _ _ _ rfl]
    rfl
  · unfold crsFail
    rw [rd_raise_sep _ _ _ _ rfl rfl]
    simp only [wrs_cons, wrs_nil]
    rw [rd_wr_sep _ _ _ _ _ _ rfl rfl rfl, rd_wr_sep _ _ _ _ _ _ rfl rfl rfl, rd_wr_sep _ _ _ _ _ _ rfl rfl rfl,
      rd_wr_sep _ _ _ _ _ _ rfl rfl rfl, rd_wr_sep _ _ _ _ _ _ rfl rfl rfl, rd_wr_sep _ _ _ _ _ _ rfl rfl rfl,
      rd_step1_sep _ _ _ rfl rfl rfl, rd_step1 _ _ rfl]
    rfl

/-- A message held that fails, while the chain sends nothing. -/
theorem outFails_reads {m : OutMsg} (code : Nat) (hchain : s.chain.sending = none) :
    (s.outFails m code).rd pgCrs CRS_REFUSE0_VALID = 1 ∧ (s.outFails m code).rd pgCrs CRS_REFUSE0_CODE = code % 16 ∧
      ((s.outFails m code).rd pgCrs PG_IRQ_RAW).testBit 1 = true ∧
      (s.outFails m code).course.egress = s.course.egress.filter (fun x => x.tag != m.tag) ∧
      Unchanged [.regs, .out, .host, .cox, .course] s (s.outFails m code) := by
  have hop : s.outFails m code = (s.dropOut m.tag).crsFail code m.dst m.crew m.cheat := by
    refine chainRefused_idle ?_ m.tag
    rw [crsFail_upd.frame .chain (by decide)]
    exact hchain
  rw [hop]
  obtain ⟨hvalid, hcode, _, hraw, hcourse⟩ := crsFail_reads (s := s.dropOut m.tag) code m.dst m.crew m.cheat
  exact ⟨hvalid, hcode, hraw, by rw [hcourse]; rfl, (Upd.after crsFail_upd rfl <| Upd.after dropOut_upd rfl .refl).frame⟩

theorem resend_goes {tag : Nat} {m : OutMsg} {b : Bool} (hm : s.msgOf tag = some m) (hbusy : m.busy = true)
    (hway : s.wayTo m.dst = .inr b) :
    s.resend tag = (s.modCourse fun c => { c with
      egress := c.egress.map fun x => if x.tag = tag then { m with ringB := b, busy := false } else x }).emitMsg
        { m with ringB := b, busy := false } := by
  unfold resend
  rw [hm, Option.filter_some_pos hbusy]
  dsimp only
  rw [hway]

theorem resend_fails {tag : Nat} {m : OutMsg} {code : Nat} (hm : s.msgOf tag = some m) (hbusy : m.busy = true)
    (hway : s.wayTo m.dst = .inl code) : s.resend tag = s.outFails m code := by
  unfold resend
  rw [hm, Option.filter_some_pos hbusy]
  dsimp only
  rw [hway]

end State

open State

/-- Settles O25, by where the message stands: at its destination's store, before its hatch, or held at its source. -/
theorem courseMessagesAct : Obligations.CourseMessagesAct := by
  refine ⟨fun s g hmine hage => ?_, fun s g hmine ht hhops => ?_, fun s g hmine hage ht hcrc hhops hpeer hawake => ?_,
    fun s g hmine hage ht hcrc hhops hpeer hawake hmode hseg hmember hstay hlen hempty hfits => ?_,
    fun s src tag m hm hdone hmode hst => ?_, fun s src tag m hm hdone hmode hst hturn hcut hcheck => ?_,
    fun s src tag m hm hdone hmode hst hturn hcut hcheck => ?_, fun s src tag m hm hdone hmode hst hturn => ?_,
    fun s src tag m hm => ?_, fun s g m hmine ht hcrc hm hchain hload => ?_, fun s g m hmine ht hcrc hm hchain hload => ?_,
    fun s g m hmine ht hcrc hm hload => ?_, fun s g hmine ht hcrc hm hload => ?_, fun s tag m b hm hbusy hway => ?_,
    fun s tag m code hm hbusy hway hchain => ?_, fun s tag m hm hchain => ?_, fun s tag r hr => ?_⟩
  · obtain ⟨hcount, hrest⟩ := dropped_reads (s := s) (f := CRS_DROPS_AGED) g rfl
    exact ⟨_, congrArg Host.Outcome.next (segmentIn_ends hmine (.inl hage)), hcount, hrest⟩
  · obtain ⟨hcount, hrest⟩ := dropped_reads (s := s) (f := CRS_DROPS_AGED) g rfl
    exact ⟨_, congrArg Host.Outcome.next (segmentIn_ends hmine (.inr ⟨ht, hhops⟩)), hcount, hrest⟩
  · have hop := segmentIn_data hmine hage ht hhops hawake
    rw [arrive_frozen hcrc (by rw [unbuffer_upd.frame .security (by decide)]; exact hpeer)] at hop
    obtain ⟨e, w, hlinks⟩ := unbuffer_links (s := s) g
    refine ⟨_, congrArg Host.Outcome.next hop, ?_, ?_, (Upd.after bump_upd rfl <| Upd.after unbuffer_upd rfl .refl).frame⟩
    · rw [rd_bump _ _ rfl, rd_congr (unbuffer_upd.frame .regs (by decide))]
    · rw [bump_upd.frame .course (by decide), hlinks]
  · obtain ⟨e, w, hlinks⟩ := unbuffer_links (s := s) g
    have hop := segmentIn_data hmine hage ht hhops hawake
    rw [beq_false_of_ne hmode, arrive_first hcrc (by rw [unbuffer_upd.frame .security (by decide)]; exact hpeer) hseg
      ((rd_congr (unbuffer_upd.frame .regs (by decide)) _ _).trans hmember) (by rw [hlinks]; exact hstay) hlen
      (by rw [hlinks]; exact hempty) hfits] at hop
    refine ⟨_, congrArg Host.Outcome.next hop, ?_, (Upd.after modCourse_upd rfl <| Upd.after dropIn_upd rfl <| Upd.after unbuffer_upd rfl .refl).frame⟩
    show ((s.unbuffer g).course.ingress.filter _) ++ _ = _
    rw [hlinks]
    show (s.course.ingress.filter _) ++ _ = _
    rw [hempty]
    rfl
  · exact congrArg Host.Outcome.next ((presentAgain_of hm hdone hmode).trans (if_pos (bne_iff_ne.mpr hst)))
  · obtain ⟨hsrc, htag⟩ := inMsg_key hm
    have hop := presentAgain_of hm hdone hmode
    rw [hst, if_neg (by decide), if_pos hturn, present_admitted hcut hcheck, ringPusher, hsrc, htag] at hop
    exact congrArg Host.Outcome.next (hsrc ▸ hop)
  · have hop := presentAgain_of hm hdone hmode
    rw [hst, if_neg (by decide), if_pos hturn, present_full hcut hcheck] at hop
    exact ⟨_, congrArg Host.Outcome.next hop, rfl, refuse_upd.frame .course (by decide)⟩
  · have hop := presentAgain_of hm hdone hmode
    rw [hst, if_neg (by decide), hturn] at hop
    exact congrArg Host.Outcome.next hop
  · refine congrArg Host.Outcome.next ?_
    unfold ingressAged
    rw [hm]
  · have hop := replyIn_quiet hmine ht hcrc (.inl hchain) hload
    rw [onReply_held hm, if_pos ht] at hop
    exact ⟨_, congrArg Host.Outcome.next hop, rfl, rfl, dropOut_upd.frame⟩
  · have hop := replyIn_quiet hmine ht hcrc (.inl hchain) hload
    rw [onReply_held hm, if_neg (by rw [ht]; decide), if_pos ht] at hop
    obtain ⟨hvalid, hcode, hseq, hraw, hcourse⟩ := crsFail_reads (s := s.dropOut m.tag) g.code.toNat m.dst m.crew m.cheat
    refine ⟨_, congrArg Host.Outcome.next hop, by rw [hcourse]; rfl, hvalid, ?_, ?_, hraw,
      (Upd.after crsFail_upd rfl <| Upd.after dropOut_upd rfl .refl).frame⟩
    · rw [hcode, Nat.mod_eq_of_lt g.code.isLt]
    · rw [hseq, rd_congr (dropOut_upd.frame .regs (by decide))]
  · have hop := replyIn_quiet hmine ht hcrc (.inr (.inl rfl)) hload
    rw [onReply_held hm, if_neg (by rw [ht]; decide), if_neg (by rw [ht]; decide)] at hop
    exact ⟨_, congrArg Host.Outcome.next hop, rfl, modCourse_upd.frame⟩
  · have hop := replyIn_quiet hmine ht hcrc (.inr (.inr hm)) hload
    rw [onReply_stale hm] at hop
    exact ⟨_, congrArg Host.Outcome.next hop, rd_bump _ _ rfl, bump_upd.frame⟩
  · exact congrArg Host.Outcome.next (resend_goes hm hbusy hway)
  · have hop := resend_fails hm hbusy hway
    obtain ⟨hvalid, hcode, _, hegress, hrest⟩ := outFails_reads (m := m) code hchain
    exact ⟨_, congrArg Host.Outcome.next hop, hvalid, hcode, hegress, hrest⟩
  · have hop : s.outExpires tag.toNat = s.outFails m cfExpired := by
      unfold outExpires
      rw [hm]
    obtain ⟨hvalid, hcode, hraw, hegress, hrest⟩ := outFails_reads (m := m) cfExpired hchain
    exact ⟨_, congrArg Host.Outcome.next hop, hvalid, hcode, hraw, hegress, hrest⟩
  · refine ⟨_, rfl, ?_, modCourse_upd.frame⟩
    show Tbl.find (Tbl.mod s.course.tags tag.toNat _) tag.toNat = _
    rw [Tbl.find_mod, if_pos rfl, hr]
    rfl

end Sys2Proof.Machine
end

section
/-! PROOFS. The ring of the Course: control messages told, the map, ring IDs -/

namespace Sys2Proof.Machine
namespace State
variable {s t u : State} {w : Bool}

/-! ## Control messages told (R218, R224, R226) -/

theorem sendCtl_told (typ : Nat) (b : Bool) (l : List Nat) : s.Told (s.sendCtl typ b l) typ b l := by
  obtain ⟨sent, hout, hflits⟩ := sendCtl_out (s := s) typ b l
  exact ⟨sent, _, hout, rfl, rfl, rfl, rfl, hflits⟩

theorem Told.of_out {typ : Nat} {b : Bool} {l : List Nat} (h : u.Told t typ b l) (hout : u.out = s.out) :
    s.Told t typ b l := by
  obtain ⟨sent, g, ht, hg⟩ := h
  exact ⟨sent, g, by rw [ht, hout], hg⟩

theorem broadcast_told (typ : Nat) (l : List Nat) : s.ToldBoth (s.broadcast typ l) typ l :=
  ⟨_, sendCtl_told typ false l, sendCtl_told typ true l⟩

theorem ToldBoth.of_out {typ : Nat} {l : List Nat} (h : u.ToldBoth t typ l) (hout : u.out = s.out) : s.ToldBoth t typ l := by
  obtain ⟨v, hv, ht⟩ := h
  exact ⟨v, hv.of_out hout, ht⟩

theorem rd_sendCtl (typ : Nat) (b : Bool) (l : List Nat) (p : Nat) (f : Fld) : (s.sendCtl typ b l).rd p f = s.rd p f :=
  rd_congr (sendCtl_upd.frame .regs (by decide)) p f

theorem rd_broadcast (typ : Nat) (l : List Nat) (p : Nat) (f : Fld) : (s.broadcast typ l).rd p f = s.rd p f :=
  rd_congr (broadcast_upd.frame .regs (by decide)) p f

/-! ## A map of positions (R214, R223) -/

/-- The words that a map's size and its DOWN links are shown in, and its event. -/
abbrev sizeWords (a : Nat) : Prop := a ∈ [pgCrs * 0x1000 + 0x10, pgCrs * 0x1000 + 0x48]

/-- The words that show the ring ID, the ports, the ring's size and its events. -/
abbrev ringWords (a : Nat) : Prop :=
  a ∈ [pgCrs * 0x1000 + 0x10, pgCrs * 0x1000 + 0x40, pgCrs * 0x1000 + 0x44, pgCrs * 0x1000 + 0x48]

theorem ringWords_of_sizeWords (a : Nat) (h : sizeWords a) : ringWords a := by
  simp only [sizeWords, ringWords, List.mem_cons, List.not_mem_nil, or_false] at h ⊢
  omega

theorem ofPage_of_ringWords (a : Nat) (h : ringWords a) : ofPage pgCrs a := by
  simp only [ringWords, pgCrs, List.mem_cons, List.not_mem_nil, or_false] at h
  unfold ofPage pgCrs
  omega

theorem setSize_regsIn (n : Nat) : RegsIn sizeWords s (s.setSize n) := by
  unfold setSize
  exact RegsIn.ite .refl ((RegsIn.refl.wr (by decide)).raise (by decide))

theorem putDown_regsIn (l : List Nat) : RegsIn sizeWords s (s.putDown l) :=
  RegsIn.wr (t := s.modCourse _) (.of_regs rfl) (by decide)

/-- A map taken before the rings to its members are looked up. -/
def mapPlaced (s : State) (l : List Member) : State :=
  ((s.modCourse fun c => { c with map := l }).putDown
    (s.course.down.filterMap fun d => linkMoved s.course.map l d s.course.map.length).eraseDups).setSize l.length

theorem setMap_eq (l : List Member) : s.setMap l = (s.mapPlaced l).modCourse fun c =>
    { c with ways := l.map fun m => (m.id, ((c.ways.find? fun e => e.1 == m.id).map (·.2)).getD ((s.mapPlaced l).ringFor m.pos)) } :=
  rfl

theorem setMap_regs (l : List Member) : (s.setMap l).regs = (s.mapPlaced l).regs := rfl

theorem setMap_regsIn (l : List Member) : RegsIn sizeWords s (s.setMap l) := by
  refine RegsIn.after ?_ (setMap_regs l)
  unfold mapPlaced
  exact (RegsIn.of_regs (t := s.modCourse _) rfl).trans ((putDown_regsIn _).trans (setSize_regsIn _))

theorem setMap_course (l : List Member) :
    ∃ d y, (s.setMap l).course = { s.course with map := l, down := d, ways := y } := by
  have hset (u : State) (n : Nat) : (u.setSize n).course = u.course := setSize_upd.frame .course (by decide)
  have hplaced : ∃ d, (s.mapPlaced l).course = { s.course with map := l, down := d } := by
    unfold mapPlaced
    exact ⟨_, by rw [hset, putDown_course]; rfl⟩
  obtain ⟨d, hplaced⟩ := hplaced
  rw [setMap_eq]
  exact ⟨d, _, by rw [modCourse, hplaced]⟩

theorem ringSize_setSize {n : Nat} (hn : n < 2048) : (s.setSize n).ringSize = n := by
  unfold setSize
  split
  next h => exact h
  next => exact (rd_raise_sep _ _ _ _ rfl rfl).trans (rd_wr_fit _ _ rfl hn)

theorem ringSize_setMap {l : List Member} (hl : l.length < 2048) : (s.setMap l).ringSize = l.length := by
  refine (rd_congr (setMap_regs l) _ _).trans ?_
  unfold mapPlaced
  exact ringSize_setSize hl

theorem hasRingId_setMap (l : List Member) : (s.setMap l).hasRingId = s.hasRingId :=
  congrArg (· == 1) ((setMap_regsIn l).rd (by decide))

/-! ## Ring IDs given and given up (R223) -/

theorem crsByMode_regsIn : RegsIn ringWords s s.crsByMode := by
  unfold crsByMode
  exact RegsIn.ite .refl (RegsIn.refl.wr (by decide))

theorem clearId_regsIn : RegsIn ringWords s s.clearId := by
  unfold clearId
  refine RegsIn.trans (RegsIn.wrs .refl ?_) crsByMode_regsIn
  simp [ringWords, CRS_ID_VALID, CRS_ID_ACTING, CRS_ID_RING_ID]

theorem hasRingId_clearId : s.clearId.hasRingId = false := by
  refine congrArg (· == 1) (?_ : s.clearId.rd pgCrs CRS_ID_VALID = 0)
  unfold clearId
  rw [rd_crsByMode _ (.inr rfl) rfl]
  simp only [wrs_cons, wrs_nil]
  rw [rd_wr_sep _ _ _ _ _ _ rfl rfl rfl, rd_wr_sep _ _ _ _ _ _ rfl rfl rfl]
  exact rd_wr_fit _ _ rfl (by decide)

theorem ringSize_clearId : s.clearId.ringSize = s.ringSize := by
  refine (rd_crsByMode _ (.inr rfl) rfl).trans ?_
  simp only [wrs_cons, wrs_nil]
  rw [rd_wr_sep _ _ _ _ _ _ rfl rfl rfl, rd_wr_sep _ _ _ _ _ _ rfl rfl rfl, rd_wr_sep _ _ _ _ _ _ rfl rfl rfl]
  rfl

theorem clearId_course : s.clearId.course = s.course := clearId_upd.frame .course (by decide)

theorem clearRing_regsIn : RegsIn ringWords s s.clearRing :=
  (((RegsIn.of_regs (broadcast_upd.frame .regs (by decide))).trans
    ((setMap_regsIn []).mono ringWords_of_sizeWords)).trans clearId_regsIn)

theorem hasRingId_clearRing : s.clearRing.hasRingId = false := hasRingId_clearId

/-! ## What follows a change of the map -/

theorem chainStart_idle (h : s.on pgCrs CRS_ID_BOW = false ∨ s.hasRingId = false ∨ s.course.enum ≠ 0) : s.chainStart = s := by
  unfold chainStart
  refine if_pos ?_
  rcases h with h | h | h <;> simp [h]

/-- A device that does not load locally, has no chain to start and no load that waits goes on as it is. -/
theorem mapped_idle (hregs : RegsIn (ofPage pgCrs) s t) (hload : t.loader = s.loader) (hmode : s.devMode ≠ mLoadLocal)
    (hdef : s.loader.deferred = false) (h : t.on pgCrs CRS_ID_BOW = false ∨ t.hasRingId = false ∨ t.course.enum ≠ 0) :
    t.mapped = t := by
  have hdev : t.devMode = s.devMode := devMode_congr fun k f hf => hregs.rd_page (by cases k <;> decide) hf
  unfold mapped
  rw [if_neg (by rw [hdev]; exact hmode), chainStart_idle h]
  exact settleLoad_of_not_deferred (by rw [hload]; exact hdef)

/-! ## IDs held (R227) -/

theorem foldl_holdId (l : List Member) : ∃ h, (l.foldl holdId s).course = { s.course with heldIds := h } ∧
    (l.foldl holdId s).regs = s.regs := by
  induction l generalizing s with
  | nil => exact ⟨_, rfl, rfl⟩
  | cons m l ih =>
    obtain ⟨h, hcourse, hregs⟩ := ih (s := s.holdId m)
    exact ⟨h, hcourse, hregs⟩

end State
end Sys2Proof.Machine
end

section
/-! PROOFS. O26: the ring of the Course forms, admits and releases members -/

namespace Sys2Proof.Machine
namespace State
variable {s t u : State} {w : Bool}

/-! ## Tokens (R224, R225) -/

theorem portOpen_of_relay (h : csRelay ≤ s.crsState) : (!s.portOpen || decide (s.crsState = csTraining)) = false := by
  have hopen : s.crsState ≠ csBypass := by unfold csRelay at h; unfold csBypass; omega
  have htrained : s.crsState ≠ csTraining := by unfold csRelay at h; unfold csTraining; omega
  simp [portOpen, hopen, htrained]

theorem ownSerial_wrs (l : List (Fld × Nat)) : (s.wrs pgCrs l).ownSerial = s.ownSerial :=
  congrArg (fun x : Fuses => x.serial.west) (wrs_upd.frame .fuses (by decide))

theorem ownSerial_modCourse (f : Course → Course) : (s.modCourse f).ownSerial = s.ownSerial :=
  congrArg (fun x : Fuses => x.serial.west) (modCourse_upd.frame .fuses (by decide))

/-- A device without a ring ID takes the number of the token that comes in. -/
theorem enumIn_numbers {c serial dist : Nat} {b : Bool} {taken : List Nat} (hrelay : csRelay ≤ s.crsState)
    (hbow : s.on pgCrs CRS_ID_BOW = false) (hid : s.hasRingId = false) (hc : c < 1024) :
    s.enumIn c serial dist b taken =
      ((s.wrs pgCrs [(CRS_ID_VALID, 1), (CRS_ID_RING_ID, c)]).modCourse fun x => { x with place := some (b, dist) }).tokenOn b
        (c + 1) serial (taken ++ [s.ownSerial]) := by
  unfold enumIn
  rw [portOpen_of_relay hrelay, hbow, hid]
  simp only [Bool.false_eq_true, if_false, Nat.not_le.mpr hc, ownSerial_modCourse, ownSerial_wrs]

theorem enumIn_twoBows {c serial dist : Nat} {b : Bool} {taken : List Nat} (hrelay : csRelay ≤ s.crsState)
    (hbow : s.on pgCrs CRS_ID_BOW = true) (hserial : serial ≠ s.ownSerial) :
    s.enumIn c serial dist b taken =
      (s.clearRing.modCourse fun x => { x with enum := 0, twoBows := true, failed := false }).pgErr pgCrs 0x31 0 := by
  unfold enumIn
  rw [portOpen_of_relay hrelay, hbow]
  simp only [Bool.false_eq_true, if_false, if_true, hserial]

theorem enumIn_second {c dist : Nat} {taken : List Nat} (hrelay : csRelay ≤ s.crsState)
    (hbow : s.on pgCrs CRS_ID_BOW = true) (henum : s.course.enum = 1) (hup : s.linkState true ≠ 3) :
    s.enumIn c s.ownSerial dist true taken =
      (s.modCourse fun x => { x with enum := 2, enumMid := c }).token true c s.ownSerial taken := by
  unfold enumIn
  rw [portOpen_of_relay hrelay, hbow, henum]
  simp [hup]

/-- What the ID words hold once a device has taken an ID. -/
theorem idTaken_reads (c : Nat) :
    (s.wrs pgCrs [(CRS_ID_VALID, 1), (CRS_ID_RING_ID, c)]).hasRingId = true ∧
      (s.wrs pgCrs [(CRS_ID_VALID, 1), (CRS_ID_RING_ID, c)]).ringId = c % 1024 ∧
      (s.wrs pgCrs [(CRS_ID_VALID, 1), (CRS_ID_RING_ID, c)]).on pgCrs CRS_ID_BOW = s.on pgCrs CRS_ID_BOW ∧
      (∀ b, (s.wrs pgCrs [(CRS_ID_VALID, 1), (CRS_ID_RING_ID, c)]).linkState b = s.linkState b) := by
  simp only [wrs_cons, wrs_nil]
  refine ⟨congrArg (· == 1) (?_ : _ = 1), rd_wr _ _ _ _ rfl, congrArg (· == 1) ?_, fun b => ?_⟩
  · exact (rd_wr_sep _ _ _ _ _ _ rfl rfl rfl).trans (rd_wr_fit _ _ rfl (by decide))
  · exact (rd_wr_sep _ _ _ _ _ _ rfl rfl rfl).trans (rd_wr_sep _ _ _ _ _ _ rfl rfl rfl)
  · cases b
    · exact (rd_wr_sep _ _ _ _ _ _ rfl rfl rfl).trans (rd_wr_sep _ _ _ _ _ _ rfl rfl rfl)
    · exact (rd_wr_sep _ _ _ _ _ _ rfl rfl rfl).trans (rd_wr_sep _ _ _ _ _ _ rfl rfl rfl)

theorem idTaken_regsIn (c : Nat) : RegsIn ringWords s (s.wrs pgCrs [(CRS_ID_VALID, 1), (CRS_ID_RING_ID, c)]) :=
  RegsIn.wrs .refl (by simp [ringWords, CRS_ID_VALID, CRS_ID_RING_ID])

/-- What the bow notes when it begins to enumerate. -/
def enumBegun (c : Course) : Course := { c with enum := 1, enumMid := 1, taken := [], failed := false, place := none }

theorem enumerate_eq (hup : s.linkState false ≠ 3) :
    s.enumerate = ((s.wrs pgCrs [(CRS_ID_VALID, 1), (CRS_ID_RING_ID, 0)]).modCourse enumBegun).sendCtl sgEnum false
      [1, s.ownSerial] := by
  obtain ⟨_, _, _, hlinks⟩ := idTaken_reads (s := s) 0
  have hb : ((s.wrs pgCrs [(CRS_ID_VALID, 1), (CRS_ID_RING_ID, 0)]).linkState false == 3) = false := by
    rw [hlinks]
    exact beq_false_of_ne hup
  unfold enumerate token enumBegun
  simp only [hb, ownSerial_wrs, Bool.false_eq_true, if_false]

theorem enumBegun_reads {b : Bool} {l : List Nat} (hvalid : u.hasRingId = true) (hid : u.ringId = 0) (hout : u.out = s.out) :
    ((u.modCourse enumBegun).sendCtl sgEnum b l).hasRingId = true ∧ ((u.modCourse enumBegun).sendCtl sgEnum b l).ringId = 0 ∧
      ((u.modCourse enumBegun).sendCtl sgEnum b l).course.enum = 1 ∧
      ((u.modCourse enumBegun).sendCtl sgEnum b l).course.failed = false ∧
      s.Told ((u.modCourse enumBegun).sendCtl sgEnum b l) sgEnum b l := by
  obtain ⟨e, x, hlink⟩ := sendCtl_links (s := u.modCourse enumBegun) sgEnum b l
  refine ⟨?_, ?_, by rw [hlink]; rfl, by rw [hlink]; rfl, (sendCtl_told _ _ _).of_out hout⟩
  · exact (congrArg (· == 1) (rd_sendCtl _ _ _ _ _)).trans hvalid
  · exact (rd_sendCtl _ _ _ _ _).trans hid

theorem enumerate_reads (hup : s.linkState false ≠ 3) :
    s.enumerate.hasRingId = true ∧ s.enumerate.ringId = 0 ∧ s.enumerate.course.enum = 1 ∧ s.enumerate.course.failed = false ∧
      s.Told s.enumerate sgEnum false [1, s.ownSerial] := by
  obtain ⟨hvalid, hid, _, _⟩ := idTaken_reads (s := s) 0
  rw [enumerate_eq hup]
  exact enumBegun_reads hvalid hid (wrs_upd.frame .out (by decide))

/-- A token that comes in, where no chain starts and no load waits. -/
theorem enum_completes {c : BitVec 11} {serial : Nat} {d : BitVec 10} {b : Bool} {taken : List Nat}
    (hop : s.enumIn c.toNat serial d.toNat b taken = t) (hregs : RegsIn (ofPage pgCrs) s t) (hmode : s.devMode ≠ mLoadLocal)
    (hload : s.loader.deferred = false) (h : t.on pgCrs CRS_ID_BOW = false ∨ t.hasRingId = false ∨ t.course.enum ≠ 0) :
    exec (.enum c serial d b taken) s = .next t := by
  have hl : t.loader = s.loader := by
    rw [← hop]
    exact enumIn_upd.frame .loader (by decide)
  exact congrArg Host.Outcome.next ((congrArg mapped hop).trans (mapped_idle hregs hl hmode hload h))

/-- What follows of an ID taken from a token, whose number goes on. -/
theorem placed_reads {p : Bool × Nat} {b : Bool} {l : List Nat} :
    ((u.modCourse fun x => { x with place := some p }).sendCtl sgEnum b l).regs = u.regs ∧
      ((u.modCourse fun x => { x with place := some p }).sendCtl sgEnum b l).course.place = some p ∧
      u.Told ((u.modCourse fun x => { x with place := some p }).sendCtl sgEnum b l) sgEnum b l ∧
      Upd [.out, .course] u ((u.modCourse fun x => { x with place := some p }).sendCtl sgEnum b l) := by
  obtain ⟨e, x, hlink⟩ := sendCtl_links (s := u.modCourse fun x => { x with place := some p }) sgEnum b l
  exact ⟨sendCtl_upd.frame .regs (by decide), by rw [hlink]; rfl, (sendCtl_told _ _ _).of_out rfl,
    Upd.after sendCtl_upd rfl <| Upd.after modCourse_upd rfl .refl⟩

theorem tokenOn_placed {p : Bool × Nat} {b : Bool} {c serial : Nat} {l : List Nat} (hlinks : u.linkState b = s.linkState b) :
    (u.modCourse fun x => { x with place := some p }).tokenOn b c serial l =
      (u.modCourse fun x => { x with place := some p }).sendCtl sgEnum (if s.linkState b = 3 then !b else b) (c :: serial :: l) := by
  have h : (u.modCourse fun x => { x with place := some p }).linkState b = s.linkState b := hlinks
  unfold tokenOn token
  rw [h]

theorem numbered_reads {c serial dist : Nat} {b : Bool} {taken : List Nat} (hrelay : csRelay ≤ s.crsState)
    (hbow : s.on pgCrs CRS_ID_BOW = false) (hid : s.hasRingId = false) (hc : c < 1024) :
    ∃ t, s.enumIn c serial dist b taken = t ∧ RegsIn (ofPage pgCrs) s t ∧ t.on pgCrs CRS_ID_BOW = s.on pgCrs CRS_ID_BOW ∧
      t.hasRingId = true ∧ t.ringId = c ∧ t.course.place = some (b, dist) ∧
      s.Told t sgEnum (if s.linkState b = 3 then !b else b) ((c + 1) :: serial :: (taken ++ [s.ownSerial])) ∧
      Unchanged [.regs, .out, .course] s t := by
  obtain ⟨u, hvalid, hring, hbow', hlinks, hregs, hu, hop⟩ : ∃ u : State, u.hasRingId = true ∧ u.ringId = c % 1024 ∧
      u.on pgCrs CRS_ID_BOW = s.on pgCrs CRS_ID_BOW ∧ (∀ b, u.linkState b = s.linkState b) ∧ RegsIn ringWords s u ∧
      Upd [.regs] s u ∧ s.enumIn c serial dist b taken =
        (u.modCourse fun x => { x with place := some (b, dist) }).tokenOn b (c + 1) serial (taken ++ [s.ownSerial]) := by
    obtain ⟨hvalid, hring, hbow', hlinks⟩ := idTaken_reads (s := s) c
    exact ⟨_, hvalid, hring, hbow', hlinks, idTaken_regsIn c, wrs_upd, enumIn_numbers hrelay hbow hid hc⟩
  rw [tokenOn_placed (hlinks b)] at hop
  obtain ⟨hstand, hplace, htold, hrest⟩ := placed_reads (u := u) (p := (b, dist)) (b := if s.linkState b = 3 then !b else b)
    (l := (c + 1) :: serial :: (taken ++ [s.ownSerial]))
  refine ⟨_, hop, (hregs.mono ofPage_of_ringWords).after hstand, ?_, ?_, ?_, hplace, htold.of_out (hu.frame .out (by decide)),
    (Upd.after hrest rfl <| hu.mono rfl).frame⟩
  · exact (congrArg (· == 1) (rd_congr hstand _ _)).trans hbow'
  · exact (congrArg (· == 1) (rd_congr hstand _ _)).trans hvalid
  · exact (rd_congr hstand _ _).trans (hring.trans (Nat.mod_eq_of_lt hc))

/-- An error that the page records beside a change of the Course's own state. -/
theorem recorded_reads (f : Course → Course) (code : Nat) :
    ((u.modCourse f).pgErr pgCrs code 0).hasRingId = u.hasRingId ∧ RegsIn (ofPage pgCrs) u ((u.modCourse f).pgErr pgCrs code 0) ∧
      ((u.modCourse f).pgErr pgCrs code 0).course = f u.course ∧
      Upd [.regs, .course] u ((u.modCourse f).pgErr pgCrs code 0) := by
  have hhdr : RegsIn inHeader (u.modCourse f) ((u.modCourse f).pgErr pgCrs code 0) := pgErr_regsIn fun o ho => inHeader_at pgCrs ho
  have hpage : RegsIn (ofPage pgCrs) (u.modCourse f) ((u.modCourse f).pgErr pgCrs code 0) :=
    pgErr_regsIn fun o ho => ofPage_at pgCrs (by omega)
  exact ⟨congrArg (· == 1) (hhdr.rd (not_inHeader_at pgCrs (by decide) (by decide))), (RegsIn.of_regs rfl).trans hpage,
    pgErr_upd.frame .course (by decide), Upd.after pgErr_upd rfl <| Upd.after modCourse_upd rfl .refl⟩

/-- What the bow notes when it meets another bow, and when its enumeration is late. -/
def twoBowsNoted (c : Course) : Course := { c with enum := 0, twoBows := true, failed := false }
def enumLapsed (c : Course) : Course := { c with enum := 0, failed := true }

theorem twoBowsNoted_map (c : Course) : (twoBowsNoted c).map = c.map := rfl
theorem enumLapsed_map (c : Course) : (enumLapsed c).map = c.map := rfl

theorem twoBows_reads {c serial dist : Nat} {b : Bool} {taken : List Nat} (hrelay : csRelay ≤ s.crsState)
    (hbow : s.on pgCrs CRS_ID_BOW = true) (hserial : serial ≠ s.ownSerial) :
    ∃ t, s.enumIn c serial dist b taken = t ∧ RegsIn (ofPage pgCrs) s t ∧ t.hasRingId = false ∧ t.course.twoBows = true ∧
      t.course.map = [] ∧ Unchanged [.regs, .out, .host, .cox, .course] s t := by
  obtain ⟨hid, hregs, hcourse, hrest⟩ := recorded_reads (u := s.clearRing) twoBowsNoted 0x31
  refine ⟨_, enumIn_twoBows hrelay hbow hserial, (clearRing_regsIn.mono ofPage_of_ringWords).trans hregs,
    hid.trans hasRingId_clearRing, congrArg Course.twoBows hcourse, (congrArg Course.map hcourse).trans ((twoBowsNoted_map _).trans (clearRing_map s)),
    (Upd.after hrest rfl clearRing_upd).frame⟩

theorem secondToken_reads {c dist : Nat} {taken : List Nat} (hrelay : csRelay ≤ s.crsState)
    (hbow : s.on pgCrs CRS_ID_BOW = true) (henum : s.course.enum = 1) (hup : s.linkState true ≠ 3) :
    ∃ t, s.enumIn c s.ownSerial dist true taken = t ∧ RegsIn (ofPage pgCrs) s t ∧ t.course.enum = 2 ∧ t.course.enumMid = c ∧
      s.Told t sgEnum true (c :: s.ownSerial :: taken) ∧ Unchanged [.out, .course] s t := by
  obtain ⟨e, x, hlink⟩ := sendCtl_links (s := s.modCourse fun x => { x with enum := 2, enumMid := c }) sgEnum true
    (c :: s.ownSerial :: taken)
  refine ⟨_, enumIn_second hrelay hbow henum hup, .of_regs (sendCtl_upd.frame .regs (by decide)), ?_, ?_,
    (sendCtl_told _ _ _).of_out rfl, (Upd.after sendCtl_upd rfl <| Upd.after modCourse_upd rfl .refl).frame⟩
  · exact (congrArg Course.enum hlink).trans rfl
  · exact (congrArg Course.enumMid hlink).trans rfl

/-! ## A MAP that comes in (R223, R226, R238) -/

/-- What a device notes of a MAP before it takes the positions. -/
def mapNoted (s : State) (l : List Member) : State :=
  ((s.course.map.filter fun m => !l.any fun x => x.id == m.id).foldl holdId s).modCourse fun c =>
    { c with sawMap := true, place := none, heldIds := c.heldIds.filter fun e => !l.any fun x => x.id == e.id }

theorem mapNoted_course (l : List Member) : ∃ h, (s.mapNoted l).course =
    { s.course with sawMap := true, place := none, heldIds := h } ∧ (s.mapNoted l).regs = s.regs := by
  obtain ⟨h, hcourse, hregs⟩ := foldl_holdId (s := s) (s.course.map.filter fun m => !l.any fun x => x.id == m.id)
  refine ⟨h.filter fun e => !l.any fun x => x.id == e.id, ?_, hregs⟩
  unfold mapNoted
  rw [modCourse, hcourse]

theorem mapNoted_upd {l : List Member} : Upd [.course] s (s.mapNoted l) := by
  unfold mapNoted
  exact Upd.after modCourse_upd rfl <| Upd.foldl (fun _ _ h => Upd.after holdId_upd rfl h) _ .refl

theorem mapIn_empty (hopen : s.portOpen = true) (htrained : s.crsState ≠ csTraining) :
    s.mapIn [] = ((s.mapNoted []).setMap []).clearId := by
  unfold mapIn mapNoted
  rw [if_neg (by simp [hopen, htrained])]
  simp only [List.isEmpty_nil, if_true]

/-- A device without an ID finds its own serial in the map. -/
theorem mapIn_own {x : Member} (hopen : s.portOpen = true) (htrained : s.crsState ≠ csTraining)
    (hserial : x.serial = s.ownSerial) (hnz : x.serial ≠ 0) (hid : s.hasRingId = false) (hjoin : s.course.joining = false) :
    ∃ b, s.mapIn [x] = ((((s.mapNoted [x]).setMap [x]).wrs pgCrs [(CRS_ID_VALID, 1), (CRS_ID_RING_ID, x.id)]).chooseAll.wr
      pgCrs CRS_ID_ACTING (bit b)).crsByMode := by
  obtain ⟨_, _, hheld⟩ := foldl_holdId (s := s) (s.course.map.filter fun m => !([x] : List Member).any fun x => x.id == m.id)
  obtain ⟨_, hnoted, hregs⟩ := mapNoted_course (s := s) [x]
  have hwas : (((s.course.map.filter fun m => !([x] : List Member).any fun x => x.id == m.id)).foldl holdId s).hasRingId = false :=
    (congrArg (· == 1) (rd_congr hheld _ _)).trans hid
  have hnone : ((s.mapNoted [x]).setMap [x]).hasRingId = false :=
    (hasRingId_setMap _).trans ((congrArg (· == 1) (rd_congr hregs _ _)).trans hid)
  have hown : ((s.mapNoted [x]).setMap [x]).ownSerial = s.ownSerial :=
    congrArg (fun x : Fuses => x.serial.west) ((setMap_upd.frame .fuses (by decide)).trans (mapNoted_upd.frame .fuses (by decide)))
  have hstay : ((s.mapNoted [x]).setMap [x]).course.joining = false := by
    obtain ⟨_, _, hmap⟩ := setMap_course (s := s.mapNoted [x]) [x]
    rw [hmap, hnoted]
    exact hjoin
  have hfind : ([x] : List Member).find? (fun m => m.serial == s.ownSerial && m.serial != 0) = some x := by
    simp [← hserial, hnz]
  unfold mapIn
  rw [if_neg (by simp [hopen, htrained])]
  unfold mapNoted at hnone hown hstay ⊢
  simp only [hwas, hnone, hown, hfind, List.isEmpty_cons, Bool.false_eq_true, if_false, Bool.and_false]
  generalize State.setMap _ [x] = v at hstay
  have hstay' (l : List (Fld × Nat)) (b : Nat) : ((((v.wrs pgCrs l).chooseAll).wr pgCrs CRS_ID_ACTING b).crsByMode).course.joining = false := by
    rw [crsByMode_upd.frame .course (by decide), wr_upd.frame .course (by decide)]
    show ((v.wrs pgCrs l).course.joining) = false
    rw [wrs_upd.frame .course (by decide)]
    exact hstay
  cases v.member v.ringId <;>
  exact ⟨_, if_neg (by rw [hstay']; decide)⟩

/-! ## The acting bow (R226, R227, R238) -/

theorem beacon_acts (hopen : s.portOpen = true) (hlow : s.lowestHere = true) (henum : s.course.enum = 0)
    (hmap : s.course.map ≠ []) :
    s.beacon = (if s.on pgCrs CRS_ID_ACTING then s else s.becomeBow).broadcast sgMap
      (if s.on pgCrs CRS_ID_ACTING then s else s.becomeBow).mapWords := by
  unfold beacon
  rw [if_pos (by simp [hopen, hlow, henum, hmap])]

theorem becomeBow_map (hmap : s.course.map ≠ []) :
    s.becomeBow.course.map = s.course.map.map (fun m =>
      { m with pos := (m.pos + s.course.map.length - s.ownPos % s.course.map.length) % s.course.map.length }) := by
  have hlen : max 1 s.course.map.length = s.course.map.length := max_eq_right (List.length_pos_iff.mpr hmap)
  unfold becomeBow
  rw [wr_upd.frame .course (by decide), setMap_map, hlen]

/-- The acting bow answers a device that its map holds. -/
theorem joinIn_known {serial pos : Nat} (hact : s.on pgCrs CRS_ID_ACTING = true)
    (hknown : ∃ x ∈ s.course.map, x.serial = serial) (hnz : serial ≠ 0) :
    s.joinIn serial pos = s.broadcast sgMap s.mapWords := by
  obtain ⟨x, hx, hserial⟩ := hknown
  have hany : (s.course.map.any fun m => m.serial == serial && m.serial != 0) = true :=
    List.any_eq_true.mpr ⟨x, hx, by simp [hserial, hnz]⟩
  unfold joinIn
  rw [hact, hany]
  simp only [Bool.not_true, Bool.false_eq_true, if_false, if_true]

theorem none_known {serial : Nat} (hnew : ∀ x ∈ s.course.map, x.serial ≠ serial) :
    (s.course.map.any fun m => m.serial == serial && m.serial != 0) = false :=
  List.any_eq_false.mpr fun x hx => by simp [hnew x hx]

/-- The map with a device that joins at a position. -/
def mapJoined (s : State) (i pos serial : Nat) : List Member :=
  (s.course.map.map fun m => if pos ≤ m.pos then { m with pos := m.pos + 1 } else m) ++ [⟨i, pos, serial⟩]

theorem modCourse_congr {f g : Course → Course} (h : f s.course = g s.course) : s.modCourse f = s.modCourse g := by
  unfold modCourse
  rw [h]

/-- A device comes back to the ID that is kept for it. -/
theorem joinIn_held {serial pos i : Nat} (hact : s.on pgCrs CRS_ID_ACTING = true)
    (hnew : ∀ x ∈ s.course.map, x.serial ≠ serial) (hlen : s.course.map.length < 1024)
    (hheld : s.course.heldIds = [⟨i, serial, false, true⟩]) :
    ∃ l, s.joinIn serial pos =
      ((s.drew.modCourse fun c => { c with heldIds := [] }).setMap (s.mapJoined i pos serial)).broadcast sgMap l := by
  have hfind : (s.course.heldIds.find? fun e => e.kept && e.serial == serial) = some ⟨i, serial, false, true⟩ := by simp [hheld]
  have hgone : (s.drew.modCourse fun c => { c with heldIds := c.heldIds.filter fun e => e.id != i }) =
      s.drew.modCourse fun c => { c with heldIds := [] } := by
    refine modCourse_congr ?_
    show ({ s.course with heldIds := s.course.heldIds.filter fun e => e.id != i } : Course) = _
    rw [hheld]
    simp
  unfold joinIn
  rw [hact, none_known hnew, hfind]
  simp only [Bool.not_true, Bool.false_eq_true, if_false, Nat.not_le.mpr hlen, hgone]
  exact ⟨_, rfl⟩

theorem joinIn_barred {serial pos i : Nat} (hact : s.on pgCrs CRS_ID_ACTING = true)
    (hnew : ∀ x ∈ s.course.map, x.serial ≠ serial) (hheld : s.course.heldIds = [⟨i, serial, true, true⟩]) :
    s.joinIn serial pos = s := by
  have hfind : (s.course.heldIds.find? fun e => e.kept && e.serial == serial) = some ⟨i, serial, true, true⟩ := by simp [hheld]
  unfold joinIn
  rw [hact, none_known hnew, hfind]
  simp only [Bool.not_true, Bool.false_eq_true, if_false, if_true, ite_self]

/-- The map without a member. -/
def mapWithout (s : State) (m : Member) (id : Nat) : List Member :=
  (s.course.map.filter fun x => x.id != id).map fun x => if m.pos < x.pos then { x with pos := x.pos - 1 } else x

theorem mapWithout_ids {m : Member} {id : Nat} : ∀ x ∈ s.mapWithout m id, x.id ≠ id := by
  intro x hx
  obtain ⟨y, hy, rfl⟩ := List.mem_map.mp hx
  have hne : y.id ≠ id := by simpa using (List.mem_filter.mp hy).2
  split <;> exact hne

theorem memberGone_of {id : Nat} {m : Member} (hm : s.member id = some m) :
    s.memberGone id = (if ((s.setMap (s.mapWithout m id)).holdId m).on pgCrs CRS_ID_ACTING then
      ((s.setMap (s.mapWithout m id)).holdId m).broadcast sgMap ((s.setMap (s.mapWithout m id)).holdId m).mapWords
    else (s.setMap (s.mapWithout m id)).holdId m) := by
  unfold memberGone mapWithout
  rw [hm]

theorem memberGone_course {id : Nat} {m : Member} (hm : s.member id = some m) :
    (s.memberGone id).course.map = s.mapWithout m id ∧
      (⟨m.id, m.serial, true, s.rd pgCrs CRS_CFG_HOLD != 0⟩ : HeldId) ∈ (s.memberGone id).course.heldIds := by
  have hlinks : LinksIn ((s.setMap (s.mapWithout m id)).holdId m) (s.memberGone id) := by
    rw [memberGone_of hm]
    split
    · exact broadcast_links _ _
    · exact .of_course rfl
  obtain ⟨e, w, hlinks⟩ := hlinks
  have hhold : (s.setMap (s.mapWithout m id)).rd pgCrs CRS_CFG_HOLD = s.rd pgCrs CRS_CFG_HOLD := (setMap_regsIn _).rd (by decide)
  rw [hlinks]
  refine ⟨setMap_map _ _, ?_⟩
  show _ ∈ (s.setMap _).course.heldIds.filter _ ++ [_]
  rw [hhold]
  exact List.mem_append_right _ (.head _)

/-! ## CRS.REQ (R239) -/

theorem crsReqBy_takes {m : Master} (ht : s.Takes m pgCrs 0x6C) (op : Nat) :
    s.crsReqBy m op = (s.wr pgCrs CRS_REQ_OP op).crsReq op :=
  goTo_of_takes_store ht (store := fun s => s.wr pgCrs CRS_REQ_OP op)
    (congrArg (· == 1) (rd_wr_sep _ _ _ _ _ _ rfl rfl rfl)) fun s => s.crsReq op

theorem crsReqEnd_reads (ok : Bool) : (s.crsReqEnd ok).rd pgCrs CRS_REQ_STATUS = (if ok then 2 else 3) ∧
    ((s.crsReqEnd ok).rd pgCrs PG_IRQ_RAW).testBit 0 = true ∧ (s.crsReqEnd ok).course = s.course := by
  refine ⟨?_, raw_raise _ _ (by decide),
    (Upd.after raise_upd rfl <| Upd.after wr_upd rfl .refl : Upd [.regs, .out, .host, .cox] s _).frame .course (by decide)⟩
  exact (rd_raise_sep _ _ _ _ rfl rfl).trans (rd_wr_fit _ _ rfl (by cases ok <;> decide))

theorem crsReqEnd_regsIn (ok : Bool) : RegsIn (fun a => a = pgCrs * 0x1000 + 0x6C ∨ a = pgCrs * 0x1000 + 0x10) s (s.crsReqEnd ok) := by
  unfold crsReqEnd
  exact (RegsIn.refl.wr (.inl rfl)).raise (.inr rfl)

theorem crsReq_leave (hst : s.rd pgCrs CRS_REQ_STATUS ≠ 1) (hmember : s.crsState = csMember) :
    s.crsReq 1 = ((s.wr pgCrs CRS_REQ_STATUS 1).modCourse fun c => { c with leaving := true }).broadcast sgLeave [s.ringId] := by
  unfold crsReq
  rw [if_neg hst, if_pos ⟨rfl, hmember⟩]

theorem crsReq_leave_refused (hst : s.rd pgCrs CRS_REQ_STATUS ≠ 1) (hmember : s.crsState ≠ csMember) :
    s.crsReq 1 = s.crsReqEnd false := by
  unfold crsReq
  rw [if_neg hst, if_neg fun h => hmember h.2, if_neg fun h => absurd h.1 (by decide)]

theorem crsReq_join (hst : s.rd pgCrs CRS_REQ_STATUS ≠ 1) (hbypass : s.crsState = csBypass) (hleft : s.course.left = true)
    (hserv : inService s.devMode = true) :
    s.crsReq 2 = ((s.wr pgCrs CRS_REQ_STATUS 1).modCourse fun c =>
      { c with left := false, joining := true, sawMap := false }).openPorts := by
  unfold crsReq
  rw [if_neg hst, if_neg fun h => absurd h.1 (by decide), if_pos ⟨rfl, hbypass, hleft, hserv⟩]

theorem openPorts_reads : s.openPorts.crsState = csTraining ∧ (∀ b, s.openPorts.linkState b = 1) ∧
    s.openPorts.rd pgCrs CRS_REQ_STATUS = s.rd pgCrs CRS_REQ_STATUS ∧ s.openPorts.course = s.course := by
  unfold openPorts
  refine ⟨?_, fun b => ?_, ?_, (Upd.after setLink_upd rfl <| Upd.after setLink_upd rfl <| Upd.after wr_upd rfl .refl :
    Upd [.regs] s _).frame .course (by decide)⟩
  · exact (rd_wr_sep _ _ _ _ _ _ rfl rfl rfl).trans <| (rd_wr_sep _ _ _ _ _ _ rfl rfl rfl).trans <|
      (rd_wr_sep _ _ _ _ _ _ rfl rfl rfl).trans <| (rd_wr_sep _ _ _ _ _ _ rfl rfl rfl).trans (rd_wr_fit _ _ rfl (by decide))
  · cases b
    · exact (linkState_setLink_other (w := true) 1 0).trans (linkState_setLink (by decide))
    · exact linkState_setLink (by decide)
  · rw [rd_setLink _ _ (by decide) rfl, rd_setLink _ _ (by decide) rfl, rd_wr_sep _ _ _ _ _ _ rfl rfl rfl]

theorem closePorts_reads : s.closePorts.crsState = csBypass ∧ s.closePorts.hasRingId = false ∧
    ∃ d y, s.closePorts.course = { s.course with map := [], down := d, ways := y } := by
  obtain ⟨v, hv, hregs, hop⟩ : ∃ v : State, v.crsState = csBypass ∧ v.course = s.course ∧
      s.closePorts = (v.setMap []).wrs pgCrs [(CRS_ID_VALID, 0), (CRS_ID_ACTING, 0), (CRS_ID_RING_ID, 0)] := by
    refine ⟨((s.wr pgCrs CRS_PORT_STATE csBypass).setLink false 0 0).setLink true 0 0, ?_, ?_, rfl⟩
    · exact (rd_wr_sep _ _ _ _ _ _ rfl rfl rfl).trans <| (rd_wr_sep _ _ _ _ _ _ rfl rfl rfl).trans <|
        (rd_wr_sep _ _ _ _ _ _ rfl rfl rfl).trans <| (rd_wr_sep _ _ _ _ _ _ rfl rfl rfl).trans (rd_wr_fit _ _ rfl (by decide))
    · exact (Upd.after setLink_upd rfl <| Upd.after setLink_upd rfl <| Upd.after wr_upd rfl .refl :
        Upd [.regs] s _).frame .course (by decide)
  rw [hop]
  obtain ⟨d, y, hmap⟩ := setMap_course (s := v) []
  refine ⟨?_, ?_, d, y, by rw [wrs_upd.frame .course (by decide), hmap, hregs]⟩
  · simp only [wrs_cons, wrs_nil]
    unfold crsState
    rw [rd_wr_sep _ _ _ _ _ _ rfl rfl rfl, rd_wr_sep _ _ _ _ _ _ rfl rfl rfl, rd_wr_sep _ _ _ _ _ _ rfl rfl rfl]
    exact ((setMap_regsIn []).rd (by decide)).trans hv
  · refine congrArg (· == 1) (?_ : _ = 0)
    simp only [wrs_cons, wrs_nil]
    rw [rd_wr_sep _ _ _ _ _ _ rfl rfl rfl, rd_wr_sep _ _ _ _ _ _ rfl rfl rfl]
    exact rd_wr_fit _ _ rfl (by decide)

/-- What a device that has left keeps of the Course. -/
def courseLeft (c : Course) : Course :=
  { c with leaving := false, left := true, down := [], ingress := [], east := { CLink.fresh with offers := c.east.offers }
           west := { CLink.fresh with offers := c.west.offers } }

theorem leaveEnd_drained (hleave : s.course.leaving = true) (hempty : s.course.egress = []) :
    s.leaveEnd = (((((s.drain false).drain true).modCourse courseLeft).closePorts).wr pgCrs CRS_RING_BREAKS 0).crsReqEnd true := by
  unfold leaveEnd courseLeft
  rw [hleave, hempty]
  simp only [Bool.not_true, Bool.false_eq_true, if_false, List.foldl_nil]

/-! ## The end of a hold (R227) -/

theorem holdOver_named (id : Nat) (bar : Bool) :
    ∀ e ∈ (s.holdOver id bar).course.heldIds, e.id = id → e.barred = !bar ∧ e.kept = bar := by
  intro e he hid
  obtain ⟨hmem, hkeep⟩ := List.mem_filter.mp he
  obtain ⟨x, _, rfl⟩ := List.mem_map.mp hmem
  have hx : x.id = id := by
    revert hid
    split
    next h => exact fun _ => h
    next => exact fun h => h
  rw [if_pos hx] at hkeep ⊢
  cases bar
  · simpa using hkeep
  · simpa using hkeep

theorem holdOver_others {e : HeldId} {id : Nat} (bar : Bool) (he : e ∈ s.course.heldIds) (hne : e.id ≠ id)
    (hkeep : (e.barred || e.kept) = true) : e ∈ (s.holdOver id bar).course.heldIds :=
  List.mem_filter.mpr ⟨List.mem_map.mpr ⟨e, he, if_neg hne⟩, hkeep⟩

/-- A request that CRS.REQ takes: its OP is stored before it acts. -/
theorem crsReq_asked {m : Master} (ht : s.Takes m pgCrs 0x6C) (hst : s.rd pgCrs CRS_REQ_STATUS ≠ 1) (op : Nat) (hop : op < 16) :
    ∃ u : State, s.crsReqBy m op = u.crsReq op ∧ u.rd pgCrs CRS_REQ_STATUS ≠ 1 ∧ u.crsState = s.crsState ∧
      u.rd pgCrs CRS_REQ_OP = op ∧ u.ringId = s.ringId ∧ u.devMode = s.devMode ∧ Upd [.regs] s u := by
  have hregs : RegsIn (ofPage pgCrs) s (s.wr pgCrs CRS_REQ_OP op) := RegsIn.refl.wr (ofPage_at pgCrs (by decide))
  refine ⟨_, crsReqBy_takes ht op, ?_, rd_wr_sep _ _ _ _ _ _ rfl rfl rfl, rd_wr_fit _ _ rfl hop, rd_wr_sep _ _ _ _ _ _ rfl rfl rfl,
    devMode_congr fun k f hf => hregs.rd_page (by cases k <;> decide) hf, wr_upd⟩
  rw [rd_wr_sep _ _ _ _ _ _ rfl rfl rfl]
  exact hst

/-- What CRS.REQ shows once a device leaves, and whom it tells. -/
theorem leaving_reads (l : List Nat) :
    let t := ((u.wr pgCrs CRS_REQ_STATUS 1).modCourse fun c => { c with leaving := true }).broadcast sgLeave l
    t.rd pgCrs CRS_REQ_STATUS = 1 ∧ t.rd pgCrs CRS_REQ_OP = u.rd pgCrs CRS_REQ_OP ∧ t.course.leaving = true ∧
      u.ToldBoth t sgLeave l ∧ Upd [.regs, .out, .course] u t := by
  obtain ⟨v, hv, hop⟩ : ∃ v : State, v = (u.wr pgCrs CRS_REQ_STATUS 1) ∧
      ((u.wr pgCrs CRS_REQ_STATUS 1).modCourse fun c => { c with leaving := true }) = v.modCourse fun c => { c with leaving := true } :=
    ⟨_, rfl, rfl⟩
  have hst : v.rd pgCrs CRS_REQ_STATUS = 1 := by rw [hv]; exact rd_wr_fit _ _ rfl (by decide)
  have hasked : v.rd pgCrs CRS_REQ_OP = u.rd pgCrs CRS_REQ_OP := by rw [hv]; exact rd_wr_sep _ _ _ _ _ _ rfl rfl rfl
  have hu : Upd [.regs] u v := by rw [hv]; exact wr_upd
  rw [hop]
  obtain ⟨e, w, hlinks⟩ := broadcast_links (s := v.modCourse fun c => { c with leaving := true }) sgLeave l
  exact ⟨(rd_broadcast _ _ _ _).trans hst, (rd_broadcast _ _ _ _).trans hasked, congrArg Course.leaving hlinks,
    (broadcast_told _ _).of_out (hu.frame .out (by decide)), Upd.after broadcast_upd rfl <| Upd.after modCourse_upd rfl <| hu.mono rfl⟩

/-- What the ports show once a device comes back. -/
theorem joining_reads :
    let t := ((u.wr pgCrs CRS_REQ_STATUS 1).modCourse fun c => { c with left := false, joining := true, sawMap := false }).openPorts
    t.rd pgCrs CRS_REQ_STATUS = 1 ∧ t.crsState = csTraining ∧ (∀ b, t.linkState b = 1) ∧ t.course.joining = true ∧
      Upd [.regs, .course] u t := by
  obtain ⟨hstate, hlink, hstatus, hcourse⟩ := openPorts_reads (s := (u.wr pgCrs CRS_REQ_STATUS 1).modCourse fun c =>
    { c with left := false, joining := true, sawMap := false })
  have hkept : ((u.wr pgCrs CRS_REQ_STATUS 1).modCourse fun c => { c with left := false, joining := true, sawMap := false }).regs =
    (u.wr pgCrs CRS_REQ_STATUS 1).regs := modCourse_upd.frame .regs (by decide)
  exact ⟨hstatus.trans ((rd_congr hkept _ _).trans (rd_wr_fit _ _ rfl (by decide))), hstate, hlink, congrArg Course.joining hcourse,
    Upd.after openPorts_upd rfl <| Upd.after modCourse_upd rfl <| Upd.after wr_upd rfl .refl⟩

/-- What a device that has left shows. -/
theorem left_reads :
    let t := (((u.modCourse courseLeft).closePorts).wr pgCrs CRS_RING_BREAKS 0).crsReqEnd true
    t.crsState = csBypass ∧ t.hasRingId = false ∧
      (t.course.map = [] ∧ t.course.left = true ∧ t.course.leaving = false ∧ t.course.ingress = []) ∧
      t.rd pgCrs CRS_REQ_STATUS = 2 ∧ (t.rd pgCrs PG_IRQ_RAW).testBit 0 = true ∧ Upd [.regs, .out, .host, .cox, .course] u t := by
  obtain ⟨hstate, hid, d, y, hcourse⟩ := closePorts_reads (s := u.modCourse courseLeft)
  have hu : Upd [.regs, .out, .host, .cox, .course] u (u.modCourse courseLeft).closePorts :=
    Upd.after closePorts_upd rfl <| Upd.after modCourse_upd rfl .refl
  have hnoted : (u.modCourse courseLeft).course = courseLeft u.course := rfl
  rw [hnoted] at hcourse
  generalize (u.modCourse courseLeft).closePorts = v at *
  have hregs : RegsIn (fun a => a = pgCrs * 0x1000 + 0x6C ∨ a = pgCrs * 0x1000 + 0x10) (v.wr pgCrs CRS_RING_BREAKS 0)
    ((v.wr pgCrs CRS_RING_BREAKS 0).crsReqEnd true) := crsReqEnd_regsIn true
  obtain ⟨hend, hraw, hkept⟩ := crsReqEnd_reads (s := v.wr pgCrs CRS_RING_BREAKS 0) true
  have hall : ((v.wr pgCrs CRS_RING_BREAKS 0).crsReqEnd true).course = { courseLeft u.course with map := [], down := d, ways := y } :=
    hkept.trans ((wr_upd.frame .course (by decide)).trans hcourse)
  refine ⟨?_, ?_, ⟨congrArg Course.map hall, congrArg Course.left hall, congrArg Course.leaving hall, congrArg Course.ingress hall⟩,
    hend, hraw, Upd.after crsReqEnd_upd rfl <| Upd.after wr_upd rfl hu⟩
  · exact (hregs.rd (by decide)).trans ((rd_wr_sep _ _ _ _ _ _ rfl rfl rfl).trans hstate)
  · exact (congrArg (· == 1) ((hregs.rd (by decide)).trans (rd_wr_sep _ _ _ _ _ _ rfl rfl rfl))).trans hid

/-- What a MAP that comes in does, where no chain starts and no load waits. -/
theorem map_completes {l : List Member} (hop : s.mapIn l = t) (hregs : RegsIn (ofPage pgCrs) s t) (hmode : s.devMode ≠ mLoadLocal)
    (hload : s.loader.deferred = false) (h : t.on pgCrs CRS_ID_BOW = false ∨ t.hasRingId = false ∨ t.course.enum ≠ 0) :
    exec (.mapBeaconIn l) s = .next t := by
  have hl : t.loader = s.loader := by
    rw [← hop]
    exact mapIn_upd.frame .loader (by decide)
  exact congrArg Host.Outcome.next ((congrArg mapped hop).trans (mapped_idle hregs hl hmode hload h))

theorem actingNoted_reads (b : Bool) :
    (∀ f : Fld, f.sep CRS_PORT_STATE = true → f.sep CRS_ID_ACTING = true → f.ok = true →
      ((u.chooseAll.wr pgCrs CRS_ID_ACTING (bit b)).crsByMode).rd pgCrs f = u.rd pgCrs f) ∧
      ((u.chooseAll.wr pgCrs CRS_ID_ACTING (bit b)).crsByMode).course.map = u.course.map ∧
      ((u.chooseAll.wr pgCrs CRS_ID_ACTING (bit b)).crsByMode).course.sawMap = u.course.sawMap ∧
      RegsIn ringWords u ((u.chooseAll.wr pgCrs CRS_ID_ACTING (bit b)).crsByMode) := by
  have hkept : ((u.chooseAll.wr pgCrs CRS_ID_ACTING (bit b)).crsByMode).course = u.chooseAll.course :=
    (crsByMode_upd.frame .course (by decide)).trans (wr_upd.frame .course (by decide))
  refine ⟨fun f hst hact hf => ?_, ?_, ?_, ?_⟩
  · rw [rd_crsByMode _ (.inr hst) hf, rd_wr_sep _ _ _ _ _ _ hact hf rfl, rd_chooseAll]
  · rw [hkept]
    rfl
  · rw [hkept]
    rfl
  · exact ((RegsIn.of_regs (chooseAll_upd.frame .regs (by decide))).wr (by decide)).trans crsByMode_regsIn

/-- The ID, and the acting bow's mark, written once a device has found itself in a map. -/
theorem idFound_reads (id : Nat) (b : Bool) :
    let t := (((u.wrs pgCrs [(CRS_ID_VALID, 1), (CRS_ID_RING_ID, id)]).chooseAll.wr pgCrs CRS_ID_ACTING (bit b)).crsByMode)
    t.hasRingId = true ∧ t.ringId = id % 1024 ∧ t.on pgCrs CRS_ID_BOW = u.on pgCrs CRS_ID_BOW ∧ t.ringSize = u.ringSize ∧
      t.course.map = u.course.map ∧ t.course.sawMap = u.course.sawMap ∧ RegsIn ringWords u t := by
  obtain ⟨hvalid, hid, hbow, _⟩ := idTaken_reads (s := u) id
  have hregs := idTaken_regsIn (s := u) id
  have hsize : (u.wrs pgCrs [(CRS_ID_VALID, 1), (CRS_ID_RING_ID, id)]).ringSize = u.ringSize := by
    simp only [wrs_cons, wrs_nil]
    exact (rd_wr_sep _ _ _ _ _ _ rfl rfl rfl).trans (rd_wr_sep _ _ _ _ _ _ rfl rfl rfl)
  have hcourse : (u.wrs pgCrs [(CRS_ID_VALID, 1), (CRS_ID_RING_ID, id)]).course = u.course := wrs_upd.frame .course (by decide)
  obtain ⟨hread, hmap, hsaw, hnoted⟩ := actingNoted_reads (u := u.wrs pgCrs [(CRS_ID_VALID, 1), (CRS_ID_RING_ID, id)]) b
  exact ⟨(congrArg (· == 1) (hread _ rfl rfl rfl)).trans hvalid, (hread _ rfl rfl rfl).trans hid,
    (congrArg (· == 1) (hread _ rfl rfl rfl)).trans hbow, (hread _ rfl rfl rfl).trans hsize,
    hmap.trans (congrArg Course.map hcourse), hsaw.trans (congrArg Course.sawMap hcourse), hregs.trans hnoted⟩

/-- A device without an ID finds its own serial alone in the map. -/
theorem ownMap_reads {x : Member} (hopen : s.portOpen = true) (htrained : s.crsState ≠ csTraining)
    (hserial : x.serial = s.ownSerial) (hnz : x.serial ≠ 0) (hid : s.hasRingId = false) (hjoin : s.course.joining = false) :
    ∃ t, s.mapIn [x] = t ∧ RegsIn (ofPage pgCrs) s t ∧ t.on pgCrs CRS_ID_BOW = s.on pgCrs CRS_ID_BOW ∧ t.course.map = [x] ∧
      t.hasRingId = true ∧ t.ringId = x.id % 1024 ∧ t.ringSize = 1 ∧ t.course.sawMap = true := by
  obtain ⟨b, hop⟩ := mapIn_own hopen htrained hserial hnz hid hjoin
  obtain ⟨_, hnoted, hnregs⟩ := mapNoted_course (s := s) [x]
  obtain ⟨_, _, hmap⟩ := setMap_course (s := s.mapNoted [x]) [x]
  obtain ⟨hvalid, hring, hbow, hsize, hm, hsaw, hregs⟩ := idFound_reads (u := (s.mapNoted [x]).setMap [x]) x.id b
  have hplaced : RegsIn sizeWords s ((s.mapNoted [x]).setMap [x]) := (RegsIn.of_regs hnregs).trans (setMap_regsIn [x])
  refine ⟨_, hop, ((hplaced.mono ringWords_of_sizeWords).trans hregs).mono ofPage_of_ringWords, ?_, ?_, hvalid, hring, ?_, ?_⟩
  · exact hbow.trans (congrArg (· == 1) (hplaced.rd (by decide)))
  · rw [hm, hmap]
  · exact hsize.trans (ringSize_setMap (l := [x]) (by simp))
  · rw [hsaw, hmap, hnoted]

end State

open State

/-- Settles O26, event by event: what a token, a MAP, a JOIN, a LEAVE and CRS.REQ do to the map and the ring's registers. -/
theorem courseRingAct : Obligations.CourseRingAct := by
  refine ⟨fun s c serial d b taken hrelay hbow hid hc hmode hload => ?_,
    fun s c serial d b taken hrelay hbow hserial hmode hload => ?_,
    fun s c d taken hrelay hbow henum hup hmode hload => ?_, fun s hopen htrained hbow hmode hload => ?_,
    fun s x hopen htrained hbow hmode hload hserial hnz hid hjoin => ?_,
    fun s hrelay hbow hsaw hid htwo henum hup => ?_, fun s henum => ?_, fun s hfail henum htwo hup => ?_,
    fun s hopen hlow henum hmap hact => ?_, fun s hopen hlow henum hmap hact => ?_,
    fun s serial p hact hknown hnz => ?_, fun s serial i p hact hnew hlen hheld => ?_,
    fun s serial i p hact hnew hheld => ?_, fun s id x hid hne hx => ?_, fun s m ht hst hmember => ?_,
    fun s m ht hst hmember => ?_, fun s m ht hst hbypass hleft hserv => ?_, fun s hleave hempty => ?_, fun s id bar => ?_⟩
  · obtain ⟨t, hop, hregs, hbow', hvalid, hring, hplace, htold, hrest⟩ :=
      numbered_reads (serial := serial) (dist := d.toNat) (b := b) (taken := taken) hrelay hbow hid hc
    exact ⟨t, enum_completes hop hregs hmode hload (.inl (hbow'.trans hbow)), hvalid, hring, hplace, htold, hrest⟩
  · obtain ⟨t, hop, hregs, hid, htwo, hmap, hrest⟩ :=
      twoBows_reads (c := c.toNat) (dist := d.toNat) (b := b) (taken := taken) hrelay hbow hserial
    exact ⟨t, enum_completes hop hregs hmode hload (.inr (.inl hid)), htwo, hmap, hid, hrest⟩
  · obtain ⟨t, hop, hregs, henum2, hmid, htold, hrest⟩ := secondToken_reads (c := c.toNat) (dist := d.toNat) (taken := taken) hrelay hbow henum hup
    exact ⟨t, enum_completes hop hregs hmode hload (.inr (.inr (by rw [henum2]; decide))), henum2, hmid, htold, hrest⟩
  · have hop := mapIn_empty hopen htrained
    obtain ⟨_, hnoted, hnregs⟩ := mapNoted_course (s := s) []
    have hmap : ((s.mapNoted []).setMap []).clearId.course.map = [] := by rw [clearId_course, setMap_map]
    have hregs : RegsIn (ofPage pgCrs) s ((s.mapNoted []).setMap []).clearId :=
      (((RegsIn.of_regs hnregs).trans ((setMap_regsIn []).mono ringWords_of_sizeWords)).trans clearId_regsIn).mono ofPage_of_ringWords
    rw [← hop] at hmap hregs
    refine ⟨_, map_completes rfl hregs hmode hload (.inr (.inl ?_)), hmap, ?_, ?_, mapIn_upd.frame⟩
    · rw [hop]
      exact hasRingId_clearId
    · rw [hop]
      exact hasRingId_clearId
    · rw [hop, ringSize_clearId]
      exact ringSize_setMap (by decide)
  · obtain ⟨t, hop, hregs, hbow', hmap, hvalid, hid, hsize, hsaw⟩ := ownMap_reads hopen htrained hserial hnz hid hjoin
    refine ⟨t, map_completes hop hregs hmode hload (.inl (hbow'.trans hbow)), hmap, hvalid, hid, hsize, hsaw, ?_⟩
    rw [← hop]
    exact mapIn_upd.frame
  · obtain ⟨hvalid, hid0, henum1, _, htold⟩ := enumerate_reads hup
    have hop : s.mapWait = s.enumerate := if_pos ⟨hrelay, hbow, by rw [hsaw]; rfl, by rw [hid]; rfl, by rw [htwo]; rfl, henum⟩
    exact ⟨_, congrArg Host.Outcome.next hop, hvalid, hid0, henum1, htold, enumerate_upd.frame⟩
  · have hop : s.enumLate = (s.clearRing.modCourse enumLapsed).pgErr pgCrs 0x33 0 := if_neg henum
    obtain ⟨_, _, hcourse, hrest⟩ := recorded_reads (u := s.clearRing) enumLapsed 0x33
    refine ⟨_, congrArg Host.Outcome.next hop, congrArg Course.enum hcourse, congrArg Course.failed hcourse,
      (congrArg Course.map hcourse).trans ((enumLapsed_map _).trans (clearRing_map s)), fun hnone => ?_, (Upd.after hrest rfl clearRing_upd).frame⟩
    · have hclear : (s.clearRing.modCourse enumLapsed).rd pgCrs PG_ERR_VALID = 0 :=
        (rd_congr (modCourse_upd.frame .regs (by decide)) _ _).trans ((clearRing_regsIn.rd (by decide)).trans hnone)
      obtain ⟨hvalid, hcode, -, -⟩ := pgErr_first (code := 0x33) (addr := 0) hclear (by decide) (by decide)
      exact ⟨hvalid, hcode⟩
  · obtain ⟨hvalid, hid0, henum1, hfailed, htold⟩ := enumerate_reads hup
    have hop : s.enumAgain = s.enumerate := if_pos ⟨hfail, henum, by rw [htwo]; rfl⟩
    exact ⟨_, congrArg Host.Outcome.next hop, hid0, henum1, hfailed, htold, enumerate_upd.frame⟩
  · have hop := beacon_acts hopen hlow henum hmap
    rw [if_pos hact] at hop
    exact ⟨_, congrArg Host.Outcome.next hop, broadcast_told _ _, broadcast_upd.frame⟩
  · have hop := beacon_acts hopen hlow henum hmap
    rw [if_neg (by rw [hact]; decide)] at hop
    obtain ⟨e, w, hlinks⟩ := broadcast_links (s := s.becomeBow) sgMap s.becomeBow.mapWords
    refine ⟨_, congrArg Host.Outcome.next hop, ?_, ?_, (Upd.after broadcast_upd rfl <| Upd.after becomeBow_upd rfl .refl).frame⟩
    · exact (rd_broadcast _ _ _ _).trans (rd_wr_fit _ _ rfl (by decide))
    · rw [hlinks]
      exact becomeBow_map hmap
  · exact ⟨_, congrArg Host.Outcome.next (joinIn_known hact hknown hnz), broadcast_told _ _, broadcast_upd.frame⟩
  · obtain ⟨l, hop⟩ := joinIn_held (pos := p.toNat) hact hnew hlen hheld
    obtain ⟨e, w, hlinks⟩ := broadcast_links (s := (s.drew.modCourse fun c => { c with heldIds := [] }).setMap
      (s.mapJoined i p.toNat serial)) sgMap l
    obtain ⟨d, y, hmap⟩ := setMap_course (s := s.drew.modCourse fun c => { c with heldIds := [] }) (s.mapJoined i p.toNat serial)
    rw [hmap] at hlinks
    refine ⟨_, congrArg Host.Outcome.next hop, ?_, ?_, ?_, ?_⟩
    · rw [hlinks]
      exact List.mem_append_right _ (.head _)
    · rw [hlinks]
      show (s.mapJoined i p.toNat serial).length = _
      simp [mapJoined]
    · rw [hlinks]
      rfl
    · exact (Upd.after broadcast_upd rfl <| Upd.after setMap_upd rfl <| Upd.after modCourse_upd rfl <|
        Upd.after drew_upd rfl .refl).frame
  · exact congrArg Host.Outcome.next (joinIn_barred hact hnew hheld)
  · obtain ⟨hmap, hheld⟩ := memberGone_course hx
    refine ⟨_, congrArg Host.Outcome.next (if_neg ?_), ?_, hheld, memberGone_upd.frame⟩
    · simp [hne]
    · rw [hmap]
      exact mapWithout_ids
  · obtain ⟨u, hop, hst', hst2, hop2, hid, _, hu⟩ := crsReq_asked ht hst 1 (by decide)
    have hleave := crsReq_leave hst' (hst2.trans hmember)
    rw [hid] at hleave
    obtain ⟨hstatus, hop', hleaving, htold, hrest⟩ := leaving_reads (u := u) [s.ringId]
    exact ⟨_, congrArg Host.Outcome.next (hop.trans hleave), hstatus, hop'.trans hop2, hleaving,
      htold.of_out (hu.frame .out (by decide)), (Upd.after hrest rfl <| hu.mono rfl).frame⟩
  · obtain ⟨u, hop, hst', hst2, _, _, _, hu⟩ := crsReq_asked ht hst 1 (by decide)
    have hrefused := crsReq_leave_refused hst' (fun h => hmember (hst2.symm.trans h))
    obtain ⟨hstatus, hraw, hcourse⟩ := crsReqEnd_reads (s := u) false
    exact ⟨_, congrArg Host.Outcome.next (hop.trans hrefused), hstatus, hraw, hcourse.trans (hu.frame .course (by decide))⟩
  · obtain ⟨u, hop, hst', hst2, _, _, hdev, hu⟩ := crsReq_asked ht hst 2 (by decide)
    have hjoin := crsReq_join hst' (hst2.trans hbypass) ((congrArg Course.left (hu.frame .course (by decide))).trans hleft)
      (by rw [hdev]; exact hserv)
    obtain ⟨hstatus, hstate, hlink, hjoining, hrest⟩ := joining_reads (u := u)
    exact ⟨_, congrArg Host.Outcome.next (hop.trans hjoin), hstatus, hstate, hlink true, hlink false, hjoining,
      (Upd.after hrest rfl <| hu.mono rfl).frame⟩
  · have hop := leaveEnd_drained hleave hempty
    obtain ⟨hstate, hid, hcourse, hend, hraw, hrest⟩ := left_reads (u := (s.drain false).drain true)
    obtain ⟨hmap, hleft, hleaving, hingress⟩ := hcourse
    exact ⟨_, congrArg Host.Outcome.next hop, hstate, hid, hmap, hleft, hleaving, hingress, hend, hraw,
      (Upd.after hrest rfl <| Upd.after drain_upd rfl <| Upd.after drain_upd rfl .refl).frame⟩
  · exact ⟨_, rfl, holdOver_named _ _, fun e he hne hkeep => holdOver_others _ he hne hkeep, modCourse_upd.frame⟩

end Sys2Proof.Machine
end

section
/-! PROOFS. O27: a calibration that counts 0 where the factory count is 0 -/

namespace Sys2Proof.Machine
namespace State
variable {s : State}

/-- A device whose factory count (R305) is 0, with a calibration under way. -/
def uncalibrated : State := { State.reset with g2 := { State.reset.g2 with calRun := true, ref := 0 } }

/-- With a factory count of 0, a count of 0 lies within the bounds 34 × 0 ≤ 40 × 0 ≤ 60 × 0, so the scaler takes it. -/
theorem g2Calibrated_zero (hrun : s.g2.calRun = true) (href : s.g2.ref = 0) : (s.g2Calibrated 0).g2.count = 0 := by
  have hop : ∃ u : State, u.g2.count = 0 ∧ s.g2Calibrated 0 = (u.step1 pgG2c G2C_CAL_SEQ).wrs pgG2c
      [(G2C_CAL_VALID, 1), (G2C_CAL_STATUS, 0), (G2C_CAL_STEP, 0xFFFF)] := by
    refine ⟨{ s with g2 := { s.g2 with calRun := false, held := false, count := 0 } }, rfl, ?_⟩
    unfold g2Calibrated
    simp [hrun, href, bit]
  obtain ⟨u, hcount, hop⟩ := hop
  rw [hop, wrs_upd.frame .g2 (by decide), step1_upd.frame .g2 (by decide), hcount]

end State

open State

/-- Refutes O27: its last clause says that a calibration that counts 0 leaves the scaler as it was. With a factory count of 0 a
count of 0 lies within the bounds of R305 as the model takes them, and the scaler becomes 0. -/
theorem not_g2LoadAct : ¬ Obligations.G2LoadAct := by
  unfold Obligations.G2LoadAct
  rintro ⟨-, -, -, -, -, -, -, -, -, -, -, -, -, -, -, -, hzero⟩
  obtain ⟨t, hop, hcount, -⟩ := hzero uncalibrated rfl
  have ht : uncalibrated.g2Calibrated 0 = t := Host.Outcome.next.inj hop
  rw [← ht, g2Calibrated_zero rfl rfl] at hcount
  exact absurd hcount (by decide)

end Sys2Proof.Machine
end

section
/-! PROOFS. O28: the register file of RUN-G2 -/

namespace Sys2Proof.Machine
namespace State
variable {s t u : State} {n k v : Nat}

/-! ## The register file as stored (R306, Table 9.9) -/

theorem g2Fld_sep (hne : n ≠ k) (hn : n < 64) (hk : k < 64) : (G2C_REG_VALUE.at 4 n).sep (G2C_REG_VALUE.at 4 k) = true := by
  have h : (0x100 + 4 * n) % 4096 ≠ (0x100 + 4 * k) % 4096 := by omega
  simp [Fld.sep, Fld.at, G2C_REG_VALUE, h]

theorem g2Raw_put : (s.g2Put n v).g2Raw n = v % 256 := rd_wr _ _ _ _ rfl

theorem g2Raw_put_other (hne : n ≠ k) (hn : n < 64) (hk : k < 64) : (s.g2Put k v).g2Raw n = s.g2Raw n :=
  rd_wr_sep _ _ _ _ _ _ (g2Fld_sep hne hn hk) rfl rfl

theorem g2Raw_emit (e : Emission) : (s.emit e).g2Raw n = s.g2Raw n := rd_emit _ _

theorem g2Raw_lt : s.g2Raw n < 256 := rd_lt _ _ _

theorem pwr_sep (hn : n < 64) : (G2C_REG_VALUE.at 4 n).sep G2C_STAT_PWR = true := by
  have h : (0x100 + 4 * n) % 4096 ≠ 0x044 := by omega
  simp [Fld.sep, Fld.at, G2C_REG_VALUE, G2C_STAT_PWR, h]

theorem g2Raw_power (hn : n < 64) : (s.g2Power v).g2Raw n = if n = 4 then v % 256 else s.g2Raw n := by
  refine (rd_wr_sep _ _ _ _ _ _ (pwr_sep hn) rfl rfl).trans ?_
  split
  next h => rw [h]; exact g2Raw_put
  next h => exact g2Raw_put_other h hn (by decide)

theorem g2Power_pwr (hv : v < 4) : (s.g2Power v).rd pgG2c G2C_STAT_PWR = v := rd_wr_fit _ _ rfl hv

theorem g2Put_regsIn (hn : n < 64) : RegsIn (ofPage pgG2c) s (s.g2Put n v) :=
  RegsIn.refl.wr (ofPage_at pgG2c (by show 0x100 + 4 * n < 0x1000; omega))

theorem g2Power_regsIn : RegsIn (ofPage pgG2c) s (s.g2Power v) := (g2Put_regsIn (by decide)).wr (ofPage_at pgG2c (by decide))

theorem g2PortWake_regsIn : RegsIn (ofPage pgG2c) s s.g2PortWake := by
  unfold g2PortWake
  exact RegsIn.ite g2Power_regsIn .refl

theorem g2GatedAcc_regsIn : RegsIn (ofPage pgG2c) s s.g2GatedAcc := g2Put_regsIn (by decide)

theorem g2Tick_regsIn : RegsIn (ofPage pgG2c) s s.g2Tick := by
  unfold g2Tick g2SetLeft
  exact RegsIn.ite ((((g2Put_regsIn (by decide)).trans (g2Put_regsIn (by decide))).trans (g2Put_regsIn (by decide))).after
    (drew_upd.frame .regs (by decide))) .refl

/-- The strobe's overlay is no register of the block. -/
theorem strobeOverlay_of_regsIn (h : RegsIn (ofPage pgG2c) s t) : t.strobeOverlay = s.strobeOverlay := by
  unfold strobeOverlay
  rw [h.rd_page (by decide) (by decide)]

theorem g2PortWake_idle (h : (s.g2Raw 5).testBit 1 = false) : s.g2PortWake = s := if_neg (by rw [h]; decide)

/-- An access to a gated group sets GATED_ACC, and no register but STATUS changes. -/
theorem g2GatedAcc_bit : (s.g2GatedAcc.g2Raw 3).testBit 3 = true := by
  have h : s.g2GatedAcc.g2Raw 3 = setBit (s.g2Raw 3) 3 true % 2 ^ 8 := g2Raw_put
  rw [h, Nat.testBit_mod_two_pow, testBit_setBit]
  rfl

theorem g2Raw_gatedAcc (hne : n ≠ 3) (hn : n < 64) : s.g2GatedAcc.g2Raw n = s.g2Raw n := g2Raw_put_other hne hn (by decide)

/-- What a gated group holds. -/
theorem g2Shut_usr (husr : g2Usr n = true) : s.g2Shut n = (s.g2Raw 4 % 4 == 2) := by
  unfold g2Shut
  rw [husr, Bool.true_and]

theorem g2Shut_other (husr : g2Usr n = false) : s.g2Shut n = false := by
  unfold g2Shut
  rw [husr, Bool.false_and]

/-! ## Reads (R308, R311) -/

theorem portRead_open (hport : s.hostPort false = true) : s.portRead n =
    (s.g2Read n).2.g2PortWake.emit (.g2Strobe (s.g2Read n).2.g2PortWake.strobeOverlay (some (BitVec.ofNat 8 (s.g2Read n).1))) :=
  if_pos hport

theorem g2Read_plain (hopen : s.g2Shut n = false) (htimer : n < 8 ∨ 10 < n) : s.g2Read n = (s.g2Value n, s) := by
  have hfresh : s.g2Fresh n = s := if_neg (by omega)
  unfold g2Read
  rw [hopen]
  simp only [Bool.false_eq_true, if_false, hfresh]

theorem g2Read_timer (h8 : 8 ≤ n) (h10 : n ≤ 10) : s.g2Read n = (s.g2Tick.g2Raw n, s.g2Tick) := by
  have hfresh : s.g2Fresh n = s.g2Tick := if_pos ⟨h8, h10⟩
  have husr : g2Usr n = false := by
    unfold g2Usr
    simp
    omega
  have hvalue (t : State) : t.g2Value n = t.g2Raw n := by
    obtain rfl | rfl | rfl : n = 8 ∨ n = 9 ∨ n = 10 := by omega
    · rfl
    · rfl
    · rfl
  unfold g2Read
  rw [g2Shut_other husr]
  simp only [Bool.false_eq_true, if_false, hfresh, hvalue]

theorem g2Read_shut (hshut : s.g2Shut n = true) : s.g2Read n = (0, s.g2GatedAcc) := if_pos hshut

/-! ## Writes (R306, R308, R311) -/

theorem g2Write_user (hopen : s.g2Shut (16 + n) = false) (hn : n < 16) (hv : v < 256) :
    s.g2Write (16 + n) v = s.g2Put (16 + n) v := by
  have hmask : g2Mask (16 + n) = 0xFF := by
    unfold g2Mask
    rw [if_neg (by omega), if_neg (by omega), if_pos (by omega)]
  have hkeep : v &&& 0xFF = v := by
    have h := Nat.and_two_pow_sub_one_eq_mod v 8
    rw [Nat.mod_eq_of_lt hv] at h
    exact h
  unfold g2Write
  rw [hopen, if_neg (by decide), if_neg (by omega), if_neg (by omega), if_neg (by omega), if_neg (by omega), hmask,
    if_neg (by decide), hkeep]

theorem g2Write_shut (hshut : s.g2Shut n = true) : s.g2Write n v = s.g2GatedAcc := if_pos hshut

theorem g2Write_power : s.g2Write 4 v = s.g2Power (v % 4) := by
  unfold g2Write
  rw [g2Shut_other rfl]
  rfl

theorem g2Write_events (hopen : s.g2Shut 6 = false) : s.g2Write 6 v = s.g2Put 6 (s.g2Raw 6 &&& (0xFF ^^^ v % 256)) := by
  unfold g2Write
  rw [hopen]
  rfl

theorem portWrite_open (hport : s.hostPort true = true) : s.portWrite n v =
    (if s.g2Shut n then s.g2PortWake.g2GatedAcc else s.g2PortWake.g2Write n v).emit
      (.g2Strobe (if s.g2Shut n then s.g2PortWake.g2GatedAcc else s.g2PortWake.g2Write n v).strobeOverlay none) :=
  if_pos hport

theorem regWrite_admits {m : Master} (h : s.Admits m pgG2c (0x100 + 4 * n)) : s.regWrite m n v = s.g2Write n v :=
  toPage_of_admits h _

theorem user_addr (n : BitVec 4) : ((0x10 : BitVec 6) + n.setWidth 6).toNat = 16 + n.toNat := by
  have hn := n.isLt
  rw [BitVec.toNat_add, BitVec.toNat_setWidth]
  show (16 + n.toNat % 64) % 64 = _
  omega

/-! ## The wake timer (R312) -/

theorem g2Left_set : (s.g2SetLeft n).g2Left = n % 2 ^ 24 := by
  have h8 : (s.g2SetLeft n).g2Raw 8 = n % 256 :=
    (g2Raw_put_other (by decide) (by decide) (by decide)).trans <|
      (g2Raw_put_other (by decide) (by decide) (by decide)).trans g2Raw_put
  have h9 : (s.g2SetLeft n).g2Raw 9 = n / 256 % 256 :=
    (g2Raw_put_other (by decide) (by decide) (by decide)).trans g2Raw_put
  have h10 : (s.g2SetLeft n).g2Raw 10 = n / 65536 % 256 := g2Raw_put
  unfold g2Left
  rw [h8, h9, h10]
  omega

theorem g2Raw_setLeft (hk : k < 64) (h : k < 8 ∨ 10 < k) : (s.g2SetLeft n).g2Raw k = s.g2Raw k := by
  unfold g2SetLeft
  rw [g2Raw_put_other (by omega) hk (by decide), g2Raw_put_other (by omega) hk (by decide), g2Raw_put_other (by omega) hk (by decide)]

theorem g2SetLeft_zero : (s.g2SetLeft 0).g2Raw 8 = 0 ∧ (s.g2SetLeft 0).g2Raw 9 = 0 ∧ (s.g2SetLeft 0).g2Raw 10 = 0 := by
  have h : (s.g2SetLeft 0).g2Raw 8 + 256 * (s.g2SetLeft 0).g2Raw 9 + 65536 * (s.g2SetLeft 0).g2Raw 10 = 0 := g2Left_set
  omega

/-- What the end of the wake timer leaves before its power mode. -/
def timerOver (s : State) : State :=
  (s.g2Put 6 (setBit (s.g2Raw 6) 0 true)).g2SetLeft (if (s.g2Raw 0xB).testBit 1 then s.g2.reload else 0)

theorem g2TimerEnds_runs (hmode : s.g2Mode = true) (hon : (s.g2Raw 0xB).testBit 0 = true) (hleft : s.g2Left ≠ 0) :
    s.g2TimerEnds = if (s.g2Raw 5).testBit 0 then s.timerOver.g2Power 0 else s.timerOver := by
  have hput (i : Nat) (hi : i < 64) (hne : i ≠ 6) : (s.g2Put 6 (setBit (s.g2Raw 6) 0 true)).g2Raw i = s.g2Raw i :=
    g2Raw_put_other hne hi (by decide)
  have hreload : (s.g2Put 6 (setBit (s.g2Raw 6) 0 true)).g2 = s.g2 := g2Put_upd.frame .g2 (by decide)
  unfold g2TimerEnds
  rw [if_pos (by simp [hmode, hon, hleft])]
  dsimp only
  rw [g2Raw_setLeft (by decide) (by decide), hput _ (by decide) (by decide), hput _ (by decide) (by decide), hreload]
  rfl

theorem timerOver_event : (s.timerOver.g2Raw 6).testBit 0 = true := by
  have h : s.timerOver.g2Raw 6 = setBit (s.g2Raw 6) 0 true % 2 ^ 8 := (g2Raw_setLeft (by decide) (by decide)).trans g2Raw_put
  rw [h, Nat.testBit_mod_two_pow, testBit_setBit]
  rfl

/-! ## Power modes (R310) -/

theorem power_asked {m : Option Master} (v : Nat) (hv : v < 3)
    (hm : (∃ w, m = some w ∧ s.Admits w pgG2c 0x110) ∨ m = none ∧ s.hostPort true = true) :
    (s.powerWrite m v).g2Raw 4 = v ∧ (s.powerWrite m v).rd pgG2c G2C_STAT_PWR = v := by
  have hmod : v % 4 = v := Nat.mod_eq_of_lt (by omega)
  have hreads (u : State) : (u.g2Power v).g2Raw 4 = v ∧ (u.g2Power v).rd pgG2c G2C_STAT_PWR = v := by
    refine ⟨(g2Raw_power (by decide)).trans ((if_pos rfl).trans (Nat.mod_eq_of_lt (by omega))), g2Power_pwr (by omega)⟩
  rcases hm with ⟨w, rfl, hadm⟩ | ⟨rfl, hport⟩
  · have hop : s.powerWrite (some w) v = s.g2Power v :=
      (regWrite_admits (n := 4) hadm).trans (g2Write_power.trans (by rw [hmod]))
    rw [hop]
    exact hreads s
  · have hop : ∃ e, s.powerWrite none v = (s.g2PortWake.g2Power v).emit e := by
      have h := portWrite_open (n := 4) (v := v) hport
      rw [g2Shut_other rfl, if_neg (by decide), g2Write_power, hmod] at h
      exact ⟨_, h⟩
    obtain ⟨e, hop⟩ := hop
    rw [hop]
    exact hreads _

end State

open State

/-- Settles O28, on what each access stores in the register file, register by register. -/
theorem g2RegistersAct : Obligations.G2RegistersAct := by
  refine ⟨fun s a hport hopen htimer => ?_, fun s a hport h8 h10 => ?_, fun s a hport hshut hwake => ?_,
    fun s => ⟨rfl, rfl, rfl⟩, fun s n v hport hpwr hwake => ?_, fun s t u a k v y x m n ht hu => ?_,
    fun s m n v hadm hpwr => ?_, fun s m v hadm hpwr => ?_, fun s m v hadm hpwr => ?_, fun s m hadm => ?_,
    fun s hport => ?_, fun s n v hruns => ?_, fun s b hruns => ?_, fun s hmode hon hleft => ?_,
    fun s d hserves hst hsrc hpins => ?_, fun s hmode hrun hst => ?_, fun s n h => ?_⟩
  · have hop := portRead_open (n := a.toNat) hport
    rw [g2Read_plain hopen htimer] at hop
    refine ⟨_, congrArg Host.Outcome.next hop, ?_, (Upd.after emit_upd rfl <| Upd.after g2PortWake_upd rfl .refl).frame⟩
    show Emission.g2Strobe s.g2PortWake.strobeOverlay _ :: s.g2PortWake.out = _
    rw [strobeOverlay_of_regsIn g2PortWake_regsIn, g2PortWake_upd.frame .out (by decide)]
  · have hop := portRead_open (n := a.toNat) hport
    rw [g2Read_timer h8 h10] at hop
    refine ⟨_, congrArg Host.Outcome.next hop, ?_, (Upd.after emit_upd rfl <| Upd.after g2PortWake_upd rfl <| Upd.after g2Tick_upd rfl .refl).frame⟩
    show Emission.g2Strobe s.g2Tick.g2PortWake.strobeOverlay _ :: s.g2Tick.g2PortWake.out = _
    rw [strobeOverlay_of_regsIn (g2Tick_regsIn.trans g2PortWake_regsIn), g2PortWake_upd.frame .out (by decide),
      g2Tick_upd.frame .out (by decide)]
  · have hop := portRead_open (n := a.toNat) hport
    have hidle : s.g2GatedAcc.g2PortWake = s.g2GatedAcc :=
      g2PortWake_idle (by rw [g2Raw_gatedAcc (by decide) (by decide)]; exact hwake)
    rw [g2Read_shut hshut, hidle] at hop
    refine ⟨_, congrArg Host.Outcome.next hop, ?_, g2GatedAcc_bit, (Upd.after emit_upd rfl <| Upd.after g2GatedAcc_upd rfl .refl).frame⟩
    show Emission.g2Strobe s.g2GatedAcc.strobeOverlay _ :: s.g2GatedAcc.out = _
    rw [strobeOverlay_of_regsIn g2GatedAcc_regsIn, g2GatedAcc_upd.frame .out (by decide)]
    rfl
  · have hn := n.isLt
    have husr : g2Usr (16 + n.toNat) = true := by
      unfold g2Usr
      simp
      omega
    have hopen : s.g2Shut (16 + n.toNat) = false := (g2Shut_usr husr).trans (beq_false_of_ne hpwr)
    have hop := portWrite_open (n := 16 + n.toNat) (v := v.toNat) hport
    rw [hopen, g2PortWake_idle hwake, if_neg (by decide), g2Write_user hopen hn v.isLt] at hop
    refine ⟨_, congrArg Host.Outcome.next ((congrArg (fun i => s.portWrite i v.toNat) (user_addr n)).trans hop), ?_, ?_,
      (Upd.after emit_upd rfl <| Upd.after g2Put_upd rfl .refl).frame⟩
    · exact (g2Raw_emit _).trans (g2Raw_put.trans (Nat.mod_eq_of_lt v.isLt))
    · show Emission.g2Strobe (s.g2Put (16 + n.toNat) v.toNat).strobeOverlay none :: (s.g2Put (16 + n.toNat) v.toNat).out = _
      rw [strobeOverlay_of_regsIn (g2Put_regsIn (by omega)), g2Put_upd.frame .out (by decide)]
  · have ht' : s.portWrite a.toNat v.toNat = t := Host.Outcome.next.inj ht
    have hu' : t.regWrite m k.toNat y.toNat = u := Host.Outcome.next.inj hu
    refine congrArg Host.Outcome.next ?_
    rw [← hu', ← ht']
    rfl
  · have hn := n.isLt
    have husr : g2Usr (16 + n.toNat) = true := by
      unfold g2Usr
      simp
      omega
    have hopen : s.g2Shut (16 + n.toNat) = false := (g2Shut_usr husr).trans (beq_false_of_ne hpwr)
    have hadm' : s.Admits m pgG2c (0x100 + 4 * (16 + n.toNat)) := by
      rw [show 0x100 + 4 * (16 + n.toNat) = 0x140 + 4 * n.toNat by omega]
      exact hadm
    have hop : s.regWrite m ((0x10 : BitVec 6) + n.setWidth 6).toNat v.toNat = s.g2Put (16 + n.toNat) v.toNat := by
      rw [user_addr, regWrite_admits hadm', g2Write_user hopen hn v.isLt]
    exact ⟨_, congrArg Host.Outcome.next hop, g2Raw_put.trans (Nat.mod_eq_of_lt v.isLt), g2Put_upd.frame⟩
  · have hop : s.regWrite m 7 v.toNat = s.g2GatedAcc :=
      (regWrite_admits (n := 7) hadm).trans (g2Write_shut ((g2Shut_usr rfl).trans (beq_iff_eq.mpr hpwr)))
    exact ⟨_, congrArg Host.Outcome.next hop, g2Raw_gatedAcc (by decide) (by decide), g2GatedAcc_bit, g2GatedAcc_upd.frame⟩
  · have hop : s.regWrite m 6 v.toNat = s.g2Put 6 (s.g2Raw 6 &&& (0xFF ^^^ v.toNat % 256)) :=
      (regWrite_admits (n := 6) hadm).trans (g2Write_events ((g2Shut_usr rfl).trans (beq_false_of_ne hpwr)))
    refine ⟨_, congrArg Host.Outcome.next hop, fun i hi hv => ?_, g2Put_upd.frame⟩
    have hbit : v.toNat.testBit i = true := hv
    have h : (s.g2Put 6 (s.g2Raw 6 &&& (0xFF ^^^ v.toNat % 256))).g2Raw 6 = (s.g2Raw 6 &&& (0xFF ^^^ v.toNat % 256)) % 2 ^ 8 := g2Raw_put
    have hff : Nat.testBit 0xFF i = true := by
      have := Nat.testBit_two_pow_sub_one 8 i
      rw [decide_eq_true hi] at this
      exact this
    rw [h, Nat.testBit_mod_two_pow, Nat.testBit_and, Nat.testBit_xor, show v.toNat % 256 = v.toNat from Nat.mod_eq_of_lt v.isLt, hbit, hff]
    simp
  · have hreads (v : Nat) (hv : v < 3) := power_asked (s := s) (m := some m) v hv (.inl ⟨m, rfl, hadm⟩)
    have hrest (v : Nat) (hv : v < 3) : Unchanged [.regs] s (s.powerWrite (some m) v) := by
      have hop : s.powerWrite (some m) v = s.g2Power (v % 4) := (regWrite_admits (n := 4) hadm).trans g2Write_power
      rw [hop]
      exact g2Power_upd.frame
    exact ⟨_, _, _, rfl, (hreads 1 (by decide)).1, (hreads 1 (by decide)).2, rfl, (hreads 2 (by decide)).1,
      (hreads 2 (by decide)).2, rfl, (hreads 0 (by decide)).1, (hreads 0 (by decide)).2, hrest 1 (by decide),
      hrest 2 (by decide), hrest 0 (by decide)⟩
  · have hreads (v : Nat) (hv : v < 3) := power_asked (s := s) (m := none) v hv (.inr ⟨rfl, hport⟩)
    exact ⟨_, _, _, rfl, (hreads 1 (by decide)).1, rfl, (hreads 2 (by decide)).1, rfl, (hreads 0 (by decide)).1⟩
  · exact ⟨_, congrArg Host.Outcome.next (if_pos hruns), g2Raw_put.trans (Nat.mod_eq_of_lt v.isLt), g2Put_upd.frame⟩
  · refine ⟨_, congrArg Host.Outcome.next (if_pos hruns), g2Raw_put.trans (Nat.mod_eq_of_lt ?_), g2Put_upd.frame⟩
    have hb := b.isLt
    exact Nat.or_lt_two_pow (n := 8) g2Raw_lt (by omega)
  · have hevent (i : Nat) (hi : i < 64) (h4 : i ≠ 4) : s.g2TimerEnds.g2Raw i = s.timerOver.g2Raw i := by
      rw [g2TimerEnds_runs hmode hon hleft]
      split
      · rw [g2Raw_power hi, if_neg h4]
      · rfl
    refine ⟨_, rfl, ?_, fun hstop => ?_, fun hreload => ?_, fun hwake => ?_, g2TimerEnds_upd.frame⟩
    · rw [hevent 6 (by decide) (by decide)]
      exact timerOver_event
    · have hzero : s.timerOver = (s.g2Put 6 (setBit (s.g2Raw 6) 0 true)).g2SetLeft 0 := by
        rw [timerOver, hstop]
        rfl
      rw [hevent 8 (by decide) (by decide), hevent 9 (by decide) (by decide), hevent 0xA (by decide) (by decide), hzero]
      exact g2SetLeft_zero
    · have hleft' : s.g2TimerEnds.g2Left = s.timerOver.g2Left := by
        unfold g2Left
        rw [hevent 8 (by decide) (by decide), hevent 9 (by decide) (by decide), hevent 10 (by decide) (by decide)]
      rw [hleft', timerOver, hreload]
      exact g2Left_set
    · rw [g2TimerEnds_runs hmode hon hleft, if_pos hwake]
      exact ⟨g2Raw_power (by decide), g2Power_pwr (by decide)⟩
  · refine ⟨_, congrArg Host.Outcome.next (if_pos ?_), rfl, (Upd.g2 .refl rfl : Upd [.g2] s _).frame⟩
    simp only [hserves, hsrc, hpins, Bool.true_and, Bool.not_false, Bool.and_true, Bool.or_eq_true, beq_iff_eq]
    exact hst
  · have hdrives : (!s.g2Mode || s.mode .east == mHalt || s.g2State == gsOff) = false := by simp [hmode, hrun, hst]
    refine ⟨fun hp => ?_, fun hp => ?_, fun hp => ?_⟩
    · unfold g2Drives openDrain
      rw [hdrives]
      simp [hp]
    · unfold g2Drives openDrain
      rw [hdrives]
      simp [hp]
    · unfold g2Drives openDrain
      rw [hdrives]
      simp [hp]
  · refine if_pos ?_
    rcases h with h | h | h <;> simp [h]

end Sys2Proof.Machine
end

section
/-! PROOFS. Hatches: records, pushes, and their order in one cycle -/

namespace Sys2Proof.Machine
namespace State
variable {s t u : State} {n id len : Nat}

/-! ## A hatch's record -/

theorem hatch_setHatch (s : State) (n : Nat) (h : Hatch) : (s.setHatch n h).hatch n = h :=
  (Tbl.get_store ..).trans (if_pos rfl)

theorem hatch_congr (h : t.hatches = s.hatches) (n : Nat) : t.hatch n = s.hatch n := by
  unfold hatch
  rw [h]

theorem head_some {h : Hatch} {p : Packet} (hp : h.head = some p) : h.packets = p :: h.packets.tail ∧ p.posted = true := by
  unfold Hatch.head at hp
  split at hp
  next q ps hq =>
    split at hp
    next hposted =>
      cases hp
      exact ⟨by rw [hq]; rfl, hposted⟩
    next => cases hp
  next => cases hp

/-! ## Pushes (R198 to R200) -/

/-- The packet that an admitted push leaves in its hatch. -/
def pushed (h : Hatch) (src heat kind len : Nat) : Hatch :=
  { h with
    packets := h.packets ++ [⟨h.tail, false, len, src, heat, kind, (h.admitted + 1) % 2 ^ 32, false, 0, false, false⟩]
    tail := (h.tail + len) % h.ring
    admitted := h.admitted + 1 }

theorem admitted_crew {heat : Nat} (bs : List Byte) :
    (s.admitted n (.crew id heat) len bs).hatch n = pushed (s.hatch n) id heat 0 len := hatch_setHatch _ _ _

theorem admitted_host {fn : Nat} (bs : List Byte) :
    s.admitted n (.host fn) len bs = s.setHatch n (pushed (s.hatch n) fn 0 0 len) := rfl

theorem refuse_eq (code : Nat) (hn : hatchNumOk n = true) : ∃ f, s.refuse n code =
    ((s.setHatch n { s.hatch n with lastErr := code }).bump (pgHat (hatchHalf n)) f).raise (pgHat (hatchHalf n)) 1 := by
  unfold refuse modHatch
  rw [if_pos hn]
  dsimp only
  split
  · exact ⟨_, rfl⟩
  · exact ⟨_, rfl⟩
  · exact ⟨_, rfl⟩
  · exact ⟨_, rfl⟩

theorem refuse_reads (code : Nat) (hn : hatchNumOk n = true) :
    (s.refuse n code).hatch n = { s.hatch n with lastErr := code } ∧
      ((s.refuse n code).rd (pgHat (hatchHalf n)) PG_IRQ_RAW).testBit 1 = true := by
  obtain ⟨f, hop⟩ := refuse_eq (s := s) code hn
  rw [hop]
  refine ⟨?_, raw_raise _ _ (by decide)⟩
  exact (hatch_congr ((raise_upd.frame .hatches (by decide)).trans (bump_upd.frame .hatches (by decide))) n).trans (hatch_setHatch _ _ _)

/-- A crew's push from a room in which tokens move, to a hatch of its own half. -/
theorem roomPush_judged {pos : Nat} {bs : List Byte} {c : Crew} {r : Nat} (hc : s.crew id = some c)
    (hst : c.state = .running ∨ c.state = .pinned) (hr : c.suite[pos]? = some r) (hmove : s.tokensMove r = true)
    (hquiet : (s.room r).quiesce = false) (hhalf : hatchHalf n = idHalf id) :
    (s.pushCheck n (.crew id c.heat) len = .admitted →
      s.roomPush id pos n len bs = (s.admitted n (.crew id c.heat) len bs).emit (.pushCode id n hcOk)) ∧
    (∀ code, s.pushCheck n (.crew id c.heat) len = .refuse code →
      s.roomPush id pos n len bs = (s.refuse n code).emit (.pushCode id n code)) := by
  have hlocal : (hatchNumOk n && hatchHalf n != idHalf id && s.cut (idHalf id)) = false := by simp [hhalf]
  refine ⟨fun h => ?_, fun code h => ?_⟩ <;>
  · unfold roomPush
    rw [hc]
    dsimp only
    rw [if_pos hst, hr]
    dsimp only
    rw [hmove, hquiet, hlocal, h]
    rfl

theorem pushCheck_of_producer {who : Pusher} (hn : hatchNumOk n = true) (hopen : (s.hatch n).isOpen = true)
    (hclosing : (s.hatch n).closing = false) (hprod : isProducer (s.hatch n) who = true)
    (hworld : s.pusherWorld who = (s.hatch n).world) :
    s.pushCheck n who len =
      if len = 0 then .refuse 1 else if (s.hatch n).ring < len then .refuse 2
      else if (s.hatch n).held = (s.hatch n).slots then .refuse 3
      else if (s.hatch n).credit < len then .refuse 2 else .admitted := by
  unfold pushCheck
  dsimp only
  rw [hn, hopen, hclosing, hprod, hworld]
  simp only [Bool.not_true, Bool.false_eq_true, if_false, Bool.or_self, bne_self_eq_false]

/-! ## The order of a cycle (R201) -/

/-- The list of a cycle in its order. -/
def ranked (l : List SamePush) (m k : Nat) : List SamePush := (List.range' m k).flatMap fun i => l.filter fun x => sameRank x == i

theorem ranked_nil (m k : Nat) : ranked [] m k = [] := by
  unfold ranked
  simp

/-- A list that rises in rank is in order already. -/
theorem ranked_of_rising {l : List SamePush} {m k : Nat} (hrise : l.Pairwise fun x y => sameRank x < sameRank y)
    (hlow : ∀ x ∈ l, m ≤ sameRank x) (hhigh : ∀ x ∈ l, sameRank x < m + k) : ranked l m k = l := by
  induction k generalizing l m with
  | zero =>
    cases l with
    | nil => rfl
    | cons x l => exact absurd (hlow x (.head _)) (Nat.not_le.mpr (hhigh x (.head _)))
  | succ k ih =>
    have hsplit : ranked l m (k + 1) = (l.filter fun x => sameRank x == m) ++ ranked l (m + 1) k := rfl
    cases l with
    | nil => exact ranked_nil m (k + 1)
    | cons x l =>
      obtain ⟨hx, hl⟩ := List.pairwise_cons.mp hrise
      by_cases hm : sameRank x = m
      · have hrest : (l.filter fun y => sameRank y == m) = [] :=
          List.filter_eq_nil_iff.mpr fun y hy => by have := hx y hy; simp; omega
        have htail : ranked (x :: l) (m + 1) k = ranked l (m + 1) k := by
          unfold ranked
          refine List.flatMap_congr fun i hi => ?_
          have hi' := (List.mem_range'_1.mp hi).1
          exact List.filter_cons_of_neg (by simp; omega)
        rw [hsplit, List.filter_cons_of_pos (by simp [hm]), hrest, htail,
          ih hl (fun y hy => by have := hx y hy; omega) fun y hy => by have := hhigh y (.tail _ hy); omega]
        rfl
      · have hnone : ((x :: l).filter fun y => sameRank y == m) = [] := List.filter_eq_nil_iff.mpr fun y hy => by
          have hge := hlow y hy
          cases hy with
          | head => simpa using hm
          | tail _ hy => have := hx y hy; have := hlow x (.head _); simp; omega
        rw [hsplit, hnone, ih hrise (fun y hy => ?_) fun y hy => by have := hhigh y hy; omega]
        · rfl
        · have hge := hlow x (.head _)
          cases hy with
          | head => omega
          | tail _ hy => have := hx y hy; omega

/-- Two pushes or pops of different ranks may stand in either order. -/
theorem ranked_swap {x y : SamePush} (hne : sameRank x ≠ sameRank y) (l r : List SamePush) (m k : Nat) :
    ranked (l ++ x :: y :: r) m k = ranked (l ++ y :: x :: r) m k := by
  unfold ranked
  refine List.flatMap_congr fun i _ => ?_
  simp only [List.filter_append, List.filter_cons]
  congr 1
  split
  next hx =>
    have : (sameRank y == i) = false := by simp at hx ⊢; omega
    rw [this]
    rfl
  next => rfl

theorem hatchPush_eq {pos : BitVec 6} {len : BitVec 16} {bs : List Byte} {also : List SamePush} :
    s.hatchPush id pos n len bs also = (ranked (.room pos len bs :: also) 0 66).foldl (fun s x => s.sameOne id n x) s := by
  unfold hatchPush ranked
  rw [List.range_eq_range']

theorem rank_room (pos : BitVec 6) (len : BitVec 16) (bs : List Byte) :
    sameRank (.room pos len bs) = 1 + pos.toNat ∧ sameRank (.room pos len bs) < 65 := by
  have := pos.isLt
  exact ⟨rfl, by show 1 + pos.toNat < 65; omega⟩

theorem hatchPush_alone {pos : BitVec 6} {len : BitVec 16} {bs : List Byte} :
    s.hatchPush id pos n len bs [] = s.roomPush id pos.toNat n len.toNat bs := by
  obtain ⟨-, hlt⟩ := rank_room pos len bs
  rw [hatchPush_eq, ranked_of_rising (List.pairwise_singleton _ _) (fun _ _ => Nat.zero_le _) fun x hx => ?_]
  · rfl
  · rw [List.mem_singleton.mp hx]
    omega

/-- A pop, then the rooms by suite position. -/
theorem hatchPush_rooms {p q : BitVec 6} {len len' : BitVec 16} {bs bs' : List Byte} {fn : BitVec 8} (hpq : p.toNat < q.toNat) :
    s.hatchPush id p n len bs [.room q len' bs', .pop fn] =
      ((s.hatchReturn fn.toNat n 1).roomPush id p.toNat n len.toNat bs).roomPush id q.toNat n len'.toNat bs' ∧
    s.hatchPush id q n len' bs' [.pop fn, .room p len bs] =
      ((s.hatchReturn fn.toNat n 1).roomPush id p.toNat n len.toNat bs).roomPush id q.toNat n len'.toNat bs' := by
  obtain ⟨hp, hplt⟩ := rank_room p len bs
  obtain ⟨hq, hqlt⟩ := rank_room q len' bs'
  have hpop : sameRank (.pop fn) = 0 := rfl
  have hsorted : ranked [.pop fn, .room p len bs, .room q len' bs'] 0 66 = [.pop fn, .room p len bs, .room q len' bs'] := by
    refine ranked_of_rising ?_ (fun _ _ => Nat.zero_le _) fun x hx => ?_
    · simp [hp, hq, hpop, hpq]
    · simp only [List.mem_cons, List.not_mem_nil, or_false] at hx
      rcases hx with rfl | rfl | rfl <;> omega
  have hfirst : ranked [.room p len bs, .room q len' bs', .pop fn] 0 66 = [.pop fn, .room p len bs, .room q len' bs'] :=
    calc ranked [.room p len bs, .room q len' bs', .pop fn] 0 66
      _ = ranked [.room p len bs, .pop fn, .room q len' bs'] 0 66 := ranked_swap (by omega) [.room p len bs] [] 0 66
      _ = ranked [.pop fn, .room p len bs, .room q len' bs'] 0 66 := ranked_swap (by omega) [] [.room q len' bs'] 0 66
      _ = _ := hsorted
  have hsecond : ranked [.room q len' bs', .pop fn, .room p len bs] 0 66 = [.pop fn, .room p len bs, .room q len' bs'] :=
    calc ranked [.room q len' bs', .pop fn, .room p len bs] 0 66
      _ = ranked [.pop fn, .room q len' bs', .room p len bs] 0 66 := ranked_swap (by omega) [] [.room p len bs] 0 66
      _ = ranked [.pop fn, .room p len bs, .room q len' bs'] 0 66 := ranked_swap (by omega) [.pop fn] [] 0 66
      _ = _ := hsorted
  refine ⟨?_, ?_⟩
  · rw [hatchPush_eq, hfirst]
    rfl
  · rw [hatchPush_eq, hsecond]
    rfl

/-- HATCH_SEND comes last. -/
theorem hatchPush_send {p : BitVec 6} {len len' : BitVec 16} {bs : List Byte} {fn : BitVec 8} :
    s.hatchPush id p n len bs [.send fn len'] = (s.roomPush id p.toNat n len.toNat bs).hatchSend fn.toNat n len'.toNat := by
  obtain ⟨hp, hplt⟩ := rank_room p len bs
  have hsend : sameRank (.send fn len') = 65 := rfl
  have hsorted : ranked [.room p len bs, .send fn len'] 0 66 = [.room p len bs, .send fn len'] := by
    refine ranked_of_rising ?_ (fun _ _ => Nat.zero_le _) fun x hx => ?_
    · simp
      omega
    · simp only [List.mem_cons, List.not_mem_nil, or_false] at hx
      rcases hx with rfl | rfl <;> omega
  rw [hatchPush_eq, hsorted]
  rfl

end State
end Sys2Proof.Machine
end

section
/-! PROOFS. O29: hatches and the HAT command port -/

namespace Sys2Proof.Machine
namespace State
variable {s t u : State} {n id len : Nat} {p : Packet} {bs : List Byte}

/-- A notice is posted in its slot, and marks its packet (R202). -/
theorem noticePost_posts {k j : Nat} (hfind : ((s.hatch n).packets.zipIdx.find? fun e => e.1.number == k && !e.1.posted) = some (p, j)) :
    s.noticePost n k = (((s.writeBytes ueHatch ((s.hatch n).buf * 0x1000 + (s.hatch n).ringBytes +
        noticeIndex (s.hatch n) j % (s.hatch n).slots * 16)
          (noticeBytes p (noticePhase (s.hatch n) (noticeIndex (s.hatch n) j)))).2.setHatch n
        { s.hatch n with packets := (s.hatch n).packets.set j { p with posted := true } }).settle n).wakeByNotice n := by
  unfold noticePost
  dsimp only
  rw [hfind]

/-! ## Delivery to a crew (R203) -/

/-- The crew that a hatch delivers to stands in rooms in which tokens move. -/
theorem hatchDelivery_serves {c : Crew} {words : Nat} (hsettle : s.settle n = s) (hopen : (s.hatch n).isOpen = true)
    (hclosing : (s.hatch n).closing = false) (hkind : (s.hatch n).dstKind = endCrew) (hc : s.crew (s.hatch n).dst = some c)
    (hst : c.state = .running ∨ c.state = .pinned) (hmove : s.tokensMove (c.suite.headD 0) = true)
    (hquiet : (s.room (c.suite.headD 0)).quiesce = false) : s.hatchDelivery n words = s.deliver n (s.hatch n).dst words := by
  unfold hatchDelivery
  rw [hsettle]
  dsimp only
  rw [if_pos (by simp [hopen, hclosing, hkind]), hc]
  refine if_pos ?_
  rw [hmove, hquiet]
  rcases hst with h | h <;> rw [h] <;> rfl

theorem showNotice_first (hp : (s.hatch n).head = some p) (hshown : p.shown = false) :
    s.showNotice n = (s.setHatch n { s.hatch n with packets := { p with shown := true } :: (s.hatch n).packets.tail }).emit
      (.hatchNotice n (noticeBytes p (noticePhase (s.hatch n) (noticeIndex (s.hatch n) 0)))) := by
  obtain ⟨hcons, hposted⟩ := head_some hp
  unfold showNotice
  dsimp only
  generalize hps : (s.hatch n).packets.tail = ps at hcons
  rw [hcons]
  dsimp only
  rw [hposted, hshown]
  rfl

theorem showNotice_shown {ps : List Packet} (hcons : (s.hatch n).packets = p :: ps) (hshown : p.shown = true) :
    s.showNotice n = s := by
  unfold showNotice
  dsimp only
  rw [hcons]
  dsimp only
  rw [hshown, Bool.not_true, Bool.and_false]
  rfl

/-- One word of the head packet, whose notice the port has shown. -/
theorem deliver_word (hp : (s.hatch n).head = some p) (hshown : p.shown = true)
    (hword : s.ringWord (s.hatch n) p p.words = (some bs, u)) (id : Nat) :
    s.deliver n id 1 = if p.words + 1 = p.len then ((u.emit (.hatchWord n bs)).setHatch n (s.hatch n).pop).settle n
      else ((u.emit (.hatchWord n bs)).setHatch n
        { s.hatch n with packets := { p with words := p.words + 1 } :: (s.hatch n).packets.tail }).showNotice n := by
  obtain ⟨hcons, _⟩ := head_some hp
  unfold deliver
  rw [showNotice_shown hcons hshown]
  dsimp only
  rw [hp]
  dsimp only
  rw [hword]
  rfl

/-! ## Copies to a host (R204, R207) -/

theorem hostCopy_next {j : Nat} (hopen : (s.hatch n).isOpen = true) (hclosing : (s.hatch n).closing = false)
    (hkind : (s.hatch n).dstKind = endHost) (hfn : (s.hatch n).dst ∉ s.security.fns) (hbme : (s.hatch n).dst ∈ s.host.bme)
    (hmode : inService (s.mode .east) = true) (hreach : s.hatchReached n = true) (hnext : copyNext (s.hatch n) = some (p, j)) :
    (s.sourceStale n (s.hatch n) p = true → s.hostCopy n = ((s.countStale n).setHatch n
      { s.hatch n with packets := (s.hatch n).packets.set j { p with dropped := true } }).settle n) ∧
    (s.sourceStale n (s.hatch n) p = false → s.hostCopy n =
      (((s.copyWords (s.hatch n) p).emit (.hostWrite (s.hatch n).dst ((s.hatch n).iova + (s.hatch n).ringBytes +
          (s.hatch n).toHost % (s.hatch n).slots * 16) (noticeBytes p (noticePhase (s.hatch n) (s.hatch n).toHost)) false)).setHatch n
        { s.hatch n with packets := (s.hatch n).packets.set j { p with copied := true }, toHost := (s.hatch n).toHost + 1 }).msix
          (s.hatch n).dst (s.hatch n).vector) := by
  have hgo : (!(s.hatch n).isOpen || (s.hatch n).closing || (s.hatch n).dstKind != endHost || s.security.fns.contains (s.hatch n).dst ||
      !s.host.bme.contains (s.hatch n).dst || !(inService (s.mode .east) || s.mode .east == mStartup) || !s.hatchReached n) = false := by
    simp [hopen, hclosing, hkind, hfn, hbme, hmode, hreach]
  refine ⟨fun h => ?_, fun h => ?_⟩ <;>
  · unfold hostCopy
    dsimp only
    rw [hgo, if_neg (by decide), hnext]
    dsimp only
    rw [h]
    rfl

/-- A stale packet of a crew's hatch counts in STALE.HATCH. -/
theorem countStale_crew (h : (s.hatch n).srcKind = endCrew) :
    s.countStale n = (s.bump (pgStw (hatchHalf n)) STW_STALE_HATCH).raise (pgHat (hatchHalf n)) 2 := by
  unfold countStale
  rw [if_neg (by rw [h]; decide)]

theorem pgStw_ne_pgHat (h : Half) : pgStw h ≠ pgHat h := by
  cases h <;> decide

theorem countStale_reads (h : (s.hatch n).srcKind = endCrew) :
    (s.countStale n).rd (pgStw (hatchHalf n)) STW_STALE_HATCH =
      min STW_STALE_HATCH.max (s.rd (pgStw (hatchHalf n)) STW_STALE_HATCH + 1) := by
  rw [countStale_crew h]
  exact (rd_raise_page _ _ _ _ (pgStw_ne_pgHat (hatchHalf n)) (by decide)).trans (rd_bump _ _ rfl)

theorem sourceStale_crew (h : s.sourceStale n (s.hatch n) p = true) : (s.hatch n).srcKind = endCrew := by
  unfold sourceStale at h
  simp only [Bool.and_eq_true, beq_iff_eq] at h
  exact h.1.1

/-! ## Returns (R209) -/

theorem hatchReturn_pops {fn count : Nat} (hserved : s.BellServed fn) (hreach : s.hatchReached n = true)
    (hn : hatchNumOk n = true) (hopen : (s.hatch n).isOpen = true) (hkind : (s.hatch n).dstKind = endHost)
    (hdst : (s.hatch n).dst = fn) (hworld : s.ownerWorld fn = (s.hatch n).world) : s.hatchReturn fn n count = s.hatchPops n count := by
  refine (toBar2_of_served hserved _).trans ?_
  dsimp only
  rw [hreach, if_neg (by decide), if_neg (by simp [hn, hopen, hkind, hdst]), if_neg (by simp [hworld])]

theorem hatchPops_one (hp : (s.hatch n).head = some p) : s.hatchPops n 1 = (s.setHatch n (s.hatch n).pop).settle n := by
  unfold hatchPops
  dsimp only
  rw [hp]
  rfl

theorem hatchPops_none {k : Nat} (hp : (s.hatch n).head = none) :
    s.hatchPops n (k + 1) = s.bump (pgHat (hatchHalf n)) HAT_UNDERFLOW_COUNT (k + 1) := by
  unfold hatchPops
  dsimp only
  rw [hp]

/-! ## Hand-offs to the ring (R205) -/

theorem packetWords_one (hlen : p.len = 1) (hword : s.ringWord (s.hatch n) p 0 = (some bs, u)) :
    s.packetWords (s.hatch n) p = (some bs, u) := by
  unfold packetWords
  rw [hlen]
  show ((some []).bind fun b => (s.ringWord (s.hatch n) p 0).1.map fun w => b ++ w, (s.ringWord (s.hatch n) p 0).2) = _
  rw [hword]
  rfl

theorem handoff_takes (hsettle : s.settle n = s) (hp : (s.hatch n).head = some p) (hkind : (s.hatch n).dstKind = endRing)
    (hopen : (s.hatch n).isOpen = true) (hcopied : p.copied = false) (hcut : s.cut (hatchHalf n) = false)
    (htakes : s.takesPacket p.len = true) (hwords : s.packetWords (s.hatch n) p = (some bs, u)) :
    s.handoff n = (u.setHatch n (s.hatch n).pop).ringTake (s.hatch n).dst (s.hatch n).rhatch (s.hatch n).world p.src p.heat p.len bs := by
  have haway : s.ringAway (hatchHalf n) = false := by
    unfold ringAway
    rw [hcut, Bool.false_and]
  unfold handoff
  dsimp only
  rw [hsettle, hp]
  dsimp only
  rw [haway, htakes, if_neg (by simp [hkind, hopen, hcopied]), hwords]
  rfl

theorem handoff_waits (hsettle : s.settle n = s) (hcut : s.cut (hatchHalf n) = false) (hmember : s.crsState ≠ csMember) :
    s.handoff n = s := by
  have haway : s.ringAway (hatchHalf n) = false := by
    unfold ringAway
    rw [hcut, Bool.false_and]
  have htakes (len : Nat) : s.takesPacket len = false := by
    unfold takesPacket
    rw [beq_false_of_ne hmember]
    rfl
  unfold handoff
  dsimp only
  rw [hsettle]
  split
  next => rfl
  next => exact if_pos (by simp [haway, htakes])

/-! ## The HAT port (R210) -/

theorem hatWindow_portStart (s : State) (q : Port) : (s.portStart .hat q).hatWindow q = s.hatWindow q := by
  unfold hatWindow
  refine List.map_congr_left fun i hi => ?_
  have hi8 : i < 8 := List.mem_range.mp hi
  rw [portRd_portStart _ _ _ ⟨⟨by simp only [Fld.at, HAT_DESC_WORD]; omega, by simp only [Fld.at, HAT_DESC_WORD]; omega⟩, rfl⟩]
  simp only [Fld.at, HAT_DESC_WORD, resultFlds, HAT_RESULT_VALID]
  omega

theorem hatch_portStart (s : State) (b : PortBlock) (q : Port) (n : Nat) : (s.portStart b q).hatch n = s.hatch n :=
  hatch_congr (portStart_upd.frame .hatches (by decide)) n

theorem mayName_portStart (s : State) (b : PortBlock) (q : Port) (owner : Nat) (h : Hatch) :
    (s.portStart b q).mayName owner h = s.mayName owner h := by
  unfold mayName
  simp only [crew_portStart]

/-- The region registers stand on the pages of the stacks, which no port shares. -/
theorem region_portStart (s : State) (b : PortBlock) (q : Port) {stack n : Nat} (hstack : stack < 4) (hn : n < 16) :
    (s.portStart b q).region stack n = s.region stack n := by
  have hpage : pgMem stack ≠ portPage b q := by
    obtain ⟨_, h⟩ := portPage_high b q
    unfold pgMem
    omega
  have hread (f : Fld) (hoff : (f.at 8 n).off < 0x1000) :
      (s.portStart b q).rd (pgMem stack) (f.at 8 n) = s.rd (pgMem stack) (f.at 8 n) :=
    portStart_regsIn.rd_page hpage hoff
  unfold region
  dsimp only
  simp only [hread MEM_RGN_BASE_BASE (by simp only [Fld.at, MEM_RGN_BASE_BASE]; omega),
    hread MEM_RGN_BASE_LIMIT (by simp only [Fld.at, MEM_RGN_BASE_LIMIT]; omega),
    hread MEM_RGN_CTRL_VALID (by simp only [Fld.at, MEM_RGN_CTRL_VALID]; omega),
    hread MEM_RGN_CTRL_WORLD (by simp only [Fld.at, MEM_RGN_CTRL_WORLD]; omega),
    hread MEM_RGN_CTRL_SHARED (by simp only [Fld.at, MEM_RGN_CTRL_SHARED]; omega),
    hread MEM_RGN_CTRL_KIND (by simp only [Fld.at, MEM_RGN_CTRL_KIND]; omega),
    hread MEM_RGN_CTRL_HOSTACC (by simp only [Fld.at, MEM_RGN_CTRL_HOSTACC]; omega),
    hread MEM_RGN_CTRL_ANYFUNC (by simp only [Fld.at, MEM_RGN_CTRL_ANYFUNC]; omega),
    hread MEM_RGN_CTRL_FUNC (by simp only [Fld.at, MEM_RGN_CTRL_FUNC]; omega)]

theorem findSome?_congr {α β : Type} {l : List α} {f g : α → Option β} (h : ∀ x ∈ l, f x = g x) :
    l.findSome? f = l.findSome? g := by
  induction l with
  | nil => rfl
  | cons x l ih => rw [List.findSome?_cons, List.findSome?_cons, h x (.head _), ih fun y hy => h y (.tail _ hy)]

theorem regionOf_portStart (s : State) (b : PortBlock) (q : Port) (frame : Nat) :
    (s.portStart b q).regionOf frame = s.regionOf frame := by
  unfold regionOf
  split
  next hframe =>
    have hstack : stackOf frame < 4 := by unfold stackOf; omega
    refine findSome?_congr fun n hn => ?_
    rw [region_portStart s b q hstack (List.mem_range.mp hn)]
  next => rfl

theorem hatchDescOk_portStart (s : State) (b : PortBlock) (q : Port) (n : Nat) (h : Hatch) :
    (s.portStart b q).hatchDescOk n h = s.hatchDescOk n h := by
  unfold hatchDescOk areaOk
  simp only [regionOf_portStart]

theorem endsLive_portStart (s : State) (b : PortBlock) (q : Port) (h : Hatch) :
    (s.portStart b q).endsLive h = s.endsLive h := by
  have hheat (id : Nat) : (s.portStart b q).heat id = s.heat id := by
    unfold heat
    rw [portStart_upd.frame .ids (by decide)]
  unfold endsLive crewLive
  simp only [crew_portStart, hheat]

/-- A HAT command at a free port that names a hatch. -/
theorem hatGo_of_free {q : Port} {op : Nat} (hfree : s.PortFree .hat q) (harg : s.portRd .hat q HAT_ARG_HATCH = n) :
    s.hatGo q op = if !hatchNumOk n || !portServes q (hatchHalf n) then (s.portStart .hat q).hatEnd q htBadHatch n
      else if (s.hatch n).closing then
        { s.portStart .hat q with
          portOps := s.portOps ++ [(⟨q, .hat, 16 + op, n, 0, false, s.hatWindow q, 0, none⟩ : PortOp)] }
      else (s.portStart .hat q).hatchTurn q op n (s.hatWindow q) := by
  obtain ⟨htakes, hidle, hmode⟩ := hfree
  have hm : (s.mode (hatchHalf (s.portRd .hat q HAT_ARG_HATCH)) == mHalt) = false := beq_false_of_ne hmode
  have harg' : (s.portStart .hat q).portRd .hat q HAT_ARG_HATCH = n := (portRd_portStart _ _ _ (by decide) (by decide)).trans harg
  have hops : (s.portStart .hat q).portOps = s.portOps := portStart_upd.frame .portOps (by decide)
  refine (toPort_of_takes htakes _).trans ?_
  dsimp only
  rw [hidle, hm, harg', hatch_portStart, hatWindow_portStart, hops]
  rfl

theorem hatGo_bad {q : Port} {op : Nat} (hfree : s.PortFree .hat q) (harg : s.portRd .hat q HAT_ARG_HATCH = n)
    (hbad : hatchNumOk n = false) : s.hatGo q op = (s.portStart .hat q).hatEnd q htBadHatch n := by
  rw [hatGo_of_free hfree harg, if_pos (by rw [hbad]; rfl)]

theorem hatGo_turn {q : Port} {op : Nat} (hfree : s.PortFree .hat q) (harg : s.portRd .hat q HAT_ARG_HATCH = n)
    (hn : hatchNumOk n = true) (hserves : portServes q (hatchHalf n) = true) (hclosing : (s.hatch n).closing = false) :
    s.hatGo q op = (s.portStart .hat q).hatchTurn q op n (s.hatWindow q) := by
  rw [hatGo_of_free hfree harg, if_neg (by rw [hn, hserves]; decide), hclosing]
  rfl

theorem hatBadHatch_reads (q : Port) : ((s.portStart .hat q).hatEnd q htBadHatch n).Answered .hat q htBadHatch ∧
    ((s.portStart .hat q).hatEnd q htBadHatch n).hatches = s.hatches :=
  ⟨hatEnd_answered _ _ (by decide), (hatEnd_upd.frame .hatches (by decide)).trans (portStart_upd.frame .hatches (by decide))⟩

theorem hatchOpen_opens {q : Port} {ws : List Word} (hname : s.mayName (portOwner q) (Hatch.ofWords ws) = true)
    (hfree : (s.hatch n).isOpen = false) (hdesc : s.hatchDescOk n (Hatch.ofWords ws) = true)
    (hlive : s.endsLive (Hatch.ofWords ws) = true) (hworld : (Hatch.ofWords ws).world = false) :
    ∃ u : State, s.hatchOpen q n ws = (u.setHatch n (Hatch.ofWords ws)).hatEnd q htOk n := by
  unfold hatchOpen
  dsimp only
  rw [hname, hfree, hdesc, hlive, hworld]
  exact ⟨_, rfl⟩

theorem hatchQuery_answered (q : Port) : (s.hatchQuery q n).Answered .hat q htOk :=
  hatEnd_answered _ _ (by decide)

theorem hatchQuery_hatches (q : Port) : (s.hatchQuery q n).hatches = s.hatches :=
  hatchQuery_upd.frame .hatches (by decide)

theorem hatchClose_closes {q : Port} (hopen : (s.hatch n).isOpen = true) (hname : s.mayName (portOwner q) (s.hatch n) = true) :
    (s.hatchClose q n).hatch n = { s.hatch n with closing := true } ∧
      (s.hatchClose q n).portOps = s.portOps ++ [⟨q, .hat, 3, n, 0, false, [], 0, none⟩] := by
  unfold hatchClose
  dsimp only
  rw [if_neg (by rw [hopen, hname]; decide), if_neg (by rw [hopen]; decide)]
  exact ⟨hatch_setHatch _ _ _, rfl⟩

/-- A hatch that has closed: its command ends, and its packets are gone. -/
theorem hatchClosed_ends {o : PortOp} (hclosing : (s.hatch n).closing = true) (hposted : ∀ p ∈ (s.hatch n).packets, p.posted = true)
    (hfind : (s.portOps.find? fun o => o.block == .hat && o.id == n && o.op == 3) = some o) (hkeep : o.discard = false) :
    ∃ v : State, v.portOps = s.portOps.erase o ∧
      v.hatch n = { s.hatch n with isOpen := false, closing := false, packets := [], tail := 0 } ∧
      s.hatchClosed n = (v.hatEnd o.port htOk n).hatchWaits n (v.hatEnd o.port htOk n).portOps.length := by
  refine ⟨{ s.setHatch n { s.hatch n with isOpen := false, closing := false, packets := [], tail := 0 } with
    portOps := s.portOps.erase o }, rfl, hatch_setHatch _ _ _, ?_⟩
  have hall : (s.hatch n).packets.all (·.posted) = true := List.all_eq_true.mpr hposted
  have hops (h : Hatch) : (s.setHatch n h).portOps = s.portOps := rfl
  unfold hatchClosed
  dsimp only
  rw [if_pos (by rw [hclosing, hall]; rfl), hops, hfind]
  dsimp only
  rw [hkeep]
  rfl

end State

open State

/-- Settles O29, each step of a hatch by the lemma that says what it leaves; a port's start changes neither the hatches nor
the tables that a HAT command is judged by. -/
theorem hatchesAct : Obligations.HatchesAct := by
  refine ⟨fun s id p n len bs c r hc hst hr hmove hquiet hhalf hcheck => ?_,
    fun s id p n len bs c r code hc hst hr hmove hquiet hhalf hcheck hn => ?_,
    fun s t u id p q n len len' bs bs' fn hpq ht hu => ?_,
    fun s t id p n len len' bs fn ht => ?_,
    fun s n who len hn hopen hclosing hprod hworld => pushCheck_of_producer hn hopen hclosing hprod hworld,
    fun s fn n len hserved hreach hcheck => ?_,
    fun s n k p j hfind => ?_,
    fun s n c p hsettle hopen hclosing hkind hc hst hmove hquiet hp hshown => ?_,
    fun s u n c p bs hsettle hopen hclosing hkind hc hst hmove hquiet hp hshown hmore hword => ?_,
    fun s u n c p bs hsettle hopen hclosing hkind hc hst hmove hquiet hp hshown hlast hword => ?_,
    fun s n p j hopen hclosing hkind hfn hbme hmode hreach hnext hfresh => ?_,
    fun s n p j hopen hclosing hkind hfn hbme hmode hreach hnext hstale => ?_,
    fun s fn n p hserved hreach hn hopen hkind hdst hworld hp => ?_,
    fun s fn n c hserved hreach hn hopen hkind hdst hworld hp hc => ?_,
    fun s u n p bs hsettle hp hkind hopen hcopied hcut htakes hlen hword => ?_,
    fun s n hsettle hcut hmember => congrArg Host.Outcome.next (handoff_waits hsettle hcut hmember),
    fun s p n hfree harg hn hserves hclosing hname hshut hdesc hlive hworld => ?_,
    fun s p n hfree harg hbad => ?_,
    fun s p n hfree harg hn hserves hclosing => ?_,
    fun s p n hfree harg hn hserves hclosing hopen hname => ?_,
    fun s n o hclosing hposted hfind hkeep => ?_,
    fun s p op hfree hop => ?_⟩
  · have hadm := (roomPush_judged (bs := bs) hc hst hr hmove hquiet hhalf).1 hcheck
    have hrec := admitted_crew (s := s) (n := n.toNat) (id := id.toNat) (len := len.toNat) (heat := c.heat) bs
    refine ⟨_, congrArg Host.Outcome.next (hatchPush_alone.trans hadm), ?_, ?_, ?_, rfl⟩
    · exact (congrArg Hatch.packets hrec :)
    · exact (congrArg Hatch.admitted hrec :)
    · exact (congrArg Hatch.tail hrec :)
  · have href := (roomPush_judged (bs := bs) hc hst hr hmove hquiet hhalf).2 code hcheck
    obtain ⟨hrec, hraw⟩ := refuse_reads (s := s) code hn
    exact ⟨_, congrArg Host.Outcome.next (hatchPush_alone.trans href), (congrArg Hatch.lastErr hrec :),
      (congrArg Hatch.packets hrec :), rfl, hraw⟩
  · have htr := Host.Outcome.next.inj ht
    have hur := Host.Outcome.next.inj hu
    obtain ⟨hfirst, hsecond⟩ := hatchPush_rooms (s := s) (id := id.toNat) (n := n.toNat) (len := len) (len' := len') (bs := bs)
      (bs' := bs') (fn := fn) hpq
    have hboth : ((s.hatchReturn fn.toNat n.toNat 1).roomPush id.toNat p.toNat n.toNat len.toNat bs).roomPush id.toNat q.toNat
        n.toNat len'.toNat bs' = u.hatchPush id.toNat q n.toNat len' bs' [] := by
      rw [hatchPush_alone, ← hur, ← htr]
      exact congrArg (fun t : State => t.roomPush id.toNat q.toNat n.toNat len'.toNat bs') hatchPush_alone.symm
    exact ⟨congrArg Host.Outcome.next (hfirst.trans hboth), congrArg Host.Outcome.next (hsecond.trans hboth)⟩
  · have htr := Host.Outcome.next.inj ht
    rw [← htr]
    exact congrArg Host.Outcome.next (hatchPush_send.trans (congrArg (fun t : State => t.hatchSend fn.toNat n.toNat len'.toNat)
      hatchPush_alone.symm))
  · have hop : s.hatchSend fn.toNat n.toNat len.toNat = s.setHatch n.toNat (pushed (s.hatch n.toNat) fn.toNat 0 0 len.toNat) := by
      refine (toBar2_of_served hserved _).trans ?_
      rw [hreach, if_neg (by decide), hcheck]
      exact admitted_host []
    refine ⟨_, congrArg Host.Outcome.next hop, ?_, rfl, Upd.frame (setHatch_upd (s := s))⟩
    exact (congrArg Hatch.packets (hatch_setHatch s n.toNat _) :)
  · refine ⟨_, congrArg Host.Outcome.next (noticePost_posts hfind), hatch_setHatch _ _ _, ?_⟩
    exact (Upd.after setHatch_upd rfl <| Upd.after writeBytes_upd rfl .refl).frame
  · have hop := (hatchDelivery_serves (words := 0) hsettle hopen hclosing hkind hc hst hmove hquiet).trans (showNotice_first hp hshown)
    refine ⟨_, congrArg Host.Outcome.next hop, rfl, hatch_setHatch _ _ _, ?_⟩
    exact (Upd.out (Upd.after setHatch_upd rfl .refl) rfl).frame
  · have hserve := hatchDelivery_serves (words := 1) hsettle hopen hclosing hkind hc hst hmove hquiet
    have hop := (hserve.trans (deliver_word hp hshown hword _)).trans (if_neg (Nat.ne_of_lt hmore))
    have hrec := hatch_setHatch (u.emit (.hatchWord n.toNat bs)) n.toNat
      { s.hatch n.toNat with packets := { p with words := p.words + 1 } :: (s.hatch n.toNat).packets.tail }
    have hcons := (congrArg Hatch.packets hrec :)
    exact ⟨_, congrArg Host.Outcome.next (hop.trans (showNotice_shown hcons hshown)), rfl, hrec⟩
  · have hserve := hatchDelivery_serves (words := 1) hsettle hopen hclosing hkind hc hst hmove hquiet
    have hop := (hserve.trans (deliver_word hp hshown hword _)).trans (if_pos hlast)
    exact ⟨_, congrArg Host.Outcome.next hop, rfl, hatch_setHatch _ _ _⟩
  · have hop := (hostCopy_next hopen hclosing hkind hfn hbme hmode hreach hnext).2 hfresh
    exact ⟨_, congrArg Host.Outcome.next hop, hatch_setHatch _ _ _, rfl⟩
  · have hop := (hostCopy_next hopen hclosing hkind hfn hbme hmode hreach hnext).1 hstale
    have hcount := countStale_reads (sourceStale_crew hstale)
    exact ⟨_, congrArg Host.Outcome.next hop, hatch_setHatch _ _ _, hcount⟩
  · exact congrArg Host.Outcome.next ((hatchReturn_pops hserved hreach hn hopen hkind hdst hworld).trans (hatchPops_one hp))
  · obtain ⟨k, hk⟩ := Nat.exists_eq_succ_of_ne_zero fun h : c.toNat = 0 => hc (BitVec.eq_of_toNat_eq h)
    have hop : s.hatchReturn fn.toNat n.toNat c.toNat = s.bump (pgHat (hatchHalf n.toNat)) HAT_UNDERFLOW_COUNT c.toNat := by
      rw [hatchReturn_pops hserved hreach hn hopen hkind hdst hworld, hk]
      exact hatchPops_none hp
    exact ⟨_, congrArg Host.Outcome.next hop, rd_bump _ _ rfl, bump_upd.frame⟩
  · have hop := handoff_takes hsettle hp hkind hopen hcopied hcut htakes (packetWords_one hlen hword)
    rw [hlen] at hop
    exact congrArg Host.Outcome.next hop
  · obtain ⟨u, hu⟩ := hatchOpen_opens (s := s.portStart .hat p) (q := p) (n := n) (ws := s.hatWindow p)
      ((mayName_portStart ..).trans hname) ((congrArg Hatch.isOpen (hatch_portStart ..)).trans hshut)
      ((hatchDescOk_portStart ..).trans hdesc) ((endsLive_portStart ..).trans hlive) hworld
    have hop := (hatGo_turn (op := 1) hfree harg hn hserves hclosing).trans hu
    refine ⟨_, congrArg Host.Outcome.next hop, ?_, hatEnd_answered _ _ (by decide)⟩
    exact (hatch_congr (hatEnd_upd.frame .hatches (by decide)) n).trans (hatch_setHatch _ _ _)
  · obtain ⟨hans, hkeep⟩ := hatBadHatch_reads (s := s) (n := n) p
    exact ⟨_, _, _, congrArg Host.Outcome.next (hatGo_bad hfree harg hbad), congrArg Host.Outcome.next (hatGo_bad hfree harg hbad),
      congrArg Host.Outcome.next (hatGo_bad hfree harg hbad), hans, hans, hans, hkeep, hkeep, hkeep⟩
  · refine ⟨_, congrArg Host.Outcome.next (hatGo_turn (op := 2) hfree harg hn hserves hclosing), hatchQuery_answered p, ?_⟩
    exact (hatchQuery_hatches p).trans (portStart_upd.frame .hatches (by decide))
  · obtain ⟨hrec, hops⟩ := hatchClose_closes (s := s.portStart .hat p) (n := n) (q := p)
      ((congrArg Hatch.isOpen (hatch_portStart ..)).trans hopen) (by rw [mayName_portStart, hatch_portStart]; exact hname)
    rw [hatch_portStart] at hrec
    rw [portStart_upd.frame .portOps (by decide)] at hops
    exact ⟨_, congrArg Host.Outcome.next (hatGo_turn (op := 3) hfree harg hn hserves hclosing), hrec, hops⟩
  · obtain ⟨v, hops, hrec, hop⟩ := hatchClosed_ends hclosing hposted hfind hkeep
    exact ⟨_, congrArg Host.Outcome.next hop, (hatch_congr (hatEnd_upd.frame .hatches (by decide)) _).trans hrec,
      hatEnd_answered _ _ (by decide), (hatEnd_upd.frame .portOps (by decide)).trans hops⟩
  · obtain ⟨t, ht, hans, hkeep, -⟩ := hatBadOp_refused s p op hfree hop
    exact ⟨t, ht, hans, hkeep⟩

end Sys2Proof.Machine
end

section
/-! PROOFS. O30: the steps of a swap and the Steward's own events -/

namespace Sys2Proof.Machine
namespace State
variable {s t u : State} {w id heat now n r : Nat} {x : Swap} {c : Crew}

/-! ## The swap of a wing -/

/-- The swap that a wing holds at a step. -/
theorem wing_of_swapAt {k : Nat} (h : s.swapAt w k = some x) : (s.wing w).swap = some x := by
  unfold swapAt at h
  split at h
  next =>
    obtain ⟨hy, -⟩ := Option.filter_eq_some_iff.mp h
    exact hy
  next => cases h

theorem swap_modSwap (h : (s.wing w).swap = some x) (f : Swap → Swap) : ((s.modSwap w f).wing w).swap = some (f x) := by
  unfold modSwap
  rw [wing_modWing]
  exact congrArg (Option.map f) h

theorem room_modSwap (s : State) (w : Nat) (f : Swap → Swap) (r : Nat) : (s.modSwap w f).room r = s.room r :=
  room_of_rooms (modSwap_upd.frame .rooms (by decide)) r

theorem swap_wingFree (s : State) (w : Nat) : ((s.wingFree w).wing w).swap = none := by
  unfold wingFree
  rw [wing_modWing]

/-! ## Rooms -/

/-- What a change of a room leaves as it was, it leaves so in every room. -/
theorem room_modRoom_keeps {α : Type} (g : Room → α) {f : Room → Room} (hg : ∀ x, g (f x) = g x) (q r : Nat) :
    g ((s.modRoom q f).room r) = g (s.room r) := by
  unfold modRoom setRoom
  split
  next hq =>
    unfold room
    split
    next =>
      rw [Tbl.get_store]
      split
      next hr =>
        rw [hg, hr]
      next => rfl
    next => rfl
  next => rfl

theorem room_modRooms_keeps {α : Type} (g : Room → α) {f : Room → Room} (hg : ∀ x, g (f x) = g x) (rs : List Nat) (r : Nat) :
    g ((s.modRooms rs f).room r) = g (s.room r) := by
  induction rs generalizing s with
  | nil => rfl
  | cons q rs ih => exact (ih (s := s.modRoom q f)).trans (room_modRoom_keeps g hg q r)

/-- A room whose lanes stand still. -/
def stilled (y : Room) : Room := { y with still := true }

theorem codeOut_stilled (rs rooms : List Nat) : (s.modRooms rs stilled).codeOut rooms = s.codeOut rooms := by
  unfold codeOut
  refine congrArg (List.any rooms) (funext fun r => ?_)
  rw [room_modRooms_keeps Room.state (f := stilled) (fun _ => rfl), room_modRooms_keeps Room.failAs (f := stilled) (fun _ => rfl)]

/-! ## Step 3: save (R90, R98) -/

theorem swapSave_saved {fl : Bool} (hat : s.swapAt w 3 = some x) (hsave : s.saveCrews x.outs now false = (fl, u))
    (hquiet : s.unquiet x.rooms = []) : s.swapSave w now n = u.afterSave w x fl n := by
  unfold swapSave
  rw [hat]
  dsimp only
  rw [hquiet, hsave]
  rfl

/-- The change of a swap whose outgoing crews have left. -/
def sawOut (x : Swap) (flag : Bool) (y : Swap) : Swap :=
  { y with step := if x.inc.isSome && !x.lost then 4 else 7, codeErr := flag || x.codeErr, outs := [] }

theorem afterSave_goesOn {fl : Bool} (hkind : x.kind ≠ .standby) (hcode : s.codeOut x.rooms = false) :
    s.afterSave w x fl n = ((((s.modRooms x.rooms stilled).modSwap w (sawOut x fl)).settlePorts.decision
      (halfOf (w / 8))).settlePorts) := by
  unfold afterSave
  dsimp only
  exact (if_neg hkind).trans (if_neg (by rw [show (fun y : Room => { y with still := true }) = stilled from rfl, codeOut_stilled, hcode]; decide))

theorem readFlag_clear (h : (s.room r).codeFlag = false) : s.readFlag r now = s.modRoom r fun x => { x with codeErr := false } := by
  unfold readFlag
  dsimp only
  rw [h]
  rfl

/-- A crew on its way to PARKED leaves its one room, whose code-error flag is clear. -/
theorem saveCrew_parked (hc : s.crew id = some c) (htarget : c.target = .parked) (hsuite : c.suite = [r])
    (hflag : (s.room r).codeFlag = false) :
    s.saveCrew id now false = (false, ((((s.saveRoom c r 0 false).modRoom r fun x => { x with codeErr := false }).modCrew id
      fun c => { c with qto := 0 }).modCrew id fun c => { c with state := .parked, suite := [], pendPark := false })) := by
  have hsaved : ((s.saveRoom c r 0 false).room r).codeFlag = false := by
    rw [room_of_rooms (saveRoom_upd.frame .rooms (by decide)) r, hflag]
  have htake (v : State) (hv : v.crew id = some c) : v.takeTarget id none false =
      (v.modCrew id fun c => { c with qto := 0 }).modCrew id fun c => { c with state := .parked, suite := [], pendPark := false } := by
    unfold takeTarget
    rw [hv]
    dsimp only
    rw [htarget]
    rfl
  have hcrew : (((s.saveRoom c r 0 false).modRoom r fun x => { x with codeErr := false }).crew id) = some c :=
    (crew_of_crews ((modRoom_upd.frame .crews (by decide)).trans (saveRoom_upd.frame .crews (by decide))) id).trans hc
  unfold saveCrew
  rw [hc]
  dsimp only
  rw [hsuite, htarget]
  show ((if ((s.saveRoom c r 0 false).room r).codeFlag = true ∧ (none : Option Nat).isNone = true then some r else none).isSome,
    ((s.saveRoom c r 0 false).readFlag r now).takeTarget id
      (if ((s.saveRoom c r 0 false).room r).codeFlag = true ∧ (none : Option Nat).isNone = true then some r else none) false) = _
  rw [readFlag_clear hsaved, hsaved]
  exact congrArg (Prod.mk false) (htake _ hcrew)

/-! ## Step 4: load (R110) -/

theorem swapLoad_one {k : Except FaultInfo Nat} (hat : s.swapAt w 4 = some x) (hinc : x.inc = some (id, heat)) (hlost : x.lost = false)
    (hlive : s.crewLive id heat = true) (hc : s.crew id = some c) (hsuite : x.suite = [r])
    (hquiet : x.kind = .reconfig → s.unquiet x.rooms = [])
    (hload : (s.modCrew id fun c => { c with rewritten := false }).loadRoom w id c r 0 (x.kind == .swap) = (k, u)) :
    (∀ m, k = .ok m → s.swapLoad w n = u.modSwap w fun y => { y with step := 5, anyMem := m == 2, anyCache := m == 1 }) ∧
    (∀ f, k = .error f → s.swapLoad w n = u.loadFails w x f n) := by
  have hgo : ¬ (x.kind = .reconfig ∧ s.unquiet x.rooms ≠ []) := fun h => h.2 (hquiet h.1)
  have hcrew : (if (s.crewLive id heat && !x.lost) = true then s.crew id else none) = some c := by
    rw [hlive, hlost]
    exact hc
  refine ⟨fun m hm => ?_, fun f hf => ?_⟩
  · subst hm
    unfold swapLoad
    rw [hat]
    dsimp only
    rw [hinc]
    dsimp only
    rw [hcrew]
    dsimp only
    rw [if_neg hgo, hsuite]
    simp only [List.zipIdx_cons, List.zipIdx_nil, List.foldl_cons, List.foldl_nil, hload, Bool.false_or]
  · subst hf
    unfold swapLoad
    rw [hat]
    dsimp only
    rw [hinc]
    dsimp only
    rw [hcrew]
    dsimp only
    rw [if_neg hgo, hsuite]
    simp only [List.zipIdx_cons, List.zipIdx_nil, List.foldl_cons, List.foldl_nil, hload]

/-! ## Steps 5 and 6: flip and restore (R84, R103) -/

theorem swapFlip_one (hat : s.swapAt w 5 = some x) (hinc : x.inc = some (id, heat)) (hlost : x.lost = false)
    (hkind : x.kind = .swap) (hsuite : x.suite = [r]) :
    s.swapFlip w = (s.flipRoom id heat r 0 true).modSwap w fun y => { y with step := 6 } := by
  unfold swapFlip
  rw [hat]
  dsimp only
  rw [hinc]
  dsimp only
  rw [if_neg (by rw [hlost]; decide), hsuite, hkind]
  dsimp only [List.zipIdx_cons, List.zipIdx_nil, List.foldl_cons, List.foldl_nil]
  split <;> rfl

/-- A room that has flipped to a crew. -/
def flipped (id heat p : Nat) (whole : Bool) (x : Room) : Room :=
  { x with active := !x.active, crew := id, heat := heat, pos := p, screw := x.crew, sheat := x.heat,
           spos := x.pos, svalid := whole, codeFlag := false, still := true }

/-- The old plane of a room counts as a preload. -/
def oldWhole (s : State) (old : Room) : Bool :=
  old.crew != 0 && s.crewLive old.crew old.heat && !((s.crew old.crew).map (·.rewritten)).getD true

theorem room_flipRoom {p : Nat} (hr : r % 256 < 192) :
    (s.flipRoom id heat r p true).room r = flipped id heat p (s.oldWhole (s.room r)) (s.room r) := by
  unfold flipRoom
  dsimp only
  rw [room_modRoom s hr]
  rfl

theorem swapRestore_one {img : Tbl Byte} (hat : s.swapAt w 6 = some x) (hinc : x.inc = some (id, heat)) (hlost : x.lost = false)
    (hlive : s.crewLive id heat = true) (hc : s.crew id = some c) (hsuite : x.suite = [r]) (hkind : x.kind = .swap)
    (hpin : c.isPinned = false)
    (hstaged : ((s.wing w).staged.find? fun y => y.crew == id && y.heat == heat && y.pos == 0) = none)
    (hread : s.readMem ueLoader (stateAddr c c.useFirst 0) imageBytes = (.ok img, u)) :
    s.swapRestore w n = (u.restoreRoom r img true).modSwap w fun y => { y with step := 7 } := by
  have hcrew : (if (s.crewLive id heat && !x.lost) = true then s.crew id else none) = some c := by
    rw [hlive, hlost]
    exact hc
  have hfirst : (c.useFirst || x.kind == .reconfig) = c.useFirst := by
    rw [hkind]
    exact Bool.or_false _
  unfold swapRestore
  rw [hat]
  dsimp only
  rw [hinc]
  dsimp only
  rw [hcrew]
  dsimp only
  rw [hsuite, hfirst, hkind]
  simp only [List.zipIdx_cons, List.zipIdx_nil, List.foldl_cons, List.foldl_nil, if_true, hstaged, hread, hpin, Bool.not_false]

theorem room_restoreRoom {img : Tbl Byte} (hr : r % 256 < 192) :
    (s.restoreRoom r img true).room r =
      { (s.enterState r (liveImage img)).room r with retry := bits (statusWord img) 31 16, issued := 0 } :=
  room_modRoom _ hr _

/-! ## Step 7: reopen (R113, R134) -/

/-- The record of a crew that has boarded a suite. -/
def boardedAs (suite : List Nat) (c : Crew) : Crew :=
  { c with state := if c.isPinned then .pinned else .running, suite := suite, boardings := (c.boardings + 1) % 2 ^ 32,
           lastAnchor := suite.headD 0, aged := 0, useFirst := false, expired := false, fault := 0 }

theorem crew_boarded {suite : List Nat} (hc : s.crew id = some c) (hpin : c.isPinned = false) :
    (s.boarded id c suite).crew id = some (boardedAs suite c) := by
  have hcrew : (((s.occupy id c suite).dropStaged id).crew id) = some c :=
    (crew_of_crews ((dropStaged_upd.frame .crews (by decide)).trans (occupy_upd.frame .crews (by decide))) id).trans hc
  unfold boarded
  dsimp only
  rw [hpin]
  exact crew_modCrew hcrew (boardedAs suite)

/-- The end of a swap leaves the crews as they are. -/
theorem crew_recorded (s : State) (w outcome n id : Nat) : (((s.swapRecord w outcome n).wingFree w).crew id) = s.crew id :=
  crew_of_crews ((wingFree_upd.frame .crews (by decide)).trans (swapRecord_upd.frame .crews (by decide))) id

theorem swapReopen_in (hat : s.swapAt w 7 = some x) (hinc : x.inc = some (id, heat)) (hlost : x.lost = false)
    (hlive : s.crewLive id heat = true) (hc : s.crew id = some c) (hkind : x.kind = .swap) :
    s.swapReopen w n = ((((((s.emptyRooms (x.rooms.filter fun r => !x.suite.contains r)).boarded id c x.suite).swapRecord w
      (outcomeOf x) n).wingFree w).actPending id).wingDone w) := by
  unfold swapReopen
  rw [hat]
  dsimp only
  rw [if_neg (by rw [hkind]; decide), hinc]
  dsimp only
  rw [hlive, hlost, hc]
  rfl

theorem swapReopen_out (hat : s.swapAt w 7 = some x) (hinc : x.inc = none) (hkind : x.kind = .swap) :
    s.swapReopen w n = (((s.emptyRooms x.rooms).swapRecord w (outcomeOf x) n).wingFree w).wingDone w := by
  unfold swapReopen
  rw [hat]
  dsimp only
  rw [if_neg (by rw [hkind]; decide), hinc]

/-! ## IDLE and ageing (R138, R145) -/

theorem idlePulse_idle (hc : s.crew id = some c) (hst : c.state = .running)
    (hopen : (s.crossing (idHalf id) xkIdle (crewWing c % 8)).isOpen = false)
    (hready : (s.crossing (idHalf id) xkIdle (crewWing c % 8)).notReady = false) : s.idlePulse id = s.idle id := by
  unfold idlePulse
  rw [hc]
  dsimp only
  rw [if_neg (by rw [hst]; decide), hopen, hready]
  rfl

theorem idle_parks (hc : s.crew id = some c) (hst : c.state = .running) (hmode : swapMode (s.mode (idHalf id)) = true)
    (hpark : c.parkOnIdle = true) (hwake : c.wakePending = false) (hwait : c.waiting = false) :
    s.idle id = (s.startDrain id .parked).settlePorts := by
  unfold idle
  rw [hc]
  dsimp only
  rw [if_neg (by rw [hst, hmode]; decide), if_pos (by rw [hpark, hwake, hwait]; decide)]

theorem idle_woken (hc : s.crew id = some c) (hst : c.state = .running) (hmode : swapMode (s.mode (idHalf id)) = true)
    (hwake : c.wakePending = true) (hwait : c.waiting = true) :
    s.idle id = s.modCrew id fun c => { c with wakePending := false } := by
  unfold idle
  rw [hc]
  dsimp only
  rw [if_neg (by rw [hst, hmode]; decide), if_neg fun h => absurd h.2.1 (by rw [hwake]; decide)]
  unfold sliceEnds
  rw [crew_modCrew hc]
  dsimp only
  rw [if_neg fun h => absurd h.2.1 (by rw [hwait]; decide)]

theorem sliceEnds_runs (hc : s.crew id = some c) (hst : c.state = .running) (hwait : c.waiting = false)
    (horphan : s.orphan (idHalf id) = false) :
    s.sliceEnds id = (((s.modCrew id fun c => { c with expired := true }).decision (idHalf id)).modCrew id
      fun c => { c with expired := false }).settlePorts := by
  unfold sliceEnds
  rw [hc]
  dsimp only
  rw [if_pos ⟨hst, by rw [hwait]; decide, by rw [horphan]; decide⟩]

theorem sliceEnds_stays (hc : s.crew id = some c) (hst : c.state ≠ .running) : s.sliceEnds id = s := by
  unfold sliceEnds
  rw [hc]
  exact if_neg fun h => hst h.1

theorem idlePulse_stays (hc : s.crew id = some c) (hst : c.state ≠ .running) : s.idlePulse id = s := by
  unfold idlePulse
  rw [hc]
  exact if_pos hst

theorem idlePulse_waits (hc : s.crew id = some c) (hst : c.state = .running)
    (hopen : (s.crossing (idHalf id) xkIdle (crewWing c % 8)).isOpen = true) :
    s.idlePulse id = s.pulseFor (idHalf id) xkIdle (crewWing c % 8) id := by
  unfold idlePulse
  rw [hc]
  dsimp only
  rw [if_neg (by rw [hst]; decide), hopen]
  rfl

theorem age_eq (hc : s.crew id = some c) (hst : c.state = .ready) (hage : s.rd (pgStw (idHalf id)) STW_SCHED_AGE ≠ 0) :
    s.age id = if s.eff id c < 7 then
        (({ s with stamps := s.stamps + 1 } : State).modCrew id fun c => { c with aged := c.aged + 1, stamp := s.stamps + 1 }).decision (idHalf id)
      else s.modCrew id fun c => { c with aged := c.aged + 1 } := by
  unfold age
  rw [hc]
  dsimp only
  rw [if_pos ⟨hst, hage⟩]
  rfl

/-! ## Heats (R207) -/

/-- A hall that reaches the other half takes its heat of a crew. -/
theorem heatCopyUpdate_takes {h : Half} {id : BitVec 16} (hhalf : idHalf id.toNat = other h) (hcut : s.cut (other h) = false)
    (hhatches : s.hatches = []) :
    ∃ t, exec (.heatCopyUpdate h id) s = .next t ∧ t.heatSeen h id.toNat = s.heat id.toNat ∧ Unchanged [.heatCopy] s t := by
  have hne : idHalf id.toNat ≠ h := by
    rw [hhalf]
    cases h <;> decide
  refine ⟨{ s with heatCopy := s.heatCopy.set h (Tbl.store (s.heatCopy.get h) 0 id.toNat (s.heat id.toNat)) }, ?_, ?_,
    (Upd.heatCopy .refl rfl).frame⟩
  · show Host.Outcome.next _ = _
    rw [if_neg (fun hc => absurd hc.2 (by rw [hcut]; decide)), if_neg hne, hhatches]
    rfl
  · unfold heatSeen
    rw [if_neg hne]
    exact (congrArg (fun t => Tbl.get t 0 id.toNat) (Both.get_set_same s.heatCopy h _)).trans ((Tbl.get_store ..).trans (if_pos rfl))

end State

open State

/-- Settles O30, each step of a swap by its equation for a suite of one room, and each event of the Steward by the branch that its
premises choose. -/
theorem swapStepsAct : Obligations.SwapStepsAct := by
  refine ⟨fun s u w now n x fl hat hsave hwing hkind hquiet hcode => ?_,
    fun s w now n x hat hquiet => ?_,
    fun s id now r c hc htarget hsuite hr hflag => ?_,
    fun s u w n id heat r k c x hat hinc hlost hlive hc hsuite hquiet hload hwing => ?_,
    fun s u w n id heat r c x f hat hinc hlost hlive hc hsuite hquiet hload =>
      congrArg Host.Outcome.next ((swapLoad_one hat hinc hlost hlive hc hsuite hquiet hload).2 f rfl),
    fun s w id heat r x hat hinc hlost hkind hsuite hr => ?_,
    fun s u w n id heat r c x img hat hinc hlost hlive hc hsuite hkind hr hpin hstaged hread => ?_,
    fun s w n id heat c x hat hinc hlost hlive hc hpin hkind hrooms => ?_,
    fun s w n x hat hinc hkind => congrArg Host.Outcome.next (swapReopen_out hat hinc hkind),
    fun s id c hc hst hwait horphan => ?_,
    fun s id c hc hst => ?_,
    fun s id c hc hst hmode hpark hwake hwait hopen hready =>
      congrArg Host.Outcome.next ((idlePulse_idle hc hst hopen hready).trans (idle_parks hc hst hmode hpark hwake hwait)),
    fun s id c hc hst hmode hwake hwait hopen hready => ?_,
    fun s id c hc hst hopen => ?_,
    fun s id c hc hst heff hage => ?_,
    fun s id c hc hst heff hage => ?_,
    fun s id c bs hc hheld => ?_,
    fun s h id hhalf hcut hhatches => ?_,
    fun s id r hfind => ?_⟩
  · exact ⟨_, congrArg Host.Outcome.next ((swapSave_saved hat hsave hquiet).trans (afterSave_goesOn hkind hcode)),
      swap_modSwap ((congrArg Wing.swap (wing_of_wings (modRooms_upd.frame .wings (by decide)) _)).trans hwing) _,
      (Upd.after modSwap_upd rfl <| Upd.after modRooms_upd rfl .refl).frame⟩
  · have hop : s.swapSave w.toNat now n = s := by
      unfold swapSave
      rw [hat]
      exact if_pos (by simpa using hquiet)
    exact congrArg Host.Outcome.next hop
  · refine ⟨_, saveCrew_parked hc htarget hsuite hflag, ?_, ?_, ?_⟩
    · have hcrew : (((s.saveRoom c r 0 false).modRoom r fun x => { x with codeErr := false }).crew id) = some c :=
        (crew_of_crews ((modRoom_upd.frame .crews (by decide)).trans (saveRoom_upd.frame .crews (by decide))) id).trans hc
      exact crew_modCrew (crew_modCrew hcrew _) _
    · have hroom := room_modRoom (s.saveRoom c r 0 false) hr fun x => { x with codeErr := false }
      exact (congrArg Room.codeErr hroom :)
    · exact (Upd.after modCrew_upd rfl <| Upd.after modCrew_upd rfl <| Upd.after modRoom_upd rfl <| Upd.after saveRoom_upd rfl .refl).frame
  · exact ⟨_, congrArg Host.Outcome.next ((swapLoad_one hat hinc hlost hlive hc hsuite hquiet hload).1 k rfl), swap_modSwap hwing _,
      modSwap_upd.frame⟩
  · have hroom (f : Swap → Swap) := (room_modSwap _ w.toNat f r).trans (room_flipRoom (s := s) (id := id) (heat := heat) (p := 0) hr)
    have hwing := (congrArg Wing.swap (wing_of_wings (flipRoom_upd (s := s) (id := id) (heat := heat) (r := r) (p := 0)
      (keepOld := true) |>.frame .wings (by decide)) w.toNat)).trans (wing_of_swapAt hat)
    exact ⟨_, congrArg Host.Outcome.next (swapFlip_one hat hinc hlost hkind hsuite), congrArg Room.active (hroom _), congrArg Room.crew (hroom _),
      congrArg Room.heat (hroom _), congrArg Room.pos (hroom _), congrArg Room.screw (hroom _), congrArg Room.sheat (hroom _), congrArg Room.codeFlag (hroom _),
      congrArg Room.svalid (hroom _), swap_modSwap hwing _, (Upd.after modSwap_upd rfl <| Upd.after flipRoom_upd rfl .refl).frame⟩
  · have hend : (s.readMem ueLoader (stateAddr c c.useFirst 0) imageBytes).2 = u := congrArg Prod.snd hread
    have hkeep : u.wings = s.wings := hend ▸ readMem_upd.frame .wings (by decide)
    have hwing := (congrArg Wing.swap (wing_of_wings ((restoreRoom_upd (s := u) (r := r) (t := img) (mask := true) |>.frame .wings
      (by decide)).trans hkeep) w.toNat)).trans (wing_of_swapAt hat)
    have hroom (f : Swap → Swap) := (room_modSwap _ w.toNat f r).trans (room_restoreRoom (s := u) (img := img) hr)
    exact ⟨_, congrArg Host.Outcome.next (swapRestore_one hat hinc hlost hlive hc hsuite hkind hpin hstaged hread),
      congrArg Room.retry (hroom _), congrArg Room.issued (hroom _), swap_modSwap hwing _, 
      (modSwap_upd.frame .fabric (by decide)).trans (modRoom_upd.frame .fabric (by decide))⟩
  · have hcrew : (s.emptyRooms (x.rooms.filter fun r => !x.suite.contains r)).crew id = some c :=
      (crew_of_crews (emptyRooms_upd.frame .crews (by decide)) id).trans hc
    refine ⟨_, congrArg Host.Outcome.next (swapReopen_in hat hinc hlost hlive hc hkind), ?_, swap_wingFree _ _⟩
    refine ((crew_recorded _ w.toNat (outcomeOf x) n id).trans (crew_boarded hcrew hpin)).trans ?_
    unfold boardedAs
    rw [hpin]
    rfl
  · exact congrArg Host.Outcome.next (sliceEnds_runs hc hst hwait horphan)
  · exact ⟨congrArg Host.Outcome.next (sliceEnds_stays hc hst), congrArg Host.Outcome.next (idlePulse_stays hc hst)⟩
  · exact ⟨_, congrArg Host.Outcome.next ((idlePulse_idle hc hst hopen hready).trans (idle_woken hc hst hmode hwake hwait)),
      crew_modCrew hc _, modCrew_upd.frame⟩
  · exact congrArg Host.Outcome.next (idlePulse_waits hc hst hopen)
  · exact ⟨_, congrArg Host.Outcome.next ((age_eq hc hst hage).trans (if_pos heff)), crew_modCrew hc _, rfl,
      (Upd.after modCrew_upd rfl (Upd.stamps .refl rfl)).frame⟩
  · exact ⟨_, congrArg Host.Outcome.next ((age_eq hc hst hage).trans (if_neg (Nat.not_lt.mpr heff))), crew_modCrew hc _, modCrew_upd.frame⟩
  · have hcrew : ((s.crew id.toNat).bind fun c => c.held.map (c, ·)) = some (c, bs) := by
      rw [hc]
      show c.held.map (c, ·) = _
      rw [hheld]
      rfl
    show Host.Outcome.next _ = _
    rw [hcrew]
  · exact heatCopyUpdate_takes hhalf hcut hhatches
  · exact ⟨_, rfl, (Tbl.find_mod ..).trans ((if_pos rfl).trans (congrArg (Option.map _) hfind)), (Upd.ids .refl rfl).frame⟩

end Sys2Proof.Machine
end

section
/-! PROOFS. O31: the loader -/

namespace Sys2Proof.Machine
namespace State
variable {s t u : State} {h : ImgHdr} {bs hd : List Byte} {r : Rec} {typ : Nat}

/-! ## Headers (R251, R254) -/

/-- The loader's record of an image that has just been taken. -/
def takenHdr (h : ImgHdr) (l : Loader) : Loader :=
  { l with hdr := some h, pos := hdrBytes, plain := [], seg := 0, crc := h.bytes.foldl crcByte 0xFFFFFFFF#32 }

/-- The CFG registers that a header sets. -/
def hdrRegs (h : ImgHdr) : List (Fld × Nat) :=
  [(CFG_STAT_ORDER, h.order), (CFG_STAT_PHASE, phRecords), (CFG_BUILD_LO_BUILD, leAt h.bytes 0x30 4),
    (CFG_BUILD_HI_BUILD, leAt h.bytes 0x34 4), (CFG_PROGRESS_BYTES, hdrBytes), (CFG_FRAMES_WRITES, 0)]

theorem hdrTake_eq (hlen : 0 < h.plainLen) :
    s.hdrTake h = ((s.storedTake hdrBytes).modLoad (takenHdr h)).wrs pgCfg (hdrRegs h) := by
  have hgo (v : State) (hh : v.loader.hdr = some h) (hpos : v.loader.pos = hdrBytes) : v.endless = v := by
    unfold endless
    rw [hh]
    exact if_neg (by rw [hpos]; omega)
  have hload : ((((s.storedTake hdrBytes).modLoad (takenHdr h)).wrs pgCfg (hdrRegs h)).loader) =
      takenHdr h (s.storedTake hdrBytes).loader := wrs_upd.frame .loader (by decide)
  exact hgo _ (congrArg Loader.hdr hload) (congrArg Loader.pos hload)

theorem hdrRegs_reads (s : State) (h : ImgHdr) : (s.wrs pgCfg (hdrRegs h)).rd pgCfg CFG_STAT_PHASE = phRecords ∧
    (s.wrs pgCfg (hdrRegs h)).rd pgCfg CFG_STAT_ORDER = h.order % 256 ∧
    (s.wrs pgCfg (hdrRegs h)).rd pgCfg CFG_FRAMES_WRITES = 0 := by
  simp only [hdrRegs, wrs_cons, wrs_nil]
  refine ⟨?_, ?_, rd_wr_fit _ _ rfl (by decide)⟩
  · rw [rd_wr_sep _ _ _ _ _ _ rfl rfl rfl, rd_wr_sep _ _ _ _ _ _ rfl rfl rfl, rd_wr_sep _ _ _ _ _ _ rfl rfl rfl,
      rd_wr_sep _ _ _ _ _ _ rfl rfl rfl]
    exact rd_wr_fit _ _ rfl (by decide)
  · rw [rd_wr_sep _ _ _ _ _ _ rfl rfl rfl, rd_wr_sep _ _ _ _ _ _ rfl rfl rfl, rd_wr_sep _ _ _ _ _ _ rfl rfl rfl,
      rd_wr_sep _ _ _ _ _ _ rfl rfl rfl, rd_wr_sep _ _ _ _ _ _ rfl rfl rfl]
    exact rd_wr _ _ _ _ rfl

/-- The header that comes next in a readable source is judged. -/
theorem header_judged (hload : s.loading = true) (hphase : s.phase = phHeader) (hlen : bs.length = hdrBytes)
    (hpeek : s.storedPeek 0 hdrBytes = some bs) (hlost : s.sourceLost 0 hdrBytes = false) :
    (∀ code, hdrCheck bs (if s.fromAttic then some (slotBytes - s.loader.base) else none) = .error code →
      s.header bs = s.loadFail code 0 0 noPos) ∧
    (hdrCheck bs (if s.fromAttic then some (slotBytes - s.loader.base) else none) = .ok h → s.hdrMatches h = true →
      hdrLate h = none → s.hdrKey h = none → s.header bs = s.hdrTake h) := by
  have hgo : (!s.loading || s.phase != phHeader) = false := by rw [hload, hphase]; rfl
  have hbytes : (bs.length != hdrBytes || s.storedPeek 0 hdrBytes != some bs) = false := by simp [hlen, hpeek]
  refine ⟨fun code hcheck => ?_, fun hcheck hmatch hlate hkey => ?_⟩
  · unfold header
    rw [if_neg (by rw [hgo]; decide), if_neg (by rw [hlost]; decide), if_neg (by rw [hbytes]; decide)]
    dsimp only
    rw [hcheck]
  · unfold header
    rw [if_neg (by rw [hgo]; decide), if_neg (by rw [hlost]; decide), if_neg (by rw [hbytes]; decide)]
    dsimp only
    rw [hcheck]
    dsimp only
    rw [hmatch, hlate, hkey]
    rfl

theorem header_lost (hload : s.loading = true) (hphase : s.phase = phHeader) (hlost : s.sourceLost 0 hdrBytes = true) :
    s.header bs = s.loadFail lfAtticErr 0 0 noPos := by
  unfold header
  rw [if_neg (by rw [hload, hphase]; decide), if_pos hlost]

/-! ## Segments (R268, R269) -/

theorem segment_opens {c tag : List Byte} {k : BitVec 256} (hh : s.loader.hdr = some h) (hload : s.loading = true)
    (hphase : s.phase = phRecords) (henc : h.encrypted = true) (hmore : s.loader.seg < h.segments) (htag : tag.length = 16)
    (hlen : c.length = min segBytes (h.plainLen - s.loader.seg * segBytes))
    (hpeek : s.storedPeek (hdrBytes + s.loader.seg * segStored) (c.length + 16) = some (c ++ tag))
    (hlost : s.sourceLost (hdrBytes + s.loader.seg * segStored) (c.length + 16) = false) (hkey : s.keyUsable h.keySlot = some k) :
    (∀ p, gcmOpen k (segIv h s.loader.seg) h.bytes c tag = some p →
      s.segment c tag = ((s.storedTake (c.length + 16)).modLoad fun l =>
        { l with seg := l.seg + 1, plain := l.plain ++ p.take c.length }).wr pgCfg CFG_PROGRESS_BYTES
          (s.rd pgCfg CFG_PROGRESS_BYTES + c.length + 16)) ∧
    (gcmOpen k (segIv h s.loader.seg) h.bytes c tag = none →
      s.segment c tag = s.loadFail lfBadCheck s.recordInHand 2 (hdrBytes + s.loader.seg * segStored)) := by
  have hgo : (!s.loading || s.phase != phRecords || !h.encrypted || decide (h.segments ≤ s.loader.seg)) = false := by
    simp [hload, hphase, henc, hmore]
  have hbytes : (c.length != c.length || tag.length != 16 ||
      s.storedPeek (hdrBytes + s.loader.seg * segStored) (c.length + 16) != some (c ++ tag)) = false := by
    simp [htag, hpeek]
  refine ⟨fun p hopen => ?_, fun hopen => ?_⟩ <;>
  · unfold segment
    rw [hh]
    dsimp only
    rw [← hlen, hgo, hlost, hbytes, hkey]
    dsimp only [Option.bind_some]
    rw [hopen]
    rfl

/-! ## Records (R255) -/

theorem sourceLost_shorter {a m n : Nat} (hmn : m ≤ n) (hlost : s.sourceLost a n = false) : s.sourceLost a m = false := by
  unfold sourceLost atticLost at *
  rw [Bool.and_eq_false_iff] at hlost ⊢
  refine hlost.imp id fun hnone => ?_
  simp only [List.any_eq_false, Bool.and_eq_true, decide_eq_true_eq, not_and, not_lt] at hnone ⊢
  intro x hx hlow
  have := hnone x hx hlow
  omega

/-- The record that comes next, whose form holds, acts. -/
theorem record_acts (hn : s.RecordNext typ r h hd) (htyp : typ = rtEnd ∨ 1 ≤ typ ∧ typ ≤ 6)
    (act : State → ImgHdr → Option LoadBad × State) :
    (∀ b, act s h = (some b, u) → s.record typ r act = u.recordFailed typ s.loader.pos b) ∧
    (act s h = (none, u) → s.record typ r act = if typ = rtEnd then u.recordTaken r hd else (u.recordTaken r hd).endless) := by
  obtain ⟨himage, hhead, ⟨hload, hphase⟩, hkind, ⟨hresv, hr0⟩, ⟨hlen, h8⟩, hfits, hlast, hbody, hread⟩ := hn
  have hread8 : (!h.encrypted && s.sourceLost s.loader.pos 8) = false := by
    rcases hread with henc | hlost
    · rw [henc]; rfl
    · rw [sourceLost_shorter (by omega) hlost, Bool.and_false]
  have hreadAll : (!h.encrypted && s.sourceLost s.loader.pos (8 + r.bodyLen)) = false := by
    rcases hread with henc | hlost
    · rw [henc]; rfl
    · rw [hlost, Bool.and_false]
  have hknown : (!(typ == rtEnd || (decide (1 ≤ typ) && decide (typ ≤ 6)))) = false := by
    rcases htyp with rfl | ⟨h1, h6⟩
    · rfl
    · simp [h1, h6]
  have hform : ¬ (r.resv ≠ 0 ∨ r.bodyLen % 8 ≠ 0 ∨ hdrBytes + h.plainLen < s.loader.pos + 8 + r.bodyLen ∨
      (typ = rtEnd ∧ s.loader.pos + 8 + r.bodyLen ≠ hdrBytes + h.plainLen)) := by
    rintro (hc | hc | hc | ⟨ht, hc⟩)
    · exact hc hr0
    · exact hc h8
    · omega
    · exact hc (hlast ht)
  have hsame : ¬ (typ ≠ typ ∨ leAt hd 1 3 ≠ r.resv.toNat ∨ r.bodyLen ≠ r.bodyLen) := by
    rintro (hc | hc | hc)
    · exact hc rfl
    · exact hc (by rw [hresv, hr0]; rfl)
    · exact hc rfl
  have hgo : ¬ (!s.loading || s.phase != phRecords) = true := by rw [hload, hphase]; decide
  refine ⟨fun b hact => ?_, fun hact => ?_⟩ <;>
  · unfold record
    rw [himage, hhead]
    dsimp only
    rw [hkind, hlen, if_neg hgo, hread8, if_neg (by decide), hknown, if_neg (by decide), if_neg hsame, if_neg hform, hreadAll,
      if_neg (by decide), if_neg (by rw [hbody]; exact fun hc => hc rfl), hact]
    rfl

theorem record_taken (hn : s.RecordNext typ r h hd) (htyp : 1 ≤ typ ∧ typ ≤ 6) {act : State → ImgHdr → Option LoadBad × State}
    (hact : act s h = (none, u)) : s.record typ r act = (u.recordTaken r hd).endless :=
  ((record_acts hn (.inr htyp) act).2 hact).trans (if_neg (by have := htyp.2; show ¬ typ = 15; omega))

theorem record_fails (hn : s.RecordNext typ r h hd) (htyp : 1 ≤ typ ∧ typ ≤ 6) {act : State → ImgHdr → Option LoadBad × State}
    {b : LoadBad} (hact : act s h = (some b, s)) : s.record typ r act = s.recordFailed typ s.loader.pos b :=
  (record_acts hn (.inr htyp) act).1 b hact

/-! ## Frame writes (R257 to R260) -/

theorem countFrames_fits {n : Nat} (hfit : s.rd pgCfg CFG_FRAMES_WRITES + n ≤ h.frameCount) :
    s.countFrames h n = some (s.wr pgCfg CFG_FRAMES_WRITES (s.rd pgCfg CFG_FRAMES_WRITES + n)) :=
  if_neg (Nat.not_lt.mpr hfit)

theorem countFrames_passes {n : Nat} (hpass : h.frameCount < s.rd pgCfg CFG_FRAMES_WRITES + n) : s.countFrames h n = none :=
  if_pos hpass

theorem rd_counted {n : Nat} (hfit : n ≤ h.frameCount) (hmax : h.frameCount ≤ maxFrames) :
    (s.wr pgCfg CFG_FRAMES_WRITES n).rd pgCfg CFG_FRAMES_WRITES = n :=
  rd_wr_fit _ _ rfl (by have : maxFrames < 2 ^ 32 := by decide
                        show n < 2 ^ 32
                        omega)

theorem writeFrame_fabric (a : Nat) (img : Tbl Byte) :
    (s.writeFrame a img).fabric = Tbl.splice s.fabric (frameKey a) 512 (Tbl.norm img) := by
  unfold writeFrame
  dsimp only
  split
  · exact keepRef_upd.frame .fabric (by decide)
  · rfl

/-- A room that frames were written to. -/
def wrote (a : Nat) (l : Loader) : Loader := { l with written := addrRoom a :: l.written.erase (addrRoom a) }

/-- One frame written, and its room. -/
def frameWritten (s : State) (a : Nat) (img : Tbl Byte) : State := (s.writeFrame a img).modLoad (wrote a)

theorem frameWritten_reads (s : State) (a : Nat) (img : Tbl Byte) :
    (s.frameWritten a img).fabric = Tbl.splice s.fabric (frameKey a) 512 (Tbl.norm img) ∧
      addrRoom a ∈ (s.frameWritten a img).loader.written :=
  ⟨(modLoad_upd.frame .fabric (by decide)).trans (writeFrame_fabric a img), List.mem_cons_self⟩

theorem frameWritten_upd {a : Nat} {img : Tbl Byte} : Upd [.fabric, .refs, .loader] s (s.frameWritten a img) :=
  Upd.after modLoad_upd rfl <| Upd.after writeFrame_upd rfl .refl

theorem writeFrames_one {a : Nat} {img : Tbl Byte} (hgood : s.frameGood a = true) :
    s.writeFrames img [a] = (none, s.frameWritten a img) := if_pos hgood

theorem frameGood_wr (v a : Nat) : (s.wr pgCfg CFG_FRAMES_WRITES v).frameGood a = s.frameGood a := by
  unfold frameGood
  rw [room_of_rooms (wr_upd.frame .rooms (by decide))]

theorem frameAct_unit {data rest : List Byte} (hunit : unitOf h.compressed 512 (r.body.drop 8) = some (data, rest))
    (hpad : padOk rest = true) (hlen : 8 ≤ r.body.length) (hzero : leAt r.body 4 4 = 0) :
    (s.rd pgCfg CFG_FRAMES_WRITES + 1 ≤ h.frameCount →
      frameAct r.body s h = (s.wr pgCfg CFG_FRAMES_WRITES (s.rd pgCfg CFG_FRAMES_WRITES + 1)).writeFrames
        (Tbl.putBytes [] 0 data) [leAt r.body 0 4]) ∧
    (h.frameCount < s.rd pgCfg CFG_FRAMES_WRITES + 1 → frameAct r.body s h = (some (.at_ lfCountMismatch), s)) := by
  have hform : ¬ (leAt r.body 4 4 ≠ 0 ∨ r.body.length < 8 ∨ (!padOk rest) = true) := by
    rintro (hc | hc | hc)
    · exact hc hzero
    · omega
    · rw [hpad] at hc
      exact absurd hc (by decide)
  refine ⟨fun hfit => ?_, fun hpass => ?_⟩
  · unfold frameAct
    rw [hunit]
    dsimp only
    rw [if_neg hform, countFrames_fits hfit]
  · unfold frameAct
    rw [hunit]
    dsimp only
    rw [if_neg hform, countFrames_passes hpass]

theorem repeatAct_unit {data rest : List Byte} {n : Nat} (hn : leAt r.body 0 4 = n)
    (hunit : unitOf h.compressed 512 (r.body.drop (8 + (4 * n + 7) / 8 * 8)) = some (data, rest))
    (hpad : padOk rest = true) (hpos : 0 < n) (hmax : n ≤ 65535) (hzero : leAt r.body 4 4 = 0)
    (hlen : 8 + (4 * n + 7) / 8 * 8 ≤ r.body.length) (htail : leAt r.body (8 + 4 * n) ((4 * n + 7) / 8 * 8 - 4 * n) = 0)
    (hfit : s.rd pgCfg CFG_FRAMES_WRITES + n ≤ h.frameCount) :
    repeatAct r.body s h = (s.wr pgCfg CFG_FRAMES_WRITES (s.rd pgCfg CFG_FRAMES_WRITES + n)).writeFrames
      (Tbl.putBytes [] 0 data) ((List.range n).map fun i => leAt r.body (8 + 4 * i) 4) := by
  have hform : ¬ (leAt r.body 4 4 ≠ 0 ∨ n = 0 ∨ 65535 < n ∨ r.body.length < 8 + (4 * n + 7) / 8 * 8 ∨
      leAt r.body (8 + 4 * n) (8 + (4 * n + 7) / 8 * 8 - 8 - 4 * n) ≠ 0 ∨ (!padOk rest) = true) := by
    rintro (hc | hc | hc | hc | hc | hc)
    · exact hc hzero
    · omega
    · omega
    · omega
    · rw [Nat.add_sub_cancel_left] at hc
      exact hc htail
    · rw [hpad] at hc
      exact absurd hc (by decide)
  unfold repeatAct
  dsimp only
  rw [hn, hunit]
  dsimp only
  rw [if_neg hform, countFrames_fits hfit]

/-! ## ZERO (R260) -/

theorem range_drop (a b : Nat) : (List.range (b + 1)).drop a = List.range' a (b + 1 - a) := by
  rw [List.range_eq_range', List.drop_range']
  simp

/-- Zero the frames of a room. -/
def zeroFrames (s : State) (a : Nat) (frames : List Nat) (q : Nat) : State :=
  if (s.room q).state = .retired then s
  else frames.foldl (fun s f => s.writeFrame (a / 2 ^ 29 * 2 ^ 29 + q * 2 ^ 12 + f) []) s

theorem zeroFrames_upd {a q : Nat} {frames : List Nat} : Upd [.fabric, .refs] s (s.zeroFrames a frames q) := by
  unfold zeroFrames
  exact Upd.ite .refl (Upd.foldl (fun t x ht => Upd.after writeFrame_upd rfl ht) _ .refl)

theorem zeroAct_one {a b : Nat} (hlen : r.body.length = 8) (ha : leAt r.body 0 4 = a) (hb : leAt r.body 4 4 = b)
    (hoka : frameOk a = true) (hokb : frameOk b = true) (hslot : a / 2 ^ 29 = b / 2 ^ 29) (hroom : addrRoom a = addrRoom b)
    (hle : addrFrame a ≤ addrFrame b)
    (hfit : s.rd pgCfg CFG_FRAMES_WRITES + (addrFrame b + 1 - addrFrame a) ≤ h.frameCount) :
    zeroAct r.body s h = (none, (s.wr pgCfg CFG_FRAMES_WRITES (s.rd pgCfg CFG_FRAMES_WRITES +
      (addrFrame b + 1 - addrFrame a))).zeroFrames a ((List.range (addrFrame b + 1)).drop (addrFrame a)) (addrRoom b)) := by
  have hok : addrRoom b % 256 < 192 := by
    unfold frameOk at hokb
    simp only [Bool.and_eq_true, decide_eq_true_eq] at hokb
    exact hokb.1.2
  have hrooms : (((List.range (addrRoom b + 1)).drop (addrRoom b)).filter fun q => q % 256 < 192) = [addrRoom b] := by
    rw [range_drop, Nat.add_sub_cancel_left]
    exact List.filter_cons_of_pos (by simpa using hok)
  have hcount : [addrRoom b].length * ((List.range (addrFrame b + 1)).drop (addrFrame a)).length = addrFrame b + 1 - addrFrame a := by
    simp
  have hform : ¬ (!frameOk a || !frameOk b || a / 2 ^ 29 != b / 2 ^ 29 || decide (addrRoom b < addrRoom a) ||
      decide (addrFrame b < addrFrame a)) = true := by
    rw [hoka, hokb, hslot, hroom]
    simp [hle]
  unfold zeroAct
  dsimp only
  rw [ha, hb, if_neg (fun hc => hc hlen), if_neg hform, hroom, hrooms, hcount, countFrames_fits hfit]
  rfl

theorem zeroAct_backwards (hlen : r.body.length = 8) (hlt : addrFrame (leAt r.body 4 4) < addrFrame (leAt r.body 0 4)) :
    zeroAct r.body s h = (some (.at_ lfBadAddress), s) := by
  unfold zeroAct
  dsimp only
  rw [if_neg (fun hc => hc hlen), if_pos (by simp [hlt])]

/-! ## ESSENTIAL and HALL (R264, R265) -/

theorem essentialAct_puts {map rest : List Byte} {c : Crew} (hunit : unitOf h.compressed mapBytes (r.body.drop 8) = some (map, rest))
    (hpad : padOk rest = true) (hzero : leAt r.body 3 5 = 0)
    (hany : (s.loader.crews.any fun e => e.id == leAt r.body 0 2 && (e.data || e.adopt)) = true)
    (hc : s.crew (leAt r.body 0 2) = some c) (hlt : leAt r.body 2 1 < c.w * c.h) :
    ∃ f : Loader → Loader, essentialAct r.body s h = (none,
      (s.putWhole (c.emap * granBytes + leAt r.body 2 1 * mapBytes) mapBytes (Tbl.putBytes [] 0 map)).modLoad f) := by
  have hform : ¬ (leAt r.body 3 5 ≠ 0 ∨ (!padOk rest) = true) := by
    rintro (hc | hc)
    · exact hc hzero
    · rw [hpad] at hc
      exact absurd hc (by decide)
  unfold essentialAct
  dsimp only
  rw [hunit]
  dsimp only
  rw [if_neg hform, if_pos hany, hc]
  dsimp only
  rw [if_neg (Nat.not_le.mpr hlt)]
  exact ⟨_, rfl⟩

/-- The HALL writes in a body. -/
def hallWrites (body : List Byte) : List (Nat × Word) :=
  (List.range (body.length / 8)).map fun i => (leAt body (8 * i) 4, BitVec.ofNat 32 (leAt body (8 * i + 4) 4))

theorem hallWrites_length (body : List Byte) : (hallWrites body).length = body.length / 8 := by
  unfold hallWrites
  rw [List.length_map, List.length_range]

theorem hallAct_eq {body : List Byte} (hlen : 8 ≤ body.length) : hallAct body s h =
    if (hallWrites body).all fun w => hallOk w.1 then (none, s.modLoad fun l => { l with hall := l.hall ++ hallWrites body })
    else (some (.at_ lfBadHall), s) := by
  have hne : (hallWrites body).isEmpty = false := by
    rw [List.isEmpty_eq_false_iff_exists_mem]
    have hpos : 0 < (hallWrites body).length := by rw [hallWrites_length]; omega
    exact List.exists_mem_of_length_pos hpos
  exact if_neg (show ¬ (hallWrites body).isEmpty = true by rw [hne]; decide)

theorem hallAct_takes {body : List Byte} (hlen : 8 ≤ body.length) (hok : ∀ i, i < body.length / 8 → hallOk (leAt body (8 * i) 4) = true) :
    hallAct body s h = (none, s.modLoad fun l => { l with hall := l.hall ++ hallWrites body }) := by
  refine (hallAct_eq hlen).trans (if_pos ?_)
  unfold hallWrites
  rw [List.all_map, List.all_eq_true]
  exact fun i hi => hok i (List.mem_range.mp hi)

theorem hallAct_bars {body : List Byte} (hlen : 8 ≤ body.length) (hbad : hallOk (leAt body 0 4) = false) :
    hallAct body s h = (some (.at_ lfBadHall), s) := by
  refine (hallAct_eq hlen).trans (if_neg fun hall => ?_)
  have hmem : (leAt body 0 4, BitVec.ofNat 32 (leAt body 4 4)) ∈ hallWrites body :=
    List.mem_map.mpr ⟨0, List.mem_range.mpr (by omega), rfl⟩
  rw [List.all_eq_true.mp hall _ hmem] at hbad
  exact absurd hbad (by decide)

/-! ## END (R266) -/

theorem endAct_empty (hcheck : s.endCheck h r.body = none) (hcrews : s.loader.crews = []) (hhall : s.loader.hall = []) :
    endAct r.body s h = (none, ((((s.modLoad fun l => { l with done := true }).wr pgCfg CFG_STAT_PHASE phFinish).raise pgCfg 1).begin mStartup)) := by
  have hadopt : s.adopters = [] := by
    unfold adopters
    rw [hcrews]
    rfl
  unfold endAct
  have hboard : s.boardCrews [] = (none, s) := by unfold boardCrews; rfl
  rw [hcheck]
  dsimp only
  rw [hadopt, hcrews]
  dsimp only [List.foldl_nil]
  rw [hcrews, hboard]
  dsimp only
  rw [hhall]
  rfl

theorem endAct_bad {b : LoadBad} (hcheck : s.endCheck h r.body = some b) : endAct r.body s h = (some b, s) := by
  unfold endAct
  rw [hcheck]

/-! ## The deadline (R245) and the cleanup (R273) -/

theorem loadErr_reads (code record detail pos : Nat) :
    (s.loadErr code record detail pos).rd pgCfg CFG_ERR_RECORD = record % 256 ∧
      (s.loadErr code record detail pos).rd pgCfg CFG_ERR_POS_POS = pos % 2 ^ 32 := by
  have hwrs (t : State) (ht : t = s.wrs pgCfg [(CFG_ERR_CODE, code), (CFG_ERR_RECORD, record), (CFG_ERR_DETAIL, detail),
      (CFG_ERR_POS_POS, pos)]) : t.rd pgCfg CFG_ERR_RECORD = record % 256 ∧ t.rd pgCfg CFG_ERR_POS_POS = pos % 2 ^ 32 := by
    rw [ht]
    simp only [wrs_cons, wrs_nil]
    refine ⟨?_, rd_wr _ _ _ _ rfl⟩
    rw [rd_wr_sep _ _ _ _ _ _ rfl rfl rfl, rd_wr_sep _ _ _ _ _ _ rfl rfl rfl]
    exact rd_wr _ _ _ _ rfl
  unfold loadErr
  extract_lets t
  split
  · rw [rd_wr_sep _ _ _ _ _ _ rfl rfl rfl, rd_wr_sep _ _ _ _ _ _ rfl rfl rfl]
    exact hwrs t rfl
  · exact hwrs t rfl

theorem cleanLoad_empty (s : State) : s.cleanLoad.crews = [] ∧ s.cleanLoad.fabric = [] ∧ s.cleanLoad.wings = [] := by
  unfold cleanLoad
  exact ⟨rfl, rfl, rfl⟩

/-- The state in which the next source of a failed load starts. -/
def cleanedLoad (s : State) : State := s.cleanLoad.wrs pgCfg [(CFG_PROGRESS_BYTES, 0), (CFG_FRAMES_WRITES, 0)]

theorem cleanedLoad_empty (s : State) :
    s.cleanedLoad.crews = [] ∧ s.cleanedLoad.fabric = [] ∧ s.cleanedLoad.wings = [] := by
  obtain ⟨hcrews, hfabric, hwings⟩ := cleanLoad_empty s
  exact ⟨(wrs_upd.frame .crews (by decide)).trans hcrews, (wrs_upd.frame .fabric (by decide)).trans hfabric,
    (wrs_upd.frame .wings (by decide)).trans hwings⟩

theorem cleanedLoad_writes (s : State) : s.cleanedLoad.rd pgCfg CFG_FRAMES_WRITES = 0 := by
  unfold cleanedLoad
  rw [wrs_cons, wrs_cons, wrs_nil]
  exact rd_wr_fit _ _ rfl (by decide)

theorem cleanedLoad_loader (s : State) : s.cleanedLoad.loader = s.loader :=
  (wrs_upd.frame .loader (by decide)).trans (cleanLoad_upd.frame .loader (by decide))

theorem loadCleaned_otherSlot (hnext : s.loader.cleaning = some .otherSlot) :
    s.loadCleaned = (s.cleanedLoad.modLoad fun _ => { Loader.fresh s.loader.boot with second := true }).loadStart := by
  unfold loadCleaned
  rw [hnext]
  dsimp only
  rw [show (s.cleanLoad.wrs pgCfg [(CFG_PROGRESS_BYTES, 0), (CFG_FRAMES_WRITES, 0)]) = s.cleanedLoad from rfl, cleanedLoad_loader]

theorem loadCleaned_host (hnext : s.loader.cleaning = some .host) :
    s.loadCleaned = (s.cleanedLoad.modLoad fun _ => Loader.fresh s.loader.boot).begin mLoadHost := by
  unfold loadCleaned
  rw [hnext]
  dsimp only
  rw [show (s.cleanLoad.wrs pgCfg [(CFG_PROGRESS_BYTES, 0), (CFG_FRAMES_WRITES, 0)]) = s.cleanedLoad from rfl, cleanedLoad_loader]

theorem loadStart_reads (s : State) :
    s.loadStart.phase = phHeader ∧ s.loadStart.rd pgCfg CFG_FRAMES_WRITES = s.rd pgCfg CFG_FRAMES_WRITES := by
  unfold loadStart phase
  rw [wrs_cons, wrs_cons, wrs_nil]
  exact ⟨rd_wr_fit _ _ rfl (by decide), (rd_wr_sep _ _ _ _ _ _ rfl rfl rfl).trans (rd_wr_sep _ _ _ _ _ _ rfl rfl rfl)⟩

end State

open State

/-- Settles O31: a record acts as its own equation says where its form holds, and a header, a segment, the deadline and the cleanup by
the branch that their premises choose. -/
theorem loaderAct : Obligations.LoaderAct := by
  refine ⟨fun s bs h hload hphase hlen hpeek hlost hcheck hmatch hlate hkey hplain => ?_,
    fun s bs code hload hphase hlen hpeek hlost hcheck =>
      congrArg Host.Outcome.next ((header_judged (h := hdrOf bs) hload hphase hlen hpeek hlost).1 code hcheck),
    fun s c tag h k hh hload hphase henc hmore htag hlen hpeek hlost hkey => ?_,
    fun s r h hd data rest hn hunit hpad hlen hzero hfit hmax hgood => ?_,
    fun s r h hd data rest hn hunit hpad hlen hzero hpass =>
      congrArg Host.Outcome.next (record_fails hn (by decide) ((frameAct_unit hunit hpad hlen hzero).2 hpass)),
    fun s u r h hd data rest hn hunit hpad hpos hmax hzero hlen htail hfit hwrite =>
      congrArg Host.Outcome.next (record_taken hn (by decide)
        ((repeatAct_unit rfl hunit hpad hpos hmax hzero hlen htail hfit).trans hwrite)),
    fun s r h hd a b hn hlen ha hb hoka hokb hslot hroom hle hkind hfit hmax => ?_,
    fun s r h hd hn hlen hlt => congrArg Host.Outcome.next (record_fails hn (by decide) (zeroAct_backwards hlen hlt)),
    fun s r h hd map rest c hn hunit hpad hzero hany hc hlt => ?_,
    fun s u r h hd b hn hact => ?_,
    fun s r h hd hn hlen hok => ?_,
    fun s r h hd hn hlen hbad => congrArg Host.Outcome.next (record_fails hn (by decide) (hallAct_bars hlen hbad)),
    fun s r h hd hn hcheck hcrews hhall => ?_,
    fun s r h hd b hn hcheck => congrArg Host.Outcome.next ((record_acts hn (.inl rfl) _).1 b (endAct_bad hcheck)),
    fun s hmode hup hload => ?_,
    fun s hmode hup => congrArg Host.Outcome.next (if_pos ⟨hmode, by rw [hup]; rfl⟩),
    fun s hnext => ?_,
    fun s hnext => ?_,
    fun s bs hload hphase hlost => congrArg Host.Outcome.next (header_lost hload hphase hlost)⟩
  · have hop := ((header_judged hload hphase hlen hpeek hlost).2 hcheck hmatch hlate hkey).trans (hdrTake_eq hplain)
    have hloader : ((((s.storedTake hdrBytes).modLoad (takenHdr h)).wrs pgCfg (hdrRegs h)).loader) =
        takenHdr h (s.storedTake hdrBytes).loader := wrs_upd.frame .loader (by decide)
    obtain ⟨hrec, horder, hwrites⟩ := hdrRegs_reads ((s.storedTake hdrBytes).modLoad (takenHdr h)) h
    exact ⟨_, congrArg Host.Outcome.next hop, congrArg Loader.hdr hloader, congrArg Loader.pos hloader, hrec, horder, hwrites,
      (Upd.after wrs_upd rfl <| Upd.after modLoad_upd rfl <| Upd.after storedTake_upd rfl .refl).frame⟩
  · obtain ⟨hopens, hbad⟩ := segment_opens hh hload hphase henc hmore htag hlen hpeek hlost hkey
    refine ⟨_, rfl, fun p hp => ?_, hbad⟩
    rw [hopens p hp]
    exact ⟨rfl, rfl, (Upd.after wr_upd rfl <| Upd.after modLoad_upd rfl <| Upd.after storedTake_upd rfl .refl).frame⟩
  · have hact := ((frameAct_unit hunit hpad hlen hzero).1 hfit).trans (writeFrames_one ((frameGood_wr _ _).trans hgood))
    generalize hv : s.wr pgCfg CFG_FRAMES_WRITES (s.rd pgCfg CFG_FRAMES_WRITES + 1) = v at hact
    have hcount : v.rd pgCfg CFG_FRAMES_WRITES = s.rd pgCfg CFG_FRAMES_WRITES + 1 := hv ▸ rd_counted hfit hmax
    have hv' : Upd [.regs] s v := hv ▸ wr_upd
    obtain ⟨hfabric, hwritten⟩ := frameWritten_reads v (leAt r.body 0 4) (Tbl.putBytes [] 0 data)
    exact ⟨_, congrArg Host.Outcome.next (record_taken hn (by decide) hact), hv'.frame .fabric (by decide) ▸ hfabric,
      (rd_congr (frameWritten_upd.frame .regs (by decide)) _ _).trans hcount, hwritten,
      (Upd.after frameWritten_upd rfl <| Upd.after hv' rfl .refl).frame⟩
  · have hact := zeroAct_one (s := s) hlen ha hb hoka hokb hslot hroom hle hfit
    refine ⟨_, congrArg Host.Outcome.next (record_taken hn (by decide) hact), ?_, ?_⟩
    · exact (rd_congr (zeroFrames_upd.frame .regs (by decide)) _ _).trans (rd_counted hfit hmax)
    · exact (Upd.after zeroFrames_upd rfl <| Upd.after wr_upd rfl .refl).frame
  · obtain ⟨f, hact⟩ := essentialAct_puts hunit hpad hzero hany hc hlt
    exact ⟨_, congrArg Host.Outcome.next (record_taken hn (by decide) hact), rfl,
      (Upd.after modLoad_upd rfl <| Upd.after putWhole_upd rfl .refl).frame⟩
  · cases b with
    | none => exact congrArg Host.Outcome.next (record_taken hn (by decide) hact)
    | some b => exact congrArg Host.Outcome.next ((record_acts hn (by decide) _).1 b hact)
  · refine ⟨_, congrArg Host.Outcome.next (record_taken hn (by decide) (hallAct_takes hlen hok)), ?_, modLoad_upd.frame⟩
    show (s.loader.hall ++ hallWrites r.body).length = _
    rw [List.length_append, hallWrites_length]
  · have hop := ((record_acts hn (.inl rfl) _).2 (endAct_empty hcheck hcrews hhall)).trans (if_pos rfl)
    refine ⟨_, congrArg Host.Outcome.next hop, congrArg Loader.done (raise_upd.frame .loader (by decide)), ?_,
      raw_raise _ _ (by decide), ?_⟩
    · exact (rd_raise_sep _ _ _ _ rfl rfl).trans (rd_wr_fit _ _ rfl (by decide))
    · exact (Upd.after raise_upd rfl <| Upd.after wr_upd rfl <| Upd.after modLoad_upd rfl .refl).frame
  · have hdeadline : s.deadline = _ := (if_neg (by simp [hup])).trans (loadFail_host hmode hload lfTruncated s.recordInHand 0 noPos)
    obtain ⟨hrecord, hpos⟩ := loadErr_reads (s := s) lfTruncated s.recordInHand 0 noPos
    have hkeep {f : Fld} (hsep : f.sep CFG_STAT_PHASE = true) (hok : f.ok = true) :
        (((s.loadErr lfTruncated s.recordInHand 0 noPos).modLoad fun l => { l with deferred := false }).wr pgCfg CFG_STAT_PHASE
          phFailed).rd pgCfg f = (s.loadErr lfTruncated s.recordInHand 0 noPos).rd pgCfg f :=
      (rd_wr_sep _ _ _ _ _ _ hsep hok rfl).trans (rd_modLoad ..)
    exact ⟨_, congrArg Host.Outcome.next hdeadline, (hkeep rfl rfl).trans (rd_loadErr_code s (by decide)), (hkeep rfl rfl).trans hrecord,
      rd_wr_fit _ _ rfl (by decide), (hkeep rfl rfl).trans hpos,
      (Upd.after wr_upd rfl <| Upd.after modLoad_upd rfl <| Upd.after loadErr_upd rfl .refl).frame⟩
  · obtain ⟨hcrews, hfabric, hwings⟩ := cleanedLoad_empty s
    obtain ⟨hphase, hwrites⟩ := loadStart_reads (s.cleanedLoad.modLoad fun _ => { Loader.fresh s.loader.boot with second := true })
    have hrest : Upd [.regs, .loader] s.cleanedLoad
        ((s.cleanedLoad.modLoad fun _ => { Loader.fresh s.loader.boot with second := true }).loadStart) :=
      Upd.after loadStart_upd rfl <| Upd.after modLoad_upd rfl .refl
    have hloader : ((s.cleanedLoad.modLoad fun _ => { Loader.fresh s.loader.boot with second := true }).loadStart).loader =
        { Loader.fresh s.loader.boot with second := true } := loadStart_upd.frame .loader (by decide)
    exact ⟨_, congrArg Host.Outcome.next (loadCleaned_otherSlot hnext), congrArg Loader.second hloader, congrArg Loader.hdr hloader,
      hphase, hwrites.trans ((rd_modLoad ..).trans (cleanedLoad_writes s)),
      (hrest.frame .crews (by decide)).trans hcrews, (hrest.frame .fabric (by decide)).trans hfabric,
      (hrest.frame .wings (by decide)).trans hwings⟩
  · obtain ⟨hcrews, hfabric, hwings⟩ := cleanedLoad_empty s
    exact ⟨_, congrArg Host.Outcome.next (loadCleaned_host hnext), rfl, (rd_modLoad ..).trans (cleanedLoad_writes s),
      (modLoad_upd.frame .crews (by decide)).trans hcrews, (modLoad_upd.frame .fabric (by decide)).trans hfabric,
      (modLoad_upd.frame .wings (by decide)).trans hwings⟩

end Sys2Proof.Machine
end

section
/-! PROOFS. O32: a write of ATT.BOOT and a table of held words out of order -/

namespace Sys2Proof.Machine
namespace State

/-- The address of ATT.BOOT. -/
def bootAddr : Nat := pgAtt * 0x1000 + 0x40

/-- RUN-NATIVE with a table of held words whose keys fall: no command leaves one from reset, but the statement allows every state. -/
def heldOutOfOrder : State :=
  { (State.reset.wr (pgSys .east) SYS_MODE_MODE mRunNative).wr (pgSys .west) SYS_MODE_MODE mRunNative with
    held := [(bootAddr + 1, 0), (bootAddr, 0)] }

theorem heldOutOfOrder_admits : heldOutOfOrder.Admits .coxS pgAtt 0x40 := by
  unfold Admits
  rfl

/-- A plain write of ATT.BOOT sets its word in the table of held words again, before the first higher key. -/
theorem held_attBoot_outOfOrder : (heldOutOfOrder.attBoot 0).held = [(bootAddr, 0), (bootAddr + 1, 0), (bootAddr, 0)] := rfl

end State

open State

/-- Refutes O32: its clause on ATT_BOOT_WRITE leaves the held words (R450) out of what the command changes. A plain write of a
register puts the register's held word back into its table, so where the table does not have its canonical form, as the clause
does not ask, the write changes it. -/
theorem not_loadCommandsAct : ¬ Obligations.LoadCommandsAct := by
  unfold Obligations.LoadCommandsAct
  rintro ⟨-, -, -, -, -, -, -, -, -, -, hboot, -⟩
  obtain ⟨t, hop, -, -, -, hrest⟩ := hboot heldOutOfOrder .coxS 0 heldOutOfOrder_admits
  have ht : heldOutOfOrder.attBoot 0 = t :=
    Host.Outcome.next.inj ((congrArg Host.Outcome.next (toPage_of_admits heldOutOfOrder_admits fun s => s.attBoot 0)).symm.trans hop)
  have hheld : t.held = heldOutOfOrder.held := hrest .held (by decide)
  rw [← ht, held_attBoot_outOfOrder] at hheld
  exact absurd (congrArg List.length hheld) (by decide)

end Sys2Proof.Machine
end
